-- ==== Sys2Proof/Word.lean ====
section
/-! DEFINITION. The word types of the block and their plainest arithmetic (00 R9, 21 R686: a register is one 32-bit
word; multi-byte fields are little-endian). -/

namespace Sys2Proof

/-- One byte. -/
abbrev Byte := BitVec 8

/-- A 16-bit half word. -/
abbrev Half := BitVec 16

/-- One register word (21 R686). -/
abbrev Word := BitVec 32

/-- A 64-bit word: host addresses and the fault collector's status words. -/
abbrev DWord := BitVec 64

/-- One 10-bit code group of a lane, the bit sent first as the most significant (09 R318, R321). -/
abbrev Group := BitVec 10

end Sys2Proof
end

