-- ==== Sys2Proof/Syntax.lean ====
section
/-! DEFINITION. The commands of the block: ONE constructor per row of spec/opcode_table.json, in the table's order, and
the operand types they carry. The table gives its rows no operand bits, so the operands are the model's own reading of
what each row's rule takes from outside (log entry 1): a register write carries the port it comes through and the word
written; a descriptor row carries the ring and the descriptor the ring engine fetches; a row that ends a read of host
memory carries what was read; a row that reports a measurement carries it. -/

namespace Sys2Proof

/-- The two light heads (00 R2). -/
inductive Head where
  | a
  | b
deriving DecidableEq, Repr

/-- The way a register access comes: PCI Express, the SPI service port (21 R685) or a boot-script record (19 R650). -/
inductive Bus where
  | pcie
  | service
  | script
deriving DecidableEq, Repr

/-- A descriptor as fetched from its ring (02 R72): bytes 0 to 7 as fields, bytes 8 to 59 as the body, DCRC. -/
structure Desc where
  opcode : Nat
  flags : Nat
  tag : Half
  csn : Word
  body : List Byte
  dcrc : Word
deriving DecidableEq, Repr

/-- How a read of host memory ended (02 R48, R89): the bytes read, a failed read with its bit of HIF_ERR (0 completion
timeout, 1 unsupported request, 2 poisoned completion, 3 completer abort), or an uncorrectable internal error. -/
inductive HostRead where
  | data (bytes : List Byte)
  | failed (kind : Nat)
  | internalError
deriving DecidableEq, Repr

/-- What a sweep's fetch brings of a host-memory slot (04 R165, R167): the source rows in the line buffer as the sweep starts,
and how the read of the source ends. -/
structure SlotFetch where
  slot : Nat
  rows : Nat
  data : HostRead
deriving DecidableEq, Repr

/-- A record received from a tile (10 R367, R371, R382): its sequence number, its fsn field, its CRC, whether no other
special symbol fell in it (R364), the quarters of the lane's receive buffer that are in use as it arrives (R383), and its
body. -/
structure TileRecord where
  seq : Nat
  fsn : Nat
  crc : Word
  symbols : Bool
  fill : Nat
  body : List Byte
deriving DecidableEq, Repr

/-- A lane's return to ACTIVE: the lane, and whether the equalisation word that it takes then is upset (09 R336). -/
structure LaneExit where
  lane : Nat
  upset : Bool
deriving DecidableEq, Repr

/-- A command of the block, one constructor per row of the table. -/
inductive Instr where
  /-- REG_WRITE (R686). -/
  | regWrite (bus : Bus) (addr enables : Nat) (value : Word)
  /-- DOORBELL (R66). -/
  | doorbell (bus : Bus) (ring : Nat) (whole : Bool) (value : Word)
  /-- RING_ENABLE (R61). -/
  | ringEnable (bus : Bus) (ring : Nat) (value : Word)
  /-- RING_DISABLE (R98). -/
  | ringDisable (bus : Bus) (ring : Nat) (value : Word)
  /-- RING_ENGINE_ENABLE (R59). -/
  | ringEngineEnable (bus : Bus)
  /-- RING_ENGINE_DISABLE (R99). -/
  | ringEngineDisable (bus : Bus)
  /-- JOURNAL_RESUME (R103). -/
  | journalResume (bus : Bus)
  /-- JOURNAL_FORGET (R103). -/
  | journalForget (bus : Bus)
  /-- NOP (R77). -/
  | nop (ring : Nat) (d : Desc)
  /-- LAYER_SET (R133). -/
  | layerSet (ring : Nat) (d : Desc)
  /-- LAYER_DATA (R146). -/
  | layerData (ring : Nat) (d : Desc)
  /-- COMMIT (R88). -/
  | commit (ring : Nat) (d : Desc)
  /-- PARAM_BLOCK_READ_DONE (R88). -/
  | paramBlockReadDone (head : Head) (csn : Word) (index : Nat) (data : HostRead)
  /-- LAYER_DATA_TRANSFER_END (R89). -/
  | layerDataTransferEnd (head : Head) (csn : Word) (index : Nat) (data : HostRead)
  /-- OBJECTS (R180). -/
  | objects (ring : Nat) (d : Desc)
  /-- OBJECTS_LIST_READ_DONE (R183). -/
  | objectsListReadDone (head : Head) (slot : Nat) (data : HostRead)
  /-- CAL_UPLOAD (R251). -/
  | calUpload (ring : Nat) (d : Desc)
  /-- CAL_UPLOAD_VALIDATED (R252). -/
  | calUploadValidated (data : HostRead)
  /-- CAL_MERGE_END (R252). -/
  | calMergeEnd
  /-- LAST_WRITE (R665). -/
  | lastWrite (ring : Nat) (d : Desc) (data : HostRead)
  /-- CRC_JOB (R513). -/
  | crcJob (ring : Nat) (d : Desc)
  /-- CRC_JOB_END (R514). -/
  | crcJobEnd (ctx : Nat) (data : HostRead)
  /-- LACE_FRAME (R496). -/
  | laceFrame (ring : Nat) (d : Desc)
  /-- NET_TX (R418). -/
  | netTx (ring : Nat) (d : Desc)
  /-- NET_RX_BUF (R424). -/
  | netRxBuf (ring : Nat) (d : Desc)
  /-- QUERY_READ_REGISTER (R78). -/
  | queryReadRegister (ring : Nat) (d : Desc)
  /-- QUERY_APPROVE_PROPOSAL (R678). -/
  | queryApproveProposal (ring : Nat) (d : Desc)
  /-- QUERY_DECLINE_PROPOSAL (R678). -/
  | queryDeclineProposal (ring : Nat) (d : Desc)
  /-- FENCE (R80). -/
  | fence (ring : Nat) (d : Desc)
  /-- ABORT (R94). -/
  | abort (ring : Nat) (d : Desc)
  /-- LTR_HOLDOFF_EXPIRY (R52). -/
  | ltrHoldoffExpiry
  /-- IRQ_COALESCE_TIMEOUT (R63). -/
  | irqCoalesceTimeout (ring : Nat)
  /-- PCIE_AER_UNCORR (R48). -/
  | pcieAerUncorr
  /-- BUDGET_PERIOD_START (R120). -/
  | budgetPeriodStart (used : List (Nat × Nat)) (errors : List (Nat × Bool))
  /-- ECC_WRITEBACK (R116). -/
  | eccWriteback
  /-- BUDGET_WRITE (R122). -/
  | budgetWrite (bus : Bus) (client : Nat) (value : Word)
  /-- REGION_WRITE (R109). -/
  | regionWrite (bus : Bus) (k : Nat) (value : Word)
  /-- SCRUB_ENABLE (R119). -/
  | scrubEnable (bus : Bus) (value : Word)
  /-- SCRUB_DISABLE (R119). -/
  | scrubDisable (bus : Bus) (value : Word)
  /-- BANK_RETIRE_START (R129). -/
  | bankRetireStart
  /-- BANK_COPY_END (R130). -/
  | bankCopyEnd
  /-- HEAD_START (R296). -/
  | headStart (bus : Bus) (head : Head) (value : Word)
  /-- HEAD_STOP (R299). -/
  | headStop (bus : Bus) (head : Head) (value : Word)
  /-- TG_COMMIT (R301). -/
  | tgCommit (bus : Bus) (head : Head)
  /-- TG_COMMIT_CHECK_END (R301). -/
  | tgCommitCheckEnd (head : Head)
  /-- SWEEP_START (R166). -/
  | sweepStart (head : Head) (sources : List SlotFetch)
  /-- TG_TRIGGER_ARRIVE (R292). -/
  | tgTriggerArrive (head : Head)
  /-- TRIGGER_WAIT_TIMEOUT (R292). -/
  | triggerWaitTimeout (head : Head)
  /-- CUT (R305). -/
  | cut (head : Head)
  /-- LATE_ROW (R167). -/
  | lateRow (head : Head) (slot line : Nat)
  /-- DRIVE_TOTAL_SEND (R241). -/
  | driveTotalSend (head : Head)
  /-- STITCH (R307). -/
  | stitch (head : Head) (late : Bool)
  /-- STITCH_SLACK_END (R308). -/
  | stitchSlackEnd (head : Head)
  /-- MAP_CHECK (R193). -/
  | mapCheck (bus : Bus) (head : Head)
  /-- SHADOW_DISABLE (R209). -/
  | shadowDisable (bus : Bus) (value : Word)
  /-- TONE_SWAP (R229). -/
  | toneSwap (bus : Bus) (head : Head)
  /-- TONE_CHECK_END (R229). -/
  | toneCheckEnd (head : Head)
  /-- HEADROOM_WRITE (R232). -/
  | headroomWrite (bus : Bus) (head : Head) (n : Nat) (value : Word)
  /-- AGE_WRITE (R259). -/
  | ageWrite (bus : Bus) (k : Nat) (value : Word)
  /-- HEALTH_CLEAR (R265). -/
  | healthClear (bus : Bus) (head : Head) (value : Word)
  /-- DOSE_CHECKPOINT_TIMER (R261). -/
  | doseCheckpointTimer
  /-- DOSE_CKPT_NOW (R261). -/
  | doseCkptNow (bus : Bus) (value : Word)
  /-- SLIP_START (R326). -/
  | slipStart (bus : Bus) (lane : Nat) (value : Word)
  /-- CDR_LOCK (R326). -/
  | cdrLock (lane : Nat)
  /-- SLIP_SEARCH_END (R326). -/
  | slipSearchEnd (lane : Nat) (bits : List Bool) (groups : List Group)
  /-- LANE_LOST (R329). -/
  | laneLost (lane : Nat) (groups : List Group) (drift : Int) (cdr : Bool)
  /-- EQ_UPDATE (R333). -/
  | eqUpdate (lane : Nat) (upset : Bool)
  /-- EYE_SCAN_START (R337). -/
  | eyeScanStart (lane : Nat)
  /-- EYE_SCAN_END (R339). -/
  | eyeScanEnd (lane : Nat) (clean : DWord) (groups : List Group) (drift : Int)
  /-- TRIM_STEP (R339). -/
  | trimStep (lane : Nat)
  /-- LANE_PSTATE (R343). -/
  | lanePstate (bus : Bus) (lane : Nat) (value : Word)
  /-- LANE_ACTIVE (R344). -/
  | laneActive (e : LaneExit)
  /-- CLEAR_COUNTS (R353). -/
  | clearCounts (bus : Bus) (block : Nat) (value : Word)
  /-- ACK_RECEIVED (R380). -/
  | ackReceived (head : Head) (tile : Nat) (r : TileRecord)
  /-- REPLAY_TIMEOUT (R381). -/
  | replayTimeout (head : Head) (tile : Nat)
  /-- STATUS_RECEIVED (R394). -/
  | statusReceived (head : Head) (tile : Nat) (r : TileRecord)
  /-- CONFIG_REPEAT (R401). -/
  | configRepeat (head : Head) (tile : Nat)
  /-- STATUS_TIMEOUT (R394). -/
  | statusTimeout (head : Head) (tile : Nat)
  /-- TEMP_RECEIVED (R395). -/
  | tempReceived (head : Head) (tile : Nat) (r : TileRecord)
  /-- TEMP_TIMEOUT (R395). -/
  | tempTimeout (head : Head) (tile : Nat)
  /-- HEALTH_RECEIVED (R396). -/
  | healthReceived (head : Head) (tile : Nat) (r : TileRecord)
  /-- ECHO_RECEIVED (R399). -/
  | echoReceived (head : Head) (tile : Nat) (r : TileRecord)
  /-- ECHO_DEADLINE (R399). -/
  | echoDeadline (head : Head) (tile : Nat)
  /-- COMMAND_REPEAT (R390). -/
  | commandRepeat (head : Head)
  /-- REQUEST_STATUS (R370). -/
  | requestStatus (bus : Bus) (head : Head) (value : Word)
  /-- REQUEST_TEST (R401). -/
  | requestTest (bus : Bus) (head : Head) (value : Word)
  /-- REQUEST_UNCONFIG (R401). -/
  | requestUnconfig (bus : Bus) (head : Head) (value : Word)
  /-- FORWARD_REQUEST (R404). -/
  | forwardRequest (bus : Bus) (head : Head) (value : Word)
  /-- FORWARD_RETURN (R406). -/
  | forwardReturn (bus : Bus) (head : Head) (value : Word)
  /-- NET_PORT_ENABLE (R454). -/
  | netPortEnable (bus : Bus) (port : Nat) (value : Word)
  /-- NET_PORT_DISABLE (R416). -/
  | netPortDisable (bus : Bus) (port : Nat) (value : Word)
  /-- NET_LINK_CHANGE (R414). -/
  | netLinkChange (port : Nat) (sync : Option Nat) (anDone remoteFault phyUp speedOk : Bool)
  /-- NET_RX_FRAME (R421). -/
  | netRxFrame (port : Nat) (frame : List Byte) (error : Nat)
  /-- NET_TX_DONE (R419). -/
  | netTxDone (port : Nat)
  /-- MDIO_WRITE (R417). -/
  | mdioWrite (bus : Bus) (value : Word)
  /-- MDIO_READ (R417). -/
  | mdioRead (bus : Bus) (value : Word)
  /-- MDIO_DONE (R417). -/
  | mdioDone (data : Half)
  /-- TELEGRAM_WINDOW_END (R447). -/
  | telegramWindowEnd (source seq : Nat)
  /-- KEY_MEMORY_EXPIRY (R449). -/
  | keyMemoryExpiry (source seq : Nat)
  /-- TELEGRAM_TIMEOUT (R451). -/
  | telegramTimeout (source : Nat)
  /-- TIME_SET (R434). -/
  | timeSet (bus : Bus)
  /-- TIME_STEP (R434). -/
  | timeStep (bus : Bus)
  /-- TIME_SLEW (R434). -/
  | timeSlew (bus : Bus)
  /-- TIME_CANCEL (R434). -/
  | timeCancel (bus : Bus)
  /-- TIME_DISCIPLINE (R436). -/
  | timeDiscipline (bus : Bus)
  /-- SLEW_COMPLETE (R434). -/
  | slewComplete
  /-- INCREMENT_APPLY (R431). -/
  | incrementApply (bus : Bus) (value : Word)
  /-- HOLD_WRITE (R436). -/
  | holdWrite (bus : Bus) (value : Word)
  /-- HOLDOVER_TIMEOUT (R436). -/
  | holdoverTimeout
  /-- NOW_LATCH (R433). -/
  | nowLatch (bus : Bus)
  /-- TRIGGER_ARM (R439). -/
  | triggerArm (bus : Bus) (n : Nat) (value : Word)
  /-- TRIGGER_DISABLE (R439). -/
  | triggerDisable (bus : Bus) (n : Nat) (value : Word)
  /-- TRIGGER_FIRE (R438). -/
  | triggerFire (n : Nat)
  /-- PPS_END (R442). -/
  | ppsEnd
  /-- CAPTURE (R443). -/
  | capture (n : Nat) (rising : Bool)
  /-- CAPTURE_POP (R444). -/
  | capturePop (bus : Bus) (n : Nat)
  /-- LOOP_SAMPLE (R458). -/
  | loopSample (n : Nat)
  /-- LOOP_COMPUTE_START (R458). -/
  | loopComputeStart
  /-- LOOP_COMPUTE_END (R474). -/
  | loopComputeEnd
  /-- LOOP_OUTPUT (R476). -/
  | loopOutput (n : Nat)
  /-- LOOP_ENABLE (R487). -/
  | loopEnable (bus : Bus) (n : Nat) (value : Word)
  /-- LOOP_DISABLE (R36). -/
  | loopDisable (bus : Bus) (n : Nat) (value : Word)
  /-- LOOP_CLEAR (R489). -/
  | loopClear (bus : Bus) (n : Nat) (value : Word)
  /-- LOOP_COMMIT (R488). -/
  | loopCommit (bus : Bus) (value : Word)
  /-- DRIVE_TOTAL_RECEIVE (R464). -/
  | driveTotalReceive (head : Head)
  /-- ADC_CONVERSION_START (R465). -/
  | adcConversionStart (c : Nat)
  /-- ADC_CONVERSION_END (R465). -/
  | adcConversionEnd (c : Nat) (code : Half)
  /-- IMU_TRANSACTION_START (R468). -/
  | imuTransactionStart
  /-- IMU_TRANSACTION_END (R469). -/
  | imuTransactionEnd (data : List Byte)
  /-- SETP_PERIOD_START (R481). -/
  | setpPeriodStart (n : Nat)
  /-- SETPOINT_WRITE (R482). -/
  | setpointWrite (bus : Bus) (n : Nat) (value : Word)
  /-- LEN_WRITE (R484). -/
  | lenWrite (bus : Bus) (value : Word)
  /-- LACE_FRAME_READY (R497). -/
  | laceFrameReady (chain : Nat) (data : HostRead)
  /-- LACE_TRIGGER (R498). -/
  | laceTrigger (chain : Nat)
  /-- LACE_FRAME_START (R498). -/
  | laceFrameStart (chain : Nat)
  /-- LACE_GAP_END (R500). -/
  | laceGapEnd (chain : Nat)
  /-- LACE_COMMIT (R503). -/
  | laceCommit (bus : Bus) (value : Word)
  /-- LACE_DISABLE (R504). -/
  | laceDisable (bus : Bus) (chain : Nat) (value : Word)
  /-- PRESET_LOAD (R512). -/
  | presetLoad (bus : Bus) (ctx : Nat) (value : Word)
  /-- FAULT_ASSERT (R528). -/
  | faultAssert (source part heads detail addr : Nat)
  /-- FAULT_CONDITION_CLEAR (R538). -/
  | faultConditionClear (source part : Nat)
  /-- EVENT_OUTPUT (R539). -/
  | eventOutput
  /-- STICKY_CLEAR (R523). -/
  | stickyClear (bus : Bus) (high : Bool) (value : Word)
  /-- COUNTER_CLEAR (R525). -/
  | counterClear (bus : Bus) (high : Bool) (value : Word)
  /-- FIRST_FAULT_CLEAR (R536). -/
  | firstFaultClear (bus : Bus) (value : Word)
  /-- SEVERITY_WRITE (R527). -/
  | severityWrite (bus : Bus) (k : Nat) (value : Word)
  /-- INJECT_ARM (R543). -/
  | injectArm (bus : Bus) (value : Word)
  /-- COLLECTOR_SELF_FAIL (R541). -/
  | collectorSelfFail
  /-- FAULT_RESET_REQUEST (R528). -/
  | faultResetRequest
  /-- CLOCK_MONITOR_GATE (R534). -/
  | clockMonitorGate (clock count : Nat)
  /-- SAFE_N_ASSERT (R556). -/
  | safeNAssert
  /-- SAFE_N_RELEASE (R556). -/
  | safeNRelease
  /-- AUTO_CLEAR_EXPIRY (R558). -/
  | autoClearExpiry (source : Nat)
  /-- HEARTBEAT_WRITE (R560). -/
  | heartbeatWrite (bus : Bus) (value : Word)
  /-- HEARTBEAT_GRACE_END (R561). -/
  | heartbeatGraceEnd
  /-- HEARTBEAT_TIMEOUT (R561). -/
  | heartbeatTimeout
  /-- WATCHDOG_EXPIRY (R562). -/
  | watchdogExpiry (index : Nat)
  /-- UNLOCK_OPEN (R575). -/
  | unlockOpen (bus : Bus)
  /-- UNLOCK_COMMIT (R577). -/
  | unlockCommit (bus : Bus)
  /-- SAFECFG_COMMIT_END (R577). -/
  | safecfgCommitEnd (written : Bool)
  /-- UNLOCK_ABANDON (R576). -/
  | unlockAbandon (bus : Bus)
  /-- SESSION_TIMEOUT (R576). -/
  | sessionTimeout
  /-- LOCKOUT_END (R575). -/
  | lockoutEnd
  /-- SAFECFG_CHECK (R571). -/
  | safecfgCheck (upset : Bool)
  /-- HK_ROUND_START (R586). -/
  | hkRoundStart
  /-- HK_CONVERSION (R585). -/
  | hkConversion (code : Nat)
  /-- HK_EVALUATION (R587). -/
  | hkEvaluation
  /-- HK_DISABLE (R588). -/
  | hkDisable (bus : Bus) (value : Word)
  /-- IDLE_ENTER (R612). -/
  | idleEnter
  /-- IDLE_EXIT (R612). -/
  | idleExit
  /-- PWR_DOZE (R613). -/
  | pwrDoze (bus : Bus)
  /-- PWR_SLEEP (R613). -/
  | pwrSleep (bus : Bus)
  /-- PWR_OFF (R613). -/
  | pwrOff (bus : Bus)
  /-- PWR_RUN (R623). -/
  | pwrRun (bus : Bus)
  /-- DOZE_TIMER_EXPIRY (R613). -/
  | dozeTimerExpiry
  /-- SLEEP_TIMER_EXPIRY (R613). -/
  | sleepTimerExpiry
  /-- BLOCK_ANSWER (R616). -/
  | blockAnswer
  /-- ASK_TIMEOUT (R616). -/
  | askTimeout
  /-- SAVE_DONE (R619). -/
  | saveDone
  /-- ENTRY_COMPLETE (R620). -/
  | entryComplete
  /-- WAKE (R623): source bit in [3:0], trigger or GPIO pin in [6:4], a falling edge in [7]. -/
  | wake (source : Nat)
  /-- WAKE_TIMER_EXPIRY (R623). -/
  | wakeTimerExpiry
  /-- POWER_GOOD (R625). -/
  | powerGood (domain : Nat)
  /-- POWER_GOOD_TIMEOUT (R629). -/
  | powerGoodTimeout (domain : Nat)
  /-- EXIT_COMPLETE (R625). -/
  | exitComplete (crcOk : Bool)
  /-- POWER_ON_DETECT (R634). -/
  | powerOnDetect
  /-- RESET_N_ASSERT (R635). -/
  | resetNAssert
  /-- RESET_N_RELEASE (R635). -/
  | resetNRelease
  /-- AO_BROWN_OUT (R634). -/
  | aoBrownOut
  /-- CORE_BROWN_OUT (R634). -/
  | coreBrownOut
  /-- SOFTWARE_WARM (R636). -/
  | softwareWarm (bus : Bus) (value : Word)
  /-- SOFTWARE_COLD (R636). -/
  | softwareCold (bus : Bus) (value : Word)
  /-- SOFTWARE_HOST (R636). -/
  | softwareHost (bus : Bus) (value : Word)
  /-- SOFTWARE_RESET_RELEASE (R636). -/
  | softwareResetRelease
  /-- PERST_N (R634). -/
  | perstN
  /-- HOT_RESET (R634). -/
  | hotReset
  /-- LINK_DOWN (R48). -/
  | linkDown
  /-- FUNCTION_LEVEL_RESET (R47). -/
  | functionLevelReset
  /-- RESET_RELEASE (R639). -/
  | resetRelease
  /-- RELEASE_STEP_COMPLETE (R639). -/
  | releaseStepComplete
  /-- BLOCK_RESET (R643). -/
  | blockReset (bus : Bus) (value : Word)
  /-- BLOCK_RESET_RELEASE (R643). -/
  | blockResetRelease (block : Nat)
  /-- BOOT_WRITE (R650). -/
  | bootWrite
  /-- BOOT_MASK_WRITE (R650). -/
  | bootMaskWrite
  /-- BOOT_POLL (R650). -/
  | bootPoll
  /-- BOOT_SLIP_SEARCH (R650). -/
  | bootSlipSearch
  /-- BOOT_LOAD_TILES (R652). -/
  | bootLoadTiles
  /-- BOOT_WAIT (R650). -/
  | bootWait
  /-- BOOT_WAIT_EXPIRY (R650). -/
  | bootWaitExpiry
  /-- BOOT_RECORD_TIMEOUT (R653). -/
  | bootRecordTimeout
  /-- BOOT_END (R656). -/
  | bootEnd
  /-- BOOT_RUN (R655). -/
  | bootRun (bus : Bus)
  /-- BOOT_STOP (R655). -/
  | bootStop (bus : Bus)
  /-- KPS_OPERATION_END (R664). -/
  | kpsOperationEnd (ok : Bool)
  /-- KPS_SCRUB_SECTOR (R674). -/
  | kpsScrubSector (corrected : Bool) (bad : Option Nat)
  /-- FUSE_PROGRAM (R680). -/
  | fuseProgram (bus : Bus) (value : Word)
  /-- FUSE_PROGRAM_END (R680). -/
  | fuseProgramEnd (ok : Bool)
  /-- WINDOW_READ_HI (R683). -/
  | windowReadHi (bus : Bus)
  /-- SVC_WRITE (R695). -/
  | svcWrite (frame : List Byte)
  /-- SVC_READ (R695). -/
  | svcRead (frame : List Byte) (upset : Bool)
  /-- SVC_BAD_COMMAND (R696). -/
  | svcBadCommand (frame : List Byte)
  /-- SVC_FRAME_DISCARD (R698). -/
  | svcFrameDiscard
  /-- PARITY_BG_CHECK (R703). -/
  | parityBgCheck (upset : Bool)
  /-- PERST_N_RELEASE (R640). -/
  | perstNRelease
  /-- PCIE_LINK_UP (R640). -/
  | pcieLinkUp (rate width : Nat)
  /-- REG_READ (R701). -/
  | regRead (addr enables : Nat) (upset : Bool)
  /-- NET_TX_READ_DONE (R419). -/
  | netTxReadDone (port : Nat) (data : HostRead)
  /-- POWER_DOMAIN_RETRY (R629). -/
  | powerDomainRetry (domain : Nat)
  /-- REF_LOSS (R18). -/
  | refLoss
  /-- REF_RETURN (R18). -/
  | refReturn
  /-- BOOT_POLL_READ (R650). -/
  | bootPollRead
deriving DecidableEq, Repr

end Sys2Proof
end

