-- ==== Sys2Proof/Decode.lean ====
section
/-! DEFINITION. The command that a word spells by the table's bits. spec/opcode_table.json gives no row any bits: a
command is an event or a register access, not a word, so every word spells none (log 1). -/

namespace Sys2Proof

/-- The command that `nbits` bits of value `w` spell: none, since no row of the table has bits. -/
def decodeTableWord (_nbits _w : Nat) : Option Instr := none

end Sys2Proof
end

