-- ==== Sys2Proof/Config.lean ====
section
/-! DEFINITION. What the spec leaves open or each part fixes for itself, as constants with no body: no proof can see a
value, so a claim holds whatever it is (log 3, 6 and 7). -/

namespace Sys2Proof.Config

/-- The n-th free value the block draws, wherever the spec gives a value no number (log 3). -/
opaque freeValue : Nat → Nat

/-- The part is the industrial grade CV2148-I (21 R692); otherwise CV2148-A. -/
opaque gradeI : Bool

/-- Fuse word `k` as blown before shipment (20 R679). -/
opaque fuseWord : Nat → Word

/-- Transmit latency L_tx of a network port in ns, fixed per part (11 R425, R455). -/
opaque lTx : Nat → BitVec 8

/-- Receive latency L_rx of a network port in ns, fixed per part (11 R425, R455). -/
opaque lRx : Nat → BitVec 8

/-- CORE down-spread in force in steps of 0.25 %, at most 4 after reduction modulo 5 (01 R18): no register of the spec
sets it (log 8). -/
opaque coreSpread : Nat

/-- Which of the integers within one unit of the exact angle the shadow engine takes for a pixel, from all that it
computes with (05 R195, log 10). -/
opaque angleSlack : List Int → Nat

end Sys2Proof.Config
end

