-- ==== Sys2Proof/Machine/Bits.lean ====
section
/-! DEFINITION. Bit fields, sign extension, byte order (00 R9: little-endian) and saturating counts, shared by every
family. -/

namespace Sys2Proof.Machine

/-- Bits [hi:lo] of a word as a number (the spec writes fields [msb:lsb]). -/
def fld (w : Word) (hi lo : Nat) : Nat := (w.toNat / 2 ^ lo) % 2 ^ (hi + 1 - lo)

/-- Bit `i` of a word. -/
def bit (w : Word) (i : Nat) : Bool := w.getLsbD i

/-- The number 1 for true and 0 for false. -/
def b2n (b : Bool) : Nat := if b then 1 else 0

/-- The word with `v` placed at bit `lo`. -/
def at_ (lo v : Nat) : Word := BitVec.ofNat 32 (v * 2 ^ lo)

/-- The word with bit `i` set when `b` holds. -/
def bitAt (i : Nat) (b : Bool) : Word := at_ i (b2n b)

/-- The mask of bits [hi:lo]. -/
def mask (hi lo : Nat) : Word := BitVec.ofNat 32 ((2 ^ (hi + 1 - lo) - 1) * 2 ^ lo)

/-- `old` with the bits of `m` replaced by those of `new`. -/
def merge (old new m : Word) : Word := (old &&& ~~~m) ||| (new &&& m)

/-- A `w`-bit field read as a signed number in two's complement. -/
def signed (w : Nat) (v : Nat) : Int :=
  let u := v % 2 ^ w
  if u < 2 ^ (w - 1) then (u : Int) else (u : Int) - 2 ^ w

/-- A signed number as a `w`-bit two's complement field. -/
def toField (w : Nat) (x : Int) : Nat := (x % (2 ^ w : Int)).toNat

/-- A number held to the range `lo` to `hi`. -/
def clampInt (lo hi x : Int) : Int := if x < lo then lo else if x > hi then hi else x

/-- Count on by `k`, saturating at `top`. -/
def satAdd (top n k : Nat) : Nat := if n + k > top then top else n + k

/-- The `n` little-endian bytes of a number (00 R9). -/
def leBytes : Nat → Nat → List Byte
  | 0, _ => []
  | n + 1, v => BitVec.ofNat 8 v :: leBytes n (v / 256)

/-- The number that little-endian bytes spell (00 R9). -/
def leNat : List Byte → Nat
  | [] => 0
  | b :: bs => b.toNat + 256 * leNat bs

/-- The `n` bytes most significant first (21 R694: the service port's address and data words). -/
def beBytes (n v : Nat) : List Byte := (leBytes n v).reverse

/-- The number that bytes spell, most significant first. -/
def beNat (bs : List Byte) : Nat := leNat bs.reverse

/-- Byte `i` of a list, 0 past its end. -/
def byteAt (bs : List Byte) (i : Nat) : Nat := (bs.getD i 0#8).toNat

/-- The little-endian number in bytes `i` to `i + n - 1`. -/
def leAt (bs : List Byte) (i n : Nat) : Nat := leNat ((bs.drop i).take n)

/-- A list of bytes cut or filled with zeros to `n` bytes. -/
def fit (n : Nat) (bs : List Byte) : List Byte := (bs ++ List.replicate n 0#8).take n

/-- The places of the true entries of a predicate below `n`, in rising order. -/
def idxWhere (n : Nat) (p : Nat → Bool) : List Nat := (List.range n).filter p

/-- The first place below `n` at which the predicate holds. -/
def firstIdx (n : Nat) (p : Nat → Bool) : Option Nat := (idxWhere n p).head?

/-- Replace entry `i` of a list. -/
def setAt {α : Type} (xs : List α) (i : Nat) (v : α) : List α := xs.set i v

/-- Round a quotient to nearest, halves away from zero towards the larger number. -/
def divRound (n d : Nat) : Nat := (n + d / 2) / d

end Sys2Proof.Machine
end

