-- ==== Sys2Proof/Machine/Crc.lean ====
section
/-! DEFINITION. The check-value computation (14 R507 to R509), in numbers: r is a number below 2^w. -/

namespace Sys2Proof.Machine

/-- A check unit's parameters (14 R507). -/
structure CrcParams where
  w : Nat
  poly : Nat
  init : Nat
  refin : Bool
  refout : Bool
  xorout : Nat
deriving DecidableEq, Repr

/-- The preset of a code (14 R508). -/
def crcPreset : Nat → Option CrcParams
  | 1 => some { w := 32, poly := 0x04C11DB7, init := 0xFFFFFFFF, refin := true, refout := true, xorout := 0xFFFFFFFF }
  | 2 => some { w := 32, poly := 0x1EDC6F41, init := 0xFFFFFFFF, refin := true, refout := true, xorout := 0xFFFFFFFF }
  | 3 => some { w := 16, poly := 0x1021, init := 0xFFFF, refin := false, refout := false, xorout := 0 }
  | 4 => some { w := 8, poly := 0x07, init := 0, refin := false, refout := false, xorout := 0 }
  | _ => none

/-- The low `w` bits of a number in reverse order. -/
def revBits : Nat → Nat → Nat
  | 0, _ => 0
  | w + 1, v => (v % 2) * 2 ^ w + revBits w (v / 2)

/-- Feed bits `i - 1` down to 0 of byte `b` into r (14 R507). -/
def crcBits (p : CrcParams) (b : Nat) : Nat → Nat → Nat
  | 0, r => r
  | i + 1, r =>
    let fb := (r >>> (p.w - 1) + b >>> i) % 2
    let r2 := (r <<< 1) % 2 ^ p.w
    crcBits p b i (if fb = 1 then r2 ^^^ p.poly else r2)

/-- Feed one byte. -/
def crcByte (p : CrcParams) (r : Nat) (b : Byte) : Nat :=
  crcBits p (if p.refin then revBits 8 b.toNat else b.toNat) 8 r

/-- Feed bytes in order (14 R507). -/
def crcFeed (p : CrcParams) (r : Nat) (bs : List Byte) : Nat := bs.foldl (crcByte p) r

/-- The result of a running value: reflected and inverted as the parameters say (14 R507). -/
def crcFinish (p : CrcParams) (r : Nat) : Nat := (if p.refout then revBits p.w r else r) ^^^ p.xorout

/-- The running value after the seed, `n` fold-in bytes of `v` and the data (14 R509). -/
def crcRun (p : CrcParams) (n v : Nat) (bs : List Byte) : Nat := crcFeed p p.init (leBytes n v ++ bs)

/-- The CRC-32C parameters, used throughout the block's own checks (14 R508). -/
def crc32cParams : CrcParams :=
  { w := 32, poly := 0x1EDC6F41, init := 0xFFFFFFFF, refin := true, refout := true, xorout := 0xFFFFFFFF }

/-- CRC-32C of bytes with `n` bytes of `v` folded in (14 R509). -/
def crc32cFold (n v : Nat) (bs : List Byte) : Nat := crcFinish crc32cParams (crcRun crc32cParams n v bs)

/-- CRC-32C of bytes. -/
def crc32c (bs : List Byte) : Nat := crc32cFold 0 0 bs

/-- CRC-32 of bytes, the Ethernet polynomial (14 R508). -/
def crc32 (bs : List Byte) : Nat :=
  match crcPreset 1 with
  | some p => crcFinish p (crcRun p 0 0 bs)
  | none => 0

/-- CRC-8 of bytes, the service port's check (14 R508, 21 R695). -/
def crc8 (bs : List Byte) : Nat :=
  match crcPreset 4 with
  | some p => crcFinish p (crcRun p 0 0 bs)
  | none => 0

end Sys2Proof.Machine
end

