-- ==== Sys2Proof/Machine/Regs.lean ====
section
/-! DEFINITION. The register words that hold a written value: for each register or register array of the chapters' tables,
its address (21 R685), its reset value, which bits are held (RW, RWS and RWL, 00 R10), which of them are RWL, and the
values that each field may take (00 R12). Read-only and acting fields stand in Access.lean. -/

namespace Sys2Proof.Machine

/-- A field [hi:lo] and the ranges of values it may be given (00 R12). -/
structure Lim where
  hi : Nat
  lo : Nat
  ok : List (Nat × Nat)

/-- A register, or an array of `n` × `m` registers `step` and `sub` bytes apart. -/
structure RegRow where
  addr : Nat
  n : Nat
  step : Nat
  m : Nat
  sub : Nat
  reset : Nat → Nat → Nat
  rw : Nat
  rwl : Nat
  lims : List Lim

/-- One register. -/
def reg1 (addr reset rw : Nat) (lims : List Lim := []) (rwl : Nat := 0) : RegRow :=
  { addr := addr, n := 1, step := 4, m := 1, sub := 4, reset := fun _ _ => reset, rw := rw, rwl := rwl, lims := lims }

/-- `n` registers `step` bytes apart with reset values by index. -/
def regN (addr n step : Nat) (reset : Nat → Nat) (rw : Nat) (lims : List Lim := []) (rwl : Nat := 0) : RegRow :=
  { addr := addr, n := n, step := step, m := 1, sub := 4, reset := fun i _ => reset i, rw := rw, rwl := rwl, lims := lims }

/-- `n` groups `step` bytes apart of `m` registers `sub` bytes apart. -/
def regNM (addr n step m sub : Nat) (reset : Nat → Nat → Nat) (rw : Nat) (lims : List Lim := []) (rwl : Nat := 0) : RegRow :=
  { addr := addr, n := n, step := step, m := m, sub := sub, reset := reset, rw := rw, rwl := rwl, lims := lims }

/-- Every bit of a word. -/
def allBits : Nat := 0xFFFFFFFF

/-- GLB (21 R692, R693). -/
def glbRows : List RegRow :=
  [ reg1 0x0000C 0 allBits, reg1 0x00018 1 1, reg1 0x00020 0 0xFFFF ]

/-- HIF (02 R49). The MSI-X table's words, vector by vector: address, upper address, data, vector control. The mask bit
of a vector is set at reset: PRESUMED, log 5. -/
def hifRows : List RegRow :=
  [ reg1 0x01008 0x7D0 0xFFFF,
    regN 0x01800 32 16 (fun _ => 0) 0xFFFFFFFC, regN 0x01804 32 16 (fun _ => 0) allBits,
    regN 0x01808 32 16 (fun _ => 0) allBits, regN 0x0180C 32 16 (fun _ => 1) 1 ]

/-- `RNG_Qn_CFG` at reset: kind, role and completion ring of the default map, size 8 (02 R65). -/
def ringCfgReset (n : Nat) : Nat :=
  let e : Nat × Nat × Nat := match n with
    | 0 => (0, 1, 1) | 1 => (1, 0, 0) | 2 => (0, 2, 1) | 3 => (0, 3, 1) | 4 => (0, 4, 1) | 5 => (0, 5, 1)
    | 6 => (0, 6, 1) | 7 => (0, 7, 1) | 8 => (0, 8, 1) | 9 => (0, 9, 1) | 10 => (0, 10, 1) | 11 => (0, 11, 13)
    | 12 => (0, 12, 13) | 13 => (1, 0, 0) | 28 => (2, 17, 0) | 29 => (2, 18, 0) | 30 => (1, 0, 0) | 31 => (2, 19, 0)
    | _ => (0, 0, 1)
  e.1 * 4 + 8 * 16 + e.2.2 * 256 + e.2.1 * 65536

/-- RNG (02 R59, R60, R62). -/
def rngRows : List RegRow :=
  [ reg1 0x03000 0 1,
    regN 0x03100 32 0x20 (fun _ => 0) 0xFFFFF000, regN 0x03104 32 0x20 (fun _ => 0) allBits,
    regN 0x03108 32 0x20 ringCfgReset 0x001F1FFF, regN 0x0310C 32 0x20 (fun n => n + 0x180) 0xFFFFFF9F ]

/-- Reset budgets by client (03 R121). -/
def budgetReset : Nat → Nat
  | 0 => 1280 | 1 => 1280 | 2 => 2048 | 3 => 2048 | 4 => 640 | 5 => 1024 | 6 => 1024 | 7 => 32 | 8 => 64 | 9 => 640
  | 10 => 16 | 11 => 256 | _ => 0

/-- Reset base and size of region `k` in units of 64 KiB (03 R108). -/
def regionReset : Nat → Nat × Nat
  | 0 => (0, 64) | 1 => (64, 64) | 2 => (128, 64) | 3 => (192, 64) | 4 => (256, 16) | 5 => (272, 16) | 6 => (288, 16)
  | 7 => (304, 16) | 8 => (320, 32) | 9 => (352, 4) | 10 => (356, 124) | _ => (0, 0)

/-- LMM (03 R112 to R114). -/
def lmmRows : List RegRow :=
  [ reg1 0x04000 0x1001 0x7F01 [⟨14, 8, [(1, 64)]⟩], reg1 0x04018 0x40 0xFFFF,
    regN 0x04040 12 4 (fun c => 65536 + budgetReset c) 0x1FFFF,
    regN 0x04100 11 4 (fun k => (regionReset k).1 + (regionReset k).2 * 65536 + 2 ^ 31) 0x83FF03FF,
    regN 0x04200 64 4 (fun _ => 0) 0x100 ]

/-- LYA and LYB (04 R174). -/
def lyRows : List RegRow := [ regN 0x05008 2 0x1000 (fun _ => 0x10) 0xFF ]

/-- The limits of the RWS timing words are judged when they come into force (08 R288), not at the write. -/
def tgHeadRows (b : Nat) : List RegRow :=
  [ reg1 b 0 (if b = 0x07000 then 0x77 else 0x75),
    reg1 (b + 0x10) 0x800 0x1FFF, reg1 (b + 0x14) 0x200 0xFFF,
    reg1 (b + 0x18) 0x10 0x3FF, reg1 (b + 0x1C) 0x10 0x3FF, reg1 (b + 0x20) 0x20 0x3FF, reg1 (b + 0x24) 8 0x3FF,
    reg1 (b + 0x28) 4 0x3FF, reg1 (b + 0x2C) 0x10 0x3FF, reg1 (b + 0x30) 0x78903 0xFFFFFF, reg1 (b + 0x34) 0x4C2C 0x3FFFF,
    reg1 (b + 0x38) 0x34BC 0x3FFFF, reg1 (b + 0x3C) 3 0xFF [⟨7, 0, [(1, 255)]⟩], reg1 (b + 0x58) 0x3E8 0xFFFF [⟨15, 0, [(1, 65535)]⟩],
    regN (b + 0x80) 8 8 (fun t => 512 * (t % 4) + 256 * (t / 4) * 65536 + 2 ^ 31) 0x8FFF1FFF,
    regN (b + 0x84) 8 8 (fun _ => 0x01000200) 0x03FF07FF ]

/-- TGA and TGB (08 R313, R310). -/
def tgRows : List RegRow := tgHeadRows 0x07000 ++ tgHeadRows 0x08000

/-- Equalisation steps: every field's range, fine_base −16 to +15 (09 R331, R357). -/
def eqLims : List Lim := [⟨21, 16, [(0, 15), (48, 63)]⟩]

/-- LNA and LNB, eight lanes each (09 R354). -/
def lnHeadRows (b : Nat) : List RegRow :=
  [ reg1 b 0x301 0x373 [⟨1, 0, [(0, 2)]⟩, ⟨5, 4, [(0, 2)]⟩], reg1 (b + 8) 0x08400064 allBits [⟨15, 0, [(10, 10000)]⟩],
    regN (b + 0x100) 8 0x20 (fun _ => 0) 0x3FF, regNM (b + 0x400) 8 0x18 6 4 (fun _ _ => 0x603A) 0x3FF7FF eqLims ]

/-- LNN, two lanes; rate, spread and ref_en are reserved there and read 0 (09 R354, 00 R11). -/
def lnnRows : List RegRow :=
  [ reg1 0x0B000 0x300 0x300, reg1 0x0B008 0x08400064 allBits [⟨15, 0, [(10, 10000)]⟩],
    regN 0x0B100 2 0x20 (fun _ => 0) 0x3FF, regNM 0x0B400 2 0x18 6 4 (fun _ _ => 0x603A) 0x3FF7FF eqLims ]

/-- TBL, both heads (10 R409, R410). -/
def tblRows : List RegRow :=
  [ regN 0x0C000 2 0x400 (fun _ => 0x00100A1E) 0x00FFFF1F
      [⟨1, 0, [(0, 2)]⟩, ⟨15, 8, [(2, 100)]⟩, ⟨23, 16, [(1, 255)]⟩] 4,
    regN 0x0C008 2 0x400 (fun _ => 0) 0xFF
      [⟨1, 0, [(0, 2)]⟩, ⟨3, 2, [(0, 2)]⟩, ⟨5, 4, [(0, 2)]⟩, ⟨7, 6, [(0, 2)]⟩],
    regN 0x0C010 2 0x400 (fun _ => 0x7D0) 0xFFFF [] 0xFFFF ]

/-- NET (11 R453, R454). -/
def netRows : List RegRow :=
  [ reg1 0x0D010 0 0x1FFFF [] 0x1FFFF, reg1 0x0D014 0x7D0 0xFFFF [⟨15, 0, [(100, 10000)]⟩] 0xFFFF,
    reg1 0x0D018 0 0xFFFF [] 0xFFFF, regN 0x0D020 4 8 (fun _ => 0) allBits [] allBits,
    regN 0x0D024 4 8 (fun _ => 0) 0x8000FFFF [] 0x8000FFFF,
    regN 0x0D100 2 0x100 (fun _ => 0x34) 0x7F, regN 0x0D108 2 0x100 (fun _ => 0) allBits,
    regN 0x0D10C 2 0x100 (fun _ => 0) 0xFFFF, regN 0x0D110 2 0x100 (fun _ => 0x5F2) 0xFFF [⟨11, 0, [(64, 2048)]⟩],
    regN 0x0D114 2 0x100 (fun _ => 0) allBits, regN 0x0D118 2 0x100 (fun _ => 0) allBits,
    regNM 0x0D120 2 0x100 8 8 (fun _ _ => 0) allBits, regNM 0x0D124 2 0x100 8 8 (fun _ _ => 0) 0x8000FFFF,
    regN 0x0D160 2 0x100 (fun _ => 0) allBits, regN 0x0D164 2 0x100 (fun _ => 0) allBits,
    regN 0x0D168 2 0x100 (fun _ => 2) 3, regNM 0x0D170 2 0x100 8 4 (fun _ _ => 0) 0x8FFF ]

/-- TIM (11 R456). -/
def timRows : List RegRow :=
  [ reg1 0x0E008 4 0xF, reg1 0x0E00C 0 allBits, reg1 0x0E010 0 allBits, reg1 0x0E014 0xF0000 allBits,
    reg1 0x0E018 0 0xFFFF [⟨15, 0, [(0, 0), (100, 60000)]⟩], reg1 0x0E040 0 allBits, reg1 0x0E044 0 0xFFFF,
    reg1 0x0E048 0 0x3FFFFFFF [⟨29, 0, [(0, 999999999)]⟩], reg1 0x0E060 0 0xFFFF0F [⟨23, 8, [(1, 65535)]⟩],
    reg1 0x0E070 0 0x9F, regN 0x0E100 8 0x20 (fun _ => 0) 1, regN 0x0E104 8 0x20 (fun _ => 0) allBits,
    regN 0x0E108 8 0x20 (fun _ => 0) 0xFFFF, regN 0x0E10C 8 0x20 (fun _ => 0) 0x3FFFFFFF,
    regN 0x0E110 8 0x20 (fun _ => 0) allBits [⟨31, 0, [(0, 0), (1000, allBits)]⟩], regN 0x0E114 8 0x20 (fun _ => 0) 0xFFFF,
    regN 0x0E200 8 0x20 (fun _ => 0) 0xFFFF [⟨4, 0, [(0, 21)]⟩, ⟨6, 5, [(1, 3)]⟩] ]

/-- CLE (12 R490). Loop words from RATE on are shadows (R488). -/
def cleRows : List RegRow :=
  [ reg1 0x0F008 0 3,
    reg1 0x0F010 0 0x1F1F1F1F [⟨1, 0, [(0, 2)]⟩, ⟨9, 8, [(0, 2)]⟩, ⟨17, 16, [(0, 2)]⟩, ⟨25, 24, [(0, 2)]⟩],
    reg1 0x0F030 0 0x3F, regN 0x0F040 6 4 (fun _ => 0) 0xFFFF, regN 0x0F060 2 4 (fun _ => 0) allBits,
    reg1 0x0F080 0x1000 0xF7FFFF [⟨15, 8, (List.range 124).map (fun k => (2 * k + 8, 2 * k + 8))⟩, ⟨18, 16, [(0, 4)]⟩], reg1 0x0F084 0x30D40 allBits [⟨31, 0, [(2000, 20000000)]⟩], reg1 0x0F088 0 allBits,
    reg1 0x0F08C 0x00A86420 0x00FFFFFF, reg1 0x0F090 0 0x80FFFF0F, reg1 0x0F094 0 0xFF,
    regN 0x0F100 8 0x80 (fun _ => 0) 0x3F7F1F, regN 0x0F104 8 0x80 (fun _ => 0x4E20) 0x1FFFFFF,
    regN 0x0F108 8 0x80 (fun _ => 0x3C0) 0xFFFF, regN 0x0F10C 8 0x80 (fun _ => 0) allBits,
    regNM 0x0F110 8 0x80 2 4 (fun _ _ => 0) allBits [⟨31, 0, [(0, 0x40000000)]⟩],
    regN 0x0F118 8 0x80 (fun _ => 1) allBits, regNM 0x0F11C 8 0x80 4 4 (fun _ _ => 0) allBits,
    regN 0x0F12C 8 0x80 (fun _ => 0x7FFFFFFF) allBits, regN 0x0F130 8 0x80 (fun _ => 0x80000000) allBits,
    regNM 0x0F134 8 0x80 2 0x14 (fun _ _ => 1) allBits,
    regNM 0x0F138 8 0x80 4 4 (fun _ _ => 0) allBits, regNM 0x0F14C 8 0x80 4 4 (fun _ _ => 0) allBits,
    regNM 0x0F15C 8 0x80 4 4 (fun _ _ => 0) allBits, regNM 0x0F16C 8 0x80 3 4 (fun _ _ => 0) 0x1FFFFFF,
    regN 0x0F178 8 0x80 (fun _ => 3) 0xFFFFFF [⟨7, 0, [(1, 255)]⟩], regN 0x0F17C 8 0x80 (fun _ => 0x7FFFFFFF) allBits ]

/-- LCE (13 R506). -/
def lceRows : List RegRow :=
  [ regN 0x10100 2 0x100 (fun _ => 0x220) 0x7FF [⟨9, 8, [(0, 2)]⟩],
    regN 0x10108 2 0x100 (fun _ => 0x50) 0x3FF [⟨9, 0, [(80, 1000)]⟩],
    regN 0x1010C 2 0x100 (fun _ => 0x01900007) 0xFFFF000F [⟨3, 0, [(0, 0), (7, 10)]⟩],
    regNM 0x10120 2 0x100 4 0x10 (fun _ _ => 0x10000) allBits, regNM 0x10124 2 0x100 4 0x10 (fun _ _ => 0) allBits,
    regNM 0x10128 2 0x100 4 0x10 (fun _ _ => 0) allBits ]

/-- CRC (14 R520, R521). -/
def crcRows : List RegRow :=
  [ reg1 0x11004 0 0x9F, regN 0x11100 4 0x20 (fun _ => 0x320) 0x733F [⟨14, 12, [(0, 4)]⟩],
    regN 0x11104 4 0x20 (fun _ => 0x1EDC6F41) allBits, regNM 0x11108 4 0x20 3 4 (fun _ _ => allBits) allBits ]

/-- Programmed severities at reset (15 R546). -/
def sevReset : Nat → Nat
  | 0 => 0x11101103 | 1 => 0x11031111 | 2 => 0x13333101 | 3 => 0x11210111 | 4 => 0x11011011 | 5 => 0x41002220
  | 6 => 0x03335352 | 7 => 0x01113111 | _ => 0

/-- FLT (15 R546). The fields of FS00 and FS63 are read-only. -/
def fltRows : List RegRow :=
  [ reg1 0x12000 4 0xF [⟨3, 1, [(0, 5)]⟩], reg1 0x12008 0 0x9F, reg1 0x12020 (sevReset 0) 0x77777770,
    regN 0x12024 6 4 (fun k => sevReset (k + 1)) 0x77777777, reg1 0x1203C (sevReset 7) 0x07777777,
    regN 0x12074 2 4 (fun _ => 0) allBits, reg1 0x12080 0 0x8FFFF33F [] 0x8FFFF33F ]

/-- SAF (16 R581). -/
def safRows : List RegRow :=
  [ reg1 0x13000 0 1, regN 0x13020 7 4 (fun _ => 0) allBits, reg1 0x13040 0 0xFFFF ]

/-- Supply windows at reset (17 R589): low mV in [15:0], high mV in [31:16], channel c + 1. -/
def hkLimReset : Nat → Nat
  | 0 => 760 + 840 * 65536 | 1 => 760 + 840 * 65536 | 2 => 855 + 945 * 65536 | 3 => 1710 + 1890 * 65536
  | 4 => 1710 + 1890 * 65536 | 5 => 3135 + 3465 * 65536 | _ => 0

/-- HKP (17 R607, R608). -/
def hkpRows : List RegRow :=
  [ reg1 0x14000 0x40001 0x70F1F [⟨18, 16, [(1, 6)]⟩] 1, reg1 0x14008 0x01F401F4 0xFFFFF3FF,
    regN 0x14084 6 4 hkLimReset allBits, reg1 0x140A0 0x00500780 0xFFFFFF [⟨23, 16, [(16, 255)]⟩],
    regN 0x140A4 4 4 (fun _ => 0x005005A0) 0xFFFFFF [⟨23, 16, [(16, 255)]⟩],
    regN 0x140B4 2 4 (fun _ => 0x004006E0) 0xFFFFFF [⟨23, 16, [(16, 255)]⟩], regN 0x140BC 2 4 (fun _ => 0x101) 0x11F,
    regNM 0x14400 4 0x100 33 4 (fun _ _ => 0) 0xFFFF ]

/-- PWR (18 R631, R632). Bits 2 and 3 of PWR_WAKE_EN read 1 whatever is written. -/
def pwrRows : List RegRow :=
  [ reg1 0x15000 1 0x771F, reg1 0x1500C 0x2710 0xFFFFF [⟨19, 0, [(1, 1000000)]⟩],
    reg1 0x15010 0xEA60 0xFFFFF [⟨19, 0, [(1, 1000000)]⟩], reg1 0x15014 0x64 0xFFFF [⟨15, 0, [(1, 65535)]⟩],
    reg1 0x15018 0x64 0x3FF [⟨9, 0, [(1, 1000)]⟩], reg1 0x15020 0x3FF 0x3F3, reg1 0x15024 0 0xFFFFFF,
    reg1 0x15030 0 allBits ]

/-- CBL (20 R684): a policy of 3 is reserved. -/
def cblRows : List RegRow :=
  [ reg1 0x17000 0x55 0xFF [⟨1, 0, [(0, 2)]⟩, ⟨3, 2, [(0, 2)]⟩, ⟨5, 4, [(0, 2)]⟩, ⟨7, 6, [(0, 2)]⟩] ]

/-- Temperature weights at reset (07 R257). -/
def doseWeightReset : Nat → Nat
  | 0 => 1024 | 1 => 2048 | 2 => 4096 | 3 => 6554 | 4 => 10650 | 5 => 16384 | 6 => 26214 | 7 => 40960 | _ => 0

/-- PXC, one head's registers at offset 0x1000 or 0x2000 (07 R285). -/
def pxcHeadRows (b : Nat) : List RegRow :=
  [ reg1 b 0x6666 0xFFFF [⟨15, 0, [(16384, 32768)]⟩] 0xFFFF, reg1 (b + 4) 0xC 0x1F [⟨4, 0, [(8, 16)]⟩],
    reg1 (b + 8) 1 0x3F [⟨5, 0, [(1, 32)]⟩], reg1 (b + 0xC) 0x004000C0 0x01FF01FF [⟨8, 0, [(0, 256)]⟩, ⟨24, 16, [(0, 256)]⟩],
    reg1 (b + 0x10) 0xA55 0xFFF
      [⟨1, 0, [(0, 2)]⟩, ⟨3, 2, [(0, 2)]⟩, ⟨5, 4, [(0, 2)]⟩, ⟨7, 6, [(0, 2)]⟩, ⟨9, 8, [(0, 2)]⟩, ⟨11, 10, [(0, 2)]⟩],
    reg1 (b + 0x14) 0x1F4 0x3FF [⟨9, 0, [(100, 700)]⟩], reg1 (b + 0x18) 8 0xFF,
    regN (b + 0x20) 6 4 (fun _ => 0x8000) 0xFFFF [⟨15, 0, [(16384, 65535)]⟩] 0xFFFF,
    regN (b + 0x80) 8 4 (fun _ => 0) 0xFF, regNM (b + 0x200) 8 16 4 4 (fun _ _ => 0) allBits ]

/-- PXC (07 R285). -/
def pxcRows : List RegRow :=
  [ reg1 0x18000 0x3F 0x3F, reg1 0x18008 0x3C 0xFF [⟨7, 0, [(10, 240)]⟩], regN 0x18020 8 4 doseWeightReset 0xFFFF,
    reg1 0x18400 0x8000 0, regN 0x18404 64 4 (fun _ => 0x8000) 0xFFFF ] ++ pxcHeadRows 0x19000 ++ pxcHeadRows 0x1A000

/-- Pass times at reset in minutes (20 R674). -/
def kpsScrubReset : Nat → Nat
  | 0 => 10080 | 1 => 10080 | 2 => 2880 | 3 => 720 | 4 => 240 | 5 => 60 | _ => 0

/-- KPS (20 R683). -/
def kpsRows : List RegRow :=
  [ reg1 0x1C000 0x00200001 0x00FF0001, reg1 0x1C008 0x00895440 allBits,
    regN 0x1C020 6 4 kpsScrubReset 0xFFFF [⟨15, 0, [(10, 65535)]⟩], reg1 0x1C070 0 0x7FFFF8 ]

/-- SHD (05 R213). -/
def shdRows : List RegRow :=
  [ reg1 0x20000 3 3, regN 0x20100 2 0x100 (fun _ => 0) 1, regN 0x20104 2 0x100 (fun _ => 0xFFFFB000) allBits,
    regN 0x20108 2 0x100 (fun _ => 0x500) allBits, regN 0x2010C 2 0x100 (fun _ => 0xFFFFEC00) allBits,
    regN 0x20110 2 0x100 (fun _ => 0x280) allBits, regN 0x20114 2 0x100 (fun _ => 0x32) 0xFFFF [⟨15, 0, [(1, 1000)]⟩] 0xFFFF,
    regN 0x20118 2 0x100 (fun _ => 0xFA) 0xFFFF [⟨15, 0, [(2, 1000)]⟩] 0xFFFF, regN 0x2011C 2 0x100 (fun _ => 0x2800) allBits [] allBits,
    regNM 0x21000 2 0x2000 1122 4 (fun _ _ => 0) allBits ]

/-- Headroom of throttle level `n` at reset (06 R232). -/
def headroomReset : Nat → Nat
  | 0 => 65535 | 1 => 62258 | 2 => 58982 | 3 => 52428 | 4 => 45875 | 5 => 39321 | 6 => 32768 | 7 => 26214 | _ => 0

/-- BLD (06 R244): modes, headrooms and the four tone banks, identity curves at reset (R228). -/
def bldRows : List RegRow :=
  [ regN 0x28100 2 0x100 (fun _ => 0) 1, regN 0x28120 2 0x100 (fun _ => 65535) 0,
    regNM 0x28124 2 0x100 7 4 (fun _ n => headroomReset (n + 1)) 0xFFFF,
    regNM 0x29000 2 0x2800 1025 4 (fun _ k => 64 * k) 0x1FFFF, regNM 0x2A400 2 0x2800 1025 4 (fun _ k => 64 * k) 0x1FFFF ]

/-- The rows of the window that word `idx` lies in (21 R685). -/
def rowsAt (idx : Nat) : List RegRow :=
  match idx / 1024 with
  | 0 => glbRows | 1 => hifRows | 3 => rngRows | 4 => lmmRows | 5 => lyRows | 6 => lyRows
  | 7 => tgRows | 8 => tgRows | 9 => lnHeadRows 0x09000 | 10 => lnHeadRows 0x0A000 | 11 => lnnRows | 12 => tblRows
  | 13 => netRows | 14 => timRows | 15 => cleRows | 16 => lceRows | 17 => crcRows | 18 => fltRows | 19 => safRows
  | 20 => hkpRows | 21 => pwrRows | 23 => cblRows | 24 => pxcRows | 25 => pxcRows | 26 => pxcRows | 27 => pxcRows
  | 28 => kpsRows | 29 => kpsRows | 30 => kpsRows | 31 => kpsRows
  | 32 => shdRows | 33 => shdRows | 34 => shdRows | 35 => shdRows | 36 => shdRows | 37 => shdRows
  | 40 => bldRows | 41 => bldRows | 42 => bldRows | 43 => bldRows | 44 => bldRows | 45 => bldRows
  | _ => []

/-- Where word address `a` (in bytes) lies in a row's array. -/
def RegRow.place (r : RegRow) (a : Nat) : Option (Nat × Nat) :=
  if a < r.addr then none
  else
    let d := a - r.addr
    let i := d / r.step
    let j := (d % r.step) / r.sub
    if i < r.n ∧ j < r.m ∧ (d % r.step) % r.sub = 0 then some (i, j) else none

/-- The row of a list that holds address `a`, with the place in it. -/
def findRow (a : Nat) : List RegRow → Option (RegRow × Nat × Nat)
  | [] => none
  | r :: rest =>
    match r.place a with
    | some (i, j) => some (r, i, j)
    | none => findRow a rest

/-- The row that holds word `idx`. -/
def rowOf (idx : Nat) : Option (RegRow × Nat × Nat) := findRow (4 * idx) (rowsAt idx)

/-- What word `idx` of the register file holds at reset. -/
def regReset (idx : Nat) : Word :=
  match rowOf idx with
  | some (r, i, j) => BitVec.ofNat 32 (r.reset i j)
  | none => 0#32

/-- The held bits of word `idx`. -/
def rwMask (idx : Nat) : Word :=
  match rowOf idx with
  | some (r, _, _) => BitVec.ofNat 32 r.rw
  | none => 0#32

/-- The RWL bits of word `idx` (00 R10). -/
def rwlMask (idx : Nat) : Word :=
  match rowOf idx with
  | some (r, _, _) => BitVec.ofNat 32 r.rwl
  | none => 0#32

/-- The field checks of word `idx` (00 R12). -/
def limsOf (idx : Nat) : List Lim :=
  match rowOf idx with
  | some (r, _, _) => r.lims
  | none => []

/-- A field's value lies in one of its ranges. -/
def Lim.holds (l : Lim) (v : Word) : Bool := l.ok.any (fun r => r.1 ≤ fld v l.hi l.lo && fld v l.hi l.lo ≤ r.2)

/-- The value written with every field that its chapter would not take put back to what it held (00 R12). -/
def keepBad (lims : List Lim) (old v : Word) : Word :=
  lims.foldl (fun acc l => if l.holds v then acc else merge acc old (mask l.hi l.lo)) v

/-- The word's RW fields are covered by parity (21 R700). The FLT registers and the table memories have protection of
their own (15 R541, 06 R230, 09 R336). -/
def covered (idx : Nat) : Bool :=
  rwMask idx != 0#32 && idx / 1024 != 18
    && !(decide (0x29000 / 4 ≤ idx) && decide (idx < 0x2E000 / 4))
    && !((idx / 1024 == 9 || idx / 1024 == 10 || idx / 1024 == 11) && decide (0x400 / 4 ≤ idx % 1024))

end Sys2Proof.Machine
end

