-- ==== Sys2Proof/Machine/Store.lean ====
section
/-! DEFINITION. One sparse map, used for the register file, the light memory, the keeping store and every indexed group
of the block's state: a list of (key, value) pairs in ONE canonical form. The keys rise strictly, and no entry equals
what an unlisted key reads as, so equal maps are equal lists. -/

namespace Sys2Proof.Machine

/-- A sparse map from numbered places to values. -/
abbrev Store (α : Type) := List (Nat × α)

/-- What place `k` holds: its entry, or the default `d k`. -/
def Store.get {α : Type} (d : Nat → α) : Store α → Nat → α
  | [], k => d k
  | (j, v) :: rest, k => if j = k then v else Store.get d rest k

/-- The entries with place `k` set to `v`, whether or not `v` is what an unlisted place reads as. -/
def Store.insert {α : Type} (k : Nat) (v : α) : Store α → Store α
  | [] => [(k, v)]
  | (j, w) :: rest =>
    if k < j then (k, v) :: (j, w) :: rest
    else if j = k then (k, v) :: rest
    else (j, w) :: Store.insert k v rest

/-- The entries without place `k`. -/
def Store.erase {α : Type} (k : Nat) : Store α → Store α
  | [] => []
  | (j, w) :: rest => if j = k then Store.erase k rest else (j, w) :: Store.erase k rest

/-- Write `v` at place `k`, keeping the canonical form: writing what an unlisted place reads as removes the entry. -/
def Store.put {α : Type} [DecidableEq α] (d : Nat → α) (m : Store α) (k : Nat) (v : α) : Store α :=
  if v = d k then Store.erase k m else Store.insert k v m

/-- Every key of the list lies above `k`. -/
def Store.above {α : Type} (k : Nat) : Store α → Bool
  | [] => true
  | (j, _) :: rest => decide (k < j) && Store.above k rest

/-- The canonical form: keys rise strictly and no entry equals the default of its place. -/
def Store.wf {α : Type} [DecidableEq α] (d : Nat → α) : Store α → Bool
  | [] => true
  | (j, v) :: rest => decide (v ≠ d j) && Store.above j rest && Store.wf d rest

/-- The places a store lists, in rising order. -/
def Store.keys {α : Type} (m : Store α) : List Nat := m.map Prod.fst

/-- The entries that the values of `vs` at `k`, `k + 1`, and so on call for: those that are not what an unlisted place reads
as. -/
def Store.entries {α : Type} [DecidableEq α] (d : Nat → α) (k : Nat) (vs : List α) : Store α :=
  (vs.zipIdx k).filterMap (fun e => if e.1 = d e.2 then none else some (e.2, e.1))

/-- Write the values of `vs` at `k`, `k + 1`, and so on: their entries take the place of those that lay there. -/
def Store.putList {α : Type} [DecidableEq α] (d : Nat → α) (m : Store α) (k : Nat) (vs : List α) : Store α :=
  m.filter (fun e => decide (e.1 < k)) ++ (Store.entries d k vs ++ m.filter (fun e => decide (k + vs.length ≤ e.1)))

/-- The entries of places `k` to `k + n - 1`. -/
def Store.slice {α : Type} (m : Store α) (k n : Nat) : Store α := m.filter (fun e => decide (k ≤ e.1) && decide (e.1 < k + n))

/-- The `n` values at `k`, `k + 1`, and so on. -/
def Store.getList {α : Type} (d : Nat → α) (m : Store α) (k n : Nat) : List α :=
  let part := Store.slice m k n
  (List.range n).map (fun i => Store.get d part (k + i))

end Sys2Proof.Machine
end

