-- ==== Sys2Proof/Machine/State.lean ====
section
/-! DEFINITION. The whole state of the block, as plain data: every register, buffer, queue, counter, mode and latch that
the spec gives it, grouped by the chapter that gives it; the queue of commands that wait; and State.reset. Each field's
docstring names the rule that gives it and its reset value. -/

namespace Sys2Proof.Machine

/-- A value per head. -/
structure Pair (α : Type) where
  /-- Head A's value. -/
  a : α
  /-- Head B's value. -/
  b : α
deriving DecidableEq, Repr

/-- Head `h`'s value of the two. -/
def Pair.get {α : Type} (p : Pair α) : Head → α
  | .a => p.a
  | .b => p.b

/-- The pair with head `h`'s value replaced. -/
def Pair.set {α : Type} (p : Pair α) (h : Head) (v : α) : Pair α :=
  match h with
  | .a => { p with a := v }
  | .b => { p with b := v }

/-- A pair with one value on both heads. -/
def Pair.both {α : Type} (v : α) : Pair α := { a := v, b := v }

/-- A command or sequence that TBL sends on every lane in service of a head (10 R363, R390, 18 R621). -/
inductive LaneCmd where
  | stitch (f : Nat)
  | husk (pattern : Nat)
  | dark
  | park (pattern : Option Nat)
deriving DecidableEq, Repr

/-- A symbol of the 8b/10b code: a byte, or the special symbol of that byte (09 R321). -/
structure Symbol where
  /-- A special symbol. -/
  special : Bool
  /-- Its byte. -/
  byte : Nat
deriving DecidableEq, Repr

/-- What a lane's transmitter sends while no symbol of its link layer leaves (09 R341, R344, R345, R348). -/
inductive LaneStream where
  /-- Electrical idle. -/
  | quiet
  /-- K28.5, the idle of a tile lane, or the idle ordered sets of a network lane. -/
  | commas
  /-- The PRBS pattern of a code. -/
  | prbs (code : Nat)
  /-- The groups that its receiver receives. -/
  | returned
  /-- The configuration ordered sets of a network lane whose control words are being exchanged (11 R413). -/
  | config
deriving DecidableEq, Repr

/-- What leaves the block, in the order in which it leaves (02 R46; the field `out` is the model's own). -/
inductive Output where
  /-- A posted write to host memory (02 R46). -/
  | hostWrite (addr : Nat) (bytes : List Byte)
  /-- An MSI-X message of a vector (02 R63). -/
  | msix (vector : Nat)
  /-- A latency tolerance message; `none` reports no requirement (02 R50, R52). -/
  | ltr (tolerance : Option (Nat × Nat))
  /-- A command sequence on every lane in service of a head (10 R390, 08 R307). -/
  | lanes (head : Head) (cmd : LaneCmd)
  /-- A Tablan packet on a lane: header, body and CRC (10 R367). -/
  | packet (head : Head) (lane : Nat) (bytes : List Byte)
  /-- A back-channel pause of `count` × 64 symbol slots on a lane (10 R361, R383). -/
  | pause (head : Head) (lane count : Nat)
  /-- Code groups on a lane, in the order in which they leave (09 R321). -/
  | groups (lane : Nat) (gs : List Group)
  /-- What a lane's transmitter sends from now on between symbols of its link layer (09 R341, R344, R345, R348). -/
  | stream (lane : Nat) (kind : LaneStream)
  /-- The value a PCI Express register read returns (21 R688). -/
  | readData (value : Word)
  /-- The response phase of a service-port frame, from 0x5A on (21 R695). -/
  | service (bytes : List Byte)
  /-- An Ethernet frame leaving a MAC (11 R418). -/
  | frame (port : Nat) (bytes : List Byte)
  /-- An MDIO clause 22 frame (11 R417). -/
  | mdio (write : Bool) (phy reg data : Nat)
  /-- A LACE frame's bytes shifted out on a chain (13 R498). -/
  | lace (chain : Nat) (bytes : List Byte)
  /-- An IMU SPI transaction of bytes sent (12 R468). -/
  | imu (bytes : List Byte)
  /-- A trigger comparator's event (11 R438). -/
  | trigger (index : Nat)
  /-- An edge on PPS_OUT (11 R442). -/
  | pps (level : Bool)
deriving DecidableEq, Repr

/-- A pending event entry of the fault collector (15 R538). -/
structure Entry where
  /-- Source number (15 R540 byte 2). -/
  source : Nat
  /-- A CLEAR entry (15 R538). -/
  clear : Bool
  /-- Its first assertion was injected (15 R544). -/
  injected : Bool
  /-- The condition is false as far as the entry has seen (15 R538). -/
  clearSeen : Bool
  /-- Severity in force at the first assertion (15 R540 byte 3). -/
  severity : Nat
  /-- Heads named, 1 A, 2 B (15 R540 byte 3). -/
  heads : Nat
  /-- Assertions coalesced (15 R538). -/
  repeats : Nat
  /-- Detail (15 R540 bytes 6 and 7). -/
  detail : Nat
  /-- TIME32 of the first assertion (15 R537). -/
  setTime : Word
  /-- TIME32 of the latest clear, or 0 (15 R538). -/
  clearTime : Word
  /-- Head A's FSN at the first assertion (15 R540). -/
  fsnA : Word
  /-- Head B's FSN at the first assertion (15 R540). -/
  fsnB : Word
deriving DecidableEq, Repr

/-- No entry at all. -/
def Entry.blank : Entry :=
  { source := 0, clear := false, injected := false, clearSeen := false, severity := 0, heads := 0, repeats := 0, detail := 0,
    setTime := 0#32, clearTime := 0#32, fsnA := 0#32, fsnB := 0#32 }

/-- The first-fault record's fields but for its valid bit (15 R536, R546). -/
structure FirstFault where
  /-- Source of the first fault (15 R536). -/
  source : Nat
  /-- Its severity (15 R536). -/
  severity : Nat
  /-- Heads it named. -/
  heads : Nat
  /-- It was injected (15 R544). -/
  injected : Bool
  /-- Its detail. -/
  detail : Nat
  /-- TIME32 of it (15 R537). -/
  time : Word
  /-- Head A's FSN then. -/
  fsnA : Word
  /-- Head B's FSN then. -/
  fsnB : Word
deriving DecidableEq, Repr

/-- The fault collector (15). Heads are a mask: 1 Head A, 2 Head B. -/
structure Flt where
  /-- Sticky status word, 64 bits (R523); reset 0. -/
  sticky : DWord
  /-- Instances of level sources whose condition is true, as (source, instance, named heads, detail), in the order in which they
  became true (R522); reset none. -/
  live : List (Nat × Nat × Nat × Nat)
  /-- Sources whose request stands for Head A (R528); reset 0. -/
  reqA : DWord
  /-- Sources whose request stands for Head B (R528); reset 0. -/
  reqB : DWord
  /-- Assertion counters, 16 bits, saturating (R525); reset 0. -/
  counts : Store Nat
  /-- Pending event entries, oldest first (R538, R539); reset none. -/
  entries : List Entry
  /-- The entry that each source's last assertion alone would open, whose time, severity, heads, detail and FSNs a CLEAR entry
  carries (R538, R540); reset none. -/
  asserted : Store Entry
  /-- FLT_EVT_LOST (R539); reset 0. -/
  lost : Nat
  /-- Entries were lost since the previous record (R540 flag [3]); reset false. -/
  lostSince : Bool
  /-- FLT_FIRST_0.valid (R536); reset false. -/
  firstValid : Bool
  /-- The first-fault record (R536); reset 0. -/
  first : FirstFault
  /-- FLT_PRIOR_STICKY (R530); cleared by a COLD reach alone. -/
  priorSticky : DWord
  /-- FLT_PRIOR_FIRST_w (R530); cleared by a COLD reach alone. -/
  priorFirst : List Word
  /-- COLLECTOR_SELF latch (R541); reset false. -/
  self : Bool
  /-- The HUSK request of a RESET reaction stands (R528, 16 R549); reset false. -/
  resetReq : Bool
  /-- FLT_STATUS.sev_refused (R547); reset false. -/
  sevRefused : Bool
  /-- FLT_STATUS.inj_refused (R547); reset false. -/
  injRefused : Bool
  /-- FLT_STATUS.src (R547); reset 0. -/
  refusedSrc : Nat
  /-- Per monitored clock, gates outside its window in a row (R534); reset 0. -/
  clkOut : Store Nat
  /-- Per monitored clock, gates inside its window in a row (R534); reset 0. -/
  clkIn : Store Nat
  /-- Clocks whose AO monitor requests HUSK directly, CORE 0 and REF 6 (R535); reset none. -/
  aoClock : List Nat
  /-- Level sources whose entry has been written while their condition stood: a CLEAR entry is due (R538); reset none. -/
  taken : DWord
  /-- The model's own mark of the CORE cycle of one command (log 50): the entries pending before it and whether the
  first-fault record was valid before it; none between commands. -/
  cycle : Option (Nat × Bool)
  /-- Assertions that wait for the collector to run, as (source, named heads, detail): for PD_CTRL to come on, or for a valid
  CORE clock (R535, 18 R629, 16 R556); reset none. -/
  owed : List (Nat × Nat × Nat)
deriving DecidableEq, Repr

/-- The safety state of one head (16). -/
structure SafHead where
  /-- 0 NORMAL, 1 DEGRADE, 2 HUSK, 3 DARK (R548, R582); reset 0. -/
  state : Nat
  /-- Pattern last sent (R582); reset 0. -/
  pattern : Nat
  /-- Degraded composition in force (R550); reset false. -/
  degraded : Bool
  /-- The HUSK and DARK requests that stand on the head: collector sources 0 to 63 at HUSK, 64 to 127 at DARK, then 128 a
  RESET reaction, 129 self-protection, 130 SAFE_N, 131 the STOP latch, 132 the DARK latch, and 140 on the AO clock monitor by
  clock (R549, 18 R623); reset none. -/
  standing : List Nat
  /-- Entries into HUSK or DARK, saturating (R582); reset 0. -/
  holds : Nat
  /-- LEN forced low by watchdog 4 or 5 (R563); reset false. -/
  wdLow : Bool
  /-- The head block of the safety configuration that the head's cut put in force (R570, R573); reset none. -/
  block : Option (List Byte)
deriving DecidableEq, Repr

/-- The safety functions (16). -/
structure Saf where
  /-- The two heads (R582). -/
  heads : Pair SafHead
  /-- Filtered SAFE_N asserted (R556); reset false. -/
  safeN : Bool
  /-- A heartbeat write has been accepted since the COLD or WARM reach (R560); reset false. -/
  hbAny : Bool
  /-- Heartbeat writes not accepted, saturating at 255 (R581); reset 0. -/
  hbBad : Nat
  /-- Heartbeat supervision has started: it runs while the timeout is not zero (R561); reset false. -/
  hbSup : Bool
  /-- Watchdog expired flags [5:0] (R581); reset 0. -/
  wdg : Nat
  /-- STOP latch of each head with its pattern, 255 the configured one (R566); reset none, cleared by COLD alone. -/
  stop : Pair (Option Nat)
  /-- DARK latch of each head (R566); reset false, cleared by COLD alone. -/
  dark : Pair Bool
  /-- Last acted telegram counter per source (R565); reset none, cleared by COLD alone. -/
  lastActed : Store (Option Nat)
  /-- The safety configuration image in force, 1,152 bytes (R569, R571); reset none. -/
  image : Option (List Byte)
  /-- Copy in force, 0 A, 1 B (R583); reset 0. -/
  copy : Nat
  /-- The image on chip fails its CRC (R571); reset false. -/
  imageBad : Bool
  /-- A session is open (R575); reset false. -/
  unlocked : Bool
  /-- OPEN is blocked for 60 s (R575); reset false, kept by WARM. -/
  lockout : Bool
  /-- SAF_STATUS.commit_error (R583); reset false. -/
  commitError : Bool
  /-- SAF_STATUS.commit_reason (R577); reset 0. -/
  commitReason : Nat
  /-- SAF_STATUS.unlock_refused (R583); reset false. -/
  unlockRefused : Bool
  /-- Consecutive failed OPENs (R575, R583); reset 0. -/
  failures : Nat
  /-- A COMMIT check is in progress (R577); reset false. -/
  committing : Bool
  /-- Change-log entries written (R577); reset 0. -/
  logSeq : Nat
  /-- Password as written to SAF_KEY_LO and SAF_KEY_HI (R575, R581); reset 0. -/
  keyLo : Word
  /-- Upper half of the password as written (R581); reset 0. -/
  keyHi : Word
deriving DecidableEq, Repr

/-- The Krovliut boot script's progress (19 R648 to R659). -/
structure Boot where
  /-- 0 not run, 1 loading, 2 running, 3 DONE, 4 FAILED, 5 NO_SCRIPT (R659); reset 0. -/
  state : Nat
  /-- Slot run (R659); reset 0. -/
  slot : Nat
  /-- AUTOLIGHT acted (R659); reset false. -/
  autolight : Bool
  /-- Failure reason (R659); reset 0. -/
  reason : Nat
  /-- Index of the record in execution (R659); reset 0. -/
  record : Nat
  /-- Byte offset of that record in the script; reset 0. -/
  pos : Nat
  /-- The record has begun and waits: for a POLL match, slip searches, tiles or time (R650); reset false. -/
  waiting : Bool
  /-- STOP was written and the record in hand is being finished (R655); reset false. -/
  stopping : Bool
  /-- RST_BOOT_TIME (R658); reset 0. -/
  time : Nat
  /-- Lanes of the SLIP_SEARCH in hand whose search has still to start (R650); reset none. -/
  lanes : List Nat
  /-- Progress of the LOAD_TILES in hand by tile: 1 waits for link-ready, 2 checked first, 3 loaded, 4 done (R652); reset
  none. -/
  tiles : Store Nat
deriving DecidableEq, Repr

/-- The reset controller (19). -/
structure Rst where
  /-- Reset sources asserted now, by their bit numbers of R634; reset the power-on detector. -/
  sources : List Nat
  /-- The reach in force or being released: 0 none, 2 WARM, 3 COLD (R641); reset COLD. -/
  reach : Nat
  /-- Release step in progress, 0 none (R639, R658); reset 0. -/
  step : Nat
  /-- The last release step that has ended, 0 while a COLD reach is asserted, 8 in operation (R639, R690). -/
  done : Nat
  /-- RST_CAUSE (R642); reset 1. -/
  cause : Word
  /-- COLD reaches, saturating (R642); reset 0. -/
  colds : Nat
  /-- WARM reaches, saturating (R642); reset 0. -/
  warms : Nat
  /-- Blocks held by RST_BLOCK (R643); reset none. -/
  blocks : List Nat
  /-- Blocks whose BLOCK reach waits for the next exit, their domain not being on (18 R630); reset none. -/
  deferred : List Nat
  /-- RST_STATUS.block_refused (R645); reset false. -/
  blockRefused : Bool
  /-- RST_STATUS.host_refused (R654, R655); reset false. -/
  hostRefused : Bool
  /-- HIF is ready, PD_HOST released (R640); reset false. -/
  hifReady : Bool
  /-- The boot script's progress (R648). -/
  boot : Boot
  /-- TIME cycles passed at the end of release step 7 (R658); reset 0. -/
  stepSeven : Nat
deriving DecidableEq, Repr

/-- The power controller (18). -/
structure Pwr where
  /-- 0 RUN, 1 IDLE, 2 DOZE, 3 SLEEP, 4 OFF (R633); reset 0. -/
  state : Nat
  /-- 0 none, 1 asking, 2 saving, 3 powering down, 4 exiting, 5 EXIT_FAIL (R633); reset 0. -/
  phase : Nat
  /-- Target state of the entry in progress (R613); reset 0. -/
  target : Nat
  /-- The last entry used save mode (R633); reset false. -/
  saveMode : Bool
  /-- The entry in progress uses save mode, decided when block 4 agrees (R618); reset false. -/
  saveNext : Bool
  /-- PWR_STATUS.cmd_refused (R633); reset false. -/
  refused : Bool
  /-- Block code of the last refusal (R617); reset 0. -/
  refuser : Nat
  /-- Timer multiplier 1, 2, 4 or 8 (R617); reset 1. -/
  backoff : Nat
  /-- The entry was requested by a timer (R617); reset false. -/
  byTimer : Bool
  /-- Blocks that have agreed, last asked first, which stand still until the exit or the end of the entry restarts them (R616,
  R617, R625); reset none. -/
  agreed : List Nat
  /-- Block being asked, 0 none (R616); reset 0. -/
  asking : Nat
  /-- Power states of the lanes before the entry switched them off (R625 step 6); reset none. -/
  lanesWere : Store Nat
  /-- GPIO edges latched on the way to OFF, as (pin, rising), in order of arrival (R620, R624); reset none. -/
  edges : List (Nat × Bool)
  /-- Header of the AO save memory: format, words saved, FSNs of both heads, CRC-32C (R619); reset none. -/
  saveHeader : List Word
  /-- Domain conditions: 0 off, 1 retained, 2 on, by the indices of R629 (R610); reset on. -/
  domains : Store Nat
  /-- Domains whose power-good is awaited in an exit (R625); reset none. -/
  awaiting : List Nat
  /-- Domains that missed power-good once (R629); reset none. -/
  missed : List Nat
  /-- PWR_WAKE_LATCH (R620); reset 0. -/
  latch : Word
  /-- PWR_WAKE_CAUSE (R624); reset 0. -/
  cause : Word
  /-- Entries completed and refusals, saturating (R631); reset 0. -/
  entries : Nat
  /-- Refusals (R631); reset 0. -/
  refusals : Nat
  /-- PWR_SAVE words saved, CRC matched, tables lost (R631); reset 0. -/
  saved : Nat
  /-- The CRC matched at the last exit (R631); reset false. -/
  crcMatch : Bool
  /-- Tables were lost (R626, R631); reset false. -/
  tablesLost : Bool
  /-- Heads started since the last COLD or WARM reach (R618); reset none. -/
  started : Pair Bool
  /-- The REF input carries its clock, as far as the outside goes (01 R18, R611); reset true. -/
  refPresent : Bool
deriving DecidableEq, Repr

/-- One ring's device-side state (02 R59, R64, R66, R69, R70). -/
structure Ring where
  /-- Next slot fetched or written (R59); reset 0. -/
  devIdx : Nat
  /-- Current phase (R59, R70); reset 1. -/
  phase : Bool
  /-- Last doorbell value accepted, or the release point (R59, R66); reset 0. -/
  hostIdx : Nat
  /-- Entries written and not yet released by the host (R66); reset 0. -/
  unreleased : Nat
  /-- Slots reserved by fetched descriptors (R69); reset 0. -/
  reserved : Nat
  /-- First slot not started when the ring stopped (R64); reset 0. -/
  stopIndex : Nat
  /-- The ring is disabled after having run (R64); reset false. -/
  stopped : Bool
  /-- RNG_Qn_STATUS.proto_err (R64); reset false. -/
  protoErr : Bool
  /-- Records not written, saturating at 0xFFFF (R64, R71); reset 0. -/
  lost : Nat
  /-- Entries written since the last interrupt (R63); reset 0. -/
  unsignalled : Nat
deriving DecidableEq, Repr

/-- A completion's content but for its phase (02 R81). -/
structure Cpl where
  /-- COMPLETE ring it goes to (R69). -/
  ring : Nat
  /-- Tag of the descriptor (R81). -/
  tag : Half
  /-- Status code (R83). -/
  code : Nat
  /-- Status detail (R83). -/
  detail : Nat
  /-- A replayed outcome (R86). -/
  replayed : Bool
  /-- CSN, or the status word of its operation (R81). -/
  word : Word
  /-- FSN (R81). -/
  fsn : Word
  /-- TIME32 (R81). -/
  time : Word
  /-- It counts as an interrupt at once (R63, R74). -/
  irq : Bool
deriving DecidableEq, Repr

/-- A member of a change set, its COMMIT included (02 R84). -/
structure Member where
  /-- SUBMIT ring it came from. -/
  ring : Nat
  /-- Slot it stood in. -/
  slot : Nat
  /-- The COMPLETE ring whose slot its fetch reserved (R69). -/
  cpl : Nat
  /-- The descriptor as fetched (R74). -/
  desc : Desc
  /-- It passed its DCRC (R76). -/
  dcrcOk : Bool
  /-- Its parameter block as read (R88 step 2). -/
  block : Option (List Byte)
  /-- Its LAYER_DATA transfer has ended (R89). -/
  moved : Bool
  /-- The leveling range that the check of a LAYER_SET took from `LYx_LEVEL_RANGE` (04 R154, R175); 0 before. -/
  range : Nat
deriving DecidableEq, Repr

/-- A descriptor fetched and not yet completed that is no change-set member (02 R94). -/
structure Work where
  /-- SUBMIT ring it came from. -/
  ring : Nat
  /-- Slot it stood in. -/
  slot : Nat
  /-- Role of that ring at the fetch (R57, R60). -/
  role : Nat
  /-- The COMPLETE ring whose slot its fetch reserved (R69). -/
  cpl : Nat
  /-- The descriptor as fetched (R74). -/
  desc : Desc
  /-- It passed its DCRC, or none is checked (R76). -/
  dcrcOk : Bool
  /-- 0 held by BARRIER and not executed; 1 in execution; 2 past its completion point, or a FENCE that waits for a stitch (R73, R80, R96). -/
  stage : Nat
  /-- Ring and slot of the earlier descriptors that a BARRIER or a FENCE waits for (R73, R80). -/
  waits : List (Nat × Nat)
  /-- Heads whose next stitch a FENCE still waits for, as a mask (R80). -/
  stitches : Nat
  /-- The host data that a held LAST_WRITE will read (R93: it stays as it is until the descriptor completes). -/
  data : HostRead
  /-- The first offending field that the check at its fetch found (13 R496, 14 R513); none where it passed, and for opcodes
  that are checked as they execute. -/
  bad : Option Nat
  /-- The members whose change set a held COMMIT closed as it was fetched (R84); none for any other descriptor. -/
  closes : Option (List Member)
deriving DecidableEq, Repr

/-- Where a committed change set stands (02 R88 to R92). -/
inductive CsStage where
  /-- Its parameter blocks are being read (step 2 of R88). -/
  | checking
  /-- Its LAYER_DATA transfers are running (R89). -/
  | transferring
  /-- It waits for an LTR message (R52, R90). -/
  | waitLtr
  /-- Fully validated, waiting for its cut (R28). -/
  | validated
  /-- Applied; the first sweep composed with it has not ended (R29). -/
  | applied
  /-- A sweep composed with it has ended; the next frame latched completes it (R29, R30). -/
  | composed
deriving DecidableEq, Repr

/-- A change set whose COMMIT has been fetched; its COMMIT is the last member (02 R36, R84). -/
structure ChangeSet where
  /-- Its change-set number (R84). -/
  csn : Word
  /-- Its members in slot order, the COMMIT last (R84). -/
  members : List Member
  /-- Where it stands (R88 to R92). -/
  stage : CsStage
  /-- The tolerance in ns that its layers need, while a message about it is held back (R52). -/
  ltr : Option Nat
deriving DecidableEq, Repr

/-- What the journal holds of a change set's outcome (02 R86). -/
structure Outcome86 where
  /-- The change set. -/
  csn : Word
  /-- Its status code. -/
  code : Nat
  /-- Its detail. -/
  detail : Nat
  /-- FSN of its completion. -/
  fsn : Word
  /-- TIME32 of its completion. -/
  time : Word
deriving DecidableEq, Repr

/-- The ring engine's side of one head (02 R84 to R87). -/
structure RngHead where
  /-- Members of the open change set in slot order (R84); reset none. -/
  opened : List Member
  /-- CSN of the open change set that ABORT acted on: later members of it complete with ABORTED (R97); reset none. -/
  abortCsn : Option Word
  /-- Committed change sets in COMMIT fetch order (R87); reset none. -/
  sets : List ChangeSet
  /-- Replayed COMMITs waiting for their original's outcome (R86); reset none. -/
  replays : List (List Member)
  /-- Outcomes of the last 256 change sets, newest first (R86); reset none. -/
  outcomes : List Outcome86
  /-- RNG_CSN_x (R59); reset 0. -/
  csn : Word
  /-- RNG_CSN_APPLIED_x (R59); reset 0. -/
  csnApplied : Word
deriving DecidableEq, Repr

/-- A completion written to a ring and not yet released, with its slot and phase (02 R102). -/
structure Written where
  /-- Its slot. -/
  slot : Nat
  /-- Its phase. -/
  phase : Bool
  /-- The completion. -/
  cpl : Cpl
deriving DecidableEq, Repr

/-- The rings' registers and positions that a HOST reach leaves in the journal (02 R102, R103). -/
structure Journal where
  /-- Ring registers at the HOST reach. -/
  regs : Store Word
  /-- Ring positions at the HOST reach. -/
  rings : Store Ring
deriving DecidableEq, Repr

/-- The ring engine (02). -/
structure Rng where
  /-- Per-ring state; reset `Ring.reset`. -/
  rings : Store Ring
  /-- The two heads (R84). -/
  heads : Pair RngHead
  /-- Fetched descriptors that are no members and have not completed, in fetch order (R94); reset none. -/
  work : List Work
  /-- Written completions not yet released (R102); reset none. -/
  written : List Written
  /-- Completions formed while their ring is disabled or the host side is down (R99, R102); reset none. -/
  held : List Cpl
  /-- The journalled ring state while RNG_JRNL_STATUS.valid (R100); reset none. -/
  journal : Option Journal
  /-- An uncorrectable word has cleared the journal: the next RESUME acts as FORGET (03 R117); reset false. -/
  journalBad : Bool
deriving DecidableEq, Repr

/-- What the host programmes in the configuration space of the PCI Express function (02 R45, R101). No row of the table
writes it (log 58). -/
structure PciFunction where
  /-- Max payload size in bytes, 128 or 256 (R45); reset 128. -/
  maxPayload : Nat
  /-- Max read request size in bytes, up to 512 (R45); reset 512. -/
  maxRead : Nat
  /-- ASPM L1 is enabled (R45); reset false. -/
  aspmL1 : Bool
  /-- Bus mastering is enabled (R101); reset false. -/
  busMaster : Bool
  /-- MSI-X is enabled (R101); reset false. -/
  msixEnable : Bool
  /-- Base address that the host gave BAR0 (R45); reset 0. -/
  bar0 : Nat
deriving DecidableEq, Repr

/-- The PCI Express host interface (02). -/
structure Hif where
  /-- The configuration space's programmable fields (R45); reset `PciFunction.reset`. -/
  function : PciFunction
  /-- HIF_LINK: link up, rate, width, L1 (R49); reset 0. -/
  linkUp : Bool
  /-- HIF_LINK rate (R49); reset 0. -/
  rate : Nat
  /-- HIF_LINK width (R49); reset 0. -/
  width : Nat
  /-- HIF_LINK link in L1 (R49); reset false. -/
  l1 : Bool
  /-- HIF_ERR [3:0] (R49); reset 0. -/
  err : Word
  /-- Last tolerance sent, in ns as its message encodes it, `none` no requirement (R50, R52); reset none. -/
  ltrLast : Option Nat
  /-- LTR messages sent, saturating (R49); reset 0. -/
  ltrSent : Nat
  /-- The 1 ms spacing since the last message runs (R52); reset false. -/
  ltrHoldoff : Bool
  /-- A tolerance held back by the spacing (R52); reset none. -/
  ltrHeld : Option (Option Nat)
  /-- The least time in ns that the data of the host-memory layers lasted as the tolerance was last judged, none without such
  a layer (R50, R51); reset none. -/
  ltrRate : Option Nat
  /-- MSI-X pending bits (R49); reset 0. -/
  pba : Word
deriving DecidableEq, Repr

/-- One host check-unit context beside its registers (14 R520). -/
structure CrcCtx where
  /-- CRC_c_RESULT; reset 0. -/
  result : Word
  /-- Jobs completed and mismatches, saturating; reset 0. -/
  jobs : Nat
  /-- Mismatches, saturating (R520); reset 0. -/
  mismatches : Nat
deriving DecidableEq, Repr

/-- The host check units (14). -/
structure Crc where
  /-- The contexts (R509); reset `CrcCtx` zeros. -/
  ctxs : Store CrcCtx
  /-- CRC_STATUS.refused and .ctx (R511, R520); reset 0. -/
  refused : Bool
  /-- CRC_STATUS.ctx (R520); reset 0. -/
  refusedCtx : Nat
deriving DecidableEq, Repr

/-- The global registers and the service port (21). -/
structure Glb where
  /-- GLB_ACCESS: word index, partial, domain_off, parity, port (R693); reset 0. -/
  index : Nat
  /-- GLB_ACCESS partial (R693); reset false. -/
  partialAccess : Bool
  /-- GLB_ACCESS domain_off (R693); reset false. -/
  domainOff : Bool
  /-- GLB_ACCESS parity (R693); reset false. -/
  parity : Bool
  /-- GLB_ACCESS port (R693); reset 0. -/
  port : Nat
  /-- GLB_SVC: CRC failures, discarded frames, bad commands, saturating (R692); reset 0. -/
  svcCrc : Nat
  /-- GLB_SVC discarded frames (R692); reset 0. -/
  svcDiscards : Nat
  /-- GLB_SVC bad commands (R692); reset 0. -/
  svcBad : Nat
  /-- Background passes completed, wrapping (R692); reset 0. -/
  passes : Nat
  /-- Next word index of the background checker (R703); reset 0. -/
  checkPos : Nat
  /-- Word indices whose stored parity fails (R702); reset none. -/
  badParity : List Nat
deriving DecidableEq, Repr

/-- One physical bank (03 R114, R127). -/
structure Bank where
  /-- Logical bank held (R114); reset: MBn holds LBn (R105). -/
  lbank : Nat
  /-- 0 SPARE, 1 SERVICE, 2 COPYING, 3 RETIRED (R114); reset SERVICE, MB60 to MB63 SPARE. -/
  state : Nat
  /-- Awaits retirement (R114, R127); reset false. -/
  candidate : Bool
  /-- Corrected errors since the last COLD reach, saturating (R114); reset 0. -/
  corrected : Nat
  /-- Corrected errors in the scrub pass in progress (R127); reset 0. -/
  passErrors : Nat
deriving DecidableEq, Repr

/-- The retirement in progress (03 R129, R130). -/
structure Retire where
  /-- Bank being retired. -/
  candidate : Nat
  /-- Spare that takes its place. -/
  spare : Nat
  /-- Every word has been copied (R130). -/
  ended : Bool
  /-- Heads whose stitch point has passed since the copy ended (R130). -/
  switched : Pair Bool
deriving DecidableEq, Repr

/-- The light memory's controller (03). -/
structure Lmm where
  /-- The banks (R105, R114). -/
  banks : Store Bank
  /-- Budgets in force in this period, by client (R121, R122); reset R121. -/
  inForce : Store Nat
  /-- Slots granted within budget and borrowed in the last period (R112); reset 0. -/
  used : Store (Nat × Nat)
  /-- LMM_STATUS.budget_refused (R112, R122); reset false. -/
  budgetRefused : Bool
  /-- LMM_STATUS.region_refused (R109, R112); reset false. -/
  regionRefused : Bool
  /-- LMM_STATUS.start_refused (R110, R112); reset false. -/
  startRefused : Bool
  /-- LMM_STATUS.detail (R112); reset 0. -/
  detail : Nat
  /-- Next physical word to scrub and completed passes (R112); reset 0. -/
  scrubPos : Nat
  /-- Completed scrub passes modulo 256 (R112); reset 0. -/
  passes : Nat
  /-- LMM_CORR_ADDR and LMM_UNCORR_ADDR (R112); reset 0. -/
  corrAddr : Word
  /-- LMM_UNCORR_ADDR (R112); reset 0. -/
  uncorrAddr : Word
  /-- Corrected words queued for write-back, physical word numbers (R116); reset none. -/
  writeBack : List Nat
  /-- Logical words that read as uncorrectable: poisoned or damaged (R117, R118); reset none. -/
  bad : List Nat
  /-- Physical words stored with bits in error, as (word, bits, by an injection): 1 until a write-back or another write, 2
  until a write (R116, R117, 15 R543, R544); reset none. -/
  latent : List (Nat × Nat × Bool)
  /-- Physical words in which this scrub pass has found a corrected error (R127); reset none. -/
  thisPass : List Nat
  /-- Physical words in which the pass before found a corrected error (R127, R129); reset none. -/
  lastPass : List Nat
  /-- Physical words that this scrub pass has found uncorrectable (R129); reset none. -/
  thisBad : List Nat
  /-- Physical words that the pass before found uncorrectable (R129); reset none. -/
  lastBad : List Nat
  /-- The retirement in progress (R129); reset none. -/
  retire : Option Retire
  /-- Candidates waiting in order of detection (R128); reset none. -/
  queue : List Nat
deriving DecidableEq, Repr

/-- A layer slot's configuration in the applied state (04 R133 to R151). -/
structure Slot where
  /-- Slot enabled (R136). -/
  enabled : Bool
  /-- 0 host memory, 1 resident, 2 shadow (R143, R177). -/
  kind : Nat
  /-- DROP_LAYER (R166); otherwise HOLD_FRAME. -/
  drop : Bool
  /-- Pixel format (R138). -/
  format : Nat
  /-- Blend operator (R218). -/
  operator : Nat
  /-- Slot alpha (R220). -/
  alpha : Nat
  /-- Source address or resident offset (R143, R145). -/
  addr : Nat
  /-- Source width (R137). -/
  width : Nat
  /-- Source height (R137). -/
  height : Nat
  /-- Source stride (R137). -/
  stride : Nat
  /-- The parameter block as read; empty when the LAYER_SET names none (R150). -/
  block : List Byte
  /-- Fill position in bytes (R146); reset 0. -/
  fill : Nat
  /-- The leveling range in rows that its LAYER_SET was validated with (R154, R175); reset 0. -/
  range : Nat
deriving DecidableEq, Repr

/-- A head's layer block (04 R174). -/
structure Ly where
  /-- Slots L0 to L7; reset disabled (R136). -/
  slots : Store Slot
  /-- LYx_STATUS not-ready slots (R174); reset 0. -/
  notReady : Nat
  /-- LYx_STATUS dropped slots (R174); reset 0. -/
  dropped : Nat
  /-- LYx_STATUS late (R174); reset false. -/
  late : Bool
  /-- Slot of the first late row (R174); reset 0. -/
  lateSlot : Nat
  /-- Line of the first late row (R174); reset 0. -/
  lateLine : Nat
  /-- Sweeps held or abandoned, and slot drops, saturating (R174); reset 0. -/
  holds : Nat
  /-- Slot drops, saturating (R174); reset 0. -/
  drops : Nat
  /-- How long the data of each host-memory slot lasted in the sweep last ended, as (slot, path, ns) (01 R29, 02 R51); reset
  none. -/
  swept : List (Nat × Head × Nat)
  /-- The same of the frame on the tiles: its tolerance holds until a later frame takes effect (02 R50, R51); reset none. -/
  shown : List (Nat × Head × Nat)
deriving DecidableEq, Repr

/-- An object list of a head (05 R183 to R186). -/
structure ObjList where
  /-- The OBJECTS descriptor that brought it. -/
  ring : Nat
  /-- Slot of that descriptor. -/
  slot : Nat
  /-- Tag of that descriptor. -/
  tag : Half
  /-- Records of the list (R181). -/
  count : Nat
  /-- The records as read, 48 bytes each (R181); empty while it is being read. -/
  records : List Byte
  /-- Capture time: full seconds and nanoseconds (R188). -/
  seconds : Nat
  /-- Nanoseconds of the capture time (R188). -/
  nanos : Nat
  /-- 0 being read, 1 fully validated and awaiting a cut, 2 applied, 3 applied and the sweep composed from it has ended
  (R184, R185). -/
  stage : Nat
deriving DecidableEq, Repr

/-- The shadow engine's side of one head (05). -/
structure Shd where
  /-- Lists held between fetch and completion point, in fetch order (R186); reset none. -/
  lists : List ObjList
  /-- The list in force (R184); reset none. -/
  inForce : Option ObjList
  /-- SHD_STATUS.map_error_x; reset false. -/
  mapError : Bool
  /-- First record that broke R182; reset 0. -/
  badRecord : Nat
  /-- Age of the last mask in µs (R213); reset all ones. -/
  age : Word
  /-- SHADOW_STALE's condition (R202, R213); reset false. -/
  stale : Bool
  /-- SHADOW_DROPPED's condition (R203, R213); reset false. -/
  dropped : Bool
  /-- Rows merged in the last mask; masks with a merge, saturating (R213); reset 0. -/
  merged : Nat
  /-- Masks with a merge (R213); reset 0. -/
  mergedMasks : Nat
deriving DecidableEq, Repr

/-- The blend stage's side of one head (06). -/
structure Bld where
  /-- Tone bank in force (R228); reset 0. -/
  bank : Nat
  /-- 0 no swap, 1 check in progress, 2 swap pending (R229); reset 0. -/
  swap : Nat
  /-- BLD_STATUS tone error of the head (R246); reset false. -/
  toneError : Bool
  /-- BLD_STATUS headroom refused of the head (R232, R246); reset false. -/
  headroomRefused : Bool
  /-- Throttle level in force and the headroom in force (R231, R244); reset 0 and 65,535. -/
  level : Nat
  /-- Headroom in force (R231, R244); reset 65,535. -/
  headroom : Nat
  /-- Last drive total sent (R244); reset 0. -/
  drive : Nat
  /-- Drive total of the frame composed last, and of the frame the tiles show (R241, R242); reset 0. -/
  composedTotal : Nat
  /-- Drive total of the frame the tiles show (R242); reset 0. -/
  shownTotal : Nat
  /-- BLD_x_CLAMPED (R240, R244); reset 0. -/
  clamped : Nat
  /-- BLD_x_LIFTED (R240, R244); reset 0. -/
  lifted : Nat
  /-- Counts of the sweep in progress, published when it has been composed in full (R240). -/
  clampedNow : Nat
  /-- Pixels raised in the sweep in progress (R240); reset 0. -/
  liftedNow : Nat
  /-- Line of the first pixel that the sweep in progress lowers or has lowered (R240); reset none. -/
  firstLowered : Option Nat
  /-- Line of the first pixel that the sweep in progress raises or has raised (R240); reset none. -/
  firstRaised : Option Nat
  /-- The flatten entry is valid (R235); reset false. -/
  flatValid : Bool
  /-- Slots in the flattened run, fixed at the cut (R233); reset 0. -/
  flatRun : Nat
  /-- Rebuild sweeps (R235, R244); reset 0. -/
  rebuilds : Nat
  /-- The sweep in progress writes the flatten cache (R235); reset false. -/
  rebuilding : Bool
  /-- The sweep in progress takes its flattened run from the cache (R235); reset false. -/
  fromCache : Bool
deriving DecidableEq, Repr

/-- A CAL_UPLOAD from its fetch to its completion (07 R252 to R254). -/
structure Cal where
  /-- SUBMIT ring it came from. -/
  ring : Nat
  /-- Slot it stood in. -/
  slot : Nat
  /-- The descriptor. -/
  desc : Desc
  /-- Head it names (R252). -/
  head : Head
  /-- Offset from the start of the head's part of the map, length as in the data. -/
  offset : Nat
  /-- The calibration codes as read (R252). -/
  data : List Byte
  /-- 0 reading, 1 validated, 2 applied at a cut and merging, 3 merged. -/
  stage : Nat
  /-- 0 not applied, 1 applied, 2 a sweep composed with it has ended (R254). -/
  shown : Nat
  /-- A frame composed with it has been latched, at this FSN (R254). -/
  latched : Option Word
  /-- Sectors of LAST CALIB still to be written for target 1 (R254). -/
  sectors : List Nat
  /-- A sector write failed (R254). -/
  failed : Bool
  /-- Its own read of CALIB met a word that cannot be corrected (03 R117); false. -/
  badRead : Bool
deriving DecidableEq, Repr

/-- Pixel conditioning's side of one head (07). -/
structure Pxc where
  /-- PXC_x_COUNTS, pixels saturated (R249, R285); reset 0. -/
  saturated : Nat
  /-- PXC_x_EXHAUSTED (R268, R285); reset 0. -/
  exhausted : Nat
  /-- Counts of the sweep in progress, published when it has been composed in full (R286). -/
  saturatedNow : Nat
  /-- Pixels exhausted in the sweep in progress (R286); reset 0. -/
  exhaustedNow : Nat
  /-- PXC_x_OVERDUE (R280, R285); reset 0. -/
  overdue : Nat
  /-- PXC_x_DOSE_SKIP (R258, R285); reset 0. -/
  doseSkip : Nat
  /-- PWM splits in force and whether the limit of R276 holds them; reset 0 and false. -/
  splits : Nat
  /-- The limit of R276 holds the splits; reset false. -/
  limited : Bool
  /-- Thermal derate band in force (R263); reset 0. -/
  band : Nat
  /-- Probe cursor of each tile (R278); reset 0. -/
  cursors : Store Nat
  /-- Deferrals of a pixel in a row (R279); reset 0. -/
  deferrals : Store Nat
  /-- Probe rows per tile that the frame of the sweep in hand carries (R278); reset 0. -/
  sentRows : Store Nat
  /-- Probe kinds that this frame carries, as (pixel, kind), 4 deferred (R279); reset none. -/
  sentKinds : List (Nat × Nat)
  /-- TIME cycle of a pixel's last probe result, 0 none since the head start (R280); reset 0. -/
  probed : Store Nat
  /-- TIME cycle of the last head start (R280); reset 0. -/
  startCycle : Nat
  /-- Words of the dose map that read as uncorrectable in this frame: its increments for them are lost (03 R117); reset
  none. -/
  lostDose : List Nat
  /-- Compensation marks wanted, as (pixel, state, proposal number or 0) (R281, R282); reset none. -/
  marks : List (Nat × Nat × Nat)
  /-- Confirmed pixels that wait for a proposal to cover them, as (pixel, state) (R281); reset none. -/
  awaiting : List (Nat × Nat)
deriving DecidableEq, Repr

/-- Pixel conditioning, both heads' shared parts (07). -/
structure PxcAll where
  /-- The two heads. -/
  heads : Pair Pxc
  /-- PXC_STATUS.age_refused (R259, R285); reset false. -/
  ageRefused : Bool
  /-- PXC_STATUS.dose_lost (R262, R285); reset false. -/
  doseLost : Bool
  /-- A dose checkpoint runs (R261, R285); reset false. -/
  ckpt : Bool
  /-- The last checkpoint failed its verification (18 R616); reset false. -/
  ckptFailed : Bool
  /-- Checkpoints completed since the last COLD reach (R285); reset 0. -/
  seq : Nat
  /-- The upload between its fetch and the end of its merge (R252 to R254); reset none. -/
  cal : Option Cal
  /-- Uploads whose merge has ended and that wait for their frame or for their sectors of LAST (R254); reset none. -/
  merged : List Cal
deriving DecidableEq, Repr

/-- A head's timing generator and stitch (08). -/
structure Tg where
  /-- 0 STOPPED, 1 STARTING, 2 RUNNING, 3 STOPPING (R295); reset 0. -/
  state : Nat
  /-- A sweep is in its active part (R287); reset false. -/
  active : Bool
  /-- The cut has passed and the stitch test of this sweep is open (R306); reset false. -/
  stitchOpen : Bool
  /-- The generator is in its trigger wait (R292); reset false. -/
  waiting : Bool
  /-- The next sweep's start is due: the start cut or a stitch point has passed (R297); reset false. -/
  due : Bool
  /-- A trigger arrived since the last sweep start (R292); reset false. -/
  trigSeen : Bool
  /-- The sweep has been composed in full with no hold or failure so far (R306); reset false. -/
  composed : Bool
  /-- The sweep has been composed with no hold and no abandonment, whether or not it may be stitched (07 R256, R286). -/
  full : Bool
  /-- The frame's drive total has been accepted by the control engine (R40, R306); reset false. -/
  driveAccepted : Bool
  /-- RWS words in force (R301, 00 R10); reset: equal to the shadows. -/
  force : Store Word
  /-- Shadow set under check, and pending copy (R301, R303); reset none. -/
  checking : Option (Store Word)
  /-- The shadow set that passed its check and waits for a cut (R303); reset none. -/
  pending : Option (Store Word)
  /-- A commit that passed its check waits for a tolerance message (R302); reset false. -/
  commitWait : Bool
  /-- TGx_STATUS.commit_error (R302, R314); reset false. -/
  commitError : Bool
  /-- TGx_STATUS.commit_reason (R302, R314); reset 0. -/
  commitReason : Nat
  /-- TGx_STATUS.timing_refused (R300, R314); reset false. -/
  timingRefused : Bool
  /-- TGx_STATUS.start_refused (R296, R314); reset false. -/
  startRefused : Bool
  /-- TGx_STATUS.start_reason (R296, R314); reset 0. -/
  startReason : Nat
  /-- TGx_STATUS: the last sweep repeated (R308, R314); reset false. -/
  lastRepeated : Bool
  /-- Consecutive repeats, saturating (R309, R313); reset 0. -/
  run : Nat
  /-- Repeats since the last telemetry snapshot (02 R104). -/
  sinceSnap : Nat
  /-- Frame sequence number (01 R26); reset 0. -/
  fsn : Word
  /-- TGx_CUT_TIME (R313); reset 0. -/
  cutTime : Word
  /-- TGx_STITCH_TIME (R27, R313); reset 0. -/
  stitchTime : Word
  /-- TGx_COUNTS.slipped (R307, R313); reset 0. -/
  slipped : Nat
  /-- TGx_COUNTS.repeats (R308, R313); reset 0. -/
  repeats : Nat
  /-- TGx_TRIGCNT early triggers (R292, R313); reset 0. -/
  early : Nat
  /-- TGx_TRIGCNT missed triggers (R293, R313); reset 0. -/
  missed : Nat
  /-- Output frame buffer that is the front buffer, 0 or 1 (R307); reset 0. -/
  front : Nat
  /-- Beam-pitch offset taken at the cut, signed 16.16 rows (04 R155); reset 0. -/
  pitch : Int
deriving DecidableEq, Repr

/-- A lane's PRBS checker beside its lock and its counts (09 R345). -/
structure Checker where
  /-- The bits from which it predicts, newest first. -/
  reg : List Bool
  /-- Bits without error since it was seeded, while it is not locked. -/
  run : Nat
  /-- Which of the last 64 bits were in error, newest first, while it is locked. -/
  flags : List Bool
  /-- Bits compared that do not yet make 2^16 (R354). -/
  part : Nat
deriving DecidableEq, Repr

/-- A serial lane (09). Lanes 0 to 7 are LA0 to LA7, 8 to 15 LB0 to LB7, 16 and 17 NL0 and NL1. -/
structure Lane where
  /-- Power state in force: 0 OFF, 1 PARK, 2 IDLE, 3 ACTIVE (R341); reset 0. -/
  pstate : Nat
  /-- CDR lock (R325, R354); reset false. -/
  cdrLock : Bool
  /-- Group boundary found (R326, R354); reset false. -/
  aligned : Bool
  /-- Slip offset 0 to 9 (R326); reset 0. -/
  slip : Nat
  /-- The last search failed (R327, R354); reset false. -/
  slipFail : Bool
  /-- A slip search is in progress (R326); reset false. -/
  searching : Bool
  /-- The PRBS checker is locked (R346, R354); reset false. -/
  prbsLock : Bool
  /-- LANE_DEGRADED's condition (R340, R354); reset false. -/
  degraded : Bool
  /-- LANE_LOST's condition (R329, R354); reset false. -/
  lost : Bool
  /-- LNx_Ll_STATUS.refused (R343, R354); reset false. -/
  refused : Bool
  /-- Figure of merit of the last scan (R337, R354); reset 0. -/
  fom : Nat
  /-- Fine trim −2 to 2 and the candidate it moves to (R339); reset 0. -/
  trim : Int
  /-- The trim that the loop moves to (R339); reset 0. -/
  target : Int
  /-- A scan of the eye monitor is in progress (R337). -/
  scanning : Bool
  /-- Clean positions of the last scan, bit p + 32 (R337); reset 0. -/
  eye : DWord
  /-- Code violations (R328, R354); reset 0. -/
  violations : Nat
  /-- Disparity errors (R328, R354); reset 0. -/
  disparities : Nat
  /-- Elastic-buffer events (R329, R354); reset 0. -/
  elastics : Nat
  /-- Losses of the lane (R329, R354); reset 0. -/
  losses : Nat
  /-- Slip searches (R326, R354); reset 0. -/
  searches : Nat
  /-- Degradations (R340, R354); reset 0. -/
  degradeds : Nat
  /-- PRBS errors (R346, R354); reset 0. -/
  prbsErrors : Nat
  /-- PRBS bits compared, in units of 2^16 (R346, R354); reset 0. -/
  prbsBits : Nat
  /-- Scans below the threshold in a row, intervals with errors in a row (R340); reset 0. -/
  lowScans : Nat
  /-- Adaptation intervals with errors in a row (R340); reset 0. -/
  badIntervals : Nat
  /-- Equalisation column and values in force (R332, R333); reset column T1, 0x603A. -/
  eqColumn : Nat
  /-- Equalisation values in force (R332, R333); reset 0x603A. -/
  eqWord : Word
  /-- An equalisation update waits for its update point (R333). -/
  eqPending : Bool
  /-- What the transmitter sends while its link layer sends nothing (R341, R344, R345, R348); reset electrical idle. -/
  stream : LaneStream
  /-- The update point of the lane's exit from OFF or PARK is still to come (R333); reset false. -/
  exitDue : Bool
  /-- The next group's place in the ordered set that a network lane sends while its MAC sends nothing (R321); reset 0. -/
  setPlace : Nat
  /-- What the decoder delivered last to the link layer: the symbol, none for an invalid one, and whether it is marked (R322);
  reset none. -/
  delivered : Option (Option Symbol × Bool)
  /-- State of a network lane's clause 36 synchronisation: 0 lost, 1 to 5 the commas and the data between them, 6 synchronised,
  7 to 12 synchronised with bad groups of late (R350); reset 0. -/
  pcs : Nat
  /-- The last group of a network lane stood in an even place (R350); reset false. -/
  pcsEven : Bool
  /-- Good groups in a row after a bad one (R350); reset 0. -/
  pcsGood : Nat
  /-- The receiver's running disparity is positive (R322); reset false. -/
  rxRd : Bool
  /-- The next group is the first after alignment: accepted in either column (R322); reset true. -/
  rxFirst : Bool
  /-- Groups received in the window of 1,024 in progress (R329); reset 0. -/
  winGroups : Nat
  /-- Errors counted in that window (R329); reset 0. -/
  winErrors : Nat
  /-- Symbol slots left of the 2 µs after a receive equalisation change (R330, R335); reset 0. -/
  excluded : Nat
  /-- An error has arrived in the interval in progress (R340); reset false. -/
  intervalErrors : Bool
  /-- Symbols in the 8-symbol elastic buffer (R325); reset 4, its centre. -/
  elastic : Nat
  /-- A search has been started since the lane last reached ACTIVE (R326); reset false. -/
  sought : Bool
  /-- The PRBS generator's last bits, newest first (R345); reset none. -/
  gen : List Bool
  /-- The PRBS checker (R345); reset unlocked. -/
  checker : Checker
deriving DecidableEq, Repr

/-- A lane block's own bits (09 R354). -/
structure LaneBlock where
  /-- LNx_STATUS.ref_refused (R323, R354); reset false. -/
  refRefused : Bool
  /-- LNx_STATUS.eq_parity (R336, R354); reset false. -/
  eqParity : Bool
deriving DecidableEq, Repr

/-- A packet towards a tile, without its sequence number (10 R367). -/
structure Packet where
  /-- Packet type (R369). -/
  ptype : Nat
  /-- The fsn field: FSN[15:0] of the frame it concerns, otherwise 0. -/
  fsn : Nat
  /-- Body (R367). -/
  body : List Byte
deriving DecidableEq, Repr

/-- TBL's side of one tile (10). -/
structure Tile where
  /-- Epoch held, 0 none (R368, R401); reset 0. -/
  epoch : Nat
  /-- Body of the last CONFIG sent under that epoch (R370, R401); reset none. -/
  config : List Byte
  /-- CONFIG is repeated until a STATUS shows the new epoch (R401). -/
  configWait : Bool
  /-- TBL_x_Tt_ID (R371, R409); reset 0. -/
  id : Word
  /-- TBL_x_Tt_INFO (R371, R409); reset 0. -/
  info : Word
  /-- Largest W and H the tile supports (R371). -/
  maxW : Nat
  /-- Largest H the tile supports (R371). -/
  maxH : Nat
  /-- Tile state of the last STATUS (R371, R411); reset 0. -/
  state : Nat
  /-- A STATUS has arrived and is no older than 20 ms (R401). -/
  fresh : Bool
  /-- TBL_x_STATUS: no STATUS for 20 ms (R394, R409); reset false. -/
  stale : Bool
  /-- Patterns the tile holds (R371, R411); reset 0. -/
  patterns : Nat
  /-- Fault bits of the last STATUS (R394, R411); reset 0. -/
  faults : Nat
  /-- The epoch the last STATUS showed (R394). -/
  shownEpoch : Nat
  /-- Last TEMP (R395, R411); reset 0x8000. -/
  temperature : Nat
  /-- No TEMP has arrived for 20 ms (R395). -/
  tempGone : Bool
  /-- The last TEMP exceeded the threshold (R395). -/
  tooHot : Bool
  /-- Next sequence number to send, and next record number expected (R378). -/
  txSeq : Nat
  /-- Next record number expected (R378); reset 0. -/
  rxSeq : Nat
  /-- Packets sent and not acknowledged, oldest first, with their numbers (R379). -/
  unacked : List (Nat × Packet)
  /-- Packets waiting for the window (R379). -/
  queue : List Packet
  /-- TBL_x_Tt_REPLAY packets replayed (R409); reset 0. -/
  replayed : Nat
  /-- TBL_x_Tt_REPLAY NAKs (R409); reset 0. -/
  naks : Nat
  /-- TBL_x_Tt_BACK bad records (R409); reset 0. -/
  bad : Nat
  /-- TBL_x_Tt_BACK lost records (R409); reset 0. -/
  lostRecords : Nat
  /-- F and CRC of the echo awaited (R399). -/
  echoWait : Option (Word × Word)
  /-- The CRC of the echo awaited carries an injected error (15 R543, R544); reset false. -/
  echoInjected : Bool
  /-- TBL_x_Tt_ECHO (R409); reset 0. -/
  lastEcho : Word
  /-- TBL_x_Tt_ECNT mismatched (R409); reset 0. -/
  mismatched : Nat
  /-- TBL_x_Tt_ECNT missing (R409); reset 0. -/
  missing : Nat
  /-- Echo results since the last snapshot: matched, mismatched, missing (02 R104). -/
  snapMatched : Bool
  /-- An echo mismatched since the last snapshot (02 R104); reset false. -/
  snapMismatched : Bool
  /-- An echo was missing since the last snapshot (02 R104); reset false. -/
  snapMissing : Bool
deriving DecidableEq, Repr

/-- The link layer of one head (10). -/
structure Tbl where
  /-- The tiles; reset `Tile.reset`. -/
  tiles : Store Tile
  /-- TBL_x_FWD in force, 2 bits per pair (R409); reset 0. -/
  inForce : Nat
  /-- TBL_x_FWD.capacity_refused, a bit per pair; reset 0. -/
  capRefused : Nat
  /-- Codes of R409 by which the packets of each pair travel, 2 bits per pair: a request is adopted at a stitch point, and
  comes into force at the STITCH that latches a frame sent so (R404, R406); reset 0. -/
  route : Nat
  /-- Pairs whose switch to their request awaits the stitch point, a bit each (R404, R406); reset 0. -/
  switching : Nat
  /-- Tiles that fwd_en stands for, a bit each (R404, R406); reset 0. -/
  forwarders : Nat
  /-- Quarters of each lane's record buffer in use (R383); reset 0. -/
  rxFill : Store Nat
  /-- TBL_x_CAP as of the last check (R377, R409); reset 0. -/
  cap : Word
  /-- Last epoch issued (R409); reset 0. -/
  epoch : Nat
  /-- HUSKPAT offset plus one of the entry last loaded, by pattern × 8 + tile (R393, 19 R652); reset 0. -/
  huskAt : Store Nat
deriving DecidableEq, Repr

/-- A timestamp with what holds as it is taken (11 R420, R425). -/
structure Stamp where
  /-- The time in units of 2^−16 ns. -/
  time : Nat
  /-- It is taken in holdover. -/
  holdover : Bool
  /-- The time is valid. -/
  valid : Bool
deriving DecidableEq, Repr

/-- A port's side of the MAC (11). -/
structure NetPort where
  /-- NET_p_STATUS link up (R414, R453); reset false. -/
  link : Bool
  /-- Synchronised (R453); reset false. -/
  sync : Bool
  /-- Auto-negotiation done (R453); reset false. -/
  anDone : Bool
  /-- Link partner's speed not supported (R414, R453); reset false. -/
  speedUnsupported : Bool
  /-- Remote fault (R453); reset false. -/
  remoteFault : Bool
  /-- NET_p_STATUS.refused (R453); reset false. -/
  refused : Bool
  /-- Frames read and waiting or in the MAC, in ring order, each with its descriptor's ring and slot (R419). -/
  txFrames : List (Nat × Nat × List Byte)
  /-- The timestamp of the first of them, taken as it began to leave, none before (R425, R428). -/
  txSeen : Option Stamp
  /-- Frames that arrived in DOZE or SLEEP and wait for RUN, each with its receive timestamp (18 R623, R424). -/
  waiting : List (List Byte × Stamp)
  /-- The PHY reports its link up at 1000 Mb/s full duplex (R414); reset false. -/
  phyUp : Bool
  /-- A frame was in reception as the port was disabled (R416); reset false. -/
  inReception : Bool
  /-- NET_p_CNT_TX (R453); reset 0. -/
  cntTx : Nat
  /-- NET_p_CNT_RX (R453); reset 0. -/
  cntRx : Nat
  /-- Frames dropped with no buffer (R453); reset 0. -/
  noBuf : Nat
  /-- Frames too long (R453); reset 0. -/
  tooLong : Nat
  /-- Frames with a bad check sequence (R453); reset 0. -/
  cntFcs : Nat
  /-- Frames with a symbol error (R453); reset 0. -/
  cntSym : Nat
deriving DecidableEq, Repr

/-- An open telegram key (11 R446). -/
structure TelKey where
  /-- Telegram source (R446). -/
  source : Nat
  /-- Sequence number (R446). -/
  seq : Nat
  /-- Port of the first copy (R446). -/
  port : Nat
  /-- TIME32 of the first copy's receive timestamp. -/
  time : Word
  /-- The first copy (R446). -/
  frame : List Byte
deriving DecidableEq, Repr

/-- The network block's shared parts (11). -/
structure Net where
  /-- The ports; reset `NetPort.reset`. -/
  ports : Store NetPort
  /-- Open keys, oldest first (R446), and remembered closed keys: source, sequence, port of the first copy (R449). -/
  keys : List TelKey
  /-- Remembered closed keys: source, sequence, port of the first copy (R449); reset none. -/
  remembered : List (Nat × Nat × Nat)
  /-- NET_TEL_STATUS bad telegrams (R453); reset 0. -/
  telBad : Nat
  /-- NET_TEL_STATUS late telegrams (R449, R453); reset 0. -/
  telLate : Nat
  /-- NET_TEL_STATUS duplicates (R449, R453); reset 0. -/
  telDup : Nat
  /-- The MDIO frame in progress: write, PHY, register, data (R417). -/
  mdio : Option (Bool × Nat × Nat × Nat)
  /-- NET_MDIO_STATUS data (R417, R453); reset 0. -/
  mdioData : Nat
  /-- NET_MDIO_STATUS.refused (R417, R453); reset false. -/
  mdioRefused : Bool
deriving DecidableEq, Repr

/-- A consumer of triggers whose start is a command of its own: its event waits in a pulse synchroniser (01 R19, 11 R441). -/
inductive Consumer where
  /-- The sample of a control loop (12 R459). -/
  | loop (n : Nat)
  /-- The conversion of a loop ADC channel (12 R465). -/
  | adc (c : Nat)
  /-- The transaction of the inertial sensor (12 R468). -/
  | imu
  /-- The housekeeping round (17 R586). -/
  | round
deriving DecidableEq, Repr

/-- A trigger comparator (11 R438). -/
structure Trig where
  /-- Next event time in units of 2^−16 ns, none due when `none`. -/
  next : Option Nat
  /-- Period in force in units of 2^−16 ns, 0 a single event (R439). -/
  period : Nat
  /-- Start time in units of 2^−16 ns (R438). -/
  start : Nat
  /-- TIM_TTn_STATUS.late (R439, R456); reset false. -/
  late : Bool
  /-- TIM_TTn_COUNT (R441, R456); reset 0. -/
  count : Word
deriving DecidableEq, Repr

/-- A capture record: counter nanoseconds since zero and the holdover flag (11 R443). -/
structure CapRec where
  /-- Counter value of the edge (R443). -/
  ns : Nat
  /-- The counter was in holdover (R443). -/
  holdover : Bool
deriving DecidableEq, Repr

/-- A capture unit (11 R444). -/
structure Cap where
  /-- Records waiting, oldest first (R444); reset none. -/
  fifo : List CapRec
  /-- The record that the registers show (R444); reset 0. -/
  current : CapRec
  /-- TIM_TCn_STATUS.overflow (R444, R456); reset false. -/
  overflow : Bool
deriving DecidableEq, Repr

/-- The time block (11). -/
structure Tim where
  /-- The counter in units of 2^−32 ns since its zero (R430); reset 0. -/
  counter : Nat
  /-- TIM_STATUS.valid (R434, R456); reset false. -/
  valid : Bool
  /-- TIM_STATUS.holdover (R436, R456); reset false. -/
  holdover : Bool
  /-- TIM_STATUS.refused (R434, R456); reset false. -/
  refused : Bool
  /-- TIM_STATUS steps (R434, R456); reset 0. -/
  steps : Nat
  /-- Increment in force in units of 2^−32 ns (R431); reset 4 ns. -/
  increment : Nat
  /-- Remaining slew offset in units of 2^−32 ns, signed (R434); reset 0. -/
  slew : Int
  /-- The counter as latched by the last read of TIM_NOW_SEC_LO (R433); reset 0. -/
  now : Nat
  /-- TT0 to TT7; reset `Trig.reset`. -/
  trigs : Store Trig
  /-- TC0 to TC7 (R443); reset empty. -/
  caps : Store Cap
  /-- PPS_OUT is high (R442); reset false. -/
  pps : Bool
  /-- Trigger events on their way to consumers through a pulse synchroniser, in order (01 R19, R39, 11 R441; log 78); reset
  empty. -/
  pulses : List (Consumer × Nat)
  /-- TIME cycles since the reach that reset the block, which no write sets or steps: ages are taken from it (07 R280);
  reset 0. -/
  cycles : Nat
deriving DecidableEq, Repr

/-- A biquad section's states (12 R475). -/
structure Biquad where
  /-- Input one sample ago (R475); reset 0. -/
  x1 : Int
  /-- Input two samples ago (R475); reset 0. -/
  x2 : Int
  /-- Output one sample ago (R475); reset 0. -/
  y1 : Int
  /-- Output two samples ago (R475); reset 0. -/
  y2 : Int
deriving DecidableEq, Repr

/-- A loop's committed states (12 R474, R476). -/
structure LoopState where
  /-- Ramp position (R472, R474); reset 0. -/
  q : Int
  /-- Ramp velocity (R472, R474); reset 0. -/
  v : Int
  /-- Integrator (R474, R476); reset 0. -/
  i : Int
  /-- Error one sample ago (R474); reset 0. -/
  e1 : Int
  /-- First section (R475); reset 0. -/
  f1 : Biquad
  /-- Second section (R475); reset 0. -/
  f2 : Biquad
deriving DecidableEq, Repr

/-- What a computation yields (12 R474, R477). -/
structure LoopResult where
  /-- Next states (R474). -/
  state : LoopState
  /-- Output (R474). -/
  u : Int
  /-- Measure after KIN and XOFF (R474). -/
  y : Int
  /-- Error (R474). -/
  e : Int
  /-- An accumulator saturated (R473, R491). -/
  accSat : Bool
  /-- A narrowing saturated (R473, R491). -/
  narSat : Bool
  /-- The integrator held (R476, R491). -/
  intHold : Bool
  /-- The output met a limit (R476, R491). -/
  outSat : Bool
deriving DecidableEq, Repr

/-- A loop sample between its sample instant and its output phase (12 R458). -/
structure LoopSample where
  /-- Measure sampled (R458). -/
  x : Int
  /-- Feed-forward sampled (R462). -/
  ff : Int
  /-- Target sampled (R472). -/
  target : Int
  /-- x was at either end of its range (R477). -/
  atEnd : Bool
  /-- No IMU read had passed since the sample before (R470). -/
  stale : Bool
  /-- 0 waiting for the engine, 1 in computation, 2 result ready. -/
  stage : Nat
  /-- The computation's result, once it has ended (R458). -/
  result : Option LoopResult
  /-- Code of the feed-forward source latched (R458, R463). -/
  code : Nat
deriving DecidableEq, Repr

/-- A control loop (12). -/
structure Loop where
  /-- Committed states (R474); reset 0. -/
  state : LoopState
  /-- The sample between its instant and its output (R458); reset none. -/
  sample : Option LoopSample
  /-- Words in force from RATE to ERRWIN, by word index (R488); reset the registers' reset values. -/
  force : Store Word
  /-- Pending coefficient set (R488); reset none. -/
  pending : Option (Store Word)
  /-- Comparator whose events sample the loop, none for its own timer: set as the loop is enabled and at each sample instant, and
  back to the timer as that comparator is disabled (R459, 01 R39); reset none. -/
  inUse : Option Nat
  /-- CLEAR is due at the next sample instant (R489). -/
  clearDue : Bool
  /-- An IMU read has passed since the previous sample (R470). -/
  imuFresh : Bool
  /-- Sticky flags [8:0] of CLE_Ln_STATUS (R491); reset 0. -/
  flags : Nat
  /-- The last output met a limit (R491); reset false. -/
  satLive : Bool
  /-- Overruns in a row (R479); reset 0. -/
  ovrRun : Nat
  /-- Saturated outputs in a row (R486); reset 0. -/
  satRun : Nat
  /-- Outputs outside the error window in a row (R485); reset 0. -/
  errRun : Nat
  /-- CLE_Ln_OUT (R490); reset 0. -/
  out : Int
  /-- CLE_Ln_MEAS (R490); reset 0. -/
  meas : Int
  /-- CLE_Ln_CNT overruns (R490); reset 0. -/
  overruns : Nat
  /-- CLE_Ln_CNT ignored triggers (R459, R490); reset 0. -/
  ignored : Nat
deriving DecidableEq, Repr

/-- A loop ADC channel (12 R465). -/
structure Adc where
  /-- Last code (R465, R490); reset 0. -/
  code : Int
  /-- Conversions (R490); reset 0. -/
  count : Nat
  /-- A conversion is in progress (R465); reset false. -/
  converting : Bool
deriving DecidableEq, Repr

/-- The control engine's shared parts (12). -/
structure Cle where
  /-- The loops; reset `Loop.reset`. -/
  loops : Store Loop
  /-- Loops with a sample waiting for the engine, in order of service (R458); reset none. -/
  waiting : List Nat
  /-- The loop in computation (R457); reset none. -/
  running : Option Nat
  /-- CLE_STATUS.refused (R487, R490); reset false. -/
  refused : Bool
  /-- CLE_STATUS loop of the last refusal (R490); reset 0. -/
  refusedLoop : Nat
  /-- CLE_STATUS reason of the last refusal (R487, R490); reset 0. -/
  reason : Nat
  /-- CLE_STATUS.setp_refused (R482, R490); reset false. -/
  setpRefused : Bool
  /-- CLE_STATUS.level_refused (R483, R490); reset false. -/
  levelRefused : Bool
  /-- ADC channels 0 to 3 (R465); reset 0. -/
  adcs : Store Adc
  /-- Duty taken by each SETP pin at its last period start, and its period index mod 16 (R481); reset 0. -/
  setpTaken : Store Nat
  /-- Period index of each SETP pin modulo 16 (R481); reset 0. -/
  setpPeriod : Store Nat
  /-- Last drive total received from each head (R463, R464); reset 0. -/
  totals : Pair Nat
  /-- The last total received from each head was marked as a repeat (06 R242); reset false. -/
  repeated : Pair Bool
  /-- Totals in the dual-clock FIFO of each head, oldest first, each with its repeat mark (01 R40, 06 R242); reset none. -/
  fifo : Pair (List (Nat × Bool))
  /-- An IMU transaction is in progress (R468); reset false. -/
  imuBusy : Bool
  /-- Comparator that the IMU's selection named as the transaction began, none for the timer (R468, 01 R39); reset none. -/
  imuSource : Option Nat
  /-- IMU_FAIL's condition (R469); reset false. -/
  imuFailing : Bool
  /-- IMU starts ignored (R468, R490); reset 0. -/
  imuIgnored : Nat
  /-- Failed reads (R469, R490); reset 0. -/
  imuFailed : Nat
  /-- CLE_IMU_DATA words (R468, R490); reset 0. -/
  imuWords : List Int
  /-- The last read passed its checks (R469, R490); reset false. -/
  imuValid : Bool
  /-- Bytes of the last read, for the stuck check (R469); reset none. -/
  imuLast : List Byte
  /-- Identical passing reads in a row (R469); reset 0. -/
  imuSame : Nat
deriving DecidableEq, Repr

/-- A LACE chain (13). -/
structure Chain where
  /-- Staging buffer: the descriptor's ring and slot, data once read (R497); reset free. -/
  staged : Option (Nat × Nat × List Byte)
  /-- The staged frame's read has ended (R497). -/
  ready : Bool
  /-- A trigger or an idle line lets the ready frame start (R498). -/
  startDue : Bool
  /-- Last-frame buffer (R497, R501); reset none. -/
  last : Option (List Byte)
  /-- A frame or its latch gap is in progress (R498); reset false. -/
  busy : Bool
  /-- The descriptor of the frame in progress; none for a repeat (R501). -/
  sending : Option (Nat × Nat)
  /-- The start due is a repeat of the last frame (R501). -/
  repeatDue : Bool
  /-- LCE_c_STATUS.refused (R506); reset false. -/
  refused : Bool
  /-- LCE_c_STATUS.underrun (R501, R506); reset false. -/
  underrun : Bool
  /-- LCE_c_CNT underruns (R501, R506); reset 0. -/
  underruns : Nat
  /-- LCE_c_CNT ignored triggers (R498, R506); reset 0. -/
  ignored : Nat
  /-- ΔT of the last frame (R502); reset 0. -/
  dt : Int
  /-- Compensation words in force and pending (R503); reset the registers' reset values, none. -/
  force : Store Word
  /-- Compensation words of the last LCE_COMMIT, until a frame starts (R503); reset none. -/
  pending : Option (Store Word)
deriving DecidableEq, Repr

/-- A housekeeping channel's published value (17 R589, R600). -/
structure HkVal where
  /-- HKP_VAL_c value (R589, R607); reset 0. -/
  value : Int
  /-- HKP_VAL_c.valid (R589, R607); reset false. -/
  valid : Bool
  /-- HKP_VAL_c.substituted (R600, R607); reset false. -/
  substituted : Bool
  /-- Last valid value, none since the last COLD or WARM reach (R600). -/
  lastValid : Option Int
deriving DecidableEq, Repr

/-- Housekeeping (17). -/
structure Hkp where
  /-- A round is in progress (R585, R586); reset false. -/
  busy : Bool
  /-- Comparator that the selection named as the round began, none for the timer (R586, 01 R39); reset none. -/
  source : Option Nat
  /-- Next slot of the round in progress (R585). -/
  slot : Nat
  /-- Codes converted in the round in progress. -/
  codes : Store Nat
  /-- Published values (R589); reset not valid. -/
  vals : Store HkVal
  /-- Band in force, none before the first evaluation (R593, R594); reset none. -/
  band : Option Nat
  /-- Band that the previous evaluation called for (R593); reset 0. -/
  prevTarget : Nat
  /-- Throttle levels and the previous evaluation's u and d (R598); reset 0. -/
  level : Pair Nat
  /-- Previous evaluation's u (R598); reset 0. -/
  prevU : Pair Nat
  /-- Previous evaluation's d (R598); reset 0. -/
  prevD : Pair Nat
  /-- HKP_STATUS refused (R605, R607); reset false. -/
  refused : Bool
  /-- HKP_STATUS reference failure (R590, R607); reset false. -/
  refFail : Bool
  /-- A head's tile input is invalid (R600); reset false. -/
  tileInvalid : Pair Bool
  /-- Rounds ignored (R586, R607); reset 0. -/
  ignored : Nat
  /-- Band changes (R593, R607); reset 0. -/
  bandChanges : Nat
  /-- Rounds completed (R607); reset 0. -/
  rounds : Nat
  /-- Judged rounds in a row with a rail outside, and with every rail inside, its window (R602); reset 0. -/
  supplyOut : Store Nat
  /-- Judged rounds in a row with every rail inside its window (R602); reset 0. -/
  supplyIn : Nat
  /-- HK00's value of the round before (R604). -/
  prevDie : Int
deriving DecidableEq, Repr

/-- A physical sector's tag and error account (20 R660, R683). -/
structure Sector where
  /-- Logical sector held (R660); reset its shipment place. -/
  logical : Nat
  /-- 0 SPARE, 1 SERVICE, 2 RETIRED (R660). -/
  state : Nat
  /-- Swap generation (R660). -/
  generation : Nat
  /-- Programmes since shipment (R660, R683). -/
  programmes : Nat
  /-- Awaits a swap (R675, R683). -/
  candidate : Bool
  /-- Corrected words (R683). -/
  corrected : Nat
  /-- The last scrub corrected it, and the last scrub found an error (R673, R675). -/
  lastCorrected : Bool
  /-- The last scrub found an error (R675). -/
  lastBad : Bool
deriving DecidableEq, Repr

/-- A waiting operation of the keeping-store writer (20 R664). -/
inductive KpsOp where
  /-- An EVENTLOG record of 52 bytes; `shutdown` is the shutdown record of R604. -/
  | eventlog (shutdown : Bool) (record : List Byte)
  /-- A change-log entry of 60 bytes (16 R578). -/
  | changelog (entry : List Byte)
  /-- A LEDGER state record (R670). -/
  | ledger
  /-- One sector of a dose checkpoint: its index in the copy (R261, R664). -/
  | dose (sector : Nat)
  /-- One sector of a LAST_WRITE: descriptor, logical sector, data, and whether it is the last (R665). -/
  | lastWrite (ring slot logical : Nat) (data : List Byte) (final : Bool)
  /-- One sector of a CAL_UPLOAD with target 1: descriptor and logical sector (07 R254). -/
  | calib (ring slot logical : Nat)
  /-- A scrub refresh of a physical sector (R673). -/
  | refresh (sector : Nat)
  /-- A swap of a candidate onto a spare (R675). -/
  | swap (sector : Nat)
  /-- A safety-configuration commit: its check, with the change-log entry that follows (R664, 16 R577). -/
  | commit
deriving DecidableEq, Repr

/-- The keeping store (20). -/
structure Kps where
  /-- Data bytes by physical byte address; unlisted bytes read 0. -/
  data : Store Byte
  /-- Sector tags; unlisted sectors hold their shipment tag. -/
  sectors : Store Sector
  /-- Physical 64-bit words, by index, with an uncorrectable error (R673). -/
  badWords : List Nat
  /-- Physical words with one bit in error, as an injection left them (15 R543); reset none. -/
  weak : List Nat
  /-- Operation in progress and operations waiting, in order of request (R664); reset none. -/
  current : Option KpsOp
  /-- Operations waiting, in order of request (R664); reset none. -/
  waiting : List KpsOp
  /-- KPS_STATUS.ledger_lost (R671, R683); reset false. -/
  ledgerLost : Bool
  /-- KPS_STATUS: CALIB was patched at load (R683); reset false. -/
  calibPatched : Bool
  /-- KPS_STATUS window error (R683); reset false. -/
  winErr : Bool
  /-- The word that the register window holds: low half taken with its address (R683). -/
  fuseBusy : Option (Nat × Nat)
  /-- KPS_FUSE_STATUS refused (R680, R683); reset false. -/
  fuseRefused : Bool
  /-- KPS_FUSE_STATUS verify failed (R680, R683); reset false. -/
  fuseVerify : Bool
  /-- Fuse words as in the shadow: bits blown since shipment are in `blown` (R679, R680). -/
  blown : Store Word
  /-- Next EVENTLOG slot and sequence (R668, R683); reset 0. -/
  evtSlot : Nat
  /-- EVENTLOG sequence (R668, R683); reset 0. -/
  evtSeq : Nat
  /-- Next CHANGELOG entry (16 R577). -/
  logSlot : Nat
  /-- LEDGER: sequence of the newest record and the sector it lies in (R670). -/
  ledgerSeq : Nat
  /-- The sector that the newest record lies in (R670). -/
  ledgerSector : Nat
  /-- Dose checkpoints: sequence, newest copy, CRCs of both copies (R670, R671). -/
  doseSeq : Nat
  /-- Newest dose copy (R671); reset 0. -/
  doseCopy : Nat
  /-- CRC of each dose copy (R670); reset 0. -/
  doseCrc : Pair Word
  /-- A dose copy is valid (R671); reset false. -/
  doseValid : Bool
  /-- Powered, lit and band seconds (R672). -/
  powered : Nat
  /-- Lit seconds of each head (R672); reset 0. -/
  lit : Pair Nat
  /-- Seconds in each die band (R672); reset 0. -/
  bands : Store Nat
  /-- KPS_SCRUB_POS sector (R673, R683); reset 0. -/
  scrubPos : Nat
  /-- Completed scrub passes (R674, R683); reset 0. -/
  passes : Nat
deriving DecidableEq, Repr

/-- An open COBBLER proposal (20 R677). -/
structure Proposal where
  /-- Its number (R677). -/
  number : Nat
  /-- Its target (R677). -/
  target : Nat
  /-- Pixels a pixel proposal covers, as (head, pixel, state) (07 R281). -/
  pixels : List (Nat × Nat)
deriving DecidableEq, Repr

/-- COBBLER (20 R677, R684). -/
structure Cbl where
  /-- Open proposal of each kind (R677, R684); reset none. -/
  proposals : Store (Option Proposal)
  /-- Last proposal number issued (R677); reset 0. -/
  number : Nat
  /-- Targets found and not yet proposed or acted on, as (kind, target), in order of detection (03 R128); reset none. -/
  found : List (Nat × Nat)
  /-- CBL_COUNTS actions (R684); reset 0. -/
  actions : Nat
  /-- CBL_COUNTS declined (R684); reset 0. -/
  declined : Nat
  /-- Approved proposals whose action has not ended, as (kind, target, number) (R669, R678); reset none. -/
  approved : List (Nat × Nat × Nat)
deriving DecidableEq, Repr

/-- Why a run stops with a fault. No meaning of this model ends in one; the type is closed and has one name, kept for the
outcome's form. -/
inductive Fault where
  /-- Raised by nothing: the spec gives every command of the block an effect or none. Safe: no run stops here. -/
  | noSuchStop
deriving DecidableEq, Repr

/-- Why a command is refused. -/
inductive Refusal where
  /-- Raised by an arm of exec whose row has no meaning yet. Safe: the run stops where the block goes on. -/
  | notModelled (mnemonic : String)
deriving DecidableEq, Repr

/-- The whole state of the block. -/
structure State where
  /-- Commands that wait, first in first out: the model's own queue; reset empty. -/
  pending : List Instr
  /-- What has left the block since reset, oldest first: the model's own record (02 R46); reset empty. -/
  out : List Output
  /-- The free values drawn so far: the model's own counter, no statement rests on its value; reset 0 (DESIGN CHOICE, log 3). -/
  free : Nat
  /-- The register file by word index (21 R686): every RW word, RWS shadow and RWL word that is not at its reset value
  (`regReset`); reset empty. -/
  regs : Store Word
  /-- The light memory by byte address (03 R105); reset empty, what it then reads as is log 4. -/
  mem : Store Byte
  /-- The fault collector (15); reset `Flt.reset`. -/
  flt : Flt
  /-- The safety functions (16); reset `Saf.reset`. -/
  saf : Saf
  /-- The reset controller (19); reset the power-on reach. -/
  rst : Rst
  /-- The power controller (18); reset `Pwr.reset`. -/
  pwr : Pwr
  /-- The ring engine (02); reset `Rng.reset`. -/
  rng : Rng
  /-- The host interface (02); reset `Hif.reset`. -/
  hif : Hif
  /-- The check units (14); reset `Crc.reset`. -/
  crc : Crc
  /-- The global registers (21); reset `Glb.reset`. -/
  glb : Glb
  /-- The light memory's controller (03); reset `Lmm.reset`. -/
  lmm : Lmm
  /-- The layer blocks (04); reset `Ly.reset`. -/
  ly : Pair Ly
  /-- The shadow engine (05); reset `Shd.reset`. -/
  shd : Pair Shd
  /-- SHD_STATUS.disable_refused (05 R209); reset false. -/
  shdRefused : Bool
  /-- SHD_STATUS.node (05 R214) and BLD_STATUS.entry (06 R246); reset 0. -/
  shdNode : Nat
  /-- BLD_STATUS.entry (06 R246); reset 0. -/
  bldEntry : Nat
  /-- The blend stage (06); reset `Bld.reset`. -/
  bld : Pair Bld
  /-- Pixel conditioning (07); reset `PxcAll.reset`. -/
  pxc : PxcAll
  /-- The timing generators (08); reset `Tg.reset`. -/
  tg : Pair Tg
  /-- Lanes 0 to 17 (09); reset `Lane.reset`. -/
  lanes : Store Lane
  /-- Lane blocks 0 LA, 1 LB, 2 NL (09 R354); reset all false. -/
  laneBlocks : Store LaneBlock
  /-- Words of the tone banks and of the equalisation tables whose parity fails, as (BAR0 word index, injected), until they are
  rewritten (06 R230, 09 R336, 15 R543); reset none. -/
  tableBad : List (Nat × Bool)
  /-- Each transmitter's running disparity is positive (09 R321); reset false, negative. -/
  txRd : Store Bool
  /-- The link layers (10); reset `Tbl.reset`. -/
  tbl : Pair Tbl
  /-- The network block (11); reset `Net.reset`. -/
  net : Net
  /-- The time block (11); reset `Tim.reset`. -/
  tim : Tim
  /-- The control engine (12); reset `Cle.reset`. -/
  cle : Cle
  /-- LACE chains 0 and 1 (13); reset `Chain.reset`. -/
  lce : Store Chain
  /-- Housekeeping (17); reset `Hkp.reset`. -/
  hkp : Hkp
  /-- The keeping store (20); reset `Kps.reset`. -/
  kps : Kps
  /-- COBBLER (20); reset `Cbl.reset`. -/
  cbl : Cbl
deriving DecidableEq, Repr

/-! ## The machine right after reset: a COLD reach is asserted by the power-on detector (19 R634) -/


/-- A fault collector at reset (15 R523 to R547). -/
def Flt.reset : Flt :=
  { sticky := 0#64, live := [], reqA := 0#64, reqB := 0#64, counts := [], entries := [], asserted := [], lost := 0,
    lostSince := false, firstValid := false,
    first := { source := 0, severity := 0, heads := 0, injected := false, detail := 0, time := 0#32, fsnA := 0#32, fsnB := 0#32 },
    priorSticky := 0#64, priorFirst := [], self := false, resetReq := false, sevRefused := false, injRefused := false,
    refusedSrc := 0, clkOut := [], clkIn := [], aoClock := [], taken := 0#64, cycle := none, owed := [] }

/-- A head's safety state at reset (16 R582). -/
def SafHead.reset : SafHead :=
  { state := 0, pattern := 0, degraded := false, standing := [], holds := 0, wdLow := false, block := none }

/-- The safety functions at reset (16 R581 to R583). -/
def Saf.reset : Saf :=
  { heads := Pair.both SafHead.reset, safeN := false, hbAny := false, hbBad := 0, hbSup := false, wdg := 0,
    stop := Pair.both none, dark := Pair.both false, lastActed := [], image := none, copy := 0, imageBad := false,
    unlocked := false, lockout := false, commitError := false, commitReason := 0, unlockRefused := false, failures := 0,
    committing := false, logSeq := 0, keyLo := 0#32, keyHi := 0#32 }

/-- The boot script's progress at reset (19 R659). -/
def Boot.reset : Boot :=
  { state := 0, slot := 0, autolight := false, reason := 0, record := 0, pos := 0, waiting := false, stopping := false, time := 0, lanes := [], tiles := [] }

/-- The reset controller with the power-on detector asserted (19 R634, R642). -/
def Rst.reset : Rst :=
  { sources := [0], reach := 3, step := 0, done := 0, cause := 1#32, colds := 0, warms := 0, blocks := [], deferred := [],
    blockRefused := false, hostRefused := false, hifReady := false, boot := Boot.reset, stepSeven := 0 }

/-- The power controller at reset (18 R631, R633). -/
def Pwr.reset : Pwr :=
  { state := 0, phase := 0, target := 0, saveMode := false, saveNext := false, refused := false, refuser := 0, backoff := 1, byTimer := false,
    agreed := [], asking := 0, lanesWere := [], edges := [], saveHeader := [], domains := [], awaiting := [], missed := [], latch := 0#32, cause := 0#32, entries := 0,
    refusals := 0, saved := 0, crcMatch := false, tablesLost := false, started := Pair.both false, refPresent := true }

/-- A ring at reset (02 R59, R64). -/
def Ring.reset : Ring :=
  { devIdx := 0, phase := true, hostIdx := 0, unreleased := 0, reserved := 0, stopIndex := 0, stopped := false,
    protoErr := false, lost := 0, unsignalled := 0 }

/-- The ring engine's side of a head at reset (02 R59). -/
def RngHead.reset : RngHead :=
  { opened := [], abortCsn := none, sets := [], replays := [], outcomes := [], csn := 0#32, csnApplied := 0#32 }

/-- The ring engine at reset (02 R59). -/
def Rng.reset : Rng :=
  { rings := [], heads := Pair.both RngHead.reset, work := [], written := [], held := [], journal := none, journalBad := false }

/-- The programmable configuration space at reset (02 R45). -/
def PciFunction.reset : PciFunction :=
  { maxPayload := 128, maxRead := 512, aspmL1 := false, busMaster := false, msixEnable := false, bar0 := 0 }

/-- The host interface at reset (02 R49). -/
def Hif.reset : Hif :=
  { function := PciFunction.reset, linkUp := false, rate := 0, width := 0, l1 := false, err := 0#32, ltrLast := none, ltrSent := 0, ltrHoldoff := false,
    ltrHeld := none, ltrRate := none, pba := 0#32 }

/-- A host check-unit context at reset (14 R520). -/
def CrcCtx.reset : CrcCtx := { result := 0#32, jobs := 0, mismatches := 0 }

/-- The host check units at reset (14 R520). -/
def Crc.reset : Crc := { ctxs := [], refused := false, refusedCtx := 0 }

/-- The global block at reset (21 R692, R693). -/
def Glb.reset : Glb :=
  { index := 0, partialAccess := false, domainOff := false, parity := false, port := 0, svcCrc := 0, svcDiscards := 0,
    svcBad := 0, passes := 0, checkPos := 0, badParity := [] }

/-- Physical bank `n` at reset: banks 0 to 59 hold the logical bank of their number, 60 to 63 are spare (03 R105). -/
def Bank.reset (n : Nat) : Bank :=
  { lbank := if n < 60 then n else 0, state := if n < 60 then 1 else 0, candidate := false, corrected := 0,
    passErrors := 0 }

/-- The light memory's controller at reset (03 R112, R114). -/
def Lmm.reset : Lmm :=
  { banks := [], inForce := [], used := [], budgetRefused := false, regionRefused := false, startRefused := false,
    detail := 0, scrubPos := 0, passes := 0, corrAddr := 0#32, uncorrAddr := 0#32, writeBack := [], bad := [], latent := [],
    thisPass := [], lastPass := [], thisBad := [], lastBad := [], retire := none, queue := [] }

/-- A layer slot at reset: disabled (04 R136). -/
def Slot.reset : Slot :=
  { enabled := false, kind := 0, drop := false, format := 0, operator := 0, alpha := 0, addr := 0, width := 0, height := 0,
    stride := 0, block := [], fill := 0, range := 0 }

/-- A head's layer block at reset (04 R174). -/
def Ly.reset : Ly :=
  { slots := [], notReady := 0, dropped := 0, late := false, lateSlot := 0, lateLine := 0, holds := 0, drops := 0,
    swept := [], shown := [] }

/-- The shadow engine's side of a head at reset (05 R213). -/
def Shd.reset : Shd :=
  { lists := [], inForce := none, mapError := false, badRecord := 0, age := 0xFFFFFFFF#32, stale := false,
    dropped := false, merged := 0, mergedMasks := 0 }

/-- The blend stage's side of a head at reset (06 R244). -/
def Bld.reset : Bld :=
  { bank := 0, swap := 0, toneError := false, headroomRefused := false, level := 0, headroom := 65535, drive := 0,
    composedTotal := 0, shownTotal := 0, clamped := 0, lifted := 0, clampedNow := 0, liftedNow := 0, firstLowered := none, firstRaised := none, flatValid := false, flatRun := 0, rebuilds := 0, rebuilding := false,
    fromCache := false }

/-- Pixel conditioning's side of a head at reset (07 R285). -/
def Pxc.reset : Pxc :=
  { saturated := 0, exhausted := 0, saturatedNow := 0, exhaustedNow := 0, overdue := 0, doseSkip := 0, splits := 0, limited := false, band := 0, cursors := [],
    deferrals := [], sentRows := [], sentKinds := [], probed := [], startCycle := 0, lostDose := [], marks := [], awaiting := [] }

/-- Pixel conditioning at reset (07 R285). -/
def PxcAll.reset : PxcAll :=
  { heads := Pair.both Pxc.reset, ageRefused := false, doseLost := false, ckpt := false, ckptFailed := false, seq := 0, cal := none, merged := [] }

/-- A timing generator at reset (08 R313). -/
def Tg.reset : Tg :=
  { state := 0, active := false, stitchOpen := false, waiting := false, due := false, trigSeen := false, composed := false, full := false,
    driveAccepted := false, force := [], checking := none, pending := none, commitWait := false, commitError := false, commitReason := 0,
    timingRefused := false, startRefused := false, startReason := 0, lastRepeated := false, run := 0, sinceSnap := 0,
    fsn := 0#32, cutTime := 0#32, stitchTime := 0#32, slipped := 0, repeats := 0, early := 0, missed := 0, front := 0,
    pitch := 0 }

/-- A PRBS checker at reset (09 R345). -/
def Checker.reset : Checker := { reg := [], run := 0, flags := [], part := 0 }

/-- A lane at reset: OFF, equalised by column T1 (09 R341, R354). -/
def Lane.reset : Lane :=
  { pstate := 0, cdrLock := false, aligned := false, slip := 0, slipFail := false, searching := false, prbsLock := false,
    degraded := false, lost := false, refused := false, fom := 0, trim := 0, target := 0, scanning := false, eye := 0#64,
    violations := 0, disparities := 0, elastics := 0, losses := 0, searches := 0, degradeds := 0, prbsErrors := 0,
    prbsBits := 0, lowScans := 0, badIntervals := 0, eqColumn := 1, eqWord := 0x603A#32, eqPending := false, stream := .quiet,
    exitDue := false, setPlace := 0, delivered := none, pcs := 0, pcsEven := false, pcsGood := 0, rxRd := false, rxFirst := true, winGroups := 0, winErrors := 0, excluded := 0, intervalErrors := false, elastic := 4,
    sought := false, gen := [], checker := Checker.reset }

/-- A lane block's own bits at reset (09 R354). -/
def LaneBlock.reset : LaneBlock := { refRefused := false, eqParity := false }

/-- TBL's side of a tile at reset (10 R368, R409). -/
def Tile.reset : Tile :=
  { epoch := 0, config := [], configWait := false, id := 0#32, info := 0#32, maxW := 0, maxH := 0, state := 0, fresh := false,
    stale := false, patterns := 0, faults := 0, shownEpoch := 0, temperature := 0x8000, tempGone := false, tooHot := false, txSeq := 0, rxSeq := 0,
    unacked := [], queue := [], replayed := 0, naks := 0, bad := 0, lostRecords := 0, echoWait := none, echoInjected := false, lastEcho := 0#32,
    mismatched := 0, missing := 0, snapMatched := false, snapMismatched := false, snapMissing := false }

/-- The link layer of a head at reset (10 R409). -/
def Tbl.reset : Tbl :=
  { tiles := [], inForce := 0, capRefused := 0, route := 0, switching := 0, forwarders := 0, rxFill := [], cap := 0#32, epoch := 0, huskAt := [] }

/-- A network port at reset (11 R454). -/
def NetPort.reset : NetPort :=
  { link := false, sync := false, anDone := false, speedUnsupported := false, remoteFault := false, refused := false,
    txFrames := [], txSeen := none, waiting := [], phyUp := false, inReception := false, cntTx := 0, cntRx := 0, noBuf := 0, tooLong := 0, cntFcs := 0, cntSym := 0 }

/-- The network block at reset (11 R454). -/
def Net.reset : Net :=
  { ports := [], keys := [], remembered := [], telBad := 0, telLate := 0, telDup := 0, mdio := none, mdioData := 0,
    mdioRefused := false }

/-- A trigger comparator at reset (11 R438). -/
def Trig.reset : Trig := { next := none, period := 0, start := 0, late := false, count := 0#32 }

/-- A capture unit at reset (11 R444). -/
def Cap.reset : Cap := { fifo := [], current := { ns := 0, holdover := false }, overflow := false }

/-- The time block at reset: the counter at zero, 4 ns a tick (11 R430, R431). -/
def Tim.reset : Tim :=
  { counter := 0, valid := false, holdover := false, refused := false, steps := 0, increment := 4 * 2 ^ 32, slew := 0,
    now := 0, trigs := [], caps := [], pps := false, pulses := [], cycles := 0 }

/-- A filter section at zero (12 R475). -/
def Biquad.zero : Biquad := { x1 := 0, x2 := 0, y1 := 0, y2 := 0 }

/-- A loop's states at zero (12 R474). -/
def LoopState.zero : LoopState := { q := 0, v := 0, i := 0, e1 := 0, f1 := Biquad.zero, f2 := Biquad.zero }

/-- A control loop at reset (12 R491). -/
def Loop.reset : Loop :=
  { state := LoopState.zero, sample := none, force := [], pending := none, inUse := none, clearDue := false,
    imuFresh := false, flags := 0, satLive := false, ovrRun := 0, satRun := 0, errRun := 0, out := 0, meas := 0,
    overruns := 0, ignored := 0 }

/-- A loop ADC channel at reset (12 R465). -/
def Adc.reset : Adc := { code := 0, count := 0, converting := false }

/-- The control engine's shared parts at reset (12 R491). -/
def Cle.reset : Cle :=
  { loops := [], waiting := [], running := none, refused := false, refusedLoop := 0, reason := 0, setpRefused := false,
    levelRefused := false, adcs := [], setpTaken := [], setpPeriod := [], totals := Pair.both 0, repeated := Pair.both false,
    fifo := Pair.both [],
    imuBusy := false, imuSource := none, imuFailing := false, imuIgnored := 0, imuFailed := 0, imuWords := [], imuValid := false,
    imuLast := [], imuSame := 0 }

/-- A LACE chain at reset (13 R505). -/
def Chain.reset : Chain :=
  { staged := none, ready := false, startDue := false, last := none, busy := false, sending := none, repeatDue := false,
    refused := false, underrun := false, underruns := 0, ignored := 0, dt := 0, force := [], pending := none }

/-- A housekeeping channel at reset: not valid (17 R600). -/
def HkVal.reset : HkVal := { value := 0, valid := false, substituted := false, lastValid := none }

/-- Housekeeping at reset (17 R608). -/
def Hkp.reset : Hkp :=
  { busy := false, source := none, slot := 0, codes := [], vals := [], band := none, prevTarget := 0, level := Pair.both 0,
    prevU := Pair.both 0, prevD := Pair.both 0, refused := false, refFail := false, tileInvalid := Pair.both false,
    ignored := 0, bandChanges := 0, rounds := 0, supplyOut := [], supplyIn := 0, prevDie := 0 }

/-- Physical sector `s` as shipped: sectors 0 to 1791 in service for the logical sector of their number, the others
spare (20 R660). -/
def Sector.reset (s : Nat) : Sector :=
  { logical := if s < 1792 then s else 0, state := if s < 1792 then 1 else 0, generation := 0, programmes := 0,
    candidate := false, corrected := 0, lastCorrected := false, lastBad := false }

/-- The keeping store at reset (20 R683). -/
def Kps.reset : Kps :=
  { data := [], sectors := [], badWords := [], weak := [], current := none, waiting := [], ledgerLost := false, calibPatched := false,
    winErr := false, fuseBusy := none, fuseRefused := false, fuseVerify := false, blown := [], evtSlot := 0, evtSeq := 0,
    logSlot := 0, ledgerSeq := 0, ledgerSector := 0, doseSeq := 0, doseCopy := 0, doseCrc := Pair.both 0#32,
    doseValid := false, powered := 0, lit := Pair.both 0, bands := [], scrubPos := 0, passes := 0 }

/-- COBBLER at reset (20 R684). -/
def Cbl.reset : Cbl := { proposals := [], number := 0, found := [], actions := 0, declined := 0, approved := [] }

/-- The machine right after reset: the power-on detector asserts a COLD reach, every register holds its reset value,
nothing waits and nothing has left the block (19 R634, R638). -/
def State.reset : State :=
  { pending := [], out := [], free := 0, regs := [], mem := [], flt := Flt.reset, saf := Saf.reset, rst := Rst.reset,
    pwr := Pwr.reset, rng := Rng.reset, hif := Hif.reset, crc := Crc.reset, glb := Glb.reset, lmm := Lmm.reset,
    ly := Pair.both Ly.reset, shd := Pair.both Shd.reset, shdRefused := false, shdNode := 0, bldEntry := 0, bld := Pair.both Bld.reset,
    pxc := PxcAll.reset, tg := Pair.both Tg.reset, lanes := [], laneBlocks := [], tableBad := [], txRd := [], tbl := Pair.both Tbl.reset,
    net := Net.reset, tim := Tim.reset, cle := Cle.reset, lce := [], hkp := Hkp.reset, kps := Kps.reset, cbl := Cbl.reset }

end Sys2Proof.Machine
end

