-- ==== Sys2Proof/Machine/Ops.lean ====
section
/-! DEFINITION. The named operations over the state that every family shares: registers, light memory, what leaves the
block, free values, time, which blocks and domains live, and the settings that several chapters read. -/

namespace Sys2Proof.Machine

/-! ## Registers -/

/-- What word `idx` of the register file holds. -/
def getReg (s : State) (idx : Nat) : Word := Store.get regReset s.regs idx

/-- Word `idx` set to `v`. -/
def setReg (s : State) (idx : Nat) (v : Word) : State := { s with regs := Store.put regReset s.regs idx v }

/-- Whether a word of a table memory is stored with a parity that fails, and if so by an injection (06 R230, 09 R336). -/
def tableBadAt (s : State) (idx : Nat) : Option Bool := (s.tableBad.find? (fun e => e.1 == idx)).map Prod.snd

/-- The parity of a word of a table memory fails from now on. -/
def tableSpoilt (s : State) (idx : Nat) (injected : Bool) : State :=
  { s with tableBad := s.tableBad.filter (fun e => e.1 != idx) ++ [(idx, injected)] }

/-- A word of a table memory is written with good parity. -/
def setTable (s : State) (idx : Nat) (v : Word) : State :=
  { setReg s idx v with tableBad := s.tableBad.filter (fun e => e.1 != idx) }

/-- The register at byte address `a` (21 R685). -/
def regAt (s : State) (a : Nat) : Word := getReg s (a / 4)

/-- Field [hi:lo] of the register at byte address `a`. -/
def regFld (s : State) (a hi lo : Nat) : Nat := fld (regAt s a) hi lo

/-- Bit `i` of the register at byte address `a`. -/
def regBit (s : State) (a i : Nat) : Bool := bit (regAt s a) i

/-- The register at byte address `a` set to `v`. -/
def setRegAt (s : State) (a : Nat) (v : Word) : State := setReg s (a / 4) v

/-- Words `first` to `first + n - 1` returned to their reset values. -/
def clearRegs (s : State) (first n : Nat) : State :=
  { s with regs := s.regs.filter (fun e => !(decide (first ≤ e.1) && decide (e.1 < first + n))) }

/-! ## Heads -/

/-- 0 for Head A and 1 for Head B. -/
def Head.idx : Head → Nat
  | .a => 0
  | .b => 1

/-- The other head. -/
def Head.other : Head → Head
  | .a => .b
  | .b => .a

/-- The head's bit in a mask of heads (15 R540: 1 A, 2 B, 3 both). -/
def Head.bitOf : Head → Nat
  | .a => 1
  | .b => 2

/-- The head of number `i`. -/
def headOf (i : Nat) : Head := if i = 0 then .a else .b

/-- Both heads. -/
def bothHeads : List Head := [.a, .b]

/-- Bit `i` of a number. -/
def nbit (v i : Nat) : Bool := v.testBit i

/-- The number with bit `i` set or cleared. -/
def setNBit (v i : Nat) (b : Bool) : Nat := if b then v ||| 2 ^ i else v - (v &&& 2 ^ i)

/-- Base address of a head's timing generator (21 R685). -/
def tgBase (h : Head) : Nat := 0x07000 + 0x1000 * Head.idx h

/-- Base address of a head's layer block. -/
def lyBase (h : Head) : Nat := 0x05000 + 0x1000 * Head.idx h

/-- Base address of a head's PXC registers. -/
def pxcBase (h : Head) : Nat := 0x19000 + 0x1000 * Head.idx h

/-- Base address of a head's SHD registers. -/
def shdBase (h : Head) : Nat := 0x20100 + 0x100 * Head.idx h

/-- Base address of a head's BLD registers. -/
def bldBase (h : Head) : Nat := 0x28100 + 0x100 * Head.idx h

/-- Base address of a head's TBL registers. -/
def tblBase (h : Head) : Nat := 0x0C000 + 0x400 * Head.idx h

/-- Joined mode: TGA_CTRL.joined (08 R311). -/
def joined (s : State) : Bool := regBit s 0x07000 1

/-- The timing generator that times head `h`: Head A's in joined mode (08 R311). -/
def timer (s : State) (h : Head) : Head := if joined s then .a else h

/-- The heads that a sweep event of head `h` serves: both in joined mode (01 R31). -/
def served (s : State) (h : Head) : List Head := if joined s then bothHeads else [h]

/-- Head `h`'s timing generator changed by `f`. -/
def modTg (s : State) (h : Head) (f : Tg → Tg) : State := { s with tg := s.tg.set h (f (s.tg.get h)) }

/-- Head `h`'s layer block changed by `f`. -/
def modLy (s : State) (h : Head) (f : Ly → Ly) : State := { s with ly := s.ly.set h (f (s.ly.get h)) }

/-- Head `h`'s shadow side changed by `f`. -/
def modShd (s : State) (h : Head) (f : Shd → Shd) : State := { s with shd := s.shd.set h (f (s.shd.get h)) }

/-- Head `h`'s blend side changed by `f`. -/
def modBld (s : State) (h : Head) (f : Bld → Bld) : State := { s with bld := s.bld.set h (f (s.bld.get h)) }

/-- Head `h`'s pixel conditioning changed by `f`. -/
def modPxc (s : State) (h : Head) (f : Pxc → Pxc) : State :=
  { s with pxc := { s.pxc with heads := s.pxc.heads.set h (f (s.pxc.heads.get h)) } }

/-- Head `h`'s link layer changed by `f`. -/
def modTbl (s : State) (h : Head) (f : Tbl → Tbl) : State := { s with tbl := s.tbl.set h (f (s.tbl.get h)) }

/-- Head `h`'s safety state changed by `f`. -/
def modSafHead (s : State) (h : Head) (f : SafHead → SafHead) : State :=
  { s with saf := { s.saf with heads := s.saf.heads.set h (f (s.saf.heads.get h)) } }

/-- Head `h`'s side of the ring engine changed by `f`. -/
def modRngHead (s : State) (h : Head) (f : RngHead → RngHead) : State :=
  { s with rng := { s.rng with heads := s.rng.heads.set h (f (s.rng.heads.get h)) } }

/-- Tile `t` of head `h`. -/
def tileOf (s : State) (h : Head) (t : Nat) : Tile := Store.get (fun _ => Tile.reset) (s.tbl.get h).tiles t

/-- Tile `t` of head `h` changed by `f`. -/
def modTile (s : State) (h : Head) (t : Nat) (f : Tile → Tile) : State :=
  modTbl s h (fun b => { b with tiles := Store.put (fun _ => Tile.reset) b.tiles t (f (tileOf s h t)) })

/-- Lane `l` of 18: LA0 to LA7, LB0 to LB7, NL0 and NL1. -/
def laneOf (s : State) (l : Nat) : Lane := Store.get (fun _ => Lane.reset) s.lanes l

/-- Lane `l` changed by `f`. -/
def modLane (s : State) (l : Nat) (f : Lane → Lane) : State :=
  { s with lanes := Store.put (fun _ => Lane.reset) s.lanes l (f (laneOf s l)) }

/-- Layer slot `i` of head `h`. -/
def slotOf (s : State) (h : Head) (i : Nat) : Slot := Store.get (fun _ => Slot.reset) (s.ly.get h).slots i

/-- Layer slot `i` of head `h` changed by `f`. -/
def modSlot (s : State) (h : Head) (i : Nat) (f : Slot → Slot) : State :=
  modLy s h (fun y => { y with slots := Store.put (fun _ => Slot.reset) y.slots i (f (slotOf s h i)) })

/-- Ring `n`'s device side. -/
def ringOf (s : State) (n : Nat) : Ring := Store.get (fun _ => Ring.reset) s.rng.rings n

/-- Ring `n`'s device side changed by `f`. -/
def modRing (s : State) (n : Nat) (f : Ring → Ring) : State :=
  { s with rng := { s.rng with rings := Store.put (fun _ => Ring.reset) s.rng.rings n (f (ringOf s n)) } }

/-- Control loop `n`. -/
def loopOf (s : State) (n : Nat) : Loop := Store.get (fun _ => Loop.reset) s.cle.loops n

/-- Control loop `n` changed by `f`. -/
def modLoop (s : State) (n : Nat) (f : Loop → Loop) : State :=
  { s with cle := { s.cle with loops := Store.put (fun _ => Loop.reset) s.cle.loops n (f (loopOf s n)) } }

/-- LACE chain `c`. -/
def chainOf (s : State) (c : Nat) : Chain := Store.get (fun _ => Chain.reset) s.lce c

/-- LACE chain `c` changed by `f`. -/
def modChain (s : State) (c : Nat) (f : Chain → Chain) : State :=
  { s with lce := Store.put (fun _ => Chain.reset) s.lce c (f (chainOf s c)) }

/-- Network port `p`. -/
def portOf (s : State) (p : Nat) : NetPort := Store.get (fun _ => NetPort.reset) s.net.ports p

/-- Network port `p` changed by `f`. -/
def modPort (s : State) (p : Nat) (f : NetPort → NetPort) : State :=
  { s with net := { s.net with ports := Store.put (fun _ => NetPort.reset) s.net.ports p (f (portOf s p)) } }

/-- Physical light-memory bank `b`. -/
def bankOf (s : State) (b : Nat) : Bank := Store.get Bank.reset s.lmm.banks b

/-- Physical light-memory bank `b` changed by `f`. -/
def modBank (s : State) (b : Nat) (f : Bank → Bank) : State :=
  { s with lmm := { s.lmm with banks := Store.put Bank.reset s.lmm.banks b (f (bankOf s b)) } }

/-- Published housekeeping channel `c`. -/
def hkValOf (s : State) (c : Nat) : HkVal := Store.get (fun _ => HkVal.reset) s.hkp.vals c

/-- Trigger comparator `n`. -/
def trigOf (s : State) (n : Nat) : Trig := Store.get (fun _ => Trig.reset) s.tim.trigs n

/-- Trigger comparator `n` is enabled (11 R439). -/
def trigEnabled (s : State) (n : Nat) : Bool := regBit s (0x0E100 + 0x20 * n) 0

/-- The comparator that a control word with trig_mode in [1] and tt_sel in [4:2] names, none for the own timer (01 R39). -/
def trigChoice (w : Word) : Option Nat := if bit w 1 then some (fld w 4 2) else none

/-- What starts a consumer of a selection: the comparator that it names while that is enabled, else its own timer
(01 R39). -/
def trigSource (s : State) (choice : Option Nat) : Option Nat := choice.filter (trigEnabled s)

/-- The comparator that the round's selection names: a change takes effect as a round ends, and at once between rounds
(17 R586, 01 R39; log 74). -/
def roundChoice (s : State) : Option Nat := if s.hkp.busy then s.hkp.source else trigChoice (regAt s 0x14000)

/-- A start of consumer `c` is its source's: the own timer's, or an event of the comparator selected (01 R39). -/
def trigTaken (s : State) (c : Consumer) (choice : Option Nat) : Bool :=
  match trigSource s choice with
  | none => true
  | some n => s.tim.pulses.contains (c, n)

/-- The events that wait for consumer `c` reach it (01 R19, log 78). -/
def takePulse (s : State) (c : Consumer) : State :=
  { s with tim := { s.tim with pulses := s.tim.pulses.filter (fun p => decide (p.1 ≠ c)) } }

/-- An event of comparator `n` sets out for consumer `c`; it merges with one on its way (01 R19). -/
def sendPulse (n : Nat) (s : State) (c : Consumer) : State :=
  if s.tim.pulses.contains (c, n) then s else { s with tim := { s.tim with pulses := s.tim.pulses ++ [(c, n)] } }

/-- Trigger comparator `n` changed by `f`. -/
def modTrig (s : State) (n : Nat) (f : Trig → Trig) : State :=
  { s with tim := { s.tim with trigs := Store.put (fun _ => Trig.reset) s.tim.trigs n (f (trigOf s n)) } }

/-! ## What leaves the block, and free values -/

/-- One more thing leaves the block (02 R46: order of leaving). -/
def emit (s : State) (o : Output) : State := { s with out := s.out ++ [o] }

/-- A value the spec leaves open, below `n`, and the state that has drawn it (log 3). -/
def drawBelow (s : State) (n : Nat) : Nat × State :=
  (Config.freeValue s.free % n, { s with free := s.free + 1 })

/-- A read of host memory has failed: HIF_ERR shows how (02 R48, R49). -/
def hostFails (s : State) (kind : Nat) : State :=
  { s with hif := { s.hif with err := s.hif.err ||| bitAt (kind % 4) true } }

/-! ## Time (11 R430, R432; ages by 01 R21) -/

/-- Whole nanoseconds of the time counter. -/
def nowNs (s : State) : Nat := s.tim.counter / 2 ^ 32

/-- Seconds of the time counter, 48 bits. -/
def nowSec (s : State) : Nat := (nowNs s / 10 ^ 9) % 2 ^ 48

/-- Nanoseconds within the second. -/
def nowSubNs (s : State) : Nat := nowNs s % 10 ^ 9

/-- TIME32 of a number of nanoseconds (11 R432). -/
def time32Of (ns : Nat) : Word := BitVec.ofNat 32 ns

/-- TIME32 inside the TIME domain. -/
def time32 (s : State) : Word := time32Of (nowNs s)

/-- TIME32 as recorded in a domain whose copy is `lo` to `hi` ns old (01 R21): which age is a free value. -/
def stampAged (s : State) (lo hi : Nat) : Word × State :=
  let (k, s1) := drawBelow s (hi - lo + 1)
  (time32 s - BitVec.ofNat 32 (lo + k), s1)

/-- TIME32 as recorded in the CORE domain, 4 ns to 10 ns old (01 R21). -/
def stampCore (s : State) : Word × State := stampAged s 4 10

/-- TIME32 as recorded in the HOST domain, 8 ns to 16 ns old (01 R21). -/
def stampHost (s : State) : Word × State := stampAged s 8 16

/-! ## Which domains and blocks live (18 R610, 19 R639, 21 R690) -/

/-- The release step that releases a switched domain (19 R639), by the domain indices of 18 R629. -/
def releaseStep : Nat → Nat
  | 7 => 3
  | 5 => 4
  | 6 => 5
  | 4 => 6
  | 0 => 2
  | _ => 7

/-- Condition of a switched domain: 0 off, 1 retained, 2 on (18 R610). -/
def domainState (s : State) (d : Nat) : Nat := Store.get (fun _ => 2) s.pwr.domains d

/-- The domain is on and no reset reach holds it. -/
def live (s : State) (d : Nat) : Bool :=
  domainState s d == 2 && decide (releaseStep d ≤ s.rst.done) && (d != 0 || s.rst.hifReady)

/-- AO runs: it is released by step 1 of a COLD release (19 R639). -/
def aoLive (s : State) : Bool := decide (1 ≤ s.rst.done)

/-- Block `b` is held by a BLOCK reach (19 R643). -/
def blockHeld (s : State) (b : Nat) : Bool := s.rst.blocks.contains b

/-- Block `c`, by its code in 18 R616, has agreed to an entry and stands still until it is restarted (18 R616, R617, R625). -/
def blockStopped (s : State) (c : Nat) : Bool := s.pwr.agreed.contains c

/-- The lane domain of a head. -/
def laneDomain (h : Head) : Nat := 2 + Head.idx h

/-- The pixel path of both heads lives (01 R14). -/
def pixLive (s : State) : Bool := live s 4

/-- The light memory lives. -/
def memLive (s : State) : Bool := live s 5

/-- The blocks of PD_CTRL live. -/
def ctrlLive (s : State) : Bool := live s 6

/-- The host interface and the ring engine live. -/
def hostLive (s : State) : Bool := live s 0

/-- A head's lanes and link layer live. -/
def linkLive (s : State) (h : Head) : Bool := live s (laneDomain h)

/-- The network block lives. -/
def netLive (s : State) : Bool := live s 1 && !blockHeld s 0

/-- The keeping store lives: PD_LAST is on. -/
def lastLive (s : State) : Bool := live s 7 && !blockHeld s 7

/-- The fault collector judges sources: PD_CTRL is released and no BLOCK reach holds FLT (15 R522). -/
def fltJudges (s : State) : Bool := ctrlLive s && !blockHeld s 5

/-- The block window that holds word `idx` can serve an access (21 R690). -/
def windowServes (s : State) (idx : Nat) : Bool :=
  match idx / 1024 with
  | 0 => true | 1 => hostLive s | 2 => hostLive s | 3 => hostLive s | 4 => memLive s
  | 5 => pixLive s | 6 => pixLive s | 7 => pixLive s | 8 => pixLive s
  | 9 => live s 2 | 10 => live s 3 | 11 => netLive s
  | 12 => if idx % 1024 < 0x100 then live s 2 else live s 3
  | 13 => netLive s | 14 => ctrlLive s | 15 => ctrlLive s && !blockHeld s 1 | 16 => ctrlLive s && !blockHeld s 2
  | 17 => ctrlLive s && !blockHeld s 3 | 18 => ctrlLive s && !blockHeld s 5 | 19 => ctrlLive s && !blockHeld s 6
  | 20 => ctrlLive s && !blockHeld s 4 | 21 => true | 22 => true | 23 => memLive s && !blockHeld s 8
  | 28 => lastLive s | 29 => lastLive s | 30 => lastLive s | 31 => lastLive s
  | n => if 24 ≤ n ∧ n < 28 ∨ 32 ≤ n ∧ n < 48 then pixLive s else true

/-! ## Light memory (03 R105, R106) -/

/-- First byte of region `k` (03 R108, R113). -/
def regionBase (s : State) (k : Nat) : Nat := regFld s (0x04100 + 4 * k) 9 0 * 65536

/-- Bytes in region `k`, 0 while it is not enabled. -/
def regionSize (s : State) (k : Nat) : Nat :=
  if regBit s (0x04100 + 4 * k) 31 then regFld s (0x04100 + 4 * k) 25 16 * 65536 else 0

/-- What a byte of light memory that nothing has written reads as: NO_REPORT in the reset place of the health map
(07 R264), otherwise 0 (DESIGN CHOICE, log 4: the spec gives the memory no contents at reset). -/
def memDefault (a : Nat) : Byte := if 0x01200000 ≤ a ∧ a < 0x01300000 then 0xFF#8 else 0#8

/-- The byte at address `a`. -/
def memGet (s : State) (a : Nat) : Byte := Store.get memDefault s.mem a

/-- The byte at address `a` set to `v`. -/
def memPut (s : State) (a : Nat) (v : Byte) : State := { s with mem := Store.put memDefault s.mem a v }

/-- `n` bytes from address `a`. -/
def memRead (s : State) (a n : Nat) : List Byte := Store.getList memDefault s.mem a n

/-- Bytes written from address `a` on. -/
def memWrite (s : State) (a : Nat) (bs : List Byte) : State :=
  { s with mem := Store.putList memDefault s.mem a bs }

/-- The canonical form of the light memory. -/
def memWf (s : State) : Bool := Store.wf memDefault s.mem

/-- The logical space ends here (03 R106): 30 MiB. -/
def memTop : Nat := 0x01E00000

/-! ## Settings several chapters read -/

/-- A ring's configuration word (02 R60). -/
def ringCfg (s : State) (n : Nat) : Word := regAt s (0x03108 + 0x20 * n)

/-- A ring's enable bit. -/
def ringEnabled (s : State) (n : Nat) : Bool := bit (ringCfg s n) 0

/-- A ring's kind: 0 SUBMIT, 1 COMPLETE, 2 RECORD (02 R55). -/
def ringKind (s : State) (n : Nat) : Nat := fld (ringCfg s n) 3 2

/-- A ring's role code (02 R57). -/
def ringRole (s : State) (n : Nat) : Nat := fld (ringCfg s n) 20 16

/-- Entries of a ring: 2^log2size (02 R56). -/
def ringSize (s : State) (n : Nat) : Nat := 2 ^ fld (ringCfg s n) 7 4

/-- The completion ring of a SUBMIT ring. -/
def ringCpl (s : State) (n : Nat) : Nat := fld (ringCfg s n) 12 8

/-- Base address of a ring in host memory (02 R56, R59). -/
def ringBase (s : State) (n : Nat) : Nat :=
  (regAt s (0x03100 + 0x20 * n)).toNat + 2 ^ 32 * (regAt s (0x03104 + 0x20 * n)).toNat

/-- The ring engine is enabled (02 R59). -/
def engineOn (s : State) : Bool := regBit s 0x03000 0

/-- The enabled ring that has a role, if there is one (02 R58). -/
def ringWithRole (s : State) (role : Nat) : Option Nat :=
  firstIdx 32 (fun n => ringEnabled s n && ringRole s n == role)

/-- A head is STOPPED (08 R295). -/
def stopped (s : State) (h : Head) : Bool := (s.tg.get h).state == 0

/-- Head `h`'s block of the safety configuration as its cut put it in force (16 R570, R573). -/
def headBlock (s : State) (h : Head) : Option (List Byte) := (s.saf.heads.get (timer s h)).block

/-- Byte `i` of the head block, 0 while none is in force (16 R572). -/
def headBlockByte (s : State) (h : Head) (i : Nat) : Nat :=
  match headBlock s h with
  | some b => byteAt b i
  | none => 0

/-- The head's configured husk pattern (16 R570, R572). -/
def huskPattern (s : State) (h : Head) : Nat := headBlockByte s h 390 % 4

/-- `degrade headroom` of the head (16 R570, R572). -/
def degradeHeadroom (s : State) (h : Head) : Nat := headBlockByte s h 392 + 256 * headBlockByte s h 393

/-- Number `n` little-endian bytes at `i` of the safety image, 0 while none is in force. -/
def imageNat (s : State) (i n : Nat) : Nat :=
  match s.saf.image with
  | some b => leAt b i n
  | none => 0

/-- A write gate of the safety configuration is set; every gate counts as set while none is in force (16 R569, R572). -/
def gateSet (s : State) (i : Nat) : Bool :=
  match s.saf.image with
  | some b => nbit (leAt b 56 4) i
  | none => true

/-- A flag of the safety configuration (16 R569 bytes 54 and 55). -/
def imageFlag (s : State) (i : Nat) : Bool := nbit (imageNat s 54 2) i

/-- The die band in force, 0 to 5 for selections, the shutdown band selecting T5 (17 R593, R595); T1 until the first is
decided (09 R332, 20 R674). -/
def bandInForce (s : State) : Nat :=
  match s.hkp.band with
  | some b => if b > 5 then 5 else b
  | none => 1

/-- A forced field written in the shadow of head `h`, as in force since the last cut (08 R301). -/
def forceAt (s : State) (h : Head) (a : Nat) : Word := Store.get regReset (s.tg.get h).force (a / 4)

/-- Field of a forced word. -/
def forceFld (s : State) (h : Head) (a hi lo : Nat) : Nat := fld (forceAt s h a) hi lo

/-- Bit of a forced word. -/
def forceBit (s : State) (h : Head) (a i : Nat) : Bool := bit (forceAt s h a) i

end Sys2Proof.Machine
end

