-- ==== Sys2Proof/Machine/Routes.lean ====
section
/-! DEFINITION. The tile map of a head (08 R310) and which lane carries which tile (09 R316, 10 R403 to R406). -/

namespace Sys2Proof.Machine

/-! ## The tile map (08 R310) -/

/-- Tile `t` is enabled in the head's tile map. -/
def tileEnabled (s : State) (h : Head) (t : Nat) : Bool := regBit s (tgBase h + 0x80 + 8 * t) 31

/-- The enabled tiles of a head. -/
def enabledTiles (s : State) (h : Head) : List Nat := idxWhere 8 (tileEnabled s h)

/-- Origin column of a tile in its head's part. -/
def tileX (s : State) (h : Head) (t : Nat) : Nat := regFld s (tgBase h + 0x80 + 8 * t) 12 0

/-- Origin line of a tile. -/
def tileY (s : State) (h : Head) (t : Nat) : Nat := regFld s (tgBase h + 0x80 + 8 * t) 27 16

/-- Width of a tile. -/
def tileW (s : State) (h : Head) (t : Nat) : Nat := regFld s (tgBase h + 0x84 + 8 * t) 10 0

/-- Height of a tile. -/
def tileH (s : State) (h : Head) (t : Nat) : Nat := regFld s (tgBase h + 0x84 + 8 * t) 25 16

/-- A pixel of a head's part lies in a tile. -/
def tileHolds (s : State) (h : Head) (t x y : Nat) : Bool :=
  decide (tileX s h t ≤ x) && decide (x < tileX s h t + tileW s h t)
    && decide (tileY s h t ≤ y) && decide (y < tileY s h t + tileH s h t)

/-- The enabled tile that holds a pixel of a head's part. -/
def tileAt (s : State) (h : Head) (x y : Nat) : Option Nat := (enabledTiles s h).find? (fun t => tileHolds s h t x y)

/-! ## Routes (10 R403 to R406) -/

/-- Two-bit code of pair `i` in a forwarding field. -/
def pairCode (v i : Nat) : Nat := v / 4 ^ i % 4

/-- A number with bit `i` set or cleared. -/
def setBitNat (v i : Nat) (b : Bool) : Nat := if nbit v i = b then v else if b then v + 2 ^ i else v - 2 ^ i

/-- The forwarding field with the code of pair `i` replaced. -/
def setPair (v i c : Nat) : Nat := v - pairCode v i * 4 ^ i + c * 4 ^ i

/-- A pair's request as its register holds it (10 R409). -/
def fwdRequest (s : State) (h : Head) (i : Nat) : Nat := pairCode (regFld s (tblBase h + 8) 7 0) i

/-- The code by which the packets of pair `i` travel now (10 R404, R406). -/
def routeCode (s : State) (h : Head) (i : Nat) : Nat := pairCode (s.tbl.get h).route i

/-- A pair code names tile `t` as the one carried through its partner (10 R409). -/
def codeNames (code t : Nat) : Bool := code == t % 2 + 1

/-- Tile `t` is reached through its partner now. -/
def viaPartner (s : State) (h : Head) (t : Nat) : Bool := codeNames (routeCode s h (t / 2)) t

/-- The partner of tile `t`. -/
def partnerOf (t : Nat) : Nat := if t % 2 = 0 then t + 1 else t - 1

/-- The lane, 0 to 7 of its head, that carries tile `t` now. -/
def carrierOf (s : State) (h : Head) (t : Nat) : Nat := if viaPartner s h t then partnerOf t else t

/-- Number of a head's lane `l` among the 18. -/
def laneIndex (h : Head) (l : Nat) : Nat := 8 * Head.idx h + l

/-- A tile lane is in service: it carries an enabled tile of the map, its own or its partner's (09 R316). -/
def laneInService (s : State) (h : Head) (l : Nat) : Bool :=
  tileEnabled s h l || (tileEnabled s h (partnerOf l) && viaPartner s h (partnerOf l))

/-- The path of tile `t` is in service: its carrying lane is ACTIVE (10 R394). -/
def pathActive (s : State) (h : Head) (t : Nat) : Bool := (laneOf s (laneIndex h (carrierOf s h t))).pstate == 3

/-- The path of tile `t` is aligned (10 R401). -/
def pathAligned (s : State) (h : Head) (t : Nat) : Bool :=
  pathActive s h t && (laneOf s (laneIndex h (carrierOf s h t))).aligned

/-- Some lane in service of a head is ACTIVE (09 R316, R324). -/
def someLaneActive (s : State) (h : Head) : Bool :=
  (List.range 8).any (fun l => laneInService s h l && (laneOf s (laneIndex h l)).pstate == 3)

end Sys2Proof.Machine
end

