-- ==== Sys2Proof/Machine/Symbols.lean ====
section
/-! DEFINITION. The 8b/10b code of the lanes and what a transmitter sends (09 R321, R322, R341, R344, R345, R348), and the
command sequences of the Tablan link (10 R361). -/

namespace Sys2Proof.Machine

/-! ## Code groups (09 R321, R322) -/

/-- A data symbol. -/
def dataSymbol (n : Nat) : Symbol := { special := false, byte := n % 256 }

/-- The special symbol Kx.y. -/
def special (x y : Nat) : Symbol := { special := true, byte := x + 32 * y }

/-- Ones among the low `n` bits of a number. -/
def onesIn (n v : Nat) : Nat := ((List.range n).filter (nbit v)).length

/-- The low `n` bits of a number complemented. -/
def complement (n v : Nat) : Nat := 2 ^ n - 1 - v

/-- Six-bit sub-blocks of D0 to D31 for negative running disparity (clause 36). -/
def sixTable : List Nat :=
  [0b100111, 0b011101, 0b101101, 0b110001, 0b110101, 0b101001, 0b011001, 0b111000, 0b111001, 0b100101, 0b010101, 0b110100,
   0b001101, 0b101100, 0b011100, 0b010111, 0b011011, 0b100011, 0b010011, 0b110010, 0b001011, 0b101010, 0b011010, 0b111010,
   0b110011, 0b100110, 0b010110, 0b110110, 0b001110, 0b101110, 0b011110, 0b101011]

/-- Four-bit sub-blocks of Dx.0 to Dx.7 for negative running disparity (clause 36). -/
def fourTable : List Nat := [0b1011, 0b1001, 0b0101, 0b1100, 0b1101, 0b1010, 0b0110, 0b1110]

/-- Code groups of the twelve special symbols for negative running disparity (clause 36). -/
def specialTable : List (Nat × Nat) :=
  [(0x1C, 0b0011110100), (0x3C, 0b0011111001), (0x5C, 0b0011110101), (0x7C, 0b0011110011), (0x9C, 0b0011110010),
   (0xBC, 0b0011111010), (0xDC, 0b0011110110), (0xFC, 0b0011111000), (0xF7, 0b1110101000), (0xFB, 0b1101101000),
   (0xFD, 0b1011101000), (0xFE, 0b0111101000)]

/-- The six-bit sub-block of a data symbol at a running disparity. -/
def sixBits (x : Nat) (pos : Bool) : Nat :=
  let v := sixTable.getD x 0
  if pos && (onesIn 6 v != 3 || x == 7) then complement 6 v else v

/-- The four-bit sub-block of a data symbol at the running disparity after its six-bit one; Dx.7 has an alternate form. -/
def fourBits (x y : Nat) (pos : Bool) : Nat :=
  let alternate := y == 7 && (if pos then [11, 13, 14] else [17, 18, 20]).contains x
  let v := if alternate then 0b0111 else fourTable.getD y 0
  if pos && (onesIn 4 v != 2 || y == 3) then complement 4 v else v

/-- Running disparity after a sub-block of `n` bits (clause 36). -/
def subRd (n v : Nat) (pos : Bool) : Bool :=
  if n / 2 < onesIn n v || v == 2 ^ (n / 2) - 1 then true
  else if onesIn n v < n / 2 || v == complement n (2 ^ (n / 2) - 1) then false
  else pos

/-- Running disparity after a code group (clause 36). -/
def groupRd (g : Nat) (pos : Bool) : Bool := subRd 4 (g % 16) (subRd 6 (g / 16) pos)

/-- The code group of a symbol at a running disparity (09 R321). -/
def groupOf (y : Symbol) (pos : Bool) : Nat :=
  if y.special then
    let v := ((specialTable.find? (fun e => e.1 == y.byte)).map Prod.snd).getD 0
    if pos then complement 10 v else v
  else
    let six := sixBits (y.byte % 32) pos
    16 * six + fourBits (y.byte % 32) (y.byte / 32) (subRd 6 six pos)

/-- Every symbol of the code (09 R321). -/
def allSymbols : List Symbol :=
  (List.range 256).map dataSymbol ++ specialTable.map (fun e => { special := true, byte := e.1 })

/-- The symbol that a code group stands for in the column of a running disparity. -/
def symbolOf (g : Nat) (pos : Bool) : Option Symbol := allSymbols.find? (fun y => groupOf y pos == g)

/-- A group is in the code table, in one column or the other (09 R322). -/
def inTable (g : Nat) : Bool := (symbolOf g false).isSome || (symbolOf g true).isSome

/-- The groups of a list of symbols from a running disparity on, and the disparity after them. -/
def encodeAll (pos : Bool) : List Symbol → List Group × Bool
  | [] => ([], pos)
  | y :: rest =>
    let g := groupOf y pos
    let r := encodeAll (groupRd g pos) rest
    (BitVec.ofNat 10 g :: r.1, r.2)

/-! ## PRBS (09 R345) -/

/-- Degree and middle tap of a pattern code's polynomial. -/
def prbsTaps : Nat → Nat × Nat
  | 1 => (7, 6)
  | 2 => (15, 14)
  | _ => (31, 28)

/-- The next bit of a pattern after the bits held, newest first. -/
def prbsNext (code : Nat) (reg : List Bool) : Bool :=
  let (n, m) := prbsTaps code
  reg.getD (n - 1) false != reg.getD (m - 1) false

/-- The bits held after one more. -/
def prbsPush (code : Nat) (reg : List Bool) (b : Bool) : List Bool := (b :: reg).take (prbsTaps code).1

/-- A generator's bits as it starts: all ones. -/
def prbsStart (code : Nat) : List Bool := List.replicate (prbsTaps code).1 true

/-- The next `k` bits of a generator, first sent first, and its bits after them. -/
def prbsBits (code : Nat) : Nat → List Bool → List Bool × List Bool
  | 0, reg => ([], reg)
  | k + 1, reg =>
    let b := prbsNext code reg
    let r := prbsBits code k (prbsPush code reg b)
    (b :: r.1, r.2)

/-- A group of ten bits, the first sent first. -/
def groupFrom (bs : List Bool) : Group := BitVec.ofNat 10 (bs.foldl (fun n b => 2 * n + b2n b) 0)

/-- The bits of a group, the first sent first. -/
def groupBits (g : Group) : List Bool := (List.range 10).map (fun k => g.getLsbD (9 - k))

/-! ## What a lane's transmitter sends (09 R341, R344, R345, R348) -/

/-- Block of a lane: 0 LNA, 1 LNB, 2 LNN. -/
def laneBlockOf (l : Nat) : Nat := l / 8

/-- Base address of a lane block (21 R685). -/
def laneBlockBase (b : Nat) : Nat := 0x09000 + 0x1000 * b

/-- Base address of a lane's registers (09 R354). -/
def laneBase (l : Nat) : Nat := laneBlockBase (laneBlockOf l) + 0x100 + 0x20 * (l % 8)

/-- Loopback code of a lane (09 R348, R355). -/
def laneLoop (s : State) (l : Nat) : Nat := regFld s (laneBase l) 9 8

/-- The PRBS pattern that a lane generates, 0 none (09 R345, R355). -/
def laneGen (s : State) (l : Nat) : Nat := regFld s (laneBase l) 5 4

/-- The PRBS pattern that a lane checks, 0 none. -/
def laneChk (s : State) (l : Nat) : Nat := regFld s (laneBase l) 7 6

/-- The control words of auto-negotiation or of SGMII are used on a port (11 R454). -/
def controlWords (s : State) (p : Nat) : Bool := regBit s (0x0D100 + 0x100 * p) 2

/-- A network lane exchanges control words: configuration ordered sets leave it in place of idle ones (11 R413). -/
def configures (s : State) (l : Nat) : Bool := decide (16 ≤ l) && controlWords s (l - 16) && !(portOf s (l - 16)).anDone

/-- What a lane's transmitter sends by its state, its loopback and its generator. -/
def streamOf (s : State) (l : Nat) : LaneStream :=
  if (laneOf s l).pstate != 3 || laneLoop s l == 1 then .quiet
  else if laneLoop s l == 3 then .returned
  else if laneGen s l != 0 then .prbs (laneGen s l)
  else if configures s l then .config
  else .commas

/-- A lane's transmitter follows its settings; its running disparity starts negative as it leaves electrical idle
(09 R321). -/
def streamSettle (s : State) (l : Nat) : State :=
  let old := (laneOf s l).stream
  let new := streamOf s l
  if new = old then s
  else
    let s1 := if old = .quiet then { s with txRd := Store.put (fun _ => false) s.txRd l false } else s
    emit (modLane s1 l (fun e => { e with stream := new })) (.stream l new)

/-- The symbols of a lane's link layer leave the lane (09 R344, R346, R348). -/
def laneCarries (s : State) (l : Nat) : Bool := (laneOf s l).stream == .commas

/-! ## Reception (09 R322, R329, R330, R340, R345) -/

/-- A group is valid, 0; has a disparity error, 1; or is a code violation, 2 (09 R322). -/
def groupClass (e : Lane) (g : Nat) : Nat :=
  if (symbolOf g e.rxRd).isSome || (e.rxFirst && inTable g) then 0
  else if inTable g then 1
  else 2

/-- An aligned receiver takes a group: its class is counted, its running disparity follows, the symbol is delivered to the link
layer, and an error that is not excluded counts in its window and interval (09 R322, R329, R330, R340). -/
def Lane.takeGroup (e : Lane) (g : Nat) : Lane :=
  let c := groupClass e g
  let pos := if e.rxFirst && (symbolOf g e.rxRd).isNone then !e.rxRd else e.rxRd
  let sym := match symbolOf g e.rxRd with
    | some y => some y
    | none => symbolOf g (!e.rxRd)
  let err := c != 0 && e.excluded == 0
  let full := e.winGroups == 1023
  { e with violations := if c = 2 then satAdd 0xFFFF e.violations 1 else e.violations,
           disparities := if c = 1 then satAdd 0xFFFF e.disparities 1 else e.disparities,
           rxRd := groupRd g pos, rxFirst := false, delivered := some (sym, c != 0), intervalErrors := e.intervalErrors || err,
           winGroups := if full then 0 else e.winGroups + 1,
           winErrors := if full && decide (e.winErrors + b2n err < 16) then 0 else e.winErrors + b2n err }

/-- The PRBS checker takes a bit (09 R345): unlocked it predicts from the bits received, and 64 without error lock it; locked
it runs on, counts, and 16 errors within 64 bits drop the lock. -/
def Lane.checkBit (code : Nat) (e : Lane) (b : Bool) : Lane :=
  let k := e.checker
  if k.reg.length < (prbsTaps code).1 then { e with checker := { k with reg := prbsPush code k.reg b } }
  else
    let p := prbsNext code k.reg
    if e.prbsLock then
      let flags := ((p != b) :: k.flags).take 64
      let drop := decide (16 ≤ (flags.filter id).length)
      let full := k.part == 65535
      { e with prbsErrors := if p != b then satAdd 0xFFFFFFFF e.prbsErrors 1 else e.prbsErrors,
               prbsBits := if full then satAdd 0xFFFFFFFF e.prbsBits 1 else e.prbsBits, prbsLock := !drop,
               checker := { reg := if drop then [] else prbsPush code k.reg p, run := 0, flags := if drop then [] else flags,
                            part := if full then 0 else k.part + 1 } }
    else if p != b then { e with checker := { k with reg := [], run := 0 } }
    else { e with prbsLock := k.run == 63, checker := { k with reg := prbsPush code k.reg b, run := (k.run + 1) % 64 } }

/-- A receiver takes a group: the PRBS checker in place of the decoder while a pattern is checked (09 R345; DEDUCED, log 72),
else the decoder while the lane is aligned. With the slot, what is excluded after a receive equalisation change runs on
(09 R335). -/
def Lane.hear (code : Nat) (e : Lane) (g : Group) : Lane :=
  let e1 := if code ≠ 0 then (groupBits g).foldl (Lane.checkBit code) e else if e.aligned then e.takeGroup g.toNat else e
  { e1 with excluded := e.excluded - 1 }

/-- A lane has found its boundary: its elastic buffer is filled to its centre, and its windows begin (09 R322, R325,
R326, R329, R330). -/
def Lane.align (e : Lane) (offset : Nat) : Lane :=
  { e with searching := false, aligned := true, slip := offset % 10, lost := false, elastic := 4, rxFirst := true,
           winGroups := 0, winErrors := 0 }

/-- Groups leave a lane's balls, inverted with tx_inv (09 R355). -/
def sendGroups (s : State) (l : Nat) (gs : List Group) : State :=
  if gs.isEmpty then s else emit s (.groups l (if regBit s (laneBase l) 2 then gs.map (fun g => ~~~g) else gs))

/-- A lane's coder takes the symbols of its link layer for its own receiver, in a near-end loopback (09 R348). -/
def laneLooped (s : State) (l : Nat) : Bool :=
  (laneOf s l).pstate == 3 && (laneLoop s l == 1 || laneLoop s l == 2) && laneGen s l == 0

/-- The running disparity that the symbols of a link layer start from. How many symbols of idle have gone before on a tile lane,
and with them the disparity, is a free value (log 68); an idle ordered set of a network lane leaves it negative (09 R321). -/
def startRd (s : State) (l : Nat) : Bool × State :=
  if 16 ≤ l then (false, s)
  else
    let (k, s1) := drawBelow s 2
    (Store.get (fun _ => false) s1.txRd l != (k == 1), s1)

/-- Symbols of the link layer pass a lane's coder: they leave the lane, and in a near-end loopback its own receiver takes them
(09 R321, R348). -/
def sendSymbols (s : State) (l : Nat) (ys : List Symbol) : State :=
  if (laneCarries s l || laneLooped s l) && !ys.isEmpty then
    let (pos, s1) := startRd s l
    let r := encodeAll pos ys
    let s2 : State := { s1 with txRd := Store.put (fun _ => false) s1.txRd l r.2 }
    let s3 := modLane s2 l (fun e =>
      let e1 := { e with setPlace := 0 }
      if laneLooped s l then r.1.foldl (Lane.hear (laneChk s l)) { e1 with rxRd := pos } else e1)
    if laneCarries s l then sendGroups s3 l r.1 else s3
  else s

/-! ## The command sequences (10 R361) -/

/-- The symbols of a command sequence. A park is DARK or HUSK (18 R621). -/
def commandSymbols (c : LaneCmd) : List Symbol :=
  let husk (p : Nat) : List Symbol := [special 28 3, dataSymbol p, dataSymbol (255 - p % 256)]
  let dark : List Symbol := [special 28 7, special 28 7]
  match c with
  | .stitch f => [special 28 1, dataSymbol f, special 28 1, dataSymbol f]
  | .husk p => husk p
  | .dark => dark
  | .park none => dark
  | .park (some p) => husk p

/-- The symbols of a packet (10 R367). -/
def packetSymbols (bytes : List Byte) : List Symbol :=
  special 27 7 :: bytes.map (fun b => dataSymbol b.toNat) ++ [special 29 7]

/-- The symbols of an Ethernet frame on a network lane, preamble and delimiters of clause 36 with them (09 R321). -/
def frameSymbols (bytes : List Byte) : List Symbol :=
  special 27 7 :: List.replicate 6 (dataSymbol 0x55) ++ [dataSymbol 0xD5] ++ bytes.map (fun b => dataSymbol b.toNat)
    ++ [special 29 7, special 23 7] ++ (if bytes.length % 2 = 1 then [special 23 7] else [])

end Sys2Proof.Machine
end

