-- ==== Sys2Proof/Machine/Wake.lean ====
section
/-! DEFINITION. Wake events and the start of an exit (18 R613, R620, R623 to R625), and MSI-X messages (02 R49, R63):
what any family may cause. -/

namespace Sys2Proof.Machine

/-- The power controller changed by `f`. -/
def modPwr (s : State) (f : Pwr → Pwr) : State := { s with pwr := f s.pwr }

/-- Domains that are not on, highest index first (18 R625 step 1). -/
def domainsDown (s : State) : List Nat := ((List.range 8).filter (fun d => domainState s d != 2)).reverse

/-- OFF stops REF and the PLLs, until an exit has every domain on (18 R611, R625 step 3). -/
def clocksStopped (s : State) : Bool := s.pwr.state == 4 && !(s.pwr.phase == 4 && (domainsDown s).isEmpty)

/-- REF runs, and AO from it; otherwise AO runs from the RC oscillator (01 R18, 18 R611). -/
def refRuns (s : State) : Bool := s.pwr.refPresent && (!clocksStopped s || regBit s 0x15000 4)

/-- PLL_CORE, PLL_LOOP and PLL_TIME run (18 R611). -/
def pllsRun (s : State) : Bool := !clocksStopped s

/-- The exit begins for the wake bits `bits` (18 R620, R624, R625). -/
def beginExit (s : State) (bits : Word) : State :=
  modPwr s (fun p => { p with phase := 4, cause := p.cause ||| bits, awaiting := domainsDown s, missed := [] })

/-- The lanes return to the power states they had before the entry (18 R617, R625 step 6); their equalisation update is due
(09 R333). A lane whose state was ACTIVE leaves OFF for it here, and LANE_ACTIVE is its arrival there (09 R342, R344). -/
def lanesReturn (s : State) : State :=
  modPwr (s.pwr.lanesWere.foldl (fun acc e =>
      modLane acc e.1 (fun l => { l with pstate := if e.2 = 3 then 0 else e.2, eqPending := true, exitDue := e.2 == 2 })) s)
    (fun p => { p with lanesWere := [] })

/-- The entry in progress is abandoned before its point of no return: the asked blocks restart and nothing is recorded
(18 R617, R620). -/
def abortEntry (s : State) : State :=
  modPwr (lanesReturn s) (fun p => { p with phase := 0, state := 0, target := 0, agreed := [], asking := 0, byTimer := false })

/-- A wake event of bits `bits` before the point of no return: the entry is abandoned. Where the domains that DOZE held down
are still coming up, their power-good is awaited as in an exit (18 R613, R620, R625). -/
def entryWakes (s : State) (bits : Word) : State :=
  if (domainsDown s).isEmpty then abortEntry s
  else beginExit (modPwr s (fun p => { p with target := 0, asking := 0, byTimer := false })) bits

/-- Wake source `b` takes effect in state `st` (18 R623). PD_NET decides for bit 5 in SLEEP. -/
def wakeActs (s : State) (st b : Nat) : Bool :=
  match st with
  | 2 => decide (b ≤ 9)
  | 3 => decide (b ≤ 9) && b != 1 && (b != 5 || domainState s 1 == 2)
  | 4 => b == 0 || b == 3 || b == 7 || b == 8
  | _ => false

/-- A wake event of bit `b` arrives (18 R620, R623); during an exit it is latched, to be presented at its end (18 R624). -/
def wake (s : State) (b : Nat) : State :=
  if !regBit s 0x15020 b then s
  else
    match s.pwr.phase with
    | 1 => if wakeActs s s.pwr.target b then entryWakes s (bitAt b true) else s
    | 2 => if wakeActs s s.pwr.target b then entryWakes s (bitAt b true) else s
    | 3 => if wakeActs s s.pwr.target b then modPwr s (fun p => { p with latch := p.latch ||| bitAt b true }) else s
    | 4 => if wakeActs s s.pwr.state b then modPwr s (fun p => { p with latch := p.latch ||| bitAt b true }) else s
    | 0 => if wakeActs s s.pwr.state b then beginExit s (bitAt b true) else s
    | _ => s

/-- Traffic on the PCI Express link takes it out of L1 (02 R45, R49). -/
def linkWakes (s : State) : State := { s with hif := { s.hif with l1 := false } }

/-- An event breaks the idle conditions: IDLE is left (18 R612, R614). -/
def idleExits (s : State) : State :=
  if s.pwr.state = 1 then linkWakes (modPwr s (fun p => { p with state := 0 })) else s

/-- The link may enter L1 where the host has enabled ASPM L1: whether it does is a free value, since both ends decide
(02 R45, 18 R610, log 24). -/
def linkRests (s : State) : State :=
  let (k, s1) := drawBelow s 2
  { s1 with hif := { s1.hif with l1 := s1.hif.linkUp && s1.hif.function.aspmL1 && (s1.hif.l1 || k == 1) } }

/-- A posted write to host memory, which leaves only while PD_HOST serves (02 R46). -/
def postWrite (s : State) (addr : Nat) (bytes : List Byte) : State :=
  if hostLive s then emit (linkWakes s) (.hostWrite addr bytes) else s

/-- MSI-X vector `v` is signalled: a masked vector sets its pending bit, by the MSI-X capability (02 R49, R63). -/
def signalMsix (s : State) (v : Nat) : State :=
  if !hostLive s then s
  else if regBit s (0x0180C + 16 * v) 0 then { s with hif := { s.hif with pba := s.hif.pba ||| bitAt v true } }
  else emit (linkWakes s) (.msix v)

/-- A pending vector that is no longer masked is signalled (02 R49). -/
def flushMsix (s : State) (v : Nat) : State :=
  if bit s.hif.pba v && !regBit s (0x0180C + 16 * v) 0 then
    emit (linkWakes { s with hif := { s.hif with pba := s.hif.pba &&& ~~~(bitAt v true) } }) (.msix v)
  else s

end Sys2Proof.Machine
end

