-- ==== Sys2Proof/Machine/Faults.lean ====
section
/-! DEFINITION. The fault collector's reaction to an assertion (15 R522 to R540) and the safety state of each head that
follows from the requests that stand (16 R548 to R553). -/

namespace Sys2Proof.Machine

/-- The fault collector changed by `f`. -/
def modFlt (s : State) (f : Flt → Flt) : State := { s with flt := f s.flt }

/-! ## Severities (15 R526, R527, R532) -/

/-- Hardware floors by register word (15 R546). -/
def hwFloor : Nat → Nat
  | 0 => 0x10101103 | 1 => 0x00020100 | 2 => 0x02222001 | 3 => 0x01110101 | 4 => 0x01000010 | 5 => 0x41001110
  | 6 => 0x02333332 | 7 => 0x01111000 | _ => 0

/-- Nibble `i` of a word of severities, without its reserved bit. -/
def sevNibble (w i : Nat) : Nat := (w / 16 ^ i) % 8

/-- The floor in force of a source: the greater of its hardware floor and the safety configuration's (15 R526). -/
def floorOf (s : State) (src : Nat) : Nat :=
  Nat.max (sevNibble (hwFloor (src / 8)) (src % 8)) (sevNibble (imageNat s (16 + 4 * (src / 8)) 4) (src % 8))

/-- The severity in force of a source (15 R527). -/
def sevOf (s : State) (src : Nat) : Nat :=
  Nat.max (sevNibble (regAt s (0x12020 + 4 * (src / 8))).toNat (src % 8)) (floorOf s src)

/-- The level sources (15 R532). -/
def isLevel (src : Nat) : Bool :=
  [0, 6, 8, 12, 15, 16, 23, 24, 30, 31, 32, 36, 43, 46, 47, 48, 49, 50, 52, 53, 62].contains src

/-- A level source's condition is true for some instance of it (15 R522). -/
def conditionOf (s : State) (src : Nat) : Bool :=
  (src == 0 && s.flt.self) || s.flt.live.any (fun e => e.1 == src)

/-- The sticky bit of a source; FS00 follows the latch of R541. -/
def stickyOf (s : State) (src : Nat) : Bool := s.flt.sticky.getLsbD src || (src == 0 && s.flt.self)

/-- FAULT_N is asserted (15 R531). -/
def faultPin (s : State) : Bool :=
  !regBit s 0x12000 0 || s.flt.self
    || (List.range 64).any (fun i => stickyOf s i && decide (regFld s 0x12000 3 1 ≤ sevOf s i))

/-! ## Safety states (16 R548 to R553) -/

/-- The state that the collector's request of severity `sev` calls for: 1 DEGRADE, 2 HUSK, 3 DARK. A source whose
severity was raised to RESET while its bit stood calls for HUSK without the reset (log 20). -/
def callOf (sev : Nat) : Nat :=
  match sev with
  | 2 => 1
  | 3 => 2
  | 4 => 3
  | 5 => 2
  | _ => 0

/-- The sources whose requests stand on a head (15 R528, R529). -/
def requestsOn (s : State) (h : Head) : List Nat :=
  (List.range 64).filter (fun i => s.flt.sticky.getLsbD i
    && (match h with | .a => s.flt.reqA.getLsbD i | .b => s.flt.reqB.getLsbD i))

/-- The highest state the collector's standing requests call for on a head. -/
def collectorCall (s : State) (h : Head) : Nat :=
  ((requestsOn s h).map (fun i => callOf (sevOf s i))).foldl Nat.max (if s.flt.resetReq then 2 else 0)

/-- The direct requests: self-protection and the AO clock monitor (16 R549). -/
def directCall (s : State) : Bool := s.flt.self || !s.flt.aoClock.isEmpty

/-- The state that the requests of one head alone call for (16 R548, R549). -/
def ownCall (s : State) (h : Head) : Nat :=
  Nat.max (collectorCall s h)
    (Nat.max (if directCall s || s.saf.safeN || (s.saf.stop.get h).isSome then 2 else 0)
      (if s.saf.dark.get h then 3 else 0))

/-- The state called for on a head; in joined mode a request for either head acts on both (16 R555). -/
def stateCall (s : State) (h : Head) : Nat :=
  if joined s then Nat.max (ownCall s .a) (ownCall s .b) else ownCall s h

/-- The patterns that the HUSK requests standing on one head carry (16 R551). -/
def ownPatterns (s : State) (h : Head) : List Nat :=
  let cfg := huskPattern s h
  (match s.saf.stop.get h with
    | some p => [if p = 255 then cfg else p]
    | none => []) ++
  (if s.flt.resetReq || directCall s || s.saf.safeN || (requestsOn s h).any (fun i => callOf (sevOf s i) == 2)
    then [cfg] else [])

/-- The lowest pattern among the HUSK requests that stand (16 R551). -/
def patternCall (s : State) (h : Head) : Nat :=
  let ps := if joined s then ownPatterns s .a ++ ownPatterns s .b else ownPatterns s h
  match ps with
  | [] => huskPattern s h
  | p :: rest => rest.foldl Nat.min p

/-- A command sequence leaves on every lane in service of a head: none leaves where no such lane is ACTIVE or the link
layer does not live (10 R361, R390). -/
def sendLanes (s : State) (h : Head) (c : LaneCmd) : State :=
  if linkLive s h && someLaneActive s h then
    ((List.range 8).filter (laneInService s h)).foldl (fun acc l => sendSymbols acc (laneIndex h l) (commandSymbols c))
      (emit s (.lanes h c))
  else s

/-- A command sequence leaves four times in succession (10 R390, 18 R621). -/
def sendFour (s : State) (h : Head) (c : LaneCmd) : State := (List.range 4).foldl (fun acc _ => sendLanes acc h c) s

/-- Degraded composition follows the safety state (16 R550). -/
def degradeApply (s : State) (h : Head) : State := modSafHead s h (fun e => { e with degraded := decide (1 ≤ e.state) })

/-- The throttle level and the headroom in force (06 R231, R232, 16 R550). -/
def headroomApply (s : State) (h : Head) : State :=
  let n := s.hkp.level.get (timer s h)
  let v := regFld s (bldBase (timer s h) + 0x20 + 4 * n) 15 0
  let d := degradeHeadroom s h
  modBld s h (fun b => { b with level := n, headroom := if (s.saf.heads.get h).degraded ∧ d < v then d else v })

/-- The HUSK and DARK requests that act on a head, each by its own number (16 R549, R555). -/
def standingNow (s : State) (h : Head) : List Nat :=
  let own (x : Head) : List Nat :=
    ((requestsOn s x).filter (fun i => callOf (sevOf s i) == 2)) ++ ((requestsOn s x).filter (fun i => callOf (sevOf s i) == 3)).map (fun i => 64 + i)
      ++ (if s.flt.resetReq then [128] else []) ++ (if s.flt.self then [129] else []) ++ (if s.saf.safeN then [130] else [])
      ++ (if (s.saf.stop.get x).isSome then [131] else []) ++ (if s.saf.dark.get x then [132] else []) ++ s.flt.aoClock.map (fun c => 140 + c)
  if joined s then own .a ++ (own .b).filter (fun i => !(own .a).contains i) else own h

/-- The state of one head follows its standing requests: the sequence of a new HUSK pattern or of DARK is placed at once,
entries are counted and a head that is STOPPED takes degraded composition and its headroom at once; a request newly standing
is a wake event (16 R550 to R553, 18 R623, 08 R734). -/
def settleHead (s : State) (h : Head) : State :=
  let old := s.saf.heads.get h
  let st := stateCall s h
  let p := patternCall s h
  let s0 := modSafHead s h (fun e =>
    { e with state := st, pattern := if st = 2 then p else e.pattern, standing := standingNow s h,
             holds := if 2 ≤ st ∧ old.state < 2 then satAdd 0xFFFF e.holds 1 else e.holds })
  let s1 := if stopped s0 h then headroomApply (degradeApply s0 h) h else s0
  let s2 :=
    if st = 2 ∧ (old.state ≠ 2 ∨ old.pattern ≠ p) then sendFour s1 h (.husk p)
    else if st = 3 ∧ old.state ≠ 3 then sendFour s1 h .dark
    else s1
  if (standingNow s h).any (fun i => !old.standing.contains i) then wake s2 2 else s2

/-- Both heads' safety states follow the requests that stand (16 R548). -/
def settle (s : State) : State := settleHead (settleHead s .a) .b

/-! ## Assertions (15 R522 to R540) -/

/-- The collector's part of an assertion: sticky bit, count and standing request (15 R523, R525, R528). -/
def assertBits (f : Flt) (src heads : Nat) : Flt :=
  let hs := if heads = 0 then 3 else heads
  let m : DWord := 1#64 <<< src
  let keepA := if f.sticky.getLsbD src then f.reqA else f.reqA &&& ~~~m
  let keepB := if f.sticky.getLsbD src then f.reqB else f.reqB &&& ~~~m
  { f with sticky := f.sticky ||| m,
           counts := Store.put (fun _ => 0) f.counts src (satAdd 0xFFFF (Store.get (fun _ => 0) f.counts src) 1),
           reqA := if nbit hs 0 then keepA ||| m else keepA,
           reqB := if nbit hs 1 then keepB ||| m else keepB }

/-- An event mask bit keeps its source out of the records (15 R540). -/
def eventMasked (s : State) (src : Nat) : Bool := bit (regAt s (0x12074 + 4 * (src / 32))) (src % 32)

/-- Of two assertions of one cycle the first comes before the second: higher severity, then lower source (15 R536, R539). -/
def outranks (sev src sev2 src2 : Nat) : Bool := decide (sev2 < sev) || (sev == sev2 && decide (src < src2))

/-- An entry takes its place among those opened in its cycle (15 R539). -/
def placeEntry (e : Entry) : List Entry → List Entry
  | [] => [e]
  | x :: rest => if outranks e.severity e.source x.severity x.source then e :: x :: rest else x :: placeEntry e rest

/-- A new entry opens, after those of earlier cycles (15 R538, R539). -/
def openEntry (f : Flt) (e : Entry) : List Entry :=
  match f.cycle with
  | some (n, _) => f.entries.take n ++ placeEntry e (f.entries.drop n)
  | none => f.entries ++ [e]

/-- Pending entries after an assertion: the source's own entry counts on, or a new one opens (15 R538, R544). -/
def assertEntry (f : Flt) (e : Entry) : List Entry :=
  if f.entries.any (fun x => x.source == e.source) then
    f.entries.map (fun x =>
      if x.source == e.source then
        { x with repeats := satAdd 0xFFFF x.repeats 1, clearSeen := false, injected := x.injected || e.injected } else x)
  else openEntry f e

/-- An assertion is captured as the first fault: the record is free, or holds one of the same cycle that it outranks
(15 R536). -/
def capturesFirst (f : Flt) (sev src : Nat) : Bool :=
  sev != 0 && (!f.firstValid
    || (match f.cycle with
        | some (_, before) => !before && outranks sev src f.first.severity f.first.source
        | none => false))

/-- What one command causes reaches the collector in one CORE cycle (15 R536, R539; log 50). -/
def oneCycle (f : State → State) (s : State) : State :=
  match s.flt.cycle with
  | some _ => f s
  | none =>
    let s1 := f (modFlt s (fun x => { x with cycle := some (x.entries.length, x.firstValid) }))
    modFlt s1 (fun x => { x with cycle := none })

/-- The heads that an assertion names (15 R532): those of the source table, or those of the event where the table says
so, 0 where it names none. -/
def headsFor (src heads : Nat) : Nat :=
  if [2, 13, 14, 15, 16, 17, 18, 23, 24, 25, 26, 27, 28, 29, 30, 38, 39, 40, 60, 61].contains src then heads
  else if src = 19 ∨ src = 21 ∨ src = 41 then 1
  else if src = 20 ∨ src = 22 ∨ src = 42 then 2
  else 3

/-- One assertion of a source reaches the collector (15 R528, R536, R538). `named` is the mask of heads that its event
names. In OFF it waits for the collector's domain (18 R610, R629, log 91). -/
def raiseInj (s : State) (src named detail : Nat) (injected : Bool) : State :=
  if !fltJudges s then
    if domainState s 6 = 2 then s else modFlt s (fun f => { f with owed := f.owed ++ [(src, named, detail)] })
  else
    let heads := headsFor src named
    let (t, s0) := stampCore s
    let sev := sevOf s0 src
    let was := s0.flt.sticky.getLsbD src
    let e : Entry :=
      { source := src, clear := false, injected := injected, clearSeen := false, severity := sev, heads := heads, repeats := 1,
        detail := detail % 65536, setTime := t, clearTime := 0#32, fsnA := s0.tg.a.fsn, fsnB := (s0.tg.get (timer s0 .b)).fsn }
    let f := assertBits s0.flt src heads
    let f1 := if !capturesFirst f sev src then f else
      { f with firstValid := true,
               first := { source := src, severity := sev, heads := heads, injected := injected, detail := detail % 65536,
                          time := t, fsnA := e.fsnA, fsnB := e.fsnB } }
    let f2 := { f1 with entries := if eventMasked s0 src then f1.entries else assertEntry f1 e,
                        asserted := Store.put (fun _ => Entry.blank) f1.asserted src e,
                        resetReq := f1.resetReq || sev == 5 }
    let s1 := modFlt s0 (fun _ => f2)
    let s2 := if 1 ≤ sev ∧ !was ∧ regBit s1 0x12008 7 then signalMsix s1 (regFld s1 0x12008 4 0) else s1
    let s3 := if 1 ≤ sev then wake s2 4 else s2
    settle s3

/-- One assertion of a source that is not injected. -/
def raise (s : State) (src heads detail : Nat) : State := raiseInj s src heads detail false

/-- PD_CTRL has come on: what has asserted while it was off reaches the collector (18 R629, log 91). -/
def raiseOwed (s : State) : State :=
  if fltJudges s then s.flt.owed.foldl (fun acc e => raise acc e.1 e.2.1 e.2.2) (modFlt s (fun f => { f with owed := [] })) else s

/-- `n` assertions of a source that arrive together. -/
def raiseTimes (s : State) (src heads detail : Nat) : Nat → State
  | 0 => s
  | n + 1 => raiseTimes (raise s src heads detail) src heads detail n

/-- A level source's condition becomes false: the pending entry takes the clear time, or a CLEAR entry opens, with what the
assertion that it closes carried (15 R538, R540). -/
def clearEntry (s : State) (src : Nat) : State :=
  if !fltJudges s then s
  else
    let (t, s0) := stampCore s
    if s0.flt.entries.any (fun x => x.source == src) then
      let es := s0.flt.entries.map (fun x => if x.source == src then { x with clearTime := t, clearSeen := true } else x)
      modFlt s0 (fun f => { f with entries := es })
    else if !s0.flt.taken.getLsbD src || eventMasked s0 src then s0
    else
      let e : Entry :=
        { Store.get (fun _ => Entry.blank) s0.flt.asserted src with
          source := src, clear := true, injected := false, clearSeen := true, repeats := 0, clearTime := t }
      modFlt s0 (fun f => { f with entries := openEntry f e, taken := f.taken &&& ~~~(1#64 <<< src) })

/-- Instance `inst` of a level source's condition is `on` from now on (15 R522, R524): it asserts when it becomes true,
and the source's condition is false when its last instance is. -/
def setLevel (s : State) (src inst heads detail : Nat) (on : Bool) : State :=
  let has := s.flt.live.any (fun e => e.1 == src && e.2.1 == inst)
  if on then
    if has then s
    else raise (modFlt s (fun f => { f with live := f.live ++ [(src, inst, heads, detail)] })) src heads detail
  else if has then
    let s1 := modFlt s (fun f => { f with live := f.live.filter (fun e => !(e.1 == src && e.2.1 == inst)) })
    if s1.flt.live.any (fun e => e.1 == src) then s1 else clearEntry s1 src
  else s

/-- The sticky bits of a mask are cleared, but for the level sources whose condition is true (15 R523); requests of the
bits cleared are withdrawn (15 R529). -/
def clearSticky (s : State) (m : DWord) : State :=
  let held : DWord := (List.range 64).foldl (fun acc i => if conditionOf s i then acc ||| (1#64 <<< i) else acc) 0#64
  let clr := m &&& ~~~held
  settle (modFlt s (fun f => { f with sticky := f.sticky &&& ~~~clr, reqA := f.reqA &&& ~~~clr, reqB := f.reqB &&& ~~~clr }))

/-- When the collector begins to judge after a reach, each instance of a level source that is true asserts once
(15 R522), naming
its instance as it did. -/
def beginJudging (s : State) : State :=
  s.flt.live.foldl (fun acc e => raise acc e.1 e.2.2.1 e.2.2.2) s

/-! ## Injection (15 R543) -/

/-- An injection is armed for a source. -/
def injArmed (s : State) (src : Nat) : Bool := regBit s 0x12080 31 && regFld s 0x12080 5 0 == src

/-- An injection is armed for a source and a target. -/
def injHits (s : State) (src target : Nat) : Bool := injArmed s src && regFld s 0x12080 27 12 == target

/-- The armed injection is spent: arm clears and INJECT_ARMED with it. -/
def spendInj (s : State) : State :=
  setLevel (setRegAt s 0x12080 (regAt s 0x12080 &&& ~~~(bitAt 31 true))) 62 0 0 0 false

/-! ## Pins that follow the safety state -/

/-- LEN is forced low on a head (16 R552, R563, R572). -/
def lenForced (s : State) (h : Head) : Bool :=
  s.saf.image.isNone || (s.saf.heads.get h).wdLow
    || ((s.saf.heads.get h).state == 3 && nbit (headBlockByte s h 391) 1)

/-- The level at LEN_A or LEN_B (12 R484, 16 R552, R563, R572): low while PD_CTRL is in reset or off. -/
def lenPin (s : State) (h : Head) : Bool := ctrlLive s && regBit s 0x0F008 (Head.idx h) && !lenForced s h

/-- SAFE_OUT_N is asserted (16 R559). -/
def safeOut (s : State) : Bool :=
  !regBit s 0x13000 0 || s.saf.image.isNone || s.saf.unlocked
    || decide (2 ≤ s.saf.heads.a.state) || decide (2 ≤ s.saf.heads.b.state)
    || (imageFlag s 3 && (s.saf.heads.a.state == 1 || s.saf.heads.b.state == 1))

end Sys2Proof.Machine
end

