-- ==== Sys2Proof/Machine/Layers.lean ====
section
/-! DEFINITION. Layer slots (04): timing and raster of a head, the parameter block, the mapping from raster to source,
kernels, formats, line-buffer accounting and the checks that a LAYER_SET or LAYER_DATA meets. -/

namespace Sys2Proof.Machine

/-! ## Timing and raster (08 R287 to R290, R311) -/

/-- The timing words of a generator. LP is in 1/256 CORE cycle (08 R289). -/
structure Timing where
  hfp : Nat
  hsync : Nat
  hbp : Nat
  vfp : Nat
  vsync : Nat
  vbp : Nat
  lp : Nat
  delay : Nat
  slack : Nat
  trigMode : Bool
  trigSel : Nat
deriving DecidableEq, Repr

/-- The timing that the words read by `rd` describe, by offset from the generator's base (08 R313). -/
def timingFrom (rd : Nat → Word) : Timing :=
  { hfp := fld (rd 0x18) 9 0, hsync := fld (rd 0x1C) 9 0, hbp := fld (rd 0x20) 9 0, vfp := fld (rd 0x24) 9 0,
    vsync := fld (rd 0x28) 9 0, vbp := fld (rd 0x2C) 9 0, lp := fld (rd 0x30) 23 0, delay := fld (rd 0x34) 17 0,
    slack := fld (rd 0x38) 17 0, trigMode := bit (rd 0) 2, trigSel := fld (rd 0) 6 4 }

/-- The timing in force on a head: generator A's in joined mode (08 R311). -/
def timingOf (s : State) (h : Head) : Timing :=
  let g := timer s h
  timingFrom (fun o => forceAt s g (tgBase g + o))

/-- The timing held in a head's shadow words (08 R301). -/
def timingShadow (s : State) (h : Head) : Timing :=
  let g := timer s h
  timingFrom (fun o => regAt s (tgBase g + o))

/-- HACTIVE of a head's own path (08 R313). -/
def activeW (s : State) (h : Head) : Nat := regFld s (tgBase h + 0x10) 12 0

/-- VACTIVE of a head's own path (08 R313). -/
def activeH (s : State) (h : Head) : Nat := regFld s (tgBase h + 0x14) 11 0

/-- Active pixels of a head's path. -/
def activeN (s : State) (h : Head) : Nat := activeW s h * activeH s h

/-- Width of the raster that the slots of `h` are placed in: the joined raster in joined mode (04 R178). -/
def rasterW (s : State) (h : Head) : Nat := if joined s then activeW s .a + activeW s .b else activeW s h

/-- Height of that raster. -/
def rasterH (s : State) (h : Head) : Nat := activeH s (timer s h)

/-- First raster column of a head's path (08 R311). -/
def pathX (s : State) (h : Head) : Nat := if joined s && h == .b then activeW s .a else 0

/-- Vertical blanking in lines. -/
def Timing.vlines (t : Timing) : Nat := t.vfp + t.vsync + t.vbp

/-- Lines of a sweep, Ht (08 R287). -/
def totalH (s : State) (h : Head) (t : Timing) : Nat := activeH s (timer s h) + t.vlines

/-- Pixel slots of a line, Wt (08 R287, R311). -/
def totalW (s : State) (h : Head) (t : Timing) : Nat := activeW s h + t.hfp + t.hsync + t.hbp

/-- A quotient rounded up. -/
def ceilDiv (n d : Nat) : Nat := (n + d - 1) / d

/-- The frame period T in units of 2^−16 ns, exact (08 R290, R293): a comparator that names no repeat period leaves the
head's own (log 11). -/
def frameUnits (s : State) (h : Head) (t : Timing) : Nat :=
  if t.trigMode && trigEnabled s t.trigSel && (trigOf s t.trigSel).period != 0 then (trigOf s t.trigSel).period
  else totalH s h t * t.lp * 2 * 256

/-- The nominal frame period T in whole ns, rounded half up as the worked example of 05 has it (08 R290, R293; log 11). -/
def frameNs (s : State) (h : Head) (t : Timing) : Nat := (frameUnits s h t + 32768) / 65536

/-- The nominal stitch delay in ns (08 R290). -/
def Timing.stitchNs (t : Timing) : Nat := t.delay * 2

/-- P: pixels per budget period at the raster's peak rate (03 R123). -/
def pixelsPerPeriod (s : State) (h : Head) (t : Timing) : Nat :=
  ceilDiv (totalW s h t * 4096 * 256 * (400 + Config.coreSpread % 5)) (t.lp * 400)

/-! ## The parameter block (04 R150) -/

/-- Little-endian number of `n` bytes at `i` of the slot's parameter block, or the default where it names none. -/
def Slot.pb (sl : Slot) (i n dflt : Nat) : Nat := if sl.block.isEmpty then dflt else leAt sl.block i n

/-- Signed 32-bit coefficient `k` of the block's homography (04 R152). -/
def Slot.coef (sl : Slot) (k : Nat) : Int := signed 32 (sl.pb (24 + 4 * k) 4 0)

/-- Flag `k` of the parameter block. -/
def Slot.flag (sl : Slot) (k : Nat) : Bool := nbit (sl.pb 2 2 0) k

/-- Code and taps of the horizontal kernel. -/
def Slot.hKernel (sl : Slot) : Nat × Nat := (sl.pb 4 1 0x10 % 16, sl.pb 4 1 0x10 / 16)

/-- Code and taps of the vertical kernel. -/
def Slot.vKernel (sl : Slot) : Nat × Nat := (sl.pb 5 1 0x10 % 16, sl.pb 5 1 0x10 / 16)

/-- Bits per pixel of a format (04 R137); 0 where the code is reserved. -/
def formatBits : Nat → Nat
  | 0 => 16 | 1 => 12 | 2 => 8 | 3 => 16 | 4 => 32 | 5 => 24 | 6 => 1 | 7 => 4 | 8 => 8 | 9 => 8 | _ => 0

/-- What a format's width must be a multiple of (04 R137). -/
def formatUnit : Nat → Nat
  | 1 => 2 | 6 => 8 | 7 => 2 | _ => 1

/-- Line bytes of a source of width `w` (04 R137). -/
def lineBytes (format w : Nat) : Nat := ceilDiv (ceilDiv (w * formatBits format) 8) 16 * 16

/-- Bytes that the kernels and tables called for by a block's header take (04 R150, R156). -/
def tableBytes (format hk vk : Nat) : Nat :=
  (if format = 2 then 512 else if format = 9 then 1024 else 0)
    + (if hk % 16 = 3 then 64 * (hk / 16) else 0) + (if vk % 16 = 3 then 64 * (vk / 16) else 0)

/-- Where the kernel tables of a block start (04 R150). -/
def Slot.tablesAt (sl : Slot) : Nat := 64 + (if sl.format = 2 then 512 else if sl.format = 9 then 1024 else 0)

/-- The slot is a shadow source (04 R143). -/
def Slot.shadow (sl : Slot) : Bool := sl.kind == 2

/-- Source width: the raster of the head for a shadow source (04 R144). -/
def srcW (s : State) (h : Head) (sl : Slot) : Nat := if sl.shadow then rasterW s h else sl.width

/-- Source height. -/
def srcH (s : State) (h : Head) (sl : Slot) : Nat := if sl.shadow then rasterH s h else sl.height

/-- Destination rectangle x0, y0, dw, dh (04 R150, R151). -/
def destOf (s : State) (h : Head) (sl : Slot) : Nat × Nat × Nat × Nat :=
  (sl.pb 8 2 0, sl.pb 10 2 0, sl.pb 12 2 (srcW s h sl), sl.pb 14 2 (srcH s h sl))

/-- Source extent in bytes (04 R144). -/
def Slot.extent (sl : Slot) : Nat := sl.stride * sl.height

/-- The operator belongs to the BASE stage (06 R217). -/
def isBase (op : Nat) : Bool := decide (op < 0x10)

/-- `range` of 04 R154: the leveling range that the slot was validated with, when its leveling flag is set (04 R175). -/
def Slot.levelRange (sl : Slot) : Nat := if sl.flag 2 then sl.range else 0

/-! ## Mapping (04 R152, R153) -/

/-- A quotient rounded to nearest, ties towards +∞, for a positive divisor. -/
def rhuDiv (n d : Int) : Int := (2 * n + d) / (2 * d)

/-- The nine coefficients of a slot (04 R152): a, b, d, e in 2^−24, c, f in 2^−16, g, h in 2^−40, i in 2^−30. -/
structure Homog where
  a : Int
  b : Int
  c : Int
  d : Int
  e : Int
  f : Int
  g : Int
  h : Int
  i : Int
deriving DecidableEq, Repr

/-- The homography of a slot: its own with warp set, otherwise the axis scale of its destination (04 R152), whose
coefficients are exact even where they exceed the held formats (DESIGN CHOICE, log 59). -/
def homogOf (s : State) (hd : Head) (sl : Slot) : Homog :=
  if sl.flag 1 then
    { a := sl.coef 0, b := sl.coef 1, c := sl.coef 2, d := sl.coef 3, e := sl.coef 4, f := sl.coef 5, g := sl.coef 6,
      h := sl.coef 7, i := sl.coef 8 }
  else
    let (x0, y0, dw, dh) := destOf s hd sl
    let a := rhuDiv (srcW s hd sl * 2 ^ 24) dw
    let e := rhuDiv (srcH s hd sl * 2 ^ 24) dh
    { a := a, b := 0, c := rhuDiv (-a * x0) 256, d := 0, e := e, f := rhuDiv (-e * y0) 256, g := 0, h := 0, i := 2 ^ 30 }

/-- w in units of 2^−56 at X and Yl in units of 2^−16. -/
def Homog.den (m : Homog) (x y : Int) : Int := m.g * x + m.h * y + m.i * 2 ^ 26

/-- The numerator of u in units of 2^−40. -/
def Homog.numU (m : Homog) (x y : Int) : Int := m.a * x + m.b * y + m.c * 2 ^ 24

/-- The numerator of v in units of 2^−40. -/
def Homog.numV (m : Homog) (x y : Int) : Int := m.d * x + m.e * y + m.f * 2 ^ 24

/-- A source coordinate in units of 2^−16, held to ±32,768 (04 R153). -/
def srcCoord (num den : Int) : Int := clampInt (-(2 ^ 31)) (2 ^ 31) (rhuDiv (num * 2 ^ 32) den)

/-- X of column `x` in units of 2^−16. -/
def centre (x : Int) : Int := x * 65536 + 32768

/-- u and v at raster pixel (x, y) with leveling offset `p` in 2^−16 row (04 R152, R153). -/
def mapPixel (m : Homog) (x y p : Int) : Int × Int :=
  let cx := centre x
  let cy := centre y - p
  (srcCoord (m.numU cx cy) (m.den cx cy), srcCoord (m.numV cx cy) (m.den cx cy))

/-- w is at least 2^−8 and the horizontal step at most 4.0 at a corner (04 R154). -/
def cornerOk (m : Homog) (x y p : Int) : Bool :=
  let cx := centre x
  let cy := centre y - p
  let w := m.den cx cy
  decide (2 ^ 48 ≤ w) && decide (((m.a * w - m.numU cx cy * m.g).natAbs : Int) * 2 ^ 32 ≤ 4 * w * w)

/-- The corner test of a slot (04 R154). -/
def cornersOk (s : State) (h : Head) (sl : Slot) : Bool :=
  let (x0, y0, dw, dh) := destOf s h sl
  let m := homogOf s h sl
  let r : Int := sl.levelRange * 65536
  [-r, 0, r].all (fun p => [(x0 : Int), (x0 : Int) + dw - 1].all (fun x => [(y0 : Int), (y0 : Int) + dh - 1].all (fun y =>
    cornerOk m x y p)))

/-! ## Kernels (04 R156 to R160) -/

/-- The kernel and taps are a combination of 04 R156. -/
def kernelOk (vertical : Bool) (k : Nat × Nat) : Bool :=
  match k with
  | (0, 1) => true
  | (1, 2) => true
  | (2, 4) => true
  | (3, n) => n == 2 || n == 4 || (!vertical && (n == 6 || n == 8))
  | _ => false

/-- The first tap and the phase of a coordinate for a kernel of `n` taps (04 R157). -/
def tapBase (n : Nat) (u : Int) : Int × Nat :=
  if n ≤ 1 then (u / 65536, 0)
  else
    let q := u - 32768
    let base := q / 65536
    let k := ((q % 65536 + 1024) / 2048).toNat
    if k = 32 then (base + 1 - ((n : Int) / 2 - 1), 0) else (base - ((n : Int) / 2 - 1), k)

/-- Catmull-Rom weights at phase `k` (04 R158). -/
def cubicWeights (k : Nat) : List Int :=
  let f : Int := k
  let w0 := rhuDiv (16384 * (-f ^ 3 + 64 * f ^ 2 - 1024 * f)) 65536
  let w2 := rhuDiv (16384 * (-3 * f ^ 3 + 128 * f ^ 2 + 1024 * f)) 65536
  let w3 := rhuDiv (16384 * (f ^ 3 - 32 * f ^ 2)) 65536
  [w0, 16384 - w0 - w2 - w3, w2, w3]

/-- Weights of a kernel at phase `k`; `tab` is where its table lies in the slot's block (04 R156, R159). -/
def kernelWeights (sl : Slot) (kernel : Nat × Nat) (tab k : Nat) : List Int :=
  match kernel.1 with
  | 0 => [16384]
  | 1 => [16384 - 512 * (k : Int), 512 * (k : Int)]
  | 2 => cubicWeights k
  | _ => (List.range kernel.2).map (fun j => signed 16 (leAt sl.block (tab + 2 * (k * kernel.2 + j)) 2))

/-- The filter sum of one axis (04 R160). -/
def filterTaps (ws : List Int) (vs : List Nat) : Nat :=
  let acc := (List.zipWith (fun w (v : Nat) => w * (v : Int)) ws vs).foldl (· + ·) 0
  (clampInt 0 65535 ((acc + 8192) / 16384)).toNat

/-- Every phase of a table of weights sums to 16,384 (04 R159). -/
def tableSumsOk (block : List Byte) (at0 n : Nat) : Bool :=
  (List.range 32).all (fun k =>
    ((List.range n).map (fun j => signed 16 (leAt block (at0 + 2 * (k * n + j)) 2))).foldl (· + ·) 0 == 16384)

/-! ## Source pixels (04 R138 to R142) -/

/-- Binary16 light (04 R140): `x` times an unsigned 16.16 scale, rounded half up and clamped. -/
def f16Light (x scale : Nat) : Nat :=
  let e := x / 1024 % 32
  let f := x % 1024
  if x / 32768 % 2 = 1 then 0
  else if e = 31 then (if f = 0 then 65535 else 0)
  else
    let m := if e = 0 then f else (1024 + f) * 2 ^ (e - 1)
    let v := (m * scale + 2 ^ 39) / 2 ^ 40
    if v > 65535 then 65535 else v

/-- Byte `i` of a slot's source for a path: from the data read of host memory, from RESIDENT, or from the path's mask. -/
def srcByte (s : State) (path : Head) (sl : Slot) (host : List Byte) (i : Nat) : Nat :=
  match sl.kind with
  | 0 => byteAt host i
  | 1 => (memGet s (regionBase s 10 + sl.addr + i)).toNat
  | _ => (memGet s (regionBase s (4 + Head.idx path) + i)).toNat

/-- Little-endian number of `n` source bytes from `i` on. -/
def srcNum (s : State) (path : Head) (sl : Slot) (host : List Byte) (i : Nat) : Nat → Nat
  | 0 => 0
  | n + 1 => srcByte s path sl host i + 256 * srcNum s path sl host (i + 1) n

/-- Light and alpha of source pixel (i, j) (04 R137 to R141). -/
def srcPixel (s : State) (path : Head) (sl : Slot) (host : List Byte) (i j : Nat) : Nat × Nat :=
  let row := j * sl.stride
  let maskLight := sl.pb 16 2 65535
  let num := srcNum s path sl host
  match sl.format with
  | 0 => (num (row + 2 * i) 2, 65535)
  | 1 =>
    let g := num (row + 3 * (i / 2)) 3
    let v := if i % 2 = 0 then g % 4096 else g / 4096
    (v * 16 + v / 256, 65535)
  | 2 => (leAt sl.block (64 + 2 * num (row + i) 1) 2, 65535)
  | 3 => (f16Light (num (row + 2 * i) 2) (sl.pb 20 4 0xFFFF0000), 65535)
  | 4 => (num (row + 4 * i) 2, num (row + 4 * i + 2) 2)
  | 5 => (num (row + 3 * i) 2, num (row + 3 * i + 2) 1 * 257)
  | 6 => (maskLight, if nbit (num (row + i / 8) 1) (i % 8) then 65535 else 0)
  | 7 =>
    let b := num (row + i / 2) 1
    (maskLight, (if i % 2 = 0 then b % 16 else b / 16) * 4369)
  | 8 => (maskLight, num (row + i) 1 * 257)
  | 9 =>
    let e := leAt sl.block (64 + 4 * num (row + i) 1) 4
    (e % 65536, e / 65536 % 256 * 257)
  | _ => (0, 0)

/-- The tap at (i, j), edges by 04 R160; columns run from `lo` to `hi` − 1. -/
def tapPixel (s : State) (path : Head) (sl : Slot) (host : List Byte) (lo hi rows : Int) (i j : Int) : Nat × Nat :=
  let inX := decide (lo ≤ i) && decide (i < hi)
  let inY := decide (0 ≤ j) && decide (j < rows)
  let ci := if sl.flag 6 then clampInt lo (hi - 1) i else i
  let cj := if sl.flag 7 then clampInt 0 (rows - 1) j else j
  if (inX || sl.flag 6) && (inY || sl.flag 7) then srcPixel s path sl host (ci - lo).toNat cj.toNat else (0, 0)

/-- The shadow source as a path reads it: its own mask at its own active size (04 R143, R178). -/
def pathSlot (s : State) (path : Head) (sl : Slot) : Slot :=
  if sl.shadow then { sl with stride := activeW s path, width := activeW s path, height := activeH s path } else sl

/-- The leveling offset as a slot uses it: none without its leveling flag, else clamped to its range (04 R155). -/
def Slot.pitch (sl : Slot) (p : Int) : Int :=
  let r : Int := sl.levelRange * 65536
  if sl.flag 2 then clampInt (-r) r p else 0

/-- The columns of a slot's source as a path has them, the first and the one past the last: those of its own mask for a shadow
source (04 R178). -/
def srcCols (s : State) (path : Head) (sl : Slot) : Int × Int :=
  let lo : Int := if sl.shadow then pathX s path else 0
  (lo, if sl.shadow then lo + activeW s path else sl.width)

/-- The sample that a slot delivers at raster pixel (x, y) of a path, `none` outside its rectangle (04 R142, R151). `h` is
the head whose slots they are and `p` its leveling offset. -/
def sampleAt (s : State) (h path : Head) (sl : Slot) (host : List Byte) (p : Int) (x y : Nat) : Option (Nat × Nat) :=
  let (x0, y0, dw, dh) := destOf s h sl
  if !(decide (x0 ≤ x) && decide (x < x0 + dw) && decide (y0 ≤ y) && decide (y < y0 + dh)) then none
  else
    let (u, v) := mapPixel (homogOf s h sl) x y (sl.pitch p)
    let (ib, kx) := tapBase sl.hKernel.2 u
    let (jb, ky) := tapBase sl.vKernel.2 v
    let ps := pathSlot s path sl
    let (lo, hi) := srcCols s path sl
    let wx := kernelWeights sl sl.hKernel sl.tablesAt kx
    let wy := kernelWeights sl sl.vKernel (sl.tablesAt + (if sl.hKernel.1 = 3 then 64 * sl.hKernel.2 else 0)) ky
    let column := fun (i : Int) =>
      let taps := (List.range sl.vKernel.2).map (fun (n : Nat) => tapPixel s path ps host lo hi (srcH s h sl) i (jb + (n : Int)))
      (filterTaps wy (taps.map Prod.fst), filterTaps wy (taps.map Prod.snd))
    let cols := (List.range sl.hKernel.2).map (fun (n : Nat) => column (ib + (n : Int)))
    some (filterTaps wx (cols.map Prod.fst), filterTaps wx (cols.map Prod.snd))

/-! ## Line buffers (04 R161 to R164, R173, R178) -/

/-- The destination columns of a slot that a path needs, as first column and count (04 R178). -/
def pathCols (s : State) (h path : Head) (sl : Slot) : Nat × Nat :=
  let (x0, _, dw, _) := destOf s h sl
  if joined s then
    let lo := Nat.max x0 (pathX s path)
    let hi := Nat.min (x0 + dw) (pathX s path + activeW s path)
    (lo, hi - lo)
  else (x0, dw)

/-- The least and the greatest v of line `y` over a path's columns. v is a quotient of affine functions with a positive
divisor, so both lie at the end columns (DEDUCED, log 9). -/
def lineV (s : State) (h path : Head) (sl : Slot) (y : Int) : Int × Int :=
  let m := homogOf s h sl
  let (lo, n) := pathCols s h path sl
  let v1 := (mapPixel m lo y 0).2
  let v2 := (mapPixel m ((lo : Int) + n - 1) y 0).2
  if v1 ≤ v2 then (v1, v2) else (v2, v1)

/-- The vertical span of a slot (04 R161). -/
def vSpan (s : State) (h path : Head) (sl : Slot) : Int :=
  let (_, y0, _, dh) := destOf s h sl
  let r := sl.levelRange
  let lines := dh + 2 * r
  let y (k : Nat) : Int := (y0 : Int) - r + k
  if lines ≤ 1 then (lineV s h path sl y0).2 / 65536 - (lineV s h path sl y0).1 / 65536
  else
    ((List.range (lines - 1)).map (fun k =>
      (lineV s h path sl (y k + 1)).2 / 65536 - (lineV s h path sl (y k)).1 / 65536)).foldl max
        ((lineV s h path sl (y 0 + 1)).2 / 65536 - (lineV s h path sl (y 0)).1 / 65536)

/-- Line bytes of a slot's source; a shadow source's are those of the path's own mask. -/
def slotLineBytes (s : State) (path : Head) (sl : Slot) : Nat :=
  lineBytes sl.format (if sl.shadow then activeW s path else sl.width)

/-- The requirement of a slot in granules (04 R162), the span added as it is; none where the path needs no column of it, and
none where a negative span leaves less than no line (DESIGN CHOICE, log 84). -/
def slotGranules (s : State) (h path : Head) (sl : Slot) : Nat :=
  if (pathCols s h path sl).2 = 0 then 0
  else ceilDiv (slotLineBytes s path sl * ((sl.vKernel.2 : Int) + vSpan s h path sl).toNat) 4096

/-- The allocation of a slot in granules (04 R162). -/
def slotAlloc (s : State) (h path : Head) (sl : Slot) : Nat :=
  if sl.pb 6 1 0 = 0 then slotGranules s h path sl else sl.pb 6 1 0

/-- A head's slot in a set of slots. -/
def slotIn (slots : Store Slot) (i : Nat) : Slot := Store.get (fun _ => Slot.reset) slots i

/-- The enabled slots of a set, in order. -/
def enabledSlots (slots : Store Slot) : List Nat := idxWhere 8 (fun i => (slotIn slots i).enabled)

/-- The first slot that fails the examination of 04 R163 on a path, starting from granule sum `sum`. -/
def lineBufWalk (s : State) (h path : Head) (slots : Store Slot) : List Nat → Nat → Option Nat
  | [], _ => none
  | i :: rest, sum =>
    let sl := slotIn slots i
    let a := slotAlloc s h path sl
    if slotGranules s h path sl > a || sum + a > 64 then some i else lineBufWalk s h path slots rest (sum + a)

/-- Granules that a set of slots is allocated on a path (04 R174). -/
def poolSum (s : State) (h path : Head) (slots : Store Slot) : Nat :=
  ((enabledSlots slots).map (fun i => slotAlloc s h path (slotIn slots i))).foldl (· + ·) 0

/-- The paths that the slots of head `h` feed (04 R178). -/
def pathsOf (s : State) (h : Head) : List Head := if joined s then bothHeads else [h]

/-- Step 5 of 02 R88: the slot that refuses a set of slots, on any path (04 R163, R178): in joined mode path A's slots are all
examined before path B's (DESIGN CHOICE, log 85). -/
def lineBufFail (s : State) (h : Head) (slots : Store Slot) : Option Nat :=
  (pathsOf s h).findSome? (fun path => lineBufWalk s h path slots (enabledSlots slots) 0)

/-- Bytes that a slot reads from light memory per frame on a path (04 R173): line bytes times the source rows that its
taps touch. v is monotone along both axes, so the extremes lie at the corners (DEDUCED, log 9). -/
def slotReadBytes (s : State) (h path : Head) (sl : Slot) : Nat :=
  let (_, y0, _, dh) := destOf s h sl
  let (c0, cn) := pathCols s h path sl
  if cn = 0 ∨ sl.kind = 0 ∨ !sl.enabled then 0
  else
    let m := homogOf s h sl
    let r : Int := sl.levelRange * 65536
    let vs := ([(c0 : Int), (c0 : Int) + cn - 1].map (fun x => [(y0 : Int), (y0 : Int) + dh - 1].map (fun y =>
      [-r, 0, r].map (fun p => (tapBase sl.vKernel.2 (mapPixel m x y p).2).1)))).flatten.flatten
    let top : Int := (srcH s h sl : Int) - 1
    let lo := vs.foldl min (vs.headD 0)
    let hi := vs.foldl max (vs.headD 0) + sl.vKernel.2 - 1
    slotLineBytes s path sl * ((clampInt 0 top hi - clampInt 0 top lo).toNat + 1)

/-- The places that taps from `first` to `last` read of an axis whose source has places `lo` to `hi` − 1, as the first, counted
from `lo`, and their number: a tap outside reads the edge under CLAMP and no place under TRANSPARENT (04 R160). -/
def tapsRead (clamps : Bool) (lo hi first last : Int) : Nat × Nat :=
  let a := if clamps then clampInt lo (hi - 1) first else max lo first
  let b := if clamps then clampInt lo (hi - 1) last else min (hi - 1) last
  ((a - lo).toNat, (b - a + 1).toNat)

/-- The source rows, counted from row 0, up to the last one that a slot's taps read at pixel (x, y) of the raster, for a path:
none where every tap reads (0, 0) (04 R157, R160). -/
def rowsAtPixel (s : State) (h path : Head) (sl : Slot) (p : Int) (x y : Nat) : Nat :=
  let (u, v) := mapPixel (homogOf s h sl) x y (sl.pitch p)
  let (lo, hi) := srcCols s path sl
  let ib := (tapBase sl.hKernel.2 u).1
  let jb := (tapBase sl.vKernel.2 v).1
  let rows := tapsRead (sl.flag 7) 0 (srcH s h sl) jb (jb + sl.vKernel.2 - 1)
  if (tapsRead (sl.flag 6) lo hi ib (ib + sl.hKernel.2 - 1)).2 = 0 ∨ rows.2 = 0 then 0 else rows.1 + rows.2

/-- The least number of source rows, counted from row 0, among which lies every row that a slot's taps read on raster line `y`
of a path, with leveling offset `p` (04 R157, R160, R165). -/
def rowsFor (s : State) (h path : Head) (sl : Slot) (p : Int) (y : Nat) : Nat :=
  let (lo, n) := pathCols s h path sl
  ((List.range n).map (fun k => rowsAtPixel s h path sl p (lo + k) y)).foldl Nat.max 0

/-- The light memory that a path reads for a resident or shadow-source slot in a sweep with leveling offset `p`, as (address,
bytes): of every source row that a tap reads for its part of the raster, the whole line, and in joined mode the columns alone
that the taps read (04 R173, R178). u and v are monotone along both axes, so their extremes lie at the corners (DEDUCED,
log 9). -/
def slotReads (s : State) (h path : Head) (sl : Slot) (p : Int) : List (Nat × Nat) :=
  let (_, y0, _, dh) := destOf s h sl
  let (c0, cn) := pathCols s h path sl
  if cn = 0 ∨ dh = 0 ∨ sl.kind = 0 then []
  else
    let corners := [(c0 : Int), (c0 : Int) + cn - 1].flatMap (fun x => [(y0 : Int), (y0 : Int) + dh - 1].map (fun y =>
      mapPixel (homogOf s h sl) x y (sl.pitch p)))
    let us := corners.map (fun q => (tapBase sl.hKernel.2 q.1).1)
    let vs := corners.map (fun q => (tapBase sl.vKernel.2 q.2).1)
    let (lo, hi) := srcCols s path sl
    let rows := tapsRead (sl.flag 7) 0 (srcH s h sl) (vs.foldl min (vs.headD 0)) (vs.foldl max (vs.headD 0) + sl.vKernel.2 - 1)
    let taps := tapsRead (sl.flag 6) lo hi (us.foldl min (us.headD 0)) (us.foldl max (us.headD 0) + sl.hKernel.2 - 1)
    let cols := if joined s then taps else (0, (hi - lo).toNat)
    let bits := formatBits sl.format
    let base := if sl.shadow then regionBase s (4 + Head.idx path) else regionBase s 10 + sl.addr
    let first := cols.1 * bits / 8
    (List.range rows.2).map (fun k =>
      (base + (rows.1 + k) * (pathSlot s path sl).stride + first, ceilDiv ((cols.1 + cols.2) * bits) 8 - first))

/-- The same over every path that the slots of `h` feed. -/
def rowsNeeded (s : State) (h : Head) (sl : Slot) (p : Int) (y : Nat) : Nat :=
  ((pathsOf s h).map (fun path => rowsFor s h path sl p y)).foldl Nat.max 0

/-- Whole source rows, counted from row 0, among `n` bytes read from the source's start (04 R137, R144). -/
def Slot.rowsIn (sl : Slot) (n : Nat) : Nat :=
  let line := lineBytes sl.format sl.width
  if n < line then 0 else (n - line) / Nat.max 1 sl.stride + 1

/-! ## Readiness and flattening (04 R165, R171, 06 R233, R234) -/

/-- Byte `i` of a descriptor, bytes 8 to 59 being its body (02 R72). -/
def dByte (d : Desc) (i : Nat) : Nat := byteAt d.body (i - 8)

/-- Little-endian number of `n` bytes at byte `i` of a descriptor. -/
def dNat (d : Desc) (i n : Nat) : Nat := leAt d.body (i - 8) n

/-- The source of a resident slot is complete (04 R146). -/
def Slot.complete (sl : Slot) : Bool := sl.fill == sl.extent

/-- Light-memory word `w`, by its logical number, lies in the resident extent of a slot (03 R117, 04 R148). -/
def inExtent (s : State) (sl : Slot) (w : Nat) : Bool :=
  sl.enabled && sl.kind == 1
    && decide (regionBase s 10 + sl.addr ≤ 16 * w) && decide (16 * w < regionBase s 10 + sl.addr + sl.extent)

/-- An uncorrectable word in the slot's extent awaits repair (03 R117, 04 R177). -/
def slotDamaged (s : State) (sl : Slot) : Bool := s.lmm.bad.any (inExtent s sl)

/-- The data of LAYER_DATA `d` covers a light-memory word (04 R146). -/
def coversWord (s : State) (d : Desc) (w : Nat) : Bool :=
  decide (regionBase s 10 + dNat d 24 4 ≤ 16 * w) && decide (16 * w < regionBase s 10 + dNat d 24 4 + dNat d 12 4)

/-- The slot will be ready once some LAYER_DATA have been transferred: its source is complete, and they overwrite every
uncorrectable word in it (04 R146, R148). -/
def readyAfter (s : State) (done : List Desc) (sl : Slot) : Bool :=
  sl.kind == 1 && sl.complete && !((s.lmm.bad.filter (fun w => !done.any (fun d => coversWord s d w))).any (inExtent s sl))

/-- A slot is ready, given whether a host-memory source has been fetched (04 R165). -/
def slotReady (s : State) (sl : Slot) (fetched : Bool) : Bool :=
  match sl.kind with
  | 0 => fetched
  | 1 => sl.complete && !slotDamaged s sl
  | _ => true

/-- Slots in LIGHT blend order (06 R223). -/
def lightOrder (slots : Store Slot) : List Nat :=
  (List.range 8).filter (fun i => isBase (slotIn slots i).operator)
    ++ (List.range 8).filter (fun i => !isBase (slotIn slots i).operator)

/-- The conditions of 04 R171 on one slot but for the slots that precede it. -/
def flattens (sl : Slot) : Bool := sl.enabled && sl.flag 5 && sl.kind == 1 && !sl.flag 2 && isBase sl.operator

/-- The flatten-eligible slots of a blend order: its leading slots that meet the conditions of 04 R171. -/
def eligibleIn (slots : Store Slot) (order : List Nat) : List Nat := order.takeWhile (fun i => flattens (slotIn slots i))

/-- The head's FLAT region can hold its cache (06 R234). -/
def flatFits (s : State) (path : Head) : Bool := decide (2 * activeN s path ≤ regionSize s (2 + Head.idx path))

/-- The blend mode in force: LIGHT (06 R223, R243). -/
def lightMode (s : State) (h : Head) : Bool := forceBit s (timer s h) (bldBase (timer s h)) 0

/-- The blend order of a head's mode in force: by stage in LIGHT, by slot number in PLAIN (06 R223). -/
def blendOrder (s : State) (h : Head) (slots : Store Slot) : List Nat :=
  if lightMode s h then lightOrder slots else List.range 8

/-- The slots of a set that are flatten-eligible in the blend order of the mode in force (04 R171). -/
def eligible (s : State) (h : Head) (slots : Store Slot) : List Nat := eligibleIn slots (blendOrder s h slots)

/-- The slots of a set that head `h` flattens: in LIGHT mode the leading eligible ones (06 R233, R234). -/
def flatRun (s : State) (h : Head) (slots : Store Slot) : List Nat :=
  if lightMode s h && (pathsOf s h).all (flatFits s) then eligible s h slots else []

/-! ## Checks of a LAYER_SET (02 R77, R78, 04 R134, R137, R144, R145, R150 to R159, R196, R197, R217 to R222) -/

/-- The first byte of a list of ranges (first, count) that is not zero (02 R78). -/
def firstNonZero (d : Desc) (ranges : List (Nat × Nat)) : Option Nat :=
  (ranges.map (fun r => (List.range r.2).map (fun k => r.1 + k))).flatten.find? (fun i => dByte d i != 0)

/-- The first field of a list of (first byte, bytes) that is not zero: its offset (02 R78, R83). -/
def fieldNonZero (d : Desc) (fields : List (Nat × Nat)) : Option Nat :=
  (fields.find? (fun r => dNat d r.1 r.2 != 0)).map Prod.fst

/-- The fields that a disabling LAYER_SET must leave zero, and its reserved bytes (02 R77, 04 R134). -/
def disableFields : List (Nat × Nat) :=
  [(9, 1), (10, 1), (11, 1), (12, 2), (14, 1), (15, 1), (16, 8), (24, 2), (26, 2), (28, 4), (32, 8), (40, 4), (44, 4)]
    ++ (List.range 12).map (fun k => (48 + k, 1))

/-- The first failing check of a list of (failed, detail). -/
def firstFail (checks : List (Bool × Nat)) : Option Nat := (checks.find? (fun c => c.1)).map Prod.snd

/-- The earlier of two offsets. -/
def minDetail (a b : Option Nat) : Option Nat :=
  match a, b with
  | none, x => x
  | x, none => x
  | some x, some y => some (Nat.min x y)

/-- Reserved flag bits [7:4] of a descriptor (02 R72). -/
def flagsBad (d : Desc) : Option Nat := if 16 ≤ d.flags then some 1 else none

/-- A LAYER_SET names a parameter block (04 R150). -/
def blockNamed (d : Desc) : Bool := dNat d 32 8 != 0 || dNat d 40 4 != 0

/-- The slot that a LAYER_SET configures, with its parameter block as read (04 R133, R143). Its fill position is decided
when it applies, and its leveling range is the register's as the set is checked (04 R175). -/
def slotFromSet (d : Desc) (block : List Byte) (range : Nat) : Slot :=
  if dByte d 8 ≥ 128 then Slot.reset
  else
    let sl : Slot :=
      { enabled := true, kind := 0, drop := nbit (dByte d 11) 0, format := dByte d 9, operator := dByte d 10,
        alpha := dNat d 12 2, addr := dNat d 16 8, width := dNat d 24 2, height := dNat d 26 2, stride := dNat d 28 4,
        block := block, fill := 0, range := range }
    { sl with kind := if sl.flag 0 then 2 else if nbit (dByte d 11) 1 then 1 else 0 }

/-- The parameter-block errors of a configured slot: every one gives detail 32 (04 R150 to R159, R169, 05 R196, R197,
06 R219, R222). -/
def blockBad (s : State) (h : Head) (sl : Slot) : Bool :=
  let b := sl.block
  let (x0, y0, dw, dh) := destOf s h sl
  let hk := sl.pb 4 1 0x10
  let vk := sl.pb 5 1 0x10
  let vb := (timingOf s h).vlines
  ((sl.format == 2 || sl.format == 9) && b.isEmpty)
    || (!b.isEmpty && (leAt b 0 2 != 1 || leAt b 2 2 ≥ 256 || b.length != 64 + tableBytes sl.format hk vk
          || byteAt b 6 > 64 || byteAt b 7 != 0 || leAt b 18 2 != 0))
    || !kernelOk false sl.hKernel || !kernelOk true sl.vKernel
    || (sl.hKernel.1 == 3 && !tableSumsOk b sl.tablesAt sl.hKernel.2)
    || (sl.vKernel.1 == 3 && !tableSumsOk b (sl.tablesAt + (if sl.hKernel.1 = 3 then 64 * sl.hKernel.2 else 0)) sl.vKernel.2)
    || (sl.format == 9 && (List.range 256).any (fun k => byteAt b (64 + 4 * k + 3) != 0))
    || dw == 0 || dh == 0 || decide (rasterW s h < x0 + dw) || decide (rasterH s h < y0 + dh)
    || !cornersOk s h sl
    || (sl.flag 4 && sl.kind != 0)
    || (sl.flag 3 && (sl.format == 6 || sl.format == 7 || sl.format == 8))
    || (sl.shadow && (sl.pb 16 2 65535 != 65535 || !regBit s (shdBase h) 0 || !regBit s 0x20000 (Head.idx h)
          || (sl.flag 2 && decide (vb < sl.range + 2))))

/-- The first offending field of an enabling LAYER_SET, in byte order (02 R78). -/
def setBad (s : State) (h : Head) (d : Desc) (sl : Slot) : Option Nat :=
  let shadow := sl.shadow
  let res := nbit (dByte d 11) 1
  firstFail
    [ (dByte d 8 > 7, 8),
      (formatBits (dByte d 9) == 0 || (shadow && dByte d 9 != 8), 9),
      (!([0, 1, 2, 0x10, 0x11].contains (dByte d 10)) || (shadow && dByte d 10 != 0x10), 10),
      (dByte d 11 > 3 || (shadow && res), 11),
      (shadow && dNat d 12 2 != 0xFFFF, 12), (dByte d 14 != 0, 14), (dByte d 15 != 0, 15),
      (if shadow then dNat d 16 8 != 0 else dNat d 16 8 % 16 != 0 || (res && dNat d 16 8 ≥ 2 ^ 32), 16),
      (if shadow then dNat d 24 2 != 0
        else dNat d 24 2 == 0 || dNat d 24 2 > 4096 || dNat d 24 2 % formatUnit (dByte d 9) != 0, 24),
      (if shadow then dNat d 26 2 != 0 else dNat d 26 2 == 0 || dNat d 26 2 > 2048, 26),
      (if shadow then dNat d 28 4 != 0 else dNat d 28 4 % 16 != 0 || dNat d 28 4 < lineBytes (dByte d 9) (dNat d 24 2), 28),
      ((blockNamed d && sl.block.isEmpty) || blockBad s h sl, 32),
      (dNat d 48 12 != 0, 48 + ((List.range 12).find? (fun k => dByte d (48 + k) != 0)).getD 0) ]

/-- The first offending field of a LAYER_SET (02 R78, 04 R134). -/
def layerSetBad (s : State) (h : Head) (d : Desc) (block : List Byte) (range : Nat) : Option Nat :=
  minDetail (flagsBad d)
    (if dByte d 8 ≥ 128 then
      if dByte d 8 % 128 > 7 then some 8 else fieldNonZero d disableFields
    else setBad s h d (slotFromSet d block range))

end Sys2Proof.Machine
end

