-- ==== Sys2Proof/Machine/Blend.lean ====
section
/-! DEFINITION. The pixel path of a sweep (01 R15): blend, tone curve, thermal headroom, defect compensation, zone clamp,
gains, quantisation and dither (06, 07), pixel by pixel. -/

namespace Sys2Proof.Machine

/-- The product of two 16-bit values (06 R215). -/
def mul16 (a b : Nat) : Nat :=
  let q := a * b + 32768
  (q + q / 65536) / 65536

/-- A sum of light, saturating (06 R216). -/
def satLight (v : Nat) : Nat := if v > 65535 then 65535 else v

/-- The running value after a BASE operator (06 R218, R220). -/
def baseStep (op alpha : Nat) (premul : Bool) (d : Nat) (sample : Nat × Nat) : Nat :=
  let a := mul16 sample.2 alpha
  let l := if premul then mul16 sample.1 alpha else mul16 sample.1 a
  match op with
  | 0 => satLight (l + mul16 d (65535 - a))
  | 1 => satLight (d + l)
  | _ => Nat.max d l

/-- The running value after an ATTENUATE operator (06 R218, R221). -/
def attenuateStep (op alpha : Nat) (premul : Bool) (d : Nat) (sample : Nat × Nat) : Nat :=
  let m := if premul then sample.1 else mul16 sample.1 sample.2
  let f := 65535 - mul16 (65535 - m) alpha
  if op = 0x10 then mul16 d f else Nat.min d f

/-- The running value after one slot's sample (06 R220, R221). -/
def blendStep (sl : Slot) (d : Nat) (sample : Nat × Nat) : Nat :=
  if isBase sl.operator then baseStep sl.operator sl.alpha (sl.flag 3) d sample
  else attenuateStep sl.operator sl.alpha (sl.flag 3) d sample

/-- What a sweep of one path is composed from: the state at the sweep start, the slots in blend order that are neither
disabled nor dropped, the sources read of host memory, and the leveling offset (04 R166, 06 R223, R224). -/
structure Plan where
  head : Head
  path : Head
  order : List Nat
  sources : List (Nat × List Byte)
  pitch : Int
  /-- Slots of the flattened run, and whether their cached value is used (06 R235). -/
  run : List Nat
  cached : Bool

/-- The bytes read for a host-memory slot. -/
def Plan.source (p : Plan) (i : Nat) : List Byte := ((p.sources.find? (fun e => e.1 == i)).map Prod.snd).getD []

/-- The running value over a list of slots at path pixel (x, y) (06 R223, R224). -/
def blendOver (s : State) (p : Plan) (x y : Nat) (slots : List Nat) (d0 : Nat) : Nat :=
  slots.foldl (fun d i =>
    let sl := slotOf s p.head i
    match sampleAt s p.head p.path sl (p.source i) p.pitch (pathX s p.path + x) y with
    | some v => blendStep sl d v
    | none => d) d0

/-- Byte offset of a pixel's two-byte place in a frame-sized region. -/
def pixelAt (s : State) (path : Head) (x y : Nat) : Nat := 2 * (y * activeW s path + x)

/-- A little-endian 16-bit value in light memory. -/
def mem16 (s : State) (a : Nat) : Nat := (memGet s a).toNat + 256 * (memGet s (a + 1)).toNat

/-- The value after the flattened run: from the cache or composed (06 R233, R235). -/
def runValue (s : State) (p : Plan) (x y : Nat) : Nat :=
  if p.cached then mem16 s (regionBase s (2 + Head.idx p.path) + pixelAt s p.path x y)
  else blendOver s p x y (p.order.filter p.run.contains) 0

/-- The value that leaves the blend stage (06 R223). -/
def blendValue (s : State) (p : Plan) (x y : Nat) : Nat :=
  blendOver s p x y (p.order.filter (fun i => !p.run.contains i)) (runValue s p x y)

/-- Entry `k` of a head's tone bank (06 R227, R244). -/
def toneEntry (s : State) (h : Head) (bank k : Nat) : Nat :=
  regFld s (0x29000 + 0x2800 * Head.idx h + 0x1400 * bank + 4 * k) 16 0

/-- The tone curve in force, bypassed in PLAIN mode (06 R223, R227). -/
def toneValue (s : State) (h : Head) (x : Nat) : Nat :=
  if lightMode s h then
    let b := (s.bld.get (timer s h)).bank
    let t0 := toneEntry s (timer s h) b (x / 64)
    let t1 := toneEntry s (timer s h) b (x / 64 + 1)
    satLight (t0 + ((t1 - t0) * (x % 64) + 32) / 64)
  else x

/-- The value that leaves the headroom stage (06 R231). -/
def headroomValue (s : State) (p : Plan) (x y : Nat) : Nat :=
  mul16 (toneValue s p.head (blendValue s p x y)) (s.bld.get p.head).headroom

/-! ## Health and defect compensation (07 R264 to R270) -/

/-- Byte offset of a head's part of HEALTH and DOSE (07 R255, R264). -/
def partOffset (h : Head) : Nat := 0x80000 * Head.idx h

/-- Health state of pixel `p` of a head (07 R264). -/
def healthOf (s : State) (h : Head) (p : Nat) : Nat :=
  let b := (memGet s (regionBase s 6 + partOffset h + p / 2)).toNat
  if p % 2 = 0 then b % 16 else b / 16

/-- Health state of pixel `p` of a head set to `v`. -/
def setHealth (s : State) (h : Head) (p v : Nat) : State :=
  let a := regionBase s 6 + partOffset h + p / 2
  let b := (memGet s a).toNat
  memPut s a (BitVec.ofNat 8 (if p % 2 = 0 then b / 16 * 16 + v else b % 16 + 16 * v))

/-- A dark state (07 R264, R265). -/
def isDark (st : Nat) : Bool := st == 3 || st == 4 || st == 5 || st == 6

/-- Orthogonal neighbours within the path's part (07 R269). -/
def neighbours (s : State) (path : Head) (x y : Nat) : List (Nat × Nat) :=
  (if x = 0 then [] else [(x - 1, y)]) ++ (if x + 1 < activeW s path then [(x + 1, y)] else [])
    ++ (if y = 0 then [] else [(x, y - 1)]) ++ (if y + 1 < activeH s path then [(x, y + 1)] else [])

/-- Health state of the pixel at (x, y). -/
def healthAt (s : State) (path : Head) (x y : Nat) : Nat := healthOf s path (y * activeW s path + x)

/-- The weight that a compensated pixel passes on (07 R269, R270). -/
def compWeight (s : State) (path : Head) (st : Nat) : Nat :=
  let a := pxcBase path + 0xC
  if st = 4 ∨ st = 6 then forceFld s path a 8 0 else if st = 2 then forceFld s path a 24 16 else 0

/-- `share_d` of 07 R269. -/
def shareOf (s : State) (p : Plan) (x y : Nat) : Nat :=
  let k := ((neighbours s p.path x y).filter (fun n => !isDark (healthAt s p.path n.1 n.2))).length
  let w := compWeight s p.path (healthAt s p.path x y)
  if k = 0 ∨ w = 0 then 0 else headroomValue s p x y * w / (256 * k)

/-- The value that leaves defect compensation (07 R269). -/
def compValue (s : State) (p : Plan) (x y : Nat) : Nat :=
  let hn := headroomValue s p x y
  if !forceBit s p.path 0x18000 (Head.idx p.path) || isDark (healthAt s p.path x y) then hn
  else
    let add := ((neighbours s p.path x y).map (fun n => shareOf s p n.1 n.2)).foldl (· + ·) 0
    satLight (hn + Nat.min add (hn / 2))

/-! ## Zone clamp (06 R237 to R240) -/

/-- Word `w` of zone `z` in the head block in force (06 R245, 16 R570). -/
def zoneWord (s : State) (h : Head) (z w : Nat) : Nat :=
  match headBlock s h with
  | some b => leAt b (16 * z + 4 * w) 4
  | none => 0

/-- Zone `z` is enabled and covers (x, y) (06 R237). -/
def zoneCovers (s : State) (h : Head) (z x y : Nat) : Bool :=
  let w0 := zoneWord s h z 0
  let w1 := zoneWord s h z 1
  nbit (zoneWord s h z 3) 0 && decide (w0 % 8192 ≤ x) && decide (x ≤ w0 / 65536 % 8192) && decide (w1 % 8192 ≤ y)
    && decide (y ≤ w1 / 65536 % 8192)

/-- The ceiling and the floor at a raster pixel (06 R238). -/
def zoneLimits (s : State) (h : Head) (x y : Nat) : Nat × Nat :=
  ((List.range 16).filter (fun z => zoneCovers s h z x y)).foldl
    (fun acc z => (Nat.min acc.1 (zoneWord s h z 2 % 65536), Nat.max acc.2 (zoneWord s h z 2 / 65536))) (65535, 0)

/-- The clamp of a value (06 R238). -/
def clampZone (limits : Nat × Nat) (v : Nat) : Nat := Nat.min (Nat.max v limits.2) limits.1

/-! ## Gains, quantisation and dither (07 R247 to R259, R271, R272) -/

/-- Aging gain of a dose (07 R259). -/
def agingGain (s : State) (dose : Nat) : Nat :=
  let e (k : Nat) : Nat := regFld s (0x18400 + 4 * k) 15 0
  let i := dose / 1024
  e i + ((e (i + 1) - e i) * (dose % 1024) + 512) / 1024

/-- Byte address of the dose word of a pixel's block (07 R255). -/
def doseAddr (s : State) (path : Head) (x y : Nat) : Nat :=
  regionBase s 7 + partOffset path + 2 * (y / 2 * (activeW s path / 2) + x / 2)

/-- Calibration code of a pixel (07 R250), from the staging buffer while that serves its range (07 R252). -/
def calibCode (s : State) (path : Head) (x y : Nat) : Nat :=
  let o := y * activeW s path + x
  let staged := match s.pxc.cal with
    | some c => if c.head = path ∧ c.stage = 2 ∧ c.offset ≤ o ∧ o < c.offset + c.data.length
        then some (byteAt c.data (o - c.offset)) else none
    | none => none
  staged.getD (memGet s (regionBase s 8 + 0x100000 * Head.idx path + o)).toNat

/-- Kn × (192 + g) × Ga of a pixel. -/
def wearGain (s : State) (path : Head) (x y : Nat) : Nat :=
  regFld s (pxcBase path) 15 0 * (192 + calibCode s path x y) * agingGain s (mem16 s (doseAddr s path x y))

/-- The product of 07 R247 for a clamp output `v`. -/
def driveProduct (s : State) (path : Head) (x y v : Nat) : Nat :=
  v * wearGain s path x y * regFld s (pxcBase path + 0x20 + 4 * (s.pxc.heads.get path).band) 15 0

/-- The unquantised drive u (07 R247). -/
def driveOf (g : Nat) : Nat :=
  let d := 65535 * 2 ^ 29
  Nat.min (2 ^ 24 - 1) ((2 * g + d) / (2 * d))

/-- The drive-code depth of a path (07 R271, R284). -/
def depthOf (s : State) (path : Head) : Nat := regFld s (pxcBase (timer s path) + 4) 4 0

/-- Threshold-matrix entry at (X, Y) (07 R272). -/
def threshold (x y : Nat) : Nat :=
  ((List.range 4).map (fun k =>
    let xk := x / 2 ^ k % 2
    let yk := y / 2 ^ k % 2
    (2 * ((xk + yk) % 2) + yk) * 4 ^ (3 - k))).foldl (· + ·) 0

/-- The code of drive `u` at pixel (x, y) for frame `f` (07 R271, R272). -/
def quantise (depth : Nat) (dither : Bool) (f u x y : Nat) : Nat :=
  let sft := 24 - depth
  let ox := 5 * f % 16
  let oy := (3 * f + f / 16) % 16
  let b := threshold ((x + ox) % 16) ((y + oy) % 16)
  let t := if dither then ((2 * b + 1) * 2 ^ sft) / 512 else 2 ^ (sft - 1)
  Nat.min ((u + t) / 2 ^ sft) (2 ^ depth - 1)

/-- What one pixel of a composed sweep yields. -/
structure PixelOut where
  flat : Nat
  vin : Nat
  vout : Nat
  code : Nat
  saturated : Bool
  exhausted : Bool

/-- One pixel of a path through stages 3 to 8 (01 R15); `f` is the FSN that the frame's stitch will give it. -/
def pixelOut (s : State) (p : Plan) (f x y : Nat) : PixelOut :=
  let vin := compValue s p x y
  let vout := clampZone (zoneLimits s p.head (pathX s p.path + x) y) vin
  let g := driveProduct s p.path x y vout
  let dark := isDark (healthAt s p.path x y)
  { flat := runValue s p x y, vin := vin, vout := vout,
    code := if dark then 0
      else quantise (depthOf s p.path) (forceBit s p.path 0x18000 (2 + Head.idx p.path)) f (driveOf g) x y,
    saturated := decide (2 ^ 24 * (65535 * 2 ^ 29) ≤ g), exhausted := decide (2 ^ 38 < wearGain s p.path x y) }

/-- The raster pixels of a path, row by row. -/
def pathPixels (s : State) (path : Head) : List (Nat × Nat) :=
  ((List.range (activeH s path)).map (fun y => (List.range (activeW s path)).map (fun x => (x, y)))).flatten

end Sys2Proof.Machine
end

