-- ==== Sys2Proof/Machine/Rings.lean ====
section
/-! DEFINITION. The rings as such (02 R55 to R71, R81, R98, R99, R104): configuration, doorbells, fetching, completions,
interrupts and records. -/

namespace Sys2Proof.Machine

/-- The ring engine changed by `f`. -/
def modRng (s : State) (f : Rng → Rng) : State := { s with rng := f s.rng }

/-- RING_PROTOCOL is raised and the ring shows it (02 R64, 15 R532). -/
def protocolError (s : State) (n : Nat) : State := raise (modRing s n (fun r => { r with protoErr := true })) 11 3 0

/-! ## What is outstanding (02 R94) -/

/-- Ring and slot of a member. -/
def Member.key (m : Member) : Nat × Nat := (m.ring, m.slot)

/-- Members of change sets that have not completed on a head, in fetch order. -/
def outstandingMembers (h : RngHead) : List (Nat × Nat) :=
  (h.sets.map (fun c => c.members.map Member.key)).flatten ++ (h.replays.map (fun ms => ms.map Member.key)).flatten
    ++ h.opened.map Member.key

/-- Ring and slot of every descriptor fetched and not completed. -/
def outstanding (s : State) : List (Nat × Nat) :=
  s.rng.work.flatMap (fun w => (w.ring, w.slot) :: (w.closes.getD []).map Member.key)
    ++ outstandingMembers s.rng.heads.a ++ outstandingMembers s.rng.heads.b

/-- Those of one ring. -/
def outstandingOn (s : State) (ring : Nat) : List (Nat × Nat) := (outstanding s).filter (fun k => k.1 == ring)

/-- The head of a change-set ring's role (02 R57). -/
def roleHead : Nat → Option Head
  | 2 => some .a
  | 3 => some .b
  | _ => none

/-! ## Completions (02 R69, R70, R81) -/

/-- A completion ring has a slot that is free and not reserved (02 R69). -/
def cplFree (s : State) (c : Nat) : Bool :=
  ringEnabled s c && decide ((ringOf s c).unreleased + (ringOf s c).reserved < ringSize s c)

/-- A reservation is released unused (02 R69). -/
def releaseSlot (s : State) (c : Nat) : State := modRing s c (fun r => { r with reserved := r.reserved - 1 })

/-- The 16 bytes of a completion (02 R81). -/
def cplBytes (c : Cpl) (phase : Bool) : List Byte :=
  leBytes 2 c.tag.toNat
    ++ leBytes 2 (b2n phase * 2 ^ 15 + b2n c.replayed * 2 ^ 14 + (c.detail % 64) * 256 + c.code % 256)
    ++ leBytes 4 c.word.toNat ++ leBytes 4 c.fsn.toNat ++ leBytes 4 c.time.toNat

/-- The device's place moves past the entry just written, with the phase inverted at each wrap (02 R70). -/
def advance (s : State) (n : Nat) : State :=
  let size := ringSize s n
  modRing s n (fun r =>
    let i := (r.devIdx + 1) % size
    { r with devIdx := i, phase := if i = 0 then !r.phase else r.phase, unreleased := r.unreleased + 1 })

/-- The interrupt of a ring's vector is signalled and its conditions restart (02 R63). -/
def ringSignal (s : State) (n : Nat) : State :=
  signalMsix (modRing s n (fun r => { r with unsignalled := 0 })) (regFld s (0x0310C + 0x20 * n) 4 0)

/-- An entry has been written: count it, and signal when the count is reached or the descriptor asks for it (02 R63). The
conditions are tested as an entry is written: where irq_en is set, or count lowered, with enough entries already
unsignalled, the interrupt waits for the next entry or for its time (DESIGN CHOICE, log 80). -/
def ringIrq (s : State) (n : Nat) (force : Bool) : State :=
  let a := 0x0310C + 0x20 * n
  let s1 := modRing s n (fun r => { r with unsignalled := r.unsignalled + 1 })
  let count := if regFld s a 15 8 = 0 then 1 else regFld s a 15 8
  if regBit s a 7 && (force || decide (count ≤ (ringOf s1 n).unsignalled)) then ringSignal s1 n else s1

/-- A ring can take a completion: an enabled COMPLETE ring with a slot that the host has released (02 R69, R99). -/
def cplOpen (s : State) (c : Nat) : Bool :=
  ringEnabled s c && ringKind s c == 1 && hostLive s && decide ((ringOf s c).unreleased < ringSize s c)

/-- A completion is written to its ring, on the reservation made at fetch; while the ring cannot take it, or earlier ones of
that ring are held, it is held (02 R69, R81, R99). -/
def writeCpl (s : State) (c : Cpl) : State :=
  if cplOpen s c.ring && !s.rng.held.any (fun x => x.ring == c.ring) then
    let r := ringOf s c.ring
    let s1 := postWrite (releaseSlot s c.ring) (ringBase s c.ring + 16 * r.devIdx) (cplBytes c r.phase)
    let s2 := modRng s1 (fun g => { g with written := g.written ++ [{ slot := r.devIdx, phase := r.phase, cpl := c }] })
    ringIrq (advance s2 c.ring) c.ring c.irq
  else modRng s (fun g => { g with held := g.held ++ [c] })

/-- Completions held for a ring are written, in the order in which they were formed, as far as it can take them (02 R69,
R99). -/
def flushHeld (s : State) (n : Nat) : State :=
  (s.rng.held.filter (fun c => c.ring == n)).foldl writeCpl
    (modRng s (fun g => { g with held := g.held.filter (fun c => !(c.ring == n)) }))

/-- Bit `i` of a descriptor's flags (02 R73): 0 IRQ, 1 SILENT, 2 BARRIER, 3 CRC_PRESENT. -/
def descFlag (d : Desc) (i : Nat) : Bool := nbit d.flags i

/-- The completion that a descriptor forms (02 R81). -/
def cplOf (c : Nat) (d : Desc) (code detail : Nat) (replayed : Bool) (word fsn time : Word) : Cpl :=
  { ring := c, tag := d.tag, code := code, detail := detail, replayed := replayed, word := word, fsn := fsn, time := time,
    irq := descFlag d 0 }

/-- A descriptor outside change sets completes: SILENT suppresses an OK (02 R73, R81). -/
def completeDesc (s : State) (c : Nat) (d : Desc) (code detail : Nat) (word fsn : Word) : State :=
  if code = 0 ∧ descFlag d 1 then releaseSlot s c
  else
    let (t, s1) := stampHost s
    writeCpl s1 (cplOf c d code detail false word fsn t)

/-- A descriptor outside change sets completes with a time of its own (02 R81: OBJECTS). -/
def completeDescAt (s : State) (c : Nat) (d : Desc) (code detail : Nat) (word fsn time : Word) : State :=
  if code = 0 ∧ descFlag d 1 then releaseSlot s c
  else writeCpl s (cplOf c d code detail false word fsn time)

/-- The fetched descriptor of a ring and slot. -/
def workAt (s : State) (ring slot : Nat) : Option Work := s.rng.work.find? (fun w => w.ring == ring && w.slot == slot)

/-- The fetched descriptor of a ring and slot leaves the list. -/
def dropWork (s : State) (ring slot : Nat) : State :=
  modRng s (fun g => { g with work := g.work.filter (fun w => !(w.ring == ring && w.slot == slot)) })

/-- The fetched descriptor of a ring and slot moves to another stage. -/
def stageWork (s : State) (ring slot stage : Nat) : State :=
  modRng s (fun g => { g with work := g.work.map (fun w => if w.ring == ring && w.slot == slot then { w with stage := stage } else w) })

/-- Work that FORGET has left without a completion: its ring number is out of the rings' range (02 R102). -/
def Work.forgotten (w : Work) : Bool := decide (32 ≤ w.ring)

/-- The fetched descriptor of a ring and slot leaves, by `f` from its entry; a forgotten one posts nothing (02 R102). -/
def leaveWork (s : State) (ring slot : Nat) (f : State → Work → State) : State :=
  match workAt s ring slot with
  | none => s
  | some w => if w.forgotten then dropWork s ring slot else f (dropWork s ring slot) w

/-- The fetched descriptor of a ring and slot completes. -/
def completeWord (s : State) (ring slot code detail : Nat) (word fsn : Word) : State :=
  leaveWork s ring slot (fun x w => completeDesc x w.cpl w.desc code detail word fsn)

/-- The fetched descriptor of a ring and slot completes, its CSN echoed: also that of a QUERY or NET_RX_BUF which completes
with another status than OK (02 R81; DESIGN CHOICE, log 63). -/
def completeAt (s : State) (ring slot code detail : Nat) (fsn : Word) : State :=
  leaveWork s ring slot (fun x w => completeDesc x w.cpl w.desc code detail w.desc.csn fsn)

/-- The fetched descriptor of a ring and slot completes at a frame's stitch, with that frame's stitch time (02 R81). -/
def completeStitch (s : State) (ring slot code detail : Nat) (fsn time : Word) : State :=
  leaveWork s ring slot (fun x w => completeDescAt x w.cpl w.desc code detail w.desc.csn fsn time)

/-- A member of a change set posts a completion of its own (02 R92: only the COMMIT, or every member when discarded). -/
def completeMember (s : State) (m : Member) (code detail : Nat) (replayed : Bool) (fsn time : Word) : State :=
  writeCpl s (cplOf m.cpl m.desc code detail replayed m.desc.csn fsn time)

/-- Members complete one by one in slot order with no time of a stitch (02 R82, R85, R97, R98). -/
def completeMembers (s : State) (ms : List Member) (code : Nat) : State :=
  ms.foldl (fun acc m =>
    let (t, a1) := stampHost acc
    completeMember a1 m code 0 false 0#32 t) s

/-- A change set's COMMIT posts its completion and the other members' reservations are released (02 R69, R92). -/
def completeSet (s : State) (ms : List Member) (code detail : Nat) (replayed : Bool) (fsn time : Word) : State :=
  match ms.getLast? with
  | none => s
  | some last =>
    completeMember (ms.dropLast.foldl (fun acc m => releaseSlot acc m.cpl) s) last code detail replayed fsn time

/-! ## Records (02 R71, R104) -/

/-- A RECORD entry's 64 bytes: the body with its phase bit and the check value of R75 (02 R104). -/
def recordBytes (ring slot : Nat) (phase : Bool) (body : List Byte) : List Byte :=
  let b := fit 60 body
  let b1 := b.set 1 (BitVec.ofNat 8 ((byteAt b 1) / 2 * 2 + b2n phase))
  b1 ++ leBytes 4 (crc32cFold 3 (ring + 256 * slot) b1)

/-- A record falls due for the ring of a role: it is written if a slot is released, and otherwise counted (02 R71).
Answers whether it was written. -/
def writeRecord (s : State) (role : Nat) (body : List Byte) : Bool × State :=
  match ringWithRole s role with
  | none => (false, s)
  | some n =>
    if !hostLive s then (false, s)
    else
      let r := ringOf s n
      if ringSize s n ≤ r.unreleased then (false, modRing s n (fun e => { e with lost := satAdd 0xFFFF e.lost 1 }))
      else
        let s1 := postWrite s (ringBase s n + 64 * r.devIdx) (recordBytes n r.devIdx r.phase body)
        (true, ringIrq (advance s1 n) n false)

/-! ## Enabling and disabling (02 R58, R60, R61, R98, R99, R101) -/

/-- A role that at most one enabled ring may hold (02 R57). -/
def uniqueRole (role : Nat) : Bool :=
  (decide (2 ≤ role) && decide (role ≤ 6)) || (decide (8 ≤ role) && decide (role ≤ 12))
    || (decide (17 ≤ role) && decide (role ≤ 19))

/-- The role belongs to the kind (02 R61). -/
def roleOfKind (kind role : Nat) : Bool :=
  match kind with
  | 0 => decide (role ≤ 12)
  | 1 => role == 0
  | 2 => decide (17 ≤ role) && decide (role ≤ 19)
  | _ => false

/-- Setting enable on ring `n` with configuration `v` is accepted (02 R58, R61, R101). Nothing is asked of `RNG_CTRL` bit 0: a
ring may be enabled, and completions and records written, while it is clear, and only fetching waits for it (DESIGN CHOICE,
log 81). -/
def mayEnable (s : State) (n : Nat) (v : Word) : Bool :=
  s.rng.journal.isNone && roleOfKind (fld v 3 2) (fld v 20 16)
    && (fld v 3 2 != 0 || (ringEnabled s (fld v 12 8) && ringKind s (fld v 12 8) == 1))
    && (!uniqueRole (fld v 20 16)
      || (List.range 32).all (fun m => m == n || !(ringEnabled s m && ringRole s m == fld v 20 16)))

/-- Ring `n` is enabled: a COMPLETE or RECORD ring starts its first pass with every slot released, a SUBMIT ring resumes
where it stopped (02 R66, R70, R98). -/
def enableRing (s : State) (n : Nat) (v : Word) : State :=
  let s1 := modRing (setRegAt s (0x03108 + 0x20 * n) (v ||| 1#32)) n (fun r => { r with stopped := false })
  if fld v 3 2 = 0 then s1
  else
    let s2 := modRing s1 n (fun r => { r with devIdx := 0, phase := true, hostIdx := 0, unreleased := 0, unsignalled := 0 })
    let s3 := modRng s2 (fun g => { g with written := g.written.filter (fun w => !(w.cpl.ring == n)) })
    if fld v 3 2 = 1 then flushHeld s3 n else s3

/-- A descriptor fetched from a ring of a role is a member of a change set: on a CS ring every descriptor but the four common
ones, and every one that fails its DCRC (02 R76, R84). -/
def isMember (role : Nat) (d : Desc) (ok : Bool) : Bool :=
  (roleHead role).isSome && (!ok || !(d.opcode == 0 || d.opcode == 11 || d.opcode == 12 || d.opcode == 13))

/-- A fetched descriptor is held by its BARRIER (02 R73). -/
def Work.held (w : Work) : Bool := w.stage == 0

/-- A held descriptor is a member of a change set of head `h` (02 R73, R84). -/
def Work.heldFor (w : Work) (h : Head) : Bool := w.held && roleHead w.role == some h && isMember w.role w.desc w.dcrcOk

/-- The member that a held descriptor of a change-set ring is. -/
def memberOf (w : Work) : Member :=
  { ring := w.ring, slot := w.slot, cpl := w.cpl, desc := w.desc, dcrcOk := w.dcrcOk, block := none, moved := false, range := 0 }

/-- What stopping a SUBMIT ring does to the open change set of its head: its members, a held one included, complete with
DISCARDED, and an abort ends (02 R97, R98). A held COMMIT has closed its change set by its fetch, which is finished; one that
an abort covers completes with ABORTED. -/
def discardOpen (s : State) (ring : Nat) : State :=
  match roleHead (ringRole s ring) with
  | none => s
  | some h =>
    let rh := s.rng.heads.get h
    let held := s.rng.work.filter (fun w => w.ring == ring && w.heldFor h && w.closes.isNone)
    let s1 := modRngHead s h (fun e => { e with opened := [], abortCsn := none })
    let s2 := completeMembers s1 rh.opened 2
    held.foldl (fun acc w =>
      completeMembers (dropWork acc w.ring w.slot) [memberOf w] (if w.desc.opcode = 3 then 3 else 2)) s2

/-- Ring `n`'s enable bit is cleared and its stop position shown (02 R64, R98). -/
def stopRing (s : State) (n : Nat) : State :=
  modRing (setRegAt s (0x03108 + 0x20 * n) (ringCfg s n &&& ~~~1#32)) n
    (fun r => { r with stopIndex := r.devIdx, stopped := true })

/-- Ring `n` is disabled (02 R98, R99). -/
def disableRing (s : State) (n : Nat) : State :=
  if ringKind s n = 0 then discardOpen (stopRing s n) n else stopRing s n

/-- An enabled SUBMIT ring names ring `n` for its completions (02 R61). -/
def namedByEnabled (s : State) (n : Nat) : Bool :=
  (List.range 32).any (fun m => ringEnabled s m && ringKind s m == 0 && ringCpl s m == n)

/-- The fields of a configuration word that a write may set while the ring is disabled, reserved values kept out
(02 R60, 00 R12). -/
def ringCfgLims : List Lim :=
  [⟨3, 2, [(0, 2)]⟩, ⟨7, 4, [(4, 12)]⟩, ⟨20, 16, [(0, 12), (17, 19)]⟩]

/-- A write of `RNG_Qn_CFG` (02 R58, R60, R61, R98, R101). -/
def writeRingCfg (s : State) (n : Nat) (value : Word) : State :=
  let old := ringCfg s n
  let v := value &&& 0x001F1FFF#32
  if bit old 0 then
    let s1 := if (v ^^^ old) &&& 0xFFFFFFFE#32 = 0#32 then s else protocolError s n
    if bit v 0 then s1
    else if ringKind s n = 1 ∧ namedByEnabled s n then protocolError s1 n
    else disableRing s1 n
  else
    let v1 := keepBad ringCfgLims old v
    let s1 := if v1 = v then s else protocolError s n
    let s2 := setRegAt s1 (0x03108 + 0x20 * n) (v1 &&& ~~~1#32)
    if bit v1 0 then
      if mayEnable s2 n v1 then enableRing s2 n v1 else protocolError s2 n
    else s2

/-- Clearing `RNG_CTRL` bit 0 disables every ring at once, so the completions of what is discarded are held (02 R99). -/
def disableAll (s : State) : State :=
  let on := (List.range 32).filter (ringEnabled s)
  let submit := on.filter (fun n => ringKind s n == 0)
  submit.foldl discardOpen (on.foldl stopRing s)

/-- A write of `RNG_CTRL` (02 R59, R99). -/
def writeRngCtrl (s : State) (value : Word) : State :=
  let s1 := setRegAt s 0x03000 (value &&& 1#32)
  if bit value 0 then s1 else disableAll s1

/-! ## Doorbells (02 R66 to R68) -/

/-- The oldest `k` written completions of ring `n` are released by the host. -/
def dropWritten (n : Nat) : Nat → List Written → List Written
  | 0, ws => ws
  | _, [] => []
  | k + 1, w :: ws => if w.cpl.ring = n then dropWritten n k ws else w :: dropWritten n (k + 1) ws

/-- A doorbell of a COMPLETE or RECORD ring releases entries (02 R66). -/
def doorbellRelease (s : State) (n idx : Nat) : State :=
  let r := ringOf s n
  let size := ringSize s n
  let d := (idx + size - r.hostIdx) % size
  let want := if d = 0 ∧ r.unreleased = size then size else d
  let k := if r.unreleased < want then r.unreleased else want
  let s1 := modRing s n (fun e => { e with hostIdx := (r.hostIdx + k) % size, unreleased := r.unreleased - k })
  let s2 := modRng s1 (fun g => { g with written := dropWritten n k g.written })
  let s3 := if ringKind s n = 1 then flushHeld s2 n else s2
  if r.unreleased < want then protocolError s3 n else s3

/-- A doorbell write of ring `n` (02 R66, R67); an accepted one is a wake event (18 R623). -/
def doorbellWrite (s : State) (n : Nat) (whole : Bool) (value : Word) : State :=
  let idx := fld value 11 0
  if !whole || fld value 31 12 != 0 || !ringEnabled s n || decide (ringSize s n ≤ idx) then protocolError s n
  else
    let s1 := if ringKind s n = 0 then modRing s n (fun r => { r with hostIdx := idx }) else doorbellRelease s n idx
    wake s1 1

/-! ## Fetching (02 R68, R69, R73) -/

/-- The ring engine's own reads of host memory end: the host side serves and no journal waits (02 R100, R102). -/
def hostReads (s : State) : Bool := hostLive s && s.rng.journal.isNone

/-- The ring engine fetches: its domain serves, it is enabled, no low-power state holds it and no journal waits. -/
def engineFetches (s : State) : Bool :=
  hostLive s && engineOn s && s.rng.journal.isNone && decide (s.pwr.state < 2)
    && (s.pwr.phase == 0 || !(s.pwr.agreed.contains 2 || s.pwr.asking == 2))

/-- A BARRIER descriptor of the ring is held (02 R73). -/
def barrierHeld (s : State) (n : Nat) : Bool := s.rng.work.any (fun w => w.ring == n && w.held)

/-- Ring `n` can fetch its next descriptor as far as the ring itself goes (02 R68, R69, R73); none does while the
ring engine stands still for a low-power state (18 R616). -/
def ringFetches (s : State) (n : Nat) : Bool :=
  engineFetches s && !blockStopped s 2 && decide (n < 32) && ringEnabled s n && ringKind s n == 0 && ringRole s n != 0
    && (ringOf s n).devIdx != (ringOf s n).hostIdx && cplFree s (ringCpl s n) && !barrierHeld s n

/-- Nothing waits any more for what stood in a slot: the host has filled it again, so that its descriptor has completed
(02 R80, R93). -/
def slotAgain (s : State) (n slot : Nat) : State :=
  modRng s (fun g => { g with work := g.work.map (fun w => { w with waits := w.waits.filter (fun k => k != (n, slot)) }) })

/-- The fetch: the slot is passed and a completion slot reserved (02 R69). -/
def takeSlot (s : State) (n : Nat) : State :=
  let size := ringSize s n
  modRing (modRing (slotAgain s n (ringOf s n).devIdx) n (fun r => { r with devIdx := (r.devIdx + 1) % size })) (ringCpl s n)
    (fun r => { r with reserved := r.reserved + 1 })

end Sys2Proof.Machine
end

