-- ==== Sys2Proof/Machine/Kps.lean ====
section
/-! DEFINITION. The keeping store LAST with its one writer, the fuses, and COBBLER's proposals (20). -/

namespace Sys2Proof.Machine

/-- The keeping store changed by `f`. -/
def modKps (s : State) (f : Kps → Kps) : State := { s with kps := f s.kps }

/-- COBBLER changed by `f`. -/
def modCbl (s : State) (f : Cbl → Cbl) : State := { s with cbl := f s.cbl }

/-! ## Sectors (20 R660 to R663) -/

/-- Tag and account of a physical sector. -/
def sectorOf (s : State) (p : Nat) : Sector := Store.get Sector.reset s.kps.sectors p

/-- A physical sector's tag and account changed by `f`. -/
def modSector (s : State) (p : Nat) (f : Sector → Sector) : State :=
  modKps s (fun k => { k with sectors := Store.put Sector.reset k.sectors p (f (sectorOf s p)) })

/-- The better of two sectors that name one logical sector, as (physical sector, tag): the higher swap generation, the lower
number of two alike. -/
def betterSector (best : Option (Nat × Sector)) (e : Nat × Sector) : Option (Nat × Sector) :=
  match best with
  | none => some e
  | some b => if b.2.generation < e.2.generation ∨ (b.2.generation = e.2.generation ∧ e.1 < b.1) then some e else some b

/-- The physical sector that serves a logical one: of two that name it, the one with the higher swap generation
(20 R661). A sector whose tag is not listed serves the logical sector of its own number. -/
def servingSector (s : State) (logical : Nat) : Option Nat :=
  let serves (e : Nat × Sector) : Bool := decide (e.1 < 2048) && e.2.state == 1 && e.2.logical == logical
  let own := if s.kps.sectors.any (fun e => e.1 == logical) then [] else [(logical, Sector.reset logical)]
  (((own ++ s.kps.sectors).filter serves).foldl betterSector none).map Prod.fst

/-- The pieces of `n` bytes from logical address `a`, each within one sector, as (logical sector, first byte, count). -/
def lastPieces (a n : Nat) : List (Nat × Nat × Nat) :=
  if n = 0 then [] else
    (List.range ((a + n - 1) / 4096 + 1 - a / 4096)).map (fun i =>
      let l := a / 4096 + i
      let lo := Nat.max a (4096 * l)
      (l, lo % 4096, Nat.min (a + n) (4096 * l + 4096) - lo))

/-- `n` bytes from logical address `a`; a sector that no tag names reads as all ones (20 R661). -/
def storedBytes (s : State) (a n : Nat) : List Byte :=
  (lastPieces a n).flatMap (fun e => match servingSector s e.1 with
    | some p => Store.getList (fun _ => 0#8) s.kps.data (4096 * p + e.2.1) e.2.2
    | none => List.replicate e.2.2 0xFF#8)

/-- The byte at a logical address. -/
def storedByte (s : State) (a : Nat) : Byte := (storedBytes s a 1).headD 0xFF#8

/-- The 64-bit physical words among `ws` that lie behind `n` bytes from logical address `a`, piece by piece. -/
def wordsMet (s : State) (a n : Nat) (ws : List Nat) : List Nat :=
  (lastPieces a n).flatMap (fun e => match servingSector s e.1 with
    | some p => ws.filter (fun w => decide (512 * p + e.2.1 / 8 ≤ w) && decide (w ≤ 512 * p + (e.2.1 + e.2.2 - 1) / 8))
    | none => [])

/-- Every word behind a range can be read (20 R673). -/
def storedReadable (s : State) (a n : Nat) : Bool :=
  (lastPieces a n).all (fun e => (servingSector s e.1).isSome) && (wordsMet s a n s.kps.badWords).isEmpty

/-- First logical sector and sector count of a region (20 R663). -/
def lastRegion : Nat → Nat × Nat
  | 0 => (0, 32) | 1 => (116, 64) | 2 => (32, 2) | 3 => (34, 16) | 4 => (52, 64) | 5 => (436, 512) | 6 => (948, 512)
  | 7 => (180, 256) | 8 => (50, 2) | 9 => (1460, 64) | _ => (0, 0)

/-- First logical byte of a region. -/
def regionStart (code : Nat) : Nat := 4096 * (lastRegion code).1

/-- Bytes in a region. -/
def regionBytes (code : Nat) : Nat := 4096 * (lastRegion code).2

/-- Spare sectors remaining (20 R683). -/
def spareSectors (s : State) : Nat := (idxWhere 2048 (fun p => (sectorOf s p).state == 0)).length

/-- LAST_SPARE_LOW follows the spares (20 R676). -/
def spareLevel (s : State) : State := setLevel s 6 0 0 0 (decide (spareSectors s < regFld s 0x1C000 23 16))

/-! ## The writer's queue (20 R664) -/

/-- Priority of an operation (20 R664). -/
def KpsOp.rank : KpsOp → Nat
  | .eventlog true _ => 1
  | .changelog _ => 2
  | .commit => 2
  | .eventlog false _ => 3
  | .ledger => 4
  | .dose _ => 5
  | .lastWrite .. => 6
  | .calib _ _ _ => 6
  | .refresh _ => 7
  | .swap _ => 8

/-- The waiting operation of highest priority, the first requested among equals. -/
def bestOp (ops : List KpsOp) : Option KpsOp :=
  ops.foldl (fun b o => match b with
    | none => some o
    | some x => if o.rank < x.rank then some o else some x) none

/-- A write for which PD_LAST is switched on within DOZE, SLEEP or OFF: the shutdown record and COBBLER's LEDGER updates
(18 R628). -/
def dueInLow : KpsOp → Bool
  | .eventlog true _ => true
  | .ledger => true
  | _ => false

/-- The power controller is at rest in a low-power state with PD_LAST off, its block not held (18 R610, R628). -/
def lastOff (s : State) : Bool :=
  decide (2 ≤ s.pwr.state) && s.pwr.phase == 0 && domainState s 7 == 0 && decide (3 ≤ s.rst.done) && !blockHeld s 7

/-- The writer takes the next waiting operation if it is idle and PD_LAST is on, or is switched on for it; a LAST_WRITE passes
its completion point at its first programme (20 R664, 02 R96, 18 R628). A store that has agreed to an entry takes none. -/
def kpsTake (s : State) : State :=
  let low := lastOff s
  match s.kps.current, bestOp (if low then s.kps.waiting.filter dueInLow else s.kps.waiting) with
  | none, some o =>
    if (lastLive s && !blockStopped s 6) || low then
      let s0 := if low then { s with pwr := { s.pwr with domains := Store.put (fun _ => 2) s.pwr.domains 7 2 } } else s
      let s1 := modKps s0 (fun k => { k with current := some o, waiting := k.waiting.erase o })
      match o with
      | .lastWrite ring slot _ _ _ => stageWork s1 ring slot 2
      | _ => s1
    else s
  | _, _ => s

/-- With no write left in a low-power state, PD_LAST is switched off again (18 R628). -/
def lastRests (s : State) : State :=
  if decide (2 ≤ s.pwr.state) && s.pwr.phase == 0 && s.kps.current.isNone then
    { s with pwr := { s.pwr with domains := Store.put (fun _ => 2) s.pwr.domains 7 0 } }
  else s

/-- An operation is requested of the writer. -/
def kpsRequest (s : State) (o : KpsOp) : State := kpsTake (modKps s (fun k => { k with waiting := k.waiting ++ [o] }))

/-! ## COBBLER (20 R669, R677, R678) -/

/-- The policy of a resource kind: 0 OFF, 1 AUTO, 2 CONSENT (20 R677). -/
def cblPolicy (s : State) (kind : Nat) : Nat := regFld s 0x17000 (2 * kind + 1) (2 * kind)

/-- The open proposal of a kind (20 R677). -/
def proposalOf (s : State) (kind : Nat) : Option Proposal := Store.get (fun _ => none) s.cbl.proposals kind

/-- A kind's proposal opened or closed. -/
def setProposal (s : State) (kind : Nat) (p : Option Proposal) : State :=
  modCbl s (fun c => { c with proposals := Store.put (fun _ => none) c.proposals kind p })

/-- The time-counter fields that records carry: seconds, time valid, nanoseconds, with `gap` bytes between. -/
def stampFields (s : State) : List Byte × List Byte × Nat := (leBytes 6 (nowSec s), leBytes 4 (nowSubNs s), b2n s.tim.valid)

/-- An EVENTLOG record of a COBBLER action (20 R669, type 0x23). -/
def cblRecord (s : State) (kind number target outcome : Nat) : State :=
  let (sec, ns, ok) := stampFields s
  kpsRequest s (.eventlog false (fit 52
    ([0x23#8] ++ leBytes 1 kind ++ leBytes 2 number ++ leBytes 4 target ++ leBytes 8 outcome ++ sec ++ leBytes 2 ok ++ ns)))

/-- The next proposal number: a 16-bit count that skips zero (20 R677). -/
def nextProposal (n : Nat) : Nat := if (n + 1) % 65536 = 0 then 1 else (n + 1) % 65536

/-- COBBLER finds a candidate: COBBLER_ACTION is raised under every policy, and under CONSENT a proposal opens if its kind
has none (20 R669, R677). -/
def cblFind (s : State) (kind target : Nat) (pixels : List (Nat × Nat)) : State :=
  let s1 := raise s 56 0 (kind * 4096 + target)
  if cblPolicy s1 kind = 2 ∧ (proposalOf s1 kind).isNone then
    let n := nextProposal s1.cbl.number
    cblRecord (setProposal (modCbl s1 (fun c => { c with number := n })) kind
      (some { number := n, target := target, pixels := pixels })) kind n target 0
  else if kind < 2 ∧ cblPolicy s1 kind ≠ 1 then modCbl s1 (fun c => { c with found := c.found ++ [(kind, target)] })
  else s1

/-- The number of the approved proposal that an action answers, 0 where it answers none (20 R669). -/
def approvedNumber (s : State) (kind target : Nat) : Nat :=
  match s.cbl.approved.find? (fun a => a.1 == kind && a.2.1 == target) with
  | some a => a.2.2
  | none => 0

/-- A COBBLER action completes or fails: outcome 1 or 4 (20 R669, R684). `number` is 0 where the action does not know its
proposal. -/
def cblDone (s : State) (kind number target outcome : Nat) : State :=
  let n := if number = 0 then approvedNumber s kind target else number
  let s1 := modCbl s (fun c =>
    { c with actions := if outcome = 1 then satAdd 0xFFFF c.actions 1 else c.actions,
             approved := c.approved.filter (fun a => !(a.1 == kind && a.2.1 == target && a.2.2 == n)) })
  cblRecord s1 kind n target outcome

/-- A proposal is declined or withdrawn: outcome 2 or 3 (20 R669, R678, R684). -/
def cblClose (s : State) (kind outcome : Nat) : State :=
  match proposalOf s kind with
  | none => s
  | some p =>
    cblRecord (modCbl (setProposal s kind none) (fun c => { c with declined := satAdd 0xFFFF c.declined 1 })) kind p.number
      p.target outcome

/-! ## Errors and candidates (20 R666, R673, R675, R676) -/

/-- A sector in service meets a criterion of 20 R673: under AUTO its swap is requested while a spare remains. -/
def sectorCandidate (s : State) (p : Nat) : State :=
  let e := sectorOf s p
  if e.state ≠ 1 ∨ e.candidate then s
  else
    let s1 := cblFind (modSector s p (fun x => { x with candidate := true })) 1 p []
    if cblPolicy s1 1 = 1 ∧ 0 < spareSectors s1 then kpsRequest s1 (.swap p) else s1

/-- A read finds a corrected error in sector `p`: FS04 and a refresh (20 R673). -/
def lastCorrected (s : State) (p : Nat) (injected : Bool) : State :=
  let s1 := raiseInj s 4 0 0 injected
  let s2 := modSector s1 p (fun x => { x with corrected := satAdd 0xFFFF x.corrected 1 })
  let s3 := modKps s2 (fun k => { k with weak := k.weak.filter (fun w => w / 512 != p) })
  if s3.kps.waiting.contains (.refresh p) then s3 else kpsRequest s3 (.refresh p)

/-- A read finds an uncorrectable word in sector `p`: FS05, and the sector becomes a candidate (20 R673). -/
def lastUncorrectable (s : State) (p : Nat) : State := sectorCandidate (raise s 5 0 0) p

/-! ## Programming (20 R660, R662, R666) -/

/-- Physical sector `p` programmed at offset `o` with bytes: whole words become readable, the programme is counted, and wear
makes a candidate (20 R660, R662, R673). -/
def programmePhysical (s : State) (p o : Nat) (bs : List Byte) : State :=
  let lo := (4096 * p + o) / 8
  let hi := (4096 * p + o + bs.length + 7) / 8
  let inside (w : Nat) : Bool := decide (lo ≤ w) && decide (w < hi)
  let inj := injArmed s 4 || injArmed s 5
  let two := regFld s 0x12080 9 8 == 2
  let s1 := modKps s (fun k =>
    { k with data := Store.putList (fun _ => 0#8) k.data (4096 * p + o) bs,
             badWords := k.badWords.filter (fun w => !inside w) ++ (if inj && two then [512 * p] else []),
             weak := k.weak.filter (fun w => !inside w) ++ (if inj && !two then [512 * p] else []) })
  let s2 := if inj then spendInj s1 else s1
  let s3 := modSector s2 p (fun x => { x with programmes := satAdd 0xFFFFFFFF x.programmes 1 })
  if decide ((regAt s3 0x1C008).toNat ≤ (sectorOf s3 p).programmes) then sectorCandidate s3 p else s3

/-- Bytes programmed at a logical address, all within one sector. -/
def programme (s : State) (a : Nat) (bs : List Byte) : State :=
  match servingSector s (a / 4096) with
  | some p => programmePhysical s p (a % 4096) bs
  | none => s

/-- The lowest spare whose last scrub found no error (20 R675). -/
def cleanSpare (s : State) : Option Nat := firstIdx 2048 (fun p => (sectorOf s p).state == 0 && !(sectorOf s p).lastBad)

/-- The swap of candidate `p` onto a spare: its uncorrectable words stay so (20 R675). -/
def swapSector (s : State) (p : Nat) : State :=
  match cleanSpare s with
  | none => s
  | some q =>
    let old := sectorOf s p
    let data := Store.getList (fun _ => 0#8) s.kps.data (4096 * p) 4096
    let bads := (s.kps.badWords.filter (fun w => w / 512 == p)).map (fun w => 512 * q + w % 512)
    let s1 := programmePhysical s q 0 data
    let s2 := modKps s1 (fun k => { k with badWords := k.badWords ++ bads })
    let s3 := modSector s2 q (fun x =>
      { x with logical := old.logical, state := 1, generation := (old.generation + 1) % 65536, candidate := false })
    spareLevel (cblDone (modSector s3 p (fun x => { x with state := 2, candidate := false })) 1 0 p 1)

/-! ## Records of the writer (20 R668, R670, 16 R578) -/

/-- The EVENTLOG slot's 64 bytes (20 R668). -/
def eventSlot (record : List Byte) (seq : Nat) : List Byte :=
  let b := fit 52 record ++ leBytes 4 seq ++ leBytes 4 0
  b ++ leBytes 4 (crc32c b)

/-- Pixels of a head's active raster whose health state satisfies a predicate (07 R285). -/
def healthCount (s : State) (h : Head) (p : Nat → Bool) : Nat :=
  ((List.range (activeN s h)).filter (fun i => p (healthOf s h i))).length

/-- The highest dose word of a head (07 R283). -/
def doseMax (s : State) (h : Head) : Nat :=
  ((List.range (activeN s h / 4)).map (fun i => mem16 s (regionBase s 7 + partOffset h + 2 * i))).foldl Nat.max 0

/-- The LEDGER state record (20 R670). -/
def ledgerBytes (s : State) : List Byte :=
  let weak (h : Head) : Nat := healthCount s h (fun v => v == 1 || v == 2)
  let cap (n : Nat) : Nat := if n > 65535 then 65535 else n
  let b := leBytes 2 1 ++ leBytes 2 256 ++ leBytes 4 s.kps.ledgerSeq
    ++ (List.range 64).map (fun i => BitVec.ofNat 8 ((bankOf s i).lbank + 64 * (bankOf s i).state))
    ++ leBytes 4 s.kps.powered ++ leBytes 4 s.kps.lit.a ++ leBytes 4 s.kps.lit.b
    ++ ((List.range 7).map (fun i => leBytes 4 (Store.get (fun _ => 0) s.kps.bands i))).flatten
    ++ leBytes 2 (spareSectors s) ++ leBytes 2 ((idxWhere 64 (fun i => (bankOf s i).state == 0)).length)
    ++ leBytes 4 s.kps.doseSeq ++ leBytes 4 s.kps.doseCopy ++ leBytes 4 s.kps.doseCrc.a.toNat ++ leBytes 4 s.kps.doseCrc.b.toNat
    ++ leBytes 2 (doseMax s .a) ++ leBytes 2 (doseMax s .b) ++ leBytes 2 (cap (weak .a)) ++ leBytes 2 (cap (weak .b))
    ++ leBytes 2 (cap (healthCount s .a isDark)) ++ leBytes 2 (cap (healthCount s .b isDark))
  let f := fit 252 b
  f ++ leBytes 4 (crc32c f)

/-- The copy that a dose checkpoint writes: the older one (07 R261). -/
def olderCopy (s : State) : Nat := if s.kps.doseValid then 1 - s.kps.doseCopy else 0

/-- A dose checkpoint is requested; one that runs takes the request in (07 R261, R262). -/
def requestCheckpoint (s : State) : State :=
  if s.pxc.ckpt || !(pixLive s && memLive s) then s
  else
    (List.range 256).foldl (fun acc k => kpsRequest acc (.dose k)) { s with pxc := { s.pxc with ckpt := true, ckptFailed := false } }

/-- The last sector of a dose checkpoint has been written: its CRC and copy go into the next LEDGER record
(20 R670, R671, 07 R285). -/
def checkpointEnd (s : State) : State :=
  let c := olderCopy s
  let crc := BitVec.ofNat 32 (crc32c (storedBytes s (regionStart 6 + 0x100000 * c) 0x100000))
  let s1 := modKps s (fun k => { k with doseSeq := (k.doseSeq + 1) % 2 ^ 32, doseCopy := c, doseValid := true,
                                        doseCrc := if c = 0 then { k.doseCrc with a := crc } else { k.doseCrc with b := crc } })
  kpsRequest { s1 with pxc := { s1.pxc with ckpt := false, seq := (s1.pxc.seq + 1) % 2 ^ 32 } } .ledger

/-- The sector that an operation programmes takes its new contents (20 R660, R665, R668, R670, 16 R578). -/
def opProgramme (s : State) (o : KpsOp) : State :=
  match o with
  | .eventlog _ r => programme s (regionStart 4 + 64 * s.kps.evtSlot) (eventSlot r s.kps.evtSeq)
  | .changelog e =>
    let b := fit 60 e
    programme s (regionStart 3 + 64 * s.kps.logSlot) (b ++ leBytes 4 (crc32c b))
  | .ledger =>
    let s1 := modKps s (fun k => { k with ledgerSeq := (k.ledgerSeq + 1) % 2 ^ 32, ledgerSector := 1 - k.ledgerSector })
    programme s1 (regionStart 8 + 4096 * s1.kps.ledgerSector) (ledgerBytes s1)
  | .dose k => programme s (regionStart 6 + 0x100000 * olderCopy s + 4096 * k) (memRead s (regionBase s 7 + 4096 * k) 4096)
  | .lastWrite _ _ logical data _ => programme s (4096 * logical) data
  | .calib ring slot logical =>
    match s.pxc.merged.find? (fun c => c.ring == ring && c.slot == slot) with
    | none => s
    | some c =>
      let base := regionStart 5 + 0x100000 * Head.idx c.head + c.offset
      let sector := (List.range 4096).map (fun i =>
        let a := 4096 * logical + i
        if base ≤ a ∧ a < base + c.data.length then BitVec.ofNat 8 (byteAt c.data (a - base)) else storedByte s a)
      programme s (4096 * logical) sector
  | .refresh p => programmePhysical s p 0 (Store.getList (fun _ => 0#8) s.kps.data (4096 * p) 4096)
  | .swap p => swapSector s p
  | .commit => s

/-- An operation has written and verified its sector. -/
def opWritten (s : State) (o : KpsOp) : State :=
  let s1 := opProgramme s o
  match o with
  | .eventlog _ _ => modKps s1 (fun k => { k with evtSlot := (k.evtSlot + 1) % 4096, evtSeq := (k.evtSeq + 1) % 2 ^ 32 })
  | .changelog _ =>
    { modKps s1 (fun k => { k with logSlot := (k.logSlot + 1) % 1024 }) with
      saf := { s1.saf with logSeq := (s1.saf.logSeq + 1) % 2 ^ 32 } }
  | .dose k => if k = 255 then checkpointEnd s1 else s1
  | .lastWrite ring slot _ _ final =>
    if final then completeWord s1 ring slot 0 0 (match workAt s1 ring slot with
      | some w => w.desc.csn
      | none => 0#32) 0#32
    else s1
  | _ => s1

/-! ## Reads (20 R661, R664, R673) -/

/-- The keeping store as a read finds it: a read of a sector that is being programmed waits for the programme to end and
returns the new data (20 R664). -/
def lastView (s : State) : State :=
  match s.kps.current with
  | none => s
  | some o => opProgramme (modKps s (fun k => { k with current := none })) o

/-- `n` bytes read from logical address `a` (20 R661, R664). -/
def lastBytes (s : State) (a n : Nat) : List Byte := storedBytes (lastView s) a n

/-- Every word behind a range can be read (20 R673). -/
def lastReadable (s : State) (a n : Nat) : Bool := storedReadable (lastView s) a n

/-- What a read of `n` bytes at logical address `a` causes: corrected words deliver, uncorrectable ones are reported once
per sector, a logical sector that no tag names among them (20 R661, R673). -/
def lastTouch (s : State) (a n : Nat) : State :=
  let v := lastView s
  let weak := ((wordsMet v a n v.kps.weak).map (fun w => w / 512)).eraseDups
  let bad := ((wordsMet v a n v.kps.badWords).map (fun w => w / 512)).eraseDups
  let holes := (lastPieces a n).filter (fun e => (servingSector v e.1).isNone)
  let s1 := bad.foldl lastUncorrectable (weak.foldl (fun t p => lastCorrected t p true) s)
  raiseTimes s1 5 0 0 holes.length

/-- A read of the keeping store: the bytes, or none where a word cannot be read (20 R673). -/
def lastRead (s : State) (a n : Nat) : Option (List Byte) × State :=
  (if lastReadable s a n then some (lastBytes s a n) else none, lastTouch s a n)

/-- The 16 bytes at offset `o` of the dose map as the newer checkpoint holds them, zero where none is valid (03 R117,
20 R671). -/
def doseReload (s : State) (o : Nat) : List Byte :=
  if s.kps.doseValid then lastBytes s (regionStart 6 + 0x100000 * s.kps.doseCopy + o) 16 else List.replicate 16 0#8

/-- The logical sector that an operation programmes. -/
def opSector (s : State) : KpsOp → Option Nat
  | .eventlog _ _ => some ((regionStart 4 + 64 * s.kps.evtSlot) / 4096)
  | .changelog _ => some ((regionStart 3 + 64 * s.kps.logSlot) / 4096)
  | .ledger => some (50 + (1 - s.kps.ledgerSector))
  | .dose k => some (948 + 256 * olderCopy s + k)
  | .lastWrite _ _ l _ _ => some l
  | .calib _ _ l => some l
  | _ => none

/-- The remaining sectors of a LAST_WRITE leave the queue. -/
def dropLastWrite (s : State) (ring slot : Nat) : State :=
  modKps s (fun k => { k with waiting := k.waiting.filter (fun o => match o with
    | .lastWrite r i _ _ _ => !(r == ring && i == slot)
    | _ => true) })

/-- An operation has failed its three attempts, on a sector that is now a candidate (20 R666, R668): the record of EVENTLOG
goes to the next slot, descriptors complete with DEVICE_ERROR, and a checkpoint is given up. -/
def opLost (s : State) (o : KpsOp) : State :=
  match o with
  | .eventlog sd r => kpsRequest (modKps s (fun k => { k with evtSlot := (k.evtSlot + 1) % 4096 })) (.eventlog sd r)
  | .lastWrite ring slot _ _ _ =>
    completeWord (dropLastWrite s ring slot) ring slot 0x41 7 (match workAt s ring slot with
      | some w => w.desc.csn
      | none => 0#32) 0#32
  | .calib ring slot _ =>
    { s with pxc := { s.pxc with merged := s.pxc.merged.map (fun c =>
        if c.ring == ring && c.slot == slot then { c with failed := true } else c) } }
  | .dose _ =>
    modKps { s with pxc := { s.pxc with ckpt := false, ckptFailed := true } } (fun k => { k with waiting := k.waiting.filter (fun x => match x with
      | .dose _ => false
      | _ => true) })
  | .swap p => cblDone s 1 0 p 4
  | _ => s

/-- An operation fails: FS07, and under AUTO the swap is made at once and the programme repeated on the new sector
(20 R666). -/
def opFailed (s : State) (o : KpsOp) : State :=
  let s1 := raise s 7 0 0
  match (opSector s1 o).bind (servingSector s1) with
  | none => opLost s1 o
  | some p =>
    let s2 := modSector (cblFind s1 1 p []) p (fun x => { x with candidate := true })
    if cblPolicy s2 1 = 1 ∧ (cleanSpare s2).isSome then opWritten (swapSector s2 p) o else opLost s2 o

/-- Uploads that have been latched and whose sectors have all been dealt with complete (07 R254), with detail 2 where their own
reads met a word that cannot be corrected (03 R117). -/
def calFinish (s : State) : State :=
  let ready (c : Cal) : Bool := c.latched.isSome && c.sectors.isEmpty
  let s1 := { s with pxc := { s.pxc with merged := s.pxc.merged.filter (fun c => !ready c) } }
  (s.pxc.merged.filter ready).foldl (fun acc c =>
    completeAt acc c.ring c.slot (if c.failed || c.badRead then 0x41 else 0) (if c.badRead then 2 else if c.failed then 7 else 0)
      (c.latched.getD 0#32)) s1

/-- The CALIB sector of a CAL_UPLOAD has been dealt with (07 R254). -/
def calibSectorDone (s : State) (ring slot l : Nat) : State :=
  calFinish { s with pxc := { s.pxc with merged := s.pxc.merged.map (fun c =>
      if c.ring == ring && c.slot == slot then { c with sectors := c.sectors.filter (fun x => x != l) } else c) } }

/-- The operation in progress ends and the next one is taken (20 R664); a commit ends with its own check (16 R577). -/
def kpsEnd (s : State) (ok : Bool) : State :=
  match s.kps.current with
  | none => s
  | some .commit => s
  | some o =>
    let s1 := modKps s (fun k => { k with current := none })
    let s2 := if ok then opWritten s1 o else opFailed s1 o
    let s3 := match o with
      | .calib r i l => calibSectorDone s2 r i l
      | _ => s2
    kpsTake (lastRests s3)

/-! ## Scrub (20 R673, R674) -/

/-- The scrubber reads one physical sector (20 R673 to R675). -/
def kpsScrub (s : State) (found : Bool) (bad : Option Nat) : State :=
  if !lastLive s || !regBit s 0x1C000 0 then s
  else
    let p := s.kps.scrubPos
    let e := sectorOf s p
    let weak := s.kps.weak.any (fun w => w / 512 == p)
    let s0 := match bad with
      | some w => modKps s (fun k => { k with badWords := k.badWords ++ [512 * p + w % 512] })
      | none => s
    let uncorr := s0.kps.badWords.any (fun w => w / 512 == p)
    let q := (p + 1) % 2048
    let s1 := modKps s0 (fun k => { k with scrubPos := q, passes := if q = 0 then (k.passes + 1) % 65536 else k.passes })
    if e.state = 2 then s1
    else
      let s2 := if found || weak then lastCorrected s1 p weak else s1
      let s3 := if (found || weak) && e.lastCorrected then sectorCandidate s2 p else s2
      let s4 := if uncorr then lastUncorrectable s3 p else s3
      modSector s4 p (fun x => { x with lastCorrected := found || weak, lastBad := found || weak || uncorr })

/-! ## Fuses (20 R679 to R681) -/

/-- Fuse word `k` as in the shadow. -/
def fuseOf (s : State) (k : Nat) : Word :=
  if k < 128 then Config.fuseWord k ||| Store.get (fun _ => 0#32) s.kps.blown k else 0#32

/-- Word 63 matches the CRC of words 0 to 62 (20 R679). -/
def fuseCrcOk (s : State) : Bool :=
  crc32c ((List.range 63).map (fun k => leBytes 4 (fuseOf s k).toNat)).flatten == (fuseOf s 63).toNat

/-- DEBUG_LOCK is blown (20 R681). -/
def debugLocked (s : State) : Bool := bit (fuseOf s 64) 0

/-- A write of `KPS_FUSE_PROG` (20 R680). -/
def fuseProgramWrite (s : State) (v : Word) : State :=
  let w := fld v 6 0
  let b := fld v 11 7
  if fld v 31 16 = 0x2148 ∧ ((w = 64 ∧ b = 0) ∨ (65 ≤ w ∧ w ≤ 126)) ∧ s.saf.unlocked ∧ s.kps.fuseBusy.isNone then
    modKps s (fun k => { k with fuseBusy := some (w, b) })
  else modKps s (fun k => { k with fuseRefused := true })

/-- A blow ends: a verified bit is in the shadow at once, a failed one is reported (20 R680, R683). -/
def fuseEnd (s : State) (ok : Bool) : State :=
  match s.kps.fuseBusy with
  | none => s
  | some (w, b) =>
    let s1 := modKps s (fun k => { k with fuseBusy := none })
    if ok then modKps s1 (fun k =>
      { k with blown := Store.put (fun _ => 0#32) k.blown w (Store.get (fun _ => 0#32) k.blown w ||| bitAt b true) })
    else modKps s1 (fun k => { k with fuseVerify := true })

/-! ## The register window (20 R683) -/

/-- The word at the window's address: 0, with win_err, where it cannot be read (20 R673). -/
def windowWord (s : State) (hi : Bool) : Word × State :=
  let a := regFld s 0x1C070 22 3 * 8
  if a + 8 ≤ 0x700000 then
    let (r, s1) := lastRead s a 8
    match r with
    | some bs => (BitVec.ofNat 32 (leAt bs (if hi then 4 else 0) 4), s1)
    | none => (0#32, modKps s1 (fun k => { k with winErr := true }))
  else (0#32, modKps s (fun k => { k with winErr := true }))

/-- A read of `KPS_WIN_HI` adds 8 to the address (20 R683). -/
def windowReadHiOp (s : State) : Word × State :=
  let (v, s1) := windowWord s true
  (v, setRegAt s1 0x1C070 ((regAt s1 0x1C070 + 8#32) &&& 0x7FFFF8#32))

end Sys2Proof.Machine
end

