-- ==== Sys2Proof/Machine/Lmm.lean ====
section
/-! DEFINITION. The light memory (03): regions, budgets and requirements, error correction, scrub and bank retirement; and
the slots that change sets leave (04 R146, R147). -/

namespace Sys2Proof.Machine

/-- The light memory's controller changed by `f`. -/
def modLmm (s : State) (f : Lmm → Lmm) : State := { s with lmm := f s.lmm }

/-! ## Slots that change sets leave (04 R133, R146, R147) -/

/-- A slot as a LAYER_SET leaves it: the fill position stays while the resident source stays (04 R147). -/
def setSlot (old new : Slot) : Slot :=
  if old.kind = 1 ∧ new.kind = 1 ∧ old.enabled ∧ old.addr = new.addr ∧ old.format = new.format ∧ old.width = new.width
      ∧ old.height = new.height ∧ old.stride = new.stride then { new with fill := old.fill } else new

/-- A slot after a LAYER_DATA: the fill position advances when the data continues it (04 R146). -/
def fillSlot (sl : Slot) (offset len : Nat) : Slot := if offset = sl.addr + sl.fill then { sl with fill := sl.fill + len } else sl

/-- A set of slots with slot `i` changed. -/
def putSlot (slots : Store Slot) (i : Nat) (sl : Slot) : Store Slot := Store.put (fun _ => Slot.reset) slots i sl

/-- A set of slots after one member of a change set. -/
def applyMember (slots : Store Slot) (m : Member) : Store Slot :=
  let i := dByte m.desc 8 % 128
  match m.desc.opcode with
  | 1 => putSlot slots i (setSlot (slotIn slots i) (slotFromSet m.desc (m.block.getD []) m.range))
  | 2 => putSlot slots i (fillSlot (slotIn slots i) (dNat m.desc 24 4) (dNat m.desc 12 4))
  | _ => slots

/-- A set of slots after the members of a change set, in slot order. -/
def applyMembers (slots : Store Slot) (ms : List Member) : Store Slot := ms.foldl applyMember slots

/-- A change set that has passed its checks and has not been applied. -/
def CsStage.waits : CsStage → Bool
  | .transferring => true
  | .waitLtr => true
  | .validated => true
  | _ => false

/-- A head's slots with every change set applied that has passed its checks (04 R146, R174). -/
def committedSlots (s : State) (h : Head) : Store Slot :=
  ((s.rng.heads.get h).sets.filter (fun c => c.stage.waits)).foldl (fun acc c => applyMembers acc c.members) (s.ly.get h).slots

/-- A change set that is committed and has not been applied, its checks over or not (02 R84, R88). -/
def CsStage.committed : CsStage → Bool
  | .checking => true
  | st => st.waits

/-- The states of the slots that change sets lead through, from `slots` on, in COMMIT fetch order (02 R87, R91). -/
def statesFrom (slots : Store Slot) : List ChangeSet → List (Store Slot)
  | [] => [slots]
  | c :: rest => slots :: statesFrom (applyMembers slots c.members) rest

/-- A head's applied slots, and its slots after each change set in turn that has passed its checks (02 R50, 03 R122). -/
def checkedStates (s : State) (h : Head) : List (Store Slot) :=
  statesFrom (s.ly.get h).slots ((s.rng.heads.get h).sets.filter (fun c => c.stage.waits))

/-- A head's applied slots, and its slots after each committed change set in turn (03 R123, 04 R148, 05 R207). -/
def committedStates (s : State) (h : Head) : List (Store Slot) :=
  statesFrom (s.ly.get h).slots ((s.rng.heads.get h).sets.filter (fun c => c.stage.committed))

/-- A set of slots holds an enabled shadow-source slot. -/
def hasShadow (slots : Store Slot) : Bool := (enabledSlots slots).any (fun i => (slotIn slots i).shadow)

/-- A head's mask is written: its applied state or a committed change set holds a shadow-source slot (05 R207, R209). -/
def maskWanted (s : State) (h : Head) : Bool := (committedStates s (timer s h)).any hasShadow

/-! ## Requirements and budgets (03 R121 to R124) -/

/-- A head runs or is starting. -/
def headRuns (s : State) (h : Head) : Bool := (s.tg.get (timer s h)).state != 0

/-- Slots that a path needs to read its layers and maps: FETCH_x (03 R123, 04 R173). -/
def fetchNeed (s : State) (h path : Head) (t : Timing) (slots : Store Slot) : Nat :=
  let p := pixelsPerPeriod s path t
  ((enabledSlots slots).map (fun i =>
    ceilDiv (p * slotReadBytes s h path (slotIn slots i)) (16 * activeN s path))).foldl (· + ·) 0 + ceilDiv (p * 2) 16

/-- What each head would be judged with: whether it runs, its timing, the slots it composes from and whether its mask is
written. -/
structure HeadPlan where
  runs : Bool
  timing : Timing
  slots : Store Slot
  mask : Bool

/-- The requirement of a client (03 R121, R123, 06 R236). -/
def clientNeed (s : State) (plan : Head → HeadPlan) (c : Nat) : Nat :=
  let per (f : Head → Nat) : Nat := (bothHeads.map (fun h => if (plan h).runs then f h else 0)).foldl (· + ·) 0
  let p (h : Head) : Nat := pixelsPerPeriod s h (plan h).timing
  let scan (h : Head) : Nat := if (plan h).runs then 2 * ceilDiv (p h * 2) 16 else 0
  let fetch (h : Head) : Nat := if (plan h).runs then fetchNeed s (timer s h) h (plan h).timing (plan h).slots else 0
  match c with
  | 0 => scan .a
  | 1 => scan .b
  | 2 => fetch .a
  | 3 => fetch .b
  | 4 => per (fun h => if (plan h).mask then ceilDiv (p h) 16 else 0)
  | 5 => per (fun h => if (flatRun s h (plan h).slots).isEmpty then 0 else ceilDiv (p h * 2) 16)
  | 7 => 16
  | 8 => regFld s 0x04000 14 8 + 16
  | 9 => per (fun h => ceilDiv (p h) 16)
  | 10 => 8
  | 11 => 64
  | _ => 0

/-- The plan of the applied state. -/
def appliedPlan (s : State) (h : Head) : HeadPlan :=
  { runs := headRuns s h, timing := timingOf s h, slots := (s.ly.get (timer s h)).slots, mask := maskWanted s h }

/-- The applied plan of a head with its slots replaced. -/
def planWith (s : State) (slots : Head → Store Slot) (h : Head) : HeadPlan := { appliedPlan s h with slots := slots h }

/-- The slots of both heads in every combination of the applied states and of those that the checked change sets lead
through; one head's states serve both paths in joined mode (03 R122, 04 R178). -/
def slotStates (s : State) : List (Head → Store Slot) :=
  if joined s then (checkedStates s .a).map (fun x _ => x)
  else (checkedStates s .a).flatMap (fun x => (checkedStates s .b).map (fun y h => match h with
    | .a => x
    | .b => y))

/-- The budget of a client in force (03 R122). -/
def budgetOf (s : State) (c : Nat) : Nat := Store.get budgetReset s.lmm.inForce c

/-- The first client, in ID order, whose requirement exceeds its budget in force (03 R124). -/
def budgetFail (s : State) (plan : Head → HeadPlan) : Option Nat := firstIdx 12 (fun c => decide (budgetOf s c < clientNeed s plan c))

/-- A budget as last accepted by its register. -/
def budgetReg (s : State) (c : Nat) : Nat := regFld s (0x04040 + 4 * c) 15 0

/-- The sum of the guaranteed budgets (03 R112). -/
def budgetSum (s : State) : Nat := ((List.range 12).map (budgetReg s)).foldl (· + ·) 0

/-- A write of `LMM_BUDGET_c` (03 R122). -/
def writeBudget (s : State) (c : Nat) (v : Word) : State :=
  let n := fld v 15 0
  if decide (24576 < budgetSum s - budgetReg s c + n) || decide (n < clientNeed s (appliedPlan s) c)
      || (slotStates s).any (fun x => decide (n < clientNeed s (planWith s x) c)) then
    modLmm s (fun m => { m with budgetRefused := true, detail := c })
  else setRegAt s (0x04040 + 4 * c) (v &&& 0x1FFFF#32)

/-! ## Regions (03 R109, R110) -/

/-- Base and size, in units of 64 KiB, of an enabled region word. -/
def rgnUnits (w : Word) : Nat × Nat := (fld w 9 0, if bit w 31 then fld w 25 16 else 0)

/-- A set of region words lies in the logical space without overlaps (03 R109). -/
def regionsOk (word : Nat → Word) : Bool :=
  (List.range 11).all (fun i =>
    let (b, n) := rgnUnits (word i)
    decide (b + n ≤ 480) && (List.range i).all (fun j =>
      let (c, k) := rgnUnits (word j)
      n == 0 || k == 0 || decide (b + n ≤ c) || decide (c + k ≤ b)))

/-- The words that the regions need while heads may be started on them (03 R109): JOURNAL at least 4 units. -/
def regionMinOk (k : Nat) (w : Word) : Bool := k != 9 || decide (4 ≤ (rgnUnits w).2)

/-- A write of `LMM_RGN_k` (03 R109, R113). Of a reserved value in size, which is 0 written with enable set, the size field
alone keeps its value and the written enable takes effect (00 R12; DESIGN CHOICE, log 83). -/
def writeRegion (s : State) (k : Nat) (v : Word) : State :=
  let a := 0x04100 + 4 * k
  let w0 := v &&& 0x83FF03FF#32
  let w1 := if fld w0 9 0 > 479 then merge w0 (regAt s a) (mask 9 0) else w0
  let w := if bit w1 31 && fld w1 25 16 == 0 then merge w1 (regAt s a) (mask 25 16) else w1
  if stopped s .a && stopped s .b && !engineOn s && regionMinOk k w
      && regionsOk (fun j => if j = k then w else regAt s (0x04100 + 4 * j)) then setRegAt s a w
  else modLmm s (fun m => { m with regionRefused := true })

/-- The region that a head's start finds too small (03 R110). -/
def regionFail (s : State) (path : Head) : Option Nat :=
  let n := activeN s path
  let i := Head.idx path
  firstFail
    [ (decide (regionSize s i < 4 * n), i), (decide (regionSize s (4 + i) < n), 4 + i),
      (decide (regionSize s 6 < partOffset path + n / 2), 6), (decide (regionSize s 7 < partOffset path + n / 2), 7),
      (decide (regionSize s 8 < 0x100000 * i + n), 8) ]

/-- The region that holds a byte address (03 R108); 11 when none does. -/
def regionOf (s : State) (a : Nat) : Nat :=
  (firstIdx 11 (fun k => decide (regionBase s k ≤ a) && decide (a < regionBase s k + regionSize s k))).getD 11

/-- The heads that own a byte of the light memory: 0 where it belongs to neither alone (03 R117). -/
def ownersOf (s : State) (a : Nat) : Nat :=
  let k := regionOf s a
  let off := a - regionBase s k
  if k < 6 then k % 2 + 1
  else if k = 6 ∨ k = 7 then (if off < 0x80000 then 1 else 2)
  else if k = 8 then (if off < 0x100000 then 1 else 2)
  else 0

/-- The heads of a mask. -/
def headsOf (m : Nat) : List Head := bothHeads.filter (fun h => nbit m (Head.idx h))

/-! ## Banks and words (03 R105, R106) -/

/-- The logical bank that holds a logical word. -/
def lbankOf (w : Nat) : Nat := 4 * (w / 2 ^ 17) + w % 4

/-- The physical bank in service as a logical bank. -/
def bankServing (s : State) (lb : Nat) : Nat :=
  (firstIdx 64 (fun b => (bankOf s b).state == 1 && (bankOf s b).lbank == lb)).getD 0

/-- The physical bank that holds a logical word. -/
def bankOfWord (s : State) (w : Nat) : Nat := bankServing s (lbankOf w)

/-- The physical bank from which a logical word is read for a head, or for neither alone: once a copy has ended, the spare
from the stitch point of that head on, or of both (03 R129, R130). -/
def bankReading (s : State) (reader : Option Head) (w : Nat) : Nat :=
  let b := bankOfWord s w
  match s.lmm.retire with
  | none => b
  | some r =>
    let moved := match reader with
      | some h => r.switched.get h
      | none => r.switched.a && r.switched.b
    if r.candidate == b && r.ended && moved then r.spare else b

/-- A spare to which a copy has ended. -/
def copyEnded (s : State) (b : Nat) : Bool := match s.lmm.retire with
  | some r => r.spare == b && r.ended
  | none => false

/-- The logical word that a physical word is mapped to, its bank in service or the target of a copy (03 R106, R114). -/
def mappedOf (s : State) (p : Nat) : Option Nat :=
  let b := bankOf s (p / 32768)
  if b.state = 1 ∨ b.state = 2 then some (b.lbank / 4 * 2 ^ 17 + p % 32768 * 4 + b.lbank % 4) else none

/-- The logical word that a physical word holds, while its bank is in service or holds the whole of a copy (03 R106,
R129). -/
def logicalOf (s : State) (p : Nat) : Option Nat :=
  if (bankOf s (p / 32768)).state = 1 ∨ copyEnded s (p / 32768) then mappedOf s p else none

/-- The word of bank `b` that logical word `w` occupies (03 R106). -/
def physicalIn (b w : Nat) : Nat := b * 32768 + w % 2 ^ 17 / 4

/-- The physical word that holds a logical word. -/
def physicalOf (s : State) (w : Nat) : Nat := physicalIn (bankOfWord s w) w

/-- The physical words to which a write of logical word `w` goes: of the bank in service, and of the spare that a copy of it is
made to (03 R129, R130). -/
def physicalsOf (s : State) (w : Nat) : List Nat :=
  physicalOf s w :: (match s.lmm.retire with
    | some r => if r.candidate = bankOfWord s w then [physicalIn r.spare w] else []
    | none => [])

/-- Spares remaining (03 R112). -/
def sparesLeft (s : State) : Nat := (idxWhere 64 (fun b => (bankOf s b).state == 0)).length

/-- The last complete scrub pass found no error in a bank (03 R129). -/
def bankClean (s : State) (b : Nat) : Bool := !((s.lmm.lastPass ++ s.lmm.lastBad).any (fun p => p / 32768 == b))

/-- A bank meets a criterion of 03 R127: a spare becomes RETIRED, which LEDGER records (03 R107), a bank in service becomes
a candidate under the COBBLER policy (03 R127, R128, R131). -/
def bankCandidate (s : State) (b : Nat) : State :=
  let k := bankOf s b
  if k.state = 0 then kpsRequest (modBank s b (fun e => { e with state := 3 })) .ledger
  else if k.state ≠ 1 ∨ k.candidate then s
  else
    let s1 := cblFind (modBank s b (fun e => { e with candidate := true })) 0 b []
    if sparesLeft s1 = 0 then raise s1 3 0 b
    else if cblPolicy s1 0 = 1 then modLmm s1 (fun m => { m with queue := m.queue ++ [b] }) else s1

/-! ## Error correction (03 R115 to R118) -/

/-- The word of `LMM_CORR_ADDR` and `LMM_UNCORR_ADDR`: logical address in [24:4] and physical bank in [30:25]. -/
def eccWord (w b : Nat) : Word := at_ 4 (w % 2 ^ 21) ||| at_ 25 b

/-- The address field for a physical word: the logical word it holds, or a free value where a spare's word holds none
(log 60). -/
def addressOf (s : State) (p : Nat) : Nat × State :=
  match logicalOf s p with
  | some w => (w, s)
  | none => drawBelow s (2 ^ 21)

/-- The bits in error that physical word `p` is stored with, and whether by an injection (03 R116, 15 R544). -/
def storedError (s : State) (p : Nat) : Option (Nat × Bool) := (s.lmm.latent.find? (fun e => e.1 == p)).map Prod.snd

/-- A read finds one bit in error in physical word `p` (03 R116, R127); `scrub` when the scrubber made it. The word stays so
until it is written. The address that a spare's word shows is a free value (log 60). -/
def corrected (s : State) (p : Nat) (scrub : Bool) : State :=
  let b := p / 32768
  let stored := storedError s p
  let (a, s0) := addressOf (raiseInj s 1 0 b ((stored.map Prod.snd).getD false)) p
  let s2 := modLmm s0 (fun m =>
    { m with corrAddr := eccWord a b, latent := if stored.isSome then m.latent else m.latent ++ [(p, 1, false)],
             writeBack := if m.writeBack.contains p then m.writeBack else m.writeBack ++ [p] })
  let s3 := modBank s2 b (fun e => { e with corrected := satAdd 0xFFFF e.corrected 1, passErrors := e.passErrors + 1 })
  let s4 := if scrub then modLmm s3 (fun m => { m with thisPass := p :: m.thisPass }) else s3
  let thr := regFld s4 0x04018 15 0
  if (scrub && s4.lmm.lastPass.contains p) || (thr != 0 && decide (thr ≤ (bankOf s4 b).passErrors)) then bankCandidate s4 b
  else s4

/-- The sweep in progress of a head can no longer be stitched (08 R306). -/
def spoilSweep (s : State) (h : Head) : State := modTg s (timer s h) (fun t => { t with composed := false })

/-- The sweeps of a mask of heads are spoilt. -/
def spoilSweeps (s : State) (m : Nat) : State := (headsOf m).foldl spoilSweep s

/-- The journal is cleared: no outcome is held and a later RESUME acts as FORGET (03 R117, 02 R86). -/
def journalSpoilt (s : State) : State :=
  modRng s (fun g => { g with journalBad := true, heads := { a := { g.heads.a with outcomes := [] },
                                                             b := { g.heads.b with outcomes := [] } } })

/-- An injection of FS01 or FS02 armed for a bank inverts check bits of the first word written there (15 R543): `p` is that
word among those written, if there is one. -/
def injectWord (s : State) (p : Option Nat) : State :=
  match p with
  | some p => spendInj (modLmm s (fun m => { m with latent := m.latent.filter (fun e => e.1 != p) ++ [(p, regFld s 0x12080 9 8, true)] }))
  | none => s

/-- The bank that an injection of FS01 or FS02 is armed for (15 R543). -/
def injBank (s : State) : Option Nat := if injArmed s 1 || injArmed s 2 then some (regFld s 0x12080 27 12) else none

/-- Logical word `w` has been written whole, in every bank that holds it: it is good again, and no write-back of it waits
(03 R116 to R118, 15 R543). -/
def wordWritten (s : State) (w : Nat) : State :=
  let ps := physicalsOf s w
  let s1 := modLmm s (fun m =>
    { m with writeBack := m.writeBack.filter (fun p => !ps.contains p), bad := m.bad.filter (fun x => x != w),
             latent := m.latent.filter (fun e => !ps.contains e.1) })
  match injBank s1 with
  | some b => injectWord s1 (ps.find? (fun p => p / 32768 == b))
  | none => s1

/-- The flatten entry of a path is invalid, and the sweep in progress does not make it valid (04 R172). -/
def flatSpoilt (s : State) (path : Head) : State := modBld s path (fun b => { b with flatValid := false, rebuilding := false })

/-- A word of RESIDENT is found bad: the flatten entries of a head, one slot of whose run it makes not ready, are invalid
(04 R172). -/
def runSpoilt (s : State) (w : Nat) : State :=
  bothHeads.foldl (fun acc x =>
    let h := timer s x
    let slots := (s.ly.get h).slots
    if (flatRun s h slots).any (fun i => inExtent s (slotIn slots i) w) then flatSpoilt acc x else acc) s

/-- Repair by region of a word that cannot be corrected (03 R117); `w` is logical. A word of HEALTH, DOSE, CALIB or JOURNAL is
written anew, one of CALIB that LAST cannot supply staying poisoned (R118); every other reads as uncorrectable until its
writer writes it: the next composition, the rebuild of the flatten entry, the mask of the next frame, or the host. -/
def repairWord (s : State) (w : Nat) : State :=
  let a := 16 * w
  match regionOf s a with
  | 2 => flatSpoilt s .a
  | 3 => flatSpoilt s .b
  | 6 => wordWritten (memWrite s a (List.replicate 16 0xFF#8)) w
  | 7 => wordWritten (memWrite s a (doseReload s (a - regionBase s 7))) w
  | 8 =>
    let b := 0x1B4000 + (a - regionBase s 8)
    if lastReadable s b 16 then wordWritten (memWrite s a (lastBytes s b 16)) w else s
  | 9 => wordWritten (journalSpoilt s) w
  | 10 => runSpoilt s w
  | _ => s

/-- A packet of a tile carries a row from raster line `line` on, or ends a frame that such a row belongs to (10 R370). -/
def fromLine (s : State) (h : Head) (t line : Nat) (p : Packet) : Bool :=
  (p.ptype == 5 && decide (line < tileY s h t + tileH s h t))
    || ((p.ptype == 3 || p.ptype == 4) && decide (line ≤ tileY s h t + leAt p.body 0 2))

/-- The rows from raster line `line` on never leave quantisation: what of them has not left on a lane is withdrawn (10 R374,
log 33). -/
def withdrawRows (s : State) (h : Head) (line : Nat) : State :=
  (served s h).foldl (fun acc x => (enabledTiles s x).foldl (fun a t =>
    modTile a x t (fun e => { e with queue := e.queue.filter (fun p => !fromLine s x t line p) })) acc) s

/-- A row of slot `slot` is late at a raster line: the sweep is abandoned, the frame held, and LAYER_NOT_READY raised once
in the sweep (04 R167, R168, R176). -/
def abandonRow (s : State) (h : Head) (slot line : Nat) : State :=
  let t := s.tg.get h
  if !t.active || !t.full then s
  else
    let s1 := modTg (withdrawRows s h line) h (fun x => { x with composed := false, full := false })
    let first := (s.ly.get h).notReady == 0
    let s2 := modLy s1 h (fun y =>
      { y with late := true, lateSlot := slot, lateLine := line % 4096, holds := satAdd 0xFFFF y.holds 1 })
    if first then raise s2 13 (Head.bitOf h) slot else s2

/-- An uncorrectable word of a path's FLAT or SHMASK region acts as a row delivered late: of the first slot of the flattened
run, or of the shadow-source slot, at the line that the word belongs to (03 R117; which slot of the run is log 61). -/
def rowSpoilt (s : State) (path : Head) (w k : Nat) : State :=
  let h := timer s path
  let slots := (s.ly.get h).slots
  let offset := 16 * w - regionBase s k
  let width := Nat.max 1 (activeW s path)
  if k < 4 then abandonRow s h ((flatRun s h slots).headD 0) (offset / (2 * width))
  else abandonRow s h (((enabledSlots slots).filter (fun i => (slotIn slots i).shadow)).headD 0) (offset / width)

/-- The sweep of a path reads word `w` of its FLAT or SHMASK region `k`: it takes its run from the cache, or it reads the word
for its shadow-source slot. -/
def regionServes (s : State) (path : Head) (w k : Nat) : Bool :=
  let h := timer s path
  if k < 4 then (s.bld.get path).fromCache
  else (enabledSlots (s.ly.get h).slots).any (fun i =>
    let sl := slotOf s h i
    sl.shadow && (slotReads s h path sl (s.tg.get h).pitch).any (fun r => decide (r.1 < 16 * w + 16) && decide (16 * w < r.1 + r.2)))

/-- What is lost by an uncorrectable word (03 R117): the sweep that its region serves is abandoned or not stitched, and a
frame's dose increments for it are lost; of a frame buffer, only where a client's own work read it (`used`). -/
def workSpoilt (s : State) (w : Nat) (used : Bool) : State :=
  let k := regionOf s (16 * w)
  let owners := ownersOf s (16 * w)
  if 2 ≤ k ∧ k < 6 then
    (headsOf owners).foldl (fun acc h => if used || regionServes acc h w k then rowSpoilt acc h w k else acc) s
  else if k = 7 then
    spoilSweeps ((headsOf owners).foldl (fun acc h => modPxc acc h (fun e => { e with lostDose := w :: e.lostDose })) s) owners
  else if k = 10 then
    spoilSweeps s ((bothHeads.filter (fun h => (List.range 8).any (fun i => inExtent s (slotOf s h i) w))).foldl
      (fun m h => m + Head.bitOf h) 0)
  else if used || decide (6 ≤ k) then spoilSweeps s owners
  else s

/-- A read finds a word of bank `b` uncorrectable, which holds logical word `w` or, in a spare, none (03 R117): `used` when a
client's own work read it. Where there is no logical word, its address and region are free values (log 60). -/
def uncorrectable (s : State) (b : Nat) (w : Option Nat) (used injected : Bool) : State :=
  match w with
  | some w =>
    let a := 16 * w
    let s1 := raiseInj s 2 (ownersOf s a) (b + 256 * regionOf s a) injected
    let s2 := modLmm s1 (fun m =>
      { m with uncorrAddr := if bit m.uncorrAddr 31 then m.uncorrAddr else eccWord w b ||| bitAt 31 true,
               bad := if m.bad.contains w then m.bad else m.bad ++ [w] })
    bankCandidate (repairWord (workSpoilt s2 w used) w) b
  | none =>
    let (a, s1) := drawBelow s (2 ^ 21)
    let (k, s2) := drawBelow s1 256
    let s3 := raiseInj s2 2 0 (b + 256 * k) injected
    bankCandidate (modLmm s3 (fun m =>
      { m with uncorrAddr := if bit m.uncorrAddr 31 then m.uncorrAddr else eccWord a b ||| bitAt 31 true })) b

/-- What a read of logical word `w` for a head, or for neither alone, finds in it (03 R115): bits in error as it is stored,
or a word that reads as uncorrectable. -/
def readChecks (s : State) (reader : Option Head) (used : Bool) (w : Nat) : State :=
  let b := bankReading s reader w
  match storedError s (physicalIn b w) with
  | some (2, injected) => uncorrectable s b (some w) used injected
  | some _ => corrected s (physicalIn b w) false
  | none => if s.lmm.bad.contains w then uncorrectable s b (some w) used false else s

/-- The logical words with an error, in any bank that holds them. -/
def errorWords (s : State) : List Nat := (s.lmm.bad ++ s.lmm.latent.filterMap (fun e => logicalOf s e.1)).eraseDups

/-- The words with an error that lie in some ranges of (address, bytes). -/
def errorsIn (s : State) (ranges : List (Nat × Nat)) : List Nat :=
  (errorWords s).filter (fun w => ranges.any (fun r => decide (r.1 < 16 * w + 16) && decide (16 * w < r.1 + r.2)))

/-- A word of some ranges reads as uncorrectable (03 R117, R118). -/
def anyBad (s : State) (ranges : List (Nat × Nat)) : Bool :=
  (errorsIn s ranges).any (fun w =>
    match storedError s (physicalOf s w) with
    | some (n, _) => n == 2
    | none => s.lmm.bad.contains w)

/-- A client reads some ranges of the light memory: every word is checked (03 R115). -/
def clientRead (s : State) (reader : Option Head) (ranges : List (Nat × Nat)) : State :=
  (errorsIn s ranges).foldl (fun acc w => readChecks acc reader true w) s

/-- The words that a write of `n` bytes at `a` covers in part: they are read first (03 R120). -/
def partialWords (a n : Nat) : List Nat :=
  let lo := a / 16
  let hi := (a + n - 1) / 16
  (if a % 16 ≠ 0 ∨ (lo = hi ∧ (a + n) % 16 ≠ 0) then [lo] else []) ++ (if lo ≠ hi ∧ (a + n) % 16 ≠ 0 then [hi] else [])

/-- Bytes are written to words that have been read where they are written in part: a pending write-back is dropped, the words
are good again (03 R116, R118, R120), and an injection armed for their bank is spent (15 R543). -/
def clientPut (s0 : State) (a : Nat) (bs : List Byte) : State :=
  if bs.isEmpty then s0
  else
    let lo := a / 16
    let hi := (a + bs.length - 1) / 16
    let touched (w : Nat) : Bool := decide (lo ≤ w) && decide (w ≤ hi)
    let touchedP (p : Nat) : Bool := match mappedOf s0 p with
      | some w => touched w
      | none => false
    let s1 := modLmm (memWrite s0 a bs) (fun m =>
      { m with writeBack := m.writeBack.filter (fun p => !touchedP p), bad := m.bad.filter (fun w => !touched w),
               latent := m.latent.filter (fun e => !touchedP e.1) })
    match injBank s1 with
    | some b => injectWord s1 ((List.range (hi + 1 - lo)).findSome? (fun k => (physicalsOf s1 (lo + k)).find? (fun p => p / 32768 == b)))
    | none => s1

/-- A client's write of bytes: words written in part are read first (03 R118). -/
def clientWrite (s : State) (a : Nat) (bs : List Byte) : State :=
  if bs.isEmpty then s
  else clientPut ((partialWords a bs.length).foldl (fun acc w => readChecks acc none true w) s) a bs

/-! ## Scrub and budget periods (03 R119, R120, R122) -/

/-- The next physical word in scrub order, retired banks left out (03 R119). -/
def scrubNext (s : State) (p : Nat) : Nat :=
  let q := (p + 1) % 2 ^ 21
  if (bankOf s (q / 32768)).state = 3 then
    ((List.range 64).map (fun k => (q / 32768 + k) % 64)).find? (fun b => (bankOf s b).state != 3) |>.elim q (fun b =>
      if b = q / 32768 then q else b * 32768)
  else q

/-- A pass has ended: its errors become those of the last pass (03 R127, R129). -/
def passEnd (s : State) : State :=
  let s1 := modLmm s (fun m =>
    { m with passes := (m.passes + 1) % 256, lastPass := m.thisPass, thisPass := [], lastBad := m.thisBad, thisBad := [] })
  (List.range 64).foldl (fun acc b => modBank acc b (fun e => { e with passErrors := 0 })) s1

/-- The word that the scrubber reads next, its bank not retired since (03 R119). -/
def scrubWord (s : State) : Nat :=
  if (bankOf s (s.lmm.scrubPos / 32768)).state = 3 then scrubNext s s.lmm.scrubPos else s.lmm.scrubPos

/-- The scrubber finds physical word `p` uncorrectable. -/
def scrubBad (s : State) (p : Nat) (injected : Bool) : State :=
  modLmm (uncorrectable s (p / 32768) (logicalOf s p) false injected) (fun m => { m with thisBad := p :: m.thisBad })

/-- The scrubber reads word `p`: what it finds is an outside input, or the error or poison mark that it is stored with. -/
def scrubRead (s : State) (p : Nat) (errors : List (Nat × Bool)) : State :=
  let w := logicalOf s p
  match errors.find? (fun e => e.1 == p), storedError s p with
  | some (_, true), _ => scrubBad s p false
  | _, some (2, injected) => scrubBad s p injected
  | some (_, false), _ => corrected s p true
  | none, some _ => corrected s p true
  | none, none => if s.lmm.bad.any (fun x => some x == w) then scrubBad s p false else s

/-- The scrubber reads one word and passes on (03 R119): where its place lies in a bank retired since, the pass goes on behind
that bank. -/
def scrubOne (s : State) (errors : List (Nat × Bool)) : State :=
  let p := scrubWord s
  let s0 := if p < s.lmm.scrubPos then passEnd s else s
  let s1 := scrubRead s0 p errors
  let q := scrubNext s1 p
  let s2 := modLmm s1 (fun m => { m with scrubPos := q })
  if q ≤ p then passEnd s2 else s2

/-- The scrubber reads `n` words. -/
def scrubMany (s : State) (errors : List (Nat × Bool)) : Nat → State
  | 0 => s
  | n + 1 => scrubMany (scrubOne s errors) errors n

/-- A budget period begins: accepted budgets come into force, the last period's use is published, and the scrubber reads its
words (03 R119, R120, R122). -/
def periodStart (s : State) (used : List (Nat × Nat)) (errors : List (Nat × Bool)) : State :=
  let s1 := modLmm s (fun m =>
    { m with inForce := (List.range 12).foldl (fun acc c => Store.put budgetReset acc c (budgetReg s c)) m.inForce,
             used := (List.range 12).foldl (fun acc c =>
               let u := used.getD c (0, 0)
               Store.put (fun _ => (0, 0)) acc c (satAdd 0xFFFF u.1 0, satAdd 0xFFFF u.2 0)) m.used })
  if regBit s1 0x04000 0 && !blockStopped s 4 then scrubMany s1 errors (regFld s1 0x04000 14 8) else s1

/-- The oldest queued corrected word is written back: it is stored without error again (03 R116), unless an injection armed
for its bank inverts its check bits (15 R543). -/
def writeBackOne (s : State) : State :=
  match s.lmm.writeBack with
  | [] => s
  | p :: rest =>
    let s1 := modLmm s (fun m => { m with writeBack := rest, latent := m.latent.filter (fun e => e.1 != p) })
    if injBank s1 = some (p / 32768) then injectWord s1 (some p) else s1

/-! ## Retirement (03 R129, R130, R132) -/

/-- A retirement begins for the first waiting candidate onto the lowest clean spare (03 R128, R129); while no spare is
clean, the candidate goes on waiting (DESIGN CHOICE, log 62). -/
def retireStart (s : State) : State :=
  match s.lmm.retire, s.lmm.queue, firstIdx 64 (fun b => (bankOf s b).state == 0 && bankClean s b && !blockStopped s 3) with
  | none, c :: rest, some sp =>
    modBank (modLmm s (fun m =>
      { m with queue := rest, retire := some { candidate := c, spare := sp, ended := false, switched := Pair.both false } })) sp
      (fun e => { e with state := 2, lbank := (bankOf s c).lbank })
  | _, _, _ => s

/-- Both heads have switched: the spare serves, the candidate is retired and the LEDGER is updated (03 R130). -/
def retireFinish (s : State) : State :=
  match s.lmm.retire with
  | none => s
  | some r =>
    if r.ended && r.switched.a && r.switched.b then
      let s1 := modBank s r.spare (fun e => { e with state := 1 })
      let s2 := modBank s1 r.candidate (fun e => { e with state := 3, candidate := false })
      kpsRequest (cblDone (modLmm s2 (fun m => { m with retire := none })) 0 0 r.candidate 1) .ledger
    else s

/-- A head's reads have reached its stitch point (03 R130). -/
def retireSwitch (s : State) (h : Head) : State :=
  match s.lmm.retire with
  | none => s
  | some r =>
    if r.ended then retireFinish (modLmm s (fun m => { m with retire := some { r with switched := r.switched.set h true } }))
    else s

/-- Words with an error that a physical bank in service holds. -/
def errorsOf (s : State) (b : Nat) : List Nat := (errorWords s).filter (fun w => bankOfWord s w == b)

/-- The copier has read every word of bank `b`, each checked (03 R115, R129): a corrected word goes to the spare, and one that
is uncorrectable and not repaired stays so there, by the poison mark. -/
def copierReads (s : State) (b : Nat) : State := (errorsOf s b).foldl (fun acc w => readChecks acc none false w) s

/-- The copier has written every word of spare `b`: each is stored without error, but for the first where an injection is armed
for the bank (03 R129, 15 R543). -/
def copierWrites (s : State) (b : Nat) : State :=
  let s1 := modLmm s (fun m =>
    { m with latent := m.latent.filter (fun e => e.1 / 32768 != b), writeBack := m.writeBack.filter (fun p => p / 32768 != b) })
  if injBank s1 = some b then injectWord s1 (some (32768 * b)) else s1

/-- The copy ends; a stopped head counts as having reached its stitch point (03 R130). -/
def copyEnd (s : State) : State :=
  match s.lmm.retire with
  | none => s
  | some r =>
    if r.ended then s
    else
      let s1 := copierWrites (copierReads s r.candidate) r.spare
      retireFinish (modLmm s1 (fun m =>
        { m with retire := some { r with ended := true, switched := { a := !headRuns s1 .a, b := !headRuns s1 .b } } }))

/-- A reset reach over PD_MEM abandons a copy (03 R132). -/
def retireAbandon (s : State) : State :=
  match s.lmm.retire with
  | none => s
  | some r => modBank (modBank (modLmm s (fun m => { m with retire := none })) r.spare (fun e => { e with state := 0, lbank := 0 }))
      r.candidate (fun e => { e with candidate := false })

end Sys2Proof.Machine
end

