-- ==== Sys2Proof/Machine/Shadow.lean ====
section
/-! DEFINITION. The shadow engine (05): object lists, the projection map, prediction and the mask. -/

namespace Sys2Proof.Machine

/-! ## The projection map (05 R193 to R195) -/

/-- Coordinate `c` (0 x, 1 y) of node (i, j) of a head's map, in 16.16 (05 R213). -/
def node (s : State) (h : Head) (i j c : Nat) : Int :=
  (regAt s (0x21000 + 0x2000 * Head.idx h + (j * 33 + i) * 8 + 4 * c)).toNat

/-- A signed map register of a head. -/
def shdInt (s : State) (h : Head) (off : Nat) : Int := signed 32 (regAt s (shdBase h + off)).toNat

/-- The cross product of (b − a) and (c − a). -/
def cross (a b c : Int × Int) : Int := (b.1 - a.1) * (c.2 - a.2) - (b.2 - a.2) * (c.1 - a.1)

/-- The corners of cell (i, j) in the order of 05 R193. -/
def cellCorners (s : State) (h : Head) (i j : Nat) : List (Int × Int) :=
  [(i, j), (i + 1, j), (i + 1, j + 1), (i, j + 1)].map (fun n => (node s h n.1 n.2 0, node s h n.1 n.2 1))

/-- The cross products of a quadrilateral at its four corners. -/
def cornerCrosses (q : List (Int × Int)) : List Int :=
  let p (k : Nat) : Int × Int := q.getD (k % 4) (0, 0)
  (List.range 4).map (fun k => cross (p k) (p (k + 1)) (p (k + 2)))

/-- Cell (i, j) is convex (05 R193). -/
def cellConvex (s : State) (h : Head) (i j : Nat) : Bool :=
  let cs := cornerCrosses (cellCorners s h i j)
  cs.all (fun c => decide (0 < c)) || cs.all (fun c => decide (c < 0))

/-- Node (i, j) is attributed a failing condition of 05 R193. -/
def nodeFails (s : State) (h : Head) (i j : Nat) : Bool :=
  let w : Int := rasterW s h * 65536
  let v : Int := rasterH s h * 65536
  (decide (0 < i) && decide (node s h i j 0 ≤ node s h (i - 1) j 0))
    || (decide (0 < j) && decide (node s h i (j - 1) 1 ≤ node s h i j 1))
    || (decide (i < 32) && decide (j < 16) && !cellConvex s h i j)
    || (decide (i = 0) && decide (0 < node s h i j 0)) || (decide (i = 32) && decide (node s h i j 0 < w))
    || (decide (j = 0) && decide (node s h i j 1 < v)) || (decide (j = 16) && decide (0 < node s h i j 1))

/-- The outcome of a map check: none where the map holds, else what `SHD_STATUS.node` shows (05 R193). -/
def mapFail (s : State) (h : Head) : Option Nat :=
  if shdInt s h 8 ≤ 0 ∨ shdInt s h 0x10 ≤ 0 then some 1023 else firstIdx 561 (fun k => nodeFails s h (k % 33) (k / 33))

/-- Writing map_valid: 1 checks the map, 0 clears the bit (05 R193). -/
def writeMapCfg (s : State) (h : Head) (v : Word) : State :=
  if bit v 0 then
    match mapFail s h with
    | none => setRegAt s (shdBase h) 1#32
    | some n => modShd { setRegAt s (shdBase h) 0#32 with shdNode := n } h (fun d => { d with mapError := true })
  else setRegAt s (shdBase h) 0#32

/-- The point lies in the convex cell, its edges included. -/
def inCell (q : List (Int × Int)) (c : Int × Int) : Bool :=
  let p (k : Nat) : Int × Int := q.getD (k % 4) (0, 0)
  let cs := (List.range 4).map (fun k => cross (p k) (p (k + 1)) c)
  cs.all (fun x => decide (0 ≤ x)) || cs.all (fun x => decide (x ≤ 0))

/-- The cell of a raster pixel: the lower i, then the lower j (05 R193). -/
def cellOf (s : State) (h : Head) (c : Int × Int) : Option (Nat × Nat) :=
  (((List.range 32).map (fun i => (List.range 16).map (fun j => (i, j)))).flatten).find? (fun n =>
    inCell (cellCorners s h n.1 n.2) c)

/-- The side of the point relative to the line through a + (b − a) k / n and d + (e − d) k / n, all scaled by n. -/
def sideAt (a b d e c : Int × Int) (n k : Int) : Int :=
  let p0 := (a.1 * n + (b.1 - a.1) * k, a.2 * n + (b.2 - a.2) * k)
  let p1 := (d.1 * n + (e.1 - d.1) * k, d.2 * n + (e.2 - d.2) * k)
  cross p0 p1 (c.1 * n, c.2 * n)

/-- The greatest k below `lo + 2^fuel` at which the point has not yet been passed. -/
def bisect (p : Int → Bool) : Nat → Int → Int
  | 0, lo => lo
  | f + 1, lo => if p (lo + 2 ^ f) then bisect p f (lo + 2 ^ f) else bisect p f lo

/-- The place of the point between two opposite sides of its cell in units of 1/n, rounded down, and whether it is exact
(05 R195). -/
def between (a b d e c : Int × Int) (n : Int) : Int × Bool :=
  let s0 := sideAt a b d e c n 0
  let same (k : Int) : Bool :=
    decide (k ≤ n) && (let v := sideAt a b d e c n k
      v == 0 || (decide (0 < v) == decide (0 < s0) && s0 != 0))
  let k := bisect same 32 0
  (k, sideAt a b d e c n k == 0)

/-- An angle within one unit of the exact value (05 R195, log 10). -/
def nearAngle (base : Int) (r : Int × Bool) (inputs : List Int) : Int :=
  let n := Config.angleSlack inputs
  if r.2 then base + r.1 - 1 + (n % 3 : Nat) else base + r.1 + (n % 2 : Nat)

/-- Azimuth and elevation of a raster pixel (05 R195). -/
def pixelAngle (s : State) (h : Head) (x y : Nat) : Option (Int × Int) :=
  let c : Int × Int := (centre x, centre y)
  match cellOf s h c with
  | none => none
  | some (i, j) =>
    match cellCorners s h i j with
    | [n00, n10, n11, n01] =>
      let azs := shdInt s h 8
      let els := shdInt s h 0x10
      let ins := [c.1, c.2, n00.1, n00.2, n10.1, n10.2, n11.1, n11.2, n01.1, n01.2]
      some (nearAngle (shdInt s h 4 + i * azs) (between n00 n10 n01 n11 c azs) (0 :: azs :: ins),
        nearAngle (shdInt s h 0xC + j * els) (between n00 n01 n10 n11 c els) (1 :: els :: ins))
    | _ => none

/-! ## Records (05 R181, R182) -/

/-- Signed 32-bit field at `i` of a record. -/
def recInt (r : List Byte) (i : Nat) : Int := signed 32 (leAt r i 4)

/-- Record `k` of a list. -/
def objRecord (records : List Byte) (k : Nat) : List Byte := (records.drop (48 * k)).take 48

/-- A record breaks 05 R182. -/
def recordBad (r : List Byte) : Bool :=
  decide (4 ≤ byteAt r 2) || (r.drop 39).any (fun b => b != 0#8)
    || decide (recInt r 8 < recInt r 4) || decide (recInt r 16 < recInt r 12)
    || [4, 8, 12, 16].any (fun i => decide (184320 < (recInt r i).natAbs))
    || [20, 24, 28, 32].any (fun i => decide (1048576 < (recInt r i).natAbs))

/-- The first record of a list that breaks 05 R182. -/
def firstBadRecord (records : List Byte) (count : Nat) : Option Nat := firstIdx count (fun k => recordBad (objRecord records k))

/-! ## Prediction and shape (05 R191, R192, R198 to R204) -/

/-- A box drawn: edges left, right, bottom, top, then dark, widths, priority and record index. -/
structure Box where
  l : Int
  r : Int
  b : Int
  t : Int
  dark : Nat
  wh : Nat
  wv : Nat
  prio : Nat
  idx : Nat

/-- A pair of edges that have crossed collapses to its midpoint (05 R192). -/
def uncross (a b : Int) : Int × Int := if b < a then ((a + b) / 2, (a + b) / 2) else (a, b)

/-- The box of a record at prediction interval `dt` ns with growth `g` (05 R191, R192, R202). -/
def boxOf (r : List Byte) (idx : Nat) (dt g : Int) : Box :=
  let mv (e v : Nat) : Int := recInt r e + (if nbit (byteAt r 2) 1 then rhuDiv (recInt r v * dt) (10 ^ 9) else 0)
  let (l, ri) := uncross (mv 4 20 - g) (mv 8 24 + g)
  let (b, t) := uncross (mv 12 28 - g) (mv 16 32 + g)
  { l := l, r := ri, b := b, t := t, dark := byteAt r 36, wh := byteAt r 37 * 16, wv := byteAt r 38 * 16, prio := byteAt r 3,
    idx := idx }

/-- The ramp position of a distance in a soft edge of width `w` (05 R198). -/
def ramp (d : Int) (w : Nat) : Nat :=
  if w = 0 then (if 0 < d then 65536 else 0) else Nat.min 65536 (d.toNat * 65536 / w)

/-- Transmission at ramp position `r` over a dark value (05 R198). -/
def transmission (dark r : Nat) : Nat :=
  let n : Int := 3 * r * r * 65536 - 2 * r * r * r
  dark + ((255 - dark) * (rhuDiv n (2 ^ 32)).toNat + 32768) / 65536

/-- The ramp position of a pixel for a box (05 R198). -/
def boxRamp (o : Box) (a e : Int) : Nat :=
  Nat.max (ramp (max (max (o.l - a) (a - o.r)) 0) o.wh) (ramp (max (max (o.b - e) (e - o.t)) 0) o.wv)

/-- What a box does on a row: the pixels it covers with its transmission there (05 R198, R199). -/
def boxRow (row : List (Option (Int × Int))) (o : Box) : List (Nat × Nat) :=
  ((List.range row.length).filterMap (fun x =>
    match row.getD x none with
    | some (a, e) =>
      let r := boxRamp o a e
      if r < 65536 then some (x, transmission o.dark r) else none
    | none => none))

/-- Insertion by rank: higher priority first, then lower record index (05 R200). -/
def rankInsert (e : Box × List (Nat × Nat)) : List (Box × List (Nat × Nat)) → List (Box × List (Nat × Nat))
  | [] => [e]
  | x :: rest =>
    if e.1.prio > x.1.prio ∨ (e.1.prio = x.1.prio ∧ e.1.idx < x.1.idx) then e :: x :: rest else x :: rankInsert e rest

/-- The spans drawn on a row, at most 32, and whether any were merged (05 R200). -/
def rowSpans (covers : List (Box × List (Nat × Nat))) : List (List (Nat × Nat)) × Bool :=
  if covers.length ≤ 32 then (covers.map Prod.snd, false)
  else
    let ranked := covers.foldl (fun acc e => rankInsert e acc) []
    let rest := ranked.drop 31
    let xs := (rest.map (fun e => e.2.map Prod.fst)).flatten
    let lo := xs.foldl Nat.min (xs.headD 0)
    let hi := xs.foldl Nat.max 0
    let dark := (rest.map (fun e => e.1.dark)).foldl Nat.min 255
    ((ranked.take 31).map Prod.snd ++ [(List.range (hi + 1 - lo)).map (fun k => (lo + k, dark))], true)

/-- A row of the mask from the boxes drawn (05 R199, R200). -/
def maskRow (row : List (Option (Int × Int))) (boxes : List Box) : List Nat × Bool :=
  let covers := (boxes.map (fun o => (o, boxRow row o))).filter (fun e => !e.2.isEmpty)
  let (spans, merged) := rowSpans covers
  let flat := spans.flatten
  ((List.range row.length).map (fun x => (flat.filter (fun e => e.1 == x)).foldl (fun m e => Nat.min m e.2) 255), merged)

/-- Cut-off `k` of the dipped profile (05 R204, 16 R570). -/
def cutOff (block : List Byte) (k : Nat) : Int := signed 32 (leAt block (256 + 4 * k) 4)

/-- Transmission of the dipped mask at an angle (05 R204); 0 while no safety configuration is in force (16 R572). -/
def dippedAt (s : State) (h : Head) (a e : Int) : Nat :=
  match headBlock s h with
  | none => 0
  | some blk =>
    let az0 := shdInt s h 4
    let stp := shdInt s h 8
    let d := a - az0
    let c :=
      if d ≤ 0 ∨ stp ≤ 0 then cutOff blk 0
      else if 32 * stp ≤ d then cutOff blk 32
      else
        let k := (d / stp).toNat
        cutOff blk k + rhuDiv ((cutOff blk (k + 1) - cutOff blk k) * (d - k * stp)) stp
    transmission (byteAt blk 388) (ramp (max (e - c) 0) (byteAt blk 389 * 16))

/-! ## The mask of a sweep (05 R189, R190, R201 to R207) -/

/-- Rows merged and the bytes of one path's mask. -/
structure MaskOut where
  bytes : List Nat
  merged : Nat

/-- The mask of one path: the dipped mask, or the boxes of the list in force (05 R199 to R204). -/
def pathMask (s : State) (h path : Head) (dipped : Bool) (boxes : List Box) : MaskOut :=
  let rows := (List.range (activeH s path)).map (fun y =>
    let row := (List.range (activeW s path)).map (fun x => pixelAngle s h (pathX s path + x) y)
    if dipped then (row.map (fun a => match a with
      | some (az, el) => dippedAt s h az el
      | none => 0), false)
    else maskRow row boxes)
  { bytes := (rows.map Prod.fst).flatten, merged := (rows.filter (fun r => r.2)).length }

/-- Δt of the list in force for an emission centre, none where no list is in force (05 R190, R201). -/
def maskAge (s : State) (h : Head) (emission : Int) : Option Int :=
  ((s.shd.get h).inForce).map (fun l => emission - (l.seconds * 10 ^ 9 + l.nanos : Nat))

/-- The age exceeds a threshold in ms (05 R201). -/
def ageOver (age : Option Int) (ms : Nat) : Bool :=
  match age with
  | none => true
  | some d => decide ((ms : Int) * 10 ^ 6 < d)

/-- The boxes drawn from a list (05 R182, R191, R202). -/
def boxesOf (l : ObjList) (dt g : Int) : List Box :=
  ((List.range l.count).filter (fun k => nbit (byteAt (objRecord l.records k) 2) 0)).map (fun k =>
    boxOf (objRecord l.records k) k dt g)

/-- The shadow engine writes head `h`'s mask for an emission centre in ns, on each of its paths (05 R202 to R207, R212,
16 R550). -/
def buildMask (s : State) (h : Head) (emission : Int) : State :=
  if !maskWanted s h then s
  else
    let age := maskAge s h emission
    let tStale := regFld s (shdBase h + 0x14) 15 0
    let stale := ageOver age tStale
    let dropped := ageOver age (regFld s (shdBase h + 0x18) 15 0)
    let dipped := dropped || (s.saf.heads.get h).degraded
    let dt := age.getD 0
    let g := if stale then rhuDiv (shdInt s h 0x1C * (dt - (tStale : Int) * 10 ^ 6)) (10 ^ 9) else 0
    let boxes := match (s.shd.get h).inForce with
      | some l => boxesOf l dt g
      | none => []
    let outs := (pathsOf s h).map (fun p => (p, pathMask s h p dipped boxes))
    let s1 := outs.foldl (fun acc o => clientWrite acc (regionBase acc (4 + Head.idx o.1)) (o.2.bytes.map (BitVec.ofNat 8))) s
    let merged := (outs.map (fun o => o.2.merged)).foldl (· + ·) 0
    let us := match age with
      | some d => if d < 0 then 0#32 else if 0xFFFFFFFF < d / 1000 then 0xFFFFFFFF#32 else BitVec.ofNat 32 (d / 1000).toNat
      | none => 0xFFFFFFFF#32
    let s2 := modShd s1 h (fun e =>
      { e with age := us, stale := stale, dropped := dipped, merged := satAdd 0xFFFF merged 0,
               mergedMasks := if 0 < merged then satAdd 0xFFFF e.mergedMasks 1 else e.mergedMasks })
    setLevel (setLevel s2 15 (Head.idx h) (Head.bitOf h) 0 stale) 16 (Head.idx h) (Head.bitOf h) 0 dropped

/-- The emission centre predicted at a cut (05 R189). -/
def emissionAt (s : State) (h : Head) : Int :=
  let t := timingOf s h
  let f := frameNs s h t
  (nowNs s + f + t.stitchNs + (f + 1) / 2 : Nat)

/-- The emission centre of a head's first sweep (05 R189): a trigger-started head waits for its comparator's first event at or
after the blanking. -/
def emissionAtStart (s : State) (h : Head) : Int :=
  let t := timingOf s h
  let tr := trigOf s t.trigSel
  if t.trigMode && trigEnabled s t.trigSel then
    let earliest := nowNs s + t.vlines * t.lp * 2 / 256
    let nxt := (tr.next.getD 0) / 65536
    let s1 := if earliest ≤ nxt ∨ tr.period = 0 then nxt
      else nxt + ceilDiv ((earliest - nxt) * 65536) tr.period * tr.period / 65536
    let f := frameNs s h t
    (s1 + (activeH s h * t.lp * 2 + 128) / 256 + t.stitchNs + (f + 1) / 2 : Nat)
  else emissionAt s h

/-! ## Object lists (05 R180 to R187) -/

/-- The first offending field of an OBJECTS descriptor (05 R180, 02 R78). -/
def objectsBad (d : Desc) (h : Head) : Option Nat :=
  minDetail (flagsBad d) (firstFail
    [ (dByte d 8 != Head.idx h, 8), (dByte d 9 > 64, 9),
      ((List.range 6).any (fun k => dByte d (10 + k) != 0), 10 + ((List.range 6).find? (fun k => dByte d (10 + k) != 0)).getD 0),
      (decide (1000000000 ≤ dNat d 20 4), 20), (dNat d 24 8 % 16 != 0, 24), (dNat d 32 4 != dByte d 9 * 48, 32),
      ((firstNonZero d [(40, 20)]).isSome, (firstNonZero d [(40, 20)]).getD 40) ])

/-- Lists held between fetch and completion point (05 R186). -/
def listsHeld (s : State) (h : Head) : Nat := ((s.shd.get h).lists.filter (fun l => decide (l.stage < 2))).length

/-- The 48-bit seconds with given low 32 bits that lie nearest to the counter's (05 R188). -/
def extendSeconds (now low : Nat) : Nat :=
  let base := now / 2 ^ 32 * 2 ^ 32 + low
  let cands := (if 2 ^ 32 ≤ base then [base - 2 ^ 32] else []) ++ [base, base + 2 ^ 32]
  let dist (c : Nat) : Nat := if c < now then now - c else c - now
  (cands.filter (fun c => decide (c < 2 ^ 48))).foldl (fun b c => if dist c < dist b then c else b) (cands.headD base)

/-- The lists of a head changed at one ring slot. -/
def mapList (s : State) (h : Head) (ring slot : Nat) (f : ObjList → ObjList) : State :=
  modShd s h (fun e => { e with lists := e.lists.map (fun l => if l.ring == ring && l.slot == slot then f l else l) })

/-- A list leaves the head's store. -/
def dropList (s : State) (h : Head) (ring slot : Nat) : State :=
  modShd s h (fun e => { e with lists := e.lists.filter (fun l => !(l.ring == ring && l.slot == slot)) })

/-- The list with the later capture time, at equal times the one fetched last (05 R184). -/
def laterList (a b : ObjList) : ObjList :=
  if b.seconds * 10 ^ 9 + b.nanos < a.seconds * 10 ^ 9 + a.nanos then a else b

/-- The validated lists of a head reach their completion point and the latest goes into force (05 R184). -/
def listsApply (s : State) (h : Head) : State :=
  let due := (s.shd.get h).lists.filter (fun l => l.stage == 1)
  match due with
  | [] => s
  | l :: rest =>
    modShd s h (fun e =>
      { e with inForce := some (rest.foldl laterList l),
               lists := e.lists.map (fun x => if x.stage = 1 then { x with stage := 2 } else x) })

/-- A cut has passed: lists applied at an earlier cut belong to the frame now composed (05 R185). -/
def listsCompose (s : State) (h : Head) : State :=
  modShd s h (fun e => { e with lists := e.lists.map (fun x => if x.stage = 2 then { x with stage := 3 } else x) })

/-- Lists shown by a latched frame complete in fetch order (05 R185). -/
def listsComplete (s : State) (h : Head) (fsn time : Word) : State :=
  let done := (s.shd.get h).lists.filter (fun l => l.stage == 3)
  modShd (done.foldl (fun acc l => completeStitch acc l.ring l.slot 0 0 fsn time) s) h
    (fun e => { e with lists := e.lists.filter (fun l => l.stage != 3) })

/-- The head has no cut to wait for: it is STOPPED (08 R298, R734). -/
def noCut (s : State) (h : Head) : Bool := (s.tg.get (timer s h)).state == 0

/-- A list is refused (05 R183, R186). -/
def refuseList (s : State) (h : Head) (ring slot code detail : Nat) : State :=
  completeAt (dropList s h ring slot) ring slot code detail 0#32

/-- A list's read has ended: the checks of 05 R183 in order. -/
def listRead (s : State) (h : Head) (l : ObjList) (d : Desc) (data : HostRead) : State :=
  match data with
  | .failed k => refuseList (hostFails s k) h l.ring l.slot 0x40 0
  | .internalError => refuseList s h l.ring l.slot 0x41 2
  | .data bs0 =>
    let bs := fit (48 * l.count) bs0
    if descFlag d 3 ∧ crc32c bs ≠ dNat d 36 4 then refuseList s h l.ring l.slot 0x30 0
    else
      match firstBadRecord bs l.count with
      | some k => refuseList (modShd s h (fun e => { e with badRecord := k })) h l.ring l.slot 0x10 24
      | none =>
        let sec := extendSeconds (nowSec s) (dNat d 16 4)
        let t := sec * 10 ^ 9 + dNat d 20 4
        let older := match (s.shd.get h).inForce with
          | some f => decide (t < f.seconds * 10 ^ 9 + f.nanos)
          | none => false
        if older then refuseList s h l.ring l.slot 0x24 0
        else if nowSec s * 10 ^ 9 + nowSubNs s + 10 ^ 6 < t then refuseList s h l.ring l.slot 0x10 16
        else
          let s1 := mapList s h l.ring l.slot (fun x =>
            { x with records := bs, seconds := sec, nanos := dNat d 20 4, stage := 1 })
          if noCut s1 h then listsApply s1 h else s1

/-- The read of a list in slot `slot` of its ring ends (05 R183). -/
def listReadDone (s : State) (h : Head) (slot : Nat) (data : HostRead) : State :=
  match (s.shd.get h).lists.find? (fun l => l.slot == slot && l.stage == 0) with
  | none => s
  | some l =>
    match workAt s l.ring l.slot with
    | none => s
    | some w => listRead s h l w.desc data

/-- An OBJECTS descriptor is fetched (05 R180, R183, R212). -/
def objectsFetch (s : State) (ring slot : Nat) (d : Desc) (h : Head) : State :=
  match objectsBad d h with
  | some k => completeAt s ring slot 0x10 k 0#32
  | none =>
    if joined s && h == .b then completeAt s ring slot 0x24 0 0#32
    else
      let l : ObjList := { ring := ring, slot := slot, tag := d.tag, count := dByte d 9, records := [], seconds := 0, nanos := 0,
                           stage := 0 }
      let s1 := modShd s h (fun e => { e with lists := e.lists ++ [l] })
      if l.count = 0 then listRead s1 h l d (.data []) else s1

/-! ## Register writes (05 R194, R206, R209) -/

/-- A write of a map word takes effect only while the head is STOPPED, and clears map_valid (05 R194). -/
def writeMapWord (s : State) (h : Head) (idx : Nat) (v : Word) : State :=
  if stopped s h then setRegAt (setReg s idx v) (shdBase h) 0#32 else s

/-- A write of `SHD_x_TSTALE` or `SHD_x_TDROP` in a session (05 R206). -/
def writeAge (s : State) (h : Head) (drop : Bool) (v : Word) : State :=
  let n := fld v 15 0
  let other := regFld s (shdBase h + (if drop then 0x14 else 0x18)) 15 0
  let ok := if drop then decide (2 ≤ n) && decide (n ≤ 1000) && decide (other < n)
    else decide (1 ≤ n) && decide (n ≤ 1000) && decide (n < other)
  if ok then setRegAt s (shdBase h + (if drop then 0x18 else 0x14)) (BitVec.ofNat 32 n) else s

/-- A write of `SHD_CTRL` (05 R209): a disable is refused while a shadow-source slot is applied or committed. -/
def writeShdCtrl (s : State) (v : Word) : State :=
  let old := regAt s 0x20000
  bothHeads.foldl (fun acc h =>
    let i := Head.idx h
    if bit old i && !bit v i && maskWanted acc h then { acc with shdRefused := true }
    else setRegAt acc 0x20000 (merge (regAt acc 0x20000) v (bitAt i true))) s

end Sys2Proof.Machine
end

