-- ==== Sys2Proof/Machine/Changesets.lean ====
section
/-! DEFINITION. Change sets (02 R84 to R97): members, validation, transfers, the latency tolerance they need (02 R50 to R52),
application at a cut and completion at a stitch. -/

namespace Sys2Proof.Machine

/-! ## Latency tolerance (02 R50 to R52, 04 R164) -/

/-- How long the fetched data of a host-memory slot lasts, in ns (04 R164): lead ÷ span raster lines, each 1 ÷ (Ht × f) with
the free-running rate f (03 R123), which is LP (08 R289). A span of 0 or below divides as 1, and a lead below 0 is 0 (DESIGN
CHOICE, log 59). -/
def slotLasts (s : State) (h path : Head) (sl : Slot) : Nat :=
  let lead := slotAlloc s h path sl * 4096 / slotLineBytes s path sl - sl.vKernel.2
  lead * (timingOf s h).lp * 2 / (256 * Nat.max 1 (vSpan s h path sl).toNat)

/-- How long the data of each enabled host-memory slot lasts, per slot and path that needs a column of it (04 R164, R178). -/
def hostRates (s : State) (h : Head) (slots : Store Slot) : List (Nat × Head × Nat) :=
  ((enabledSlots slots).filter (fun i => (slotIn slots i).kind == 0)).flatMap (fun i =>
    ((pathsOf s h).filter (fun p => (pathCols s h p (slotIn slots i)).2 != 0)).map (fun p =>
      (i, p, slotLasts s h p (slotIn slots i))))

/-- The state as it is, and with each set of timing words in force that a head's TG_COMMIT has validated or holds back for a
message (08 R302). -/
def timingStates (s : State) (h : Head) : List State :=
  let t := s.tg.get (timer s h)
  let held := if t.commitWait then t.checking.toList else []
  s :: (t.pending.toList ++ held).map (fun m => modTg s (timer s h) (fun t => { t with force := m }))

/-- The tolerance that a slot's time leaves, less the margin (02 R50); none is left, 0, where the margin exceeds the time
(DESIGN CHOICE, log 79). -/
def lessMargin (s : State) (ns : Nat) : Nat := ns - regFld s 0x01008 15 0

/-- How long the data of each enabled host-memory slot of a head lasts (02 R50). -/
def slotTimes (s : State) (h : Head) (slots : Store Slot) : List Nat := (hostRates s h slots).map (fun e => e.2.2)

/-- The least of some tolerances. -/
def leastOf : List Nat → Option Nat
  | [] => none
  | x :: xs => some (xs.foldl Nat.min x)

/-- The heads whose slots feed a path: Head A alone in joined mode (04 R178). -/
def slotHeads (s : State) : List Head := if joined s then [.a] else bothHeads

/-- The least time for which the data of a host-memory layer lasts, over what the tiles of either head show, over its applied
state, and over the state of each change set and the timing of each commit that has passed its checks (02 R50, R51, 08 R302). -/
def leastTime (s : State) : Option Nat :=
  leastOf ((slotHeads s).flatMap (fun h =>
    (s.ly.get h).shown.map (fun e => e.2.2)
      ++ (timingStates s h).flatMap (fun x => (checkedStates s h).flatMap (slotTimes x h))))

/-- The tolerance that the host-memory layers need, none without one (02 R50). -/
def toleranceNow (s : State) : Option Nat := (leastTime s).map (lessMargin s)

/-- The PCI Express form of a tolerance: the smallest scale of 32^k ns at which the value fits in 10 bits (02 R52). -/
def ltrForm (ns : Nat) : Nat × Nat :=
  match (List.range 6).find? (fun k => decide (ns / 32 ^ k < 1024)) with
  | some k => (ns / 32 ^ k, k)
  | none => (1023, 5)

/-- A tolerance as its message encodes it, in ns (02 R52). -/
def ltrRound (ns : Nat) : Nat := (ltrForm ns).1 * 32 ^ (ltrForm ns).2

/-- A tolerance message leaves and its spacing begins (02 R49, R52). -/
def sendLtr (s : State) (v : Option Nat) : State :=
  if hostLive s then
    emit { s with hif := { s.hif with ltrLast := v.map ltrRound, ltrSent := satAdd 0xFFFF s.hif.ltrSent 1, ltrHoldoff := true, ltrHeld := none, l1 := false } }
      (.ltr (v.map ltrForm))
  else s

/-- A message's value differs from the last one sent by more than 25 % of it (02 R52). -/
def ltrDiffers (last new : Option Nat) : Bool :=
  match last, new.map ltrRound with
  | none, none => false
  | some l, some n => decide (4 * (if l < n then n - l else l - n) > l)
  | _, _ => true

/-- The new value is lower than the last one sent (02 R51). -/
def ltrLower (last new : Option Nat) : Bool :=
  match last, new.map ltrRound with
  | none, some _ => true
  | some l, some n => decide (n < l)
  | _, none => false

/-- The tolerance has been judged: its layers' least time is noted (02 R51). -/
def ltrJudged (s : State) : State := { s with hif := { s.hif with ltrRate := leastTime s } }

/-- The host-memory layers or their rates may have changed, `changed` saying that they have: a higher tolerance is sent where
it differs enough, or held back by the spacing since the last message and sent as that ends (02 R51, R52; DESIGN CHOICE for
one held back, log 79). -/
def ltrHigher (s : State) (changed : Bool) : State :=
  let tol := toleranceNow s
  let s1 := ltrJudged s
  if (changed || leastTime s != s.hif.ltrRate) && ltrDiffers s.hif.ltrLast tol && !ltrLower s.hif.ltrLast tol then
    if s.hif.ltrHoldoff then { s1 with hif := { s1.hif with ltrHeld := some tol } } else sendLtr s1 tol
  else s1

/-! ## Field checks of a change set (02 R78, R88 step 2, 04 R135, R145, R146) -/

/-- The first offending field of a LAYER_DATA, in byte order, the slot's state taken from `slots` as it will stand when the
data of `done` has been transferred (02 R77, R83, 04 R146). -/
def layerDataBad (s : State) (slots : Store Slot) (done : List Desc) (d : Desc) : Option Nat :=
  let sl := slotIn slots (dByte d 8)
  let off := dNat d 24 4
  let len := dNat d 12 4
  let inFilled := !readyAfter s done sl && decide (sl.addr ≤ off) && decide (off + len ≤ sl.addr + sl.fill)
  minDetail (flagsBad d) (firstFail
    [ (dByte d 8 > 7 || !sl.enabled || sl.kind != 1, 8),
      ((List.range 3).any (fun k => dByte d (9 + k) != 0), 9 + ((List.range 3).find? (fun k => dByte d (9 + k) != 0)).getD 0),
      (len % 16 != 0 || (!inFilled && off == sl.addr + sl.fill && decide (sl.extent < sl.fill + len)), 12),
      (off % 16 != 0 || (!inFilled && off != sl.addr + sl.fill), 24),
      ((firstNonZero d [(32, 28)]).isSome, (firstNonZero d [(32, 28)]).getD 32) ])

/-- The first offending field of a COMMIT beside its count (02 R77). -/
def commitBad (h : Head) (d : Desc) : Option Nat :=
  minDetail (flagsBad d) (firstFail
    [ (dByte d 8 != Head.idx h, 8), ((List.range 3).any (fun k => dByte d (9 + k) != 0), 9 + ((List.range 3).find? (fun k => dByte d (9 + k) != 0)).getD 0),
      ((firstNonZero d [(16, 44)]).isSome, (firstNonZero d [(16, 44)]).getD 16) ])

/-- The slot that a member names. -/
def Member.slotNo (m : Member) : Nat := dByte m.desc 8 % 128

/-- A member breaks the order of 04 R135: one of two LAYER_SETs for a slot, or a LAYER_DATA before the LAYER_SET for its
slot. -/
def orderBad (earlier later : List Member) (m : Member) : Bool :=
  let set (e : Member) : Bool := e.desc.opcode == 1 && e.slotNo == m.slotNo
  (m.desc.opcode == 1 && (earlier.any set || later.any set)) || (m.desc.opcode == 2 && later.any set)

/-- The members that are LAYER_DATA. -/
def dataMembers (ms : List Member) : List Member := ms.filter (fun m => m.desc.opcode == 2)

/-- The LAYER_DATA of the change sets of either head that have passed their checks and are not applied (04 R146, R148). -/
def waitingData (s : State) : List Desc :=
  bothHeads.flatMap (fun h =>
    ((s.rng.heads.get h).sets.filter (fun c => c.stage.waits)).flatMap (fun c => (dataMembers c.members).map Member.desc))

/-- The first offending field of a member between `earlier` and `later` ones, the earlier having left `slots` (02 R57, R78,
R83, R88 step 2). A second shadow-source slot is counted after each member (04 R145; DESIGN CHOICE, log 64). -/
def memberBad (s : State) (h : Head) (slots : Store Slot) (earlier later : List Member) (m : Member) : Option Nat :=
  let order := if orderBad earlier later m then some 8 else none
  match m.desc.opcode with
  | 1 =>
    let after := applyMember slots m
    let second := (slotIn after m.slotNo).shadow && decide (1 < ((enabledSlots after).filter (fun i => (slotIn after i).shadow)).length)
    minDetail order (minDetail (layerSetBad s h m.desc (m.block.getD []) m.range) (if second then some 32 else none))
  | 2 => minDetail order (layerDataBad s slots (waitingData s ++ (dataMembers earlier).map Member.desc) m.desc)
  | 3 => commitBad h m.desc
  | _ => some 0

/-- The first failing member of a change set, in slot order. -/
def membersBad (s : State) (h : Head) (slots : Store Slot) (earlier : List Member) : List Member → Option Nat
  | [] => none
  | m :: rest =>
    match memberBad s h slots earlier rest m with
    | some k => some k
    | none => membersBad s h (applyMember slots m) (earlier ++ [m]) rest

/-- Two byte ranges of RESIDENT overlap. -/
def overlaps (a n b m : Nat) : Bool := decide (0 < n) && decide (0 < m) && decide (a < b + m) && decide (b < a + n)

/-- A LAYER_DATA destination lies in light memory that a set of slots reads: the whole extent of a resident slot that is
ready, or will be once the data of `done` has been transferred (02 R88 step 7, 04 R148). -/
def destRead (s : State) (done : List Desc) (slots : Store Slot) (d : Desc) : Bool :=
  (enabledSlots slots).any (fun i =>
    let sl := slotIn slots i
    readyAfter s done sl && overlaps (dNat d 24 4) (dNat d 12 4) sl.addr sl.extent)

/-- Step 6 of 02 R88: the first client whose requirement exceeds its budget, with the capacity check at client 6's place
(03 R111, R124). The other head stands in any state that its checked change sets lead through. -/
def budgetCheck (s : State) (h : Head) (slots : Store Slot) (ms : List Member) : Option Nat :=
  let plan (x : Head → Store Slot) (g : Head) : HeadPlan :=
    let p := planWith s x g
    if timer s g = timer s h then { p with slots := slots, mask := p.mask || hasShadow slots } else p
  let cap := (dataMembers ms).any (fun m => decide (regionSize s 10 < dNat m.desc 24 4 + dNat m.desc 12 4))
  firstIdx 12 (fun c => (slotStates s).any (fun x => decide (budgetOf s c < clientNeed s (plan x) c)) || (c == 6 && cap))

/-- The slots that a head's earlier committed change sets leave for the one in check. -/
def slotsBefore (s : State) (h : Head) : Store Slot := committedSlots s h

/-- Step 1 of 02 R88, and the head that joined mode gives no change sets (04 R178): its REFUSED_STATE goes to a COMMIT that
passes its own DCRC and carries the next CSN, which `RNG_CSN_B` takes, and comes before the members' DCRC and the count (DESIGN
CHOICE, log 85). -/
def structureFail (s : State) (h : Head) (ms : List Member) : Option (Nat × Nat) :=
  if joined s && h == .b then some (0x24, 0)
  else if ms.any (fun m => !m.dcrcOk) then some (0x11, 0)
  else
    match ms.getLast? with
    | some c => if dNat c.desc 12 4 ≠ ms.length then some (0x10, 63) else none
    | none => some (0x10, 63)

/-- A stopping head has passed the cut of its last sweep (08 R299). -/
def lastCutPassed (s : State) (h : Head) : Bool :=
  let t := s.tg.get (timer s h)
  t.state == 3 && !t.active

/-- Step 7 of 02 R88 for one member: a slot reads its destination, in the applied state or in a committed change set of
either head, the set in check and those after it apart (04 R148). -/
def destTaken (s : State) (h : Head) (m : Member) : Bool :=
  bothHeads.any (fun x =>
    let states := if x = timer s h then checkedStates s x else committedStates s x
    destRead s [] (s.ly.get x).slots m.desc || states.tail.any (fun slots => destRead s (waitingData s) slots m.desc))

/-- Steps 2 (field values) to 7 of 02 R88: status and detail of the first check that fails. -/
def checksFail (s : State) (h : Head) (ms : List Member) : Option (Nat × Nat) :=
  let before := slotsBefore s h
  match membersBad s h before [] ms with
  | some k => some (0x10, k)
  | none =>
    let after := applyMembers before ms
    if lastCutPassed s h then some (0x23, 0)
    else if nbit (headBlockByte s h 391) 0 && !hasShadow after then some (0x22, 0)
    else
      match lineBufFail s h after with
      | some i => some (0x20, i)
      | none =>
        match budgetCheck s h after ms with
        | some c => some (0x21, c)
        | none =>
          if (dataMembers ms).any (destTaken s h) then some (0x10, 24) else none

/-! ## Completion and replay (02 R86, R92) -/

/-- Replayed COMMITs of a CSN complete by the outcome held (02 R86). -/
def replayComplete (s : State) (ms : List Member) (o : Outcome86) : State :=
  if o.code = 0 then completeSet s ms 1 0 false o.fsn o.time else completeSet s ms o.code o.detail true o.fsn o.time

/-- The CSN of a list of members: their COMMIT's. -/
def csnOf (ms : List Member) : Word := match ms.getLast? with
  | some m => m.desc.csn
  | none => 0#32

/-- A change set has an outcome: it is journalled and the replays that wait for it complete (02 R86). -/
def recordOutcome (s : State) (h : Head) (o : Outcome86) : State :=
  let rh := s.rng.heads.get h
  let due := rh.replays.filter (fun ms => csnOf ms == o.csn)
  let s1 := modRngHead s h (fun e =>
    { e with outcomes := (o :: e.outcomes).take 256, replays := e.replays.filter (fun ms => !(csnOf ms == o.csn)) })
  due.foldl (fun acc ms => replayComplete acc ms o) s1

/-- A committed change set leaves with a status, and completes at once (02 R92). -/
def closeSet (s : State) (h : Head) (c : ChangeSet) (code detail : Nat) (fsn time : Word) : State :=
  let s1 := modRngHead s h (fun e => { e with sets := e.sets.filter (fun x => !(x.csn == c.csn)) })
  recordOutcome (completeSet s1 c.members code detail false fsn time) h
    { csn := c.csn, code := code, detail := detail, fsn := fsn, time := time }

/-- A change set is refused or aborted: FSN zero, the time at which its completion is formed (02 R81). Where a lower tolerance
was sent for it, the one that is needed without it is sent (02 R50; at its refusal: DESIGN CHOICE, log 79). -/
def refuseSet (s : State) (h : Head) (c : ChangeSet) (code detail : Nat) : State :=
  let (t, s1) := stampHost s
  ltrHigher (closeSet s1 h c code detail 0#32 t) false

/-! ## Application (01 R25, R28 to R30, 02 R91, 08 R298) -/

/-- One change set of a head changed. -/
def mapSet (s : State) (h : Head) (csn : Word) (f : ChangeSet → ChangeSet) : State :=
  modRngHead s h (fun e => { e with sets := e.sets.map (fun c => if c.csn == csn then f c else c) })

/-- The flattened run of a path is fixed anew and its entry invalidated where a slot of it changed (04 R172, 06 R233). -/
def flatSettle (s : State) (h : Head) (old : Store Slot) : State :=
  let slots := (s.ly.get (timer s h)).slots
  let run := flatRun s h slots
  let same := run.length == (s.bld.get h).flatRun && run.all (fun i => slotIn old i == slotIn slots i)
  modBld s h (fun b => { b with flatRun := run.length, flatValid := b.flatValid && same })

/-- Every fully validated change set of a head is applied, in COMMIT fetch order (02 R91). -/
def setsApply (s : State) (h : Head) : State :=
  let rh := s.rng.heads.get h
  let due := rh.sets.filter (fun c => c.stage == .validated)
  let old := (s.ly.get h).slots
  let s1 := modLy s h (fun y => { y with slots := due.foldl (fun acc c => applyMembers acc c.members) y.slots })
  let s2 := modRngHead s1 h (fun e =>
    { e with sets := e.sets.map (fun c => if c.stage == .validated then { c with stage := .applied } else c) })
  (served s2 h).foldl (fun acc x => flatSettle acc x old) s2

/-- The sweep composed with the applied change sets has ended (01 R29): the times of its host-memory slots are
noted. -/
def setsCompose (s : State) (h : Head) : State :=
  modRngHead (modLy s h (fun y => { y with swept := hostRates s h y.slots })) h (fun e =>
    { e with sets := e.sets.map (fun c => if c.stage == .applied then { c with stage := .composed } else c) })

/-- The change sets first shown by a latched frame complete in COMMIT fetch order (01 R30, 02 R92). -/
def setsComplete (s : State) (h : Head) (fsn time : Word) : State :=
  let done := (s.rng.heads.get h).sets.filter (fun c => c.stage == .composed)
  done.foldl (fun acc c =>
    closeSet (modRngHead acc h (fun e => { e with csnApplied := c.csn })) h c 0 0 fsn time) s

/-- A change set becomes fully validated (02 R90): refused where its stopping head has no cut left (08 R299), applied at once
where its head is STOPPED (08 R298). -/
def setValidated (s : State) (h : Head) (c : ChangeSet) : State :=
  if lastCutPassed s h then refuseSet s h c 0x23 0
  else
    let s1 := mapSet s h c.csn (fun x => { x with stage := .validated })
    if noCut s1 h then setsApply s1 h else s1

/-- The transfers of a change set have ended (02 R90). -/
def setMoved (s : State) (h : Head) (c : ChangeSet) : State :=
  if c.ltr.isSome then mapSet s h c.csn (fun x => { x with stage := .waitLtr }) else setValidated s h c

/-- The checks of a change set have passed: a lower tolerance is sent or held back (02 R51, R52), and its transfers begin
(02 R89). -/
def setChecked (s : State) (h : Head) (c : ChangeSet) : State :=
  let s1 := mapSet s h c.csn (fun x => { x with stage := .transferring })
  let tol := toleranceNow s1
  let changes := hostRates s h (committedSlots s h) != hostRates s h (committedSlots s1 h)
  let need := changes && ltrLower s1.hif.ltrLast tol && ltrDiffers s1.hif.ltrLast tol
  let hold := need && s1.hif.ltrHoldoff
  let s2 := if need && !hold then sendLtr s1 tol
    else if hold then mapSet { s1 with hif := { s1.hif with ltrHeld := some tol } } h c.csn (fun x => { x with ltr := tol })
    else s1
  let c2 := if hold then { c with ltr := tol } else c
  let s3 := ltrJudged s2
  if (dataMembers c.members).isEmpty then setMoved s3 h c2 else s3

/-- The first member whose parameter block has still to be read (02 R88 step 2). -/
def nextBlock (ms : List Member) : Option Nat :=
  firstIdx ms.length (fun i => match ms[i]? with
    | some m => m.desc.opcode == 1 && dByte m.desc 8 < 128 && blockNamed m.desc && m.block.isNone
    | none => false)

/-- The members of a change set take the leveling range that the register holds as their set is checked (04 R175). -/
def rangeTaken (s : State) (h : Head) (c : ChangeSet) : ChangeSet :=
  { c with members := c.members.map (fun m => { m with range := regFld s (lyBase h + 8) 7 0 }) }

/-- The change set of a head that is in check: the earliest of those that have not passed their checks (02 R88). -/
def inCheck (s : State) (h : Head) : Option ChangeSet := (s.rng.heads.get h).sets.find? (fun c => c.stage == .checking)

/-- The earliest committed change set of a head that is still in check goes on as far as it can (02 R88); a later one of that
head is checked when the earlier one has left its checks (DESIGN CHOICE, log 65). -/
def setsCheck : Nat → State → Head → State
  | 0, s, _ => s
  | n + 1, s, h =>
    match inCheck s h with
    | none => s
    | some c0 =>
      let c := rangeTaken s h c0
      match structureFail s h c.members with
      | some (code, detail) => setsCheck n (refuseSet s h c code detail) h
      | none =>
        if (nextBlock c.members).isSome then s
        else
          match checksFail s h c.members with
          | some (code, detail) => setsCheck n (refuseSet s h c code detail) h
          | none => setsCheck n (setChecked (mapSet s h c.csn (fun _ => c)) h c) h

/-- The change set that a command of a head and CSN concerns. -/
def setOf (s : State) (h : Head) (csn : Word) : Option ChangeSet := (s.rng.heads.get h).sets.find? (fun c => c.csn == csn)

/-- Member `i` of a change set changed. -/
def mapMember (c : ChangeSet) (i : Nat) (f : Member → Member) : ChangeSet :=
  { c with members := (List.range c.members.length).filterMap (fun k =>
      (c.members[k]?).map (fun m => if k = i then f m else m)) }

/-- The read of a parameter block ends (02 R88 step 2). -/
def blockRead (s : State) (h : Head) (csn : Word) (i : Nat) (data : HostRead) : State :=
  match inCheck s h with
  | none => s
  | some c =>
    if c.csn ≠ csn ∨ nextBlock c.members ≠ some i ∨ !hostReads s then s
    else
      match c.members[i]?, data with
      | some m, .data bs0 =>
        let bs := fit (dNat m.desc 40 4) bs0
        if descFlag m.desc 3 ∧ crc32c bs ≠ dNat m.desc 44 4 then setsCheck 17 (refuseSet s h c 0x30 (i % 64)) h
        else setsCheck 17 (mapSet s h csn (fun x => mapMember x i (fun y => { y with block := some bs }))) h
      | some _, .failed k => setsCheck 17 (refuseSet (hostFails s k) h c 0x40 0) h
      | some _, .internalError => setsCheck 17 (refuseSet s h c 0x41 2) h
      | none, _ => s

/-- Every transfer of a change set has ended. -/
def allMoved (c : ChangeSet) : Bool := (dataMembers c.members).all (fun m => m.moved)

/-- A LAYER_DATA transfer ends (02 R89, 04 R170). -/
def transferEnd (s : State) (h : Head) (csn : Word) (i : Nat) (data : HostRead) : State :=
  match setOf s h csn with
  | none => s
  | some c =>
    if c.stage ≠ .transferring ∨ !hostReads s then s
    else
      match c.members[i]?, data with
      | some m, .data bs0 =>
        if m.desc.opcode ≠ 2 ∨ m.moved then s
        else
          let bs := fit (dNat m.desc 12 4) bs0
          let s1 := clientWrite s (regionBase s 10 + dNat m.desc 24 4) bs
          if descFlag m.desc 3 ∧ crc32c bs ≠ dNat m.desc 28 4 then
            refuseSet (raise s1 14 (Head.bitOf h) (dByte m.desc 8)) h c 0x30 (i % 64)
          else
            let c2 := mapMember c i (fun y => { y with moved := true })
            let s2 := mapSet s1 h csn (fun _ => c2)
            if allMoved c2 then setMoved s2 h c2 else s2
      | some m, .failed k => if m.desc.opcode ≠ 2 ∨ m.moved then s else refuseSet (hostFails s k) h c 0x40 0
      | some m, .internalError => if m.desc.opcode ≠ 2 ∨ m.moved then s else refuseSet s h c 0x41 2
      | none, _ => s

/-- The change sets that waited for a tolerance message are fully validated (02 R52). -/
def setsAfterLtr (s : State) : State :=
  bothHeads.foldl (fun acc h =>
    let due := (acc.rng.heads.get h).sets.filter (fun c => c.stage == .waitLtr)
    let acc1 := modRngHead acc h (fun e => { e with sets := e.sets.map (fun c => { c with ltr := none }) })
    due.foldl (fun a c => setValidated a h { c with ltr := none }) acc1) s

/-- The spacing since the last tolerance message ends: the tolerance held back goes out where it still differs (02 R52), and
the change sets that waited for it are fully validated. -/
def ltrExpiry (s : State) : State :=
  let s1 := { s with hif := { s.hif with ltrHoldoff := false } }
  match s1.hif.ltrHeld with
  | none => s1
  | some _ =>
    let tol := toleranceNow s1
    setsAfterLtr (if ltrDiffers s1.hif.ltrLast tol then sendLtr s1 tol else { s1 with hif := { s1.hif with ltrHeld := none } })

/-- A higher tolerance is sent at the stitch at which a change set of timer `h` takes effect (02 R51, R52); within the spacing
since the last message it is held back and sent as that ends (DESIGN CHOICE, log 79). -/
def ltrAtStitch (s : State) (h : Head) : State :=
  ltrHigher (modLy s h (fun e => { e with shown := e.swept })) ((s.ly.get h).shown != (s.ly.get h).swept)

/-! ## Members and COMMIT (02 R76, R84 to R87, R97) -/

/-- The CSN of an open change set: that of its first member whose check passed (02 R76, R84). -/
def openCsn (ms : List Member) : Option Word := (ms.find? (fun m => m.dcrcOk)).map (fun m => m.desc.csn)

/-- The open change set of a head is discarded, and RING_PROTOCOL raised (02 R85). -/
def discardSet (s : State) (h : Head) (ring : Nat) : State :=
  let ms := (s.rng.heads.get h).opened
  protocolError (completeMembers (modRngHead s h (fun e => { e with opened := [] })) ms 2) ring

/-- A COMMIT has been fetched for members `ms`, itself the last (02 R86). One that fails its DCRC leaves `RNG_CSN_x` and the
outcomes as they are (DESIGN CHOICE, log 66). -/
def commitFetched (s : State) (h : Head) (ms : List Member) (c : Member) : State :=
  let rh := s.rng.heads.get h
  let (t, s1) := stampHost s
  let back := (rh.csn - c.desc.csn).toNat
  if !c.dcrcOk then completeSet s1 ms 0x11 0 false 0#32 t
  else if c.desc.csn = rh.csn + 1#32 then
    setsCheck 17 (modRngHead s h (fun e =>
      { e with csn := c.desc.csn, sets := e.sets ++ [{ csn := c.desc.csn, members := ms, stage := .checking, ltr := none }] })) h
  else if back < 255 then
    match rh.outcomes.find? (fun o => o.csn == c.desc.csn) with
    | some o => replayComplete s ms o
    | none =>
      if rh.sets.any (fun x => x.csn == c.desc.csn) then modRngHead s h (fun e => { e with replays := e.replays ++ [ms] })
      else completeSet s1 ms 0x10 63 false 0#32 t
  else completeSet s1 ms 0x10 63 false 0#32 t

/-- A member joins the open change set of its head, judged by 02 R85, or meets an abort (02 R97). A member that fails its DCRC
while an abort runs belongs to the aborted set, and as its COMMIT ends the abort, whatever CSN it reads (DESIGN CHOICE,
log 67). -/
def memberFetch (s : State) (h : Head) (m : Member) : State :=
  let rh := s.rng.heads.get h
  let isCommit := m.desc.opcode == 3
  match rh.abortCsn with
  | some a =>
    if !m.dcrcOk || m.desc.csn == a then
      let s1 := completeMembers s [m] 3
      if isCommit then modRngHead s1 h (fun e => { e with abortCsn := none }) else s1
    else if isCommit then commitFetched (modRngHead s h (fun e => { e with abortCsn := none })) h [m] m
    else modRngHead s h (fun e => { e with abortCsn := none, opened := [m] })
  | none =>
    let other := match openCsn rh.opened with
      | some x => m.dcrcOk && m.desc.csn != x
      | none => false
    let s1 := if other then discardSet s h m.ring else s
    let ms := (s1.rng.heads.get h).opened ++ [m]
    if isCommit then commitFetched (modRngHead s1 h (fun e => { e with opened := [] })) h ms m
    else
      let s2 := modRngHead s1 h (fun e => { e with opened := ms })
      if 256 ≤ ms.length then discardSet s2 h m.ring else s2

/-- ABORT acts on a committed change set before its completion point (02 R95, R97). -/
def abortSet (s : State) (h : Head) (c : ChangeSet) : State := setsCheck 17 (refuseSet s h c 3 0) h

/-- ABORT acts on the open change set of a head (02 R97). Where every member of it failed its DCRC, no CSN of it is known, and
the abort ends with the members fetched so far (DESIGN CHOICE, log 82). -/
def abortOpen (s : State) (h : Head) (ms : List Member) : State :=
  completeMembers (modRngHead s h (fun e => { e with opened := [], abortCsn := openCsn ms })) ms 3

end Sys2Proof.Machine
end

