-- ==== Sys2Proof/Machine/Tiles.lean ====
section
/-! DEFINITION. The Tablan link to the pixel tiles (10): packets, acknowledgement and replay, records, configuration,
forwarding, husk patterns, the capacity check, and the health of pixels that the records report (07 R265 to R282). -/

namespace Sys2Proof.Machine

/-- LNA's or LNB's base address (21 R685). -/
def lnBase (h : Head) : Nat := 0x09000 + 0x1000 * Head.idx h

/-- Symbols per 10 µs of a head's lanes (09 R318). -/
def symbolRate (s : State) (h : Head) : Nat :=
  match regFld s (lnBase h) 1 0 with
  | 0 => 1250
  | 1 => 2500
  | _ => 3125

/-! ## Packets (10 R367 to R372) -/

/-- Packing code of a head's links (10 R410). -/
def packingOf (s : State) (h : Head) : Nat := regFld s (tblBase h) 1 0

/-- Bits per pixel of a packing code (10 R370). -/
def packBits (code : Nat) : Nat := match code with
  | 0 => 8
  | 1 => 12
  | _ => 16

/-- Bytes of a pixel row of `w` codes (10 R372). -/
def rowBytes (w code : Nat) : Nat := w * packBits code / 8

/-- Codes packed two by two into three bytes (10 R372). -/
def pack12 : List Nat → List Byte
  | [] => []
  | [a] => leBytes 2 a
  | a :: b :: rest => leBytes 3 (a % 4096 + 4096 * (b % 4096)) ++ pack12 rest

/-- A row of codes in a PIXELS body (10 R372). -/
def packRow (code : Nat) (cs : List Nat) : List Byte :=
  match code with
  | 0 => cs.map (fun c => BitVec.ofNat 8 c)
  | 1 => pack12 cs
  | _ => (cs.map (leBytes 2)).flatten

/-- Type codes of packets to a tile that belong to a frame (10 R369). -/
def Packet.ofFrame (p : Packet) : Bool := decide (2 ≤ p.ptype) && decide (p.ptype ≤ 5)

/-- A packet's bytes on the lane: header, body and CRC, the link epoch folded in (10 R367, R368). -/
def packetBytes (s : State) (h : Head) (t seq : Nat) (p : Packet) : List Byte :=
  let header := [BitVec.ofNat 8 p.ptype, BitVec.ofNat 8 (t + 8 * Head.idx h), BitVec.ofNat 8 seq, 0#8]
    ++ leBytes 2 p.fsn ++ leBytes 2 p.body.length
  let epoch := if p.ptype = 1 then 0 else (tileOf s h t).epoch
  header ++ p.body ++ leBytes 4 (crc32cFold 2 epoch (header ++ p.body))

/-- A packet leaves on the lane that carries its tile, where that sends its link layer's symbols (10 R367, 09 R346,
R348). -/
def emitPacket (s : State) (h : Head) (t seq : Nat) (p : Packet) : State :=
  let l := carrierOf s h t
  let bytes := packetBytes s h t seq p
  sendSymbols (if laneCarries s (laneIndex h l) then emit s (.packet h l bytes) else s) (laneIndex h l) (packetSymbols bytes)

/-- A tile's stream can send: its epoch stands, its path is ACTIVE and fewer than 16 packets are unacknowledged (10 R379). -/
def mayPump (s : State) (h : Head) (t : Nat) : Bool :=
  linkLive s h && (tileOf s h t).epoch != 0 && pathActive s h t && decide ((tileOf s h t).unacked.length < 16)

/-- Packets of a tile's stream leave while the window lets them, each with the next number (10 R378, R379). -/
def pump : Nat → State → Head → Nat → State
  | 0, s, _, _ => s
  | n + 1, s, h, t =>
    match (tileOf s h t).queue with
    | [] => s
    | p :: rest =>
      if mayPump s h t then
        let seq := (tileOf s h t).txSeq
        let s1 := emitPacket s h t seq p
        pump n (modTile s1 h t (fun e =>
          { e with queue := rest, unacked := e.unacked ++ [(seq, p)], txSeq := (seq + 1) % 256 })) h t
      else s

/-- Packets are added to a tile's stream. -/
def sendPackets (s : State) (h : Head) (t : Nat) (ps : List Packet) : State :=
  pump 16 (modTile s h t (fun e => { e with queue := e.queue ++ ps })) h t

/-- Base address of the frame buffer half of number `b` (03 R106, log 31). -/
def frameBase (s : State) (path : Head) (b : Nat) : Nat := regionBase s (Head.idx path) + b * (2 * activeN s path)

/-- The bytes of a frame buffer half that hold row `row` of a tile. -/
def rowRange (s : State) (h : Head) (t b row : Nat) : Nat × Nat :=
  (frameBase s h b + 2 * ((tileY s h t + row) * activeW s h + tileX s h t), 2 * tileW s h t)

/-- What a replay of packets reads of a head's output buffer: the rows that they carry, of the back buffer until the stitch of
their frame and of the front buffer from then on (10 R374, R381, 03 R121). -/
def replayReads (s : State) (h : Head) (t : Nat) (ps : List Packet) : List (Nat × Nat) :=
  (ps.filter (fun p => p.ptype == 3 || p.ptype == 4)).map (fun p =>
    let front := (s.tg.get (timer s h)).front
    rowRange s h t (if p.fsn = (s.tg.get h).fsn.toNat % 65536 then front else 1 - front) (leAt p.body 0 2))

/-- Every unacknowledged packet of a tile whose path can carry it is sent again, read from the output buffer, and counted
(10 R381, 03 R115). -/
def replayAll (s : State) (h : Head) (t : Nat) : State :=
  let us := (tileOf s h t).unacked
  if pathActive s h t && linkLive s h && laneCarries s (laneIndex h (carrierOf s h t)) then
    let s0 := clientRead s (some h) (replayReads s h t (us.map Prod.snd))
    modTile (us.foldl (fun acc u => emitPacket acc h t u.1 u.2) s0) h t (fun e =>
      { e with replayed := satAdd 0xFFFF e.replayed us.length })
  else s

/-- Every packet of the frame in a tile's stream has been acknowledged (08 R306). -/
def frameAcked (s : State) (h : Head) (t : Nat) : Bool :=
  let e := tileOf s h t
  !(e.queue.any Packet.ofFrame) && !(e.unacked.any (fun u => u.2.ofFrame))

/-! ## Configuration (10 R370, R401) -/

/-- fwd_en of tile `t`: its partner travels through it, or did until the switch back is done (10 R404, R406). -/
def fwdEnable (s : State) (h : Head) (t : Nat) : Bool := nbit (s.tbl.get h).forwarders t

/-- Byte 5 of a CONFIG body (10 R370). -/
def configFlags (s : State) (h : Head) (t : Nat) : Nat :=
  b2n (fwdEnable s h t) + 2 * b2n (viaPartner s h t) + 4 * b2n (regBit s (tblBase h) 2)

/-- The CONFIG body of tile `t` under an epoch (10 R370). -/
def configBody (s : State) (h : Head) (t epoch : Nat) : List Byte :=
  fit 16 (leBytes 2 epoch ++ [BitVec.ofNat 8 (t + 8 * Head.idx h), BitVec.ofNat 8 (packingOf s h),
    BitVec.ofNat 8 (depthOf s h), BitVec.ofNat 8 (configFlags s h t)] ++ leBytes 2 (tileW s h t) ++ leBytes 2 (tileH s h t))

/-- The bytes of a CONFIG body that call for a new epoch when they change (10 R401). -/
def configKey (body : List Byte) : List Byte := (body.drop 2).take 3 ++ (body.drop 6).take 4

/-- The first epoch from `e` on that is not among some, `n` steps on at most; zero is never one. -/
def epochPast (avoid : List Nat) : Nat → Nat → Nat
  | 0, e => e
  | n + 1, e => if avoid.contains e then epochPast avoid n (e % 65535 + 1) else e

/-- A new epoch for a tile: a free value that is never zero and differs from the head's previous one, from the tile's own and
from the one that its STATUS shows (10 R368, R401, log 3). -/
def newEpoch (s : State) (h : Head) (t : Nat) : Nat × State :=
  let (k, s1) := drawBelow s 65535
  let e := epochPast [(s1.tbl.get h).epoch, (tileOf s1 h t).epoch, (tileOf s1 h t).shownEpoch] 3 (k + 1)
  (e, modTbl s1 h (fun b => { b with epoch := e }))

/-- CONFIG with a new epoch: both streams of the tile start afresh, and frame packets not yet acknowledged are sent again
under it (10 R378, R401). -/
def sendConfig (s : State) (h : Head) (t : Nat) : State :=
  let (e, s1) := newEpoch s h t
  let body := configBody s1 h t e
  let p : Packet := { ptype := 1, fsn := 0, body := body }
  let s2 := emitPacket s1 h t 0 p
  modTile s2 h t (fun x =>
    { x with epoch := e, config := body, configWait := true, txSeq := 1, rxSeq := 1, unacked := [(0, p)],
             queue := (x.unacked.map Prod.snd).filter Packet.ofFrame ++ x.queue })

/-- CONFIG with the current epoch, which updates byte 5 alone (10 R401). -/
def updateConfig (s : State) (h : Head) (t : Nat) : State :=
  let body := configBody s h t (tileOf s h t).epoch
  sendPackets (modTile s h t (fun x => { x with config := body })) h t [{ ptype := 1, fsn := 0, body := body }]

/-- The CONFIG that a tile's settings call for: a new epoch where the map, the packing or the depth differ, the current
one where byte 5 alone does (10 R397, R401, R404). -/
def reconfigTile (s : State) (h : Head) (t : Nat) : State :=
  let e := tileOf s h t
  if e.epoch = 0 ∨ !tileEnabled s h t ∨ !pathAligned s h t ∨ !linkLive s h then s
  else
    let body := configBody s h t e.epoch
    if configKey body ≠ configKey e.config then sendConfig s h t
    else if body ≠ e.config then updateConfig s h t
    else s

/-- Every tile of a head is brought to its settings, forwarders first (10 R404). -/
def reconfigure (s : State) (h : Head) : State :=
  let ts := (List.range 8).filter (fwdEnable s h) ++ (List.range 8).filter (fun t => !fwdEnable s h t)
  ts.foldl (fun acc t => reconfigTile acc h t) s

/-- A tile whose path is aligned and whose STATUS shows UNCONFIG or another epoch gets CONFIG with a new epoch, unless the
CONFIG of the last one is still being repeated (10 R401, log 30). -/
def configIfAsked (s : State) (h : Head) (t : Nat) : State :=
  let e := tileOf s h t
  if tileEnabled s h t && pathAligned s h t && linkLive s h && e.fresh && !e.configWait
      && (e.state == 0 || e.shownEpoch != e.epoch || e.epoch == 0) then sendConfig s h t
  else s

/-- Capability bits of a tile (10 R371 byte 12). -/
def tileCaps (s : State) (h : Head) (t : Nat) : Nat := fld (tileOf s h t).info 22 16

/-- A tile's capabilities and size cover its CONFIG (10 R377, R401). -/
def tileCovers (s : State) (h : Head) (t : Nat) : Bool :=
  nbit (tileCaps s h t) (packingOf s h) && nbit (tileCaps s h t) (4 + regFld s (lnBase h) 1 0)
    && decide (tileW s h t ≤ (tileOf s h t).maxW) && decide (tileH s h t ≤ (tileOf s h t).maxH)

/-- A tile is link-ready (10 R401). -/
def linkReady (s : State) (h : Head) (t : Nat) : Bool :=
  let e := tileOf s h t
  pathAligned s h t && e.fresh && !e.configWait && e.epoch != 0 && e.shownEpoch == e.epoch
    && (e.state == 1 || e.state == 2 || e.state == 3) && tileCovers s h t

/-! ## Husk patterns (10 R393, 19 R651, R652) -/

/-- Run-length data decoded (19 R651). -/
def runLength : List Byte → List Byte
  | [] => []
  | [_] => []
  | n :: c :: rest => List.replicate (n.toNat + 1) c ++ runLength rest

/-- Header of the HUSKPAT entry at an offset, as read (19 R651). -/
def huskHeader (bytes : List Byte) : Nat × Nat × Nat × Nat × Nat :=
  (leAt bytes 0 2, leAt bytes 2 2, leAt bytes 4 2, leAt bytes 8 4, leAt bytes 12 4)

/-- The decoded pattern of the HUSKPAT entry at offset `off`, with W, H and its CRC (19 R651). -/
def huskEntry (s : State) (off : Nat) : Nat × Nat × Nat × List Byte :=
  let base := regionStart 7 + off
  let (enc, w, hh, crc, len) := huskHeader (lastBytes s base 16)
  let data := lastBytes s (base + 16) (Nat.min len (regionBytes 7))
  (w, hh, crc, fit (w * hh) (if enc = 0 then data else runLength data))

/-- HUSK_LOAD for every row of a pattern (10 R370). -/
def huskLoads (pattern w : Nat) (rows : List Byte) (n : Nat) : List Packet :=
  (List.range n).map (fun y =>
    { ptype := 6, fsn := 0, body := [BitVec.ofNat 8 pattern, 0#8] ++ leBytes 2 y ++ (rows.drop (y * w)).take w })

/-- HUSK_CHECK of a pattern (10 R370). -/
def huskCheck (pattern crc : Nat) : Packet :=
  { ptype := 7, fsn := 0, body := [BitVec.ofNat 8 pattern, 0#8, 0#8, 0#8] ++ leBytes 4 crc }

/-- The whole load of a pattern from a HUSKPAT entry (10 R393, 19 R652). -/
def huskPackets (s : State) (pattern off : Nat) : List Packet :=
  let (w, hh, crc, rows) := huskEntry s off
  huskLoads pattern w rows hh ++ [huskCheck pattern crc]

/-- A husk load is on its way to a tile. -/
def huskLoading (s : State) (h : Head) (t : Nat) : Bool :=
  let e := tileOf s h t
  e.queue.any (fun p => p.ptype == 6 || p.ptype == 7) || e.unacked.any (fun u => u.2.ptype == 6 || u.2.ptype == 7)

/-- The HUSKPAT offset of the entry of pattern `p` of a tile: that of its last LOAD_TILES record. Where none has named one,
the spec does not say which entry it is, and the offset is a free value (log 73). -/
def huskOffset (s : State) (h : Head) (t p : Nat) : Nat × State :=
  match Store.get (fun _ => 0) (s.tbl.get h).huskAt (p * 8 + t) with
  | 0 =>
    let (k, s1) := drawBelow s (regionBytes 7 / 16)
    (16 * k, s1)
  | k + 1 => (k, s)

/-- The tile runs: it is READY, SHOWING, HUSK or DARK under an epoch of its own (10 R371, R393). -/
def tileRuns (s : State) (h : Head) (t : Nat) : Bool :=
  let e := tileOf s h t
  pathActive s h t && e.fresh && e.epoch != 0 && decide (1 ≤ e.state) && decide (e.state ≤ 4)

/-- Patterns that a running tile reports as invalid are loaded again (10 R393). -/
def autoHusk (s : State) (h : Head) (t : Nat) : State :=
  if regBit s (tblBase h) 4 && tileRuns s h t && linkLive s h && !huskLoading s h t then
    (List.range 4).foldl (fun acc p =>
      if nbit (tileOf s h t).patterns p then acc
      else
        let (off, a1) := huskOffset acc h t p
        sendPackets a1 h t (huskPackets a1 p off)) s
  else s

/-! ## Records (10 R382, R394 to R399) -/

/-- The CRC of a record of a type under an epoch (10 R367, R368). -/
def recordCrc (h : Head) (t ptype epoch : Nat) (r : TileRecord) : Nat :=
  crc32cFold 2 epoch ([BitVec.ofNat 8 ptype, BitVec.ofNat 8 (t + 8 * Head.idx h), BitVec.ofNat 8 r.seq, 0#8]
    ++ leBytes 2 r.fsn ++ leBytes 2 r.body.length ++ r.body)

/-- The epochs under which a record of a tile is taken: the tile's; zero while it is UNCONFIG or has shown no STATUS; and for
a STATUS the epoch that it names, zero in UNCONFIG (10 R368; DEDUCED, log 69). -/
def recordEpochs (s : State) (h : Head) (t ptype : Nat) (r : TileRecord) : List Nat :=
  let e := tileOf s h t
  if ptype = 0x82 then [if byteAt r.body 6 = 0 then 0 else leAt r.body 14 2]
  else (tileOf s h t).epoch :: (if e.state = 0 ∨ !e.fresh then [0] else [])

/-- A record passes 10 R364 and R368. -/
def recordGood (s : State) (h : Head) (t ptype : Nat) (r : TileRecord) : Bool :=
  r.symbols && (recordEpochs s h t ptype r).any (fun e => recordCrc h t ptype e r == r.crc.toNat)

/-- A tile's records reach the link layer: its path is aligned, and the lane takes neither its own groups nor a PRBS pattern
(09 R329, R345, R348). -/
def pathHears (s : State) (h : Head) (t : Nat) : Bool :=
  let l := laneIndex h (carrierOf s h t)
  pathAligned s h t && laneLoop s l != 1 && laneLoop s l != 2 && laneChk s l == 0

/-- Quarters of lane `l`'s record buffer in use. -/
def rxFillOf (s : State) (h : Head) (l : Nat) : Nat := Store.get (fun _ => 0) (s.tbl.get h).rxFill l

/-- The record buffer of a lane is found `fill` quarters full (10 R383). -/
def bufferFills (s : State) (h : Head) (l fill : Nat) : State :=
  modTbl s h (fun b => { b with rxFill := Store.put (fun _ => 0) b.rxFill l fill })

/-- The tile of a lane whose record buffer a record has filled to three quarters, not so full in `s0` before it, is paused, for
a number of slots that is a free value (10 R383, log 70). What the record makes due of HUSK and DARK has gone before, and
packets come after (10 R365). -/
def pauseDue (s0 : State) (h : Head) (t : Nat) (s : State) : State :=
  let l := carrierOf s0 h t
  if 3 ≤ rxFillOf s h l ∧ rxFillOf s0 h l < 3 ∧ laneCarries s (laneIndex h l) then
    let (n, s1) := drawBelow s 255
    sendSymbols (emit s1 (.pause h l (n + 1))) (laneIndex h l) [special 23 7, dataSymbol (n + 1)]
  else s

/-- A record of a type arrives: its lane's buffer fills, a bad one is counted, and a gap in the numbers is counted (10 R382,
R383). Answers whether it is taken. -/
def recordIn (s : State) (h : Head) (t ptype : Nat) (r : TileRecord) : Bool × State :=
  if !linkLive s h || !decide (t < 8) || !pathHears s h t then (false, s)
  else
    let s1 := bufferFills s h (carrierOf s h t) r.fill
    if !recordGood s h t ptype r then (false, modTile s1 h t (fun e => { e with bad := satAdd 0xFFFF e.bad 1 }))
    else
      (true, modTile s1 h t (fun e =>
        { e with rxSeq := (r.seq + 1) % 256,
                 lostRecords := if e.epoch ≠ 0 ∧ r.seq ≠ e.rxSeq then satAdd 0xFFFF e.lostRecords 1 else e.lostRecords }))

/-- ACK: packets below the next expected number leave the window, and a NAK replays the rest (10 R380, R381). -/
def ackRecord (s : State) (h : Head) (t : Nat) (r : TileRecord) : State :=
  let (ok, s0) := recordIn s h t 0x81 r
  let s1 := pauseDue s h t s0
  if !ok then s1
  else
    let us := (tileOf s1 h t).unacked
    let first := (us.headD ((tileOf s1 h t).txSeq, { ptype := 0, fsn := 0, body := [] })).1
    let k := (byteAt r.body 0 + 256 - first) % 256
    let s2 := if k ≤ us.length then modTile s1 h t (fun e => { e with unacked := us.drop k }) else s1
    if nbit (byteAt r.body 1) 0 then
      pump 16 (replayAll (modTile s2 h t (fun e => { e with naks := satAdd 0xFFFF e.naks 1 })) h t) h t
    else pump 16 s2 h t

/-- The replay timer of a tile's oldest unacknowledged packet runs out (10 R381). -/
def replayTimer (s : State) (h : Head) (t : Nat) : State :=
  if (tileOf s h t).unacked.isEmpty || !linkLive s h then s else replayAll s h t

/-- A tile of a head that runs. -/
def headRunning (s : State) (h : Head) : Bool := (s.tg.get (timer s h)).state == 2 || (s.tg.get (timer s h)).state == 3

/-- STATUS (10 R371, R394, R401). -/
def statusRecord (s : State) (h : Head) (t : Nat) (r : TileRecord) : State :=
  let (ok, s1) := recordIn s h t 0x82 r
  if !ok then pauseDue s h t s1
  else
    let b := r.body
    let old := tileOf s1 h t
    let st := byteAt b 6 % 8
    let ep := leAt b 14 2
    let faults := byteAt b 13 % 16
    let s2 := modTile s1 h t (fun e =>
      { e with id := BitVec.ofNat 32 (leAt b 0 4),
               info := BitVec.ofNat 32 (byteAt b 4 + 256 * byteAt b 5 + 65536 * (byteAt b 12 % 128)),
               maxW := leAt b 8 2, maxH := leAt b 10 2, state := st, patterns := byteAt b 7 % 16, faults := faults,
               shownEpoch := ep, fresh := true, stale := false,
               configWait := e.configWait && !(ep == e.epoch && st != 0) })
    let newFault := (List.range 4).any (fun i => nbit faults i && !nbit old.faults i)
    let strange := headRunning s2 h && tileEnabled s2 h t && (st == 0 || ep != old.epoch)
    let s3 := pauseDue s h t (if newFault || strange then raise s2 26 (Head.bitOf h) t else s2)
    autoHusk (configIfAsked s3 h t) h t

/-- No STATUS has arrived for 20 ms, nor has the path of the tile come into service: a tile whose path is below ACTIVE raises
nothing, though its last STATUS is then as old (10 R394, R401). -/
def statusGone (s : State) (h : Head) (t : Nat) : State :=
  if !linkLive s h || !decide (t < 8) then s
  else if tileEnabled s h t && pathActive s h t && !(tileOf s h t).stale then
    raise (modTile s h t (fun e => { e with stale := true, fresh := false })) 26 (Head.bitOf h) t
  else modTile s h t (fun e => { e with fresh := false })

/-- TEMP (10 R395). -/
def tempRecord (s : State) (h : Head) (t : Nat) (r : TileRecord) : State :=
  let (ok, s1) := recordIn s h t 0x84 r
  if !ok then pauseDue s h t s1
  else
    let v := leAt r.body 0 2
    let th := signed 16 (regFld s1 (tblBase h + 0x10) 15 0)
    let hot := decide (th < signed 16 v)
    let was := (tileOf s1 h t).tooHot
    let s2 := modTile s1 h t (fun e =>
      { e with temperature := v, tempGone := false, tooHot := if hot then true else if signed 16 v < th then false else e.tooHot })
    pauseDue s h t (if hot && !was then raise s2 29 (Head.bitOf h) t else s2)

/-- No TEMP has arrived for 20 ms (10 R395). -/
def tempGone (s : State) (h : Head) (t : Nat) : State :=
  if linkLive s h && decide (t < 8) then modTile s h t (fun e => { e with temperature := 0x8000, tempGone := true }) else s

/-! ## Pixel health (07 R265 to R268, R280 to R282) -/

/-- The byte of the health map that holds pixel `p`, as (address, bytes). -/
def healthPlace (s : State) (h : Head) (p : Nat) : Nat × Nat := (regionBase s 6 + partOffset h + p / 2, 1)

/-- The health states of some pixels are read by TBL or PXC as a client (03 R115). -/
def healthRead (s : State) (h : Head) (ps : List Nat) : State := clientRead s (some h) (ps.map (healthPlace s h))

/-- Health state of pixel `p`, whose word has been read, written by TBL or PXC as a client (10 R396). -/
def putHealth (s : State) (h : Head) (p v : Nat) : State :=
  let a := (healthPlace s h p).1
  let b := (memGet s a).toNat
  clientPut s a [BitVec.ofNat 8 (if p % 2 = 0 then b / 16 * 16 + v else b % 16 + 16 * v)]

/-- Health state of pixel `p` written by TBL or PXC as a client, its word read first (10 R396, 03 R115). -/
def writeHealth (s : State) (h : Head) (p v : Nat) : State := putHealth (healthRead s h [p]) h p v

/-- SUSPECT state of a result 1 LOW, 2 OPEN, 3 SHORT (07 R265). -/
def suspectOf (res : Nat) : Nat := 7 + res

/-- Confirmed state of a result (07 R265). -/
def confirmedOf (res : Nat) : Nat := match res with
  | 1 => 1
  | 2 => 3
  | _ => 5

/-- The state that a probe result gives a pixel (07 R265). -/
def probeState (st res : Nat) : Nat :=
  if isDark st then st
  else if res = 0 then (if st = 1 ∨ st = 2 then st else 0)
  else if st = 1 ∨ st = 2 then (if res = 1 then st else suspectOf res)
  else if st = suspectOf res then confirmedOf res
  else suspectOf res

/-- The target of a pixel proposal or candidate: its head and tile (20 R677). -/
def pixelTarget (s : State) (h : Head) (p : Nat) : Nat :=
  256 * Head.idx h + (tileAt s h (p % activeW s h) (p / activeW s h)).getD 0

/-- Under CONSENT a proposal opens for the confirmed pixels of a head that await a mark, if none is open (07 R281). -/
def pixelPropose (s : State) (h : Head) : State :=
  let ps := (s.pxc.heads.get h).awaiting
  if cblPolicy s 3 = 2 ∧ (proposalOf s 3).isNone ∧ !ps.isEmpty then
    let low := (ps.map Prod.fst).foldl Nat.min ((ps.headD (0, 0)).1)
    cblFind (modPxc s h (fun e => { e with awaiting := [] })) 3 (pixelTarget s h low) ps
  else s

/-- A pixel is newly confirmed: COBBLER marks it, proposes it or reports it (07 R281, 20 R677). -/
def pixelCandidate (s : State) (h : Head) (p st : Nat) : State :=
  match cblPolicy s 3 with
  | 1 => cblFind (modPxc s h (fun e => { e with marks := e.marks ++ [(p, st, 0)] })) 3 (pixelTarget s h p) []
  | 2 =>
    let s1 := modPxc s h (fun e => { e with awaiting := e.awaiting ++ [(p, st)] })
    if (proposalOf s1 3).isNone then pixelPropose s1 h else raise s1 56 0 (3 * 4096 + pixelTarget s h p)
  | _ => cblFind s 3 (pixelTarget s h p) []

/-- Dark defects in the aligned 16 × 16 block that holds a pixel (07 R267). -/
def blockDefects (s : State) (h : Head) (x y : Nat) : Nat :=
  ((List.range 256).filter (fun k =>
    let bx := x / 16 * 16 + k % 16
    let by_ := y / 16 * 16 + k / 16
    decide (bx < activeW s h) && decide (by_ < activeH s h) && isDark (healthAt s h bx by_))).length

/-- The pixels whose states decide whether a dark defect makes a cluster (07 R267). -/
def clusterPixels (s : State) (h : Head) (x y : Nat) : List Nat :=
  ((neighbours s h x y ++ (List.range 256).map (fun k => (x / 16 * 16 + k % 16, y / 16 * 16 + k / 16))).filter (fun q =>
    decide (q.1 < activeW s h) && decide (q.2 < activeH s h))).map (fun q => q.2 * activeW s h + q.1)

/-- A dark defect makes a cluster (07 R267). -/
def clusters (s : State) (h : Head) (x y : Nat) : Bool :=
  (neighbours s h x y).any (fun n => isDark (healthAt s h n.1 n.2))
    || decide (regFld s (pxcBase h + 0x18) 7 0 < blockDefects s h x y)

/-- One probe result of a pixel of tile `t` (07 R265, R267, R281). -/
def applyProbe (s : State) (h : Head) (t x y res : Nat) : State :=
  let p := y * activeW s h + x
  let s0 := healthRead s h [p]
  let st := healthOf s0 h p
  let new := probeState st res
  if new = st then s0
  else
    let s1 := putHealth s0 h p new
    if new = 1 ∨ new = 3 ∨ new = 5 then
      let s2 := raise (if isDark new then healthRead s1 h (clusterPixels s1 h x y) else s1) 27 (Head.bitOf h) t
      let s3 := if isDark new && clusters s2 h x y then raise s2 28 (Head.bitOf h) t else s2
      pixelCandidate s3 h p new
    else s1

/-- Pixels that have no probe result younger than 2 s, counting from the head's start where none has come (07 R280): ages
are of 4 ns TIME cycles, which no write to the time counter moves. -/
def overdueOf (s : State) (h : Head) (x y : Nat) : Bool :=
  let p := y * activeW s h + x
  let last := Nat.max (Store.get (fun _ => 0) (s.pxc.heads.get h).probed p) (s.pxc.heads.get h).startCycle
  decide (2 * 10 ^ 9 < 4 * (s.tim.cycles - last))

/-- HEALTH (10 R371, R396). -/
def healthRecord (s : State) (h : Head) (t : Nat) (r : TileRecord) : State :=
  let (ok, s1) := recordIn s h t 0x83 r
  if !ok then pauseDue s h t s1
  else
    let row := leAt r.body 0 2
    let col := leAt r.body 2 2
    pauseDue s h t <| (List.range (leAt r.body 4 2)).foldl (fun acc k =>
      let b := byteAt r.body (8 + k / 2)
      let v := if k % 2 = 0 then b % 16 else b / 16
      let x := tileX acc h t + col + k
      let y := tileY acc h t + row
      if nbit v 2 && tileHolds acc h t x y then
        let acc1 := modPxc acc h (fun e =>
          { e with probed := Store.put (fun _ => 0) e.probed (y * activeW acc h + x) acc.tim.cycles })
        if regBit acc1 (tblBase h) 3 then applyProbe acc1 h t x y (v % 4) else acc1
      else acc) s1

/-- COBBLER's marks of a head at its stitch point: up to 64 whose pixels are still in the state they were made for
(07 R282). -/
def applyMarks (s : State) (h : Head) : State :=
  let s0 := healthRead s h ((s.pxc.heads.get h).marks.map Prod.fst)
  let ms := (s0.pxc.heads.get h).marks.filter (fun m => healthOf s0 h m.1 == m.2.1)
  let s1 := modPxc s0 h (fun e => { e with marks := ms.drop 64 })
  (ms.take 64).foldl (fun acc m =>
    cblDone (putHealth acc h m.1 (m.2.1 + 1)) 3 m.2.2 (pixelTarget acc h m.1) 1) s1

/-- `PXC_x_HCLR`: a pixel or the whole head returns to NO_REPORT (07 R265, R285). -/
def clearHealth (s : State) (h : Head) (v : Word) : State :=
  if !pixLive s || !memLive s then s
  else if bit v 31 then
    (List.range (activeN s h)).foldl (fun acc p => writeHealth acc h p 15) s
  else if fld v 20 0 < activeN s h then writeHealth s h (fld v 20 0) 15
  else s

/-! ## Echo (01 R33, 10 R398, R399) -/

/-- The echo source of a head. -/
def echoSource (h : Head) : Nat := 21 + Head.idx h

/-- A drive code in a frame buffer half. -/
def codeAt (s : State) (path : Head) (b x y : Nat) : Nat := mem16 s (frameBase s path b + pixelAt s path x y)

/-- The codes of a tile's row in a frame buffer half. -/
def tileRow (s : State) (h : Head) (t b row : Nat) : List Nat :=
  (List.range (tileW s h t)).map (fun x => codeAt s h b (tileX s h t + x) (tileY s h t + row))

/-- The CV2148's own echo CRC of a tile's area (10 R398). -/
def echoCrc (s : State) (h : Head) (t b : Nat) (f : Word) : Word :=
  BitVec.ofNat 32 (crc32c (leBytes 4 f.toNat
    ++ (((List.range (tileH s h t)).map (tileRow s h t b)).flatten.map (leBytes 2)).flatten))

/-- An echo does not match (01 R33). -/
def echoBad (s : State) (h : Head) (t : Nat) (injected : Bool) : State :=
  raiseInj (modTile s h t (fun e => { e with mismatched := satAdd 0xFFFF e.mismatched 1, snapMismatched := true, echoWait := none }))
    (echoSource h) (Head.bitOf h) t injected

/-- ECHO (10 R398, R399). -/
def echoRecord (s : State) (h : Head) (t : Nat) (r : TileRecord) : State :=
  let (ok, s1) := recordIn s h t 0x85 r
  pauseDue s h t <| match ok, (tileOf s1 h t).echoWait with
  | true, some (f, crc) =>
    let g := BitVec.ofNat 32 (leAt r.body 0 4)
    if g ≠ f then echoBad s1 h t false
    else
      let s2 := modTile s1 h t (fun e => { e with lastEcho := g })
      if BitVec.ofNat 32 (leAt r.body 4 4) = crc then modTile s2 h t (fun e => { e with echoWait := none, snapMatched := true })
      else echoBad s2 h t (tileOf s2 h t).echoInjected
  | _, _ => s1

/-- The echo deadline of a tile passes with no echo (10 R399). -/
def echoLate (s : State) (h : Head) (t : Nat) : State :=
  if (tileOf s h t).echoWait.isSome then
    raise (modTile s h t (fun e => { e with missing := satAdd 0xFFFF e.missing 1, snapMissing := true, echoWait := none }))
      (echoSource h) (Head.bitOf h) t
  else s

/-- The light memory that the echo CRC of a tile is computed from: its rows of the front buffer (10 R398, 03 R115). -/
def echoReads (s : State) (h : Head) (t b : Nat) : List (Nat × Nat) := (List.range (tileH s h t)).map (rowRange s h t b)

/-- No ECHO is awaited while echo_en is clear (10 R399). -/
def echoesDrop (s : State) (h : Head) : State :=
  if regBit s (tblBase h) 2 then s
  else (List.range 8).foldl (fun acc t => modTile acc h t (fun e => { e with echoWait := none })) s

/-! ## The capacity check (10 R376, R377) -/

/-- R: rows probed per frame of a tile (07 R278). -/
def probeRows (s : State) (h : Head) (t : Timing) (tile : Nat) : Nat :=
  let f := regFld s (pxcBase h + 0x14) 9 0 * 1000000 * 65536 / Nat.max 1 (frameUnits s h t)
  if f = 0 then tileH s h tile else ceilDiv (tileH s h tile) f

/-- Symbols of one row of a tile (10 R376). -/
def rowSymbols (s : State) (h : Head) (tile : Nat) : Nat := rowBytes (tileW s h tile) (packingOf s h) + 18

/-- S(y) for the tiles that a lane carries (10 R376). -/
def laneSymbols (s : State) (h : Head) (t : Timing) (tiles : List Nat) (y : Nat) : Nat :=
  (tiles.map (fun c =>
    46 + 22 + probeRows s h t c * (ceilDiv (tileW s h c) 4 + 18)
      + rowSymbols s h c * (tileY s h c + tileH s h c - Nat.max y (tileY s h c)))).foldl (· + ·) 0

/-- The margin of 10 R376 at line `y`, in units of 1 / 1,280,000 symbol. -/
def lineMargin (s : State) (h : Head) (t : Timing) (tiles : List Nat) (y : Nat) : Int :=
  let lim : Int := (activeH s (timer s h) * t.lp + t.delay * 256 : Nat) - 20000 * 128
  (symbolRate s h : Int) * (lim - ((y + 1) * t.lp : Nat)) - 1408000 * (laneSymbols s h t tiles y : Nat)

/-- The worst margin over the active lines. -/
def laneMargin (s : State) (h : Head) (t : Timing) (tiles : List Nat) : Int :=
  ((List.range (activeH s h)).map (lineMargin s h t tiles)).foldl min (lineMargin s h t tiles 0)

/-- The tiles that lane `l` carries. -/
def carried (s : State) (h : Head) (l : Nat) : List Nat := (enabledTiles s h).filter (fun t => carrierOf s h t == l)

/-- The worst lane in service of a head with its margin (10 R409). -/
def worstLane (s : State) (h : Head) (t : Timing) : Option (Nat × Int) :=
  ((List.range 8).filter (laneInService s h)).foldl (fun acc l =>
    let m := laneMargin s h t (carried s h l)
    match acc with
    | none => some (l, m)
    | some (k, v) => if m < v then some (l, m) else some (k, v)) none

/-- Every lane in service carries its tiles. -/
def lanesCarry (s : State) (h : Head) (t : Timing) : Bool :=
  match worstLane s h t with
  | none => true
  | some (_, m) => decide (0 ≤ m)

/-- `TBL_x_CAP` for the timing in force and the pending timing (10 R377, R409). -/
def capWord (s : State) (h : Head) (inForce : Timing) (pending : Option Timing) : Word :=
  let (l, m) := (worstLane s h inForce).getD (0, 0)
  let units := clampInt (-32768) 32767 (m / (1280000 * 64))
  at_ 0 (toField 16 units) ||| at_ 16 l ||| bitAt 24 (decide (0 ≤ m))
    ||| bitAt 25 (match pending with
      | none => true
      | some t => lanesCarry s h t)

/-- The capacity check is made again (10 R377). -/
def checkCap (s : State) (h : Head) (pending : Option Timing) : State :=
  modTbl s h (fun b => { b with cap := capWord s h (timingOf s h) pending })

/-! ## Forwarding (10 R403 to R406) -/

/-- The target of a lane proposal: its head and pair (20 R677). -/
def laneTarget (h : Head) (i : Nat) : Nat := 256 * Head.idx h + i

/-- The request of a pair and whether its switch awaits the stitch point. -/
def setFwd (s : State) (h : Head) (i req : Nat) (awaits : Bool) : State :=
  modTbl (setRegAt s (tblBase h + 8) (at_ 0 (setPair (regFld s (tblBase h + 8) 7 0) i req))) h
    (fun b => { b with switching := setBitNat b.switching i awaits })

/-- A tile may be forwarded: neither it nor its partner has reported that it lacks a partner port (10 R359, R371; DEDUCED for
the partner, log 71). -/
def partnerPorts (s : State) (h : Head) (d : Nat) : Bool :=
  [d, partnerOf d].all (fun t => (tileOf s h t).info == 0#32 || nbit (tileCaps s h t) 3)

/-- A request for pair `i` with code 1 or 2 (10 R404). -/
def forwardRequest (s : State) (h : Head) (i code : Nat) : State :=
  let d := 2 * i + code - 1
  let p := partnerOf d
  let tiles := (enabledTiles s h).filter (fun t => t == d || t == p)
  if !partnerPorts s h d then s
  else if laneMargin s h (timingOf s h) tiles < 0 then
    let awaits := nbit (s.tbl.get h).switching i && fwdRequest s h i == 0
    let s1 := modTbl (setFwd s h i 0 awaits) h (fun b => { b with capRefused := b.capRefused ||| 2 ^ i })
    cblDone (raise s1 56 0 (2 * 4096 + laneTarget h i)) 2 0 (laneTarget h i) 4
  else setFwd s h i code (routeCode s h i != code)

/-- A request of pair `i` is withdrawn: the tile returns to its own lane if that is aligned and not degraded. A switch that
has not begun is given up (10 R406). -/
def forwardReturn (s : State) (h : Head) (i : Nat) : State :=
  let route := routeCode s h i
  let code := if route = 0 then fwdRequest s h i else route
  let ln := laneOf s (laneIndex h (2 * i + code - 1))
  if code = 0 then s
  else if ln.aligned && !ln.degraded then setFwd s h i 0 (route != 0)
  else s

/-- A write of `TBL_x_FWD` (10 R403, R406, R409). -/
def writeFwd (s : State) (h : Head) (v : Word) : State :=
  let s1 := modTbl s h (fun b => { b with capRefused := b.capRefused - (b.capRefused &&& fld v 19 16) })
  (List.range 4).foldl (fun acc i =>
    let c := pairCode (fld v 7 0) i
    if c = 0 then forwardReturn acc h i
    else if c = fwdRequest acc h i ∨ c = 3 then acc
    else forwardRequest acc h i c) s1

/-- The tile that carries its partner by a pair's code is set among the forwarders. -/
def withForwarder (f i code : Nat) : Nat := if code = 0 then f else setBitNat f (partnerOf (2 * i + code - 1)) true

/-- A pair whose frames have travelled the new path comes into force at the stitch that latches one, and fwd_en then stands
for its carrier alone (10 R404, R406); a switch given up after its CONFIGs were sent ends with the frame that travels the old
path again. -/
def fwdLatch (s : State) (h : Head) (i : Nat) : State :=
  let code := routeCode s h i
  let carriers := withForwarder (setBitNat (setBitNat (s.tbl.get h).forwarders (2 * i) false) (2 * i + 1) false) i code
  if code = pairCode (s.tbl.get h).inForce i ∧ carriers = (s.tbl.get h).forwarders then s
  else
    let s1 := modTbl s h (fun b => { b with inForce := setPair b.inForce i code, forwarders := carriers })
    if code = 0 ∨ code = pairCode (s.tbl.get h).inForce i then s1 else cblDone (raise s1 25 (Head.bitOf h) (2 * i + code - 1)) 2 0 (laneTarget h i) 1

/-- A pair's switch begins after a stitch point: its packets travel by the request (10 R404, R406). A request for a tile that
has reported since that it or its partner lacks a partner port is given up (10 R359). -/
def fwdBegin (s : State) (h : Head) (i : Nat) : State :=
  if nbit (s.tbl.get h).switching i && fwdRequest s h i != 0 && !partnerPorts s h (2 * i + fwdRequest s h i - 1) then
    setFwd s h i (routeCode s h i) false
  else if nbit (s.tbl.get h).switching i then
    modTbl s h (fun b =>
      { b with route := setPair b.route i (fwdRequest s h i), switching := setBitNat b.switching i false,
               forwarders := withForwarder b.forwarders i (fwdRequest s h i) })
  else s

/-- The stitch point of a head as forwarding sees it: `stitched` when STITCH was sent (10 R404, R406). -/
def fwdStitchPoint (s : State) (h : Head) (stitched : Bool) : State :=
  let s1 := if stitched then (List.range 4).foldl (fun acc i => fwdLatch acc h i) s else s
  reconfigure ((List.range 4).foldl (fun acc i => fwdBegin acc h i) s1) h

/-- The partner of lane `l` could carry its tile (10 R403). -/
def partnerFit (s : State) (h : Head) (l : Nat) : Bool :=
  let p := laneOf s (laneIndex h (partnerOf l))
  laneInService s h (partnerOf l) && p.aligned && !p.degraded && pairCode (s.tbl.get h).inForce (l / 2) == 0
    && routeCode s h (l / 2) == 0 && partnerPorts s h l

/-- COBBLER finds a lane that its partner could carry (10 R403). -/
def laneCandidate (s : State) (h : Head) (l : Nat) : State :=
  let i := l / 2
  let code := l % 2 + 1
  if partnerFit s h l then
    let s1 := cblFind s 2 (laneTarget h i) [(l, 0)]
    if cblPolicy s1 2 = 1 then forwardRequest s1 h i code else s1
  else s

/-- An open lane proposal is withdrawn when its condition no longer holds (20 R678). -/
def laneProposalCheck (s : State) : State :=
  match proposalOf s 2 with
  | none => s
  | some p =>
    let h := headOf (p.target / 256)
    let l := (p.pixels.headD (0, 0)).1
    let ln := laneOf s (laneIndex h l)
    if (ln.lost || ln.degraded) && partnerFit s h l then s else cblClose s 2 3

/-- P's lane is lost: forwarding of its pair, in force or still on its way there, ends (10 R406, log 51). -/
def fwdLost (s : State) (h : Head) (l : Nat) : State :=
  let i := l / 2
  if [pairCode (s.tbl.get h).inForce i, routeCode s h i, fwdRequest s h i].any (fun c => codeNames c (partnerOf l)) then
    modTbl (setFwd s h i 0 false) h (fun b =>
      { b with inForce := setPair b.inForce i 0, route := setPair b.route i 0,
               forwarders := setBitNat (setBitNat b.forwarders (2 * i) false) (2 * i + 1) false })
  else s

/-- REQUEST packets of `TBL_x_REQ` (10 R370, R401, R409). -/
def writeReq (s : State) (h : Head) (v : Word) : State :=
  let code := fld v 9 8
  if !linkLive s h || code == 0 || (decide (2 ≤ code) && !stopped s (timer s h)) then s
  else sendPackets s h (fld v 2 0) [{ ptype := 8, fsn := 0, body := [BitVec.ofNat 8 code, 0#8, 0#8, 0#8] }]

/-- The 1 ms repeat of a CONFIG whose epoch no STATUS has shown (10 R401). -/
def repeatConfig (s : State) (h : Head) (t : Nat) : State :=
  let e := tileOf s h t
  if e.configWait && linkLive s h && pathActive s h t && tileEnabled s h t then
    emitPacket s h t 0 { ptype := 1, fsn := 0, body := e.config }
  else s

/-- The repeat of the sequence that holds a head (10 R390). -/
def repeatCommand (s : State) (h : Head) : State :=
  match (s.saf.heads.get h).state with
  | 2 => sendLanes s h (.husk (s.saf.heads.get h).pattern)
  | 3 => sendLanes s h .dark
  | _ => s

end Sys2Proof.Machine
end

