-- ==== Sys2Proof/Machine/Calib.lean ====
section
/-! DEFINITION. Calibration uploads (07 R251 to R254): checks, staging, the cut at which they apply, the merge and the
sectors of LAST CALIB. -/

namespace Sys2Proof.Machine

/-- First byte of a head's part of the calibration map (07 R250). -/
def calPart (h : Head) : Nat := 0x100000 * Head.idx h

/-- The head whose part an offset of the map lies in. -/
def calHead (off : Nat) : Head := if off < 0x100000 then .a else .b

/-- The first offending field of a CAL_UPLOAD (02 R77, R78, 07 R251). -/
def calBad (s : State) (d : Desc) : Option Nat :=
  let len := dNat d 12 4
  let off := dNat d 24 4
  let h := calHead off
  minDetail (flagsBad d) (firstFail
    [ (decide (1 < dByte d 8), 8), ((firstNonZero d [(9, 3)]).isSome, (firstNonZero d [(9, 3)]).getD 9),
      (len % 16 != 0 || len < 16 || decide (65536 < len), 12),
      (off % 16 != 0 || decide (calPart h + activeN s h < off + len), 24),
      ((firstNonZero d [(32, 28)]).isSome, (firstNonZero d [(32, 28)]).getD 32) ])

/-- A CAL_UPLOAD has been fetched (07 R251, R252, 16 R574). -/
def calFetch (s : State) (ring slot : Nat) (d : Desc) : State :=
  match calBad s d with
  | some k => completeAt s ring slot 0x10 k 0#32
  | none =>
    if dByte d 8 = 1 ∧ gateSet s 2 ∧ !s.saf.unlocked then completeAt s ring slot 0x22 0 0#32
    else
      let off := dNat d 24 4
      let c : Cal :=
        { ring := ring, slot := slot, desc := d, head := calHead off, offset := off - calPart (calHead off), data := [],
          stage := 0, shown := 0, latched := none, sectors := [], failed := false,
          badRead := false }
      { s with pxc := { s.pxc with cal := some c } }

/-- The staging buffer changed by `f`. -/
def modCal (s : State) (f : Cal → Cal) : State := { s with pxc := { s.pxc with cal := s.pxc.cal.map f } }

/-- Every upload that has not completed changed by `f`. -/
def modCals (s : State) (f : Cal → Cal) : State :=
  { s with pxc := { s.pxc with cal := s.pxc.cal.map f, merged := s.pxc.merged.map f } }

/-- A validated upload of a head applies at its cut (07 R252). -/
def calApply (s : State) (h : Head) : State :=
  modCal s (fun c => if c.head = h ∧ c.stage = 1 then { c with stage := 2, shown := 1 } else c)

/-- The staging buffer is given up and its descriptor completes. -/
def calDrop (s : State) (c : Cal) (code detail : Nat) : State :=
  completeAt { s with pxc := { s.pxc with cal := none } } c.ring c.slot code detail 0#32

/-- The read of an upload and its check have ended (07 R252); on a head that has no cut it applies at once (08 R298). -/
def calRead (s : State) (data : HostRead) : State :=
  match s.pxc.cal with
  | none => s
  | some c =>
    if c.stage ≠ 0 ∨ !hostReads s then s
    else
      match data with
      | .failed k => calDrop (hostFails s k) c 0x40 0
      | .internalError => calDrop s c 0x41 2
      | .data bs0 =>
        let bs := fit (dNat c.desc 12 4) bs0
        if descFlag c.desc 3 ∧ crc32c bs ≠ dNat c.desc 28 4 then calDrop s c 0x30 0
        else
          let s1 := modCal s (fun x => { x with stage := 1, data := bs })
          if noCut s1 c.head then calApply s1 c.head else s1

/-- Sectors of LAST CALIB that an upload touches (07 R254, 20 R663). -/
def calSectors (c : Cal) : List Nat :=
  let lo := (calPart c.head + c.offset) / 4096
  let hi := (calPart c.head + c.offset + c.data.length - 1) / 4096
  (List.range (hi + 1 - lo)).map (fun k => (lastRegion 5).1 + lo + k)

/-- The merge of the staging buffer into CALIB has ended (07 R252, R254). -/
def calMergeEnds (s : State) : State :=
  match s.pxc.cal with
  | none => s
  | some c =>
    if c.stage ≠ 2 ∨ !memLive s then s
    else
      let s1 := clientWrite s (regionBase s 8 + calPart c.head + c.offset) c.data
      let toLast := dByte c.desc 8 == 1
      let m : Cal := { c with stage := 3, sectors := if toLast then calSectors c else [] }
      if !toLast && c.latched.isSome then { s1 with pxc := { s1.pxc with cal := none } }
      else
        let s2 := { s1 with pxc := { s1.pxc with cal := none, merged := s1.pxc.merged ++ [m] } }
        calFinish (m.sectors.foldl (fun acc l => kpsRequest acc (.calib c.ring c.slot l)) s2)

/-- The sweep composed with a head's applied uploads has ended (01 R29). -/
def calCompose (s : State) (h : Head) : State :=
  modCals s (fun c => if c.head = h ∧ c.shown = 1 then { c with shown := 2 } else c)

/-- A frame composed with a head's uploads has been latched (07 R254): target 0 completes with it. -/
def calLatch (s : State) (h : Head) (fsn : Word) : State :=
  let s1 := modCals s (fun c => if c.head = h ∧ c.shown = 2 ∧ c.latched.isNone then { c with latched := some fsn } else c)
  let s2 := match s.pxc.cal with
    | some c =>
      if c.head = h ∧ c.shown = 2 ∧ c.latched.isNone ∧ dByte c.desc 8 = 0 then completeAt s1 c.ring c.slot 0 0 fsn else s1
    | none => s1
  calFinish s2

end Sys2Proof.Machine
end

