-- ==== Sys2Proof/Machine/Network.lean ====
section
/-! DEFINITION. The network ports, MDIO, one-step Sync and the comparison of safety telegrams over two networks (11 R413 to
R429, R445 to R455), with what an accepted telegram does (16 R564 to R567). -/

namespace Sys2Proof.Machine

/-- The network block changed by `f`. -/
def modNet (s : State) (f : Net → Net) : State := { s with net := f s.net }

/-- Base address of a port's registers (11 R453). -/
def netBase (p : Nat) : Nat := 0x0D100 + 0x100 * p

/-- A port is enabled (11 R454). -/
def portEnabled (s : State) (p : Nat) : Bool := regBit s (netBase p) 0

/-! ## Link and port control (11 R413 to R416) -/

/-- The link of a port is judged anew (11 R414): its fault source is true while an enabled port's link is down after
having been up. -/
def setLink (s : State) (p : Nat) (up : Bool) : State :=
  let was := (portOf s p).link
  let s1 := modPort s p (fun e => { e with link := up })
  if up || !portEnabled s p then setLevel s1 (31 + p) 0 3 0 false
  else if was then setLevel s1 (31 + p) 0 3 0 true
  else s1

/-- A timestamp in units of 2^−16 ns: `base` less or plus the latencies, with an error within 5 ns that is a free value, and
what holds as it is taken (11 R420, R426, log 14). -/
def stampWithin (s : State) (base : Int) : Stamp × State :=
  let (k, s1) := drawBelow s (10 * 65536 + 1)
  ({ time := (base + k - 5 * 65536).toNat, holdover := s.tim.holdover, valid := s.tim.valid }, s1)

/-- Transmit timestamp of a frame that begins to leave now (11 R425). -/
def txStamp (s : State) (p : Nat) : Stamp × State :=
  stampWithin s ((s.tim.counter / 65536 : Nat) + ((Config.lTx p).toNat * 65536 : Nat) + signed 32 (regAt s (netBase p + 0x14)).toNat)

/-- Receive timestamp of a frame that arrives now (11 R425). -/
def rxStamp (s : State) (p : Nat) : Stamp × State :=
  stampWithin s ((s.tim.counter / 65536 : Nat) - ((Config.lRx p).toNat * 65536 + (laneOf s (16 + p)).slip * 524288 / 10 : Nat)
    - signed 32 (regAt s (netBase p + 0x18)).toNat)

/-- The first waiting frame begins to leave, past its completion point and with its timestamp taken, while the port is in
service (11 R416, R419, R425, R428, 02 R96). -/
def txStart (s : State) (p : Nat) : State :=
  let e := portOf s p
  match e.txFrames with
  | [] => s
  | (ring, slot, _) :: _ =>
    if e.link && portEnabled s p && e.txSeen.isNone && !blockStopped s 7 then
      let (t, s1) := txStamp s p
      stageWork (modPort s1 p (fun x => { x with txSeen := some t })) ring slot 2
    else s

/-- The link of a port is up (11 R414): what needs control words is asked only where they are used (DEDUCED, log 76). -/
def portUp (s : State) (p : Nat) : Bool :=
  let e := portOf s p
  portEnabled s p && (laneOf s (16 + p)).pstate == 3 && e.sync
    && (!controlWords s p || (e.anDone && (!regBit s (netBase p) 1 || e.phyUp)))

/-- The link of a port follows its conditions, its lane sends idle or configuration sets, and frames that wait begin to leave
(11 R413, R414, R419). -/
def portLink (s : State) (p : Nat) : State := txStart (setLink (streamSettle s (16 + p)) p (portUp s p)) p

/-- The lane of a port has left ACTIVE: nothing is received on it (11 R414, R455). -/
def portSilent (s : State) (p : Nat) : State :=
  portLink (modPort s p (fun e =>
    { e with sync := false, anDone := false, remoteFault := false, phyUp := false, speedUnsupported := false })) p

/-- A port reports what its receive state, auto-negotiation and PHY show; comma alignment finds the boundary at an offset
as the state synchronises (09 R350, R351, 11 R414, R455). -/
def linkChanges (s : State) (p : Nat) (sync : Option Nat) (anDone remoteFault phyUp speedOk : Bool) : State :=
  if !netLive s || decide (2 ≤ p) then s
  else
    let on := sync.isSome && (laneOf s (16 + p)).pstate == 3
    let words := on && controlWords s p
    let was := (laneOf s (16 + p)).aligned
    let s1 := modLane s (16 + p) (fun l =>
      let l1 := if on && !was then { l.align (sync.getD 0) with pcs := 6, pcsGood := 0 } else l
      { l1 with cdrLock := l.cdrLock || on, aligned := on, pcs := if on then l1.pcs else 0, scanning := l.scanning && on })
    let s2 := if on != was then setLevel s1 (31 + p) 2 3 0 (!on && portEnabled s p) else s1
    portLink (modPort s2 p (fun e =>
      { e with sync := on, anDone := words && anDone, remoteFault := words && remoteFault, phyUp := words && phyUp && speedOk,
               speedUnsupported := words && regBit s (netBase p) 1 && !speedOk })) p

/-- A port is disabled: a frame in reception is still received, and whether there is one is a free value (11 R416, log 75). -/
def portEnds (s : State) (p : Nat) : State :=
  let (k, s1) := drawBelow s 2
  setLink (modPort s1 p (fun e => { e with inReception := e.link && k == 1 })) p false

/-- A write of `NET_p_CTRL` (11 R415, R416, R454): auto-negotiation begins anew where the mode or its use changes. -/
def writeNetCtrl (s : State) (p : Nat) (v : Word) : State :=
  let a := netBase p
  let old := regAt s a
  let new := v &&& 0x7F#32
  if bit old 0 then
    let bad := (new ^^^ old) &&& 6#32 != 0#32
    let s1 := if bad then modPort s p (fun e => { e with refused := true }) else s
    let s2 := setRegAt s1 a (merge new old 6#32)
    if bit v 0 then s2 else portEnds s2 p
  else
    let s1 := if (new ^^^ old) &&& 6#32 = 0#32 then s
      else modPort s p (fun e => { e with anDone := false, remoteFault := false, phyUp := false, speedUnsupported := false })
    portLink (setRegAt s1 a new) p

/-- A write of a word of a port's own address, which only a disabled port takes (11 R415). -/
def writeNetMac (s : State) (p off : Nat) (v : Word) : State :=
  if portEnabled s p then modPort s p (fun e => { e with refused := true })
  else setRegAt s (netBase p + off) (if off = 8 then v else v &&& 0xFFFF#32)

/-! ## MDIO (11 R417) -/

/-- A write of `NET_MDIO_CMD`. Operations 0 and 3 are reserved and begin nothing. -/
def writeMdio (s : State) (v : Word) : State :=
  if !bit v 31 then s
  else if s.net.mdio.isSome then modNet s (fun e => { e with mdioRefused := true })
  else
    let op := fld v 27 26
    if op = 1 ∨ op = 2 then
      emit (modNet s (fun e => { e with mdio := some (op == 1, fld v 25 21, fld v 20 16, fld v 15 0) }))
        (.mdio (op == 1) (fld v 25 21) (fld v 20 16) (if op = 1 then fld v 15 0 else 0))
    else s

/-- An MDIO frame ends; a read places its data. -/
def mdioEnds (s : State) (data : Half) : State :=
  if !netLive s then s
  else
    match s.net.mdio with
    | none => s
    | some (w, _, _, _) => modNet s (fun e => { e with mdio := none, mdioData := if w then e.mdioData else data.toNat })

/-- The 16-byte timestamp record (11 R420). -/
def stampRecord (t : Stamp) (oneStep : Bool) : List Byte :=
  let ns := t.time / 65536
  leBytes 6 (ns / 10 ^ 9) ++ leBytes 2 (b2n t.holdover + 2 * b2n oneStep + 4 * b2n (!t.valid))
    ++ leBytes 4 (ns % 10 ^ 9) ++ leBytes 2 (t.time % 65536) ++ leBytes 2 (ns % 65536)

/-! ## Transmit (11 R418, R419, R427 to R429) -/

/-- The first offending field of a NET_TX on port `p` (11 R418, 02 R78). -/
def txBad (s : State) (p : Nat) (d : Desc) : Option Nat :=
  let len := dNat d 12 2
  let wb := dNat d 24 8
  minDetail (flagsBad d) (firstFail
    [ (dByte d 8 != p, 8), (decide (4 ≤ dByte d 9), 9), ((firstNonZero d [(10, 2)]).isSome, (firstNonZero d [(10, 2)]).getD 10),
      (decide (len < 14) || decide (regFld s (netBase p + 0x10) 11 0 < len), 12),
      ((firstNonZero d [(14, 2)]).isSome, (firstNonZero d [(14, 2)]).getD 14),
      (wb % 16 != 0 || (wb != 0) != nbit (dByte d 9) 1, 24),
      ((firstNonZero d [(32, 28)]).isSome, (firstNonZero d [(32, 28)]).getD 32) ])

/-- A NET_TX has been fetched: it is refused, or its frame is being read. -/
def txFetch (s : State) (p ring slot : Nat) (d : Desc) : State :=
  match txBad s p d with
  | some k => completeAt s ring slot 0x10 k 0#32
  | none => s

/-- The port's 4 KiB transmit buffer has room for `n` bytes more (11 R419). -/
def txRoom (s : State) (p n : Nat) : Bool :=
  decide ((((portOf s p).txFrames).map (fun q => q.2.2.length)).sum + n ≤ 4096)

/-- The read of the oldest frame of the port that is being read has ended (11 R419). A frame without room in the buffer is
not being read. -/
def txReadDone (s : State) (p : Nat) (data : HostRead) : State :=
  if !netLive s || !hostReads s || decide (2 ≤ p) then s
  else
    let queued := (portOf s p).txFrames
    match s.rng.work.find? (fun w => w.desc.opcode == 9 && w.dcrcOk && w.stage == 1 && dByte w.desc 8 == p
        && !queued.any (fun q => q.1 == w.ring && q.2.1 == w.slot)) with
    | none => s
    | some w =>
      if !txRoom s p (dNat w.desc 12 2) then s
      else match data with
      | .failed k => completeAt (hostFails s k) w.ring w.slot 0x40 0 0#32
      | .internalError => completeAt s w.ring w.slot 0x41 2 0#32
      | .data bs =>
        txStart (modPort s p (fun e => { e with txFrames := e.txFrames ++ [(w.ring, w.slot, fit (dNat w.desc 12 2) bs)] })) p

/-- Number in network byte order at byte `i`, `n` bytes. -/
def beAt (f : List Byte) (i n : Nat) : Nat := beNat ((f.drop i).take n)

/-- Where a frame's EtherType lies: after one 802.1Q tag where there is one. -/
def etherAt (f : List Byte) : Nat := if beAt f 12 2 = 0x8100 then 16 else 12

/-- The offset of the PTP message in a frame of one of the two forms (11 R427), and that of the UDP checksum. -/
def ptpAt (f : List Byte) : Option (Nat × Option Nat) :=
  let e := etherAt f
  if beAt f e 2 = 0x88F7 then some (e + 2, none)
  else if beAt f e 2 = 0x0800 then
    let ip := e + 2
    let ihl := byteAt f ip % 16
    let udp := ip + 4 * ihl
    if byteAt f ip / 16 = 4 ∧ byteAt f (ip + 9) = 17 ∧ beAt f (ip + 6) 2 % 0x4000 = 0 ∧ beAt f (udp + 2) 2 = 319 then
      some (udp + 8, some (udp + 6))
    else none
  else none

/-- The frame is eligible for one-step insertion (11 R427). -/
def oneStepAt (f : List Byte) : Option (Nat × Option Nat) :=
  match ptpAt f with
  | none => none
  | some (m, u) =>
    if byteAt f m % 16 = 0 ∧ byteAt f (m + 1) % 16 = 2 ∧ m + 44 ≤ f.length ∧ m + beAt f (m + 2) 2 ≤ f.length
        ∧ beAt f (m + 40) 4 < 10 ^ 9 then some (m, u)
    else none

/-- Bytes put in place at `i` of a list. -/
def putBytes (f : List Byte) (i : Nat) (bs : List Byte) : List Byte := f.take i ++ bs ++ f.drop (i + bs.length)

/-- One-step insertion (11 R428, R429): the frame to send, the completion's detail and whether it was inserted. `t` is
the transmit timestamp in units of 2^−16 ns. -/
def oneStep (f : List Byte) (t : Nat) : List Byte × Nat × Bool :=
  match oneStepAt f with
  | none => (f, 1, false)
  | some (m, u) =>
    let origin : Int := ((beAt f (m + 34) 6 * 10 ^ 9 + beAt f (m + 40) 4) * 65536 : Nat)
    let delta : Int := (t : Int) - origin
    if 2 ^ 31 * 65536 ≤ delta.natAbs then (f, 2, false)
    else
      let corr := signed 64 (beAt f (m + 8) 8) + delta
      let c := if corr < -(2 ^ 63) ∨ 2 ^ 63 ≤ corr then 2 ^ 63 - 1 else corr
      let f1 := putBytes f (m + 8) (beBytes 8 (toField 64 c))
      (match u with | none => f1 | some i => putBytes f1 i [0#8, 0#8], 0, true)

/-- The bytes that leave a MAC: padding to 60 and the FCS (11 R419). -/
def wireBytes (f : List Byte) : List Byte :=
  let g := if f.length < 60 then fit 60 f else f
  g ++ leBytes 4 (crc32 g)

/-- The last byte of the frame in transmission leaves (11 R419, R428, R429). -/
def txDone (s : State) (p : Nat) : State :=
  let e := portOf s p
  match e.txFrames, e.txSeen with
  | (ring, slot, f) :: rest, some t =>
    if !netLive s then s
    else
      let desc := (workAt s ring slot).map (fun w => w.desc)
      let bits := match desc with
        | some d => dByte d 9
        | none => 0
      let r := if nbit bits 0 then oneStep f t.time else (f, 0, false)
      let s1 := emit (modPort s p (fun x =>
        { x with txFrames := rest, txSeen := none, cntTx := satAdd 0xFFFFFFFF x.cntTx 1 })) (.frame p (wireBytes r.1))
      let s2 := sendSymbols s1 (16 + p) (frameSymbols (wireBytes r.1))
      let s3 := match desc with
        | some d => if nbit bits 1 then postWrite s2 (dNat d 24 8) (stampRecord t r.2.2) else s2
        | none => s2
      txStart (completeAt s3 ring slot 0 r.2.1 0#32) p
  | _, _ => s

/-! ## Receive buffers (11 R423, R424) -/

/-- The first offending field of a NET_RX_BUF on port `p` (11 R424, 02 R78). -/
def rxBad (p : Nat) (d : Desc) : Option Nat :=
  let len := dNat d 12 2
  minDetail (flagsBad d) (firstFail
    [ (dByte d 8 != p, 8), ((firstNonZero d [(9, 3)]).isSome, (firstNonZero d [(9, 3)]).getD 9),
      (len % 16 != 0 || decide (len < 80) || decide (4096 < len), 12),
      ((firstNonZero d [(14, 2)]).isSome, (firstNonZero d [(14, 2)]).getD 14),
      ((firstNonZero d [(24, 36)]).isSome, (firstNonZero d [(24, 36)]).getD 24) ])

/-- A NET_RX_BUF has been fetched: it is refused, or its buffer is posted. -/
def rxFetch (s : State) (p ring slot : Nat) (d : Desc) : State :=
  match rxBad p d with
  | some k => completeAt s ring slot 0x10 k 0#32
  | none => s

/-- The next posted buffer of a port. -/
def rxBuffer (s : State) (p : Nat) : Option Work :=
  s.rng.work.find? (fun w => w.desc.opcode == 10 && w.dcrcOk && w.stage == 1 && dByte w.desc 8 == p)

/-- A frame is dropped for want of a buffer (11 R423). -/
def dropNoBuf (s : State) (p : Nat) : State := modPort s p (fun e => { e with noBuf := satAdd 0xFFFF e.noBuf 1 })

/-- A frame is dropped as too long (11 R423). -/
def dropTooLong (s : State) (p : Nat) : State := modPort s p (fun e => { e with tooLong := satAdd 0xFFFF e.tooLong 1 })

/-- An accepted frame with its receive timestamp goes to the next buffer of its port (11 R423, R424, 02 R81). -/
def rxDeliver (s : State) (p : Nat) (f : List Byte) (t : Stamp) : State :=
  match if hostReads s then rxBuffer s p else none with
  | none => dropNoBuf s p
  | some w =>
    let ts := regBit s (netBase p) 5
    let len := f.length
    let up := (len + 15) / 16 * 16
    if dNat w.desc 12 2 < (if ts then up + 16 else len) then dropTooLong s p
    else
      let addr := dNat w.desc 16 8
      let s1 := postWrite s addr f
      let s2 := if ts then postWrite s1 (addr + up) (stampRecord t false) else s1
      let s3 := modPort s2 p (fun e => { e with cntRx := satAdd 0xFFFFFFFF e.cntRx 1 })
      completeWord (idleExits s3) w.ring w.slot 0 0 (at_ 0 len ||| bitAt 16 ts) 0#32

/-- Frames that waited in the receive FIFO are delivered in RUN, with the timestamps of their arrival (18 R623, R424). -/
def rxFlush (s : State) (p : Nat) : State :=
  (portOf s p).waiting.foldl (fun acc f => rxDeliver acc p f.1 f.2) (modPort s p (fun e => { e with waiting := [] }))

/-- Where a low-power state has ended since `before`, the frames that have waited leave (18 R620, R623). -/
def framesGo (before s : State) : State :=
  if 2 ≤ before.pwr.state ∧ s.pwr.state < 2 then rxFlush (rxFlush s 0) 1 else s

/-- What one command causes reaches the collector in one CORE cycle, and an entry that it has ended delivers the frames that
wait (15 R536, R539, 18 R620; log 50). -/
def inOneCycle (f : State → State) (s : State) : State := oneCycle (fun x => framesGo x (f x)) s

/-- An accepted frame: it wakes the device, and in DOZE or SLEEP it waits in the port's 8 KiB FIFO (18 R623). -/
def rxAccept (s : State) (p : Nat) (f : List Byte) (t : Stamp) : State :=
  if s.pwr.state = 2 ∨ s.pwr.state = 3 then
    let held := ((portOf s p).waiting.map (fun q => q.1.length)).sum
    wake (if held + f.length ≤ 8192 then modPort s p (fun e => { e with waiting := e.waiting ++ [(f, t)] }) else dropNoBuf s p) 5
  else wake (rxDeliver s p f t) 5

/-! ## Filters (11 R421, R422) -/

/-- Six address bytes equal those of a word pair. -/
def addrIs (lo hi : Word) (bs : List Byte) : Bool := leBytes 4 lo.toNat ++ leBytes 2 (fld hi 15 0) == bs

/-- The hash bit of a destination address (11 R421). -/
def hashBit (s : State) (p : Nat) (dst : List Byte) : Bool :=
  let h := crc32 dst / 2 ^ 26
  bit (regAt s (netBase p + 0x60 + 4 * (h / 32))) (h % 32)

/-- The address filter passes a frame (11 R421 points 2 to 5). -/
def addrPasses (s : State) (p : Nat) (f : List Byte) : Bool :=
  let b := netBase p
  let dst := f.take 6
  regBit s b 3
    || addrIs (regAt s (b + 8)) (regAt s (b + 0xC)) dst
    || (List.range 8).any (fun e => regBit s (b + 0x24 + 8 * e) 31 && addrIs (regAt s (b + 0x20 + 8 * e)) (regAt s (b + 0x24 + 8 * e)) dst)
    || (dst == List.replicate 6 0xFF#8 && regBit s b 4)
    || (nbit (byteAt dst 0) 0 && (regBit s b 6 || hashBit s p dst))

/-- The VLAN filter keeps a frame (11 R422). -/
def vlanPasses (s : State) (p : Nat) (f : List Byte) : Bool :=
  let w := regAt s (netBase p + 0x68)
  if !bit w 0 then true
  else if beAt f 12 2 = 0x8100 then
    (List.range 8).any (fun v => regBit s (netBase p + 0x70 + 4 * v) 15
      && regFld s (netBase p + 0x70 + 4 * v) 11 0 == beAt f 14 2 % 4096)
  else bit w 1

/-! ## Safety telegrams: what an accepted one does (16 R564 to R567) -/

/-- The telegram's body: the bytes after its Ethernet header and any tag. -/
def telBody (f : List Byte) : List Byte := (f.drop (etherAt f + 2)).take 12

/-- The body is valid (16 R565). -/
def telValid (b : List Byte) : Bool :=
  let cmd := byteAt b 1
  let heads := byteAt b 2
  byteAt b 0 == 1 && decide (cmd ≤ 3) && decide (heads ≤ 3) && (decide (byteAt b 3 ≤ 3) || byteAt b 3 == 255)
    && (if cmd = 0 then heads == 0 else heads != 0) && leAt b 8 4 == crc32c (b.take 8)

/-- The counter is newer than the last acted one of its source, or none has been acted on (16 R565). -/
def telNewer (s : State) (src : Nat) (b : List Byte) : Bool :=
  match Store.get (fun _ => none) s.saf.lastActed src with
  | none => true
  | some last => decide (0 < signed 32 (toField 32 ((leAt b 4 4 : Int) - last)))

/-- What an acted telegram does to the latches of the heads it names (16 R566). -/
def telLatch (s : State) (b : List Byte) : State :=
  let cmd := byteAt b 1
  let s1 := bothHeads.foldl (fun acc h =>
    if !nbit (byteAt b 2) (Head.idx h) then acc
    else if cmd = 1 then { acc with saf := { acc.saf with stop := acc.saf.stop.set h (some (byteAt b 3)) } }
    else if cmd = 2 then { acc with saf := { acc.saf with dark := acc.saf.dark.set h true } }
    else if cmd = 3 then
      { acc with saf := { acc.saf with stop := acc.saf.stop.set h none, dark := acc.saf.dark.set h false } }
    else acc) s
  settle s1

/-- The record of a telegram or a mismatch (16 R567). -/
def telRecord (kind flags src ports seq : Nat) (first second handed : Word) (body other : List Byte) : List Byte :=
  leBytes 1 kind ++ leBytes 1 (2 * flags) ++ leBytes 1 src ++ leBytes 1 ports ++ leBytes 2 seq ++ leBytes 2 0
    ++ leBytes 4 first.toNat ++ leBytes 4 second.toNat ++ leBytes 4 handed.toNat ++ fit 12 body ++ fit 12 other

/-- An accepted telegram is handed to the safety functions (16 R565 to R567): confirmed, or single. -/
def telAccept (s : State) (k : TelKey) (confirmed : Bool) (ports : Nat) (second : Word) : State :=
  if !ctrlLive s then s
  else
    let b := telBody k.frame
    let valid := telValid b
    let newer := telNewer s k.source b
    let on := imageFlag s 2
    let acts := valid && newer && on && (confirmed || byteAt b 1 != 3)
    let s1 := if acts then
        telLatch { s with saf := { s.saf with lastActed := Store.put (fun _ => none) s.saf.lastActed k.source (some (leAt b 4 4)) } } b
      else s
    let (t, s2) := stampCore s1
    let flags := b2n confirmed + 2 * b2n (!confirmed) + 4 * b2n acts + 8 * b2n (!valid) + 16 * b2n (!newer) + 32 * b2n (!on)
    wake (writeRecord s2 19 (telRecord 3 flags k.source ports k.seq k.time second t b [])).2 5

/-! ## The comparison (11 R445 to R451) -/

/-- The enabled source entry that a frame's source address equals (11 R445). -/
def telSource (s : State) (f : List Byte) : Option Nat :=
  firstIdx 4 (fun k => regBit s (0x0D024 + 8 * k) 31 && addrIs (regAt s (0x0D020 + 8 * k)) (regAt s (0x0D024 + 8 * k)) ((f.drop 6).take 6))

/-- A frame with the EtherType and an enabled source (11 R445): its source entry. -/
def telCandidate (s : State) (f : List Byte) : Option Nat :=
  let w := regAt s 0x0D010
  if bit w 16 && beAt f (etherAt f) 2 == fld w 15 0 && decide (60 ≤ f.length) && decide (f.length ≤ 128) then telSource s f else none

/-- The redundancy control trailer meets R445 on port `p`. -/
def trailerOk (p : Nat) (f : List Byte) : Bool :=
  let r := f.drop (f.length - 6)
  beAt r 4 2 == 0x88FB && byteAt r 2 / 16 == 10 + p && beAt r 2 2 % 4096 == f.length - (etherAt f + 2)

/-- The sequence number of the trailer. -/
def trailerSeq (f : List Byte) : Nat := beAt (f.drop (f.length - 6)) 0 2

/-- A frame without its LAN identifier nibble, for comparison (11 R446). -/
def withoutLan (f : List Byte) : List Byte :=
  f.set (f.length - 4) (BitVec.ofNat 8 (byteAt f (f.length - 4) % 16))

/-- A key is closed and remembered (11 R449). -/
def telClose (s : State) (k : TelKey) : State :=
  modNet s (fun e =>
    { e with keys := e.keys.filter (fun x => !(x.source == k.source && x.seq == k.seq)),
             remembered := e.remembered ++ [(k.source, k.seq, k.port)] })

/-- A key's window has ended with one copy: the telegram is accepted as single (11 R447). -/
def telSingle (s : State) (k : TelKey) : State :=
  telAccept (raise (telClose s k) 34 3 0) k false (2 ^ k.port) 0#32

/-- A second copy from the other port closes its key (11 R446, R448). -/
def telSecond (s : State) (k : TelKey) (f : List Byte) (t : Word) : State :=
  let s1 := telClose s k
  if withoutLan f = withoutLan k.frame then telAccept s1 k true 3 t
  else
    let (h, s2) := stampCore (raise s1 33 3 0)
    (writeRecord s2 19 (telRecord 4 0 k.source 3 k.seq k.time t h (telBody k.frame) (telBody f))).2

/-- A first copy opens a key; the oldest of 32 open keys ends at once (11 R446, R450). -/
def telOpen (s : State) (k : TelKey) : State :=
  let s1 := if 32 ≤ s.net.keys.length then
      match s.net.keys with
      | [] => s
      | old :: _ => telSingle s old
    else s
  modNet s1 (fun e => { e with keys := e.keys ++ [k] })

/-- A telegram copy arrives on port `p` (11 R445 to R450). -/
def telArrive (s : State) (p src : Nat) (f : List Byte) (t : Word) : State :=
  if !trailerOk p f then modNet s (fun e => { e with telBad := satAdd 255 e.telBad 1 })
  else
    let seq := trailerSeq f
    match s.net.keys.find? (fun k => k.source == src && k.seq == seq) with
    | some k => if k.port = p then modNet s (fun e => { e with telDup := satAdd 255 e.telDup 1 }) else telSecond s k f t
    | none =>
      match s.net.remembered.find? (fun r => r.1 == src && r.2.1 == seq) with
      | some r =>
        if r.2.2 = p then modNet s (fun e => { e with telDup := satAdd 255 e.telDup 1 })
        else modNet s (fun e => { e with telLate := satAdd 255 e.telLate 1 })
      | none => telOpen s { source := src, seq := seq, port := p, time := t, frame := f }

/-- The window of a key ends with one copy. -/
def telWindowEnds (s : State) (src seq : Nat) : State :=
  if !netLive s then s
  else
    match s.net.keys.find? (fun k => k.source == src && k.seq == seq) with
    | some k => telSingle s k
    | none => s

/-- A closed key is forgotten (11 R449). -/
def telForget (s : State) (src seq : Nat) : State :=
  modNet s (fun e => { e with remembered := e.remembered.filter (fun r => !(r.1 == src && r.2.1 == seq)) })

/-- An enabled source has sent no accepted telegram for the timeout (11 R451). -/
def telTimesOut (s : State) (src : Nat) : State :=
  if netLive s && regFld s 0x0D018 15 0 != 0 && decide (src < 4) && regBit s (0x0D024 + 8 * src) 31 then
    raise s 35 3 0
  else s

/-! ## A frame arrives (11 R421 to R424) -/

/-- A frame has been received on a port: `error` 1 for a wrong FCS, 2 for a symbol error (11 R421). A frame that was in
reception as the port was disabled is taken too; the comparison of telegrams having ended with the port, a telegram is then
dropped, for it never reaches a receive ring (11 R416). -/
def rxFrame (s0 : State) (p : Nat) (f : List Byte) (error : Nat) : State :=
  let last := (portOf s0 p).inReception
  let s := if last then modPort s0 p (fun e => { e with inReception := false }) else s0
  if !netLive s0 || decide (2 ≤ p) || !((portEnabled s0 p && (portOf s0 p).link) || last) then s0
  else if error = 1 then modPort s p (fun e => { e with cntFcs := satAdd 0xFFFF e.cntFcs 1 })
  else if error ≠ 0 ∨ f.length < 60 then modPort s p (fun e => { e with cntSym := satAdd 0xFFFF e.cntSym 1 })
  else
    let (t, s1) := rxStamp s p
    match telCandidate s1 f with
    | some src => if portEnabled s1 p then telArrive s1 p src f (time32Of (t.time / 65536)) else s1
    | none =>
      if regFld s1 (netBase p + 0x10) 11 0 < f.length then dropTooLong s1 p
      else if addrPasses s1 p f && vlanPasses s1 p f then rxAccept s1 p f t
      else s1

end Sys2Proof.Machine
end

