-- ==== Sys2Proof/Machine/Lanes.lean ====
section
/-! DEFINITION. The serial lanes (09): power states, alignment, reception, loss, PRBS and loopbacks, equalisation, the eye
monitor and fine trim, and the lane registers' writes. Lanes 0 to 7 are LA0 to LA7, 8 to 15 LB0 to LB7, 16 and 17 NL0 and
NL1. -/

namespace Sys2Proof.Machine

/-- A tile lane's head. -/
def laneHead (l : Nat) : Head := headOf (l / 8)

/-- The lane carries tiles, not a network port. -/
def tileLane (l : Nat) : Bool := decide (l < 16)

/-- Lane `l` of 18 exists and its domain lives. -/
def laneLives (s : State) (l : Nat) : Bool :=
  decide (l < 18) && (if tileLane l then linkLive s (laneHead l) else netLive s)

/-- A tile lane is in service (09 R316). -/
def inService (s : State) (l : Nat) : Bool := tileLane l && laneInService s (laneHead l) (l % 8)

/-- The head of a tile lane is STOPPED (09 R343). -/
def laneHeadStopped (s : State) (l : Nat) : Bool := stopped s (timer s (laneHead l))

/-- The detail of a lane source: lane index, [8] set for Head B (15 R540). -/
def laneDetail (l : Nat) : Nat := l % 8 + 256 * b2n (l / 8 == 1)

/-- Symbol slots of a lane in `n` microseconds (09 R318). -/
def laneSlots (s : State) (l n : Nat) : Nat := n * (if tileLane l then symbolRate s (laneHead l) else 1250) / 10

/-- The heads mask of a lane source. -/
def laneHeads (l : Nat) : Nat := if tileLane l then Head.bitOf (laneHead l) else 0

/-- The block's own bits of a lane. -/
def laneBlock (s : State) (b : Nat) : LaneBlock :=
  Store.get (fun _ => LaneBlock.reset) s.laneBlocks b

/-- A lane block's own bits changed by `f`. -/
def modLaneBlock (s : State) (b : Nat) (f : LaneBlock → LaneBlock) : State :=
  { s with laneBlocks := Store.put (fun _ => LaneBlock.reset) s.laneBlocks b (f (laneBlock s b)) }

/-! ## Alignment (09 R326 to R330) -/

/-- A search for the group boundary starts at the current offset, and an eye scan ends with the alignment (09 R326, R337). -/
def startSearch (s : State) (l : Nat) : State :=
  modLane s l (fun e =>
    { e with aligned := false, scanning := false, searching := true, sought := true, searches := satAdd 0xFF e.searches 1 })

/-- CDR lock: a lane's first lock in ACTIVE starts the search, and one after a loss of it does so with auto_realign set
(09 R326). -/
def cdrLocks (s : State) (l : Nat) : State :=
  let e := laneOf s l
  if !laneLives s l || e.pstate < 2 || e.cdrLock then s
  else
    let s1 := modLane s l (fun x => { x with cdrLock := true })
    if tileLane l && e.pstate == 3 && !e.aligned && !e.searching
        && (!e.sought || regBit s (laneBlockBase (laneBlockOf l)) 9) then startSearch s1 l
    else s1

/-- The groups that a deserialiser forms of bits at a boundary, `n` of them at most. -/
def deserialise : Nat → List Bool → List Group
  | 0, _ => []
  | n + 1, bs => if bs.length < 10 then [] else groupFrom (bs.take 10) :: deserialise n (bs.drop 10)

/-- The 32 groups of step 3 pass: none is a code violation and two are K28.5 (09 R326). -/
def offsetPasses (gs : List Group) : Bool :=
  gs.all (fun g => inTable g.toNat)
    && decide (2 ≤ (gs.filter (fun g => g.toNat == groupOf (special 28 5) false || g.toNat == groupOf (special 28 5) true)).length)

/-- How a search ends. -/
inductive SearchEnd where
  /-- Bits are missing: the search goes on. -/
  | unfinished
  /-- Aligned at an offset. -/
  | found (offset : Nat)
  /-- Every offset failed; the offset after them. -/
  | failed (offset : Nat)
deriving DecidableEq, Repr

/-- The search of 09 R326 over the bits received since it started, `n` offsets being left to try: 8 groups to settle, 32 to
examine, 64 to confirm, and one bit slipped after a failure. -/
def searchBits : Nat → Nat → List Bool → SearchEnd
  | 0, offset, _ => .failed offset
  | n + 1, offset, bs =>
    let b1 := bs.drop 80
    if bs.length < 400 then .unfinished
    else if offsetPasses (deserialise 32 b1) then
      let b2 := b1.drop 320
      if (deserialise 64 b2).all (fun g => inTable g.toNat) then
        (if b2.length < 640 then .unfinished else .found offset)
      else searchBits n ((offset + 1) % 10) (b2.drop (10 * ((deserialise 64 b2).takeWhile (fun g => inTable g.toNat)).length + 11))
    else searchBits n ((offset + 1) % 10) (b1.drop 321)

/-- The tiles that a lane carries learn that it is aligned (09 R330, 10 R401). -/
def laneAligned (s : State) (l : Nat) : State :=
  let h := laneHead l
  let s1 := laneProposalCheck (setLevel s 24 l (laneHeads l) (laneDetail l) false)
  ((List.range 8).filter (fun t => carrierOf s1 h t == l % 8)).foldl (fun acc t => configIfAsked (reconfigTile acc h t) h t) s1

/-! ## Reception (09 R322, R325, R329, R340, R345, R348) -/

/-- The next group of a lane's generator. -/
def nextGen (code : Nat) (e : Lane) : Group × Lane :=
  let r := prbsBits code 10 e.gen
  (groupFrom r.1, { e with gen := r.2 })

/-- A group as a lane's receiver has it, inverted with rx_inv (09 R355). -/
def rxGroup (s : State) (l : Nat) (g : Group) : Group := if regBit s (laneBase l) 3 then ~~~g else g

/-- The symbol that a network lane sends in a slot without a symbol of its MAC, at a place of its ordered set and a running
disparity (09 R321): /I1/ or /I2/, by the disparity before it, or /C1/ and /C2/ in turn with a configuration word that the spec
does not give, a free value (log 89). -/
def setSymbol (s : State) (l : Nat) (place : Nat) (pos : Bool) : Symbol × State :=
  if configures s l then
    match place % 8 with
    | 0 => (special 28 5, s)
    | 1 => (dataSymbol (21 + 32 * 5), s)
    | 4 => (special 28 5, s)
    | 5 => (dataSymbol (2 + 32 * 2), s)
    | _ =>
      let (k, s1) := drawBelow s 256
      (dataSymbol k, s1)
  else if place % 2 = 0 then (special 28 5, s)
  else (dataSymbol (if pos then 16 + 32 * 2 else 5 + 32 * 6), s)

/-- What the transmitter sends in a symbol slot without a symbol of the link layer, `g` being the group received in it, and
what its serialiser takes (09 R345, R348). -/
def slotSends (s : State) (l : Nat) (g : Group) : Group × State :=
  let e := laneOf s l
  if laneGen s l ≠ 0 then
    let r := nextGen (laneGen s l) e
    (r.1, modLane s l (fun _ => r.2))
  else if laneLoop s l = 3 then (rxGroup s l g, s)
  else
    let pos := Store.get (fun _ => false) s.txRd l
    let r := if tileLane l then (special 28 5, s) else setSymbol s l e.setPlace pos
    let c := groupOf r.1 pos
    (BitVec.ofNat 10 c,
      modLane { r.2 with txRd := Store.put (fun _ => false) s.txRd l (groupRd c pos) } l (fun x =>
        { x with setPlace := if tileLane l then 0 else (x.setPlace + 1) % 8 }))

/-- What the receiver of a lane takes in a slot: its own transmitter's group in a near-end loopback, else the group received,
inverted with rx_inv (09 R348, R355). -/
def slotHears (s : State) (l : Nat) (sent g : Group) : Group :=
  if laneLoop s l = 1 ∨ laneLoop s l = 2 then sent else rxGroup s l g

/-- A comma: K28.1, K28.5 or K28.7 (clause 36). -/
def isComma (y : Symbol) : Bool := y.special && (y.byte == 0x3C || y.byte == 0xBC || y.byte == 0xFC)

/-- The state of the clause 36 synchronisation of a network lane after a group: three commas in even places, each followed by
data, with none bad between gain it, and four bad groups without four good ones in a row after each lose it (09 R350). -/
def Lane.pcsTakes (e : Lane) (g : Nat) : Lane :=
  let sym := if e.pcs = 0 then (if (symbolOf g false).isSome then symbolOf g false else symbolOf g true)
    else if groupClass e g = 0 then (if (symbolOf g e.rxRd).isSome then symbolOf g e.rxRd else symbolOf g (!e.rxRd)) else none
  let comma := sym.any isComma
  let data := sym.any (fun y => !y.special)
  let bad := sym.isNone || (comma && e.pcsEven)
  let moveTo (n good : Nat) (even : Bool) : Lane := { e with pcs := n, pcsGood := good, pcsEven := even }
  match e.pcs with
  | 0 => if comma then moveTo 1 0 true else moveTo 0 0 (!e.pcsEven)
  | 1 => if data then moveTo 2 0 false else moveTo 0 0 false
  | 2 => if bad then moveTo 0 0 (!e.pcsEven) else if comma then moveTo 3 0 true else moveTo 2 0 (!e.pcsEven)
  | 3 => if data then moveTo 4 0 false else moveTo 0 0 false
  | 4 => if bad then moveTo 0 0 (!e.pcsEven) else if comma then moveTo 5 0 true else moveTo 4 0 (!e.pcsEven)
  | 5 => if data then moveTo 6 0 false else moveTo 0 0 false
  | 6 => moveTo (if bad then 7 else 6) 0 (!e.pcsEven)
  | 7 => if bad then moveTo 9 0 (!e.pcsEven) else moveTo 8 1 (!e.pcsEven)
  | 8 => if bad then moveTo 9 0 (!e.pcsEven) else if e.pcsGood = 3 then moveTo 6 0 (!e.pcsEven) else moveTo 8 (e.pcsGood + 1) (!e.pcsEven)
  | 9 => if bad then moveTo 11 0 (!e.pcsEven) else moveTo 10 1 (!e.pcsEven)
  | 10 => if bad then moveTo 11 0 (!e.pcsEven) else if e.pcsGood = 3 then moveTo 7 0 (!e.pcsEven) else moveTo 10 (e.pcsGood + 1) (!e.pcsEven)
  | 11 => if bad then moveTo 0 0 (!e.pcsEven) else moveTo 12 1 (!e.pcsEven)
  | _ => if bad then moveTo 0 0 (!e.pcsEven) else if e.pcsGood = 3 then moveTo 9 0 (!e.pcsEven) else moveTo 12 (e.pcsGood + 1) (!e.pcsEven)

/-- A network lane is synchronised (09 R350). -/
def Lane.synced (e : Lane) : Bool := decide (6 ≤ e.pcs)

/-- The receiver of a lane takes a group: a network lane's synchronisation with it, unless a pattern is checked (09 R345, R350). -/
def Lane.receive (l code : Nat) (e : Lane) (g : Group) : Lane :=
  let e1 := e.hear code g
  if tileLane l || code != 0 then e1
  else
    let e2 := e.pcsTakes g.toNat
    { e1 with pcs := e2.pcs, pcsEven := e2.pcsEven, pcsGood := e2.pcsGood }

/-- One symbol slot of an ACTIVE lane in which group `g` arrives. -/
def laneSlot (l : Nat) (s : State) (g : Group) : State :=
  let r := slotSends s l g
  let s1 := modLane r.2 l (fun e => e.receive l (laneChk r.2 l) (slotHears r.2 l r.1 g))
  match (laneOf s1 l).stream with
  | .prbs _ => sendGroups s1 l [r.1]
  | .returned => sendGroups s1 l [r.1]
  | _ => s1

/-- An aligned lane loses its alignment (09 R329, R351, 10 R403, R405, 11 R414). -/
def laneDrops (s : State) (l : Nat) : State :=
  let e := laneOf s l
  if !e.aligned then s
  else if !tileLane l then
    setLevel (portSilent (modLane s l (fun x => { x with aligned := false, scanning := false, pcs := 0 })) (l - 16)) (15 + l) 2 3 0
      (portEnabled s (l - 16))
  else
    let s1 := modLane s l (fun x => { x with aligned := false, scanning := false, lost := true, losses := satAdd 0xFF x.losses 1 })
    if inService s1 l then
      let h := laneHead l
      laneCandidate (fwdLost (laneProposalCheck (setLevel s1 24 l (laneHeads l) (laneDetail l) true)) h (l % 8)) h (l % 8)
    else s1

/-- A network lane whose synchronisation a group has gained or lost: its boundary is found or lost, and its port follows
(09 R350, R351, 11 R414, R455). -/
def laneSyncs (s : State) (l : Nat) : State :=
  let e := laneOf s l
  if tileLane l || e.synced == e.aligned then s
  else if e.synced then
    let s1 := modLane s l (fun x => { x.align x.slip with cdrLock := true, rxFirst := false, delivered := x.delivered })
    portLink (modPort (setLevel s1 (15 + l) 2 3 0 false) (l - 16) (fun p => { p with sync := true })) (l - 16)
  else laneDrops s l

/-- Groups arrive on a lane, in consecutive slots: a tile lane is lost as soon as one window holds 16 errors (09 R329), and a
network lane synchronises by them (R350). -/
def laneHears (s : State) (l : Nat) : List Group → State
  | [] => s
  | g :: rest =>
    let s1 := laneSyncs (laneSlot l s g) l
    let e := laneOf s1 l
    laneHears (if tileLane l && e.aligned && decide (16 ≤ e.winErrors) then
        laneDrops (modLane s1 l (fun x => { x with winErrors := 0 })) l
      else s1) l rest

/-- The elastic buffer's filling moves by `drift` symbols: beyond its 8 or below none it counts an elastic event and the lane
is lost (09 R325, R329). -/
def elasticMoves (s : State) (l : Nat) (drift : Int) : State :=
  let n := ((laneOf s l).elastic : Int) + drift
  if !tileLane l || !(laneOf s l).aligned then s
  else if 0 ≤ n ∧ n ≤ 8 then modLane s l (fun e => { e with elastic := n.toNat })
  else laneDrops (modLane s l (fun e => { e with elastics := satAdd 0xFF e.elastics 1 })) l

/-- What a receiver meets: groups, a drift of its elastic buffer, and the loss of its CDR's lock (09 R329). -/
def laneMeets (s : State) (l : Nat) (groups : List Group) (drift : Int) (cdr : Bool) : State :=
  let e := laneOf s l
  if !laneLives s l || decide (e.pstate < 2) then s
  else
    let s1 := if e.pstate = 3 then elasticMoves (laneHears s l groups) l drift else s
    if cdr then laneDrops (modLane s1 l (fun x => { x with cdrLock := false })) l else s1

/-- The groups that a lane's own coder gives in `n` slots. -/
def ownGroups (l : Nat) : Nat → State → List Group × State
  | 0, s => ([], s)
  | n + 1, s =>
    let r := slotSends s l 0#10
    let t := ownGroups l n r.2
    (r.1 :: t.1, t.2)

/-- The bits that a search examines: those received, inverted with rx_inv; in a near-end loopback those of the lane's own coder
for as long, the bits of the ball being ignored, where a group begins in them being a free value through the serialiser and the
offset in force past it (09 R348, log 72). -/
def searchHears (s : State) (l : Nat) (bits : List Bool) : List Bool × State :=
  if laneLoop s l = 1 ∨ laneLoop s l = 2 then
    let r := ownGroups l (bits.length / 10) s
    let bs := (r.1.map groupBits).flatten
    if laneLoop s l = 2 then (bs, r.2)
    else
      let (k, s1) := drawBelow r.2 10
      (bs.drop k, s1)
  else (if regBit s (laneBase l) 3 then bits.map (!·) else bits, s)

/-- The search ends, aligned or with slip_fail, by the bits received since it started (09 R326, R330). `groups` are those
received after an alignment. -/
def searchEnds (s : State) (l : Nat) (bits : List Bool) (groups : List Group) : State :=
  let e := laneOf s l
  if !laneLives s l || !e.searching || !e.cdrLock then s
  else
    let heard := searchHears s l bits
    let s := modLane heard.2 l (fun x => { x with excluded := x.excluded - bits.length / 10 })
    match searchBits 40 e.slip heard.1 with
    | .unfinished => s
    | .found offset => laneHears (laneAligned (modLane s l (fun x => x.align offset)) l) l groups
    | .failed offset => modLane s l (fun x => { x with searching := false, slip := offset, slipFail := true })

/-! ## Equalisation (09 R331 to R336) -/

/-- Word index of column `c` of a lane's equalisation table (09 R354). -/
def eqIndex (l c : Nat) : Nat := (laneBlockBase (laneBlockOf l) + 0x400 + 0x18 * (l % 8) + 4 * c) / 4

/-- fine_base of an equalisation word, in 1/64 UI (09 R357). -/
def fineBase (w : Word) : Int := signed 6 (fld w 21 16)

/-- The lane takes the column of the band in force, or keeps its settings where the word fails its parity, as it does until it
is rewritten (09 R333 to R336, 15 R543; that it does: DEDUCED, log 78). -/
def eqApply (s : State) (l : Nat) (upset : Bool) : State :=
  let e := laneOf s l
  if !e.eqPending then s
  else
    let c := bandInForce s
    let i := eqIndex l c
    let w := getReg s i
    let s1 := if injHits s 60 i then tableSpoilt (spendInj s) i true
      else if upset && (tableBadAt s i).isNone then tableSpoilt s i false else s
    match tableBadAt s1 i with
    | some inj =>
      modLane (modLaneBlock (raiseInj s1 60 (laneHeads l) (laneDetail l) inj) (laneBlockOf l) (fun b => { b with eqParity := true }))
        l (fun x => { x with eqPending := false })
    | none =>
      let moved := fineBase w != fineBase e.eqWord
      let receive := moved || fld w 15 12 != fld e.eqWord 15 12
      modLane s1 l (fun x =>
        { x with eqPending := false, eqColumn := c, eqWord := w, trim := if moved then 0 else x.trim,
                 target := if moved then 0 else x.target, excluded := if receive then laneSlots s l 2 else x.excluded })

/-- An update point of a lane: one in OFF or PARK has its own only as it leaves them (09 R333). -/
def eqPoint (s : State) (l : Nat) (upset : Bool) : State :=
  if laneLives s l && decide (2 ≤ (laneOf s l).pstate) then eqApply s l upset else s

/-- Every lane's equalisation awaits its update point (01 R42, 09 R333). -/
def eqAllPending (s : State) : State :=
  (List.range 18).foldl (fun acc l => modLane acc l (fun e => { e with eqPending := true })) s

/-! ## The eye monitor (09 R337 to R340) -/

/-- Position `p` of a scan was clean (09 R337). -/
def eyeClean (eye : DWord) (p : Int) : Bool :=
  decide (-32 ≤ p) && decide (p ≤ 31) && eye.getLsbD (p + 32).toNat

/-- Clean positions in a row from `p` on in steps of `d`. -/
def cleanRun (eye : DWord) (d : Int) : Nat → Int → Nat
  | 0, _ => 0
  | n + 1, p => if eyeClean eye p then 1 + cleanRun eye d n (p + d) else 0

/-- The figure of merit of a sampling phase (09 R338). -/
def fomOf (eye : DWord) (o : Int) : Nat :=
  if eyeClean eye o then
    Nat.min 255 (8 * (1 + Nat.min (cleanRun eye (-1) 64 (o - 1)) (cleanRun eye 1 64 (o + 1))))
  else 0

/-- The better of two trims: higher FOM, then nearer to zero, then lower (09 R339). -/
def betterTrim (eye : DWord) (base a b : Int) : Int :=
  let fa := fomOf eye (base + a)
  let fb := fomOf eye (base + b)
  if fa > fb then a else if fb > fa then b
  else if a.natAbs < b.natAbs then a else if b.natAbs < a.natAbs then b
  else if a ≤ b then a else b

/-- The best of the five candidates (09 R339). -/
def bestTrim (eye : DWord) (base : Int) : Int := [(-1 : Int), 0, 1, 2].foldl (betterTrim eye base) (-2)

/-- The trim that a scan's adaptation ends at (09 R339). -/
def trimTarget (s : State) (l : Nat) (eye : DWord) : Int :=
  let e := laneOf s l
  let b := laneBlockBase (laneBlockOf l)
  let base := fineBase e.eqWord
  let best := bestTrim eye base
  if regBit s b 8 && decide (fomOf eye (base + e.trim) + regFld s (b + 8) 31 24 ≤ fomOf eye (base + best)) then best else e.trim

/-- A scan may start: the lane is ACTIVE and aligned (09 R337). -/
def scanStarts (s : State) (l : Nat) : State :=
  let e := laneOf s l
  if laneLives s l && e.pstate == 3 && e.aligned && !e.scanning then modLane s l (fun x => { x with scanning := true }) else s

/-- A scan ends: its eye, the adaptation and the degraded bit (09 R337 to R340). `groups` are those that the lane has
received since it was last told of any, the last of the interval that ends with the scan, and `drift` is what its elastic
buffer drifted meanwhile. -/
def scanEnds (s0 : State) (l : Nat) (clean : DWord) (groups : List Group) (drift : Int) : State :=
  let s := laneMeets s0 l groups drift false
  let e := laneOf s l
  if !laneLives s l || !e.scanning || e.pstate != 3 || !e.aligned then s
  else
    let b := laneBlockBase (laneBlockOf l)
    let target := trimTarget s l clean
    let fom := fomOf clean (fineBase e.eqWord + target)
    let low := if fom < regFld s (b + 8) 23 16 then e.lowScans + 1 else 0
    let bad := if e.intervalErrors then e.badIntervals + 1 else 0
    let s1 := modLane s l (fun x =>
      { x with scanning := false, eye := clean, target := target,
               fom := if target = x.trim then fom else x.fom, lowScans := low, badIntervals := bad, intervalErrors := false })
    if inService s1 l && !e.degraded && (decide (3 ≤ low) || decide (3 ≤ bad)) then
      let s2 := modLane s1 l (fun x => { x with degraded := true, degradeds := satAdd 0xFF x.degradeds 1 })
      let h := laneHead l
      laneCandidate (laneProposalCheck (setLevel s2 23 l (laneHeads l) (laneDetail l) true)) h (l % 8)
    else if 16 ≤ l && e.pstate == 3 && !e.degraded && (decide (3 ≤ low) || decide (3 ≤ bad)) then
      setLevel (modLane s1 l (fun x => { x with degraded := true, degradeds := satAdd 0xFF x.degradeds 1 })) (15 + l) 1 3 0 true
    else if 16 ≤ l && e.degraded && low == 0 && bad == 0 then
      setLevel (modLane s1 l (fun x => { x with degraded := false })) (15 + l) 1 3 0 false
    else if e.degraded && low == 0 && bad == 0 then
      laneProposalCheck (setLevel (modLane s1 l (fun x => { x with degraded := false })) 23 l (laneHeads l) (laneDetail l) false)
    else s1

/-- The trim moves one step towards its candidate; with adapt_en clear it holds (09 R339). -/
def trimMoves (s : State) (l : Nat) : State :=
  let e := laneOf s l
  if !laneLives s l || e.trim = e.target || !regBit s (laneBlockBase (laneBlockOf l)) 8 then s
  else
    let t := if e.trim < e.target then e.trim + 1 else e.trim - 1
    modLane s l (fun x =>
      { x with trim := t, fom := if t = x.target then fomOf x.eye (fineBase x.eqWord + t) else x.fom })

/-! ## Power states and the lane registers (09 R341 to R349, R354, R355) -/

/-- The 20 ms without a STATUS are counted anew for the tiles of a lane that reaches ACTIVE (10 R394). -/
def pathsEnter (s : State) (l : Nat) : State :=
  if tileLane l then
    let h := laneHead l
    ((List.range 8).filter (fun t => carrierOf s h t == l % 8)).foldl (fun acc t => modTile acc h t (fun e => { e with stale := false })) s
  else s

/-- A lane goes to another state than ACTIVE: its boundary is lost, and below IDLE its CDR's lock (09 R341); a network port's
link is judged anew (11 R414, R455). One that leaves OFF or PARK has its update point before it leaves electrical idle
(09 R333). -/
def lowerLane (s : State) (l p : Nat) : State :=
  let s1 := modLane s l (fun e =>
    { e with pstate := p, exitDue := (e.exitDue || decide (e.pstate < 2)) && p == 2, aligned := false, pcs := 0, searching := false, sought := false, scanning := false,
             cdrLock := e.cdrLock && decide (2 ≤ p) })
  let s2 := streamSettle s1 l
  if tileLane l then s2 else portSilent s2 (l - 16)

/-- A lane reaches ACTIVE (09 R321, R326, R333, R344). -/
def laneReaches (s : State) (l : Nat) (upset : Bool) : State :=
  let e := laneOf s l
  if !laneLives s l || regFld s (laneBase l) 1 0 != 3 || e.pstate == 3 then s
  else
    let s1 := if e.pstate < 2 || e.exitDue then eqApply s l upset else s
    let s2 := pathsEnter (streamSettle (modLane s1 l (fun x => { x with pstate := 3, exitDue := false })) l) l
    if tileLane l && e.cdrLock then startSearch s2 l else s2

/-- A PRBS pattern or a loopback may be set on a lane (09 R346). -/
def testMay (s : State) (l : Nat) : Bool :=
  if tileLane l then laneHeadStopped s l else !regBit s (0x0D100 + 0x100 * (l - 16)) 0

/-- A lane's generator and checker follow its control word, which held `old`: each starts afresh where its pattern changes
(09 R345, R348). -/
def laneTests (s : State) (l : Nat) (old : Word) : State :=
  streamSettle (modLane s l (fun e =>
    { e with gen := if laneGen s l = fld old 5 4 then e.gen else prbsStart (laneGen s l),
             prbsLock := e.prbsLock && laneChk s l == fld old 7 6,
             checker := if laneChk s l = fld old 7 6 then e.checker else Checker.reset })) l

/-- A write of `LNx_Ll_CTRL` (09 R326, R328, R343, R346, R349, R355). -/
def writeLaneCtrl (s : State) (l : Nat) (v : Word) : State :=
  let e := laneOf s l
  let a := laneBase l
  let old := regAt s a
  let p := fld v 1 0
  let pBad := inService s l && !laneHeadStopped s l && decide (p < 3)
  let inv := mask 3 2
  let invBad := (v ^^^ old) &&& inv != 0#32 && e.pstate != 0
  let tst := mask 9 4
  let tstBad := (v ^^^ old) &&& tst != 0#32 && (!testMay s l || (fld v 9 8 == 3 && fld v 5 4 != 0))
  let slip := bit v 12 && tileLane l
  let slipBad := slip && e.aligned && !laneHeadStopped s l
  let v1 := if pBad then merge v old (mask 1 0) else v
  let v2 := if invBad then merge v1 old inv else v1
  let v3 := if tstBad then merge v2 old tst else v2
  let s1 := laneTests (setRegAt s a (v3 &&& 0x3FF#32)) l old
  let s2 := if pBad || invBad || tstBad || slipBad then modLane s1 l (fun x => { x with refused := true }) else s1
  let s3 := if !pBad && decide (p < 3) && p != e.pstate then lowerLane s2 l p else s2
  if slip && !slipBad && (laneOf s3 l).pstate == 3 then startSearch s3 l else s3

/-- Every count of a lane block is cleared (09 R353). -/
def clearLaneCounts (s : State) (b : Nat) : State :=
  ((List.range 18).filter (fun l => laneBlockOf l == b)).foldl (fun acc l => modLane acc l (fun e =>
    { e with violations := 0, disparities := 0, elastics := 0, losses := 0, searches := 0, degradeds := 0,
             prbsErrors := 0, prbsBits := 0, checker := { e.checker with part := 0 } })) s

/-- A setting that may be written only while its head is STOPPED was written at another time (08 R300). -/
def timingRefused (s : State) (h : Head) : State := modTg s h (fun t => { t with timingRefused := true })

/-- A write of `LNx_CTRL` (09 R317, R323, R324, R353, R354). -/
def writeLnCtrl (s : State) (b : Nat) (v : Word) : State :=
  let a := laneBlockBase b
  let old := regAt s a
  if b = 2 then
    let s1 := setRegAt s a (v &&& 0x300#32)
    if bit v 16 then clearLaneCounts s1 2 else s1
  else
    let h := headOf b
    let rs := mask 1 0 ||| mask 5 4
    let v0 := keepBad (limsOf (a / 4)) old v
    let held := (v0 ^^^ old) &&& rs != 0#32 && !stopped s (timer s h)
    let v1 := if held then merge v0 old rs else v0
    let on := ((List.range 8).any (fun l => (laneOf s (8 * b + l)).pstate != 0)) || !stopped s (timer s h)
    let refBad := bit old 6 && !bit v 6 && on
    let v2 := if refBad then v1 ||| bitAt 6 true else v1
    let s1 := setRegAt s a (v2 &&& 0x373#32)
    let s2 := if held then timingRefused s1 h else s1
    let s3 := if refBad then modLaneBlock s2 b (fun x => { x with refRefused := true }) else s2
    if bit v 16 then clearLaneCounts s3 b else s3

/-- A write of an equalisation word: one to the column in force takes effect at the lane's update point (09 R333). -/
def writeEq (s : State) (idx : Nat) (v : Word) : State :=
  let b := idx / 1024 - 9
  let l := 8 * b + (idx % 1024 - 0x100) / 6
  let c := (idx % 1024 - 0x100) % 6
  let s1 := setTable s idx (keepBad (limsOf idx) (getReg s idx) v &&& 0x3FF7FF#32)
  if c = bandInForce s then modLane s1 l (fun e => { e with eqPending := true }) else s1

end Sys2Proof.Machine
end

