-- ==== Sys2Proof/Machine/Loops.lean ====
section
/-! DEFINITION. The closed-loop control engine (12 R457 to R492): samples, the control law, outputs, supervision, the
loop ADCs, the inertial sensor controller, set-point pins and LED supply enables. -/

namespace Sys2Proof.Machine

/-- The control engine changed by `f`. -/
def modCle (s : State) (f : Cle → Cle) : State := { s with cle := f s.cle }

/-- The control engine runs: PD_CTRL serves and no BLOCK reach holds CLE (12 R492). -/
def cleRuns (s : State) : Bool := ctrlLive s && !blockHeld s 1

/-! ## Settings of a loop (12 R490) -/

/-- Base address of loop `n`'s configuration. -/
def loopBase (n : Nat) : Nat := 0x0F100 + 0x80 * n

/-- `CLE_Ln_CTRL`. -/
def loopCtrl (s : State) (n : Nat) : Word := regAt s (loopBase n)

/-- Loop `n` is enabled. -/
def loopEnabled (s : State) (n : Nat) : Bool := bit (loopCtrl s n) 0

/-- The input code of a loop (R462). -/
def loopInput (w : Word) : Nat := fld w 11 8

/-- The destination code of a loop (R480). -/
def loopDest (w : Word) : Nat := fld w 19 16

/-- The words of a loop that are shadowed, RATE to ERRWIN, by word index (R488). -/
def loopShadowWords (n : Nat) : List Nat := (List.range 28).map (fun k => loopBase n / 4 + 4 + k)

/-- Copy of loop `n`'s shadow (R488). -/
def loopShadow (s : State) (n : Nat) : Store Word :=
  (loopShadowWords n).foldl (fun m i => Store.put regReset m i (getReg s i)) []

/-- A word of loop `n` in force, by its offset. -/
def loopWord (s : State) (n off : Nat) : Word := Store.get regReset (loopOf s n).force ((loopBase n + off) / 4)

/-- A coefficient in force: a signed 32-bit integer (R471). -/
def loopInt (s : State) (n off : Nat) : Int := signed 32 (loopWord s n off).toNat

/-- The `k`-th 5-bit shift of a shift word in force (R471, R490). -/
def loopShift (s : State) (n off k : Nat) : Nat := fld (loopWord s n off) (5 * k + 4) (5 * k)

/-! ## The sample instant (12 R458 to R470) -/

/-- The latest converted code of a loop ADC channel. -/
def adcOf (s : State) (c : Nat) : Adc := Store.get (fun _ => Adc.reset) s.cle.adcs c

/-- A loop ADC channel changed by `f`. -/
def modAdc (s : State) (c : Nat) (f : Adc → Adc) : State :=
  modCle s (fun e => { e with adcs := Store.put (fun _ => Adc.reset) e.adcs c (f (adcOf s c)) })

/-- The raw measurement that an input code selects (R462), 0 for a code with no source. -/
def loopMeasure (s : State) (input : Nat) : Int :=
  if 1 ≤ input ∧ input ≤ 4 then (adcOf s (input - 1)).code
  else if 8 ≤ input ∧ input ≤ 13 then s.cle.imuWords.getD (input - 8) 0
  else 0

/-- The measurement lies at either end of its source's range (R462, R477). -/
def measureAtEnd (input : Nat) (x : Int) : Bool :=
  if 1 ≤ input ∧ input ≤ 4 then x == -2048 || x == 2047
  else if 8 ≤ input ∧ input ≤ 13 then x == -32768 || x == 32767
  else false

/-- The feed-forward value that a code selects, as latched (R463). Code 3 is taken in the computation. -/
def loopFeed (s : State) (ff : Nat) : Int :=
  match ff with
  | 1 => s.cle.totals.a
  | 2 => s.cle.totals.b
  | _ => 0

/-- The comparator whose events sample loop `n` now, none for its own timer (R459, 01 R39). -/
def loopChoice (s : State) (n : Nat) : Option Nat := (loopOf s n).inUse

/-- The source that loop `n` uses from its next instant on: what its selection names, while that is enabled (R459, 01 R39). -/
def loopSource (s : State) (n : Nat) : Option Nat := trigSource s (trigChoice (loopCtrl s n))

/-- A comparator that is disabled sends the loops that use it to their own timers at once (R459, 01 R39). -/
def loopsLeave (s : State) (n : Nat) : State :=
  (idxWhere 8 (fun m => (loopOf s m).inUse == some n)).foldl (fun acc m => modLoop acc m (fun e => { e with inUse := none })) s

/-- A sample instant of a loop, by its timer or by an event of the comparator selected (R458, R459, R460, R470, R488,
R489, 01 R39). -/
def loopSampleNow (s0 : State) (n : Nat) : State :=
  let s := takePulse s0 (.loop n)
  if !cleRuns s0 || blockStopped s0 8 || !loopEnabled s0 n || decide (8 ≤ n) || !trigTaken s0 (.loop n) (loopChoice s0 n) then s
  else
    let l := loopOf s n
    let next := loopSource s n
    match l.sample with
    | some _ => modLoop s n (fun e => { e with flags := setNBit e.flags 8 true, ignored := satAdd 0xFFFF e.ignored 1, inUse := next })
    | none =>
      let w := loopCtrl s n
      let x := loopMeasure s (loopInput w)
      let smp : LoopSample :=
        { x := x, ff := loopFeed s (fld w 14 12), target := signed 32 (regAt s (loopBase n + 0x0C)).toNat,
          atEnd := measureAtEnd (loopInput w) x,
          stale := decide (8 ≤ loopInput w) && decide (loopInput w ≤ 13) && !l.imuFresh, stage := 0, result := none,
          code := fld w 14 12 }
      let s1 := modLoop s n (fun e =>
        { e with sample := some smp, state := if e.clearDue then LoopState.zero else e.state, clearDue := false,
                 force := e.pending.getD e.force, pending := none, imuFresh := false, inUse := next })
      modCle s1 (fun e => { e with waiting := e.waiting ++ [n] })

/-- The engine, free, begins the computation of the sample that waits longest (R457, R458). -/
def loopComputeBegin (s : State) : State :=
  if !cleRuns s || s.cle.running.isSome then s
  else
    match s.cle.waiting with
    | [] => s
    | n :: rest =>
      modLoop (modCle s (fun e => { e with running := some n, waiting := rest })) n
        (fun e => { e with sample := e.sample.map (fun m => { m with stage := 1 }) })

/-! ## The law (12 R471 to R475) -/

/-- A product term: exact product, rounded and shifted right arithmetically (R471). -/
def lawT (c x : Int) (sh : Nat) : Int := (c * x + (if 0 < sh then 2 ^ (sh - 1) else 0)) / 2 ^ sh

/-- A number with whether a 64-bit accumulator saturated and whether sat32 changed a value (R471, R477). -/
structure Acc where
  val : Int
  acc : Bool
  nar : Bool

/-- One addition into the 64-bit accumulator, which saturates at ±(2^63 − 1) (R471). -/
def accAdd (a : Acc) (x : Int) : Acc :=
  let v := clampInt (-(2 ^ 63 - 1)) (2 ^ 63 - 1) (a.val + x)
  { a with val := v, acc := a.acc || v != a.val + x }

/-- A sum of terms in the accumulator, in the order written. -/
def accSum (xs : List Int) : Acc := xs.foldl accAdd { val := 0, acc := false, nar := false }

/-- Narrowing to 32 bits with saturation (R471). -/
def sat32 (a : Acc) : Acc :=
  let v := clampInt (-(2 ^ 31)) (2 ^ 31 - 1) a.val
  { a with val := v, nar := a.nar || v != a.val }

/-- A clamp whose upper limit prevails where the limits cross (R476). -/
def clampTop (lo hi x : Int) : Int := min hi (max lo x)

/-- The sign of a number. -/
def signOf (x : Int) : Int := if 0 < x then 1 else if x < 0 then -1 else 0

/-- The size of a number. -/
def absInt (x : Int) : Int := x.natAbs

/-- The ramp limiter: the new reference and velocity (R472). -/
def rampLaw (rate accel rt q v : Int) : Int × Int :=
  let d := rt - q
  if rate = 0 then (rt, 0)
  else if accel = 0 then
    let v1 := signOf d * min (absInt d) rate
    (q + v1, v1)
  else
    let b := absInt v * (absInt v + accel) / (2 * accel)
    let vn :=
      if v ≠ 0 ∧ signOf v = signOf d ∧ absInt d ≤ b then v - signOf v * min (absInt v) accel
      else v + clampInt (-accel) accel (signOf d * rate - v)
    let qn := q + vn
    if d ≠ 0 ∧ signOf (rt - qn) ≠ signOf d then (rt, 0) else (qn, vn)

/-- A biquad section's output for input `x` (R475): `cs` are its coefficients B0, B1, B2, A1, A2 with their shifts. -/
def biquadOut (cs : List (Int × Nat)) (f : Biquad) (x : Int) : Acc :=
  let c (i : Nat) : Int := (cs.getD i (0, 0)).1
  let sh (i : Nat) : Nat := (cs.getD i (0, 0)).2
  sat32 (accSum [lawT (c 0) x (sh 0), lawT (c 1) f.x1 (sh 1), lawT (c 2) f.x2 (sh 2), -lawT (c 3) f.y1 (sh 3),
    -lawT (c 4) f.y2 (sh 4)])

/-- A section's states after input `x` gave `y` (R475). -/
def biquadShift (f : Biquad) (x y : Int) : Biquad := { x1 := x, x2 := f.x1, y1 := y, y2 := f.y1 }

/-- Coefficients of section `k` (1 or 2) of loop `n` in force. -/
def biquadCoeffs (s : State) (n k : Nat) : List (Int × Nat) :=
  (List.range 5).map (fun i => (loopInt s n (0x34 + 0x14 * (k - 1) + 4 * i), loopShift s n (0x70 + 4 * (k - 1)) i))

/-- The chain from the integrator to the feed-forward sum for one value of I1 (R474): w0, w1, w2 and u0. -/
structure Chain12 where
  w0 : Acc
  w1 : Acc
  w2 : Acc
  u0 : Acc

/-- w0, w1, w2 and u0 of R474 for one value of I1. -/
def lawChain (s : State) (n : Nat) (st : LoopState) (p i1 d : Int) (ff : Int) : Chain12 :=
  let w0 := sat32 (accSum [p, i1, d])
  let w1 := biquadOut (biquadCoeffs s n 1) st.f1 w0.val
  let w2 := biquadOut (biquadCoeffs s n 2) st.f2 w1.val
  { w0 := w0, w1 := w1, w2 := w2, u0 := sat32 (accSum [w2.val, ff, loopInt s n 0x60]) }

/-- A 64-bit accumulator saturated somewhere in the chain. -/
def Chain12.accSat (c : Chain12) : Bool := c.w0.acc || c.w1.acc || c.w2.acc || c.u0.acc

/-- sat32 changed a value somewhere in the chain. -/
def Chain12.narSat (c : Chain12) : Bool := c.w0.nar || c.w1.nar || c.w2.nar || c.u0.nar

/-- The law after the limiter has given q and v (R474, R475). -/
def lawAfter (s : State) (n : Nat) (m : LoopSample) (st : LoopState) (q v : Int) : LoopResult :=
  let xo := sat32 (accSum [m.x, -loopInt s n 0x1C])
  let y := sat32 (accSum [lawT (loopInt s n 0x18) xo.val (loopShift s n 0x6C 0)])
  let e := sat32 (accSum [q, -y.val])
  let de := sat32 (accSum [e.val, -st.e1])
  let p := lawT (loopInt s n 0x20) e.val (loopShift s n 0x6C 1)
  let inc := lawT (loopInt s n 0x24) e.val (loopShift s n 0x6C 2)
  let d := lawT (loopInt s n 0x28) de.val (loopShift s n 0x6C 3)
  let lo := loopInt s n 0x30
  let hi := loopInt s n 0x2C
  let isum := sat32 (accSum [st.i, inc])
  let i1 := clampTop lo hi isum.val
  let f := if m.code = 3 then q else m.ff
  let ff := if m.code = 0 then 0 else lawT (loopInt s n 0x5C) f (loopShift s n 0x6C 4)
  let c1 := lawChain s n st p i1 d ff
  let umax := loopInt s n 0x64
  let umin := loopInt s n 0x68
  let wind := decide (umax < c1.u0.val ∧ 0 < inc) || decide (c1.u0.val < umin ∧ inc < 0)
  let i2 := if wind then clampTop lo hi st.i else i1
  let c := if wind then lawChain s n st p i2 d ff else c1
  let u := clampTop umin umax c.u0.val
  { state :=
      { q := q, v := v, i := i2, e1 := e.val, f1 := biquadShift st.f1 c.w0.val c.w1.val,
        f2 := biquadShift st.f2 c.w1.val c.w2.val },
    u := u, y := y.val, e := e.val,
    accSat := xo.acc || y.acc || e.acc || de.acc || isum.acc || c1.accSat || c.accSat,
    narSat := xo.nar || y.nar || e.nar || de.nar || isum.nar || c1.narSat || c.narSat,
    intHold := wind || i1 != isum.val, outSat := u != c.u0.val }

/-- The law for one sample (R472, R474). A reference outside 32 bits is a value that the spec does not state, on the same side
of the target in force (R473, log 34). -/
def lawRun (s : State) (n : Nat) (m : LoopSample) : LoopResult × State :=
  let st := (loopOf s n).state
  let (q, v) := rampLaw (loopInt s n 0x10) (loopInt s n 0x14) m.target st.q st.v
  if q < -(2 ^ 31) then
    let (k, s1) := drawBelow s (m.target + 2 ^ 31 + 1).toNat
    (lawAfter s1 n m st (k - 2 ^ 31) v, s1)
  else if 2 ^ 31 ≤ q then
    let (k, s1) := drawBelow s (2 ^ 31 - m.target).toNat
    (lawAfter s1 n m st (m.target + k) v, s1)
  else (lawAfter s n m st q v, s)

/-- A computation ends; the result of a sample that was discarded is dropped (R457, R474, R478). -/
def loopComputeFinish (s : State) : State :=
  match s.cle.running with
  | none => s
  | some n =>
    let s1 := modCle s (fun e => { e with running := none })
    match (loopOf s1 n).sample with
    | none => s1
    | some m =>
      if m.stage ≠ 1 then s1
      else
        let (r, s2) := lawRun s1 n m
        modLoop s2 n (fun e => { e with sample := some { m with stage := 2, result := some r } })

/-! ## The output phase (12 R476 to R486) -/

/-- A run of a loop has reached its limit, or a further multiple of it; a limit of 0 disables the check (R479, R485,
R486). -/
def runDue (run limit : Nat) : Bool := limit != 0 && run != 0 && run % limit == 0

/-- u goes to the loop's destination (R480, R483). -/
def loopDrive (s : State) (dest : Nat) (u : Int) : State :=
  if 1 ≤ dest ∧ dest ≤ 6 then setRegAt s (0x0F040 + 4 * (dest - 1)) (BitVec.ofInt 32 (clampInt 0 65535 u))
  else if dest = 8 ∨ dest = 9 then setRegAt s (0x0F060 + 4 * (dest - 8)) (BitVec.ofInt 32 u)
  else s

/-- Sticky flags that a committed sample sets (R477, R470, R485). -/
def commitFlags (m : LoopSample) (r : LoopResult) (errWin : Bool) (old : Nat) : Nat :=
  old ||| (2 * b2n r.accSat + 4 * b2n r.narSat + 8 * b2n r.intHold + 16 * b2n r.outSat + 32 * b2n m.atEnd
    + 64 * b2n m.stale + 128 * b2n errWin)

/-- A result is ready at its output phase: it is written and the states are committed (R476, R477, R479, R485, R486). -/
def loopCommitSample (s : State) (n : Nat) (m : LoopSample) (r : LoopResult) : State :=
  let w := loopCtrl s n
  let l := loopOf s n
  let lim := loopWord s n 0x78
  let supply := fld w 21 20
  let err := if loopInt s n 0x7C < absInt r.e then l.errRun + 1 else 0
  let sat := if r.outSat then l.satRun + 1 else 0
  let errDue := (supply == 1 || supply == 2) && runDue err (fld lim 23 16)
  let s1 := loopDrive s (loopDest w) r.u
  let s2 := modLoop s1 n (fun e =>
    { e with state := r.state, sample := none, flags := commitFlags m r errDue e.flags, satLive := r.outSat, ovrRun := 0,
             satRun := sat, errRun := err, out := r.u, meas := r.y })
  let s3 := if runDue sat (fld lim 15 8) then raise s2 39 0 n else s2
  let s4 := if m.atEnd then raise s3 40 0 n else s3
  if errDue then raise s4 (40 + supply) supply 0 else s4

/-- A result is not ready at its output phase: the sample is discarded whole (R478, R479). -/
def loopOverrun (s : State) (n : Nat) : State :=
  let run := (loopOf s n).ovrRun + 1
  let s1 := modLoop s n (fun e =>
    { e with sample := none, flags := setNBit e.flags 0 true, ovrRun := run, overruns := satAdd 0xFFFF e.overruns 1 })
  let s2 := modCle s1 (fun e => { e with waiting := e.waiting.filter (fun k => !(k == n)) })
  if runDue run (fld (loopWord s n 0x78) 7 0) then raise s2 38 0 n else s2

/-- The output phase of a loop's sample (R458, R476, R478). -/
def loopOutputNow (s : State) (n : Nat) : State :=
  if !cleRuns s then s
  else
    match (loopOf s n).sample with
    | none => s
    | some m =>
      match m.result with
      | some r => loopCommitSample s n m r
      | none => loopOverrun s n

/-! ## Configuration (12 R467, R482, R487 to R489) -/

/-- CLE_STATUS shows a refusal of loop `n` (R491, R487). -/
def cleRefuse (s : State) (n reason : Nat) : State :=
  modCle s (fun e => { e with refused := true, refusedLoop := n, reason := reason })

/-- An enabled loop has a destination. -/
def destOwned (s : State) (dest : Nat) : Bool :=
  dest != 0 && (List.range 8).any (fun n => loopEnabled s n && loopDest (loopCtrl s n) == dest)

/-- Mode of a loop ADC channel (R465). -/
def adcMode (s : State) (c : Nat) : Nat := regFld s 0x0F010 (8 * c + 1) (8 * c)

/-- A code of a loop's fields is reserved (R462, R463, R480, R490). -/
def loopCodeBad (w : Word) : Bool :=
  [5, 6, 7, 14, 15].contains (loopInput w) || decide (4 ≤ fld w 14 12)
    || !(decide (loopDest w ≤ 6) || loopDest w == 8 || loopDest w == 9) || fld w 21 20 == 3

/-- Why enabling loop `n` with control word `w` is refused, the lowest reason that holds (R467, R480, R487). -/
def loopEnableFail (s : State) (n : Nat) (w : Word) : Option Nat :=
  let period := regFld s (loopBase n + 4) 24 0
  let phase := regFld s (loopBase n + 8) 15 0
  if period < 1000 ∨ 20000000 < period then some 1
  else if phase < 128 ∨ (!bit w 1 ∧ period ≤ phase) then some 2
  else if destOwned s (loopDest w) then some 3
  else if 1 ≤ loopInput w ∧ loopInput w ≤ 4 ∧ adcMode s (loopInput w - 1) = 0 then some 4
  else if loopCodeBad w then some 5
  else none

/-- The fields of `CLE_Ln_CTRL` that only a disabled loop takes (R487). -/
def loopFields : Word := 0x003F7F1E#32

/-- A write of `CLE_Ln_CTRL` (R487, R489, 01 R36). -/
def writeLoopCtrl (s : State) (n : Nat) (v : Word) : State :=
  let old := loopCtrl s n
  let s1 := if bit v 5 then modLoop s n (fun e => { e with clearDue := true }) else s
  if bit old 0 then
    let s2 := if (v ^^^ old) &&& loopFields = 0#32 then s1 else cleRefuse s1 n 0
    if bit v 0 then s2 else setRegAt s2 (loopBase n) (old &&& ~~~1#32)
  else
    let s2 := setRegAt s1 (loopBase n) (v &&& loopFields)
    if bit v 0 then
      match loopEnableFail s2 n (v &&& loopFields) with
      | some r => cleRefuse s2 n r
      | none =>
        let s3 := setRegAt s2 (loopBase n) ((v &&& loopFields) ||| 1#32)
        modLoop s3 n (fun e => { e with clearDue := true, inUse := loopSource s3 n })
    else s2

/-- A write of `CLE_Ln_PERIOD` or `CLE_Ln_PHASE`, at offset 4 or 8 (R487). -/
def writeLoopTime (s : State) (n off : Nat) (v : Word) : State :=
  if loopEnabled s n then cleRefuse s n 0
  else setRegAt s (loopBase n + off) (v &&& (if off = 4 then 0x01FFFFFF#32 else 0xFFFF#32))

/-- A write of `CLE_COMMIT`: each loop named takes a pending set (R488). -/
def writeCleCommit (s : State) (v : Word) : State :=
  (List.range 8).foldl (fun acc n =>
    if bit v n then modLoop acc n (fun e => { e with pending := some (loopShadow acc n) }) else acc) s

/-- The enabled loops that read a loop ADC channel, lowest first. -/
def adcReaders (s : State) (c : Nat) : List Nat :=
  (List.range 8).filter (fun n => loopEnabled s n && loopInput (loopCtrl s n) == c + 1)

/-- A write of `CLE_ADC_CTRL`, channel by channel (R465, R467). -/
def writeAdcCtrl (s : State) (v : Word) : State :=
  (List.range 4).foldl (fun acc c =>
    let old := regAt acc 0x0F010
    let m := mask (8 * c + 4) (8 * c)
    let mode := fld v (8 * c + 1) (8 * c)
    if mode = 3 then setRegAt acc 0x0F010 (merge old v (mask (8 * c + 4) (8 * c + 2)))
    else
      match if mode = 0 then (adcReaders acc c).head? else none with
      | some n => cleRefuse acc n 4
      | none => setRegAt acc 0x0F010 (merge old v m)) s

/-- A host write of `CLE_SETP_n` for n below 6, of `CLE_LEVEL_A` for 6 and `CLE_LEVEL_B` for 7 (R482). -/
def writeSetpoint (s : State) (n : Nat) (v : Word) : State :=
  if n < 6 then
    if destOwned s (n + 1) then modCle s (fun e => { e with setpRefused := true })
    else setRegAt s (0x0F040 + 4 * n) (v &&& 0xFFFF#32)
  else if destOwned s (n + 2) then modCle s (fun e => { e with levelRefused := true })
  else setRegAt s (0x0F060 + 4 * (n - 6)) v

/-! ## Drive totals, loop ADCs and set-point pins (12 R464 to R466, R481) -/

/-- One drive total leaves the FIFO of its head (R464). A BLOCK reach of CLE does not stop it. -/
def totalArrives (s : State) (h : Head) : State :=
  if !ctrlLive s then s
  else
    match s.cle.fifo.get h with
    | [] => s
    | v :: rest =>
      modCle s (fun e =>
        { e with totals := e.totals.set h v.1, repeated := e.repeated.set h v.2, fifo := e.fifo.set h rest })

/-- The comparator that a loop ADC channel's selection names in TRIG mode (R465; an idle channel's at once, log 74). -/
def adcChoice (s : State) (c : Nat) : Option Nat :=
  if adcMode s c = 2 then some (regFld s 0x0F010 (8 * c + 4) (8 * c + 2)) else none

/-- A conversion of a loop ADC channel begins, on a trigger or back to back; a start during one is ignored (R465, 01 R39). -/
def adcStart (s0 : State) (c : Nat) : State :=
  let s := takePulse s0 (.adc c)
  if !cleRuns s0 || decide (4 ≤ c) || adcMode s0 c == 0 || (adcOf s0 c).converting || !trigTaken s0 (.adc c) (adcChoice s0 c) then
    s
  else modAdc s c (fun a => { a with converting := true })

/-- A conversion ends with its 12-bit code (R465, R466). -/
def adcEnd (s : State) (c : Nat) (code : Half) : State :=
  if !cleRuns s || !(adcOf s c).converting then s
  else modAdc s c (fun a => { code := signed 12 code.toNat, count := (a.count + 1) % 65536, converting := false })

/-- A PWM period of a set-point pin starts and takes the latest duty (R481). -/
def setpStart (s : State) (n : Nat) : State :=
  if !ctrlLive s || decide (6 ≤ n) || !regBit s 0x0F030 n then s
  else
    let p := (Store.get (fun _ => 0) s.cle.setpPeriod n + 1) % 16
    modCle s (fun e =>
      { e with setpTaken := Store.put (fun _ => 0) e.setpTaken n (regFld s (0x0F040 + 4 * n) 15 0),
               setpPeriod := Store.put (fun _ => 0) e.setpPeriod n p })

/-- Four bits in reverse order (R481). -/
def rev4 (k : Nat) : Nat := 8 * (k % 2) + 4 * (k / 2 % 2) + 2 * (k / 4 % 2) + k / 8 % 2

/-- Cycles for which set-point pin `n` is high in the period in progress, from its start (R481). -/
def setpHigh (s : State) (n : Nat) : Nat :=
  if regBit s 0x0F030 n then
    let d := Store.get (fun _ => 0) s.cle.setpTaken n
    d / 16 + b2n (decide (rev4 (Store.get (fun _ => 0) s.cle.setpPeriod n % 16) < d % 16))
  else 0

/-! ## The inertial sensor controller (12 R468, R469) -/

/-- The comparator that the IMU's selection names: a change takes effect as a transaction ends (R468, 01 R39). -/
def imuChoice (s : State) : Option Nat := if s.cle.imuBusy then s.cle.imuSource else trigChoice (regAt s 0x0F080)

/-- A transaction begins on a trigger or on the timer; one that arrives during another is ignored and counted (R468,
01 R39). -/
def imuStart (s0 : State) : State :=
  let s := takePulse s0 .imu
  if !cleRuns s0 || !regBit s0 0x0F080 0 || !trigTaken s0 .imu (imuChoice s0) then s
  else if s.cle.imuBusy then modCle s (fun e => { e with imuIgnored := satAdd 255 e.imuIgnored 1 })
  else
    emit (modCle s (fun e => { e with imuBusy := true, imuSource := imuChoice s }))
      (.imu ((leBytes 4 (regAt s 0x0F088).toNat).take (regFld s 0x0F080 18 16)))

/-- Free values for the bytes past those read, up to `n` of them (log 35). -/
def drawBytes (s : State) : Nat → List Byte × State
  | 0 => ([], s)
  | n + 1 =>
    let (b, s1) := drawBelow s 256
    let (bs, s2) := drawBytes s1 n
    (BitVec.ofNat 8 b :: bs, s2)

/-- Word `k` of an inertial sensor read (R469). -/
def imuWord (s : State) (data : List Byte) (k : Nat) : Int :=
  let o := regFld s 0x0F08C (4 * k + 3) (4 * k)
  if regBit s 0x0F080 7 then signed 16 (256 * byteAt data o + byteAt data (o + 1))
  else signed 16 (byteAt data o + 256 * byteAt data (o + 1))

/-- The status byte passes (R469). -/
def imuStatusOk (s : State) (data : List Byte) : Bool :=
  let w := regAt s 0x0F090
  !bit w 31 || byteAt data (fld w 3 0) &&& fld w 15 8 == fld w 23 16

/-- A transaction ends (R469). -/
def imuEnd (s : State) (data : List Byte) : State :=
  if !cleRuns s || !s.cle.imuBusy then s
  else
    let got := fit (regFld s 0x0F080 23 20 + 1) data
    let (more, s0) := drawBytes s (17 - got.length)
    let all := got ++ more
    let s1 := modCle s0 (fun e => { e with imuBusy := false })
    let same := if got = s.cle.imuLast then s.cle.imuSame else 0
    let count := regFld s 0x0F094 7 0
    if imuStatusOk s all && (count == 0 || decide (same < count)) then
      let s2 := modCle s1 (fun e =>
        { e with imuWords := (List.range 6).map (imuWord s all), imuValid := true, imuLast := got, imuSame := same + 1,
                 imuFailing := false })
      let s3 := (List.range 8).foldl (fun acc n => modLoop acc n (fun l => { l with imuFresh := true })) s2
      setLevel s3 43 0 3 0 false
    else
      setLevel (modCle s1 (fun e => { e with imuFailing := true, imuFailed := satAdd 0xFFFF e.imuFailed 1 })) 43 0 3 0 true

/-! ## LED supply enables (12 R484) -/

/-- A write of `CLE_LEN`. -/
def writeLen (s : State) (v : Word) : State := setRegAt s 0x0F008 (v &&& 3#32)

end Sys2Proof.Machine
end

