-- ==== Sys2Proof/Machine/Checks.lean ====
section
/-! DEFINITION. The host check-unit contexts and their jobs (14 R507 to R521). -/

namespace Sys2Proof.Machine

/-- Base address of a context's registers (14 R520). -/
def crcBase (c : Nat) : Nat := 0x11100 + 0x20 * c

/-- The check units run: PD_CTRL serves and no BLOCK reach holds CRC. -/
def crcRuns (s : State) : Bool := ctrlLive s && !blockHeld s 3

/-- Context `c`'s own state. -/
def crcCtx (s : State) (c : Nat) : CrcCtx := Store.get (fun _ => CrcCtx.reset) s.crc.ctxs c

/-- Context `c`'s own state changed by `f`. -/
def modCrcCtx (s : State) (c : Nat) (f : CrcCtx → CrcCtx) : State :=
  { s with crc := { s.crc with ctxs := Store.put (fun _ => CrcCtx.reset) s.crc.ctxs c (f (crcCtx s c)) } }

/-- A fetched descriptor is a job of context `c` (14 R510). -/
def Work.jobOf (w : Work) (c : Nat) : Bool := w.role == 7 && w.desc.opcode == 7 && w.dcrcOk && dByte w.desc 8 == c

/-- The job that a context executes (14 R510). -/
def crcHolder (s : State) (c : Nat) : Option Work := s.rng.work.find? (fun w => w.jobOf c && !w.held)

/-- Context `c` is held: by a job from its fetch on, one that its BARRIER holds included (14 R510). -/
def crcHeld (s : State) (c : Nat) : Bool := s.rng.work.any (fun w => w.jobOf c)

/-- A context's parameters (14 R507, R521). -/
def crcParamsOf (s : State) (c : Nat) : CrcParams :=
  let b := crcBase c
  { w := regFld s b 5 0, poly := (regAt s (b + 4)).toNat, init := (regAt s (b + 8)).toNat, refin := regBit s b 8,
    refout := regBit s b 9, xorout := (regAt s (b + 0xC)).toNat }

/-- The first offending field of a CRC_JOB against its context (14 R513, 02 R78). -/
def crcJobBad (s : State) (d : Desc) : Option Nat :=
  let c := dByte d 8
  let p := crcParamsOf s c
  let fold := regFld s (crcBase c) 14 12
  let ctxBad := decide (3 < c) || decide (p.w < 8) || decide (32 < p.w) || p.poly % 2 == 0
    || decide (2 ^ p.w ≤ p.poly) || decide (2 ^ p.w ≤ p.init) || decide (2 ^ p.w ≤ p.xorout)
  minDetail (flagsBad d) (firstFail
    [ (ctxBad, 8), (decide (4 ≤ dByte d 9), 9), ((firstNonZero d [(10, 2)]).isSome, (firstNonZero d [(10, 2)]).getD 10),
      (decide (16777216 < dNat d 12 4), 12),
      (if nbit (dByte d 9) 1 then decide (2 ^ p.w ≤ dNat d 24 4) else dNat d 24 4 != 0, 24),
      (if nbit (dByte d 9) 0 then decide (256 ^ fold ≤ dNat d 28 4) else dNat d 28 4 != 0, 28),
      ((firstNonZero d [(32, 28)]).isSome, (firstNonZero d [(32, 28)]).getD 32) ])

/-- A job of no data has reached its completion point by its fetch (14 R516). -/
def crcEmpty (d : Desc) : Bool := d.opcode == 7 && dNat d 12 4 == 0

/-- A descriptor leaves with ABORTED, the word of a CRC_JOB being 0 (02 R94, 14 R514). -/
def abortHeld (s : State) (w : Work) : State :=
  if w.role = 7 ∧ w.desc.opcode = 7 then completeWord s w.ring w.slot 3 0 0#32 0#32 else completeAt s w.ring w.slot 3 0 0#32

/-- A CRC_JOB executes: it is refused with the field that the check at its fetch found, or it works in its context; a job of
no data is past its completion point (14 R513, R516). -/
def crcFetch (s : State) (ring slot : Nat) (d : Desc) (bad : Option Nat) : State :=
  match bad with
  | some k => completeAt s ring slot 0x10 k 0#32
  | none => if dNat d 12 4 = 0 then stageWork s ring slot 2 else s

/-- Jobs and mismatches of a context count on (14 R515, R520). -/
def crcCount (s : State) (c mism : Nat) : State :=
  modCrcCtx s c (fun e => { e with jobs := satAdd 0xFFFF e.jobs 1, mismatches := satAdd 0xFFFF e.mismatches mism })

/-- The job of a context ends with the bytes read (14 R514, R515). -/
def crcEnds (s : State) (c : Nat) (data : List Byte) (w : Work) : State :=
  let d := w.desc
  let p := crcParamsOf s c
  let start := if nbit (dByte d 9) 0 then crcFeed p p.init (leBytes (regFld s (crcBase c) 14 12) (dNat d 28 4))
    else (regAt s (crcBase c + 0x10)).toNat
  let r := crcFeed p start (fit (dNat d 12 4) data)
  let s1 := setRegAt s (crcBase c + 0x10) (BitVec.ofNat 32 r)
  if nbit (dByte d 9) 1 then
    let res := crcFinish p r
    let s2 := modCrcCtx s1 c (fun e => { e with result := BitVec.ofNat 32 res })
    if res = dNat d 24 4 then completeWord (crcCount s2 c 0) w.ring w.slot 0 0 (BitVec.ofNat 32 res) 0#32
    else
      let s3 := raise (crcCount s2 c 1) 45 3 0
      let s4 := if regBit s3 0x11004 7 then signalMsix s3 (regFld s3 0x11004 4 0) else s3
      completeWord s4 w.ring w.slot 0x31 0 (BitVec.ofNat 32 res) 0#32
  else completeWord (crcCount s1 c 0) w.ring w.slot 0 0 (BitVec.ofNat 32 r) 0#32

/-- A job ends: one of no data reads nothing of the host, and so ends while the host side is down too (14 R514, R516,
02 R102). -/
def crcJobEnds (s : State) (c : Nat) (data : HostRead) : State :=
  if !crcRuns s then s
  else
    match crcHolder s c with
    | none => s
    | some w =>
      if crcEmpty w.desc then crcEnds s c [] w
      else if !hostReads s then s
      else
        match data with
        | .failed k => completeWord (hostFails s k) w.ring w.slot 0x40 0 0#32 0#32
        | .internalError => completeWord s w.ring w.slot 0x41 2 0#32 0#32
        | .data bs => crcEnds s c bs w

/-- A write to a held context is refused (14 R511). -/
def crcRefuse (s : State) (c : Nat) : State := { s with crc := { s.crc with refused := true, refusedCtx := c } }

/-- A preset's parameters are loaded into a context (14 R512). -/
def crcLoad (s : State) (c : Nat) (p : CrcParams) : State :=
  let b := crcBase c
  let cfg := merge (regAt s b) (at_ 0 p.w ||| bitAt 8 p.refin ||| bitAt 9 p.refout) 0x33F#32
  setRegAt (setRegAt (setRegAt (setRegAt s b cfg) (b + 4) (BitVec.ofNat 32 p.poly)) (b + 8) (BitVec.ofNat 32 p.init))
    (b + 0xC) (BitVec.ofNat 32 p.xorout)

/-- A write of `CRC_c_CFG` (14 R511, R512, R521). -/
def writeCrcCfg (s : State) (c : Nat) (v : Word) : State :=
  if crcHeld s c then crcRefuse s c
  else
    let b := crcBase c
    let s1 := setRegAt s b (keepBad [⟨14, 12, [(0, 4)]⟩] (regAt s b) (v &&& 0x733F#32))
    match crcPreset (fld v 18 16) with
    | some p => crcLoad s1 c p
    | none => s1

/-- A write of `CRC_c_POLY`, `_INIT`, `_XOROUT` or `_RUN` at its offset (14 R511). -/
def writeCrcWord (s : State) (c off : Nat) (v : Word) : State :=
  if crcHeld s c then crcRefuse s c else setRegAt s (crcBase c + off) v

end Sys2Proof.Machine
end

