-- ==== Sys2Proof/Machine/Collector.lean ====
section
/-! DEFINITION. The fault collector's own commands and registers (15 R523, R525, R527, R534 to R543) and the event records
that leave it. -/

namespace Sys2Proof.Machine

/-! ## Assertions that come as such (15 R528) -/

/-- The parity of a tone entry or of an equalisation word, by its BAR0 word, fails from now on (06 R230, 09 R336). -/
def badTableWord (s : State) (w : Nat) : State :=
  let eq (base : Nat) (n : Nat) : Bool := decide (base + 0x100 ≤ w) && decide (w < base + 0x100 + 6 * n)
  if (0xA400 ≤ w ∧ w < 0xB800 ∧ (w - 0xA400) % 0x500 < 1025) ∨ eq 0x2400 8 ∨ eq 0x2800 8 ∨ eq 0x2C00 2 then tableSpoilt s w false
  else s

/-- A source asserts. FS01 and FS02 with the address they met act as 03 R116 and R117 say; FS60 and FS61 spoil the sweep in
progress (15 R533), FS60 with the address of a table's word being a failed parity of it (06 R230, 09 R336). -/
def assertSource (s : State) (source part heads detail addr : Nat) : State :=
  let w := addr / 16 % 2 ^ 21
  if source = 1 ∧ memLive s then corrected s (physicalOf s w) false
  else if source = 2 ∧ memLive s then
    uncorrectable s (bankOfWord s w) (some w) true (storedError s (physicalOf s w) == some (2, true))
  else if source = 0 ∨ 63 ≤ source then s
  else if isLevel source then setLevel s source part heads detail true
  else
    let s0 := if source = 60 then badTableWord s (addr / 4) else s
    let s1 := if source = 60 ∨ source = 61 then spoilSweeps s0 (heads % 4) else s0
    raise s1 source (heads % 4) detail

/-- The condition of an instance of a level source becomes false (15 R524, R538). -/
def clearCondition (s : State) (source part : Nat) : State := setLevel s source part 0 part false

/-! ## Event records (15 R539, R540) -/

/-- The body of a fault event record (15 R540), its phase bit and check value apart. -/
def eventBody (s : State) (e : Entry) : List Byte :=
  leBytes 1 2 ++ leBytes 1 (2 * b2n e.clear + 4 * b2n e.injected + 8 * b2n s.flt.lostSince + 16 * b2n e.clearSeen)
    ++ leBytes 1 e.source ++ leBytes 1 (e.severity + 16 * e.heads) ++ leBytes 2 e.repeats ++ leBytes 2 e.detail
    ++ leBytes 4 e.setTime.toNat ++ leBytes 4 e.clearTime.toNat ++ leBytes 4 e.fsnA.toNat ++ leBytes 4 e.fsnB.toNat
    ++ leBytes 4 s.flt.lost ++ leBytes 2 (Store.get (fun _ => 0) s.flt.counts e.source)

/-- An output opportunity: the entry opened earliest is written or dropped (15 R539). Entries of sources that have been masked
since are no longer pending (15 R540, log 93). -/
def eventOut (s : State) : State :=
  if !fltJudges s then s
  else
    match s.flt.entries.filter (fun e => !eventMasked s e.source) with
    | [] => modFlt s (fun f => { f with entries := [] })
    | e :: rest =>
      let s1 := modFlt s (fun f => { f with entries := rest })
      match writeRecord s1 18 (eventBody s e) with
      | (true, s2) =>
        let m : DWord := 1#64 <<< e.source
        modFlt s2 (fun f =>
          { f with lostSince := false, taken := if isLevel e.source ∧ conditionOf s e.source then f.taken ||| m else f.taken &&& ~~~m })
      | (false, s2) => modFlt s2 (fun f => { f with lost := satAdd 0xFFFFFFFF f.lost 1, lostSince := true })

/-! ## Registers (15 R523, R525, R527, R536, R542) -/

/-- A word as bits 31 to 0 or 63 to 32 of a double word. -/
def halfMask (high : Bool) (v : Word) : DWord := BitVec.ofNat 64 (v.toNat * (if high then 2 ^ 32 else 1))

/-- A write of `FLT_STICKY_LO` or `FLT_STICKY_HI`. -/
def writeSticky (s : State) (high : Bool) (v : Word) : State := clearSticky s (halfMask high v)

/-- A write of `FLT_CNT_CLR_LO` or `FLT_CNT_CLR_HI`. -/
def writeCntClr (s : State) (high : Bool) (v : Word) : State :=
  let m := halfMask high v
  modFlt s (fun f => { f with counts := f.counts.filter (fun e => !m.getLsbD e.1) })

/-- A write of `FLT_FIRST_0`: 1 to valid frees the record. -/
def writeFirst (s : State) (v : Word) : State := if bit v 31 then modFlt s (fun f => { f with firstValid := false }) else s

/-- The fields of a write of `FLT_SEV_k` that are refused, lowest source first (15 R527). -/
def sevRefusals (s : State) (k : Nat) (v : Word) : List Nat :=
  ((List.range 8).map (fun i => 8 * k + i)).filter (fun src =>
    src != 0 && src != 63
      && (decide (6 ≤ sevNibble v.toNat (src % 8)) || decide (sevNibble v.toNat (src % 8) < floorOf s src)))

/-- A write of `FLT_SEV_k`: the fields that are not refused are applied, and standing requests follow (15 R527, R529). -/
def writeSev (s : State) (k : Nat) (v : Word) : State :=
  let a := 0x12020 + 4 * k
  let bad := sevRefusals s k v
  let keep := (List.range 8).filter (fun i => bad.contains (8 * k + i) || 8 * k + i == 0 || 8 * k + i == 63)
  let w := keep.foldl (fun acc i => merge acc (regAt s a) (mask (4 * i + 3) (4 * i))) (v &&& 0x77777777#32)
  let s1 := setRegAt s a w
  let s2 := match bad with
    | [] => s1
    | b :: _ => modFlt s1 (fun f => { f with sevRefused := true, refusedSrc := b })
  settle s2

/-! ## Self-protection and injection (15 R541, R543, R544) -/

/-- The collector's self-check fails (15 R541). -/
def selfFail (s : State) (injected : Bool) : State :=
  if !fltJudges s || s.flt.self then s
  else raiseInj (modFlt s (fun f => { f with self := true })) 0 3 0 injected

/-- Sources that an injection may name (15 R543). -/
def injectable (src : Nat) : Bool := [0, 1, 2, 4, 5, 10, 21, 22, 54, 58, 60].contains src

/-- A write of `FLT_INJ` (15 R543): one of FS00 is spent in the next cycle. A refused write changes nothing of the register
(15 R542), not an injection armed before either (log 93). -/
def writeInj (s : State) (v : Word) : State :=
  let w := v &&& 0x0FFFF33F#32
  if !bit v 31 then setLevel (setRegAt s 0x12080 w) 62 0 3 0 false
  else if !injectable (fld v 5 0) || fld v 9 8 == 0 || fld v 9 8 == 3 then
    modFlt s (fun f => { f with injRefused := true })
  else
    let s1 := setLevel (setRegAt s 0x12080 (w ||| bitAt 31 true)) 62 0 3 0 true
    if fld v 5 0 = 0 then selfFail (spendInj s1) true else s1

/-! ## Clock monitor (15 R534, R535) -/

/-- Twice a clock's nominal count, and the lower and upper parts per thousand of its window (15 R534). -/
def clockWindow : Nat → Option (Nat × Nat × Nat)
  | 0 => some (50000, 970, 1015)
  | 1 => some (20000, 985, 1015)
  | 2 => some (25000, 985, 1015)
  | 3 => some (25000, 980, 1015)
  | 4 => some (15625, 980, 1015)
  | 5 => some (15625, 980, 1015)
  | _ => none

/-- A count lies inside its clock's window; REF, clock 6, has a lower bound only (15 R534). -/
def clockInside (clock count : Nat) : Bool :=
  match clockWindow clock with
  | some (n, lo, hi) => decide (n * lo ≤ 2000 * count) && decide (2000 * count ≤ n * hi)
  | none => decide (3052 ≤ count)

/-- A clock is monitored now: its domain serves, and OFF has not stopped it (15 R522, R535, 18 R611). -/
def clockWatched (s : State) (clock : Nat) : Bool :=
  match clock with
  | 0 => aoLive s && pllsRun s
  | 1 => ctrlLive s
  | 2 => ctrlLive s
  | 3 => hostLive s
  | 4 => linkLive s .a
  | 5 => linkLive s .b
  | 6 => aoLive s && (pllsRun s || regBit s 0x15000 4)
  | _ => false

/-- The AO monitor requests HUSK for a clock, or no longer does (15 R535). -/
def aoClockSet (s : State) (clock : Nat) (on : Bool) : State :=
  settle (modFlt s (fun f =>
    { f with aoClock := if on then (if f.aoClock.contains clock then f.aoClock else f.aoClock ++ [clock])
                        else f.aoClock.filter (fun c => c != clock) }))

/-- FS50's condition for a clock changes. While CORE is outside its window nothing is recorded: what becomes true waits until
the collector runs on a valid CORE clock (15 R535). -/
def clockCondition (s : State) (clock : Nat) (on : Bool) : State :=
  if on && s.flt.aoClock.contains 0 then
    if s.flt.live.any (fun e => e.1 == 50 && e.2.1 == clock) then s
    else modFlt s (fun f => { f with live := f.live ++ [(50, clock, 3, clock)], owed := f.owed ++ [(50, 3, clock)] })
  else setLevel s 50 clock 3 clock on

/-- A gate of a monitored clock ends with its count (15 R534, R535): FS50's condition follows two gates on one side, the
direct HUSK request of CORE and REF each gate (16 R549). -/
def clockGate (s : State) (clock count : Nat) : State :=
  if !clockWatched s clock then s
  else
    let zero : Nat → Nat := fun _ => 0
    let inside := clockInside clock count
    let s1 := modFlt s (fun f =>
      { f with clkOut := Store.put zero f.clkOut clock (if inside then 0 else Store.get zero f.clkOut clock + 1),
               clkIn := Store.put zero f.clkIn clock (if inside then Store.get zero f.clkIn clock + 1 else 0) })
    let s2 := if clock = 0 ∨ clock = 6 then aoClockSet s1 clock (!inside) else s1
    let s3 := if !inside ∧ 2 ≤ Store.get zero s1.flt.clkOut clock then clockCondition s2 clock true
      else if inside ∧ 2 ≤ Store.get zero s1.flt.clkIn clock then clockCondition s2 clock false
      else s2
    if clock = 0 ∧ inside then raiseOwed s3 else s3

end Sys2Proof.Machine
end

