-- ==== Sys2Proof/Machine/Sweep.lean ====
section
/-! DEFINITION. Raster timing, commit and stitch (08): the timing check, head start and stop, TG_COMMIT, what a cut applies,
composition of a sweep (04 R165 to R171, 06, 07), the packets of a frame (10 R374), the stitch and the stitch point. -/

namespace Sys2Proof.Machine

/-! ## Limits of the timing and of the tile map (08 R288, R310) -/

/-- A path's timing breaks a limit of 08 R288. -/
def timingFail (s : State) (path : Head) (t : Timing) : Bool :=
  let w := activeW s path
  let v := activeH s path
  let ht := totalH s path t
  let vb := t.vlines * t.lp
  decide (w < 32) || decide (4096 < w) || w % 32 != 0 || decide (v < 32) || decide (2048 < v) || v % 32 != 0
    || decide (1048576 < w * v) || t.hfp == 0 || t.hsync == 0 || t.hbp == 0 || decide (t.hfp + t.hsync + t.hbp < 16)
    || t.vfp == 0 || t.vsync == 0 || t.vbp == 0 || decide (t.vlines < 8)
    || decide (t.lp < 64 * 256) || decide (t.lp * 5 < 4 * totalW s path t * 256)
    || decide (ht * t.lp < (if t.trigMode then 1031353 else 1041666) * 256) || decide (16666667 * 256 < ht * t.lp)
    || decide (t.delay < 64) || decide (vb < t.slack * 4 * 256) || decide (vb < (t.delay + t.slack) * 256 + t.lp)

/-- Two tiles overlap. -/
def tilesMeet (s : State) (h : Head) (a b : Nat) : Bool :=
  decide (tileX s h a < tileX s h b + tileW s h b) && decide (tileX s h b < tileX s h a + tileW s h a)
    && decide (tileY s h a < tileY s h b + tileH s h b) && decide (tileY s h b < tileY s h a + tileH s h a)

/-- A tile's own figures are within 08 R310. -/
def tileOk (s : State) (h : Head) (t : Nat) : Bool :=
  let w := tileW s h t
  let v := tileH s h t
  decide (32 ≤ w) && decide (w ≤ 1024) && w % 32 == 0 && decide (32 ≤ v) && decide (v ≤ 512) && v % 32 == 0
    && decide (w * v ≤ 131072) && decide (tileX s h t + w ≤ activeW s h) && decide (tileY s h t + v ≤ activeH s h)

/-- The tile map of a head satisfies 08 R310. -/
def tileMapOk (s : State) (h : Head) : Bool :=
  let ts := enabledTiles s h
  !ts.isEmpty && ts.all (tileOk s h) && ts.all (fun a => ts.all (fun b => a == b || !tilesMeet s h a b))
    && (ts.map (fun t => tileW s h t * tileH s h t)).foldl (· + ·) 0 == activeN s h

/-! ## RWS words (08 R301) -/

/-- Byte addresses of a head's own timing words that are RWS (08 R313). -/
def tgWords (h : Head) : List Nat :=
  tgBase h :: [0x18, 0x1C, 0x20, 0x24, 0x28, 0x2C, 0x30, 0x34, 0x38].map (fun o => tgBase h + o)

/-- Byte addresses of a head's RWS words in BLD and PXC (06 R244, 07 R285). -/
def pathWords (h : Head) : List Nat :=
  [bldBase h, 0x18000, pxcBase h + 8, pxcBase h + 0xC] ++ (List.range 8).map (fun t => pxcBase h + 0x80 + 4 * t)
    ++ (List.range 32).map (fun k => pxcBase h + 0x200 + 4 * k)

/-- The words in force with some of them replaced by their shadows. -/
def snapshot (s : State) (h : Head) (words : List Nat) : Store Word :=
  words.foldl (fun m a => Store.put regReset m (a / 4) (regAt s a)) (s.tg.get h).force

/-- The shadow set that a commit of head `h` checks: in joined mode generator A's commit carries both paths' words (08 R311,
log 32). -/
def shadowSet (s : State) (h x : Head) : Store Word := snapshot s x (if x = h then tgWords x ++ pathWords x else pathWords x)

/-! ## PWM (07 R276) -/

/-- A number of splits meets the PWM step limit (07 R276): the step is at least 6.4 ns. -/
def splitsMeet (s : State) (path : Head) (n : Nat) : Bool :=
  decide (64 * 65536 * n * (2 ^ depthOf s path - 1) ≤ 10 * frameUnits s path (timingOf s path))

/-- The splits in force for a written number, at least one (07 R276). -/
def splitsFor (s : State) (path : Head) (n : Nat) : Nat :=
  ((List.range n).map (fun k => n - k)).find? (splitsMeet s path) |>.getD 1

/-- The splits that a cut puts in force (07 R276, R284). -/
def splitsCut (s : State) (path : Head) : State :=
  let n := forceFld s (timer s path) (pxcBase (timer s path) + 8) 5 0
  let m := splitsFor s path n
  modPxc s path (fun e => { e with splits := m, limited := decide (m < n) })

/-! ## What a cut applies (08 R305, R734) -/

/-- A pending commit comes into force; a change of blend mode invalidates the flatten entry (06 R235, 08 R305). -/
def forceApply (s : State) (h : Head) : State :=
  match (s.tg.get h).pending with
  | none => s
  | some p =>
    let was := lightMode s h
    let s1 := modTg s h (fun t => { t with force := p, pending := none })
    if lightMode s1 h == was then s1
    else (served s1 h).foldl (fun acc x => modBld acc x (fun b => { b with flatValid := false })) s1

/-- A tone bank whose swap is pending comes into force (06 R229). -/
def toneApply (s : State) (h : Head) : State :=
  modBld s h (fun b => if b.swap = 2 then { b with swap := 0, bank := 1 - b.bank } else b)

/-- Bytes of head `h`'s block in a safety image (16 R569). -/
def blockOf (image : List Byte) (h : Head) : List Byte := (image.drop (64 + 512 * Head.idx h)).take 512

/-- The head block of the safety configuration joins the applied state (16 R573). -/
def blockApply (s : State) (h : Head) : State :=
  modSafHead s h (fun e => { e with block := s.saf.image.map (fun b => blockOf b h) })

/-- The derate step's band (01 R42, 07 R263). -/
def bandApply (s : State) (h : Head) : State := modPxc s h (fun e => { e with band := bandInForce s })

/-- The leveling offset is taken (01 R41, 12 R483). -/
def pitchApply (s : State) (h : Head) : State :=
  modTg s h (fun t => { t with pitch := signed 32 (regAt s (0x0F060 + 4 * Head.idx h)).toNat })

/-- Everything due at a cut of head `h` is applied (01 R25, 08 R305, R734). -/
def cutApply (s : State) (h : Head) : State :=
  let old := (s.ly.get (timer s h)).slots
  let s1 := calApply (listsApply (setsApply (forceApply s h) h) h) h
  let s2 := degradeApply (blockApply (toneApply s1 h) h) h
  flatSettle (splitsCut (pitchApply (bandApply (headroomApply s2 h) h) h) h) h old

/-- The cut of every head that generator `h` times: in joined mode Head B's path takes its selections with it. A HUSK pattern
that the safety configuration changes is placed at once (16 R551). -/
def cutApplyAll (s : State) (h : Head) : State := settle ((served s h).foldl cutApply s)

/-! ## Head start and stop (08 R295 to R299, R734) -/

/-- The plan with a head's start assumed. -/
def startPlan (s : State) (h x : Head) : HeadPlan :=
  let p := appliedPlan s x
  if timer s x = timer s h then { p with runs := true } else p

/-- The light-memory and budget checks of a start: the client or region that fails (03 R110). -/
def startMemFail (s : State) (h : Head) : Option Nat :=
  match (served s h).findSome? (regionFail s) with
  | some k => some k
  | none => budgetFail s (startPlan s h)

/-- A lane of a head carries PRBS or a loopback (09 R347). -/
def lanesTested (s : State) (h : Head) : Bool :=
  (List.range 8).any (fun l => regFld s (lnBase h + 0x100 + 0x20 * l) 9 4 != 0)

/-- The tile link of a path refuses a start (08 R296, 09 R347, 10 R377). -/
def startLinkFail (s : State) (h : Head) : Bool :=
  !(enabledTiles s h).all (fun t => linkReady s h t && tileCovers s h t)
    || decide (packBits (packingOf s h) < depthOf s h) || !lanesCarry s h (timingOf s h) || lanesTested s h

/-- A slot of the applied state refuses a start (08 R296). -/
def startSlotFail (s : State) (h : Head) : Bool :=
  let slots := (s.ly.get h).slots
  (lineBufFail s h slots).isSome
    || (enabledSlots slots).any (fun i =>
      let sl := slotIn slots i
      let (x0, y0, dw, dh) := destOf s h sl
      dw == 0 || dh == 0 || decide (rasterW s h < x0 + dw) || decide (rasterH s h < y0 + dh) || !cornersOk s h sl
        || (sl.shadow && (!regBit s (shdBase h) 0 || !regBit s 0x20000 (Head.idx h))))

/-- Joined mode refuses a start (08 R312, 09 R352). -/
def startJoinFail (s : State) : Bool :=
  joined s && (activeH s .a != activeH s .b || decide (2097152 < activeN s .a + activeN s .b)
    || (regAt s (lnBase .a) ^^^ regAt s (lnBase .b)) &&& (mask 1 0 ||| mask 5 4) != 0#32)

/-- The first reason that refuses a start of head `h` (08 R296). -/
def startFail (s : State) (h : Head) : Option Nat :=
  firstFail
    [ ((startMemFail s h).isSome, 1), ((served s h).any (fun p => timingFail s p (timingOf s h)), 2),
      (!(served s h).all (tileMapOk s), 3), ((served s h).any (startLinkFail s), 4), (startSlotFail s h, 5),
      (startJoinFail s, 6) ]

/-- The generator's state shown on every head it times. -/
def setTgState (s : State) (h : Head) (v : Nat) : State := (served s h).foldl (fun acc x => modTg acc x (fun t => { t with state := v })) s

/-- The start cut (08 R297, R734). -/
def startCut (s : State) (h : Head) : State :=
  let s1 := cutApplyAll s h
  let s2 := (served s1 h).foldl (fun acc x =>
    checkCap (modPxc (modPwr acc (fun p => { p with started := p.started.set x true })) x (fun e => { e with startCycle := acc.tim.cycles }))
      x ((acc.tg.get h).pending.map (fun _ => timingShadow acc h))) s1
  buildMask (modTg s2 h (fun t =>
    { t with due := true, active := false, stitchOpen := false, waiting := false, trigSeen := false })) h (emissionAtStart s2 h)

/-- Writing 1 to run of a STOPPED head: the head-start check (08 R296, R297). Nothing starts while the pixel path stands still
for a low-power state (18 R616, log 90). -/
def startHead (s : State) (h : Head) : State :=
  if blockStopped s 1 then s else
  let s0 := setTgState s h 1
  match startFail s0 h with
  | none => startCut s0 h
  | some r =>
    let s1 := modTg (setTgState s0 h 0) h (fun t => { t with startRefused := true, startReason := r })
    if r = 1 then modLmm s1 (fun m => { m with startRefused := true, detail := (startMemFail s0 h).getD 0 }) else s1

/-- Writing 0 to run of a head that starts or runs (08 R299). -/
def stopHead (s : State) (h : Head) : State := setTgState s h 3

/-- Entering joined mode: Head B's registers read as Head A's (08 R311), and hold those values when the mode is left
(DESIGN CHOICE, log 23). -/
def joinHeads (s : State) : State :=
  modTg s .b (fun t => { t with fsn := s.tg.a.fsn, cutTime := s.tg.a.cutTime, stitchTime := s.tg.a.stitchTime })

/-- The joined bit may change only while both generators are STOPPED (08 R300, R312); the heads' safety states follow the
requests that act on them from then on (16 R555). -/
def writeJoined (s : State) (v : Word) : State :=
  if bit v 1 == joined s then s
  else if stopped s .a && stopped s .b then
    let s1 := setRegAt s 0x07000 (merge (regAt s 0x07000) v (bitAt 1 true))
    settle (if joined s1 then joinHeads s1 else s1)
  else timingRefused s .a

/-- A write of `TGx_CTRL` (08 R295, R300, R301, R311, R313). -/
def writeTgCtrl (s : State) (h : Head) (v : Word) : State :=
  let s1 := if h = .a then writeJoined s v else s
  if joined s1 && h == .b then
    setRegAt s1 (tgBase .b) (merge (regAt s1 (tgBase .b)) v 0x74#32)
  else
    let s2 := setRegAt s1 (tgBase h) (merge (regAt s1 (tgBase h)) v 0x75#32)
    let st := (s2.tg.get h).state
    if bit v 0 then (if st = 0 then startHead s2 h else s2)
    else if st = 1 ∨ st = 2 then stopHead s2 h
    else s2

/-! ## TG_COMMIT (08 R301 to R303) -/

/-- Writing 1 to `TGx_COMMIT.commit` (08 R301, R311). -/
def commitWrite (s : State) (h : Head) : State :=
  if joined s && h == .b then modTg s .b (fun t => { t with commitError := true, commitReason := 4 })
  else (served s h).foldl (fun acc x => modTg acc x (fun t => { t with checking := some (shadowSet s h x), commitWait := false })) s

/-- A shadow-source slot that levels with too little vertical blanking (05 R197). -/
def levelFail (t : Timing) (slots : Store Slot) : Bool :=
  (enabledSlots slots).any (fun i =>
    let sl := slotIn slots i
    sl.shadow && sl.flag 2 && decide (t.vlines < sl.range + 2))

/-- The timing that a set of words describes. -/
def timingIn (h : Head) (m : Store Word) : Timing := timingFrom (fun o => Store.get regReset m ((tgBase h + o) / 4))

/-- The first reason that fails the check of a commit, over the applied state and every state that checked change sets lead
through (08 R301, 03 R122). -/
def commitFail (s : State) (h : Head) (m : Store Word) : Option Nat :=
  let t := timingIn h m
  let plan (slots : Head → Store Slot) (x : Head) : HeadPlan :=
    let p := planWith s slots x
    if timer s x = timer s h then { p with timing := t } else p
  firstFail
    [ ((served s h).any (fun p => timingFail s p t), 1), ((slotStates s).any (fun x => (budgetFail s (plan x)).isSome), 2),
      ((checkedStates s h).any (levelFail t), 3) ]

/-- A commit's timing changes how long the data of some host-memory slot lasts (02 R51, 08 R302). -/
def commitRates (s : State) (h : Head) (m : Store Word) : Bool :=
  let s1 := modTg s h (fun t => { t with force := m })
  (slotHeads s).any (fun x => (checkedStates s x).any (fun slots => hostRates s x slots != hostRates s1 x slots))

/-- A checked commit becomes pending; on a STOPPED head it applies at once (08 R298, R301). -/
def commitPend (s : State) (h : Head) : State :=
  let s1 := (served s h).foldl (fun acc x =>
    modTg acc x (fun t => { t with pending := t.checking, checking := none, commitWait := false })) s
  let s2 := (served s1 h).foldl (fun acc x => checkCap acc x ((s1.tg.get h).pending.map (timingIn h))) s1
  if noCut s2 h then (served s2 h).foldl (fun acc x => splitsCut (forceApply acc x) x) s2 else s2

/-- The check of a commit ends (08 R301, R302). -/
def commitCheckEnd (s : State) (h : Head) : State :=
  match (s.tg.get h).checking with
  | none => s
  | some m =>
    if (s.tg.get h).commitWait || !pixLive s then s
    else
      match commitFail s h m with
      | some r =>
        (served s h).foldl (fun acc x => modTg acc x (fun t => { t with checking := none }))
          (modTg s h (fun t => { t with commitError := true, commitReason := r }))
      | none =>
        let s1 := modTg s h (fun t => { t with commitWait := true })
        let tol := toleranceNow s1
        let s1 := ltrJudged s1
        if commitRates s h m && ltrLower s.hif.ltrLast tol && ltrDiffers s.hif.ltrLast tol then
          if s.hif.ltrHoldoff then { s1 with hif := { s1.hif with ltrHeld := some tol } } else commitPend (sendLtr s1 tol) h
        else commitPend s1 h

/-- Commits that waited for a tolerance message become pending once it has gone (08 R302). -/
def commitsAfterLtr (s : State) : State :=
  if s.hif.ltrHeld.isSome then s
  else bothHeads.foldl (fun acc h => if (acc.tg.get h).commitWait then commitPend acc h else acc) s

/-! ## Composition (01 R15, 04 R165 to R171, 06, 07) -/

/-- The fetch of a host-memory slot for a sweep, as rows in the line buffer at the sweep's start and bytes read in all. -/
def sweepFetch (sources : List SlotFetch) (i : Nat) : Option (Nat × List Byte) :=
  (sources.find? (fun e => e.slot == i)).bind (fun e => match e.data with
    | .data bs => some (e.rows, bs)
    | _ => none)

/-- The bytes that a sweep's fetch brought for a host-memory slot. -/
def sweepSource (sources : List SlotFetch) (i : Nat) : Option (List Byte) := (sweepFetch sources i).map Prod.snd

/-- What a sweep's fetch can have brought: nothing while the host cannot be read (02 R99). -/
def fetched (s : State) (sources : List SlotFetch) : List SlotFetch := if hostLive s && s.hif.linkUp then sources else []

/-- The failed reads of a sweep's fetch show in HIF_ERR (02 R48, R49). -/
def sweepFails (s : State) (sources : List SlotFetch) : State :=
  sources.foldl (fun acc e => match e.data with
    | .failed k => hostFails acc k
    | _ => acc) s

/-- First raster line of a slot's destination (04 R150). -/
def firstLine (s : State) (h : Head) (sl : Slot) : Nat := (destOf s h sl).2.1

/-- A slot is ready at a sweep start (04 R165, R166): for host memory, every source row that its first raster line needs is in
the line buffer. -/
def readyAtSweep (s : State) (h : Head) (sources : List SlotFetch) (i : Nat) : Bool :=
  let sl := slotOf s h i
  slotReady s sl (match sweepFetch sources i with
    | some (rows, bs) =>
      decide (rowsNeeded s h sl (s.tg.get h).pitch (firstLine s h sl) ≤ Nat.min rows (sl.rowsIn bs.length))
    | none => false)

/-- The first raster line at which the rows read of a slot do not suffice (04 R167). -/
def lateLine (s : State) (h : Head) (sl : Slot) (rows : Nat) : Option Nat :=
  if sl.height ≤ rows then none
  else
    ((List.range (destOf s h sl).2.2.2).map (fun k => firstLine s h sl + k)).find? (fun y =>
      decide (rows < rowsNeeded s h sl (s.tg.get h).pitch y))

/-- The slot and line of the first row that a sweep's fetch does not bring in time (04 R167). -/
def firstLate (s : State) (h : Head) (sources : List SlotFetch) (use : List Nat) : Option (Nat × Nat) :=
  use.foldl (fun acc i =>
    let sl := slotOf s h i
    if sl.kind ≠ 0 then acc
    else
      match lateLine s h sl (sl.rowsIn ((sweepSource sources i).getD []).length), acc with
      | some y, none => some (i, y)
      | some y, some (j, z) => if y < z then some (i, y) else some (j, z)
      | none, a => a) none

/-- A mask of slots. -/
def slotMask (is : List Nat) : Nat := is.foldl (fun acc i => acc ||| 2 ^ i) 0

/-- The check value of a slot's rows agrees (04 R169). -/
def sourceOk (sl : Slot) (bs : List Byte) : Bool :=
  let line := lineBytes sl.format sl.width
  let rows := ((List.range sl.height).map (fun y => (bs.drop (y * sl.stride)).take line)).flatten
  crc32c rows == sl.pb 60 4 0

/-- The plan of a sweep of one path (04 R166, 06 R223, R224, R235). -/
def sweepPlan (s : State) (h path : Head) (sources : List SlotFetch) (use : List Nat) : Plan :=
  let slots := (s.ly.get h).slots
  let run := flatRun s h slots
  { head := h, path := path,
    order := (blendOrder s h slots).filter use.contains,
    sources := sources.filterMap (fun e => (sweepSource sources e.slot).map (fun bs => (e.slot, bs))),
    pitch := (s.tg.get h).pitch, run := run, cached := (s.bld.get path).flatValid && !run.isEmpty }

/-- Counts and total of a composed path. -/
structure PathSums where
  lowered : Nat
  raised : Nat
  saturated : Nat
  exhausted : Nat
  total : Nat

/-- The counts and the drive total of a path's pixels (06 R240, R241, 07 R286). -/
def pathSums (outs : List PixelOut) : PathSums :=
  { lowered := (outs.filter (fun o => decide (o.vout < o.vin))).length,
    raised := (outs.filter (fun o => decide (o.vin < o.vout))).length,
    saturated := (outs.filter (fun o => o.saturated)).length, exhausted := (outs.filter (fun o => o.exhausted)).length,
    total := (outs.map (fun o => o.vout)).foldl (· + ·) 0 / 256 % 2 ^ 32 }

/-- The back buffer's number. -/
def backBuffer (s : State) (h : Head) : Nat := 1 - (s.tg.get (timer s h)).front

/-- The line of the first pixel of a path for which something holds. -/
def firstLineOf (s : State) (path : Head) (outs : List PixelOut) (f : PixelOut → Bool) : Option Nat :=
  (outs.findIdx? f).map (· / Nat.max 1 (activeW s path))

/-- One path of a sweep is composed into its back buffer, from the state at the sweep start `s0`. The flatten cache is
rebuilt where it is not valid, and its entry can become valid only where every slot of the run takes part (06 R235). -/
def composePath (s0 : State) (f : Nat) (s : State) (p : Plan) : State :=
  let outs := (pathPixels s0 p.path).map (fun q => pixelOut s0 p f q.1 q.2)
  let sums := pathSums outs
  let s1 := clientWrite s (frameBase s0 p.path (backBuffer s0 p.path)) ((outs.map (fun o => leBytes 2 o.code)).flatten)
  let rebuild := !p.run.isEmpty && !p.cached
  let s2 := if rebuild then
      clientWrite s1 (regionBase s0 (2 + Head.idx p.path)) ((outs.map (fun o => leBytes 2 o.flat)).flatten)
    else s1
  let s3 := modBld s2 p.path (fun b =>
    { b with composedTotal := sums.total, clampedNow := sums.lowered, liftedNow := sums.raised,
             firstLowered := firstLineOf s0 p.path outs (fun o => decide (o.vout < o.vin)),
             firstRaised := firstLineOf s0 p.path outs (fun o => decide (o.vin < o.vout)),
             rebuilding := rebuild && p.run.all p.order.contains && p.run.all (fun i => slotReady s (slotOf s p.head i) false),
             fromCache := p.cached, rebuilds := if rebuild then satAdd 0xFFFF b.rebuilds 1 else b.rebuilds })
  modPxc s3 p.path (fun e => { e with saturatedNow := sums.saturated, exhaustedNow := sums.exhausted })

/-- A tone entry read for some pixel of a path (06 R227, R230). -/
def toneRead (s : State) (p : Plan) (k : Nat) : Bool :=
  lightMode s p.head && (pathPixels s p.path).any (fun q =>
    let i := blendValue s p q.1 q.2 / 64
    i == k || i + 1 == k)

/-- A word of BAR0 is an entry of the tone bank in force of a plan's head that the sweep reads for some pixel of its path
(06 R227, R244). -/
def toneWordRead (s : State) (p : Plan) (w : Nat) : Bool :=
  let h := timer s p.head
  let base := (0x29000 + 0x2800 * Head.idx h + 0x1400 * (s.bld.get h).bank) / 4
  decide (base ≤ w) && decide (w < base + 1025) && toneRead s p (w - base)

/-- An injection armed for a tone entry that is read inverts its parity bit (15 R543). -/
def toneInject (s : State) (p : Plan) : State :=
  let w := regFld s 0x12080 27 12
  if injArmed s 60 && toneWordRead s p w then
    tableSpoilt (spendInj s) w true
  else s

/-- Every tone entry that a sweep reads is checked: one whose parity fails raises TABLE_PARITY, once in the sweep of a path
(DESIGN CHOICE, log 87), the sweep is not stitched, and the entry stays as it is (06 R230). -/
def toneParity (s : State) (p : Plan) : State :=
  let s1 := toneInject s p
  (s1.tableBad.filter (fun e => toneWordRead s1 p e.1)).foldl (fun acc e =>
    spoilSweep (raiseInj acc 60 (Head.bitOf p.head) 0 e.2) p.head) s1

/-! ## The packets of a frame (07 R277 to R279, 10 R370, R374) -/

/-- Nominal frame period in symbol slots, to nearest (10 R370). -/
def periodSlots (s : State) (h : Head) : Nat := divRound (frameUnits s h (timingOf s h) * symbolRate s h) (10000 * 65536)

/-- FRAME_BEGIN (10 R370). -/
def frameBegin (s : State) (h : Head) (t : Nat) (f : Word) : Packet :=
  let b := pxcBase h
  { ptype := 2, fsn := f.toNat % 65536,
    body := fit 32 (leBytes 4 f.toNat ++ leBytes 4 (periodSlots s h)
      ++ [BitVec.ofNat 8 (s.pxc.heads.get (timer s h)).splits,
          BitVec.ofNat 8 (regFld s (b + 0x10) 11 0 / 4 ^ (s.pxc.heads.get h).band % 4),
          BitVec.ofNat 8 (forceFld s h (b + 0x80 + 4 * t) 7 0), 0#8]
      ++ ((List.range 4).map (fun q => leBytes 4 (forceAt s h (b + 0x200 + 16 * t + 4 * q)).toNat)).flatten) }

/-- The off-interval of a code in a PWM period is at least 1.5 µs (07 R279). -/
def offFits (s : State) (h : Head) (c : Nat) : Bool :=
  let top := 2 ^ depthOf s h - 1
  decide (1500 * 65536 * (s.pxc.heads.get (timer s h)).splits * top ≤ (top - c) * frameUnits s h (timingOf s h))

/-- Rows of a tile that its probe cursor names in this frame (07 R278). -/
def probeRow (s : State) (h : Head) (t row : Nat) : Bool :=
  let n := tileH s h t
  let cur := Store.get (fun _ => 0) (s.pxc.heads.get h).cursors t
  regBit s 0x18000 (4 + Head.idx h) && decide ((row + n - cur % Nat.max 1 n) % Nat.max 1 n < probeRows s h (timingOf s h) t)

/-- Deferrals of a pixel in a row (07 R279). -/
def deferred (s : State) (h : Head) (p : Nat) : Nat := Store.get (fun _ => 0) (s.pxc.heads.get h).deferrals p

/-- The probe of a pixel with a code: 0 none, 1 FV, 2 ON, 3 OFF, 4 deferred (07 R279). -/
def probeKind (s : State) (h : Head) (t row col c : Nat) : Nat :=
  let p := (tileY s h t + row) * activeW s h + tileX s h t + col
  if !(probeRow s h t row || decide (0 < deferred s h p)) then 0
  else if c = 0 then 1
  else if c = 2 ^ depthOf s h - 1 then 2
  else if offFits s h c then 3
  else if 7 ≤ deferred s h p then 2
  else 4

/-- The PROBES body of a row, none where the row carries no kind (10 R370, R374). -/
def probePacket (s : State) (h : Head) (t row : Nat) (f : Word) (cs : List Nat) : List Packet :=
  let ks := (List.range cs.length).map (fun x =>
    let k := probeKind s h t row x (cs.getD x 0)
    if k = 4 then 0 else k)
  if ks.all (fun k => k == 0) then []
  else
    let bytes := (List.range ((cs.length + 3) / 4)).map (fun i =>
      BitVec.ofNat 8 (ks.getD (4 * i) 0 + 4 * ks.getD (4 * i + 1) 0 + 16 * ks.getD (4 * i + 2) 0 + 64 * ks.getD (4 * i + 3) 0))
    [{ ptype := 4, fsn := f.toNat % 65536, body := leBytes 2 row ++ [0#8, 0#8] ++ bytes }]

/-- The packets of one row (10 R374). -/
def rowPackets (s : State) (h : Head) (t b : Nat) (f : Word) (row : Nat) : List Packet :=
  let cs := tileRow s h t b row
  probePacket s h t row f cs
    ++ [{ ptype := 3, fsn := f.toNat % 65536, body := leBytes 2 row ++ [0#8, 0#8] ++ packRow (packingOf s h) cs }]

/-- FRAME_END of a tile, with the count of the frame's packets, itself among them (10 R370, R374). -/
def frameEnd (s : State) (h : Head) (t b : Nat) (f : Word) : Packet :=
  let n := ((List.range (tileH s h t)).map (fun row => (rowPackets s h t b f row).length)).foldl (· + ·) 2
  { ptype := 5, fsn := f.toNat % 65536, body := fit 8 (leBytes 4 f.toNat ++ leBytes 2 n) }

/-- The packets of a tile that the composition of raster line `y` makes ready: its row's, and FRAME_END after the last
(10 R374). -/
def linePackets (s : State) (h : Head) (b : Nat) (f : Word) (y t : Nat) : List Packet :=
  if tileY s h t ≤ y ∧ y < tileY s h t + tileH s h t then
    rowPackets s h t b f (y - tileY s h t) ++ (if y + 1 = tileY s h t + tileH s h t then [frameEnd s h t b f] else [])
  else []

/-- Probe rows per tile of the frame that a sweep sends (07 R278). -/
def probeRowsSent (s : State) (h : Head) : Store Nat :=
  (enabledTiles s h).foldl (fun m t =>
    Store.put (fun _ => 0) m t (if regBit s 0x18000 (4 + Head.idx h) then probeRows s h (timingOf s h) t else 0)) []

/-- Probe kinds of the frame that a sweep sends, as (pixel, kind) (07 R279). -/
def probeKindsSent (s : State) (h : Head) (b : Nat) : List (Nat × Nat) :=
  (enabledTiles s h).flatMap (fun t => (List.range (tileH s h t)).flatMap (fun row =>
    let cs := tileRow s h t b row
    ((List.range cs.length).map (fun x => ((tileY s h t + row) * activeW s h + tileX s h t + x,
      probeKind s h t row x (cs.getD x 0)))).filter (fun k => k.2 != 0)))

/-- What is left of an earlier sweep's packets makes way for FRAME_BEGIN of a new one (10 R374, R375, log 33). -/
def beginFrame (s : State) (h : Head) (f : Word) : State :=
  (enabledTiles s h).foldl (fun acc t =>
    sendPackets (modTile acc h t (fun e => { e with queue := e.queue.filter (fun p => !p.ofFrame) })) h t
      [frameBegin s h t f]) s

/-- The packets of a sweep's first `lines` lines leave in the order in which the lines become ready, the lower tile first
(10 R374), and the probes that they carry are noted (07 R278, R279). -/
def sendFrame (s : State) (h : Head) (f : Word) (lines : Nat) : State :=
  let b := backBuffer s h
  let s1 := modPxc (beginFrame s h f) h (fun e => { e with sentRows := probeRowsSent s h, sentKinds := probeKindsSent s h b })
  (List.range lines).foldl (fun acc y =>
    (enabledTiles s h).foldl (fun a t =>
      match linePackets s h b f y t with
      | [] => a
      | ps => sendPackets a h t ps) acc) s1

/-! ## The sweep's start (04 R166 to R168, 08 R287, R292, R297) -/

/-- The slots that are not ready, and whether they hold the frame (04 R166). -/
def notReadySlots (s : State) (h : Head) (sources : List SlotFetch) : List Nat :=
  (enabledSlots (s.ly.get h).slots).filter (fun i => !readyAtSweep s h sources i)

/-- A slot that is not ready holds the frame (04 R166). -/
def holdsFrame (sl : Slot) : Bool := !sl.drop || !isBase sl.operator

/-- LAYER_NOT_READY of a sweep: its first slot in the detail (04 R168, 15 R540). -/
def notReadyFault (s : State) (h : Head) (is : List Nat) : State :=
  match is with
  | [] => s
  | i :: _ => raise s 13 (Head.bitOf h) i

/-- Slots whose source check fails in this sweep, their rows read to the last (04 R169). -/
def sourceBad (s : State) (h : Head) (sources : List SlotFetch) (use : List Nat) : List Nat :=
  use.filter (fun i =>
    let sl := slotOf s h i
    let bs := (sweepSource sources i).getD []
    sl.kind == 0 && sl.flag 4 && decide (sl.height ≤ sl.rowsIn bs.length) && !sourceOk sl bs)

/-- The light memory that the composition of a path reads, as (address, bytes): what its part of the raster needs of the
resident and shadow-source slots that it does not take from the flatten cache, that cache, and the calibration, health and
dose maps (03 R115, R117, 04 R178). -/
def composeReads (s : State) (p : Plan) : List (Nat × Nat) :=
  let i := Head.idx p.path
  let n := activeN s p.path
  let used := p.order.filter (fun k => !(p.cached && p.run.contains k))
  used.flatMap (fun k => slotReads s p.head p.path (slotOf s p.head k) p.pitch)
    ++ (if p.cached then [(regionBase s (2 + i), 2 * n)] else [])
    ++ [(regionBase s 6 + partOffset p.path, n / 2), (regionBase s 7 + partOffset p.path, n / 2), (regionBase s 8 + 0x100000 * i, n)]

/-- The composition and the transmission of a sweep read the light memory, each word checked (03 R115). -/
def sweepReads (s : State) (plans : List Plan) (ranges : Plan → List (Nat × Nat)) : State :=
  plans.foldl (fun acc p => clientRead acc (some p.path) (ranges p)) s

/-- The lines of a sweep that are composed: all, or those before the row that came late (04 R167). -/
def linesComposed (s : State) (h x : Head) : Nat := if (s.tg.get h).full then activeH s x else (s.ly.get h).lateLine

/-- The active part of a sweep that is not held: composition, and the frame's packets (04 R166, R167, R169, 10 R374). -/
def composeSweep (s : State) (h : Head) (sources : List SlotFetch) (use : List Nat) : State :=
  let f := (s.tg.get h).fsn + 1#32
  let s1 := modTg s h (fun t => { t with composed := true, full := true })
  let s2 := sweepReads s1 ((served s h).map (fun p => sweepPlan s h p sources use)) (composeReads s1)
  let plans := (served s h).map (fun p => sweepPlan s h p sources use)
  let s3 := plans.foldl (composePath s2 f.toNat) s2
  let s4 := match firstLate s h sources use with
    | some (i, y) => abandonRow s3 h i y
    | none => s3
  let s5 := (sourceBad s h sources use).foldl (fun acc i => spoilSweep (raise acc 14 (Head.bitOf h) i) h) s4
  let s6 := plans.foldl toneParity s5
  let s7 := sweepReads s6 plans (fun p => [(frameBase s6 p.path (backBuffer s6 p.path), 2 * activeN s6 p.path)])
  (served s h).foldl (fun acc x => sendFrame acc x f (linesComposed s7 h x)) s7

/-- The active part begins: readiness is decided and the sweep is composed or held (04 R166). -/
def beginSweep (s : State) (h : Head) (sources : List SlotFetch) : State :=
  let nr := notReadySlots s h sources
  let held := nr.any (fun i => holdsFrame (slotOf s h i))
  let runHit := (flatRun s h (s.ly.get h).slots).any nr.contains
  let s1 := modTg (setTgState s h (if (s.tg.get h).state = 3 then 3 else 2)) h (fun t =>
    { t with active := true, due := false, waiting := false, trigSeen := false, composed := false, full := false })
  let s2 := (served s1 h).foldl (fun acc x =>
    modPxc (modBld (modTg acc x (fun t => { t with driveAccepted := false })) x (fun b =>
      { b with firstLowered := none, firstRaised := none, fromCache := false })) x (fun e => { e with lostDose := [] })) s1
  let s3 := modLy s2 h (fun y =>
    { y with notReady := slotMask nr, dropped := if held then 0 else slotMask nr,
             holds := if held then satAdd 0xFFFF y.holds 1 else y.holds,
             drops := if held then y.drops else satAdd 0xFFFF y.drops nr.length })
  let s4 := if runHit then (served s3 h).foldl (fun acc x => modBld acc x (fun b => { b with flatValid := false })) s3 else s3
  let s5 := notReadyFault (sweepFails s4 sources) h nr
  if held then s5 else composeSweep s5 h sources ((enabledSlots (s.ly.get h).slots).filter (fun i => !nr.contains i))

/-- The head's sweeps start from a comparator that is enabled (08 R291, R294). -/
def triggered (s : State) (h : Head) : Bool :=
  let t := timingOf s h
  t.trigMode && trigEnabled s t.trigSel

/-- A stopping head enters STOPPED: what has fallen due since its last cut takes effect, and a retirement waits no longer for
a stitch point of it (08 R299, R734, 03 R130). -/
def enterStopped (s : State) (h : Head) : State :=
  let s1 := modTg (setTgState s h 0) h (fun x => { x with due := false, waiting := false, trigSeen := false })
  (served s1 h).foldl (fun acc x => retireSwitch acc x) (cutApplyAll s1 h)

/-- The next sweep of a generator is due to start (08 R292, R297, R299). -/
def sweepStarts (s : State) (h : Head) (sources : List SlotFetch) : State :=
  let t := s.tg.get h
  if !pixLive s || timer s h != h || t.state == 0 || !t.due || t.active then s
  else if triggered s h && !t.trigSeen then modTg s h (fun x => { x with waiting := true })
  else if t.state = 3 then enterStopped s h
  else
    let early := triggered s h && !t.waiting && t.state == 2
    beginSweep (if early then modTg s h (fun x => { x with early := satAdd 0xFFFF x.early 1 }) else s) h (fetched s sources)

/-- A trigger event reaches a generator (08 R291, R292, R297): while its first sweep's instant has not come it is
ignored. -/
def triggerArrives (s : State) (h : Head) : State :=
  let t := s.tg.get h
  if !pixLive s || timer s h != h || t.state == 0 || !triggered s h || (t.state == 1 && !t.waiting) then s
  else modTg s h (fun x => { x with trigSeen := true })

/-- The trigger wait runs out (08 R292); the first sweep of a head has no wait limit (08 R297). -/
def triggerWaitEnds (s : State) (h : Head) : State :=
  let t := s.tg.get h
  if t.waiting && t.state != 1 && !t.trigSeen && pixLive s then
    modTg s h (fun x => { x with trigSeen := true, missed := satAdd 0xFFFF x.missed 1 })
  else s

/-- A row of a slot is late: the sweep is abandoned and the frame held (04 R167, R168, R176), whether the row was to come from
host memory, from RESIDENT or, for a shadow source, from the mask (05 R208). A slot dropped at the sweep's start, or read from
the flatten cache by every path that needs it (04 R178, R179), cannot be late. -/
def rowLate (s : State) (h : Head) (slot line : Nat) : State :=
  let slots := (s.ly.get h).slots
  let cached := (flatRun s h slots).contains slot
    && (pathsOf s h).all (fun p => (s.bld.get p).fromCache || (pathCols s h p (slotIn slots slot)).2 == 0)
  if timer s h != h || !(slotIn slots slot).enabled || nbit (s.ly.get h).dropped slot || cached || !decide (slot < 8) then s
  else abandonRow s h slot line

/-! ## The end of the active part (06 R235, R240, 07 R256 to R258, R268, R286) -/

/-- Temperature bin of a tile (07 R256). -/
def doseBin (s : State) (h : Head) (t : Option Nat) : Nat :=
  match t with
  | none => 7
  | some k =>
    let v := (tileOf s h k).temperature
    if v = 0x8000 then 7 else (clampInt 0 7 ((signed 16 v + 640) / 400)).toNat

/-- One block's dose (07 R256), `f` being the frame period in units of 2^−16 ns: the fresh value of the head's LFSR is a free
value (log 3). A word that read as uncorrectable in this frame takes none (03 R117). -/
def doseBlock (s : State) (path : Head) (f : Nat) (bx by_ : Nat) : State :=
  let b := backBuffer s path
  let n := depthOf s path
  let code (x y : Nat) : Nat := codeAt s path b x y * 2 ^ (16 - n)
  let sum := code (2 * bx) (2 * by_) + code (2 * bx + 1) (2 * by_) + code (2 * bx) (2 * by_ + 1) + code (2 * bx + 1) (2 * by_ + 1)
  let w := regFld s (0x18020 + 4 * doseBin s path (tileAt s path (2 * bx) (2 * by_))) 15 0
  let p := sum * f * w * 2 ^ 32 / (262140 * 28800000000000 * 4096)
  let (r, s1) := drawBelow s (2 ^ 48)
  let a := doseAddr s1 path (2 * bx) (2 * by_)
  if r < p ∧ mem16 s1 a < 65535 ∧ !(s.pxc.heads.get path).lostDose.contains (a / 16) then clientWrite s1 a (leBytes 2 (mem16 s1 a + 1)) else s1

/-- The dose of a sweep of one path, `full` when it was composed: under HUSK or DARK it adds none and is counted (07 R256,
R258). -/
def doseSweep (s : State) (path : Head) (full : Bool) : State :=
  if 2 ≤ (s.saf.heads.get path).state then modPxc s path (fun e => { e with doseSkip := satAdd 0xFFFFFFFF e.doseSkip 1 })
  else if !full then s
  else
    let f := frameUnits s path (timingOf s path)
    let s0 := clientRead s (some path) [(regionBase s 7 + partOffset path, activeN s path / 2)]
    (List.range (activeH s path / 2)).foldl (fun acc y =>
      (List.range (activeW s path / 2)).foldl (fun a x => doseBlock a path f x y) acc) s0

/-- Pixels whose drive headroom is used up become WEAK (07 R268). -/
def weakSweep (s : State) (path : Head) : State :=
  (List.range (activeN s path)).foldl (fun acc p =>
    let st := healthOf acc path p
    let x := p % activeW acc path
    let y := p / activeW acc path
    if (st = 0 ∨ st = 15) ∧ 2 ^ 38 < wearGain acc path x y then
      pixelCandidate (raise (writeHealth acc path p 1) 27 (Head.bitOf path) ((tileAt acc path x y).getD 0)) path p 1
    else acc) s

/-- The clamp faults of a path's sweep, `lines` lines of which were composed (06 R240). -/
def clampFaults (s : State) (path : Head) (lines : Nat) : State :=
  let hit (l : Option Nat) : Bool := l.any (fun y => decide (y < lines))
  let s1 := if hit (s.bld.get path).firstLowered then raise s 17 (Head.bitOf path) 0 else s
  if hit (s.bld.get path).firstRaised then raise s1 18 (Head.bitOf path) 0 else s1

/-- The counts of a sweep composed in full are published (06 R240, 07 R286). -/
def publishSweep (s : State) (path : Head) : State :=
  let s1 := modBld s path (fun e => { e with clamped := e.clampedNow, lifted := e.liftedNow })
  modPxc s1 path (fun e => { e with saturated := e.saturatedNow, exhausted := e.exhaustedNow })

/-- The active part of a path's sweep of head `h` has ended. -/
def pathEnds (s : State) (h path : Head) : State :=
  let full := (s.tg.get h).full
  let s1 := clampFaults s path (linesComposed s h path)
  doseSweep (if full then weakSweep (publishSweep s1 path) path else s1) path full

/-- The flatten entry of a path becomes valid where the sweep wrote it whole (06 R235). -/
def flatEnds (s : State) (h : Head) : State :=
  let ok := (s.tg.get h).full
  (served s h).foldl (fun acc x => modBld acc x (fun b => { b with flatValid := b.flatValid || (b.rebuilding && ok), rebuilding := false })) s

/-- The cut (08 R305). -/
def cutNow (s : State) (h : Head) : State :=
  let t := s.tg.get h
  if !t.active || timer s h != h || !pixLive s then s
  else
    let (time, s0) := stampCore s
    let s1 := flatEnds ((served s0 h).foldl (fun acc x => pathEnds acc h x) s0) h
    let s2 := (served s1 h).foldl (fun acc x => modTg acc x (fun e => { e with cutTime := time })) s1
    let s3 := modTg s2 h (fun e => { e with active := false, stitchOpen := true })
    let s4 := (served s3 h).foldl (fun acc x => calCompose (listsCompose (setsCompose acc x) x) x) s3
    let s5 := cutApplyAll s4 h
    let s6 := (served s5 h).foldl (fun acc x => checkCap acc x none) s5
    buildMask s6 h (emissionAt s6 h)

/-- The drive total of a path's sweep is written to the control engine, with the mark of a repeat (01 R40, 06 R241, R242,
12 R464). -/
def sendDrive (s : State) (h : Head) (v : Nat) (repeated : Bool) : State :=
  let s1 := modBld s h (fun b => { b with drive := v })
  if ctrlLive s1 then
    modTg { s1 with cle := { s1.cle with fifo := s1.cle.fifo.set h ((s1.cle.fifo.get h) ++ [(v, repeated)]) } } h
      (fun t => { t with driveAccepted := true })
  else s1

/-- The total of a composed sweep leaves (06 R241). -/
def driveTotal (s : State) (h : Head) : State :=
  let t := s.tg.get (timer s h)
  if pixLive s && (t.active || t.stitchOpen) && t.full && !(s.tg.get h).driveAccepted then sendDrive s h (s.bld.get h).composedTotal false
  else s

/-! ## The stitch and the stitch point (01 R26, R27, R32, R33, 08 R306 to R309, 02 R104) -/

/-- The conditions of a stitch (08 R306). -/
def stitchMay (s : State) (h : Head) : Bool :=
  (s.tg.get h).stitchOpen && (s.tg.get h).composed && timer s h == h && pixLive s
    && (served s h).all (fun x => linkLive s x && (s.tg.get x).driveAccepted && decide ((s.saf.heads.get x).state < 2)
      && (enabledTiles s x).all (frameAcked s x))

/-- The telemetry record of a stitch point (02 R104, 01 R32). -/
def telemetryBody (s : State) (h : Head) (noStitch : Bool) (time : Word) : List Byte :=
  let flag (f : Tile → Bool) : Nat := slotMask ((List.range 8).filter (fun t => f (tileOf s h t)))
  [0x01#8, BitVec.ofNat 8 (2 * Head.idx h + 4 * b2n (joined s) + 8 * b2n noStitch)]
    ++ leBytes 2 (s.tg.get (timer s h)).sinceSnap ++ leBytes 4 (s.tg.get h).fsn.toNat ++ leBytes 4 time.toNat
    ++ leBytes 2 (toField 16 (hkValOf s 0).value) ++ leBytes 1 (bandInForce s) ++ leBytes 1 (s.hkp.level.get h)
    ++ ((List.range 8).map (fun t => leBytes 2 (tileOf s h t).temperature)).flatten
    ++ leBytes 1 (flag (fun t => t.snapMatched)) ++ leBytes 1 (flag (fun t => t.snapMismatched))
    ++ leBytes 1 (flag (fun t => t.snapMissing)) ++ [0#8] ++ leBytes 4 (s.bld.get h).drive

/-- The snapshot of a head is written and what it gathers starts afresh (01 R32). -/
def snapshotNow (s : State) (h : Head) (noStitch : Bool) (time : Word) : State :=
  let s1 := (writeRecord s 17 (telemetryBody s h noStitch time)).2
  (List.range 8).foldl (fun acc t =>
    modTile acc h t (fun e => { e with snapMatched := false, snapMismatched := false, snapMissing := false })) s1

/-- Overdue pixels of a head (07 R280). -/
def overduePixels (s : State) (h : Head) : List (Nat × Nat) := (pathPixels s h).filter (fun q => overdueOf s h q.1 q.2)

/-- TEST_PULSE_OVERDUE follows the overdue pixels at a stitch point (07 R280, 16 R554). -/
def overdueLevel (s : State) (h : Head) : State :=
  let ps := overduePixels s h
  let t := match ps.head? with
    | some q => (tileAt s h q.1 q.2).getD 0
    | none => 0
  setLevel s 30 (Head.idx h) (Head.bitOf h) t (!ps.isEmpty)

/-- The stitch point of a head, whether or not it stitched (01 R32, 07 R282, 10 R404, 03 R130, 02 R51). -/
def stitchPoint (s : State) (h : Head) (stitched : Bool) (time : Word) : State :=
  let s1 := snapshotNow s h (!stitched) time
  let s2 := overdueLevel (applyMarks s1 h) h
  retireSwitch (fwdStitchPoint s2 h stitched) h

/-- Probe results of a stitched frame are under way: cursors advance by the rows that it carried, and the deferrals it made
are counted (07 R278, R279). -/
def probesAdvance (s : State) (h : Head) : State :=
  modPxc s h (fun e =>
    { e with cursors := (enabledTiles s h).foldl (fun m t =>
               Store.put (fun _ => 0) m t
                 ((Store.get (fun _ => 0) m t + Store.get (fun _ => 0) e.sentRows t) % Nat.max 1 (tileH s h t))) e.cursors,
             deferrals := e.sentKinds.foldl (fun m k =>
               Store.put (fun _ => 0) m k.1 (if k.2 = 4 then Store.get (fun _ => 0) m k.1 + 1 else 0)) e.deferrals })

/-- Echoes of a stitched frame are awaited (10 R397 to R399, 15 R543). -/
def echoesAwait (s : State) (h : Head) (b : Nat) (f : Word) : State :=
  (enabledTiles s h).foldl (fun acc t =>
    if regBit acc (tblBase h) 2 then
      let acc := clientRead acc (some h) (echoReads acc h t b)
      let inj := injHits acc (echoSource h) t
      let crc := echoCrc acc h t b f
      modTile (if inj then spendInj acc else acc) h t (fun e =>
        { e with echoWait := some (f, if inj then crc ^^^ 1#32 else crc), echoInjected := inj })
    else acc) s

/-- A path's side of a stitch: the frame is on the tiles (01 R26, R30, R33, 06 R242, 07 R254, R278). -/
def stitchPath (s : State) (f time : Word) (b : Nat) (h : Head) : State :=
  let s1 := modTg s h (fun t => { t with fsn := f, stitchTime := time })
  let s2 := modBld s1 h (fun e => { e with shownTotal := e.composedTotal })
  let s3 := modPxc (probesAdvance s2 h) h (fun e => { e with overdue := (overduePixels s2 h).length })
  echoesAwait s3 h b f

/-- What waited for a latched frame of a head completes (01 R30, 02 R80, R92). -/
def stitchComplete (s : State) (f time : Word) (h : Head) : State :=
  calLatch (listsComplete (setsComplete s h f time) h f time) h f

/-- STITCH is sent (08 R307). -/
def stitchNow (s : State) (h : Head) (late : Bool) : State :=
  if !stitchMay s h then s
  else
    let time := time32 s
    let f := (s.tg.get h).fsn + 1#32
    let b := backBuffer s h
    let s1 := (served s h).foldl (fun acc x => sendLanes acc x (.stitch (f.toNat % 256))) s
    let s2 := modTg s1 h (fun t =>
      { t with front := b, stitchOpen := false, due := true, lastRepeated := false, run := 0,
               slipped := if late then satAdd 0xFFFF t.slipped 1 else t.slipped })
    let s3 := (served s2 h).foldl (fun acc x => stitchPath acc f time b x) s2
    let s4 := ltrAtStitch ((served s3 h).foldl (stitchComplete · f time ·) s3) h
    let s5 := (served s4 h).foldl (fun acc x => stitchPoint acc x true time) s4
    modTg s5 h (fun t => { t with sinceSnap := 0 })

/-- FRAME_REPEAT is raised when the run reaches a multiple of the limit (08 R309); a run that stays at 255 reaches none. -/
def repeatFault (s : State) (h : Head) (was : Nat) : State :=
  let limit := regFld s (tgBase h + 0x3C) 7 0
  if limit ≠ 0 ∧ (s.tg.get h).run ≠ was ∧ (s.tg.get h).run % limit = 0 then raise s (19 + Head.idx h) (Head.bitOf h) 0 else s

/-- The last cycle of slack passes with no STITCH: the head repeats, or HUSK or DARK holds it (01 R29, 08 R308, R309,
06 R242). -/
def slackEnds (s : State) (h : Head) : State :=
  let t := s.tg.get h
  if !t.stitchOpen || timer s h != h || !pixLive s then s
  else
    let (time, s0) := stampCore s
    let holds := (served s h).any (fun x => decide (2 ≤ (s.saf.heads.get x).state))
    let s1 := modTg s0 h (fun e => { e with stitchOpen := false, due := true, composed := false, lastRepeated := true })
    let s2 := if holds then s1 else
      repeatFault (modTg s1 h (fun e =>
        { e with run := satAdd 0xFF e.run 1, repeats := satAdd 0xFFFF e.repeats 1, sinceSnap := satAdd 0xFFFF e.sinceSnap 1 })) h t.run
    let s3 := (served s2 h).foldl (fun acc x => sendDrive acc x (acc.bld.get x).shownTotal true) s2
    let s4 := (served s3 h).foldl (fun acc x => stitchPoint acc x false time) s3
    modTg s4 h (fun e => { e with sinceSnap := 0 })

end Sys2Proof.Machine
end

