-- ==== Sys2Proof/Machine/Guard.lean ====
section
/-! DEFINITION. The safety functions' own commands (16 R556 to R578): SAFE_N, heartbeat, watchdogs, sessions, commits and
the safety configuration in force. -/

namespace Sys2Proof.Machine

/-- The safety functions changed by `f`. -/
def modSaf (s : State) (f : Saf → Saf) : State := { s with saf := f s.saf }

/-! ## The image and its RWL values (16 R568 to R571) -/

/-- Number at byte `i` of an image, `n` bytes. -/
def imgNat (img : List Byte) (i n : Nat) : Nat := leAt img i n

/-- Registers of a head whose RWL values its block holds, in the block's order (16 R570). -/
def headRwl (h : Head) : List Nat :=
  [shdBase h + 0x14, shdBase h + 0x18, shdBase h + 0x1C, pxcBase h]
    ++ (List.range 6).map (fun i => pxcBase h + 0x20 + 4 * i) ++ [tblBase h, tblBase h + 0x10]

/-- Every RWL register with the byte of the image that holds its value, `none` where the image value is zero (16 R569 to
R571). -/
def rwlPlaces : List (Nat × Option Nat) :=
  ((headRwl .a).zipIdx.map (fun e => (e.1, some (64 + 396 + 4 * e.2))))
    ++ ((headRwl .b).zipIdx.map (fun e => (e.1, some (576 + 396 + 4 * e.2))))
    ++ [(0x0D010, some 1088), (0x0D014, some 1092), (0x0D018, some 1096)]
    ++ ((List.range 8).map (fun i => (0x0D020 + 4 * i, some (1100 + 4 * i))))
    ++ [(0x14000, some 1132), (0x12080, none)]

/-- The RWL value that an image gives a register. -/
def rwlValue (img : List Byte) (e : Nat × Option Nat) : Word :=
  (match e.2 with
    | some i => BitVec.ofNat 32 (imgNat img i 4)
    | none => 0#32) &&& rwlMask (e.1 / 4)

/-- Every RWL register takes its image value (16 R573, R576), and FLT_INJ is disarmed. -/
def rwlWords (s : State) (img : List Byte) : State :=
  rwlPlaces.foldl (fun acc e =>
    setRegAt acc e.1 (merge (regAt acc e.1) (rwlValue img e) (rwlMask (e.1 / 4)))) (writeInj s 0#32)

/-- A change of echo_en from `s0` on changes which ECHO is awaited and what the tiles are told (10 R397, R399, R401). -/
def echoSettle (s0 s : State) : State :=
  bothHeads.foldl (fun acc h =>
    if (regAt acc (tblBase h) ^^^ regAt s0 (tblBase h)) &&& 4#32 = 0#32 then acc else reconfigure (echoesDrop acc h) h) s

/-- Every RWL register takes its image value, and the tiles follow (16 R576). -/
def writeRwl (s : State) (img : List Byte) : State := echoSettle s (rwlWords s img)

/-- Some RWL register differs from its image value (16 R571). -/
def rwlDiffers (s : State) (img : List Byte) : Bool :=
  rwlPlaces.any (fun e => (regAt s e.1 &&& rwlMask (e.1 / 4)) != rwlValue img e)

/-- The condition of SAFECFG_INTEGRITY (16 R571). -/
def integrityBad (s : State) : Bool :=
  match s.saf.image with
  | none => true
  | some img => s.saf.imageBad || (!s.saf.unlocked && rwlDiffers s img)

/-- SAFECFG_INTEGRITY is judged. -/
def judgeIntegrity (s : State) : State := setLevel s 53 0 3 0 (integrityBad s)

/-- Format, length and CRC of an image (16 R569, R577 check 2). -/
def imageSound (img : List Byte) : Bool :=
  decide (img.length = 1152) && imgNat img 0 2 == 1 && imgNat img 2 2 == 1152
    && imgNat img 1148 4 == crc32c (img.take 1148)

/-- Bytes `i` to `i + n - 1` are zero. -/
def zerosAt (img : List Byte) (i n : Nat) : Bool := ((img.drop i).take n).all (fun b => b == 0#8)

/-- A zone of a head block keeps to the layout of 06 R245. -/
def zoneSound (img : List Byte) (a : Nat) : Bool :=
  decide (imgNat img a 2 < 8192) && decide (imgNat img (a + 2) 2 < 8192) && decide (imgNat img (a + 4) 2 < 8192)
    && decide (imgNat img (a + 6) 2 < 8192) && decide (imgNat img (a + 12) 4 ≤ 1)

/-- An RWL value keeps to its register's range and reserved bits (16 R577 check 4). -/
def rwlSound (img : List Byte) (e : Nat × Option Nat) : Bool :=
  match e.2 with
  | none => true
  | some i =>
    let w := BitVec.ofNat 32 (imgNat img i 4)
    (w &&& ~~~(rwlMask (e.1 / 4))) == 0#32
      && (limsOf (e.1 / 4)).all (fun l => (rwlMask (e.1 / 4) &&& mask l.hi l.lo) == 0#32 || l.holds w)

/-- A head block keeps to its layout (16 R570, R577 check 4). -/
def blockSound (img : List Byte) (a : Nat) : Bool :=
  (List.range 16).all (fun z => zoneSound img (a + 16 * z)) && decide (imgNat img (a + 390) 1 ≤ 3)
    && decide (imgNat img (a + 391) 1 ≤ 3) && zerosAt img (a + 394) 2 && zerosAt img (a + 444) 68

/-- Every value of an image lies in its range and every reserved bit is zero (16 R577 check 4); T_STALE of a head is
below its T_DROP (05 R206). -/
def imageValues (img : List Byte) : Bool :=
  let hb := imgNat img 48 2
  let hold := imgNat img 52 2
  zerosAt img 12 4 && zerosAt img 60 4 && zerosAt img 1136 12
    && (List.range 64).all (fun i => decide ((imgNat img (16 + i / 2) 1 / (if i % 2 = 0 then 1 else 16)) % 16 ≤ 5))
    && (hb == 0 || (decide (10 ≤ hb) && decide (hb ≤ 1000))) && decide (imgNat img 50 2 ≤ 60000)
    && decide (10 ≤ hold) && decide (hold ≤ 60000) && decide (imgNat img 54 2 < 16) && decide (imgNat img 56 4 < 32)
    && blockSound img 64 && blockSound img 576 && rwlPlaces.all (rwlSound img)
    && [64, 576].all (fun a => decide (imgNat img (a + 396) 4 < imgNat img (a + 400) 4))

/-- Generation of the image in force, 0 for none (16 R581). -/
def genInForce (s : State) : Nat := imageNat s 4 4

/-- The head blocks of the image in force join the applied state of each head that has no cut to wait for (16 R573,
08 R734). -/
def blocksNow (s : State) : State :=
  bothHeads.foldl (fun acc h => if stopped acc (timer acc h) then headroomApply (blockApply acc h) h else acc) s

/-- A severity field below its source's floor reads the floor from then on (15 R527). -/
def raiseToFloors (s : State) : State :=
  (List.range 63).foldl (fun acc src =>
    let a := 0x12020 + 4 * (src / 8)
    setRegAt acc a (merge (regAt acc a) (BitVec.ofNat 32 (sevOf acc src * 16 ^ (src % 8)))
      (mask (4 * (src % 8) + 3) (4 * (src % 8))))) s

/-- An image comes into force (16 R573); HUSK and DARK go before what the tiles are told by packets (10 R365). -/
def imageNow (s : State) (img : List Byte) (copy : Nat) : State :=
  let s1 := modSaf s (fun e => { e with image := some img, copy := copy, imageBad := false })
  echoSettle s (settle (blocksNow (rwlWords (raiseToFloors s1) img)))

/-- Copy `c` of the SAFECFG region of LAST, as it reads (16 R568). -/
def safecfgCopy (s : State) (c : Nat) : List Byte := lastBytes s (regionStart 2 + 4096 * c) 1152

/-- The entry in slot `i` of CHANGELOG, where it is valid (16 R578). -/
def logEntry (s : State) (i : Nat) : Option (List Byte) :=
  let a := regionStart 3 + 64 * i
  let b := lastBytes s a 64
  if lastReadable s a 64 && decide (1 ≤ byteAt b 0) && leAt b 60 4 == crc32c (b.take 60) then some b else none

/-- The newest valid commit entry of CHANGELOG: the first met going back from the next slot to be written (16 R568). -/
def newestCommit (s : State) : Option (List Byte) :=
  ((List.range 1024).map (fun k => (s.kps.logSlot + 1023 - k) % 1024)).findSome? (fun i =>
    match logEntry s i with
    | some b => if byteAt b 0 = 1 then some b else none
    | none => none)

/-- Copy `c` is the one that a commit entry names (16 R568). -/
def copyInForce (s : State) (e : List Byte) (c : Nat) : Bool :=
  let img := safecfgCopy s c
  lastReadable s (regionStart 2 + 4096 * c) 1152 && imageSound img && imgNat img 4 4 == leAt e 4 4
    && imgNat img 1148 4 == leAt e 12 4

/-- The safety configuration is loaded (16 R568, 19 R639 step 5). -/
def loadSafecfg (s : State) : State :=
  let found := match newestCommit s with
    | some e => [0, 1].find? (copyInForce s e)
    | none => none
  let s1 := match found with
    | some c => imageNow s (safecfgCopy s c) c
    | none => settle (blocksNow (modSaf s (fun e => { e with image := none, copy := 0 })))
  setLevel s1 53 0 3 0 (integrityBad s1)

/-- The 10 ms integrity check: `upset` when the stored image fails its CRC (16 R571). -/
def integrityCheck (s : State) (upset : Bool) : State :=
  if ctrlLive s then judgeIntegrity (modSaf s (fun e => { e with imageBad := upset && e.image.isSome })) else s

/-! ## Change-log entries and sessions (16 R575 to R578) -/

/-- A change-log entry's 60 bytes before its CRC (16 R578). -/
def changeEntry (s : State) (kind copy gen prev crc : Nat) : List Byte :=
  let t := stampFields s
  leBytes 1 kind ++ leBytes 1 copy ++ leBytes 2 0 ++ leBytes 4 gen ++ leBytes 4 prev ++ leBytes 4 crc ++ t.1
    ++ leBytes 2 t.2.2 ++ t.2.1 ++ leBytes 4 0
    ++ ((List.range 7).map (fun i => leBytes 4 (regAt s (0x13020 + 4 * i)).toNat)).flatten

/-- An entry of type 2 or 3 is requested; its previous generation and image CRC are values that the spec does not state
(log 37). -/
def logNote (s : State) (kind : Nat) : State :=
  let (p, s1) := drawBelow s (2 ^ 32)
  let (c, s2) := drawBelow s1 (2 ^ 32)
  kpsRequest s2 (.changelog (changeEntry s2 kind s2.saf.copy (genInForce s2) p c))

/-- A commit that has not ended leaves the writer's queue, and the next operation is taken (20 R664). -/
def commitLeaves (s : State) : State :=
  kpsTake (modKps s (fun k =>
    { k with current := k.current.filter (fun o => o != .commit), waiting := k.waiting.filter (fun o => o != .commit) }))

/-- A session ends without a completed commit (16 R576); `note` where a change-log entry is written. -/
def endSession (s : State) (note : Bool) : State :=
  if !s.saf.unlocked then s
  else
    let s0 := if s.saf.committing then commitLeaves s else s
    let s1 := modSaf s0 (fun e => { e with unlocked := false, committing := false })
    let s2 := match s1.saf.image with
      | some img => writeRwl s1 img
      | none => writeInj s1 0#32
    if note then logNote s2 2 else s2

/-- The password as written matches the image's check value (16 R569, R575). -/
def passwordOk (s : State) (img : List Byte) : Bool :=
  imgNat img 8 4 == crc32cFold 4 (fuseOf s 0).toNat (leBytes 4 s.saf.keyLo.toNat ++ leBytes 4 s.saf.keyHi.toNat)

/-- OPEN (16 R572, R575). An OPEN while a session is open does nothing. -/
def sessionOpen (s : State) : State :=
  if s.saf.lockout then modSaf s (fun e => { e with unlockRefused := true })
  else if s.saf.unlocked then s
  else
    let ok := match s.saf.image with
      | some img => passwordOk s img
      | none => true
    if ok then modSaf s (fun e => { e with unlocked := true, failures := 0 })
    else
      let n := (if 3 ≤ s.saf.failures then 0 else s.saf.failures) + 1
      let s1 := modSaf s (fun e => { e with unlockRefused := true, failures := n, lockout := decide (3 ≤ n) })
      if 3 ≤ n then logNote s1 3 else s1

/-- A COMMIT fails (16 R577, R583). -/
def commitFails (s : State) (reason : Nat) : State :=
  modSaf s (fun e => { e with committing := false, commitError := true, commitReason := reason })

/-- COMMIT asks for the check of the copy not in force, an operation of the writer with the change-log entry that follows
(16 R577, 20 R664). -/
def sessionCommit (s : State) : State :=
  if !s.saf.unlocked then commitFails s 1
  else if s.saf.committing then s
  else kpsRequest (modSaf s (fun e => { e with committing := true })) .commit

/-- What a check of copy `c` finds (16 R577): the first failure. -/
def copyFault (s : State) (c : Nat) : Option Nat :=
  let img := safecfgCopy s c
  if !lastReadable s (regionStart 2 + 4096 * c) 1152 || !imageSound img then some 2
  else if imgNat img 4 4 ≠ (genInForce s + 1) % 2 ^ 32 then some 3
  else if !imageValues img then some 4
  else none

/-- The copy that COMMIT reads: the one not in force. With none in force it is copy A, or copy B where A fails (log 38). -/
def copyToCommit (s : State) : Nat :=
  match s.saf.image with
  | some _ => 1 - s.saf.copy
  | none => if (copyFault s 0).isSome && (copyFault s 1).isNone then 1 else 0

/-- The commit check ends (16 R577): `written` when the change-log entry was written and verified. -/
def commitCheckEnds (s : State) (written : Bool) : State :=
  let c := copyToCommit s
  match copyFault s c with
  | some r => commitFails s r
  | none =>
    if !written then commitFails s 5
    else
      let img := safecfgCopy s c
      let s1 := opWritten s (.changelog (changeEntry s 1 c (imgNat img 4 4) (genInForce s) (imgNat img 1148 4)))
      judgeIntegrity (imageNow (modSaf s1 (fun e => { e with committing := false, unlocked := false })) img c)

/-- The commit in hand of the writer ends with its check, and the next operation is taken (16 R577, 20 R664). -/
def sessionCommitEnd (s : State) (written : Bool) : State :=
  if !s.saf.committing || !s.saf.unlocked || !ctrlLive s || s.kps.current != some .commit then s
  else commitLeaves (commitCheckEnds s written)

/-- A write of `SAF_UNLOCK` (16 R581). -/
def writeUnlock (s : State) (v : Word) : State :=
  match fld v 1 0 with
  | 1 => sessionOpen s
  | 2 => sessionCommit s
  | 3 => endSession s true
  | _ => s

/-! ## SAFE_N (16 R556 to R558) -/

/-- Filtered SAFE_N asserts. -/
def safeNOn (s : State) : State :=
  if s.saf.safeN then s else wake (setLevel (settle (modSaf s (fun e => { e with safeN := true }))) 52 0 3 0 true) 3

/-- Filtered SAFE_N releases. -/
def safeNOff (s : State) : State :=
  if s.saf.safeN then setLevel (settle (modSaf s (fun e => { e with safeN := false }))) 52 0 3 0 false else s

/-- A source's condition has been false for the hold time and its auto-clear flag is set (16 R558). -/
def autoClear (s : State) (source : Nat) : State :=
  if ctrlLive s && !conditionOf s source && ((source == 52 && imageFlag s 0) || (source == 12 && imageFlag s 1)) then
    clearSticky s (1#64 <<< source)
  else s

/-! ## Heartbeat and watchdogs (16 R560 to R563) -/

/-- The configured timeout in ms, 0 for none. -/
def hbTimeout (s : State) : Nat := imageNat s 48 2

/-- Heartbeat supervision is under way: it has started, and a timeout of zero disables it (16 R561). -/
def supervising (s : State) : Bool := s.saf.hbSup && hbTimeout s != 0

/-- A write of `SAF_HB` (16 R560, R561). -/
def writeHb (s : State) (v : Word) : State :=
  let x := fld v 15 0
  if s.saf.hbAny && x != (regFld s 0x13040 15 0 + 1) % 65536 then modSaf s (fun e => { e with hbBad := satAdd 255 e.hbBad 1 })
  else
    setLevel (modSaf (setRegAt s 0x13040 (at_ 0 x)) (fun e => { e with hbAny := true, hbSup := true })) 12 0 3 0 false

/-- The grace time after a configuration has come into force at a start ends (16 R561). -/
def hbGraceEnds (s : State) : State :=
  if ctrlLive s && s.saf.image.isSome && !s.saf.hbSup then modSaf s (fun e => { e with hbSup := true }) else s

/-- More than the timeout has passed (16 R561). -/
def hbTimesOut (s : State) : State :=
  if ctrlLive s && supervising s then setLevel s 12 0 3 0 true else s

/-- A watchdog can expire: what it watches is under way (16 R562). -/
def watched (s : State) (i : Nat) : Bool :=
  match i with
  | 0 => !stopped s .a
  | 1 => !stopped s .b
  | 2 => true
  | 3 => s.cle.running.isSome
  | 4 => decide (2 ≤ s.saf.heads.a.state)
  | 5 => decide (2 ≤ s.saf.heads.b.state)
  | _ => false

/-- A watchdog expires (16 R562, R563). -/
def watchdogExpires (s : State) (i : Nat) : State :=
  if !ctrlLive s || !watched s i then s
  else
    let s1 := modSaf s (fun e => { e with wdg := setNBit e.wdg i true })
    let s2 := if i = 4 then modSafHead s1 .a (fun e => { e with wdLow := true })
      else if i = 5 then modSafHead s1 .b (fun e => { e with wdLow := true }) else s1
    raise s2 51 3 i

end Sys2Proof.Machine
end

