-- ==== Sys2Proof/Machine/House.lean ====
section
/-! DEFINITION. Housekeeping (17): the round and its evaluation, the die band, the throttle levels, sensor failure, supply
windows and the shutdown record. -/

namespace Sys2Proof.Machine

/-- Housekeeping changed by `f`. -/
def modHkp (s : State) (f : Hkp → Hkp) : State := { s with hkp := f s.hkp }

/-- The block runs: its domain lives and no BLOCK reach holds it. -/
def hkpRuns (s : State) : Bool := ctrlLive s && !blockHeld s 4

/-! ## The round (17 R585, R586) -/

/-- A start event of a round, from a trigger or from the own timer (17 R586, R588). -/
def roundStart (s0 : State) : State :=
  let s := takePulse s0 .round
  if !hkpRuns s0 || blockStopped s0 8 || !trigTaken s0 .round (roundChoice s0) then s
  else if s.hkp.busy then modHkp s (fun k => { k with ignored := satAdd 0xFFFF k.ignored 1 })
  else if !regBit s 0x14000 0 then s
  else modHkp s (fun k => { k with busy := true, source := roundChoice s, slot := 0, codes := [] })

/-- The slot in progress ends with a converter code (17 R585, R589: 12 bits). -/
def slotEnds (s : State) (code : Nat) : State :=
  if !hkpRuns s || !s.hkp.busy || decide (16 ≤ s.hkp.slot) then s
  else modHkp s (fun k =>
    { k with codes := Store.put (fun _ => 0) k.codes k.slot (code % 4096), slot := k.slot + 1 })

/-! ## Scaling (17 R589 to R592) -/

/-- The code of a channel in the round in progress. -/
def hkCode (s : State) (c : Nat) : Nat := Store.get (fun _ => 0) s.hkp.codes c

/-- Both reference checks pass (17 R589, R592). -/
def refsGood (s : State) : Bool :=
  decide (1966 ≤ hkCode s 13) && decide (hkCode s 13 ≤ 2130) && decide (hkCode s 14 ≤ 8)

/-- Entry `k` of an NTC table. -/
def ntcEntry (s : State) (n k : Nat) : Int := signed 16 (regFld s (0x14400 + 0x100 * n + 4 * k) 15 0)

/-- Channel NTC n is enabled (17 R608). -/
def ntcOn (s : State) (n : Nat) : Bool := regBit s 0x14000 (8 + n)

/-- A table is non-increasing (17 R591). -/
def ntcOrdered (s : State) (n : Nat) : Bool := (List.range 32).all (fun k => decide (ntcEntry s n (k + 1) ≤ ntcEntry s n k))

/-- The temperature that a table gives a code (17 R591). -/
def ntcTemp (s : State) (n code : Nat) : Int :=
  let k := code / 128
  ntcEntry s n k + rhuDiv ((ntcEntry s n (k + 1) - ntcEntry s n k) * (code % 128 : Nat)) 128

/-- The die value from the trims of fuse word 3 (17 R590, 20 R679). -/
def dieTemp (s : State) : Int :=
  let w := fuseOf s 3
  signed 16 (fld w 31 16) + rhuDiv ((hkCode s 0 : Int) * (fld w 15 0 : Nat)) 65536

/-- Full scale of a rail or AUX channel in mV (17 R589). -/
def fullScale (c : Nat) : Nat := if c = 4 ∨ c = 5 then 2400 else if c = 6 then 4800 else 1200

/-- A channel's value published. -/
def putVal (s : State) (c : Nat) (v : HkVal) : State :=
  modHkp s (fun k => { k with vals := Store.put (fun _ => HkVal.reset) k.vals c v })

/-- A temperature channel is published: an invalid one shows its last valid value plus 10 °C, or 135 °C where there is none
(17 R600); a sum outside the 16-bit format is free (log 39). -/
def putTemp (s : State) (c : Nat) (ok : Bool) (t : Int) : State :=
  let old := hkValOf s c
  if ok then putVal s c { value := t, valid := true, substituted := false, lastValid := some t }
  else
    match old.lastValid with
    | none => putVal s c { old with value := 2160, valid := false, substituted := true }
    | some v =>
      if v + 160 ≤ 32767 then putVal s c { old with value := v + 160, valid := false, substituted := true }
      else
        let (q, s1) := drawBelow s 65536
        putVal s1 c { old with value := signed 16 q, valid := false, substituted := true }

/-- A rail or AUX channel is published, or keeps its value with the valid bit clear (17 R589, R592). -/
def putMilli (s : State) (good : Bool) (c : Nat) : State :=
  let old := hkValOf s c
  putVal s c (if good then
      { value := (rhuDiv ((hkCode s c : Int) * (fullScale c : Nat)) 4096), valid := true, substituted := false, lastValid := none }
    else { old with valid := false })

/-- NTC n is published (17 R589, R591). -/
def putNtc (s : State) (good : Bool) (n : Nat) : State :=
  let code := hkCode s (7 + n)
  if ntcOn s n then putTemp s (7 + n) (good && decide (15 < code) && decide (code < 4080)) (ntcTemp s n code)
  else putVal s (7 + n) { hkValOf s (7 + n) with value := -32768, valid := false, substituted := false }

/-- The hottest tile of head `h`, and whether the input is valid: it is not while an enabled tile sends no TEMP for 20 ms
(17 R597, R600, log 40). -/
def tileInput (s : State) (h : Head) : Bool × Option Int :=
  let ts := enabledTiles s h
  let got := (ts.map (fun t => (tileOf s h t).temperature)).filter (fun v => v != 0x8000)
  (ts.all (fun t => !(tileOf s h t).tempGone),
    match got.map (signed 16) with
    | [] => none
    | v :: vs => some (vs.foldl (fun a b => if a < b then b else a) v))

/-- The tile input of head `h` as channel 16 plus the head (17 R600, R601); with no TEMP yet and none overdue it stands at
the lowest value, which demands nothing (log 40). -/
def putTile (s : State) (h : Head) : State :=
  let c := 16 + Head.idx h
  let (ok, t) := tileInput s h
  match ok, t with
  | true, none => putVal s c { hkValOf s c with value := -32768, valid := true, substituted := false }
  | _, _ => putTemp s c ok (t.getD 0)

/-- Every channel is published together (17 R587). -/
def publishRound (s : State) : State :=
  let good := refsGood s
  let s1 := putTemp s 0 (good && fuseCrcOk s && decide (-960 ≤ dieTemp s) && decide (dieTemp s ≤ 3200)) (dieTemp s)
  let s2 := [1, 2, 3, 4, 5, 6, 11, 12].foldl (fun acc c => putMilli acc good c) s1
  let s3 := (List.range 4).foldl (fun acc n => putNtc acc good n) s2
  let s4 := putVal s3 13 { value := (hkCode s 13 : Nat), valid := decide (1966 ≤ hkCode s 13) && decide (hkCode s 13 ≤ 2130),
                           substituted := false, lastValid := none }
  let s5 := putVal s4 14 { value := (hkCode s 14 : Nat), valid := decide (hkCode s 14 ≤ 8), substituted := false, lastValid := none }
  let s6 := putVal s5 15 { value := 0, valid := true, substituted := false, lastValid := none }
  let s7 := bothHeads.foldl putTile s6
  modHkp s7 (fun k =>
    { k with refFail := !good, tileInvalid := { a := !(hkValOf s7 16).valid, b := !(hkValOf s7 17).valid } })

/-! ## Die bands (17 R593 to R596) -/

/-- Threshold θ of a band, 1 to 6, in 1/16 °C (17 R593). -/
def theta : Nat → Int
  | 1 => 0 | 2 => 1360 | 3 => 1760 | 4 => 2160 | 5 => 2400 | 6 => 2560 | _ => 0

/-- The band climbs while the value passes the next threshold by 4 °C. -/
def climb (t : Int) : Nat → Nat → Nat
  | 0, b => b
  | n + 1, b => if b < 6 ∧ theta (b + 1) + 64 ≤ t then climb t n (b + 1) else b

/-- The band falls while the value is more than 4 °C below its own threshold. -/
def descend (t : Int) : Nat → Nat → Nat
  | 0, b => b
  | n + 1, b => if 0 < b ∧ t < theta b - 64 then descend t n (b - 1) else b

/-- target(t, c) of 17 R593. -/
def bandTarget (t : Int) (c : Nat) : Nat :=
  let b := climb t 6 c
  if b = c then descend t 6 c else b

/-- The band set directly at the first evaluation (17 R594). -/
def bandDirect (t : Int) : Nat := ((List.range 6).filter (fun i => decide (theta (i + 1) ≤ t))).length

/-- The band that an evaluation puts in force from the one in force, the two targets and HK00's validity (17 R593). -/
def bandNext (c tp tc : Nat) (valid : Bool) : Nat :=
  if c < tp ∧ c < tc then Nat.min tp tc
  else if tp < c ∧ tc < c ∧ valid then Nat.max tp tc
  else c

/-- DIE_TEMP_HIGH and DIE_TEMP_SHUTDOWN follow the band (17 R596, R603). -/
def bandLevels (s : State) : State :=
  let b := s.hkp.band.getD 0
  let s1 := setLevel s 46 0 0 0 (s.hkp.band.isSome && decide (regFld s 0x14000 18 16 ≤ b))
  setLevel s1 47 0 3 0 (s.hkp.band == some 6)

/-- The shutdown record (17 R604). -/
def shutdownRecord (s : State) (first : Bool) : List Byte :=
  let (sec, ns, ok) := stampFields s
  let die := hkValOf s 0
  fit 52
    ([0x21#8] ++ leBytes 1 (ok + 2 * b2n die.substituted + 4 * b2n first) ++ leBytes 2 (toField 16 die.value)
      ++ leBytes 2 (toField 16 s.hkp.prevDie)
      ++ ((List.range 4).map (fun n => leBytes 2 (toField 16 (hkValOf s (7 + n)).value))).flatten
      ++ leBytes 1 s.hkp.level.a ++ leBytes 1 s.hkp.level.b ++ leBytes 4 s.tg.a.fsn.toNat
      ++ leBytes 4 (s.tg.get (timer s .b)).fsn.toNat ++ sec ++ leBytes 2 0 ++ ns)

/-- A band change is sent to every block that selects by band: equalisation waits for each lane's update point, the pixel path
of a STOPPED head follows at once, the others at their next cut (17 R595, 01 R42, 08 R734); it is a wake event (18 R623). -/
def bandEvent (s : State) : State :=
  let s1 := eqAllPending s
  let s2 := bothHeads.foldl (fun acc h => if stopped acc (timer acc h) then bandApply acc h else acc) s1
  wake s2 9

/-- The die band of an evaluation (17 R593 to R596); the first one sets it directly. -/
def decideBand (s : State) : State :=
  let die := hkValOf s 0
  match s.hkp.band with
  | none =>
    let b := bandDirect die.value
    let s1 := bandLevels (bandEvent (modHkp s (fun k => { k with band := some b, prevTarget := b })))
    if b = 6 then kpsRequest s1 (.eventlog true (shutdownRecord s1 true)) else s1
  | some c =>
    let tc := bandTarget die.value c
    let b := bandNext c s.hkp.prevTarget tc die.valid
    let s1 := modHkp s (fun k => { k with prevTarget := tc })
    if b = c then s1
    else
      let s2 := bandLevels (bandEvent (modHkp s1 (fun k =>
        { k with band := some b, bandChanges := satAdd 0xFFFF k.bandChanges 1 })))
      if b = 6 then kpsRequest s2 (.eventlog true (shutdownRecord s2 false)) else s2

/-! ## Throttling (17 R597 to R599) -/

/-- lvl(t, Ts, Ws) of 17 R597. -/
def throttleLvl (t ts : Int) (ws : Nat) : Nat :=
  if t < ts then 0 else Nat.min 7 (1 + ((t - ts) / (ws : Int)).toNat)

/-- The throttle inputs of a head: channel and threshold register (17 R597, R607). -/
def throttleInputs (s : State) (h : Head) : List (Nat × Nat) :=
  let a := 0x140BC + 4 * Head.idx h
  (if regBit s a 0 then [(0, 0x140A0)] else [])
    ++ ((List.range 4).filter (fun n => regBit s a (1 + n))).map (fun n => (7 + n, 0x140A4 + 4 * n))
    ++ (if regBit s a 8 then [(16 + Head.idx h, 0x140B4 + 4 * Head.idx h)] else [])

/-- What the inputs of a head demand with the values raised by `add` (17 R597, R598). -/
def demand (s : State) (h : Head) (add : Int) : Nat :=
  ((throttleInputs s h).map (fun e =>
    throttleLvl ((hkValOf s e.1).value + add) (signed 16 (regFld s e.2 15 0)) (regFld s e.2 23 16))).foldl Nat.max 0

/-- Every input of a head is valid (17 R598); a disabled NTC channel is not invalid (17 R601, log 41). -/
def inputsValid (s : State) (h : Head) : Bool :=
  (throttleInputs s h).all (fun e => !(hkValOf s e.1).substituted)

/-- The throttle level that an evaluation sets (17 R598). -/
def levelNext (l up u dp d : Nat) (valid : Bool) : Nat :=
  if l < up ∧ l < u then Nat.min up u
  else if dp < l ∧ d < l ∧ valid then Nat.max dp d
  else l

/-- A head's throttle level at an evaluation; a STOPPED head's headroom follows at once (17 R598, R599, 08 R734). -/
def throttleHead (s : State) (h : Head) : State :=
  let u := demand s h 0
  let d := demand s h 64
  let l := levelNext (s.hkp.level.get h) (s.hkp.prevU.get h) u (s.hkp.prevD.get h) d (inputsValid s h)
  modHkp s (fun k => { k with level := k.level.set h l, prevU := k.prevU.set h u, prevD := k.prevD.set h d })

/-- The headroom of heads that are STOPPED follows their level (06 R231, 08 R734). -/
def headroomStopped (s : State) : State :=
  bothHeads.foldl (fun acc h => if stopped acc (timer acc h) then headroomApply acc h else acc) s

/-! ## Sensor failure and supply windows (17 R601, R602) -/

/-- SENSOR_FAIL follows one channel. -/
def sensorLevel (s : State) (c : Nat) : State :=
  let on := (hkValOf s c).substituted &&
    (c == 0 || (decide (c < 16) && ntcOn s (c - 7)) || (decide (16 ≤ c) && regBit s (0x140BC + 4 * (c - 16)) 8))
  setLevel s 48 c 0 c on

/-- SENSOR_FAIL follows every temperature input (17 R601). -/
def sensorLevels (s : State) : State := [0, 7, 8, 9, 10, 16, 17].foldl sensorLevel s

/-- A rail's published value lies outside its window (17 R602). -/
def railOut (s : State) (c : Nat) : Bool :=
  let v := (hkValOf s c).value
  decide (v < (regFld s (0x14080 + 4 * c) 15 0 : Nat)) || decide ((regFld s (0x14080 + 4 * c) 31 16 : Nat) < v)

/-- The supply windows of a judged round (17 R602). -/
def judgeSupply (s : State) : State :=
  let outs := [1, 2, 3, 4, 5, 6].filter (railOut s)
  let s1 := modHkp s (fun k =>
    { k with supplyOut := [1, 2, 3, 4, 5, 6].foldl (fun m c =>
               Store.put (fun _ => 0) m c (if outs.contains c then satAdd 2 (Store.get (fun _ => 0) k.supplyOut c) 1 else 0)) [],
             supplyIn := if outs.isEmpty then satAdd 2 k.supplyIn 1 else 0 })
  if [1, 2, 3, 4, 5, 6].any (fun c => decide (2 ≤ Store.get (fun _ => 0) s1.hkp.supplyOut c)) then
    setLevel s1 49 0 0 (outs.headD 0) true
  else if 2 ≤ s1.hkp.supplyIn then setLevel s1 49 0 0 0 false
  else s1

/-! ## The evaluation (17 R587) -/

/-- The evaluation of a round whose sixteen slots have ended (17 R587). -/
def evaluateRound (s : State) : State :=
  if !hkpRuns s || !s.hkp.busy || decide (s.hkp.slot < 16) then s
  else
    let s0 := modHkp s (fun k => { k with prevDie := (hkValOf s 0).value })
    let s1 := publishRound s0
    let s2 := bothHeads.foldl throttleHead s1
    let s3 := decideBand s2
    let s4 := sensorLevels (headroomStopped s3)
    let s5 := if s4.hkp.refFail then s4 else judgeSupply s4
    modHkp s5 (fun k => { k with busy := false, slot := 0, codes := [], rounds := (k.rounds + 1) % 256 })

/-! ## Registers (17 R588, R591, R607, R608) -/

/-- A write of `HKP_CTRL` but for its RWL bit: a channel whose table is not in order is not enabled (17 R591). -/
def writeHkCtrl (s : State) (v : Word) : State :=
  let old := regAt s 0x14000
  let bad := (List.range 4).filter (fun n => bit v (8 + n) && !bit old (8 + n) && !ntcOrdered s n)
  let v1 := bad.foldl (fun acc n => acc &&& ~~~(bitAt (8 + n) true)) v
  let s1 := setRegAt s 0x14000 v1
  bandLevels (if bad.isEmpty then s1 else modHkp s1 (fun k => { k with refused := true }))

/-- A write of `HKP_ROUND`: only while rounds are disabled, and the period holds at least sixteen slots (17 R586, R588,
00 R12). -/
def writeHkRound (s : State) (v : Word) : State :=
  if regBit s 0x14000 0 then modHkp s (fun k => { k with refused := true })
  else
    let old := regAt s 0x14008
    let v1 := keepBad [⟨9, 0, [(200, 1000)]⟩, ⟨31, 12, [(3200, 1000000)]⟩] old (v &&& 0xFFFFF3FF#32)
    if fld v1 31 12 < 16 * fld v1 9 0 then s else setRegAt s 0x14008 v1

/-- A write of an NTC table entry: only while its channel is disabled (17 R591). -/
def writeNtc (s : State) (n k : Nat) (v : Word) : State :=
  if ntcOn s n then s else setRegAt s (0x14400 + 0x100 * n + 4 * k) (v &&& 0xFFFF#32)

/-- `HKP_STATUS` (17 R609). -/
def hkStatus (s : State) : Word :=
  at_ 0 (s.hkp.band.getD 0) ||| bitAt 3 s.hkp.band.isSome ||| bitAt 4 s.hkp.refused ||| bitAt 5 s.hkp.busy
    ||| bitAt 6 s.hkp.refFail
    ||| (List.range 4).foldl (fun acc n => acc ||| bitAt (8 + n) (hkValOf s (7 + n)).substituted) 0#32
    ||| bitAt 12 (hkValOf s 0).substituted ||| bitAt 13 s.hkp.tileInvalid.a ||| bitAt 14 s.hkp.tileInvalid.b
    ||| at_ 16 s.hkp.level.a ||| at_ 20 s.hkp.level.b ||| at_ 24 (s.hkp.rounds % 256)

/-- `HKP_VAL_c` (17 R607). -/
def hkValWord (s : State) (c : Nat) : Word :=
  let v := hkValOf s c
  at_ 0 (toField 16 v.value) ||| bitAt 16 v.valid ||| bitAt 17 v.substituted

/-- A BLOCK reach of HKP: the round stops, the registers return to their reset values, and the band, the levels and the
published values stand (17 R606). -/
def hkpBlockReset (s : State) : State :=
  let s1 := clearRegs s (0x14000 / 4) 1024
  let b := s.hkp.band.getD 0
  modHkp s1 (fun k =>
    { k with busy := false, slot := 0, codes := [], refused := false, refFail := false, ignored := 0, bandChanges := 0,
             rounds := 0, prevTarget := b, prevU := k.level, prevD := k.level, supplyOut := [], supplyIn := 0 })

end Sys2Proof.Machine
end

