-- ==== Sys2Proof/Machine/Lace.lean ====
section
/-! DEFINITION. The LACE one-wire chains (13 R493 to R506): staging, starts, underruns and temperature compensation. -/

namespace Sys2Proof.Machine

/-- Base address of a chain's registers (13 R506). -/
def lceBase (c : Nat) : Nat := 0x10100 + 0x100 * c

/-- `LCE_c_CTRL`. -/
def lceCtrl (s : State) (c : Nat) : Word := regAt s (lceBase c)

/-- The chains run: PD_CTRL serves and no BLOCK reach holds LCE. -/
def lceRuns (s : State) : Bool := ctrlLive s && !blockHeld s 2

/-- Bytes in a device's word for a width code (13 R495). -/
def lceWordBytes (code : Nat) : Nat :=
  match code with
  | 0 => 3
  | 1 => 4
  | 2 => 6
  | _ => 8

/-- Bytes in a colour for a width code (13 R495). -/
def lceColourBytes (code : Nat) : Nat := if code < 2 then 1 else 2

/-- The width code of chain `c`. -/
def lceWidth (s : State) (c : Nat) : Nat := fld (lceCtrl s c) 6 5

/-! ## LACE_FRAME (13 R496, R497) -/

/-- The first offending field of a LACE_FRAME (13 R496, 02 R78). -/
def laceBad (s : State) (d : Desc) : Option Nat :=
  let c := dByte d 8
  let n := dNat d 10 2
  minDetail (flagsBad d) (firstFail
    [ (decide (1 < c), 8), (dByte d 9 != 0, 9), (n == 0 || decide (256 < n), 10),
      (dNat d 12 4 != n * lceWordBytes (lceWidth s c), 12), (dNat d 16 8 % 4 != 0, 16),
      ((firstNonZero d [(24, 36)]).isSome, (firstNonZero d [(24, 36)]).getD 24) ])

/-- A LACE_FRAME executes: it is refused with the field that the check at its fetch found, or its data is being read into
staging (13 R496, R497). -/
def laceFetch (s : State) (ring slot : Nat) (d : Desc) (bad : Option Nat) : State :=
  match bad with
  | some k => completeAt s ring slot 0x10 k 0#32
  | none => modChain s (dByte d 8) (fun e => { e with staged := some (ring, slot, []), ready := false })

/-- The staging buffer of a descriptor's chain is taken, by a frame in it or by a fetched one that its BARRIER holds, so the
descriptor is not fetched (13 R497). -/
def laceStagingTaken (s : State) (d : Desc) : Bool :=
  decide (dByte d 8 ≤ 1) && ((chainOf s (dByte d 8)).staged.isSome
    || s.rng.work.any (fun w => w.held && w.role == 8 && w.desc.opcode == 8 && dByte w.desc 8 == dByte d 8))

/-- The read of a staged frame ends (13 R497). -/
def laceReady (s : State) (c : Nat) (data : HostRead) : State :=
  if !lceRuns s || !hostReads s then s
  else
    match (chainOf s c).staged with
    | none => s
    | some (ring, slot, _) =>
      if (chainOf s c).ready then s
      else
        match data with
        | .failed k => completeAt (modChain (hostFails s k) c (fun e => { e with staged := none })) ring slot 0x40 0 0#32
        | .internalError => completeAt (modChain s c (fun e => { e with staged := none })) ring slot 0x41 2 0#32
        | .data bs =>
          let len := match workAt s ring slot with
            | some w => dNat w.desc 12 4
            | none => bs.length
          modChain s c (fun e => { e with staged := some (ring, slot, fit len bs), ready := true })

/-! ## Triggers and starts (13 R498 to R503) -/

/-- The chain starts from its comparator (13 R498). -/
def laceTriggered (s : State) (c : Nat) : Bool :=
  let w := lceCtrl s c
  bit w 1 && trigEnabled s (fld w 4 2)

/-- The chain's trigger arrives (13 R498, R499, R501). -/
def laceTriggerNow (s : State) (c : Nat) : State :=
  let w := lceCtrl s c
  let e := chainOf s c
  if !lceRuns s || decide (2 ≤ c) || !laceTriggered s c then s
  else if e.busy then modChain s c (fun x => { x with ignored := satAdd 0xFFFF x.ignored 1 })
  else if !bit w 0 then s
  else if e.ready then modChain s c (fun x => { x with startDue := true })
  else if e.startDue then s
  else
    let again := bit w 10 && e.last.isSome
    raise (modChain s c (fun x =>
      { x with underrun := true, underruns := satAdd 0xFFFF x.underruns 1, startDue := again, repeatDue := again })) 44 3 0

/-- A shadowed word of a chain in force, by its offset (13 R503). -/
def lceWord (s : State) (c off : Nat) : Word := Store.get regReset (chainOf s c).force ((lceBase c + off) / 4)

/-- Words of a chain that are shadowed, by word index (13 R503, R506). -/
def lceShadowWords (c : Nat) : List Nat :=
  (lceBase c + 0xC) / 4 :: ((List.range 4).map (fun k => [0, 4, 8].map (fun o => (lceBase c + 0x20 + 0x10 * k + o) / 4))).flatten

/-- A write of `LCE_COMMIT` (13 R503). -/
def writeLceCommit (s : State) (v : Word) : State :=
  (List.range 2).foldl (fun acc c =>
    if bit v c then
      let shadow := (lceShadowWords c).foldl (fun m i => Store.put regReset m i (getReg acc i)) []
      modChain acc c (fun e => { e with pending := some shadow })
    else acc) s

/-- ΔT of a chain from the temperature its source publishes (13 R502). -/
def lceDt (s : State) (c : Nat) : Int :=
  let w := lceWord s c 0xC
  clampInt (-255) 255 (((hkValOf s (fld w 3 0)).value - signed 16 (fld w 31 16) + 8) / 16)

/-- A colour value compensated (13 R502). -/
def lceColour (s : State) (c k : Nat) (dt : Int) (vmax v : Nat) : Nat :=
  let co (o : Nat) : Int := signed 32 (lceWord s c (0x20 + 0x10 * k + o)).toNat
  let kk := (co 0 + co 4 * dt + co 8 * dt * dt).toNat
  Nat.min vmax ((v * kk + 32768) / 65536)

/-- The bytes of a frame in the order in which they leave the pin (13 R495, R502). -/
def laceBytes (s : State) (c : Nat) (dt : Int) (data : List Byte) : List Byte :=
  let code := lceWidth s c
  let cb := lceColourBytes code
  let perDev := lceWordBytes code / cb
  let comp := bit (lceCtrl s c) 7
  ((List.range (data.length / cb)).map (fun i =>
    let v := leAt data (cb * i) cb
    beBytes cb (if comp then lceColour s c (i % perDev) dt (256 ^ cb - 1) v else v))).flatten

/-- What a start sends: the repeat that is due, or the ready frame of an idle line (13 R498, R501). -/
def laceSource (s : State) (c : Nat) : Option (Option (Nat × Nat) × List Byte) :=
  let e := chainOf s c
  if !bit (lceCtrl s c) 0 || e.busy then none
  else if e.startDue && e.repeatDue then e.last.map (fun d => (none, d))
  else if e.ready && (e.startDue || !laceTriggered s c) then e.staged.map (fun st => (some (st.1, st.2.1), st.2.2))
  else none

/-- A frame's first bit leaves the pin (13 R498, R500, R502, R503). -/
def laceStarts (s : State) (c : Nat) : State :=
  if !lceRuns s || blockStopped s 8 || decide (2 ≤ c) then s
  else
    match laceSource s c with
    | none => s
    | some (desc, data) =>
      let s1 := modChain s c (fun e => { e with force := e.pending.getD e.force, pending := none })
      let dt := lceDt s1 c
      let s2 := modChain s1 c (fun e =>
        { e with dt := dt, last := some data, busy := true, sending := desc, startDue := false, repeatDue := false,
                 staged := if desc.isSome then none else e.staged, ready := if desc.isSome then false else e.ready })
      let s3 := match desc with
        | some (ring, slot) => stageWork s2 ring slot 2
        | none => s2
      emit s3 (.lace c (laceBytes s3 c dt data))

/-- The latch gap ends (13 R500). -/
def laceGapEnds (s : State) (c : Nat) : State :=
  let e := chainOf s c
  if !lceRuns s || !e.busy then s
  else
    let s1 := modChain s c (fun x => { x with busy := false, sending := none })
    match e.sending with
    | some (ring, slot) => completeAt s1 ring slot 0 0 0#32
    | none => s1

/-! ## Control (13 R504) -/

/-- Fields of `LCE_c_CTRL` that only a disabled chain takes: trig_mode, tt_sel, width, slew and repeat. -/
def lceHeldFields : Word := 0x77E#32

/-- A write of `LCE_c_CTRL` (13 R504). -/
def writeLceCtrl (s : State) (c : Nat) (v : Word) : State :=
  let a := lceBase c
  let old := regAt s a
  let v0 := v &&& 0x7FF#32
  let v1 := keepBad [⟨9, 8, [(0, 2)]⟩] old v0
  let heldBits : Word := if bit old 0 then lceHeldFields else if (chainOf s c).staged.isSome then 0x60#32 else 0#32
  let s1 := if (v0 ^^^ old) &&& heldBits = 0#32 then s else modChain s c (fun e => { e with refused := true })
  let s2 := setRegAt s1 a (merge v1 old heldBits)
  if bit old 0 && !bit v 0 then modChain s2 c (fun e => { e with startDue := false, repeatDue := false }) else s2

end Sys2Proof.Machine
end

