-- ==== Sys2Proof/Machine/Resets.lean ====
section
/-! DEFINITION. The reaches (19 R634 to R647): the reset sources, what a COLD, a WARM, a HOST and a BLOCK reach return to
reset and what they leave, the release sequence, and the ring journal (02 R100 to R103). -/

namespace Sys2Proof.Machine

/-- The reset controller changed by `f`. -/
def modRst (s : State) (f : Rst → Rst) : State := { s with rst := f s.rst }

/-! ## The keeping store across a reach (20 R661, R667, R668, R670 to R673) -/

/-- The words of physical sector `p`, each with its check bits, as they were or as in `new`: a free choice per word (20 R662). -/
def mixWords (s : State) (p : Nat) (new : Kps) : Nat → State
  | 0 => s
  | n + 1 =>
    let (k, s1) := drawBelow s 2
    let w := 512 * p + n
    let marks (old fresh : List Nat) : List Nat := old.filter (fun x => x != w) ++ fresh.filter (fun x => x == w)
    let s2 := if k = 1 then
        modKps s1 (fun e =>
          { e with data := Store.putList (fun _ => 0#8) e.data (8 * w) (Store.getList (fun _ => 0#8) new.data (8 * w) 8),
                   badWords := marks e.badWords new.badWords, weak := marks e.weak new.weak })
      else s1
    mixWords s2 p new n

/-- The physical sector that an operation programmes. -/
def opPhysical (s : State) (o : KpsOp) : Option Nat :=
  match o with
  | .refresh p => some p
  | .swap _ => cleanSpare s
  | _ => (opSector s o).bind (servingSector s)

/-- The writer's operation in progress stops part-way: its sector holds whole words, each old or new, and a swap has or has
not passed its tags (20 R662, R667, R675); an armed injection is spent on its first word (15 R543). -/
def kpsInterrupt (s : State) : State :=
  match s.kps.current with
  | none => s
  | some o =>
    let s1 := modKps s (fun k => { k with current := none })
    let spent (x : State) : State := if injArmed x 4 || injArmed x 5 then spendInj x else x
    match o, opPhysical s1 o with
    | .swap p, some q =>
      let (k, s2) := drawBelow s1 2
      if k = 1 then swapSector s2 p else mixWords (spent s2) q (swapSector s2 p).kps 512
    | _, some q => mixWords (spent s1) q (opProgramme s1 o).kps 512
    | _, none => s1

/-- A sector's tag as it is stored, without the account that the part keeps in registers (20 R660, R683). -/
def tagOnly (e : Sector) : Sector :=
  { e with candidate := false, corrected := 0, lastCorrected := false, lastBad := false }

/-- What the keeping store and the fuse array hold through a COLD or WARM reach (19 R637, 20 R682). -/
def kpsKept (k : Kps) : Kps :=
  { Kps.reset with
    data := k.data, sectors := k.sectors.foldl (fun m e => Store.put Sector.reset m e.1 (tagOnly e.2)) [],
    badWords := k.badWords, weak := k.weak, blown := k.blown, logSlot := k.logSlot }

/-- Of two SERVICE sectors that name one logical sector, the one of lower generation is programmed RETIRED (20 R661). -/
def rebuildMap (s : State) : State :=
  (List.range 2048).foldl (fun acc p =>
    let e := sectorOf acc p
    if e.state = 1 ∧ servingSector acc e.logical ≠ some p then modSector acc p (fun x => { x with state := 2 }) else acc) s

/-- The sequence number `a` is newer than `b`, compared as signed 32-bit numbers (20 R670). -/
def seqNewer (a b : Nat) : Bool := decide (0 < signed 32 ((a + 2 ^ 32 - b) % 2 ^ 32))

/-- The state record in logical sector 50 + `k`, where it is valid (20 R670). -/
def ledgerAt (s : State) (k : Nat) : Option (List Byte) :=
  let a := regionStart 8 + 4096 * k
  let b := lastBytes s a 256
  if lastReadable s a 256 && leAt b 0 2 == 1 && leAt b 2 2 == 256 && leAt b 252 4 == crc32c (b.take 252) then some b else none

/-- The newer valid state record and its sector (20 R670). -/
def ledgerNewest (s : State) : Option (Nat × List Byte) :=
  match ledgerAt s 0, ledgerAt s 1 with
  | some a, some b => if seqNewer (leAt b 4 4) (leAt a 4 4) then some (1, b) else some (0, a)
  | some a, none => some (0, a)
  | none, some b => some (1, b)
  | none, none => none

/-- The counts and the DOSE copies are taken from LEDGER; without a valid record they are zero and none (20 R670, R672). -/
def ledgerLoad (s : State) : State :=
  match ledgerNewest s with
  | none => modKps s (fun k => { k with ledgerLost := true, doseValid := false, powered := 0, lit := Pair.both 0, bands := [] })
  | some (i, b) => modKps s (fun k =>
      { k with ledgerSeq := leAt b 4 4, ledgerSector := i, powered := leAt b 72 4, lit := { a := leAt b 76 4, b := leAt b 80 4 },
               bands := (List.range 7).foldl (fun m j => Store.put (fun _ => 0) m j (leAt b (84 + 4 * j) 4)) [],
               doseSeq := leAt b 116 4, doseCopy := byteAt b 120 % 2,
               doseCrc := { a := BitVec.ofNat 32 (leAt b 124 4), b := BitVec.ofNat 32 (leAt b 128 4) }, doseValid := true })

/-- The EVENTLOG slot at index `i`, where it is valid: its sequence number (20 R668). -/
def eventSeqAt (s : State) (i : Nat) : Option Nat :=
  let a := regionStart 4 + 64 * i
  let b := lastBytes s a 64
  if lastReadable s a 64 && leAt b 60 4 == crc32c (b.take 60) then some (leAt b 52 4) else none

/-- The newest valid slot among some of EVENTLOG (20 R668). -/
def eventNewest (s : State) (slots : List Nat) : Option (Nat × Nat) :=
  slots.foldl (fun best i => match eventSeqAt s i, best with
    | none, _ => best
    | some q, none => some (i, q)
    | some q, some (_, r) => if seqNewer q r then some (i, q) else best) none

/-- EVENTLOG goes on after its newest valid slot (20 R668). -/
def eventScan (s : State) : State :=
  let at_ : Nat × Nat := match eventNewest s ((List.range 64).map (fun k => 64 * k)) with
    | none => (0, 0)
    | some (i, _) =>
      match eventNewest s ((List.range 64).map (fun j => 64 * (i / 64) + j)) with
      | some (j, q) => ((j + 1) % 4096, (q + 1) % 2 ^ 32)
      | none => (0, 0)
  modKps s (fun k => { k with evtSlot := at_.1, evtSeq := at_.2 })

/-- The keeping store gets ready after a reach (19 R639 step 3, 20 R661, R668, R670). -/
def kpsReady (s : State) : State := spareLevel (eventScan (ledgerLoad (rebuildMap s)))

/-- The prior-faults record after a WARM reach (20 R669). -/
def priorRecord (s : State) : State :=
  if s.flt.priorSticky = 0#64 then s
  else
    kpsRequest s (.eventlog false (fit 52
      ([0x22#8, 0#8, 0#8, 0#8] ++ leBytes 8 s.flt.priorSticky.toNat ++ fit 16 ((s.flt.priorFirst.map (fun w => leBytes 4 w.toNat)).flatten)
        ++ leBytes 4 s.rst.cause.toNat ++ leBytes 2 s.rst.colds ++ leBytes 2 s.rst.warms)))

/-- The bank map is taken from LEDGER, or is the shipment map (03 R107, 20 R670); a bank that was being copied to is a spare
again (03 R132). -/
def bankMapLoad (s : State) : State :=
  match ledgerNewest s with
  | none => { s with lmm := { s.lmm with banks := [] } }
  | some (_, b) =>
    (List.range 64).foldl (fun acc i =>
      let v := byteAt b (8 + i)
      modBank acc i (fun e => if v / 64 = 2 then { e with lbank := 0, state := 0 } else { e with lbank := v % 64, state := v / 64 })) { s with lmm := { s.lmm with banks := [] } }

/-- CALIB is loaded from LAST; a byte of an unreadable word loads as a gain of 1.0 (07 R250, 20 R673). -/
def calibLoad (s : State) : State :=
  let a := regionStart 5
  let sector (k : Nat) : List Byte :=
    let b := a + 4096 * k
    if lastReadable s b 4096 then lastBytes s b 4096
    else (List.range 512).flatMap (fun w => if lastReadable s (b + 8 * w) 8 then lastBytes s (b + 8 * w) 8 else List.replicate 8 64#8)
  let s1 := memWrite s (regionBase s 8) ((List.range 512).flatMap sector)
  if lastReadable s a 0x200000 then s1 else modKps s1 (fun k => { k with calibPatched := true })

/-- DOSE copy `c` matches the CRC that the state record gives it (20 R671). -/
def doseCopyOk (s : State) (c : Nat) : Bool :=
  let a := regionStart 6 + 0x100000 * c
  lastReadable s a 0x100000 && crc32c (lastBytes s a 0x100000) == (if c = 0 then s.kps.doseCrc.a else s.kps.doseCrc.b).toNat

/-- DOSE is loaded from the newer copy that is in force, from the other, or starts at zero (07 R262, 20 R671). -/
def doseLoad (s : State) : State :=
  let c := s.kps.doseCopy
  let pick := if !s.kps.doseValid then none else if doseCopyOk s c then some c else if doseCopyOk s (1 - c) then some (1 - c) else none
  match pick with
  | some k =>
    memWrite (modKps s (fun e => { e with doseCopy := k })) (regionBase s 7) (lastBytes s (regionStart 6 + 0x100000 * k) 0x100000)
  | none =>
    let s1 := memWrite s (regionBase s 7) (List.replicate 0x100000 0#8)
    modKps { s1 with pxc := { s1.pxc with doseLost := true } } (fun e => { e with doseValid := false })

/-! ## COLD and WARM reaches (19 R637, R638, R641, R642) -/

/-- Width of a source's reach: 3 COLD, 2 WARM, 1 HOST (19 R634). -/
def sourceWidth (b : Nat) : Nat := if b < 4 then 3 else if b < 8 then 2 else 1

/-- The sources of a COLD or WARM reach that are asserted. -/
def wideSources (s : State) : List Nat := s.rst.sources.filter (fun b => decide (2 ≤ sourceWidth b))

/-- The mask of some reset sources (19 R634). -/
def sourceMask (bs : List Nat) : Word := bs.foldl (fun m b => m ||| bitAt b true) 0#32

/-- The light memory keeps its cells through a WARM reach: HEALTH is set to NO_REPORT and the DOSE working map lies where the
reset layout places it (19 R638, 07 R264). -/
def warmMemory (s : State) : Store Byte :=
  let m := s.mem.filter (fun e => !(decide (0x01200000 ≤ e.1) && decide (e.1 < 0x01300000)))
  if regionBase s 7 = 0x01300000 then m else Store.putList memDefault m 0x01300000 (memRead s (regionBase s 7) 0x100000)

/-- The banks of the light memory through a WARM reach: map and states stay, a copy in progress is abandoned
(19 R638, 03 R114, R132). -/
def warmBanks (s : State) : Store Bank :=
  (retireAbandon s).lmm.banks.foldl (fun m e =>
    Store.put Bank.reset m e.1 { e.2 with candidate := false, passErrors := 0 }) []

/-- Every register and memory at its reset value: what a COLD reach leaves is LAST and the fuse array (19 R637), and filtered
SAFE_N, whose path works through every reach (16 R584). -/
def coldState (s : State) : State :=
  let s0 := kpsInterrupt s
  { State.reset with
    pending := s.pending, out := s.out, free := s0.free, rst := s.rst, kps := kpsKept s0.kps,
    saf := { Saf.reset with safeN := s.saf.safeN },
    flt := { Flt.reset with cycle := s.flt.cycle.map (fun _ => (0, false)), live := s.flt.live.filter (fun e => e.1 == 52 && s.saf.safeN) },
    pwr := { Pwr.reset with refPresent := s.pwr.refPresent } }

/-- The words of the first-fault record (15 R546). -/
def firstWords (s : State) : List Word :=
  let f := s.flt.first
  [at_ 0 f.source ||| at_ 6 f.severity ||| at_ 9 f.heads ||| bitAt 11 f.injected ||| at_ 12 f.detail ||| bitAt 31 s.flt.firstValid,
   f.time, f.fsnA, f.fsnB]

/-- The collector through a COLD or WARM reach: its registers are reset, and the `FLT_PRIOR_*` copies are kept or, where this
reach copies them, taken (15 R530, R545). A level source whose path works through every reach asserts again: filtered SAFE_N
(15 R522, 16 R584). -/
def fltKept (s : State) (copied : Bool) : Flt :=
  { Flt.reset with
    cycle := s.flt.cycle.map (fun _ => (0, false)),
    live := s.flt.live.filter (fun e => e.1 == 52 && s.saf.safeN),
    priorSticky := if copied then s.flt.sticky else s.flt.priorSticky,
    priorFirst := if copied then firstWords s else s.flt.priorFirst }

/-- Every domain at its reset values, but for what 19 R638 keeps; `copied` when this reach copies the sticky word and the
first-fault record (15 R530). -/
def warmState (s : State) (copied : Bool) : State :=
  let c := coldState s
  { c with
    mem := warmMemory s, lmm := { Lmm.reset with banks := warmBanks s, bad := s.lmm.bad, latent := s.lmm.latent },
    pxc := { PxcAll.reset with seq := s.pxc.seq },
    flt := fltKept s copied,
    saf := { c.saf with stop := s.saf.stop, dark := s.saf.dark, lastActed := s.saf.lastActed, lockout := s.saf.lockout } }

/-- A source of a COLD or WARM reach asserts (19 R641, R642). A WARM source during a COLD sequence restarts that sequence, and
is a WARM reach to the prior-fault copies (15 R530). -/
def wideAsserts (s : State) (b : Nat) : State :=
  let sources := if s.rst.sources.contains b then s.rst.sources else s.rst.sources ++ [b]
  let w := sourceWidth b
  let reach := Nat.max s.rst.reach w
  let copies := w == 2 && (wideSources s).isEmpty
  let newWarm := copies && s.rst.reach != 3
  let newCold := w == 3 && s.rst.reach != 3
  let base := if w = 3 then coldState s
    else if reach = 3 then { coldState s with flt := fltKept s copies }
    else warmState s newWarm
  { base with
    rst := { Rst.reset with
             sources := sources, reach := reach, step := 0, done := if reach = 3 then 0 else 1,
             cause := if newCold then sourceMask sources else s.rst.cause ||| bitAt b true,
             colds := if newCold then 1 else s.rst.colds,
             warms := if newCold then 0 else if newWarm then satAdd 0xFFFF s.rst.warms 1 else s.rst.warms } }

/-! ## The journal and HOST reaches (02 R47, R100 to R103) -/

/-- The ring engine holds anything that the journal takes at a HOST reach: an enabled ring, work in flight, completions not
released or an outcome (02 R59, R86, R100, R102). -/
def rngHolds (s : State) : Bool :=
  let headHolds (h : Head) : Bool :=
    let e := s.rng.heads.get h
    !e.opened.isEmpty || !e.sets.isEmpty || !e.replays.isEmpty || !e.outcomes.isEmpty
  (List.range 32).any (ringEnabled s) || !s.rng.work.isEmpty || !s.rng.written.isEmpty || !s.rng.held.isEmpty || headHolds .a || headHolds .b

/-- Words of the RNG and HIF windows (21 R685). -/
def hostWord (idx : Nat) : Bool := idx / 1024 == 1 || idx / 1024 == 3

/-- HIF and RNG return to reset, an abort under way ends, work in flight is journalled, and PD_HOST is held (02 R97, R100); what
waited for a tolerance message waits no longer (02 R102); a safety session ends (16 R584), and DOZE or SLEEP ends as by a wake
event of bit 0 (18 R630). -/
def hostDown (s : State) : State :=
  let j := match s.rng.journal with
    | some old => some old
    | none => if rngHolds s then some { regs := s.regs.filter (fun e => e.1 / 1024 == 3), rings := s.rng.rings } else none
  let s1 : State :=
    { s with
      regs := s.regs.filter (fun e => !hostWord e.1), hif := Hif.reset,
      rng := { s.rng with rings := [], journal := j, heads := { a := { s.rng.heads.a with abortCsn := none },
                                                                b := { s.rng.heads.b with abortCsn := none } } },
      rst := { s.rst with hifReady := false } }
  let s2 := endSession (commitsAfterLtr (setsAfterLtr s1)) true
  if s2.pwr.state = 2 ∨ s2.pwr.state = 3 then wake s2 0 else s2

/-- PD_HOST is released once no HOST source is asserted, no wider one is, and step 2 has ended; HIF is then ready
(19 R640). -/
def hostCheck (s : State) : State :=
  if s.rst.sources.isEmpty && decide (2 ≤ s.rst.done) && domainState s 0 == 2 then modRst s (fun r => { r with hifReady := true }) else s

/-- A source of a HOST reach asserts (19 R634, R641). -/
def hostAsserts (s : State) (b : Nat) : State :=
  let s1 := modRst s (fun r =>
    { r with sources := if r.sources.contains b then r.sources else r.sources ++ [b], cause := r.cause ||| bitAt b true })
  if (wideSources s).isEmpty && decide (2 ≤ s.rst.done) then hostDown s1 else modRst s1 (fun r => { r with hifReady := false })

/-- A reset source asserts (19 R634, R641, R642). -/
def sourceAsserts (s : State) (b : Nat) : State := if sourceWidth b = 1 then hostAsserts s b else wideAsserts s b

/-- The last COLD or WARM source having gone, the release sequence begins (19 R639). -/
def releaseBegins (s : State) : State :=
  if (wideSources s).isEmpty && s.rst.reach != 0 && s.rst.step == 0 then
    modRst s (fun r => { r with step := if r.reach = 3 then 1 else 2 })
  else s

/-- Reset sources are released (19 R639, R640). -/
def sourcesRelease (s : State) (bs : List Nat) : State :=
  let s1 := modRst s (fun r => { r with sources := r.sources.filter (fun b => !bs.contains b) })
  hostCheck (releaseBegins s1)

/-- A HOST source that is an event rather than a level asserts and is released at once (log 42). -/
def hostPulse (s : State) (b : Nat) : State := sourcesRelease (hostAsserts s b) [b]

/-- Completions written and not released are written again in their slot and phase, OK as REPLAYED_OK and any other status
marked replayed (02 R102). -/
def rewriteCpl (s : State) (w : Written) : State :=
  let c := if w.cpl.code = 0 then { w.cpl with code := 1 } else { w.cpl with replayed := true }
  let s1 := postWrite s (ringBase s c.ring + 16 * w.slot) (cplBytes c w.phase)
  let s2 := modRng s1 (fun g => { g with written := g.written.map (fun x => if x == w then { x with cpl := c } else x) })
  ringIrq s2 c.ring c.irq

/-- Completions of ring `c` that are reserved for descriptors fetched and not completed, or formed and held (02 R69). -/
def reservedOn (g : Rng) (c : Nat) : Nat :=
  let members (e : RngHead) : List Member := e.opened ++ (e.sets.map (fun x => x.members)).flatten ++ e.replays.flatten
  (g.work.filter (fun w => w.cpl == c && !w.forgotten)).length + ((members g.heads.a ++ members g.heads.b).filter (fun m => m.cpl == c)).length
    + (g.held.filter (fun x => x.ring == c)).length

/-- RESUME: the rings' registers and positions return from the journal, what was written is written again, and what was held
is written (02 R101 to R103). Reservations stand for what is still outstanding, and a CRC_JOB starts again (02 R102). -/
def journalResumes (s : State) : State :=
  match s.rng.journal with
  | none => s
  | some j =>
    let back := s.regs.filter (fun e => e.1 / 1024 != 3)
    let s1 : State :=
      { s with
        regs := j.regs.foldl (fun m e => Store.put regReset m e.1 e.2) back,
        rng := { s.rng with
                 journal := none,
                 rings := (List.range 32).foldl (fun m c =>
                   Store.put (fun _ => Ring.reset) m c { Store.get (fun _ => Ring.reset) j.rings c with reserved := reservedOn s.rng c }) [],
                 work := s.rng.work.map (fun w => if w.desc.opcode = 7 ∧ dNat w.desc 12 4 ≠ 0 then { w with stage := Nat.min 1 w.stage } else w) } }
    let s2 := s1.rng.written.foldl rewriteCpl s1
    (List.range 32).foldl (fun acc n => if ringEnabled acc n && ringKind acc n == 1 then flushHeld acc n else acc) s2

/-- A committed change set at FORGET: one past its cut takes effect without a completion, another is withdrawn (02 R102). -/
def forgetSets (e : RngHead) : RngHead :=
  { e with opened := [], abortCsn := none, replays := [], outcomes := [],
           sets := (e.sets.filter (fun c => c.stage == .applied || c.stage == .composed)).map (fun c => { c with members := [] }) }

/-- The host reads of a fetched descriptor have ended, so that FORGET leaves it to end without a completion (02 R102): an
object list, an upload or a frame that has been read, a LAST_WRITE in execution, and a CRC_JOB of no data. -/
def readsOver (s : State) (w : Work) : Bool :=
  let at_ (x : Nat × Nat) : Bool := x == (w.ring, w.slot)
  !w.held && (match w.desc.opcode with
    | 4 => bothHeads.any (fun h => (s.shd.get h).lists.any (fun l => at_ (l.ring, l.slot) && l.stage != 0))
    | 5 => (s.pxc.cal.toList ++ s.pxc.merged).any (fun c => at_ (c.ring, c.slot) && c.stage != 0)
    | 6 => true
    | 7 => crcEmpty w.desc
    | 8 => [0, 1].any (fun c =>
        let e := chainOf s c
        (e.ready && e.staged.any (fun x => at_ (x.1, x.2.1))) || e.sending.any at_)
    | 9 => [0, 1].any (fun p => (portOf s p).txFrames.any (fun f => at_ (f.1, f.2.1)))
    | _ => false)

/-- The ring number of work that FORGET leaves without a completion: none of a ring. -/
def forgetRing (ring : Nat) : Nat := ring + 32

/-- The writer's operation of forgotten work. -/
def forgetOp : KpsOp → KpsOp
  | .lastWrite ring slot logical data final => .lastWrite (forgetRing ring) slot logical data final
  | .calib ring slot logical => .calib (forgetRing ring) slot logical
  | o => o

/-- What FORGET does to work outside change sets (02 R102): what still reads the host is dropped, from its unit too; the rest
goes on under a number that is no ring's, and completes nothing. -/
def forgetWork (s : State) : State :=
  let kept := (s.rng.work.filter (readsOver s)).map (fun w => { w with ring := forgetRing w.ring })
  let cal (c : Cal) : Cal := { c with ring := forgetRing c.ring }
  let s1 := bothHeads.foldl (fun acc h =>
    modShd acc h (fun e => { e with lists := (e.lists.filter (fun l => l.stage != 0)).map (fun l => { l with ring := forgetRing l.ring }) })) s
  let s2 : State :=
    { s1 with pxc := { s1.pxc with cal := (s1.pxc.cal.filter (fun c => c.stage != 0)).map cal, merged := s1.pxc.merged.map cal } }
  let s3 := [0, 1].foldl (fun acc c => modChain acc c (fun e =>
    { e with staged := if e.ready then e.staged.map (fun x => (forgetRing x.1, x.2)) else none,
             sending := e.sending.map (fun x => (forgetRing x.1, x.2)) })) s2
  let s4 := [0, 1].foldl (fun acc p => modPort acc p (fun e =>
    { e with txFrames := e.txFrames.map (fun f => (forgetRing f.1, f.2)) })) s3
  modRng (modKps s4 (fun k => { k with current := k.current.map forgetOp, waiting := k.waiting.map forgetOp }))
    (fun g => { g with work := kept })

/-- FORGET: the journal is cleared and every ring is left at its reset values, its registers with it (02 R102, R103). -/
def journalForgets (s : State) : State :=
  match s.rng.journal with
  | none => s
  | some _ =>
    let s1 := forgetWork s
    { s1 with
      regs := s.regs.filter (fun e => !(e.1 / 1024 == 3 && decide (0x03100 / 4 ≤ e.1))),
      rng :=
        { rings := [], heads := { a := forgetSets s.rng.heads.a, b := forgetSets s.rng.heads.b }, work := s1.rng.work, written := [],
          held := [], journal := none, journalBad := false } }

/-- The JOURNAL region is read: a word that reads as uncorrectable clears the journal (03 R115, R117). -/
def journalRead (s : State) : State := clientRead s none [(regionBase s 9, regionSize s 9)]

/-- A write of `RNG_JRNL_CMD` (02 R59, R101); RESUME acts as FORGET where an uncorrectable word has cleared the journal
(03 R117). -/
def writeJournal (s : State) (v : Word) : State :=
  if s.rng.journal.isNone then s
  else if v = 1#32 then
    let s1 := journalRead s
    if s1.rng.journalBad then journalForgets s1 else journalResumes s1
  else if v = 2#32 then journalForgets s
  else s

/-! ## The release sequence (19 R639) -/

/-- A release step ends and the next begins, up to step 7 (19 R639, R640). -/
def stepEnds (s : State) (n : Nat) : State :=
  let s1 := modRst s (fun r => { r with done := n, step := n + 1 })
  match n with
  | 1 => s1
  | 2 => hostCheck s1
  | 3 => if s.rst.reach = 2 then priorRecord (kpsReady s1) else kpsReady s1
  | 4 => if s.rst.reach = 3 then bankMapLoad s1 else s1
  | 5 =>
    let s2 := modRst (loadSafecfg s) (fun r => { r with done := 5, step := 6 })
    let s3 := beginJudging s2
    settle (if s3.kps.ledgerLost then raise s3 5 0 0 else s3)
  | 6 => if s.rst.reach = 3 then doseLoad (calibLoad s1) else calibLoad s1
  | _ => s1

/-! ## BLOCK reaches (19 R643 to R645) -/

/-- The conditions of some sources become false. -/
def dropLevels (s : State) (srcs : List Nat) : State :=
  (s.flt.live.filter (fun e => srcs.contains e.1)).foldl (fun acc e => setLevel acc e.1 e.2.1 0 0 false) s

/-- Descriptors in flight of some opcodes complete with ABORTED (19 R644); a job that its BARRIER holds has its context, and is
in flight, and the word of a job is 0 (14 R510, R514, R518). -/
def abortWork (s : State) (opcodes : List Nat) : State :=
  (s.rng.work.filter (fun w => opcodes.contains w.desc.opcode && (!w.held || w.role == 7))).foldl
    (fun acc w => if w.desc.opcode = 7 then abortHeld acc w else completeAt acc w.ring w.slot 3 0 0#32) s

/-- A NET_TX whose data is being read from the host: it is in none of the ports' queues yet (11 R418, R419). -/
def txReading (s : State) (w : Work) : Bool :=
  w.desc.opcode == 9 && !w.held && !([0, 1].any (fun p => (portOf s p).txFrames.any (fun f => f.1 == w.ring && f.2.1 == w.slot)))

/-- A block has a unit of work started and not finished, or a bus transaction outstanding (19 R644, 01 R36). -/
def blockBusy (s : State) (b : Nat) : Bool :=
  match b with
  | 0 => [0, 1].any (fun p => (portOf s p).txSeen.isSome) || s.net.mdio.isSome || s.rng.work.any (txReading s)
  | 1 => s.cle.running.isSome || (List.range 8).any (fun n => (loopOf s n).sample.isSome) || s.cle.imuBusy
      || (List.range 4).any (fun c => (Store.get (fun _ => Adc.reset) s.cle.adcs c).converting)
  | 2 => [0, 1].any (fun c => (chainOf s c).busy || ((chainOf s c).staged.isSome && !(chainOf s c).ready))
  | 3 => (List.range 4).any (crcHeld s)
  | 4 => s.hkp.busy
  | 7 => s.kps.current.isSome
  | 8 => s.lmm.retire.isSome
  | _ => false

/-- Words of a window cleared, but for some addresses. -/
def clearWindow (s : State) (base : Nat) (keep : List Nat) : State :=
  { s with regs := s.regs.filter (fun e => !(e.1 / 1024 == base / 4096) || keep.contains (4 * e.1)),
           tableBad := s.tableBad.filter (fun e => !(e.1 / 1024 == base / 4096)) }

/-- NET and LNN return to reset (11 R452, 19 R643, R644). -/
def resetNet (s : State) : State :=
  let s1 := abortWork s [9, 10]
  let s2 := clearWindow (clearWindow s1 0x0D000 []) 0x0B000 []
  let s3 := { s2 with net := Net.reset,
                      laneBlocks := Store.put (fun _ => LaneBlock.reset) s2.laneBlocks 2 LaneBlock.reset }
  dropLevels (modLane (modLane s3 16 (fun _ => Lane.reset)) 17 (fun _ => Lane.reset)) [31, 32]

/-- CLE returns to reset but for its set-points and LEN (12 R464, R492). -/
def resetCle (s : State) : State :=
  let s1 := clearWindow s 0x0F000 ([0x0F008, 0x0F030, 0x0F060, 0x0F064] ++ (List.range 6).map (fun n => 0x0F040 + 4 * n))
  dropLevels
    { s1 with cle :=
        { Cle.reset with setpTaken := s.cle.setpTaken, setpPeriod := s.cle.setpPeriod, totals := s.cle.totals, repeated := s.cle.repeated, fifo := s.cle.fifo } }
    [43]

/-- LCE returns to reset; staged and sending descriptors complete with ABORTED, and what was last sent stays (13 R501, R505). -/
def resetLce (s : State) : State :=
  let s1 := clearWindow (abortWork s [8]) 0x10000 []
  [0, 1].foldl (fun acc c => modChain acc c (fun e => { Chain.reset with last := e.last })) s1

/-- CRC returns to reset; held jobs complete with ABORTED (14 R518). -/
def resetCrc (s : State) : State := { clearWindow (abortWork s [7]) 0x11000 [] with crc := Crc.reset }

/-- HKP returns to reset but for its band, levels and published values (17 R606). -/
def resetHkp (s : State) : State := dropLevels (sensorLevels (bandLevels (hkpBlockReset s))) [49]

/-- FLT returns to reset but for `FLT_PRIOR_*`; the conditions of its sources stand where they are (15 R545). -/
def resetFlt (s : State) : State :=
  settle (modFlt (clearWindow s 0x12000 []) (fun f =>
    { Flt.reset with live := f.live.filter (fun e => e.1 != 62), priorSticky := f.priorSticky, priorFirst := f.priorFirst,
                     aoClock := f.aoClock, cycle := f.cycle.map (fun _ => (0, false)) }))

/-- SAF: a session ends as ABANDON; the image, the latches, the heartbeat and the watchdogs stay (16 R584). -/
def resetSaf (s : State) : State :=
  let s1 := clearWindow (endSession s true) 0x13000 [0x13040]
  modSaf s1 (fun e =>
    { e with hbBad := 0, commitError := false, commitReason := 0, unlockRefused := false, failures := 0,
             committing := false, keyLo := 0#32, keyHi := 0#32, heads := { a := { e.heads.a with holds := 0 }, b := { e.heads.b with holds := 0 } } })

/-- Uploads that wait for their sectors of LAST complete with ABORTED (19 R644). -/
def abortCals (s : State) : State :=
  let due := s.pxc.merged.filter (fun c => !c.sectors.isEmpty)
  due.foldl (fun acc c => completeAt acc c.ring c.slot 3 0 0#32)
    { s with pxc := { s.pxc with merged := s.pxc.merged.filter (fun c => c.sectors.isEmpty) } }

/-- KPS: the operation in progress stops part-way and waiting ones are dropped (20 R667, R682); a commit's entry is not
written (16 R577 check 5). -/
def resetKps (s : State) : State :=
  let s0 := if s.saf.committing then commitFails s 5 else s
  let s1 := kpsInterrupt (abortCals (abortWork s0 [6]))
  let s2 := { clearWindow s1 0x1C000 [] with pxc := { s1.pxc with ckpt := false } }
  modKps s2 (fun k => kpsKept k)

/-- CBL: policies and open proposals are cleared, and a copy in progress is given up (20 R682). -/
def resetCbl (s : State) : State := { clearWindow (retireAbandon s) 0x17000 [] with cbl := Cbl.reset }

/-- One block is reset (19 R643, R644). -/
def resetBlock (s : State) (b : Nat) : State :=
  let s1 := if blockBusy s b then raise s 57 0 b else s
  let s2 := match b with
    | 0 => resetNet s1
    | 1 => resetCle s1
    | 2 => resetLce s1
    | 3 => resetCrc s1
    | 4 => resetHkp s1
    | 5 => resetFlt s1
    | 6 => resetSaf s1
    | 7 => resetKps s1
    | _ => resetCbl s1
  modRst s2 (fun r => { r with blocks := if r.blocks.contains b then r.blocks else r.blocks ++ [b] })

/-- The domain of a block of `RST_BLOCK` (19 R643). -/
def blockDomain (b : Nat) : Nat := if b = 0 then 1 else if b = 7 then 7 else if b = 8 then 5 else 6

/-- A BLOCK reach of a block: one whose domain is off or retained waits for the next exit (18 R630). -/
def resetOrDefer (s : State) (b : Nat) : State :=
  if domainState s (blockDomain b) = 2 then resetBlock s b
  else modRst s (fun r => { r with deferred := if r.deferred.contains b then r.deferred else r.deferred ++ [b] })

/-- At the end of an exit the BLOCK reaches that waited for it take effect (18 R630). -/
def deferredResets (s : State) : State := s.rst.deferred.foldl resetBlock (modRst s (fun r => { r with deferred := [] }))

/-- A release sequence or the boot script runs (19 R645). -/
def sequencing (s : State) : Bool := s.rst.reach != 0 || s.rst.boot.state == 1 || s.rst.boot.state == 2

/-- A write of `RST_BLOCK` (19 R642, R643, R645). -/
def writeRstBlock (s : State) (v : Word) : State :=
  let bs := (List.range 9).filter (fun b => bit v b)
  if sequencing s then modRst s (fun r => { r with blockRefused := true })
  else if bs.isEmpty then s
  else bs.foldl resetOrDefer (modRst s (fun r => { r with cause := r.cause ||| bitAt 16 true }))

/-- 64 CORE cycles later the block is released (19 R643); a collector begins to judge and a keeping store gets ready
(15 R522, 20 R682). -/
def blockReleases (s : State) (b : Nat) : State :=
  if !blockHeld s b then s
  else
    let s1 := modRst s (fun r => { r with blocks := r.blocks.filter (fun x => x != b) })
    match b with
    | 5 => settle (beginJudging s1)
    | 7 => kpsReady s1
    | _ => s1

/-! ## Software resets and the fault reset request (15 R528, 19 R636) -/

/-- A write of `RST_CMD` (19 R636). -/
def writeRstCmd (s : State) (v : Word) : State :=
  if fld v 31 16 != 0x2148 then s
  else
    match fld v 3 0 with
    | 1 => sourceAsserts s 6
    | 2 => sourceAsserts s 3
    | 3 => sourceAsserts s 12
    | _ => s

/-- TBL has reported that the HUSK sequences of a RESET reaction have left: the WARM reach is requested (15 R528). -/
def faultReset (s : State) : State := if s.flt.resetReq then sourceAsserts s 5 else s

end Sys2Proof.Machine
end

