-- ==== Sys2Proof/Machine/Times.lean ====
section
/-! DEFINITION. The time counter, trigger comparators, PPS_OUT and capture units (11 R430 to R444, R456). -/

namespace Sys2Proof.Machine

/-- The time block changed by `f`. -/
def modTim (s : State) (f : Tim → Tim) : State := { s with tim := f s.tim }

/-! ## Discipline and holdover (11 R436) -/

/-- Holdover ends and the condition of TIME_HOLDOVER becomes false. -/
def endHoldover (s : State) : State := setLevel (modTim s (fun t => { t with holdover := false })) 36 0 3 0 false

/-- A discipline clears holdover. -/
def discipline (s : State) : State := if s.tim.holdover then endHoldover s else s

/-- No discipline for the timeout while valid (11 R436). -/
def holdoverNow (s : State) : State :=
  if ctrlLive s && s.tim.valid && regFld s 0x0E018 15 0 != 0 && !s.tim.holdover then
    setLevel (modTim s (fun t => { t with holdover := true })) 36 0 3 0 true
  else s

/-- A write of `TIM_HOLD`; a timeout of zero ends the supervision (11 R436). -/
def writeHold (s : State) (v : Word) : State :=
  let t := fld v 15 0
  let s1 := if t = 0 ∨ (100 ≤ t ∧ t ≤ 60000) then setRegAt s 0x0E018 (v &&& 0xFFFF#32) else s
  if regFld s1 0x0E018 15 0 = 0 then (if s1.tim.holdover then endHoldover s1 else s1) else s1

/-- TIM_STATUS shows a refused write. -/
def timRefuse (s : State) : State := modTim s (fun t => { t with refused := true })

/-- A write of `TIM_INCR_FRAC` applies the held pair if it lies within 2 to 8 ns (11 R431, R436). -/
def writeIncrFrac (s : State) (v : Word) : State :=
  let inc := regFld s 0x0E008 3 0 * 2 ^ 32 + v.toNat
  if 2 * 2 ^ 32 ≤ inc ∧ inc ≤ 8 * 2 ^ 32 then
    discipline (modTim (setRegAt s 0x0E00C v) (fun t => { t with increment := inc }))
  else timRefuse s

/-- A write of `TIM_SLEW_RATE` (11 R434). -/
def writeSlewRate (s : State) (v : Word) : State :=
  if 1 ≤ v.toNat ∧ v.toNat ≤ 0x40000000 then setRegAt s 0x0E014 v else timRefuse s

/-! ## Trigger comparators (11 R438 to R442) -/

/-- The counter in units of 2^−16 ns, rounded down. -/
def now16 (s : State) : Nat := s.tim.counter / 2 ^ 16

/-- Next time of a trigger by its start and period against a counter value (11 R439): the next event, and whether a
single event was too late. All in units of 2^−16 ns; `c` counts in units of 2^−32 ns. -/
def trigNext (start period c : Nat) : Option Nat × Bool :=
  if c < start * 2 ^ 16 then (some start, false)
  else if period = 0 then (none, true)
  else
    let k := (c - start * 2 ^ 16) / (period * 2 ^ 16) + 1
    (some (start + k * period), false)

/-- A trigger sets its next time by R439 against the counter as it stands. -/
def trigSet (s : State) (n : Nat) : State :=
  let t := trigOf s n
  let r := trigNext t.start t.period s.tim.counter
  modTrig s n (fun e => { e with next := r.1, late := e.late || r.2 })

/-- Start and period registers of a trigger, in units of 2^−16 ns (11 R438). -/
def trigStartReg (s : State) (n : Nat) : Nat :=
  let a := 0x0E104 + 0x20 * n
  (((regAt s a).toNat + 2 ^ 32 * regFld s (a + 4) 15 0) * 10 ^ 9 + regFld s (a + 8) 29 0) * 65536

/-- The period registers of a trigger, in units of 2^−16 ns (11 R438). -/
def trigPeriodReg (s : State) (n : Nat) : Nat :=
  let a := 0x0E110 + 0x20 * n
  if (regAt s a).toNat = 0 then 0 else (regAt s a).toNat * 65536 + regFld s (a + 4) 15 0

/-- Arm: start and period take effect and the next time is set (11 R439). -/
def trigArm (s : State) (n : Nat) : State :=
  let s1 := setRegAt s (0x0E100 + 0x20 * n) 1#32
  trigSet (modTrig s1 n (fun e => { e with start := trigStartReg s n, period := trigPeriodReg s n })) n

/-- A head that waits for trigger `n` waits no longer: its next sweep is due, whether or not the comparator is armed again
before it starts (01 R39, 08 R294). -/
def trigWaitOff (n : Nat) (s : State) (h : Head) : State :=
  let t := timingOf s h
  if (s.tg.get h).waiting && t.trigMode && t.trigSel == n then modTg s h (fun x => { x with trigSeen := true }) else s

/-- Enable is cleared: the trigger stops, no event is due, trigger waits of it end, and loops that use it go to their timers
(11 R439, 08 R294, 12 R459). -/
def trigStop (s : State) (n : Nat) : State :=
  bothHeads.foldl (trigWaitOff n) (modTrig (setRegAt (loopsLeave s n) (0x0E100 + 0x20 * n) 0#32) n (fun e => { e with next := none }))

/-- A write of `TIM_TTn_CTRL` (11 R439). A write of both arm and enable 0 arms. -/
def writeTrigCtrl (s : State) (n : Nat) (v : Word) : State :=
  if bit v 1 then trigArm s n else if bit v 0 then s else trigStop s n

/-- A write of `TIM_PPS`: PPS_OUT is low whenever enable is clear (11 R442). -/
def writePps (s : State) (v : Word) : State :=
  let w := keepBad [⟨23, 8, [(1, 65535)]⟩] (regAt s 0x0E060) (v &&& 0x00FFFF0F#32)
  let s1 := setRegAt s 0x0E060 w
  if s1.tim.pps && !bit w 3 then emit (modTim s1 (fun t => { t with pps := false })) (.pps false) else s1

/-- The consumers whose selection names comparator `n` and that run (11 R441). -/
def trigConsumers (s : State) (n : Nat) : List Consumer :=
  (idxWhere 8 (fun m => loopEnabled s m && loopChoice s m == some n)).map .loop
  ++ (idxWhere 4 (fun c => adcChoice s c == some n)).map .adc
  ++ (if regBit s 0x0F080 0 && imuChoice s == some n then [.imu] else [])
  ++ (if roundChoice s == some n then [.round] else [])

/-- A trigger's event leaves for its consumers (11 R441, R442, 18 R623). -/
def trigDeliver (s0 : State) (n : Nat) : State :=
  let s := (trigConsumers s0 n).foldl (sendPulse n) s0
  let s1 := emit (modTrig s n (fun e => { e with count := e.count + 1#32 })) (.trigger n)
  let s2 :=
    if regBit s1 0x0E060 3 && regFld s1 0x0E060 2 0 == n && !s1.tim.pps then
      emit (modTim s1 (fun t => { t with pps := true })) (.pps true)
    else s1
  if regBit s2 0x15024 n then wake s2 6 else s2

/-- The counter reaches a trigger's next time (11 R438): the counter stands at that time or beyond it. -/
def trigFire (s : State) (n : Nat) : State :=
  if !ctrlLive s || decide (8 ≤ n) || !trigEnabled s n then s
  else
    match (trigOf s n).next with
    | none => s
    | some t =>
      let s1 := modTim s (fun e => { e with counter := Nat.max e.counter (t * 2 ^ 16) })
      let p := (trigOf s n).period
      trigDeliver (modTrig s1 n (fun e => { e with next := if p = 0 then none else some (t + p) })) n

/-- The PPS pulse ends (11 R442). -/
def ppsEnds (s : State) : State :=
  if s.tim.pps then emit (modTim s (fun t => { t with pps := false })) (.pps false) else s

/-- The counter has jumped from `old`: every enabled trigger sets its next time, and one whose events were passed over
fires once (11 R440). -/
def trigsJump (s : State) (old : Nat) : State :=
  (idxWhere 8 (trigEnabled s)).foldl (fun acc n =>
    let passed := match (trigOf acc n).next with
      | some t => decide (old ≤ s.tim.counter) && decide (t * 2 ^ 16 ≤ s.tim.counter)
      | none => false
    let a1 := trigSet acc n
    if passed then trigDeliver a1 n else a1) s

/-! ## Commands of the counter (11 R434, R435) -/

/-- The counter wraps after 2^48 seconds. -/
def counterTop : Nat := 2 ^ 48 * 10 ^ 9 * 2 ^ 32

/-- The counter is set to `c`: the step is counted and raised, a slew is cancelled, and triggers follow (11 R434, R435,
R440). -/
def stepTo (s : State) (c : Nat) : State :=
  let s1 := modTim s (fun t =>
    { t with counter := c % counterTop, slew := 0, steps := satAdd 0xFFFF t.steps 1 })
  trigsJump (discipline (raise s1 37 3 0)) s.tim.counter

/-- SET. -/
def timSet (s : State) : State :=
  let sec := (regAt s 0x0E040).toNat + 2 ^ 32 * regFld s 0x0E044 15 0
  stepTo (modTim s (fun t => { t with valid := true })) ((sec * 10 ^ 9 + regFld s 0x0E048 29 0) * 2 ^ 32)

/-- `TIM_ADJ` in units of 2^−32 ns. -/
def timAdj (s : State) : Int := signed 32 (regAt s 0x0E010).toNat * 2 ^ 32

/-- STEP, refused while valid is clear. -/
def timStep (s : State) : State :=
  if s.tim.valid then stepTo s (((s.tim.counter : Int) + timAdj s) % (counterTop : Int)).toNat else timRefuse s

/-- SLEW. -/
def timSlew (s : State) : State := discipline (modTim s (fun t => { t with slew := timAdj s }))

/-- CANCEL. -/
def timCancel (s : State) : State := modTim s (fun t => { t with slew := 0 })

/-- A write of `TIM_CMD`; codes 0, 6 and 7 do nothing (11 R434, 00 R12). -/
def writeTimCmd (s : State) (v : Word) : State :=
  match fld v 2 0 with
  | 1 => timSet s
  | 2 => timStep s
  | 3 => timSlew s
  | 4 => timCancel s
  | 5 => discipline s
  | _ => s

/-- The remaining offset has reached zero (11 R434): the cycles that this takes have passed (log 36). -/
def slewEnds (s : State) : State :=
  let rate := (regAt s 0x0E014).toNat
  if !ctrlLive s || s.tim.slew = 0 || rate == 0 then s
  else
    let k := (s.tim.slew.natAbs + rate - 1) / rate
    modTim s (fun t => { t with counter := (((t.counter + k * t.increment : Nat) : Int) + t.slew).toNat, slew := 0 })

/-- A read of `TIM_NOW_SEC_LO` latches the counter (11 R433). -/
def latchNow (s : State) : State := modTim s (fun t => { t with now := t.counter })

/-! ## Capture units (11 R443, R444) -/

/-- Capture unit `n`. -/
def capOf (s : State) (n : Nat) : Cap := Store.get (fun _ => Cap.reset) s.tim.caps n

/-- Capture unit `n` changed by `f`. -/
def modCap (s : State) (n : Nat) (f : Cap → Cap) : State :=
  modTim s (fun t => { t with caps := Store.put (fun _ => Cap.reset) t.caps n (f (capOf s n)) })

/-- The time a unit records for its source, whole nanoseconds (11 R443): which of the times within the stated error is a
free value. -/
def captureNs (s : State) (src : Nat) : Nat × State :=
  if 14 ≤ src then (nowNs s, s)
  else
    let (k, s1) := drawBelow s 5
    if src ≤ 8 ∨ src = 13 then (nowNs s + k, s1) else (nowNs s + k - 2, s1)

/-- The edge of a pin event is one that the unit records; an internal source has none (11 R443). -/
def captureEdge (src edge : Nat) (rising : Bool) : Bool :=
  decide (9 ≤ src) || edge == 3 || (edge == 1 && rising) || (edge == 2 && !rising)

/-- The selected event of a capture unit happens (11 R443, R444). -/
def captureNow (s : State) (n : Nat) (rising : Bool) : State :=
  let w := regAt s (0x0E200 + 0x20 * n)
  let src := fld w 4 0
  if !ctrlLive s || blockStopped s 8 || decide (8 ≤ n) || !bit w 7 || src == 0 || !captureEdge src (fld w 6 5) rising then s
  else
    let (t, s1) := captureNs s src
    let c := capOf s1 n
    if 4 ≤ c.fifo.length then modCap s1 n (fun e => { e with overflow := true })
    else
      let s2 := modCap s1 n (fun e => { e with fifo := e.fifo ++ [{ ns := t, holdover := s.tim.holdover }] })
      if c.fifo.isEmpty && regBit s2 0x0E070 7 then signalMsix s2 (regFld s2 0x0E070 4 0) else s2

/-- A read of `TIM_TCn_SEC_LO` takes the oldest record out of the FIFO (11 R444). -/
def capturePops (s : State) (n : Nat) : State :=
  match (capOf s n).fifo with
  | [] => s
  | r :: rest => modCap s n (fun e => { e with fifo := rest, current := r })

end Sys2Proof.Machine
end

