-- ==== Sys2Proof/Machine/Power.lean ====
section
/-! DEFINITION. The power states (18): IDLE, the requests, the entry handshake with what each block answers, the point of no
return, the save list, the exit and what save mode loses. -/

namespace Sys2Proof.Machine

/-- Target codes of `PWR_CMD` and of the timers: DOZE, SLEEP and OFF as `PWR_STATUS.state` shows them (18 R633). -/
def dozeState : Nat := 2

/-- SLEEP as `PWR_STATUS.state` shows it. -/
def sleepState : Nat := 3

/-- OFF as `PWR_STATUS.state` shows it. -/
def offState : Nat := 4

/-! ## IDLE (18 R612, R614) -/

/-- No descriptor is fetched and not yet completed (18 R614). -/
def noWork (s : State) : Bool := (outstanding s).isEmpty

/-- The idle conditions that stand in the state: both heads STOPPED and no descriptor in flight (18 R614). -/
def idleHolds (s : State) : Bool := stopped s .a && stopped s .b && noWork s

/-- The idle conditions have held for `PWR_IDLE_US` (18 R612). -/
def idleEnters (s : State) : State :=
  if regBit s 0x15000 0 && s.pwr.state == 0 && s.pwr.phase == 0 && aoLive s && idleHolds s then
    linkRests (modPwr s (fun p => { p with state := 1 })) else s

/-! ## Requests (18 R613) -/

/-- A request for a low-power state. A request in SLEEP or OFF for another state has no effect either (log 43). One in DOZE
first switches on what DOZE holds down, whose power-good the first question waits for. -/
def powerRequest (s : State) (target : Nat) (byTimer : Bool) : State :=
  if s.pwr.phase ≠ 0 ∨ s.pwr.state = target ∨ 3 ≤ s.pwr.state then modPwr s (fun p => { p with refused := true })
  else
    modPwr s (fun p =>
      { p with awaiting := domainsDown s, missed := [], phase := 1, target := target, asking := 1, agreed := [],
               byTimer := byTimer, saveNext := target == 4 })

/-- The DOZE or SLEEP timer expires (18 R613, R614): its enable bit is set and the idle conditions hold; the timers count up
to DOZE. -/
def timerRequest (s : State) (target : Nat) : State :=
  if regBit s 0x15000 (target - 1) && idleHolds s && decide (s.pwr.state < 3) then powerRequest s target true else s

/-! ## The handshake (18 R616 to R618) -/

/-- The blocks asked for a target, in ascending order of code (18 R616). -/
def askedBlocks (s : State) (target : Nat) : List Nat :=
  match target with
  | 2 => [1, 2, 3, 6]
  | 3 => [1, 2, 3, 4, 5, 6] ++ (if regBit s 0x15000 3 then [7] else [])
  | _ => [1, 2, 3, 4, 5, 6, 7, 8, 9]

/-- Physical bank `b` is in use: in SERVICE or COPYING for a logical bank that an enabled region touches (18 R618). -/
def bankUsed (s : State) (b : Nat) : Bool :=
  let e := bankOf s b
  let g := e.lbank / 4
  (e.state == 1 || e.state == 2) && (List.range 11).any (fun k => regionSize s k != 0 &&
    decide (regionBase s k < 0x200000 * (g + 1)) && decide (0x200000 * g < regionBase s k + regionSize s k))

/-- An entry to SLEEP uses retention mode (18 R618). -/
def retains (s : State) : Bool :=
  !(s.pwr.started.a && s.pwr.started.b) && decide ((idxWhere 64 (bankUsed s)).length ≤ 32)

/-- Bank `b`'s keep bit (03 R114). -/
def bankKeep (s : State) (b : Nat) : Bool := regBit s (0x04200 + 4 * b) 8

/-- Logical bank `l` is held by a bank with keep set. -/
def lbankKept (s : State) (l : Nat) : Bool :=
  (List.range 64).any (fun b => bankKeep s b && (bankOf s b).state == 1 && (bankOf s b).lbank == l)

/-- Every bank of group `g` is kept (03 R106, 18 R626). -/
def groupKept (s : State) (g : Nat) : Bool := (List.range 4).all (fun k => lbankKept s (4 * g + k))

/-- The keep bits are at most 8 and cover whole groups (18 R616 block 4). -/
def keepSound (s : State) : Bool :=
  decide ((idxWhere 64 (bankKeep s)).length ≤ 8)
    && (idxWhere 64 (bankKeep s)).all (fun b => (bankOf s b).state == 1 && groupKept s ((bankOf s b).lbank / 4))

/-- A HUSK or DARK request stands on a head (16 R548). -/
def safetyStands (s : State) : Bool := decide (2 ≤ stateCall s .a) || decide (2 ≤ stateCall s .b)

/-- A forwarding request differs from the forwarding in force (10 R409, 18 R616). -/
def forwardDiffers (s : State) : Bool := bothHeads.any (fun h => regFld s (tblBase h + 8) 7 0 != (s.tbl.get h).inForce)

/-- The asked block refuses (18 R616). -/
def blockRefuses (s : State) (code target : Nat) : Bool :=
  match code with
  | 1 => !(stopped s .a && stopped s .b)
  | 2 => decide (3 ≤ target) && (regBit s 0x03000 0 || s.rng.journal.isSome)
  | 4 => target == 3 && !retains s && !keepSound s
  | 5 => safetyStands s || forwardDiffers s
  | 6 => s.pxc.ckptFailed
  | 7 => regBit s 0x0D010 16
  | 8 => (List.range 8).any (loopEnabled s) || [0, 1].any (fun c => bit (lceCtrl s c) 0) || regFld s 0x0F008 1 0 != 0
      || (List.range 4).any (crcHeld s) || s.saf.unlocked || supervising s
  | _ => false

/-- The asked block has not finished its unit of work, so it has no answer yet (18 R616, 01 R34 to R36). -/
def blockWaits (s : State) (code : Nat) : Bool :=
  match code with
  | 1 => s.pxc.cal.isSome
  | 2 => !noWork s
  | 3 => s.lmm.retire.isSome
  | 6 => s.kps.current.isSome || s.pxc.ckpt
  | 7 => [0, 1].any (fun p => !(portOf s p).txFrames.isEmpty)
  | 8 => s.hkp.busy || s.cle.running.isSome || !s.cle.waiting.isEmpty || [0, 1].any (fun c => (chainOf s c).busy)
  | 9 => s.hif.linkUp && !s.hif.l1
  | _ => false

/-- A block refuses: the asked blocks restart, FS55 is raised with its code, and a timer entry backs off (18 R617). -/
def refuseEntry (s : State) (code : Nat) : State :=
  let s1 := modPwr (abortEntry s) (fun p =>
    { p with refuser := code, refusals := satAdd 0xFFFF p.refusals 1,
             backoff := if s.pwr.byTimer then Nat.min 8 (2 * p.backoff) else p.backoff })
  raise s1 55 0 code

/-- A head's park (18 R621, R632). -/
def parkOf (s : State) (h : Head) : LaneCmd :=
  let i := 8 + 4 * Head.idx h
  .park (if regBit s 0x15000 i then some (regFld s 0x15000 (i + 2) (i + 1)) else none)

/-- The park sequence of a head, four times (18 R621). -/
def sendPark (s : State) (h : Head) : State := sendFour s h (parkOf s h)

/-- Lanes go OFF with their domain, their states noted for the exit (09 R343, 18 R625). -/
def lanesOff (s : State) (ls : List Nat) : State :=
  ls.foldl (fun acc l =>
    let p := (laneOf acc l).pstate
    if p = 0 then acc
    else lowerLane (modPwr acc (fun e => { e with lanesWere := Store.put (fun _ => 0) e.lanesWere l p })) l 0) s

/-- What a block does as it agrees: TBL sends the parks and its lanes go OFF (18 R616, R621). -/
def blockAgrees (s : State) (code target : Nat) : State :=
  match code with
  | 4 => if target = 3 then modPwr s (fun p => { p with saveNext := !retains s }) else s
  | 5 => lanesOff (bothHeads.foldl sendPark s) (List.range 16)
  | 7 => lanesOff s [16, 17]
  | _ => s

/-- A block is asked: the keeping store's question for SLEEP and OFF requests a dose checkpoint (18 R616, 07 R261). -/
def askBlock (s : State) (code target : Nat) : State :=
  let s1 := modPwr s (fun p => { p with asking := code })
  if code = 6 ∧ 3 ≤ target then requestCheckpoint s1 else s1

/-- The point of no return: the first domain is isolated (18 R617, R620). -/
def noReturn (s : State) : State := modPwr s (fun p => { p with phase := 3, asking := 0, backoff := 1 })

/-- Every asked block has agreed: save mode copies its list first (18 R619, R620). -/
def allAgreed (s : State) : State :=
  if s.pwr.saveNext then modPwr s (fun p => { p with phase := 2, asking := 0 })
  else noReturn (modPwr s (fun p => { p with saved := 0 }))

/-- The block that is asked answers (18 R616). The host interface looks at whether its link has come to rest. -/
def blockAnswers (s0 : State) : State :=
  let s := if s0.pwr.phase = 1 ∧ s0.pwr.asking = 9 then linkRests s0 else s0
  if s.pwr.phase ≠ 1 ∨ !(domainsDown s).isEmpty then s
  else
    let c := s.pwr.asking
    let t := s.pwr.target
    if blockRefuses s c t then refuseEntry s c
    else if blockWaits s c then s
    else
      let s1 := modPwr (blockAgrees s c t) (fun p => { p with agreed := c :: p.agreed })
      match (askedBlocks s1 t).filter (fun x => decide (c < x)) with
      | n :: _ => askBlock s1 n t
      | [] => allAgreed s1

/-- The asked block has not answered within `PWR_ASK_MS` (18 R616). -/
def askExpires (s : State) : State :=
  if s.pwr.phase = 1 ∧ (domainsDown s).isEmpty then refuseEntry s s.pwr.asking else s

/-- Words of the save list (18 R619). -/
def saveWords (s : State) : Nat :=
  if s.pwr.target = 4 then 1504 else 752 + (if regBit s 0x15000 3 then 112 else 0)

/-- The header of the save memory: format, number of words, and two words whose contents follow from an arrangement that the
spec does not give, the FSNs of both heads in one word and the CRC-32C of the words saved (18 R619, log 92). -/
def saveHeader (s : State) : State :=
  let (fsns, s1) := drawBelow s (2 ^ 32)
  let (crc, s2) := drawBelow s1 (2 ^ 32)
  modPwr s2 (fun p => { p with saveHeader := [1#32, BitVec.ofNat 32 (saveWords s), BitVec.ofNat 32 fsns, BitVec.ofNat 32 crc] })

/-- The save list has been copied (18 R619, R620). -/
def saveEnds (s : State) : State :=
  if s.pwr.phase = 2 then noReturn (modPwr (saveHeader s) (fun p => { p with saved := saveWords s })) else s

/-- The condition of each domain in a low-power state (18 R610). -/
def domainsIn (s : State) (target : Nat) : Store Nat :=
  let put (m : Store Nat) (e : Nat × Nat) : Store Nat := Store.put (fun _ => 2) m e.1 e.2
  match target with
  | 2 => [(4, 1), (5, 1), (7, 0)].foldl put []
  | 3 => ([(2, 0), (3, 0), (4, if s.pwr.saveNext then 0 else 1), (5, 1), (7, 0)] ++ (if regBit s 0x15000 3 then [(1, 0)] else [])).foldl put []
  | _ => (List.range 8).foldl (fun m d => put m (d, 0)) []

/-- PD_NET goes off: what the network block holds beside its registers is lost (18 R610, R619). -/
def netLost (s : State) : State :=
  [0, 1].foldl (fun acc p => modPort acc p (fun e => { e with waiting := [], txSeen := none, inReception := false }))
    (modNet s (fun e => { e with keys := [], remembered := [], mdio := none }))

/-- PD_LANEA and PD_LANEB go off: packets that wait or are not acknowledged, the echoes awaited and the record buffers are
no part of the 80 words that are saved (01 R23, 18 R610, R619). -/
def linkLost (s : State) : State :=
  bothHeads.foldl (fun acc h =>
    modTbl ((List.range 8).foldl (fun a t =>
        modTile a h t (fun e => { e with queue := [], unacked := [], echoWait := none, echoInjected := false })) acc) h
      (fun e => { e with rxFill := [] })) s

/-- PD_PIX goes off: what is kept for single pixels and for the frame in hand is no part of the 288 words that are saved
(01 R23, 18 R610, R619). -/
def pixLost (s : State) : State :=
  bothHeads.foldl (fun acc h => modPxc acc h (fun e =>
    { e with deferrals := [], sentRows := [], sentKinds := [], probed := [], lostDose := [], marks := [], awaiting := [] })) s

/-- PD_CTRL goes off: captured times, LACE frames, drive totals on their way and event entries are no part of the 640 words
that are saved, and the time counter stands at zero (01 R23, 18 R610, R619, R626, log 91). -/
def ctrlLost (s : State) : State :=
  let s1 := (List.range 8).foldl (fun acc n => modCap acc n (fun e => { e with fifo := [] })) s
  let s2 := [0, 1].foldl (fun acc c => modChain acc c (fun e => { e with last := none })) s1
  { s2 with
    tim := { s2.tim with counter := 0, valid := false, pulses := [] }, cle := { s2.cle with fifo := Pair.both [] },
    hkp := { s2.hkp with codes := [] }, flt := { s2.flt with entries := [] } }

/-- Some enabled region touches group `g` (18 R618). -/
def groupUsed (s : State) (g : Nat) : Bool :=
  (List.range 64).any (fun b => (bankOf s b).lbank / 4 == g && bankUsed s b)

/-- The light memory of the groups that `keeps` does not name is lost: it is as after power-on, and its stored errors and
poison with it (18 R610, R626). -/
def memLost (s : State) (keeps : Nat → Bool) : State :=
  let physical (p : Nat) : Bool :=
    let e := bankOf s (p / 32768)
    (e.state == 1 || e.state == 2) && keeps (e.lbank / 4)
  modLmm { s with mem := s.mem.filter (fun e => keeps (e.1 / 0x200000)) } (fun m =>
    { m with bad := m.bad.filter (fun w => keeps (w / 2 ^ 17)), latent := m.latent.filter (fun e => physical e.1),
             writeBack := m.writeBack.filter physical })

/-- The groups of the light memory that keep their contents in a low-power state (18 R610): all in DOZE, those in use in
retention mode, those with keep set in save mode, none in OFF. -/
def groupStays (s : State) (target g : Nat) : Bool :=
  match target with
  | 2 => true
  | 3 => if s.pwr.saveNext then groupKept s g else groupUsed s g
  | _ => false

/-- What the domains lose that go off for a state, beyond what is saved (01 R23, 18 R610, R619). -/
def entryLosses (s : State) (target : Nat) : State :=
  if target = 2 then s
  else
    let s1 := memLost (linkLost s) (groupStays s target)
    let s2 := if s.pwr.saveNext then pixLost s1 else s1
    if target = 4 then ctrlLost s2 else s2

/-- The last domain reaches its new condition (18 R611, R620); PD_HOST going off is a HOST reach (18 R619, 02 R47), and the state
in force being OFF by then, it is no wake event (18 R630). A write that falls due in the state is taken (18 R628). -/
def entryEnds (s : State) : State :=
  if s.pwr.phase ≠ 3 then s
  else
    let t := s.pwr.target
    let s0 := entryLosses s t
    let s1 := if t = 4 then hostDown (modPwr s0 (fun p => { p with state := t })) else s0
    let s2 := modPwr s1 (fun p =>
      { p with state := t, phase := 0, target := 0, asking := 0, domains := domainsIn s t, saveMode := p.saveNext,
               entries := satAdd 0xFFFF p.entries 1 })
    let s3 := if domainState s2 1 = 0 then netLost s2 else s2
    if s3.pwr.latch = 0#32 then kpsTake s3 else beginExit s3 s3.pwr.latch

/-! ## Exit (18 R624 to R629) -/

/-- Domains are coming up: in an exit, or in an entry asked for in DOZE (18 R613, R625). -/
def powersUp (s : State) : Bool := s.pwr.phase == 1 || s.pwr.phase == 4

/-- A domain that was switched on reaches power-good (18 R625); what asserted while the collector was off reaches it. -/
def domainGood (s : State) (d : Nat) : State :=
  if powersUp s ∧ s.pwr.awaiting.contains d then
    let s1 := hostCheck (modPwr s (fun p =>
      { p with domains := Store.put (fun _ => 2) p.domains d 2, awaiting := p.awaiting.filter (fun x => x != d) }))
    if d = 6 then raiseOwed s1 else if d = 7 then kpsTake s1 else s1
  else s

/-- A domain misses power-good: FS59, then one retry, then EXIT_FAIL (18 R629). -/
def domainMissed (s : State) (d : Nat) : State :=
  if powersUp s ∧ s.pwr.awaiting.contains d then
    let s1 := if s.pwr.missed.contains d then modPwr s (fun p => { p with phase := 5 })
      else modPwr s (fun p => { p with missed := p.missed ++ [d], awaiting := p.awaiting.filter (fun x => x != d) })
    raise s1 59 0 d
  else s

/-- A domain is switched on again for its one retry (18 R629). -/
def domainRetried (s : State) (d : Nat) : State :=
  if powersUp s ∧ s.pwr.missed.contains d ∧ !s.pwr.awaiting.contains d ∧ domainState s d ≠ 2 then
    modPwr s (fun p => { p with awaiting := p.awaiting ++ [d] })
  else s

/-- The 64 KiB units of the HEALTH region whose group was not kept read NO_REPORT (18 R626). -/
def healthLost (s : State) (all : Bool) : State :=
  (List.range (regionSize s 6 / 65536)).foldl (fun acc u =>
    let a := regionBase s 6 + 65536 * u
    if !all && groupKept s (a / 0x200000) then acc else memWrite acc a (List.replicate 65536 0xFF#8)) s

/-- The words of a resident slot's extent that were not kept are damaged until they are rewritten (18 R626, 04 R165). -/
def extentLost (s : State) (all : Bool) (sl : Slot) : State :=
  if !sl.enabled || sl.kind != 1 then s
  else
    let first := (regionBase s 10 + sl.addr) / 16
    let ws := (List.range ((sl.extent + 15) / 16)).map (fun k => first + k)
    modLmm s (fun m =>
      { m with bad := m.bad ++ (ws.filter (fun w => (all || !groupKept s (w / 2 ^ 17)) && !m.bad.contains w)) })

/-- What a save-mode exit has lost and what it reloads (18 R626). -/
def saveLosses (s : State) (off : Bool) : State :=
  let s1 := healthLost (doseLoad (calibLoad s)) off
  let s2 := bothHeads.foldl (fun acc h => (List.range 8).foldl (fun a i => extentLost a off (slotOf a h i)) acc) s1
  bothHeads.foldl (fun acc h =>
    modShd (modBld acc h (fun b => { b with flatValid := false })) h (fun e => { e with lists := [], inForce := none })) s2

/-- Words of the table memories: tone banks, map nodes, equalisation columns, PXC_AGE, NTC tables and the map_valid bits
(18 R619, R626). -/
def tableWord (idx : Nat) : Bool :=
  let a := 4 * idx
  let within (lo hi : Nat) : Bool := decide (lo ≤ a) && decide (a < hi)
  within 0x29000 0x2E000 || within 0x21000 0x25000 || within 0x09400 0x09500 || within 0x0A400 0x0A500 || within 0x0B400 0x0B500
    || within 0x18400 0x18600 || within 0x14400 0x14800 || a == 0x20100 || a == 0x20200

/-- What OFF loses beside the losses of save mode (18 R626). -/
def offLosses (s : State) : State :=
  { s with regs := s.regs.filter (fun e => !tableWord e.1), tableBad := s.tableBad.filter (fun e => !tableWord e.1),
           tim := { s.tim with counter := 0, valid := false }, pwr := { s.pwr with tablesLost := true } }

/-- The lanes are in the power states that they had before the entry (18 R625 step 6, 09 R333, R344). -/
def lanesBack (s : State) : State :=
  s.pwr.lanesWere.foldl (fun acc e => if e.2 = 3 then laneReaches acc e.1 false else acc) (lanesReturn s)

/-- The GPIO edges latched on the way to OFF are presented to the capture units, which had stopped (18 R624, 11 R443, log 90). -/
def edgesReplay (s : State) (edges : List (Nat × Bool)) : State :=
  edges.foldl (fun acc e =>
    (idxWhere 8 (fun n => regFld acc (0x0E200 + 0x20 * n) 4 0 == e.1 + 1)).foldl (fun a n => captureNow a n e.2) acc) s

/-- The exit ends: the lanes return, the blocks restart, BLOCK reaches that waited take effect, and the state is RUN, in which
the latched events are presented (18 R624, R625, R630). -/
def exitRuns (s : State) : State :=
  let s1 := modPwr (lanesBack s) (fun p =>
    { p with state := 0, phase := 0, latch := 0#32, cause := p.cause ||| p.latch, missed := [], agreed := [], edges := [] })
  kpsTake (edgesReplay (rxFlush (rxFlush (hostCheck (deferredResets s1)) 0) 1) s.pwr.edges)

/-- Every domain being on, the exit restores, reloads and ends; a save memory that fails its CRC is a WARM reach instead
(18 R625, R629). -/
def exitEnds (s : State) (crcOk : Bool) : State :=
  if s.pwr.phase ≠ 4 ∨ !s.pwr.awaiting.isEmpty ∨ !(domainsDown s).isEmpty then s
  else
    let save := s.pwr.saveMode && decide (3 ≤ s.pwr.state)
    let off := s.pwr.state == 4
    if save && !crcOk then sourceAsserts (raise (modPwr s (fun p => { p with crcMatch := false })) 59 0 8) 7
    else
      let s1 := if save then saveLosses (modPwr s (fun p => { p with crcMatch := true, tablesLost := false })) off else s
      exitRuns (if save && off then offLosses s1 else s1)

/-! ## Commands and registers (18 R613, R623, R631 to R633) -/

/-- A write of `PWR_CMD` (18 R613, R623, R631). -/
def writePwrCmd (s : State) (v : Word) : State :=
  match fld v 2 0 with
  | 1 => powerRequest s 2 false
  | 2 => powerRequest s 3 false
  | 3 => powerRequest s 4 false
  | 4 => wake s 0
  | _ => s

/-- A write of `PWR_CTRL` (18 R632). -/
def writePwrCtrl (s : State) (v : Word) : State :=
  if s.pwr.phase ≠ 0 then modPwr s (fun p => { p with refused := true }) else setRegAt s 0x15000 (v &&& 0x771F#32)

/-- The wake timer reaches zero (18 R623, R631). -/
def wakeTimer (s : State) : State :=
  if regAt s 0x15030 = 0#32 then s else wake (setRegAt s 0x15030 0#32) 8

/-- A GPIO edge on the way to OFF, whose capture units have stopped, is latched with its pin and direction (18 R620, R624). -/
def latchEdge (s : State) (pin : Nat) (rising : Bool) : State :=
  if blockStopped s 8 ∧ bit s.pwr.latch 7 then modPwr s (fun p => { p with edges := p.edges ++ [(pin, rising)] }) else s

/-- A wake event arrives at the power controller. Bits 3 to 0 of the operand name the source, bits 6 to 4 the trigger or the
GPIO pin, and bit 7 a falling edge: `PWR_WAKE_TT` enables each trigger, each pin, and one edge of a pin (18 R623, R631). -/
def wakeArrives (s : State) (source : Nat) : State :=
  let b := source % 16
  let n := source / 16 % 8
  let falling := nbit source 7
  if b = 6 ∧ !regBit s 0x15024 n then s
  else if b = 7 ∧ (!regBit s 0x15024 (8 + n) || regBit s 0x15024 (16 + n) != falling) then s
  else if 10 ≤ b then s
  else if b = 7 then latchEdge (wake s 7) n (!falling)
  else wake s b

/-- `PWR_STATUS` (18 R633). -/
def pwrStatus (s : State) : Word :=
  at_ 0 s.pwr.state ||| at_ 3 s.pwr.phase ||| bitAt 6 s.pwr.saveMode ||| bitAt 7 s.pwr.refused ||| at_ 8 s.pwr.refuser
    ||| at_ 12 s.pwr.backoff

/-- `PWR_DOMAINS` (18 R631). -/
def pwrDomains (s : State) : Word := (List.range 8).foldl (fun acc d => acc ||| at_ (2 * d) (domainState s d)) 0#32

/-- REF stops or returns: AO changes its clock (01 R18). -/
def refChanges (s : State) (present : Bool) : State := modPwr s (fun p => { p with refPresent := present })

end Sys2Proof.Machine
end

