-- ==== Sys2Proof/Machine/Cobbler.lean ====
section
/-! DEFINITION. The host's answers to COBBLER's proposals (20 R677, R678), and LAST_WRITE (20 R663 to R666, 16 R574,
R576). -/

namespace Sys2Proof.Machine

/-! ## Answers to proposals -/

/-- The kind whose open proposal has a number (20 R678). -/
def proposalKind (s : State) (n : Nat) : Option Nat :=
  firstIdx 4 (fun k => match proposalOf s k with
    | some p => p.number == n
    | none => false)

/-- The candidate of a kind that was detected first and still waits for a proposal; one whose detection is no longer on record
comes after them, the lowest first (03 R128). -/
def nextFound (s : State) (kind n : Nat) (still : Nat → Bool) : Option Nat :=
  match s.cbl.found.find? (fun e => e.1 == kind && still e.2) with
  | some e => some e.2
  | none => firstIdx n still

/-- A proposal opens for the next candidate of a kind, which is then no longer among those that wait. -/
def proposeFound (s : State) (kind : Nat) (next : Option Nat) : State :=
  match next with
  | some t => cblFind (modCbl s (fun c => { c with found := c.found.filter (fun e => e != (kind, t)) })) kind t []
  | none => s

/-- The next candidate that waits for a proposal of its kind gets it, once one has closed (03 R128, 20 R677). -/
def proposeNext (s : State) (kind : Nat) : State :=
  if cblPolicy s kind ≠ 2 ∨ (proposalOf s kind).isSome then s
  else
    match kind with
    | 0 =>
      proposeFound s 0 (nextFound s 0 64 (fun b => (bankOf s b).state == 1 && (bankOf s b).candidate && !s.lmm.queue.contains b
        && s.lmm.retire.all (fun r => r.candidate != b)))
    | 1 =>
      proposeFound s 1 (nextFound s 1 2048 (fun p => (sectorOf s p).state == 1 && (sectorOf s p).candidate
        && !s.kps.waiting.contains (.swap p) && s.kps.current != some (.swap p)))
    | 3 => pixelPropose (pixelPropose s .a) .b
    | _ => s

/-- What an approved proposal of a kind does (20 R677, R678, 03 R128, 07 R281, 10 R403). -/
def proposalActs (s : State) (kind : Nat) (p : Proposal) : State :=
  match kind with
  | 0 => modLmm s (fun m => { m with queue := m.queue ++ [p.target] })
  | 1 => kpsRequest s (.swap p.target)
  | 2 =>
    let h := headOf (p.target / 256)
    forwardRequest s h (p.target % 4) ((p.pixels.headD (0, 0)).1 % 2 + 1)
  | _ =>
    modPxc s (headOf (p.target / 256)) (fun e => { e with marks := e.marks ++ p.pixels.map (fun x => (x.1, x.2, p.number)) })

/-- A proposal is approved: it closes with its record, whose outcome byte has no code for an approval and is a free value
(20 R669, R678, log 44), and its action begins. -/
def approveProposal (s : State) (kind : Nat) (p : Proposal) : State :=
  let (outcome, s1) := drawBelow s 256
  let s2 := cblRecord (setProposal s1 kind none) kind p.number p.target outcome
  let s3 := modCbl s2 (fun c => { c with approved := c.approved ++ [(kind, p.target, p.number)] })
  proposeNext (proposalActs s3 kind p) kind

/-- A proposal is declined: its candidate is proposed again only when it meets a criterion anew (20 R678). -/
def declineProposal (s : State) (kind : Nat) (p : Proposal) : State :=
  let s1 := cblClose s kind 2
  let s2 := match kind with
    | 0 => modBank s1 p.target (fun e => { e with candidate := false })
    | 1 => modSector s1 p.target (fun e => { e with candidate := false })
    | _ => s1
  proposeNext s2 kind

/-! ## LAST_WRITE -/

/-- The write gate of a region, for the regions that have one (16 R569, 20 R663). -/
def regionGate : Nat → Option Nat
  | 0 => some 0
  | 1 => some 1
  | 5 => some 2
  | 7 => some 3
  | 9 => some 4
  | _ => none

/-- The first offending field of a LAST_WRITE (02 R77, R78, 20 R665). -/
def lastWriteBad (d : Desc) : Option Nat :=
  let region := dByte d 8
  let len := dNat d 12 4
  let off := dNat d 24 4
  minDetail (flagsBad d) (firstFail
    [ (!([0, 1, 2, 5, 7, 9].contains region), 8),
      ((firstNonZero d [(9, 3)]).isSome, (firstNonZero d [(9, 3)]).getD 9),
      (len == 0 || len % 4096 != 0 || decide (regionBytes region < off + len), 12), (off % 4096 != 0, 24),
      ((firstNonZero d [(32, 28)]).isSome, (firstNonZero d [(32, 28)]).getD 32) ])

/-- The safety configuration refuses a LAST_WRITE: a gated region outside a session, and SAFECFG but for one whole copy that
is not in force, in a session (16 R574, R576, 20 R663, R665). -/
def lastWriteLocked (s : State) (d : Desc) : Bool :=
  match regionGate (dByte d 8) with
  | some g => gateSet s g && !s.saf.unlocked
  | none =>
    !s.saf.unlocked || dNat d 12 4 != 4096 || (s.saf.image.isSome && dNat d 24 4 == 4096 * s.saf.copy)

/-- The sectors of a LAST_WRITE are requested of the writer (20 R664). -/
def lastWriteSectors (s : State) (ring slot : Nat) (d : Desc) (bs : List Byte) : State :=
  let n := dNat d 12 4 / 4096
  let first := (lastRegion (dByte d 8)).1 + dNat d 24 4 / 4096
  (List.range n).foldl (fun acc k =>
    kpsRequest acc (.lastWrite ring slot (first + k) ((bs.drop (4096 * k)).take 4096) (decide (k + 1 = n)))) s

/-- A LAST_WRITE has been fetched: it is checked, its data is read and checked, and its sectors wait for the writer
(20 R665, 02 R79, R83). -/
def lastWriteFetch (s : State) (ring slot : Nat) (d : Desc) (data : HostRead) : State :=
  match lastWriteBad d with
  | some k => completeAt s ring slot 0x10 k 0#32
  | none =>
    if lastWriteLocked s d then completeAt s ring slot 0x22 0 0#32
    else
      match data with
      | .failed k => completeAt (hostFails s k) ring slot 0x40 0 0#32
      | .internalError => completeAt s ring slot 0x41 2 0#32
      | .data bs0 =>
        let bs := fit (dNat d 12 4) bs0
        if descFlag d 3 ∧ crc32c bs ≠ dNat d 28 4 then completeAt s ring slot 0x30 0 0#32
        else lastWriteSectors s ring slot d bs

end Sys2Proof.Machine
end

