-- ==== Sys2Proof/Machine/Script.lean ====
section
/-! DEFINITION. The Krovliut boot script as such (19 R648 to R656): the slots, how a run starts and ends, AUTOLIGHT, and
the state of the record in hand. What each record does stands in Boot.lean. -/

namespace Sys2Proof.Machine

/-- The script's progress changed by `f`. -/
def modBoot (s : State) (f : Boot → Boot) : State := modRst s (fun r => { r with boot := f r.boot })

/-- First logical byte of LAST of script slot `k` (19 R648, 20 R663). -/
def slotStart (k : Nat) : Nat := regionStart 0 + 0x10000 * k

/-- The length that a slot's header gives. -/
def slotLength (s : State) (k : Nat) : Nat := leNat (lastBytes s (slotStart k + 4) 4)

/-- The flags of a slot's header: bit 0 AUTOLIGHT, bit 1 light on failure. -/
def slotFlags (s : State) (k : Nat) : Nat := leNat (lastBytes s (slotStart k + 2) 2)

/-- The generation of a slot. -/
def slotGeneration (s : State) (k : Nat) : Nat := leNat (lastBytes s (slotStart k + 8) 4)

/-- A slot is valid: its format, length and CRC are correct (19 R649). One that cannot be read is not (DEDUCED, log 45). -/
def slotValid (s : State) (k : Nat) : Bool :=
  let n := slotLength s k
  leNat (lastBytes s (slotStart k) 2) == 1 && n % 4 == 0 && decide (24 ≤ n) && decide (n ≤ 65536)
    && lastReadable s (slotStart k) n
    && crc32c (lastBytes s (slotStart k) (n - 4)) == leNat (lastBytes s (slotStart k + n - 4) 4)

/-- The slot that runs: the valid one of the higher generation, slot 0 of two alike (19 R649, log 45). -/
def slotSelect (s : State) : Option Nat :=
  match slotValid s 0, slotValid s 1 with
  | true, true => some (if slotGeneration s 0 < slotGeneration s 1 then 1 else 0)
  | true, false => some 0
  | false, true => some 1
  | false, false => none

/-- The release sequence has ended with the script (19 R639 step 8). -/
def releaseEnds (s : State) : State :=
  if s.rst.step = 8 then modRst s (fun r => { r with step := 0, done := 8, reach := 0 }) else s

/-- The script is selected and begins, or none runs (19 R649, R659). -/
def scriptStarts (s : State) : State :=
  match slotSelect s with
  | some k => modBoot s (fun b => { Boot.reset with state := 2, slot := k, pos := 16, time := b.time })
  | none => releaseEnds (modBoot s (fun b => { Boot.reset with state := 5, time := b.time }))

/-- A release step ends; the end of step 7 begins the script, and the time of RST_BOOT_TIME with it (19 R639, R658). -/
def releaseStepEnds (s : State) : State :=
  if s.rst.step = 0 ∨ 8 ≤ s.rst.step then s
  else if s.rst.step = 7 then scriptStarts (modRst (stepEnds s 7) (fun r => { r with stepSeven := s.tim.cycles }))
  else stepEnds s s.rst.step

/-- RST_BOOT_TIME: whole microseconds since the end of step 7, saturating (19 R658): those of the TIME cycles that have passed,
and what has passed beside them between the commands, a free value (log 46). -/
def bootTime (s : State) : Nat × State :=
  let e := Nat.min (2 ^ 32 - 1) ((s.tim.cycles - s.rst.stepSeven) / 250)
  let (k, s1) := drawBelow s (2 ^ 32 - e)
  (e + k, s1)

/-- The script ends in a state, with a reason for a failure (19 R653, R655, R656, R658). A script that is done has no record
in execution (19 R659). -/
def scriptEnds (s : State) (st reason : Nat) : State :=
  let (t, s1) := bootTime s
  releaseEnds (modBoot s1 (fun b =>
    { b with state := st, reason := reason, record := if st = 3 then 0 else b.record, waiting := false, stopping := false, lanes := [],
             tiles := [], time := t }))

/-- AUTOLIGHT: the head's husk pattern is sent to a head with a link-ready tile, four times; a HUSK or DARK request that
stands is sent after it and prevails (19 R656). -/
def lightHead (s : State) (h : Head) : State :=
  if (enabledTiles s h).any (linkReady s h) then
    repeatCommand (sendFour s h (.husk (if s.saf.image.isSome then huskPattern s h else 0))) h
  else s

/-- AUTOLIGHT acts if the header asks for it (19 R656). -/
def autolight (s : State) : State :=
  if nbit (slotFlags s s.rst.boot.slot) 0 then
    modBoot (lightHead (lightHead s .a) .b) (fun b => { b with autolight := true })
  else s

/-- END: the script is done (19 R656). -/
def scriptDone (s : State) : State := autolight (scriptEnds s 3 0)

/-- A record fails without its continue flag (19 R653). A script that STOP has ended shows reason 8 (19 R655). -/
def scriptFails (s : State) (reason : Nat) : State :=
  if s.rst.boot.stopping then scriptEnds s 4 8
  else
    let s1 := scriptEnds s 4 reason
    if nbit (slotFlags s1 s1.rst.boot.slot) 1 then autolight s1 else s1

/-! ## The record in hand -/

/-- Word `i` of the record in hand, from LAST (19 R650). -/
def recWord (s : State) (i : Nat) : Word :=
  BitVec.ofNat 32 (leNat (lastBytes s (slotStart s.rst.boot.slot + s.rst.boot.pos + 4 * i) 4))

/-- The record's opcode. -/
def recOpcode (s : State) : Nat := fld (recWord s 0) 7 0

/-- The record's flags. -/
def recFlags (s : State) : Nat := fld (recWord s 0) 15 8

/-- The record's length in words. -/
def recLength (s : State) : Nat := fld (recWord s 0) 31 16

/-- Bytes of the script before its CRC word. -/
def scriptBody (s : State) : Nat := slotLength s s.rst.boot.slot - 4

/-- A word address that a register access may name (log 45). -/
def wordAddr (a : Nat) : Bool := a % 4 == 0 && decide (a < 0x40000)

/-- The words that the opcode and its flags call for, none where the record is malformed (19 R650, log 45). -/
def recWants (s : State) : Option Nat :=
  let w (i : Nat) : Nat := (recWord s i).toNat
  match recOpcode s with
  | 1 =>
    let n := fld (recWord s 2) 12 0
    if recFlags s ≤ 1 ∧ wordAddr (w 1) ∧ w 1 + 4 * n ≤ 0x40000 ∧ 1 ≤ n ∧ n ≤ 4096 then
      if recFlags s = 0 then some (3 + n)
      else if w 3 ≤ 9 ∧ w 4 + 4 * n ≤ regionBytes (w 3) then some 5
      else none
    else none
  | 2 => if recFlags s = 0 ∧ wordAddr (w 1) then some 4 else none
  | 3 => if recFlags s ≤ 1 ∧ wordAddr (w 1) ∧ 1 ≤ w 4 ∧ w 4 ≤ 1000000 then some 5 else none
  | 4 => if recFlags s ≤ 1 then some 3 else none
  | 5 => if recFlags s ≤ 7 then some 4 else none
  | 6 => if recFlags s = 0 ∧ 1 ≤ w 1 ∧ w 1 ≤ 1000000 then some 2 else none
  | 7 => if recFlags s = 0 then some 1 else none
  | _ => none

/-- The record in hand is malformed, or the script has reached its CRC word without END (19 R650: reason 2). -/
def recBad (s : State) : Bool :=
  decide (scriptBody s < s.rst.boot.pos + 4)
    || recWants s != some (recLength s)
    || decide (scriptBody s < s.rst.boot.pos + 4 * recLength s)

/-- Every word of the record in hand can be read (19 R653: reason 7). -/
def recReadable (s : State) : Bool :=
  lastReadable s (slotStart s.rst.boot.slot + s.rst.boot.pos)
    (4 * Nat.max 1 (Nat.min (recLength s) ((scriptBody s - s.rst.boot.pos) / 4)))

/-- The script runs and its record in hand has begun and waits, with this opcode. -/
def recWaits (s : State) (opcode : Nat) : Bool :=
  s.rst.boot.state == 2 && s.rst.boot.waiting && recOpcode s == opcode

/-- The record in hand has ended and the next is in hand, unless STOP was written (19 R650, R655). -/
def recordDone (s : State) : State :=
  if s.rst.boot.stopping then scriptEnds s 4 8
  else
    let n := recLength s
    modBoot s (fun b => { b with record := b.record + 1, pos := b.pos + 4 * n, waiting := false, lanes := [], tiles := [] })

/-- The record in hand begins and waits. -/
def recordWaits (s : State) : State := modBoot s (fun b => { b with waiting := true })

/-- The record in hand fails: a continue flag goes on with the next (19 R650, R653). -/
def recordFails (s : State) (reason : Nat) : State :=
  if nbit (recFlags s) 0 then recordDone s else scriptFails s reason

/-- The opcode of a timeout's record and the reason it fails with (19 R653, R659). -/
def timeoutReason : Nat → Option Nat
  | 3 => some 3
  | 4 => some 4
  | 5 => some 5
  | _ => none

/-- A POLL, SLIP_SEARCH or LOAD_TILES has run out of time (19 R650, R653). -/
def recordTimesOut (s : State) : State :=
  if s.rst.boot.state = 2 ∧ s.rst.boot.waiting then
    match timeoutReason (recOpcode s) with
    | some r => recordFails s r
    | none => s
  else s

/-! ## RST_BOOT_CMD (19 R655) -/

/-- A script loads or runs. -/
def scriptRuns (s : State) : Bool := s.rst.boot.state == 1 || s.rst.boot.state == 2

/-- A write of RUN. A release sequence in progress counts as a script that runs, and LAST must serve (log 45). -/
def bootRunNow (s : State) : State :=
  if !scriptRuns s && s.rst.reach == 0 && lastLive s && stopped s .a && stopped s .b then scriptStarts s
  else modRst s (fun r => { r with hostRefused := true })

/-- A write of STOP: WAIT and POLL end at once, and so does a script with no record begun; any other record is finished
first. -/
def bootStopNow (s : State) : State :=
  if !scriptRuns s then s
  else if s.rst.boot.waiting && recOpcode s != 3 && recOpcode s != 6 then modBoot s (fun b => { b with stopping := true })
  else scriptEnds s 4 8

/-- A write of `RST_BOOT_CMD`. -/
def writeBootCmd (s : State) (v : Word) : State :=
  match fld v 1 0 with
  | 1 => bootRunNow s
  | 2 => bootStopNow s
  | _ => s

/-! ## SLIP_SEARCH (19 R650, 09 R326) -/

/-- The lanes that a SLIP_SEARCH record names. -/
def recLanes (s : State) : List Nat := (List.range 16).filter (fun l => bit (recWord s 1) l)

/-- The searches that a SLIP_SEARCH still has to start begin where the lane is ACTIVE with CDR lock, and the record ends
when every named lane is aligned (19 R650). -/
def slipSearchGo (s : State) : State :=
  if !recWaits s 4 then s
  else
    let due := s.rst.boot.lanes.filter (fun l => laneLives s l && (laneOf s l).pstate == 3 && (laneOf s l).cdrLock)
    let s1 := due.foldl (fun acc l => if (laneOf acc l).searching then acc else startSearch acc l)
      (modBoot s (fun b => { b with lanes := b.lanes.filter (fun l => !due.contains l) }))
    if s1.rst.boot.lanes.isEmpty && (recLanes s1).all (fun l => (laneOf s1 l).aligned) then recordDone s1 else s1

/-- A search of a lane has failed: a SLIP_SEARCH that named it fails (19 R650). -/
def slipSearchFailed (s : State) (l : Nat) : State :=
  if recWaits s 4 && (recLanes s).contains l && !s.rst.boot.lanes.contains l then recordFails s 4 else s

/-! ## LOAD_TILES (19 R651, R652) -/

/-- The head of a LOAD_TILES record. -/
def recHead (s : State) : Head := headOf (fld (recWord s 1) 0 0)

/-- The tiles that it names, in ascending order. -/
def recTiles (s : State) : List Nat := (List.range 8).filter (fun t => bit (recWord s 1) (8 + t))

/-- Its pattern. -/
def recPattern (s : State) : Nat := fld (recWord s 1) 17 16

/-- Bytes of the HUSKPAT entry at an offset, padding included (19 R651). -/
def entryBytes (s : State) (off : Nat) : Nat :=
  16 + (leNat (lastBytes s (regionStart 7 + off + 12) 4) + 15) / 16 * 16

/-- The offsets of `n` entries that lie one after the other. -/
def entryOffsets (s : State) : Nat → Nat → List Nat
  | _, 0 => []
  | off, n + 1 => off :: entryOffsets s (off + entryBytes s off) n

/-- The entry of each named tile, as (tile, offset) (19 R652). -/
def recEntries (s : State) : List (Nat × Nat) :=
  let ts := recTiles s
  let off := (recWord s 2).toNat
  if nbit (recFlags s) 2 then ts.map (fun t => (t, off)) else ts.zip (entryOffsets s off ts.length)

/-- An entry lies in the region and can be read. -/
def entryReadable (s : State) (off : Nat) : Bool :=
  decide (off + 16 ≤ regionBytes 7) && lastReadable s (regionStart 7 + off) 16
    && decide (off + entryBytes s off ≤ regionBytes 7) && lastReadable s (regionStart 7 + off) (entryBytes s off)

/-- Progress of tile `t` in the record. -/
def recTile (s : State) (t : Nat) : Nat := Store.get (fun _ => 0) s.rst.boot.tiles t

/-- Progress of tile `t` set. -/
def setRecTile (s : State) (t k : Nat) : State :=
  modBoot s (fun b => { b with tiles := Store.put (fun _ => 0) b.tiles t k })

/-- The entry's W and H are those of the tile's last CONFIG (19 R652). -/
def entryFits (s : State) (h : Head) (t off : Nat) : Bool :=
  let (_, w, hh, _, _) := huskHeader (lastBytes s (regionStart 7 + off) 16)
  w == tileW s h t && hh == tileH s h t

/-- One tile of a LOAD_TILES goes on, given that a STATUS of it has just arrived (19 R652 steps 1 to 4). -/
def loadTile (s : State) (h : Head) (t off : Nat) (status : Bool) : State :=
  let p := recPattern s
  let (_, _, crc, _) := huskEntry s off
  let valid := nbit (tileOf s h t).patterns p
  match recTile s t with
  | 1 =>
    if linkReady s h t then
      if nbit (recFlags s) 1 then setRecTile (sendPackets s h t [huskCheck p crc]) t 2
      else setRecTile (sendPackets s h t (huskPackets s p off)) t 3
    else s
  | 2 =>
    if status && !huskLoading s h t then
      if valid then setRecTile s t 4 else setRecTile (sendPackets s h t (huskPackets s p off)) t 3
    else s
  | 3 => if status && !huskLoading s h t && valid then setRecTile s t 4 else s
  | _ => s

/-- A tile that is link-ready has an entry of another size (19 R652). -/
def loadMisfit (s : State) (h : Head) : Bool :=
  (recEntries s).any (fun e => recTile s e.1 == 1 && linkReady s h e.1 && !entryFits s h e.1 e.2)

/-- The LOAD_TILES in hand goes on; `status` is the head and tile whose STATUS has just arrived (19 R652). -/
def loadTilesGo (s : State) (status : Option (Head × Nat)) : State :=
  if !recWaits s 5 then s
  else
    let h := recHead s
    if loadMisfit s h then recordFails s 5
    else
      let s1 := (recEntries s).foldl (fun acc e => loadTile acc h e.1 e.2 (status == some (h, e.1))) s
      if (recTiles s1).all (fun t => recTile s1 t == 4) then recordDone s1 else s1

/-- The entry of each named tile is the one that auto_husk loads again (10 R393). -/
def noteEntries (s : State) (h : Head) : State :=
  (recEntries s).foldl (fun acc e =>
    modTbl acc h (fun b => { b with huskAt := Store.put (fun _ => 0) b.huskAt (recPattern s * 8 + e.1) (e.2 + 1) })) s

/-- What the events of a lane or a tile let the record in hand do. -/
def recordGoes (s : State) (status : Option (Head × Nat)) : State := loadTilesGo (slipSearchGo s) status

end Sys2Proof.Machine
end

