-- ==== Sys2Proof/Machine/Tone.lean ====
section
/-! DEFINITION. Writes of the tone banks and headrooms (06 R227 to R232) and of the aging table (07 R259, R260). -/

namespace Sys2Proof.Machine

/-- A write of entry `k` of a tone bank: only of the bank not in force, and not while a swap is pending
(06 R229); its parity is then good (R230). -/
def writeTone (s : State) (h : Head) (bank idx : Nat) (v : Word) : State :=
  let b := s.bld.get h
  if bank = b.bank ∨ b.swap ≠ 0 then s else setTable s idx (v &&& 0x1FFFF#32)

/-- A write of `BLD_x_TONE_CTRL`: a swap begins with the check of the bank not in force (06 R229). -/
def writeToneCtrl (s : State) (h : Head) (v : Word) : State :=
  if bit v 8 ∧ (s.bld.get h).swap = 0 then modBld s h (fun b => { b with swap := 1 }) else s

/-- The first entry of a bank that breaks 06 R227. -/
def toneFail (s : State) (h : Head) (bank : Nat) : Option Nat :=
  firstIdx 1025 (fun k =>
    let v := toneEntry s h bank k
    decide (65536 < v) || (if k = 0 then v != 0 else decide (v < toneEntry s h bank (k - 1))))

/-- The check ends: a valid bank waits for a cut, and a head that is STOPPED takes it at once (06 R229, 22 R734). -/
def toneCheckEnds (s : State) (h : Head) : State :=
  let b := s.bld.get h
  if !pixLive s || b.swap != 1 then s
  else
    match toneFail s h (1 - b.bank) with
    | some k => modBld { s with bldEntry := k } h (fun e => { e with swap := 0, toneError := true })
    | none =>
      let s1 := modBld s h (fun e => { e with swap := 2 })
      if noCut s1 h then toneApply s1 h else s1

/-- Address of `BLD_x_HEADROOM_n`. -/
def headroomAddr (h : Head) (n : Nat) : Nat := bldBase h + 0x20 + 4 * n

/-- A write of `BLD_x_HEADROOM_n` (06 R232); a head that is STOPPED uses it at once (22 R734). -/
def writeHeadroom (s : State) (h : Head) (n : Nat) (v : Word) : State :=
  let x := fld v 15 0
  let hi := regFld s (headroomAddr h (n - 1)) 15 0
  let lo := if n = 7 then 0 else regFld s (headroomAddr h (n + 1)) 15 0
  if n = 0 ∨ 7 < n then s
  else if lo ≤ x ∧ x ≤ hi then headroomStopped (setRegAt s (headroomAddr h n) (v &&& 0xFFFF#32))
  else modBld s h (fun b => { b with headroomRefused := true })

/-- Address of `PXC_AGE_k`. -/
def ageAddr (k : Nat) : Nat := 0x18400 + 4 * k

/-- Entries `k` to 64 of the aging table raised to at least `x` (07 R259). -/
def raiseAge (x : Nat) : Nat → Nat → State → State
  | _, 0, s => s
  | k, n + 1, s =>
    raiseAge x (k + 1) n (if regFld s (ageAddr k) 15 0 < x then setRegAt s (ageAddr k) (BitVec.ofNat 32 x) else s)

/-- A write of `PXC_AGE_k` (07 R259, R260). -/
def writeAging (s : State) (k : Nat) (v : Word) : State :=
  let x := fld v 15 0
  if k = 0 ∨ 64 < k ∨ !stopped s .a ∨ !stopped s .b then s
  else if regFld s (ageAddr (k - 1)) 15 0 ≤ x ∧ x ≤ 40960 then
    raiseAge x (k + 1) (64 - k) (setRegAt s (ageAddr k) (BitVec.ofNat 32 x))
  else { s with pxc := { s.pxc with ageRefused := true } }

/-- The interval timer, `PXC_DOSE_CTRL.ckpt_now` and the entry to a low-power state ask for a checkpoint while PD_PIX is on
(07 R261, R262). -/
def doseCheckpoint (s : State) : State := if pixLive s then requestCheckpoint s else s

end Sys2Proof.Machine
end

