-- ==== Sys2Proof/Machine/Words.lean ====
section
/-! DEFINITION. What a register word reads as (00 R10, 21 R685): the bits it holds, and over them the bits that show state,
window by window; then a read as such, with its side effects, the values that only time gives (log 47) and the parity check
of 21 R701 to R704. -/

namespace Sys2Proof.Machine

/-- A number shown in `n` bits, held at the greatest where it does not fit. -/
def capTo (n v : Nat) : Nat := if v < 2 ^ n then v else 2 ^ n - 1

/-- A signed number shown in 32 bits. -/
def word32 (x : Int) : Word := BitVec.ofNat 32 (toField 32 x)

/-- Two 16-bit counts in a word. -/
def counts2 (lo hi : Nat) : Word := at_ 0 (capTo 16 lo) ||| at_ 16 (capTo 16 hi)

/-! ## GLB, HIF and RNG -/

/-- GLB, by offset (21 R692, R693). -/
def glbWord (s : State) (o : Nat) : Word :=
  match o with
  | 0x00 => 0x214851C3#32
  | 0x04 => 0x21481D9A#32
  | 0x08 => 0xB0#32 ||| at_ 8 (if Config.gradeI then 0x49 else 0x41)
  | 0x10 => at_ 0 s.glb.index ||| bitAt 16 s.glb.partialAccess ||| bitAt 17 s.glb.domainOff ||| bitAt 18 s.glb.parity ||| at_ 19 s.glb.port
  | 0x14 => at_ 0 (capTo 8 s.glb.svcCrc) ||| at_ 8 (capTo 8 s.glb.svcDiscards) ||| at_ 16 (capTo 8 s.glb.svcBad)
  | 0x18 => at_ 16 (s.glb.passes % 65536)
  | _ => 0#32

/-- HIF, by offset (02 R49). -/
def hifWord (s : State) (o : Nat) : Word :=
  match o with
  | 0x000 => bitAt 0 s.hif.linkUp ||| at_ 1 s.hif.rate ||| at_ 4 s.hif.width ||| bitAt 8 s.hif.l1
  | 0x004 =>
    (match s.hif.ltrLast with
      | some ns => at_ 0 (ltrForm ns).1 ||| at_ 10 (ltrForm ns).2
      | none => bitAt 15 true) ||| at_ 16 (capTo 16 s.hif.ltrSent)
  | 0x00C => s.hif.err
  | 0xA00 => s.hif.pba
  | _ => 0#32

/-- The capabilities of 02 R45 in the configuration space, by byte offset: MSI-X with 32 vectors, its table and PBA in BAR0; the
PCI Express capability of an endpoint with payloads of up to 256 bytes and function-level reset, a ×2 link of up to 8.0 GT/s with
ASPM L1 of exit latency 0b011 and no L0s, and the LTR mechanism; advanced error reporting; and LTR. Every other word reads 0. The
layout is that of the PCI Express Base Specification 3.0, which R45 names, and where each structure lies is the model's choice
(PRESUMED, log 86). -/
def pciCapWord (s : State) (o : Nat) : Word :=
  let f := s.hif.function
  match o with
  | 0x34 => 0x40#32
  | 0x40 => 0x11#32 ||| at_ 8 0x50 ||| at_ 16 31 ||| bitAt 31 f.msixEnable
  | 0x44 => 0x1800#32
  | 0x48 => 0x1A00#32
  | 0x50 => 0x10#32 ||| at_ 16 2
  | 0x54 => 1#32 ||| bitAt 15 true ||| bitAt 28 true
  | 0x58 => at_ 5 (f.maxPayload / 256) ||| at_ 12 (f.maxRead / 256)
  | 0x5C => at_ 0 3 ||| at_ 4 2 ||| at_ 10 2 ||| at_ 15 3
  | 0x60 => bitAt 1 f.aspmL1 ||| (if s.hif.linkUp then at_ 16 (s.hif.rate % 4) ||| at_ 20 s.hif.width else 0#32)
  | 0x74 => bitAt 11 true
  | 0x100 => 1#32 ||| at_ 16 2 ||| at_ 20 0x148
  | 0x148 => 0x18#32 ||| at_ 16 1
  | _ => 0#32

/-- The configuration space, by byte offset (02 R45): of the type 0 header the identity, class code, BAR0 as 64 bits of 256 KiB
that is not prefetchable, no other BAR and no interrupt pin; and the capabilities. No row of the table reads it (log 58). -/
def pciHeader (s : State) (o : Nat) : Word :=
  match o with
  | 0x00 => glbWord s 4
  | 0x2C => glbWord s 4
  | 0x04 => bitAt 2 s.hif.function.busMaster ||| bitAt 20 true
  | 0x08 => at_ 8 0x118000
  | 0x10 => 4#32 ||| at_ 18 (s.hif.function.bar0 / 2 ^ 18 % 2 ^ 14)
  | 0x14 => BitVec.ofNat 32 (s.hif.function.bar0 / 2 ^ 32)
  | _ => pciCapWord s o

/-- `RNG_JRNL_STATUS` (02 R59, R100). -/
def jrnlWord (s : State) : Word :=
  match s.rng.journal with
  | none => at_ 16 (capTo 16 s.rng.held.length)
  | some j =>
    bitAt 0 true
      ||| at_ 8 ((List.range 32).filter (fun n => bit (Store.get regReset j.regs ((0x03108 + 0x20 * n) / 4)) 0)).length
      ||| at_ 16 (capTo 16 (s.rng.held.length + s.rng.written.length))

/-- A ring's registers that show state (02 R59, R64). -/
def ringWord (s : State) (n o : Nat) : Word :=
  let r := ringOf s n
  match o with
  | 0x10 => at_ 0 r.devIdx ||| bitAt 12 r.phase
  | 0x14 => at_ 0 r.hostIdx
  | 0x18 => at_ 0 r.stopIndex ||| bitAt 12 r.stopped ||| bitAt 13 r.protoErr ||| at_ 16 (capTo 16 r.lost)
  | _ => 0#32

/-- RNG, by offset (02 R59). -/
def rngWord (s : State) (o : Nat) : Word :=
  match o with
  | 0x004 => jrnlWord s
  | 0x010 => s.rng.heads.a.csn
  | 0x014 => s.rng.heads.a.csnApplied
  | 0x018 => s.rng.heads.b.csn
  | 0x01C => s.rng.heads.b.csnApplied
  | _ => if 0x100 ≤ o ∧ o < 0x500 then ringWord s ((o - 0x100) / 0x20) ((o - 0x100) % 0x20) else 0#32

/-! ## LMM, LY and TG -/

/-- `LMM_BANK_b` (03 R114). -/
def bankWord (s : State) (b : Nat) : Word :=
  let e := bankOf s b
  at_ 0 e.lbank ||| at_ 6 e.state ||| bitAt 9 e.candidate ||| at_ 16 (capTo 16 e.corrected)

/-- LMM, by offset (03 R112 to R114). -/
def lmmWord (s : State) (o : Nat) : Word :=
  match o with
  | 0x004 =>
    bitAt 0 s.lmm.budgetRefused ||| bitAt 1 s.lmm.regionRefused ||| bitAt 2 s.lmm.startRefused ||| at_ 8 s.lmm.detail
      ||| at_ 12 (sparesLeft s) ||| bitAt 15 s.lmm.retire.isSome
  | 0x008 => at_ 0 (budgetSum s % 65536)
  | 0x00C => at_ 0 s.lmm.scrubPos ||| at_ 24 (s.lmm.passes % 256)
  | 0x010 => s.lmm.corrAddr
  | 0x014 => s.lmm.uncorrAddr
  | _ =>
    if 0x080 ≤ o ∧ o < 0x0B0 then
      let u := Store.get (fun _ => ((0 : Nat), (0 : Nat))) s.lmm.used ((o - 0x080) / 4)
      counts2 u.1 u.2
    else if 0x200 ≤ o ∧ o < 0x300 then bankWord s ((o - 0x200) / 4)
    else 0#32

/-- A slot is in the head's valid cache entry (04 R174, 06 R233, R235). -/
def slotFlattened (s : State) (h : Head) (i : Nat) : Bool :=
  (s.bld.get h).flatValid && ((flatRun s h (s.ly.get h).slots).take (s.bld.get h).flatRun).contains i

/-- `LYx_SLOT_s`, a host-memory slot shown as not ready (04 R174). -/
def slotWord (s : State) (h : Head) (i : Nat) : Word :=
  let sl := slotOf s h i
  if !sl.enabled then 0#32
  else
    bitAt 0 true ||| bitAt 1 (slotReady s sl false) ||| at_ 2 sl.kind ||| bitAt 4 sl.drop ||| bitAt 5 ((eligible s h (s.ly.get h).slots).contains i)
      ||| bitAt 6 (slotFlattened s h i) ||| bitAt 7 (sl.kind == 1 && slotDamaged s sl) ||| at_ 8 sl.format
      ||| at_ 16 (slotAlloc s (timer s h) h sl)

/-- LYA or LYB, by offset (04 R174). In joined mode LYB_POOL shows the granules that Head A's slots take on path B (R178), and
LYB's other words show Head B's own slots (DESIGN CHOICE, log 85). -/
def lyWord (s : State) (h : Head) (o : Nat) : Word :=
  let y := s.ly.get h
  match o with
  | 0x000 => at_ 0 y.notReady ||| at_ 8 y.dropped ||| bitAt 16 y.late ||| at_ 17 y.lateSlot ||| at_ 20 y.lateLine
  | 0x004 =>
    at_ 0 (poolSum s (timer s h) h (s.ly.get (timer s h)).slots % 128)
      ||| at_ 8 (poolSum s (timer s h) h ((committedStates s (timer s h)).getLastD (s.ly.get (timer s h)).slots) % 128)
  | 0x00C => counts2 y.holds y.drops
  | _ =>
    if 0x040 ≤ o ∧ o < 0x080 then
      let i := (o - 0x040) / 8
      if o % 8 = 0 then slotWord s h i
      else
        let sl := slotOf s h i
        at_ 0 (sl.fill % 2 ^ 25) ||| bitAt 31 (sl.enabled && sl.kind == 1 && sl.complete)
    else 0#32

/-- A head's comparator is selected and disabled (08 R294). -/
def trigOff (s : State) (h : Head) : Bool := forceBit s h (tgBase h) 2 && !trigEnabled s (forceFld s h (tgBase h) 6 4)

/-- TGA or TGB, by offset; in joined mode Head B's frame registers read as Head A's (08 R311, R313, R314). -/
def tgWord (s : State) (h : Head) (o : Nat) : Word :=
  let t := s.tg.get h
  let m := s.tg.get (timer s h)
  match o with
  | 0x004 =>
    at_ 0 t.state ||| bitAt 3 (trigOff s h) ||| bitAt 8 t.commitError ||| at_ 9 t.commitReason ||| bitAt 12 t.timingRefused
      ||| bitAt 13 t.startRefused ||| at_ 16 t.startReason ||| bitAt 20 t.lastRepeated
  | 0x008 => bitAt 8 (t.pending.isSome || t.commitWait)
  | 0x03C => at_ 16 (capTo 8 t.run)
  | 0x040 => m.fsn
  | 0x048 => m.cutTime
  | 0x04C => m.stitchTime
  | 0x050 => counts2 t.slipped t.repeats
  | 0x054 => counts2 t.early t.missed
  | _ => 0#32

/-! ## Lanes and tiles -/

/-- Lanes of a lane block. -/
def blockLanes (b : Nat) : List Nat := if b = 2 then [16, 17] else (List.range 8).map (fun l => 8 * b + l)

/-- `LNx_Ll_STATUS` (09 R356). -/
def laneStatus (e : Lane) : Word :=
  at_ 0 e.pstate ||| bitAt 2 e.cdrLock ||| bitAt 3 e.aligned ||| at_ 4 e.slip ||| bitAt 8 e.slipFail ||| bitAt 9 e.prbsLock
    ||| bitAt 10 e.degraded ||| bitAt 11 e.lost ||| bitAt 12 e.refused ||| at_ 16 e.fom ||| at_ 24 (toField 3 e.trim)

/-- A lane's registers that show state (09 R354). -/
def laneWord (e : Lane) (o : Nat) : Word :=
  match o with
  | 0x04 => laneStatus e
  | 0x08 => counts2 e.violations e.disparities
  | 0x0C => at_ 0 (capTo 8 e.elastics) ||| at_ 8 (capTo 8 e.losses) ||| at_ 16 (capTo 8 e.searches) ||| at_ 24 (capTo 8 e.degradeds)
  | 0x10 => at_ 0 (capTo 32 e.prbsErrors)
  | 0x14 => at_ 0 (capTo 32 e.prbsBits)
  | 0x18 => e.eye.setWidth 32
  | 0x1C => (e.eye >>> 32).setWidth 32
  | _ => 0#32

/-- LNA, LNB or LNN, by offset (09 R354). -/
def lnWord (s : State) (b o : Nat) : Word :=
  let ls := blockLanes b
  if o = 4 then
    bitAt 0 (ls.any (fun l => (laneOf s l).pstate != 0)) ||| bitAt 1 (b != 2 && regBit s (laneBlockBase b) 6)
      ||| bitAt 2 (laneBlock s b).refRefused ||| bitAt 3 (laneBlock s b).eqParity ||| at_ 8 (bandInForce s)
      ||| bitAt 11 (ls.any (fun l => (laneOf s l).eqPending))
  else if 0x100 ≤ o ∧ o < 0x100 + 0x20 * ls.length then laneWord (laneOf s (8 * b + (o - 0x100) / 0x20)) (o % 0x20)
  else 0#32

/-- A tile's registers (10 R409, R411). -/
def tileWord (s : State) (h : Head) (t o : Nat) : Word :=
  let e := tileOf s h t
  match o with
  | 0x00 => e.id
  | 0x04 => e.info
  | 0x08 =>
    at_ 0 e.state ||| bitAt 3 e.stale ||| at_ 4 e.patterns ||| at_ 8 e.faults ||| bitAt 12 (viaPartner s h t) ||| at_ 16 e.temperature
  | 0x0C => e.lastEcho
  | 0x10 => counts2 e.mismatched e.missing
  | 0x14 => counts2 e.replayed e.naks
  | 0x18 => counts2 e.bad e.lostRecords
  | _ => 0#32

/-- TBL, one head's side, by offset (10 R409). -/
def tblWord (s : State) (h : Head) (o : Nat) : Word :=
  let b := s.tbl.get h
  let bitsOf (p : Nat → Bool) : Nat := (idxWhere 8 p).foldl (fun acc t => acc + 2 ^ t) 0
  match o with
  | 0x004 =>
    at_ 0 (bitsOf (linkReady s h)) ||| at_ 8 (bitsOf (fun t => codeNames (pairCode b.inForce (t / 2)) t))
      ||| at_ 16 (bitsOf (fun t => (tileOf s h t).stale))
  | 0x008 => at_ 8 b.inForce ||| at_ 16 b.capRefused
  | 0x00C => b.cap
  | 0x018 => at_ 0 b.epoch
  | _ => if 0x100 ≤ o ∧ o < 0x200 then tileWord s h ((o - 0x100) / 0x20) (o % 0x20) else 0#32

/-! ## NET, TIM, CLE and LCE -/

/-- A port's registers that show state (11 R454, R455). -/
def netPortWord (s : State) (p o : Nat) : Word :=
  let e := portOf s p
  match o with
  | 0x04 =>
    bitAt 0 e.link ||| bitAt 1 e.sync ||| bitAt 2 e.anDone ||| bitAt 3 e.speedUnsupported ||| bitAt 4 e.remoteFault
      ||| bitAt 5 e.refused ||| at_ 16 (Config.lTx p).toNat ||| at_ 24 (Config.lRx p).toNat
  | 0x90 => at_ 0 (capTo 32 e.cntTx)
  | 0x94 => at_ 0 (capTo 32 e.cntRx)
  | 0x98 => counts2 e.noBuf e.tooLong
  | 0x9C => counts2 e.cntFcs e.cntSym
  | _ => 0#32

/-- NET, by offset (11 R453, R454). -/
def netWord (s : State) (o : Nat) : Word :=
  match o with
  | 0x004 => at_ 0 s.net.mdioData ||| bitAt 16 s.net.mdio.isSome ||| bitAt 17 s.net.mdioRefused
  | 0x01C => at_ 0 (capTo 8 s.net.telBad) ||| at_ 8 (capTo 8 s.net.telLate) ||| at_ 16 (capTo 8 s.net.telDup) ||| at_ 24 (capTo 6 s.net.keys.length)
  | _ => if 0x100 ≤ o ∧ o < 0x300 then netPortWord s ((o - 0x100) / 0x100) (o % 0x100) else 0#32

/-- The latched counter's words (11 R433). -/
def nowWord (s : State) (o : Nat) : Word :=
  let ns := s.tim.now / 2 ^ 32
  match o with
  | 0x020 => at_ 0 (ns / 10 ^ 9 % 2 ^ 32)
  | 0x024 => at_ 0 (ns / 10 ^ 9 / 2 ^ 32 % 2 ^ 16)
  | 0x028 => at_ 0 (ns % 10 ^ 9)
  | 0x02C => at_ 0 (s.tim.now % 2 ^ 32)
  | _ => time32Of ns

/-- A trigger comparator's registers that show state (11 R456). -/
def trigWord (s : State) (n o : Nat) : Word :=
  let e := trigOf s n
  match o with
  | 0x18 => bitAt 0 e.late ||| at_ 2 ((e.next.getD 0) / 65536 % 10 ^ 9)
  | 0x1C => e.count
  | _ => 0#32

/-- A capture unit's registers that show state (11 R444). -/
def capWord_ (s : State) (n o : Nat) : Word :=
  let e := capOf s n
  match o with
  | 0x04 => at_ 0 e.fifo.length ||| bitAt 3 e.overflow ||| bitAt 4 e.current.holdover
  | 0x08 => at_ 0 (e.current.ns / 10 ^ 9 % 2 ^ 32)
  | 0x0C => at_ 0 (e.current.ns / 10 ^ 9 / 2 ^ 32 % 2 ^ 16)
  | 0x10 => at_ 0 (e.current.ns % 10 ^ 9)
  | 0x14 => time32Of e.current.ns
  | _ => 0#32

/-- TIM, by offset (11 R456). -/
def timWord (s : State) (o : Nat) : Word :=
  match o with
  | 0x000 =>
    bitAt 0 s.tim.valid ||| bitAt 1 s.tim.holdover ||| bitAt 2 (s.tim.slew != 0) ||| bitAt 3 s.tim.refused ||| at_ 16 (capTo 16 s.tim.steps)
  | _ =>
    if 0x020 ≤ o ∧ o < 0x034 then nowWord s o
    else if 0x100 ≤ o ∧ o < 0x200 then trigWord s ((o - 0x100) / 0x20) (o % 0x20)
    else if 0x200 ≤ o ∧ o < 0x300 then capWord_ s ((o - 0x200) / 0x20) (o % 0x20)
    else 0#32

/-- A loop's observation registers (12 R490, R491). -/
def loopObserve (s : State) (n o : Nat) : Word :=
  let e := loopOf s n
  match o with
  | 0x00 => at_ 0 e.flags ||| bitAt 16 e.satLive ||| at_ 24 (capTo 8 e.ovrRun)
  | 0x04 => word32 e.out
  | 0x08 => word32 e.state.i
  | 0x0C => word32 e.state.q
  | 0x10 => word32 e.state.v
  | 0x14 => word32 e.meas
  | 0x18 => counts2 e.overruns e.ignored
  | _ => 0#32

/-- CLE, by offset (12 R490). -/
def cleWord (s : State) (o : Nat) : Word :=
  match o with
  | 0x000 =>
    bitAt 0 s.cle.refused ||| at_ 1 s.cle.refusedLoop ||| at_ 4 s.cle.reason ||| bitAt 8 s.cle.setpRefused
      ||| bitAt 9 s.cle.levelRefused ||| at_ 16 ((idxWhere 8 (loopEnabled s)).foldl (fun acc n => acc + 2 ^ n) 0)
  | 0x004 => at_ 8 ((idxWhere 8 (fun n => (loopOf s n).pending.isSome)).foldl (fun acc n => acc + 2 ^ n) 0)
  | 0x098 => bitAt 0 s.cle.imuFailing ||| at_ 8 (capTo 8 s.cle.imuIgnored) ||| at_ 16 (capTo 16 s.cle.imuFailed)
  | _ =>
    if 0x020 ≤ o ∧ o < 0x030 then
      let e := adcOf s ((o - 0x020) / 4)
      at_ 0 (toField 12 e.code) ||| at_ 16 (e.count % 65536)
    else if 0x0A0 ≤ o ∧ o < 0x0B8 then
      at_ 0 (toField 16 (s.cle.imuWords.getD ((o - 0x0A0) / 4) 0)) ||| bitAt 16 s.cle.imuValid
    else if 0x600 ≤ o ∧ o < 0x700 then loopObserve s ((o - 0x600) / 0x20) (o % 0x20)
    else 0#32

/-- LCE, by offset (13 R506). -/
def lceReadWord (s : State) (o : Nat) : Word :=
  if o = 0 then at_ 8 ((idxWhere 2 (fun c => (chainOf s c).pending.isSome)).foldl (fun acc c => acc + 2 ^ c) 0)
  else if 0x100 ≤ o ∧ o < 0x300 then
    let e := chainOf s ((o - 0x100) / 0x100)
    match o % 0x100 with
    | 0x04 => bitAt 0 e.busy ||| bitAt 1 e.staged.isSome ||| bitAt 2 e.refused ||| bitAt 3 e.underrun
    | 0x10 => at_ 0 (toField 9 e.dt)
    | 0x14 => counts2 e.underruns e.ignored
    | _ => 0#32
  else 0#32

/-! ## CRC, FLT, SAF, HKP, PWR and RST -/

/-- CRC, by offset (14 R520). -/
def crcReadWord (s : State) (o : Nat) : Word :=
  if o = 0 then
    at_ 0 ((idxWhere 4 (crcHeld s)).foldl (fun acc c => acc + 2 ^ c) 0) ||| bitAt 4 s.crc.refused ||| at_ 8 s.crc.refusedCtx
  else if 0x100 ≤ o ∧ o < 0x180 then
    let e := crcCtx s ((o - 0x100) / 0x20)
    match o % 0x20 with
    | 0x14 => e.result
    | 0x18 => counts2 e.jobs e.mismatches
    | _ => 0#32
  else 0#32

/-- The live conditions of sources 32·k to 32·k + 31 (15 R524). -/
def liveWord (s : State) (k : Nat) : Word :=
  (List.range 32).foldl (fun acc i => acc ||| bitAt i (isLevel (32 * k + i) && conditionOf s (32 * k + i))) 0#32

/-- Sticky bits of sources 32·k to 32·k + 31 (15 R523). -/
def stickyWord (s : State) (k : Nat) : Word :=
  (List.range 32).foldl (fun acc i => acc ||| bitAt i (stickyOf s (32 * k + i))) 0#32

/-- `FLT_FLOOR_k`: the floors in force (15 R526). -/
def floorWord (s : State) (k : Nat) : Word :=
  (List.range 8).foldl (fun acc i => acc ||| at_ (4 * i) (floorOf s (8 * k + i))) 0#32

/-- FLT, by offset (15 R546, R547). -/
def fltWord (s : State) (o : Nat) : Word :=
  let f := s.flt
  match o with
  | 0x004 =>
    bitAt 0 f.sevRefused ||| bitAt 1 f.injRefused ||| at_ 8 f.refusedSrc ||| bitAt 16 f.self ||| bitAt 17 (regBit s 0x12080 31)
      ||| bitAt 18 (faultPin s)
  | 0x010 => stickyWord s 0
  | 0x014 => stickyWord s 1
  | 0x018 => liveWord s 0
  | 0x01C => liveWord s 1
  | 0x070 => at_ 0 (capTo 32 f.lost)
  | 0x0C0 => f.priorSticky.setWidth 32
  | 0x0C4 => (f.priorSticky >>> 32).setWidth 32
  | _ =>
    if 0x020 ≤ o ∧ o < 0x040 then floorWord s ((o - 0x020) / 4) &&& (if o = 0x020 then 0xF#32 else if o = 0x03C then 0xF0000000#32 else 0#32)
    else if 0x040 ≤ o ∧ o < 0x060 then floorWord s ((o - 0x040) / 4)
    else if 0x060 ≤ o ∧ o < 0x070 then (firstWords s).getD ((o - 0x060) / 4) 0#32
    else if 0x0C8 ≤ o ∧ o < 0x0D8 then f.priorFirst.getD ((o - 0x0C8) / 4) 0#32
    else if 0x100 ≤ o ∧ o < 0x200 then at_ 0 (Store.get (fun _ => 0) f.counts ((o - 0x100) / 4))
    else 0#32

/-- `SAF_x_STATE` (16 R582): a request is shown on each head on which it acts (15 R528, 16 R555). -/
def safHeadWord (s : State) (h : Head) : Word :=
  let e := s.saf.heads.get h
  let named := if joined s then bothHeads else [h]
  at_ 0 e.state ||| at_ 2 e.pattern ||| bitAt 4 e.degraded ||| bitAt 8 (named.any (fun x => collectorCall s x != 0))
    ||| bitAt 9 s.saf.safeN ||| bitAt 10 (named.any (fun x => (s.saf.stop.get x).isSome || s.saf.dark.get x)) ||| bitAt 11 (directCall s)
    ||| bitAt 12 (lenForced s h) ||| at_ 16 (capTo 16 e.holds)

/-- The pattern that a STOP latch shows (16 R566, R581). -/
def stopPattern (s : State) (h : Head) : Nat :=
  match s.saf.stop.get h with
  | some p => if p = 255 then huskPattern s h else p
  | none => 0

/-- SAF, by offset (16 R581 to R583). -/
def safWord (s : State) (o : Nat) : Word :=
  let f := s.saf
  match o with
  | 0x004 =>
    bitAt 0 f.image.isSome ||| bitAt 1 f.unlocked ||| bitAt 2 f.lockout ||| bitAt 3 f.commitError ||| at_ 4 f.commitReason
      ||| bitAt 7 f.unlockRefused ||| at_ 8 f.copy ||| at_ 9 f.failures ||| bitAt 16 f.safeN ||| bitAt 17 (safeOut s)
  | 0x008 => at_ 0 (genInForce s)
  | 0x01C => at_ 0 (capTo 32 f.logSeq)
  | 0x044 => at_ 16 (capTo 8 f.hbBad) ||| bitAt 24 (supervising s) ||| bitAt 25 (conditionOf s 12)
  | 0x048 =>
    bitAt 0 f.stop.a.isSome ||| bitAt 1 f.stop.b.isSome ||| bitAt 2 f.dark.a ||| bitAt 3 f.dark.b ||| at_ 8 (stopPattern s .a)
      ||| at_ 10 (stopPattern s .b)
  | 0x04C => at_ 0 f.wdg ||| bitAt 8 f.heads.a.wdLow ||| bitAt 9 f.heads.b.wdLow
  | 0x100 => safHeadWord s .a
  | 0x110 => safHeadWord s .b
  | _ => if 0x800 ≤ o ∧ o < 0xC80 then at_ 0 (imageNat s (o - 0x800) 4) else 0#32

/-- HKP, by offset (17 R607 to R609). -/
def hkpWord (s : State) (o : Nat) : Word :=
  match o with
  | 0x004 => hkStatus s
  | 0x00C => counts2 s.hkp.ignored s.hkp.bandChanges
  | 0x010 => fuseOf s 3
  | _ => if 0x040 ≤ o ∧ o < 0x080 then hkValWord s ((o - 0x040) / 4) else 0#32

/-- PWR, by offset (18 R631 to R633). -/
def pwrWord (s : State) (o : Nat) : Word :=
  match o with
  | 0x004 => pwrStatus s
  | 0x020 => 0xC#32
  | 0x028 => s.pwr.latch
  | 0x02C => s.pwr.cause
  | 0x034 => pwrDomains s
  | 0x038 => counts2 s.pwr.entries s.pwr.refusals
  | 0x03C => at_ 0 (s.pwr.saved % 2 ^ 13) ||| bitAt 16 s.pwr.crcMatch ||| bitAt 17 s.pwr.tablesLost
  | _ => 0#32

/-- RST, by offset (19 R658, R659). -/
def rstWord (s : State) (o : Nat) : Word :=
  let b := s.rst.boot
  match o with
  | 0x000 => s.rst.cause
  | 0x008 => s.rst.blocks.foldl (fun acc k => acc ||| bitAt k true) 0#32
  | 0x00C => bitAt 0 s.rst.blockRefused ||| bitAt 1 s.rst.hostRefused ||| at_ 2 (s.rst.step % 8)
  | 0x010 => at_ 0 b.state ||| at_ 3 b.slot ||| bitAt 4 b.autolight ||| at_ 8 b.reason ||| at_ 16 (b.record % 2 ^ 13)
  | 0x018 => at_ 0 (capTo 32 b.time)
  | 0x01C => counts2 s.rst.colds s.rst.warms
  | _ => 0#32

/-! ## CBL, PXC, KPS, SHD and BLD -/

/-- CBL, by offset (20 R684). -/
def cblWord (s : State) (o : Nat) : Word :=
  if o = 4 then counts2 s.cbl.actions s.cbl.declined
  else if 0x010 ≤ o ∧ o < 0x020 then
    match proposalOf s ((o - 0x010) / 4) with
    | some p => at_ 0 p.number ||| at_ 16 (p.target % 4096) ||| bitAt 31 true
    | none => 0#32
  else 0#32

/-- One head's PXC registers that show state (07 R285). -/
def pxcHeadWord (s : State) (h : Head) (o : Nat) : Word :=
  let e := s.pxc.heads.get h
  match o with
  | 0x008 => at_ 8 e.splits
  | 0x03C => at_ 0 (capTo 21 e.saturated)
  | 0x040 => at_ 0 (capTo 21 e.exhausted)
  | 0x044 => counts2 (healthCount s h isDark) (healthCount s h (fun x => x == 1 || x == 2))
  | 0x048 => at_ 0 (capTo 21 e.overdue)
  | 0x04C => at_ 0 (capTo 32 e.doseSkip)
  | _ => 0#32

/-- PXC, by offset (07 R285). -/
def pxcWord (s : State) (o : Nat) : Word :=
  match o with
  | 0x004 =>
    bitAt 0 s.pxc.heads.a.limited ||| bitAt 1 s.pxc.heads.b.limited ||| bitAt 2 s.pxc.ageRefused ||| bitAt 3 s.pxc.doseLost
      ||| bitAt 4 s.pxc.cal.isSome ||| bitAt 5 s.pxc.ckpt
  | 0x00C => at_ 0 (capTo 32 s.pxc.seq)
  | 0x400 => 0x8000#32
  | _ =>
    if 0x1000 ≤ o ∧ o < 0x2000 then pxcHeadWord s .a (o - 0x1000)
    else if 0x2000 ≤ o ∧ o < 0x3000 then pxcHeadWord s .b (o - 0x2000)
    else 0#32

/-- The highest programme count of a SERVICE sector (20 R683). -/
def wearMax (s : State) : Nat :=
  ((List.range 2048).map (fun p => if (sectorOf s p).state = 1 then (sectorOf s p).programmes else 0)).foldl Nat.max 0

/-- `KPS_SECTOR_s` (20 R683). -/
def sectorWord (s : State) (p : Nat) : Word :=
  let e := sectorOf s p
  at_ 0 e.logical ||| at_ 12 e.state ||| bitAt 14 e.candidate ||| at_ 16 (capTo 16 e.corrected)

/-- KPS, by offset, but for the window (20 R683). -/
def kpsWord (s : State) (o : Nat) : Word :=
  match o with
  | 0x004 =>
    bitAt 0 s.kps.current.isSome ||| bitAt 4 s.kps.ledgerLost ||| bitAt 5 s.kps.calibPatched ||| bitAt 6 (!fuseCrcOk s)
      ||| bitAt 7 s.kps.winErr ||| bitAt 8 (debugLocked s) ||| at_ 16 (spareSectors s)
  | 0x00C => at_ 0 (wearMax s)
  | 0x010 => at_ 0 s.kps.scrubPos ||| at_ 16 (s.kps.passes % 65536)
  | 0x040 => at_ 0 s.kps.powered
  | 0x044 => at_ 0 s.kps.lit.a
  | 0x048 => at_ 0 s.kps.lit.b
  | 0x068 => at_ 0 s.kps.evtSeq
  | 0x084 => bitAt 0 s.kps.fuseBusy.isSome ||| bitAt 1 s.kps.fuseRefused ||| bitAt 2 s.kps.fuseVerify
  | _ =>
    if 0x04C ≤ o ∧ o < 0x068 then at_ 0 (Store.get (fun _ => 0) s.kps.bands ((o - 0x04C) / 4))
    else if 0x100 ≤ o ∧ o < 0x300 then fuseOf s ((o - 0x100) / 4)
    else if 0x800 ≤ o ∧ o < 0x2800 then sectorWord s ((o - 0x800) / 4)
    else 0#32

/-- One head's SHD registers that show state (05 R213). -/
def shdHeadWord (s : State) (h : Head) (o : Nat) : Word :=
  let e := s.shd.get h
  match o with
  | 0x20 =>
    (match e.inForce with
      | some l => at_ 0 l.count ||| bitAt 7 true ||| at_ 16 l.tag.toNat
      | none => 0#32) ||| at_ 8 e.badRecord
  | 0x24 => match e.inForce with
    | some l => at_ 0 (l.seconds % 2 ^ 32)
    | none => 0#32
  | 0x28 => match e.inForce with
    | some l => at_ 0 l.nanos
    | none => 0#32
  | 0x2C => e.age
  | 0x30 => counts2 e.merged e.mergedMasks
  | _ => 0#32

/-- SHD, by offset (05 R213, R214). -/
def shdWord (s : State) (o : Nat) : Word :=
  if o = 4 then
    bitAt 0 s.shdRefused ||| bitAt 1 s.shd.a.mapError ||| bitAt 2 s.shd.b.mapError ||| bitAt 4 s.shd.a.stale
      ||| bitAt 5 s.shd.b.stale ||| bitAt 6 s.shd.a.dropped ||| bitAt 7 s.shd.b.dropped ||| at_ 16 s.shdNode
  else if 0x100 ≤ o ∧ o < 0x200 then shdHeadWord s .a (o - 0x100)
  else if 0x200 ≤ o ∧ o < 0x300 then shdHeadWord s .b (o - 0x200)
  else 0#32

/-- One head's BLD registers that show state (06 R244). -/
def bldHeadWord (s : State) (h : Head) (o : Nat) : Word :=
  let e := s.bld.get h
  match o with
  | 0x00 => bitAt 8 (lightMode s h)
  | 0x04 => at_ 0 e.bank ||| bitAt 1 (e.swap != 0)
  | 0x08 => at_ 0 e.level ||| at_ 16 e.headroom
  | 0x0C => at_ 0 (capTo 32 e.drive)
  | 0x10 => at_ 0 (capTo 21 e.clamped)
  | 0x14 => at_ 0 (capTo 21 e.lifted)
  | 0x18 => bitAt 0 e.flatValid ||| at_ 8 e.flatRun ||| at_ 16 (capTo 16 e.rebuilds)
  | 0x20 => 0xFFFF#32
  | _ => 0#32

/-- BLD, by offset (06 R244 to R246). -/
def bldWord (s : State) (o : Nat) : Word :=
  if o = 0 then
    bitAt 0 s.bld.a.toneError ||| bitAt 1 s.bld.b.toneError ||| bitAt 2 s.bld.a.headroomRefused ||| bitAt 3 s.bld.b.headroomRefused
      ||| at_ 16 s.bldEntry
  else if 0x100 ≤ o ∧ o < 0x200 then bldHeadWord s .a (o - 0x100)
  else if 0x200 ≤ o ∧ o < 0x300 then bldHeadWord s .b (o - 0x200)
  else if 0x800 ≤ o ∧ o < 0x900 then at_ 0 (zoneWord s .a ((o - 0x800) / 16) (o % 16 / 4))
  else if 0xC00 ≤ o ∧ o < 0xD00 then at_ 0 (zoneWord s .b ((o - 0xC00) / 16) (o % 16 / 4))
  else 0#32

/-! ## A word, and its read -/

/-- The bits of word `idx` that show state. -/
def liveBits (s : State) (idx : Nat) : Word :=
  let a := 4 * idx
  let o := a % 4096
  match idx / 1024 with
  | 0 => glbWord s o | 1 => hifWord s o | 3 => rngWord s o | 4 => lmmWord s o | 5 => lyWord s .a o | 6 => lyWord s .b o
  | 7 => tgWord s .a o | 8 => tgWord s .b o | 9 => lnWord s 0 o | 10 => lnWord s 1 o | 11 => lnWord s 2 o
  | 12 => if o < 0x400 then tblWord s .a o else if o < 0x800 then tblWord s .b (o - 0x400) else 0#32
  | 13 => netWord s o | 14 => timWord s o | 15 => cleWord s o | 16 => lceReadWord s o | 17 => crcReadWord s o
  | 18 => fltWord s o | 19 => safWord s o | 20 => hkpWord s o | 21 => pwrWord s o | 22 => rstWord s o | 23 => cblWord s o
  | n =>
    if 24 ≤ n ∧ n < 28 then pxcWord s (a - 0x18000)
    else if 28 ≤ n ∧ n < 32 then kpsWord s (a - 0x1C000)
    else if 32 ≤ n ∧ n < 40 then shdWord s (a - 0x20000)
    else if 40 ≤ n ∧ n < 48 then bldWord s (a - 0x28000)
    else 0#32

/-- The bits of word `idx` that hold what was written. -/
def heldBits (s : State) (idx : Nat) : Word := getReg s idx &&& rwMask idx

/-- Word `idx` as it stands, but for what only time gives. -/
def wordAt (s : State) (idx : Nat) : Word := heldBits s idx ||| liveBits s idx

/-- `GLB_GPIO_IN`: an enabled output shows what it drives, the level at another pin is a free value (21 R692, log 47). -/
def readGpio (s : State) : Word × State :=
  let w := regAt s 0x00020
  let en := fld w 15 8
  let (x, s1) := drawBelow s 256
  (at_ 0 ((fld w 7 0 &&& en) ||| (x &&& (255 - en))), s1)

/-- `RST_BOOT`: up to the first record the sequencer may still be loading the script, a free value; all else is clear then
(19 R649, R659, log 46). -/
def readBoot (s : State) : Word × State :=
  let b := s.rst.boot
  if b.state = 2 ∧ b.record = 0 ∧ !b.waiting then
    let (k, s1) := drawBelow s 2
    (if k = 1 then 1#32 else wordAt s (0x16010 / 4), s1)
  else (wordAt s (0x16010 / 4), s)

/-- `PWR_TIMER` counts down: what it has come to since it was written or read last is a free value down to 1; at 0 the wake
timer has expired (18 R623, R631, log 47). -/
def readTimer (s : State) : Word × State :=
  let v := (regAt s 0x15030).toNat
  if v = 0 then (0#32, s)
  else
    let (k, s1) := drawBelow s v
    let w := BitVec.ofNat 32 (k + 1)
    (w, setRegAt s1 0x15030 w)

/-- `TGx_POS`: where in its frame a sweep is depends on time, a free value within its part (08 R313, log 47). -/
def readPos (s : State) (h : Head) : Word × State :=
  let t := s.tg.get (timer s h)
  if t.state = 0 then (0#32, s)
  else if t.waiting && !t.trigSeen then (at_ 12 4, s)
  else
    let tm := timingOf s h
    if t.active then
      let (y, s1) := drawBelow s (Nat.max 1 (rasterH s h))
      (at_ 0 y, s1)
    else
      let (y, s1) := drawBelow s (Nat.max 1 tm.vlines)
      (if y < tm.vfp then at_ 0 y ||| at_ 12 1
        else if y < tm.vfp + tm.vsync then at_ 0 (y - tm.vfp) ||| at_ 12 2
        else at_ 0 (y - tm.vfp - tm.vsync) ||| at_ 12 3, s1)

/-- `TIM_SLEW_REM`: the remaining offset in whole nanoseconds; how a fraction rounds is a free value (11 R456, log 47). -/
def readSlewRem (s : State) : Word × State :=
  let q := s.tim.slew / 2 ^ 32
  if s.tim.slew % 2 ^ 32 = 0 then (word32 q, s)
  else
    let (k, s1) := drawBelow s 2
    (word32 (q + k), s1)

/-- `LYx_SLOT_s` of a host-memory slot: on a head that has begun no sweep nothing is fetched for it; otherwise whether enough
of it has been fetched is a free value (04 R165, log 47). -/
def readSlot (s : State) (h : Head) (i : Nat) : Word × State :=
  let sl := slotOf s h i
  if sl.enabled && sl.kind == 0 && !stopped s (timer s h) then
    let (k, s1) := drawBelow s 2
    (slotWord s h i ||| bitAt 1 (k == 1), s1)
  else (slotWord s h i, s)

/-- The words whose value depends on time, and the reads with a side effect; the others read as they stand
(21 R689). -/
def readWord (s : State) (idx : Nat) : Word × State :=
  let a := 4 * idx
  match a with
  | 0x00024 => readGpio s
  | 0x07044 => readPos s .a
  | 0x08044 => readPos s .b
  | 0x0E01C => readSlewRem s
  | 0x0E020 => let s1 := latchNow s
    (nowWord s1 0x020, s1)
  | 0x13018 => if s.saf.unlocked then
      let (k, s1) := drawBelow s 600001
      (at_ 0 k, s1)
    else (0#32, s)
  | 0x15030 => readTimer s
  | 0x16010 => readBoot s
  | 0x13044 => if s.saf.hbAny then
      let (k, s1) := drawBelow s 65536
      (wordAt s idx ||| at_ 0 k, s1)
    else (wordAt s idx, s)
  | 0x1C074 => windowWord s false
  | 0x1C078 => windowReadHiOp s
  | _ =>
    if a / 4096 = 14 ∧ 0x200 ≤ a % 4096 ∧ a % 4096 < 0x300 ∧ a % 0x20 = 8 then
      let s1 := capturePops s ((a % 4096 - 0x200) / 0x20)
      (wordAt s1 idx, s1)
    else if (a / 4096 = 5 ∨ a / 4096 = 6) ∧ 0x040 ≤ a % 4096 ∧ a % 4096 < 0x080 ∧ a % 8 = 0 then
      readSlot s (headOf (a / 4096 - 5)) ((a % 4096 - 0x040) / 8)
    else (wordAt s idx, s)

/-! ## Parity (21 R700 to R704) -/

/-- The global block changed by `f`. -/
def modGlb (s : State) (f : Glb → Glb) : State := { s with glb := f s.glb }

/-- The stored parity of word `idx` fails from now on. -/
def spoilParity (s : State) (idx : Nat) : State :=
  modGlb s (fun g => { g with badParity := if g.badParity.contains idx then g.badParity else g.badParity ++ [idx] })

/-- Fresh parity is formed for word `idx`. -/
def freshParity (s : State) (idx : Nat) : State :=
  modGlb s (fun g => { g with badParity := g.badParity.filter (fun i => i != idx) })

/-- The parity of word `idx` is checked at a read: an armed injection that names it is spent, and `upset` says that a bit of
it has flipped since the last check. Answers whether it fails (21 R702, R704, 15 R543). -/
def checkParity (s : State) (idx : Nat) (upset : Bool) : Bool × State :=
  if !covered idx then (false, s)
  else
    let hit := injHits s 54 idx
    let s1 := if hit then spoilParity (spendInj s) idx else if upset then spoilParity s idx else s
    if s1.glb.badParity.contains idx then
      (true, raiseInj (modGlb s1 (fun g => { g with parity := true })) 54 3 idx hit)
    else (false, s1)

end Sys2Proof.Machine
end

