-- ==== Sys2Proof/Machine/Access.lean ====
section
/-! DEFINITION. Register accesses (21 R685 to R693): where a write goes, what each window does with it, what the boot script
and a sleeping domain keep out (19 R654, 21 R690, R691), and the service port's answers (21 R694 to R697). -/

namespace Sys2Proof.Machine

/-! ## The value that a write leaves -/

/-- What word `idx` holds after a write of `v`: reserved values keep out (00 R12), and locked RWL bits keep the value in
force (00 R10). -/
def accepted (s : State) (idx : Nat) (v : Word) : Word :=
  let old := getReg s idx
  let m := if s.saf.unlocked then rwMask idx else rwMask idx &&& ~~~(rwlMask idx)
  merge old (keepBad (limsOf idx) old v) m

/-- A write with no effect but the value held. -/
def plainWrite (s : State) (idx : Nat) (v : Word) : State := setReg s idx (accepted s idx v)

/-! ## What each window does with a write, by offset -/

/-- GLB (21 R692, R693). -/
def writeGlb (s : State) (idx o : Nat) (v : Word) : State :=
  if o = 0x010 then
    modGlb s (fun g =>
      { g with partialAccess := g.partialAccess && !bit v 16, domainOff := g.domainOff && !bit v 17, parity := g.parity && !bit v 18 })
  else plainWrite s idx v

/-- HIF (02 R49). -/
def writeHif (s : State) (idx o : Nat) (v : Word) : State :=
  if o = 0x00C then { s with hif := { s.hif with err := s.hif.err &&& ~~~v } }
  else if 0x800 ≤ o ∧ o < 0xA00 then flushMsix (plainWrite s idx v) ((o - 0x800) / 16)
  else plainWrite s idx v

/-- RNG (02 R59 to R64). -/
def writeRng (s : State) (idx o : Nat) (v : Word) : State :=
  match o with
  | 0x000 => writeRngCtrl s v
  | 0x008 => writeJournal s v
  | _ =>
    if 0x100 ≤ o ∧ o < 0x500 then
      let n := (o - 0x100) / 0x20
      match (o - 0x100) % 0x20 with
      | 0x08 => writeRingCfg s n v
      | 0x18 => modRing s n (fun r => { r with protoErr := r.protoErr && !bit v 13, lost := if bit v 31 then 0 else r.lost })
      | _ => plainWrite s idx v
    else plainWrite s idx v

/-- LMM (03 R109, R112 to R114, R122). -/
def writeLmm (s : State) (idx o : Nat) (v : Word) : State :=
  match o with
  | 0x004 =>
    modLmm s (fun m =>
      { m with budgetRefused := m.budgetRefused && !bit v 0, regionRefused := m.regionRefused && !bit v 1,
               startRefused := m.startRefused && !bit v 2 })
  | 0x014 => modLmm s (fun m => { m with uncorrAddr := m.uncorrAddr &&& ~~~(v &&& bitAt 31 true) })
  | _ =>
    if 0x040 ≤ o ∧ o < 0x070 then writeBudget s ((o - 0x040) / 4) v
    else if 0x100 ≤ o ∧ o < 0x12C then writeRegion s ((o - 0x100) / 4) v
    else plainWrite s idx v

/-- LYA and LYB (04 R174). -/
def writeLy (s : State) (h : Head) (idx o : Nat) (v : Word) : State :=
  match o with
  | 0x000 => modLy s h (fun y => { y with late := y.late && !bit v 16 })
  | 0x008 => if stopped s (timer s h) then plainWrite s idx v else s
  | _ => plainWrite s idx v

/-- A word that only a STOPPED head takes (08 R300). -/
def stoppedWrite (s : State) (h : Head) (idx : Nat) (v : Word) : State :=
  if stopped s (timer s h) then plainWrite s idx v else timingRefused s h

/-- TGA and TGB (08 R300, R301, R313, R314). -/
def writeTg (s : State) (h : Head) (idx o : Nat) (v : Word) : State :=
  match o with
  | 0x000 => writeTgCtrl s h v
  | 0x004 =>
    modTg s h (fun t =>
      { t with commitError := t.commitError && !bit v 8, timingRefused := t.timingRefused && !bit v 12,
               startRefused := t.startRefused && !bit v 13 })
  | 0x008 => if bit v 0 then commitWrite s h else s
  | 0x010 => stoppedWrite s h idx v
  | 0x014 => stoppedWrite s h idx v
  | _ =>
    if 0x080 ≤ o ∧ o < 0x0C0 then
      if stopped s (timer s h) then reconfigure (plainWrite s idx v) h else timingRefused s h
    else plainWrite s idx v

/-- LNA, LNB and LNN (09 R354 to R357). -/
def writeLn (s : State) (b idx o : Nat) (v : Word) : State :=
  if o = 0 then writeLnCtrl s b v
  else if o = 4 then
    modLaneBlock s b (fun e => { e with refRefused := e.refRefused && !bit v 2, eqParity := e.eqParity && !bit v 3 })
  else if 0x100 ≤ o ∧ o < 0x100 + 0x20 * (blockLanes b).length then
    let l := 8 * b + (o - 0x100) / 0x20
    match o % 0x20 with
    | 0x00 => writeLaneCtrl s l v
    | 0x04 => modLane s l (fun e => { e with slipFail := e.slipFail && !bit v 8, refused := e.refused && !bit v 12 })
    | _ => s
  else if 0x400 ≤ o ∧ rwMask idx ≠ 0#32 then writeEq s idx v
  else plainWrite s idx v

/-- `TBL_x_CTRL`: the packing only while STOPPED (08 R300, 10 R410); a new packing configures the tiles anew (10 R401). -/
def writeTblCtrl (s : State) (h : Head) (idx : Nat) (v : Word) : State :=
  let old := getReg s idx
  let new := accepted s idx v
  let bad := (new ^^^ old) &&& 3#32 != 0#32 && !stopped s (timer s h)
  let s1 := setReg s idx (if bad then merge new old 3#32 else new)
  reconfigure (echoesDrop (if bad then timingRefused s1 h else s1) h) h

/-- TBL, one head's side (10 R409, R410). -/
def writeTbl (s : State) (h : Head) (idx o : Nat) (v : Word) : State :=
  match o with
  | 0x000 => writeTblCtrl s h idx v
  | 0x008 => writeFwd s h v
  | 0x014 => writeReq s h v
  | _ => plainWrite s idx v

/-- NET (11 R453 to R455). -/
def writeNet (s : State) (idx o : Nat) (v : Word) : State :=
  match o with
  | 0x000 => writeMdio s v
  | 0x004 => modNet s (fun e => { e with mdioRefused := e.mdioRefused && !bit v 17 })
  | _ =>
    if 0x100 ≤ o ∧ o < 0x300 then
      let p := (o - 0x100) / 0x100
      match o % 0x100 with
      | 0x00 => writeNetCtrl s p v
      | 0x04 => modPort s p (fun e => { e with refused := e.refused && !bit v 5 })
      | 0x08 => writeNetMac s p 8 v
      | 0x0C => writeNetMac s p 0xC v
      | _ => plainWrite s idx v
    else plainWrite s idx v

/-- TIM (11 R456). -/
def writeTim (s : State) (idx o : Nat) (v : Word) : State :=
  match o with
  | 0x000 => modTim s (fun t => { t with refused := t.refused && !bit v 3 })
  | 0x004 => writeTimCmd s v
  | 0x00C => writeIncrFrac s v
  | 0x014 => writeSlewRate s v
  | 0x018 => writeHold s v
  | 0x060 => writePps s v
  | _ =>
    if 0x100 ≤ o ∧ o < 0x200 then
      let n := (o - 0x100) / 0x20
      match o % 0x20 with
      | 0x00 => writeTrigCtrl s n v
      | 0x18 => modTrig s n (fun t => { t with late := t.late && !bit v 0 })
      | _ => plainWrite s idx v
    else if 0x200 ≤ o ∧ o < 0x300 ∧ o % 0x20 = 4 then
      modCap s ((o - 0x200) / 0x20) (fun c => { c with overflow := c.overflow && !bit v 3 })
    else plainWrite s idx v

/-- CLE (12 R482, R484, R487 to R491). -/
def writeCle (s : State) (idx o : Nat) (v : Word) : State :=
  match o with
  | 0x000 =>
    modCle s (fun e =>
      { e with refused := e.refused && !bit v 0, setpRefused := e.setpRefused && !bit v 8, levelRefused := e.levelRefused && !bit v 9 })
  | 0x004 => writeCleCommit s v
  | 0x008 => writeLen s v
  | 0x010 => writeAdcCtrl s v
  | 0x060 => writeSetpoint s 6 v
  | 0x064 => writeSetpoint s 7 v
  | _ =>
    if 0x040 ≤ o ∧ o < 0x058 then writeSetpoint s ((o - 0x040) / 4) v
    else if 0x100 ≤ o ∧ o < 0x500 then
      let n := (o - 0x100) / 0x80
      match o % 0x80 with
      | 0x00 => writeLoopCtrl s n v
      | 0x04 => writeLoopTime s n 4 v
      | 0x08 => writeLoopTime s n 8 v
      | _ => plainWrite s idx v
    else if 0x600 ≤ o ∧ o < 0x700 ∧ o % 0x20 = 0 then
      modLoop s ((o - 0x600) / 0x20) (fun e => { e with flags := e.flags - (e.flags &&& fld v 8 0) })
    else plainWrite s idx v

/-- LCE (13 R503 to R506). -/
def writeLce (s : State) (idx o : Nat) (v : Word) : State :=
  if o = 0 then writeLceCommit s v
  else if 0x100 ≤ o ∧ o < 0x300 then
    let c := (o - 0x100) / 0x100
    match o % 0x100 with
    | 0x00 => writeLceCtrl s c v
    | 0x04 => modChain s c (fun e => { e with refused := e.refused && !bit v 2, underrun := e.underrun && !bit v 3 })
    | _ => plainWrite s idx v
  else plainWrite s idx v

/-- CRC (14 R511, R512, R520). -/
def writeCrc (s : State) (idx o : Nat) (v : Word) : State :=
  if o = 0 then { s with crc := { s.crc with refused := s.crc.refused && !bit v 4 } }
  else if 0x100 ≤ o ∧ o < 0x180 then
    let c := (o - 0x100) / 0x20
    match o % 0x20 with
    | 0x00 => writeCrcCfg s c v
    | 0x04 => writeCrcWord s c 4 v
    | 0x08 => writeCrcWord s c 8 v
    | 0x0C => writeCrcWord s c 0xC v
    | 0x10 => writeCrcWord s c 0x10 v
    | _ => s
  else plainWrite s idx v

/-- FLT (15 R523, R525, R527, R536, R543, R546, R547). -/
def writeFlt (s : State) (idx o : Nat) (v : Word) : State :=
  match o with
  | 0x004 => modFlt s (fun f => { f with sevRefused := f.sevRefused && !bit v 0, injRefused := f.injRefused && !bit v 1 })
  | 0x010 => writeSticky s false v
  | 0x014 => writeSticky s true v
  | 0x060 => writeFirst s v
  | 0x080 => if s.saf.unlocked then writeInj s v else s
  | 0x0A0 => writeCntClr s false v
  | 0x0A4 => writeCntClr s true v
  | _ => if 0x020 ≤ o ∧ o < 0x040 then writeSev s ((o - 0x020) / 4) v else plainWrite s idx v

/-- SAF (16 R560, R575, R581, R583). -/
def writeSaf (s : State) (idx o : Nat) (v : Word) : State :=
  match o with
  | 0x004 => modSaf s (fun e => { e with commitError := e.commitError && !bit v 3, unlockRefused := e.unlockRefused && !bit v 7 })
  | 0x00C => writeUnlock s v
  | 0x010 => modSaf s (fun e => { e with keyLo := v })
  | 0x014 => modSaf s (fun e => { e with keyHi := v })
  | 0x040 => writeHb s v
  | 0x04C => modSaf s (fun e => { e with wdg := e.wdg - (e.wdg &&& fld v 5 0) })
  | _ => if 0x020 ≤ o ∧ o < 0x03C ∧ !s.saf.unlocked then s else plainWrite s idx v

/-- HKP (17 R586 to R591, R607 to R609). -/
def writeHkp (s : State) (idx o : Nat) (v : Word) : State :=
  match o with
  | 0x000 => writeHkCtrl s (accepted s idx v)
  | 0x004 => modHkp s (fun k => { k with refused := k.refused && !bit v 4 })
  | 0x008 => writeHkRound s v
  | _ =>
    if 0x400 ≤ o ∧ o < 0x800 ∧ rwMask idx ≠ 0#32 then writeNtc s ((o - 0x400) / 0x100) (o % 0x100 / 4) v
    else plainWrite s idx v

/-- PWR (18 R613, R631 to R633). -/
def writePwr (s : State) (idx o : Nat) (v : Word) : State :=
  match o with
  | 0x000 => writePwrCtrl s v
  | 0x004 => modPwr s (fun p => { p with refused := p.refused && !bit v 7 })
  | 0x008 => writePwrCmd s v
  | 0x02C => modPwr s (fun p => { p with cause := p.cause &&& ~~~v })
  | _ => plainWrite s idx v

/-- RST (19 R636, R642, R643, R655, R658). -/
def writeRst (s : State) (o : Nat) (v : Word) : State :=
  match o with
  | 0x000 => modRst s (fun r => { r with cause := r.cause &&& ~~~v })
  | 0x004 => writeRstCmd s v
  | 0x008 => writeRstBlock s v
  | 0x00C => modRst s (fun r => { r with blockRefused := r.blockRefused && !bit v 0, hostRefused := r.hostRefused && !bit v 1 })
  | 0x014 => writeBootCmd s v
  | _ => s

/-- One head's PXC registers (07 R265, R271, R285); a new depth configures the tiles anew (10 R401). -/
def writePxcHead (s : State) (h : Head) (idx o : Nat) (v : Word) : State :=
  match o with
  | 0x004 => if stopped s (timer s h) then reconfigure (plainWrite s idx v) h else s
  | 0x038 => clearHealth s h v
  | _ => plainWrite s idx v

/-- PXC (07 R259 to R261, R285). -/
def writePxc (s : State) (idx o : Nat) (v : Word) : State :=
  match o with
  | 0x004 =>
    { s with pxc := { s.pxc with ageRefused := s.pxc.ageRefused && !bit v 2, doseLost := s.pxc.doseLost && !bit v 3 } }
  | 0x008 => if bit v 8 then doseCheckpoint (plainWrite s idx v) else plainWrite s idx v
  | _ =>
    if 0x400 ≤ o ∧ o < 0x504 then writeAging s ((o - 0x400) / 4) v
    else if 0x1000 ≤ o ∧ o < 0x2000 then writePxcHead s .a idx (o - 0x1000) v
    else if 0x2000 ≤ o ∧ o < 0x3000 then writePxcHead s .b idx (o - 0x2000) v
    else plainWrite s idx v

/-- KPS (20 R676, R680, R683). -/
def writeKps (s : State) (idx o : Nat) (v : Word) : State :=
  match o with
  | 0x000 => spareLevel (plainWrite s idx v)
  | 0x004 =>
    modKps s (fun k =>
      { k with ledgerLost := k.ledgerLost && !bit v 4, calibPatched := k.calibPatched && !bit v 5, winErr := k.winErr && !bit v 7 })
  | 0x080 => fuseProgramWrite s v
  | 0x084 => modKps s (fun k => { k with fuseRefused := k.fuseRefused && !bit v 1, fuseVerify := k.fuseVerify && !bit v 2 })
  | _ => plainWrite s idx v

/-- One head's SHD registers (05 R193, R194, R206, R213). -/
def writeShdHead (s : State) (h : Head) (idx o : Nat) (v : Word) : State :=
  match o with
  | 0x00 => writeMapCfg s h v
  | 0x14 => if s.saf.unlocked then writeAge s h false v else s
  | 0x18 => if s.saf.unlocked then writeAge s h true v else s
  | _ => if 4 ≤ o ∧ o ≤ 0x10 then writeMapWord s h idx v else plainWrite s idx v

/-- SHD (05 R194, R209, R213, R214). -/
def writeShd (s : State) (idx o : Nat) (v : Word) : State :=
  match o with
  | 0x000 => writeShdCtrl s v
  | 0x004 =>
    let s1 := { s with shdRefused := s.shdRefused && !bit v 0 }
    modShd (modShd s1 .a (fun d => { d with mapError := d.mapError && !bit v 1 })) .b
      (fun d => { d with mapError := d.mapError && !bit v 2 })
  | _ =>
    if 0x100 ≤ o ∧ o < 0x200 then writeShdHead s .a idx (o - 0x100) v
    else if 0x200 ≤ o ∧ o < 0x300 then writeShdHead s .b idx (o - 0x200) v
    else if 0x1000 ≤ o ∧ rwMask idx ≠ 0#32 then writeMapWord s (if o < 0x3000 then .a else .b) idx v
    else plainWrite s idx v

/-- One head's BLD registers (06 R229, R232, R244). -/
def writeBldHead (s : State) (h : Head) (idx o : Nat) (v : Word) : State :=
  if o = 4 then writeToneCtrl s h v
  else if 0x24 ≤ o ∧ o < 0x40 then writeHeadroom s h ((o - 0x20) / 4) v
  else plainWrite s idx v

/-- BLD (06 R229, R244, R246). -/
def writeBld (s : State) (idx o : Nat) (v : Word) : State :=
  if o = 0 then
    modBld (modBld s .a (fun b => { b with toneError := b.toneError && !bit v 0, headroomRefused := b.headroomRefused && !bit v 2 }))
      .b (fun b => { b with toneError := b.toneError && !bit v 1, headroomRefused := b.headroomRefused && !bit v 3 })
  else if 0x100 ≤ o ∧ o < 0x200 then writeBldHead s .a idx (o - 0x100) v
  else if 0x200 ≤ o ∧ o < 0x300 then writeBldHead s .b idx (o - 0x200) v
  else if 0x1000 ≤ o ∧ rwMask idx ≠ 0#32 then
    let k := o - 0x1000
    writeTone s (headOf (k / 0x2800)) (k % 0x2800 / 0x1400) idx v
  else s

/-- A whole write of word `idx` acts in its window (21 R685). -/
def routeWrite (s : State) (idx : Nat) (v : Word) : State :=
  let a := 4 * idx
  let o := a % 4096
  match idx / 1024 with
  | 0 => writeGlb s idx o v | 1 => writeHif s idx o v | 3 => writeRng s idx o v | 4 => writeLmm s idx o v
  | 5 => writeLy s .a idx o v | 6 => writeLy s .b idx o v | 7 => writeTg s .a idx o v | 8 => writeTg s .b idx o v
  | 9 => writeLn s 0 idx o v | 10 => writeLn s 1 idx o v | 11 => writeLn s 2 idx o v
  | 12 => if o < 0x400 then writeTbl s .a idx o v else if o < 0x800 then writeTbl s .b idx (o - 0x400) v else s
  | 13 => writeNet s idx o v | 14 => writeTim s idx o v | 15 => writeCle s idx o v | 16 => writeLce s idx o v
  | 17 => writeCrc s idx o v | 18 => writeFlt s idx o v | 19 => writeSaf s idx o v | 20 => writeHkp s idx o v
  | 21 => writePwr s idx o v | 22 => writeRst s o v | 23 => plainWrite s idx v
  | n =>
    if 24 ≤ n ∧ n < 28 then writePxc s idx (a - 0x18000) v
    else if 28 ≤ n ∧ n < 32 then writeKps s idx (a - 0x1C000) v
    else if 32 ≤ n ∧ n < 40 then writeShd s idx (a - 0x20000) v
    else if 40 ≤ n ∧ n < 48 then writeBld s idx (a - 0x28000) v
    else s

/-- The whole word is RWL and the configuration is locked: a write of it has no effect (00 R10). -/
def wordLocked (s : State) (idx : Nat) : Bool := !s.saf.unlocked && rwMask idx != 0#32 && rwlMask idx == rwMask idx

/-- A write that reaches its word: it acts, and fresh parity is formed (21 R700, R702). -/
def wordWrite (s : State) (idx : Nat) (v : Word) : State :=
  if wordLocked s idx then routeWrite s idx v else routeWrite (freshParity s idx) idx v

/-! ## The ports -/

/-- The number of a port in GLB_ACCESS (21 R693); a script's access counts as the host's (19 R650). -/
def busNumber : Bus → Nat
  | .service => 1
  | _ => 0

/-- GLB_ACCESS records an access that set one of its bits (21 R693). -/
def noteAccess (s : State) (b : Bus) (idx : Nat) : State :=
  modGlb s (fun g => { g with index := idx, port := busNumber b })

/-- An access to a block that cannot serve it (21 R690). -/
def noteOff (s : State) (b : Bus) (idx : Nat) : State := modGlb (noteAccess s b idx) (fun g => { g with domainOff := true })

/-- Word `idx` lies in the doorbell page. -/
def inDoorbells (idx : Nat) : Bool := idx / 1024 == 2

/-- Word `idx` lies in the MSI-X table or the PBA (02 R49). -/
def inMsix (idx : Nat) : Bool := decide (0x1800 / 4 ≤ idx) && decide (idx ≤ 0x1A00 / 4)

/-- The service port does not serve the word (02 R53). -/
def notServed (idx : Nat) : Bool := inDoorbells idx || inMsix idx

/-- The boot script keeps a host write out (19 R654): all but GLB, RST and SAF_HB. -/
def scriptKeeps (s : State) (b : Bus) (idx : Nat) : Bool :=
  scriptRuns s && b != .script && idx / 1024 != 0 && idx / 1024 != 22 && idx != 0x13040 / 4

/-- A write of the doorbell page (02 R66, R67, 21 R685). -/
def pageWrite (s : State) (idx : Nat) (whole : Bool) (v : Word) : State :=
  let o := 4 * idx % 4096
  if o % 8 = 0 ∧ o / 8 < 32 then doorbellWrite s (o / 8) whole v else s

/-- One word of a write through a port, with all its bytes or only some; the status is the service port's (21 R687 to
R691, R696). One that reaches a block other than PWR ends IDLE (18 R612, R614). -/
def portWrite (s0 : State) (b : Bus) (addr : Nat) (whole : Bool) (v : Word) : Nat × State :=
  let s := if b == .pcie then linkWakes s0 else s0
  let idx := addr / 4
  if 0x40000 ≤ addr then (7, s)
  else if b == .service && notServed idx then (4, s)
  else if !whole && !inDoorbells idx then (0, modGlb (noteAccess s b idx) (fun g => { g with partialAccess := true }))
  else if scriptKeeps s b idx then (3, modRst s (fun r => { r with hostRefused := true }))
  else if !windowServes s idx then (5, noteOff s b idx)
  else
    let s1 := if idx / 1024 = 21 then s else idleExits s
    if inDoorbells idx then (0, pageWrite s1 idx whole v) else (0, wordWrite s1 idx v)

/-- One word of a read through a port: the status, the word and the state after it (21 R688, R690, R701, R702). The doorbell
page reads as zero. -/
def portRead (s0 : State) (b : Bus) (addr : Nat) (upset : Bool) : Nat × Word × State :=
  let s := if b == .pcie then linkWakes s0 else s0
  let idx := addr / 4
  if 0x40000 ≤ addr then (7, 0#32, s)
  else if b == .service && notServed idx then (4, 0#32, s)
  else if !windowServes s idx then (5, 0#32, noteOff s b idx)
  else if inDoorbells idx then (0, 0#32, s)
  else
    let (bad, s1) := checkParity s idx upset
    let s2 := if bad then noteAccess s1 b idx else s1
    let (v, s3) := readWord s2 idx
    (if bad then 6 else 0, v, s3)

/-! ## The service port (21 R694 to R697) -/

/-- The response phase: 0x5A, data, status and CRC. -/
def svcAnswer (s : State) (data : List Byte) (status : Nat) : State :=
  let body := [0x5A#8] ++ data ++ [BitVec.ofNat 8 status]
  emit s (.service (body ++ leBytes 1 (crc8 body)))

/-- The request's CRC byte matches; an armed injection of FS58 inverts bit 0 of it and is spent (15 R543). Answers whether
the injection was spent on this frame as well. -/
def svcCheck (s : State) (frame : List Byte) : Bool × Bool × State :=
  let body := frame.dropLast
  let got := byteAt frame (frame.length - 1)
  if injArmed s 58 then (crc8 body == (got ^^^ 1), true, spendInj s)
  else (crc8 body == got, false, s)

/-- A request whose CRC does not match: FS58 is raised and counted, nothing is done (21 R697). -/
def svcCrcError (s : State) (inj : Bool) (data : List Byte) : State :=
  svcAnswer (raiseInj (modGlb s (fun g => { g with svcCrc := satAdd 255 g.svcCrc 1 })) 58 3 0 inj) data 1

/-- A request at an address that names no word (21 R696). -/
def svcAddressBad (addr : Nat) : Bool := addr % 4 != 0 || decide (0x40000 ≤ addr)

/-- A WRITE frame of ten bytes. -/
def svcWriteFrame (s : State) (frame : List Byte) : State :=
  let (ok, inj, s1) := svcCheck s frame
  let addr := beNat ((frame.drop 1).take 4)
  if !ok then svcCrcError s1 inj []
  else if svcAddressBad addr then svcAnswer s1 [] 7
  else
    let (st, s2) := portWrite s1 .service addr true (BitVec.ofNat 32 (beNat ((frame.drop 5).take 4)))
    svcAnswer s2 [] st

/-- A READ frame of six bytes. -/
def svcReadFrame (s : State) (frame : List Byte) (upset : Bool) : State :=
  let (ok, inj, s1) := svcCheck s frame
  let addr := beNat ((frame.drop 1).take 4)
  if !ok then svcCrcError s1 inj (beBytes 4 0)
  else if svcAddressBad addr then svcAnswer s1 (beBytes 4 0) 7
  else
    let (st, v, s2) := portRead s1 .service addr upset
    svcAnswer s2 (beBytes 4 v.toNat) st

/-- The request bytes of a well-formed frame: command, address, data and check value (21 R695). -/
def svcRequest (cmd addr : Nat) (data : List Byte) : List Byte :=
  let body := [BitVec.ofNat 8 cmd] ++ beBytes 4 addr ++ data
  body ++ leBytes 1 (crc8 body)

/-! ## Accesses as commands -/

/-- A register write through a port: PCI Express needs the host interface, and the service port a released AO, where the write
is a frame (21 R690, R695, R699). The script's own accesses are no commands of a port. -/
def writeThrough (b : Bus) (addr : Nat) (whole : Bool) (v : Word) (s : State) : State :=
  match b with
  | .pcie => if hostLive s then (portWrite s .pcie addr whole v).2 else s
  | .service => if aoLive s then svcWriteFrame s (svcRequest 2 addr (beBytes 4 v.toNat)) else s
  | .script => s

/-- A register write through a port, with what it raises in one cycle of the collector (log 50). -/
def busWrite (s : State) (b : Bus) (addr : Nat) (whole : Bool) (v : Word) : State := inOneCycle (writeThrough b addr whole v) s

/-- The bytes of a word that a read asks for (21 R687). -/
def readBytes (enables : Nat) (v : Word) : Word :=
  v &&& ((if nbit enables 0 then 0xFF#32 else 0#32) ||| (if nbit enables 1 then 0xFF00#32 else 0#32)
    ||| (if nbit enables 2 then 0xFF0000#32 else 0#32) ||| (if nbit enables 3 then 0xFF000000#32 else 0#32))

/-- A register read through PCI Express, its answer among what leaves the block (21 R687, R688). -/
def pcieRead (s : State) (addr enables : Nat) (upset : Bool) : State :=
  let (_, v, s1) := portRead s .pcie addr upset
  emit s1 (.readData (readBytes enables v))

/-- A register read through a port. -/
def readThrough (b : Bus) (addr : Nat) (s : State) : State :=
  match b with
  | .pcie => if hostLive s then pcieRead s addr 15 false else s
  | .service => if aoLive s then svcReadFrame s (svcRequest 3 addr []) false else s
  | .script => s

/-- A register read through a port, with what it raises in one cycle of the collector (log 50). -/
def busRead (s : State) (b : Bus) (addr : Nat) : State := inOneCycle (readThrough b addr) s

/-- The first word from `p` on, among the next `n`, that the background checker reads: a covered word of a domain that is
On (21 R703). -/
def nextChecked (s : State) : Nat → Nat → Option Nat
  | 0, _ => none
  | n + 1, p => if covered p && windowServes s p then some p else nextChecked s n (p + 1)

/-- The background checker goes to its next word, and a pass ends where there is none (21 R703). -/
def checkNext (s : State) (p : Nat) : State :=
  match nextChecked s (65536 - p) p with
  | some q => modGlb s (fun g => { g with checkPos := q })
  | none => modGlb s (fun g => { g with checkPos := 0, passes := (g.passes + 1) % 65536 })

/-- The background checker reads its next word (21 R701 to R704). -/
def backgroundCheck (s : State) (upset : Bool) : State :=
  if !regBit s 0x00018 0 || !aoLive s then s
  else
    match nextChecked s (65536 - s.glb.checkPos) s.glb.checkPos with
    | none => checkNext s s.glb.checkPos
    | some p =>
      let (bad, s1) := checkParity s p upset
      checkNext (if bad then noteAccess s1 .pcie p else s1) (p + 1)

end Sys2Proof.Machine
end

