-- ==== Sys2Proof/Machine/Descriptors.lean ====
section
/-! DEFINITION. Descriptors as the ring engine fetches them (02 R68 to R80, R84, R94 to R97): the fetch with its DCRC and
BARRIER, the opcodes that every role takes, and what ABORT and FENCE wait for. -/

namespace Sys2Proof.Machine

/-! ## The descriptor of a row -/

/-- A descriptor with the row's opcode, its fields cut to their sizes (02 R72). -/
def descOf (opcode : Nat) (d : Desc) : Desc := { d with opcode := opcode, flags := d.flags % 256, body := fit 52 d.body }

/-- The NOP row carries NOP, and the codes that no opcode has (02 R57, R77, log 1). -/
def nopCode (d : Desc) : Nat := if 14 ≤ d.opcode % 256 then d.opcode % 256 else 0

/-- A QUERY descriptor with a code in byte 8. -/
def queryOf (code : Nat) (d : Desc) : Desc :=
  let b := (descOf 11 d).body
  { descOf 11 d with body := b.set 0 (BitVec.ofNat 8 code) }

/-- The code that the register row of QUERY carries: its own, or one that is reserved. -/
def queryReadCode (d : Desc) : Nat := if dByte d 8 = 2 ∨ dByte d 8 = 3 then 1 else dByte d 8

/-- Bytes 0 to 59 of a descriptor (02 R72). -/
def descBytes (d : Desc) : List Byte :=
  [BitVec.ofNat 8 d.opcode, BitVec.ofNat 8 d.flags] ++ leBytes 2 d.tag.toNat ++ leBytes 4 d.csn.toNat ++ d.body

/-- The check value that the descriptor in a ring's slot should carry (02 R75). -/
def dcrcOf (ring slot : Nat) (d : Desc) : Word := BitVec.ofNat 32 (crc32cFold 3 (ring + 256 * slot) (descBytes d))

/-- The role of a ring takes the opcode (02 R57). -/
def roleTakes (role opcode : Nat) : Bool :=
  [0, 11, 12, 13].contains opcode ||
    (match role with
      | 2 => decide (1 ≤ opcode) && decide (opcode ≤ 3)
      | 3 => decide (1 ≤ opcode) && decide (opcode ≤ 3)
      | 4 => opcode == 4
      | 5 => opcode == 4
      | 6 => opcode == 5 || opcode == 6
      | 7 => opcode == 7
      | 8 => opcode == 8
      | 9 => opcode == 9
      | 10 => opcode == 9
      | 11 => opcode == 10
      | 12 => opcode == 10
      | _ => false)

/-! ## The common opcodes -/

/-- The first offending field of a NOP (02 R77, R78). -/
def nopBad (d : Desc) : Option Nat := minDetail (flagsBad d) (firstNonZero d [(8, 52)])

/-- The first offending field of a QUERY (02 R77, R78). -/
def queryBad (d : Desc) : Option Nat :=
  minDetail (flagsBad d) (firstFail
    [ (!([1, 2, 3].contains (dByte d 8)), 8), ((firstNonZero d [(9, 3)]).isSome, (firstNonZero d [(9, 3)]).getD 9),
      (dByte d 8 == 1 && !wordAddr (dNat d 12 4), 12),
      ((firstNonZero d [(16, 44)]).isSome, (firstNonZero d [(16, 44)]).getD 16) ])

/-- QUERY acts: a register read, or the answer to a proposal (02 R78, R81, 20 R678). -/
def queryActs (s : State) (ring slot : Nat) (d : Desc) : State :=
  match queryBad d with
  | some k => completeAt s ring slot 0x10 k 0#32
  | none =>
    if dByte d 8 = 1 then
      let (_, v, s1) := portRead s .pcie (dNat d 12 4) false
      completeWord s1 ring slot 0 0 v 0#32
    else
      match proposalKind s (dNat d 12 4) with
      | none => completeAt s ring slot 0x24 0 0#32
      | some k =>
        match proposalOf s k with
        | none => completeAt s ring slot 0x24 0 0#32
        | some p =>
          completeAt (if dByte d 8 = 2 then approveProposal s k p else declineProposal s k p) ring slot 0 0 0#32

/-- The first offending field of a FENCE (02 R77, R78). -/
def fenceBad (d : Desc) : Option Nat :=
  minDetail (flagsBad d) (firstFail
    [ (decide (31 < dByte d 8) && dByte d 8 != 255, 8), (decide (3 < dByte d 9), 9),
      ((firstNonZero d [(10, 50)]).isSome, (firstNonZero d [(10, 50)]).getD 10) ])

/-- One fetched descriptor's entry changed. -/
def mapWork (s : State) (ring slot : Nat) (f : Work → Work) : State :=
  modRng s (fun g => { g with work := g.work.map (fun w => if w.ring == ring && w.slot == slot then f w else w) })

/-- FENCE begins to wait for what was fetched before it (02 R80). -/
def fenceActs (s : State) (ring slot : Nat) (d : Desc) : State :=
  match fenceBad d with
  | some k => completeAt s ring slot 0x10 k 0#32
  | none =>
    let q := if dByte d 8 = 255 then ring else dByte d 8
    let ws := (outstandingOn s q).filter (fun k => k != (ring, slot))
    mapWork s ring slot (fun w => { w with stage := 1, waits := ws, stitches := dByte d 9 })

/-- The FSN that a FENCE's completion carries (02 R80). -/
def fenceFsn (s : State) (d : Desc) : Word :=
  if nbit (dByte d 9) 0 then s.tg.a.fsn
  else if nbit (dByte d 9) 1 then (s.tg.get (timer s .b)).fsn
  else 0#32

/-! ## ABORT (02 R94 to R97) -/

/-- The first offending field of an ABORT (02 R77, R78). -/
def abortBad (d : Desc) : Option Nat :=
  minDetail (flagsBad d) (firstFail
    [ (decide (31 < dByte d 8), 8), (dByte d 9 != 0, 9),
      ((firstNonZero d [(12, 48)]).isSome, (firstNonZero d [(12, 48)]).getD 12) ])

/-- A fetched descriptor in execution leaves its unit with ABORTED, if it has not reached its completion point
(02 R95, R96). Whether a CRC_JOB has read its first data byte is a free value (log 77); the word of an aborted CRC_JOB or
NET_RX_BUF is 0 (02 R81; DESIGN CHOICE, log 63). Answers whether it has left. -/
def abortRunning (s : State) (w : Work) : Bool × State :=
  let r := w.ring
  let k := w.slot
  match w.desc.opcode with
  | 4 =>
    let h := if w.role = 4 then Head.a else Head.b
    if (s.shd.get h).lists.any (fun l => l.ring == r && l.slot == k && decide (l.stage < 2)) then
      (true, completeAt (dropList s h r k) r k 3 0 0#32)
    else (false, s)
  | 5 =>
    match s.pxc.cal with
    | some c => if c.ring = r ∧ c.slot = k ∧ c.stage < 2 then (true, calDrop s c 3 0) else (false, s)
    | none => (false, s)
  | 6 => if w.stage = 2 then (false, s) else (true, completeAt (dropLastWrite s r k) r k 3 0 0#32)
  | 7 =>
    if w.stage = 2 then (false, s)
    else
      let (b, s1) := drawBelow s 2
      if b = 1 then (false, stageWork s1 r k 2) else (true, completeWord s1 r k 3 0 0#32 0#32)
  | 8 =>
    if w.stage = 2 then (false, s)
    else (true, completeAt (modChain s (dByte w.desc 8) (fun e => { e with staged := none, ready := false, startDue := e.startDue && e.repeatDue })) r k 3 0 0#32)
  | 9 =>
    if w.stage = 2 then (false, s)
    else
      (true, completeAt (modPort s (dByte w.desc 8) (fun e => { e with txFrames := e.txFrames.filter (fun f => !(f.1 == r && f.2.1 == k)) })) r k 3 0 0#32)
  | 10 => (true, completeWord s r k 3 0 0#32 0#32)
  | 12 => (true, completeAt s r k 3 0 0#32)
  | _ => (false, s)

/-- The held member of a head's open change set, if there is one: no COMMIT that has closed its set (02 R73, R94). -/
def heldMember (s : State) (h : Head) : Option Work := s.rng.work.find? (fun w => w.heldFor h && w.closes.isNone)

/-- A held COMMIT and its members complete with ABORTED; its change set has been committed by its fetch (02 R86, R97). -/
def abortHeldCommit (s : State) (h : Head) (ms : List Member) : State :=
  let (t, s1) := stampHost s
  let csn := csnOf ms
  let s2 := completeSet s1 ms 3 0 false 0#32 t
  if csn = (s.rng.heads.get h).csn + 1#32 then
    recordOutcome (modRngHead s2 h (fun e => { e with csn := csn })) h { csn := csn, code := 3, detail := 0, fsn := 0#32, time := t }
  else s2

/-- A tag is among those of some members on a ring. -/
def tagIn (ring : Nat) (tag : Half) (ms : List Member) : Bool := ms.any (fun m => m.ring == ring && m.desc.tag == tag)

/-- The members of a held COMMIT's change set, itself the last. -/
def Work.set (w : Work) : List Member := w.closes.getD [] ++ [memberOf w]

/-- ABORT acts on a change set of a head (02 R94, R95, R97). -/
def abortMembers (s : State) (h : Head) (ring : Nat) (tag : Half) : Option State :=
  let rh := s.rng.heads.get h
  let held := heldMember s h
  let open_ := rh.opened ++ (held.map memberOf).toList
  match rh.replays.find? (tagIn ring tag), s.rng.work.find? (fun w => w.heldFor h && w.closes.isSome && tagIn ring tag w.set) with
  | some ms, _ =>
    let (t, s1) := stampHost s
    some (completeSet (modRngHead s1 h (fun e => { e with replays := e.replays.filter (fun x => x != ms) })) ms 3 0 false 0#32 t)
  | none, some w => some (abortHeldCommit (dropWork s w.ring w.slot) h w.set)
  | none, none =>
    if tagIn ring tag open_ then
      some (abortOpen (match held with
        | some w => dropWork s w.ring w.slot
        | none => s) h open_)
    else
      match rh.sets.find? (fun c => tagIn ring tag c.members) with
      | some c => if c.stage.committed then some (abortSet s h c) else none
      | none => none

/-- The descriptor that ABORT names leaves with ABORTED, or it is too late; an ABORT, and a CRC_JOB of no data, is past its
completion point as it is fetched (02 R94 to R96, 14 R516). A change set is looked for on either head, since the ring's role
may have changed since its members were fetched (02 R60). Answers whether one has left. -/
def abortTarget (s : State) (ring : Nat) (tag : Half) (own : Nat × Nat) : Bool × State :=
  match s.rng.work.find? (fun w => w.ring == ring && w.desc.tag == tag && (w.ring, w.slot) != own
      && !(w.held && isMember w.role w.desc w.dcrcOk)) with
  | some w =>
    if w.desc.opcode = 13 ∨ (w.role = 7 ∧ crcEmpty w.desc ∧ w.bad.isNone) then (false, s)
    else if w.held then (true, abortHeld s w)
    else abortRunning s w
  | none =>
    match bothHeads.findSome? (fun h => abortMembers s h ring tag) with
    | some s1 => (true, s1)
    | none => (false, s)

/-- ABORT acts (02 R94, R95). -/
def abortActs (s : State) (ring slot : Nat) (d : Desc) : State :=
  match abortBad d with
  | some k => completeAt s ring slot 0x10 k 0#32
  | none =>
    let r := abortTarget s (dByte d 8) (BitVec.ofNat 16 (dNat d 10 2)) (ring, slot)
    completeAt r.2 ring slot (if r.1 then 0 else 4) 0 0#32

/-! ## Execution -/

/-- The check that an opcode meets at its fetch, in a ring of its role: the first offending field (13 R496, 14 R513). -/
def fetchBad (s : State) (role : Nat) (d : Desc) : Option Nat :=
  if role = 7 ∧ d.opcode = 7 then crcJobBad s d else if role = 8 ∧ d.opcode = 8 then laceBad s d else none

/-- A descriptor outside change sets executes; its entry is among the fetched ones, with the role that its ring had at the fetch
(02 R57, R60, R76, R77). -/
def workActs (s : State) (w : Work) : State :=
  let r := w.ring
  let k := w.slot
  let role := w.role
  if !w.dcrcOk then completeAt s r k 0x11 0 0#32
  else if !roleTakes role w.desc.opcode then completeAt s r k 0x10 0 0#32
  else
    match w.desc.opcode with
    | 0 => match nopBad w.desc with
      | some n => completeAt s r k 0x10 n 0#32
      | none => completeAt s r k 0 0 0#32
    | 4 => objectsFetch s r k w.desc (if role = 4 then .a else .b)
    | 5 => calFetch s r k w.desc
    | 6 => lastWriteFetch s r k w.desc w.data
    | 7 => crcFetch s r k w.desc w.bad
    | 8 => laceFetch s r k w.desc w.bad
    | 9 => txFetch s (role - 9) r k w.desc
    | 10 => rxFetch s (role - 11) r k w.desc
    | 11 => queryActs s r k w.desc
    | 12 => fenceActs s r k w.desc
    | 13 => abortActs s r k w.desc
    | _ => completeAt s r k 0x10 0 0#32

/-- A fetched descriptor goes to its change set, or executes (02 R84). A held COMMIT takes the members that its fetch closed
with it. -/
def runWork (s : State) (w : Work) : State :=
  match roleHead w.role with
  | some h =>
    if isMember w.role w.desc w.dcrcOk then
      if w.closes.isSome then commitFetched (dropWork s w.ring w.slot) h w.set (memberOf w)
      else memberFetch (dropWork s w.ring w.slot) h (memberOf w)
    else workActs (stageWork s w.ring w.slot 1) w
  | none => workActs (stageWork s w.ring w.slot 1) w

/-- The unit that a descriptor of a role needs cannot take it yet, so that it is not fetched: its block is in reset or off
(log 48), 16 change sets wait (02 R87), 8 lists are held (05 R186), the staging buffer is in use (07 R253, 13 R497), or the
context is held (14 R510). -/
def unitBusy (s : State) (role : Nat) (d : Desc) : Bool :=
  let common := [0, 11, 12, 13].contains d.opcode
  let off := match role with
    | 2 => !pixLive s
    | 3 => !pixLive s
    | 4 => !pixLive s
    | 5 => !pixLive s
    | 6 => !(pixLive s && lastLive s)
    | 7 => !crcRuns s
    | 8 => !lceRuns s
    | 9 => !netLive s
    | 10 => !netLive s
    | 11 => !netLive s
    | 12 => !netLive s
    | _ => false
  (off && !common) ||
    (match role with
      | 2 => decide (16 ≤ s.rng.heads.a.sets.length)
      | 3 => decide (16 ≤ s.rng.heads.b.sets.length)
      | 4 => decide (8 ≤ listsHeld s .a)
      | 5 => decide (8 ≤ listsHeld s .b)
      | 6 => d.opcode == 5 && s.pxc.cal.isSome
      | 7 => d.opcode == 7 && decide (dByte d 8 < 4) && crcHeld s (dByte d 8)
      | 8 => d.opcode == 8 && laceStagingTaken s d
      | _ => false)

/-! ## Waiting: BARRIER and FENCE (02 R73, R80) -/

/-- Nothing that a descriptor waits for is outstanding any more. -/
def waitsOver (s : State) (w : Work) : Bool := w.waits.all (fun k => !(outstanding s).contains k)

/-- A held descriptor may execute: its own hold of a context or of a staging buffer does not stop it (13 R497, 14 R510). -/
def heldDue (s : State) (w : Work) : Bool :=
  w.held && waitsOver s w && !unitBusy { s with rng := { s.rng with work := s.rng.work.filter (fun x => x != w) } } w.role w.desc

/-- A FENCE has nothing more to wait for before its stitches, or not even those. -/
def fenceDue (s : State) (w : Work) : Bool :=
  w.desc.opcode == 12 && w.dcrcOk && ((w.stage == 1 && waitsOver s w) || (w.stage == 2 && w.stitches == 0))

/-- A FENCE goes on: it begins to wait for its stitches, or completes. -/
def fenceGoes (s : State) (w : Work) : State :=
  if w.stage = 1 ∧ w.stitches ≠ 0 then stageWork s w.ring w.slot 2
  else completeAt s w.ring w.slot 0 0 (fenceFsn s w.desc)

/-- The oldest descriptor that can go on does so, as long as there is one. -/
def settleRings : Nat → State → State
  | 0, s => s
  | n + 1, s =>
    match s.rng.work.find? (fun w => heldDue s w || fenceDue s w) with
    | none => s
    | some w => settleRings n (if w.held then runWork s w else fenceGoes s w)

/-- FENCEs that have nothing more to wait for complete, while the host side is down (02 R102). -/
def settleFences : Nat → State → State
  | 0, s => s
  | n + 1, s =>
    match s.rng.work.find? (fenceDue s) with
    | none => s
    | some w => settleFences n (fenceGoes s w)

/-- Descriptors that waited for completions go on: all of them while the host side serves, and those that need no more of it
while it is down (02 R73, R80, R102). -/
def ringSettle (s : State) : State :=
  if hostReads s then settleRings (3 * s.rng.work.length) s else settleFences (2 * s.rng.work.length) s

/-- A head's stitch is one that waiting FENCEs asked for (02 R80): those that had begun to wait for it. -/
def fencesStitch (before s : State) (h : Head) : State :=
  let due := before.rng.work.filter (fun w => w.stage == 2 && w.desc.opcode == 12 && nbit w.stitches (Head.idx h))
  due.foldl (fun acc w => mapWork acc w.ring w.slot (fun x => { x with stitches := setNBit x.stitches (Head.idx h) false })) s

/-! ## The fetch (02 R68, R69, R73, R75, R76) -/

/-- What a BARRIER descriptor waits for: every earlier descriptor of its ring, but for the members of its own change set
(02 R73). -/
def barrierWaits (s : State) (ring : Nat) (d : Desc) (ok : Bool) : List (Nat × Nat) :=
  let own := match roleHead (ringRole s ring) with
    | some h => if isMember (ringRole s ring) d ok then (s.rng.heads.get h).opened.map Member.key else []
    | none => []
  (outstandingOn s ring).filter (fun k => !own.contains k)

/-- A member of another change set discards the open one as it arrives, held or not (02 R85). -/
def discardOther (s : State) (ring : Nat) (d : Desc) (ok : Bool) : State :=
  match roleHead (ringRole s ring) with
  | none => s
  | some h =>
    let rh := s.rng.heads.get h
    match openCsn rh.opened with
    | some x => if isMember (ringRole s ring) d ok && rh.abortCsn.isNone && d.csn != x then discardSet s h ring else s
    | none => s

/-- The DCRC of an arriving descriptor is checked, an armed injection inverting its bit 0 (02 R75, R76, 15 R543): whether it
passes, and the state with what was raised. -/
def dcrcCheck (s : State) (ring slot : Nat) (d : Desc) : Bool × State :=
  if !bit (ringCfg s ring) 1 then (true, s)
  else
    let hit := injHits s 10 ring
    let s1 := if hit then spendInj s else s
    let got := if hit then d.dcrc ^^^ 1#32 else d.dcrc
    if got = dcrcOf ring slot d then (true, s1) else (false, raiseInj s1 10 3 0 hit)

/-- A COMMIT that its BARRIER holds closes the open change set of its head by its fetch, where no abort covers it (02 R84,
R97): the members that it takes with it, and the state without them. -/
def commitCloses (s : State) (role : Nat) (d : Desc) : Option (List Member) × State :=
  match roleHead role with
  | some h =>
    let rh := s.rng.heads.get h
    if d.opcode = 3 ∧ rh.abortCsn ≠ some d.csn then (some rh.opened, modRngHead s h (fun e => { e with opened := [], abortCsn := none }))
    else (none, s)
  | none => (none, s)

/-- The ring engine fetches a descriptor from a ring, if the ring can fetch and its unit can take it. -/
def fetchDesc (s : State) (ring : Nat) (d : Desc) (data : HostRead) : State := inOneCycle (fun s =>
  let role := ringRole s ring
  if !ringFetches s ring || unitBusy s role d then s
  else
    let slot := (ringOf s ring).devIdx
    let cpl := ringCpl s ring
    let (ok, s1) := dcrcCheck (takeSlot s ring) ring slot d
    let barrier := ok && descFlag d 2
    let s2 := if barrier then discardOther s1 ring d ok else s1
    let waits := if barrier then barrierWaits s2 ring d ok else []
    let (closes, s3) := if waits.isEmpty then (none, s2) else commitCloses s2 role d
    let w : Work :=
      { ring := ring, slot := slot, role := role, cpl := cpl, desc := d, dcrcOk := ok, stage := 0, waits := waits, stitches := 0,
        data := data, bad := fetchBad s role d, closes := closes }
    let s3 := modRng s3 (fun g => { g with work := g.work ++ [w] })
    if w.waits.isEmpty then ringSettle (runWork s3 w) else ringSettle s3) s

/-- A row whose descriptor has an opcode, fetched. -/
def fetchRow (s : State) (ring opcode : Nat) (d : Desc) : State := fetchDesc s ring (descOf opcode d) (.data [])

end Sys2Proof.Machine
end

