-- ==== Sys2Proof/Machine/Boot.lean ====
section
/-! DEFINITION. What each record of the boot script does (19 R650 to R652). A record that begins acts on the record in hand
of the script in LAST; a row that names another record has no effect (log 45). -/

namespace Sys2Proof.Machine

/-- A register access of the script that fails its record: the doorbell page, the MSI-X table or PBA, and the RST block
(19 R650: reason 6). -/
def recForbidden (addr : Nat) : Bool :=
  let idx := addr / 4
  inDoorbells idx || inMsix idx || idx / 1024 == 22

/-- The record in hand has acted and the next one is in hand, if its own accesses have not ended the script. -/
def recActed (s : State) : State := if s.rst.boot.state = 2 then recordDone s else s

/-- A record begins if it is the one in hand: it is read from LAST, an unreadable one is reason 7 and a malformed one reason
2 (19 R650, R653). -/
def recBegins (s : State) (opcode : Nat) (act : State → State) : State :=
  if s.rst.boot.state ≠ 2 ∨ s.rst.boot.waiting then s
  else if !recReadable s then
    scriptFails (lastTouch s (slotStart s.rst.boot.slot + s.rst.boot.pos) (4 * Nat.max 1 (recLength s))) 7
  else if recBad s then scriptFails s 2
  else if recOpcode s = opcode then act s
  else s

/-- The words of a WRITE are written in order, up to one that is forbidden. -/
def writeWords (addr : Nat) : List Word → State → State
  | [], s => recActed s
  | v :: vs, s =>
    if recForbidden addr then scriptFails s 6
    else writeWords (addr + 4) vs (portWrite s .script addr true v).2

/-- WRITE (19 R650): its words come from the record or from LAST. -/
def recWrite (s : State) : State :=
  let n := fld (recWord s 2) 12 0
  let addr := (recWord s 1).toNat
  if nbit (recFlags s) 0 then
    let a := regionStart (recWord s 3).toNat + (recWord s 4).toNat
    if lastReadable s a (4 * n) then
      writeWords addr ((List.range n).map (fun i => BitVec.ofNat 32 (leNat (lastBytes s (a + 4 * i) 4)))) s
    else scriptFails (lastTouch s a (4 * n)) 7
  else writeWords addr ((List.range n).map (fun i => recWord s (3 + i))) s

/-- MASK_WRITE (19 R650). -/
def recMaskWrite (s : State) : State :=
  let addr := (recWord s 1).toNat
  if recForbidden addr then scriptFails s 6
  else
    let (_, v, s1) := portRead s .script addr false
    recActed (portWrite s1 .script addr true (merge v (recWord s 3) (recWord s 2))).2

/-- One read of a POLL (19 R650). -/
def recPollRead (s : State) : State :=
  if recWaits s 3 then
    let (_, v, s1) := portRead s .script (recWord s 1).toNat false
    if v &&& recWord s 2 = recWord s 3 then recordDone s1 else s1
  else s

/-- SLIP_SEARCH begins (19 R650). -/
def recSlipSearch (s : State) : State :=
  slipSearchGo (modBoot (recordWaits s) (fun b => { b with lanes := recLanes s }))

/-- LOAD_TILES begins (19 R652). An entry that is not in the region or cannot be read is reason 7 (log 45). -/
def recLoadTiles (s : State) : State :=
  if (recEntries s).all (fun e => entryReadable s e.2) then
    let s1 := noteEntries (recordWaits s) (recHead s)
    loadTilesGo ((recTiles s).foldl (fun acc t => setRecTile acc t 1) s1) none
  else recordFails s 7

/-- WAIT ends (19 R650). -/
def recWaitEnds (s : State) : State := if recWaits s 6 then recordDone s else s

end Sys2Proof.Machine
end

