-- ==== Sys2Proof/Machine/CmdRings.lean ====
section
/-! DEFINITION. The commands of the register map's own row, of the rings and of the descriptors (02, 21 R686): each is one
call of a shared operation, at the register or with the opcode that its row names. -/

namespace Sys2Proof.Machine

/-- What a command answers: the next state. -/
abbrev Answer : Type := Host.Outcome State Fault Refusal

/-- A command's register write, after which descriptors that can go on do (02 R73, R80). -/
def writeSettles (b : Bus) (addr : Nat) (v : Word) (s : State) : Answer := .next (ringSettle (busWrite s b addr true v))

/-- A command's register write that completes no descriptor. -/
def writeAlone (b : Bus) (addr : Nat) (v : Word) (s : State) : Answer := .next (busWrite s b addr true v)

/-- A word with bit `i` set. -/
def withBit (v : Word) (i : Nat) : Word := v ||| bitAt i true

/-- A word with bit `i` clear. -/
def withoutBit (v : Word) (i : Nat) : Word := v &&& ~~~(bitAt i true)

/-- Byte address of `RNG_Qn_CFG` (02 R60). -/
def ringCfgAddr (n : Nat) : Nat := 0x03108 + 0x20 * (n % 32)

/-- REG_WRITE (21 R686, R687): a write of one word, whole or in part. -/
def execRegWrite (bus : Bus) (addr enables : Nat) (value : Word) (s : State) : Answer :=
  .next (ringSettle (busWrite s bus addr (enables % 16 == 15) value))

/-- DOORBELL (02 R66, R67). -/
def execDoorbell (bus : Bus) (ring : Nat) (whole : Bool) (value : Word) (s : State) : Answer :=
  .next (ringSettle (busWrite s bus (0x02000 + 8 * (ring % 32)) whole value))

/-- RING_ENABLE (02 R61). -/
def execRingEnable (bus : Bus) (ring : Nat) (value : Word) (s : State) : Answer :=
  writeSettles bus (ringCfgAddr ring) (withBit value 0) s

/-- RING_DISABLE (02 R98). -/
def execRingDisable (bus : Bus) (ring : Nat) (value : Word) (s : State) : Answer :=
  writeSettles bus (ringCfgAddr ring) (withoutBit value 0) s

/-- RING_ENGINE_ENABLE (02 R59). -/
def execRingEngineEnable (bus : Bus) (s : State) : Answer := writeSettles bus 0x03000 1#32 s

/-- RING_ENGINE_DISABLE (02 R99). -/
def execRingEngineDisable (bus : Bus) (s : State) : Answer := writeSettles bus 0x03000 0#32 s

/-- JOURNAL_RESUME (02 R102, R103). -/
def execJournalResume (bus : Bus) (s : State) : Answer := writeSettles bus 0x03008 1#32 s

/-- JOURNAL_FORGET (02 R102, R103). -/
def execJournalForget (bus : Bus) (s : State) : Answer := writeSettles bus 0x03008 2#32 s

/-- NOP (02 R77), and the codes that no opcode has, which are malformed (log 1). -/
def execNop (ring : Nat) (d : Desc) (s : State) : Answer := .next (fetchRow s ring (nopCode d) d)

/-- LAYER_SET (04 R133). -/
def execLayerSet (ring : Nat) (d : Desc) (s : State) : Answer := .next (fetchRow s ring 1 d)

/-- LAYER_DATA (04 R146). -/
def execLayerData (ring : Nat) (d : Desc) (s : State) : Answer := .next (fetchRow s ring 2 d)

/-- COMMIT (02 R86 to R88). -/
def execCommit (ring : Nat) (d : Desc) (s : State) : Answer := .next (fetchRow s ring 3 d)

/-- PARAM_BLOCK_READ_DONE (02 R88). -/
def execParamBlockReadDone (head : Head) (csn : Word) (index : Nat) (data : HostRead) (s : State) : Answer :=
  .next (inOneCycle (fun s => ringSettle (blockRead s head csn index data)) s)

/-- LAYER_DATA_TRANSFER_END (02 R89). -/
def execLayerDataTransferEnd (head : Head) (csn : Word) (index : Nat) (data : HostRead) (s : State) : Answer :=
  .next (inOneCycle (fun s => ringSettle (transferEnd s head csn index data)) s)

/-- OBJECTS (05 R180). -/
def execObjects (ring : Nat) (d : Desc) (s : State) : Answer := .next (fetchRow s ring 4 d)

/-- OBJECTS_LIST_READ_DONE (05 R183). -/
def execObjectsListReadDone (head : Head) (slot : Nat) (data : HostRead) (s : State) : Answer :=
  .next (inOneCycle (fun s => if hostReads s && pixLive s then ringSettle (listReadDone s head slot data) else s) s)

/-- CAL_UPLOAD (07 R251). -/
def execCalUpload (ring : Nat) (d : Desc) (s : State) : Answer := .next (fetchRow s ring 5 d)

/-- CAL_UPLOAD_VALIDATED (07 R252). -/
def execCalUploadValidated (data : HostRead) (s : State) : Answer := .next (inOneCycle (fun s => ringSettle (calRead s data)) s)

/-- CAL_MERGE_END (07 R252). -/
def execCalMergeEnd (s : State) : Answer := .next (inOneCycle (fun s => ringSettle (calMergeEnds s)) s)

/-- LAST_WRITE (20 R665): its data is read as it is fetched (02 R93). -/
def execLastWrite (ring : Nat) (d : Desc) (data : HostRead) (s : State) : Answer := .next (fetchDesc s ring (descOf 6 d) data)

/-- CRC_JOB (14 R513). -/
def execCrcJob (ring : Nat) (d : Desc) (s : State) : Answer := .next (fetchRow s ring 7 d)

/-- CRC_JOB_END (14 R514). -/
def execCrcJobEnd (ctx : Nat) (data : HostRead) (s : State) : Answer := .next (inOneCycle (fun s => ringSettle (crcJobEnds s ctx data)) s)

/-- LACE_FRAME (13 R496). -/
def execLaceFrame (ring : Nat) (d : Desc) (s : State) : Answer := .next (fetchRow s ring 8 d)

/-- NET_TX (11 R418). -/
def execNetTx (ring : Nat) (d : Desc) (s : State) : Answer := .next (fetchRow s ring 9 d)

/-- NET_RX_BUF (11 R424). -/
def execNetRxBuf (ring : Nat) (d : Desc) (s : State) : Answer := .next (fetchRow s ring 10 d)

/-- QUERY of a register (02 R78, R81). -/
def execQueryReadRegister (ring : Nat) (d : Desc) (s : State) : Answer :=
  .next (fetchDesc s ring (queryOf (queryReadCode d) d) (.data []))

/-- QUERY that approves a proposal (20 R678). -/
def execQueryApproveProposal (ring : Nat) (d : Desc) (s : State) : Answer := .next (fetchDesc s ring (queryOf 2 d) (.data []))

/-- QUERY that declines a proposal (20 R678). -/
def execQueryDeclineProposal (ring : Nat) (d : Desc) (s : State) : Answer := .next (fetchDesc s ring (queryOf 3 d) (.data []))

/-- FENCE (02 R80). -/
def execFence (ring : Nat) (d : Desc) (s : State) : Answer := .next (fetchRow s ring 12 d)

/-- ABORT (02 R94). -/
def execAbort (ring : Nat) (d : Desc) (s : State) : Answer := .next (fetchRow s ring 13 d)

/-- LTR_HOLDOFF_EXPIRY (02 R52). -/
def execLtrHoldoffExpiry (s : State) : Answer :=
  .next (if hostLive s && s.hif.ltrHoldoff then ringSettle (commitsAfterLtr (ltrExpiry s)) else s)

/-- IRQ_COALESCE_TIMEOUT (02 R62, R63): of a COMPLETE or RECORD ring with a time limit and an entry not yet signalled. -/
def execIrqCoalesceTimeout (ring : Nat) (s : State) : Answer :=
  let a := 0x0310C + 0x20 * ring
  .next (if hostLive s && decide (ring < 32) && ringKind s ring != 0 && regBit s a 7 && regFld s a 31 16 != 0 && (ringOf s ring).unsignalled != 0
    then ringSignal s ring else s)

/-- PCIE_AER_UNCORR (02 R48). -/
def execPcieAerUncorr (s : State) : Answer := .next (inOneCycle (fun s => if hostLive s then raise s 9 3 0 else s) s)

end Sys2Proof.Machine
end

