-- ==== Sys2Proof/Machine/CmdFaults.lean ====
section
/-! DEFINITION. The commands of the fault collector and of the safety functions (15, 16). -/

namespace Sys2Proof.Machine

/-- FAULT_ASSERT (15 R528). -/
def execFaultAssert (source part heads detail addr : Nat) (s : State) : Answer :=
  .next (inOneCycle (fun s => assertSource s source part heads detail addr) s)

/-- FAULT_CONDITION_CLEAR (15 R538). -/
def execFaultConditionClear (source part : Nat) (s : State) : Answer := .next (clearCondition s source part)

/-- EVENT_OUTPUT (15 R539). -/
def execEventOutput (s : State) : Answer := .next (eventOut s)

/-- STICKY_CLEAR (15 R523). -/
def execStickyClear (bus : Bus) (high : Bool) (value : Word) (s : State) : Answer :=
  writeAlone bus (if high then 0x12014 else 0x12010) value s

/-- COUNTER_CLEAR (15 R525). -/
def execCounterClear (bus : Bus) (high : Bool) (value : Word) (s : State) : Answer :=
  writeAlone bus (if high then 0x120A4 else 0x120A0) value s

/-- FIRST_FAULT_CLEAR (15 R536). -/
def execFirstFaultClear (bus : Bus) (value : Word) (s : State) : Answer := writeAlone bus 0x12060 value s

/-- SEVERITY_WRITE (15 R527). -/
def execSeverityWrite (bus : Bus) (k : Nat) (value : Word) (s : State) : Answer := writeAlone bus (0x12020 + 4 * (k % 8)) value s

/-- INJECT_ARM (15 R543). -/
def execInjectArm (bus : Bus) (value : Word) (s : State) : Answer := writeAlone bus 0x12080 (withBit value 31) s

/-- COLLECTOR_SELF_FAIL (15 R541). -/
def execCollectorSelfFail (s : State) : Answer := .next (inOneCycle (fun s => selfFail s false) s)

/-- FAULT_RESET_REQUEST (15 R528). -/
def execFaultResetRequest (s : State) : Answer := .next (faultReset s)

/-- CLOCK_MONITOR_GATE (15 R534). -/
def execClockMonitorGate (clock count : Nat) (s : State) : Answer := .next (inOneCycle (fun s => clockGate s clock count) s)

/-- SAFE_N_ASSERT (16 R556). -/
def execSafeNAssert (s : State) : Answer := .next (inOneCycle (fun s => safeNOn s) s)

/-- SAFE_N_RELEASE (16 R556). -/
def execSafeNRelease (s : State) : Answer := .next (safeNOff s)

/-- AUTO_CLEAR_EXPIRY (16 R558). -/
def execAutoClearExpiry (source : Nat) (s : State) : Answer := .next (autoClear s source)

/-- HEARTBEAT_WRITE (16 R560). -/
def execHeartbeatWrite (bus : Bus) (value : Word) (s : State) : Answer := writeAlone bus 0x13040 value s

/-- HEARTBEAT_GRACE_END (16 R561). -/
def execHeartbeatGraceEnd (s : State) : Answer := .next (hbGraceEnds s)

/-- HEARTBEAT_TIMEOUT (16 R561). -/
def execHeartbeatTimeout (s : State) : Answer := .next (inOneCycle (fun s => hbTimesOut s) s)

/-- WATCHDOG_EXPIRY (16 R562). -/
def execWatchdogExpiry (index : Nat) (s : State) : Answer := .next (inOneCycle (fun s => watchdogExpires s index) s)

/-- UNLOCK_OPEN (16 R575). -/
def execUnlockOpen (bus : Bus) (s : State) : Answer := writeAlone bus 0x1300C 1#32 s

/-- UNLOCK_COMMIT (16 R577). -/
def execUnlockCommit (bus : Bus) (s : State) : Answer := writeAlone bus 0x1300C 2#32 s

/-- SAFECFG_COMMIT_END (16 R577). -/
def execSafecfgCommitEnd (written : Bool) (s : State) : Answer := .next (inOneCycle (fun s => sessionCommitEnd s written) s)

/-- UNLOCK_ABANDON (16 R576). -/
def execUnlockAbandon (bus : Bus) (s : State) : Answer := writeAlone bus 0x1300C 3#32 s

/-- SESSION_TIMEOUT (16 R576). -/
def execSessionTimeout (s : State) : Answer := .next (if ctrlLive s then endSession s true else s)

/-- LOCKOUT_END (16 R575). -/
def execLockoutEnd (s : State) : Answer := .next (if ctrlLive s then modSaf s (fun e => { e with lockout := false }) else s)

/-- SAFECFG_CHECK (16 R571). -/
def execSafecfgCheck (upset : Bool) (s : State) : Answer := .next (inOneCycle (fun s => integrityCheck s upset) s)

end Sys2Proof.Machine
end

