-- ==== Sys2Proof/Machine/CmdLanes.lean ====
section
/-! DEFINITION. The commands of the lanes (09); a boot record that waits for a lane goes on (19 R650). -/

namespace Sys2Proof.Machine

/-- SLIP_START (09 R326). -/
def execSlipStart (bus : Bus) (lane : Nat) (value : Word) (s : State) : Answer :=
  writeAlone bus (laneBase (lane % 18)) (withBit value 12) s

/-- CDR_LOCK (09 R326). -/
def execCdrLock (lane : Nat) (s : State) : Answer := .next (recordGoes (cdrLocks s lane) none)

/-- SLIP_SEARCH_END (09 R326). -/
def execSlipSearchEnd (lane : Nat) (bits : List Bool) (groups : List Group) (s : State) : Answer :=
  .next (inOneCycle (fun s =>
    let s1 := searchEnds s lane bits groups
    if (laneOf s lane).searching && !(laneOf s1 lane).searching then
      recordGoes (if (laneOf s1 lane).slipFail && !(laneOf s1 lane).aligned then slipSearchFailed s1 lane else s1) none
    else s1) s)

/-- LANE_LOST (09 R329). -/
def execLaneLost (lane : Nat) (groups : List Group) (drift : Int) (cdr : Bool) (s : State) : Answer :=
  .next (inOneCycle (fun s => laneMeets s lane groups drift cdr) s)

/-- EQ_UPDATE (09 R333). -/
def execEqUpdate (lane : Nat) (upset : Bool) (s : State) : Answer :=
  .next (inOneCycle (fun s => eqPoint s lane upset) s)

/-- EYE_SCAN_START (09 R337). -/
def execEyeScanStart (lane : Nat) (s : State) : Answer := .next (scanStarts s lane)

/-- EYE_SCAN_END (09 R339). -/
def execEyeScanEnd (lane : Nat) (clean : DWord) (groups : List Group) (drift : Int) (s : State) : Answer :=
  .next (inOneCycle (fun s => scanEnds s lane clean groups drift) s)

/-- TRIM_STEP (09 R339). -/
def execTrimStep (lane : Nat) (s : State) : Answer := .next (trimMoves s lane)

/-- LANE_PSTATE (09 R343). -/
def execLanePstate (bus : Bus) (lane : Nat) (value : Word) (s : State) : Answer := writeAlone bus (laneBase (lane % 18)) value s

/-- LANE_ACTIVE (09 R344). -/
def execLaneActive (e : LaneExit) (s : State) : Answer :=
  .next (inOneCycle (fun s => recordGoes (laneReaches s e.lane e.upset) none) s)

/-- CLEAR_COUNTS (09 R353). -/
def execClearCounts (bus : Bus) (block : Nat) (value : Word) (s : State) : Answer :=
  writeAlone bus (laneBlockBase (block % 3)) (withBit value 16) s

end Sys2Proof.Machine
end

