-- ==== Sys2Proof/Machine/CmdLoops.lean ====
section
/-! DEFINITION. The commands of the control engine, of the LACE chains and of the check units (12 to 14). -/

namespace Sys2Proof.Machine

/-- LOOP_SAMPLE (12 R458). -/
def execLoopSample (n : Nat) (s : State) : Answer := .next (loopSampleNow s n)

/-- LOOP_COMPUTE_START (12 R458). -/
def execLoopComputeStart (s : State) : Answer := .next (loopComputeBegin s)

/-- LOOP_COMPUTE_END (12 R474). -/
def execLoopComputeEnd (s : State) : Answer := .next (inOneCycle (fun s => if cleRuns s then loopComputeFinish s else s) s)

/-- LOOP_OUTPUT (12 R476). -/
def execLoopOutput (n : Nat) (s : State) : Answer := .next (loopOutputNow s n)

/-- LOOP_ENABLE (12 R487). -/
def execLoopEnable (bus : Bus) (n : Nat) (value : Word) (s : State) : Answer := writeAlone bus (loopBase (n % 8)) (withBit value 0) s

/-- LOOP_DISABLE (01 R36). -/
def execLoopDisable (bus : Bus) (n : Nat) (value : Word) (s : State) : Answer :=
  writeAlone bus (loopBase (n % 8)) (withoutBit value 0) s

/-- LOOP_CLEAR (12 R489). -/
def execLoopClear (bus : Bus) (n : Nat) (value : Word) (s : State) : Answer := writeAlone bus (loopBase (n % 8)) (withBit value 5) s

/-- LOOP_COMMIT (12 R488). -/
def execLoopCommit (bus : Bus) (value : Word) (s : State) : Answer := writeAlone bus 0x0F004 value s

/-- DRIVE_TOTAL_RECEIVE (12 R464). -/
def execDriveTotalReceive (head : Head) (s : State) : Answer := .next (totalArrives s head)

/-- ADC_CONVERSION_START (12 R465). -/
def execAdcConversionStart (c : Nat) (s : State) : Answer := .next (adcStart s c)

/-- ADC_CONVERSION_END (12 R465). -/
def execAdcConversionEnd (c : Nat) (code : Half) (s : State) : Answer := .next (adcEnd s c code)

/-- IMU_TRANSACTION_START (12 R468). -/
def execImuTransactionStart (s : State) : Answer := .next (imuStart s)

/-- IMU_TRANSACTION_END (12 R469). -/
def execImuTransactionEnd (data : List Byte) (s : State) : Answer := .next (imuEnd s data)

/-- SETP_PERIOD_START (12 R481). -/
def execSetpPeriodStart (n : Nat) (s : State) : Answer := .next (setpStart s n)

/-- Byte address of `CLE_SETP_n` for n below 6, of `CLE_LEVEL_A` for 6 and `CLE_LEVEL_B` for 7 (12 R490). -/
def setpointAddr (n : Nat) : Nat := if n < 6 then 0x0F040 + 4 * n else if n = 6 then 0x0F060 else 0x0F064

/-- SETPOINT_WRITE (12 R482). -/
def execSetpointWrite (bus : Bus) (n : Nat) (value : Word) (s : State) : Answer := writeAlone bus (setpointAddr n) value s

/-- LEN_WRITE (12 R484). -/
def execLenWrite (bus : Bus) (value : Word) (s : State) : Answer := writeAlone bus 0x0F008 value s

/-- LACE_FRAME_READY (13 R497). -/
def execLaceFrameReady (chain : Nat) (data : HostRead) (s : State) : Answer := .next (inOneCycle (fun s => ringSettle (laceReady s chain data)) s)

/-- LACE_TRIGGER (13 R498). -/
def execLaceTrigger (chain : Nat) (s : State) : Answer := .next (inOneCycle (fun s => laceTriggerNow s chain) s)

/-- LACE_FRAME_START (13 R498). -/
def execLaceFrameStart (chain : Nat) (s : State) : Answer := .next (inOneCycle (fun s => ringSettle (laceStarts s chain)) s)

/-- LACE_GAP_END (13 R500). -/
def execLaceGapEnd (chain : Nat) (s : State) : Answer := .next (inOneCycle (fun s => ringSettle (laceGapEnds s chain)) s)

/-- LACE_COMMIT (13 R503). -/
def execLaceCommit (bus : Bus) (value : Word) (s : State) : Answer := writeAlone bus 0x10000 value s

/-- LACE_DISABLE (13 R504). -/
def execLaceDisable (bus : Bus) (chain : Nat) (value : Word) (s : State) : Answer :=
  writeAlone bus (lceBase (chain % 2)) (withoutBit value 0) s

/-- PRESET_LOAD (14 R512). -/
def execPresetLoad (bus : Bus) (ctx : Nat) (value : Word) (s : State) : Answer := writeAlone bus (crcBase (ctx % 4)) value s

end Sys2Proof.Machine
end

