-- ==== Sys2Proof/Machine/CmdMemory.lean ====
section
/-! DEFINITION. The commands of the light memory (03). -/

namespace Sys2Proof.Machine

/-- BUDGET_PERIOD_START (03 R120): with what the clients used in the period that ends and what the scrubber finds. -/
def execBudgetPeriodStart (used : List (Nat × Nat)) (errors : List (Nat × Bool)) (s : State) : Answer :=
  .next (inOneCycle (fun s => if memLive s then periodStart s used errors else s) s)

/-- ECC_WRITEBACK (03 R116). -/
def execEccWriteback (s : State) : Answer := .next (inOneCycle (fun s => if memLive s then writeBackOne s else s) s)

/-- BUDGET_WRITE (03 R122). -/
def execBudgetWrite (bus : Bus) (client : Nat) (value : Word) (s : State) : Answer :=
  writeAlone bus (0x04040 + 4 * (client % 12)) value s

/-- REGION_WRITE (03 R109). -/
def execRegionWrite (bus : Bus) (k : Nat) (value : Word) (s : State) : Answer := writeAlone bus (0x04100 + 4 * (k % 11)) value s

/-- SCRUB_ENABLE (03 R119). -/
def execScrubEnable (bus : Bus) (value : Word) (s : State) : Answer := writeAlone bus 0x04000 (withBit value 0) s

/-- SCRUB_DISABLE (03 R119). -/
def execScrubDisable (bus : Bus) (value : Word) (s : State) : Answer := writeAlone bus 0x04000 (withoutBit value 0) s

/-- BANK_RETIRE_START (03 R129). -/
def execBankRetireStart (s : State) : Answer := .next (if memLive s then retireStart s else s)

/-- BANK_COPY_END (03 R130). -/
def execBankCopyEnd (s : State) : Answer := .next (if memLive s then copyEnd s else s)

end Sys2Proof.Machine
end

