-- ==== Sys2Proof/Machine/CmdNetwork.lean ====
section
/-! DEFINITION. The commands of the network ports and of telegram comparison (11 R413 to R455). -/

namespace Sys2Proof.Machine

/-- NET_PORT_ENABLE (11 R454). -/
def execNetPortEnable (bus : Bus) (port : Nat) (value : Word) (s : State) : Answer :=
  writeAlone bus (netBase (port % 2)) (withBit value 0) s

/-- NET_PORT_DISABLE (11 R416). -/
def execNetPortDisable (bus : Bus) (port : Nat) (value : Word) (s : State) : Answer :=
  writeAlone bus (netBase (port % 2)) (withoutBit value 0) s

/-- NET_LINK_CHANGE (11 R414). -/
def execNetLinkChange (port : Nat) (sync : Option Nat) (anDone remoteFault phyUp speedOk : Bool) (s : State) : Answer :=
  .next (linkChanges s port sync anDone remoteFault phyUp speedOk)

/-- NET_RX_FRAME (11 R421). -/
def execNetRxFrame (port : Nat) (frame : List Byte) (error : Nat) (s : State) : Answer :=
  .next (inOneCycle (fun s => ringSettle (rxFrame s port frame error)) s)

/-- NET_TX_DONE (11 R419). -/
def execNetTxDone (port : Nat) (s : State) : Answer := .next (ringSettle (txDone s port))

/-- `NET_MDIO_CMD` with start set and an operation code in bits [27:26]. -/
def mdioWord (v : Word) (op : Nat) : Word := (v &&& ~~~0x0C000000#32) ||| BitVec.ofNat 32 (op * 2 ^ 26) ||| bitAt 31 true

/-- MDIO_WRITE (11 R417). -/
def execMdioWrite (bus : Bus) (value : Word) (s : State) : Answer := writeAlone bus 0x0D000 (mdioWord value 1) s

/-- MDIO_READ (11 R417). -/
def execMdioRead (bus : Bus) (value : Word) (s : State) : Answer := writeAlone bus 0x0D000 (mdioWord value 2) s

/-- MDIO_DONE (11 R417). -/
def execMdioDone (data : Half) (s : State) : Answer := .next (mdioEnds s data)

/-- TELEGRAM_WINDOW_END (11 R447). -/
def execTelegramWindowEnd (source seq : Nat) (s : State) : Answer := .next (inOneCycle (fun s => telWindowEnds s source seq) s)

/-- KEY_MEMORY_EXPIRY (11 R449). -/
def execKeyMemoryExpiry (source seq : Nat) (s : State) : Answer := .next (if netLive s then telForget s source seq else s)

/-- TELEGRAM_TIMEOUT (11 R451). -/
def execTelegramTimeout (source : Nat) (s : State) : Answer := .next (inOneCycle (fun s => telTimesOut s source) s)

/-- NET_TX_READ_DONE (11 R419). -/
def execNetTxReadDone (port : Nat) (data : HostRead) (s : State) : Answer := .next (inOneCycle (fun s => ringSettle (txReadDone s port data)) s)

end Sys2Proof.Machine
end

