-- ==== Sys2Proof/Machine/CmdPower.lean ====
section
/-! DEFINITION. The commands of housekeeping and of the power controller (17, 18). -/

namespace Sys2Proof.Machine

/-- HK_ROUND_START (17 R586). -/
def execHkRoundStart (s : State) : Answer := .next (inOneCycle roundStart s)

/-- HK_CONVERSION (17 R585). -/
def execHkConversion (code : Nat) (s : State) : Answer := .next (inOneCycle (fun s => slotEnds s code) s)

/-- HK_EVALUATION (17 R587). -/
def execHkEvaluation (s : State) : Answer := .next (inOneCycle (fun s => evaluateRound s) s)

/-- HK_DISABLE (17 R588). -/
def execHkDisable (bus : Bus) (value : Word) (s : State) : Answer := writeAlone bus 0x14000 (withoutBit value 0) s

/-- IDLE_ENTER (18 R612). -/
def execIdleEnter (s : State) : Answer := .next (idleEnters s)

/-- IDLE_EXIT (18 R612). -/
def execIdleExit (s : State) : Answer := .next (idleExits s)

/-- A write of a code to `PWR_CMD` (18 R613, R623). -/
def pwrCmd (bus : Bus) (code : Nat) (s : State) : Answer := writeAlone bus 0x15008 (BitVec.ofNat 32 code) s

/-- PWR_DOZE (18 R613). -/
def execPwrDoze (bus : Bus) (s : State) : Answer := pwrCmd bus 1 s

/-- PWR_SLEEP (18 R613). -/
def execPwrSleep (bus : Bus) (s : State) : Answer := pwrCmd bus 2 s

/-- PWR_OFF (18 R613). -/
def execPwrOff (bus : Bus) (s : State) : Answer := pwrCmd bus 3 s

/-- PWR_RUN (18 R623). -/
def execPwrRun (bus : Bus) (s : State) : Answer := pwrCmd bus 4 s

/-- DOZE_TIMER_EXPIRY (18 R613). -/
def execDozeTimerExpiry (s : State) : Answer := .next (if aoLive s then timerRequest s dozeState else s)

/-- SLEEP_TIMER_EXPIRY (18 R613). -/
def execSleepTimerExpiry (s : State) : Answer := .next (if aoLive s then timerRequest s sleepState else s)

/-- BLOCK_ANSWER (18 R616). -/
def execBlockAnswer (s : State) : Answer := .next (inOneCycle (fun s => blockAnswers s) s)

/-- ASK_TIMEOUT (18 R616). -/
def execAskTimeout (s : State) : Answer := .next (inOneCycle (fun s => askExpires s) s)

/-- SAVE_DONE (18 R619). -/
def execSaveDone (s : State) : Answer := .next (saveEnds s)

/-- ENTRY_COMPLETE (18 R620). -/
def execEntryComplete (s : State) : Answer := .next (inOneCycle (fun s => entryEnds s) s)

/-- WAKE (18 R623). -/
def execWake (source : Nat) (s : State) : Answer := .next (inOneCycle (fun s => if aoLive s then wakeArrives s source else s) s)

/-- WAKE_TIMER_EXPIRY (18 R623). -/
def execWakeTimerExpiry (s : State) : Answer := .next (inOneCycle (fun s => if aoLive s then wakeTimer s else s) s)

/-- POWER_GOOD (18 R625). -/
def execPowerGood (domain : Nat) (s : State) : Answer := .next (inOneCycle (fun s => domainGood s domain) s)

/-- POWER_GOOD_TIMEOUT (18 R629). -/
def execPowerGoodTimeout (domain : Nat) (s : State) : Answer := .next (inOneCycle (fun s => domainMissed s domain) s)

/-- EXIT_COMPLETE (18 R625). -/
def execExitComplete (crcOk : Bool) (s : State) : Answer := .next (inOneCycle (fun s => ringSettle (exitEnds s crcOk)) s)

/-- POWER_DOMAIN_RETRY (18 R629). -/
def execPowerDomainRetry (domain : Nat) (s : State) : Answer := .next (domainRetried s domain)

/-- REF_LOSS (01 R18). -/
def execRefLoss (s : State) : Answer := .next (refChanges s false)

/-- REF_RETURN (01 R18). -/
def execRefReturn (s : State) : Answer := .next (refChanges s true)

end Sys2Proof.Machine
end

