-- ==== Sys2Proof/Machine/CmdResets.lean ====
section
/-! DEFINITION. The commands of the resets and of the boot script (19). -/

namespace Sys2Proof.Machine

/-- POWER_ON_DETECT (19 R634 bit 0). -/
def execPowerOnDetect (s : State) : Answer := .next (sourceAsserts s 0)

/-- RESET_N_ASSERT (19 R635). -/
def execResetNAssert (s : State) : Answer := .next (sourceAsserts s 1)

/-- RESET_N_RELEASE (19 R635). -/
def execResetNRelease (s : State) : Answer := .next (sourcesRelease s [1])

/-- AO_BROWN_OUT (19 R634 bit 2). -/
def execAoBrownOut (s : State) : Answer := .next (sourceAsserts s 2)

/-- CORE_BROWN_OUT (19 R634 bit 4). -/
def execCoreBrownOut (s : State) : Answer := .next (sourceAsserts s 4)

/-- The word that `RST_CMD` takes for a code: its key in bits [31:16] (19 R636). -/
def rstCmdWord (v : Word) (code : Nat) : Word := (v &&& 0xFFF0#32) ||| 0x21480000#32 ||| BitVec.ofNat 32 code

/-- SOFTWARE_WARM (19 R636). -/
def execSoftwareWarm (bus : Bus) (value : Word) (s : State) : Answer := writeAlone bus 0x16004 (rstCmdWord value 1) s

/-- SOFTWARE_COLD (19 R636). -/
def execSoftwareCold (bus : Bus) (value : Word) (s : State) : Answer := writeAlone bus 0x16004 (rstCmdWord value 2) s

/-- SOFTWARE_HOST (19 R636). -/
def execSoftwareHost (bus : Bus) (value : Word) (s : State) : Answer := writeAlone bus 0x16004 (rstCmdWord value 3) s

/-- SOFTWARE_RESET_RELEASE (19 R636): 16 AO cycles later. -/
def execSoftwareResetRelease (s : State) : Answer := .next (sourcesRelease s [3, 6, 12])

/-- PERST_N (19 R634 bit 8). -/
def execPerstN (s : State) : Answer := .next (inOneCycle (fun s => sourceAsserts s 8) s)

/-- HOT_RESET (19 R634 bit 9): over a link that is up (log 42). -/
def execHotReset (s : State) : Answer := .next (inOneCycle (fun s => if s.hif.linkUp then hostPulse s 9 else s) s)

/-- LINK_DOWN (02 R48, 19 R634 bit 10): after the link has been up. -/
def execLinkDown (s : State) : Answer := .next (inOneCycle (fun s => if s.hif.linkUp then sourceAsserts (setLevel s 8 0 3 0 true) 10 else s) s)

/-- FUNCTION_LEVEL_RESET (02 R47, 19 R634 bit 11): over a link that is up (log 42). -/
def execFunctionLevelReset (s : State) : Answer := .next (inOneCycle (fun s => if s.hif.linkUp then hostPulse s 11 else s) s)

/-- RESET_RELEASE (19 R639): the sources without a release row of their own are released (log 42). -/
def execResetRelease (s : State) : Answer := .next (sourcesRelease s [0, 2, 4, 5, 7])

/-- RELEASE_STEP_COMPLETE (19 R639). -/
def execReleaseStepComplete (s : State) : Answer := .next (inOneCycle (fun s => releaseStepEnds s) s)

/-- BLOCK_RESET (19 R643). -/
def execBlockReset (bus : Bus) (value : Word) (s : State) : Answer := writeSettles bus 0x16008 value s

/-- BLOCK_RESET_RELEASE (19 R643). -/
def execBlockResetRelease (block : Nat) (s : State) : Answer := .next (inOneCycle (fun s => ringSettle (blockReleases s block)) s)

/-- PERST_N_RELEASE (19 R640). -/
def execPerstNRelease (s : State) : Answer := .next (sourcesRelease s [8])

/-- The host programmes the link's ASPM control: whether it enables L1 is a free value, since no row writes the configuration
space (02 R45, log 58). -/
def hostAspm (s : State) : State :=
  let (k, s1) := drawBelow s 2
  { s1 with hif := { s1.hif with function := { s1.hif.function with aspmL1 := k == 1 } } }

/-- The data link trains up: the link-down source ends, the host programmes its ASPM control, and a tolerance that the state
calls for is sent (19 R640, 02 R45, R52, log 42). -/
def linkTrains (s : State) (rate width : Nat) : State :=
  if s.hif.linkUp || !decide (2 ≤ s.rst.done) || domainState s 0 != 2 || s.rst.sources.any (fun b => b != 10) then s
  else
    let s1 := sourcesRelease s [10]
    let s1 := hostAspm s1
    let s2 := setLevel { s1 with hif := { s1.hif with linkUp := true, rate := rate % 4, width := width % 16 } } 8 0 3 0 false
    match toleranceNow s2 with
    | none => s2
    | some t => commitsAfterLtr (ltrExpiry { s2 with hif := { s2.hif with ltrHeld := some (some t) } })

/-- PCIE_LINK_UP (19 R640). -/
def execPcieLinkUp (rate width : Nat) (s : State) : Answer := .next (ringSettle (linkTrains s rate width))

/-- BOOT_WRITE (19 R650). -/
def execBootWrite (s : State) : Answer := .next (ringSettle (recBegins s 1 recWrite))

/-- BOOT_MASK_WRITE (19 R650). -/
def execBootMaskWrite (s : State) : Answer := .next (ringSettle (recBegins s 2 recMaskWrite))

/-- BOOT_POLL (19 R650). -/
def execBootPoll (s : State) : Answer := .next (recBegins s 3 recordWaits)

/-- BOOT_SLIP_SEARCH (19 R650). -/
def execBootSlipSearch (s : State) : Answer := .next (recBegins s 4 recSlipSearch)

/-- BOOT_LOAD_TILES (19 R652). -/
def execBootLoadTiles (s : State) : Answer := .next (recBegins s 5 recLoadTiles)

/-- BOOT_WAIT (19 R650). -/
def execBootWait (s : State) : Answer := .next (recBegins s 6 recordWaits)

/-- BOOT_WAIT_EXPIRY (19 R650). -/
def execBootWaitExpiry (s : State) : Answer := .next (recWaitEnds s)

/-- BOOT_RECORD_TIMEOUT (19 R653). -/
def execBootRecordTimeout (s : State) : Answer := .next (recordTimesOut s)

/-- BOOT_END (19 R656). -/
def execBootEnd (s : State) : Answer := .next (recBegins s 7 scriptDone)

/-- BOOT_RUN (19 R655). -/
def execBootRun (bus : Bus) (s : State) : Answer := writeAlone bus 0x16014 1#32 s

/-- BOOT_STOP (19 R655). -/
def execBootStop (bus : Bus) (s : State) : Answer := writeAlone bus 0x16014 2#32 s

/-- BOOT_POLL_READ (19 R650). -/
def execBootPollRead (s : State) : Answer := .next (recPollRead s)

end Sys2Proof.Machine
end

