-- ==== Sys2Proof/Machine/CmdStore.lean ====
section
/-! DEFINITION. The commands of the keeping store and its fuses, of the service port and of the register file (20, 21). -/

namespace Sys2Proof.Machine

/-- The light memory that the operation in progress reads: the sector of DOSE that a checkpoint writes, the maps that a LEDGER
record counts, and the merged codes of the sector of CALIB that an upload writes (03 R115, 07 R254, R261, 20 R670; log 88). -/
def storeRanges (s : State) : List (Nat × Nat) :=
  match s.kps.current with
  | some (.dose k) => [(regionBase s 7 + 4096 * k, 4096)]
  | some .ledger => bothHeads.flatMap (fun h => [6, 7].map (fun k => (regionBase s k + partOffset h, activeN s h / 2)))
  | some (.calib ring slot l) =>
    match s.pxc.merged.find? (fun c => c.ring == ring && c.slot == slot) with
    | none => []
    | some c =>
      let lo := Nat.max (calPart c.head + c.offset) (4096 * l - regionStart 5)
      let hi := Nat.min (calPart c.head + c.offset + c.data.length) (4096 * l + 4096 - regionStart 5)
      [(regionBase s 8 + lo, hi - lo)]
  | _ => []

/-- An upload whose own read of CALIB meets a word that cannot be corrected completes with DEVICE_ERROR, detail 2
(03 R117). -/
def uploadSpoilt (s : State) : State :=
  match s.kps.current with
  | some (.calib ring slot _) =>
    { s with pxc := { s.pxc with merged := s.pxc.merged.map (fun c =>
        if c.ring == ring && c.slot == slot then { c with badRead := true } else c) } }
  | _ => s

/-- The operation in progress has read the light memory (03 R115). -/
def storeRead (s : State) : State :=
  if !memLive s then s
  else
    let rs := storeRanges s
    clientRead (if anyBad s rs then uploadSpoilt s else s) none rs

/-- KPS_OPERATION_END (20 R664). -/
def execKpsOperationEnd (ok : Bool) (s : State) : Answer := .next (inOneCycle (fun s => ringSettle (kpsEnd (storeRead s) ok)) s)

/-- KPS_SCRUB_SECTOR (20 R674). -/
def execKpsScrubSector (corrected : Bool) (bad : Option Nat) (s : State) : Answer := .next (inOneCycle (fun s => kpsScrub s corrected bad) s)

/-- FUSE_PROGRAM (20 R680). -/
def execFuseProgram (bus : Bus) (value : Word) (s : State) : Answer := writeAlone bus 0x1C080 value s

/-- FUSE_PROGRAM_END (20 R680). -/
def execFuseProgramEnd (ok : Bool) (s : State) : Answer := .next (inOneCycle (fun s => if lastLive s then fuseEnd s ok else s) s)

/-- WINDOW_READ_HI (20 R683). -/
def execWindowReadHi (bus : Bus) (s : State) : Answer := .next (busRead s bus 0x1C078)

/-- The first byte of a frame is a command code (21 R695). -/
def frameIs (frame : List Byte) (cmd n : Nat) : Bool := frame.length == n && byteAt frame 0 == cmd

/-- SVC_WRITE (21 R695): a frame of ten bytes. -/
def execSvcWrite (frame : List Byte) (s : State) : Answer :=
  .next (inOneCycle (fun s => if aoLive s && frameIs frame 2 10 then ringSettle (svcWriteFrame s frame) else s) s)

/-- SVC_READ (21 R695): a frame of six bytes. -/
def execSvcRead (frame : List Byte) (upset : Bool) (s : State) : Answer :=
  .next (inOneCycle (fun s => if aoLive s && frameIs frame 3 6 then svcReadFrame s frame upset else s) s)

/-- A frame whose command byte is neither WRITE nor READ is counted and answered (21 R696, R697, log 49). An injection of FS58
is spent on it, a frame received, and has no check value of a known place to invert (15 R543, log 49). -/
def svcBadFrame (s : State) : State :=
  let s1 := if injArmed s 58 then spendInj s else s
  svcAnswer (modGlb s1 (fun g => { g with svcBad := satAdd 255 g.svcBad 1 })) [] 2

/-- SVC_BAD_COMMAND (21 R696). -/
def execSvcBadCommand (frame : List Byte) (s : State) : Answer :=
  .next (if aoLive s && !frame.isEmpty && byteAt frame 0 != 2 && byteAt frame 0 != 3 then svcBadFrame s else s)

/-- SVC_FRAME_DISCARD (21 R698). -/
def execSvcFrameDiscard (s : State) : Answer :=
  .next (if aoLive s then modGlb s (fun g => { g with svcDiscards := satAdd 255 g.svcDiscards 1 }) else s)

/-- PARITY_BG_CHECK (21 R703). -/
def execParityBgCheck (upset : Bool) (s : State) : Answer := .next (inOneCycle (fun s => backgroundCheck s upset) s)

/-- REG_READ (21 R687, R701): through PCI Express. -/
def execRegRead (addr enables : Nat) (upset : Bool) (s : State) : Answer :=
  .next (inOneCycle (fun s => if hostLive s then pcieRead s addr enables upset else s) s)

end Sys2Proof.Machine
end

