-- ==== Sys2Proof/Machine/CmdSweep.lean ====
section
/-! DEFINITION. The commands of the timing generators and of the pixel path (04 to 08). -/

namespace Sys2Proof.Machine

/-- HEAD_START (08 R296). -/
def execHeadStart (bus : Bus) (head : Head) (value : Word) (s : State) : Answer :=
  writeSettles bus (tgBase head) (withBit value 0) s

/-- HEAD_STOP (08 R299). -/
def execHeadStop (bus : Bus) (head : Head) (value : Word) (s : State) : Answer :=
  writeSettles bus (tgBase head) (withoutBit value 0) s

/-- TG_COMMIT (08 R301). -/
def execTgCommit (bus : Bus) (head : Head) (s : State) : Answer := writeAlone bus (tgBase head + 8) 1#32 s

/-- TG_COMMIT_CHECK_END (08 R301, R302). -/
def execTgCommitCheckEnd (head : Head) (s : State) : Answer := .next (inOneCycle (fun s => ringSettle (commitCheckEnd s head)) s)

/-- SWEEP_START (04 R166), with what the sweep's fetch brought from host memory. -/
def execSweepStart (head : Head) (sources : List SlotFetch) (s : State) : Answer :=
  .next (inOneCycle (fun s => ringSettle (sweepStarts s head sources)) s)

/-- TG_TRIGGER_ARRIVE (08 R292). -/
def execTgTriggerArrive (head : Head) (s : State) : Answer := .next (inOneCycle (fun s => triggerArrives s head) s)

/-- TRIGGER_WAIT_TIMEOUT (08 R292). -/
def execTriggerWaitTimeout (head : Head) (s : State) : Answer := .next (triggerWaitEnds s head)

/-- CUT (08 R305). -/
def execCut (head : Head) (s : State) : Answer := .next (inOneCycle (fun s => ringSettle (cutNow s head)) s)

/-- LATE_ROW (04 R167). -/
def execLateRow (head : Head) (slot line : Nat) (s : State) : Answer := .next (inOneCycle (fun s => rowLate s head slot line) s)

/-- DRIVE_TOTAL_SEND (06 R241). -/
def execDriveTotalSend (head : Head) (s : State) : Answer := .next (driveTotal s head)

/-- STITCH (08 R307); waiting FENCEs that asked for the head's stitch go on (02 R80). -/
def execStitch (head : Head) (late : Bool) (s : State) : Answer :=
  .next (inOneCycle (fun s => if stitchMay s head then
    ringSettle ((served s head).foldl (fun acc h => fencesStitch s acc h) (stitchNow s head late)) else s) s)

/-- STITCH_SLACK_END (08 R308). -/
def execStitchSlackEnd (head : Head) (s : State) : Answer := .next (inOneCycle (fun s => ringSettle (slackEnds s head)) s)

/-- MAP_CHECK (05 R193). -/
def execMapCheck (bus : Bus) (head : Head) (s : State) : Answer := writeAlone bus (shdBase head) 1#32 s

/-- SHADOW_DISABLE (05 R209): the word's enable bits, of which some are clear. -/
def execShadowDisable (bus : Bus) (value : Word) (s : State) : Answer := writeAlone bus 0x20000 value s

/-- TONE_SWAP (06 R229). -/
def execToneSwap (bus : Bus) (head : Head) (s : State) : Answer := writeAlone bus (bldBase head + 4) 0x100#32 s

/-- TONE_CHECK_END (06 R229). -/
def execToneCheckEnd (head : Head) (s : State) : Answer := .next (inOneCycle (fun s => toneCheckEnds s head) s)

/-- HEADROOM_WRITE (06 R232). -/
def execHeadroomWrite (bus : Bus) (head : Head) (n : Nat) (value : Word) (s : State) : Answer :=
  writeAlone bus (headroomAddr head (n % 8)) value s

/-- AGE_WRITE (07 R259). -/
def execAgeWrite (bus : Bus) (k : Nat) (value : Word) (s : State) : Answer := writeAlone bus (ageAddr (k % 65)) value s

/-- HEALTH_CLEAR (07 R265). -/
def execHealthClear (bus : Bus) (head : Head) (value : Word) (s : State) : Answer := writeAlone bus (pxcBase head + 0x38) value s

/-- DOSE_CHECKPOINT_TIMER (07 R261). -/
def execDoseCheckpointTimer (s : State) : Answer := .next (inOneCycle (fun s => doseCheckpoint s) s)

/-- DOSE_CKPT_NOW (07 R261). -/
def execDoseCkptNow (bus : Bus) (value : Word) (s : State) : Answer := writeAlone bus 0x18008 (withBit value 8) s

end Sys2Proof.Machine
end

