-- ==== Sys2Proof/Machine/CmdTiles.lean ====
section
/-! DEFINITION. The commands of the tile links (10). -/

namespace Sys2Proof.Machine

/-- ACK_RECEIVED (10 R380). -/
def execAckReceived (head : Head) (tile : Nat) (r : TileRecord) (s : State) : Answer := .next (inOneCycle (fun s => ackRecord s head tile r) s)

/-- REPLAY_TIMEOUT (10 R381). -/
def execReplayTimeout (head : Head) (tile : Nat) (s : State) : Answer := .next (replayTimer s head tile)

/-- STATUS_RECEIVED (10 R394); a LOAD_TILES that waits for it goes on (19 R652). -/
def execStatusReceived (head : Head) (tile : Nat) (r : TileRecord) (s : State) : Answer :=
  .next (inOneCycle (fun s => recordGoes (statusRecord s head tile r) (if (recordIn s head tile 0x82 r).1 then some (head, tile) else none)) s)

/-- CONFIG_REPEAT (10 R401). -/
def execConfigRepeat (head : Head) (tile : Nat) (s : State) : Answer := .next (repeatConfig s head tile)

/-- STATUS_TIMEOUT (10 R394). -/
def execStatusTimeout (head : Head) (tile : Nat) (s : State) : Answer := .next (inOneCycle (fun s => statusGone s head tile) s)

/-- TEMP_RECEIVED (10 R395). -/
def execTempReceived (head : Head) (tile : Nat) (r : TileRecord) (s : State) : Answer := .next (inOneCycle (fun s => tempRecord s head tile r) s)

/-- TEMP_TIMEOUT (10 R395). -/
def execTempTimeout (head : Head) (tile : Nat) (s : State) : Answer := .next (inOneCycle (fun s => tempGone s head tile) s)

/-- HEALTH_RECEIVED (10 R396). -/
def execHealthReceived (head : Head) (tile : Nat) (r : TileRecord) (s : State) : Answer := .next (inOneCycle (fun s => healthRecord s head tile r) s)

/-- ECHO_RECEIVED (10 R399). -/
def execEchoReceived (head : Head) (tile : Nat) (r : TileRecord) (s : State) : Answer := .next (inOneCycle (fun s => echoRecord s head tile r) s)

/-- ECHO_DEADLINE (10 R399). -/
def execEchoDeadline (head : Head) (tile : Nat) (s : State) : Answer := .next (inOneCycle (fun s => echoLate s head tile) s)

/-- COMMAND_REPEAT (10 R390). -/
def execCommandRepeat (head : Head) (s : State) : Answer := .next (repeatCommand s head)

/-- Byte address of `TBL_x_REQ` (10 R409). -/
def reqAddr (h : Head) : Nat := tblBase h + 0x14

/-- `TBL_x_REQ` with a request code in bits [9:8]. -/
def reqWord (v : Word) (code : Nat) : Word := (v &&& ~~~0x300#32) ||| BitVec.ofNat 32 (code * 256)

/-- REQUEST_STATUS (10 R370). -/
def execRequestStatus (bus : Bus) (head : Head) (value : Word) (s : State) : Answer := writeAlone bus (reqAddr head) (reqWord value 1) s

/-- REQUEST_TEST (10 R401). -/
def execRequestTest (bus : Bus) (head : Head) (value : Word) (s : State) : Answer := writeAlone bus (reqAddr head) (reqWord value 2) s

/-- REQUEST_UNCONFIG (10 R401). -/
def execRequestUnconfig (bus : Bus) (head : Head) (value : Word) (s : State) : Answer :=
  writeAlone bus (reqAddr head) (reqWord value 3) s

/-- FORWARD_REQUEST (10 R404): the word of `TBL_x_FWD`, some pair of which asks. -/
def execForwardRequest (bus : Bus) (head : Head) (value : Word) (s : State) : Answer := writeAlone bus (tblBase head + 8) value s

/-- FORWARD_RETURN (10 R406): the word of `TBL_x_FWD`, some pair of which no longer asks. -/
def execForwardReturn (bus : Bus) (head : Head) (value : Word) (s : State) : Answer := writeAlone bus (tblBase head + 8) value s

end Sys2Proof.Machine
end

