-- ==== Sys2Proof/Machine/CmdTime.lean ====
section
/-! DEFINITION. The commands of the time counter, its triggers and its capture units (11 R430 to R444). -/

namespace Sys2Proof.Machine

/-- A write of a code to `TIM_CMD` (11 R434). -/
def timCmd (bus : Bus) (code : Nat) (s : State) : Answer := writeAlone bus 0x0E004 (BitVec.ofNat 32 code) s

/-- TIME_SET (11 R434). -/
def execTimeSet (bus : Bus) (s : State) : Answer := timCmd bus 1 s

/-- TIME_STEP (11 R434). -/
def execTimeStep (bus : Bus) (s : State) : Answer := timCmd bus 2 s

/-- TIME_SLEW (11 R434). -/
def execTimeSlew (bus : Bus) (s : State) : Answer := timCmd bus 3 s

/-- TIME_CANCEL (11 R434). -/
def execTimeCancel (bus : Bus) (s : State) : Answer := timCmd bus 4 s

/-- TIME_DISCIPLINE (11 R436). -/
def execTimeDiscipline (bus : Bus) (s : State) : Answer := timCmd bus 5 s

/-- SLEW_COMPLETE (11 R434). -/
def execSlewComplete (s : State) : Answer := .next (slewEnds s)

/-- INCREMENT_APPLY (11 R431). -/
def execIncrementApply (bus : Bus) (value : Word) (s : State) : Answer := writeAlone bus 0x0E00C value s

/-- HOLD_WRITE (11 R436). -/
def execHoldWrite (bus : Bus) (value : Word) (s : State) : Answer := writeAlone bus 0x0E018 value s

/-- HOLDOVER_TIMEOUT (11 R436). -/
def execHoldoverTimeout (s : State) : Answer := .next (inOneCycle (fun s => holdoverNow s) s)

/-- NOW_LATCH (11 R433): a read of `TIM_NOW_SEC_LO`. -/
def execNowLatch (bus : Bus) (s : State) : Answer := .next (busRead s bus 0x0E020)

/-- Byte address of `TIM_TTn_CTRL` (11 R456). -/
def trigAddr (n : Nat) : Nat := 0x0E100 + 0x20 * (n % 8)

/-- TRIGGER_ARM (11 R439). -/
def execTriggerArm (bus : Bus) (n : Nat) (value : Word) (s : State) : Answer := writeAlone bus (trigAddr n) (withBit value 1) s

/-- TRIGGER_DISABLE (11 R439). -/
def execTriggerDisable (bus : Bus) (n : Nat) (value : Word) (s : State) : Answer :=
  writeAlone bus (trigAddr n) (withoutBit (withoutBit value 0) 1) s

/-- TRIGGER_FIRE (11 R438). -/
def execTriggerFire (n : Nat) (s : State) : Answer := .next (inOneCycle (fun s => trigFire s n) s)

/-- PPS_END (11 R442). -/
def execPpsEnd (s : State) : Answer := .next (if ctrlLive s then ppsEnds s else s)

/-- CAPTURE (11 R443). -/
def execCapture (n : Nat) (rising : Bool) (s : State) : Answer := .next (captureNow s n rising)

/-- CAPTURE_POP (11 R444): a read of `TIM_TCn_SEC_LO`. -/
def execCapturePop (bus : Bus) (n : Nat) (s : State) : Answer := .next (busRead s bus (0x0E208 + 0x20 * (n % 8)))

end Sys2Proof.Machine
end

