-- ==== Sys2Proof/Machine/Dispatch.lean ====
section
/-! DEFINITION. The meaning of every command: one arm per constructor, in the order of spec/opcode_table.json. -/

namespace Sys2Proof.Machine

def exec (i : Instr) (s : State) : Host.Outcome State Fault Refusal :=
  match i with
  | .regWrite bus addr enables value => Sys2Proof.Machine.execRegWrite bus addr enables value s
  | .doorbell bus ring whole value => Sys2Proof.Machine.execDoorbell bus ring whole value s
  | .ringEnable bus ring value => Sys2Proof.Machine.execRingEnable bus ring value s
  | .ringDisable bus ring value => Sys2Proof.Machine.execRingDisable bus ring value s
  | .ringEngineEnable bus => Sys2Proof.Machine.execRingEngineEnable bus s
  | .ringEngineDisable bus => Sys2Proof.Machine.execRingEngineDisable bus s
  | .journalResume bus => Sys2Proof.Machine.execJournalResume bus s
  | .journalForget bus => Sys2Proof.Machine.execJournalForget bus s
  | .nop ring d => Sys2Proof.Machine.execNop ring d s
  | .layerSet ring d => Sys2Proof.Machine.execLayerSet ring d s
  | .layerData ring d => Sys2Proof.Machine.execLayerData ring d s
  | .commit ring d => Sys2Proof.Machine.execCommit ring d s
  | .paramBlockReadDone head csn index data => Sys2Proof.Machine.execParamBlockReadDone head csn index data s
  | .layerDataTransferEnd head csn index data => Sys2Proof.Machine.execLayerDataTransferEnd head csn index data s
  | .objects ring d => Sys2Proof.Machine.execObjects ring d s
  | .objectsListReadDone head slot data => Sys2Proof.Machine.execObjectsListReadDone head slot data s
  | .calUpload ring d => Sys2Proof.Machine.execCalUpload ring d s
  | .calUploadValidated data => Sys2Proof.Machine.execCalUploadValidated data s
  | .calMergeEnd => Sys2Proof.Machine.execCalMergeEnd s
  | .lastWrite ring d data => Sys2Proof.Machine.execLastWrite ring d data s
  | .crcJob ring d => Sys2Proof.Machine.execCrcJob ring d s
  | .crcJobEnd ctx data => Sys2Proof.Machine.execCrcJobEnd ctx data s
  | .laceFrame ring d => Sys2Proof.Machine.execLaceFrame ring d s
  | .netTx ring d => Sys2Proof.Machine.execNetTx ring d s
  | .netRxBuf ring d => Sys2Proof.Machine.execNetRxBuf ring d s
  | .queryReadRegister ring d => Sys2Proof.Machine.execQueryReadRegister ring d s
  | .queryApproveProposal ring d => Sys2Proof.Machine.execQueryApproveProposal ring d s
  | .queryDeclineProposal ring d => Sys2Proof.Machine.execQueryDeclineProposal ring d s
  | .fence ring d => Sys2Proof.Machine.execFence ring d s
  | .abort ring d => Sys2Proof.Machine.execAbort ring d s
  | .ltrHoldoffExpiry => Sys2Proof.Machine.execLtrHoldoffExpiry s
  | .irqCoalesceTimeout ring => Sys2Proof.Machine.execIrqCoalesceTimeout ring s
  | .pcieAerUncorr => Sys2Proof.Machine.execPcieAerUncorr s
  | .budgetPeriodStart used errors => Sys2Proof.Machine.execBudgetPeriodStart used errors s
  | .eccWriteback => Sys2Proof.Machine.execEccWriteback s
  | .budgetWrite bus client value => Sys2Proof.Machine.execBudgetWrite bus client value s
  | .regionWrite bus k value => Sys2Proof.Machine.execRegionWrite bus k value s
  | .scrubEnable bus value => Sys2Proof.Machine.execScrubEnable bus value s
  | .scrubDisable bus value => Sys2Proof.Machine.execScrubDisable bus value s
  | .bankRetireStart => Sys2Proof.Machine.execBankRetireStart s
  | .bankCopyEnd => Sys2Proof.Machine.execBankCopyEnd s
  | .headStart bus head value => Sys2Proof.Machine.execHeadStart bus head value s
  | .headStop bus head value => Sys2Proof.Machine.execHeadStop bus head value s
  | .tgCommit bus head => Sys2Proof.Machine.execTgCommit bus head s
  | .tgCommitCheckEnd head => Sys2Proof.Machine.execTgCommitCheckEnd head s
  | .sweepStart head sources => Sys2Proof.Machine.execSweepStart head sources s
  | .tgTriggerArrive head => Sys2Proof.Machine.execTgTriggerArrive head s
  | .triggerWaitTimeout head => Sys2Proof.Machine.execTriggerWaitTimeout head s
  | .cut head => Sys2Proof.Machine.execCut head s
  | .lateRow head slot line => Sys2Proof.Machine.execLateRow head slot line s
  | .driveTotalSend head => Sys2Proof.Machine.execDriveTotalSend head s
  | .stitch head late => Sys2Proof.Machine.execStitch head late s
  | .stitchSlackEnd head => Sys2Proof.Machine.execStitchSlackEnd head s
  | .mapCheck bus head => Sys2Proof.Machine.execMapCheck bus head s
  | .shadowDisable bus value => Sys2Proof.Machine.execShadowDisable bus value s
  | .toneSwap bus head => Sys2Proof.Machine.execToneSwap bus head s
  | .toneCheckEnd head => Sys2Proof.Machine.execToneCheckEnd head s
  | .headroomWrite bus head n value => Sys2Proof.Machine.execHeadroomWrite bus head n value s
  | .ageWrite bus k value => Sys2Proof.Machine.execAgeWrite bus k value s
  | .healthClear bus head value => Sys2Proof.Machine.execHealthClear bus head value s
  | .doseCheckpointTimer => Sys2Proof.Machine.execDoseCheckpointTimer s
  | .doseCkptNow bus value => Sys2Proof.Machine.execDoseCkptNow bus value s
  | .slipStart bus lane value => Sys2Proof.Machine.execSlipStart bus lane value s
  | .cdrLock lane => Sys2Proof.Machine.execCdrLock lane s
  | .slipSearchEnd lane bits groups => Sys2Proof.Machine.execSlipSearchEnd lane bits groups s
  | .laneLost lane groups drift cdr => Sys2Proof.Machine.execLaneLost lane groups drift cdr s
  | .eqUpdate lane upset => Sys2Proof.Machine.execEqUpdate lane upset s
  | .eyeScanStart lane => Sys2Proof.Machine.execEyeScanStart lane s
  | .eyeScanEnd lane clean groups drift => Sys2Proof.Machine.execEyeScanEnd lane clean groups drift s
  | .trimStep lane => Sys2Proof.Machine.execTrimStep lane s
  | .lanePstate bus lane value => Sys2Proof.Machine.execLanePstate bus lane value s
  | .laneActive e => Sys2Proof.Machine.execLaneActive e s
  | .clearCounts bus block value => Sys2Proof.Machine.execClearCounts bus block value s
  | .ackReceived head tile r => Sys2Proof.Machine.execAckReceived head tile r s
  | .replayTimeout head tile => Sys2Proof.Machine.execReplayTimeout head tile s
  | .statusReceived head tile r => Sys2Proof.Machine.execStatusReceived head tile r s
  | .configRepeat head tile => Sys2Proof.Machine.execConfigRepeat head tile s
  | .statusTimeout head tile => Sys2Proof.Machine.execStatusTimeout head tile s
  | .tempReceived head tile r => Sys2Proof.Machine.execTempReceived head tile r s
  | .tempTimeout head tile => Sys2Proof.Machine.execTempTimeout head tile s
  | .healthReceived head tile r => Sys2Proof.Machine.execHealthReceived head tile r s
  | .echoReceived head tile r => Sys2Proof.Machine.execEchoReceived head tile r s
  | .echoDeadline head tile => Sys2Proof.Machine.execEchoDeadline head tile s
  | .commandRepeat head => Sys2Proof.Machine.execCommandRepeat head s
  | .requestStatus bus head value => Sys2Proof.Machine.execRequestStatus bus head value s
  | .requestTest bus head value => Sys2Proof.Machine.execRequestTest bus head value s
  | .requestUnconfig bus head value => Sys2Proof.Machine.execRequestUnconfig bus head value s
  | .forwardRequest bus head value => Sys2Proof.Machine.execForwardRequest bus head value s
  | .forwardReturn bus head value => Sys2Proof.Machine.execForwardReturn bus head value s
  | .netPortEnable bus port value => Sys2Proof.Machine.execNetPortEnable bus port value s
  | .netPortDisable bus port value => Sys2Proof.Machine.execNetPortDisable bus port value s
  | .netLinkChange port sync anDone remoteFault phyUp speedOk => Sys2Proof.Machine.execNetLinkChange port sync anDone remoteFault phyUp speedOk s
  | .netRxFrame port frame error => Sys2Proof.Machine.execNetRxFrame port frame error s
  | .netTxDone port => Sys2Proof.Machine.execNetTxDone port s
  | .mdioWrite bus value => Sys2Proof.Machine.execMdioWrite bus value s
  | .mdioRead bus value => Sys2Proof.Machine.execMdioRead bus value s
  | .mdioDone data => Sys2Proof.Machine.execMdioDone data s
  | .telegramWindowEnd source seq => Sys2Proof.Machine.execTelegramWindowEnd source seq s
  | .keyMemoryExpiry source seq => Sys2Proof.Machine.execKeyMemoryExpiry source seq s
  | .telegramTimeout source => Sys2Proof.Machine.execTelegramTimeout source s
  | .timeSet bus => Sys2Proof.Machine.execTimeSet bus s
  | .timeStep bus => Sys2Proof.Machine.execTimeStep bus s
  | .timeSlew bus => Sys2Proof.Machine.execTimeSlew bus s
  | .timeCancel bus => Sys2Proof.Machine.execTimeCancel bus s
  | .timeDiscipline bus => Sys2Proof.Machine.execTimeDiscipline bus s
  | .slewComplete => Sys2Proof.Machine.execSlewComplete s
  | .incrementApply bus value => Sys2Proof.Machine.execIncrementApply bus value s
  | .holdWrite bus value => Sys2Proof.Machine.execHoldWrite bus value s
  | .holdoverTimeout => Sys2Proof.Machine.execHoldoverTimeout s
  | .nowLatch bus => Sys2Proof.Machine.execNowLatch bus s
  | .triggerArm bus n value => Sys2Proof.Machine.execTriggerArm bus n value s
  | .triggerDisable bus n value => Sys2Proof.Machine.execTriggerDisable bus n value s
  | .triggerFire n => Sys2Proof.Machine.execTriggerFire n s
  | .ppsEnd => Sys2Proof.Machine.execPpsEnd s
  | .capture n rising => Sys2Proof.Machine.execCapture n rising s
  | .capturePop bus n => Sys2Proof.Machine.execCapturePop bus n s
  | .loopSample n => Sys2Proof.Machine.execLoopSample n s
  | .loopComputeStart => Sys2Proof.Machine.execLoopComputeStart s
  | .loopComputeEnd => Sys2Proof.Machine.execLoopComputeEnd s
  | .loopOutput n => Sys2Proof.Machine.execLoopOutput n s
  | .loopEnable bus n value => Sys2Proof.Machine.execLoopEnable bus n value s
  | .loopDisable bus n value => Sys2Proof.Machine.execLoopDisable bus n value s
  | .loopClear bus n value => Sys2Proof.Machine.execLoopClear bus n value s
  | .loopCommit bus value => Sys2Proof.Machine.execLoopCommit bus value s
  | .driveTotalReceive head => Sys2Proof.Machine.execDriveTotalReceive head s
  | .adcConversionStart c => Sys2Proof.Machine.execAdcConversionStart c s
  | .adcConversionEnd c code => Sys2Proof.Machine.execAdcConversionEnd c code s
  | .imuTransactionStart => Sys2Proof.Machine.execImuTransactionStart s
  | .imuTransactionEnd data => Sys2Proof.Machine.execImuTransactionEnd data s
  | .setpPeriodStart n => Sys2Proof.Machine.execSetpPeriodStart n s
  | .setpointWrite bus n value => Sys2Proof.Machine.execSetpointWrite bus n value s
  | .lenWrite bus value => Sys2Proof.Machine.execLenWrite bus value s
  | .laceFrameReady chain data => Sys2Proof.Machine.execLaceFrameReady chain data s
  | .laceTrigger chain => Sys2Proof.Machine.execLaceTrigger chain s
  | .laceFrameStart chain => Sys2Proof.Machine.execLaceFrameStart chain s
  | .laceGapEnd chain => Sys2Proof.Machine.execLaceGapEnd chain s
  | .laceCommit bus value => Sys2Proof.Machine.execLaceCommit bus value s
  | .laceDisable bus chain value => Sys2Proof.Machine.execLaceDisable bus chain value s
  | .presetLoad bus ctx value => Sys2Proof.Machine.execPresetLoad bus ctx value s
  | .faultAssert source part heads detail addr => Sys2Proof.Machine.execFaultAssert source part heads detail addr s
  | .faultConditionClear source part => Sys2Proof.Machine.execFaultConditionClear source part s
  | .eventOutput => Sys2Proof.Machine.execEventOutput s
  | .stickyClear bus high value => Sys2Proof.Machine.execStickyClear bus high value s
  | .counterClear bus high value => Sys2Proof.Machine.execCounterClear bus high value s
  | .firstFaultClear bus value => Sys2Proof.Machine.execFirstFaultClear bus value s
  | .severityWrite bus k value => Sys2Proof.Machine.execSeverityWrite bus k value s
  | .injectArm bus value => Sys2Proof.Machine.execInjectArm bus value s
  | .collectorSelfFail => Sys2Proof.Machine.execCollectorSelfFail s
  | .faultResetRequest => Sys2Proof.Machine.execFaultResetRequest s
  | .clockMonitorGate clock count => Sys2Proof.Machine.execClockMonitorGate clock count s
  | .safeNAssert => Sys2Proof.Machine.execSafeNAssert s
  | .safeNRelease => Sys2Proof.Machine.execSafeNRelease s
  | .autoClearExpiry source => Sys2Proof.Machine.execAutoClearExpiry source s
  | .heartbeatWrite bus value => Sys2Proof.Machine.execHeartbeatWrite bus value s
  | .heartbeatGraceEnd => Sys2Proof.Machine.execHeartbeatGraceEnd s
  | .heartbeatTimeout => Sys2Proof.Machine.execHeartbeatTimeout s
  | .watchdogExpiry index => Sys2Proof.Machine.execWatchdogExpiry index s
  | .unlockOpen bus => Sys2Proof.Machine.execUnlockOpen bus s
  | .unlockCommit bus => Sys2Proof.Machine.execUnlockCommit bus s
  | .safecfgCommitEnd written => Sys2Proof.Machine.execSafecfgCommitEnd written s
  | .unlockAbandon bus => Sys2Proof.Machine.execUnlockAbandon bus s
  | .sessionTimeout => Sys2Proof.Machine.execSessionTimeout s
  | .lockoutEnd => Sys2Proof.Machine.execLockoutEnd s
  | .safecfgCheck upset => Sys2Proof.Machine.execSafecfgCheck upset s
  | .hkRoundStart => Sys2Proof.Machine.execHkRoundStart s
  | .hkConversion code => Sys2Proof.Machine.execHkConversion code s
  | .hkEvaluation => Sys2Proof.Machine.execHkEvaluation s
  | .hkDisable bus value => Sys2Proof.Machine.execHkDisable bus value s
  | .idleEnter => Sys2Proof.Machine.execIdleEnter s
  | .idleExit => Sys2Proof.Machine.execIdleExit s
  | .pwrDoze bus => Sys2Proof.Machine.execPwrDoze bus s
  | .pwrSleep bus => Sys2Proof.Machine.execPwrSleep bus s
  | .pwrOff bus => Sys2Proof.Machine.execPwrOff bus s
  | .pwrRun bus => Sys2Proof.Machine.execPwrRun bus s
  | .dozeTimerExpiry => Sys2Proof.Machine.execDozeTimerExpiry s
  | .sleepTimerExpiry => Sys2Proof.Machine.execSleepTimerExpiry s
  | .blockAnswer => Sys2Proof.Machine.execBlockAnswer s
  | .askTimeout => Sys2Proof.Machine.execAskTimeout s
  | .saveDone => Sys2Proof.Machine.execSaveDone s
  | .entryComplete => Sys2Proof.Machine.execEntryComplete s
  | .wake source => Sys2Proof.Machine.execWake source s
  | .wakeTimerExpiry => Sys2Proof.Machine.execWakeTimerExpiry s
  | .powerGood domain => Sys2Proof.Machine.execPowerGood domain s
  | .powerGoodTimeout domain => Sys2Proof.Machine.execPowerGoodTimeout domain s
  | .exitComplete crcOk => Sys2Proof.Machine.execExitComplete crcOk s
  | .powerOnDetect => Sys2Proof.Machine.execPowerOnDetect s
  | .resetNAssert => Sys2Proof.Machine.execResetNAssert s
  | .resetNRelease => Sys2Proof.Machine.execResetNRelease s
  | .aoBrownOut => Sys2Proof.Machine.execAoBrownOut s
  | .coreBrownOut => Sys2Proof.Machine.execCoreBrownOut s
  | .softwareWarm bus value => Sys2Proof.Machine.execSoftwareWarm bus value s
  | .softwareCold bus value => Sys2Proof.Machine.execSoftwareCold bus value s
  | .softwareHost bus value => Sys2Proof.Machine.execSoftwareHost bus value s
  | .softwareResetRelease => Sys2Proof.Machine.execSoftwareResetRelease s
  | .perstN => Sys2Proof.Machine.execPerstN s
  | .hotReset => Sys2Proof.Machine.execHotReset s
  | .linkDown => Sys2Proof.Machine.execLinkDown s
  | .functionLevelReset => Sys2Proof.Machine.execFunctionLevelReset s
  | .resetRelease => Sys2Proof.Machine.execResetRelease s
  | .releaseStepComplete => Sys2Proof.Machine.execReleaseStepComplete s
  | .blockReset bus value => Sys2Proof.Machine.execBlockReset bus value s
  | .blockResetRelease block => Sys2Proof.Machine.execBlockResetRelease block s
  | .bootWrite => Sys2Proof.Machine.execBootWrite s
  | .bootMaskWrite => Sys2Proof.Machine.execBootMaskWrite s
  | .bootPoll => Sys2Proof.Machine.execBootPoll s
  | .bootSlipSearch => Sys2Proof.Machine.execBootSlipSearch s
  | .bootLoadTiles => Sys2Proof.Machine.execBootLoadTiles s
  | .bootWait => Sys2Proof.Machine.execBootWait s
  | .bootWaitExpiry => Sys2Proof.Machine.execBootWaitExpiry s
  | .bootRecordTimeout => Sys2Proof.Machine.execBootRecordTimeout s
  | .bootEnd => Sys2Proof.Machine.execBootEnd s
  | .bootRun bus => Sys2Proof.Machine.execBootRun bus s
  | .bootStop bus => Sys2Proof.Machine.execBootStop bus s
  | .kpsOperationEnd ok => Sys2Proof.Machine.execKpsOperationEnd ok s
  | .kpsScrubSector corrected bad => Sys2Proof.Machine.execKpsScrubSector corrected bad s
  | .fuseProgram bus value => Sys2Proof.Machine.execFuseProgram bus value s
  | .fuseProgramEnd ok => Sys2Proof.Machine.execFuseProgramEnd ok s
  | .windowReadHi bus => Sys2Proof.Machine.execWindowReadHi bus s
  | .svcWrite frame => Sys2Proof.Machine.execSvcWrite frame s
  | .svcRead frame upset => Sys2Proof.Machine.execSvcRead frame upset s
  | .svcBadCommand frame => Sys2Proof.Machine.execSvcBadCommand frame s
  | .svcFrameDiscard => Sys2Proof.Machine.execSvcFrameDiscard s
  | .parityBgCheck upset => Sys2Proof.Machine.execParityBgCheck upset s
  | .perstNRelease => Sys2Proof.Machine.execPerstNRelease s
  | .pcieLinkUp rate width => Sys2Proof.Machine.execPcieLinkUp rate width s
  | .regRead addr enables upset => Sys2Proof.Machine.execRegRead addr enables upset s
  | .netTxReadDone port data => Sys2Proof.Machine.execNetTxReadDone port data s
  | .powerDomainRetry domain => Sys2Proof.Machine.execPowerDomainRetry domain s
  | .refLoss => Sys2Proof.Machine.execRefLoss s
  | .refReturn => Sys2Proof.Machine.execRefReturn s
  | .bootPollRead => Sys2Proof.Machine.execBootPollRead s

end Sys2Proof.Machine
end

