-- ==== Sys2Proof/Machine/Tick.lean ====
section
/-! DEFINITION. One cycle of the TIME domain, which passes when no command waits (log 2). -/

namespace Sys2Proof.Machine

/-- What one cycle adds to the counter while a slew runs: the slew rate towards the remaining offset (11 R434), and what
is left of the offset. -/
def slewStep (s : State) : Int × Int :=
  let r : Int := (regAt s 0x0E014).toNat
  if s.tim.slew = 0 then (0, 0)
  else if 0 < s.tim.slew then
    let d := if s.tim.slew < r then s.tim.slew else r
    (d, s.tim.slew - d)
  else
    let d := if -s.tim.slew < r then s.tim.slew else -r
    (d, s.tim.slew - d)

/-- A count of seconds goes on by one, to 32 bits. -/
def secondMore (n : Nat) : Nat := (n + 1) % 2 ^ 32

/-- A second of the counter has passed: powered, lit and band seconds count (20 R672). -/
def secondPasses (s : State) : State :=
  let b := match s.hkp.band with
    | some k => k
    | none => 1
  { s with kps :=
      { s.kps with powered := secondMore s.kps.powered,
                   lit := { a := if lenPin s .a then secondMore s.kps.lit.a else s.kps.lit.a,
                            b := if lenPin s .b then secondMore s.kps.lit.b else s.kps.lit.b },
                   bands := Store.put (fun _ => 0) s.kps.bands b (secondMore (Store.get (fun _ => 0) s.kps.bands b)) } }

/-- One cycle of the TIME domain: the counter takes the increment in force and the slew (11 R430, R431, R434). It stands
while PD_CTRL is off or in reset. -/
def tick (s : State) : State :=
  if ctrlLive s then
    let (d, left) := slewStep s
    let s1 := { s with tim :=
      { s.tim with counter := ((s.tim.counter : Int) + s.tim.increment + d).toNat, slew := left, cycles := s.tim.cycles + 1 } }
    if nowNs s / 10 ^ 9 < nowNs s1 / 10 ^ 9 then secondPasses s1 else s1
  else s

end Sys2Proof.Machine
end

