-- ==== Sys2Proof/WellFormed.lean ====
section
/-! DEFINITION. Which commands are well formed: the operands that the rows' rules allow (register words of 21 R685, rings
of 02 R55, tiles, lanes, loops and the like), and the register word that each register-access row acts on. -/

namespace Sys2Proof

/-- 0 for Head A and 1 for Head B. -/
def Head.number : Head → Nat
  | .a => 0
  | .b => 1

/-- An access comes through one of the two ports (21 R685); the boot script's accesses are rows of their own. -/
def portBus (b : Bus) : Bool := b != .script

/-- A register word of BAR0: aligned, in the 256 KiB space (21 R685). -/
def addrFits (a : Nat) : Bool := a % 4 == 0 && decide (a < 0x40000)

/-- Byte enables name at least one of four bytes (21 R687). -/
def enablesFit (e : Nat) : Bool := decide (1 ≤ e) && decide (e < 16)

/-- A descriptor's fields fit their widths, its body has 52 bytes and its opcode is the row's (02 R72, R77). -/
def descFits (opcode : Option Nat) (d : Desc) : Bool :=
  decide (d.opcode < 256) && decide (d.flags < 256) && decide (d.body.length = 52)
    && (match opcode with
        | some c => d.opcode == c
        | none => d.opcode == 0 || decide (13 < d.opcode))

/-- A record from a tile: its sequence number has 8 bits and its fsn field 16, its body has 2,052 bytes at most, and its
lane's buffer has four quarters (10 R367, R383). -/
def recordFits (r : TileRecord) : Bool :=
  decide (r.seq < 256) && decide (r.fsn < 65536) && decide (r.body.length ≤ 2052) && decide (r.fill ≤ 4)

/-- A failed read names one of the four bits of HIF_ERR (02 R49). -/
def readFits : HostRead → Bool
  | .failed k => decide (k < 4)
  | _ => true

/-- A port synchronises at one of the ten offsets of a code group (09 R350). -/
def syncFits : Option Nat → Bool
  | some k => decide (k < 10)
  | none => true

/-- Word address of a lane's control register (09 R354, 21 R685). -/
def laneAddr (lane : Nat) : Nat := 0x09100 + 0x1000 * (lane / 8) + 0x20 * (lane % 8)

/-- Word address of a setpoint: SETP0 to SETP5, then the two levels (12 R490). -/
def setpointWord (n : Nat) : Nat := if n < 6 then 0x0F040 + 4 * n else if n = 6 then 0x0F060 else 0x0F064

/-- A command is well formed. -/
def Instr.wf : Instr → Bool
  | .regWrite bus addr enables _ => portBus bus && addrFits addr && enablesFit enables
  | .doorbell bus ring _ _ => portBus bus && decide (ring < 32)
  | .ringEnable bus ring _ => portBus bus && decide (ring < 32)
  | .ringDisable bus ring _ => portBus bus && decide (ring < 32)
  | .ringEngineEnable bus => portBus bus
  | .ringEngineDisable bus => portBus bus
  | .journalResume bus => portBus bus
  | .journalForget bus => portBus bus
  | .nop ring d => decide (ring < 32) && descFits none d
  | .layerSet ring d => decide (ring < 32) && descFits (some 1) d
  | .layerData ring d => decide (ring < 32) && descFits (some 2) d
  | .commit ring d => decide (ring < 32) && descFits (some 3) d
  | .paramBlockReadDone _ _ _ data => readFits data
  | .layerDataTransferEnd _ _ _ data => readFits data
  | .objects ring d => decide (ring < 32) && descFits (some 4) d
  | .objectsListReadDone _ _ data => readFits data
  | .calUpload ring d => decide (ring < 32) && descFits (some 5) d
  | .calUploadValidated data => readFits data
  | .calMergeEnd => true
  | .lastWrite ring d data => decide (ring < 32) && descFits (some 6) d && readFits data
  | .crcJob ring d => decide (ring < 32) && descFits (some 7) d
  | .crcJobEnd ctx data => decide (ctx < 4) && readFits data
  | .laceFrame ring d => decide (ring < 32) && descFits (some 8) d
  | .netTx ring d => decide (ring < 32) && descFits (some 9) d
  | .netRxBuf ring d => decide (ring < 32) && descFits (some 10) d
  | .queryReadRegister ring d => decide (ring < 32) && descFits (some 11) d
  | .queryApproveProposal ring d => decide (ring < 32) && descFits (some 11) d
  | .queryDeclineProposal ring d => decide (ring < 32) && descFits (some 11) d
  | .fence ring d => decide (ring < 32) && descFits (some 12) d
  | .abort ring d => decide (ring < 32) && descFits (some 13) d
  | .ltrHoldoffExpiry => true
  | .irqCoalesceTimeout ring => decide (ring < 32)
  | .pcieAerUncorr => true
  | .budgetPeriodStart used _ => decide (used.length ≤ 12)
  | .eccWriteback => true
  | .budgetWrite bus client _ => portBus bus && decide (client < 12)
  | .regionWrite bus k _ => portBus bus && decide (k < 11)
  | .scrubEnable bus _ => portBus bus
  | .scrubDisable bus _ => portBus bus
  | .bankRetireStart => true
  | .bankCopyEnd => true
  | .headStart bus _ _ => portBus bus
  | .headStop bus _ _ => portBus bus
  | .tgCommit bus _ => portBus bus
  | .tgCommitCheckEnd _ => true
  | .sweepStart _ _ => true
  | .tgTriggerArrive _ => true
  | .triggerWaitTimeout _ => true
  | .cut _ => true
  | .lateRow _ slot _ => decide (slot < 8)
  | .driveTotalSend _ => true
  | .stitch _ _ => true
  | .stitchSlackEnd _ => true
  | .mapCheck bus _ => portBus bus
  | .shadowDisable bus _ => portBus bus
  | .toneSwap bus _ => portBus bus
  | .toneCheckEnd _ => true
  | .headroomWrite bus _ n _ => portBus bus && decide (1 ≤ n) && decide (n < 8)
  | .ageWrite bus k _ => portBus bus && decide (k < 65)
  | .healthClear bus _ _ => portBus bus
  | .doseCheckpointTimer => true
  | .doseCkptNow bus _ => portBus bus
  | .slipStart bus lane _ => portBus bus && decide (lane < 18)
  | .cdrLock lane => decide (lane < 18)
  | .slipSearchEnd lane _ _ => decide (lane < 18)
  | .laneLost lane _ _ _ => decide (lane < 18)
  | .eqUpdate lane _ => decide (lane < 18)
  | .eyeScanStart lane => decide (lane < 18)
  | .eyeScanEnd lane _ _ _ => decide (lane < 18)
  | .trimStep lane => decide (lane < 18)
  | .lanePstate bus lane _ => portBus bus && decide (lane < 18)
  | .laneActive e => decide (e.lane < 18)
  | .clearCounts bus block _ => portBus bus && decide (block < 3)
  | .ackReceived _ tile r => decide (tile < 8) && recordFits r
  | .replayTimeout _ tile => decide (tile < 8)
  | .statusReceived _ tile r => decide (tile < 8) && recordFits r
  | .configRepeat _ tile => decide (tile < 8)
  | .statusTimeout _ tile => decide (tile < 8)
  | .tempReceived _ tile r => decide (tile < 8) && recordFits r
  | .tempTimeout _ tile => decide (tile < 8)
  | .healthReceived _ tile r => decide (tile < 8) && recordFits r
  | .echoReceived _ tile r => decide (tile < 8) && recordFits r
  | .echoDeadline _ tile => decide (tile < 8)
  | .commandRepeat _ => true
  | .requestStatus bus _ _ => portBus bus
  | .requestTest bus _ _ => portBus bus
  | .requestUnconfig bus _ _ => portBus bus
  | .forwardRequest bus _ _ => portBus bus
  | .forwardReturn bus _ _ => portBus bus
  | .netPortEnable bus port _ => portBus bus && decide (port < 2)
  | .netPortDisable bus port _ => portBus bus && decide (port < 2)
  | .netLinkChange port sync _ _ _ _ => decide (port < 2) && syncFits sync
  | .netRxFrame port frame error => decide (port < 2) && !frame.isEmpty && decide (error < 3)
  | .netTxDone port => decide (port < 2)
  | .mdioWrite bus _ => portBus bus
  | .mdioRead bus _ => portBus bus
  | .mdioDone _ => true
  | .telegramWindowEnd source _ => decide (source < 8)
  | .keyMemoryExpiry source _ => decide (source < 8)
  | .telegramTimeout source => decide (source < 8)
  | .timeSet bus => portBus bus
  | .timeStep bus => portBus bus
  | .timeSlew bus => portBus bus
  | .timeCancel bus => portBus bus
  | .timeDiscipline bus => portBus bus
  | .slewComplete => true
  | .incrementApply bus _ => portBus bus
  | .holdWrite bus _ => portBus bus
  | .holdoverTimeout => true
  | .nowLatch bus => portBus bus
  | .triggerArm bus n _ => portBus bus && decide (n < 8)
  | .triggerDisable bus n _ => portBus bus && decide (n < 8)
  | .triggerFire n => decide (n < 8)
  | .ppsEnd => true
  | .capture n _ => decide (n < 8)
  | .capturePop bus n => portBus bus && decide (n < 8)
  | .loopSample n => decide (n < 8)
  | .loopComputeStart => true
  | .loopComputeEnd => true
  | .loopOutput n => decide (n < 8)
  | .loopEnable bus n _ => portBus bus && decide (n < 8)
  | .loopDisable bus n _ => portBus bus && decide (n < 8)
  | .loopClear bus n _ => portBus bus && decide (n < 8)
  | .loopCommit bus _ => portBus bus
  | .driveTotalReceive _ => true
  | .adcConversionStart c => decide (c < 4)
  | .adcConversionEnd c _ => decide (c < 4)
  | .imuTransactionStart => true
  | .imuTransactionEnd data => decide (data.length ≤ 16)
  | .setpPeriodStart n => decide (n < 8)
  | .setpointWrite bus n _ => portBus bus && decide (n < 8)
  | .lenWrite bus _ => portBus bus
  | .laceFrameReady chain data => decide (chain < 2) && readFits data
  | .laceTrigger chain => decide (chain < 2)
  | .laceFrameStart chain => decide (chain < 2)
  | .laceGapEnd chain => decide (chain < 2)
  | .laceCommit bus _ => portBus bus
  | .laceDisable bus chain _ => portBus bus && decide (chain < 2)
  | .presetLoad bus ctx _ => portBus bus && decide (ctx < 4)
  | .faultAssert source _ heads detail _ => decide (source < 63) && decide (heads < 4) && decide (detail < 65536)
  | .faultConditionClear source _ => decide (source < 63)
  | .eventOutput => true
  | .stickyClear bus _ _ => portBus bus
  | .counterClear bus _ _ => portBus bus
  | .firstFaultClear bus _ => portBus bus
  | .severityWrite bus k _ => portBus bus && decide (k < 8)
  | .injectArm bus _ => portBus bus
  | .collectorSelfFail => true
  | .faultResetRequest => true
  | .clockMonitorGate clock count => decide (clock < 7) && decide (count < 65536)
  | .safeNAssert => true
  | .safeNRelease => true
  | .autoClearExpiry source => (source == 12 || source == 52)
  | .heartbeatWrite bus _ => portBus bus
  | .heartbeatGraceEnd => true
  | .heartbeatTimeout => true
  | .watchdogExpiry index => decide (index < 6)
  | .unlockOpen bus => portBus bus
  | .unlockCommit bus => portBus bus
  | .safecfgCommitEnd _ => true
  | .unlockAbandon bus => portBus bus
  | .sessionTimeout => true
  | .lockoutEnd => true
  | .safecfgCheck _ => true
  | .hkRoundStart => true
  | .hkConversion code => decide (code < 4096)
  | .hkEvaluation => true
  | .hkDisable bus _ => portBus bus
  | .idleEnter => true
  | .idleExit => true
  | .pwrDoze bus => portBus bus
  | .pwrSleep bus => portBus bus
  | .pwrOff bus => portBus bus
  | .pwrRun bus => portBus bus
  | .dozeTimerExpiry => true
  | .sleepTimerExpiry => true
  | .blockAnswer => true
  | .askTimeout => true
  | .saveDone => true
  | .entryComplete => true
  | .wake source => decide (source < 256)
  | .wakeTimerExpiry => true
  | .powerGood domain => decide (domain < 8)
  | .powerGoodTimeout domain => decide (domain < 8)
  | .exitComplete _ => true
  | .powerOnDetect => true
  | .resetNAssert => true
  | .resetNRelease => true
  | .aoBrownOut => true
  | .coreBrownOut => true
  | .softwareWarm bus _ => portBus bus
  | .softwareCold bus _ => portBus bus
  | .softwareHost bus _ => portBus bus
  | .softwareResetRelease => true
  | .perstN => true
  | .hotReset => true
  | .linkDown => true
  | .functionLevelReset => true
  | .resetRelease => true
  | .releaseStepComplete => true
  | .blockReset bus _ => portBus bus
  | .blockResetRelease block => decide (block < 9)
  | .bootWrite => true
  | .bootMaskWrite => true
  | .bootPoll => true
  | .bootSlipSearch => true
  | .bootLoadTiles => true
  | .bootWait => true
  | .bootWaitExpiry => true
  | .bootRecordTimeout => true
  | .bootEnd => true
  | .bootRun bus => portBus bus
  | .bootStop bus => portBus bus
  | .kpsOperationEnd _ => true
  | .kpsScrubSector _ _ => true
  | .fuseProgram bus _ => portBus bus
  | .fuseProgramEnd _ => true
  | .windowReadHi bus => portBus bus
  | .svcWrite frame => decide (frame.length = 10)
  | .svcRead frame _ => decide (frame.length = 6)
  | .svcBadCommand frame => !frame.isEmpty
  | .svcFrameDiscard => true
  | .parityBgCheck _ => true
  | .perstNRelease => true
  | .pcieLinkUp rate width => decide (1 ≤ rate) && decide (rate < 4) && decide (1 ≤ width) && decide (width < 16)
  | .regRead addr enables _ => addrFits addr && enablesFit enables
  | .netTxReadDone port data => decide (port < 2) && readFits data
  | .powerDomainRetry domain => decide (domain < 8)
  | .refLoss => true
  | .refReturn => true
  | .bootPollRead => true

/-- The register word that a register-access row acts on, as a byte address of BAR0 (21 R685). -/
def Instr.regAddr : Instr → Option Nat
  | .regWrite _ addr _ _ => some (addr)
  | .doorbell _ ring _ _ => some (0x02000 + 8 * ring)
  | .ringEnable _ ring _ => some (0x03108 + 0x20 * ring)
  | .ringDisable _ ring _ => some (0x03108 + 0x20 * ring)
  | .ringEngineEnable _ => some (0x03000)
  | .ringEngineDisable _ => some (0x03000)
  | .journalResume _ => some (0x03008)
  | .journalForget _ => some (0x03008)
  | .nop _ _ => none
  | .layerSet _ _ => none
  | .layerData _ _ => none
  | .commit _ _ => none
  | .paramBlockReadDone _ _ _ _ => none
  | .layerDataTransferEnd _ _ _ _ => none
  | .objects _ _ => none
  | .objectsListReadDone _ _ _ => none
  | .calUpload _ _ => none
  | .calUploadValidated _ => none
  | .calMergeEnd => none
  | .lastWrite _ _ _ => none
  | .crcJob _ _ => none
  | .crcJobEnd _ _ => none
  | .laceFrame _ _ => none
  | .netTx _ _ => none
  | .netRxBuf _ _ => none
  | .queryReadRegister _ _ => none
  | .queryApproveProposal _ _ => none
  | .queryDeclineProposal _ _ => none
  | .fence _ _ => none
  | .abort _ _ => none
  | .ltrHoldoffExpiry => none
  | .irqCoalesceTimeout _ => none
  | .pcieAerUncorr => none
  | .budgetPeriodStart _ _ => none
  | .eccWriteback => none
  | .budgetWrite _ client _ => some (0x04040 + 4 * client)
  | .regionWrite _ k _ => some (0x04100 + 4 * k)
  | .scrubEnable _ _ => some (0x04000)
  | .scrubDisable _ _ => some (0x04000)
  | .bankRetireStart => none
  | .bankCopyEnd => none
  | .headStart _ head _ => some (0x07000 + 0x1000 * head.number)
  | .headStop _ head _ => some (0x07000 + 0x1000 * head.number)
  | .tgCommit _ head => some (0x07000 + 0x1000 * head.number + 8)
  | .tgCommitCheckEnd _ => none
  | .sweepStart _ _ => none
  | .tgTriggerArrive _ => none
  | .triggerWaitTimeout _ => none
  | .cut _ => none
  | .lateRow _ _ _ => none
  | .driveTotalSend _ => none
  | .stitch _ _ => none
  | .stitchSlackEnd _ => none
  | .mapCheck _ head => some (0x20100 + 0x100 * head.number)
  | .shadowDisable _ _ => some (0x20000)
  | .toneSwap _ head => some (0x28104 + 0x100 * head.number)
  | .toneCheckEnd _ => none
  | .headroomWrite _ head n _ => some (0x28120 + 0x100 * head.number + 4 * n)
  | .ageWrite _ k _ => some (0x18400 + 4 * k)
  | .healthClear _ head _ => some (0x19038 + 0x1000 * head.number)
  | .doseCheckpointTimer => none
  | .doseCkptNow _ _ => some (0x18008)
  | .slipStart _ lane _ => some (laneAddr lane)
  | .cdrLock _ => none
  | .slipSearchEnd _ _ _ => none
  | .laneLost _ _ _ _ => none
  | .eqUpdate _ _ => none
  | .eyeScanStart _ => none
  | .eyeScanEnd _ _ _ _ => none
  | .trimStep _ => none
  | .lanePstate _ lane _ => some (laneAddr lane)
  | .laneActive _ => none
  | .clearCounts _ block _ => some (0x09000 + 0x1000 * block)
  | .ackReceived _ _ _ => none
  | .replayTimeout _ _ => none
  | .statusReceived _ _ _ => none
  | .configRepeat _ _ => none
  | .statusTimeout _ _ => none
  | .tempReceived _ _ _ => none
  | .tempTimeout _ _ => none
  | .healthReceived _ _ _ => none
  | .echoReceived _ _ _ => none
  | .echoDeadline _ _ => none
  | .commandRepeat _ => none
  | .requestStatus _ head _ => some (0x0C014 + 0x400 * head.number)
  | .requestTest _ head _ => some (0x0C014 + 0x400 * head.number)
  | .requestUnconfig _ head _ => some (0x0C014 + 0x400 * head.number)
  | .forwardRequest _ head _ => some (0x0C008 + 0x400 * head.number)
  | .forwardReturn _ head _ => some (0x0C008 + 0x400 * head.number)
  | .netPortEnable _ port _ => some (0x0D100 + 0x100 * port)
  | .netPortDisable _ port _ => some (0x0D100 + 0x100 * port)
  | .netLinkChange _ _ _ _ _ _ => none
  | .netRxFrame _ _ _ => none
  | .netTxDone _ => none
  | .mdioWrite _ _ => some (0x0D000)
  | .mdioRead _ _ => some (0x0D000)
  | .mdioDone _ => none
  | .telegramWindowEnd _ _ => none
  | .keyMemoryExpiry _ _ => none
  | .telegramTimeout _ => none
  | .timeSet _ => some (0x0E004)
  | .timeStep _ => some (0x0E004)
  | .timeSlew _ => some (0x0E004)
  | .timeCancel _ => some (0x0E004)
  | .timeDiscipline _ => some (0x0E004)
  | .slewComplete => none
  | .incrementApply _ _ => some (0x0E00C)
  | .holdWrite _ _ => some (0x0E018)
  | .holdoverTimeout => none
  | .nowLatch _ => some (0x0E020)
  | .triggerArm _ n _ => some (0x0E100 + 0x20 * n)
  | .triggerDisable _ n _ => some (0x0E100 + 0x20 * n)
  | .triggerFire _ => none
  | .ppsEnd => none
  | .capture _ _ => none
  | .capturePop _ n => some (0x0E208 + 0x20 * n)
  | .loopSample _ => none
  | .loopComputeStart => none
  | .loopComputeEnd => none
  | .loopOutput _ => none
  | .loopEnable _ n _ => some (0x0F100 + 0x80 * n)
  | .loopDisable _ n _ => some (0x0F100 + 0x80 * n)
  | .loopClear _ n _ => some (0x0F100 + 0x80 * n)
  | .loopCommit _ _ => some (0x0F004)
  | .driveTotalReceive _ => none
  | .adcConversionStart _ => none
  | .adcConversionEnd _ _ => none
  | .imuTransactionStart => none
  | .imuTransactionEnd _ => none
  | .setpPeriodStart _ => none
  | .setpointWrite _ n _ => some (setpointWord n)
  | .lenWrite _ _ => some (0x0F008)
  | .laceFrameReady _ _ => none
  | .laceTrigger _ => none
  | .laceFrameStart _ => none
  | .laceGapEnd _ => none
  | .laceCommit _ _ => some (0x10000)
  | .laceDisable _ chain _ => some (0x10100 + 0x100 * chain)
  | .presetLoad _ ctx _ => some (0x11100 + 0x20 * ctx)
  | .faultAssert _ _ _ _ _ => none
  | .faultConditionClear _ _ => none
  | .eventOutput => none
  | .stickyClear _ high _ => some (if high then 0x12014 else 0x12010)
  | .counterClear _ high _ => some (if high then 0x120A4 else 0x120A0)
  | .firstFaultClear _ _ => some (0x12060)
  | .severityWrite _ k _ => some (0x12020 + 4 * k)
  | .injectArm _ _ => some (0x12080)
  | .collectorSelfFail => none
  | .faultResetRequest => none
  | .clockMonitorGate _ _ => none
  | .safeNAssert => none
  | .safeNRelease => none
  | .autoClearExpiry _ => none
  | .heartbeatWrite _ _ => some (0x13040)
  | .heartbeatGraceEnd => none
  | .heartbeatTimeout => none
  | .watchdogExpiry _ => none
  | .unlockOpen _ => some (0x1300C)
  | .unlockCommit _ => some (0x1300C)
  | .safecfgCommitEnd _ => none
  | .unlockAbandon _ => some (0x1300C)
  | .sessionTimeout => none
  | .lockoutEnd => none
  | .safecfgCheck _ => none
  | .hkRoundStart => none
  | .hkConversion _ => none
  | .hkEvaluation => none
  | .hkDisable _ _ => some (0x14000)
  | .idleEnter => none
  | .idleExit => none
  | .pwrDoze _ => some (0x15008)
  | .pwrSleep _ => some (0x15008)
  | .pwrOff _ => some (0x15008)
  | .pwrRun _ => some (0x15008)
  | .dozeTimerExpiry => none
  | .sleepTimerExpiry => none
  | .blockAnswer => none
  | .askTimeout => none
  | .saveDone => none
  | .entryComplete => none
  | .wake _ => none
  | .wakeTimerExpiry => none
  | .powerGood _ => none
  | .powerGoodTimeout _ => none
  | .exitComplete _ => none
  | .powerOnDetect => none
  | .resetNAssert => none
  | .resetNRelease => none
  | .aoBrownOut => none
  | .coreBrownOut => none
  | .softwareWarm _ _ => some (0x16004)
  | .softwareCold _ _ => some (0x16004)
  | .softwareHost _ _ => some (0x16004)
  | .softwareResetRelease => none
  | .perstN => none
  | .hotReset => none
  | .linkDown => none
  | .functionLevelReset => none
  | .resetRelease => none
  | .releaseStepComplete => none
  | .blockReset _ _ => some (0x16008)
  | .blockResetRelease _ => none
  | .bootWrite => none
  | .bootMaskWrite => none
  | .bootPoll => none
  | .bootSlipSearch => none
  | .bootLoadTiles => none
  | .bootWait => none
  | .bootWaitExpiry => none
  | .bootRecordTimeout => none
  | .bootEnd => none
  | .bootRun _ => some (0x16014)
  | .bootStop _ => some (0x16014)
  | .kpsOperationEnd _ => none
  | .kpsScrubSector _ _ => none
  | .fuseProgram _ _ => some (0x1C080)
  | .fuseProgramEnd _ => none
  | .windowReadHi _ => some (0x1C078)
  | .svcWrite _ => none
  | .svcRead _ _ => none
  | .svcBadCommand _ => none
  | .svcFrameDiscard => none
  | .parityBgCheck _ => none
  | .perstNRelease => none
  | .pcieLinkUp _ _ => none
  | .regRead addr _ _ => some (addr)
  | .netTxReadDone _ _ => none
  | .powerDomainRetry _ => none
  | .refLoss => none
  | .refReturn => none
  | .bootPollRead => none

end Sys2Proof
end

