-- ==== Sys2Proof/Safety.lean ====
section
/-! DEFINITION. The terms that the statements use: when a register write reaches its word, which parts of the state two
states agree on, what stays true of every state that a run reaches, and what a safe step does. -/

namespace Sys2Proof.Machine

/-- A write of the whole word at byte address `addr` through port `b` reaches the word: the port works (21 R690, R695), it
serves the word (02 R53), the boot script keeps it out of nothing (19 R654), the word's block can serve an access
(21 R690), and no armed injection spoils the frame's check (15 R543). -/
def reaches (s : State) (b : Bus) (addr : Nat) : Bool :=
  decide (addr < 0x40000) && !inDoorbells (addr / 4) && !scriptKeeps s b (addr / 4) && windowServes s (addr / 4)
    && (match b with
        | .pcie => hostLive s
        | .service => aoLive s && !notServed (addr / 4) && !injArmed s 58
        | .script => false)

/-- A read of the word at `addr` through port `b` is served. -/
def readReaches (s : State) (b : Bus) (addr : Nat) : Bool :=
  decide (addr < 0x40000) && !inDoorbells (addr / 4) && windowServes s (addr / 4)
    && (match b with
        | .pcie => hostLive s
        | .service => aoLive s && !notServed (addr / 4) && !injArmed s 58
        | .script => false)

/-- The parts of the state, by the chapters that give them. -/
inductive Part where
  | out | free | regs | mem | flt | saf | rst | pwr | rng | hif | crc | glb | lmm | ly | shd | bld | pxc | tg | lanes | tbl
  | net | tim | cle | lce | hkp | kps | cbl
deriving DecidableEq, Repr

/-- The fault collector without the model's own mark of a command's cycle (log 50). -/
def fltCore (f : Flt) : Flt := { f with cycle := none }

/-- Two states agree on a part. -/
def agree (p : Part) (s t : State) : Prop :=
  match p with
  | .out => t.out = s.out
  | .free => t.free = s.free
  | .regs => t.regs = s.regs ∧ t.tableBad = s.tableBad
  | .mem => t.mem = s.mem
  | .flt => fltCore t.flt = fltCore s.flt
  | .saf => t.saf = s.saf
  | .rst => t.rst = s.rst
  | .pwr => t.pwr = s.pwr
  | .rng => t.rng = s.rng
  | .hif => t.hif = s.hif
  | .crc => t.crc = s.crc
  | .glb => t.glb = s.glb
  | .lmm => t.lmm = s.lmm
  | .ly => t.ly = s.ly
  | .shd => t.shd = s.shd ∧ t.shdRefused = s.shdRefused ∧ t.shdNode = s.shdNode
  | .bld => t.bld = s.bld ∧ t.bldEntry = s.bldEntry
  | .pxc => t.pxc = s.pxc
  | .tg => t.tg = s.tg
  | .lanes => t.lanes = s.lanes ∧ t.laneBlocks = s.laneBlocks ∧ t.txRd = s.txRd
  | .tbl => t.tbl = s.tbl
  | .net => t.net = s.net
  | .tim => t.tim = s.tim
  | .cle => t.cle = s.cle
  | .lce => t.lce = s.lce
  | .hkp => t.hkp = s.hkp
  | .kps => t.kps = s.kps
  | .cbl => t.cbl = s.cbl

/-- From `s` to `t` at most the parts of `ps` change; the queue of waiting commands stays as it is. -/
def onlyChanges (ps : List Part) (s t : State) : Prop := t.pending = s.pending ∧ ∀ p, p ∉ ps → agree p s t

/-- What an assertion in the fault collector may change: the collector and what follows from its requests (15 R528, 16 R548),
messages and lane commands that leave with a stopped head's headroom (08 R734), a wake event with the lanes it returns (18 R623),
and free values. -/
def faultParts : List Part := [.out, .free, .flt, .saf, .pwr, .hif, .bld, .lanes]

/-- What a register access through a port may change besides its word's own effect: register words, GLB_ACCESS, a host write
that the boot script refuses, the answer, and what a spent injection or a parity error raises (19 R654, 21 R693, R701). -/
def portParts : List Part := faultParts ++ [.regs, .glb, .rst]

/-- What descriptors that go on after a command may change besides the parts of an assertion (02 R73, R80). -/
def ringParts : List Part := [.regs, .rng, .glb, .lmm, .ly, .shd, .pxc, .tg, .tbl, .net, .tim, .lce, .kps, .cbl]

/-- What a write in a 4 KiB window of the register space may change besides the parts of a port access (21 R685). -/
def windowParts (window : Nat) : List Part :=
  match window with
  | 2 => [.rng]
  | 3 => [.mem, .rng, .lmm, .ly, .shd, .pxc, .tg, .tbl, .net, .lce, .kps, .cbl]
  | 4 => [.lmm]
  | 5 => [.ly]
  | 6 => [.ly]
  | 7 => [.mem, .rng, .lmm, .ly, .shd, .pxc, .tg, .tbl, .kps, .cbl]
  | 8 => [.mem, .rng, .lmm, .ly, .shd, .pxc, .tg, .tbl, .kps, .cbl]
  | 9 => [.rng, .tg, .net]
  | 10 => [.rng, .tg, .net]
  | 11 => [.rng, .tg, .net]
  | 12 => [.rng, .tg, .tbl, .kps, .cbl]
  | 13 => [.rng, .net]
  | 14 => [.tg, .tim, .cle]
  | 15 => [.cle]
  | 16 => [.lce]
  | 17 => [.crc]
  | 19 => [.rng, .tbl, .kps]
  | 20 => [.hkp]
  | 22 => [.mem, .rng, .crc, .lmm, .ly, .shd, .pxc, .tg, .tbl, .net, .tim, .cle, .lce, .hkp, .kps, .cbl]
  | n =>
    if 24 ≤ n ∧ n < 28 then [.mem, .rng, .lmm, .ly, .pxc, .tg, .tbl, .kps, .cbl]
    else if 28 ≤ n ∧ n < 32 then [.kps]
    else if 32 ≤ n ∧ n < 40 then [.shd]
    else if 40 ≤ n ∧ n < 48 then []
    else []

/-- The parts of the state that a command may change, whatever the state: no other part is touched. -/
def touches : Instr → List Part
  | .regWrite _ addr _ _ => portParts ++ ringParts ++ windowParts (addr / 0x1000)
  | .doorbell _ _ _ _ => portParts ++ ringParts
  | .ringEnable _ _ _ => portParts ++ ringParts
  | .ringDisable _ _ _ => portParts ++ ringParts
  | .ringEngineEnable _ => portParts ++ ringParts
  | .ringEngineDisable _ => portParts ++ ringParts
  | .journalResume _ => portParts ++ ringParts ++ [.mem]
  | .journalForget _ => portParts ++ ringParts ++ [.mem]
  | .nop _ _ => faultParts ++ ringParts
  | .layerSet _ _ => faultParts ++ ringParts
  | .layerData _ _ => faultParts ++ ringParts
  | .commit _ _ => faultParts ++ ringParts
  | .paramBlockReadDone _ _ _ _ => faultParts ++ ringParts
  | .layerDataTransferEnd _ _ _ _ => faultParts ++ ringParts ++ [.mem]
  | .objects _ _ => faultParts ++ ringParts
  | .objectsListReadDone _ _ _ => faultParts ++ ringParts
  | .calUpload _ _ => faultParts ++ ringParts
  | .calUploadValidated _ => faultParts ++ ringParts
  | .calMergeEnd => faultParts ++ ringParts ++ [.mem]
  | .lastWrite _ _ _ => faultParts ++ ringParts
  | .crcJob _ _ => faultParts ++ ringParts
  | .crcJobEnd _ _ => faultParts ++ ringParts ++ [.crc]
  | .laceFrame _ _ => faultParts ++ ringParts
  | .netTx _ _ => faultParts ++ ringParts
  | .netRxBuf _ _ => faultParts ++ ringParts
  | .queryReadRegister _ _ => faultParts ++ ringParts
  | .queryApproveProposal _ _ => faultParts ++ ringParts
  | .queryDeclineProposal _ _ => faultParts ++ ringParts
  | .fence _ _ => faultParts ++ ringParts
  | .abort _ _ => faultParts ++ ringParts
  | .ltrHoldoffExpiry => faultParts ++ ringParts
  | .irqCoalesceTimeout _ => [.out, .rng, .hif]
  | .pcieAerUncorr => faultParts ++ [.rng, .net]
  | .budgetPeriodStart _ _ => faultParts ++ [.regs, .mem, .rng, .lmm, .ly, .pxc, .tg, .tbl, .net, .kps, .cbl]
  | .eccWriteback => faultParts ++ [.regs, .rng, .lmm, .net]
  | .budgetWrite _ _ _ => portParts ++ [.lmm]
  | .regionWrite _ _ _ => portParts ++ [.lmm]
  | .scrubEnable _ _ => portParts
  | .scrubDisable _ _ => portParts
  | .bankRetireStart => [.lmm]
  | .bankCopyEnd => faultParts ++ [.regs, .mem, .rng, .lmm, .ly, .pxc, .tg, .tbl, .kps, .cbl]
  | .headStart _ _ _ => portParts ++ ringParts ++ [.mem]
  | .headStop _ _ _ => portParts ++ ringParts ++ [.mem]
  | .tgCommit _ _ => portParts ++ [.tg]
  | .tgCommitCheckEnd _ => faultParts ++ ringParts
  | .sweepStart _ _ => faultParts ++ ringParts ++ [.mem]
  | .tgTriggerArrive _ => [.out, .free, .flt, .pwr, .rng, .hif, .tg, .net]
  | .triggerWaitTimeout _ => [.tg]
  | .cut _ => faultParts ++ ringParts ++ [.mem]
  | .lateRow _ _ _ => faultParts ++ [.rng, .ly, .tg, .tbl, .net]
  | .driveTotalSend _ => [.bld, .tg, .cle]
  | .stitch _ _ => faultParts ++ ringParts ++ [.mem]
  | .stitchSlackEnd _ => faultParts ++ ringParts ++ [.mem, .cle]
  | .mapCheck _ _ => portParts ++ [.shd]
  | .shadowDisable _ _ => portParts ++ [.shd]
  | .toneSwap _ _ => portParts
  | .toneCheckEnd _ => [.out, .free, .flt, .pwr, .rng, .hif, .bld, .net]
  | .headroomWrite _ _ _ _ => portParts
  | .ageWrite _ _ _ => portParts ++ [.pxc]
  | .healthClear _ _ _ => portParts ++ [.mem, .rng, .lmm, .ly, .pxc, .tg, .tbl, .kps, .cbl]
  | .doseCheckpointTimer => [.out, .free, .flt, .pwr, .rng, .hif, .pxc, .net, .kps]
  | .doseCkptNow _ _ => portParts ++ [.rng, .pxc, .kps]
  | .slipStart _ _ _ => portParts ++ [.rng, .net]
  | .cdrLock _ => faultParts ++ [.regs, .rst, .rng, .tbl, .kps, .cbl]
  | .slipSearchEnd _ _ _ => faultParts ++ [.regs, .rst, .rng, .tbl, .net, .kps, .cbl]
  | .laneLost _ _ _ _ => faultParts ++ [.regs, .rng, .tbl, .net, .kps, .cbl]
  | .eqUpdate _ _ => faultParts ++ [.regs, .rng, .net]
  | .eyeScanStart _ => [.lanes]
  | .eyeScanEnd _ _ _ _ => faultParts ++ [.regs, .rng, .tbl, .net, .kps, .cbl]
  | .trimStep _ => [.lanes]
  | .lanePstate _ _ _ => portParts ++ [.rng, .net]
  | .laneActive _ => faultParts ++ [.regs, .rst, .rng, .tbl, .net, .kps, .cbl]
  | .clearCounts _ _ _ => portParts ++ [.tg]
  | .ackReceived _ _ _ => faultParts ++ [.regs, .mem, .rng, .lmm, .ly, .pxc, .tg, .tbl, .net, .kps, .cbl]
  | .replayTimeout _ _ => faultParts ++ [.regs, .mem, .rng, .lmm, .ly, .pxc, .tg, .tbl, .kps, .cbl]
  | .statusReceived _ _ _ => faultParts ++ [.regs, .rst, .rng, .tbl, .net, .kps, .cbl]
  | .configRepeat _ _ => [.out, .free, .lanes]
  | .statusTimeout _ _ => faultParts ++ [.rng, .tbl, .net]
  | .tempReceived _ _ _ => faultParts ++ [.rng, .tbl, .net]
  | .tempTimeout _ _ => [.out, .free, .flt, .pwr, .rng, .hif, .tbl, .net]
  | .healthReceived _ _ _ => faultParts ++ [.regs, .mem, .rng, .lmm, .ly, .pxc, .tg, .tbl, .net, .kps, .cbl]
  | .echoReceived _ _ _ => faultParts ++ [.rng, .tbl, .net]
  | .echoDeadline _ _ => faultParts ++ [.rng, .tbl, .net]
  | .commandRepeat _ => [.out, .free, .lanes]
  | .requestStatus _ _ _ => portParts ++ [.tbl]
  | .requestTest _ _ _ => portParts ++ [.tbl]
  | .requestUnconfig _ _ _ => portParts ++ [.tbl]
  | .forwardRequest _ _ _ => portParts ++ [.rng, .tbl, .kps, .cbl]
  | .forwardReturn _ _ _ => portParts ++ [.rng, .tbl, .kps, .cbl]
  | .netPortEnable _ _ _ => portParts ++ [.rng, .net]
  | .netPortDisable _ _ _ => portParts ++ [.rng, .net]
  | .netLinkChange _ _ _ _ _ _ => faultParts ++ [.rng, .net]
  | .netRxFrame _ _ _ => faultParts ++ ringParts
  | .netTxDone _ => faultParts ++ ringParts
  | .mdioWrite _ _ => portParts ++ [.net]
  | .mdioRead _ _ => portParts ++ [.net]
  | .mdioDone _ => [.net]
  | .telegramWindowEnd _ _ => faultParts ++ [.rng, .net]
  | .keyMemoryExpiry _ _ => [.net]
  | .telegramTimeout _ => faultParts ++ [.rng, .net]
  | .timeSet _ => portParts ++ [.tim]
  | .timeStep _ => portParts ++ [.tim]
  | .timeSlew _ => portParts ++ [.tim]
  | .timeCancel _ => portParts ++ [.tim]
  | .timeDiscipline _ => portParts ++ [.tim]
  | .slewComplete => [.tim]
  | .incrementApply _ _ => portParts ++ [.tim]
  | .holdWrite _ _ => portParts ++ [.tim]
  | .holdoverTimeout => faultParts ++ [.rng, .net, .tim]
  | .nowLatch _ => portParts ++ [.tim]
  | .triggerArm _ _ _ => portParts ++ [.tg, .tim, .cle]
  | .triggerDisable _ _ _ => portParts ++ [.tg, .tim, .cle]
  | .triggerFire _ => [.out, .free, .flt, .pwr, .rng, .hif, .lanes, .net, .tim]
  | .ppsEnd => [.out, .tim]
  | .capture _ _ => [.out, .free, .hif, .tim]
  | .capturePop _ _ => portParts ++ [.tim]
  | .loopSample _ => [.tim, .cle]
  | .loopComputeStart => [.cle]
  | .loopComputeEnd => [.out, .free, .flt, .pwr, .rng, .hif, .net, .cle]
  | .loopOutput _ => faultParts ++ [.regs, .cle]
  | .loopEnable _ _ _ => portParts ++ [.cle]
  | .loopDisable _ _ _ => portParts ++ [.cle]
  | .loopClear _ _ _ => portParts ++ [.cle]
  | .loopCommit _ _ => portParts ++ [.cle]
  | .driveTotalReceive _ => [.cle]
  | .adcConversionStart _ => [.tim, .cle]
  | .adcConversionEnd _ _ => [.cle]
  | .imuTransactionStart => [.out, .tim, .cle]
  | .imuTransactionEnd _ => faultParts ++ [.cle]
  | .setpPeriodStart _ => [.cle]
  | .setpointWrite _ _ _ => portParts ++ [.cle]
  | .lenWrite _ _ => portParts
  | .laceFrameReady _ _ => faultParts ++ ringParts
  | .laceTrigger _ => faultParts ++ [.rng, .net, .lce]
  | .laceFrameStart _ => faultParts ++ ringParts
  | .laceGapEnd _ => faultParts ++ ringParts
  | .laceCommit _ _ => portParts ++ [.lce]
  | .laceDisable _ _ _ => portParts ++ [.lce]
  | .presetLoad _ _ _ => portParts ++ [.crc]
  | .faultAssert _ _ _ _ _ => faultParts ++ [.regs, .mem, .rng, .lmm, .ly, .pxc, .tg, .tbl, .net, .kps, .cbl]
  | .faultConditionClear _ _ => faultParts
  | .eventOutput => [.out, .flt, .rng, .hif]
  | .stickyClear _ _ _ => portParts
  | .counterClear _ _ _ => portParts
  | .firstFaultClear _ _ => portParts
  | .severityWrite _ _ _ => portParts
  | .injectArm _ _ => portParts
  | .collectorSelfFail => faultParts ++ [.rng, .net]
  | .faultResetRequest => portParts ++ ringParts ++ [.mem, .crc, .cle, .hkp]
  | .clockMonitorGate _ _ => faultParts ++ [.rng, .net]
  | .safeNAssert => faultParts ++ [.rng, .net]
  | .safeNRelease => faultParts
  | .autoClearExpiry _ => [.out, .free, .flt, .saf, .pwr, .bld, .lanes]
  | .heartbeatWrite _ _ => portParts
  | .heartbeatGraceEnd => [.saf]
  | .heartbeatTimeout => faultParts ++ [.rng, .net]
  | .watchdogExpiry _ => faultParts ++ [.rng, .net]
  | .unlockOpen _ => portParts ++ [.rng, .tbl, .kps]
  | .unlockCommit _ => portParts ++ [.rng, .tbl, .kps]
  | .safecfgCommitEnd _ => faultParts ++ [.regs, .rng, .pxc, .tbl, .net, .kps, .cbl]
  | .unlockAbandon _ => portParts ++ [.rng, .tbl, .kps]
  | .sessionTimeout => faultParts ++ [.regs, .rng, .tbl, .kps]
  | .lockoutEnd => [.saf]
  | .safecfgCheck _ => faultParts ++ [.rng, .net]
  | .hkRoundStart => [.out, .free, .flt, .pwr, .rng, .hif, .net, .tim, .hkp]
  | .hkConversion _ => [.out, .free, .flt, .pwr, .rng, .hif, .net, .hkp]
  | .hkEvaluation => faultParts ++ [.rng, .pxc, .net, .hkp, .kps]
  | .hkDisable _ _ => portParts ++ [.hkp]
  | .idleEnter => [.free, .pwr, .hif]
  | .idleExit => [.pwr, .hif]
  | .pwrDoze _ => portParts
  | .pwrSleep _ => portParts
  | .pwrOff _ => portParts
  | .pwrRun _ => portParts
  | .dozeTimerExpiry => [.pwr]
  | .sleepTimerExpiry => [.pwr]
  | .blockAnswer => faultParts ++ [.rng, .pxc, .net, .kps]
  | .askTimeout => faultParts ++ [.rng, .net]
  | .saveDone => [.free, .pwr]
  | .entryComplete => faultParts ++ [.regs, .mem, .rst, .rng, .lmm, .ly, .pxc, .tg, .tbl, .net, .tim, .cle, .lce, .hkp, .kps]
  | .wake _ => [.out, .free, .flt, .pwr, .rng, .hif, .lanes, .net]
  | .wakeTimerExpiry => [.out, .free, .regs, .flt, .pwr, .rng, .hif, .lanes, .net]
  | .powerGood _ => faultParts ++ [.rst, .rng, .net, .kps]
  | .powerGoodTimeout _ => faultParts ++ [.rng, .net]
  | .exitComplete _ => portParts ++ ringParts ++ [.mem, .crc, .cle, .hkp]
  | .powerOnDetect => portParts ++ ringParts ++ [.mem, .crc, .cle, .hkp]
  | .resetNAssert => portParts ++ ringParts ++ [.mem, .crc, .cle, .hkp]
  | .resetNRelease => [.rst]
  | .aoBrownOut => portParts ++ ringParts ++ [.mem, .crc, .cle, .hkp]
  | .coreBrownOut => portParts ++ ringParts ++ [.mem, .crc, .cle, .hkp]
  | .softwareWarm _ _ => portParts ++ ringParts ++ [.mem, .crc, .cle, .hkp]
  | .softwareCold _ _ => portParts ++ ringParts ++ [.mem, .crc, .cle, .hkp]
  | .softwareHost _ _ => portParts ++ ringParts ++ [.mem, .crc, .cle, .hkp]
  | .softwareResetRelease => [.rst]
  | .perstN => portParts ++ ringParts ++ [.mem, .crc, .cle, .hkp]
  | .hotReset => faultParts ++ [.regs, .rst, .rng, .ly, .pxc, .tg, .tbl, .net, .kps]
  | .linkDown => portParts ++ ringParts ++ [.mem, .crc, .cle, .hkp]
  | .functionLevelReset => faultParts ++ [.regs, .rst, .rng, .ly, .pxc, .tg, .tbl, .net, .kps]
  | .resetRelease => [.rst]
  | .releaseStepComplete => faultParts ++ [.regs, .mem, .rst, .rng, .lmm, .pxc, .tbl, .net, .kps, .cbl]
  | .blockReset _ _ => portParts ++ ringParts ++ [.crc, .cle, .hkp]
  | .blockResetRelease _ => portParts ++ ringParts
  | .bootWrite => portParts ++ ringParts ++ [.mem, .crc, .cle, .hkp]
  | .bootMaskWrite => portParts ++ ringParts ++ [.mem, .crc, .cle, .hkp]
  | .bootPoll => faultParts ++ [.regs, .rst, .rng, .kps, .cbl]
  | .bootSlipSearch => faultParts ++ [.regs, .rst, .rng, .kps, .cbl]
  | .bootLoadTiles => faultParts ++ [.regs, .rst, .rng, .tbl, .kps, .cbl]
  | .bootWait => faultParts ++ [.regs, .rst, .rng, .kps, .cbl]
  | .bootWaitExpiry => faultParts ++ [.regs, .rst, .rng, .kps, .cbl]
  | .bootRecordTimeout => faultParts ++ [.regs, .rst, .rng, .kps, .cbl]
  | .bootEnd => faultParts ++ [.regs, .rst, .rng, .kps, .cbl]
  | .bootRun _ => portParts ++ [.rng, .kps, .cbl]
  | .bootStop _ => portParts ++ [.rng, .kps, .cbl]
  | .kpsOperationEnd _ => faultParts ++ ringParts ++ [.mem]
  | .kpsScrubSector _ _ => faultParts ++ [.rng, .net, .kps, .cbl]
  | .fuseProgram _ _ => portParts ++ [.kps]
  | .fuseProgramEnd _ => [.out, .free, .flt, .pwr, .rng, .hif, .net, .kps]
  | .windowReadHi _ => portParts ++ [.rng, .kps, .cbl]
  | .svcWrite _ => portParts ++ ringParts ++ [.mem, .crc, .cle, .hkp]
  | .svcRead _ _ => faultParts ++ [.regs, .rng, .glb, .net, .tim, .kps, .cbl]
  | .svcBadCommand _ => faultParts ++ [.regs, .glb]
  | .svcFrameDiscard => [.glb]
  | .parityBgCheck _ => faultParts ++ [.regs, .rng, .glb, .net]
  | .perstNRelease => [.rst]
  | .pcieLinkUp _ _ => portParts ++ ringParts
  | .regRead _ _ _ => faultParts ++ [.regs, .rng, .glb, .net, .tim, .kps, .cbl]
  | .netTxReadDone _ _ => faultParts ++ ringParts
  | .powerDomainRetry _ => [.pwr]
  | .refLoss => [.pwr]
  | .refReturn => [.pwr]
  | .bootPollRead => portParts ++ [.rng, .tim, .kps, .cbl]

/-- From `s` to `t` every register word but `idx` keeps its value. -/
def otherWords (idx : Nat) (s t : State) : Prop := ∀ i, i ≠ idx → getReg t i = getReg s i

/-- No descriptor fetched outside change sets waits or executes, and no journal holds the rings (02 R94, R100). -/
def ringsIdle (s : State) : Bool := s.rng.work.isEmpty && s.rng.journal.isNone

/-- Every fetched descriptor executes and none is a FENCE, so that no end of another lets one go on (02 R73, R80). -/
def ringsQuiet (s : State) : Bool := s.rng.work.all (fun w => w.stage != 0 && w.desc.opcode != 12)

/-- From `s` to `t` every byte of light memory outside the `n` bytes at `a` reads as before. -/
def otherBytes (a n : Nat) (s t : State) : Prop := ∀ x, x < a ∨ a + n ≤ x → memGet t x = memGet s x

/-- Ring `n` gives up descriptor `d` and it executes at once: the ring can fetch (02 R68, R69), the unit takes it, its DCRC
passes where it is checked (02 R76), it carries no BARRIER (02 R73), its completions go to a COMPLETE ring, and nothing else
executes. -/
def fetchable (s : State) (n : Nat) (d : Desc) : Bool :=
  ringFetches s n && !unitBusy s (ringRole s n) d && ringsIdle s && !descFlag d 2 && ringKind s (ringCpl s n) == 1
    && (!bit (ringCfg s n) 1 || (d.dcrc == dcrcOf n (ringOf s n).devIdx d && !injHits s 10 n))

/-- The entry that a fetched descriptor has among those that execute. -/
def fetchedWork (s : State) (n : Nat) (d : Desc) (data : HostRead) (stage : Nat) : Work :=
  { ring := n, slot := (ringOf s n).devIdx, role := ringRole s n, cpl := ringCpl s n, desc := d, dcrcOk := true, stage := stage,
    waits := [], stitches := 0, data := data, bad := fetchBad s (ringRole s n) d, closes := none }

/-- The member of a change set that a fetched descriptor becomes. -/
def fetchedMember (s : State) (n : Nat) (d : Desc) : Member :=
  { ring := n, slot := (ringOf s n).devIdx, cpl := ringCpl s n, desc := d, dcrcOk := true, block := none, moved := false, range := 0 }

/-- A completion is written to the next slot of completion ring `c` (02 R69, R70, R81). -/
def completed (s t : State) (c code detail : Nat) (tag : Half) (word fsn : Word) : Prop :=
  ∃ e : Cpl, e.code = code ∧ e.detail = detail ∧ e.replayed = false ∧ e.tag = tag ∧ e.word = word ∧ e.fsn = fsn
    ∧ Output.hostWrite (ringBase s c + 16 * (ringOf s c).devIdx) (cplBytes e (ringOf s c).phase) ∈ t.out

/-- A fuse bit reads as blown (20 R679, R680). -/
def fuseBlown (s : State) (w b : Nat) : Bool := bit (fuseOf s w) b

/-- From `s` to `t` no DARK latch is cleared (16 R566). -/
def darkHeld (s t : State) : Prop := ∀ h, s.saf.dark.get h = true → t.saf.dark.get h = true

/-- A step is safe: it goes on, the light memory keeps its canonical form, the commands that wait are those that waited
behind the one taken, no fuse bit is unblown, and a DARK latch falls by a COLD reach or by a telegram alone. -/
def stepSafe (s : State) : Prop :=
  ∃ t, step s = .next t ∧ (memWf s = true → memWf t = true) ∧ t.pending = s.pending.tail
    ∧ (∀ w b, fuseBlown s w b = true → fuseBlown t w b = true)
    ∧ (darkHeld s t ∨ t.rst.reach = 3 ∨ ∃ p f e, s.pending.head? = some (.netRxFrame p f e))

end Sys2Proof.Machine
end

