-- ==== Sys2Proof/Certificates/Slice0/Obligations.lean ====
section
/-! DEFINITION. The statements for the provers, each a proposition about the model that formalises rules of spec/ or an
invariant of the model. -/

open Sys2Proof Sys2Proof.Machine

/-- A step runs the command at the front of the queue on the rest of the state, the queue's own rest in place; on an empty queue
one cycle of the TIME domain passes (log 2). -/
def Obligations.StepRunsTheFrontCommand : Prop :=
  (∀ (s : State) (c : Instr), Sys2Proof.Machine.step { s with pending := c :: s.pending } = Sys2Proof.Machine.exec c s)
  ∧ (∀ s : State, s.pending = [] → ∃ t, Sys2Proof.Machine.step s = .next t ∧ t = tick s)

/-- 11 R430, R431, R434: on an empty queue the time counter takes one increment and the slew in force, no register and no byte
of memory changes, and the counter stands while its domain is off or in reset. That a step on an empty queue is such a cycle is
the model's choice (log 2). -/
def Obligations.IdleStepsCountTime : Prop :=
  (∀ s : State, s.pending = [] → ctrlLive s = true → s.tim.slew = 0 →
    ∃ t, Sys2Proof.Machine.step s = .next t ∧ t.tim = { s.tim with counter := s.tim.counter + s.tim.increment, cycles := s.tim.cycles + 1 }
      ∧ t.regs = s.regs ∧ t.mem = s.mem ∧ t.out = s.out)
  ∧ (∀ (s : State) (r : Nat), s.pending = [] → ctrlLive s = true → r = (regAt s 0x0E014).toNat → 0 < s.tim.slew →
    ∃ t, Sys2Proof.Machine.step s = .next t
      ∧ t.tim.slew = (if s.tim.slew < r then 0 else s.tim.slew - r)
      ∧ t.tim.counter = s.tim.counter + s.tim.increment + (if s.tim.slew < r then s.tim.slew.toNat else r))
  ∧ (∀ s : State, s.pending = [] → ctrlLive s = false → ∃ t, Sys2Proof.Machine.step s = .next t ∧ t = s)

/-- 15 R523, 16 R548, R566, 18 R633, 19 R634, R642: right after power-on a COLD reach stands with the power-on detector as its
cause, no fault is recorded, no DARK latch is set, no head's state is above NORMAL, no safety configuration is in force, and
every register word holds its reset value. -/
def Obligations.ResetLeavesAColdReach : Prop :=
  State.reset.rst.reach = 3 ∧ State.reset.rst.sources = [0] ∧ State.reset.rst.cause = 1#32 ∧ State.reset.rst.done = 0
  ∧ State.reset.flt.sticky = 0#64 ∧ State.reset.flt.firstValid = false ∧ (∀ h, State.reset.saf.dark.get h = false)
  ∧ (∀ h, (State.reset.saf.heads.get h).state = 0) ∧ State.reset.saf.image = none ∧ State.reset.saf.unlocked = false
  ∧ State.reset.pwr.state = 0 ∧ State.reset.pwr.backoff = 1 ∧ (∀ h, stopped State.reset h = true)
  ∧ State.reset.rng.work = [] ∧ State.reset.pending = [] ∧ (∀ i, getReg State.reset i = regReset i)

/-- The light memory has its canonical form at reset, where it lists no byte and HEALTH reads NO_REPORT (07 R264; what the other
bytes read as is the model's choice, log 4). -/
def Obligations.ResetMemoryIsCanonical : Prop :=
  memWf State.reset = true ∧ (∀ a, 0x01200000 ≤ a → a < 0x01300000 → memGet State.reset a = 0xFF#8)
  ∧ (∀ a, a < 0x01200000 → memGet State.reset a = 0#8)

/-- 02 R67: a doorbell write that is partial, has a bit of [31:12] set, names no slot of its ring or is for a disabled ring is
ignored and raises RING_PROTOCOL (FS11); the ring's host index stays. -/
def Obligations.BadDoorbellsAreIgnored : Prop :=
  ∀ (s : State) (n : Nat) (v : Word) (whole : Bool), hostLive s = true → scriptRuns s = false → ringsIdle s = true → n < 32 →
    (ringSize s n ≤ fld v 11 0 ∨ fld v 31 12 ≠ 0 ∨ ringEnabled s n = false ∨ whole = false) →
    ∃ t, Sys2Proof.Machine.exec (.doorbell .pcie n whole v) s = .next t
      ∧ (ringOf t n).hostIdx = (ringOf s n).hostIdx
      ∧ ringOf t n = { ringOf s n with protoErr := true } ∧ (∀ m, m ≠ n → ringOf t m = ringOf s m)
      ∧ (fltJudges s = true → t.flt.sticky.getLsbD 11 = true
        ∧ Store.get (fun _ => 0) t.flt.counts 11 = satAdd 0xFFFF (Store.get (fun _ => 0) s.flt.counts 11) 1)

/-- 19 R645: while a release sequence or the boot script runs, a write of RST_BLOCK only sets block_refused. -/
def Obligations.BlockResetsWaitForSequences : Prop :=
  ∀ (s : State) (b : Bus) (v : Word), reaches s b 0x16008 = true → ringsIdle s = true →
    s.rst.reach ≠ 0 ∨ scriptRuns s = true →
    ∃ t, Sys2Proof.Machine.exec (.blockReset b v) s = .next t
      ∧ t.rst = { s.rst with blockRefused := true } ∧ onlyChanges [.out, .hif, .glb, .rst, .pwr] s t

/-- 21 R697: a service frame whose CRC does not match raises SVC_PORT_CRC and counts; one with another command byte counts and
raises nothing. -/
def Obligations.ServiceErrorsAreCounted : Prop :=
  (∀ (s : State) (frame : List Byte), aoLive s = true → ringsIdle s = true → frame.length = 10 →
    byteAt frame 0 = 2 → (svcCheck s frame).1 = false →
    ∃ t, Sys2Proof.Machine.exec (.svcWrite frame) s = .next t
      ∧ t.glb.svcCrc = satAdd 255 s.glb.svcCrc 1 ∧ (fltJudges s = true → t.flt.sticky.getLsbD 58 = true)
      ∧ otherWords (0x12080 / 4) s t)
  ∧ (∀ (s : State) (frame : List Byte) (upset : Bool), aoLive s = true → frame.length = 6 →
    byteAt frame 0 = 3 → (svcCheck s frame).1 = false →
    ∃ t, Sys2Proof.Machine.exec (.svcRead frame upset) s = .next t
      ∧ t.glb.svcCrc = satAdd 255 s.glb.svcCrc 1 ∧ (fltJudges s = true → t.flt.sticky.getLsbD 58 = true)
      ∧ otherWords (0x12080 / 4) s t)
  ∧ (∀ (s : State) (frame : List Byte), aoLive s = true → frame ≠ [] → byteAt frame 0 ≠ 2 → byteAt frame 0 ≠ 3 →
    ∃ t, Sys2Proof.Machine.exec (.svcBadCommand frame) s = .next t
      ∧ t.glb = { s.glb with svcBad := satAdd 255 s.glb.svcBad 1 } ∧ t.flt = s.flt ∧ (∀ i, getReg t i = getReg s i))

/-- 14 R512: a preset's code loads its parameters into the context after the write's other fields are taken, the running value
stays, fold_len is what the other fields make it, and the preset field reads as zero. -/
def Obligations.PresetsLoadParameters : Prop :=
  ∀ (s : State) (b : Bus) (c : Nat) (v : Word) (p : CrcParams), c < 4 → reaches s b (crcBase c) = true → crcHeld s c = false →
    crcPreset (fld v 18 16) = some p →
    ∃ t, Sys2Proof.Machine.exec (.presetLoad b c v) s = .next t
      ∧ crcParamsOf t c = p
      ∧ regFld t (crcBase c) 14 12 = (if fld v 14 12 ≤ 4 then fld v 14 12 else regFld s (crcBase c) 14 12)
      ∧ regAt t (crcBase c + 0x10) = regAt s (crcBase c + 0x10)
      ∧ regFld t (crcBase c) 18 16 = 0 ∧ t.crc = s.crc
      ∧ (∀ k, k ≠ c → crcParamsOf t k = crcParamsOf s k)

/-- 19 R654, 21 R687, R688, R690, R692: a whole write of a word with no effect but its value, a write of part of a word, a read
through PCI Express of a word that is served or not, and a host write that the boot script keeps out. -/
def Obligations.RegisterAccess : Prop :=
  (∀ (s : State) (b : Bus) (v : Word), reaches s b 0x0000C = true → ringsIdle s = true →
    ∃ t, Sys2Proof.Machine.exec (.regWrite b 0x0000C 15 v) s = .next t ∧ regAt t 0x0000C = v ∧ otherWords (0x0000C / 4) s t)
  ∧ (∀ (s : State) (addr enables : Nat) (v : Word), hostLive s = true → ringsIdle s = true → addr % 4 = 0 → addr < 0x40000 →
    inDoorbells (addr / 4) = false → enables % 16 ≠ 15 →
    ∃ t, Sys2Proof.Machine.exec (.regWrite .pcie addr enables v) s = .next t
      ∧ t.glb.partialAccess = true ∧ t.glb.index = addr / 4 ∧ (∀ i, getReg t i = getReg s i))
  ∧ (∀ (s : State) (enables : Nat), hostLive s = true → injHits s 54 3 = false → s.glb.badParity.contains 3 = false →
    ∃ t, Sys2Proof.Machine.exec (.regRead 0x0000C enables false) s = .next t
      ∧ t.out = s.out ++ [.readData (readBytes enables (regAt s 0x0000C))] ∧ (∀ i, getReg t i = getReg s i))
  ∧ (∀ (s : State) (addr enables : Nat) (upset : Bool), hostLive s = true → addr % 4 = 0 → addr < 0x40000 →
    windowServes s (addr / 4) = false →
    ∃ t, Sys2Proof.Machine.exec (.regRead addr enables upset) s = .next t
      ∧ t.out = s.out ++ [.readData 0#32] ∧ t.glb.domainOff = true ∧ t.glb.index = addr / 4
      ∧ (∀ i, getReg t i = getReg s i))
  ∧ (∀ (s : State) (addr : Nat) (v : Word), hostLive s = true → ringsIdle s = true → addr % 4 = 0 → addr < 0x40000 →
    scriptKeeps s .pcie (addr / 4) = true →
    ∃ t, Sys2Proof.Machine.exec (.regWrite .pcie addr 15 v) s = .next t
      ∧ t.rst = { s.rst with hostRefused := true } ∧ (∀ i, getReg t i = getReg s i) ∧ t.rng = s.rng)

/-- 02 R59, R61, R66, R70, R98, R99: a doorbell, the enabling and disabling of a ring, and the ring engine switched on
and off. -/
def Obligations.RingRegisterCommands : Prop :=
  (∀ (s : State) (n : Nat) (v : Word), hostLive s = true → scriptRuns s = false → ringsIdle s = true → n < 32 →
    ringEnabled s n = true → fld v 31 12 = 0 → fld v 11 0 < ringSize s n →
    (ringKind s n = 0 →
      ∃ t, Sys2Proof.Machine.exec (.doorbell .pcie n true v) s = .next t
        ∧ ringOf t n = { ringOf s n with hostIdx := fld v 11 0 } ∧ (∀ m, m ≠ n → ringOf t m = ringOf s m))
    ∧ (∀ d, d = (fld v 11 0 + ringSize s n - (ringOf s n).hostIdx) % ringSize s n → ringKind s n ≠ 0 →
      (ringOf s n).hostIdx < ringSize s n → 0 < d → d ≤ (ringOf s n).unreleased →
      ∃ t, Sys2Proof.Machine.exec (.doorbell .pcie n true v) s = .next t
        ∧ ringOf t n = { ringOf s n with hostIdx := fld v 11 0, unreleased := (ringOf s n).unreleased - d }
        ∧ (∀ m, m ≠ n → ringOf t m = ringOf s m)))
  ∧ (∀ (s : State) (b : Bus) (n : Nat) (v w : Word), n < 32 → reaches s b (ringCfgAddr n) = true → ringsIdle s = true →
    w = withBit v 0 &&& 0x001F1FFF#32 →
    (ringEnabled s n = false → keepBad ringCfgLims (ringCfg s n) w = w → mayEnable s n w = true →
      ∃ t, Sys2Proof.Machine.exec (.ringEnable b n v) s = .next t
        ∧ ringCfg t n = w ∧ otherWords (ringCfgAddr n / 4) s t
        ∧ (fld w 3 2 = 0 → ringOf t n = { ringOf s n with stopped := false })
        ∧ (fld w 3 2 ≠ 0 → (s.rng.held.all (fun c => c.ring != n)) = true →
          (ringOf t n).devIdx = 0 ∧ (ringOf t n).phase = true ∧ (ringOf t n).hostIdx = 0 ∧ (ringOf t n).unreleased = 0
            ∧ (ringOf t n).stopped = false))
    ∧ (ringEnabled s n = true → ¬(ringKind s n = 1 ∧ namedByEnabled s n = true) →
      ∃ t, Sys2Proof.Machine.exec (.ringDisable b n v) s = .next t
        ∧ ringCfg t n = withoutBit (ringCfg s n) 0 ∧ otherWords (ringCfgAddr n / 4) s t
        ∧ (ringOf t n).stopped = true ∧ (ringOf t n).stopIndex = (ringOf s n).devIdx))
  ∧ (∀ (s : State) (b : Bus), reaches s b 0x03000 = true → ringsIdle s = true →
    (∃ t, Sys2Proof.Machine.exec (.ringEngineEnable b) s = .next t ∧ regAt t 0x03000 = 1#32 ∧ otherWords (0x03000 / 4) s t)
    ∧ (∃ t, Sys2Proof.Machine.exec (.ringEngineDisable b) s = .next t ∧ regAt t 0x03000 = 0#32
      ∧ (∀ n, n < 32 → ringEnabled t n = false)
      ∧ (∀ n, n < 32 → ringEnabled s n = true → (ringOf t n).stopped = true ∧ (ringOf t n).stopIndex = (ringOf s n).devIdx)))

/-- 02 R101, R103: a write of RESUME or FORGET completes; RESUME restores the rings' registers from the journal, FORGET leaves
every ring at its reset values, and both end the journal; the change-set numbers stay; without a journal neither has an
effect. -/
def Obligations.JournalCommands : Prop :=
  (∀ (s : State) (b : Bus), reaches s b 0x03008 = true →
    ∃ t, Sys2Proof.Machine.exec (.journalResume b) s = .next t
      ∧ (s.rng.work = [] → s.rng.journal = none → t.rng = s.rng)
      ∧ (∀ j, s.rng.journal = some j → s.rng.work = [] → t.rng.journal = none
        ∧ (s.rng.journalBad = false → errorsIn s [(regionBase s 9, regionSize s 9)] = [] →
          (Store.wf regReset j.regs = true → ∀ i, i / 1024 = 3 → getReg t i = Store.get regReset j.regs i)
          ∧ (∀ h, (t.rng.heads.get h).csn = (s.rng.heads.get h).csn
            ∧ (t.rng.heads.get h).csnApplied = (s.rng.heads.get h).csnApplied))))
  ∧ (∀ (s : State) (b : Bus), reaches s b 0x03008 = true →
    ∃ t, Sys2Proof.Machine.exec (.journalForget b) s = .next t
      ∧ (s.rng.work = [] → s.rng.journal = none → t.rng = s.rng)
      ∧ (s.rng.journal.isSome = true → t.rng.journal = none ∧ t.rng.rings = [] ∧ t.rng.work = [] ∧ t.rng.written = []
        ∧ t.rng.held = [] ∧ (∀ i, 0x03100 / 4 ≤ i → i / 1024 = 3 → getReg t i = regReset i)
        ∧ (∀ h, (t.rng.heads.get h).csn = (s.rng.heads.get h).csn
          ∧ (t.rng.heads.get h).csnApplied = (s.rng.heads.get h).csnApplied)))

/-- 02 R84, R86, R92, R97, 04 R133, R146: LAYER_SET and LAYER_DATA join the open change set of their ring's head, and a COMMIT
with the next change-set number closes it. -/
def Obligations.ChangeSetDescriptors : Prop :=
  ∀ (s : State) (n : Nat) (h : Head) (d : Desc), roleHead (ringRole s n) = some h → (s.rng.heads.get h).abortCsn = none →
    ((s.rng.heads.get h).opened = [] ∨ openCsn (s.rng.heads.get h).opened = some d.csn) →
    (s.rng.heads.get h).opened.length < 255 →
    (fetchable s n (descOf 1 d) = true →
      ∃ t, Sys2Proof.Machine.exec (.layerSet n d) s = .next t
        ∧ (t.rng.heads.get h) = { s.rng.heads.get h with
            opened := (s.rng.heads.get h).opened ++ [fetchedMember s n (descOf 1 d)] }
        ∧ (ringOf t n).devIdx = ((ringOf s n).devIdx + 1) % ringSize s n)
    ∧ (fetchable s n (descOf 2 d) = true →
      ∃ t, Sys2Proof.Machine.exec (.layerData n d) s = .next t
        ∧ (t.rng.heads.get h) = { s.rng.heads.get h with
            opened := (s.rng.heads.get h).opened ++ [fetchedMember s n (descOf 2 d)] }
        ∧ (ringOf t n).devIdx = ((ringOf s n).devIdx + 1) % ringSize s n)
    ∧ (fetchable s n (descOf 3 d) = true → d.csn = (s.rng.heads.get h).csn + 1#32 →
      ∃ t, Sys2Proof.Machine.exec (.commit n d) s = .next t
        ∧ (t.rng.heads.get h).csn = d.csn ∧ (t.rng.heads.get h).opened = [])

/-- 02 R88, R89: the block that a change set waits for arrives and its check goes on to the next one; a transfer ends and its
bytes stand in the light memory; a failed read closes the change set and HIF_ERR shows how it failed. -/
def Obligations.ChangeSetReads : Prop :=
  (∀ (s : State) (h : Head) (csn : Word) (i : Nat) (c : ChangeSet) (m : Member), hostLive s = true → ringsIdle s = true →
    setOf s h csn = some c → c.stage = .checking → nextBlock c.members = some i → c.members[i]? = some m →
    (∀ (bs : List Byte) (j : Nat), (descFlag m.desc 3 = true → crc32c (fit (dNat m.desc 40 4) bs) = dNat m.desc 44 4) →
      (∀ x, x ∈ (s.rng.heads.get h).sets → x.stage = .checking → x = c) →
      nextBlock (mapMember c i (fun y => { y with block := some (fit (dNat m.desc 40 4) bs) })).members = some j →
      structureFail s h (mapMember c i (fun y => { y with block := some (fit (dNat m.desc 40 4) bs) })).members = none →
      ∃ t, Sys2Proof.Machine.exec (.paramBlockReadDone h csn i (.data bs)) s = .next t
        ∧ setOf t h csn = some (mapMember c i (fun y => { y with block := some (fit (dNat m.desc 40 4) bs) })))
    ∧ (∀ k, ∃ t, Sys2Proof.Machine.exec (.paramBlockReadDone h csn i (.failed k)) s = .next t
      ∧ t.hif.err = s.hif.err ||| bitAt (k % 4) true ∧ setOf t h csn = none))
  ∧ (∀ (s : State) (h : Head) (csn : Word) (i : Nat) (c : ChangeSet) (m : Member), hostLive s = true → ringsIdle s = true →
    setOf s h csn = some c → c.stage = .transferring → c.members[i]? = some m → m.desc.opcode = 2 → m.moved = false →
    (∀ bs : List Byte, (descFlag m.desc 3 = true → crc32c (fit (dNat m.desc 12 4) bs) = dNat m.desc 28 4) →
      ∃ t, Sys2Proof.Machine.exec (.layerDataTransferEnd h csn i (.data bs)) s = .next t
        ∧ t.mem = (memWrite s (regionBase s 10 + dNat m.desc 24 4) (fit (dNat m.desc 12 4) bs)).mem
        ∧ otherBytes (regionBase s 10 + dNat m.desc 24 4) (dNat m.desc 12 4) s t
        ∧ (∀ c', c' = mapMember c i (fun y => { y with moved := true }) → allMoved c' = false → setOf t h csn = some c'))
    ∧ (∀ k, ∃ t, Sys2Proof.Machine.exec (.layerDataTransferEnd h csn i (.failed k)) s = .next t
      ∧ t.hif.err = s.hif.err ||| bitAt (k % 4) true ∧ t.mem = s.mem ∧ setOf t h csn = none))

/-- 05 R180, 07 R251, 11 R418, R424, 13 R496, 14 R513, 20 R664, R665: what a descriptor that passes its checks begins in its
unit. -/
def Obligations.UnitDescriptors : Prop :=
  ∀ (s : State) (n : Nat) (d : Desc),
    (∀ (h : Head) (e : Desc), e = descOf 4 d → ringRole s n = (if h = .a then 4 else 5) → fetchable s n e = true →
      objectsBad e h = none → (joined s && h == .b) = false → dByte e 9 ≠ 0 →
      ∃ t, Sys2Proof.Machine.exec (.objects n d) s = .next t
        ∧ t.shd.get h = { s.shd.get h with
            lists := (s.shd.get h).lists ++
              [{ ring := n, slot := (ringOf s n).devIdx, tag := d.tag, count := dByte e 9, records := [], seconds := 0, nanos := 0, stage := 0 }] }
        ∧ t.rng.work = [fetchedWork s n e (.data []) 1])
    ∧ (∀ e, e = descOf 5 d → ringRole s n = 6 → fetchable s n e = true → calBad s e = none →
      (dByte e 8 = 1 → gateSet s 2 = true → s.saf.unlocked = true) →
      ∃ t, Sys2Proof.Machine.exec (.calUpload n d) s = .next t
        ∧ t.pxc = { s.pxc with cal := t.pxc.cal }
        ∧ t.pxc.cal = some
            { ring := n, slot := (ringOf s n).devIdx, desc := e, head := calHead (dNat e 24 4),
              offset := dNat e 24 4 - calPart (calHead (dNat e 24 4)), data := [], stage := 0, shown := 0, latched := none, sectors := [],
              failed := false, badRead := false }
        ∧ t.rng.work = [fetchedWork s n e (.data []) 1])
    ∧ (∀ (e : Desc) (bs : List Byte), e = descOf 6 d → ringRole s n = 6 → fetchable s n e = true → lastWriteBad e = none →
      lastWriteLocked s e = false → (descFlag e 3 = true → crc32c (fit (dNat e 12 4) bs) = dNat e 28 4) →
      ∃ t st, Sys2Proof.Machine.exec (.lastWrite n d (.data bs)) s = .next t
        ∧ t.rng.work = [fetchedWork s n e (.data bs) st]
        ∧ (s.kps.current.isSome = true → st = 1
          ∧ t.kps = { s.kps with waiting := s.kps.waiting ++ (List.range (dNat e 12 4 / 4096)).map (fun k =>
              .lastWrite n (ringOf s n).devIdx ((lastRegion (dByte e 8)).1 + dNat e 24 4 / 4096 + k)
                (((fit (dNat e 12 4) bs).drop (4096 * k)).take 4096) (decide (k + 1 = dNat e 12 4 / 4096))) }))
    ∧ (∀ e, e = descOf 7 d → ringRole s n = 7 → fetchable s n e = true → crcJobBad s e = none →
      ∃ t, Sys2Proof.Machine.exec (.crcJob n d) s = .next t
        ∧ t.rng.work = [fetchedWork s n e (.data []) (if dNat e 12 4 = 0 then 2 else 1)])
    ∧ (∀ e, e = descOf 8 d → ringRole s n = 8 → fetchable s n e = true → laceBad s e = none →
      ∃ t, Sys2Proof.Machine.exec (.laceFrame n d) s = .next t
        ∧ chainOf t (dByte e 8) = { chainOf s (dByte e 8) with staged := some (n, (ringOf s n).devIdx, []), ready := false }
        ∧ (∀ c, c ≠ dByte e 8 → chainOf t c = chainOf s c)
        ∧ t.rng.work = [fetchedWork s n e (.data []) 1])
    ∧ (∀ (e : Desc) (p : Nat), e = descOf 9 d → p < 2 → ringRole s n = 9 + p → fetchable s n e = true → txBad s p e = none →
      ∃ t, Sys2Proof.Machine.exec (.netTx n d) s = .next t ∧ t.rng.work = [fetchedWork s n e (.data []) 1] ∧ t.net = s.net)
    ∧ (∀ (e : Desc) (p : Nat), e = descOf 10 d → p < 2 → ringRole s n = 11 + p → fetchable s n e = true → rxBad p e = none →
      ∃ t, Sys2Proof.Machine.exec (.netRxBuf n d) s = .next t ∧ t.rng.work = [fetchedWork s n e (.data []) 1] ∧ t.net = s.net)

/-- 02 R77 to R81, R94 to R97, 20 R677, R678: the descriptors that every role takes: NOP, the three QUERYs, FENCE and ABORT. -/
def Obligations.CommonDescriptors : Prop :=
  ∀ (s : State) (n : Nat) (d : Desc),
    (∀ e, e = descOf 0 d → d.opcode % 256 < 14 → fetchable s n e = true → nopBad e = none →
      ∃ t, Sys2Proof.Machine.exec (.nop n d) s = .next t
        ∧ (descFlag e 1 = false → completed s t (ringCpl s n) 0 0 d.tag d.csn 0#32)
        ∧ (descFlag e 1 = true → t.out = s.out)
        ∧ t.rng.work = [] ∧ (ringOf t n).devIdx = ((ringOf s n).devIdx + 1) % ringSize s n)
    ∧ (∀ e, e = queryOf (queryReadCode d) d → dByte e 8 = 1 → fetchable s n e = true → queryBad e = none →
      descFlag e 1 = false →
      ∃ t v, Sys2Proof.Machine.exec (.queryReadRegister n d) s = .next t
        ∧ completed s t (ringCpl s n) 0 0 d.tag v 0#32 ∧ (dNat e 12 4 = 0 → v = 0x214851C3#32))
    ∧ (∀ (e : Desc) (k : Nat) (p : Proposal), e = queryOf 2 d → fetchable s n e = true → queryBad e = none →
      proposalKind s (dNat e 12 4) = some k → proposalOf s k = some p → descFlag e 1 = false →
      ∃ t, Sys2Proof.Machine.exec (.queryApproveProposal n d) s = .next t
        ∧ completed s t (ringCpl s n) 0 0 d.tag d.csn 0#32
        ∧ (k = 0 → t.lmm.queue = s.lmm.queue ++ [p.target]))
    ∧ (∀ (e : Desc) (k : Nat) (p : Proposal), e = queryOf 3 d → fetchable s n e = true → queryBad e = none →
      proposalKind s (dNat e 12 4) = some k → proposalOf s k = some p → descFlag e 1 = false →
      ∃ t, Sys2Proof.Machine.exec (.queryDeclineProposal n d) s = .next t
        ∧ completed s t (ringCpl s n) 0 0 d.tag d.csn 0#32
        ∧ (k = 0 → (bankOf t p.target).candidate = false))
    ∧ (∀ e, e = descOf 12 d → fetchable s n e = true → fenceBad e = none →
      outstandingOn s (if dByte e 8 = 255 then n else dByte e 8) = [] →
      ∃ t, Sys2Proof.Machine.exec (.fence n d) s = .next t
        ∧ (dByte e 9 = 0 → descFlag e 1 = false → completed s t (ringCpl s n) 0 0 d.tag d.csn 0#32 ∧ t.rng.work = [])
        ∧ (dByte e 9 ≠ 0 → t.rng.work = [{ fetchedWork s n e (.data []) 2 with stitches := dByte e 9 }]))
    ∧ (∀ e, e = descOf 13 d → fetchable s n e = true → abortBad e = none →
      (roleHead (ringRole s (dByte e 8)) = none →
        ∃ t, Sys2Proof.Machine.exec (.abort n d) s = .next t ∧ completed s t (ringCpl s n) 4 0 d.tag d.csn 0#32)
      ∧ (∀ h, roleHead (ringRole s (dByte e 8)) = some h → (s.rng.heads.get h).replays = [] →
        tagIn (dByte e 8) (BitVec.ofNat 16 (dNat e 10 2)) (s.rng.heads.get h).opened = true →
        ∃ t, Sys2Proof.Machine.exec (.abort n d) s = .next t
          ∧ t.rng.heads.get h = { s.rng.heads.get h with opened := [], abortCsn := openCsn (s.rng.heads.get h).opened }))

/-- 05 R183, 07 R252, 14 R514, R515: a list, an upload or a job whose bytes have been read goes on, and a failed read ends it
with HIF_ERR showing how it failed. -/
def Obligations.FetchEndings : Prop :=
  (∀ (s : State) (h : Head) (slot : Nat) (l : ObjList) (w : Work), hostLive s = true → pixLive s = true → ringsQuiet s = true →
    (s.shd.get h).lists.find? (fun l => l.slot == slot && l.stage == 0) = some l → workAt s l.ring l.slot = some w →
    (∀ k, ∃ t, Sys2Proof.Machine.exec (.objectsListReadDone h slot (.failed k)) s = .next t
      ∧ t.hif.err = s.hif.err ||| bitAt (k % 4) true
      ∧ (t.shd.get h).lists = (s.shd.get h).lists.filter (fun x => !(x.ring == l.ring && x.slot == l.slot)))
    ∧ (∀ bs sec, (descFlag w.desc 3 = true → crc32c (fit (48 * l.count) bs) = dNat w.desc 36 4) →
      firstBadRecord (fit (48 * l.count) bs) l.count = none → sec = extendSeconds (nowSec s) (dNat w.desc 16 4) →
      (s.shd.get h).inForce = none → sec * 10 ^ 9 + dNat w.desc 20 4 ≤ nowSec s * 10 ^ 9 + nowSubNs s + 10 ^ 6 →
      noCut s h = false →
      ∃ t, Sys2Proof.Machine.exec (.objectsListReadDone h slot (.data bs)) s = .next t
        ∧ (t.shd.get h).lists = (s.shd.get h).lists.map (fun x =>
            if x.ring = l.ring ∧ x.slot = l.slot then
              { x with records := fit (48 * l.count) bs, seconds := sec, nanos := dNat w.desc 20 4, stage := 1 }
            else x)))
  ∧ (∀ (s : State) (c : Cal), hostLive s = true → ringsQuiet s = true → s.pxc.cal = some c → c.stage = 0 →
    (∀ k, ∃ t, Sys2Proof.Machine.exec (.calUploadValidated (.failed k)) s = .next t
      ∧ t.hif.err = s.hif.err ||| bitAt (k % 4) true ∧ t.pxc.cal = none)
    ∧ (∀ bs, (descFlag c.desc 3 = true → crc32c (fit (dNat c.desc 12 4) bs) = dNat c.desc 28 4) →
      ∃ t, Sys2Proof.Machine.exec (.calUploadValidated (.data bs)) s = .next t
        ∧ t.pxc = { s.pxc with cal := some (if noCut s c.head = true then { c with stage := 2, shown := 1, data := fit (dNat c.desc 12 4) bs }
            else { c with stage := 1, data := fit (dNat c.desc 12 4) bs }) }))
  ∧ (∀ (s : State) (c : Cal), memLive s = true → ringsQuiet s = true → s.pxc.cal = some c → c.stage = 2 →
    ∃ t, Sys2Proof.Machine.exec .calMergeEnd s = .next t
      ∧ t.pxc.cal = none
      ∧ t.mem = (memWrite s (regionBase s 8 + calPart c.head + c.offset) c.data).mem
      ∧ otherBytes (regionBase s 8 + calPart c.head + c.offset) c.data.length s t)
  ∧ (∀ (s : State) (c : Nat) (w : Work) (bs : List Byte) (p : CrcParams) (r : Nat), crcRuns s = true → hostLive s = true →
    ringsQuiet s = true → crcHolder s c = some w → p = crcParamsOf s c →
    r = crcFeed p (if nbit (dByte w.desc 9) 0 then crcFeed p p.init (leBytes (regFld s (crcBase c) 14 12) (dNat w.desc 28 4))
      else (regAt s (crcBase c + 0x10)).toNat) (fit (dNat w.desc 12 4) bs) →
    ∃ t, Sys2Proof.Machine.exec (.crcJobEnd c (.data bs)) s = .next t
      ∧ regAt t (crcBase c + 0x10) = BitVec.ofNat 32 r ∧ otherWords ((crcBase c + 0x10) / 4) s t
      ∧ (nbit (dByte w.desc 9) 1 = true → (crcCtx t c).result = BitVec.ofNat 32 (crcFinish p r))
      ∧ (crcCtx t c).jobs = satAdd 0xFFFF (crcCtx s c).jobs 1
      ∧ (crcCtx t c).mismatches = satAdd 0xFFFF (crcCtx s c).mismatches
          (if nbit (dByte w.desc 9) 1 = true ∧ crcFinish p r ≠ dNat w.desc 24 4 then 1 else 0))

/-- 02 R48, R52, R63: the spacing of tolerance messages ends, a coalesced interrupt falls due, and PCI Express reports an
uncorrectable error. -/
def Obligations.HostTimers : Prop :=
  (∀ s : State, hostLive s = true → ringsQuiet s = true → s.hif.ltrHoldoff = true →
    (s.hif.ltrHeld = none → ∃ t, Sys2Proof.Machine.exec .ltrHoldoffExpiry s = .next t
      ∧ t.hif.ltrHoldoff = false ∧ t.hif.ltrHeld = none ∧ t.hif.ltrSent = s.hif.ltrSent)
    ∧ (s.hif.ltrHeld.isSome = true → ∃ t, Sys2Proof.Machine.exec .ltrHoldoffExpiry s = .next t
      ∧ t.hif.ltrHeld = none ∧ t.hif.ltrSent =
          (if ltrDiffers s.hif.ltrLast (toleranceNow s) then satAdd 0xFFFF s.hif.ltrSent 1 else s.hif.ltrSent)))
  ∧ (∀ (s : State) (n : Nat), hostLive s = true → n < 32 → regBit s (0x0310C + 0x20 * n) 7 = true →
    regFld s (0x0310C + 0x20 * n) 31 16 ≠ 0 → (ringOf s n).unsignalled ≠ 0 →
    ∃ t, Sys2Proof.Machine.exec (.irqCoalesceTimeout n) s = .next t
      ∧ ringOf t n = { ringOf s n with unsignalled := 0 }
      ∧ (∀ v, v = regFld s (0x0310C + 0x20 * n) 4 0 →
        if regBit s (0x0180C + 16 * v) 0 then t.hif = { s.hif with pba := s.hif.pba ||| bitAt v true } ∧ t.out = s.out
        else t.hif = s.hif ∧ t.out = s.out ++ [.msix v]))
  ∧ (∀ s : State, hostLive s = true → fltJudges s = true →
    ∃ t, Sys2Proof.Machine.exec .pcieAerUncorr s = .next t ∧ t.flt.sticky.getLsbD 9 = true)

/-- 03 R109, R119, R122: a budget and a region are accepted or refused as a whole, and the scrubber is switched on and off. -/
def Obligations.LightMemoryRegisters : Prop :=
  (∀ (s : State) (b : Bus) (c : Nat) (v : Word) (bad : Bool), c < 12 → reaches s b (0x04040 + 4 * c) = true →
    bad = (decide (24576 < budgetSum s - budgetReg s c + fld v 15 0) || decide (fld v 15 0 < clientNeed s (appliedPlan s) c)
      || (slotStates s).any (fun x => decide (fld v 15 0 < clientNeed s (planWith s x) c))) →
    (bad = false → ∃ t, Sys2Proof.Machine.exec (.budgetWrite b c v) s = .next t
      ∧ regAt t (0x04040 + 4 * c) = v &&& 0x1FFFF#32 ∧ otherWords ((0x04040 + 4 * c) / 4) s t ∧ t.lmm = s.lmm)
    ∧ (bad = true → ∃ t, Sys2Proof.Machine.exec (.budgetWrite b c v) s = .next t
      ∧ (∀ i, getReg t i = getReg s i) ∧ t.lmm = { s.lmm with budgetRefused := true, detail := c }))
  ∧ (∀ (s : State) (b : Bus) (k : Nat) (v w : Word) (ok : Bool), k < 11 → reaches s b (0x04100 + 4 * k) = true →
    w = v &&& 0x83FF03FF#32 → fld v 9 0 ≤ 479 → (bit v 31 = true → fld v 25 16 ≠ 0) →
    ok = (stopped s .a && stopped s .b && !engineOn s && regionMinOk k w
      && regionsOk (fun j => if j = k then w else regAt s (0x04100 + 4 * j))) →
    (ok = true → ∃ t, Sys2Proof.Machine.exec (.regionWrite b k v) s = .next t
      ∧ regAt t (0x04100 + 4 * k) = w ∧ otherWords ((0x04100 + 4 * k) / 4) s t ∧ t.lmm = s.lmm)
    ∧ (ok = false → ∃ t, Sys2Proof.Machine.exec (.regionWrite b k v) s = .next t
      ∧ (∀ i, getReg t i = getReg s i) ∧ t.lmm = { s.lmm with regionRefused := true }))
  ∧ (∀ (s : State) (b : Bus) (v : Word), reaches s b 0x04000 = true →
    (∃ t, Sys2Proof.Machine.exec (.scrubEnable b v) s = .next t ∧ regBit t 0x04000 0 = true ∧ otherWords (0x04000 / 4) s t)
    ∧ (∃ t, Sys2Proof.Machine.exec (.scrubDisable b v) s = .next t ∧ regBit t 0x04000 0 = false
      ∧ otherWords (0x04000 / 4) s t))

/-- 03 R116, R120, R122, R129, R130: a budget period begins, a corrected word is written back, and a bank is retired onto a
clean spare. -/
def Obligations.LightMemoryEvents : Prop :=
  (∀ (s : State) (used : List (Nat × Nat)) (errors : List (Nat × Bool)), memLive s = true →
    ∃ t, Sys2Proof.Machine.exec (.budgetPeriodStart used errors) s = .next t ∧ (∀ c, c < 12 → budgetOf t c = budgetReg s c))
  ∧ (∀ s : State, memLive s = true → ∃ t, Sys2Proof.Machine.exec .eccWriteback s = .next t
    ∧ t.lmm = { s.lmm with writeBack := s.lmm.writeBack.tail })
  ∧ (∀ (s : State) (c sp : Nat) (rest : List Nat), memLive s = true → s.lmm.retire = none → s.lmm.queue = c :: rest →
    firstIdx 64 (fun b => (bankOf s b).state == 0 && bankClean s b) = some sp →
    ∃ t, Sys2Proof.Machine.exec .bankRetireStart s = .next t
      ∧ t.lmm.queue = rest ∧ t.lmm.retire = some { candidate := c, spare := sp, ended := false, switched := Pair.both false }
      ∧ bankOf t sp = { bankOf s sp with state := 2, lbank := (bankOf s c).lbank } ∧ (∀ b, b ≠ sp → bankOf t b = bankOf s b))
  ∧ (∀ (s : State) (r : Retire), memLive s = true → s.lmm.retire = some r → r.ended = false → r.spare ≠ r.candidate →
    ((headRuns s .a || headRuns s .b) = true → ∃ t, Sys2Proof.Machine.exec .bankCopyEnd s = .next t
      ∧ t.lmm.retire = some { r with ended := true, switched := { a := !headRuns s .a, b := !headRuns s .b } })
    ∧ ((headRuns s .a || headRuns s .b) = false → ∃ t, Sys2Proof.Machine.exec .bankCopyEnd s = .next t
      ∧ t.lmm.retire = none ∧ bankOf t r.spare = { bankOf s r.spare with state := 1 }
      ∧ bankOf t r.candidate = { bankOf s r.candidate with state := 3, candidate := false }))

/-- 08 R295, R296, R297, R299: a STOPPED head starts if the head-start check finds nothing and shows the first reason
otherwise; a head that starts or runs goes to STOPPING; a write for Head B in joined mode does neither (08 R311). -/
def Obligations.HeadStartStop : Prop :=
  ∀ (s : State) (b : Bus) (h : Head) (v : Word), reaches s b (tgBase h) = true → ringsQuiet s = true →
    (h = .a → bit v 1 = joined s) →
    ((joined s && h == .b) = false →
      (∀ u, u = setTgState (setRegAt s (tgBase h) (merge (regAt s (tgBase h)) (withBit v 0) 0x75#32)) h 1 → stopped s h = true →
        blockStopped s 1 = false →
        (startFail u h = none → ∃ t, Sys2Proof.Machine.exec (.headStart b h v) s = .next t
          ∧ (t.tg.get h).state = 1 ∧ (t.tg.get h).due = true ∧ (t.tg.get h).active = false)
        ∧ (∀ r, startFail u h = some r → ∃ t, Sys2Proof.Machine.exec (.headStart b h v) s = .next t
          ∧ (t.tg.get h).state = 0 ∧ (t.tg.get h).startRefused = true ∧ (t.tg.get h).startReason = r))
      ∧ ((s.tg.get h).state = 1 ∨ (s.tg.get h).state = 2 → ∃ t, Sys2Proof.Machine.exec (.headStop b h v) s = .next t
        ∧ t.tg.get h = { s.tg.get h with state := 3 })
      ∧ ((s.tg.get h).state ≠ 1 → (s.tg.get h).state ≠ 2 → ∃ t, Sys2Proof.Machine.exec (.headStop b h v) s = .next t
        ∧ t.tg = s.tg))
    ∧ ((joined s && h == .b) = true →
      (∃ t, Sys2Proof.Machine.exec (.headStart b h v) s = .next t ∧ t.tg = s.tg)
      ∧ (∃ t, Sys2Proof.Machine.exec (.headStop b h v) s = .next t ∧ t.tg = s.tg))

/-- 08 R301, R302, R303, R311: TGx_COMMIT takes the shadow set into check, and the check ends in a pending commit or in a
reason; generator B in joined mode takes none. -/
def Obligations.CommitOfTiming : Prop :=
  (∀ (s : State) (b : Bus) (h : Head), reaches s b (tgBase h + 8) = true →
    ((joined s && h == .b) = false → ∃ t, Sys2Proof.Machine.exec (.tgCommit b h) s = .next t
      ∧ t.tg.get h = { s.tg.get h with checking := some (shadowSet s h h), commitWait := false })
    ∧ ((joined s && h == .b) = true → ∃ t, Sys2Proof.Machine.exec (.tgCommit b h) s = .next t
      ∧ t.tg = s.tg.set .b { s.tg.b with commitError := true, commitReason := 4 }))
  ∧ (∀ (s : State) (h : Head) (m : Store Word), pixLive s = true → ringsQuiet s = true → timer s h = h →
    (s.tg.get h).checking = some m → (s.tg.get h).commitWait = false →
    (∀ r, commitFail s h m = some r → ∃ t, Sys2Proof.Machine.exec (.tgCommitCheckEnd h) s = .next t
      ∧ t.tg.get h = { s.tg.get h with checking := none, commitError := true, commitReason := r })
    ∧ (commitFail s h m = none → noCut s h = false →
      ltrLower s.hif.ltrLast (toleranceNow (modTg s h (fun t => { t with force := m }))) = false →
      ∃ t, Sys2Proof.Machine.exec (.tgCommitCheckEnd h) s = .next t
        ∧ t.tg.get h = { s.tg.get h with checking := none, pending := some m }))

/-- 04 R166, R167, R168, 06 R241, 08 R292, R297, R299, R305: what starts a sweep, what a trigger and its absence do, a late
row, the cut, and the drive total. -/
def Obligations.SweepEvents : Prop :=
  (∀ (s : State) (h : Head) (src : List SlotFetch), pixLive s = true → ringsQuiet s = true → timer s h = h →
    (s.tg.get h).state ≠ 0 → (s.tg.get h).due = true → (s.tg.get h).active = false →
    ((triggered s h && !(s.tg.get h).trigSeen) = true → ∃ t, Sys2Proof.Machine.exec (.sweepStart h src) s = .next t
      ∧ t.tg.get h = { s.tg.get h with waiting := true })
    ∧ ((triggered s h && !(s.tg.get h).trigSeen) = false → (s.tg.get h).state = 3 →
      ∃ t, Sys2Proof.Machine.exec (.sweepStart h src) s = .next t
        ∧ (t.tg.get h).state = 0 ∧ (t.tg.get h).due = false ∧ (t.tg.get h).waiting = false ∧ (t.tg.get h).trigSeen = false
        ∧ (t.tg.get h).pending = none ∧ (t.tg.get h).fsn = (s.tg.get h).fsn)
    ∧ ((triggered s h && !(s.tg.get h).trigSeen) = false → (s.tg.get h).state ≠ 3 →
      ∃ t, Sys2Proof.Machine.exec (.sweepStart h src) s = .next t
        ∧ (t.tg.get h).state = 2 ∧ (t.tg.get h).active = true ∧ (t.tg.get h).due = false
        ∧ ((notReadySlots s h (fetched s src)).any (fun i => holdsFrame (slotOf s h i)) = true → (t.tg.get h).full = false
          ∧ (t.ly.get h).holds = satAdd 0xFFFF (s.ly.get h).holds 1)
        ∧ ((notReadySlots s h (fetched s src)).any (fun i => holdsFrame (slotOf s h i)) = false →
          firstLate s h (fetched s src)
            ((enabledSlots (s.ly.get h).slots).filter (fun i => !(notReadySlots s h (fetched s src)).contains i)) = none →
          s.lmm.bad = [] → s.lmm.latent = [] → (t.tg.get h).full = true)
        ∧ (t.ly.get h).notReady = slotMask (notReadySlots s h (fetched s src))))
  ∧ (∀ (s : State) (h : Head), pixLive s = true → timer s h = h → (s.tg.get h).state ≠ 0 → triggered s h = true →
    ((s.tg.get h).state = 1 → (s.tg.get h).waiting = true) →
    ∃ t, Sys2Proof.Machine.exec (.tgTriggerArrive h) s = .next t ∧ t.tg.get h = { s.tg.get h with trigSeen := true })
  ∧ (∀ (s : State) (h : Head), pixLive s = true → (s.tg.get h).waiting = true → (s.tg.get h).state ≠ 1 →
    (s.tg.get h).trigSeen = false →
    ∃ t, Sys2Proof.Machine.exec (.triggerWaitTimeout h) s = .next t
      ∧ t.tg.get h = { s.tg.get h with trigSeen := true, missed := satAdd 0xFFFF (s.tg.get h).missed 1 })
  ∧ (∀ (s : State) (h : Head) (slot line : Nat), slot < 8 → timer s h = h → (s.tg.get h).active = true →
    (s.tg.get h).full = true → (slotOf s h slot).enabled = true → ((s.bld.get h).flatValid && (flatRun s h (s.ly.get h).slots).contains slot) = false →
    nbit (s.ly.get h).dropped slot = false →
    ∃ t, Sys2Proof.Machine.exec (.lateRow h slot line) s = .next t
      ∧ t.tg.get h = { s.tg.get h with composed := false, full := false }
      ∧ t.ly.get h = { s.ly.get h with late := true, lateSlot := slot, lateLine := line % 4096, holds := satAdd 0xFFFF (s.ly.get h).holds 1 })
  ∧ (∀ (s : State) (h : Head), pixLive s = true → ringsQuiet s = true → timer s h = h → (s.tg.get h).active = true →
    ∃ t k, Sys2Proof.Machine.exec (.cut h) s = .next t
      ∧ (t.tg.get h).active = false ∧ (t.tg.get h).stitchOpen = true ∧ (t.tg.get h).pending = none
      ∧ k ≤ 6 ∧ (t.tg.get h).cutTime = time32 s - BitVec.ofNat 32 (4 + k))
  ∧ (∀ (s : State) (h : Head), pixLive s = true → ctrlLive s = true →
    ((s.tg.get (timer s h)).active = true ∨ (s.tg.get (timer s h)).stitchOpen = true) → (s.tg.get (timer s h)).full = true →
    (s.tg.get h).driveAccepted = false →
    ∃ t, Sys2Proof.Machine.exec (.driveTotalSend h) s = .next t
      ∧ t.tg.get h = { s.tg.get h with driveAccepted := true }
      ∧ t.cle = { s.cle with fifo := s.cle.fifo.set h (s.cle.fifo.get h ++ [((s.bld.get h).composedTotal, false)]) }
      ∧ t.bld.get h = { s.bld.get h with drive := (s.bld.get h).composedTotal })

/-- 01 R26, R27, 08 R307, R308, R309: the stitch latches the frame composed, and a slack that ends without one repeats the
frame before. -/
def Obligations.StitchEvents : Prop :=
  (∀ (s : State) (h : Head) (late : Bool), stitchMay s h = true → ringsQuiet s = true →
    ∃ t, Sys2Proof.Machine.exec (.stitch h late) s = .next t
      ∧ (t.tg.get h).fsn = (s.tg.get h).fsn + 1#32 ∧ (t.tg.get h).front = backBuffer s h ∧ (t.tg.get h).stitchOpen = false
      ∧ (t.tg.get h).due = true ∧ (t.tg.get h).run = 0 ∧ (t.tg.get h).lastRepeated = false
      ∧ (t.tg.get h).slipped = (if late then satAdd 0xFFFF (s.tg.get h).slipped 1 else (s.tg.get h).slipped)
      ∧ (t.tg.get h).stitchTime = time32 s
      ∧ (linkLive s h = true → someLaneActive s h = true →
        Output.lanes h (.stitch (((s.tg.get h).fsn + 1#32).toNat % 256)) ∈ t.out))
  ∧ (∀ (s : State) (h : Head), pixLive s = true → ringsQuiet s = true → timer s h = h → (s.tg.get h).stitchOpen = true →
    ∃ t, Sys2Proof.Machine.exec (.stitchSlackEnd h) s = .next t
      ∧ (t.tg.get h).stitchOpen = false ∧ (t.tg.get h).due = true ∧ (t.tg.get h).composed = false
      ∧ (t.tg.get h).lastRepeated = true ∧ (t.tg.get h).fsn = (s.tg.get h).fsn ∧ (t.tg.get h).front = (s.tg.get h).front
      ∧ ((served s h).any (fun x => decide (2 ≤ (s.saf.heads.get x).state)) = true →
        (t.tg.get h).run = (s.tg.get h).run ∧ (t.tg.get h).repeats = (s.tg.get h).repeats)
      ∧ ((served s h).any (fun x => decide (2 ≤ (s.saf.heads.get x).state)) = false →
        (t.tg.get h).run = satAdd 0xFF (s.tg.get h).run 1 ∧ (t.tg.get h).repeats = satAdd 0xFFFF (s.tg.get h).repeats 1
        ∧ (fltJudges s = true → regFld s (tgBase h + 0x3C) 7 0 ≠ 0 → (s.tg.get h).run < 255 →
          ((s.tg.get h).run + 1) % regFld s (tgBase h + 0x3C) 7 0 = 0 → t.flt.sticky.getLsbD (19 + Head.idx h) = true)))

/-- 05 R193, R209, 06 R228, R229, R232: the check of a shadow map, the shadow engine switched off, the swap of the tone banks
and a headroom. -/
def Obligations.MapToneHeadroom : Prop :=
  (∀ (s : State) (b : Bus) (h : Head), reaches s b (shdBase h) = true →
    (mapFail s h = none → ∃ t, Sys2Proof.Machine.exec (.mapCheck b h) s = .next t
      ∧ regAt t (shdBase h) = 1#32 ∧ otherWords (shdBase h / 4) s t ∧ t.shd = s.shd)
    ∧ (∀ n, mapFail s h = some n → ∃ t, Sys2Proof.Machine.exec (.mapCheck b h) s = .next t
      ∧ regAt t (shdBase h) = 0#32 ∧ otherWords (shdBase h / 4) s t ∧ t.shdNode = n
      ∧ t.shd.get h = { s.shd.get h with mapError := true }))
  ∧ (∀ (s : State) (b : Bus) (v : Word), reaches s b 0x20000 = true →
    ∃ t, Sys2Proof.Machine.exec (.shadowDisable b v) s = .next t ∧ otherWords (0x20000 / 4) s t
      ∧ (∀ h, (if regBit s 0x20000 (Head.idx h) = true ∧ bit v (Head.idx h) = false ∧ maskWanted s h = true
        then regBit t 0x20000 (Head.idx h) = true ∧ t.shdRefused = true
        else regBit t 0x20000 (Head.idx h) = bit v (Head.idx h))))
  ∧ (∀ (s : State) (b : Bus) (h : Head), reaches s b (bldBase h + 4) = true → (s.bld.get h).swap = 0 →
    ∃ t, Sys2Proof.Machine.exec (.toneSwap b h) s = .next t ∧ t.bld.get h = { s.bld.get h with swap := 1 })
  ∧ (∀ (s : State) (h : Head), pixLive s = true → (s.bld.get h).swap = 1 →
    (∀ k, toneFail s h (1 - (s.bld.get h).bank) = some k → ∃ t, Sys2Proof.Machine.exec (.toneCheckEnd h) s = .next t
      ∧ t.bldEntry = k ∧ t.bld.get h = { s.bld.get h with swap := 0, toneError := true })
    ∧ (toneFail s h (1 - (s.bld.get h).bank) = none → ∃ t, Sys2Proof.Machine.exec (.toneCheckEnd h) s = .next t
      ∧ t.bld.get h = (if noCut s h = true then { s.bld.get h with swap := 0, bank := 1 - (s.bld.get h).bank }
        else { s.bld.get h with swap := 2 })))
  ∧ (∀ (s : State) (b : Bus) (h : Head) (n : Nat) (v : Word) (ok : Bool), 1 ≤ n → n < 8 → reaches s b (headroomAddr h n) = true →
    ok = (decide (fld v 15 0 ≤ regFld s (headroomAddr h (n - 1)) 15 0)
      && decide ((if n = 7 then 0 else regFld s (headroomAddr h (n + 1)) 15 0) ≤ fld v 15 0)) →
    (ok = true → ∃ t, Sys2Proof.Machine.exec (.headroomWrite b h n v) s = .next t
      ∧ regAt t (headroomAddr h n) = v &&& 0xFFFF#32 ∧ otherWords (headroomAddr h n / 4) s t)
    ∧ (ok = false → ∃ t, Sys2Proof.Machine.exec (.headroomWrite b h n v) s = .next t
      ∧ (∀ i, getReg t i = getReg s i) ∧ t.bld.get h = { s.bld.get h with headroomRefused := true }))

/-- 07 R259, R261, R265: an entry of the aging table, a cleared health map, and a dose checkpoint asked for. -/
def Obligations.PixelConditioning : Prop :=
  (∀ (s : State) (b : Bus) (k : Nat) (v : Word), 1 ≤ k → k < 65 → reaches s b (ageAddr k) = true →
    stopped s .a = true → stopped s .b = true →
    (regFld s (ageAddr (k - 1)) 15 0 ≤ fld v 15 0 → fld v 15 0 ≤ 40960 →
      ∃ t, Sys2Proof.Machine.exec (.ageWrite b k v) s = .next t
        ∧ regFld t (ageAddr k) 15 0 = fld v 15 0
        ∧ (∀ j, k < j → j < 65 → regFld t (ageAddr j) 15 0 = Nat.max (fld v 15 0) (regFld s (ageAddr j) 15 0))
        ∧ (∀ j, j < k → regAt t (ageAddr j) = regAt s (ageAddr j)))
    ∧ (fld v 15 0 < regFld s (ageAddr (k - 1)) 15 0 ∨ 40960 < fld v 15 0 →
      ∃ t, Sys2Proof.Machine.exec (.ageWrite b k v) s = .next t
        ∧ t.pxc = { s.pxc with ageRefused := true } ∧ (∀ i, getReg t i = getReg s i)))
  ∧ (∀ (s : State) (b : Bus) (k : Nat) (v : Word), k < 65 → reaches s b (ageAddr k) = true →
    (k = 0 ∨ stopped s .a = false ∨ stopped s .b = false) →
    ∃ t, Sys2Proof.Machine.exec (.ageWrite b k v) s = .next t ∧ t.pxc = s.pxc ∧ (∀ i, getReg t i = getReg s i))
  ∧ (∀ (s : State) (b : Bus) (h : Head) (v : Word), reaches s b (pxcBase h + 0x38) = true → memLive s = true →
    pixLive s = true →
    (∀ a, bit v 31 = false → fld v 20 0 < activeN s h → a = regionBase s 6 + partOffset h + fld v 20 0 / 2 →
      ∃ t, Sys2Proof.Machine.exec (.healthClear b h v) s = .next t
        ∧ healthOf t h (fld v 20 0) = 15 ∧ otherBytes a 1 s t ∧ otherWords (0x12080 / 4) s t)
    ∧ (bit v 31 = true →
      ∃ t, Sys2Proof.Machine.exec (.healthClear b h v) s = .next t ∧ (∀ p, p < activeN s h → healthOf t h p = 15)))
  ∧ (∀ s : State, pixLive s = true → memLive s = true →
    (∃ t, Sys2Proof.Machine.exec .doseCheckpointTimer s = .next t ∧ t.pxc.ckpt = true
      ∧ (s.pxc.ckpt = true → t.kps = s.kps)
      ∧ (s.pxc.ckpt = false → s.kps.current.isSome = true →
        t.kps = { s.kps with waiting := s.kps.waiting ++ (List.range 256).map (fun k => .dose k) }))
    ∧ (∀ (b : Bus) (v : Word), reaches s b 0x18008 = true →
      ∃ t, Sys2Proof.Machine.exec (.doseCkptNow b v) s = .next t ∧ t.pxc.ckpt = true ∧ otherWords (0x18008 / 4) s t))

/-- 09 R322, R325 to R329, R341, R343, R344, R353: CDR lock, the slip search at the held offset and its failure, a lane lost by
its clock, by its elastic buffer and counted errors, a lane's power state, and the counts cleared. -/
def Obligations.LaneAlignment : Prop :=
  (∀ (s : State) (b : Bus) (l : Nat) (v : Word), l < 18 → reaches s b (laneBase l) = true →
    (tileLane l = true → (laneOf s l).pstate = 3 → fld v 1 0 = 3 →
      ((laneOf s l).aligned && !laneHeadStopped s l) = false →
      ∃ t, Sys2Proof.Machine.exec (.slipStart b l v) s = .next t
        ∧ (laneOf t l).searching = true ∧ (laneOf t l).aligned = false ∧ (laneOf t l).scanning = false
        ∧ (laneOf t l).searches = satAdd 0xFF (laneOf s l).searches 1 ∧ (∀ k, k ≠ l → laneOf t k = laneOf s k)
        ∧ otherWords (laneBase l / 4) s t)
    ∧ (tileLane l = true → (laneOf s l).pstate = 3 → fld v 1 0 = 3 →
      ((laneOf s l).aligned && !laneHeadStopped s l) = true →
      ∃ t, Sys2Proof.Machine.exec (.slipStart b l v) s = .next t
        ∧ (laneOf t l).refused = true ∧ (laneOf t l).searching = (laneOf s l).searching ∧ (laneOf t l).aligned = true
        ∧ (laneOf t l).searches = (laneOf s l).searches ∧ (∀ k, k ≠ l → laneOf t k = laneOf s k))
    ∧ (bit v 12 = false → fld v 1 0 < 3 →
      ((inService s l && !laneHeadStopped s l) = false →
        ∃ t, Sys2Proof.Machine.exec (.lanePstate b l v) s = .next t
          ∧ (laneOf t l).pstate = fld v 1 0 ∧ regFld t (laneBase l) 1 0 = fld v 1 0
          ∧ (fld v 1 0 ≠ (laneOf s l).pstate → (laneOf t l).aligned = false ∧ (laneOf t l).searching = false
            ∧ (laneOf t l).scanning = false ∧ (fld v 1 0 < 2 → (laneOf t l).cdrLock = false))
          ∧ (∀ k, k ≠ l → laneOf t k = laneOf s k) ∧ otherWords (laneBase l / 4) s t)
      ∧ ((inService s l && !laneHeadStopped s l) = true →
        ∃ t, Sys2Proof.Machine.exec (.lanePstate b l v) s = .next t
          ∧ (laneOf t l).refused = true ∧ (laneOf t l).pstate = (laneOf s l).pstate
          ∧ (laneOf t l).aligned = (laneOf s l).aligned
          ∧ regFld t (laneBase l) 1 0 = regFld s (laneBase l) 1 0)))
  ∧ (∀ (s : State) (l : Nat), scriptRuns s = false → laneLives s l = true →
    (2 ≤ (laneOf s l).pstate → (laneOf s l).cdrLock = false →
      ∃ t, Sys2Proof.Machine.exec (.cdrLock l) s = .next t
        ∧ laneOf t l = (if tileLane l && (laneOf s l).pstate == 3 && !(laneOf s l).aligned && !(laneOf s l).searching
            && (!(laneOf s l).sought || regBit s (laneBlockBase (laneBlockOf l)) 9)
          then { laneOf s l with cdrLock := true, aligned := false, scanning := false, searching := true, sought := true,
                                 searches := satAdd 0xFF (laneOf s l).searches 1 }
          else { laneOf s l with cdrLock := true }))
    ∧ (∀ (bits b : List Bool), (laneOf s l).searching = true → (laneOf s l).cdrLock = true →
      laneLoop s l ≠ 1 → laneLoop s l ≠ 2 →
      b = (if regBit s (laneBase l) 3 then bits.map (!·) else bits) →
      (1040 ≤ b.length → offsetPasses (deserialise 32 (b.drop 80)) = true →
        (deserialise 64 (b.drop 400)).all (fun g => inTable g.toNat) = true →
        ∃ t, Sys2Proof.Machine.exec (.slipSearchEnd l bits []) s = .next t
          ∧ (laneOf t l).searching = false ∧ (laneOf t l).aligned = true ∧ (laneOf t l).slip = (laneOf s l).slip % 10
          ∧ (laneOf t l).lost = false ∧ (laneOf t l).elastic = 4)
      ∧ (∀ o groups, searchBits 40 (laneOf s l).slip b = .failed o →
        ∃ t, Sys2Proof.Machine.exec (.slipSearchEnd l bits groups) s = .next t
          ∧ laneOf t l = { laneOf s l with searching := false, slip := o, slipFail := true,
                                           excluded := (laneOf s l).excluded - bits.length / 10 })
      ∧ (b.length < 400 → ∃ t, Sys2Proof.Machine.exec (.slipSearchEnd l bits []) s = .next t
        ∧ laneOf t l = { laneOf s l with excluded := (laneOf s l).excluded - bits.length / 10 }
        ∧ (∀ k, k ≠ l → laneOf t k = laneOf s k)))
    ∧ (∀ upset, regFld s (laneBase l) 1 0 = 3 → (laneOf s l).pstate ≠ 3 →
      ∃ t, Sys2Proof.Machine.exec (.laneActive ⟨l, upset⟩) s = .next t
        ∧ (laneOf t l).pstate = 3
        ∧ (tileLane l = true → (laneOf s l).cdrLock = true → (laneOf t l).searching = true ∧ (laneOf t l).aligned = false)))
  ∧ (∀ (s : State) (l : Nat) (drift : Int) (cdr : Bool), laneLives s l = true → (laneOf s l).pstate = 3 →
    (laneOf s l).aligned = true → tileLane l = true →
    (cdr = true ∨ ((laneOf s l).elastic : Int) + drift < 0 ∨ 8 < ((laneOf s l).elastic : Int) + drift) →
    ∃ t, Sys2Proof.Machine.exec (.laneLost l [] drift cdr) s = .next t
      ∧ (laneOf t l).aligned = false ∧ (laneOf t l).lost = true ∧ (laneOf t l).losses = satAdd 0xFF (laneOf s l).losses 1
      ∧ ((((laneOf s l).elastic : Int) + drift < 0 ∨ 8 < ((laneOf s l).elastic : Int) + drift) →
        (laneOf t l).elastics = satAdd 0xFF (laneOf s l).elastics 1)
      ∧ (cdr = true → (laneOf t l).cdrLock = false)
      ∧ (inService s l = true → fltJudges s = true → s.flt.live.any (fun e => e.1 == 24 && e.2.1 == l) = false →
        t.flt.sticky.getLsbD 24 = true))
  ∧ (∀ (s : State) (l : Nat) (g r : Group), laneLives s l = true → (laneOf s l).pstate = 3 → (laneOf s l).aligned = true →
    laneChk s l = 0 → laneLoop s l = 0 → (laneOf s l).winErrors < 15 → (laneOf s l).elastic ≤ 8 →
    r = (if regBit s (laneBase l) 3 then ~~~g else g) →
    ∃ t, Sys2Proof.Machine.exec (.laneLost l [g] 0 false) s = .next t
      ∧ (tileLane l = true → (laneOf t l).aligned = true)
      ∧ (laneOf t l).violations = (if inTable r.toNat then (laneOf s l).violations else satAdd 0xFFFF (laneOf s l).violations 1)
      ∧ ((laneOf s l).rxFirst = false → (laneOf t l).disparities =
        (if inTable r.toNat && (symbolOf r.toNat (laneOf s l).rxRd).isNone then satAdd 0xFFFF (laneOf s l).disparities 1
          else (laneOf s l).disparities)))
  ∧ (∀ (s : State) (b : Bus) (k : Nat) (v : Word), k < 3 → reaches s b (laneBlockBase k) = true →
    ∃ t, Sys2Proof.Machine.exec (.clearCounts b k v) s = .next t
      ∧ (∀ l, l < 18 → laneBlockOf l = k → laneOf t l =
          { laneOf s l with violations := 0, disparities := 0, elastics := 0, losses := 0, searches := 0, degradeds := 0,
                            prbsErrors := 0, prbsBits := 0, checker := { (laneOf s l).checker with part := 0 } })
      ∧ (∀ l, laneBlockOf l ≠ k → laneOf t l = laneOf s l) ∧ otherWords (laneBlockBase k / 4) s t)

/-- 09 R333, R335 to R340: a lane takes the equalisation of the band in force, its eye is scanned, and its trim moves one
step. -/
def Obligations.LaneTuning : Prop :=
  (∀ (s : State) (l : Nat) (c : Nat) (w : Word), laneLives s l = true → 2 ≤ (laneOf s l).pstate →
    (laneOf s l).eqPending = true → c = bandInForce s → w = getReg s (eqIndex l c) →
    (injHits s 60 (eqIndex l c) = false → ∃ t, Sys2Proof.Machine.exec (.eqUpdate l false) s = .next t
      ∧ laneOf t l = { laneOf s l with
          eqPending := false, eqColumn := c, eqWord := w,
          trim := if fineBase w = fineBase (laneOf s l).eqWord then (laneOf s l).trim else 0,
          target := if fineBase w = fineBase (laneOf s l).eqWord then (laneOf s l).target else 0,
          excluded := if fineBase w = fineBase (laneOf s l).eqWord ∧ fld w 15 12 = fld (laneOf s l).eqWord 15 12
            then (laneOf s l).excluded else laneSlots s l 2 })
    ∧ (∃ t, Sys2Proof.Machine.exec (.eqUpdate l true) s = .next t
      ∧ (laneOf t l).eqPending = false ∧ (laneOf t l).eqWord = (laneOf s l).eqWord ∧ (laneOf t l).eqColumn = (laneOf s l).eqColumn
      ∧ (laneBlock t (laneBlockOf l)).eqParity = true ∧ (fltJudges s = true → t.flt.sticky.getLsbD 60 = true)))
  ∧ (∀ (s : State) (l : Nat), laneLives s l = true → (laneOf s l).pstate = 3 → (laneOf s l).aligned = true →
    ((laneOf s l).scanning = false →
      ∃ t, Sys2Proof.Machine.exec (.eyeScanStart l) s = .next t ∧ laneOf t l = { laneOf s l with scanning := true }
        ∧ (∀ k, k ≠ l → laneOf t k = laneOf s k))
    ∧ (∀ (eye : DWord) (fom low bad : Nat), (laneOf s l).scanning = true → (laneOf s l).elastic ≤ 8 →
      fom = fomOf eye (fineBase (laneOf s l).eqWord + trimTarget s l eye) →
      low = (if fom < regFld s (laneBlockBase (laneBlockOf l) + 8) 23 16 then (laneOf s l).lowScans + 1 else 0) →
      bad = (if (laneOf s l).intervalErrors then (laneOf s l).badIntervals + 1 else 0) →
      ∃ t, Sys2Proof.Machine.exec (.eyeScanEnd l eye [] 0) s = .next t
        ∧ (laneOf t l).scanning = false ∧ (laneOf t l).eye = eye ∧ (laneOf t l).target = trimTarget s l eye
        ∧ (trimTarget s l eye = (laneOf s l).trim → (laneOf t l).fom = fom)
        ∧ (laneOf t l).lowScans = low ∧ (laneOf t l).badIntervals = bad
        ∧ ((inService s l = true ∨ 16 ≤ l) → (laneOf s l).degraded = false → 3 ≤ low ∨ 3 ≤ bad →
          (laneOf t l).degraded = true ∧ (laneOf t l).degradeds = satAdd 0xFF (laneOf s l).degradeds 1)
        ∧ ((laneOf s l).degraded = true → low = 0 → bad = 0 → (laneOf t l).degraded = false)))
  ∧ (∀ (s : State) (l : Nat) (x : Int), laneLives s l = true → (laneOf s l).trim ≠ (laneOf s l).target →
    x = (if (laneOf s l).trim < (laneOf s l).target then (laneOf s l).trim + 1 else (laneOf s l).trim - 1) →
    (regBit s (laneBlockBase (laneBlockOf l)) 8 = false → ∃ t, Sys2Proof.Machine.exec (.trimStep l) s = .next t ∧ t.lanes = s.lanes)
    ∧ (regBit s (laneBlockBase (laneBlockOf l)) 8 = true → ∃ t, Sys2Proof.Machine.exec (.trimStep l) s = .next t
      ∧ (laneOf t l).trim = x ∧ (laneOf t l).target = (laneOf s l).target
      ∧ (x = (laneOf s l).target → (laneOf t l).fom = fomOf (laneOf s l).eye (fineBase (laneOf s l).eqWord + x))
      ∧ (∀ k, k ≠ l → laneOf t k = laneOf s k)))

/-- 10 R364, R368, R379 to R382, R394 to R396, R398, R399, 07 R265: what each record of a tile does when it is taken, and a bad
record. -/
def Obligations.TileRecords : Prop :=
  ∀ (s : State) (h : Head) (i : Nat) (r : TileRecord), linkLive s h = true → i < 8 → pathHears s h i = true →
    (recordGood s h i 0x81 r = false → ∃ t, Sys2Proof.Machine.exec (.ackReceived h i r) s = .next t
      ∧ tileOf t h i = { tileOf s h i with bad := satAdd 0xFFFF (tileOf s h i).bad 1 })
    ∧ (recordGood s h i 0x81 r = true →
      ∀ (us : List (Nat × Packet)) (k : Nat), us = (tileOf s h i).unacked → (tileOf s h i).queue = [] → us ≠ [] →
        k = (byteAt r.body 0 + 256 - (us.map Prod.fst).headD 0) % 256 → k ≤ us.length →
        ∃ t, Sys2Proof.Machine.exec (.ackReceived h i r) s = .next t
          ∧ (tileOf t h i).unacked = us.drop k ∧ (tileOf t h i).rxSeq = (r.seq + 1) % 256
          ∧ (tileOf t h i).naks = (if nbit (byteAt r.body 1) 0 then satAdd 0xFFFF (tileOf s h i).naks 1 else (tileOf s h i).naks)
          ∧ (laneCarries s (laneIndex h (carrierOf s h i)) = true →
            (tileOf t h i).replayed = (if nbit (byteAt r.body 1) 0 then satAdd 0xFFFF (tileOf s h i).replayed (us.length - k)
              else (tileOf s h i).replayed)))
    ∧ (recordGood s h i 0x82 r = true → scriptRuns s = false →
        ∃ t, Sys2Proof.Machine.exec (.statusReceived h i r) s = .next t
          ∧ (tileOf t h i).id = BitVec.ofNat 32 (leAt r.body 0 4) ∧ (tileOf t h i).state = byteAt r.body 6 % 8
          ∧ (tileOf t h i).patterns = byteAt r.body 7 % 16 ∧ (tileOf t h i).faults = byteAt r.body 13 % 16
          ∧ (tileOf t h i).shownEpoch = leAt r.body 14 2 ∧ (tileOf t h i).fresh = true ∧ (tileOf t h i).stale = false
          ∧ (fltJudges s = true →
            (List.range 4).any (fun k => nbit (byteAt r.body 13 % 16) k && !nbit (tileOf s h i).faults k) = true →
            t.flt.sticky.getLsbD 26 = true))
    ∧ (recordGood s h i 0x84 r = true → ∀ th, th = signed 16 (regFld s (tblBase h + 0x10) 15 0) →
        ∃ t, Sys2Proof.Machine.exec (.tempReceived h i r) s = .next t
          ∧ (tileOf t h i).temperature = leAt r.body 0 2 ∧ (tileOf t h i).tempGone = false
          ∧ (fltJudges s = true → th < signed 16 (leAt r.body 0 2) → (tileOf s h i).tooHot = false → t.flt.sticky.getLsbD 29 = true))
    ∧ (recordGood s h i 0x83 r = true → leAt r.body 4 2 = 1 → s.lmm.bad = [] → s.lmm.latent = [] →
        ∀ x y p, x = tileX s h i + leAt r.body 2 2 → y = tileY s h i + leAt r.body 0 2 →
        p = y * activeW s h + x → nbit (byteAt r.body 8 % 16) 2 = true → tileHolds s h i x y = true →
        ∃ t, Sys2Proof.Machine.exec (.healthReceived h i r) s = .next t
          ∧ Store.get (fun _ => 0) (t.pxc.heads.get h).probed p = s.tim.cycles
          ∧ (regBit s (tblBase h) 3 = true → healthOf t h p = probeState (healthOf s h p) (byteAt r.body 8 % 16 % 4)
            ∧ otherBytes (regionBase s 6 + partOffset h + p / 2) 1 s t)
          ∧ (regBit s (tblBase h) 3 = false → t.mem = s.mem))
    ∧ (recordGood s h i 0x85 r = true → ∀ f crc, (tileOf s h i).echoWait = some (f, crc) →
        (BitVec.ofNat 32 (leAt r.body 0 4) = f → BitVec.ofNat 32 (leAt r.body 4 4) = crc →
          ∃ t, Sys2Proof.Machine.exec (.echoReceived h i r) s = .next t
            ∧ (tileOf t h i).echoWait = none ∧ (tileOf t h i).snapMatched = true ∧ (tileOf t h i).lastEcho = f)
        ∧ (BitVec.ofNat 32 (leAt r.body 0 4) ≠ f ∨ BitVec.ofNat 32 (leAt r.body 4 4) ≠ crc →
          ∃ t, Sys2Proof.Machine.exec (.echoReceived h i r) s = .next t
            ∧ (tileOf t h i).echoWait = none ∧ (tileOf t h i).snapMismatched = true
            ∧ (tileOf t h i).mismatched = satAdd 0xFFFF (tileOf s h i).mismatched 1
            ∧ (fltJudges s = true → t.flt.sticky.getLsbD (21 + Head.idx h) = true)))

/-- 10 R381, R390, R394, R395, R399, R401: the replay timer, the repeats of CONFIG and of a holding command, and what comes
when a tile's records do not. -/
def Obligations.TileTimers : Prop :=
  (∀ (s : State) (h : Head) (i : Nat), linkLive s h = true → i < 8 →
    ((tileOf s h i).unacked ≠ [] → pathActive s h i = true → laneCarries s (laneIndex h (carrierOf s h i)) = true →
      ∃ t, Sys2Proof.Machine.exec (.replayTimeout h i) s = .next t
      ∧ tileOf t h i = { tileOf s h i with replayed := satAdd 0xFFFF (tileOf s h i).replayed (tileOf s h i).unacked.length }
      ∧ ∀ u, u ∈ (tileOf s h i).unacked → Output.packet h (carrierOf s h i) (packetBytes s h i u.1 u.2) ∈ t.out)
    ∧ (pathActive s h i = false → ∃ t, Sys2Proof.Machine.exec (.replayTimeout h i) s = .next t
      ∧ tileOf t h i = tileOf s h i ∧ t.out = s.out)
    ∧ ((tileOf s h i).configWait = true → pathActive s h i = true → tileEnabled s h i = true →
      laneCarries s (laneIndex h (carrierOf s h i)) = true →
      ∃ t, Sys2Proof.Machine.exec (.configRepeat h i) s = .next t ∧ t.tbl = s.tbl
        ∧ Output.packet h (carrierOf s h i) (packetBytes s h i 0 { ptype := 1, fsn := 0, body := (tileOf s h i).config }) ∈ t.out)
    ∧ (tileEnabled s h i = true → pathActive s h i = true → (tileOf s h i).stale = false →
      ∃ t, Sys2Proof.Machine.exec (.statusTimeout h i) s = .next t
        ∧ tileOf t h i = { tileOf s h i with stale := true, fresh := false }
        ∧ (fltJudges s = true → t.flt.sticky.getLsbD 26 = true))
    ∧ (∃ t, Sys2Proof.Machine.exec (.tempTimeout h i) s = .next t
      ∧ tileOf t h i = { tileOf s h i with temperature := 0x8000, tempGone := true }))
  ∧ (∀ (s : State) (h : Head) (i : Nat), (tileOf s h i).echoWait.isSome = true →
    ∃ t, Sys2Proof.Machine.exec (.echoDeadline h i) s = .next t
      ∧ tileOf t h i = { tileOf s h i with missing := satAdd 0xFFFF (tileOf s h i).missing 1, snapMissing := true, echoWait := none }
      ∧ (fltJudges s = true → t.flt.sticky.getLsbD (21 + Head.idx h) = true))
  ∧ (∀ (s : State) (h : Head), linkLive s h = true → someLaneActive s h = true →
    ((s.saf.heads.get h).state = 2 → ∃ t, Sys2Proof.Machine.exec (.commandRepeat h) s = .next t ∧ t.tbl = s.tbl
      ∧ Output.lanes h (.husk (s.saf.heads.get h).pattern) ∈ t.out)
    ∧ ((s.saf.heads.get h).state = 3 → ∃ t, Sys2Proof.Machine.exec (.commandRepeat h) s = .next t ∧ t.tbl = s.tbl
      ∧ Output.lanes h .dark ∈ t.out))

/-- 10 R370, R401, R403, R404, R406, R409: the three requests to a tile go into its stream, and the pairs of TBL_x_FWD ask for
forwarding and give it up. -/
def Obligations.TileRequests : Prop :=
  (∀ (s : State) (b : Bus) (h : Head) (v : Word) (i : Nat), reaches s b (reqAddr h) = true → i = fld v 2 0 →
    (mayPump s h i = true → (tileOf s h i).queue = [] → laneCarries s (laneIndex h (carrierOf s h i)) = true →
      (∀ p, p = { ptype := 8, fsn := 0, body := [1#8, 0#8, 0#8, 0#8] } →
        ∃ t, Sys2Proof.Machine.exec (.requestStatus b h v) s = .next t
          ∧ tileOf t h i = { tileOf s h i with
              unacked := (tileOf s h i).unacked ++ [((tileOf s h i).txSeq, p)], txSeq := ((tileOf s h i).txSeq + 1) % 256 }
          ∧ .packet h (carrierOf s h i) (packetBytes s h i (tileOf s h i).txSeq p) ∈ t.out)
      ∧ (stopped s (timer s h) = true →
        (∃ t, Sys2Proof.Machine.exec (.requestTest b h v) s = .next t
          ∧ .packet h (carrierOf s h i) (packetBytes s h i (tileOf s h i).txSeq
              { ptype := 8, fsn := 0, body := [2#8, 0#8, 0#8, 0#8] }) ∈ t.out)
        ∧ (∃ t, Sys2Proof.Machine.exec (.requestUnconfig b h v) s = .next t
          ∧ .packet h (carrierOf s h i) (packetBytes s h i (tileOf s h i).txSeq
              { ptype := 8, fsn := 0, body := [3#8, 0#8, 0#8, 0#8] }) ∈ t.out)))
    ∧ (stopped s (timer s h) = false →
      (∃ t, Sys2Proof.Machine.exec (.requestTest b h v) s = .next t ∧ t.tbl = s.tbl)
      ∧ (∃ t, Sys2Proof.Machine.exec (.requestUnconfig b h v) s = .next t ∧ t.tbl = s.tbl)))
  ∧ (∀ (s : State) (b : Bus) (h : Head) (v : Word) (i c : Nat), reaches s b (tblBase h + 8) = true → i < 4 →
    (c = 1 ∨ c = 2) → fld v 19 16 = 0 →
    (∀ k, k < 4 → pairCode (fld v 7 0) k = (if k = i then c else fwdRequest s h k)) → fwdRequest s h i ≠ c →
    (partnerPorts s h (2 * i + c - 1) = true →
      0 ≤ laneMargin s h (timingOf s h)
        ((enabledTiles s h).filter (fun t => t == 2 * i + c - 1 || t == partnerOf (2 * i + c - 1))) →
      ∃ t, Sys2Proof.Machine.exec (.forwardRequest b h v) s = .next t
        ∧ fwdRequest t h i = c ∧ nbit (t.tbl.get h).switching i = (routeCode s h i != c) ∧ (∀ k, k < 4 → k ≠ i → fwdRequest t h k = fwdRequest s h k)
        ∧ otherWords ((tblBase h + 8) / 4) s t)
    ∧ (partnerPorts s h (2 * i + c - 1) = false →
      ∃ t, Sys2Proof.Machine.exec (.forwardRequest b h v) s = .next t ∧ fwdRequest t h i = fwdRequest s h i)
    ∧ (partnerPorts s h (2 * i + c - 1) = true →
      laneMargin s h (timingOf s h)
        ((enabledTiles s h).filter (fun t => t == 2 * i + c - 1 || t == partnerOf (2 * i + c - 1))) < 0 →
      ∃ t, Sys2Proof.Machine.exec (.forwardRequest b h v) s = .next t
        ∧ fwdRequest t h i = 0 ∧ nbit (t.tbl.get h).capRefused i = true
        ∧ (fltJudges s = true → t.flt.sticky.getLsbD 56 = true)))
  ∧ (∀ (s : State) (b : Bus) (h : Head) (v : Word) (i : Nat), reaches s b (tblBase h + 8) = true → i < 4 → fld v 19 16 = 0 →
    (∀ k, k < 4 → pairCode (fld v 7 0) k = (if k = i then 0 else fwdRequest s h k)) → fwdRequest s h i ≠ 0 →
    ∀ l, l = 2 * i + (if routeCode s h i = 0 then fwdRequest s h i else routeCode s h i) - 1 →
    (((laneOf s (laneIndex h l)).aligned && !(laneOf s (laneIndex h l)).degraded) = true →
      ∃ t, Sys2Proof.Machine.exec (.forwardReturn b h v) s = .next t
        ∧ fwdRequest t h i = 0
        ∧ nbit (t.tbl.get h).switching i = (routeCode s h i != 0) ∧ routeCode t h i = routeCode s h i)
    ∧ (((laneOf s (laneIndex h l)).aligned && !(laneOf s (laneIndex h l)).degraded) = false →
      ∃ t, Sys2Proof.Machine.exec (.forwardReturn b h v) s = .next t
        ∧ fwdRequest t h i = fwdRequest s h i ∧ t.tbl.get h = { s.tbl.get h with capRefused := (t.tbl.get h).capRefused }))

/-- 11 R414 to R419, R428, R454: a port switched on and off, what its link reports, a frame read and sent, and MDIO. -/
def Obligations.NetworkPorts : Prop :=
  (∀ (s : State) (b : Bus) (p : Nat) (v : Word), p < 2 → reaches s b (netBase p) = true →
    (portEnabled s p = false → ∃ t, Sys2Proof.Machine.exec (.netPortEnable b p v) s = .next t
      ∧ regAt t (netBase p) = withBit v 0 &&& 0x7F#32 ∧ otherWords (netBase p / 4) s t
      ∧ (portOf t p).link = portUp t p)
    ∧ (portEnabled s p = true → ∃ t, Sys2Proof.Machine.exec (.netPortDisable b p v) s = .next t
      ∧ portEnabled t p = false ∧ otherWords (netBase p / 4) s t ∧ (portOf t p).link = false
      ∧ (portOf t p).txFrames = (portOf s p).txFrames))
  ∧ (∀ (s : State) (p : Nat) (sync : Option Nat) (an rf phy speed on cw up : Bool), netLive s = true → p < 2 → portEnabled s p = true →
    on = (sync.isSome && (laneOf s (16 + p)).pstate == 3) →
    cw = (on && regBit s (netBase p) 2) → up = (on && (!regBit s (netBase p) 2 || (an && (!regBit s (netBase p) 1 || (phy && speed))))) →
    ∃ t, Sys2Proof.Machine.exec (.netLinkChange p sync an rf phy speed) s = .next t
      ∧ (portOf t p).link = up ∧ (portOf t p).sync = on ∧ (portOf t p).anDone = (cw && an)
      ∧ (portOf t p).remoteFault = (cw && rf) ∧ (laneOf t (16 + p)).aligned = on
      ∧ (portOf t p).speedUnsupported = (cw && regBit s (netBase p) 1 && !speed)
      ∧ (fltJudges s = true → (portOf s p).link = true → up = false →
        s.flt.live.any (fun e => e.1 == 31 + p && e.2.1 == 0) = false → t.flt.sticky.getLsbD (31 + p) = true))
  ∧ (∀ (s : State) (p : Nat) (w : Work), netLive s = true → hostReads s = true → p < 2 → ringsQuiet s = true →
    txRoom s p (dNat w.desc 12 2) = true →
    s.rng.work.find? (fun w => w.desc.opcode == 9 && w.dcrcOk && w.stage == 1 && dByte w.desc 8 == p
      && !(portOf s p).txFrames.any (fun q => q.1 == w.ring && q.2.1 == w.slot)) = some w →
    (∀ bs, ∃ t, Sys2Proof.Machine.exec (.netTxReadDone p (.data bs)) s = .next t
      ∧ (portOf t p).txFrames = (portOf s p).txFrames ++ [(w.ring, w.slot, fit (dNat w.desc 12 2) bs)])
    ∧ (∀ k, ∃ t, Sys2Proof.Machine.exec (.netTxReadDone p (.failed k)) s = .next t
      ∧ t.hif.err = s.hif.err ||| bitAt (k % 4) true ∧ (portOf t p).txFrames = (portOf s p).txFrames))
  ∧ (∀ (s : State) (p r sl : Nat) (seen : Stamp) (f : List Byte) (rest : List (Nat × Nat × List Byte)) (w : Work), netLive s = true →
    ringsQuiet s = true → (portOf s p).txFrames = (r, sl, f) :: rest → (portOf s p).txSeen = some seen → workAt s r sl = some w →
    ∃ t, Sys2Proof.Machine.exec (.netTxDone p) s = .next t
      ∧ (portOf t p).txFrames = rest ∧ (portOf t p).cntTx = satAdd 0xFFFFFFFF (portOf s p).cntTx 1
      ∧ .frame p (wireBytes (if nbit (dByte w.desc 9) 0 then (oneStep f seen.time).1 else f)) ∈ t.out)
  ∧ (∀ (s : State) (b : Bus) (v : Word), reaches s b 0x0D000 = true →
    (s.net.mdio = none →
      (∃ t, Sys2Proof.Machine.exec (.mdioWrite b v) s = .next t
        ∧ t.net = { s.net with mdio := some (true, fld v 25 21, fld v 20 16, fld v 15 0) }
        ∧ .mdio true (fld v 25 21) (fld v 20 16) (fld v 15 0) ∈ t.out)
      ∧ (∃ t, Sys2Proof.Machine.exec (.mdioRead b v) s = .next t
        ∧ t.net = { s.net with mdio := some (false, fld v 25 21, fld v 20 16, fld v 15 0) }
        ∧ .mdio false (fld v 25 21) (fld v 20 16) 0 ∈ t.out))
    ∧ (s.net.mdio.isSome = true →
      (∃ t, Sys2Proof.Machine.exec (.mdioWrite b v) s = .next t ∧ t.net = { s.net with mdioRefused := true })
      ∧ (∃ t, Sys2Proof.Machine.exec (.mdioRead b v) s = .next t ∧ t.net = { s.net with mdioRefused := true })))
  ∧ (∀ (s : State) (data : Half) (w : Bool) (a b c : Nat), netLive s = true → s.net.mdio = some (w, a, b, c) →
    ∃ t, Sys2Proof.Machine.exec (.mdioDone data) s = .next t
      ∧ t.net = { s.net with mdio := none, mdioData := if w then s.net.mdioData else data.toNat })

/-- 11 R421 to R424, R445 to R451, 16 R565, R566: a frame is counted, delivered, or compared as a safety telegram; a confirmed
telegram acts on the latches; a window, a memory and a source's time run out. -/
def Obligations.NetworkFrames : Prop :=
  (∀ (s : State) (p : Nat) (f : List Byte), netLive s = true → p < 2 → portEnabled s p = true → (portOf s p).link = true →
    ringsQuiet s = true →
    (∃ t, Sys2Proof.Machine.exec (.netRxFrame p f 1) s = .next t
      ∧ portOf t p = { portOf s p with cntFcs := satAdd 0xFFFF (portOf s p).cntFcs 1, inReception := false })
    ∧ (60 ≤ f.length →
      (∀ src, telCandidate s f = some src →
        (trailerOk p f = false → ∃ t, Sys2Proof.Machine.exec (.netRxFrame p f 0) s = .next t
          ∧ t.net.telBad = satAdd 255 s.net.telBad 1 ∧ t.net.keys = s.net.keys ∧ t.net.remembered = s.net.remembered)
        ∧ (trailerOk p f = true → s.net.keys.find? (fun k => k.source == src && k.seq == trailerSeq f) = none →
          s.net.remembered.find? (fun r => r.1 == src && r.2.1 == trailerSeq f) = none → s.net.keys.length < 32 →
          ∃ t, Sys2Proof.Machine.exec (.netRxFrame p f 0) s = .next t
            ∧ t.net.keys.dropLast = s.net.keys
            ∧ t.net.keys.getLast?.map (fun k => (k.source, k.seq, k.port, k.frame)) = some (src, trailerSeq f, p, f)
            ∧ t.net.remembered = s.net.remembered)
        ∧ (∀ k, trailerOk p f = true → s.net.keys.find? (fun k => k.source == src && k.seq == trailerSeq f) = some k → k.port ≠ p →
          (withoutLan f ≠ withoutLan k.frame → ∃ t, Sys2Proof.Machine.exec (.netRxFrame p f 0) s = .next t
            ∧ t.saf.stop = s.saf.stop ∧ t.saf.dark = s.saf.dark
            ∧ t.net.remembered = s.net.remembered ++ [(k.source, k.seq, k.port)]
            ∧ (fltJudges s = true → t.flt.sticky.getLsbD 33 = true))
          ∧ (withoutLan f = withoutLan k.frame → ctrlLive s = true → telValid (telBody k.frame) = true →
            telNewer s k.source (telBody k.frame) = true → imageFlag s 2 = true →
            ∃ t, Sys2Proof.Machine.exec (.netRxFrame p f 0) s = .next t
              ∧ t.net.remembered = s.net.remembered ++ [(k.source, k.seq, k.port)]
              ∧ (∀ h, nbit (byteAt (telBody k.frame) 2) (Head.idx h) = true →
                (byteAt (telBody k.frame) 1 = 1 → t.saf.stop.get h = some (byteAt (telBody k.frame) 3))
                ∧ (byteAt (telBody k.frame) 1 = 2 → t.saf.dark.get h = true)
                ∧ (byteAt (telBody k.frame) 1 = 3 → t.saf.stop.get h = none ∧ t.saf.dark.get h = false))
              ∧ (∀ h, nbit (byteAt (telBody k.frame) 2) (Head.idx h) = false →
                t.saf.stop.get h = s.saf.stop.get h ∧ t.saf.dark.get h = s.saf.dark.get h))))
      ∧ (∀ w, telCandidate s f = none → f.length ≤ regFld s (netBase p + 0x10) 11 0 → addrPasses s p f = true →
        vlanPasses s p f = true → s.pwr.state ≠ 2 → s.pwr.state ≠ 3 → hostLive s = true → rxBuffer s p = some w →
        regBit s (netBase p) 5 = false → f.length ≤ dNat w.desc 12 2 →
        ∃ t, Sys2Proof.Machine.exec (.netRxFrame p f 0) s = .next t
          ∧ .hostWrite (dNat w.desc 16 8) f ∈ t.out
          ∧ portOf t p = { portOf s p with cntRx := satAdd 0xFFFFFFFF (portOf s p).cntRx 1, inReception := false })))
  ∧ (∀ (s : State) (src seq : Nat) (k : TelKey), netLive s = true →
    s.net.keys.find? (fun k => k.source == src && k.seq == seq) = some k →
    ∃ t, Sys2Proof.Machine.exec (.telegramWindowEnd src seq) s = .next t
      ∧ t.net.keys = s.net.keys.filter (fun x => !(x.source == k.source && x.seq == k.seq))
      ∧ t.net.remembered = s.net.remembered ++ [(k.source, k.seq, k.port)]
      ∧ (fltJudges s = true → t.flt.sticky.getLsbD 34 = true))
  ∧ (∀ (s : State) (src seq : Nat), netLive s = true →
    ∃ t, Sys2Proof.Machine.exec (.keyMemoryExpiry src seq) s = .next t
      ∧ t.net = { s.net with remembered := s.net.remembered.filter (fun r => !(r.1 == src && r.2.1 == seq)) })
  ∧ (∀ (s : State) (src : Nat), netLive s = true → fltJudges s = true → regFld s 0x0D018 15 0 ≠ 0 →
    src < 4 → regBit s (0x0D024 + 8 * src) 31 = true →
    ∃ t, Sys2Proof.Machine.exec (.telegramTimeout src) s = .next t ∧ t.flt.sticky.getLsbD 35 = true)

/-- 11 R434 to R436: what SET, STEP, SLEW, CANCEL and DISCIPLINE of `TIM_CMD` do. -/
def Obligations.TimeCounterCommands : Prop :=
  ∀ (s : State) (b : Bus), reaches s b 0x0E004 = true →
    (∃ t, Sys2Proof.Machine.exec (.timeSet b) s = .next t
      ∧ t.tim.counter = (((regAt s 0x0E040).toNat + 2 ^ 32 * regFld s 0x0E044 15 0) * 10 ^ 9 + regFld s 0x0E048 29 0) * 2 ^ 32
          % counterTop
      ∧ t.tim.valid = true ∧ t.tim.slew = 0 ∧ t.tim.holdover = false ∧ t.tim.steps = satAdd 0xFFFF s.tim.steps 1
      ∧ t.tim.increment = s.tim.increment
      ∧ (fltJudges s = true → t.flt.sticky.getLsbD 37 = true))
    ∧ (s.tim.valid = true → ∃ t, Sys2Proof.Machine.exec (.timeStep b) s = .next t
      ∧ t.tim.counter = (((s.tim.counter : Int) + timAdj s) % (counterTop : Int)).toNat % counterTop
      ∧ t.tim.valid = true ∧ t.tim.slew = 0 ∧ t.tim.holdover = false ∧ t.tim.steps = satAdd 0xFFFF s.tim.steps 1
      ∧ t.tim.increment = s.tim.increment
      ∧ (fltJudges s = true → t.flt.sticky.getLsbD 37 = true))
    ∧ (s.tim.valid = false → ∃ t, Sys2Proof.Machine.exec (.timeStep b) s = .next t
      ∧ t.tim = { s.tim with refused := true })
    ∧ (∃ t, Sys2Proof.Machine.exec (.timeSlew b) s = .next t
      ∧ t.tim = { s.tim with slew := timAdj s, holdover := false })
    ∧ (∃ t, Sys2Proof.Machine.exec (.timeCancel b) s = .next t ∧ t.tim = { s.tim with slew := 0 })
    ∧ (∃ t, Sys2Proof.Machine.exec (.timeDiscipline b) s = .next t ∧ t.tim = { s.tim with holdover := false })

/-- 11 R431, R433, R434, R436: a slew that ends, the increment, the holdover timeout and its expiry, and the read that
latches the counter. -/
def Obligations.TimeUpkeepCommands : Prop :=
  (∀ s : State, ctrlLive s = true → s.tim.slew ≠ 0 → (regAt s 0x0E014).toNat ≠ 0 →
    ∃ t, Sys2Proof.Machine.exec .slewComplete s = .next t
      ∧ t.tim = { s.tim with
          counter := (((s.tim.counter + (s.tim.slew.natAbs + (regAt s 0x0E014).toNat - 1) / (regAt s 0x0E014).toNat
            * s.tim.increment : Nat) : Int) + s.tim.slew).toNat,
          slew := 0 })
  ∧ (∀ (s : State) (b : Bus) (v : Word), reaches s b 0x0E00C = true →
    (2 * 2 ^ 32 ≤ regFld s 0x0E008 3 0 * 2 ^ 32 + v.toNat → regFld s 0x0E008 3 0 * 2 ^ 32 + v.toNat ≤ 8 * 2 ^ 32 →
      ∃ t, Sys2Proof.Machine.exec (.incrementApply b v) s = .next t
        ∧ t.tim = { s.tim with increment := regFld s 0x0E008 3 0 * 2 ^ 32 + v.toNat, holdover := false }
        ∧ regAt t 0x0E00C = v ∧ otherWords (0x0E00C / 4) s t)
    ∧ (regFld s 0x0E008 3 0 * 2 ^ 32 + v.toNat < 2 * 2 ^ 32 ∨ 8 * 2 ^ 32 < regFld s 0x0E008 3 0 * 2 ^ 32 + v.toNat →
      ∃ t, Sys2Proof.Machine.exec (.incrementApply b v) s = .next t
        ∧ t.tim = { s.tim with refused := true } ∧ t.regs = s.regs))
  ∧ (∀ (s : State) (b : Bus) (v : Word), reaches s b 0x0E018 = true → fld v 15 0 = 0 ∨ (100 ≤ fld v 15 0 ∧ fld v 15 0 ≤ 60000) →
    ∃ t, Sys2Proof.Machine.exec (.holdWrite b v) s = .next t
      ∧ regAt t 0x0E018 = v &&& 0xFFFF#32 ∧ otherWords (0x0E018 / 4) s t
      ∧ t.tim = { s.tim with holdover := if fld v 15 0 = 0 then false else s.tim.holdover })
  ∧ (∀ s : State, ctrlLive s = true → s.tim.valid = true → regFld s 0x0E018 15 0 ≠ 0 → s.tim.holdover = false →
    ∃ t, Sys2Proof.Machine.exec .holdoverTimeout s = .next t
      ∧ t.tim = { s.tim with holdover := true }
      ∧ (fltJudges s = true → s.flt.live.any (fun e => e.1 == 36 && e.2.1 == 0) = false → t.flt.sticky.getLsbD 36 = true))
  ∧ (∀ (s : State) (b : Bus), readReaches s b 0x0E020 = true →
    ∃ t, Sys2Proof.Machine.exec (.nowLatch b) s = .next t
      ∧ t.tim = { s.tim with now := s.tim.counter }
      ∧ (b = .pcie → t.out = s.out ++ [.readData (BitVec.ofNat 32 (nowNs s / 10 ^ 9 % 2 ^ 32))]))

/-- 11 R438 to R444: arming, stopping and firing a trigger comparator, the end of the PPS pulse, and a capture unit that
records an edge and gives up its oldest record. -/
def Obligations.TriggerAndCaptureCommands : Prop :=
  (∀ (s : State) (b : Bus) (n : Nat) (v : Word), n < 8 → reaches s b (0x0E100 + 0x20 * n) = true →
    (∃ t, Sys2Proof.Machine.exec (.triggerArm b n v) s = .next t
      ∧ trigEnabled t n = true
      ∧ (trigOf t n).start = trigStartReg s n ∧ (trigOf t n).period = trigPeriodReg s n
      ∧ (trigOf t n).next = (trigNext (trigStartReg s n) (trigPeriodReg s n) s.tim.counter).1
      ∧ (∀ m, m ≠ n → trigOf t m = trigOf s m) ∧ otherWords ((0x0E100 + 0x20 * n) / 4) s t)
    ∧ (∃ t, Sys2Proof.Machine.exec (.triggerDisable b n v) s = .next t
      ∧ trigEnabled t n = false ∧ trigOf t n = { trigOf s n with next := none }
      ∧ (∀ m, m ≠ n → trigOf t m = trigOf s m) ∧ otherWords ((0x0E100 + 0x20 * n) / 4) s t))
  ∧ (∀ (s : State) (n due : Nat), ctrlLive s = true → n < 8 → trigEnabled s n = true → (trigOf s n).next = some due →
    ∃ t, Sys2Proof.Machine.exec (.triggerFire n) s = .next t
      ∧ trigOf t n = { trigOf s n with
          count := (trigOf s n).count + 1#32,
          next := if (trigOf s n).period = 0 then none else some (due + (trigOf s n).period) }
      ∧ t.tim.counter = Nat.max s.tim.counter (due * 2 ^ 16)
      ∧ s.out ++ [.trigger n] <+: t.out
      ∧ (∀ k, k < 8 → loopEnabled s k = true → loopChoice s k = some n → (Consumer.loop k, n) ∈ t.tim.pulses)
      ∧ (roundChoice s = some n → (Consumer.round, n) ∈ t.tim.pulses)
      ∧ (∀ m, m ≠ n → trigOf t m = trigOf s m))
  ∧ (∀ s : State, ctrlLive s = true → s.tim.pps = true →
    ∃ t, Sys2Proof.Machine.exec .ppsEnd s = .next t
      ∧ t.tim = { s.tim with pps := false } ∧ t.out = s.out ++ [.pps false])
  ∧ (∀ (s : State) (n : Nat) (rising : Bool), ctrlLive s = true → blockStopped s 8 = false → n < 8 → regBit s (0x0E200 + 0x20 * n) 7 = true →
    regFld s (0x0E200 + 0x20 * n) 4 0 ≠ 0 →
    captureEdge (regFld s (0x0E200 + 0x20 * n) 4 0) (regFld s (0x0E200 + 0x20 * n) 6 5) rising = true →
    ∃ t, Sys2Proof.Machine.exec (.capture n rising) s = .next t
      ∧ (if 4 ≤ (capOf s n).fifo.length then capOf t n = { capOf s n with overflow := true }
        else ∃ ns, capOf t n = { capOf s n with fifo := (capOf s n).fifo ++ [{ ns := ns, holdover := s.tim.holdover }] }
          ∧ (14 ≤ regFld s (0x0E200 + 0x20 * n) 4 0 → ns = nowNs s)))
  ∧ (∀ (s : State) (b : Bus) (n : Nat) (r : CapRec) (rest : List CapRec), n < 8 → readReaches s b (0x0E208 + 0x20 * n) = true →
    (capOf s n).fifo = r :: rest →
    ∃ t, Sys2Proof.Machine.exec (.capturePop b n) s = .next t
      ∧ capOf t n = { capOf s n with fifo := rest, current := r }
      ∧ (∀ m, m ≠ n → capOf t m = capOf s m))

/-- 01 R39, 12 R457, R458, R470, R472 to R479, R488: a sample instant, the start and the end of a computation, and the output phase,
which commits a result or discards the sample. The clause on the computation leaves out a reference outside 32 bits, for
which the spec states no value (log 34). -/
def Obligations.LoopSampleCommands : Prop :=
  (∀ (s : State) (n : Nat), cleRuns s = true → n < 8 → blockStopped s 8 = false → loopEnabled s n = true → trigTaken s (.loop n) (loopChoice s n) = true →
    ((loopOf s n).sample = none →
      ∃ t, Sys2Proof.Machine.exec (.loopSample n) s = .next t
        ∧ (∃ m, (loopOf t n).sample = some m ∧ m.x = loopMeasure s (loopInput (loopCtrl s n))
          ∧ m.ff = loopFeed s (fld (loopCtrl s n) 14 12) ∧ m.target = signed 32 (regAt s (loopBase n + 0x0C)).toNat
          ∧ m.code = fld (loopCtrl s n) 14 12 ∧ m.stage = 0 ∧ m.result = none)
        ∧ (loopOf t n).inUse = loopSource s n
        ∧ (loopOf t n).force = (loopOf s n).pending.getD (loopOf s n).force ∧ (loopOf t n).pending = none
        ∧ (loopOf t n).state = (if (loopOf s n).clearDue then LoopState.zero else (loopOf s n).state)
        ∧ t.cle.waiting = s.cle.waiting ++ [n] ∧ (∀ k, k ≠ n → loopOf t k = loopOf s k)
        ∧ (∀ k, (Consumer.loop n, k) ∉ t.tim.pulses))
    ∧ (∀ m, (loopOf s n).sample = some m →
      ∃ t, Sys2Proof.Machine.exec (.loopSample n) s = .next t
        ∧ loopOf t n = { loopOf s n with
            flags := setNBit (loopOf s n).flags 8 true, ignored := satAdd 0xFFFF (loopOf s n).ignored 1,
            inUse := loopSource s n }
        ∧ t.cle.waiting = s.cle.waiting ∧ (∀ k, k ≠ n → loopOf t k = loopOf s k)))
  ∧ (∀ (s : State) (n k : Nat), loopChoice s n = some k → trigEnabled s k = true → (Consumer.loop n, k) ∉ s.tim.pulses →
    ∃ t, Sys2Proof.Machine.exec (.loopSample n) s = .next t ∧ t.cle = s.cle)
  ∧ (∀ (s : State) (n : Nat) (rest : List Nat), cleRuns s = true → s.cle.running = none → s.cle.waiting = n :: rest →
    ∃ t, Sys2Proof.Machine.exec .loopComputeStart s = .next t
      ∧ t.cle.running = some n ∧ t.cle.waiting = rest
      ∧ (loopOf t n).sample = (loopOf s n).sample.map (fun m => { m with stage := 1 })
      ∧ (∀ k, k ≠ n → loopOf t k = loopOf s k))
  ∧ (∀ (s : State) (n : Nat) (m : LoopSample) (q v : Int), cleRuns s = true → s.cle.running = some n →
    (loopOf s n).sample = some m → m.stage = 1 →
    rampLaw (loopInt s n 0x10) (loopInt s n 0x14) m.target (loopOf s n).state.q (loopOf s n).state.v = (q, v) →
    -(2 ^ 31) ≤ q → q < 2 ^ 31 →
    ∃ t, Sys2Proof.Machine.exec .loopComputeEnd s = .next t
      ∧ t.cle.running = none
      ∧ loopOf t n = { loopOf s n with
          sample := some { m with stage := 2, result := some (lawAfter s n m (loopOf s n).state q v) } }
      ∧ (lawAfter s n m (loopOf s n).state q v).u ≤ loopInt s n 0x64)
  ∧ (∀ (s : State) (n : Nat) (m : LoopSample), cleRuns s = true → (loopOf s n).sample = some m →
    (∀ r, m.result = some r →
      ∃ t, Sys2Proof.Machine.exec (.loopOutput n) s = .next t
        ∧ (loopOf t n).state = r.state ∧ (loopOf t n).sample = none ∧ (loopOf t n).out = r.u ∧ (loopOf t n).meas = r.y
        ∧ (∀ d, loopDest (loopCtrl s n) = d → 1 ≤ d → d ≤ 6 →
            regAt t (0x0F040 + 4 * (d - 1)) = BitVec.ofInt 32 (clampInt 0 65535 r.u))
        ∧ (∀ k, k ≠ n → loopOf t k = loopOf s k))
    ∧ (m.result = none →
      ∃ t, Sys2Proof.Machine.exec (.loopOutput n) s = .next t
        ∧ (loopOf t n).state = (loopOf s n).state ∧ (loopOf t n).sample = none ∧ (loopOf t n).out = (loopOf s n).out
        ∧ (loopOf t n).overruns = satAdd 0xFFFF (loopOf s n).overruns 1 ∧ t.regs = s.regs
        ∧ (∀ k, k ≠ n → loopOf t k = loopOf s k)))

/-- 01 R36, 12 R480, R482, R484, R487 to R489: enabling, disabling and clearing a loop, committing the shadow, the set points
and levels, and the supply enables; with what is refused. -/
def Obligations.LoopRegisterCommands : Prop :=
  (∀ (s : State) (b : Bus) (n : Nat) (v : Word), n < 8 → reaches s b (0x0F100 + 0x80 * n) = true →
    (loopEnabled s n = false → loopEnableFail s n (v &&& loopFields) = none →
      ∃ t, Sys2Proof.Machine.exec (.loopEnable b n v) s = .next t
        ∧ loopCtrl t n = (v &&& loopFields) ||| 1#32 ∧ (loopOf t n).clearDue = true
        ∧ (∀ k, k ≠ n → loopOf t k = loopOf s k) ∧ otherWords ((0x0F100 + 0x80 * n) / 4) s t)
    ∧ (∀ r, loopEnabled s n = false → loopEnableFail s n (v &&& loopFields) = some r →
      ∃ t, Sys2Proof.Machine.exec (.loopEnable b n v) s = .next t
        ∧ loopEnabled t n = false ∧ t.cle.refused = true ∧ t.cle.refusedLoop = n ∧ t.cle.reason = r)
    ∧ (loopEnabled s n = true →
      ∃ t, Sys2Proof.Machine.exec (.loopDisable b n v) s = .next t
        ∧ loopCtrl t n = loopCtrl s n &&& ~~~1#32 ∧ otherWords ((0x0F100 + 0x80 * n) / 4) s t)
    ∧ (∃ t, Sys2Proof.Machine.exec (.loopClear b n v) s = .next t
        ∧ (loopOf t n).clearDue = true ∧ (∀ k, k ≠ n → loopOf t k = loopOf s k)))
  ∧ (∀ (s : State) (b : Bus) (v : Word), reaches s b 0x0F004 = true →
    ∃ t, Sys2Proof.Machine.exec (.loopCommit b v) s = .next t ∧ t.regs = s.regs
      ∧ (∀ n, n < 8 → loopOf t n = if bit v n then { loopOf s n with pending := some (loopShadow s n) } else loopOf s n))
  ∧ (∀ (s : State) (b : Bus) (n : Nat) (v : Word), n < 8 → reaches s b (setpointWord n) = true →
    (destOwned s (if n < 6 then n + 1 else n + 2) = false →
      ∃ t, Sys2Proof.Machine.exec (.setpointWrite b n v) s = .next t
        ∧ regAt t (setpointWord n) = (if n < 6 then v &&& 0xFFFF#32 else v) ∧ otherWords (setpointWord n / 4) s t
        ∧ t.cle = s.cle)
    ∧ (destOwned s (if n < 6 then n + 1 else n + 2) = true →
      ∃ t, Sys2Proof.Machine.exec (.setpointWrite b n v) s = .next t ∧ t.regs = s.regs
        ∧ (if n < 6 then t.cle.setpRefused = true else t.cle.levelRefused = true)))
  ∧ (∀ (s : State) (b : Bus) (v : Word), reaches s b 0x0F008 = true →
    ∃ t, Sys2Proof.Machine.exec (.lenWrite b v) s = .next t
      ∧ regAt t 0x0F008 = v &&& 3#32 ∧ otherWords (0x0F008 / 4) s t)

/-- 12 R464 to R469, R481: a drive total leaves its FIFO, a loop ADC channel converts, the inertial sensor is read, and a
set-point pin takes its duty. -/
def Obligations.LoopInputCommands : Prop :=
  (∀ (s : State) (h : Head) (v : Nat) (r : Bool) (rest : List (Nat × Bool)), ctrlLive s = true → s.cle.fifo.get h = (v, r) :: rest →
    ∃ t, Sys2Proof.Machine.exec (.driveTotalReceive h) s = .next t
      ∧ t.cle = { s.cle with totals := s.cle.totals.set h v, repeated := s.cle.repeated.set h r, fifo := s.cle.fifo.set h rest })
  ∧ (∀ (s : State) (c : Nat), cleRuns s = true → c < 4 → adcMode s c ≠ 0 → (adcOf s c).converting = false →
    trigTaken s (.adc c) (adcChoice s c) = true →
    ∃ t, Sys2Proof.Machine.exec (.adcConversionStart c) s = .next t
      ∧ adcOf t c = { adcOf s c with converting := true } ∧ (∀ k, k ≠ c → adcOf t k = adcOf s k))
  ∧ (∀ (s : State) (c : Nat) (code : Half), cleRuns s = true → (adcOf s c).converting = true →
    ∃ t, Sys2Proof.Machine.exec (.adcConversionEnd c code) s = .next t
      ∧ adcOf t c = { code := signed 12 code.toNat, count := ((adcOf s c).count + 1) % 65536, converting := false }
      ∧ (∀ k, k ≠ c → adcOf t k = adcOf s k))
  ∧ (∀ s : State, cleRuns s = true → regBit s 0x0F080 0 = true → trigTaken s .imu (imuChoice s) = true →
    (s.cle.imuBusy = false →
      ∃ t, Sys2Proof.Machine.exec .imuTransactionStart s = .next t
        ∧ t.cle = { s.cle with imuBusy := true, imuSource := imuChoice s }
        ∧ t.out = s.out ++ [.imu ((leBytes 4 (regAt s 0x0F088).toNat).take (regFld s 0x0F080 18 16))])
    ∧ (s.cle.imuBusy = true →
      ∃ t, Sys2Proof.Machine.exec .imuTransactionStart s = .next t
        ∧ t.cle = { s.cle with imuIgnored := satAdd 255 s.cle.imuIgnored 1 } ∧ t.out = s.out))
  ∧ (∀ (s : State) (data : List Byte), cleRuns s = true → s.cle.imuBusy = true →
    ∃ t, Sys2Proof.Machine.exec (.imuTransactionEnd data) s = .next t ∧ t.cle.imuBusy = false
      ∧ (regBit s 0x0F090 31 = false → regFld s 0x0F094 7 0 = 0 →
        t.cle.imuValid = true ∧ t.cle.imuFailing = false ∧ t.cle.imuLast = fit (regFld s 0x0F080 23 20 + 1) data
        ∧ t.cle.imuWords.length = 6 ∧ ∀ n, n < 8 → (loopOf t n).imuFresh = true))
  ∧ (∀ (s : State) (n : Nat), ctrlLive s = true → n < 6 → regBit s 0x0F030 n = true →
    ∃ t, Sys2Proof.Machine.exec (.setpPeriodStart n) s = .next t
      ∧ Store.get (fun _ => 0) t.cle.setpTaken n = regFld s (0x0F040 + 4 * n) 15 0
      ∧ Store.get (fun _ => 0) t.cle.setpPeriod n = (Store.get (fun _ => 0) s.cle.setpPeriod n + 1) % 16)

/-- 13 R496 to R504, 14 R511: a frame's read ends, a chain's trigger comes, a frame's first bit leaves the pin, the latch gap
ends, coefficients are committed, a chain is switched off; and a preset's code
written to a held checksum context is refused. -/
def Obligations.OneWireChains : Prop :=
  (∀ (s : State) (c r sl : Nat) (old : List Byte), lceRuns s = true → hostLive s = true → ringsQuiet s = true →
    (chainOf s c).staged = some (r, sl, old) → (chainOf s c).ready = false →
    (∀ w bs, workAt s r sl = some w → ∃ t, Sys2Proof.Machine.exec (.laceFrameReady c (.data bs)) s = .next t
      ∧ chainOf t c = { chainOf s c with staged := some (r, sl, fit (dNat w.desc 12 4) bs), ready := true })
    ∧ (∀ k, ∃ t, Sys2Proof.Machine.exec (.laceFrameReady c (.failed k)) s = .next t
      ∧ chainOf t c = { chainOf s c with staged := none } ∧ t.hif.err = s.hif.err ||| bitAt (k % 4) true
      ∧ workAt t r sl = none))
  ∧ (∀ (s : State) (c : Nat), c < 2 → lceRuns s = true → bit (lceCtrl s c) 0 = true → laceTriggered s c = true →
    ∃ t, Sys2Proof.Machine.exec (.laceTrigger c) s = .next t
      ∧ (if (chainOf s c).busy then chainOf t c = { chainOf s c with ignored := satAdd 0xFFFF (chainOf s c).ignored 1 }
        else if (chainOf s c).ready then chainOf t c = { chainOf s c with startDue := true }
        else if (chainOf s c).startDue then chainOf t c = chainOf s c
        else (chainOf t c).underrun = true ∧ (chainOf t c).underruns = satAdd 0xFFFF (chainOf s c).underruns 1
          ∧ (chainOf t c).startDue = (bit (lceCtrl s c) 10 && (chainOf s c).last.isSome)
          ∧ (chainOf t c).repeatDue = (bit (lceCtrl s c) 10 && (chainOf s c).last.isSome)
          ∧ (fltJudges s = true → t.flt.sticky.getLsbD 44 = true)))
  ∧ (∀ (s u : State) (c : Nat) (desc : Option (Nat × Nat)) (data : List Byte), c < 2 → lceRuns s = true → ringsQuiet s = true →
    laceSource s c = some (desc, data) →
    u = modChain s c (fun e => { e with force := e.pending.getD e.force, pending := none }) →
    ∃ t, Sys2Proof.Machine.exec (.laceFrameStart c) s = .next t
      ∧ (chainOf t c).busy = true ∧ (chainOf t c).last = some data ∧ (chainOf t c).sending = desc ∧ (chainOf t c).pending = none
      ∧ (chainOf t c).force = (chainOf u c).force ∧ (chainOf t c).dt = lceDt u c ∧ (chainOf t c).startDue = false
      ∧ t.out = s.out ++ [.lace c (laceBytes u c (lceDt u c) data)])
  ∧ (∀ (s : State) (c : Nat), lceRuns s = true → ringsQuiet s = true → (chainOf s c).busy = true →
    ∃ t, Sys2Proof.Machine.exec (.laceGapEnd c) s = .next t
      ∧ chainOf t c = { chainOf s c with busy := false, sending := none }
      ∧ (∀ r sl, (chainOf s c).sending = some (r, sl) → workAt t r sl = none)
      ∧ ((chainOf s c).sending = none → t.out = s.out ∧ t.rng = s.rng))
  ∧ (∀ (s : State) (b : Bus) (v : Word), reaches s b 0x10000 = true →
    ∃ t, Sys2Proof.Machine.exec (.laceCommit b v) s = .next t
      ∧ (∀ c, c < 2 → if bit v c then
          ∃ m, (chainOf t c).pending = some m ∧ (∀ i, i ∈ lceShadowWords c → Store.get regReset m i = getReg s i)
          else chainOf t c = chainOf s c))
  ∧ (∀ (s : State) (b : Bus) (c : Nat) (v : Word), c < 2 → reaches s b (lceBase c) = true → bit (lceCtrl s c) 0 = true →
    ∃ t, Sys2Proof.Machine.exec (.laceDisable b c v) s = .next t
      ∧ bit (lceCtrl t c) 0 = false ∧ lceCtrl t c &&& 0x77E#32 = lceCtrl s c &&& 0x77E#32
      ∧ (chainOf t c).startDue = false ∧ (chainOf t c).repeatDue = false ∧ otherWords (lceBase c / 4) s t)
  ∧ (∀ (s : State) (b : Bus) (c : Nat) (v : Word), c < 4 → reaches s b (crcBase c) = true →
    (crcHeld s c = true → ∃ t, Sys2Proof.Machine.exec (.presetLoad b c v) s = .next t
      ∧ t.crc = { s.crc with refused := true, refusedCtx := c } ∧ t.regs = s.regs))

/-- 15 R522 to R528, R534 to R541, 16 R548: an assertion of a source with its sticky bit, count, first fault, record and
safety state; a condition that ends; a record that leaves; a clock monitor's gate; and the collector's own failure. -/
def Obligations.FaultAssertions : Prop :=
  (∀ (s : State) (src part heads detail addr : Nat), fltJudges s = true → 0 < src → src < 63 →
    (isLevel src = true → s.flt.live.any (fun e => e.1 == src && e.2.1 == part) = false) →
    ∃ t, Sys2Proof.Machine.exec (.faultAssert src part heads detail addr) s = .next t
      ∧ t.flt.sticky.getLsbD src = true
      ∧ (isLevel src = true → t.flt.live = s.flt.live ++ [(src, part, heads, detail)])
      ∧ (2 < src → (∀ i, i < 64 → i ≠ src → t.flt.sticky.getLsbD i = s.flt.sticky.getLsbD i)
        ∧ Store.get (fun _ => 0) t.flt.counts src = satAdd 0xFFFF (Store.get (fun _ => 0) s.flt.counts src) 1
        ∧ (s.flt.firstValid = false → sevOf s src ≠ 0 → t.flt.firstValid = true ∧ t.flt.first.source = src
          ∧ t.flt.first.severity = sevOf s src ∧ t.flt.first.detail = detail % 65536)
        ∧ (eventMasked s src = false → s.flt.entries.any (fun e => e.source == src) = false →
          ∃ e, e ∈ t.flt.entries ∧ e.source = src ∧ e.repeats = 1 ∧ e.clear = false ∧ e.severity = sevOf s src
            ∧ e.detail = detail % 65536)
        ∧ (sevOf s src = 5 → t.flt.resetReq = true)
        ∧ (∀ h, (t.saf.heads.get h).state = stateCall t h)))
  ∧ (∀ (s : State) (src part : Nat), s.flt.live.any (fun e => e.1 == src && e.2.1 == part) = true →
    ∃ t, Sys2Proof.Machine.exec (.faultConditionClear src part) s = .next t
      ∧ t.flt.live = s.flt.live.filter (fun e => !(e.1 == src && e.2.1 == part)) ∧ t.flt.sticky = s.flt.sticky
      ∧ t.flt.counts = s.flt.counts ∧ t.saf = s.saf)
  ∧ (∀ (s : State) (e : Entry) (rest : List Entry), fltJudges s = true → s.flt.entries = e :: rest →
    (∀ n, hostLive s = true → ringWithRole s 18 = some n → (ringOf s n).unreleased < ringSize s n →
      ∃ t, Sys2Proof.Machine.exec .eventOutput s = .next t
        ∧ t.flt.entries = rest ∧ t.flt.lostSince = false ∧ t.flt.lost = s.flt.lost
        ∧ Output.hostWrite (ringBase s n + 64 * (ringOf s n).devIdx)
            (recordBytes n (ringOf s n).devIdx (ringOf s n).phase (eventBody s e)) ∈ t.out)
    ∧ (ringWithRole s 18 = none → ∃ t, Sys2Proof.Machine.exec .eventOutput s = .next t
      ∧ t.flt = { s.flt with entries := rest, lost := satAdd 0xFFFFFFFF s.flt.lost 1, lostSince := true } ∧ t.out = s.out))
  ∧ (∀ (s : State) (clock n : Nat), clock < 7 → clockWatched s clock = true →
    ∃ t, Sys2Proof.Machine.exec (.clockMonitorGate clock n) s = .next t
      ∧ Store.get (fun _ => 0) t.flt.clkOut clock
          = (if clockInside clock n then 0 else Store.get (fun _ => 0) s.flt.clkOut clock + 1)
      ∧ Store.get (fun _ => 0) t.flt.clkIn clock
          = (if clockInside clock n then Store.get (fun _ => 0) s.flt.clkIn clock + 1 else 0)
      ∧ (clockInside clock n = false → 1 ≤ Store.get (fun _ => 0) s.flt.clkOut clock →
        (clock = 0 ∨ clock = 6 → clock ∈ t.flt.aoClock)
        ∧ (clock ≠ 0 → 0 ∉ s.flt.aoClock → fltJudges s = true →
          s.flt.live.any (fun e => e.1 == 50 && e.2.1 == clock) = false → t.flt.sticky.getLsbD 50 = true)))
  ∧ (∀ s : State, fltJudges s = true → s.flt.self = false →
    ∃ t, Sys2Proof.Machine.exec .collectorSelfFail s = .next t
      ∧ t.flt.self = true ∧ t.flt.sticky.getLsbD 0 = true ∧ (∀ h, 2 ≤ (t.saf.heads.get h).state))

/-- 15 R523, R525, R527, R529, R536, R543: the collector's registers that a command writes: sticky bits, counters, the first
fault, severities and the injection. -/
def Obligations.FaultRegisters : Prop :=
  (∀ (s : State) (b : Bus) (high : Bool) (v : Word), reaches s b (if high then 0x12014 else 0x12010) = true →
    ∃ t, Sys2Proof.Machine.exec (.stickyClear b high v) s = .next t
      ∧ (∀ i, i < 64 → t.flt.sticky.getLsbD i
          = (s.flt.sticky.getLsbD i && !((halfMask high v).getLsbD i && !conditionOf s i)))
      ∧ (∀ h, (t.saf.heads.get h).state = stateCall t h) ∧ t.flt.counts = s.flt.counts ∧ t.flt.entries = s.flt.entries
      ∧ (∀ i, getReg t i = getReg s i))
  ∧ (∀ (s : State) (b : Bus) (high : Bool) (v : Word), reaches s b (if high then 0x120A4 else 0x120A0) = true →
    ∃ t, Sys2Proof.Machine.exec (.counterClear b high v) s = .next t
      ∧ (∀ i, i < 64 → Store.get (fun _ => 0) t.flt.counts i
          = (if (halfMask high v).getLsbD i then 0 else Store.get (fun _ => 0) s.flt.counts i))
      ∧ t.flt.sticky = s.flt.sticky ∧ (∀ i, getReg t i = getReg s i))
  ∧ (∀ (s : State) (b : Bus) (v : Word), reaches s b 0x12060 = true →
    ∃ t, Sys2Proof.Machine.exec (.firstFaultClear b v) s = .next t
      ∧ t.flt.firstValid = (s.flt.firstValid && !bit v 31) ∧ t.flt.first = s.flt.first ∧ t.flt.sticky = s.flt.sticky)
  ∧ (∀ (s : State) (b : Bus) (k : Nat) (v : Word), k < 8 → reaches s b (0x12020 + 4 * k) = true →
    ∃ t, Sys2Proof.Machine.exec (.severityWrite b k v) s = .next t
      ∧ (∀ i, i < 8 → sevNibble (regAt t (0x12020 + 4 * k)).toNat i
          = (if 8 * k + i ∈ sevRefusals s k v ∨ 8 * k + i = 0 ∨ 8 * k + i = 63 then sevNibble (regAt s (0x12020 + 4 * k)).toNat i
            else sevNibble v.toNat i))
      ∧ (sevRefusals s k v = [] → t.flt.sevRefused = s.flt.sevRefused)
      ∧ (∀ src rest, sevRefusals s k v = src :: rest → t.flt.sevRefused = true ∧ t.flt.refusedSrc = src)
      ∧ otherWords ((0x12020 + 4 * k) / 4) s t ∧ (∀ h, (t.saf.heads.get h).state = stateCall t h))
  ∧ (∀ (s : State) (b : Bus) (v : Word), reaches s b 0x12080 = true →
    (s.saf.unlocked = false → ∃ t, Sys2Proof.Machine.exec (.injectArm b v) s = .next t
      ∧ (∀ i, getReg t i = getReg s i) ∧ t.flt.sticky = s.flt.sticky)
    ∧ (s.saf.unlocked = true → injectable (fld v 5 0) = true → fld v 9 8 = 1 ∨ fld v 9 8 = 2 → fld v 5 0 ≠ 0 →
      ∃ t, Sys2Proof.Machine.exec (.injectArm b v) s = .next t
        ∧ injArmed t (fld v 5 0) = true ∧ regAt t 0x12080 = (v &&& 0x0FFFF33F#32) ||| bitAt 31 true
        ∧ (s.flt.live.any (fun e => e.1 == 62 && e.2.1 == 0) = false → t.flt.sticky.getLsbD 62 = true))
    ∧ (s.saf.unlocked = true → injectable (fld v 5 0) = false ∨ fld v 9 8 = 0 ∨ fld v 9 8 = 3 →
      ∃ t, Sys2Proof.Machine.exec (.injectArm b v) s = .next t
        ∧ regBit t 0x12080 31 = false ∧ t.flt.injRefused = true)
    ∧ (s.saf.unlocked = true → fld v 5 0 = 0 → fld v 9 8 = 1 ∨ fld v 9 8 = 2 →
      ∃ t, Sys2Proof.Machine.exec (.injectArm b v) s = .next t
        ∧ t.flt.self = true ∧ regBit t 0x12080 31 = false
        ∧ (s.flt.self = false → ∀ h, 2 ≤ (t.saf.heads.get h).state)))

/-- 16 R548, R556 to R563: SAFE_N, the clearing by itself, the heartbeat and the watchdogs. -/
def Obligations.SafetyInputs : Prop :=
  (∀ s : State, s.saf.safeN = false → ∃ t, Sys2Proof.Machine.exec .safeNAssert s = .next t
    ∧ t.saf.safeN = true ∧ (∀ h, (t.saf.heads.get h).state = stateCall t h ∧ 2 ≤ (t.saf.heads.get h).state)
    ∧ (fltJudges s = true → s.flt.live.any (fun e => e.1 == 52 && e.2.1 == 0) = false → t.flt.sticky.getLsbD 52 = true))
  ∧ (∀ s : State, s.saf.safeN = true → ∃ t, Sys2Proof.Machine.exec .safeNRelease s = .next t
    ∧ t.saf.safeN = false ∧ (∀ h, (t.saf.heads.get h).state = stateCall t h) ∧ t.flt.sticky = s.flt.sticky
    ∧ t.flt.live = s.flt.live.filter (fun e => !(e.1 == 52 && e.2.1 == 0)))
  ∧ (∀ (s : State) (src : Nat), ctrlLive s = true → conditionOf s src = false →
    (src = 52 ∧ imageFlag s 0 = true) ∨ (src = 12 ∧ imageFlag s 1 = true) →
    ∃ t, Sys2Proof.Machine.exec (.autoClearExpiry src) s = .next t
      ∧ t.flt.sticky.getLsbD src = false ∧ (∀ i, i ≠ src → t.flt.sticky.getLsbD i = s.flt.sticky.getLsbD i)
      ∧ (∀ h, (t.saf.heads.get h).state = stateCall t h))
  ∧ (∀ (s : State) (b : Bus) (v : Word), reaches s b 0x13040 = true →
    (s.saf.hbAny = true → fld v 15 0 ≠ (regFld s 0x13040 15 0 + 1) % 65536 →
      ∃ t, Sys2Proof.Machine.exec (.heartbeatWrite b v) s = .next t
        ∧ t.saf = { s.saf with hbBad := satAdd 255 s.saf.hbBad 1 } ∧ (∀ i, getReg t i = getReg s i) ∧ t.flt.live = s.flt.live)
    ∧ (s.saf.hbAny = false ∨ fld v 15 0 = (regFld s 0x13040 15 0 + 1) % 65536 →
      ∃ t, Sys2Proof.Machine.exec (.heartbeatWrite b v) s = .next t
        ∧ regFld t 0x13040 15 0 = fld v 15 0 ∧ otherWords (0x13040 / 4) s t
        ∧ t.saf = { s.saf with hbAny := true, hbSup := true }
        ∧ t.flt.live = s.flt.live.filter (fun e => !(e.1 == 12 && e.2.1 == 0)) ∧ t.flt.sticky = s.flt.sticky))
  ∧ (∀ s : State, ctrlLive s = true →
    (s.saf.image.isSome = true → ∃ t, Sys2Proof.Machine.exec .heartbeatGraceEnd s = .next t
      ∧ t.saf = { s.saf with hbSup := true })
    ∧ (s.saf.hbSup = true → hbTimeout s ≠ 0 → s.flt.live.any (fun e => e.1 == 12 && e.2.1 == 0) = false →
      ∃ t, Sys2Proof.Machine.exec .heartbeatTimeout s = .next t
        ∧ t.flt.live = s.flt.live ++ [(12, 0, 3, 0)] ∧ (fltJudges s = true → t.flt.sticky.getLsbD 12 = true)))
  ∧ (∀ (s : State) (i : Nat), ctrlLive s = true → watched s i = true →
    ∃ t, Sys2Proof.Machine.exec (.watchdogExpiry i) s = .next t
      ∧ t.saf.wdg = setNBit s.saf.wdg i true ∧ (fltJudges s = true → t.flt.sticky.getLsbD 51 = true)
      ∧ (i = 4 → lenForced t .a = true) ∧ (i = 5 → lenForced t .b = true))

/-- 16 R569, R571 to R577: a session of the safety configuration is opened, commits, is abandoned or times out; the lockout
ends; and the stored configuration is checked. -/
def Obligations.ConfigSessions : Prop :=
  (∀ (s : State) (b : Bus), reaches s b 0x1300C = true →
    (s.saf.lockout = true → ∃ t, Sys2Proof.Machine.exec (.unlockOpen b) s = .next t ∧ t.saf = { s.saf with unlockRefused := true })
    ∧ (s.saf.lockout = false → s.saf.unlocked = false →
      (∀ img, s.saf.image = some img →
        (passwordOk s img = true → ∃ t, Sys2Proof.Machine.exec (.unlockOpen b) s = .next t
          ∧ t.saf = { s.saf with unlocked := true, failures := 0 })
        ∧ (passwordOk s img = false → s.saf.failures < 3 → ∃ t, Sys2Proof.Machine.exec (.unlockOpen b) s = .next t
          ∧ t.saf = { s.saf with unlockRefused := true, failures := s.saf.failures + 1, lockout := decide (s.saf.failures = 2) }))
      ∧ (s.saf.image = none → ∃ t, Sys2Proof.Machine.exec (.unlockOpen b) s = .next t
        ∧ t.saf = { s.saf with unlocked := true, failures := 0 }))
    ∧ (s.saf.unlocked = true → ∃ t, Sys2Proof.Machine.exec (.unlockCommit b) s = .next t ∧ t.saf = { s.saf with committing := true })
    ∧ (s.saf.unlocked = false →
      (∃ t, Sys2Proof.Machine.exec (.unlockCommit b) s = .next t
        ∧ t.saf = { s.saf with committing := false, commitError := true, commitReason := 1 })
      ∧ (∃ t, Sys2Proof.Machine.exec (.unlockAbandon b) s = .next t ∧ t.saf = s.saf ∧ (∀ i, getReg t i = getReg s i)))
    ∧ (∀ img, s.saf.unlocked = true → s.saf.image = some img →
      ∃ t, Sys2Proof.Machine.exec (.unlockAbandon b) s = .next t
        ∧ t.saf.unlocked = false ∧ t.saf.committing = false ∧ t.saf.image = some img ∧ rwlDiffers t img = false))
  ∧ (∀ (s : State) (img : List Byte), ctrlLive s = true → s.saf.unlocked = true → s.saf.image = some img →
    ∃ t, Sys2Proof.Machine.exec .sessionTimeout s = .next t
      ∧ t.saf.unlocked = false ∧ t.saf.committing = false ∧ t.saf.image = some img ∧ rwlDiffers t img = false)
  ∧ (∀ s : State, ctrlLive s = true → s.saf.committing = true → s.saf.unlocked = true → s.kps.current = some .commit →
    (∀ r ok, copyFault s (copyToCommit s) = some r → ∃ t, Sys2Proof.Machine.exec (.safecfgCommitEnd ok) s = .next t
      ∧ t.saf = { s.saf with committing := false, commitError := true, commitReason := r })
    ∧ (copyFault s (copyToCommit s) = none →
      (∃ t, Sys2Proof.Machine.exec (.safecfgCommitEnd false) s = .next t
        ∧ t.saf = { s.saf with committing := false, commitError := true, commitReason := 5 })
      ∧ (∃ t, Sys2Proof.Machine.exec (.safecfgCommitEnd true) s = .next t
        ∧ t.saf.image = some (safecfgCopy s (copyToCommit s)) ∧ t.saf.copy = copyToCommit s ∧ t.saf.unlocked = false
        ∧ t.saf.committing = false ∧ t.saf.imageBad = false)))
  ∧ (∀ s : State, ctrlLive s = true →
    (∃ t, Sys2Proof.Machine.exec .lockoutEnd s = .next t ∧ t.saf = { s.saf with lockout := false })
    ∧ (∀ upset, ∃ t, Sys2Proof.Machine.exec (.safecfgCheck upset) s = .next t
      ∧ t.saf.imageBad = (upset && s.saf.image.isSome) ∧ t.saf.image = s.saf.image
      ∧ (integrityBad t = true → fltJudges s = true → s.flt.live.any (fun e => e.1 == 53 && e.2.1 == 0) = false →
        t.flt.sticky.getLsbD 53 = true)))

/-- 17 R585 to R595, R597, R598: the rounds of housekeeping: start, conversion, evaluation with the published values, the die
band and both throttle levels, and housekeeping switched off. -/
def Obligations.HousekeepingRounds : Prop :=
  (∀ s : State, hkpRuns s = true →
    (trigTaken s .round (roundChoice s) = true → blockStopped s 8 = false → ∃ t, Sys2Proof.Machine.exec .hkRoundStart s = .next t
      ∧ t.hkp = (if s.hkp.busy then { s.hkp with ignored := satAdd 0xFFFF s.hkp.ignored 1 }
        else if regBit s 0x14000 0 then { s.hkp with busy := true, source := roundChoice s, slot := 0, codes := [] } else s.hkp))
    ∧ (∀ code, s.hkp.busy = true → s.hkp.slot < 16 → ∃ t, Sys2Proof.Machine.exec (.hkConversion code) s = .next t
      ∧ t.hkp = { s.hkp with codes := Store.put (fun _ => 0) s.hkp.codes s.hkp.slot (code % 4096), slot := s.hkp.slot + 1 }))
  ∧ (∀ s : State, hkpRuns s = true → s.hkp.busy = true → s.hkp.slot = 16 →
    ∃ t, Sys2Proof.Machine.exec .hkEvaluation s = .next t
      ∧ t.hkp.busy = false ∧ t.hkp.slot = 0 ∧ t.hkp.codes = [] ∧ t.hkp.rounds = (s.hkp.rounds + 1) % 256
      ∧ t.hkp.prevDie = (hkValOf s 0).value ∧ t.hkp.refFail = !refsGood s
      ∧ (∀ c, c ∈ [1, 2, 3, 4, 5, 6, 11, 12] → refsGood s = true → (hkValOf t c).valid = true
        ∧ (hkValOf t c).value = rhuDiv ((hkCode s c : Int) * (fullScale c : Nat)) 4096)
      ∧ ((∀ v, v ∈ (hkValOf s 0).lastValid → v + 160 ≤ 32767) →
        hkValOf t 0 = if refsGood s && fuseCrcOk s && decide (-960 ≤ dieTemp s) && decide (dieTemp s ≤ 3200) then
          { value := dieTemp s, valid := true, substituted := false, lastValid := some (dieTemp s) }
        else
          { hkValOf s 0 with value := match (hkValOf s 0).lastValid with
              | none => 2160
              | some v => v + 160, valid := false, substituted := true })
      ∧ (∀ n, n < 4 → ntcOn s n = true → refsGood s = true → 15 < hkCode s (7 + n) → hkCode s (7 + n) < 4080 →
        hkValOf t (7 + n) = { value := ntcTemp s n (hkCode s (7 + n)), valid := true, substituted := false,
                              lastValid := some (ntcTemp s n (hkCode s (7 + n))) })
      ∧ (∀ h, t.hkp.level.get h = levelNext (s.hkp.level.get h) (s.hkp.prevU.get h) (demand t h 0) (s.hkp.prevD.get h)
        (demand t h 64) (inputsValid t h))
      ∧ t.hkp.band = some (match s.hkp.band with
        | none => bandDirect (hkValOf t 0).value
        | some c => bandNext c s.hkp.prevTarget (bandTarget (hkValOf t 0).value c) (hkValOf t 0).valid))
  ∧ (∀ (s : State) (b : Bus) (v : Word), reaches s b 0x14000 = true →
    ∃ t, Sys2Proof.Machine.exec (.hkDisable b v) s = .next t
      ∧ regBit t 0x14000 0 = (regBit s 0x14000 0 && !s.saf.unlocked) ∧ otherWords (0x14000 / 4) s t)

/-- 17 R598: at an evaluation, a head's throttle level climbs where this and the previous evaluation's demand are above it, falls
where both are below it and every input is valid, and stands otherwise. -/
def Obligations.ThrottleLevelsFollowTheirInputs : Prop :=
  ∀ s : State, hkpRuns s = true → s.hkp.busy = true → s.hkp.slot = 16 →
    ∃ t, Sys2Proof.Machine.exec .hkEvaluation s = .next t
      ∧ (∀ (h : Head) (l up u dp d : Nat), l = s.hkp.level.get h → up = s.hkp.prevU.get h → dp = s.hkp.prevD.get h →
        u = ((throttleInputs t h).map (fun e =>
          throttleLvl (hkValOf t e.1).value (signed 16 (regFld t e.2 15 0)) (regFld t e.2 23 16))).foldl Nat.max 0 →
        d = ((throttleInputs t h).map (fun e =>
          throttleLvl ((hkValOf t e.1).value + 64) (signed 16 (regFld t e.2 15 0)) (regFld t e.2 23 16))).foldl Nat.max 0 →
        t.hkp.prevU.get h = u ∧ t.hkp.prevD.get h = d
        ∧ (l < up → l < u → t.hkp.level.get h = Nat.min up u)
        ∧ (¬(l < up ∧ l < u) → dp < l → d < l → inputsValid t h = true → t.hkp.level.get h = Nat.max dp d)
        ∧ (¬(l < up ∧ l < u) → ¬(dp < l ∧ d < l ∧ inputsValid t h = true) → t.hkp.level.get h = l))

/-- 01 R18, 18 R612 to R614, R620, R623: IDLE begins and ends, DOZE, SLEEP and OFF are requested by command or by timer, a write
of RUN, a wake event and the wake timer take effect, and REF stops and returns. -/
def Obligations.PowerRequests : Prop :=
  (∀ s : State,
    (regBit s 0x15000 0 = true → s.pwr.state = 0 → s.pwr.phase = 0 → aoLive s = true → idleHolds s = true →
      ∃ t, Sys2Proof.Machine.exec .idleEnter s = .next t ∧ t.pwr = { s.pwr with state := 1 })
    ∧ (s.pwr.state = 1 → ∃ t, Sys2Proof.Machine.exec .idleExit s = .next t ∧ t.pwr = { s.pwr with state := 0 }))
  ∧ (∀ (s : State) (b : Bus) (c : Instr) (target : Nat), (c, target) ∈ [(.pwrDoze b, 2), (.pwrSleep b, 3), (.pwrOff b, 4)] →
    reaches s b 0x15008 = true →
    ∃ t, Sys2Proof.Machine.exec c s = .next t
      ∧ t.pwr = (if s.pwr.phase ≠ 0 ∨ s.pwr.state = target ∨ 3 ≤ s.pwr.state then { s.pwr with refused := true }
        else { s.pwr with awaiting := domainsDown s, missed := [], phase := 1, target := target, asking := 1, agreed := [],
                          byTimer := false, saveNext := target == 4 }))
  ∧ (∀ (s : State) (c : Instr) (target : Nat), (c, target) ∈ [(.dozeTimerExpiry, 2), (.sleepTimerExpiry, 3)] →
    aoLive s = true → regBit s 0x15000 (target - 1) = true → idleHolds s = true → s.pwr.state < 3 →
    ∃ t, Sys2Proof.Machine.exec c s = .next t
      ∧ t.pwr = (if s.pwr.phase ≠ 0 ∨ s.pwr.state = target then { s.pwr with refused := true }
        else { s.pwr with awaiting := domainsDown s, missed := [], phase := 1, target := target, asking := 1, agreed := [],
                          byTimer := true, saveNext := false }))
  ∧ (∀ (s : State) (b : Bus), reaches s b 0x15008 = true → regBit s 0x15020 0 = true →
    (s.pwr.phase = 0 → 2 ≤ s.pwr.state → s.pwr.state ≤ 4 → ∃ t, Sys2Proof.Machine.exec (.pwrRun b) s = .next t
      ∧ t.pwr = { s.pwr with phase := 4, cause := s.pwr.cause ||| bitAt 0 true, awaiting := domainsDown s, missed := [] })
    ∧ (s.pwr.phase = 0 → s.pwr.state < 2 → ∃ t, Sys2Proof.Machine.exec (.pwrRun b) s = .next t ∧ t.pwr = s.pwr)
    ∧ (s.pwr.phase = 1 → domainsDown s = [] → 2 ≤ s.pwr.target → s.pwr.target ≤ 4 →
      ∃ t, Sys2Proof.Machine.exec (.pwrRun b) s = .next t
      ∧ t.pwr.phase = 0 ∧ t.pwr.state = 0 ∧ t.pwr.asking = 0 ∧ t.pwr.lanesWere = []))
  ∧ (∀ (s : State) (w : Nat), aoLive s = true → regBit s 0x15020 (w % 16) = true →
    (w % 16 = 6 → regBit s 0x15024 (w / 16 % 8) = true) →
    (w % 16 = 7 → regBit s 0x15024 (8 + w / 16 % 8) = true ∧ regBit s 0x15024 (16 + w / 16 % 8) = nbit w 7) →
    (s.pwr.phase = 0 → wakeActs s s.pwr.state (w % 16) = true → ∃ t, Sys2Proof.Machine.exec (.wake w) s = .next t
      ∧ t.pwr = { s.pwr with phase := 4, cause := s.pwr.cause ||| bitAt (w % 16) true, awaiting := domainsDown s, missed := [],
                             edges := t.pwr.edges })
    ∧ (s.pwr.phase = 3 → wakeActs s s.pwr.target (w % 16) = true → ∃ t, Sys2Proof.Machine.exec (.wake w) s = .next t
      ∧ t.pwr = { s.pwr with latch := s.pwr.latch ||| bitAt (w % 16) true, edges := t.pwr.edges })
    ∧ (s.pwr.phase = 1 ∨ s.pwr.phase = 2 → domainsDown s = [] → wakeActs s s.pwr.target (w % 16) = true →
      ∃ t, Sys2Proof.Machine.exec (.wake w) s = .next t
      ∧ t.pwr.phase = 0 ∧ t.pwr.state = 0 ∧ t.pwr.agreed = [] ∧ t.pwr.lanesWere = [] ∧ t.pwr.refusals = s.pwr.refusals
      ∧ t.pwr.latch = s.pwr.latch))
  ∧ (∀ s : State, aoLive s = true → regAt s 0x15030 ≠ 0#32 →
    ∃ t, Sys2Proof.Machine.exec .wakeTimerExpiry s = .next t
      ∧ regAt t 0x15030 = 0#32 ∧ otherWords (0x15030 / 4) s t
      ∧ (s.pwr.phase = 0 → regBit s 0x15020 8 = true → wakeActs s s.pwr.state 8 = true →
        t.pwr.phase = 4 ∧ t.pwr.cause = s.pwr.cause ||| bitAt 8 true)
      ∧ (s.pwr.phase = 0 → regBit s 0x15020 8 = false ∨ s.pwr.state < 2 → t.pwr = s.pwr))
  ∧ (∀ s : State,
    (∃ t, Sys2Proof.Machine.exec .refLoss s = .next t ∧ onlyChanges [.pwr] s t ∧ t.pwr = { s.pwr with refPresent := false }
      ∧ refRuns t = false)
    ∧ (∃ t, Sys2Proof.Machine.exec .refReturn s = .next t ∧ onlyChanges [.pwr] s t ∧ t.pwr = { s.pwr with refPresent := true }))

/-- 18 R616 to R620: the entry to a low-power state: a block agrees, waits or refuses, an answer that does not come, the save
list, and the last domain. -/
def Obligations.LowPowerEntry : Prop :=
  (∀ s : State, s.pwr.phase = 1 → domainsDown s = [] →
    (blockRefuses s s.pwr.asking s.pwr.target = true → ∃ t, Sys2Proof.Machine.exec .blockAnswer s = .next t
      ∧ t.pwr.phase = 0 ∧ t.pwr.state = 0 ∧ t.pwr.refuser = s.pwr.asking ∧ t.pwr.refusals = satAdd 0xFFFF s.pwr.refusals 1
      ∧ t.pwr.backoff = (if s.pwr.byTimer then Nat.min 8 (2 * s.pwr.backoff) else s.pwr.backoff)
      ∧ (fltJudges s = true → t.flt.sticky.getLsbD 55 = true))
    ∧ (blockRefuses s s.pwr.asking s.pwr.target = false → blockWaits s s.pwr.asking = true →
      ∃ t, Sys2Proof.Machine.exec .blockAnswer s = .next t ∧ (s.pwr.asking ≠ 9 → t = s)
        ∧ (s.pwr.asking = 9 → t.hif.l1 = false → t.pwr = s.pwr)
        ∧ (s.pwr.asking = 9 → t.hif.l1 = true → t.pwr.agreed = 9 :: s.pwr.agreed))
    ∧ (blockRefuses s s.pwr.asking s.pwr.target = false → blockWaits s s.pwr.asking = false →
      ∃ t, Sys2Proof.Machine.exec .blockAnswer s = .next t ∧ t.pwr.agreed = s.pwr.asking :: s.pwr.agreed
        ∧ (∀ n rest, (askedBlocks s s.pwr.target).filter (fun x => decide (s.pwr.asking < x)) = n :: rest →
          t.pwr.phase = 1 ∧ t.pwr.asking = n)
        ∧ ((askedBlocks s s.pwr.target).filter (fun x => decide (s.pwr.asking < x)) = [] →
          t.pwr.asking = 0 ∧ t.pwr.phase = if s.pwr.saveNext then 2 else 3))
    ∧ (∃ t, Sys2Proof.Machine.exec .askTimeout s = .next t
      ∧ t.pwr.phase = 0 ∧ t.pwr.state = 0 ∧ t.pwr.refuser = s.pwr.asking ∧ t.pwr.refusals = satAdd 0xFFFF s.pwr.refusals 1
      ∧ (fltJudges s = true → t.flt.sticky.getLsbD 55 = true)))
  ∧ (∀ s : State, s.pwr.phase = 2 → ∃ t, Sys2Proof.Machine.exec .saveDone s = .next t
    ∧ t.pwr = { s.pwr with phase := 3, asking := 0, backoff := 1, saved := saveWords s, saveHeader := t.pwr.saveHeader }
    ∧ t.pwr.saveHeader.take 2 = [1#32, BitVec.ofNat 32 (saveWords s)])
  ∧ (∀ s : State, s.pwr.phase = 3 →
    (s.pwr.target ≠ 4 → s.pwr.latch = 0#32 → ∃ t, Sys2Proof.Machine.exec .entryComplete s = .next t
      ∧ t.pwr = { s.pwr with state := s.pwr.target, phase := 0, target := 0, asking := 0,
                             domains := domainsIn s s.pwr.target, saveMode := s.pwr.saveNext,
                             entries := satAdd 0xFFFF s.pwr.entries 1 }
      ∧ (∀ a, groupStays s s.pwr.target (a / 0x200000) = true → memGet t a = memGet s a))
    ∧ (s.pwr.target ≠ 4 → s.pwr.latch ≠ 0#32 → ∃ t, Sys2Proof.Machine.exec .entryComplete s = .next t
      ∧ t.pwr.state = s.pwr.target ∧ t.pwr.phase = 4 ∧ t.pwr.cause = s.pwr.cause ||| s.pwr.latch)
    ∧ (s.pwr.target = 4 → s.pwr.latch = 0#32 → ∃ t, Sys2Proof.Machine.exec .entryComplete s = .next t
      ∧ t.pwr.state = 4 ∧ t.pwr.phase = 0 ∧ (∀ d, d < 8 → domainState t d = 0) ∧ t.hif = Hif.reset ∧ t.rst.hifReady = false ∧ t.tim.counter = 0))

/-- 18 R624 to R626, R629: the power-good of a domain, a domain that misses it and is retried, and the end of the exit. -/
def Obligations.PowerExit : Prop :=
  (∀ (s : State) (d : Nat), s.pwr.phase = 4 →
    (d ∈ s.pwr.awaiting → ∃ t, Sys2Proof.Machine.exec (.powerGood d) s = .next t
      ∧ domainState t d = 2 ∧ t.pwr.awaiting = s.pwr.awaiting.filter (fun x => x != d) ∧ t.pwr.phase = 4
      ∧ (∀ k, k ≠ d → domainState t k = domainState s k))
    ∧ (d ∈ s.pwr.awaiting → d ∉ s.pwr.missed → ∃ t, Sys2Proof.Machine.exec (.powerGoodTimeout d) s = .next t
      ∧ t.pwr = { s.pwr with missed := s.pwr.missed ++ [d], awaiting := s.pwr.awaiting.filter (fun x => x != d), latch := t.pwr.latch }
      ∧ (fltJudges s = true → t.flt.sticky.getLsbD 59 = true))
    ∧ (d ∈ s.pwr.awaiting → d ∈ s.pwr.missed → ∃ t, Sys2Proof.Machine.exec (.powerGoodTimeout d) s = .next t
      ∧ t.pwr = { s.pwr with phase := 5 } ∧ (fltJudges s = true → t.flt.sticky.getLsbD 59 = true))
    ∧ (d ∈ s.pwr.missed → d ∉ s.pwr.awaiting → domainState s d ≠ 2 →
      ∃ t, Sys2Proof.Machine.exec (.powerDomainRetry d) s = .next t ∧ onlyChanges [.pwr] s t
        ∧ t.pwr = { s.pwr with awaiting := s.pwr.awaiting ++ [d] }))
  ∧ (∀ (s : State) (ok : Bool), s.pwr.phase = 4 → s.pwr.awaiting = [] → domainsDown s = [] →
    (((s.pwr.saveMode && decide (3 ≤ s.pwr.state)) = true → ok = true) →
      s.rng.work = [] → s.rst.deferred = [] → (∀ p, (portOf s p).waiting = []) →
      ∃ t, Sys2Proof.Machine.exec (.exitComplete ok) s = .next t
        ∧ t.pwr.state = 0 ∧ t.pwr.phase = 0 ∧ t.pwr.latch = 0#32 ∧ t.pwr.missed = [] ∧ t.pwr.agreed = []
        ∧ t.pwr.cause = s.pwr.cause ||| s.pwr.latch
        ∧ (∀ h, (t.tg.get h).fsn = (s.tg.get h).fsn ∧ (t.tg.get h).state = (s.tg.get h).state)
        ∧ (∀ l p, s.pwr.lanesWere = [(l, p)] → laneLives s l = true → regFld s (laneBase l) 1 0 = p → (laneOf t l).pstate = p)
        ∧ ((s.pwr.saveMode && decide (3 ≤ s.pwr.state)) = true → t.pwr.crcMatch = true
          ∧ (s.pwr.state = 4 → ∀ i, tableWord i = true → getReg t i = regReset i)))
    ∧ ((s.pwr.saveMode && decide (3 ≤ s.pwr.state)) = true → ok = false →
      ∃ t, Sys2Proof.Machine.exec (.exitComplete ok) s = .next t
        ∧ 7 ∈ t.rst.sources ∧ 2 ≤ t.rst.reach ∧ t.regs = []))

/-- 19 R634 to R638, R641, R642, 15 R528, R530, 02 R47, R100: the reset sources with the reach of each: what a COLD and a WARM
reach return to reset and what they keep, and what a HOST reach does to the host's side. -/
def Obligations.ResetSources : Prop :=
  (∀ (s : State) (c : Instr) (b : Nat), (c, b) ∈ [(.powerOnDetect, 0), (.resetNAssert, 1), (.aoBrownOut, 2)] →
    ∃ t, Sys2Proof.Machine.exec c s = .next t
      ∧ b ∈ t.rst.sources ∧ t.rst.reach = 3 ∧ t.rst.done = 0 ∧ t.rst.step = 0 ∧ t.regs = [] ∧ t.mem = [] ∧ t.rng = Rng.reset
      ∧ t.flt.sticky = 0#64 ∧ t.saf.dark = Pair.both false ∧ t.kps.blown = s.kps.blown ∧ t.pending = s.pending
      ∧ (s.rst.reach ≠ 3 → t.rst.colds = 1 ∧ t.rst.warms = 0 ∧ bit t.rst.cause b = true))
  ∧ (∀ (s : State), s.rst.reach ≤ 2 →
    ∃ t, Sys2Proof.Machine.exec .coreBrownOut s = .next t
      ∧ 4 ∈ t.rst.sources ∧ t.rst.reach = 2 ∧ t.rst.done = 1 ∧ t.regs = [] ∧ t.rng = Rng.reset ∧ bit t.rst.cause 4 = true
      ∧ t.saf.dark = s.saf.dark ∧ t.saf.stop = s.saf.stop ∧ t.saf.image = none
      ∧ (wideSources s = [] → t.flt.priorSticky = s.flt.sticky ∧ t.rst.warms = satAdd 0xFFFF s.rst.warms 1)
      ∧ (∀ a, a < 0x01200000 → memGet t a = memGet s a)
      ∧ (∀ a, 0x01200000 ≤ a → a < 0x01300000 → memGet t a = 0xFF#8))
  ∧ (∀ s : State, s.flt.resetReq = true → ∃ t, Sys2Proof.Machine.exec .faultResetRequest s = .next t
    ∧ 5 ∈ t.rst.sources ∧ 2 ≤ t.rst.reach ∧ t.regs = [])
  ∧ (∀ (s : State) (b : Bus) (v : Word), reaches s b 0x16004 = true →
    (∃ t, Sys2Proof.Machine.exec (.softwareWarm b v) s = .next t ∧ 6 ∈ t.rst.sources ∧ 2 ≤ t.rst.reach ∧ t.regs = [])
    ∧ (∃ t, Sys2Proof.Machine.exec (.softwareCold b v) s = .next t ∧ 3 ∈ t.rst.sources ∧ t.rst.reach = 3 ∧ t.regs = [])
    ∧ (∃ t, Sys2Proof.Machine.exec (.softwareHost b v) s = .next t ∧ 12 ∈ t.rst.sources ∧ t.rst.hifReady = false
      ∧ bit t.rst.cause 12 = true ∧ t.rst.reach = s.rst.reach))
  ∧ (∀ s : State, wideSources s = [] → 2 ≤ s.rst.done →
    (∃ t, Sys2Proof.Machine.exec .perstN s = .next t
      ∧ 8 ∈ t.rst.sources ∧ t.rst.hifReady = false ∧ bit t.rst.cause 8 = true ∧ t.hif = Hif.reset
      ∧ (∀ i, hostWord i = true → getReg t i = regReset i)
      ∧ (s.rng.journal = none → rngHolds s = true → t.rng.journal.isSome = true))
    ∧ (∀ (c : Instr) (b : Nat), (c, b) ∈ [(.hotReset, 9), (.functionLevelReset, 11)] → s.hif.linkUp = true → s.rst.sources = [] →
      domainState s 0 = 2 → ∃ t, Sys2Proof.Machine.exec c s = .next t
        ∧ t.rst.sources = [] ∧ t.rst.hifReady = true ∧ bit t.rst.cause b = true ∧ t.hif = Hif.reset
        ∧ (∀ i, hostWord i = true → getReg t i = regReset i))
    ∧ (s.hif.linkUp = true → ∃ t, Sys2Proof.Machine.exec .linkDown s = .next t
      ∧ 10 ∈ t.rst.sources ∧ t.rst.hifReady = false ∧ bit t.rst.cause 10 = true ∧ t.hif = Hif.reset
      ∧ (fltJudges s = true → s.flt.live.any (fun e => e.1 == 8 && e.2.1 == 0) = false → t.flt.sticky.getLsbD 8 = true)))

/-- 19 R639, R640, R649: sources are released, a step of the release sequence ends with what it loads, the boot script is
selected at its end, and the data link trains up. -/
def Obligations.ResetReleases : Prop :=
  (∀ (s : State) (c : Instr) (bs left : List Nat),
    (c, bs) ∈ [(.resetNRelease, [1]), (.softwareResetRelease, [3, 6, 12]), (.resetRelease, [0, 2, 4, 5, 7]), (.perstNRelease, [8])] →
    left = s.rst.sources.filter (fun b => !bs.contains b) →
    ∃ t, Sys2Proof.Machine.exec c s = .next t
      ∧ t.rst.sources = left
      ∧ t.rst.step = (if left.filter (fun b => decide (2 ≤ sourceWidth b)) = [] ∧ s.rst.reach ≠ 0 ∧ s.rst.step = 0
          then (if s.rst.reach = 3 then 1 else 2) else s.rst.step)
      ∧ t.rst.hifReady = (s.rst.hifReady || (left.isEmpty && decide (2 ≤ s.rst.done) && domainState s 0 == 2)))
  ∧ (∀ s : State, (1 ≤ s.rst.step → s.rst.step ≤ 6 → ∃ t, Sys2Proof.Machine.exec .releaseStepComplete s = .next t
      ∧ t.rst.done = s.rst.step ∧ t.rst.step = s.rst.step + 1
      ∧ (s.rst.step = 2 → s.rst.sources = [] → domainState s 0 = 2 → t.rst.hifReady = true)
      ∧ (s.rst.step = 5 → t.saf.image = ((newestCommit s).bind (fun e => [0, 1].find? (copyInForce s e))).map (safecfgCopy s)))
    ∧ (s.rst.step = 7 →
      (∀ k, slotSelect s = some k → ∃ t, Sys2Proof.Machine.exec .releaseStepComplete s = .next t
        ∧ t.rst.boot = { Boot.reset with state := 2, slot := k, pos := 16, time := s.rst.boot.time })
      ∧ (slotSelect s = none → ∃ t, Sys2Proof.Machine.exec .releaseStepComplete s = .next t
        ∧ t.rst.boot = { Boot.reset with state := 5, time := s.rst.boot.time }
        ∧ t.rst.step = 0 ∧ t.rst.done = 8 ∧ t.rst.reach = 0)))
  ∧ (∀ (s : State) (rate width : Nat), s.hif.linkUp = false → 2 ≤ s.rst.done → domainState s 0 = 2 →
    (∀ b, b ∈ s.rst.sources → b = 10) → toleranceNow s = none → s.rng.work = [] →
    ∃ t, Sys2Proof.Machine.exec (.pcieLinkUp rate width) s = .next t
      ∧ t.hif = { s.hif with linkUp := true, rate := rate % 4, width := width % 16 } ∧ t.rst.sources = [] ∧ t.rst.hifReady = true
      ∧ t.flt.live = s.flt.live.filter (fun e => !(e.1 == 8 && e.2.1 == 0)))

/-- 19 R642 to R644 with 12 R492, 13 R505, 14 R518, 15 R545, 16 R584, 20 R682: one block is reset, is held and is released. -/
def Obligations.BlockResets : Prop :=
  (∀ (s : State) (b : Bus) (v : Word) (k : Nat), reaches s b 0x16008 = true → ringsIdle s = true → sequencing s = false → k < 9 →
    v = bitAt k true →
    (domainState s (blockDomain k) ≠ 2 → ∃ t, Sys2Proof.Machine.exec (.blockReset b v) s = .next t
      ∧ k ∈ t.rst.deferred ∧ t.rst.blocks = s.rst.blocks ∧ bit t.rst.cause 16 = true)
    ∧ (domainState s (blockDomain k) = 2 → ∃ t, Sys2Proof.Machine.exec (.blockReset b v) s = .next t
      ∧ blockHeld t k = true ∧ (∀ j, j ≠ k → blockHeld t j = blockHeld s j) ∧ bit t.rst.cause 16 = true
      ∧ (k = 0 → t.net = Net.reset ∧ (∀ i, i / 1024 = 13 ∨ i / 1024 = 11 → getReg t i = regReset i)
        ∧ laneOf t 16 = Lane.reset ∧ laneOf t 17 = Lane.reset)
      ∧ (k = 1 → t.cle.running = none ∧ t.cle.waiting = [] ∧ getReg t (0x0F008 / 4) = getReg s (0x0F008 / 4))
      ∧ (k = 2 → ∀ c, c < 2 → chainOf t c = { Chain.reset with last := (chainOf s c).last })
      ∧ (k = 3 → t.crc = Crc.reset ∧ (∀ i, i / 1024 = 17 → getReg t i = regReset i))
      ∧ (k = 4 → t.hkp.band = s.hkp.band ∧ t.hkp.level = s.hkp.level ∧ t.hkp.vals = s.hkp.vals ∧ t.hkp.busy = false)
      ∧ (k = 5 → t.flt.sticky = 0#64 ∧ t.flt.counts = [] ∧ t.flt.priorSticky = s.flt.priorSticky
        ∧ (∀ i, i / 1024 = 18 → getReg t i = regReset i))
      ∧ (k = 6 → t.saf.unlocked = false ∧ t.saf.image = s.saf.image ∧ t.saf.dark = s.saf.dark ∧ t.saf.stop = s.saf.stop)
      ∧ (k = 7 → t.kps.current = none ∧ t.kps.waiting = [] ∧ t.kps.blown = s.kps.blown)
      ∧ (k = 8 → t.cbl = Cbl.reset ∧ (∀ i, i / 1024 = 23 → getReg t i = regReset i))))
  ∧ (∀ (s : State) (k : Nat), ringsIdle s = true → blockHeld s k = true →
    ∃ t, Sys2Proof.Machine.exec (.blockResetRelease k) s = .next t
      ∧ t.rst = { s.rst with blocks := s.rst.blocks.filter (fun x => x != k) })

/-- 19 R650 to R654, R656: each record of the boot script as it begins, and how a POLL, a WAIT and a timeout end it. The word
that the WRITE, MASK_WRITE and POLL records name here is GLB_SCRATCH (21 R692). -/
def Obligations.BootRecords : Prop :=
  (∀ s : State, s.rst.boot.state = 2 → s.rst.boot.waiting = false → recReadable s = true → recBad s = false →
    s.rst.boot.stopping = false → ringsQuiet s = true →
    (recOpcode s = 1 → recFlags s = 0 → (recWord s 1).toNat = 0x0000C → fld (recWord s 2) 12 0 = 1 →
      ∃ t, Sys2Proof.Machine.exec .bootWrite s = .next t
        ∧ regAt t 0x0000C = recWord s 3 ∧ otherWords (0x0000C / 4) s t
        ∧ t.rst.boot.record = s.rst.boot.record + 1 ∧ t.rst.boot.pos = s.rst.boot.pos + 4 * recLength s)
    ∧ (recOpcode s = 1 → recFlags s = 0 → recForbidden (recWord s 1).toNat = true → 1 ≤ fld (recWord s 2) 12 0 →
      ∃ t, Sys2Proof.Machine.exec .bootWrite s = .next t
        ∧ t.rst.boot.state = 4 ∧ t.rst.boot.reason = 6 ∧ (∀ i, getReg t i = getReg s i))
    ∧ (recOpcode s = 2 → (recWord s 1).toNat = 0x0000C → injHits s 54 3 = false → s.glb.badParity.contains 3 = false →
      ∃ t, Sys2Proof.Machine.exec .bootMaskWrite s = .next t
        ∧ regAt t 0x0000C = merge (regAt s 0x0000C) (recWord s 3) (recWord s 2) ∧ otherWords (0x0000C / 4) s t
        ∧ t.rst.boot.record = s.rst.boot.record + 1 ∧ t.rst.boot.pos = s.rst.boot.pos + 4 * recLength s)
    ∧ (∀ c, (c = .bootPoll ∧ recOpcode s = 3) ∨ (c = .bootWait ∧ recOpcode s = 6) →
      ∃ t, Sys2Proof.Machine.exec c s = .next t ∧ t.rst = { s.rst with boot := { s.rst.boot with waiting := true } })
    ∧ (∀ due, recOpcode s = 4 →
      due = (recLanes s).filter (fun l => laneLives s l && (laneOf s l).pstate == 3 && (laneOf s l).cdrLock) → due ≠ recLanes s →
      ∃ t, Sys2Proof.Machine.exec .bootSlipSearch s = .next t
        ∧ t.rst.boot.waiting = true ∧ t.rst.boot.state = 2 ∧ (∀ l, l ∈ due → (laneOf t l).searching = true)
        ∧ (∀ l, l ∉ due → laneOf t l = laneOf s l))
    ∧ (recOpcode s = 5 → recTiles s ≠ [] → (∀ e, e ∈ recEntries s → entryReadable s e.2 = true) →
      (∀ i, i ∈ recTiles s → linkReady s (recHead s) i = false) →
      ∃ t, Sys2Proof.Machine.exec .bootLoadTiles s = .next t
        ∧ t.rst.boot.waiting = true ∧ t.rst.boot.state = 2 ∧ (∀ i, i ∈ recTiles s → recTile t i = 1)
        ∧ (∀ e, e ∈ recEntries s →
          Store.get (fun _ => 0) (t.tbl.get (recHead s)).huskAt (recPattern s * 8 + e.1) = e.2 + 1))
    ∧ (recOpcode s = 7 → ∃ t, Sys2Proof.Machine.exec .bootEnd s = .next t
      ∧ t.rst.boot.state = 3 ∧ t.rst.boot.reason = 0 ∧ t.rst.boot.waiting = false
      ∧ (nbit (slotFlags s s.rst.boot.slot) 0 = true → t.rst.boot.autolight = true)
      ∧ (s.rst.step = 8 → t.rst.step = 0 ∧ t.rst.done = 8 ∧ t.rst.reach = 0)))
  ∧ (∀ s : State, recWaits s 6 = true → s.rst.boot.stopping = false →
    ∃ t, Sys2Proof.Machine.exec .bootWaitExpiry s = .next t
      ∧ t.rst.boot = { s.rst.boot with record := s.rst.boot.record + 1, pos := s.rst.boot.pos + 4 * recLength s,
                                       waiting := false, lanes := [], tiles := [] })
  ∧ (∀ s : State, recWaits s 3 = true → s.rst.boot.stopping = false → (recWord s 1).toNat = 0x0000C → injHits s 54 3 = false →
    s.glb.badParity.contains 3 = false →
    ∃ t, Sys2Proof.Machine.exec .bootPollRead s = .next t
      ∧ (if regAt s 0x0000C &&& recWord s 2 = recWord s 3 then
          t.rst.boot.record = s.rst.boot.record + 1 ∧ t.rst.boot.pos = s.rst.boot.pos + 4 * recLength s ∧ t.rst.boot.waiting = false
        else t.rst = s.rst))
  ∧ (∀ (s : State) (r : Nat), s.rst.boot.state = 2 → s.rst.boot.waiting = true → timeoutReason (recOpcode s) = some r →
    s.rst.boot.stopping = false →
    ∃ t, Sys2Proof.Machine.exec .bootRecordTimeout s = .next t
      ∧ (if nbit (recFlags s) 0 then t.rst.boot.state = 2 ∧ t.rst.boot.record = s.rst.boot.record + 1
          ∧ t.rst.boot.pos = s.rst.boot.pos + 4 * recLength s
        else t.rst.boot.state = 4 ∧ t.rst.boot.reason = r ∧ t.rst.boot.waiting = false))

/-- 19 R649, R655: RUN starts the script that is selected, or is refused; STOP ends a POLL or WAIT at once and lets any other
record finish. -/
def Obligations.BootControl : Prop :=
  (∀ (s : State) (b : Bus), reaches s b 0x16014 = true →
    (scriptRuns s = false → s.rst.reach = 0 → lastLive s = true → stopped s .a = true → stopped s .b = true →
      (∀ k, slotSelect s = some k → ∃ t, Sys2Proof.Machine.exec (.bootRun b) s = .next t
        ∧ t.rst.boot = { Boot.reset with state := 2, slot := k, pos := 16, time := s.rst.boot.time })
      ∧ (slotSelect s = none → ∃ t, Sys2Proof.Machine.exec (.bootRun b) s = .next t
        ∧ t.rst.boot = { Boot.reset with state := 5, time := s.rst.boot.time }))
    ∧ (scriptRuns s = true ∨ s.rst.reach ≠ 0 ∨ stopped s .a = false ∨ stopped s .b = false →
      ∃ t, Sys2Proof.Machine.exec (.bootRun b) s = .next t ∧ t.rst = { s.rst with hostRefused := true })
    ∧ (scriptRuns s = true → s.rst.boot.waiting = true → recOpcode s ≠ 3 → recOpcode s ≠ 6 →
      ∃ t, Sys2Proof.Machine.exec (.bootStop b) s = .next t
        ∧ t.rst = { s.rst with boot := { s.rst.boot with stopping := true } })
    ∧ (scriptRuns s = true → s.rst.boot.waiting = false ∨ recOpcode s = 3 ∨ recOpcode s = 6 →
      ∃ t, Sys2Proof.Machine.exec (.bootStop b) s = .next t
        ∧ t.rst.boot.state = 4 ∧ t.rst.boot.reason = 8 ∧ t.rst.boot.waiting = false)
    ∧ (scriptRuns s = false → ∃ t, Sys2Proof.Machine.exec (.bootStop b) s = .next t ∧ t.rst = s.rst))

/-- 20 R664, R666, R668, R673, R674, R680, R683: the writer's operation ends, the scrubber reads a sector, a fuse is programmed,
and the register window moves on. -/
def Obligations.KeepingStore : Prop :=
  (∀ (s : State) (sd : Bool) (r : List Byte), ringsQuiet s = true → s.kps.current = some (.eventlog sd r) →
    (∃ t, Sys2Proof.Machine.exec (.kpsOperationEnd true) s = .next t
      ∧ t.kps.evtSlot = (s.kps.evtSlot + 1) % 4096 ∧ t.kps.evtSeq = (s.kps.evtSeq + 1) % 2 ^ 32
      ∧ (∀ p i, i < 64 → servingSector s ((regionStart 4 + 64 * s.kps.evtSlot) / 4096) = some p →
        Store.get (fun _ => 0#8) t.kps.data (4096 * p + (regionStart 4 + 64 * s.kps.evtSlot) % 4096 + i)
          = (eventSlot r s.kps.evtSeq).getD i 0#8))
    ∧ (fltJudges s = true → ∃ t, Sys2Proof.Machine.exec (.kpsOperationEnd false) s = .next t
      ∧ t.flt.sticky.getLsbD 7 = true))
  ∧ (∀ (s : State) (found : Bool) (bad : Option Nat), lastLive s = true → regBit s 0x1C000 0 = true →
    ∃ t, Sys2Proof.Machine.exec (.kpsScrubSector found bad) s = .next t
      ∧ t.kps.scrubPos = (s.kps.scrubPos + 1) % 2048
      ∧ t.kps.passes = (if (s.kps.scrubPos + 1) % 2048 = 0 then (s.kps.passes + 1) % 65536 else s.kps.passes)
      ∧ (fltJudges s = true → (sectorOf s s.kps.scrubPos).state ≠ 2 →
        (found = true → t.flt.sticky.getLsbD 4 = true) ∧ (bad.isSome = true → t.flt.sticky.getLsbD 5 = true)))
  ∧ (∀ (s : State) (b : Bus) (v : Word) (ok : Bool), reaches s b 0x1C080 = true →
    ok = (decide (fld v 31 16 = 0x2148)
      && (decide (fld v 6 0 = 64 ∧ fld v 11 7 = 0) || decide (65 ≤ fld v 6 0 ∧ fld v 6 0 ≤ 126))
      && s.saf.unlocked && s.kps.fuseBusy.isNone) →
    ∃ t, Sys2Proof.Machine.exec (.fuseProgram b v) s = .next t
      ∧ t.kps = (if ok then { s.kps with fuseBusy := some (fld v 6 0, fld v 11 7) } else { s.kps with fuseRefused := true }))
  ∧ (∀ (s : State) (w k : Nat), lastLive s = true → s.kps.fuseBusy = some (w, k) → w < 128 → k < 32 →
    (∃ t, Sys2Proof.Machine.exec (.fuseProgramEnd true) s = .next t
      ∧ fuseBlown t w k = true ∧ (∀ x y, (x, y) ≠ (w, k) → fuseBlown t x y = fuseBlown s x y) ∧ t.kps.fuseBusy = none)
    ∧ (∃ t, Sys2Proof.Machine.exec (.fuseProgramEnd false) s = .next t
      ∧ (∀ x y, fuseBlown t x y = fuseBlown s x y) ∧ t.kps.fuseBusy = none ∧ t.kps.fuseVerify = true))
  ∧ (∀ (s : State) (b : Bus), readReaches s b 0x1C078 = true →
    ∃ t, Sys2Proof.Machine.exec (.windowReadHi b) s = .next t
      ∧ regAt t 0x1C070 = (regAt s 0x1C070 + 8#32) &&& 0x7FFFF8#32 ∧ otherWords (0x1C070 / 4) s t)

/-- 21 R695 to R698, R701 to R703, 15 R543: a service frame that asks for a write or a read, a frame with another command byte, a
frame cut short, and the background check of a word's parity. -/
def Obligations.ServicePort : Prop :=
  (∀ (s : State) (addr : Nat) (v : Word), aoLive s = true → addr % 4 = 0 → addr < 0x40000 → injArmed s 58 = false →
    ringsIdle s = true →
    (notServed (addr / 4) = true → ∃ t, Sys2Proof.Machine.exec (.svcWrite (svcRequest 2 addr (beBytes 4 v.toNat))) s = .next t
      ∧ (∀ i, getReg t i = getReg s i)
      ∧ t.out = s.out ++ [.service ([0x5A#8, 4#8] ++ leBytes 1 (crc8 [0x5A#8, 4#8]))])
    ∧ (addr = 0x0000C → scriptRuns s = false → ∃ t, Sys2Proof.Machine.exec (.svcWrite (svcRequest 2 addr (beBytes 4 v.toNat))) s = .next t
      ∧ regAt t 0x0000C = v ∧ otherWords (0x0000C / 4) s t
      ∧ t.out = s.out ++ [.service ([0x5A#8, 0#8] ++ leBytes 1 (crc8 [0x5A#8, 0#8]))]))
  ∧ (∀ (s : State), aoLive s = true → injArmed s 58 = false → injHits s 54 3 = false → s.glb.badParity.contains 3 = false →
    ∃ t, Sys2Proof.Machine.exec (.svcRead (svcRequest 3 0x0000C []) false) s = .next t
      ∧ t.out = s.out ++ [.service ([0x5A#8] ++ beBytes 4 (regAt s 0x0000C).toNat ++ [0#8]
          ++ leBytes 1 (crc8 ([0x5A#8] ++ beBytes 4 (regAt s 0x0000C).toNat ++ [0#8])))]
      ∧ (∀ i, getReg t i = getReg s i))
  ∧ (∀ (s : State) (frame : List Byte), aoLive s = true → frame ≠ [] → byteAt frame 0 ≠ 2 → byteAt frame 0 ≠ 3 →
    ∃ t, Sys2Proof.Machine.exec (.svcBadCommand frame) s = .next t
      ∧ t.glb.svcBad = satAdd 255 s.glb.svcBad 1
      ∧ t.out = s.out ++ [.service ([0x5A#8, 2#8] ++ leBytes 1 (crc8 [0x5A#8, 2#8]))])
  ∧ (∀ s : State, aoLive s = true → ∃ t, Sys2Proof.Machine.exec .svcFrameDiscard s = .next t
    ∧ t.glb = { s.glb with svcDiscards := satAdd 255 s.glb.svcDiscards 1 })
  ∧ (∀ (s : State) (upset : Bool) (p : Nat), regBit s 0x00018 0 = true → aoLive s = true →
    nextChecked s (65536 - s.glb.checkPos) s.glb.checkPos = some p →
    ∃ t, Sys2Proof.Machine.exec (.parityBgCheck upset) s = .next t
      ∧ (upset = true ∨ p ∈ s.glb.badParity → t.glb.parity = true ∧ p ∈ t.glb.badParity ∧ t.glb.index = p
        ∧ (fltJudges s = true → t.flt.sticky.getLsbD 54 = true))
      ∧ (upset = false → injHits s 54 p = false → p ∉ s.glb.badParity → t.glb.parity = s.glb.parity ∧ t.flt.sticky = s.flt.sticky))

/-- Every command, in every state, goes on to a next state and changes at most the parts of the state that `touches` lists for
it; the queue of waiting commands stays as it is (01 R23, 21 R686 and the chapters of each command's rule). -/
def Obligations.EveryCommandKeepsToItsParts : Prop :=
  ∀ (c : Instr) (s : State), ∃ t, Sys2Proof.Machine.exec c s = .next t ∧ onlyChanges (touches c) s t

/-- Every step keeps the canonical form of the light memory (03 R105, R106): addresses strictly rise, and no listed byte equals
what an unlisted one reads as. -/
def Obligations.StepsKeepMemoryCanonical : Prop :=
  ∀ s t : State, memWf s = true → Sys2Proof.Machine.step s = .next t → memWf t = true

/-- 20 R679, R680, 19 R637: a fuse bit that is blown reads as blown after every step, a reach of any width included. -/
def Obligations.BlownFusesStayBlown : Prop :=
  ∀ (s t : State) (w b : Nat), Sys2Proof.Machine.step s = .next t → fuseBlown s w b = true → fuseBlown t w b = true

/-- 16 R566: a DARK latch that stands falls only at a COLD reach or at a frame from the network, which may carry a RELEASE. -/
def Obligations.DarkLatchesStand : Prop :=
  ∀ s t : State, Sys2Proof.Machine.step s = .next t →
    darkHeld s t ∨ t.rst.reach = 3 ∨ ∃ p f e, s.pending.head? = some (.netRxFrame p f e)

/-- Every state's step is safe in the sense of Safety.lean: it goes on, keeps the light memory's canonical form and the order of
the queue, unblows no fuse, and drops a DARK latch only at a COLD reach or a frame from the network (16 R566, 20 R680). -/
def Obligations.EveryStepIsSafe : Prop := ∀ s : State, stepSafe s
end

