-- ==== Sys2Proof/Laws/Store.lean ====
section
/-! SUPPORT. The laws of the sparse map: a read after a write, writes that leave every other place alone, and the
canonical form, which every operation keeps. -/

namespace Sys2Proof.Machine

variable {α : Type}

theorem Store.above_iff (k : Nat) (m : Store α) : Store.above k m = true ↔ ∀ e ∈ m, k < e.1 := by
  induction m with
  | nil => simp [Store.above]
  | cons e m ih => obtain ⟨j, v⟩ := e; simp [Store.above, ih]

/-- The canonical form says that the keys rise strictly and that no entry holds its place's default. -/
theorem Store.wf_iff [DecidableEq α] (d : Nat → α) (m : Store α) :
    Store.wf d m = true ↔ m.Pairwise (fun a b => a.1 < b.1) ∧ ∀ e ∈ m, e.2 ≠ d e.1 := by
  induction m with
  | nil => simp [Store.wf]
  | cons e m ih =>
    obtain ⟨j, v⟩ := e
    simp only [Store.wf, Bool.and_eq_true, decide_eq_true_eq, ih, Store.above_iff, List.pairwise_cons, List.forall_mem_cons]
    grind

theorem Store.wf_nil [DecidableEq α] (d : Nat → α) : Store.wf d ([] : Store α) = true := rfl

theorem Store.mem_insert (k : Nat) (v : α) (m : Store α) (e : Nat × α) (h : e ∈ Store.insert k v m) : e = (k, v) ∨ e ∈ m := by
  induction m with
  | nil => simpa [Store.insert] using h
  | cons x m ih =>
    obtain ⟨j, w⟩ := x
    simp only [Store.insert] at h
    split at h
    · simpa using h
    · split at h
      · simp only [List.mem_cons] at h ⊢; grind
      · simp only [List.mem_cons] at h ⊢
        rcases h with h | h
        · grind
        · rcases ih h with h | h <;> grind

theorem Store.mem_erase (k : Nat) (m : Store α) (e : Nat × α) (h : e ∈ Store.erase k m) : e ∈ m := by
  induction m with
  | nil => simp [Store.erase] at h
  | cons x m ih =>
    obtain ⟨j, w⟩ := x
    simp only [Store.erase] at h
    split at h
    · exact List.mem_cons_of_mem _ (ih h)
    · simp only [List.mem_cons] at h ⊢
      rcases h with h | h
      · exact Or.inl h
      · exact Or.inr (ih h)

theorem Store.insert_rises (k : Nat) (v : α) (m : Store α) (h : m.Pairwise (fun a b => a.1 < b.1)) :
    (Store.insert k v m).Pairwise (fun a b => a.1 < b.1) := by
  induction m with
  | nil => simp [Store.insert]
  | cons x m ih =>
    obtain ⟨j, w⟩ := x
    rw [List.pairwise_cons] at h
    simp only [Store.insert]
    split
    · rename_i hk
      refine List.pairwise_cons.2 ⟨?_, List.pairwise_cons.2 h⟩
      intro e he
      rcases List.mem_cons.1 he with rfl | he
      · exact hk
      · exact Nat.lt_trans hk (h.1 e he)
    · split
      · rename_i _ hj
        exact List.pairwise_cons.2 ⟨fun e he => hj ▸ h.1 e he, h.2⟩
      · refine List.pairwise_cons.2 ⟨?_, ih h.2⟩
        intro e he
        rcases Store.mem_insert k v m e he with rfl | he
        · simp only; omega
        · exact h.1 e he

theorem Store.erase_rises (k : Nat) (m : Store α) (h : m.Pairwise (fun a b => a.1 < b.1)) :
    (Store.erase k m).Pairwise (fun a b => a.1 < b.1) := by
  induction m with
  | nil => simp [Store.erase]
  | cons x m ih =>
    obtain ⟨j, w⟩ := x
    rw [List.pairwise_cons] at h
    simp only [Store.erase]
    split
    · exact ih h.2
    · exact List.pairwise_cons.2 ⟨fun e he => h.1 e (Store.mem_erase k m e he), ih h.2⟩

/-- Writing one place keeps the canonical form. -/
theorem Store.put_wf [DecidableEq α] (d : Nat → α) (m : Store α) (k : Nat) (v : α) (h : Store.wf d m = true) :
    Store.wf d (Store.put d m k v) = true := by
  rw [Store.wf_iff] at h ⊢
  unfold Store.put
  split
  · exact ⟨Store.erase_rises k m h.1, fun e he => h.2 e (Store.mem_erase k m e he)⟩
  · rename_i hv
    refine ⟨Store.insert_rises k v m h.1, fun e he => ?_⟩
    rcases Store.mem_insert k v m e he with rfl | he
    · exact hv
    · exact h.2 e he

/-- Leaving entries out keeps the canonical form. -/
theorem Store.filter_wf [DecidableEq α] (d : Nat → α) (m : Store α) (p : Nat × α → Bool) (h : Store.wf d m = true) :
    Store.wf d (m.filter p) = true := by
  rw [Store.wf_iff] at h ⊢
  exact ⟨h.1.filter p, fun e he => h.2 e ((List.mem_filter.1 he).1)⟩

theorem Store.mem_entries [DecidableEq α] (d : Nat → α) (k : Nat) (vs : List α) (e : Nat × α)
    (h : e ∈ Store.entries d k vs) : k ≤ e.1 ∧ e.1 < k + vs.length ∧ e.2 ≠ d e.1 := by
  simp only [Store.entries, List.mem_filterMap] at h
  obtain ⟨⟨v, i⟩, hx, hy⟩ := h
  have hz := List.mem_zipIdx hx
  simp only at hy hz
  split at hy
  · cases hy
  · rename_i hv
    cases hy
    exact ⟨hz.1, by omega, hv⟩

theorem Store.entries_rises [DecidableEq α] (d : Nat → α) (k : Nat) (vs : List α) :
    (Store.entries d k vs).Pairwise (fun a b => a.1 < b.1) := by
  induction vs generalizing k with
  | nil => simp [Store.entries]
  | cons v vs ih =>
    have hc : Store.entries d k (v :: vs) = (if v = d k then [] else [(k, v)]) ++ Store.entries d (k + 1) vs := by
      simp only [Store.entries, List.zipIdx_cons, List.filterMap_cons]
      split <;> rename_i hv <;> split at hv <;> simp_all
    rw [hc]
    split
    · simpa using ih (k + 1)
    · refine List.pairwise_append.2 ⟨by simp, ih (k + 1), ?_⟩
      intro a ha b hb
      have := (Store.mem_entries d (k + 1) vs b hb).1
      simp only [List.mem_singleton] at ha
      subst ha
      simp only; omega

/-- Writing a run of places keeps the canonical form. -/
theorem Store.putList_wf [DecidableEq α] (d : Nat → α) (m : Store α) (k : Nat) (vs : List α) (h : Store.wf d m = true) :
    Store.wf d (Store.putList d m k vs) = true := by
  rw [Store.wf_iff] at h ⊢
  unfold Store.putList
  refine ⟨?_, ?_⟩
  · refine List.pairwise_append.2 ⟨h.1.filter _, List.pairwise_append.2 ⟨Store.entries_rises d k vs, h.1.filter _, ?_⟩, ?_⟩
    · intro a ha b hb
      have h1 := (Store.mem_entries d k vs a ha).2.1
      have h2 := List.mem_filter.1 hb
      simp only [decide_eq_true_eq] at h2
      omega
    · intro a ha b hb
      have h1 := List.mem_filter.1 ha
      simp only [decide_eq_true_eq] at h1
      rcases List.mem_append.1 hb with hb | hb
      · have := (Store.mem_entries d k vs b hb).1; omega
      · have h2 := List.mem_filter.1 hb
        simp only [decide_eq_true_eq] at h2
        omega
  · intro e he
    rcases List.mem_append.1 he with he | he
    · exact h.2 e ((List.mem_filter.1 he).1)
    · rcases List.mem_append.1 he with he | he
      · exact (Store.mem_entries d k vs e he).2.2
      · exact h.2 e ((List.mem_filter.1 he).1)

theorem Store.get_insert_same (d : Nat → α) (m : Store α) (k : Nat) (v : α) : Store.get d (Store.insert k v m) k = v := by
  induction m with
  | nil => simp [Store.insert, Store.get]
  | cons x m ih =>
    obtain ⟨j, w⟩ := x
    simp only [Store.insert]
    split
    · simp [Store.get]
    · split
      · simp [Store.get]
      · rename_i _ hj; simp [Store.get, hj, ih]

theorem Store.get_insert_other (d : Nat → α) (m : Store α) (k j : Nat) (v : α) (h : j ≠ k) :
    Store.get d (Store.insert k v m) j = Store.get d m j := by
  induction m with
  | nil => simp [Store.insert, Store.get, h.symm]
  | cons x m ih =>
    obtain ⟨i, w⟩ := x
    simp only [Store.insert]
    split
    · simp [Store.get, h.symm]
    · split
      · rename_i _ hi; subst hi; simp [Store.get, h.symm]
      · simp [Store.get, ih]

theorem Store.get_erase_other (d : Nat → α) (m : Store α) (k j : Nat) (h : j ≠ k) :
    Store.get d (Store.erase k m) j = Store.get d m j := by
  induction m with
  | nil => rfl
  | cons x m ih =>
    obtain ⟨i, w⟩ := x
    simp only [Store.erase]
    split
    · rename_i hi; subst hi; simp [Store.get, h.symm, ih]
    · simp [Store.get, ih]

theorem Store.get_of_above (d : Nat → α) (m : Store α) (k : Nat) (h : ∀ e ∈ m, k < e.1) : Store.get d m k = d k := by
  induction m with
  | nil => rfl
  | cons x m ih =>
    obtain ⟨j, w⟩ := x
    have := h (j, w) (by simp)
    simp only at this
    simp only [Store.get]
    rw [if_neg (by omega)]
    exact ih (fun e he => h e (by simp [he]))

theorem Store.get_erase_same (d : Nat → α) (m : Store α) (k : Nat) : Store.get d (Store.erase k m) k = d k := by
  induction m with
  | nil => rfl
  | cons x m ih =>
    obtain ⟨i, w⟩ := x
    simp only [Store.erase]
    split
    · exact ih
    · rename_i hi; simp [Store.get, hi, ih]

/-- A place that a write of another place leaves alone. -/
@[simp] theorem Store.get_put_other [DecidableEq α] (d : Nat → α) (m : Store α) (k j : Nat) (v : α) (h : j ≠ k) :
    Store.get d (Store.put d m k v) j = Store.get d m j := by
  unfold Store.put
  split
  · exact Store.get_erase_other d m k j h
  · exact Store.get_insert_other d m k j v h

/-- A read after a write. -/
@[simp] theorem Store.get_put_same [DecidableEq α] (d : Nat → α) (m : Store α) (k : Nat) (v : α) :
    Store.get d (Store.put d m k v) k = v := by
  unfold Store.put
  split
  · rename_i hv; rw [hv]; exact Store.get_erase_same d m k
  · exact Store.get_insert_same d m k v

theorem Store.get_append_left (d : Nat → α) (a b : Store α) (k : Nat) (h : ∀ e ∈ b, e.1 ≠ k) :
    Store.get d (a ++ b) k = Store.get d a k := by
  induction a with
  | nil =>
    induction b with
    | nil => rfl
    | cons x b ih =>
      obtain ⟨j, w⟩ := x
      have := h (j, w) (by simp)
      simp only at this
      simpa [Store.get, this] using ih (fun e he => h e (by simp [he]))
  | cons x a ih => obtain ⟨j, w⟩ := x; simp [Store.get, ih]

theorem Store.get_append_right (d : Nat → α) (a b : Store α) (k : Nat) (h : ∀ e ∈ a, e.1 ≠ k) :
    Store.get d (a ++ b) k = Store.get d b k := by
  induction a with
  | nil => rfl
  | cons x a ih =>
    obtain ⟨j, w⟩ := x
    have := h (j, w) (by simp)
    simp only at this
    simpa [Store.get, this] using ih (fun e he => h e (by simp [he]))

theorem Store.get_filter (d : Nat → α) (m : Store α) (p : Nat → Bool) (k : Nat) (h : p k = true) :
    Store.get d (m.filter (fun e => p e.1)) k = Store.get d m k := by
  induction m with
  | nil => rfl
  | cons x m ih =>
    obtain ⟨j, w⟩ := x
    by_cases hj : j = k
    · subst hj; simp [h, Store.get]
    · by_cases hp : p j = true <;> simp [hp, Store.get, hj, ih]

/-- Places outside a run that is written keep what they hold. -/
theorem Store.get_putList_other [DecidableEq α] (d : Nat → α) (m : Store α) (k : Nat) (vs : List α) (j : Nat)
    (h : j < k ∨ k + vs.length ≤ j) : Store.get d (Store.putList d m k vs) j = Store.get d m j := by
  unfold Store.putList
  have hm : ∀ e ∈ Store.entries d k vs, e.1 ≠ j := fun e he => by
    have := Store.mem_entries d k vs e he; omega
  rcases h with h | h
  · rw [Store.get_append_left, Store.get_filter d m (fun x => decide (x < k)) j (by simpa using h)]
    intro e he
    rcases List.mem_append.1 he with he | he
    · exact hm e he
    · have := List.mem_filter.1 he; simp only [decide_eq_true_eq] at this; omega
  · rw [Store.get_append_right, Store.get_append_right _ _ _ _ hm,
      Store.get_filter d m (fun x => decide (k + vs.length ≤ x)) j (by simpa using h)]
    intro e he
    have := List.mem_filter.1 he; simp only [decide_eq_true_eq] at this; omega

theorem Store.get_entries [DecidableEq α] (d : Nat → α) (k : Nat) (vs : List α) (i : Nat) (h : i < vs.length) :
    Store.get d (Store.entries d k vs) (k + i) = vs[i] := by
  induction vs generalizing k i with
  | nil => simp at h
  | cons v vs ih =>
    have hc : Store.entries d k (v :: vs) = (if v = d k then [] else [(k, v)]) ++ Store.entries d (k + 1) vs := by
      simp only [Store.entries, List.zipIdx_cons, List.filterMap_cons]
      split <;> rename_i hv <;> split at hv <;> simp_all
    rw [hc]
    cases i with
    | zero =>
      have hn : ∀ e ∈ Store.entries d (k + 1) vs, e.1 ≠ k + 0 := fun e he => by
        have := (Store.mem_entries d (k + 1) vs e he).1; omega
      rw [Store.get_append_left _ _ _ _ hn]
      split
      · rename_i hv; simp [Store.get, hv]
      · simp [Store.get]
    | succ i =>
      rw [Store.get_append_right]
      · have := ih (k + 1) i (by simpa using h)
        simpa [Nat.add_assoc, Nat.add_comm 1 i] using this
      · intro e he
        split at he
        · simp at he
        · simp only [List.mem_singleton] at he; subst he; simp only; omega

/-- A read inside a run that is written. -/
theorem Store.get_putList_in [DecidableEq α] (d : Nat → α) (m : Store α) (k : Nat) (vs : List α) (i : Nat)
    (h : i < vs.length) : Store.get d (Store.putList d m k vs) (k + i) = vs[i] := by
  unfold Store.putList
  rw [Store.get_append_right, Store.get_append_left, Store.get_entries d k vs i h]
  · intro e he
    have := List.mem_filter.1 he; simp only [decide_eq_true_eq] at this; omega
  · intro e he
    have := List.mem_filter.1 he; simp only [decide_eq_true_eq] at this; omega

/-- A map of canonical form lists a place exactly when it holds something else than the place's default. -/
theorem Store.get_listed [DecidableEq α] (d : Nat → α) (m : Store α) (k : Nat) (v : α) (h : Store.wf d m = true)
    (hm : (k, v) ∈ m) : Store.get d m k = v := by
  induction m with
  | nil => simp at hm
  | cons x m ih =>
    obtain ⟨j, w⟩ := x
    rcases List.mem_cons.1 hm with hm | hm
    · cases hm; simp [Store.get]
    · rw [Store.wf_iff] at h
      have hlt := (List.pairwise_cons.1 h.1).1 (k, v) hm
      simp only at hlt
      simp only [Store.get]
      rw [if_neg (by omega)]
      exact ih ((Store.wf_iff d m).2 ⟨(List.pairwise_cons.1 h.1).2, fun e he => h.2 e (by simp [he])⟩) hm

end Sys2Proof.Machine
end

