-- ==== Sys2Proof/Laws/State.lean ====
section
/-! SUPPORT. What each update of the state leaves and changes, field by field, so that no later proof unfolds a record
update; reads after writes of the indexed groups; and what a fold of steps keeps. -/

namespace Sys2Proof.Machine

/-! ## Pairs -/

@[simp] theorem Pair.get_set_same {α : Type} (p : Pair α) (h : Head) (v : α) : (p.set h v).get h = v := by cases h <;> rfl

@[simp] theorem Pair.get_set_other {α : Type} (p : Pair α) (h k : Head) (v : α) (n : k ≠ h) :
    (p.set h v).get k = p.get k := by
  cases h <;> cases k <;> first | rfl | exact absurd rfl n

@[simp] theorem Pair.set_get {α : Type} (p : Pair α) (h : Head) : p.set h (p.get h) = p := by cases h <;> rfl

@[simp] theorem Pair.get_both {α : Type} (v : α) (h : Head) : (Pair.both v).get h = v := by cases h <;> rfl

/-! ## Folds -/

/-- A fold of steps keeps what each step keeps. -/
theorem foldl_keep {α γ : Type} (g : State → γ) (f : State → α → State) (l : List α) (s : State)
    (h : ∀ s a, g (f s a) = g s) : g (l.foldl f s) = g s := by
  induction l generalizing s with
  | nil => rfl
  | cons a l ih => simp [ih, h]

/-- A fold of steps keeps a property that each step keeps. -/
theorem foldl_inv {α : Type} (P : State → Prop) (f : State → α → State) (l : List α) (s : State) (hs : P s)
    (h : ∀ s a, P s → P (f s a)) : P (l.foldl f s) := by
  induction l generalizing s with
  | nil => exact hs
  | cons a l ih => exact ih _ (h s a hs)

/-! ## Updates -/

@[simp] theorem setReg_fields (s : State) (idx : Nat) (v : Word) :
    (setReg s idx v).pending = s.pending ∧ (setReg s idx v).out = s.out ∧ (setReg s idx v).free = s.free
      ∧ (setReg s idx v).regs = Store.put regReset s.regs idx v ∧ (setReg s idx v).tableBad = s.tableBad
      ∧ (setReg s idx v).mem = s.mem ∧ (setReg s idx v).flt = s.flt ∧ (setReg s idx v).saf = s.saf
      ∧ (setReg s idx v).rst = s.rst ∧ (setReg s idx v).pwr = s.pwr ∧ (setReg s idx v).rng = s.rng
      ∧ (setReg s idx v).hif = s.hif ∧ (setReg s idx v).crc = s.crc ∧ (setReg s idx v).glb = s.glb
      ∧ (setReg s idx v).lmm = s.lmm ∧ (setReg s idx v).ly = s.ly ∧ (setReg s idx v).shd = s.shd
      ∧ (setReg s idx v).shdRefused = s.shdRefused ∧ (setReg s idx v).shdNode = s.shdNode
      ∧ (setReg s idx v).bldEntry = s.bldEntry ∧ (setReg s idx v).bld = s.bld ∧ (setReg s idx v).pxc = s.pxc
      ∧ (setReg s idx v).tg = s.tg ∧ (setReg s idx v).lanes = s.lanes ∧ (setReg s idx v).laneBlocks = s.laneBlocks
      ∧ (setReg s idx v).txRd = s.txRd ∧ (setReg s idx v).tbl = s.tbl ∧ (setReg s idx v).net = s.net
      ∧ (setReg s idx v).tim = s.tim ∧ (setReg s idx v).cle = s.cle ∧ (setReg s idx v).lce = s.lce
      ∧ (setReg s idx v).hkp = s.hkp ∧ (setReg s idx v).kps = s.kps ∧ (setReg s idx v).cbl = s.cbl :=
  ⟨rfl, rfl, rfl, rfl, rfl, rfl, rfl, rfl, rfl, rfl, rfl, rfl, rfl, rfl, rfl, rfl, rfl, rfl, rfl, rfl, rfl, rfl, rfl, rfl, rfl, rfl, rfl, rfl, rfl, rfl, rfl, rfl, rfl, rfl⟩

@[simp] theorem setRegAt_fields (s : State) (a : Nat) (v : Word) :
    (setRegAt s a v).pending = s.pending ∧ (setRegAt s a v).out = s.out ∧ (setRegAt s a v).free = s.free
      ∧ (setRegAt s a v).regs = Store.put regReset s.regs (a / 4) v ∧ (setRegAt s a v).tableBad = s.tableBad
      ∧ (setRegAt s a v).mem = s.mem ∧ (setRegAt s a v).flt = s.flt ∧ (setRegAt s a v).saf = s.saf
      ∧ (setRegAt s a v).rst = s.rst ∧ (setRegAt s a v).pwr = s.pwr ∧ (setRegAt s a v).rng = s.rng
      ∧ (setRegAt s a v).hif = s.hif ∧ (setRegAt s a v).crc = s.crc ∧ (setRegAt s a v).glb = s.glb
      ∧ (setRegAt s a v).lmm = s.lmm ∧ (setRegAt s a v).ly = s.ly ∧ (setRegAt s a v).shd = s.shd
      ∧ (setRegAt s a v).shdRefused = s.shdRefused ∧ (setRegAt s a v).shdNode = s.shdNode
      ∧ (setRegAt s a v).bldEntry = s.bldEntry ∧ (setRegAt s a v).bld = s.bld ∧ (setRegAt s a v).pxc = s.pxc
      ∧ (setRegAt s a v).tg = s.tg ∧ (setRegAt s a v).lanes = s.lanes ∧ (setRegAt s a v).laneBlocks = s.laneBlocks
      ∧ (setRegAt s a v).txRd = s.txRd ∧ (setRegAt s a v).tbl = s.tbl ∧ (setRegAt s a v).net = s.net
      ∧ (setRegAt s a v).tim = s.tim ∧ (setRegAt s a v).cle = s.cle ∧ (setRegAt s a v).lce = s.lce
      ∧ (setRegAt s a v).hkp = s.hkp ∧ (setRegAt s a v).kps = s.kps ∧ (setRegAt s a v).cbl = s.cbl :=
  ⟨rfl, rfl, rfl, rfl, rfl, rfl, rfl, rfl, rfl, rfl, rfl, rfl, rfl, rfl, rfl, rfl, rfl, rfl, rfl, rfl, rfl, rfl, rfl, rfl, rfl, rfl, rfl, rfl, rfl, rfl, rfl, rfl, rfl, rfl⟩

@[simp] theorem clearRegs_fields (s : State) (first : Nat) (n : Nat) :
    (clearRegs s first n).pending = s.pending ∧ (clearRegs s first n).out = s.out
      ∧ (clearRegs s first n).free = s.free
      ∧ (clearRegs s first n).regs = s.regs.filter (fun e => !(decide (first ≤ e.1) && decide (e.1 < first + n)))
      ∧ (clearRegs s first n).tableBad = s.tableBad ∧ (clearRegs s first n).mem = s.mem
      ∧ (clearRegs s first n).flt = s.flt ∧ (clearRegs s first n).saf = s.saf ∧ (clearRegs s first n).rst = s.rst
      ∧ (clearRegs s first n).pwr = s.pwr ∧ (clearRegs s first n).rng = s.rng ∧ (clearRegs s first n).hif = s.hif
      ∧ (clearRegs s first n).crc = s.crc ∧ (clearRegs s first n).glb = s.glb ∧ (clearRegs s first n).lmm = s.lmm
      ∧ (clearRegs s first n).ly = s.ly ∧ (clearRegs s first n).shd = s.shd
      ∧ (clearRegs s first n).shdRefused = s.shdRefused ∧ (clearRegs s first n).shdNode = s.shdNode
      ∧ (clearRegs s first n).bldEntry = s.bldEntry ∧ (clearRegs s first n).bld = s.bld
      ∧ (clearRegs s first n).pxc = s.pxc ∧ (clearRegs s first n).tg = s.tg ∧ (clearRegs s first n).lanes = s.lanes
      ∧ (clearRegs s first n).laneBlocks = s.laneBlocks ∧ (clearRegs s first n).txRd = s.txRd
      ∧ (clearRegs s first n).tbl = s.tbl ∧ (clearRegs s first n).net = s.net ∧ (clearRegs s first n).tim = s.tim
      ∧ (clearRegs s first n).cle = s.cle ∧ (clearRegs s first n).lce = s.lce ∧ (clearRegs s first n).hkp = s.hkp
      ∧ (clearRegs s first n).kps = s.kps ∧ (clearRegs s first n).cbl = s.cbl :=
  ⟨rfl, rfl, rfl, rfl, rfl, rfl, rfl, rfl, rfl, rfl, rfl, rfl, rfl, rfl, rfl, rfl, rfl, rfl, rfl, rfl, rfl, rfl, rfl, rfl, rfl, rfl, rfl, rfl, rfl, rfl, rfl, rfl, rfl, rfl⟩

@[simp] theorem modTg_fields (s : State) (h : Head) (f : Tg → Tg) :
    (modTg s h f).pending = s.pending ∧ (modTg s h f).out = s.out ∧ (modTg s h f).free = s.free
      ∧ (modTg s h f).regs = s.regs ∧ (modTg s h f).tableBad = s.tableBad ∧ (modTg s h f).mem = s.mem
      ∧ (modTg s h f).flt = s.flt ∧ (modTg s h f).saf = s.saf ∧ (modTg s h f).rst = s.rst ∧ (modTg s h f).pwr = s.pwr
      ∧ (modTg s h f).rng = s.rng ∧ (modTg s h f).hif = s.hif ∧ (modTg s h f).crc = s.crc ∧ (modTg s h f).glb = s.glb
      ∧ (modTg s h f).lmm = s.lmm ∧ (modTg s h f).ly = s.ly ∧ (modTg s h f).shd = s.shd
      ∧ (modTg s h f).shdRefused = s.shdRefused ∧ (modTg s h f).shdNode = s.shdNode
      ∧ (modTg s h f).bldEntry = s.bldEntry ∧ (modTg s h f).bld = s.bld ∧ (modTg s h f).pxc = s.pxc
      ∧ (modTg s h f).tg = s.tg.set h (f (s.tg.get h)) ∧ (modTg s h f).lanes = s.lanes
      ∧ (modTg s h f).laneBlocks = s.laneBlocks ∧ (modTg s h f).txRd = s.txRd ∧ (modTg s h f).tbl = s.tbl
      ∧ (modTg s h f).net = s.net ∧ (modTg s h f).tim = s.tim ∧ (modTg s h f).cle = s.cle ∧ (modTg s h f).lce = s.lce
      ∧ (modTg s h f).hkp = s.hkp ∧ (modTg s h f).kps = s.kps ∧ (modTg s h f).cbl = s.cbl :=
  ⟨rfl, rfl, rfl, rfl, rfl, rfl, rfl, rfl, rfl, rfl, rfl, rfl, rfl, rfl, rfl, rfl, rfl, rfl, rfl, rfl, rfl, rfl, rfl, rfl, rfl, rfl, rfl, rfl, rfl, rfl, rfl, rfl, rfl, rfl⟩

@[simp] theorem modLy_fields (s : State) (h : Head) (f : Ly → Ly) :
    (modLy s h f).pending = s.pending ∧ (modLy s h f).out = s.out ∧ (modLy s h f).free = s.free
      ∧ (modLy s h f).regs = s.regs ∧ (modLy s h f).tableBad = s.tableBad ∧ (modLy s h f).mem = s.mem
      ∧ (modLy s h f).flt = s.flt ∧ (modLy s h f).saf = s.saf ∧ (modLy s h f).rst = s.rst ∧ (modLy s h f).pwr = s.pwr
      ∧ (modLy s h f).rng = s.rng ∧ (modLy s h f).hif = s.hif ∧ (modLy s h f).crc = s.crc ∧ (modLy s h f).glb = s.glb
      ∧ (modLy s h f).lmm = s.lmm ∧ (modLy s h f).ly = s.ly.set h (f (s.ly.get h)) ∧ (modLy s h f).shd = s.shd
      ∧ (modLy s h f).shdRefused = s.shdRefused ∧ (modLy s h f).shdNode = s.shdNode
      ∧ (modLy s h f).bldEntry = s.bldEntry ∧ (modLy s h f).bld = s.bld ∧ (modLy s h f).pxc = s.pxc
      ∧ (modLy s h f).tg = s.tg ∧ (modLy s h f).lanes = s.lanes ∧ (modLy s h f).laneBlocks = s.laneBlocks
      ∧ (modLy s h f).txRd = s.txRd ∧ (modLy s h f).tbl = s.tbl ∧ (modLy s h f).net = s.net
      ∧ (modLy s h f).tim = s.tim ∧ (modLy s h f).cle = s.cle ∧ (modLy s h f).lce = s.lce ∧ (modLy s h f).hkp = s.hkp
      ∧ (modLy s h f).kps = s.kps ∧ (modLy s h f).cbl = s.cbl :=
  ⟨rfl, rfl, rfl, rfl, rfl, rfl, rfl, rfl, rfl, rfl, rfl, rfl, rfl, rfl, rfl, rfl, rfl, rfl, rfl, rfl, rfl, rfl, rfl, rfl, rfl, rfl, rfl, rfl, rfl, rfl, rfl, rfl, rfl, rfl⟩

@[simp] theorem modShd_fields (s : State) (h : Head) (f : Shd → Shd) :
    (modShd s h f).pending = s.pending ∧ (modShd s h f).out = s.out ∧ (modShd s h f).free = s.free
      ∧ (modShd s h f).regs = s.regs ∧ (modShd s h f).tableBad = s.tableBad ∧ (modShd s h f).mem = s.mem
      ∧ (modShd s h f).flt = s.flt ∧ (modShd s h f).saf = s.saf ∧ (modShd s h f).rst = s.rst
      ∧ (modShd s h f).pwr = s.pwr ∧ (modShd s h f).rng = s.rng ∧ (modShd s h f).hif = s.hif
      ∧ (modShd s h f).crc = s.crc ∧ (modShd s h f).glb = s.glb ∧ (modShd s h f).lmm = s.lmm
      ∧ (modShd s h f).ly = s.ly ∧ (modShd s h f).shd = s.shd.set h (f (s.shd.get h))
      ∧ (modShd s h f).shdRefused = s.shdRefused ∧ (modShd s h f).shdNode = s.shdNode
      ∧ (modShd s h f).bldEntry = s.bldEntry ∧ (modShd s h f).bld = s.bld ∧ (modShd s h f).pxc = s.pxc
      ∧ (modShd s h f).tg = s.tg ∧ (modShd s h f).lanes = s.lanes ∧ (modShd s h f).laneBlocks = s.laneBlocks
      ∧ (modShd s h f).txRd = s.txRd ∧ (modShd s h f).tbl = s.tbl ∧ (modShd s h f).net = s.net
      ∧ (modShd s h f).tim = s.tim ∧ (modShd s h f).cle = s.cle ∧ (modShd s h f).lce = s.lce
      ∧ (modShd s h f).hkp = s.hkp ∧ (modShd s h f).kps = s.kps ∧ (modShd s h f).cbl = s.cbl :=
  ⟨rfl, rfl, rfl, rfl, rfl, rfl, rfl, rfl, rfl, rfl, rfl, rfl, rfl, rfl, rfl, rfl, rfl, rfl, rfl, rfl, rfl, rfl, rfl, rfl, rfl, rfl, rfl, rfl, rfl, rfl, rfl, rfl, rfl, rfl⟩

@[simp] theorem modBld_fields (s : State) (h : Head) (f : Bld → Bld) :
    (modBld s h f).pending = s.pending ∧ (modBld s h f).out = s.out ∧ (modBld s h f).free = s.free
      ∧ (modBld s h f).regs = s.regs ∧ (modBld s h f).tableBad = s.tableBad ∧ (modBld s h f).mem = s.mem
      ∧ (modBld s h f).flt = s.flt ∧ (modBld s h f).saf = s.saf ∧ (modBld s h f).rst = s.rst
      ∧ (modBld s h f).pwr = s.pwr ∧ (modBld s h f).rng = s.rng ∧ (modBld s h f).hif = s.hif
      ∧ (modBld s h f).crc = s.crc ∧ (modBld s h f).glb = s.glb ∧ (modBld s h f).lmm = s.lmm
      ∧ (modBld s h f).ly = s.ly ∧ (modBld s h f).shd = s.shd ∧ (modBld s h f).shdRefused = s.shdRefused
      ∧ (modBld s h f).shdNode = s.shdNode ∧ (modBld s h f).bldEntry = s.bldEntry
      ∧ (modBld s h f).bld = s.bld.set h (f (s.bld.get h)) ∧ (modBld s h f).pxc = s.pxc ∧ (modBld s h f).tg = s.tg
      ∧ (modBld s h f).lanes = s.lanes ∧ (modBld s h f).laneBlocks = s.laneBlocks ∧ (modBld s h f).txRd = s.txRd
      ∧ (modBld s h f).tbl = s.tbl ∧ (modBld s h f).net = s.net ∧ (modBld s h f).tim = s.tim
      ∧ (modBld s h f).cle = s.cle ∧ (modBld s h f).lce = s.lce ∧ (modBld s h f).hkp = s.hkp
      ∧ (modBld s h f).kps = s.kps ∧ (modBld s h f).cbl = s.cbl :=
  ⟨rfl, rfl, rfl, rfl, rfl, rfl, rfl, rfl, rfl, rfl, rfl, rfl, rfl, rfl, rfl, rfl, rfl, rfl, rfl, rfl, rfl, rfl, rfl, rfl, rfl, rfl, rfl, rfl, rfl, rfl, rfl, rfl, rfl, rfl⟩

@[simp] theorem modPxc_fields (s : State) (h : Head) (f : Pxc → Pxc) :
    (modPxc s h f).pending = s.pending ∧ (modPxc s h f).out = s.out ∧ (modPxc s h f).free = s.free
      ∧ (modPxc s h f).regs = s.regs ∧ (modPxc s h f).tableBad = s.tableBad ∧ (modPxc s h f).mem = s.mem
      ∧ (modPxc s h f).flt = s.flt ∧ (modPxc s h f).saf = s.saf ∧ (modPxc s h f).rst = s.rst
      ∧ (modPxc s h f).pwr = s.pwr ∧ (modPxc s h f).rng = s.rng ∧ (modPxc s h f).hif = s.hif
      ∧ (modPxc s h f).crc = s.crc ∧ (modPxc s h f).glb = s.glb ∧ (modPxc s h f).lmm = s.lmm
      ∧ (modPxc s h f).ly = s.ly ∧ (modPxc s h f).shd = s.shd ∧ (modPxc s h f).shdRefused = s.shdRefused
      ∧ (modPxc s h f).shdNode = s.shdNode ∧ (modPxc s h f).bldEntry = s.bldEntry ∧ (modPxc s h f).bld = s.bld
      ∧ (modPxc s h f).pxc = { s.pxc with heads := s.pxc.heads.set h (f (s.pxc.heads.get h)) }
      ∧ (modPxc s h f).tg = s.tg ∧ (modPxc s h f).lanes = s.lanes ∧ (modPxc s h f).laneBlocks = s.laneBlocks
      ∧ (modPxc s h f).txRd = s.txRd ∧ (modPxc s h f).tbl = s.tbl ∧ (modPxc s h f).net = s.net
      ∧ (modPxc s h f).tim = s.tim ∧ (modPxc s h f).cle = s.cle ∧ (modPxc s h f).lce = s.lce
      ∧ (modPxc s h f).hkp = s.hkp ∧ (modPxc s h f).kps = s.kps ∧ (modPxc s h f).cbl = s.cbl :=
  ⟨rfl, rfl, rfl, rfl, rfl, rfl, rfl, rfl, rfl, rfl, rfl, rfl, rfl, rfl, rfl, rfl, rfl, rfl, rfl, rfl, rfl, rfl, rfl, rfl, rfl, rfl, rfl, rfl, rfl, rfl, rfl, rfl, rfl, rfl⟩

@[simp] theorem modTbl_fields (s : State) (h : Head) (f : Tbl → Tbl) :
    (modTbl s h f).pending = s.pending ∧ (modTbl s h f).out = s.out ∧ (modTbl s h f).free = s.free
      ∧ (modTbl s h f).regs = s.regs ∧ (modTbl s h f).tableBad = s.tableBad ∧ (modTbl s h f).mem = s.mem
      ∧ (modTbl s h f).flt = s.flt ∧ (modTbl s h f).saf = s.saf ∧ (modTbl s h f).rst = s.rst
      ∧ (modTbl s h f).pwr = s.pwr ∧ (modTbl s h f).rng = s.rng ∧ (modTbl s h f).hif = s.hif
      ∧ (modTbl s h f).crc = s.crc ∧ (modTbl s h f).glb = s.glb ∧ (modTbl s h f).lmm = s.lmm
      ∧ (modTbl s h f).ly = s.ly ∧ (modTbl s h f).shd = s.shd ∧ (modTbl s h f).shdRefused = s.shdRefused
      ∧ (modTbl s h f).shdNode = s.shdNode ∧ (modTbl s h f).bldEntry = s.bldEntry ∧ (modTbl s h f).bld = s.bld
      ∧ (modTbl s h f).pxc = s.pxc ∧ (modTbl s h f).tg = s.tg ∧ (modTbl s h f).lanes = s.lanes
      ∧ (modTbl s h f).laneBlocks = s.laneBlocks ∧ (modTbl s h f).txRd = s.txRd
      ∧ (modTbl s h f).tbl = s.tbl.set h (f (s.tbl.get h)) ∧ (modTbl s h f).net = s.net ∧ (modTbl s h f).tim = s.tim
      ∧ (modTbl s h f).cle = s.cle ∧ (modTbl s h f).lce = s.lce ∧ (modTbl s h f).hkp = s.hkp
      ∧ (modTbl s h f).kps = s.kps ∧ (modTbl s h f).cbl = s.cbl :=
  ⟨rfl, rfl, rfl, rfl, rfl, rfl, rfl, rfl, rfl, rfl, rfl, rfl, rfl, rfl, rfl, rfl, rfl, rfl, rfl, rfl, rfl, rfl, rfl, rfl, rfl, rfl, rfl, rfl, rfl, rfl, rfl, rfl, rfl, rfl⟩

@[simp] theorem modSafHead_fields (s : State) (h : Head) (f : SafHead → SafHead) :
    (modSafHead s h f).pending = s.pending ∧ (modSafHead s h f).out = s.out ∧ (modSafHead s h f).free = s.free
      ∧ (modSafHead s h f).regs = s.regs ∧ (modSafHead s h f).tableBad = s.tableBad ∧ (modSafHead s h f).mem = s.mem
      ∧ (modSafHead s h f).flt = s.flt
      ∧ (modSafHead s h f).saf = { s.saf with heads := s.saf.heads.set h (f (s.saf.heads.get h)) }
      ∧ (modSafHead s h f).rst = s.rst ∧ (modSafHead s h f).pwr = s.pwr ∧ (modSafHead s h f).rng = s.rng
      ∧ (modSafHead s h f).hif = s.hif ∧ (modSafHead s h f).crc = s.crc ∧ (modSafHead s h f).glb = s.glb
      ∧ (modSafHead s h f).lmm = s.lmm ∧ (modSafHead s h f).ly = s.ly ∧ (modSafHead s h f).shd = s.shd
      ∧ (modSafHead s h f).shdRefused = s.shdRefused ∧ (modSafHead s h f).shdNode = s.shdNode
      ∧ (modSafHead s h f).bldEntry = s.bldEntry ∧ (modSafHead s h f).bld = s.bld ∧ (modSafHead s h f).pxc = s.pxc
      ∧ (modSafHead s h f).tg = s.tg ∧ (modSafHead s h f).lanes = s.lanes
      ∧ (modSafHead s h f).laneBlocks = s.laneBlocks ∧ (modSafHead s h f).txRd = s.txRd
      ∧ (modSafHead s h f).tbl = s.tbl ∧ (modSafHead s h f).net = s.net ∧ (modSafHead s h f).tim = s.tim
      ∧ (modSafHead s h f).cle = s.cle ∧ (modSafHead s h f).lce = s.lce ∧ (modSafHead s h f).hkp = s.hkp
      ∧ (modSafHead s h f).kps = s.kps ∧ (modSafHead s h f).cbl = s.cbl :=
  ⟨rfl, rfl, rfl, rfl, rfl, rfl, rfl, rfl, rfl, rfl, rfl, rfl, rfl, rfl, rfl, rfl, rfl, rfl, rfl, rfl, rfl, rfl, rfl, rfl, rfl, rfl, rfl, rfl, rfl, rfl, rfl, rfl, rfl, rfl⟩

@[simp] theorem modRngHead_fields (s : State) (h : Head) (f : RngHead → RngHead) :
    (modRngHead s h f).pending = s.pending ∧ (modRngHead s h f).out = s.out ∧ (modRngHead s h f).free = s.free
      ∧ (modRngHead s h f).regs = s.regs ∧ (modRngHead s h f).tableBad = s.tableBad ∧ (modRngHead s h f).mem = s.mem
      ∧ (modRngHead s h f).flt = s.flt ∧ (modRngHead s h f).saf = s.saf ∧ (modRngHead s h f).rst = s.rst
      ∧ (modRngHead s h f).pwr = s.pwr
      ∧ (modRngHead s h f).rng = { s.rng with heads := s.rng.heads.set h (f (s.rng.heads.get h)) }
      ∧ (modRngHead s h f).hif = s.hif ∧ (modRngHead s h f).crc = s.crc ∧ (modRngHead s h f).glb = s.glb
      ∧ (modRngHead s h f).lmm = s.lmm ∧ (modRngHead s h f).ly = s.ly ∧ (modRngHead s h f).shd = s.shd
      ∧ (modRngHead s h f).shdRefused = s.shdRefused ∧ (modRngHead s h f).shdNode = s.shdNode
      ∧ (modRngHead s h f).bldEntry = s.bldEntry ∧ (modRngHead s h f).bld = s.bld ∧ (modRngHead s h f).pxc = s.pxc
      ∧ (modRngHead s h f).tg = s.tg ∧ (modRngHead s h f).lanes = s.lanes
      ∧ (modRngHead s h f).laneBlocks = s.laneBlocks ∧ (modRngHead s h f).txRd = s.txRd
      ∧ (modRngHead s h f).tbl = s.tbl ∧ (modRngHead s h f).net = s.net ∧ (modRngHead s h f).tim = s.tim
      ∧ (modRngHead s h f).cle = s.cle ∧ (modRngHead s h f).lce = s.lce ∧ (modRngHead s h f).hkp = s.hkp
      ∧ (modRngHead s h f).kps = s.kps ∧ (modRngHead s h f).cbl = s.cbl :=
  ⟨rfl, rfl, rfl, rfl, rfl, rfl, rfl, rfl, rfl, rfl, rfl, rfl, rfl, rfl, rfl, rfl, rfl, rfl, rfl, rfl, rfl, rfl, rfl, rfl, rfl, rfl, rfl, rfl, rfl, rfl, rfl, rfl, rfl, rfl⟩

@[simp] theorem modTile_fields (s : State) (h : Head) (t : Nat) (f : Tile → Tile) :
    (modTile s h t f).pending = s.pending ∧ (modTile s h t f).out = s.out ∧ (modTile s h t f).free = s.free
      ∧ (modTile s h t f).regs = s.regs ∧ (modTile s h t f).tableBad = s.tableBad ∧ (modTile s h t f).mem = s.mem
      ∧ (modTile s h t f).flt = s.flt ∧ (modTile s h t f).saf = s.saf ∧ (modTile s h t f).rst = s.rst
      ∧ (modTile s h t f).pwr = s.pwr ∧ (modTile s h t f).rng = s.rng ∧ (modTile s h t f).hif = s.hif
      ∧ (modTile s h t f).crc = s.crc ∧ (modTile s h t f).glb = s.glb ∧ (modTile s h t f).lmm = s.lmm
      ∧ (modTile s h t f).ly = s.ly ∧ (modTile s h t f).shd = s.shd ∧ (modTile s h t f).shdRefused = s.shdRefused
      ∧ (modTile s h t f).shdNode = s.shdNode ∧ (modTile s h t f).bldEntry = s.bldEntry
      ∧ (modTile s h t f).bld = s.bld ∧ (modTile s h t f).pxc = s.pxc ∧ (modTile s h t f).tg = s.tg
      ∧ (modTile s h t f).lanes = s.lanes ∧ (modTile s h t f).laneBlocks = s.laneBlocks
      ∧ (modTile s h t f).txRd = s.txRd
      ∧ (modTile s h t f).tbl = s.tbl.set h { s.tbl.get h with tiles := Store.put (fun _ => Tile.reset) (s.tbl.get h).tiles t (f (tileOf s h t)) }
      ∧ (modTile s h t f).net = s.net ∧ (modTile s h t f).tim = s.tim ∧ (modTile s h t f).cle = s.cle
      ∧ (modTile s h t f).lce = s.lce ∧ (modTile s h t f).hkp = s.hkp ∧ (modTile s h t f).kps = s.kps
      ∧ (modTile s h t f).cbl = s.cbl :=
  ⟨rfl, rfl, rfl, rfl, rfl, rfl, rfl, rfl, rfl, rfl, rfl, rfl, rfl, rfl, rfl, rfl, rfl, rfl, rfl, rfl, rfl, rfl, rfl, rfl, rfl, rfl, rfl, rfl, rfl, rfl, rfl, rfl, rfl, rfl⟩

@[simp] theorem modLane_fields (s : State) (l : Nat) (f : Lane → Lane) :
    (modLane s l f).pending = s.pending ∧ (modLane s l f).out = s.out ∧ (modLane s l f).free = s.free
      ∧ (modLane s l f).regs = s.regs ∧ (modLane s l f).tableBad = s.tableBad ∧ (modLane s l f).mem = s.mem
      ∧ (modLane s l f).flt = s.flt ∧ (modLane s l f).saf = s.saf ∧ (modLane s l f).rst = s.rst
      ∧ (modLane s l f).pwr = s.pwr ∧ (modLane s l f).rng = s.rng ∧ (modLane s l f).hif = s.hif
      ∧ (modLane s l f).crc = s.crc ∧ (modLane s l f).glb = s.glb ∧ (modLane s l f).lmm = s.lmm
      ∧ (modLane s l f).ly = s.ly ∧ (modLane s l f).shd = s.shd ∧ (modLane s l f).shdRefused = s.shdRefused
      ∧ (modLane s l f).shdNode = s.shdNode ∧ (modLane s l f).bldEntry = s.bldEntry ∧ (modLane s l f).bld = s.bld
      ∧ (modLane s l f).pxc = s.pxc ∧ (modLane s l f).tg = s.tg
      ∧ (modLane s l f).lanes = Store.put (fun _ => Lane.reset) s.lanes l (f (laneOf s l))
      ∧ (modLane s l f).laneBlocks = s.laneBlocks ∧ (modLane s l f).txRd = s.txRd ∧ (modLane s l f).tbl = s.tbl
      ∧ (modLane s l f).net = s.net ∧ (modLane s l f).tim = s.tim ∧ (modLane s l f).cle = s.cle
      ∧ (modLane s l f).lce = s.lce ∧ (modLane s l f).hkp = s.hkp ∧ (modLane s l f).kps = s.kps
      ∧ (modLane s l f).cbl = s.cbl :=
  ⟨rfl, rfl, rfl, rfl, rfl, rfl, rfl, rfl, rfl, rfl, rfl, rfl, rfl, rfl, rfl, rfl, rfl, rfl, rfl, rfl, rfl, rfl, rfl, rfl, rfl, rfl, rfl, rfl, rfl, rfl, rfl, rfl, rfl, rfl⟩

@[simp] theorem modSlot_fields (s : State) (h : Head) (i : Nat) (f : Slot → Slot) :
    (modSlot s h i f).pending = s.pending ∧ (modSlot s h i f).out = s.out ∧ (modSlot s h i f).free = s.free
      ∧ (modSlot s h i f).regs = s.regs ∧ (modSlot s h i f).tableBad = s.tableBad ∧ (modSlot s h i f).mem = s.mem
      ∧ (modSlot s h i f).flt = s.flt ∧ (modSlot s h i f).saf = s.saf ∧ (modSlot s h i f).rst = s.rst
      ∧ (modSlot s h i f).pwr = s.pwr ∧ (modSlot s h i f).rng = s.rng ∧ (modSlot s h i f).hif = s.hif
      ∧ (modSlot s h i f).crc = s.crc ∧ (modSlot s h i f).glb = s.glb ∧ (modSlot s h i f).lmm = s.lmm
      ∧ (modSlot s h i f).ly = s.ly.set h { s.ly.get h with slots := Store.put (fun _ => Slot.reset) (s.ly.get h).slots i (f (slotOf s h i)) }
      ∧ (modSlot s h i f).shd = s.shd ∧ (modSlot s h i f).shdRefused = s.shdRefused
      ∧ (modSlot s h i f).shdNode = s.shdNode ∧ (modSlot s h i f).bldEntry = s.bldEntry
      ∧ (modSlot s h i f).bld = s.bld ∧ (modSlot s h i f).pxc = s.pxc ∧ (modSlot s h i f).tg = s.tg
      ∧ (modSlot s h i f).lanes = s.lanes ∧ (modSlot s h i f).laneBlocks = s.laneBlocks
      ∧ (modSlot s h i f).txRd = s.txRd ∧ (modSlot s h i f).tbl = s.tbl ∧ (modSlot s h i f).net = s.net
      ∧ (modSlot s h i f).tim = s.tim ∧ (modSlot s h i f).cle = s.cle ∧ (modSlot s h i f).lce = s.lce
      ∧ (modSlot s h i f).hkp = s.hkp ∧ (modSlot s h i f).kps = s.kps ∧ (modSlot s h i f).cbl = s.cbl :=
  ⟨rfl, rfl, rfl, rfl, rfl, rfl, rfl, rfl, rfl, rfl, rfl, rfl, rfl, rfl, rfl, rfl, rfl, rfl, rfl, rfl, rfl, rfl, rfl, rfl, rfl, rfl, rfl, rfl, rfl, rfl, rfl, rfl, rfl, rfl⟩

@[simp] theorem modRing_fields (s : State) (n : Nat) (f : Ring → Ring) :
    (modRing s n f).pending = s.pending ∧ (modRing s n f).out = s.out ∧ (modRing s n f).free = s.free
      ∧ (modRing s n f).regs = s.regs ∧ (modRing s n f).tableBad = s.tableBad ∧ (modRing s n f).mem = s.mem
      ∧ (modRing s n f).flt = s.flt ∧ (modRing s n f).saf = s.saf ∧ (modRing s n f).rst = s.rst
      ∧ (modRing s n f).pwr = s.pwr
      ∧ (modRing s n f).rng = { s.rng with rings := Store.put (fun _ => Ring.reset) s.rng.rings n (f (ringOf s n)) }
      ∧ (modRing s n f).hif = s.hif ∧ (modRing s n f).crc = s.crc ∧ (modRing s n f).glb = s.glb
      ∧ (modRing s n f).lmm = s.lmm ∧ (modRing s n f).ly = s.ly ∧ (modRing s n f).shd = s.shd
      ∧ (modRing s n f).shdRefused = s.shdRefused ∧ (modRing s n f).shdNode = s.shdNode
      ∧ (modRing s n f).bldEntry = s.bldEntry ∧ (modRing s n f).bld = s.bld ∧ (modRing s n f).pxc = s.pxc
      ∧ (modRing s n f).tg = s.tg ∧ (modRing s n f).lanes = s.lanes ∧ (modRing s n f).laneBlocks = s.laneBlocks
      ∧ (modRing s n f).txRd = s.txRd ∧ (modRing s n f).tbl = s.tbl ∧ (modRing s n f).net = s.net
      ∧ (modRing s n f).tim = s.tim ∧ (modRing s n f).cle = s.cle ∧ (modRing s n f).lce = s.lce
      ∧ (modRing s n f).hkp = s.hkp ∧ (modRing s n f).kps = s.kps ∧ (modRing s n f).cbl = s.cbl :=
  ⟨rfl, rfl, rfl, rfl, rfl, rfl, rfl, rfl, rfl, rfl, rfl, rfl, rfl, rfl, rfl, rfl, rfl, rfl, rfl, rfl, rfl, rfl, rfl, rfl, rfl, rfl, rfl, rfl, rfl, rfl, rfl, rfl, rfl, rfl⟩

@[simp] theorem modLoop_fields (s : State) (n : Nat) (f : Loop → Loop) :
    (modLoop s n f).pending = s.pending ∧ (modLoop s n f).out = s.out ∧ (modLoop s n f).free = s.free
      ∧ (modLoop s n f).regs = s.regs ∧ (modLoop s n f).tableBad = s.tableBad ∧ (modLoop s n f).mem = s.mem
      ∧ (modLoop s n f).flt = s.flt ∧ (modLoop s n f).saf = s.saf ∧ (modLoop s n f).rst = s.rst
      ∧ (modLoop s n f).pwr = s.pwr ∧ (modLoop s n f).rng = s.rng ∧ (modLoop s n f).hif = s.hif
      ∧ (modLoop s n f).crc = s.crc ∧ (modLoop s n f).glb = s.glb ∧ (modLoop s n f).lmm = s.lmm
      ∧ (modLoop s n f).ly = s.ly ∧ (modLoop s n f).shd = s.shd ∧ (modLoop s n f).shdRefused = s.shdRefused
      ∧ (modLoop s n f).shdNode = s.shdNode ∧ (modLoop s n f).bldEntry = s.bldEntry ∧ (modLoop s n f).bld = s.bld
      ∧ (modLoop s n f).pxc = s.pxc ∧ (modLoop s n f).tg = s.tg ∧ (modLoop s n f).lanes = s.lanes
      ∧ (modLoop s n f).laneBlocks = s.laneBlocks ∧ (modLoop s n f).txRd = s.txRd ∧ (modLoop s n f).tbl = s.tbl
      ∧ (modLoop s n f).net = s.net ∧ (modLoop s n f).tim = s.tim
      ∧ (modLoop s n f).cle = { s.cle with loops := Store.put (fun _ => Loop.reset) s.cle.loops n (f (loopOf s n)) }
      ∧ (modLoop s n f).lce = s.lce ∧ (modLoop s n f).hkp = s.hkp ∧ (modLoop s n f).kps = s.kps
      ∧ (modLoop s n f).cbl = s.cbl :=
  ⟨rfl, rfl, rfl, rfl, rfl, rfl, rfl, rfl, rfl, rfl, rfl, rfl, rfl, rfl, rfl, rfl, rfl, rfl, rfl, rfl, rfl, rfl, rfl, rfl, rfl, rfl, rfl, rfl, rfl, rfl, rfl, rfl, rfl, rfl⟩

@[simp] theorem modChain_fields (s : State) (c : Nat) (f : Chain → Chain) :
    (modChain s c f).pending = s.pending ∧ (modChain s c f).out = s.out ∧ (modChain s c f).free = s.free
      ∧ (modChain s c f).regs = s.regs ∧ (modChain s c f).tableBad = s.tableBad ∧ (modChain s c f).mem = s.mem
      ∧ (modChain s c f).flt = s.flt ∧ (modChain s c f).saf = s.saf ∧ (modChain s c f).rst = s.rst
      ∧ (modChain s c f).pwr = s.pwr ∧ (modChain s c f).rng = s.rng ∧ (modChain s c f).hif = s.hif
      ∧ (modChain s c f).crc = s.crc ∧ (modChain s c f).glb = s.glb ∧ (modChain s c f).lmm = s.lmm
      ∧ (modChain s c f).ly = s.ly ∧ (modChain s c f).shd = s.shd ∧ (modChain s c f).shdRefused = s.shdRefused
      ∧ (modChain s c f).shdNode = s.shdNode ∧ (modChain s c f).bldEntry = s.bldEntry ∧ (modChain s c f).bld = s.bld
      ∧ (modChain s c f).pxc = s.pxc ∧ (modChain s c f).tg = s.tg ∧ (modChain s c f).lanes = s.lanes
      ∧ (modChain s c f).laneBlocks = s.laneBlocks ∧ (modChain s c f).txRd = s.txRd ∧ (modChain s c f).tbl = s.tbl
      ∧ (modChain s c f).net = s.net ∧ (modChain s c f).tim = s.tim ∧ (modChain s c f).cle = s.cle
      ∧ (modChain s c f).lce = Store.put (fun _ => Chain.reset) s.lce c (f (chainOf s c))
      ∧ (modChain s c f).hkp = s.hkp ∧ (modChain s c f).kps = s.kps ∧ (modChain s c f).cbl = s.cbl :=
  ⟨rfl, rfl, rfl, rfl, rfl, rfl, rfl, rfl, rfl, rfl, rfl, rfl, rfl, rfl, rfl, rfl, rfl, rfl, rfl, rfl, rfl, rfl, rfl, rfl, rfl, rfl, rfl, rfl, rfl, rfl, rfl, rfl, rfl, rfl⟩

@[simp] theorem modPort_fields (s : State) (p : Nat) (f : NetPort → NetPort) :
    (modPort s p f).pending = s.pending ∧ (modPort s p f).out = s.out ∧ (modPort s p f).free = s.free
      ∧ (modPort s p f).regs = s.regs ∧ (modPort s p f).tableBad = s.tableBad ∧ (modPort s p f).mem = s.mem
      ∧ (modPort s p f).flt = s.flt ∧ (modPort s p f).saf = s.saf ∧ (modPort s p f).rst = s.rst
      ∧ (modPort s p f).pwr = s.pwr ∧ (modPort s p f).rng = s.rng ∧ (modPort s p f).hif = s.hif
      ∧ (modPort s p f).crc = s.crc ∧ (modPort s p f).glb = s.glb ∧ (modPort s p f).lmm = s.lmm
      ∧ (modPort s p f).ly = s.ly ∧ (modPort s p f).shd = s.shd ∧ (modPort s p f).shdRefused = s.shdRefused
      ∧ (modPort s p f).shdNode = s.shdNode ∧ (modPort s p f).bldEntry = s.bldEntry ∧ (modPort s p f).bld = s.bld
      ∧ (modPort s p f).pxc = s.pxc ∧ (modPort s p f).tg = s.tg ∧ (modPort s p f).lanes = s.lanes
      ∧ (modPort s p f).laneBlocks = s.laneBlocks ∧ (modPort s p f).txRd = s.txRd ∧ (modPort s p f).tbl = s.tbl
      ∧ (modPort s p f).net = { s.net with ports := Store.put (fun _ => NetPort.reset) s.net.ports p (f (portOf s p)) }
      ∧ (modPort s p f).tim = s.tim ∧ (modPort s p f).cle = s.cle ∧ (modPort s p f).lce = s.lce
      ∧ (modPort s p f).hkp = s.hkp ∧ (modPort s p f).kps = s.kps ∧ (modPort s p f).cbl = s.cbl :=
  ⟨rfl, rfl, rfl, rfl, rfl, rfl, rfl, rfl, rfl, rfl, rfl, rfl, rfl, rfl, rfl, rfl, rfl, rfl, rfl, rfl, rfl, rfl, rfl, rfl, rfl, rfl, rfl, rfl, rfl, rfl, rfl, rfl, rfl, rfl⟩

@[simp] theorem modBank_fields (s : State) (b : Nat) (f : Bank → Bank) :
    (modBank s b f).pending = s.pending ∧ (modBank s b f).out = s.out ∧ (modBank s b f).free = s.free
      ∧ (modBank s b f).regs = s.regs ∧ (modBank s b f).tableBad = s.tableBad ∧ (modBank s b f).mem = s.mem
      ∧ (modBank s b f).flt = s.flt ∧ (modBank s b f).saf = s.saf ∧ (modBank s b f).rst = s.rst
      ∧ (modBank s b f).pwr = s.pwr ∧ (modBank s b f).rng = s.rng ∧ (modBank s b f).hif = s.hif
      ∧ (modBank s b f).crc = s.crc ∧ (modBank s b f).glb = s.glb
      ∧ (modBank s b f).lmm = { s.lmm with banks := Store.put Bank.reset s.lmm.banks b (f (bankOf s b)) }
      ∧ (modBank s b f).ly = s.ly ∧ (modBank s b f).shd = s.shd ∧ (modBank s b f).shdRefused = s.shdRefused
      ∧ (modBank s b f).shdNode = s.shdNode ∧ (modBank s b f).bldEntry = s.bldEntry ∧ (modBank s b f).bld = s.bld
      ∧ (modBank s b f).pxc = s.pxc ∧ (modBank s b f).tg = s.tg ∧ (modBank s b f).lanes = s.lanes
      ∧ (modBank s b f).laneBlocks = s.laneBlocks ∧ (modBank s b f).txRd = s.txRd ∧ (modBank s b f).tbl = s.tbl
      ∧ (modBank s b f).net = s.net ∧ (modBank s b f).tim = s.tim ∧ (modBank s b f).cle = s.cle
      ∧ (modBank s b f).lce = s.lce ∧ (modBank s b f).hkp = s.hkp ∧ (modBank s b f).kps = s.kps
      ∧ (modBank s b f).cbl = s.cbl :=
  ⟨rfl, rfl, rfl, rfl, rfl, rfl, rfl, rfl, rfl, rfl, rfl, rfl, rfl, rfl, rfl, rfl, rfl, rfl, rfl, rfl, rfl, rfl, rfl, rfl, rfl, rfl, rfl, rfl, rfl, rfl, rfl, rfl, rfl, rfl⟩

@[simp] theorem modTrig_fields (s : State) (n : Nat) (f : Trig → Trig) :
    (modTrig s n f).pending = s.pending ∧ (modTrig s n f).out = s.out ∧ (modTrig s n f).free = s.free
      ∧ (modTrig s n f).regs = s.regs ∧ (modTrig s n f).tableBad = s.tableBad ∧ (modTrig s n f).mem = s.mem
      ∧ (modTrig s n f).flt = s.flt ∧ (modTrig s n f).saf = s.saf ∧ (modTrig s n f).rst = s.rst
      ∧ (modTrig s n f).pwr = s.pwr ∧ (modTrig s n f).rng = s.rng ∧ (modTrig s n f).hif = s.hif
      ∧ (modTrig s n f).crc = s.crc ∧ (modTrig s n f).glb = s.glb ∧ (modTrig s n f).lmm = s.lmm
      ∧ (modTrig s n f).ly = s.ly ∧ (modTrig s n f).shd = s.shd ∧ (modTrig s n f).shdRefused = s.shdRefused
      ∧ (modTrig s n f).shdNode = s.shdNode ∧ (modTrig s n f).bldEntry = s.bldEntry ∧ (modTrig s n f).bld = s.bld
      ∧ (modTrig s n f).pxc = s.pxc ∧ (modTrig s n f).tg = s.tg ∧ (modTrig s n f).lanes = s.lanes
      ∧ (modTrig s n f).laneBlocks = s.laneBlocks ∧ (modTrig s n f).txRd = s.txRd ∧ (modTrig s n f).tbl = s.tbl
      ∧ (modTrig s n f).net = s.net
      ∧ (modTrig s n f).tim = { s.tim with trigs := Store.put (fun _ => Trig.reset) s.tim.trigs n (f (trigOf s n)) }
      ∧ (modTrig s n f).cle = s.cle ∧ (modTrig s n f).lce = s.lce ∧ (modTrig s n f).hkp = s.hkp
      ∧ (modTrig s n f).kps = s.kps ∧ (modTrig s n f).cbl = s.cbl :=
  ⟨rfl, rfl, rfl, rfl, rfl, rfl, rfl, rfl, rfl, rfl, rfl, rfl, rfl, rfl, rfl, rfl, rfl, rfl, rfl, rfl, rfl, rfl, rfl, rfl, rfl, rfl, rfl, rfl, rfl, rfl, rfl, rfl, rfl, rfl⟩

@[simp] theorem emit_fields (s : State) (o : Output) :
    (emit s o).pending = s.pending ∧ (emit s o).out = s.out ++ [o] ∧ (emit s o).free = s.free
      ∧ (emit s o).regs = s.regs ∧ (emit s o).tableBad = s.tableBad ∧ (emit s o).mem = s.mem ∧ (emit s o).flt = s.flt
      ∧ (emit s o).saf = s.saf ∧ (emit s o).rst = s.rst ∧ (emit s o).pwr = s.pwr ∧ (emit s o).rng = s.rng
      ∧ (emit s o).hif = s.hif ∧ (emit s o).crc = s.crc ∧ (emit s o).glb = s.glb ∧ (emit s o).lmm = s.lmm
      ∧ (emit s o).ly = s.ly ∧ (emit s o).shd = s.shd ∧ (emit s o).shdRefused = s.shdRefused
      ∧ (emit s o).shdNode = s.shdNode ∧ (emit s o).bldEntry = s.bldEntry ∧ (emit s o).bld = s.bld
      ∧ (emit s o).pxc = s.pxc ∧ (emit s o).tg = s.tg ∧ (emit s o).lanes = s.lanes
      ∧ (emit s o).laneBlocks = s.laneBlocks ∧ (emit s o).txRd = s.txRd ∧ (emit s o).tbl = s.tbl
      ∧ (emit s o).net = s.net ∧ (emit s o).tim = s.tim ∧ (emit s o).cle = s.cle ∧ (emit s o).lce = s.lce
      ∧ (emit s o).hkp = s.hkp ∧ (emit s o).kps = s.kps ∧ (emit s o).cbl = s.cbl :=
  ⟨rfl, rfl, rfl, rfl, rfl, rfl, rfl, rfl, rfl, rfl, rfl, rfl, rfl, rfl, rfl, rfl, rfl, rfl, rfl, rfl, rfl, rfl, rfl, rfl, rfl, rfl, rfl, rfl, rfl, rfl, rfl, rfl, rfl, rfl⟩

@[simp] theorem hostFails_fields (s : State) (kind : Nat) :
    (hostFails s kind).pending = s.pending ∧ (hostFails s kind).out = s.out ∧ (hostFails s kind).free = s.free
      ∧ (hostFails s kind).regs = s.regs ∧ (hostFails s kind).tableBad = s.tableBad ∧ (hostFails s kind).mem = s.mem
      ∧ (hostFails s kind).flt = s.flt ∧ (hostFails s kind).saf = s.saf ∧ (hostFails s kind).rst = s.rst
      ∧ (hostFails s kind).pwr = s.pwr ∧ (hostFails s kind).rng = s.rng
      ∧ (hostFails s kind).hif = { s.hif with err := s.hif.err ||| bitAt (kind % 4) true }
      ∧ (hostFails s kind).crc = s.crc ∧ (hostFails s kind).glb = s.glb ∧ (hostFails s kind).lmm = s.lmm
      ∧ (hostFails s kind).ly = s.ly ∧ (hostFails s kind).shd = s.shd ∧ (hostFails s kind).shdRefused = s.shdRefused
      ∧ (hostFails s kind).shdNode = s.shdNode ∧ (hostFails s kind).bldEntry = s.bldEntry
      ∧ (hostFails s kind).bld = s.bld ∧ (hostFails s kind).pxc = s.pxc ∧ (hostFails s kind).tg = s.tg
      ∧ (hostFails s kind).lanes = s.lanes ∧ (hostFails s kind).laneBlocks = s.laneBlocks
      ∧ (hostFails s kind).txRd = s.txRd ∧ (hostFails s kind).tbl = s.tbl ∧ (hostFails s kind).net = s.net
      ∧ (hostFails s kind).tim = s.tim ∧ (hostFails s kind).cle = s.cle ∧ (hostFails s kind).lce = s.lce
      ∧ (hostFails s kind).hkp = s.hkp ∧ (hostFails s kind).kps = s.kps ∧ (hostFails s kind).cbl = s.cbl :=
  ⟨rfl, rfl, rfl, rfl, rfl, rfl, rfl, rfl, rfl, rfl, rfl, rfl, rfl, rfl, rfl, rfl, rfl, rfl, rfl, rfl, rfl, rfl, rfl, rfl, rfl, rfl, rfl, rfl, rfl, rfl, rfl, rfl, rfl, rfl⟩

@[simp] theorem memPut_fields (s : State) (a : Nat) (v : Byte) :
    (memPut s a v).pending = s.pending ∧ (memPut s a v).out = s.out ∧ (memPut s a v).free = s.free
      ∧ (memPut s a v).regs = s.regs ∧ (memPut s a v).tableBad = s.tableBad
      ∧ (memPut s a v).mem = Store.put memDefault s.mem a v ∧ (memPut s a v).flt = s.flt ∧ (memPut s a v).saf = s.saf
      ∧ (memPut s a v).rst = s.rst ∧ (memPut s a v).pwr = s.pwr ∧ (memPut s a v).rng = s.rng
      ∧ (memPut s a v).hif = s.hif ∧ (memPut s a v).crc = s.crc ∧ (memPut s a v).glb = s.glb
      ∧ (memPut s a v).lmm = s.lmm ∧ (memPut s a v).ly = s.ly ∧ (memPut s a v).shd = s.shd
      ∧ (memPut s a v).shdRefused = s.shdRefused ∧ (memPut s a v).shdNode = s.shdNode
      ∧ (memPut s a v).bldEntry = s.bldEntry ∧ (memPut s a v).bld = s.bld ∧ (memPut s a v).pxc = s.pxc
      ∧ (memPut s a v).tg = s.tg ∧ (memPut s a v).lanes = s.lanes ∧ (memPut s a v).laneBlocks = s.laneBlocks
      ∧ (memPut s a v).txRd = s.txRd ∧ (memPut s a v).tbl = s.tbl ∧ (memPut s a v).net = s.net
      ∧ (memPut s a v).tim = s.tim ∧ (memPut s a v).cle = s.cle ∧ (memPut s a v).lce = s.lce
      ∧ (memPut s a v).hkp = s.hkp ∧ (memPut s a v).kps = s.kps ∧ (memPut s a v).cbl = s.cbl :=
  ⟨rfl, rfl, rfl, rfl, rfl, rfl, rfl, rfl, rfl, rfl, rfl, rfl, rfl, rfl, rfl, rfl, rfl, rfl, rfl, rfl, rfl, rfl, rfl, rfl, rfl, rfl, rfl, rfl, rfl, rfl, rfl, rfl, rfl, rfl⟩

@[simp] theorem memWrite_fields (s : State) (a : Nat) (bs : List Byte) :
    (memWrite s a bs).pending = s.pending ∧ (memWrite s a bs).out = s.out ∧ (memWrite s a bs).free = s.free
      ∧ (memWrite s a bs).regs = s.regs ∧ (memWrite s a bs).tableBad = s.tableBad
      ∧ (memWrite s a bs).mem = Store.putList memDefault s.mem a bs ∧ (memWrite s a bs).flt = s.flt
      ∧ (memWrite s a bs).saf = s.saf ∧ (memWrite s a bs).rst = s.rst ∧ (memWrite s a bs).pwr = s.pwr
      ∧ (memWrite s a bs).rng = s.rng ∧ (memWrite s a bs).hif = s.hif ∧ (memWrite s a bs).crc = s.crc
      ∧ (memWrite s a bs).glb = s.glb ∧ (memWrite s a bs).lmm = s.lmm ∧ (memWrite s a bs).ly = s.ly
      ∧ (memWrite s a bs).shd = s.shd ∧ (memWrite s a bs).shdRefused = s.shdRefused
      ∧ (memWrite s a bs).shdNode = s.shdNode ∧ (memWrite s a bs).bldEntry = s.bldEntry
      ∧ (memWrite s a bs).bld = s.bld ∧ (memWrite s a bs).pxc = s.pxc ∧ (memWrite s a bs).tg = s.tg
      ∧ (memWrite s a bs).lanes = s.lanes ∧ (memWrite s a bs).laneBlocks = s.laneBlocks
      ∧ (memWrite s a bs).txRd = s.txRd ∧ (memWrite s a bs).tbl = s.tbl ∧ (memWrite s a bs).net = s.net
      ∧ (memWrite s a bs).tim = s.tim ∧ (memWrite s a bs).cle = s.cle ∧ (memWrite s a bs).lce = s.lce
      ∧ (memWrite s a bs).hkp = s.hkp ∧ (memWrite s a bs).kps = s.kps ∧ (memWrite s a bs).cbl = s.cbl :=
  ⟨rfl, rfl, rfl, rfl, rfl, rfl, rfl, rfl, rfl, rfl, rfl, rfl, rfl, rfl, rfl, rfl, rfl, rfl, rfl, rfl, rfl, rfl, rfl, rfl, rfl, rfl, rfl, rfl, rfl, rfl, rfl, rfl, rfl, rfl⟩

@[simp] theorem modPwr_fields (s : State) (f : Pwr → Pwr) :
    (modPwr s f).pending = s.pending ∧ (modPwr s f).out = s.out ∧ (modPwr s f).free = s.free
      ∧ (modPwr s f).regs = s.regs ∧ (modPwr s f).tableBad = s.tableBad ∧ (modPwr s f).mem = s.mem
      ∧ (modPwr s f).flt = s.flt ∧ (modPwr s f).saf = s.saf ∧ (modPwr s f).rst = s.rst ∧ (modPwr s f).pwr = f s.pwr
      ∧ (modPwr s f).rng = s.rng ∧ (modPwr s f).hif = s.hif ∧ (modPwr s f).crc = s.crc ∧ (modPwr s f).glb = s.glb
      ∧ (modPwr s f).lmm = s.lmm ∧ (modPwr s f).ly = s.ly ∧ (modPwr s f).shd = s.shd
      ∧ (modPwr s f).shdRefused = s.shdRefused ∧ (modPwr s f).shdNode = s.shdNode ∧ (modPwr s f).bldEntry = s.bldEntry
      ∧ (modPwr s f).bld = s.bld ∧ (modPwr s f).pxc = s.pxc ∧ (modPwr s f).tg = s.tg ∧ (modPwr s f).lanes = s.lanes
      ∧ (modPwr s f).laneBlocks = s.laneBlocks ∧ (modPwr s f).txRd = s.txRd ∧ (modPwr s f).tbl = s.tbl
      ∧ (modPwr s f).net = s.net ∧ (modPwr s f).tim = s.tim ∧ (modPwr s f).cle = s.cle ∧ (modPwr s f).lce = s.lce
      ∧ (modPwr s f).hkp = s.hkp ∧ (modPwr s f).kps = s.kps ∧ (modPwr s f).cbl = s.cbl :=
  ⟨rfl, rfl, rfl, rfl, rfl, rfl, rfl, rfl, rfl, rfl, rfl, rfl, rfl, rfl, rfl, rfl, rfl, rfl, rfl, rfl, rfl, rfl, rfl, rfl, rfl, rfl, rfl, rfl, rfl, rfl, rfl, rfl, rfl, rfl⟩

@[simp] theorem modFlt_fields (s : State) (f : Flt → Flt) :
    (modFlt s f).pending = s.pending ∧ (modFlt s f).out = s.out ∧ (modFlt s f).free = s.free
      ∧ (modFlt s f).regs = s.regs ∧ (modFlt s f).tableBad = s.tableBad ∧ (modFlt s f).mem = s.mem
      ∧ (modFlt s f).flt = f s.flt ∧ (modFlt s f).saf = s.saf ∧ (modFlt s f).rst = s.rst ∧ (modFlt s f).pwr = s.pwr
      ∧ (modFlt s f).rng = s.rng ∧ (modFlt s f).hif = s.hif ∧ (modFlt s f).crc = s.crc ∧ (modFlt s f).glb = s.glb
      ∧ (modFlt s f).lmm = s.lmm ∧ (modFlt s f).ly = s.ly ∧ (modFlt s f).shd = s.shd
      ∧ (modFlt s f).shdRefused = s.shdRefused ∧ (modFlt s f).shdNode = s.shdNode ∧ (modFlt s f).bldEntry = s.bldEntry
      ∧ (modFlt s f).bld = s.bld ∧ (modFlt s f).pxc = s.pxc ∧ (modFlt s f).tg = s.tg ∧ (modFlt s f).lanes = s.lanes
      ∧ (modFlt s f).laneBlocks = s.laneBlocks ∧ (modFlt s f).txRd = s.txRd ∧ (modFlt s f).tbl = s.tbl
      ∧ (modFlt s f).net = s.net ∧ (modFlt s f).tim = s.tim ∧ (modFlt s f).cle = s.cle ∧ (modFlt s f).lce = s.lce
      ∧ (modFlt s f).hkp = s.hkp ∧ (modFlt s f).kps = s.kps ∧ (modFlt s f).cbl = s.cbl :=
  ⟨rfl, rfl, rfl, rfl, rfl, rfl, rfl, rfl, rfl, rfl, rfl, rfl, rfl, rfl, rfl, rfl, rfl, rfl, rfl, rfl, rfl, rfl, rfl, rfl, rfl, rfl, rfl, rfl, rfl, rfl, rfl, rfl, rfl, rfl⟩

@[simp] theorem modRng_fields (s : State) (f : Rng → Rng) :
    (modRng s f).pending = s.pending ∧ (modRng s f).out = s.out ∧ (modRng s f).free = s.free
      ∧ (modRng s f).regs = s.regs ∧ (modRng s f).tableBad = s.tableBad ∧ (modRng s f).mem = s.mem
      ∧ (modRng s f).flt = s.flt ∧ (modRng s f).saf = s.saf ∧ (modRng s f).rst = s.rst ∧ (modRng s f).pwr = s.pwr
      ∧ (modRng s f).rng = f s.rng ∧ (modRng s f).hif = s.hif ∧ (modRng s f).crc = s.crc ∧ (modRng s f).glb = s.glb
      ∧ (modRng s f).lmm = s.lmm ∧ (modRng s f).ly = s.ly ∧ (modRng s f).shd = s.shd
      ∧ (modRng s f).shdRefused = s.shdRefused ∧ (modRng s f).shdNode = s.shdNode ∧ (modRng s f).bldEntry = s.bldEntry
      ∧ (modRng s f).bld = s.bld ∧ (modRng s f).pxc = s.pxc ∧ (modRng s f).tg = s.tg ∧ (modRng s f).lanes = s.lanes
      ∧ (modRng s f).laneBlocks = s.laneBlocks ∧ (modRng s f).txRd = s.txRd ∧ (modRng s f).tbl = s.tbl
      ∧ (modRng s f).net = s.net ∧ (modRng s f).tim = s.tim ∧ (modRng s f).cle = s.cle ∧ (modRng s f).lce = s.lce
      ∧ (modRng s f).hkp = s.hkp ∧ (modRng s f).kps = s.kps ∧ (modRng s f).cbl = s.cbl :=
  ⟨rfl, rfl, rfl, rfl, rfl, rfl, rfl, rfl, rfl, rfl, rfl, rfl, rfl, rfl, rfl, rfl, rfl, rfl, rfl, rfl, rfl, rfl, rfl, rfl, rfl, rfl, rfl, rfl, rfl, rfl, rfl, rfl, rfl, rfl⟩

@[simp] theorem modKps_fields (s : State) (f : Kps → Kps) :
    (modKps s f).pending = s.pending ∧ (modKps s f).out = s.out ∧ (modKps s f).free = s.free
      ∧ (modKps s f).regs = s.regs ∧ (modKps s f).tableBad = s.tableBad ∧ (modKps s f).mem = s.mem
      ∧ (modKps s f).flt = s.flt ∧ (modKps s f).saf = s.saf ∧ (modKps s f).rst = s.rst ∧ (modKps s f).pwr = s.pwr
      ∧ (modKps s f).rng = s.rng ∧ (modKps s f).hif = s.hif ∧ (modKps s f).crc = s.crc ∧ (modKps s f).glb = s.glb
      ∧ (modKps s f).lmm = s.lmm ∧ (modKps s f).ly = s.ly ∧ (modKps s f).shd = s.shd
      ∧ (modKps s f).shdRefused = s.shdRefused ∧ (modKps s f).shdNode = s.shdNode ∧ (modKps s f).bldEntry = s.bldEntry
      ∧ (modKps s f).bld = s.bld ∧ (modKps s f).pxc = s.pxc ∧ (modKps s f).tg = s.tg ∧ (modKps s f).lanes = s.lanes
      ∧ (modKps s f).laneBlocks = s.laneBlocks ∧ (modKps s f).txRd = s.txRd ∧ (modKps s f).tbl = s.tbl
      ∧ (modKps s f).net = s.net ∧ (modKps s f).tim = s.tim ∧ (modKps s f).cle = s.cle ∧ (modKps s f).lce = s.lce
      ∧ (modKps s f).hkp = s.hkp ∧ (modKps s f).kps = f s.kps ∧ (modKps s f).cbl = s.cbl :=
  ⟨rfl, rfl, rfl, rfl, rfl, rfl, rfl, rfl, rfl, rfl, rfl, rfl, rfl, rfl, rfl, rfl, rfl, rfl, rfl, rfl, rfl, rfl, rfl, rfl, rfl, rfl, rfl, rfl, rfl, rfl, rfl, rfl, rfl, rfl⟩

@[simp] theorem modCbl_fields (s : State) (f : Cbl → Cbl) :
    (modCbl s f).pending = s.pending ∧ (modCbl s f).out = s.out ∧ (modCbl s f).free = s.free
      ∧ (modCbl s f).regs = s.regs ∧ (modCbl s f).tableBad = s.tableBad ∧ (modCbl s f).mem = s.mem
      ∧ (modCbl s f).flt = s.flt ∧ (modCbl s f).saf = s.saf ∧ (modCbl s f).rst = s.rst ∧ (modCbl s f).pwr = s.pwr
      ∧ (modCbl s f).rng = s.rng ∧ (modCbl s f).hif = s.hif ∧ (modCbl s f).crc = s.crc ∧ (modCbl s f).glb = s.glb
      ∧ (modCbl s f).lmm = s.lmm ∧ (modCbl s f).ly = s.ly ∧ (modCbl s f).shd = s.shd
      ∧ (modCbl s f).shdRefused = s.shdRefused ∧ (modCbl s f).shdNode = s.shdNode ∧ (modCbl s f).bldEntry = s.bldEntry
      ∧ (modCbl s f).bld = s.bld ∧ (modCbl s f).pxc = s.pxc ∧ (modCbl s f).tg = s.tg ∧ (modCbl s f).lanes = s.lanes
      ∧ (modCbl s f).laneBlocks = s.laneBlocks ∧ (modCbl s f).txRd = s.txRd ∧ (modCbl s f).tbl = s.tbl
      ∧ (modCbl s f).net = s.net ∧ (modCbl s f).tim = s.tim ∧ (modCbl s f).cle = s.cle ∧ (modCbl s f).lce = s.lce
      ∧ (modCbl s f).hkp = s.hkp ∧ (modCbl s f).kps = s.kps ∧ (modCbl s f).cbl = f s.cbl :=
  ⟨rfl, rfl, rfl, rfl, rfl, rfl, rfl, rfl, rfl, rfl, rfl, rfl, rfl, rfl, rfl, rfl, rfl, rfl, rfl, rfl, rfl, rfl, rfl, rfl, rfl, rfl, rfl, rfl, rfl, rfl, rfl, rfl, rfl, rfl⟩

@[simp] theorem modSector_fields (s : State) (p : Nat) (f : Sector → Sector) :
    (modSector s p f).pending = s.pending ∧ (modSector s p f).out = s.out ∧ (modSector s p f).free = s.free
      ∧ (modSector s p f).regs = s.regs ∧ (modSector s p f).tableBad = s.tableBad ∧ (modSector s p f).mem = s.mem
      ∧ (modSector s p f).flt = s.flt ∧ (modSector s p f).saf = s.saf ∧ (modSector s p f).rst = s.rst
      ∧ (modSector s p f).pwr = s.pwr ∧ (modSector s p f).rng = s.rng ∧ (modSector s p f).hif = s.hif
      ∧ (modSector s p f).crc = s.crc ∧ (modSector s p f).glb = s.glb ∧ (modSector s p f).lmm = s.lmm
      ∧ (modSector s p f).ly = s.ly ∧ (modSector s p f).shd = s.shd ∧ (modSector s p f).shdRefused = s.shdRefused
      ∧ (modSector s p f).shdNode = s.shdNode ∧ (modSector s p f).bldEntry = s.bldEntry
      ∧ (modSector s p f).bld = s.bld ∧ (modSector s p f).pxc = s.pxc ∧ (modSector s p f).tg = s.tg
      ∧ (modSector s p f).lanes = s.lanes ∧ (modSector s p f).laneBlocks = s.laneBlocks
      ∧ (modSector s p f).txRd = s.txRd ∧ (modSector s p f).tbl = s.tbl ∧ (modSector s p f).net = s.net
      ∧ (modSector s p f).tim = s.tim ∧ (modSector s p f).cle = s.cle ∧ (modSector s p f).lce = s.lce
      ∧ (modSector s p f).hkp = s.hkp
      ∧ (modSector s p f).kps = { s.kps with sectors := Store.put Sector.reset s.kps.sectors p (f (sectorOf s p)) }
      ∧ (modSector s p f).cbl = s.cbl :=
  ⟨rfl, rfl, rfl, rfl, rfl, rfl, rfl, rfl, rfl, rfl, rfl, rfl, rfl, rfl, rfl, rfl, rfl, rfl, rfl, rfl, rfl, rfl, rfl, rfl, rfl, rfl, rfl, rfl, rfl, rfl, rfl, rfl, rfl, rfl⟩

@[simp] theorem modLmm_fields (s : State) (f : Lmm → Lmm) :
    (modLmm s f).pending = s.pending ∧ (modLmm s f).out = s.out ∧ (modLmm s f).free = s.free
      ∧ (modLmm s f).regs = s.regs ∧ (modLmm s f).tableBad = s.tableBad ∧ (modLmm s f).mem = s.mem
      ∧ (modLmm s f).flt = s.flt ∧ (modLmm s f).saf = s.saf ∧ (modLmm s f).rst = s.rst ∧ (modLmm s f).pwr = s.pwr
      ∧ (modLmm s f).rng = s.rng ∧ (modLmm s f).hif = s.hif ∧ (modLmm s f).crc = s.crc ∧ (modLmm s f).glb = s.glb
      ∧ (modLmm s f).lmm = f s.lmm ∧ (modLmm s f).ly = s.ly ∧ (modLmm s f).shd = s.shd
      ∧ (modLmm s f).shdRefused = s.shdRefused ∧ (modLmm s f).shdNode = s.shdNode ∧ (modLmm s f).bldEntry = s.bldEntry
      ∧ (modLmm s f).bld = s.bld ∧ (modLmm s f).pxc = s.pxc ∧ (modLmm s f).tg = s.tg ∧ (modLmm s f).lanes = s.lanes
      ∧ (modLmm s f).laneBlocks = s.laneBlocks ∧ (modLmm s f).txRd = s.txRd ∧ (modLmm s f).tbl = s.tbl
      ∧ (modLmm s f).net = s.net ∧ (modLmm s f).tim = s.tim ∧ (modLmm s f).cle = s.cle ∧ (modLmm s f).lce = s.lce
      ∧ (modLmm s f).hkp = s.hkp ∧ (modLmm s f).kps = s.kps ∧ (modLmm s f).cbl = s.cbl :=
  ⟨rfl, rfl, rfl, rfl, rfl, rfl, rfl, rfl, rfl, rfl, rfl, rfl, rfl, rfl, rfl, rfl, rfl, rfl, rfl, rfl, rfl, rfl, rfl, rfl, rfl, rfl, rfl, rfl, rfl, rfl, rfl, rfl, rfl, rfl⟩

@[simp] theorem modCal_fields (s : State) (f : Cal → Cal) :
    (modCal s f).pending = s.pending ∧ (modCal s f).out = s.out ∧ (modCal s f).free = s.free
      ∧ (modCal s f).regs = s.regs ∧ (modCal s f).tableBad = s.tableBad ∧ (modCal s f).mem = s.mem
      ∧ (modCal s f).flt = s.flt ∧ (modCal s f).saf = s.saf ∧ (modCal s f).rst = s.rst ∧ (modCal s f).pwr = s.pwr
      ∧ (modCal s f).rng = s.rng ∧ (modCal s f).hif = s.hif ∧ (modCal s f).crc = s.crc ∧ (modCal s f).glb = s.glb
      ∧ (modCal s f).lmm = s.lmm ∧ (modCal s f).ly = s.ly ∧ (modCal s f).shd = s.shd
      ∧ (modCal s f).shdRefused = s.shdRefused ∧ (modCal s f).shdNode = s.shdNode ∧ (modCal s f).bldEntry = s.bldEntry
      ∧ (modCal s f).bld = s.bld ∧ (modCal s f).pxc = { s.pxc with cal := s.pxc.cal.map f } ∧ (modCal s f).tg = s.tg
      ∧ (modCal s f).lanes = s.lanes ∧ (modCal s f).laneBlocks = s.laneBlocks ∧ (modCal s f).txRd = s.txRd
      ∧ (modCal s f).tbl = s.tbl ∧ (modCal s f).net = s.net ∧ (modCal s f).tim = s.tim ∧ (modCal s f).cle = s.cle
      ∧ (modCal s f).lce = s.lce ∧ (modCal s f).hkp = s.hkp ∧ (modCal s f).kps = s.kps ∧ (modCal s f).cbl = s.cbl :=
  ⟨rfl, rfl, rfl, rfl, rfl, rfl, rfl, rfl, rfl, rfl, rfl, rfl, rfl, rfl, rfl, rfl, rfl, rfl, rfl, rfl, rfl, rfl, rfl, rfl, rfl, rfl, rfl, rfl, rfl, rfl, rfl, rfl, rfl, rfl⟩

@[simp] theorem modCals_fields (s : State) (f : Cal → Cal) :
    (modCals s f).pending = s.pending ∧ (modCals s f).out = s.out ∧ (modCals s f).free = s.free
      ∧ (modCals s f).regs = s.regs ∧ (modCals s f).tableBad = s.tableBad ∧ (modCals s f).mem = s.mem
      ∧ (modCals s f).flt = s.flt ∧ (modCals s f).saf = s.saf ∧ (modCals s f).rst = s.rst ∧ (modCals s f).pwr = s.pwr
      ∧ (modCals s f).rng = s.rng ∧ (modCals s f).hif = s.hif ∧ (modCals s f).crc = s.crc ∧ (modCals s f).glb = s.glb
      ∧ (modCals s f).lmm = s.lmm ∧ (modCals s f).ly = s.ly ∧ (modCals s f).shd = s.shd
      ∧ (modCals s f).shdRefused = s.shdRefused ∧ (modCals s f).shdNode = s.shdNode
      ∧ (modCals s f).bldEntry = s.bldEntry ∧ (modCals s f).bld = s.bld
      ∧ (modCals s f).pxc = { s.pxc with cal := s.pxc.cal.map f, merged := s.pxc.merged.map f }
      ∧ (modCals s f).tg = s.tg ∧ (modCals s f).lanes = s.lanes ∧ (modCals s f).laneBlocks = s.laneBlocks
      ∧ (modCals s f).txRd = s.txRd ∧ (modCals s f).tbl = s.tbl ∧ (modCals s f).net = s.net
      ∧ (modCals s f).tim = s.tim ∧ (modCals s f).cle = s.cle ∧ (modCals s f).lce = s.lce ∧ (modCals s f).hkp = s.hkp
      ∧ (modCals s f).kps = s.kps ∧ (modCals s f).cbl = s.cbl :=
  ⟨rfl, rfl, rfl, rfl, rfl, rfl, rfl, rfl, rfl, rfl, rfl, rfl, rfl, rfl, rfl, rfl, rfl, rfl, rfl, rfl, rfl, rfl, rfl, rfl, rfl, rfl, rfl, rfl, rfl, rfl, rfl, rfl, rfl, rfl⟩

@[simp] theorem modNet_fields (s : State) (f : Net → Net) :
    (modNet s f).pending = s.pending ∧ (modNet s f).out = s.out ∧ (modNet s f).free = s.free
      ∧ (modNet s f).regs = s.regs ∧ (modNet s f).tableBad = s.tableBad ∧ (modNet s f).mem = s.mem
      ∧ (modNet s f).flt = s.flt ∧ (modNet s f).saf = s.saf ∧ (modNet s f).rst = s.rst ∧ (modNet s f).pwr = s.pwr
      ∧ (modNet s f).rng = s.rng ∧ (modNet s f).hif = s.hif ∧ (modNet s f).crc = s.crc ∧ (modNet s f).glb = s.glb
      ∧ (modNet s f).lmm = s.lmm ∧ (modNet s f).ly = s.ly ∧ (modNet s f).shd = s.shd
      ∧ (modNet s f).shdRefused = s.shdRefused ∧ (modNet s f).shdNode = s.shdNode ∧ (modNet s f).bldEntry = s.bldEntry
      ∧ (modNet s f).bld = s.bld ∧ (modNet s f).pxc = s.pxc ∧ (modNet s f).tg = s.tg ∧ (modNet s f).lanes = s.lanes
      ∧ (modNet s f).laneBlocks = s.laneBlocks ∧ (modNet s f).txRd = s.txRd ∧ (modNet s f).tbl = s.tbl
      ∧ (modNet s f).net = f s.net ∧ (modNet s f).tim = s.tim ∧ (modNet s f).cle = s.cle ∧ (modNet s f).lce = s.lce
      ∧ (modNet s f).hkp = s.hkp ∧ (modNet s f).kps = s.kps ∧ (modNet s f).cbl = s.cbl :=
  ⟨rfl, rfl, rfl, rfl, rfl, rfl, rfl, rfl, rfl, rfl, rfl, rfl, rfl, rfl, rfl, rfl, rfl, rfl, rfl, rfl, rfl, rfl, rfl, rfl, rfl, rfl, rfl, rfl, rfl, rfl, rfl, rfl, rfl, rfl⟩

@[simp] theorem modLaneBlock_fields (s : State) (b : Nat) (f : LaneBlock → LaneBlock) :
    (modLaneBlock s b f).pending = s.pending ∧ (modLaneBlock s b f).out = s.out ∧ (modLaneBlock s b f).free = s.free
      ∧ (modLaneBlock s b f).regs = s.regs ∧ (modLaneBlock s b f).tableBad = s.tableBad
      ∧ (modLaneBlock s b f).mem = s.mem ∧ (modLaneBlock s b f).flt = s.flt ∧ (modLaneBlock s b f).saf = s.saf
      ∧ (modLaneBlock s b f).rst = s.rst ∧ (modLaneBlock s b f).pwr = s.pwr ∧ (modLaneBlock s b f).rng = s.rng
      ∧ (modLaneBlock s b f).hif = s.hif ∧ (modLaneBlock s b f).crc = s.crc ∧ (modLaneBlock s b f).glb = s.glb
      ∧ (modLaneBlock s b f).lmm = s.lmm ∧ (modLaneBlock s b f).ly = s.ly ∧ (modLaneBlock s b f).shd = s.shd
      ∧ (modLaneBlock s b f).shdRefused = s.shdRefused ∧ (modLaneBlock s b f).shdNode = s.shdNode
      ∧ (modLaneBlock s b f).bldEntry = s.bldEntry ∧ (modLaneBlock s b f).bld = s.bld
      ∧ (modLaneBlock s b f).pxc = s.pxc ∧ (modLaneBlock s b f).tg = s.tg ∧ (modLaneBlock s b f).lanes = s.lanes
      ∧ (modLaneBlock s b f).laneBlocks = Store.put (fun _ => LaneBlock.reset) s.laneBlocks b (f (laneBlock s b))
      ∧ (modLaneBlock s b f).txRd = s.txRd ∧ (modLaneBlock s b f).tbl = s.tbl ∧ (modLaneBlock s b f).net = s.net
      ∧ (modLaneBlock s b f).tim = s.tim ∧ (modLaneBlock s b f).cle = s.cle ∧ (modLaneBlock s b f).lce = s.lce
      ∧ (modLaneBlock s b f).hkp = s.hkp ∧ (modLaneBlock s b f).kps = s.kps ∧ (modLaneBlock s b f).cbl = s.cbl :=
  ⟨rfl, rfl, rfl, rfl, rfl, rfl, rfl, rfl, rfl, rfl, rfl, rfl, rfl, rfl, rfl, rfl, rfl, rfl, rfl, rfl, rfl, rfl, rfl, rfl, rfl, rfl, rfl, rfl, rfl, rfl, rfl, rfl, rfl, rfl⟩

@[simp] theorem modCle_fields (s : State) (f : Cle → Cle) :
    (modCle s f).pending = s.pending ∧ (modCle s f).out = s.out ∧ (modCle s f).free = s.free
      ∧ (modCle s f).regs = s.regs ∧ (modCle s f).tableBad = s.tableBad ∧ (modCle s f).mem = s.mem
      ∧ (modCle s f).flt = s.flt ∧ (modCle s f).saf = s.saf ∧ (modCle s f).rst = s.rst ∧ (modCle s f).pwr = s.pwr
      ∧ (modCle s f).rng = s.rng ∧ (modCle s f).hif = s.hif ∧ (modCle s f).crc = s.crc ∧ (modCle s f).glb = s.glb
      ∧ (modCle s f).lmm = s.lmm ∧ (modCle s f).ly = s.ly ∧ (modCle s f).shd = s.shd
      ∧ (modCle s f).shdRefused = s.shdRefused ∧ (modCle s f).shdNode = s.shdNode ∧ (modCle s f).bldEntry = s.bldEntry
      ∧ (modCle s f).bld = s.bld ∧ (modCle s f).pxc = s.pxc ∧ (modCle s f).tg = s.tg ∧ (modCle s f).lanes = s.lanes
      ∧ (modCle s f).laneBlocks = s.laneBlocks ∧ (modCle s f).txRd = s.txRd ∧ (modCle s f).tbl = s.tbl
      ∧ (modCle s f).net = s.net ∧ (modCle s f).tim = s.tim ∧ (modCle s f).cle = f s.cle ∧ (modCle s f).lce = s.lce
      ∧ (modCle s f).hkp = s.hkp ∧ (modCle s f).kps = s.kps ∧ (modCle s f).cbl = s.cbl :=
  ⟨rfl, rfl, rfl, rfl, rfl, rfl, rfl, rfl, rfl, rfl, rfl, rfl, rfl, rfl, rfl, rfl, rfl, rfl, rfl, rfl, rfl, rfl, rfl, rfl, rfl, rfl, rfl, rfl, rfl, rfl, rfl, rfl, rfl, rfl⟩

@[simp] theorem modAdc_fields (s : State) (c : Nat) (f : Adc → Adc) :
    (modAdc s c f).pending = s.pending ∧ (modAdc s c f).out = s.out ∧ (modAdc s c f).free = s.free
      ∧ (modAdc s c f).regs = s.regs ∧ (modAdc s c f).tableBad = s.tableBad ∧ (modAdc s c f).mem = s.mem
      ∧ (modAdc s c f).flt = s.flt ∧ (modAdc s c f).saf = s.saf ∧ (modAdc s c f).rst = s.rst
      ∧ (modAdc s c f).pwr = s.pwr ∧ (modAdc s c f).rng = s.rng ∧ (modAdc s c f).hif = s.hif
      ∧ (modAdc s c f).crc = s.crc ∧ (modAdc s c f).glb = s.glb ∧ (modAdc s c f).lmm = s.lmm
      ∧ (modAdc s c f).ly = s.ly ∧ (modAdc s c f).shd = s.shd ∧ (modAdc s c f).shdRefused = s.shdRefused
      ∧ (modAdc s c f).shdNode = s.shdNode ∧ (modAdc s c f).bldEntry = s.bldEntry ∧ (modAdc s c f).bld = s.bld
      ∧ (modAdc s c f).pxc = s.pxc ∧ (modAdc s c f).tg = s.tg ∧ (modAdc s c f).lanes = s.lanes
      ∧ (modAdc s c f).laneBlocks = s.laneBlocks ∧ (modAdc s c f).txRd = s.txRd ∧ (modAdc s c f).tbl = s.tbl
      ∧ (modAdc s c f).net = s.net ∧ (modAdc s c f).tim = s.tim
      ∧ (modAdc s c f).cle = { s.cle with adcs := Store.put (fun _ => Adc.reset) s.cle.adcs c (f (adcOf s c)) }
      ∧ (modAdc s c f).lce = s.lce ∧ (modAdc s c f).hkp = s.hkp ∧ (modAdc s c f).kps = s.kps
      ∧ (modAdc s c f).cbl = s.cbl :=
  ⟨rfl, rfl, rfl, rfl, rfl, rfl, rfl, rfl, rfl, rfl, rfl, rfl, rfl, rfl, rfl, rfl, rfl, rfl, rfl, rfl, rfl, rfl, rfl, rfl, rfl, rfl, rfl, rfl, rfl, rfl, rfl, rfl, rfl, rfl⟩

@[simp] theorem modTim_fields (s : State) (f : Tim → Tim) :
    (modTim s f).pending = s.pending ∧ (modTim s f).out = s.out ∧ (modTim s f).free = s.free
      ∧ (modTim s f).regs = s.regs ∧ (modTim s f).tableBad = s.tableBad ∧ (modTim s f).mem = s.mem
      ∧ (modTim s f).flt = s.flt ∧ (modTim s f).saf = s.saf ∧ (modTim s f).rst = s.rst ∧ (modTim s f).pwr = s.pwr
      ∧ (modTim s f).rng = s.rng ∧ (modTim s f).hif = s.hif ∧ (modTim s f).crc = s.crc ∧ (modTim s f).glb = s.glb
      ∧ (modTim s f).lmm = s.lmm ∧ (modTim s f).ly = s.ly ∧ (modTim s f).shd = s.shd
      ∧ (modTim s f).shdRefused = s.shdRefused ∧ (modTim s f).shdNode = s.shdNode ∧ (modTim s f).bldEntry = s.bldEntry
      ∧ (modTim s f).bld = s.bld ∧ (modTim s f).pxc = s.pxc ∧ (modTim s f).tg = s.tg ∧ (modTim s f).lanes = s.lanes
      ∧ (modTim s f).laneBlocks = s.laneBlocks ∧ (modTim s f).txRd = s.txRd ∧ (modTim s f).tbl = s.tbl
      ∧ (modTim s f).net = s.net ∧ (modTim s f).tim = f s.tim ∧ (modTim s f).cle = s.cle ∧ (modTim s f).lce = s.lce
      ∧ (modTim s f).hkp = s.hkp ∧ (modTim s f).kps = s.kps ∧ (modTim s f).cbl = s.cbl :=
  ⟨rfl, rfl, rfl, rfl, rfl, rfl, rfl, rfl, rfl, rfl, rfl, rfl, rfl, rfl, rfl, rfl, rfl, rfl, rfl, rfl, rfl, rfl, rfl, rfl, rfl, rfl, rfl, rfl, rfl, rfl, rfl, rfl, rfl, rfl⟩

@[simp] theorem modCap_fields (s : State) (n : Nat) (f : Cap → Cap) :
    (modCap s n f).pending = s.pending ∧ (modCap s n f).out = s.out ∧ (modCap s n f).free = s.free
      ∧ (modCap s n f).regs = s.regs ∧ (modCap s n f).tableBad = s.tableBad ∧ (modCap s n f).mem = s.mem
      ∧ (modCap s n f).flt = s.flt ∧ (modCap s n f).saf = s.saf ∧ (modCap s n f).rst = s.rst
      ∧ (modCap s n f).pwr = s.pwr ∧ (modCap s n f).rng = s.rng ∧ (modCap s n f).hif = s.hif
      ∧ (modCap s n f).crc = s.crc ∧ (modCap s n f).glb = s.glb ∧ (modCap s n f).lmm = s.lmm
      ∧ (modCap s n f).ly = s.ly ∧ (modCap s n f).shd = s.shd ∧ (modCap s n f).shdRefused = s.shdRefused
      ∧ (modCap s n f).shdNode = s.shdNode ∧ (modCap s n f).bldEntry = s.bldEntry ∧ (modCap s n f).bld = s.bld
      ∧ (modCap s n f).pxc = s.pxc ∧ (modCap s n f).tg = s.tg ∧ (modCap s n f).lanes = s.lanes
      ∧ (modCap s n f).laneBlocks = s.laneBlocks ∧ (modCap s n f).txRd = s.txRd ∧ (modCap s n f).tbl = s.tbl
      ∧ (modCap s n f).net = s.net
      ∧ (modCap s n f).tim = { s.tim with caps := Store.put (fun _ => Cap.reset) s.tim.caps n (f (capOf s n)) }
      ∧ (modCap s n f).cle = s.cle ∧ (modCap s n f).lce = s.lce ∧ (modCap s n f).hkp = s.hkp
      ∧ (modCap s n f).kps = s.kps ∧ (modCap s n f).cbl = s.cbl :=
  ⟨rfl, rfl, rfl, rfl, rfl, rfl, rfl, rfl, rfl, rfl, rfl, rfl, rfl, rfl, rfl, rfl, rfl, rfl, rfl, rfl, rfl, rfl, rfl, rfl, rfl, rfl, rfl, rfl, rfl, rfl, rfl, rfl, rfl, rfl⟩

@[simp] theorem modCrcCtx_fields (s : State) (c : Nat) (f : CrcCtx → CrcCtx) :
    (modCrcCtx s c f).pending = s.pending ∧ (modCrcCtx s c f).out = s.out ∧ (modCrcCtx s c f).free = s.free
      ∧ (modCrcCtx s c f).regs = s.regs ∧ (modCrcCtx s c f).tableBad = s.tableBad ∧ (modCrcCtx s c f).mem = s.mem
      ∧ (modCrcCtx s c f).flt = s.flt ∧ (modCrcCtx s c f).saf = s.saf ∧ (modCrcCtx s c f).rst = s.rst
      ∧ (modCrcCtx s c f).pwr = s.pwr ∧ (modCrcCtx s c f).rng = s.rng ∧ (modCrcCtx s c f).hif = s.hif
      ∧ (modCrcCtx s c f).crc = { s.crc with ctxs := Store.put (fun _ => CrcCtx.reset) s.crc.ctxs c (f (crcCtx s c)) }
      ∧ (modCrcCtx s c f).glb = s.glb ∧ (modCrcCtx s c f).lmm = s.lmm ∧ (modCrcCtx s c f).ly = s.ly
      ∧ (modCrcCtx s c f).shd = s.shd ∧ (modCrcCtx s c f).shdRefused = s.shdRefused
      ∧ (modCrcCtx s c f).shdNode = s.shdNode ∧ (modCrcCtx s c f).bldEntry = s.bldEntry
      ∧ (modCrcCtx s c f).bld = s.bld ∧ (modCrcCtx s c f).pxc = s.pxc ∧ (modCrcCtx s c f).tg = s.tg
      ∧ (modCrcCtx s c f).lanes = s.lanes ∧ (modCrcCtx s c f).laneBlocks = s.laneBlocks
      ∧ (modCrcCtx s c f).txRd = s.txRd ∧ (modCrcCtx s c f).tbl = s.tbl ∧ (modCrcCtx s c f).net = s.net
      ∧ (modCrcCtx s c f).tim = s.tim ∧ (modCrcCtx s c f).cle = s.cle ∧ (modCrcCtx s c f).lce = s.lce
      ∧ (modCrcCtx s c f).hkp = s.hkp ∧ (modCrcCtx s c f).kps = s.kps ∧ (modCrcCtx s c f).cbl = s.cbl :=
  ⟨rfl, rfl, rfl, rfl, rfl, rfl, rfl, rfl, rfl, rfl, rfl, rfl, rfl, rfl, rfl, rfl, rfl, rfl, rfl, rfl, rfl, rfl, rfl, rfl, rfl, rfl, rfl, rfl, rfl, rfl, rfl, rfl, rfl, rfl⟩

@[simp] theorem modSaf_fields (s : State) (f : Saf → Saf) :
    (modSaf s f).pending = s.pending ∧ (modSaf s f).out = s.out ∧ (modSaf s f).free = s.free
      ∧ (modSaf s f).regs = s.regs ∧ (modSaf s f).tableBad = s.tableBad ∧ (modSaf s f).mem = s.mem
      ∧ (modSaf s f).flt = s.flt ∧ (modSaf s f).saf = f s.saf ∧ (modSaf s f).rst = s.rst ∧ (modSaf s f).pwr = s.pwr
      ∧ (modSaf s f).rng = s.rng ∧ (modSaf s f).hif = s.hif ∧ (modSaf s f).crc = s.crc ∧ (modSaf s f).glb = s.glb
      ∧ (modSaf s f).lmm = s.lmm ∧ (modSaf s f).ly = s.ly ∧ (modSaf s f).shd = s.shd
      ∧ (modSaf s f).shdRefused = s.shdRefused ∧ (modSaf s f).shdNode = s.shdNode ∧ (modSaf s f).bldEntry = s.bldEntry
      ∧ (modSaf s f).bld = s.bld ∧ (modSaf s f).pxc = s.pxc ∧ (modSaf s f).tg = s.tg ∧ (modSaf s f).lanes = s.lanes
      ∧ (modSaf s f).laneBlocks = s.laneBlocks ∧ (modSaf s f).txRd = s.txRd ∧ (modSaf s f).tbl = s.tbl
      ∧ (modSaf s f).net = s.net ∧ (modSaf s f).tim = s.tim ∧ (modSaf s f).cle = s.cle ∧ (modSaf s f).lce = s.lce
      ∧ (modSaf s f).hkp = s.hkp ∧ (modSaf s f).kps = s.kps ∧ (modSaf s f).cbl = s.cbl :=
  ⟨rfl, rfl, rfl, rfl, rfl, rfl, rfl, rfl, rfl, rfl, rfl, rfl, rfl, rfl, rfl, rfl, rfl, rfl, rfl, rfl, rfl, rfl, rfl, rfl, rfl, rfl, rfl, rfl, rfl, rfl, rfl, rfl, rfl, rfl⟩

@[simp] theorem modHkp_fields (s : State) (f : Hkp → Hkp) :
    (modHkp s f).pending = s.pending ∧ (modHkp s f).out = s.out ∧ (modHkp s f).free = s.free
      ∧ (modHkp s f).regs = s.regs ∧ (modHkp s f).tableBad = s.tableBad ∧ (modHkp s f).mem = s.mem
      ∧ (modHkp s f).flt = s.flt ∧ (modHkp s f).saf = s.saf ∧ (modHkp s f).rst = s.rst ∧ (modHkp s f).pwr = s.pwr
      ∧ (modHkp s f).rng = s.rng ∧ (modHkp s f).hif = s.hif ∧ (modHkp s f).crc = s.crc ∧ (modHkp s f).glb = s.glb
      ∧ (modHkp s f).lmm = s.lmm ∧ (modHkp s f).ly = s.ly ∧ (modHkp s f).shd = s.shd
      ∧ (modHkp s f).shdRefused = s.shdRefused ∧ (modHkp s f).shdNode = s.shdNode ∧ (modHkp s f).bldEntry = s.bldEntry
      ∧ (modHkp s f).bld = s.bld ∧ (modHkp s f).pxc = s.pxc ∧ (modHkp s f).tg = s.tg ∧ (modHkp s f).lanes = s.lanes
      ∧ (modHkp s f).laneBlocks = s.laneBlocks ∧ (modHkp s f).txRd = s.txRd ∧ (modHkp s f).tbl = s.tbl
      ∧ (modHkp s f).net = s.net ∧ (modHkp s f).tim = s.tim ∧ (modHkp s f).cle = s.cle ∧ (modHkp s f).lce = s.lce
      ∧ (modHkp s f).hkp = f s.hkp ∧ (modHkp s f).kps = s.kps ∧ (modHkp s f).cbl = s.cbl :=
  ⟨rfl, rfl, rfl, rfl, rfl, rfl, rfl, rfl, rfl, rfl, rfl, rfl, rfl, rfl, rfl, rfl, rfl, rfl, rfl, rfl, rfl, rfl, rfl, rfl, rfl, rfl, rfl, rfl, rfl, rfl, rfl, rfl, rfl, rfl⟩

@[simp] theorem modRst_fields (s : State) (f : Rst → Rst) :
    (modRst s f).pending = s.pending ∧ (modRst s f).out = s.out ∧ (modRst s f).free = s.free
      ∧ (modRst s f).regs = s.regs ∧ (modRst s f).tableBad = s.tableBad ∧ (modRst s f).mem = s.mem
      ∧ (modRst s f).flt = s.flt ∧ (modRst s f).saf = s.saf ∧ (modRst s f).rst = f s.rst ∧ (modRst s f).pwr = s.pwr
      ∧ (modRst s f).rng = s.rng ∧ (modRst s f).hif = s.hif ∧ (modRst s f).crc = s.crc ∧ (modRst s f).glb = s.glb
      ∧ (modRst s f).lmm = s.lmm ∧ (modRst s f).ly = s.ly ∧ (modRst s f).shd = s.shd
      ∧ (modRst s f).shdRefused = s.shdRefused ∧ (modRst s f).shdNode = s.shdNode ∧ (modRst s f).bldEntry = s.bldEntry
      ∧ (modRst s f).bld = s.bld ∧ (modRst s f).pxc = s.pxc ∧ (modRst s f).tg = s.tg ∧ (modRst s f).lanes = s.lanes
      ∧ (modRst s f).laneBlocks = s.laneBlocks ∧ (modRst s f).txRd = s.txRd ∧ (modRst s f).tbl = s.tbl
      ∧ (modRst s f).net = s.net ∧ (modRst s f).tim = s.tim ∧ (modRst s f).cle = s.cle ∧ (modRst s f).lce = s.lce
      ∧ (modRst s f).hkp = s.hkp ∧ (modRst s f).kps = s.kps ∧ (modRst s f).cbl = s.cbl :=
  ⟨rfl, rfl, rfl, rfl, rfl, rfl, rfl, rfl, rfl, rfl, rfl, rfl, rfl, rfl, rfl, rfl, rfl, rfl, rfl, rfl, rfl, rfl, rfl, rfl, rfl, rfl, rfl, rfl, rfl, rfl, rfl, rfl, rfl, rfl⟩

@[simp] theorem modBoot_fields (s : State) (f : Boot → Boot) :
    (modBoot s f).pending = s.pending ∧ (modBoot s f).out = s.out ∧ (modBoot s f).free = s.free
      ∧ (modBoot s f).regs = s.regs ∧ (modBoot s f).tableBad = s.tableBad ∧ (modBoot s f).mem = s.mem
      ∧ (modBoot s f).flt = s.flt ∧ (modBoot s f).saf = s.saf
      ∧ (modBoot s f).rst = { s.rst with boot := f s.rst.boot } ∧ (modBoot s f).pwr = s.pwr
      ∧ (modBoot s f).rng = s.rng ∧ (modBoot s f).hif = s.hif ∧ (modBoot s f).crc = s.crc ∧ (modBoot s f).glb = s.glb
      ∧ (modBoot s f).lmm = s.lmm ∧ (modBoot s f).ly = s.ly ∧ (modBoot s f).shd = s.shd
      ∧ (modBoot s f).shdRefused = s.shdRefused ∧ (modBoot s f).shdNode = s.shdNode
      ∧ (modBoot s f).bldEntry = s.bldEntry ∧ (modBoot s f).bld = s.bld ∧ (modBoot s f).pxc = s.pxc
      ∧ (modBoot s f).tg = s.tg ∧ (modBoot s f).lanes = s.lanes ∧ (modBoot s f).laneBlocks = s.laneBlocks
      ∧ (modBoot s f).txRd = s.txRd ∧ (modBoot s f).tbl = s.tbl ∧ (modBoot s f).net = s.net
      ∧ (modBoot s f).tim = s.tim ∧ (modBoot s f).cle = s.cle ∧ (modBoot s f).lce = s.lce ∧ (modBoot s f).hkp = s.hkp
      ∧ (modBoot s f).kps = s.kps ∧ (modBoot s f).cbl = s.cbl :=
  ⟨rfl, rfl, rfl, rfl, rfl, rfl, rfl, rfl, rfl, rfl, rfl, rfl, rfl, rfl, rfl, rfl, rfl, rfl, rfl, rfl, rfl, rfl, rfl, rfl, rfl, rfl, rfl, rfl, rfl, rfl, rfl, rfl, rfl, rfl⟩

@[simp] theorem modGlb_fields (s : State) (f : Glb → Glb) :
    (modGlb s f).pending = s.pending ∧ (modGlb s f).out = s.out ∧ (modGlb s f).free = s.free
      ∧ (modGlb s f).regs = s.regs ∧ (modGlb s f).tableBad = s.tableBad ∧ (modGlb s f).mem = s.mem
      ∧ (modGlb s f).flt = s.flt ∧ (modGlb s f).saf = s.saf ∧ (modGlb s f).rst = s.rst ∧ (modGlb s f).pwr = s.pwr
      ∧ (modGlb s f).rng = s.rng ∧ (modGlb s f).hif = s.hif ∧ (modGlb s f).crc = s.crc ∧ (modGlb s f).glb = f s.glb
      ∧ (modGlb s f).lmm = s.lmm ∧ (modGlb s f).ly = s.ly ∧ (modGlb s f).shd = s.shd
      ∧ (modGlb s f).shdRefused = s.shdRefused ∧ (modGlb s f).shdNode = s.shdNode ∧ (modGlb s f).bldEntry = s.bldEntry
      ∧ (modGlb s f).bld = s.bld ∧ (modGlb s f).pxc = s.pxc ∧ (modGlb s f).tg = s.tg ∧ (modGlb s f).lanes = s.lanes
      ∧ (modGlb s f).laneBlocks = s.laneBlocks ∧ (modGlb s f).txRd = s.txRd ∧ (modGlb s f).tbl = s.tbl
      ∧ (modGlb s f).net = s.net ∧ (modGlb s f).tim = s.tim ∧ (modGlb s f).cle = s.cle ∧ (modGlb s f).lce = s.lce
      ∧ (modGlb s f).hkp = s.hkp ∧ (modGlb s f).kps = s.kps ∧ (modGlb s f).cbl = s.cbl :=
  ⟨rfl, rfl, rfl, rfl, rfl, rfl, rfl, rfl, rfl, rfl, rfl, rfl, rfl, rfl, rfl, rfl, rfl, rfl, rfl, rfl, rfl, rfl, rfl, rfl, rfl, rfl, rfl, rfl, rfl, rfl, rfl, rfl, rfl, rfl⟩

/-! ## Reads after writes of the indexed groups -/

@[simp] theorem laneOf_modLane_same (s : State) (i : Nat) (f : Lane → Lane) : laneOf (modLane s i f) i = f (laneOf s i) :=
  Store.get_put_same ..

@[simp] theorem laneOf_modLane_other (s : State) (i j : Nat) (f : Lane → Lane) (n : j ≠ i) : laneOf (modLane s i f) j = laneOf s j :=
  Store.get_put_other _ _ _ _ _ n

@[simp] theorem ringOf_modRing_same (s : State) (i : Nat) (f : Ring → Ring) : ringOf (modRing s i f) i = f (ringOf s i) :=
  Store.get_put_same ..

@[simp] theorem ringOf_modRing_other (s : State) (i j : Nat) (f : Ring → Ring) (n : j ≠ i) : ringOf (modRing s i f) j = ringOf s j :=
  Store.get_put_other _ _ _ _ _ n

@[simp] theorem loopOf_modLoop_same (s : State) (i : Nat) (f : Loop → Loop) : loopOf (modLoop s i f) i = f (loopOf s i) :=
  Store.get_put_same ..

@[simp] theorem loopOf_modLoop_other (s : State) (i j : Nat) (f : Loop → Loop) (n : j ≠ i) : loopOf (modLoop s i f) j = loopOf s j :=
  Store.get_put_other _ _ _ _ _ n

@[simp] theorem chainOf_modChain_same (s : State) (i : Nat) (f : Chain → Chain) : chainOf (modChain s i f) i = f (chainOf s i) :=
  Store.get_put_same ..

@[simp] theorem chainOf_modChain_other (s : State) (i j : Nat) (f : Chain → Chain) (n : j ≠ i) : chainOf (modChain s i f) j = chainOf s j :=
  Store.get_put_other _ _ _ _ _ n

@[simp] theorem portOf_modPort_same (s : State) (i : Nat) (f : NetPort → NetPort) : portOf (modPort s i f) i = f (portOf s i) :=
  Store.get_put_same ..

@[simp] theorem portOf_modPort_other (s : State) (i j : Nat) (f : NetPort → NetPort) (n : j ≠ i) : portOf (modPort s i f) j = portOf s j :=
  Store.get_put_other _ _ _ _ _ n

@[simp] theorem bankOf_modBank_same (s : State) (i : Nat) (f : Bank → Bank) : bankOf (modBank s i f) i = f (bankOf s i) :=
  Store.get_put_same ..

@[simp] theorem bankOf_modBank_other (s : State) (i j : Nat) (f : Bank → Bank) (n : j ≠ i) : bankOf (modBank s i f) j = bankOf s j :=
  Store.get_put_other _ _ _ _ _ n

@[simp] theorem trigOf_modTrig_same (s : State) (i : Nat) (f : Trig → Trig) : trigOf (modTrig s i f) i = f (trigOf s i) :=
  Store.get_put_same ..

@[simp] theorem trigOf_modTrig_other (s : State) (i j : Nat) (f : Trig → Trig) (n : j ≠ i) : trigOf (modTrig s i f) j = trigOf s j :=
  Store.get_put_other _ _ _ _ _ n

@[simp] theorem laneBlock_modLaneBlock_same (s : State) (i : Nat) (f : LaneBlock → LaneBlock) : laneBlock (modLaneBlock s i f) i = f (laneBlock s i) :=
  Store.get_put_same ..

@[simp] theorem laneBlock_modLaneBlock_other (s : State) (i j : Nat) (f : LaneBlock → LaneBlock) (n : j ≠ i) : laneBlock (modLaneBlock s i f) j = laneBlock s j :=
  Store.get_put_other _ _ _ _ _ n

@[simp] theorem sectorOf_modSector_same (s : State) (i : Nat) (f : Sector → Sector) : sectorOf (modSector s i f) i = f (sectorOf s i) :=
  Store.get_put_same ..

@[simp] theorem sectorOf_modSector_other (s : State) (i j : Nat) (f : Sector → Sector) (n : j ≠ i) : sectorOf (modSector s i f) j = sectorOf s j :=
  Store.get_put_other _ _ _ _ _ n

@[simp] theorem capOf_modCap_same (s : State) (i : Nat) (f : Cap → Cap) : capOf (modCap s i f) i = f (capOf s i) :=
  Store.get_put_same ..

@[simp] theorem capOf_modCap_other (s : State) (i j : Nat) (f : Cap → Cap) (n : j ≠ i) : capOf (modCap s i f) j = capOf s j :=
  Store.get_put_other _ _ _ _ _ n

@[simp] theorem adcOf_modAdc_same (s : State) (i : Nat) (f : Adc → Adc) : adcOf (modAdc s i f) i = f (adcOf s i) :=
  Store.get_put_same ..

@[simp] theorem adcOf_modAdc_other (s : State) (i j : Nat) (f : Adc → Adc) (n : j ≠ i) : adcOf (modAdc s i f) j = adcOf s j :=
  Store.get_put_other _ _ _ _ _ n

@[simp] theorem crcCtx_modCrcCtx_same (s : State) (i : Nat) (f : CrcCtx → CrcCtx) : crcCtx (modCrcCtx s i f) i = f (crcCtx s i) :=
  Store.get_put_same ..

@[simp] theorem crcCtx_modCrcCtx_other (s : State) (i j : Nat) (f : CrcCtx → CrcCtx) (n : j ≠ i) : crcCtx (modCrcCtx s i f) j = crcCtx s j :=
  Store.get_put_other _ _ _ _ _ n

@[simp] theorem tileOf_modTile_same (s : State) (h : Head) (i : Nat) (f : Tile → Tile) :
    tileOf (modTile s h i f) h i = f (tileOf s h i) := by
  simp [tileOf]

@[simp] theorem tileOf_modTile_other (s : State) (h : Head) (i j : Nat) (f : Tile → Tile) (n : j ≠ i) :
    tileOf (modTile s h i f) h j = tileOf s h j := by
  simp [tileOf, n]

@[simp] theorem slotOf_modSlot_same (s : State) (h : Head) (i : Nat) (f : Slot → Slot) :
    slotOf (modSlot s h i f) h i = f (slotOf s h i) := by
  simp [slotOf]

@[simp] theorem slotOf_modSlot_other (s : State) (h : Head) (i j : Nat) (f : Slot → Slot) (n : j ≠ i) :
    slotOf (modSlot s h i f) h j = slotOf s h j := by
  simp [slotOf, n]

@[simp] theorem getReg_setReg_same (s : State) (i : Nat) (v : Word) : getReg (setReg s i v) i = v := Store.get_put_same ..

@[simp] theorem getReg_setReg_other (s : State) (i j : Nat) (v : Word) (n : j ≠ i) : getReg (setReg s i v) j = getReg s j :=
  Store.get_put_other _ _ _ _ _ n

@[simp] theorem memGet_memPut_same (s : State) (a : Nat) (v : Byte) : memGet (memPut s a v) a = v := Store.get_put_same ..

@[simp] theorem memGet_memPut_other (s : State) (a b : Nat) (v : Byte) (n : b ≠ a) : memGet (memPut s a v) b = memGet s b :=
  Store.get_put_other _ _ _ _ _ n

/-- A write of bytes leaves every byte outside it alone. -/
theorem memGet_memWrite_other (s : State) (a b : Nat) (bs : List Byte) (n : b < a ∨ a + bs.length ≤ b) :
    memGet (memWrite s a bs) b = memGet s b := Store.get_putList_other _ _ _ _ _ n

/-- A byte read where it has just been written. -/
theorem memGet_memWrite_in (s : State) (a i : Nat) (bs : List Byte) (n : i < bs.length) :
    memGet (memWrite s a bs) (a + i) = bs[i] := Store.get_putList_in _ _ _ _ _ n

end Sys2Proof.Machine
end

