-- ==== Sys2Proof/Laws/Shared.lean ====
section
/-! SUPPORT. What the shared operations leave alone, field by field: raising a fault, the levels of the sources, the
safety state that follows, waking, and writing a record. -/

namespace Sys2Proof.Machine

@[simp] theorem drawBelow_fields (s : State) (n : Nat) :
    (drawBelow s n).2.pending = s.pending ∧ (drawBelow s n).2.out = s.out ∧ (drawBelow s n).2.regs = s.regs
      ∧ (drawBelow s n).2.tableBad = s.tableBad ∧ (drawBelow s n).2.mem = s.mem ∧ (drawBelow s n).2.flt = s.flt
      ∧ (drawBelow s n).2.saf = s.saf ∧ (drawBelow s n).2.rst = s.rst ∧ (drawBelow s n).2.pwr = s.pwr
      ∧ (drawBelow s n).2.rng = s.rng ∧ (drawBelow s n).2.hif = s.hif ∧ (drawBelow s n).2.crc = s.crc
      ∧ (drawBelow s n).2.glb = s.glb ∧ (drawBelow s n).2.lmm = s.lmm ∧ (drawBelow s n).2.ly = s.ly
      ∧ (drawBelow s n).2.shd = s.shd ∧ (drawBelow s n).2.shdRefused = s.shdRefused
      ∧ (drawBelow s n).2.shdNode = s.shdNode ∧ (drawBelow s n).2.bldEntry = s.bldEntry
      ∧ (drawBelow s n).2.bld = s.bld ∧ (drawBelow s n).2.pxc = s.pxc ∧ (drawBelow s n).2.tg = s.tg
      ∧ (drawBelow s n).2.lanes = s.lanes ∧ (drawBelow s n).2.laneBlocks = s.laneBlocks
      ∧ (drawBelow s n).2.txRd = s.txRd ∧ (drawBelow s n).2.tbl = s.tbl ∧ (drawBelow s n).2.net = s.net
      ∧ (drawBelow s n).2.tim = s.tim ∧ (drawBelow s n).2.cle = s.cle ∧ (drawBelow s n).2.lce = s.lce
      ∧ (drawBelow s n).2.hkp = s.hkp ∧ (drawBelow s n).2.kps = s.kps ∧ (drawBelow s n).2.cbl = s.cbl := by
  unfold drawBelow
  try dsimp only
  repeat' split
  all_goals simp

@[simp] theorem stampAged_fields (s : State) (lo : Nat) (hi : Nat) :
    (stampAged s lo hi).2.pending = s.pending ∧ (stampAged s lo hi).2.out = s.out
      ∧ (stampAged s lo hi).2.regs = s.regs ∧ (stampAged s lo hi).2.tableBad = s.tableBad
      ∧ (stampAged s lo hi).2.mem = s.mem ∧ (stampAged s lo hi).2.flt = s.flt ∧ (stampAged s lo hi).2.saf = s.saf
      ∧ (stampAged s lo hi).2.rst = s.rst ∧ (stampAged s lo hi).2.pwr = s.pwr ∧ (stampAged s lo hi).2.rng = s.rng
      ∧ (stampAged s lo hi).2.hif = s.hif ∧ (stampAged s lo hi).2.crc = s.crc ∧ (stampAged s lo hi).2.glb = s.glb
      ∧ (stampAged s lo hi).2.lmm = s.lmm ∧ (stampAged s lo hi).2.ly = s.ly ∧ (stampAged s lo hi).2.shd = s.shd
      ∧ (stampAged s lo hi).2.shdRefused = s.shdRefused ∧ (stampAged s lo hi).2.shdNode = s.shdNode
      ∧ (stampAged s lo hi).2.bldEntry = s.bldEntry ∧ (stampAged s lo hi).2.bld = s.bld
      ∧ (stampAged s lo hi).2.pxc = s.pxc ∧ (stampAged s lo hi).2.tg = s.tg ∧ (stampAged s lo hi).2.lanes = s.lanes
      ∧ (stampAged s lo hi).2.laneBlocks = s.laneBlocks ∧ (stampAged s lo hi).2.txRd = s.txRd
      ∧ (stampAged s lo hi).2.tbl = s.tbl ∧ (stampAged s lo hi).2.net = s.net ∧ (stampAged s lo hi).2.tim = s.tim
      ∧ (stampAged s lo hi).2.cle = s.cle ∧ (stampAged s lo hi).2.lce = s.lce ∧ (stampAged s lo hi).2.hkp = s.hkp
      ∧ (stampAged s lo hi).2.kps = s.kps ∧ (stampAged s lo hi).2.cbl = s.cbl := by
  unfold stampAged
  try dsimp only
  repeat' split
  all_goals simp

@[simp] theorem stampCore_fields (s : State) :
    (stampCore s).2.pending = s.pending ∧ (stampCore s).2.out = s.out ∧ (stampCore s).2.regs = s.regs
      ∧ (stampCore s).2.tableBad = s.tableBad ∧ (stampCore s).2.mem = s.mem ∧ (stampCore s).2.flt = s.flt
      ∧ (stampCore s).2.saf = s.saf ∧ (stampCore s).2.rst = s.rst ∧ (stampCore s).2.pwr = s.pwr
      ∧ (stampCore s).2.rng = s.rng ∧ (stampCore s).2.hif = s.hif ∧ (stampCore s).2.crc = s.crc
      ∧ (stampCore s).2.glb = s.glb ∧ (stampCore s).2.lmm = s.lmm ∧ (stampCore s).2.ly = s.ly
      ∧ (stampCore s).2.shd = s.shd ∧ (stampCore s).2.shdRefused = s.shdRefused ∧ (stampCore s).2.shdNode = s.shdNode
      ∧ (stampCore s).2.bldEntry = s.bldEntry ∧ (stampCore s).2.bld = s.bld ∧ (stampCore s).2.pxc = s.pxc
      ∧ (stampCore s).2.tg = s.tg ∧ (stampCore s).2.lanes = s.lanes ∧ (stampCore s).2.laneBlocks = s.laneBlocks
      ∧ (stampCore s).2.txRd = s.txRd ∧ (stampCore s).2.tbl = s.tbl ∧ (stampCore s).2.net = s.net
      ∧ (stampCore s).2.tim = s.tim ∧ (stampCore s).2.cle = s.cle ∧ (stampCore s).2.lce = s.lce
      ∧ (stampCore s).2.hkp = s.hkp ∧ (stampCore s).2.kps = s.kps ∧ (stampCore s).2.cbl = s.cbl := by
  unfold stampCore
  try dsimp only
  repeat' split
  all_goals simp

@[simp] theorem stampHost_fields (s : State) :
    (stampHost s).2.pending = s.pending ∧ (stampHost s).2.out = s.out ∧ (stampHost s).2.regs = s.regs
      ∧ (stampHost s).2.tableBad = s.tableBad ∧ (stampHost s).2.mem = s.mem ∧ (stampHost s).2.flt = s.flt
      ∧ (stampHost s).2.saf = s.saf ∧ (stampHost s).2.rst = s.rst ∧ (stampHost s).2.pwr = s.pwr
      ∧ (stampHost s).2.rng = s.rng ∧ (stampHost s).2.hif = s.hif ∧ (stampHost s).2.crc = s.crc
      ∧ (stampHost s).2.glb = s.glb ∧ (stampHost s).2.lmm = s.lmm ∧ (stampHost s).2.ly = s.ly
      ∧ (stampHost s).2.shd = s.shd ∧ (stampHost s).2.shdRefused = s.shdRefused ∧ (stampHost s).2.shdNode = s.shdNode
      ∧ (stampHost s).2.bldEntry = s.bldEntry ∧ (stampHost s).2.bld = s.bld ∧ (stampHost s).2.pxc = s.pxc
      ∧ (stampHost s).2.tg = s.tg ∧ (stampHost s).2.lanes = s.lanes ∧ (stampHost s).2.laneBlocks = s.laneBlocks
      ∧ (stampHost s).2.txRd = s.txRd ∧ (stampHost s).2.tbl = s.tbl ∧ (stampHost s).2.net = s.net
      ∧ (stampHost s).2.tim = s.tim ∧ (stampHost s).2.cle = s.cle ∧ (stampHost s).2.lce = s.lce
      ∧ (stampHost s).2.hkp = s.hkp ∧ (stampHost s).2.kps = s.kps ∧ (stampHost s).2.cbl = s.cbl := by
  unfold stampHost
  try dsimp only
  repeat' split
  all_goals simp

@[simp] theorem beginExit_fields (s : State) (bits : Word) :
    (beginExit s bits).pending = s.pending ∧ (beginExit s bits).out = s.out ∧ (beginExit s bits).free = s.free
      ∧ (beginExit s bits).regs = s.regs ∧ (beginExit s bits).tableBad = s.tableBad ∧ (beginExit s bits).mem = s.mem
      ∧ (beginExit s bits).flt = s.flt ∧ (beginExit s bits).saf = s.saf ∧ (beginExit s bits).rst = s.rst
      ∧ (beginExit s bits).rng = s.rng ∧ (beginExit s bits).hif = s.hif ∧ (beginExit s bits).crc = s.crc
      ∧ (beginExit s bits).glb = s.glb ∧ (beginExit s bits).lmm = s.lmm ∧ (beginExit s bits).ly = s.ly
      ∧ (beginExit s bits).shd = s.shd ∧ (beginExit s bits).shdRefused = s.shdRefused
      ∧ (beginExit s bits).shdNode = s.shdNode ∧ (beginExit s bits).bldEntry = s.bldEntry
      ∧ (beginExit s bits).bld = s.bld ∧ (beginExit s bits).pxc = s.pxc ∧ (beginExit s bits).tg = s.tg
      ∧ (beginExit s bits).lanes = s.lanes ∧ (beginExit s bits).laneBlocks = s.laneBlocks
      ∧ (beginExit s bits).txRd = s.txRd ∧ (beginExit s bits).tbl = s.tbl ∧ (beginExit s bits).net = s.net
      ∧ (beginExit s bits).tim = s.tim ∧ (beginExit s bits).cle = s.cle ∧ (beginExit s bits).lce = s.lce
      ∧ (beginExit s bits).hkp = s.hkp ∧ (beginExit s bits).kps = s.kps ∧ (beginExit s bits).cbl = s.cbl := by
  unfold beginExit
  try dsimp only
  repeat' split
  all_goals simp

@[simp] theorem lanesReturn_fields (s : State) :
    (lanesReturn s).pending = s.pending ∧ (lanesReturn s).out = s.out ∧ (lanesReturn s).free = s.free
      ∧ (lanesReturn s).regs = s.regs ∧ (lanesReturn s).tableBad = s.tableBad ∧ (lanesReturn s).mem = s.mem
      ∧ (lanesReturn s).flt = s.flt ∧ (lanesReturn s).saf = s.saf ∧ (lanesReturn s).rst = s.rst
      ∧ (lanesReturn s).rng = s.rng ∧ (lanesReturn s).hif = s.hif ∧ (lanesReturn s).crc = s.crc
      ∧ (lanesReturn s).glb = s.glb ∧ (lanesReturn s).lmm = s.lmm ∧ (lanesReturn s).ly = s.ly
      ∧ (lanesReturn s).shd = s.shd ∧ (lanesReturn s).shdRefused = s.shdRefused ∧ (lanesReturn s).shdNode = s.shdNode
      ∧ (lanesReturn s).bldEntry = s.bldEntry ∧ (lanesReturn s).bld = s.bld ∧ (lanesReturn s).pxc = s.pxc
      ∧ (lanesReturn s).tg = s.tg ∧ (lanesReturn s).laneBlocks = s.laneBlocks ∧ (lanesReturn s).txRd = s.txRd
      ∧ (lanesReturn s).tbl = s.tbl ∧ (lanesReturn s).net = s.net ∧ (lanesReturn s).tim = s.tim
      ∧ (lanesReturn s).cle = s.cle ∧ (lanesReturn s).lce = s.lce ∧ (lanesReturn s).hkp = s.hkp
      ∧ (lanesReturn s).kps = s.kps ∧ (lanesReturn s).cbl = s.cbl := by
  unfold lanesReturn
  refine ⟨by simp [foldl_keep (fun s => s.pending)],
    by simp [foldl_keep (fun s => s.out)],
    by simp [foldl_keep (fun s => s.free)],
    by simp [foldl_keep (fun s => s.regs)],
    by simp [foldl_keep (fun s => s.tableBad)],
    by simp [foldl_keep (fun s => s.mem)],
    by simp [foldl_keep (fun s => s.flt)],
    by simp [foldl_keep (fun s => s.saf)],
    by simp [foldl_keep (fun s => s.rst)],
    by simp [foldl_keep (fun s => s.rng)],
    by simp [foldl_keep (fun s => s.hif)],
    by simp [foldl_keep (fun s => s.crc)],
    by simp [foldl_keep (fun s => s.glb)],
    by simp [foldl_keep (fun s => s.lmm)],
    by simp [foldl_keep (fun s => s.ly)],
    by simp [foldl_keep (fun s => s.shd)],
    by simp [foldl_keep (fun s => s.shdRefused)],
    by simp [foldl_keep (fun s => s.shdNode)],
    by simp [foldl_keep (fun s => s.bldEntry)],
    by simp [foldl_keep (fun s => s.bld)],
    by simp [foldl_keep (fun s => s.pxc)],
    by simp [foldl_keep (fun s => s.tg)],
    by simp [foldl_keep (fun s => s.laneBlocks)],
    by simp [foldl_keep (fun s => s.txRd)],
    by simp [foldl_keep (fun s => s.tbl)],
    by simp [foldl_keep (fun s => s.net)],
    by simp [foldl_keep (fun s => s.tim)],
    by simp [foldl_keep (fun s => s.cle)],
    by simp [foldl_keep (fun s => s.lce)],
    by simp [foldl_keep (fun s => s.hkp)],
    by simp [foldl_keep (fun s => s.kps)],
    by simp [foldl_keep (fun s => s.cbl)]⟩

@[simp] theorem abortEntry_fields (s : State) :
    (abortEntry s).pending = s.pending ∧ (abortEntry s).out = s.out ∧ (abortEntry s).free = s.free
      ∧ (abortEntry s).regs = s.regs ∧ (abortEntry s).tableBad = s.tableBad ∧ (abortEntry s).mem = s.mem
      ∧ (abortEntry s).flt = s.flt ∧ (abortEntry s).saf = s.saf ∧ (abortEntry s).rst = s.rst
      ∧ (abortEntry s).rng = s.rng ∧ (abortEntry s).hif = s.hif ∧ (abortEntry s).crc = s.crc
      ∧ (abortEntry s).glb = s.glb ∧ (abortEntry s).lmm = s.lmm ∧ (abortEntry s).ly = s.ly
      ∧ (abortEntry s).shd = s.shd ∧ (abortEntry s).shdRefused = s.shdRefused ∧ (abortEntry s).shdNode = s.shdNode
      ∧ (abortEntry s).bldEntry = s.bldEntry ∧ (abortEntry s).bld = s.bld ∧ (abortEntry s).pxc = s.pxc
      ∧ (abortEntry s).tg = s.tg ∧ (abortEntry s).laneBlocks = s.laneBlocks ∧ (abortEntry s).txRd = s.txRd
      ∧ (abortEntry s).tbl = s.tbl ∧ (abortEntry s).net = s.net ∧ (abortEntry s).tim = s.tim
      ∧ (abortEntry s).cle = s.cle ∧ (abortEntry s).lce = s.lce ∧ (abortEntry s).hkp = s.hkp
      ∧ (abortEntry s).kps = s.kps ∧ (abortEntry s).cbl = s.cbl := by
  unfold abortEntry
  try dsimp only
  repeat' split
  all_goals simp

@[simp] theorem entryWakes_fields (s : State) (bits : Word) :
    (entryWakes s bits).pending = s.pending ∧ (entryWakes s bits).out = s.out ∧ (entryWakes s bits).free = s.free
      ∧ (entryWakes s bits).regs = s.regs ∧ (entryWakes s bits).tableBad = s.tableBad
      ∧ (entryWakes s bits).mem = s.mem ∧ (entryWakes s bits).flt = s.flt ∧ (entryWakes s bits).saf = s.saf
      ∧ (entryWakes s bits).rst = s.rst ∧ (entryWakes s bits).rng = s.rng ∧ (entryWakes s bits).hif = s.hif
      ∧ (entryWakes s bits).crc = s.crc ∧ (entryWakes s bits).glb = s.glb ∧ (entryWakes s bits).lmm = s.lmm
      ∧ (entryWakes s bits).ly = s.ly ∧ (entryWakes s bits).shd = s.shd
      ∧ (entryWakes s bits).shdRefused = s.shdRefused ∧ (entryWakes s bits).shdNode = s.shdNode
      ∧ (entryWakes s bits).bldEntry = s.bldEntry ∧ (entryWakes s bits).bld = s.bld ∧ (entryWakes s bits).pxc = s.pxc
      ∧ (entryWakes s bits).tg = s.tg ∧ (entryWakes s bits).laneBlocks = s.laneBlocks
      ∧ (entryWakes s bits).txRd = s.txRd ∧ (entryWakes s bits).tbl = s.tbl ∧ (entryWakes s bits).net = s.net
      ∧ (entryWakes s bits).tim = s.tim ∧ (entryWakes s bits).cle = s.cle ∧ (entryWakes s bits).lce = s.lce
      ∧ (entryWakes s bits).hkp = s.hkp ∧ (entryWakes s bits).kps = s.kps ∧ (entryWakes s bits).cbl = s.cbl := by
  unfold entryWakes
  try dsimp only
  repeat' split
  all_goals simp

@[simp] theorem wake_fields (s : State) (b : Nat) :
    (wake s b).pending = s.pending ∧ (wake s b).out = s.out ∧ (wake s b).free = s.free ∧ (wake s b).regs = s.regs
      ∧ (wake s b).tableBad = s.tableBad ∧ (wake s b).mem = s.mem ∧ (wake s b).flt = s.flt ∧ (wake s b).saf = s.saf
      ∧ (wake s b).rst = s.rst ∧ (wake s b).rng = s.rng ∧ (wake s b).hif = s.hif ∧ (wake s b).crc = s.crc
      ∧ (wake s b).glb = s.glb ∧ (wake s b).lmm = s.lmm ∧ (wake s b).ly = s.ly ∧ (wake s b).shd = s.shd
      ∧ (wake s b).shdRefused = s.shdRefused ∧ (wake s b).shdNode = s.shdNode ∧ (wake s b).bldEntry = s.bldEntry
      ∧ (wake s b).bld = s.bld ∧ (wake s b).pxc = s.pxc ∧ (wake s b).tg = s.tg ∧ (wake s b).laneBlocks = s.laneBlocks
      ∧ (wake s b).txRd = s.txRd ∧ (wake s b).tbl = s.tbl ∧ (wake s b).net = s.net ∧ (wake s b).tim = s.tim
      ∧ (wake s b).cle = s.cle ∧ (wake s b).lce = s.lce ∧ (wake s b).hkp = s.hkp ∧ (wake s b).kps = s.kps
      ∧ (wake s b).cbl = s.cbl := by
  unfold wake
  try dsimp only
  repeat' split
  all_goals simp

@[simp] theorem linkWakes_fields (s : State) :
    (linkWakes s).pending = s.pending ∧ (linkWakes s).out = s.out ∧ (linkWakes s).free = s.free
      ∧ (linkWakes s).regs = s.regs ∧ (linkWakes s).tableBad = s.tableBad ∧ (linkWakes s).mem = s.mem
      ∧ (linkWakes s).flt = s.flt ∧ (linkWakes s).saf = s.saf ∧ (linkWakes s).rst = s.rst ∧ (linkWakes s).pwr = s.pwr
      ∧ (linkWakes s).rng = s.rng ∧ (linkWakes s).crc = s.crc ∧ (linkWakes s).glb = s.glb ∧ (linkWakes s).lmm = s.lmm
      ∧ (linkWakes s).ly = s.ly ∧ (linkWakes s).shd = s.shd ∧ (linkWakes s).shdRefused = s.shdRefused
      ∧ (linkWakes s).shdNode = s.shdNode ∧ (linkWakes s).bldEntry = s.bldEntry ∧ (linkWakes s).bld = s.bld
      ∧ (linkWakes s).pxc = s.pxc ∧ (linkWakes s).tg = s.tg ∧ (linkWakes s).lanes = s.lanes
      ∧ (linkWakes s).laneBlocks = s.laneBlocks ∧ (linkWakes s).txRd = s.txRd ∧ (linkWakes s).tbl = s.tbl
      ∧ (linkWakes s).net = s.net ∧ (linkWakes s).tim = s.tim ∧ (linkWakes s).cle = s.cle ∧ (linkWakes s).lce = s.lce
      ∧ (linkWakes s).hkp = s.hkp ∧ (linkWakes s).kps = s.kps ∧ (linkWakes s).cbl = s.cbl := by
  unfold linkWakes
  try dsimp only
  repeat' split
  all_goals simp

@[simp] theorem postWrite_fields (s : State) (addr : Nat) (bytes : List Byte) :
    (postWrite s addr bytes).pending = s.pending ∧ (postWrite s addr bytes).free = s.free
      ∧ (postWrite s addr bytes).regs = s.regs ∧ (postWrite s addr bytes).tableBad = s.tableBad
      ∧ (postWrite s addr bytes).mem = s.mem ∧ (postWrite s addr bytes).flt = s.flt
      ∧ (postWrite s addr bytes).saf = s.saf ∧ (postWrite s addr bytes).rst = s.rst
      ∧ (postWrite s addr bytes).pwr = s.pwr ∧ (postWrite s addr bytes).rng = s.rng
      ∧ (postWrite s addr bytes).crc = s.crc ∧ (postWrite s addr bytes).glb = s.glb
      ∧ (postWrite s addr bytes).lmm = s.lmm ∧ (postWrite s addr bytes).ly = s.ly
      ∧ (postWrite s addr bytes).shd = s.shd ∧ (postWrite s addr bytes).shdRefused = s.shdRefused
      ∧ (postWrite s addr bytes).shdNode = s.shdNode ∧ (postWrite s addr bytes).bldEntry = s.bldEntry
      ∧ (postWrite s addr bytes).bld = s.bld ∧ (postWrite s addr bytes).pxc = s.pxc
      ∧ (postWrite s addr bytes).tg = s.tg ∧ (postWrite s addr bytes).lanes = s.lanes
      ∧ (postWrite s addr bytes).laneBlocks = s.laneBlocks ∧ (postWrite s addr bytes).txRd = s.txRd
      ∧ (postWrite s addr bytes).tbl = s.tbl ∧ (postWrite s addr bytes).net = s.net
      ∧ (postWrite s addr bytes).tim = s.tim ∧ (postWrite s addr bytes).cle = s.cle
      ∧ (postWrite s addr bytes).lce = s.lce ∧ (postWrite s addr bytes).hkp = s.hkp
      ∧ (postWrite s addr bytes).kps = s.kps ∧ (postWrite s addr bytes).cbl = s.cbl := by
  unfold postWrite
  try dsimp only
  repeat' split
  all_goals simp

@[simp] theorem signalMsix_fields (s : State) (v : Nat) :
    (signalMsix s v).pending = s.pending ∧ (signalMsix s v).free = s.free ∧ (signalMsix s v).regs = s.regs
      ∧ (signalMsix s v).tableBad = s.tableBad ∧ (signalMsix s v).mem = s.mem ∧ (signalMsix s v).flt = s.flt
      ∧ (signalMsix s v).saf = s.saf ∧ (signalMsix s v).rst = s.rst ∧ (signalMsix s v).pwr = s.pwr
      ∧ (signalMsix s v).rng = s.rng ∧ (signalMsix s v).crc = s.crc ∧ (signalMsix s v).glb = s.glb
      ∧ (signalMsix s v).lmm = s.lmm ∧ (signalMsix s v).ly = s.ly ∧ (signalMsix s v).shd = s.shd
      ∧ (signalMsix s v).shdRefused = s.shdRefused ∧ (signalMsix s v).shdNode = s.shdNode
      ∧ (signalMsix s v).bldEntry = s.bldEntry ∧ (signalMsix s v).bld = s.bld ∧ (signalMsix s v).pxc = s.pxc
      ∧ (signalMsix s v).tg = s.tg ∧ (signalMsix s v).lanes = s.lanes ∧ (signalMsix s v).laneBlocks = s.laneBlocks
      ∧ (signalMsix s v).txRd = s.txRd ∧ (signalMsix s v).tbl = s.tbl ∧ (signalMsix s v).net = s.net
      ∧ (signalMsix s v).tim = s.tim ∧ (signalMsix s v).cle = s.cle ∧ (signalMsix s v).lce = s.lce
      ∧ (signalMsix s v).hkp = s.hkp ∧ (signalMsix s v).kps = s.kps ∧ (signalMsix s v).cbl = s.cbl := by
  unfold signalMsix
  try dsimp only
  repeat' split
  all_goals simp

@[simp] theorem streamSettle_fields (s : State) (l : Nat) :
    (streamSettle s l).pending = s.pending ∧ (streamSettle s l).free = s.free ∧ (streamSettle s l).regs = s.regs
      ∧ (streamSettle s l).tableBad = s.tableBad ∧ (streamSettle s l).mem = s.mem ∧ (streamSettle s l).flt = s.flt
      ∧ (streamSettle s l).saf = s.saf ∧ (streamSettle s l).rst = s.rst ∧ (streamSettle s l).pwr = s.pwr
      ∧ (streamSettle s l).rng = s.rng ∧ (streamSettle s l).hif = s.hif ∧ (streamSettle s l).crc = s.crc
      ∧ (streamSettle s l).glb = s.glb ∧ (streamSettle s l).lmm = s.lmm ∧ (streamSettle s l).ly = s.ly
      ∧ (streamSettle s l).shd = s.shd ∧ (streamSettle s l).shdRefused = s.shdRefused
      ∧ (streamSettle s l).shdNode = s.shdNode ∧ (streamSettle s l).bldEntry = s.bldEntry
      ∧ (streamSettle s l).bld = s.bld ∧ (streamSettle s l).pxc = s.pxc ∧ (streamSettle s l).tg = s.tg
      ∧ (streamSettle s l).laneBlocks = s.laneBlocks ∧ (streamSettle s l).tbl = s.tbl ∧ (streamSettle s l).net = s.net
      ∧ (streamSettle s l).tim = s.tim ∧ (streamSettle s l).cle = s.cle ∧ (streamSettle s l).lce = s.lce
      ∧ (streamSettle s l).hkp = s.hkp ∧ (streamSettle s l).kps = s.kps ∧ (streamSettle s l).cbl = s.cbl := by
  unfold streamSettle
  try dsimp only
  repeat' split
  all_goals simp

@[simp] theorem sendGroups_fields (s : State) (l : Nat) (gs : List Group) :
    (sendGroups s l gs).pending = s.pending ∧ (sendGroups s l gs).free = s.free ∧ (sendGroups s l gs).regs = s.regs
      ∧ (sendGroups s l gs).tableBad = s.tableBad ∧ (sendGroups s l gs).mem = s.mem ∧ (sendGroups s l gs).flt = s.flt
      ∧ (sendGroups s l gs).saf = s.saf ∧ (sendGroups s l gs).rst = s.rst ∧ (sendGroups s l gs).pwr = s.pwr
      ∧ (sendGroups s l gs).rng = s.rng ∧ (sendGroups s l gs).hif = s.hif ∧ (sendGroups s l gs).crc = s.crc
      ∧ (sendGroups s l gs).glb = s.glb ∧ (sendGroups s l gs).lmm = s.lmm ∧ (sendGroups s l gs).ly = s.ly
      ∧ (sendGroups s l gs).shd = s.shd ∧ (sendGroups s l gs).shdRefused = s.shdRefused
      ∧ (sendGroups s l gs).shdNode = s.shdNode ∧ (sendGroups s l gs).bldEntry = s.bldEntry
      ∧ (sendGroups s l gs).bld = s.bld ∧ (sendGroups s l gs).pxc = s.pxc ∧ (sendGroups s l gs).tg = s.tg
      ∧ (sendGroups s l gs).lanes = s.lanes ∧ (sendGroups s l gs).laneBlocks = s.laneBlocks
      ∧ (sendGroups s l gs).txRd = s.txRd ∧ (sendGroups s l gs).tbl = s.tbl ∧ (sendGroups s l gs).net = s.net
      ∧ (sendGroups s l gs).tim = s.tim ∧ (sendGroups s l gs).cle = s.cle ∧ (sendGroups s l gs).lce = s.lce
      ∧ (sendGroups s l gs).hkp = s.hkp ∧ (sendGroups s l gs).kps = s.kps ∧ (sendGroups s l gs).cbl = s.cbl := by
  unfold sendGroups
  try dsimp only
  repeat' split
  all_goals simp

@[simp] theorem startRd_fields (s : State) (l : Nat) :
    (startRd s l).2.pending = s.pending ∧ (startRd s l).2.out = s.out ∧ (startRd s l).2.regs = s.regs
      ∧ (startRd s l).2.tableBad = s.tableBad ∧ (startRd s l).2.mem = s.mem ∧ (startRd s l).2.flt = s.flt
      ∧ (startRd s l).2.saf = s.saf ∧ (startRd s l).2.rst = s.rst ∧ (startRd s l).2.pwr = s.pwr
      ∧ (startRd s l).2.rng = s.rng ∧ (startRd s l).2.hif = s.hif ∧ (startRd s l).2.crc = s.crc
      ∧ (startRd s l).2.glb = s.glb ∧ (startRd s l).2.lmm = s.lmm ∧ (startRd s l).2.ly = s.ly
      ∧ (startRd s l).2.shd = s.shd ∧ (startRd s l).2.shdRefused = s.shdRefused ∧ (startRd s l).2.shdNode = s.shdNode
      ∧ (startRd s l).2.bldEntry = s.bldEntry ∧ (startRd s l).2.bld = s.bld ∧ (startRd s l).2.pxc = s.pxc
      ∧ (startRd s l).2.tg = s.tg ∧ (startRd s l).2.lanes = s.lanes ∧ (startRd s l).2.laneBlocks = s.laneBlocks
      ∧ (startRd s l).2.txRd = s.txRd ∧ (startRd s l).2.tbl = s.tbl ∧ (startRd s l).2.net = s.net
      ∧ (startRd s l).2.tim = s.tim ∧ (startRd s l).2.cle = s.cle ∧ (startRd s l).2.lce = s.lce
      ∧ (startRd s l).2.hkp = s.hkp ∧ (startRd s l).2.kps = s.kps ∧ (startRd s l).2.cbl = s.cbl := by
  unfold startRd
  try dsimp only
  repeat' split
  all_goals simp

@[simp] theorem sendSymbols_fields (s : State) (l : Nat) (ys : List Symbol) :
    (sendSymbols s l ys).pending = s.pending ∧ (sendSymbols s l ys).regs = s.regs
      ∧ (sendSymbols s l ys).tableBad = s.tableBad ∧ (sendSymbols s l ys).mem = s.mem
      ∧ (sendSymbols s l ys).flt = s.flt ∧ (sendSymbols s l ys).saf = s.saf ∧ (sendSymbols s l ys).rst = s.rst
      ∧ (sendSymbols s l ys).pwr = s.pwr ∧ (sendSymbols s l ys).rng = s.rng ∧ (sendSymbols s l ys).hif = s.hif
      ∧ (sendSymbols s l ys).crc = s.crc ∧ (sendSymbols s l ys).glb = s.glb ∧ (sendSymbols s l ys).lmm = s.lmm
      ∧ (sendSymbols s l ys).ly = s.ly ∧ (sendSymbols s l ys).shd = s.shd
      ∧ (sendSymbols s l ys).shdRefused = s.shdRefused ∧ (sendSymbols s l ys).shdNode = s.shdNode
      ∧ (sendSymbols s l ys).bldEntry = s.bldEntry ∧ (sendSymbols s l ys).bld = s.bld
      ∧ (sendSymbols s l ys).pxc = s.pxc ∧ (sendSymbols s l ys).tg = s.tg
      ∧ (sendSymbols s l ys).laneBlocks = s.laneBlocks ∧ (sendSymbols s l ys).tbl = s.tbl
      ∧ (sendSymbols s l ys).net = s.net ∧ (sendSymbols s l ys).tim = s.tim ∧ (sendSymbols s l ys).cle = s.cle
      ∧ (sendSymbols s l ys).lce = s.lce ∧ (sendSymbols s l ys).hkp = s.hkp ∧ (sendSymbols s l ys).kps = s.kps
      ∧ (sendSymbols s l ys).cbl = s.cbl := by
  unfold sendSymbols
  try dsimp only
  repeat' split
  all_goals simp

@[simp] theorem sendLanes_fields (s : State) (h : Head) (c : LaneCmd) :
    (sendLanes s h c).pending = s.pending ∧ (sendLanes s h c).regs = s.regs ∧ (sendLanes s h c).tableBad = s.tableBad
      ∧ (sendLanes s h c).mem = s.mem ∧ (sendLanes s h c).flt = s.flt ∧ (sendLanes s h c).saf = s.saf
      ∧ (sendLanes s h c).rst = s.rst ∧ (sendLanes s h c).pwr = s.pwr ∧ (sendLanes s h c).rng = s.rng
      ∧ (sendLanes s h c).hif = s.hif ∧ (sendLanes s h c).crc = s.crc ∧ (sendLanes s h c).glb = s.glb
      ∧ (sendLanes s h c).lmm = s.lmm ∧ (sendLanes s h c).ly = s.ly ∧ (sendLanes s h c).shd = s.shd
      ∧ (sendLanes s h c).shdRefused = s.shdRefused ∧ (sendLanes s h c).shdNode = s.shdNode
      ∧ (sendLanes s h c).bldEntry = s.bldEntry ∧ (sendLanes s h c).bld = s.bld ∧ (sendLanes s h c).pxc = s.pxc
      ∧ (sendLanes s h c).tg = s.tg ∧ (sendLanes s h c).laneBlocks = s.laneBlocks ∧ (sendLanes s h c).tbl = s.tbl
      ∧ (sendLanes s h c).net = s.net ∧ (sendLanes s h c).tim = s.tim ∧ (sendLanes s h c).cle = s.cle
      ∧ (sendLanes s h c).lce = s.lce ∧ (sendLanes s h c).hkp = s.hkp ∧ (sendLanes s h c).kps = s.kps
      ∧ (sendLanes s h c).cbl = s.cbl := by
  unfold sendLanes
  split
  · refine ⟨by simp [foldl_keep (fun s => s.pending)],
    by simp [foldl_keep (fun s => s.regs)],
    by simp [foldl_keep (fun s => s.tableBad)],
    by simp [foldl_keep (fun s => s.mem)],
    by simp [foldl_keep (fun s => s.flt)],
    by simp [foldl_keep (fun s => s.saf)],
    by simp [foldl_keep (fun s => s.rst)],
    by simp [foldl_keep (fun s => s.pwr)],
    by simp [foldl_keep (fun s => s.rng)],
    by simp [foldl_keep (fun s => s.hif)],
    by simp [foldl_keep (fun s => s.crc)],
    by simp [foldl_keep (fun s => s.glb)],
    by simp [foldl_keep (fun s => s.lmm)],
    by simp [foldl_keep (fun s => s.ly)],
    by simp [foldl_keep (fun s => s.shd)],
    by simp [foldl_keep (fun s => s.shdRefused)],
    by simp [foldl_keep (fun s => s.shdNode)],
    by simp [foldl_keep (fun s => s.bldEntry)],
    by simp [foldl_keep (fun s => s.bld)],
    by simp [foldl_keep (fun s => s.pxc)],
    by simp [foldl_keep (fun s => s.tg)],
    by simp [foldl_keep (fun s => s.laneBlocks)],
    by simp [foldl_keep (fun s => s.tbl)],
    by simp [foldl_keep (fun s => s.net)],
    by simp [foldl_keep (fun s => s.tim)],
    by simp [foldl_keep (fun s => s.cle)],
    by simp [foldl_keep (fun s => s.lce)],
    by simp [foldl_keep (fun s => s.hkp)],
    by simp [foldl_keep (fun s => s.kps)],
    by simp [foldl_keep (fun s => s.cbl)]⟩
  · simp

@[simp] theorem sendFour_fields (s : State) (h : Head) (c : LaneCmd) :
    (sendFour s h c).pending = s.pending ∧ (sendFour s h c).regs = s.regs ∧ (sendFour s h c).tableBad = s.tableBad
      ∧ (sendFour s h c).mem = s.mem ∧ (sendFour s h c).flt = s.flt ∧ (sendFour s h c).saf = s.saf
      ∧ (sendFour s h c).rst = s.rst ∧ (sendFour s h c).pwr = s.pwr ∧ (sendFour s h c).rng = s.rng
      ∧ (sendFour s h c).hif = s.hif ∧ (sendFour s h c).crc = s.crc ∧ (sendFour s h c).glb = s.glb
      ∧ (sendFour s h c).lmm = s.lmm ∧ (sendFour s h c).ly = s.ly ∧ (sendFour s h c).shd = s.shd
      ∧ (sendFour s h c).shdRefused = s.shdRefused ∧ (sendFour s h c).shdNode = s.shdNode
      ∧ (sendFour s h c).bldEntry = s.bldEntry ∧ (sendFour s h c).bld = s.bld ∧ (sendFour s h c).pxc = s.pxc
      ∧ (sendFour s h c).tg = s.tg ∧ (sendFour s h c).laneBlocks = s.laneBlocks ∧ (sendFour s h c).tbl = s.tbl
      ∧ (sendFour s h c).net = s.net ∧ (sendFour s h c).tim = s.tim ∧ (sendFour s h c).cle = s.cle
      ∧ (sendFour s h c).lce = s.lce ∧ (sendFour s h c).hkp = s.hkp ∧ (sendFour s h c).kps = s.kps
      ∧ (sendFour s h c).cbl = s.cbl := by
  unfold sendFour
  refine ⟨foldl_keep (fun s => s.pending) _ _ _ (fun s e => by simp),
    foldl_keep (fun s => s.regs) _ _ _ (fun s e => by simp),
    foldl_keep (fun s => s.tableBad) _ _ _ (fun s e => by simp),
    foldl_keep (fun s => s.mem) _ _ _ (fun s e => by simp),
    foldl_keep (fun s => s.flt) _ _ _ (fun s e => by simp),
    foldl_keep (fun s => s.saf) _ _ _ (fun s e => by simp),
    foldl_keep (fun s => s.rst) _ _ _ (fun s e => by simp),
    foldl_keep (fun s => s.pwr) _ _ _ (fun s e => by simp),
    foldl_keep (fun s => s.rng) _ _ _ (fun s e => by simp),
    foldl_keep (fun s => s.hif) _ _ _ (fun s e => by simp),
    foldl_keep (fun s => s.crc) _ _ _ (fun s e => by simp),
    foldl_keep (fun s => s.glb) _ _ _ (fun s e => by simp),
    foldl_keep (fun s => s.lmm) _ _ _ (fun s e => by simp),
    foldl_keep (fun s => s.ly) _ _ _ (fun s e => by simp),
    foldl_keep (fun s => s.shd) _ _ _ (fun s e => by simp),
    foldl_keep (fun s => s.shdRefused) _ _ _ (fun s e => by simp),
    foldl_keep (fun s => s.shdNode) _ _ _ (fun s e => by simp),
    foldl_keep (fun s => s.bldEntry) _ _ _ (fun s e => by simp),
    foldl_keep (fun s => s.bld) _ _ _ (fun s e => by simp),
    foldl_keep (fun s => s.pxc) _ _ _ (fun s e => by simp),
    foldl_keep (fun s => s.tg) _ _ _ (fun s e => by simp),
    foldl_keep (fun s => s.laneBlocks) _ _ _ (fun s e => by simp),
    foldl_keep (fun s => s.tbl) _ _ _ (fun s e => by simp),
    foldl_keep (fun s => s.net) _ _ _ (fun s e => by simp),
    foldl_keep (fun s => s.tim) _ _ _ (fun s e => by simp),
    foldl_keep (fun s => s.cle) _ _ _ (fun s e => by simp),
    foldl_keep (fun s => s.lce) _ _ _ (fun s e => by simp),
    foldl_keep (fun s => s.hkp) _ _ _ (fun s e => by simp),
    foldl_keep (fun s => s.kps) _ _ _ (fun s e => by simp),
    foldl_keep (fun s => s.cbl) _ _ _ (fun s e => by simp)⟩

@[simp] theorem degradeApply_fields (s : State) (h : Head) :
    (degradeApply s h).pending = s.pending ∧ (degradeApply s h).out = s.out ∧ (degradeApply s h).free = s.free
      ∧ (degradeApply s h).regs = s.regs ∧ (degradeApply s h).tableBad = s.tableBad ∧ (degradeApply s h).mem = s.mem
      ∧ (degradeApply s h).flt = s.flt ∧ (degradeApply s h).rst = s.rst ∧ (degradeApply s h).pwr = s.pwr
      ∧ (degradeApply s h).rng = s.rng ∧ (degradeApply s h).hif = s.hif ∧ (degradeApply s h).crc = s.crc
      ∧ (degradeApply s h).glb = s.glb ∧ (degradeApply s h).lmm = s.lmm ∧ (degradeApply s h).ly = s.ly
      ∧ (degradeApply s h).shd = s.shd ∧ (degradeApply s h).shdRefused = s.shdRefused
      ∧ (degradeApply s h).shdNode = s.shdNode ∧ (degradeApply s h).bldEntry = s.bldEntry
      ∧ (degradeApply s h).bld = s.bld ∧ (degradeApply s h).pxc = s.pxc ∧ (degradeApply s h).tg = s.tg
      ∧ (degradeApply s h).lanes = s.lanes ∧ (degradeApply s h).laneBlocks = s.laneBlocks
      ∧ (degradeApply s h).txRd = s.txRd ∧ (degradeApply s h).tbl = s.tbl ∧ (degradeApply s h).net = s.net
      ∧ (degradeApply s h).tim = s.tim ∧ (degradeApply s h).cle = s.cle ∧ (degradeApply s h).lce = s.lce
      ∧ (degradeApply s h).hkp = s.hkp ∧ (degradeApply s h).kps = s.kps ∧ (degradeApply s h).cbl = s.cbl := by
  unfold degradeApply
  try dsimp only
  repeat' split
  all_goals simp

@[simp] theorem headroomApply_fields (s : State) (h : Head) :
    (headroomApply s h).pending = s.pending ∧ (headroomApply s h).out = s.out ∧ (headroomApply s h).free = s.free
      ∧ (headroomApply s h).regs = s.regs ∧ (headroomApply s h).tableBad = s.tableBad
      ∧ (headroomApply s h).mem = s.mem ∧ (headroomApply s h).flt = s.flt ∧ (headroomApply s h).saf = s.saf
      ∧ (headroomApply s h).rst = s.rst ∧ (headroomApply s h).pwr = s.pwr ∧ (headroomApply s h).rng = s.rng
      ∧ (headroomApply s h).hif = s.hif ∧ (headroomApply s h).crc = s.crc ∧ (headroomApply s h).glb = s.glb
      ∧ (headroomApply s h).lmm = s.lmm ∧ (headroomApply s h).ly = s.ly ∧ (headroomApply s h).shd = s.shd
      ∧ (headroomApply s h).shdRefused = s.shdRefused ∧ (headroomApply s h).shdNode = s.shdNode
      ∧ (headroomApply s h).bldEntry = s.bldEntry ∧ (headroomApply s h).pxc = s.pxc ∧ (headroomApply s h).tg = s.tg
      ∧ (headroomApply s h).lanes = s.lanes ∧ (headroomApply s h).laneBlocks = s.laneBlocks
      ∧ (headroomApply s h).txRd = s.txRd ∧ (headroomApply s h).tbl = s.tbl ∧ (headroomApply s h).net = s.net
      ∧ (headroomApply s h).tim = s.tim ∧ (headroomApply s h).cle = s.cle ∧ (headroomApply s h).lce = s.lce
      ∧ (headroomApply s h).hkp = s.hkp ∧ (headroomApply s h).kps = s.kps ∧ (headroomApply s h).cbl = s.cbl := by
  unfold headroomApply
  try dsimp only
  repeat' split
  all_goals simp

@[simp] theorem settleHead_fields (s : State) (h : Head) :
    (settleHead s h).pending = s.pending ∧ (settleHead s h).regs = s.regs ∧ (settleHead s h).tableBad = s.tableBad
      ∧ (settleHead s h).mem = s.mem ∧ (settleHead s h).flt = s.flt ∧ (settleHead s h).rst = s.rst
      ∧ (settleHead s h).rng = s.rng ∧ (settleHead s h).hif = s.hif ∧ (settleHead s h).crc = s.crc
      ∧ (settleHead s h).glb = s.glb ∧ (settleHead s h).lmm = s.lmm ∧ (settleHead s h).ly = s.ly
      ∧ (settleHead s h).shd = s.shd ∧ (settleHead s h).shdRefused = s.shdRefused
      ∧ (settleHead s h).shdNode = s.shdNode ∧ (settleHead s h).bldEntry = s.bldEntry ∧ (settleHead s h).pxc = s.pxc
      ∧ (settleHead s h).tg = s.tg ∧ (settleHead s h).laneBlocks = s.laneBlocks ∧ (settleHead s h).tbl = s.tbl
      ∧ (settleHead s h).net = s.net ∧ (settleHead s h).tim = s.tim ∧ (settleHead s h).cle = s.cle
      ∧ (settleHead s h).lce = s.lce ∧ (settleHead s h).hkp = s.hkp ∧ (settleHead s h).kps = s.kps
      ∧ (settleHead s h).cbl = s.cbl := by
  unfold settleHead
  try dsimp only
  repeat' split
  all_goals simp

@[simp] theorem settle_fields (s : State) :
    (settle s).pending = s.pending ∧ (settle s).regs = s.regs ∧ (settle s).tableBad = s.tableBad
      ∧ (settle s).mem = s.mem ∧ (settle s).flt = s.flt ∧ (settle s).rst = s.rst ∧ (settle s).rng = s.rng
      ∧ (settle s).hif = s.hif ∧ (settle s).crc = s.crc ∧ (settle s).glb = s.glb ∧ (settle s).lmm = s.lmm
      ∧ (settle s).ly = s.ly ∧ (settle s).shd = s.shd ∧ (settle s).shdRefused = s.shdRefused
      ∧ (settle s).shdNode = s.shdNode ∧ (settle s).bldEntry = s.bldEntry ∧ (settle s).pxc = s.pxc
      ∧ (settle s).tg = s.tg ∧ (settle s).laneBlocks = s.laneBlocks ∧ (settle s).tbl = s.tbl ∧ (settle s).net = s.net
      ∧ (settle s).tim = s.tim ∧ (settle s).cle = s.cle ∧ (settle s).lce = s.lce ∧ (settle s).hkp = s.hkp
      ∧ (settle s).kps = s.kps ∧ (settle s).cbl = s.cbl := by
  unfold settle
  try dsimp only
  repeat' split
  all_goals simp

@[simp] theorem raiseInj_fields (s : State) (src : Nat) (named : Nat) (detail : Nat) (injected : Bool) :
    (raiseInj s src named detail injected).pending = s.pending ∧ (raiseInj s src named detail injected).regs = s.regs
      ∧ (raiseInj s src named detail injected).tableBad = s.tableBad
      ∧ (raiseInj s src named detail injected).mem = s.mem ∧ (raiseInj s src named detail injected).rst = s.rst
      ∧ (raiseInj s src named detail injected).rng = s.rng ∧ (raiseInj s src named detail injected).crc = s.crc
      ∧ (raiseInj s src named detail injected).glb = s.glb ∧ (raiseInj s src named detail injected).lmm = s.lmm
      ∧ (raiseInj s src named detail injected).ly = s.ly ∧ (raiseInj s src named detail injected).shd = s.shd
      ∧ (raiseInj s src named detail injected).shdRefused = s.shdRefused
      ∧ (raiseInj s src named detail injected).shdNode = s.shdNode
      ∧ (raiseInj s src named detail injected).bldEntry = s.bldEntry
      ∧ (raiseInj s src named detail injected).pxc = s.pxc ∧ (raiseInj s src named detail injected).tg = s.tg
      ∧ (raiseInj s src named detail injected).laneBlocks = s.laneBlocks
      ∧ (raiseInj s src named detail injected).tbl = s.tbl ∧ (raiseInj s src named detail injected).net = s.net
      ∧ (raiseInj s src named detail injected).tim = s.tim ∧ (raiseInj s src named detail injected).cle = s.cle
      ∧ (raiseInj s src named detail injected).lce = s.lce ∧ (raiseInj s src named detail injected).hkp = s.hkp
      ∧ (raiseInj s src named detail injected).kps = s.kps ∧ (raiseInj s src named detail injected).cbl = s.cbl := by
  unfold raiseInj
  try dsimp only
  repeat' split
  all_goals simp

@[simp] theorem raise_fields (s : State) (src : Nat) (heads : Nat) (detail : Nat) :
    (raise s src heads detail).pending = s.pending ∧ (raise s src heads detail).regs = s.regs
      ∧ (raise s src heads detail).tableBad = s.tableBad ∧ (raise s src heads detail).mem = s.mem
      ∧ (raise s src heads detail).rst = s.rst ∧ (raise s src heads detail).rng = s.rng
      ∧ (raise s src heads detail).crc = s.crc ∧ (raise s src heads detail).glb = s.glb
      ∧ (raise s src heads detail).lmm = s.lmm ∧ (raise s src heads detail).ly = s.ly
      ∧ (raise s src heads detail).shd = s.shd ∧ (raise s src heads detail).shdRefused = s.shdRefused
      ∧ (raise s src heads detail).shdNode = s.shdNode ∧ (raise s src heads detail).bldEntry = s.bldEntry
      ∧ (raise s src heads detail).pxc = s.pxc ∧ (raise s src heads detail).tg = s.tg
      ∧ (raise s src heads detail).laneBlocks = s.laneBlocks ∧ (raise s src heads detail).tbl = s.tbl
      ∧ (raise s src heads detail).net = s.net ∧ (raise s src heads detail).tim = s.tim
      ∧ (raise s src heads detail).cle = s.cle ∧ (raise s src heads detail).lce = s.lce
      ∧ (raise s src heads detail).hkp = s.hkp ∧ (raise s src heads detail).kps = s.kps
      ∧ (raise s src heads detail).cbl = s.cbl := by
  unfold raise
  try dsimp only
  repeat' split
  all_goals simp

@[simp] theorem raiseTimes_fields (s : State) (src : Nat) (heads : Nat) (detail : Nat) (y4 : Nat) :
    (raiseTimes s src heads detail y4).pending = s.pending ∧ (raiseTimes s src heads detail y4).regs = s.regs
      ∧ (raiseTimes s src heads detail y4).tableBad = s.tableBad ∧ (raiseTimes s src heads detail y4).mem = s.mem
      ∧ (raiseTimes s src heads detail y4).rst = s.rst ∧ (raiseTimes s src heads detail y4).rng = s.rng
      ∧ (raiseTimes s src heads detail y4).crc = s.crc ∧ (raiseTimes s src heads detail y4).glb = s.glb
      ∧ (raiseTimes s src heads detail y4).lmm = s.lmm ∧ (raiseTimes s src heads detail y4).ly = s.ly
      ∧ (raiseTimes s src heads detail y4).shd = s.shd ∧ (raiseTimes s src heads detail y4).shdRefused = s.shdRefused
      ∧ (raiseTimes s src heads detail y4).shdNode = s.shdNode
      ∧ (raiseTimes s src heads detail y4).bldEntry = s.bldEntry ∧ (raiseTimes s src heads detail y4).pxc = s.pxc
      ∧ (raiseTimes s src heads detail y4).tg = s.tg ∧ (raiseTimes s src heads detail y4).laneBlocks = s.laneBlocks
      ∧ (raiseTimes s src heads detail y4).tbl = s.tbl ∧ (raiseTimes s src heads detail y4).net = s.net
      ∧ (raiseTimes s src heads detail y4).tim = s.tim ∧ (raiseTimes s src heads detail y4).cle = s.cle
      ∧ (raiseTimes s src heads detail y4).lce = s.lce ∧ (raiseTimes s src heads detail y4).hkp = s.hkp
      ∧ (raiseTimes s src heads detail y4).kps = s.kps ∧ (raiseTimes s src heads detail y4).cbl = s.cbl := by
  induction y4 generalizing s with
  | zero => simp [raiseTimes]
  | succ n ih => simp [raiseTimes, ih]

@[simp] theorem clearEntry_fields (s : State) (src : Nat) :
    (clearEntry s src).pending = s.pending ∧ (clearEntry s src).out = s.out ∧ (clearEntry s src).regs = s.regs
      ∧ (clearEntry s src).tableBad = s.tableBad ∧ (clearEntry s src).mem = s.mem ∧ (clearEntry s src).saf = s.saf
      ∧ (clearEntry s src).rst = s.rst ∧ (clearEntry s src).pwr = s.pwr ∧ (clearEntry s src).rng = s.rng
      ∧ (clearEntry s src).hif = s.hif ∧ (clearEntry s src).crc = s.crc ∧ (clearEntry s src).glb = s.glb
      ∧ (clearEntry s src).lmm = s.lmm ∧ (clearEntry s src).ly = s.ly ∧ (clearEntry s src).shd = s.shd
      ∧ (clearEntry s src).shdRefused = s.shdRefused ∧ (clearEntry s src).shdNode = s.shdNode
      ∧ (clearEntry s src).bldEntry = s.bldEntry ∧ (clearEntry s src).bld = s.bld ∧ (clearEntry s src).pxc = s.pxc
      ∧ (clearEntry s src).tg = s.tg ∧ (clearEntry s src).lanes = s.lanes
      ∧ (clearEntry s src).laneBlocks = s.laneBlocks ∧ (clearEntry s src).txRd = s.txRd
      ∧ (clearEntry s src).tbl = s.tbl ∧ (clearEntry s src).net = s.net ∧ (clearEntry s src).tim = s.tim
      ∧ (clearEntry s src).cle = s.cle ∧ (clearEntry s src).lce = s.lce ∧ (clearEntry s src).hkp = s.hkp
      ∧ (clearEntry s src).kps = s.kps ∧ (clearEntry s src).cbl = s.cbl := by
  unfold clearEntry
  try dsimp only
  repeat' split
  all_goals simp

@[simp] theorem setLevel_fields (s : State) (src : Nat) (inst : Nat) (heads : Nat) (detail : Nat) (on : Bool) :
    (setLevel s src inst heads detail on).pending = s.pending ∧ (setLevel s src inst heads detail on).regs = s.regs
      ∧ (setLevel s src inst heads detail on).tableBad = s.tableBad
      ∧ (setLevel s src inst heads detail on).mem = s.mem ∧ (setLevel s src inst heads detail on).rst = s.rst
      ∧ (setLevel s src inst heads detail on).rng = s.rng ∧ (setLevel s src inst heads detail on).crc = s.crc
      ∧ (setLevel s src inst heads detail on).glb = s.glb ∧ (setLevel s src inst heads detail on).lmm = s.lmm
      ∧ (setLevel s src inst heads detail on).ly = s.ly ∧ (setLevel s src inst heads detail on).shd = s.shd
      ∧ (setLevel s src inst heads detail on).shdRefused = s.shdRefused
      ∧ (setLevel s src inst heads detail on).shdNode = s.shdNode
      ∧ (setLevel s src inst heads detail on).bldEntry = s.bldEntry
      ∧ (setLevel s src inst heads detail on).pxc = s.pxc ∧ (setLevel s src inst heads detail on).tg = s.tg
      ∧ (setLevel s src inst heads detail on).laneBlocks = s.laneBlocks
      ∧ (setLevel s src inst heads detail on).tbl = s.tbl ∧ (setLevel s src inst heads detail on).net = s.net
      ∧ (setLevel s src inst heads detail on).tim = s.tim ∧ (setLevel s src inst heads detail on).cle = s.cle
      ∧ (setLevel s src inst heads detail on).lce = s.lce ∧ (setLevel s src inst heads detail on).hkp = s.hkp
      ∧ (setLevel s src inst heads detail on).kps = s.kps ∧ (setLevel s src inst heads detail on).cbl = s.cbl := by
  unfold setLevel
  try dsimp only
  repeat' split
  all_goals simp

@[simp] theorem clearSticky_fields (s : State) (m : DWord) :
    (clearSticky s m).pending = s.pending ∧ (clearSticky s m).regs = s.regs ∧ (clearSticky s m).tableBad = s.tableBad
      ∧ (clearSticky s m).mem = s.mem ∧ (clearSticky s m).rst = s.rst ∧ (clearSticky s m).rng = s.rng
      ∧ (clearSticky s m).hif = s.hif ∧ (clearSticky s m).crc = s.crc ∧ (clearSticky s m).glb = s.glb
      ∧ (clearSticky s m).lmm = s.lmm ∧ (clearSticky s m).ly = s.ly ∧ (clearSticky s m).shd = s.shd
      ∧ (clearSticky s m).shdRefused = s.shdRefused ∧ (clearSticky s m).shdNode = s.shdNode
      ∧ (clearSticky s m).bldEntry = s.bldEntry ∧ (clearSticky s m).pxc = s.pxc ∧ (clearSticky s m).tg = s.tg
      ∧ (clearSticky s m).laneBlocks = s.laneBlocks ∧ (clearSticky s m).tbl = s.tbl ∧ (clearSticky s m).net = s.net
      ∧ (clearSticky s m).tim = s.tim ∧ (clearSticky s m).cle = s.cle ∧ (clearSticky s m).lce = s.lce
      ∧ (clearSticky s m).hkp = s.hkp ∧ (clearSticky s m).kps = s.kps ∧ (clearSticky s m).cbl = s.cbl := by
  unfold clearSticky
  try dsimp only
  repeat' split
  all_goals simp

@[simp] theorem beginJudging_fields (s : State) :
    (beginJudging s).pending = s.pending ∧ (beginJudging s).regs = s.regs ∧ (beginJudging s).tableBad = s.tableBad
      ∧ (beginJudging s).mem = s.mem ∧ (beginJudging s).rst = s.rst ∧ (beginJudging s).rng = s.rng
      ∧ (beginJudging s).crc = s.crc ∧ (beginJudging s).glb = s.glb ∧ (beginJudging s).lmm = s.lmm
      ∧ (beginJudging s).ly = s.ly ∧ (beginJudging s).shd = s.shd ∧ (beginJudging s).shdRefused = s.shdRefused
      ∧ (beginJudging s).shdNode = s.shdNode ∧ (beginJudging s).bldEntry = s.bldEntry ∧ (beginJudging s).pxc = s.pxc
      ∧ (beginJudging s).tg = s.tg ∧ (beginJudging s).laneBlocks = s.laneBlocks ∧ (beginJudging s).tbl = s.tbl
      ∧ (beginJudging s).net = s.net ∧ (beginJudging s).tim = s.tim ∧ (beginJudging s).cle = s.cle
      ∧ (beginJudging s).lce = s.lce ∧ (beginJudging s).hkp = s.hkp ∧ (beginJudging s).kps = s.kps
      ∧ (beginJudging s).cbl = s.cbl := by
  unfold beginJudging
  refine ⟨foldl_keep (fun s => s.pending) _ _ _ (fun s e => by simp),
    foldl_keep (fun s => s.regs) _ _ _ (fun s e => by simp),
    foldl_keep (fun s => s.tableBad) _ _ _ (fun s e => by simp),
    foldl_keep (fun s => s.mem) _ _ _ (fun s e => by simp),
    foldl_keep (fun s => s.rst) _ _ _ (fun s e => by simp),
    foldl_keep (fun s => s.rng) _ _ _ (fun s e => by simp),
    foldl_keep (fun s => s.crc) _ _ _ (fun s e => by simp),
    foldl_keep (fun s => s.glb) _ _ _ (fun s e => by simp),
    foldl_keep (fun s => s.lmm) _ _ _ (fun s e => by simp),
    foldl_keep (fun s => s.ly) _ _ _ (fun s e => by simp),
    foldl_keep (fun s => s.shd) _ _ _ (fun s e => by simp),
    foldl_keep (fun s => s.shdRefused) _ _ _ (fun s e => by simp),
    foldl_keep (fun s => s.shdNode) _ _ _ (fun s e => by simp),
    foldl_keep (fun s => s.bldEntry) _ _ _ (fun s e => by simp),
    foldl_keep (fun s => s.pxc) _ _ _ (fun s e => by simp),
    foldl_keep (fun s => s.tg) _ _ _ (fun s e => by simp),
    foldl_keep (fun s => s.laneBlocks) _ _ _ (fun s e => by simp),
    foldl_keep (fun s => s.tbl) _ _ _ (fun s e => by simp),
    foldl_keep (fun s => s.net) _ _ _ (fun s e => by simp),
    foldl_keep (fun s => s.tim) _ _ _ (fun s e => by simp),
    foldl_keep (fun s => s.cle) _ _ _ (fun s e => by simp),
    foldl_keep (fun s => s.lce) _ _ _ (fun s e => by simp),
    foldl_keep (fun s => s.hkp) _ _ _ (fun s e => by simp),
    foldl_keep (fun s => s.kps) _ _ _ (fun s e => by simp),
    foldl_keep (fun s => s.cbl) _ _ _ (fun s e => by simp)⟩

@[simp] theorem spendInj_fields (s : State) :
    (spendInj s).pending = s.pending ∧ (spendInj s).tableBad = s.tableBad ∧ (spendInj s).mem = s.mem
      ∧ (spendInj s).rst = s.rst ∧ (spendInj s).rng = s.rng ∧ (spendInj s).crc = s.crc ∧ (spendInj s).glb = s.glb
      ∧ (spendInj s).lmm = s.lmm ∧ (spendInj s).ly = s.ly ∧ (spendInj s).shd = s.shd
      ∧ (spendInj s).shdRefused = s.shdRefused ∧ (spendInj s).shdNode = s.shdNode ∧ (spendInj s).bldEntry = s.bldEntry
      ∧ (spendInj s).pxc = s.pxc ∧ (spendInj s).tg = s.tg ∧ (spendInj s).laneBlocks = s.laneBlocks
      ∧ (spendInj s).tbl = s.tbl ∧ (spendInj s).net = s.net ∧ (spendInj s).tim = s.tim ∧ (spendInj s).cle = s.cle
      ∧ (spendInj s).lce = s.lce ∧ (spendInj s).hkp = s.hkp ∧ (spendInj s).kps = s.kps ∧ (spendInj s).cbl = s.cbl := by
  unfold spendInj
  try dsimp only
  repeat' split
  all_goals simp

@[simp] theorem advance_fields (s : State) (n : Nat) :
    (advance s n).pending = s.pending ∧ (advance s n).out = s.out ∧ (advance s n).free = s.free
      ∧ (advance s n).regs = s.regs ∧ (advance s n).tableBad = s.tableBad ∧ (advance s n).mem = s.mem
      ∧ (advance s n).flt = s.flt ∧ (advance s n).saf = s.saf ∧ (advance s n).rst = s.rst ∧ (advance s n).pwr = s.pwr
      ∧ (advance s n).hif = s.hif ∧ (advance s n).crc = s.crc ∧ (advance s n).glb = s.glb ∧ (advance s n).lmm = s.lmm
      ∧ (advance s n).ly = s.ly ∧ (advance s n).shd = s.shd ∧ (advance s n).shdRefused = s.shdRefused
      ∧ (advance s n).shdNode = s.shdNode ∧ (advance s n).bldEntry = s.bldEntry ∧ (advance s n).bld = s.bld
      ∧ (advance s n).pxc = s.pxc ∧ (advance s n).tg = s.tg ∧ (advance s n).lanes = s.lanes
      ∧ (advance s n).laneBlocks = s.laneBlocks ∧ (advance s n).txRd = s.txRd ∧ (advance s n).tbl = s.tbl
      ∧ (advance s n).net = s.net ∧ (advance s n).tim = s.tim ∧ (advance s n).cle = s.cle ∧ (advance s n).lce = s.lce
      ∧ (advance s n).hkp = s.hkp ∧ (advance s n).kps = s.kps ∧ (advance s n).cbl = s.cbl := by
  unfold advance
  try dsimp only
  repeat' split
  all_goals simp

@[simp] theorem ringSignal_fields (s : State) (n : Nat) :
    (ringSignal s n).pending = s.pending ∧ (ringSignal s n).free = s.free ∧ (ringSignal s n).regs = s.regs
      ∧ (ringSignal s n).tableBad = s.tableBad ∧ (ringSignal s n).mem = s.mem ∧ (ringSignal s n).flt = s.flt
      ∧ (ringSignal s n).saf = s.saf ∧ (ringSignal s n).rst = s.rst ∧ (ringSignal s n).pwr = s.pwr
      ∧ (ringSignal s n).crc = s.crc ∧ (ringSignal s n).glb = s.glb ∧ (ringSignal s n).lmm = s.lmm
      ∧ (ringSignal s n).ly = s.ly ∧ (ringSignal s n).shd = s.shd ∧ (ringSignal s n).shdRefused = s.shdRefused
      ∧ (ringSignal s n).shdNode = s.shdNode ∧ (ringSignal s n).bldEntry = s.bldEntry ∧ (ringSignal s n).bld = s.bld
      ∧ (ringSignal s n).pxc = s.pxc ∧ (ringSignal s n).tg = s.tg ∧ (ringSignal s n).lanes = s.lanes
      ∧ (ringSignal s n).laneBlocks = s.laneBlocks ∧ (ringSignal s n).txRd = s.txRd ∧ (ringSignal s n).tbl = s.tbl
      ∧ (ringSignal s n).net = s.net ∧ (ringSignal s n).tim = s.tim ∧ (ringSignal s n).cle = s.cle
      ∧ (ringSignal s n).lce = s.lce ∧ (ringSignal s n).hkp = s.hkp ∧ (ringSignal s n).kps = s.kps
      ∧ (ringSignal s n).cbl = s.cbl := by
  unfold ringSignal
  try dsimp only
  repeat' split
  all_goals simp

@[simp] theorem ringIrq_fields (s : State) (n : Nat) (force : Bool) :
    (ringIrq s n force).pending = s.pending ∧ (ringIrq s n force).free = s.free ∧ (ringIrq s n force).regs = s.regs
      ∧ (ringIrq s n force).tableBad = s.tableBad ∧ (ringIrq s n force).mem = s.mem ∧ (ringIrq s n force).flt = s.flt
      ∧ (ringIrq s n force).saf = s.saf ∧ (ringIrq s n force).rst = s.rst ∧ (ringIrq s n force).pwr = s.pwr
      ∧ (ringIrq s n force).crc = s.crc ∧ (ringIrq s n force).glb = s.glb ∧ (ringIrq s n force).lmm = s.lmm
      ∧ (ringIrq s n force).ly = s.ly ∧ (ringIrq s n force).shd = s.shd
      ∧ (ringIrq s n force).shdRefused = s.shdRefused ∧ (ringIrq s n force).shdNode = s.shdNode
      ∧ (ringIrq s n force).bldEntry = s.bldEntry ∧ (ringIrq s n force).bld = s.bld ∧ (ringIrq s n force).pxc = s.pxc
      ∧ (ringIrq s n force).tg = s.tg ∧ (ringIrq s n force).lanes = s.lanes
      ∧ (ringIrq s n force).laneBlocks = s.laneBlocks ∧ (ringIrq s n force).txRd = s.txRd
      ∧ (ringIrq s n force).tbl = s.tbl ∧ (ringIrq s n force).net = s.net ∧ (ringIrq s n force).tim = s.tim
      ∧ (ringIrq s n force).cle = s.cle ∧ (ringIrq s n force).lce = s.lce ∧ (ringIrq s n force).hkp = s.hkp
      ∧ (ringIrq s n force).kps = s.kps ∧ (ringIrq s n force).cbl = s.cbl := by
  unfold ringIrq
  try dsimp only
  repeat' split
  all_goals simp

@[simp] theorem writeRecord_fields (s : State) (role : Nat) (body : List Byte) :
    (writeRecord s role body).2.pending = s.pending ∧ (writeRecord s role body).2.free = s.free
      ∧ (writeRecord s role body).2.regs = s.regs ∧ (writeRecord s role body).2.tableBad = s.tableBad
      ∧ (writeRecord s role body).2.mem = s.mem ∧ (writeRecord s role body).2.flt = s.flt
      ∧ (writeRecord s role body).2.saf = s.saf ∧ (writeRecord s role body).2.rst = s.rst
      ∧ (writeRecord s role body).2.pwr = s.pwr ∧ (writeRecord s role body).2.crc = s.crc
      ∧ (writeRecord s role body).2.glb = s.glb ∧ (writeRecord s role body).2.lmm = s.lmm
      ∧ (writeRecord s role body).2.ly = s.ly ∧ (writeRecord s role body).2.shd = s.shd
      ∧ (writeRecord s role body).2.shdRefused = s.shdRefused ∧ (writeRecord s role body).2.shdNode = s.shdNode
      ∧ (writeRecord s role body).2.bldEntry = s.bldEntry ∧ (writeRecord s role body).2.bld = s.bld
      ∧ (writeRecord s role body).2.pxc = s.pxc ∧ (writeRecord s role body).2.tg = s.tg
      ∧ (writeRecord s role body).2.lanes = s.lanes ∧ (writeRecord s role body).2.laneBlocks = s.laneBlocks
      ∧ (writeRecord s role body).2.txRd = s.txRd ∧ (writeRecord s role body).2.tbl = s.tbl
      ∧ (writeRecord s role body).2.net = s.net ∧ (writeRecord s role body).2.tim = s.tim
      ∧ (writeRecord s role body).2.cle = s.cle ∧ (writeRecord s role body).2.lce = s.lce
      ∧ (writeRecord s role body).2.hkp = s.hkp ∧ (writeRecord s role body).2.kps = s.kps
      ∧ (writeRecord s role body).2.cbl = s.cbl := by
  unfold writeRecord
  try dsimp only
  repeat' split
  all_goals simp

end Sys2Proof.Machine
end

