-- ==== Sys2Proof/Laws/Frames.lean ====
section
/-! SUPPORT. Which parts of the state each operation may change: one lemma per operation, in the order of the model, and the
lemmas that put them together. -/

set_option linter.unusedVariables false
namespace Sys2Proof.Machine

/-! ## Frames put together -/

theorem onlyChanges_refl (ps : List Part) (s : State) : onlyChanges ps s s :=
  ⟨rfl, fun p _ => by cases p <;> simp [agree]⟩

theorem agree_trans {p : Part} {s t u : State} (h1 : agree p s t) (h2 : agree p t u) : agree p s u := by
  cases p <;> simp_all [agree]

theorem onlyChanges_trans {ps : List Part} {s t u : State} (h1 : onlyChanges ps s t) (h2 : onlyChanges ps t u) :
    onlyChanges ps s u :=
  ⟨h2.1.trans h1.1, fun p hp => agree_trans (h1.2 p hp) (h2.2 p hp)⟩

theorem onlyChanges_mono {ps qs : List Part} {s t : State} (h : onlyChanges ps s t) (hq : ∀ p ∈ ps, p ∈ qs) :
    onlyChanges qs s t :=
  ⟨h.1, fun p hp => h.2 p (fun hm => hp (hq p hm))⟩

/-- What runs in one cycle runs on the state with the cycle marked, and the mark alone is set again after it. -/
theorem oneCycle_cases (f : State → State) (s : State) :
    ∃ (c : Option (Nat × Bool)) (g : Flt → Flt), (∀ x, fltCore (g x) = fltCore x) ∧
      oneCycle f s = modFlt (f (modFlt s (fun x => { x with cycle := c }))) g := by
  unfold oneCycle
  split
  · rename_i c hc
    refine ⟨some c, id, fun x => rfl, ?_⟩
    have : modFlt s (fun x => { x with cycle := some c }) = s := by
      unfold modFlt; rw [← hc]
    rw [this]; rfl
  · exact ⟨some (s.flt.entries.length, s.flt.firstValid), fun x => { x with cycle := none }, fun x => rfl, rfl⟩


/-- A list of parts covers another. -/
def covers (ps qs : List Part) : Bool := qs.all (fun p => ps.contains p)

theorem covers_mem {ps qs : List Part} (h : covers ps qs = true) {p : Part} (hp : p ∈ qs) : p ∈ ps := by
  have := List.all_eq_true.mp h p hp
  simpa using this

theorem covers_trans {ps qs rs : List Part} (h : covers ps qs = true) (k : covers qs rs = true) : covers ps rs = true :=
  List.all_eq_true.mpr (fun p hp => by simpa using covers_mem h (covers_mem k hp))

theorem onlyChanges_then {ps qs : List Part} {s u t : State} (h : onlyChanges ps s u) (k : onlyChanges qs u t)
    (w : covers ps qs = true) : onlyChanges ps s t :=
  onlyChanges_trans h (onlyChanges_mono k (fun _ hp => covers_mem w hp))

theorem onlyChanges_snd {α : Type} {ps : List Part} {s t : State} {x : α} {p : α × State} (e : p = (x, t))
    (h : onlyChanges ps s p.2) : onlyChanges ps s t := by rw [e] at h; exact h

theorem onlyChanges_thd {α β : Type} {ps : List Part} {s t : State} {x : α} {y : β} {p : α × β × State} (e : p = (x, y, t))
    (h : onlyChanges ps s p.2.2) : onlyChanges ps s t := by rw [e] at h; exact h

theorem foldl_only {α : Type} {ps : List Part} {s u : State} {f : State → α → State} {l : List α} (h : onlyChanges ps s u)
    (hf : ∀ t a, onlyChanges ps t (f t a)) : onlyChanges ps s (l.foldl f u) :=
  foldl_inv (fun t => onlyChanges ps s t) f l u h (fun t a ht => onlyChanges_trans ht (hf t a))

theorem oneCycle_only {ps : List Part} {s : State} {f : State → State} (hf : ∀ u, onlyChanges ps u (f u)) :
    onlyChanges ps s (oneCycle f s) := by
  obtain ⟨c, g, hg, he⟩ := oneCycle_cases f s
  rw [he]
  have h0 := hf (modFlt s (fun x => { x with cycle := c }))
  refine ⟨by simpa using h0.1, fun p hp => ?_⟩
  have h1 := h0.2 p hp
  cases p <;> simp_all [agree, fltCore]

theorem onlyChanges_ite {ps : List Part} {s a b : State} {c : Prop} [Decidable c] (ha : onlyChanges ps s a)
    (hb : onlyChanges ps s b) : onlyChanges ps s (if c then a else b) := by split <;> assumption

theorem only_some {ps : List Part} {s a t : State} (h : some a = some t) (k : onlyChanges ps s a) : onlyChanges ps s t := by
  injection h with h; subst h; exact k

/-! ## Updates of fields -/

theorem raw_bld {ps : List Part} {s u : State} {x0 : _} (h : onlyChanges ps s u)
    (w : covers ps [.bld] = true) : onlyChanges ps s { u with bld := x0 } :=
  onlyChanges_then (qs := [.bld]) h ⟨rfl, fun p hp => by cases p <;> first | rfl | exact ⟨rfl, rfl⟩ | exact ⟨rfl, rfl, rfl⟩ | exact absurd (by decide) hp⟩ w

theorem raw_bldEntry {ps : List Part} {s u : State} {x0 : _} (h : onlyChanges ps s u)
    (w : covers ps [.bld] = true) : onlyChanges ps s { u with bldEntry := x0 } :=
  onlyChanges_then (qs := [.bld]) h ⟨rfl, fun p hp => by cases p <;> first | rfl | exact ⟨rfl, rfl⟩ | exact ⟨rfl, rfl, rfl⟩ | exact absurd (by decide) hp⟩ w

theorem raw_cbl {ps : List Part} {s u : State} {x0 : _} (h : onlyChanges ps s u)
    (w : covers ps [.cbl] = true) : onlyChanges ps s { u with cbl := x0 } :=
  onlyChanges_then (qs := [.cbl]) h ⟨rfl, fun p hp => by cases p <;> first | rfl | exact ⟨rfl, rfl⟩ | exact ⟨rfl, rfl, rfl⟩ | exact absurd (by decide) hp⟩ w

theorem raw_cle {ps : List Part} {s u : State} {x0 : _} (h : onlyChanges ps s u)
    (w : covers ps [.cle] = true) : onlyChanges ps s { u with cle := x0 } :=
  onlyChanges_then (qs := [.cle]) h ⟨rfl, fun p hp => by cases p <;> first | rfl | exact ⟨rfl, rfl⟩ | exact ⟨rfl, rfl, rfl⟩ | exact absurd (by decide) hp⟩ w

theorem raw_crc {ps : List Part} {s u : State} {x0 : _} (h : onlyChanges ps s u)
    (w : covers ps [.crc] = true) : onlyChanges ps s { u with crc := x0 } :=
  onlyChanges_then (qs := [.crc]) h ⟨rfl, fun p hp => by cases p <;> first | rfl | exact ⟨rfl, rfl⟩ | exact ⟨rfl, rfl, rfl⟩ | exact absurd (by decide) hp⟩ w

theorem raw_flt {ps : List Part} {s u : State} {x0 : _} (h : onlyChanges ps s u)
    (w : covers ps [.flt] = true) : onlyChanges ps s { u with flt := x0 } :=
  onlyChanges_then (qs := [.flt]) h ⟨rfl, fun p hp => by cases p <;> first | rfl | exact ⟨rfl, rfl⟩ | exact ⟨rfl, rfl, rfl⟩ | exact absurd (by decide) hp⟩ w

theorem raw_flt_saf_pwr_kps {ps : List Part} {s u : State} {x0 : _} {x1 : _} {x2 : _} {x3 : _} (h : onlyChanges ps s u)
    (w : covers ps [.flt, .kps, .pwr, .saf] = true) : onlyChanges ps s { u with flt := x0, saf := x1, pwr := x2, kps := x3 } :=
  onlyChanges_then (qs := [.flt, .kps, .pwr, .saf]) h ⟨rfl, fun p hp => by cases p <;> first | rfl | exact ⟨rfl, rfl⟩ | exact ⟨rfl, rfl, rfl⟩ | exact absurd (by decide) hp⟩ w

theorem raw_flt_tim_cle_hkp {ps : List Part} {s u : State} {x0 : _} {x1 : _} {x2 : _} {x3 : _} (h : onlyChanges ps s u)
    (w : covers ps [.cle, .flt, .hkp, .tim] = true) : onlyChanges ps s { u with flt := x0, tim := x1, cle := x2, hkp := x3 } :=
  onlyChanges_then (qs := [.cle, .flt, .hkp, .tim]) h ⟨rfl, fun p hp => by cases p <;> first | rfl | exact ⟨rfl, rfl⟩ | exact ⟨rfl, rfl, rfl⟩ | exact absurd (by decide) hp⟩ w

theorem raw_free {ps : List Part} {s u : State} {x0 : _} (h : onlyChanges ps s u)
    (w : covers ps [.free] = true) : onlyChanges ps s { u with free := x0 } :=
  onlyChanges_then (qs := [.free]) h ⟨rfl, fun p hp => by cases p <;> first | rfl | exact ⟨rfl, rfl⟩ | exact ⟨rfl, rfl, rfl⟩ | exact absurd (by decide) hp⟩ w

theorem raw_glb {ps : List Part} {s u : State} {x0 : _} (h : onlyChanges ps s u)
    (w : covers ps [.glb] = true) : onlyChanges ps s { u with glb := x0 } :=
  onlyChanges_then (qs := [.glb]) h ⟨rfl, fun p hp => by cases p <;> first | rfl | exact ⟨rfl, rfl⟩ | exact ⟨rfl, rfl, rfl⟩ | exact absurd (by decide) hp⟩ w

theorem raw_hif {ps : List Part} {s u : State} {x0 : _} (h : onlyChanges ps s u)
    (w : covers ps [.hif] = true) : onlyChanges ps s { u with hif := x0 } :=
  onlyChanges_then (qs := [.hif]) h ⟨rfl, fun p hp => by cases p <;> first | rfl | exact ⟨rfl, rfl⟩ | exact ⟨rfl, rfl, rfl⟩ | exact absurd (by decide) hp⟩ w

theorem raw_hkp {ps : List Part} {s u : State} {x0 : _} (h : onlyChanges ps s u)
    (w : covers ps [.hkp] = true) : onlyChanges ps s { u with hkp := x0 } :=
  onlyChanges_then (qs := [.hkp]) h ⟨rfl, fun p hp => by cases p <;> first | rfl | exact ⟨rfl, rfl⟩ | exact ⟨rfl, rfl, rfl⟩ | exact absurd (by decide) hp⟩ w

theorem raw_kps {ps : List Part} {s u : State} {x0 : _} (h : onlyChanges ps s u)
    (w : covers ps [.kps] = true) : onlyChanges ps s { u with kps := x0 } :=
  onlyChanges_then (qs := [.kps]) h ⟨rfl, fun p hp => by cases p <;> first | rfl | exact ⟨rfl, rfl⟩ | exact ⟨rfl, rfl, rfl⟩ | exact absurd (by decide) hp⟩ w

theorem raw_laneBlocks {ps : List Part} {s u : State} {x0 : _} (h : onlyChanges ps s u)
    (w : covers ps [.lanes] = true) : onlyChanges ps s { u with laneBlocks := x0 } :=
  onlyChanges_then (qs := [.lanes]) h ⟨rfl, fun p hp => by cases p <;> first | rfl | exact ⟨rfl, rfl⟩ | exact ⟨rfl, rfl, rfl⟩ | exact absurd (by decide) hp⟩ w

theorem raw_laneBlocks_net {ps : List Part} {s u : State} {x0 : _} {x1 : _} (h : onlyChanges ps s u)
    (w : covers ps [.lanes, .net] = true) : onlyChanges ps s { u with laneBlocks := x0, net := x1 } :=
  onlyChanges_then (qs := [.lanes, .net]) h ⟨rfl, fun p hp => by cases p <;> first | rfl | exact ⟨rfl, rfl⟩ | exact ⟨rfl, rfl, rfl⟩ | exact absurd (by decide) hp⟩ w

theorem raw_lanes {ps : List Part} {s u : State} {x0 : _} (h : onlyChanges ps s u)
    (w : covers ps [.lanes] = true) : onlyChanges ps s { u with lanes := x0 } :=
  onlyChanges_then (qs := [.lanes]) h ⟨rfl, fun p hp => by cases p <;> first | rfl | exact ⟨rfl, rfl⟩ | exact ⟨rfl, rfl, rfl⟩ | exact absurd (by decide) hp⟩ w

theorem raw_lce {ps : List Part} {s u : State} {x0 : _} (h : onlyChanges ps s u)
    (w : covers ps [.lce] = true) : onlyChanges ps s { u with lce := x0 } :=
  onlyChanges_then (qs := [.lce]) h ⟨rfl, fun p hp => by cases p <;> first | rfl | exact ⟨rfl, rfl⟩ | exact ⟨rfl, rfl, rfl⟩ | exact absurd (by decide) hp⟩ w

theorem raw_lmm {ps : List Part} {s u : State} {x0 : _} (h : onlyChanges ps s u)
    (w : covers ps [.lmm] = true) : onlyChanges ps s { u with lmm := x0 } :=
  onlyChanges_then (qs := [.lmm]) h ⟨rfl, fun p hp => by cases p <;> first | rfl | exact ⟨rfl, rfl⟩ | exact ⟨rfl, rfl, rfl⟩ | exact absurd (by decide) hp⟩ w

theorem raw_ly {ps : List Part} {s u : State} {x0 : _} (h : onlyChanges ps s u)
    (w : covers ps [.ly] = true) : onlyChanges ps s { u with ly := x0 } :=
  onlyChanges_then (qs := [.ly]) h ⟨rfl, fun p hp => by cases p <;> first | rfl | exact ⟨rfl, rfl⟩ | exact ⟨rfl, rfl, rfl⟩ | exact absurd (by decide) hp⟩ w

theorem raw_mem {ps : List Part} {s u : State} {x0 : _} (h : onlyChanges ps s u)
    (w : covers ps [.mem] = true) : onlyChanges ps s { u with mem := x0 } :=
  onlyChanges_then (qs := [.mem]) h ⟨rfl, fun p hp => by cases p <;> first | rfl | exact ⟨rfl, rfl⟩ | exact ⟨rfl, rfl, rfl⟩ | exact absurd (by decide) hp⟩ w

theorem raw_mem_flt_saf_lmm_pxc {ps : List Part} {s u : State} {x0 : _} {x1 : _} {x2 : _} {x3 : _} {x4 : _} (h : onlyChanges ps s u)
    (w : covers ps [.flt, .lmm, .mem, .pxc, .saf] = true) : onlyChanges ps s { u with mem := x0, flt := x1, saf := x2, lmm := x3, pxc := x4 } :=
  onlyChanges_then (qs := [.flt, .lmm, .mem, .pxc, .saf]) h ⟨rfl, fun p hp => by cases p <;> first | rfl | exact ⟨rfl, rfl⟩ | exact ⟨rfl, rfl, rfl⟩ | exact absurd (by decide) hp⟩ w

theorem raw_net {ps : List Part} {s u : State} {x0 : _} (h : onlyChanges ps s u)
    (w : covers ps [.net] = true) : onlyChanges ps s { u with net := x0 } :=
  onlyChanges_then (qs := [.net]) h ⟨rfl, fun p hp => by cases p <;> first | rfl | exact ⟨rfl, rfl⟩ | exact ⟨rfl, rfl, rfl⟩ | exact absurd (by decide) hp⟩ w

theorem raw_out {ps : List Part} {s u : State} {x0 : _} (h : onlyChanges ps s u)
    (w : covers ps [.out] = true) : onlyChanges ps s { u with out := x0 } :=
  onlyChanges_then (qs := [.out]) h ⟨rfl, fun p hp => by cases p <;> first | rfl | exact ⟨rfl, rfl⟩ | exact ⟨rfl, rfl, rfl⟩ | exact absurd (by decide) hp⟩ w

theorem raw_pwr {ps : List Part} {s u : State} {x0 : _} (h : onlyChanges ps s u)
    (w : covers ps [.pwr] = true) : onlyChanges ps s { u with pwr := x0 } :=
  onlyChanges_then (qs := [.pwr]) h ⟨rfl, fun p hp => by cases p <;> first | rfl | exact ⟨rfl, rfl⟩ | exact ⟨rfl, rfl, rfl⟩ | exact absurd (by decide) hp⟩ w

theorem raw_pxc {ps : List Part} {s u : State} {x0 : _} (h : onlyChanges ps s u)
    (w : covers ps [.pxc] = true) : onlyChanges ps s { u with pxc := x0 } :=
  onlyChanges_then (qs := [.pxc]) h ⟨rfl, fun p hp => by cases p <;> first | rfl | exact ⟨rfl, rfl⟩ | exact ⟨rfl, rfl, rfl⟩ | exact absurd (by decide) hp⟩ w

theorem raw_regs {ps : List Part} {s u : State} {x0 : _} (h : onlyChanges ps s u)
    (w : covers ps [.regs] = true) : onlyChanges ps s { u with regs := x0 } :=
  onlyChanges_then (qs := [.regs]) h ⟨rfl, fun p hp => by cases p <;> first | rfl | exact ⟨rfl, rfl⟩ | exact ⟨rfl, rfl, rfl⟩ | exact absurd (by decide) hp⟩ w

theorem raw_regs_pwr_tableBad_tim {ps : List Part} {s u : State} {x0 : _} {x1 : _} {x2 : _} {x3 : _} (h : onlyChanges ps s u)
    (w : covers ps [.pwr, .regs, .tim] = true) : onlyChanges ps s { u with regs := x0, pwr := x1, tableBad := x2, tim := x3 } :=
  onlyChanges_then (qs := [.pwr, .regs, .tim]) h ⟨rfl, fun p hp => by cases p <;> first | rfl | exact ⟨rfl, rfl⟩ | exact ⟨rfl, rfl, rfl⟩ | exact absurd (by decide) hp⟩ w

theorem raw_regs_rng {ps : List Part} {s u : State} {x0 : _} {x1 : _} (h : onlyChanges ps s u)
    (w : covers ps [.regs, .rng] = true) : onlyChanges ps s { u with regs := x0, rng := x1 } :=
  onlyChanges_then (qs := [.regs, .rng]) h ⟨rfl, fun p hp => by cases p <;> first | rfl | exact ⟨rfl, rfl⟩ | exact ⟨rfl, rfl, rfl⟩ | exact absurd (by decide) hp⟩ w

theorem raw_regs_rst_rng_hif {ps : List Part} {s u : State} {x0 : _} {x1 : _} {x2 : _} {x3 : _} (h : onlyChanges ps s u)
    (w : covers ps [.hif, .regs, .rng, .rst] = true) : onlyChanges ps s { u with regs := x0, rst := x1, rng := x2, hif := x3 } :=
  onlyChanges_then (qs := [.hif, .regs, .rng, .rst]) h ⟨rfl, fun p hp => by cases p <;> first | rfl | exact ⟨rfl, rfl⟩ | exact ⟨rfl, rfl, rfl⟩ | exact absurd (by decide) hp⟩ w

theorem raw_regs_tableBad {ps : List Part} {s u : State} {x0 : _} {x1 : _} (h : onlyChanges ps s u)
    (w : covers ps [.regs] = true) : onlyChanges ps s { u with regs := x0, tableBad := x1 } :=
  onlyChanges_then (qs := [.regs]) h ⟨rfl, fun p hp => by cases p <;> first | rfl | exact ⟨rfl, rfl⟩ | exact ⟨rfl, rfl, rfl⟩ | exact absurd (by decide) hp⟩ w

theorem raw_rng {ps : List Part} {s u : State} {x0 : _} (h : onlyChanges ps s u)
    (w : covers ps [.rng] = true) : onlyChanges ps s { u with rng := x0 } :=
  onlyChanges_then (qs := [.rng]) h ⟨rfl, fun p hp => by cases p <;> first | rfl | exact ⟨rfl, rfl⟩ | exact ⟨rfl, rfl, rfl⟩ | exact absurd (by decide) hp⟩ w

theorem raw_rst {ps : List Part} {s u : State} {x0 : _} (h : onlyChanges ps s u)
    (w : covers ps [.rst] = true) : onlyChanges ps s { u with rst := x0 } :=
  onlyChanges_then (qs := [.rst]) h ⟨rfl, fun p hp => by cases p <;> first | rfl | exact ⟨rfl, rfl⟩ | exact ⟨rfl, rfl, rfl⟩ | exact absurd (by decide) hp⟩ w

theorem raw_saf {ps : List Part} {s u : State} {x0 : _} (h : onlyChanges ps s u)
    (w : covers ps [.saf] = true) : onlyChanges ps s { u with saf := x0 } :=
  onlyChanges_then (qs := [.saf]) h ⟨rfl, fun p hp => by cases p <;> first | rfl | exact ⟨rfl, rfl⟩ | exact ⟨rfl, rfl, rfl⟩ | exact absurd (by decide) hp⟩ w

theorem raw_shd {ps : List Part} {s u : State} {x0 : _} (h : onlyChanges ps s u)
    (w : covers ps [.shd] = true) : onlyChanges ps s { u with shd := x0 } :=
  onlyChanges_then (qs := [.shd]) h ⟨rfl, fun p hp => by cases p <;> first | rfl | exact ⟨rfl, rfl⟩ | exact ⟨rfl, rfl, rfl⟩ | exact absurd (by decide) hp⟩ w

theorem raw_shdNode {ps : List Part} {s u : State} {x0 : _} (h : onlyChanges ps s u)
    (w : covers ps [.shd] = true) : onlyChanges ps s { u with shdNode := x0 } :=
  onlyChanges_then (qs := [.shd]) h ⟨rfl, fun p hp => by cases p <;> first | rfl | exact ⟨rfl, rfl⟩ | exact ⟨rfl, rfl, rfl⟩ | exact absurd (by decide) hp⟩ w

theorem raw_shdRefused {ps : List Part} {s u : State} {x0 : _} (h : onlyChanges ps s u)
    (w : covers ps [.shd] = true) : onlyChanges ps s { u with shdRefused := x0 } :=
  onlyChanges_then (qs := [.shd]) h ⟨rfl, fun p hp => by cases p <;> first | rfl | exact ⟨rfl, rfl⟩ | exact ⟨rfl, rfl, rfl⟩ | exact absurd (by decide) hp⟩ w

theorem raw_tableBad {ps : List Part} {s u : State} {x0 : _} (h : onlyChanges ps s u)
    (w : covers ps [.regs] = true) : onlyChanges ps s { u with tableBad := x0 } :=
  onlyChanges_then (qs := [.regs]) h ⟨rfl, fun p hp => by cases p <;> first | rfl | exact ⟨rfl, rfl⟩ | exact ⟨rfl, rfl, rfl⟩ | exact absurd (by decide) hp⟩ w

theorem raw_tbl {ps : List Part} {s u : State} {x0 : _} (h : onlyChanges ps s u)
    (w : covers ps [.tbl] = true) : onlyChanges ps s { u with tbl := x0 } :=
  onlyChanges_then (qs := [.tbl]) h ⟨rfl, fun p hp => by cases p <;> first | rfl | exact ⟨rfl, rfl⟩ | exact ⟨rfl, rfl, rfl⟩ | exact absurd (by decide) hp⟩ w

theorem raw_tg {ps : List Part} {s u : State} {x0 : _} (h : onlyChanges ps s u)
    (w : covers ps [.tg] = true) : onlyChanges ps s { u with tg := x0 } :=
  onlyChanges_then (qs := [.tg]) h ⟨rfl, fun p hp => by cases p <;> first | rfl | exact ⟨rfl, rfl⟩ | exact ⟨rfl, rfl, rfl⟩ | exact absurd (by decide) hp⟩ w

theorem raw_tim {ps : List Part} {s u : State} {x0 : _} (h : onlyChanges ps s u)
    (w : covers ps [.tim] = true) : onlyChanges ps s { u with tim := x0 } :=
  onlyChanges_then (qs := [.tim]) h ⟨rfl, fun p hp => by cases p <;> first | rfl | exact ⟨rfl, rfl⟩ | exact ⟨rfl, rfl, rfl⟩ | exact absurd (by decide) hp⟩ w

theorem raw_txRd {ps : List Part} {s u : State} {x0 : _} (h : onlyChanges ps s u)
    (w : covers ps [.lanes] = true) : onlyChanges ps s { u with txRd := x0 } :=
  onlyChanges_then (qs := [.lanes]) h ⟨rfl, fun p hp => by cases p <;> first | rfl | exact ⟨rfl, rfl⟩ | exact ⟨rfl, rfl, rfl⟩ | exact absurd (by decide) hp⟩ w

/-! ## The operations -/

theorem setReg_only (s : State) (idx : Nat) (v : Word) : onlyChanges [.regs] s (setReg s idx v) := by
  refine ⟨rfl, fun p h => ?_⟩
  cases p <;> first | rfl | exact ⟨rfl, rfl⟩ | exact ⟨rfl, rfl, rfl⟩ | exact absurd (by decide) h

theorem tableSpoilt_only (s : State) (idx : Nat) (injected : Bool) : onlyChanges [.regs] s (tableSpoilt s idx injected) := by
  refine ⟨rfl, fun p h => ?_⟩
  cases p <;> first | rfl | exact ⟨rfl, rfl⟩ | exact ⟨rfl, rfl, rfl⟩ | exact absurd (by decide) h

theorem setTable_only (s : State) (idx : Nat) (v : Word) : onlyChanges [.regs] s (setTable s idx v) := by
  refine ⟨rfl, fun p h => ?_⟩
  cases p <;> first | rfl | exact ⟨rfl, rfl⟩ | exact ⟨rfl, rfl, rfl⟩ | exact absurd (by decide) h

theorem setRegAt_only (s : State) (a : Nat) (v : Word) : onlyChanges [.regs] s (setRegAt s a v) := by
  refine ⟨rfl, fun p h => ?_⟩
  cases p <;> first | rfl | exact ⟨rfl, rfl⟩ | exact ⟨rfl, rfl, rfl⟩ | exact absurd (by decide) h

theorem clearRegs_only (s : State) (first : Nat) (n : Nat) : onlyChanges [.regs] s (clearRegs s first n) := by
  refine ⟨rfl, fun p h => ?_⟩
  cases p <;> first | rfl | exact ⟨rfl, rfl⟩ | exact ⟨rfl, rfl, rfl⟩ | exact absurd (by decide) h

theorem modTg_only (s : State) (h : Head) (f : Tg → Tg) : onlyChanges [.tg] s (modTg s h f) := by
  refine ⟨rfl, fun p h => ?_⟩
  cases p <;> first | rfl | exact ⟨rfl, rfl⟩ | exact ⟨rfl, rfl, rfl⟩ | exact absurd (by decide) h

theorem modLy_only (s : State) (h : Head) (f : Ly → Ly) : onlyChanges [.ly] s (modLy s h f) := by
  refine ⟨rfl, fun p h => ?_⟩
  cases p <;> first | rfl | exact ⟨rfl, rfl⟩ | exact ⟨rfl, rfl, rfl⟩ | exact absurd (by decide) h

theorem modShd_only (s : State) (h : Head) (f : Shd → Shd) : onlyChanges [.shd] s (modShd s h f) := by
  refine ⟨rfl, fun p h => ?_⟩
  cases p <;> first | rfl | exact ⟨rfl, rfl⟩ | exact ⟨rfl, rfl, rfl⟩ | exact absurd (by decide) h

theorem modBld_only (s : State) (h : Head) (f : Bld → Bld) : onlyChanges [.bld] s (modBld s h f) := by
  refine ⟨rfl, fun p h => ?_⟩
  cases p <;> first | rfl | exact ⟨rfl, rfl⟩ | exact ⟨rfl, rfl, rfl⟩ | exact absurd (by decide) h

theorem modPxc_only (s : State) (h : Head) (f : Pxc → Pxc) : onlyChanges [.pxc] s (modPxc s h f) := by
  refine ⟨rfl, fun p h => ?_⟩
  cases p <;> first | rfl | exact ⟨rfl, rfl⟩ | exact ⟨rfl, rfl, rfl⟩ | exact absurd (by decide) h

theorem modTbl_only (s : State) (h : Head) (f : Tbl → Tbl) : onlyChanges [.tbl] s (modTbl s h f) := by
  refine ⟨rfl, fun p h => ?_⟩
  cases p <;> first | rfl | exact ⟨rfl, rfl⟩ | exact ⟨rfl, rfl, rfl⟩ | exact absurd (by decide) h

theorem modSafHead_only (s : State) (h : Head) (f : SafHead → SafHead) : onlyChanges [.saf] s (modSafHead s h f) := by
  refine ⟨rfl, fun p h => ?_⟩
  cases p <;> first | rfl | exact ⟨rfl, rfl⟩ | exact ⟨rfl, rfl, rfl⟩ | exact absurd (by decide) h

theorem modRngHead_only (s : State) (h : Head) (f : RngHead → RngHead) : onlyChanges [.rng] s (modRngHead s h f) := by
  refine ⟨rfl, fun p h => ?_⟩
  cases p <;> first | rfl | exact ⟨rfl, rfl⟩ | exact ⟨rfl, rfl, rfl⟩ | exact absurd (by decide) h

theorem modTile_only (s : State) (h : Head) (t : Nat) (f : Tile → Tile) : onlyChanges [.tbl] s (modTile s h t f) := by
  refine ⟨rfl, fun p h => ?_⟩
  cases p <;> first | rfl | exact ⟨rfl, rfl⟩ | exact ⟨rfl, rfl, rfl⟩ | exact absurd (by decide) h

theorem modLane_only (s : State) (l : Nat) (f : Lane → Lane) : onlyChanges [.lanes] s (modLane s l f) := by
  refine ⟨rfl, fun p h => ?_⟩
  cases p <;> first | rfl | exact ⟨rfl, rfl⟩ | exact ⟨rfl, rfl, rfl⟩ | exact absurd (by decide) h

theorem modSlot_only (s : State) (h : Head) (i : Nat) (f : Slot → Slot) : onlyChanges [.ly] s (modSlot s h i f) := by
  refine ⟨rfl, fun p h => ?_⟩
  cases p <;> first | rfl | exact ⟨rfl, rfl⟩ | exact ⟨rfl, rfl, rfl⟩ | exact absurd (by decide) h

theorem modRing_only (s : State) (n : Nat) (f : Ring → Ring) : onlyChanges [.rng] s (modRing s n f) := by
  refine ⟨rfl, fun p h => ?_⟩
  cases p <;> first | rfl | exact ⟨rfl, rfl⟩ | exact ⟨rfl, rfl, rfl⟩ | exact absurd (by decide) h

theorem modLoop_only (s : State) (n : Nat) (f : Loop → Loop) : onlyChanges [.cle] s (modLoop s n f) := by
  refine ⟨rfl, fun p h => ?_⟩
  cases p <;> first | rfl | exact ⟨rfl, rfl⟩ | exact ⟨rfl, rfl, rfl⟩ | exact absurd (by decide) h

theorem modChain_only (s : State) (c : Nat) (f : Chain → Chain) : onlyChanges [.lce] s (modChain s c f) := by
  refine ⟨rfl, fun p h => ?_⟩
  cases p <;> first | rfl | exact ⟨rfl, rfl⟩ | exact ⟨rfl, rfl, rfl⟩ | exact absurd (by decide) h

theorem modPort_only (s : State) (p : Nat) (f : NetPort → NetPort) : onlyChanges [.net] s (modPort s p f) := by
  refine ⟨rfl, fun p h => ?_⟩
  cases p <;> first | rfl | exact ⟨rfl, rfl⟩ | exact ⟨rfl, rfl, rfl⟩ | exact absurd (by decide) h

theorem modBank_only (s : State) (b : Nat) (f : Bank → Bank) : onlyChanges [.lmm] s (modBank s b f) := by
  refine ⟨rfl, fun p h => ?_⟩
  cases p <;> first | rfl | exact ⟨rfl, rfl⟩ | exact ⟨rfl, rfl, rfl⟩ | exact absurd (by decide) h

theorem takePulse_only (s : State) (c : Consumer) : onlyChanges [.tim] s (takePulse s c) := by
  unfold takePulse
  refine raw_tim ?_ rfl
  exact onlyChanges_refl _ _

theorem sendPulse_only (n : Nat) (s : State) (c : Consumer) : onlyChanges [.tim] s (sendPulse n s c) := by
  unfold sendPulse
  refine onlyChanges_ite ?_ ?_
  · exact onlyChanges_refl _ _
  · refine raw_tim ?_ rfl
    exact onlyChanges_refl _ _

theorem modTrig_only (s : State) (n : Nat) (f : Trig → Trig) : onlyChanges [.tim] s (modTrig s n f) := by
  refine ⟨rfl, fun p h => ?_⟩
  cases p <;> first | rfl | exact ⟨rfl, rfl⟩ | exact ⟨rfl, rfl, rfl⟩ | exact absurd (by decide) h

theorem emit_only (s : State) (o : Output) : onlyChanges [.out] s (emit s o) := by
  refine ⟨rfl, fun p h => ?_⟩
  cases p <;> first | rfl | exact ⟨rfl, rfl⟩ | exact ⟨rfl, rfl, rfl⟩ | exact absurd (by decide) h

theorem drawBelow_only (s : State) (n : Nat) : onlyChanges [.free] s (drawBelow s n).2 := by
  unfold drawBelow
  dsimp -zeta only
  refine raw_free ?_ rfl
  exact onlyChanges_refl _ _

theorem hostFails_only (s : State) (kind : Nat) : onlyChanges [.hif] s (hostFails s kind) := by
  refine ⟨rfl, fun p h => ?_⟩
  cases p <;> first | rfl | exact ⟨rfl, rfl⟩ | exact ⟨rfl, rfl, rfl⟩ | exact absurd (by decide) h

theorem stampAged_only (s : State) (lo : Nat) (hi : Nat) : onlyChanges [.free] s (stampAged s lo hi).2 := by
  unfold stampAged
  split
  dsimp -zeta only
  refine onlyChanges_snd (by assumption) ?_
  refine onlyChanges_then ?_ (drawBelow_only ..) rfl
  exact onlyChanges_refl _ _

theorem stampCore_only (s : State) : onlyChanges [.free] s (stampCore s).2 := by
  unfold stampCore
  refine onlyChanges_then ?_ (stampAged_only ..) rfl
  exact onlyChanges_refl _ _

theorem stampHost_only (s : State) : onlyChanges [.free] s (stampHost s).2 := by
  unfold stampHost
  refine onlyChanges_then ?_ (stampAged_only ..) rfl
  exact onlyChanges_refl _ _

theorem memPut_only (s : State) (a : Nat) (v : Byte) : onlyChanges [.mem] s (memPut s a v) := by
  refine ⟨rfl, fun p h => ?_⟩
  cases p <;> first | rfl | exact ⟨rfl, rfl⟩ | exact ⟨rfl, rfl, rfl⟩ | exact absurd (by decide) h

theorem memWrite_only (s : State) (a : Nat) (bs : List Byte) : onlyChanges [.mem] s (memWrite s a bs) := by
  refine ⟨rfl, fun p h => ?_⟩
  cases p <;> first | rfl | exact ⟨rfl, rfl⟩ | exact ⟨rfl, rfl, rfl⟩ | exact absurd (by decide) h

theorem modPwr_only (s : State) (f : Pwr → Pwr) : onlyChanges [.pwr] s (modPwr s f) := by
  refine ⟨rfl, fun p h => ?_⟩
  cases p <;> first | rfl | exact ⟨rfl, rfl⟩ | exact ⟨rfl, rfl, rfl⟩ | exact absurd (by decide) h

theorem beginExit_only (s : State) (bits : Word) : onlyChanges [.pwr] s (beginExit s bits) := by
  unfold beginExit
  refine onlyChanges_then ?_ (modPwr_only ..) rfl
  exact onlyChanges_refl _ _

theorem lanesReturn_only (s : State) : onlyChanges [.pwr, .lanes] s (lanesReturn s) := by
  unfold lanesReturn
  refine onlyChanges_then ?_ (modPwr_only ..) rfl
  refine foldl_only ?_ (fun t41 a41 => ?_)
  · exact onlyChanges_refl _ _
  · refine onlyChanges_then ?_ (modLane_only ..) rfl
    exact onlyChanges_refl _ _

theorem abortEntry_only (s : State) : onlyChanges [.pwr, .lanes] s (abortEntry s) := by
  unfold abortEntry
  refine onlyChanges_then ?_ (modPwr_only ..) rfl
  refine onlyChanges_then ?_ (lanesReturn_only ..) rfl
  exact onlyChanges_refl _ _

theorem entryWakes_only (s : State) (bits : Word) : onlyChanges [.pwr, .lanes] s (entryWakes s bits) := by
  unfold entryWakes
  refine onlyChanges_ite ?_ ?_
  · refine onlyChanges_then ?_ (abortEntry_only ..) rfl
    exact onlyChanges_refl _ _
  · refine onlyChanges_then ?_ (beginExit_only ..) rfl
    refine onlyChanges_then ?_ (modPwr_only ..) rfl
    exact onlyChanges_refl _ _

theorem wake_only (s : State) (b : Nat) : onlyChanges [.pwr, .lanes] s (wake s b) := by
  unfold wake
  refine onlyChanges_ite ?_ ?_
  · exact onlyChanges_refl _ _
  · split
    · refine onlyChanges_ite ?_ ?_
      · refine onlyChanges_then ?_ (entryWakes_only ..) rfl
        exact onlyChanges_refl _ _
      · exact onlyChanges_refl _ _
    · refine onlyChanges_ite ?_ ?_
      · refine onlyChanges_then ?_ (entryWakes_only ..) rfl
        exact onlyChanges_refl _ _
      · exact onlyChanges_refl _ _
    · refine onlyChanges_ite ?_ ?_
      · refine onlyChanges_then ?_ (modPwr_only ..) rfl
        exact onlyChanges_refl _ _
      · exact onlyChanges_refl _ _
    · refine onlyChanges_ite ?_ ?_
      · refine onlyChanges_then ?_ (modPwr_only ..) rfl
        exact onlyChanges_refl _ _
      · exact onlyChanges_refl _ _
    · refine onlyChanges_ite ?_ ?_
      · refine onlyChanges_then ?_ (beginExit_only ..) rfl
        exact onlyChanges_refl _ _
      · exact onlyChanges_refl _ _
    · exact onlyChanges_refl _ _

theorem linkWakes_only (s : State) : onlyChanges [.hif] s (linkWakes s) := by
  unfold linkWakes
  refine raw_hif ?_ rfl
  exact onlyChanges_refl _ _

theorem idleExits_only (s : State) : onlyChanges [.pwr, .hif] s (idleExits s) := by
  unfold idleExits
  refine onlyChanges_ite ?_ ?_
  · refine onlyChanges_then ?_ (linkWakes_only ..) rfl
    refine onlyChanges_then ?_ (modPwr_only ..) rfl
    exact onlyChanges_refl _ _
  · exact onlyChanges_refl _ _

theorem linkRests_only (s : State) : onlyChanges [.free, .hif] s (linkRests s) := by
  unfold linkRests
  split
  refine raw_hif ?_ rfl
  refine onlyChanges_snd (by assumption) ?_
  refine onlyChanges_then ?_ (drawBelow_only ..) rfl
  exact onlyChanges_refl _ _

theorem postWrite_only (s : State) (addr : Nat) (bytes : List Byte) : onlyChanges [.out, .hif] s (postWrite s addr bytes) := by
  unfold postWrite
  refine onlyChanges_ite ?_ ?_
  · refine onlyChanges_then ?_ (emit_only ..) rfl
    refine onlyChanges_then ?_ (linkWakes_only ..) rfl
    exact onlyChanges_refl _ _
  · exact onlyChanges_refl _ _

theorem signalMsix_only (s : State) (v : Nat) : onlyChanges [.out, .hif] s (signalMsix s v) := by
  unfold signalMsix
  refine onlyChanges_ite ?_ ?_
  · exact onlyChanges_refl _ _
  · refine onlyChanges_ite ?_ ?_
    · refine raw_hif ?_ rfl
      exact onlyChanges_refl _ _
    · refine onlyChanges_then ?_ (emit_only ..) rfl
      refine onlyChanges_then ?_ (linkWakes_only ..) rfl
      exact onlyChanges_refl _ _

theorem flushMsix_only (s : State) (v : Nat) : onlyChanges [.out, .hif] s (flushMsix s v) := by
  unfold flushMsix
  refine onlyChanges_ite ?_ ?_
  · refine onlyChanges_then ?_ (emit_only ..) rfl
    refine onlyChanges_then ?_ (linkWakes_only ..) rfl
    refine raw_hif ?_ rfl
    exact onlyChanges_refl _ _
  · exact onlyChanges_refl _ _

theorem streamSettle_only (s : State) (l : Nat) : onlyChanges [.out, .lanes] s (streamSettle s l) := by
  unfold streamSettle
  extract_lets v42 v43
  refine onlyChanges_ite ?_ ?_
  · exact onlyChanges_refl _ _
  · refine onlyChanges_then ?_ (emit_only ..) rfl
    refine onlyChanges_then ?_ (modLane_only ..) rfl
    refine onlyChanges_ite ?_ ?_
    · refine raw_txRd ?_ rfl
      exact onlyChanges_refl _ _
    · exact onlyChanges_refl _ _

theorem sendGroups_only (s : State) (l : Nat) (gs : List Group) : onlyChanges [.out] s (sendGroups s l gs) := by
  unfold sendGroups
  refine onlyChanges_ite ?_ ?_
  · exact onlyChanges_refl _ _
  · refine onlyChanges_then ?_ (emit_only ..) rfl
    exact onlyChanges_refl _ _

theorem startRd_only (s : State) (l : Nat) : onlyChanges [.free] s (startRd s l).2 := by
  unfold startRd
  split
  · dsimp -zeta only
    exact onlyChanges_refl _ _
  · split
    dsimp -zeta only
    refine onlyChanges_snd (by assumption) ?_
    refine onlyChanges_then ?_ (drawBelow_only ..) rfl
    exact onlyChanges_refl _ _

theorem sendSymbols_only (s : State) (l : Nat) (ys : List Symbol) : onlyChanges [.out, .free, .lanes] s (sendSymbols s l ys) := by
  unfold sendSymbols
  refine onlyChanges_ite ?_ ?_
  · split
    extract_lets v44 v45 v46
    have hv45 : onlyChanges [.out, .free, .lanes] s v45 := by
      refine raw_txRd ?_ rfl
      refine onlyChanges_snd (by assumption) ?_
      refine onlyChanges_then ?_ (startRd_only ..) rfl
      exact onlyChanges_refl _ _
    have hv46 : onlyChanges [.out, .free, .lanes] s v46 := by
      refine onlyChanges_then ?_ (modLane_only ..) rfl
      exact hv45
    refine onlyChanges_ite ?_ ?_
    · refine onlyChanges_then ?_ (sendGroups_only ..) rfl
      exact hv46
    · exact hv46
  · exact onlyChanges_refl _ _

theorem modFlt_only (s : State) (f : Flt → Flt) : onlyChanges [.flt] s (modFlt s f) := by
  refine ⟨rfl, fun p h => ?_⟩
  cases p <;> first | rfl | exact ⟨rfl, rfl⟩ | exact ⟨rfl, rfl, rfl⟩ | exact absurd (by decide) h

theorem sendLanes_only (s : State) (h : Head) (c : LaneCmd) : onlyChanges [.out, .free, .lanes] s (sendLanes s h c) := by
  unfold sendLanes
  refine onlyChanges_ite ?_ ?_
  · refine foldl_only ?_ (fun t47 a47 => ?_)
    · refine onlyChanges_then ?_ (emit_only ..) rfl
      exact onlyChanges_refl _ _
    · refine onlyChanges_then ?_ (sendSymbols_only ..) rfl
      exact onlyChanges_refl _ _
  · exact onlyChanges_refl _ _

theorem sendFour_only (s : State) (h : Head) (c : LaneCmd) : onlyChanges [.out, .free, .lanes] s (sendFour s h c) := by
  unfold sendFour
  refine foldl_only ?_ (fun t48 a48 => ?_)
  · exact onlyChanges_refl _ _
  · refine onlyChanges_then ?_ (sendLanes_only ..) rfl
    exact onlyChanges_refl _ _

theorem degradeApply_only (s : State) (h : Head) : onlyChanges [.saf] s (degradeApply s h) := by
  unfold degradeApply
  refine onlyChanges_then ?_ (modSafHead_only ..) rfl
  exact onlyChanges_refl _ _

theorem headroomApply_only (s : State) (h : Head) : onlyChanges [.bld] s (headroomApply s h) := by
  unfold headroomApply
  extract_lets v49 v50 v51
  refine onlyChanges_then ?_ (modBld_only ..) rfl
  exact onlyChanges_refl _ _

theorem settleHead_only (s : State) (h : Head) : onlyChanges [.out, .free, .saf, .pwr, .bld, .lanes] s (settleHead s h) := by
  unfold settleHead
  extract_lets v52 v53 v54 v55 v56 v57
  have hv55 : onlyChanges [.out, .free, .saf, .pwr, .bld, .lanes] s v55 := by
    refine onlyChanges_then ?_ (modSafHead_only ..) rfl
    exact onlyChanges_refl _ _
  have hv56 : onlyChanges [.out, .free, .saf, .pwr, .bld, .lanes] s v56 := by
    refine onlyChanges_ite ?_ ?_
    · refine onlyChanges_then ?_ (headroomApply_only ..) rfl
      refine onlyChanges_then ?_ (degradeApply_only ..) rfl
      exact hv55
    · exact hv55
  have hv57 : onlyChanges [.out, .free, .saf, .pwr, .bld, .lanes] s v57 := by
    refine onlyChanges_ite ?_ ?_
    · refine onlyChanges_then ?_ (sendFour_only ..) rfl
      exact hv56
    · refine onlyChanges_ite ?_ ?_
      · refine onlyChanges_then ?_ (sendFour_only ..) rfl
        exact hv56
      · exact hv56
  refine onlyChanges_ite ?_ ?_
  · refine onlyChanges_then ?_ (wake_only ..) rfl
    exact hv57
  · exact hv57

theorem settle_only (s : State) : onlyChanges [.out, .free, .saf, .pwr, .bld, .lanes] s (settle s) := by
  unfold settle
  refine onlyChanges_then ?_ (settleHead_only ..) rfl
  refine onlyChanges_then ?_ (settleHead_only ..) rfl
  exact onlyChanges_refl _ _

theorem raiseInj_only (s : State) (src : Nat) (named : Nat) (detail : Nat) (injected : Bool) : onlyChanges [.out, .free, .flt, .saf, .pwr, .hif, .bld, .lanes] s (raiseInj s src named detail injected) := by
  unfold raiseInj
  refine onlyChanges_ite ?_ ?_
  · refine onlyChanges_ite ?_ ?_
    · exact onlyChanges_refl _ _
    · refine onlyChanges_then ?_ (modFlt_only ..) rfl
      exact onlyChanges_refl _ _
  · extract_lets v58
    split
    extract_lets v59 v60 v61 v62 v63 v64 v65 v66 v67
    have hv65 : onlyChanges [.out, .free, .flt, .saf, .pwr, .hif, .bld, .lanes] s v65 := by
      refine onlyChanges_then ?_ (modFlt_only ..) rfl
      refine onlyChanges_snd (by assumption) ?_
      refine onlyChanges_then ?_ (stampCore_only ..) rfl
      exact onlyChanges_refl _ _
    have hv66 : onlyChanges [.out, .free, .flt, .saf, .pwr, .hif, .bld, .lanes] s v66 := by
      refine onlyChanges_ite ?_ ?_
      · refine onlyChanges_then ?_ (signalMsix_only ..) rfl
        exact hv65
      · exact hv65
    have hv67 : onlyChanges [.out, .free, .flt, .saf, .pwr, .hif, .bld, .lanes] s v67 := by
      refine onlyChanges_ite ?_ ?_
      · refine onlyChanges_then ?_ (wake_only ..) rfl
        exact hv66
      · exact hv66
    refine onlyChanges_then ?_ (settle_only ..) rfl
    exact hv67

theorem raise_only (s : State) (src : Nat) (heads : Nat) (detail : Nat) : onlyChanges [.out, .free, .flt, .saf, .pwr, .hif, .bld, .lanes] s (raise s src heads detail) := by
  unfold raise
  refine onlyChanges_then ?_ (raiseInj_only ..) rfl
  exact onlyChanges_refl _ _

theorem raiseOwed_only (s : State) : onlyChanges [.out, .free, .flt, .saf, .pwr, .hif, .bld, .lanes] s (raiseOwed s) := by
  unfold raiseOwed
  refine onlyChanges_ite ?_ ?_
  · refine foldl_only ?_ (fun t63 a63 => ?_)
    · refine onlyChanges_then ?_ (modFlt_only ..) rfl
      exact onlyChanges_refl _ _
    · refine onlyChanges_then ?_ (raise_only ..) rfl
      exact onlyChanges_refl _ _
  · exact onlyChanges_refl _ _

theorem raiseTimes_only (s : State) (src : Nat) (heads : Nat) (detail : Nat) (x1 : Nat) : onlyChanges [.out, .free, .flt, .saf, .pwr, .hif, .bld, .lanes] s (raiseTimes s src heads detail x1) := by
  induction x1 generalizing s with
  | zero => exact onlyChanges_refl _ _
  | succ n ih =>
    unfold raiseTimes
    repeat first
      | (with_reducible exact onlyChanges_refl _ _)
      | (with_reducible refine onlyChanges_trans ?_ (ih ..))
      | (with_reducible refine onlyChanges_then ?_ (raise_only ..) rfl)
      | (with_reducible refine onlyChanges_ite ?_ ?_)
      | split
      | dsimp only

theorem clearEntry_only (s : State) (src : Nat) : onlyChanges [.free, .flt] s (clearEntry s src) := by
  unfold clearEntry
  refine onlyChanges_ite ?_ ?_
  · exact onlyChanges_refl _ _
  · split
    refine onlyChanges_ite ?_ ?_
    · extract_lets v68
      refine onlyChanges_then ?_ (modFlt_only ..) rfl
      refine onlyChanges_snd (by assumption) ?_
      refine onlyChanges_then ?_ (stampCore_only ..) rfl
      exact onlyChanges_refl _ _
    · refine onlyChanges_ite ?_ ?_
      · refine onlyChanges_snd (by assumption) ?_
        refine onlyChanges_then ?_ (stampCore_only ..) rfl
        exact onlyChanges_refl _ _
      · extract_lets v70
        refine onlyChanges_then ?_ (modFlt_only ..) rfl
        refine onlyChanges_snd (by assumption) ?_
        refine onlyChanges_then ?_ (stampCore_only ..) rfl
        exact onlyChanges_refl _ _

theorem setLevel_only (s : State) (src : Nat) (inst : Nat) (heads : Nat) (detail : Nat) (on : Bool) : onlyChanges [.out, .free, .flt, .saf, .pwr, .hif, .bld, .lanes] s (setLevel s src inst heads detail on) := by
  unfold setLevel
  extract_lets v69
  refine onlyChanges_ite ?_ ?_
  · refine onlyChanges_ite ?_ ?_
    · exact onlyChanges_refl _ _
    · refine onlyChanges_then ?_ (raise_only ..) rfl
      refine onlyChanges_then ?_ (modFlt_only ..) rfl
      exact onlyChanges_refl _ _
  · refine onlyChanges_ite ?_ ?_
    · refine onlyChanges_ite ?_ ?_
      · refine onlyChanges_then ?_ (modFlt_only ..) rfl
        exact onlyChanges_refl _ _
      · refine onlyChanges_then ?_ (clearEntry_only ..) rfl
        refine onlyChanges_then ?_ (modFlt_only ..) rfl
        exact onlyChanges_refl _ _
    · exact onlyChanges_refl _ _

theorem clearSticky_only (s : State) (m : DWord) : onlyChanges [.out, .free, .flt, .saf, .pwr, .bld, .lanes] s (clearSticky s m) := by
  unfold clearSticky
  extract_lets v0 v1
  refine onlyChanges_then ?_ (settle_only ..) rfl
  refine onlyChanges_then ?_ (modFlt_only ..) rfl
  exact onlyChanges_refl _ _

theorem beginJudging_only (s : State) : onlyChanges [.out, .free, .flt, .saf, .pwr, .hif, .bld, .lanes] s (beginJudging s) := by
  unfold beginJudging
  refine foldl_only ?_ (fun t71 a71 => ?_)
  · exact onlyChanges_refl _ _
  · refine onlyChanges_then ?_ (raise_only ..) rfl
    exact onlyChanges_refl _ _

theorem spendInj_only (s : State) : onlyChanges [.out, .free, .regs, .flt, .saf, .pwr, .hif, .bld, .lanes] s (spendInj s) := by
  unfold spendInj
  refine onlyChanges_then ?_ (setLevel_only ..) rfl
  refine onlyChanges_then ?_ (setRegAt_only ..) rfl
  exact onlyChanges_refl _ _

theorem secondPasses_only (s : State) : onlyChanges [.kps] s (secondPasses s) := by
  unfold secondPasses
  extract_lets v72
  refine raw_kps ?_ rfl
  exact onlyChanges_refl _ _

theorem tick_only (s : State) : onlyChanges [.tim, .kps] s (tick s) := by
  unfold tick
  refine onlyChanges_ite ?_ ?_
  · split
    extract_lets v73
    refine onlyChanges_ite ?_ ?_
    · refine onlyChanges_then ?_ (secondPasses_only ..) rfl
      refine raw_tim ?_ rfl
      exact onlyChanges_refl _ _
    · refine raw_tim ?_ rfl
      exact onlyChanges_refl _ _
  · exact onlyChanges_refl _ _

theorem modRng_only (s : State) (f : Rng → Rng) : onlyChanges [.rng] s (modRng s f) := by
  refine ⟨rfl, fun p h => ?_⟩
  cases p <;> first | rfl | exact ⟨rfl, rfl⟩ | exact ⟨rfl, rfl, rfl⟩ | exact absurd (by decide) h

theorem protocolError_only (s : State) (n : Nat) : onlyChanges [.out, .free, .flt, .saf, .pwr, .rng, .hif, .bld, .lanes] s (protocolError s n) := by
  unfold protocolError
  refine onlyChanges_then ?_ (raise_only ..) rfl
  refine onlyChanges_then ?_ (modRing_only ..) rfl
  exact onlyChanges_refl _ _

theorem releaseSlot_only (s : State) (c : Nat) : onlyChanges [.rng] s (releaseSlot s c) := by
  unfold releaseSlot
  refine onlyChanges_then ?_ (modRing_only ..) rfl
  exact onlyChanges_refl _ _

theorem advance_only (s : State) (n : Nat) : onlyChanges [.rng] s (advance s n) := by
  unfold advance
  extract_lets v74
  refine onlyChanges_then ?_ (modRing_only ..) rfl
  exact onlyChanges_refl _ _

theorem ringSignal_only (s : State) (n : Nat) : onlyChanges [.out, .rng, .hif] s (ringSignal s n) := by
  unfold ringSignal
  refine onlyChanges_then ?_ (signalMsix_only ..) rfl
  refine onlyChanges_then ?_ (modRing_only ..) rfl
  exact onlyChanges_refl _ _

theorem ringIrq_only (s : State) (n : Nat) (force : Bool) : onlyChanges [.out, .rng, .hif] s (ringIrq s n force) := by
  unfold ringIrq
  extract_lets v75 v76 v77
  have hv76 : onlyChanges [.out, .rng, .hif] s v76 := by
    refine onlyChanges_then ?_ (modRing_only ..) rfl
    exact onlyChanges_refl _ _
  refine onlyChanges_ite ?_ ?_
  · refine onlyChanges_then ?_ (ringSignal_only ..) rfl
    exact hv76
  · exact hv76

theorem writeCpl_only (s : State) (c : Cpl) : onlyChanges [.out, .rng, .hif] s (writeCpl s c) := by
  unfold writeCpl
  refine onlyChanges_ite ?_ ?_
  · extract_lets v78 v79 v80
    have hv79 : onlyChanges [.out, .rng, .hif] s v79 := by
      refine onlyChanges_then ?_ (postWrite_only ..) rfl
      refine onlyChanges_then ?_ (releaseSlot_only ..) rfl
      exact onlyChanges_refl _ _
    have hv80 : onlyChanges [.out, .rng, .hif] s v80 := by
      refine onlyChanges_then ?_ (modRng_only ..) rfl
      exact hv79
    refine onlyChanges_then ?_ (ringIrq_only ..) rfl
    refine onlyChanges_then ?_ (advance_only ..) rfl
    exact hv80
  · refine onlyChanges_then ?_ (modRng_only ..) rfl
    exact onlyChanges_refl _ _

theorem flushHeld_only (s : State) (n : Nat) : onlyChanges [.out, .rng, .hif] s (flushHeld s n) := by
  unfold flushHeld
  refine foldl_only ?_ (fun t81 a81 => ?_)
  · refine onlyChanges_then ?_ (modRng_only ..) rfl
    exact onlyChanges_refl _ _
  · refine onlyChanges_then ?_ (writeCpl_only ..) rfl
    exact onlyChanges_refl _ _

theorem completeDesc_only (s : State) (c : Nat) (d : Desc) (code : Nat) (detail : Nat) (word : Word) (fsn : Word) : onlyChanges [.out, .free, .rng, .hif] s (completeDesc s c d code detail word fsn) := by
  unfold completeDesc
  refine onlyChanges_ite ?_ ?_
  · refine onlyChanges_then ?_ (releaseSlot_only ..) rfl
    exact onlyChanges_refl _ _
  · split
    refine onlyChanges_then ?_ (writeCpl_only ..) rfl
    refine onlyChanges_snd (by assumption) ?_
    refine onlyChanges_then ?_ (stampHost_only ..) rfl
    exact onlyChanges_refl _ _

theorem completeDescAt_only (s : State) (c : Nat) (d : Desc) (code : Nat) (detail : Nat) (word : Word) (fsn : Word) (time : Word) : onlyChanges [.out, .rng, .hif] s (completeDescAt s c d code detail word fsn time) := by
  unfold completeDescAt
  refine onlyChanges_ite ?_ ?_
  · refine onlyChanges_then ?_ (releaseSlot_only ..) rfl
    exact onlyChanges_refl _ _
  · refine onlyChanges_then ?_ (writeCpl_only ..) rfl
    exact onlyChanges_refl _ _

theorem dropWork_only (s : State) (ring : Nat) (slot : Nat) : onlyChanges [.rng] s (dropWork s ring slot) := by
  unfold dropWork
  refine onlyChanges_then ?_ (modRng_only ..) rfl
  exact onlyChanges_refl _ _

theorem stageWork_only (s : State) (ring : Nat) (slot : Nat) (stage : Nat) : onlyChanges [.rng] s (stageWork s ring slot stage) := by
  unfold stageWork
  refine onlyChanges_then ?_ (modRng_only ..) rfl
  exact onlyChanges_refl _ _

theorem leaveWork_only {ps : List Part} (s : State) (ring slot : Nat) (f : State → Work → State)
    (h : ∀ x w, onlyChanges ps x (f x w)) (w : covers ps [.rng] = true) : onlyChanges ps s (leaveWork s ring slot f) := by
  have hd : onlyChanges ps s (dropWork s ring slot) := onlyChanges_then (onlyChanges_refl _ _) (dropWork_only ..) w
  unfold leaveWork
  split
  · exact onlyChanges_refl _ _
  · exact onlyChanges_ite hd (onlyChanges_trans hd (h _ _))

theorem completeWord_only (s : State) (ring : Nat) (slot : Nat) (code : Nat) (detail : Nat) (word : Word) (fsn : Word) : onlyChanges [.out, .free, .rng, .hif] s (completeWord s ring slot code detail word fsn) := by
  exact leaveWork_only _ _ _ _ (fun _ _ => onlyChanges_then (onlyChanges_refl _ _) (completeDesc_only ..) rfl) rfl

theorem completeAt_only (s : State) (ring : Nat) (slot : Nat) (code : Nat) (detail : Nat) (fsn : Word) : onlyChanges [.out, .free, .rng, .hif] s (completeAt s ring slot code detail fsn) := by
  exact leaveWork_only _ _ _ _ (fun _ _ => onlyChanges_then (onlyChanges_refl _ _) (completeDesc_only ..) rfl) rfl

theorem completeStitch_only (s : State) (ring : Nat) (slot : Nat) (code : Nat) (detail : Nat) (fsn : Word) (time : Word) : onlyChanges [.out, .rng, .hif] s (completeStitch s ring slot code detail fsn time) := by
  exact leaveWork_only _ _ _ _ (fun _ _ => onlyChanges_then (onlyChanges_refl _ _) (completeDescAt_only ..) rfl) rfl

theorem completeMember_only (s : State) (m : Member) (code : Nat) (detail : Nat) (replayed : Bool) (fsn : Word) (time : Word) : onlyChanges [.out, .rng, .hif] s (completeMember s m code detail replayed fsn time) := by
  unfold completeMember
  refine onlyChanges_then ?_ (writeCpl_only ..) rfl
  exact onlyChanges_refl _ _

theorem completeMembers_only (s : State) (ms : List Member) (code : Nat) : onlyChanges [.out, .free, .rng, .hif] s (completeMembers s ms code) := by
  unfold completeMembers
  refine foldl_only ?_ (fun t82 a82 => ?_)
  · exact onlyChanges_refl _ _
  · split
    refine onlyChanges_then ?_ (completeMember_only ..) rfl
    refine onlyChanges_snd (by assumption) ?_
    refine onlyChanges_then ?_ (stampHost_only ..) rfl
    exact onlyChanges_refl _ _

theorem completeSet_only (s : State) (ms : List Member) (code : Nat) (detail : Nat) (replayed : Bool) (fsn : Word) (time : Word) : onlyChanges [.out, .rng, .hif] s (completeSet s ms code detail replayed fsn time) := by
  unfold completeSet
  split
  · exact onlyChanges_refl _ _
  · refine onlyChanges_then ?_ (completeMember_only ..) rfl
    refine foldl_only ?_ (fun t83 a83 => ?_)
    · exact onlyChanges_refl _ _
    · refine onlyChanges_then ?_ (releaseSlot_only ..) rfl
      exact onlyChanges_refl _ _

theorem writeRecord_only (s : State) (role : Nat) (body : List Byte) : onlyChanges [.out, .rng, .hif] s (writeRecord s role body).2 := by
  unfold writeRecord
  split
  · dsimp -zeta only
    exact onlyChanges_refl _ _
  · split
    · dsimp -zeta only
      exact onlyChanges_refl _ _
    · extract_lets v89
      split
      · dsimp -zeta only
        refine onlyChanges_then ?_ (modRing_only ..) rfl
        exact onlyChanges_refl _ _
      · dsimp -zeta only
        refine onlyChanges_then ?_ (ringIrq_only ..) rfl
        refine onlyChanges_then ?_ (advance_only ..) rfl
        refine onlyChanges_then ?_ (postWrite_only ..) rfl
        exact onlyChanges_refl _ _

theorem enableRing_only (s : State) (n : Nat) (v : Word) : onlyChanges [.out, .regs, .rng, .hif] s (enableRing s n v) := by
  unfold enableRing
  extract_lets v84
  have hv84 : onlyChanges [.out, .regs, .rng, .hif] s v84 := by
    refine onlyChanges_then ?_ (modRing_only ..) rfl
    refine onlyChanges_then ?_ (setRegAt_only ..) rfl
    exact onlyChanges_refl _ _
  refine onlyChanges_ite ?_ ?_
  · exact hv84
  · refine onlyChanges_ite ?_ ?_
    · refine onlyChanges_then ?_ (flushHeld_only ..) rfl
      refine onlyChanges_then ?_ (modRng_only ..) rfl
      refine onlyChanges_then ?_ (modRing_only ..) rfl
      exact hv84
    · refine onlyChanges_then ?_ (modRng_only ..) rfl
      refine onlyChanges_then ?_ (modRing_only ..) rfl
      exact hv84

theorem discardOpen_only (s : State) (ring : Nat) : onlyChanges [.out, .free, .rng, .hif] s (discardOpen s ring) := by
  unfold discardOpen
  split
  · exact onlyChanges_refl _ _
  · extract_lets v85 v86 v87 v88
    have hv87 : onlyChanges [.out, .free, .rng, .hif] s v87 := by
      refine onlyChanges_then ?_ (modRngHead_only ..) rfl
      exact onlyChanges_refl _ _
    have hv88 : onlyChanges [.out, .free, .rng, .hif] s v88 := by
      refine onlyChanges_then ?_ (completeMembers_only ..) rfl
      exact hv87
    refine foldl_only ?_ (fun t90 a90 => ?_)
    · exact hv88
    · refine onlyChanges_then ?_ (completeMembers_only ..) rfl
      refine onlyChanges_then ?_ (dropWork_only ..) rfl
      exact onlyChanges_refl _ _

theorem stopRing_only (s : State) (n : Nat) : onlyChanges [.regs, .rng] s (stopRing s n) := by
  unfold stopRing
  refine onlyChanges_then ?_ (modRing_only ..) rfl
  refine onlyChanges_then ?_ (setRegAt_only ..) rfl
  exact onlyChanges_refl _ _

theorem disableRing_only (s : State) (n : Nat) : onlyChanges [.out, .free, .regs, .rng, .hif] s (disableRing s n) := by
  unfold disableRing
  refine onlyChanges_ite ?_ ?_
  · refine onlyChanges_then ?_ (discardOpen_only ..) rfl
    refine onlyChanges_then ?_ (stopRing_only ..) rfl
    exact onlyChanges_refl _ _
  · refine onlyChanges_then ?_ (stopRing_only ..) rfl
    exact onlyChanges_refl _ _

theorem writeRingCfg_only (s : State) (n : Nat) (value : Word) : onlyChanges [.out, .free, .regs, .flt, .saf, .pwr, .rng, .hif, .bld, .lanes] s (writeRingCfg s n value) := by
  unfold writeRingCfg
  extract_lets v91 v92
  refine onlyChanges_ite ?_ ?_
  · refine onlyChanges_ite ?_ ?_
    · refine onlyChanges_ite ?_ ?_
      · exact onlyChanges_refl _ _
      · refine onlyChanges_then ?_ (protocolError_only ..) rfl
        exact onlyChanges_refl _ _
    · refine onlyChanges_ite ?_ ?_
      · refine onlyChanges_then ?_ (protocolError_only ..) rfl
        refine onlyChanges_ite ?_ ?_
        · exact onlyChanges_refl _ _
        · refine onlyChanges_then ?_ (protocolError_only ..) rfl
          exact onlyChanges_refl _ _
      · refine onlyChanges_then ?_ (disableRing_only ..) rfl
        refine onlyChanges_ite ?_ ?_
        · exact onlyChanges_refl _ _
        · refine onlyChanges_then ?_ (protocolError_only ..) rfl
          exact onlyChanges_refl _ _
  · refine onlyChanges_ite ?_ ?_
    · refine onlyChanges_ite ?_ ?_
      · refine onlyChanges_then ?_ (enableRing_only ..) rfl
        refine onlyChanges_then ?_ (setRegAt_only ..) rfl
        refine onlyChanges_ite ?_ ?_
        · exact onlyChanges_refl _ _
        · refine onlyChanges_then ?_ (protocolError_only ..) rfl
          exact onlyChanges_refl _ _
      · refine onlyChanges_then ?_ (protocolError_only ..) rfl
        refine onlyChanges_then ?_ (setRegAt_only ..) rfl
        refine onlyChanges_ite ?_ ?_
        · exact onlyChanges_refl _ _
        · refine onlyChanges_then ?_ (protocolError_only ..) rfl
          exact onlyChanges_refl _ _
    · refine onlyChanges_then ?_ (setRegAt_only ..) rfl
      refine onlyChanges_ite ?_ ?_
      · exact onlyChanges_refl _ _
      · refine onlyChanges_then ?_ (protocolError_only ..) rfl
        exact onlyChanges_refl _ _

theorem disableAll_only (s : State) : onlyChanges [.out, .free, .regs, .rng, .hif] s (disableAll s) := by
  unfold disableAll
  extract_lets v93 v94
  refine foldl_only ?_ (fun t95 a95 => ?_)
  · refine foldl_only ?_ (fun t96 a96 => ?_)
    · exact onlyChanges_refl _ _
    · refine onlyChanges_then ?_ (stopRing_only ..) rfl
      exact onlyChanges_refl _ _
  · refine onlyChanges_then ?_ (discardOpen_only ..) rfl
    exact onlyChanges_refl _ _

theorem writeRngCtrl_only (s : State) (value : Word) : onlyChanges [.out, .free, .regs, .rng, .hif] s (writeRngCtrl s value) := by
  unfold writeRngCtrl
  extract_lets v97
  have hv97 : onlyChanges [.out, .free, .regs, .rng, .hif] s v97 := by
    refine onlyChanges_then ?_ (setRegAt_only ..) rfl
    exact onlyChanges_refl _ _
  refine onlyChanges_ite ?_ ?_
  · exact hv97
  · refine onlyChanges_then ?_ (disableAll_only ..) rfl
    exact hv97

theorem doorbellRelease_only (s : State) (n : Nat) (idx : Nat) : onlyChanges [.out, .free, .flt, .saf, .pwr, .rng, .hif, .bld, .lanes] s (doorbellRelease s n idx) := by
  unfold doorbellRelease
  extract_lets v98 v99 v100 v101 v102 v103 v104 v105
  have hv103 : onlyChanges [.out, .free, .flt, .saf, .pwr, .rng, .hif, .bld, .lanes] s v103 := by
    refine onlyChanges_then ?_ (modRing_only ..) rfl
    exact onlyChanges_refl _ _
  have hv104 : onlyChanges [.out, .free, .flt, .saf, .pwr, .rng, .hif, .bld, .lanes] s v104 := by
    refine onlyChanges_then ?_ (modRng_only ..) rfl
    exact hv103
  have hv105 : onlyChanges [.out, .free, .flt, .saf, .pwr, .rng, .hif, .bld, .lanes] s v105 := by
    refine onlyChanges_ite ?_ ?_
    · refine onlyChanges_then ?_ (flushHeld_only ..) rfl
      exact hv104
    · exact hv104
  refine onlyChanges_ite ?_ ?_
  · refine onlyChanges_then ?_ (protocolError_only ..) rfl
    exact hv105
  · exact hv105

theorem doorbellWrite_only (s : State) (n : Nat) (whole : Bool) (value : Word) : onlyChanges [.out, .free, .flt, .saf, .pwr, .rng, .hif, .bld, .lanes] s (doorbellWrite s n whole value) := by
  unfold doorbellWrite
  extract_lets v106
  refine onlyChanges_ite ?_ ?_
  · refine onlyChanges_then ?_ (protocolError_only ..) rfl
    exact onlyChanges_refl _ _
  · refine onlyChanges_then ?_ (wake_only ..) rfl
    refine onlyChanges_ite ?_ ?_
    · refine onlyChanges_then ?_ (modRing_only ..) rfl
      exact onlyChanges_refl _ _
    · refine onlyChanges_then ?_ (doorbellRelease_only ..) rfl
      exact onlyChanges_refl _ _

theorem slotAgain_only (s : State) (n : Nat) (slot : Nat) : onlyChanges [.rng] s (slotAgain s n slot) := by
  unfold slotAgain
  refine onlyChanges_then ?_ (modRng_only ..) rfl
  exact onlyChanges_refl _ _

theorem takeSlot_only (s : State) (n : Nat) : onlyChanges [.rng] s (takeSlot s n) := by
  unfold takeSlot
  extract_lets v2
  refine onlyChanges_then ?_ (modRing_only ..) rfl
  refine onlyChanges_then ?_ (modRing_only ..) rfl
  refine onlyChanges_then ?_ (slotAgain_only ..) rfl
  exact onlyChanges_refl _ _

theorem setHealth_only (s : State) (h : Head) (p : Nat) (v : Nat) : onlyChanges [.mem] s (setHealth s h p v) := by
  unfold setHealth
  extract_lets v3 v4
  refine onlyChanges_then ?_ (memPut_only ..) rfl
  exact onlyChanges_refl _ _

theorem modKps_only (s : State) (f : Kps → Kps) : onlyChanges [.kps] s (modKps s f) := by
  refine ⟨rfl, fun p h => ?_⟩
  cases p <;> first | rfl | exact ⟨rfl, rfl⟩ | exact ⟨rfl, rfl, rfl⟩ | exact absurd (by decide) h

theorem modCbl_only (s : State) (f : Cbl → Cbl) : onlyChanges [.cbl] s (modCbl s f) := by
  refine ⟨rfl, fun p h => ?_⟩
  cases p <;> first | rfl | exact ⟨rfl, rfl⟩ | exact ⟨rfl, rfl, rfl⟩ | exact absurd (by decide) h

theorem modSector_only (s : State) (p : Nat) (f : Sector → Sector) : onlyChanges [.kps] s (modSector s p f) := by
  refine ⟨rfl, fun p h => ?_⟩
  cases p <;> first | rfl | exact ⟨rfl, rfl⟩ | exact ⟨rfl, rfl, rfl⟩ | exact absurd (by decide) h

theorem spareLevel_only (s : State) : onlyChanges [.out, .free, .flt, .saf, .pwr, .hif, .bld, .lanes] s (spareLevel s) := by
  unfold spareLevel
  refine onlyChanges_then ?_ (setLevel_only ..) rfl
  exact onlyChanges_refl _ _

theorem kpsTake_only (s : State) : onlyChanges [.pwr, .rng, .kps] s (kpsTake s) := by
  unfold kpsTake
  extract_lets v5
  split
  · refine onlyChanges_ite ?_ ?_
    · extract_lets v6
      have hv6 : onlyChanges [.pwr, .rng, .kps] s v6 := by
        refine onlyChanges_then ?_ (modKps_only ..) rfl
        refine onlyChanges_ite ?_ ?_
        · refine raw_pwr ?_ rfl
          exact onlyChanges_refl _ _
        · exact onlyChanges_refl _ _
      split
      · refine onlyChanges_then ?_ (stageWork_only ..) rfl
        refine onlyChanges_then ?_ (modKps_only ..) rfl
        refine onlyChanges_ite ?_ ?_
        · refine raw_pwr ?_ rfl
          exact onlyChanges_refl _ _
        · exact onlyChanges_refl _ _
      · exact hv6
    · exact onlyChanges_refl _ _
  · exact onlyChanges_refl _ _

theorem lastRests_only (s : State) : onlyChanges [.pwr] s (lastRests s) := by
  unfold lastRests
  refine onlyChanges_ite ?_ ?_
  · refine raw_pwr ?_ rfl
    exact onlyChanges_refl _ _
  · exact onlyChanges_refl _ _

theorem kpsRequest_only (s : State) (o : KpsOp) : onlyChanges [.pwr, .rng, .kps] s (kpsRequest s o) := by
  unfold kpsRequest
  refine onlyChanges_then ?_ (kpsTake_only ..) rfl
  refine onlyChanges_then ?_ (modKps_only ..) rfl
  exact onlyChanges_refl _ _

theorem setProposal_only (s : State) (kind : Nat) (p : Option Proposal) : onlyChanges [.cbl] s (setProposal s kind p) := by
  unfold setProposal
  refine onlyChanges_then ?_ (modCbl_only ..) rfl
  exact onlyChanges_refl _ _

theorem cblRecord_only (s : State) (kind : Nat) (number : Nat) (target : Nat) (outcome : Nat) : onlyChanges [.pwr, .rng, .kps] s (cblRecord s kind number target outcome) := by
  unfold cblRecord
  split
  refine onlyChanges_then ?_ (kpsRequest_only ..) rfl
  exact onlyChanges_refl _ _

theorem cblFind_only (s : State) (kind : Nat) (target : Nat) (pixels : List (Nat × Nat)) : onlyChanges [.out, .free, .flt, .saf, .pwr, .rng, .hif, .bld, .lanes, .kps, .cbl] s (cblFind s kind target pixels) := by
  unfold cblFind
  extract_lets v7
  have hv7 : onlyChanges [.out, .free, .flt, .saf, .pwr, .rng, .hif, .bld, .lanes, .kps, .cbl] s v7 := by
    refine onlyChanges_then ?_ (raise_only ..) rfl
    exact onlyChanges_refl _ _
  refine onlyChanges_ite ?_ ?_
  · refine onlyChanges_then ?_ (cblRecord_only ..) rfl
    refine onlyChanges_then ?_ (setProposal_only ..) rfl
    refine onlyChanges_then ?_ (modCbl_only ..) rfl
    exact hv7
  · refine onlyChanges_ite ?_ ?_
    · refine onlyChanges_then ?_ (modCbl_only ..) rfl
      exact hv7
    · exact hv7

theorem cblDone_only (s : State) (kind : Nat) (number : Nat) (target : Nat) (outcome : Nat) : onlyChanges [.pwr, .rng, .kps, .cbl] s (cblDone s kind number target outcome) := by
  unfold cblDone
  extract_lets v8 v9
  have hv9 : onlyChanges [.pwr, .rng, .kps, .cbl] s v9 := by
    refine onlyChanges_then ?_ (modCbl_only ..) rfl
    exact onlyChanges_refl _ _
  refine onlyChanges_then ?_ (cblRecord_only ..) rfl
  exact hv9

theorem cblClose_only (s : State) (kind : Nat) (outcome : Nat) : onlyChanges [.pwr, .rng, .kps, .cbl] s (cblClose s kind outcome) := by
  unfold cblClose
  split
  · exact onlyChanges_refl _ _
  · refine onlyChanges_then ?_ (cblRecord_only ..) rfl
    refine onlyChanges_then ?_ (modCbl_only ..) rfl
    refine onlyChanges_then ?_ (setProposal_only ..) rfl
    exact onlyChanges_refl _ _

theorem sectorCandidate_only (s : State) (p : Nat) : onlyChanges [.out, .free, .flt, .saf, .pwr, .rng, .hif, .bld, .lanes, .kps, .cbl] s (sectorCandidate s p) := by
  unfold sectorCandidate
  extract_lets v10
  refine onlyChanges_ite ?_ ?_
  · exact onlyChanges_refl _ _
  · refine onlyChanges_ite ?_ ?_
    · refine onlyChanges_then ?_ (kpsRequest_only ..) rfl
      refine onlyChanges_then ?_ (cblFind_only ..) rfl
      refine onlyChanges_then ?_ (modSector_only ..) rfl
      exact onlyChanges_refl _ _
    · refine onlyChanges_then ?_ (cblFind_only ..) rfl
      refine onlyChanges_then ?_ (modSector_only ..) rfl
      exact onlyChanges_refl _ _

theorem lastCorrected_only (s : State) (p : Nat) (injected : Bool) : onlyChanges [.out, .free, .flt, .saf, .pwr, .rng, .hif, .bld, .lanes, .kps] s (lastCorrected s p injected) := by
  unfold lastCorrected
  extract_lets v11 v12 v13
  have hv11 : onlyChanges [.out, .free, .flt, .saf, .pwr, .rng, .hif, .bld, .lanes, .kps] s v11 := by
    refine onlyChanges_then ?_ (raiseInj_only ..) rfl
    exact onlyChanges_refl _ _
  have hv12 : onlyChanges [.out, .free, .flt, .saf, .pwr, .rng, .hif, .bld, .lanes, .kps] s v12 := by
    refine onlyChanges_then ?_ (modSector_only ..) rfl
    exact hv11
  have hv13 : onlyChanges [.out, .free, .flt, .saf, .pwr, .rng, .hif, .bld, .lanes, .kps] s v13 := by
    refine onlyChanges_then ?_ (modKps_only ..) rfl
    exact hv12
  refine onlyChanges_ite ?_ ?_
  · exact hv13
  · refine onlyChanges_then ?_ (kpsRequest_only ..) rfl
    exact hv13

theorem lastUncorrectable_only (s : State) (p : Nat) : onlyChanges [.out, .free, .flt, .saf, .pwr, .rng, .hif, .bld, .lanes, .kps, .cbl] s (lastUncorrectable s p) := by
  unfold lastUncorrectable
  refine onlyChanges_then ?_ (sectorCandidate_only ..) rfl
  refine onlyChanges_then ?_ (raise_only ..) rfl
  exact onlyChanges_refl _ _

theorem programmePhysical_only (s : State) (p : Nat) (o : Nat) (bs : List Byte) : onlyChanges [.out, .free, .regs, .flt, .saf, .pwr, .rng, .hif, .bld, .lanes, .kps, .cbl] s (programmePhysical s p o bs) := by
  unfold programmePhysical
  extract_lets v14 v15 v16 v17 v18 v19 v20 v21
  have hv19 : onlyChanges [.out, .free, .regs, .flt, .saf, .pwr, .rng, .hif, .bld, .lanes, .kps,   .cbl] s v19 := by
    refine onlyChanges_then ?_ (modKps_only ..) rfl
    exact onlyChanges_refl _ _
  have hv20 : onlyChanges [.out, .free, .regs, .flt, .saf, .pwr, .rng, .hif, .bld, .lanes, .kps,   .cbl] s v20 := by
    refine onlyChanges_ite ?_ ?_
    · refine onlyChanges_then ?_ (spendInj_only ..) rfl
      exact hv19
    · exact hv19
  have hv21 : onlyChanges [.out, .free, .regs, .flt, .saf, .pwr, .rng, .hif, .bld, .lanes, .kps,   .cbl] s v21 := by
    refine onlyChanges_then ?_ (modSector_only ..) rfl
    exact hv20
  refine onlyChanges_ite ?_ ?_
  · refine onlyChanges_then ?_ (sectorCandidate_only ..) rfl
    exact hv21
  · exact hv21

theorem programme_only (s : State) (a : Nat) (bs : List Byte) : onlyChanges [.out, .free, .regs, .flt, .saf, .pwr, .rng, .hif, .bld, .lanes, .kps, .cbl] s (programme s a bs) := by
  unfold programme
  split
  · refine onlyChanges_then ?_ (programmePhysical_only ..) rfl
    exact onlyChanges_refl _ _
  · exact onlyChanges_refl _ _

theorem swapSector_only (s : State) (p : Nat) : onlyChanges [.out, .free, .regs, .flt, .saf, .pwr, .rng, .hif, .bld, .lanes, .kps, .cbl] s (swapSector s p) := by
  unfold swapSector
  split
  · exact onlyChanges_refl _ _
  · extract_lets v23 v24 v25 v26 v27 v28
    have hv26 : onlyChanges [.out, .free, .regs, .flt, .saf, .pwr, .rng, .hif, .bld, .lanes, .kps,   .cbl] s v26 := by
      refine onlyChanges_then ?_ (programmePhysical_only ..) rfl
      exact onlyChanges_refl _ _
    have hv27 : onlyChanges [.out, .free, .regs, .flt, .saf, .pwr, .rng, .hif, .bld, .lanes, .kps,   .cbl] s v27 := by
      refine onlyChanges_then ?_ (modKps_only ..) rfl
      exact hv26
    have hv28 : onlyChanges [.out, .free, .regs, .flt, .saf, .pwr, .rng, .hif, .bld, .lanes, .kps,   .cbl] s v28 := by
      refine onlyChanges_then ?_ (modSector_only ..) rfl
      exact hv27
    refine onlyChanges_then ?_ (spareLevel_only ..) rfl
    refine onlyChanges_then ?_ (cblDone_only ..) rfl
    refine onlyChanges_then ?_ (modSector_only ..) rfl
    exact hv28

theorem requestCheckpoint_only (s : State) : onlyChanges [.pwr, .rng, .pxc, .kps] s (requestCheckpoint s) := by
  unfold requestCheckpoint
  refine onlyChanges_ite ?_ ?_
  · exact onlyChanges_refl _ _
  · refine foldl_only ?_ (fun t22 a22 => ?_)
    · refine raw_pxc ?_ rfl
      exact onlyChanges_refl _ _
    · refine onlyChanges_then ?_ (kpsRequest_only ..) rfl
      exact onlyChanges_refl _ _

theorem checkpointEnd_only (s : State) : onlyChanges [.pwr, .rng, .pxc, .kps] s (checkpointEnd s) := by
  unfold checkpointEnd
  extract_lets v29 v30 v31
  have hv31 : onlyChanges [.pwr, .rng, .pxc, .kps] s v31 := by
    refine onlyChanges_then ?_ (modKps_only ..) rfl
    exact onlyChanges_refl _ _
  refine onlyChanges_then ?_ (kpsRequest_only ..) rfl
  refine raw_pxc ?_ rfl
  exact hv31

theorem opProgramme_only (s : State) (o : KpsOp) : onlyChanges [.out, .free, .regs, .flt, .saf, .pwr, .rng, .hif, .bld, .lanes, .kps, .cbl] s (opProgramme s o) := by
  unfold opProgramme
  split
  · refine onlyChanges_then ?_ (programme_only ..) rfl
    exact onlyChanges_refl _ _
  · extract_lets v33
    refine onlyChanges_then ?_ (programme_only ..) rfl
    exact onlyChanges_refl _ _
  · extract_lets v34
    have hv34 : onlyChanges [.out, .free, .regs, .flt, .saf, .pwr, .rng, .hif, .bld, .lanes, .kps,   .cbl] s v34 := by
      refine onlyChanges_then ?_ (modKps_only ..) rfl
      exact onlyChanges_refl _ _
    refine onlyChanges_then ?_ (programme_only ..) rfl
    exact hv34
  · refine onlyChanges_then ?_ (programme_only ..) rfl
    exact onlyChanges_refl _ _
  · refine onlyChanges_then ?_ (programme_only ..) rfl
    exact onlyChanges_refl _ _
  · split
    · exact onlyChanges_refl _ _
    · extract_lets v40 v41
      refine onlyChanges_then ?_ (programme_only ..) rfl
      exact onlyChanges_refl _ _
  · refine onlyChanges_then ?_ (programmePhysical_only ..) rfl
    exact onlyChanges_refl _ _
  · refine onlyChanges_then ?_ (swapSector_only ..) rfl
    exact onlyChanges_refl _ _
  · exact onlyChanges_refl _ _

theorem opWritten_only (s : State) (o : KpsOp) : onlyChanges [.out, .free, .regs, .flt, .saf, .pwr, .rng, .hif, .bld, .pxc, .lanes, .kps, .cbl] s (opWritten s o) := by
  unfold opWritten
  extract_lets v32
  have hv32 : onlyChanges [.out, .free, .regs, .flt, .saf, .pwr, .rng, .hif, .bld, .pxc, .lanes,   .kps, .cbl] s v32 := by
    refine onlyChanges_then ?_ (opProgramme_only ..) rfl
    exact onlyChanges_refl _ _
  split
  · refine onlyChanges_then ?_ (modKps_only ..) rfl
    refine onlyChanges_then ?_ (opProgramme_only ..) rfl
    exact onlyChanges_refl _ _
  · refine raw_saf ?_ rfl
    refine onlyChanges_then ?_ (modKps_only ..) rfl
    refine onlyChanges_then ?_ (opProgramme_only ..) rfl
    exact onlyChanges_refl _ _
  · refine onlyChanges_ite ?_ ?_
    · refine onlyChanges_then ?_ (checkpointEnd_only ..) rfl
      refine onlyChanges_then ?_ (opProgramme_only ..) rfl
      exact onlyChanges_refl _ _
    · refine onlyChanges_then ?_ (opProgramme_only ..) rfl
      exact onlyChanges_refl _ _
  · refine onlyChanges_ite ?_ ?_
    · refine onlyChanges_then ?_ (completeWord_only ..) rfl
      refine onlyChanges_then ?_ (opProgramme_only ..) rfl
      exact onlyChanges_refl _ _
    · refine onlyChanges_then ?_ (opProgramme_only ..) rfl
      exact onlyChanges_refl _ _
  · exact hv32

theorem lastView_only (s : State) : onlyChanges [.out, .free, .regs, .flt, .saf, .pwr, .rng, .hif, .bld, .lanes, .kps, .cbl] s (lastView s) := by
  unfold lastView
  split
  · exact onlyChanges_refl _ _
  · refine onlyChanges_then ?_ (opProgramme_only ..) rfl
    refine onlyChanges_then ?_ (modKps_only ..) rfl
    exact onlyChanges_refl _ _

theorem lastTouch_only (s : State) (a : Nat) (n : Nat) : onlyChanges [.out, .free, .regs, .flt, .saf, .pwr, .rng, .hif, .bld, .lanes, .kps, .cbl] s (lastTouch s a n) := by
  unfold lastTouch
  extract_lets v35 v36 v37 v38 v39
  have hv35 : onlyChanges [.out, .free, .regs, .flt, .saf, .pwr, .rng, .hif, .bld, .lanes, .kps,   .cbl] s v35 := by
    refine onlyChanges_then ?_ (lastView_only ..) rfl
    exact onlyChanges_refl _ _
  have hv39 : onlyChanges [.out, .free, .regs, .flt, .saf, .pwr, .rng, .hif, .bld, .lanes, .kps,   .cbl] s v39 := by
    refine foldl_only ?_ (fun t42 a42 => ?_)
    · refine foldl_only ?_ (fun t43 a43 => ?_)
      · exact onlyChanges_refl _ _
      · refine onlyChanges_then ?_ (lastCorrected_only ..) rfl
        exact onlyChanges_refl _ _
    · refine onlyChanges_then ?_ (lastUncorrectable_only ..) rfl
      exact onlyChanges_refl _ _
  refine onlyChanges_then ?_ (raiseTimes_only ..) rfl
  exact hv39

theorem lastRead_only (s : State) (a : Nat) (n : Nat) : onlyChanges [.out, .free, .regs, .flt, .saf, .pwr, .rng, .hif, .bld, .lanes, .kps, .cbl] s (lastRead s a n).2 := by
  unfold lastRead
  dsimp -zeta only
  refine onlyChanges_then ?_ (lastTouch_only ..) rfl
  exact onlyChanges_refl _ _

theorem dropLastWrite_only (s : State) (ring : Nat) (slot : Nat) : onlyChanges [.kps] s (dropLastWrite s ring slot) := by
  unfold dropLastWrite
  refine onlyChanges_then ?_ (modKps_only ..) rfl
  exact onlyChanges_refl _ _

theorem opLost_only (s : State) (o : KpsOp) : onlyChanges [.out, .free, .pwr, .rng, .hif, .pxc, .kps, .cbl] s (opLost s o) := by
  unfold opLost
  split
  · refine onlyChanges_then ?_ (kpsRequest_only ..) rfl
    refine onlyChanges_then ?_ (modKps_only ..) rfl
    exact onlyChanges_refl _ _
  · refine onlyChanges_then ?_ (completeWord_only ..) rfl
    refine onlyChanges_then ?_ (dropLastWrite_only ..) rfl
    exact onlyChanges_refl _ _
  · refine raw_pxc ?_ rfl
    exact onlyChanges_refl _ _
  · refine onlyChanges_then ?_ (modKps_only ..) rfl
    refine raw_pxc ?_ rfl
    exact onlyChanges_refl _ _
  · refine onlyChanges_then ?_ (cblDone_only ..) rfl
    exact onlyChanges_refl _ _
  · exact onlyChanges_refl _ _

theorem opFailed_only (s : State) (o : KpsOp) : onlyChanges [.out, .free, .regs, .flt, .saf, .pwr, .rng, .hif, .bld, .pxc, .lanes, .kps, .cbl] s (opFailed s o) := by
  unfold opFailed
  extract_lets v44
  have hv44 : onlyChanges [.out, .free, .regs, .flt, .saf, .pwr, .rng, .hif, .bld, .pxc, .lanes,   .kps, .cbl] s v44 := by
    refine onlyChanges_then ?_ (raise_only ..) rfl
    exact onlyChanges_refl _ _
  split
  · refine onlyChanges_then ?_ (opLost_only ..) rfl
    exact hv44
  · extract_lets v0
    have hv0 : onlyChanges [.out, .free, .regs, .flt, .saf, .pwr, .rng, .hif, .bld, .pxc, .lanes,   .kps, .cbl] s v0 := by
      refine onlyChanges_then ?_ (modSector_only ..) rfl
      refine onlyChanges_then ?_ (cblFind_only ..) rfl
      exact hv44
    refine onlyChanges_ite ?_ ?_
    · refine onlyChanges_then ?_ (opWritten_only ..) rfl
      refine onlyChanges_then ?_ (swapSector_only ..) rfl
      exact hv0
    · refine onlyChanges_then ?_ (opLost_only ..) rfl
      exact hv0

theorem calFinish_only (s : State) : onlyChanges [.out, .free, .rng, .hif, .pxc] s (calFinish s) := by
  unfold calFinish
  extract_lets v45 v46
  refine foldl_only ?_ (fun t47 a47 => ?_)
  · refine raw_pxc ?_ rfl
    exact onlyChanges_refl _ _
  · refine onlyChanges_then ?_ (completeAt_only ..) rfl
    exact onlyChanges_refl _ _

theorem calibSectorDone_only (s : State) (ring : Nat) (slot : Nat) (l : Nat) : onlyChanges [.out, .free, .rng, .hif, .pxc] s (calibSectorDone s ring slot l) := by
  unfold calibSectorDone
  refine onlyChanges_then ?_ (calFinish_only ..) rfl
  refine raw_pxc ?_ rfl
  exact onlyChanges_refl _ _

theorem kpsEnd_only (s : State) (ok : Bool) : onlyChanges [.out, .free, .regs, .flt, .saf, .pwr, .rng, .hif, .bld, .pxc, .lanes, .kps, .cbl] s (kpsEnd s ok) := by
  unfold kpsEnd
  split
  · exact onlyChanges_refl _ _
  · exact onlyChanges_refl _ _
  · extract_lets v0 v1 v2
    have hv0 : onlyChanges [.out, .free, .regs, .flt, .saf, .pwr, .rng, .hif, .bld, .pxc, .lanes,   .kps, .cbl] s v0 := by
      refine onlyChanges_then ?_ (modKps_only ..) rfl
      exact onlyChanges_refl _ _
    have hv1 : onlyChanges [.out, .free, .regs, .flt, .saf, .pwr, .rng, .hif, .bld, .pxc, .lanes,   .kps, .cbl] s v1 := by
      refine onlyChanges_ite ?_ ?_
      · refine onlyChanges_then ?_ (opWritten_only ..) rfl
        exact hv0
      · refine onlyChanges_then ?_ (opFailed_only ..) rfl
        exact hv0
    have hv2 : onlyChanges [.out, .free, .regs, .flt, .saf, .pwr, .rng, .hif, .bld, .pxc, .lanes,   .kps, .cbl] s v2 := by
      dsimp -zeta only [v2]
      split
      · refine onlyChanges_then ?_ (calibSectorDone_only ..) rfl
        refine onlyChanges_ite ?_ ?_
        · refine onlyChanges_then ?_ (opWritten_only ..) rfl
          exact hv0
        · refine onlyChanges_then ?_ (opFailed_only ..) rfl
          exact hv0
      · exact hv1
    refine onlyChanges_then ?_ (kpsTake_only ..) rfl
    refine onlyChanges_then ?_ (lastRests_only ..) rfl
    exact hv2

theorem kpsScrub_only (s : State) (found : Bool) (bad : Option Nat) : onlyChanges [.out, .free, .flt, .saf, .pwr, .rng, .hif, .bld, .lanes, .kps, .cbl] s (kpsScrub s found bad) := by
  unfold kpsScrub
  refine onlyChanges_ite ?_ ?_
  · exact onlyChanges_refl _ _
  · extract_lets v48 v49 v50 v51 v52 v53 v54
    have hv51 : onlyChanges [.out, .free, .flt, .saf, .pwr, .rng, .hif, .bld, .lanes, .kps, .cbl] s v51 := by
      dsimp -zeta only [v51]
      split
      · refine onlyChanges_then ?_ (modKps_only ..) rfl
        exact onlyChanges_refl _ _
      · exact onlyChanges_refl _ _
    have hv54 : onlyChanges [.out, .free, .flt, .saf, .pwr, .rng, .hif, .bld, .lanes, .kps, .cbl] s v54 := by
      refine onlyChanges_then ?_ (modKps_only ..) rfl
      exact hv51
    refine onlyChanges_ite ?_ ?_
    · exact hv54
    · refine onlyChanges_then ?_ (modSector_only ..) rfl
      refine onlyChanges_ite ?_ ?_
      · refine onlyChanges_then ?_ (lastUncorrectable_only ..) rfl
        refine onlyChanges_ite ?_ ?_
        · refine onlyChanges_then ?_ (sectorCandidate_only ..) rfl
          refine onlyChanges_ite ?_ ?_
          · refine onlyChanges_then ?_ (lastCorrected_only ..) rfl
            exact hv54
          · exact hv54
        · refine onlyChanges_ite ?_ ?_
          · refine onlyChanges_then ?_ (lastCorrected_only ..) rfl
            exact hv54
          · exact hv54
      · refine onlyChanges_ite ?_ ?_
        · refine onlyChanges_then ?_ (sectorCandidate_only ..) rfl
          refine onlyChanges_ite ?_ ?_
          · refine onlyChanges_then ?_ (lastCorrected_only ..) rfl
            exact hv54
          · exact hv54
        · refine onlyChanges_ite ?_ ?_
          · refine onlyChanges_then ?_ (lastCorrected_only ..) rfl
            exact hv54
          · exact hv54

theorem fuseProgramWrite_only (s : State) (v : Word) : onlyChanges [.kps] s (fuseProgramWrite s v) := by
  unfold fuseProgramWrite
  extract_lets v55 v56
  refine onlyChanges_ite ?_ ?_
  · refine onlyChanges_then ?_ (modKps_only ..) rfl
    exact onlyChanges_refl _ _
  · refine onlyChanges_then ?_ (modKps_only ..) rfl
    exact onlyChanges_refl _ _

theorem fuseEnd_only (s : State) (ok : Bool) : onlyChanges [.kps] s (fuseEnd s ok) := by
  unfold fuseEnd
  split
  · exact onlyChanges_refl _ _
  · extract_lets v57
    have hv57 : onlyChanges [.kps] s v57 := by
      refine onlyChanges_then ?_ (modKps_only ..) rfl
      exact onlyChanges_refl _ _
    refine onlyChanges_ite ?_ ?_
    · refine onlyChanges_then ?_ (modKps_only ..) rfl
      exact hv57
    · refine onlyChanges_then ?_ (modKps_only ..) rfl
      exact hv57

theorem windowWord_only (s : State) (hi : Bool) : onlyChanges [.out, .free, .regs, .flt, .saf, .pwr, .rng, .hif, .bld, .lanes, .kps, .cbl] s (windowWord s hi).2 := by
  unfold windowWord
  extract_lets v58
  split
  · split
    split
    · dsimp -zeta only
      refine onlyChanges_snd (by assumption) ?_
      refine onlyChanges_then ?_ (lastRead_only ..) rfl
      exact onlyChanges_refl _ _
    · dsimp -zeta only
      refine onlyChanges_then ?_ (modKps_only ..) rfl
      refine onlyChanges_snd (by assumption) ?_
      refine onlyChanges_then ?_ (lastRead_only ..) rfl
      exact onlyChanges_refl _ _
  · dsimp -zeta only
    refine onlyChanges_then ?_ (modKps_only ..) rfl
    exact onlyChanges_refl _ _

theorem windowReadHiOp_only (s : State) : onlyChanges [.out, .free, .regs, .flt, .saf, .pwr, .rng, .hif, .bld, .lanes, .kps, .cbl] s (windowReadHiOp s).2 := by
  unfold windowReadHiOp
  split
  dsimp -zeta only
  refine onlyChanges_then ?_ (setRegAt_only ..) rfl
  refine onlyChanges_snd (by assumption) ?_
  refine onlyChanges_then ?_ (windowWord_only ..) rfl
  exact onlyChanges_refl _ _

theorem modLmm_only (s : State) (f : Lmm → Lmm) : onlyChanges [.lmm] s (modLmm s f) := by
  refine ⟨rfl, fun p h => ?_⟩
  cases p <;> first | rfl | exact ⟨rfl, rfl⟩ | exact ⟨rfl, rfl, rfl⟩ | exact absurd (by decide) h

theorem writeBudget_only (s : State) (c : Nat) (v : Word) : onlyChanges [.regs, .lmm] s (writeBudget s c v) := by
  unfold writeBudget
  extract_lets v1
  refine onlyChanges_ite ?_ ?_
  · refine onlyChanges_then ?_ (modLmm_only ..) rfl
    exact onlyChanges_refl _ _
  · refine onlyChanges_then ?_ (setRegAt_only ..) rfl
    exact onlyChanges_refl _ _

theorem writeRegion_only (s : State) (k : Nat) (v : Word) : onlyChanges [.regs, .lmm] s (writeRegion s k v) := by
  unfold writeRegion
  extract_lets v2 v3 v4 v5
  refine onlyChanges_ite ?_ ?_
  · refine onlyChanges_then ?_ (setRegAt_only ..) rfl
    exact onlyChanges_refl _ _
  · refine onlyChanges_then ?_ (modLmm_only ..) rfl
    exact onlyChanges_refl _ _

theorem bankCandidate_only (s : State) (b : Nat) : onlyChanges [.out, .free, .flt, .saf, .pwr, .rng, .hif, .lmm, .bld, .lanes, .kps, .cbl] s (bankCandidate s b) := by
  unfold bankCandidate
  extract_lets v6
  refine onlyChanges_ite ?_ ?_
  · refine onlyChanges_then ?_ (kpsRequest_only ..) rfl
    refine onlyChanges_then ?_ (modBank_only ..) rfl
    exact onlyChanges_refl _ _
  · refine onlyChanges_ite ?_ ?_
    · exact onlyChanges_refl _ _
    · refine onlyChanges_ite ?_ ?_
      · refine onlyChanges_then ?_ (raise_only ..) rfl
        refine onlyChanges_then ?_ (cblFind_only ..) rfl
        refine onlyChanges_then ?_ (modBank_only ..) rfl
        exact onlyChanges_refl _ _
      · refine onlyChanges_ite ?_ ?_
        · refine onlyChanges_then ?_ (modLmm_only ..) rfl
          refine onlyChanges_then ?_ (cblFind_only ..) rfl
          refine onlyChanges_then ?_ (modBank_only ..) rfl
          exact onlyChanges_refl _ _
        · refine onlyChanges_then ?_ (cblFind_only ..) rfl
          refine onlyChanges_then ?_ (modBank_only ..) rfl
          exact onlyChanges_refl _ _

theorem addressOf_only (s : State) (p : Nat) : onlyChanges [.free] s (addressOf s p).2 := by
  unfold addressOf
  split
  · dsimp -zeta only
    exact onlyChanges_refl _ _
  · refine onlyChanges_then ?_ (drawBelow_only ..) rfl
    exact onlyChanges_refl _ _

theorem corrected_only (s : State) (p : Nat) (scrub : Bool) : onlyChanges [.out, .free, .flt, .saf, .pwr, .rng, .hif, .lmm, .bld, .lanes, .kps, .cbl] s (corrected s p scrub) := by
  unfold corrected
  extract_lets v7 v8
  split
  extract_lets v9 v10 v11 v12
  have hv9 : onlyChanges [.out, .free, .flt, .saf, .pwr, .rng, .hif, .lmm, .bld, .lanes, .kps,   .cbl] s v9 := by
    refine onlyChanges_then ?_ (modLmm_only ..) rfl
    refine onlyChanges_snd (by assumption) ?_
    refine onlyChanges_then ?_ (addressOf_only ..) rfl
    refine onlyChanges_then ?_ (raiseInj_only ..) rfl
    exact onlyChanges_refl _ _
  have hv10 : onlyChanges [.out, .free, .flt, .saf, .pwr, .rng, .hif, .lmm, .bld, .lanes, .kps,   .cbl] s v10 := by
    refine onlyChanges_then ?_ (modBank_only ..) rfl
    exact hv9
  have hv11 : onlyChanges [.out, .free, .flt, .saf, .pwr, .rng, .hif, .lmm, .bld, .lanes, .kps,   .cbl] s v11 := by
    refine onlyChanges_ite ?_ ?_
    · refine onlyChanges_then ?_ (modLmm_only ..) rfl
      exact hv10
    · exact hv10
  refine onlyChanges_ite ?_ ?_
  · refine onlyChanges_then ?_ (bankCandidate_only ..) rfl
    exact hv11
  · exact hv11

theorem spoilSweep_only (s : State) (h : Head) : onlyChanges [.tg] s (spoilSweep s h) := by
  unfold spoilSweep
  refine onlyChanges_then ?_ (modTg_only ..) rfl
  exact onlyChanges_refl _ _

theorem spoilSweeps_only (s : State) (m : Nat) : onlyChanges [.tg] s (spoilSweeps s m) := by
  unfold spoilSweeps
  refine foldl_only ?_ (fun t13 a13 => ?_)
  · exact onlyChanges_refl _ _
  · refine onlyChanges_then ?_ (spoilSweep_only ..) rfl
    exact onlyChanges_refl _ _

theorem journalSpoilt_only (s : State) : onlyChanges [.rng] s (journalSpoilt s) := by
  unfold journalSpoilt
  refine onlyChanges_then ?_ (modRng_only ..) rfl
  exact onlyChanges_refl _ _

theorem injectWord_only (s : State) (p : Option Nat) : onlyChanges [.out, .free, .regs, .flt, .saf, .pwr, .hif, .lmm, .bld, .lanes] s (injectWord s p) := by
  unfold injectWord
  split
  · refine onlyChanges_then ?_ (spendInj_only ..) rfl
    refine onlyChanges_then ?_ (modLmm_only ..) rfl
    exact onlyChanges_refl _ _
  · exact onlyChanges_refl _ _

theorem wordWritten_only (s : State) (w : Nat) : onlyChanges [.out, .free, .regs, .flt, .saf, .pwr, .hif, .lmm, .bld, .lanes] s (wordWritten s w) := by
  unfold wordWritten
  extract_lets v3 v4
  have hv4 : onlyChanges [.out, .free, .regs, .flt, .saf, .pwr, .hif, .lmm, .bld, .lanes] s v4 := by
    refine onlyChanges_then ?_ (modLmm_only ..) rfl
    exact onlyChanges_refl _ _
  split
  · refine onlyChanges_then ?_ (injectWord_only ..) rfl
    exact hv4
  · exact hv4

theorem flatSpoilt_only (s : State) (path : Head) : onlyChanges [.bld] s (flatSpoilt s path) := by
  unfold flatSpoilt
  refine onlyChanges_then ?_ (modBld_only ..) rfl
  exact onlyChanges_refl _ _

theorem runSpoilt_only (s : State) (w : Nat) : onlyChanges [.bld] s (runSpoilt s w) := by
  unfold runSpoilt
  refine foldl_only ?_ (fun t5 a5 => ?_)
  · exact onlyChanges_refl _ _
  · extract_lets v6 v7
    refine onlyChanges_ite ?_ ?_
    · refine onlyChanges_then ?_ (flatSpoilt_only ..) rfl
      exact onlyChanges_refl _ _
    · exact onlyChanges_refl _ _

theorem repairWord_only (s : State) (w : Nat) : onlyChanges [.out, .free, .regs, .mem, .flt, .saf, .pwr, .rng, .hif, .lmm, .bld, .lanes, .kps, .cbl] s (repairWord s w) := by
  unfold repairWord
  extract_lets v8
  split
  · refine onlyChanges_then ?_ (flatSpoilt_only ..) rfl
    exact onlyChanges_refl _ _
  · refine onlyChanges_then ?_ (flatSpoilt_only ..) rfl
    exact onlyChanges_refl _ _
  · refine onlyChanges_then ?_ (wordWritten_only ..) rfl
    refine onlyChanges_then ?_ (memWrite_only ..) rfl
    exact onlyChanges_refl _ _
  · refine onlyChanges_then ?_ (wordWritten_only ..) rfl
    refine onlyChanges_then ?_ (memWrite_only ..) rfl
    exact onlyChanges_refl _ _
  · refine onlyChanges_ite ?_ ?_
    · refine onlyChanges_then ?_ (wordWritten_only ..) rfl
      refine onlyChanges_then ?_ (memWrite_only ..) rfl
      exact onlyChanges_refl _ _
    · exact onlyChanges_refl _ _
  · refine onlyChanges_then ?_ (wordWritten_only ..) rfl
    refine onlyChanges_then ?_ (journalSpoilt_only ..) rfl
    exact onlyChanges_refl _ _
  · refine onlyChanges_then ?_ (runSpoilt_only ..) rfl
    exact onlyChanges_refl _ _
  · exact onlyChanges_refl _ _

theorem withdrawRows_only (s : State) (h : Head) (line : Nat) : onlyChanges [.tbl] s (withdrawRows s h line) := by
  unfold withdrawRows
  refine foldl_only ?_ (fun t9 a9 => ?_)
  · exact onlyChanges_refl _ _
  · refine foldl_only ?_ (fun t10 a10 => ?_)
    · exact onlyChanges_refl _ _
    · refine onlyChanges_then ?_ (modTile_only ..) rfl
      exact onlyChanges_refl _ _

theorem abandonRow_only (s : State) (h : Head) (slot : Nat) (line : Nat) : onlyChanges [.out, .free, .flt, .saf, .pwr, .hif, .ly, .bld, .tg, .lanes, .tbl] s (abandonRow s h slot line) := by
  unfold abandonRow
  extract_lets v11
  refine onlyChanges_ite ?_ ?_
  · exact onlyChanges_refl _ _
  · refine onlyChanges_ite ?_ ?_
    · refine onlyChanges_then ?_ (raise_only ..) rfl
      refine onlyChanges_then ?_ (modLy_only ..) rfl
      refine onlyChanges_then ?_ (modTg_only ..) rfl
      refine onlyChanges_then ?_ (withdrawRows_only ..) rfl
      exact onlyChanges_refl _ _
    · refine onlyChanges_then ?_ (modLy_only ..) rfl
      refine onlyChanges_then ?_ (modTg_only ..) rfl
      refine onlyChanges_then ?_ (withdrawRows_only ..) rfl
      exact onlyChanges_refl _ _

theorem rowSpoilt_only (s : State) (path : Head) (w : Nat) (k : Nat) : onlyChanges [.out, .free, .flt, .saf, .pwr, .hif, .ly, .bld, .tg, .lanes, .tbl] s (rowSpoilt s path w k) := by
  unfold rowSpoilt
  extract_lets v12 v13 v14 v15
  refine onlyChanges_ite ?_ ?_
  · refine onlyChanges_then ?_ (abandonRow_only ..) rfl
    exact onlyChanges_refl _ _
  · refine onlyChanges_then ?_ (abandonRow_only ..) rfl
    exact onlyChanges_refl _ _

theorem workSpoilt_only (s : State) (w : Nat) (used : Bool) : onlyChanges [.out, .free, .flt, .saf, .pwr, .hif, .ly, .bld, .pxc, .tg, .lanes, .tbl] s (workSpoilt s w used) := by
  unfold workSpoilt
  extract_lets v16 v17
  refine onlyChanges_ite ?_ ?_
  · refine foldl_only ?_ (fun t18 a18 => ?_)
    · exact onlyChanges_refl _ _
    · refine onlyChanges_ite ?_ ?_
      · refine onlyChanges_then ?_ (rowSpoilt_only ..) rfl
        exact onlyChanges_refl _ _
      · exact onlyChanges_refl _ _
  · refine onlyChanges_ite ?_ ?_
    · refine onlyChanges_then ?_ (spoilSweeps_only ..) rfl
      refine foldl_only ?_ (fun t23 a23 => ?_)
      · exact onlyChanges_refl _ _
      · refine onlyChanges_then ?_ (modPxc_only ..) rfl
        exact onlyChanges_refl _ _
    · refine onlyChanges_ite ?_ ?_
      · refine onlyChanges_then ?_ (spoilSweeps_only ..) rfl
        exact onlyChanges_refl _ _
      · refine onlyChanges_ite ?_ ?_
        · refine onlyChanges_then ?_ (spoilSweeps_only ..) rfl
          exact onlyChanges_refl _ _
        · exact onlyChanges_refl _ _

theorem uncorrectable_only (s : State) (b : Nat) (w : Option Nat) (used : Bool) (injected : Bool) : onlyChanges [.out, .free, .regs, .mem, .flt, .saf, .pwr, .rng, .hif, .lmm, .ly, .bld, .pxc, .tg, .lanes, .tbl, .kps, .cbl] s (uncorrectable s b w used injected) := by
  unfold uncorrectable
  split
  · extract_lets v19 v20 v21
    have hv20 : onlyChanges [.out, .free, .regs, .mem, .flt, .saf, .pwr, .rng, .hif, .lmm, .ly,   .bld, .pxc, .tg, .lanes, .tbl, .kps, .cbl] s v20 := by
      refine onlyChanges_then ?_ (raiseInj_only ..) rfl
      exact onlyChanges_refl _ _
    have hv21 : onlyChanges [.out, .free, .regs, .mem, .flt, .saf, .pwr, .rng, .hif, .lmm, .ly,   .bld, .pxc, .tg, .lanes, .tbl, .kps, .cbl] s v21 := by
      refine onlyChanges_then ?_ (modLmm_only ..) rfl
      exact hv20
    refine onlyChanges_then ?_ (bankCandidate_only ..) rfl
    refine onlyChanges_then ?_ (repairWord_only ..) rfl
    refine onlyChanges_then ?_ (workSpoilt_only ..) rfl
    exact hv21
  · split
    split
    extract_lets v33
    have hv33 : onlyChanges [.out, .free, .regs, .mem, .flt, .saf, .pwr, .rng, .hif, .lmm, .ly,   .bld, .pxc, .tg, .lanes, .tbl, .kps, .cbl] s v33 := by
      refine onlyChanges_then ?_ (raiseInj_only ..) rfl
      refine onlyChanges_snd (by assumption) ?_
      refine onlyChanges_then ?_ (drawBelow_only ..) rfl
      refine onlyChanges_snd (by assumption) ?_
      refine onlyChanges_then ?_ (drawBelow_only ..) rfl
      exact onlyChanges_refl _ _
    refine onlyChanges_then ?_ (bankCandidate_only ..) rfl
    refine onlyChanges_then ?_ (modLmm_only ..) rfl
    exact hv33

theorem readChecks_only (s : State) (reader : Option Head) (used : Bool) (w : Nat) : onlyChanges [.out, .free, .regs, .mem, .flt, .saf, .pwr, .rng, .hif, .lmm, .ly, .bld, .pxc, .tg, .lanes, .tbl, .kps, .cbl] s (readChecks s reader used w) := by
  unfold readChecks
  extract_lets v22
  split
  · refine onlyChanges_then ?_ (uncorrectable_only ..) rfl
    exact onlyChanges_refl _ _
  · refine onlyChanges_then ?_ (corrected_only ..) rfl
    exact onlyChanges_refl _ _
  · refine onlyChanges_ite ?_ ?_
    · refine onlyChanges_then ?_ (uncorrectable_only ..) rfl
      exact onlyChanges_refl _ _
    · exact onlyChanges_refl _ _

theorem clientRead_only (s : State) (reader : Option Head) (ranges : List (Nat × Nat)) : onlyChanges [.out, .free, .regs, .mem, .flt, .saf, .pwr, .rng, .hif, .lmm, .ly, .bld, .pxc, .tg, .lanes, .tbl, .kps, .cbl] s (clientRead s reader ranges) := by
  unfold clientRead
  refine foldl_only ?_ (fun t24 a24 => ?_)
  · exact onlyChanges_refl _ _
  · refine onlyChanges_then ?_ (readChecks_only ..) rfl
    exact onlyChanges_refl _ _

theorem clientPut_only (s0 : State) (a : Nat) (bs : List Byte) : onlyChanges [.out, .free, .regs, .mem, .flt, .saf, .pwr, .hif, .lmm, .bld, .lanes] s0 (clientPut s0 a bs) := by
  unfold clientPut
  refine onlyChanges_ite ?_ ?_
  · exact onlyChanges_refl _ _
  · extract_lets v25 v26 v27 v28 v29
    have hv29 : onlyChanges [.out, .free, .regs, .mem, .flt, .saf, .pwr, .hif, .lmm, .bld, .lanes] s0 v29 := by
      refine onlyChanges_then ?_ (modLmm_only ..) rfl
      refine onlyChanges_then ?_ (memWrite_only ..) rfl
      exact onlyChanges_refl _ _
    split
    · refine onlyChanges_then ?_ (injectWord_only ..) rfl
      exact hv29
    · exact hv29

theorem clientWrite_only (s : State) (a : Nat) (bs : List Byte) : onlyChanges [.out, .free, .regs, .mem, .flt, .saf, .pwr, .rng, .hif, .lmm, .ly, .bld, .pxc, .tg, .lanes, .tbl, .kps, .cbl] s (clientWrite s a bs) := by
  unfold clientWrite
  refine onlyChanges_ite ?_ ?_
  · exact onlyChanges_refl _ _
  · refine onlyChanges_then ?_ (clientPut_only ..) rfl
    refine foldl_only ?_ (fun t31 a31 => ?_)
    · exact onlyChanges_refl _ _
    · refine onlyChanges_then ?_ (readChecks_only ..) rfl
      exact onlyChanges_refl _ _

theorem passEnd_only (s : State) : onlyChanges [.lmm] s (passEnd s) := by
  unfold passEnd
  extract_lets v30
  have hv30 : onlyChanges [.lmm] s v30 := by
    refine onlyChanges_then ?_ (modLmm_only ..) rfl
    exact onlyChanges_refl _ _
  refine foldl_only ?_ (fun t32 a32 => ?_)
  · exact hv30
  · refine onlyChanges_then ?_ (modBank_only ..) rfl
    exact onlyChanges_refl _ _

theorem scrubBad_only (s : State) (p : Nat) (injected : Bool) : onlyChanges [.out, .free, .regs, .mem, .flt, .saf, .pwr, .rng, .hif, .lmm, .ly, .bld, .pxc, .tg, .lanes, .tbl, .kps, .cbl] s (scrubBad s p injected) := by
  unfold scrubBad
  refine onlyChanges_then ?_ (modLmm_only ..) rfl
  refine onlyChanges_then ?_ (uncorrectable_only ..) rfl
  exact onlyChanges_refl _ _

theorem scrubRead_only (s : State) (p : Nat) (errors : List (Nat × Bool)) : onlyChanges [.out, .free, .regs, .mem, .flt, .saf, .pwr, .rng, .hif, .lmm, .ly, .bld, .pxc, .tg, .lanes, .tbl, .kps, .cbl] s (scrubRead s p errors) := by
  unfold scrubRead
  extract_lets v34
  split
  · refine onlyChanges_then ?_ (scrubBad_only ..) rfl
    exact onlyChanges_refl _ _
  · refine onlyChanges_then ?_ (scrubBad_only ..) rfl
    exact onlyChanges_refl _ _
  · refine onlyChanges_then ?_ (corrected_only ..) rfl
    exact onlyChanges_refl _ _
  · refine onlyChanges_then ?_ (corrected_only ..) rfl
    exact onlyChanges_refl _ _
  · refine onlyChanges_ite ?_ ?_
    · refine onlyChanges_then ?_ (scrubBad_only ..) rfl
      exact onlyChanges_refl _ _
    · exact onlyChanges_refl _ _

theorem scrubOne_only (s : State) (errors : List (Nat × Bool)) : onlyChanges [.out, .free, .regs, .mem, .flt, .saf, .pwr, .rng, .hif, .lmm, .ly, .bld, .pxc, .tg, .lanes, .tbl, .kps, .cbl] s (scrubOne s errors) := by
  unfold scrubOne
  extract_lets v35 v36 v37 v38 v39
  have hv36 : onlyChanges [.out, .free, .regs, .mem, .flt, .saf, .pwr, .rng, .hif, .lmm, .ly,   .bld, .pxc, .tg, .lanes, .tbl, .kps, .cbl] s v36 := by
    refine onlyChanges_ite ?_ ?_
    · refine onlyChanges_then ?_ (passEnd_only ..) rfl
      exact onlyChanges_refl _ _
    · exact onlyChanges_refl _ _
  have hv37 : onlyChanges [.out, .free, .regs, .mem, .flt, .saf, .pwr, .rng, .hif, .lmm, .ly,   .bld, .pxc, .tg, .lanes, .tbl, .kps, .cbl] s v37 := by
    refine onlyChanges_then ?_ (scrubRead_only ..) rfl
    exact hv36
  have hv39 : onlyChanges [.out, .free, .regs, .mem, .flt, .saf, .pwr, .rng, .hif, .lmm, .ly,   .bld, .pxc, .tg, .lanes, .tbl, .kps, .cbl] s v39 := by
    refine onlyChanges_then ?_ (modLmm_only ..) rfl
    exact hv37
  refine onlyChanges_ite ?_ ?_
  · refine onlyChanges_then ?_ (passEnd_only ..) rfl
    exact hv39
  · exact hv39

theorem scrubMany_only (s : State) (errors : List (Nat × Bool)) (x1 : Nat) : onlyChanges [.out, .free, .regs, .mem, .flt, .saf, .pwr, .rng, .hif, .lmm, .ly, .bld, .pxc, .tg, .lanes, .tbl, .kps, .cbl] s (scrubMany s errors x1) := by
  induction x1 generalizing s with
  | zero => exact onlyChanges_refl _ _
  | succ n ih =>
    unfold scrubMany
    repeat first
      | (with_reducible exact onlyChanges_refl _ _)
      | (with_reducible refine onlyChanges_trans ?_ (ih ..))
      | (with_reducible refine onlyChanges_then ?_ (scrubOne_only ..) rfl)
      | (with_reducible refine onlyChanges_ite ?_ ?_)
      | split
      | dsimp only

theorem periodStart_only (s : State) (used : List (Nat × Nat)) (errors : List (Nat × Bool)) : onlyChanges [.out, .free, .regs, .mem, .flt, .saf, .pwr, .rng, .hif, .lmm, .ly, .bld, .pxc, .tg, .lanes, .tbl, .kps, .cbl] s (periodStart s used errors) := by
  unfold periodStart
  extract_lets v40
  have hv40 : onlyChanges [.out, .free, .regs, .mem, .flt, .saf, .pwr, .rng, .hif, .lmm, .ly,   .bld, .pxc, .tg, .lanes, .tbl, .kps, .cbl] s v40 := by
    refine onlyChanges_then ?_ (modLmm_only ..) rfl
    exact onlyChanges_refl _ _
  refine onlyChanges_ite ?_ ?_
  · refine onlyChanges_then ?_ (scrubMany_only ..) rfl
    exact hv40
  · exact hv40

theorem writeBackOne_only (s : State) : onlyChanges [.out, .free, .regs, .flt, .saf, .pwr, .hif, .lmm, .bld, .lanes] s (writeBackOne s) := by
  unfold writeBackOne
  split
  · exact onlyChanges_refl _ _
  · extract_lets v41
    have hv41 : onlyChanges [.out, .free, .regs, .flt, .saf, .pwr, .hif, .lmm, .bld, .lanes] s v41 := by
      refine onlyChanges_then ?_ (modLmm_only ..) rfl
      exact onlyChanges_refl _ _
    refine onlyChanges_ite ?_ ?_
    · refine onlyChanges_then ?_ (injectWord_only ..) rfl
      exact hv41
    · exact hv41

theorem retireStart_only (s : State) : onlyChanges [.lmm] s (retireStart s) := by
  unfold retireStart
  split
  · refine onlyChanges_then ?_ (modBank_only ..) rfl
    refine onlyChanges_then ?_ (modLmm_only ..) rfl
    exact onlyChanges_refl _ _
  · exact onlyChanges_refl _ _

theorem retireFinish_only (s : State) : onlyChanges [.pwr, .rng, .lmm, .kps, .cbl] s (retireFinish s) := by
  unfold retireFinish
  split
  · exact onlyChanges_refl _ _
  · refine onlyChanges_ite ?_ ?_
    · extract_lets v42 v43
      have hv42 : onlyChanges [.pwr, .rng, .lmm, .kps, .cbl] s v42 := by
        refine onlyChanges_then ?_ (modBank_only ..) rfl
        exact onlyChanges_refl _ _
      have hv43 : onlyChanges [.pwr, .rng, .lmm, .kps, .cbl] s v43 := by
        refine onlyChanges_then ?_ (modBank_only ..) rfl
        exact hv42
      refine onlyChanges_then ?_ (kpsRequest_only ..) rfl
      refine onlyChanges_then ?_ (cblDone_only ..) rfl
      refine onlyChanges_then ?_ (modLmm_only ..) rfl
      exact hv43
    · exact onlyChanges_refl _ _

theorem retireSwitch_only (s : State) (h : Head) : onlyChanges [.pwr, .rng, .lmm, .kps, .cbl] s (retireSwitch s h) := by
  unfold retireSwitch
  split
  · exact onlyChanges_refl _ _
  · refine onlyChanges_ite ?_ ?_
    · refine onlyChanges_then ?_ (retireFinish_only ..) rfl
      refine onlyChanges_then ?_ (modLmm_only ..) rfl
      exact onlyChanges_refl _ _
    · exact onlyChanges_refl _ _

theorem copierReads_only (s : State) (b : Nat) : onlyChanges [.out, .free, .regs, .mem, .flt, .saf, .pwr, .rng, .hif, .lmm, .ly, .bld, .pxc, .tg, .lanes, .tbl, .kps, .cbl] s (copierReads s b) := by
  unfold copierReads
  refine foldl_only ?_ (fun t44 a44 => ?_)
  · exact onlyChanges_refl _ _
  · refine onlyChanges_then ?_ (readChecks_only ..) rfl
    exact onlyChanges_refl _ _

theorem copierWrites_only (s : State) (b : Nat) : onlyChanges [.out, .free, .regs, .flt, .saf, .pwr, .hif, .lmm, .bld, .lanes] s (copierWrites s b) := by
  unfold copierWrites
  extract_lets v45
  have hv45 : onlyChanges [.out, .free, .regs, .flt, .saf, .pwr, .hif, .lmm, .bld, .lanes] s v45 := by
    refine onlyChanges_then ?_ (modLmm_only ..) rfl
    exact onlyChanges_refl _ _
  refine onlyChanges_ite ?_ ?_
  · refine onlyChanges_then ?_ (injectWord_only ..) rfl
    exact hv45
  · exact hv45

theorem copyEnd_only (s : State) : onlyChanges [.out, .free, .regs, .mem, .flt, .saf, .pwr, .rng, .hif, .lmm, .ly, .bld, .pxc, .tg, .lanes, .tbl, .kps, .cbl] s (copyEnd s) := by
  unfold copyEnd
  split
  · exact onlyChanges_refl _ _
  · refine onlyChanges_ite ?_ ?_
    · exact onlyChanges_refl _ _
    · extract_lets v46
      have hv46 : onlyChanges [.out, .free, .regs, .mem, .flt, .saf, .pwr, .rng, .hif, .lmm, .ly,   .bld, .pxc, .tg, .lanes, .tbl, .kps, .cbl] s v46 := by
        refine onlyChanges_then ?_ (copierWrites_only ..) rfl
        refine onlyChanges_then ?_ (copierReads_only ..) rfl
        exact onlyChanges_refl _ _
      refine onlyChanges_then ?_ (retireFinish_only ..) rfl
      refine onlyChanges_then ?_ (modLmm_only ..) rfl
      exact hv46

theorem retireAbandon_only (s : State) : onlyChanges [.lmm] s (retireAbandon s) := by
  unfold retireAbandon
  split
  · exact onlyChanges_refl _ _
  · refine onlyChanges_then ?_ (modBank_only ..) rfl
    refine onlyChanges_then ?_ (modBank_only ..) rfl
    refine onlyChanges_then ?_ (modLmm_only ..) rfl
    exact onlyChanges_refl _ _

theorem writeMapCfg_only (s : State) (h : Head) (v : Word) : onlyChanges [.regs, .shd] s (writeMapCfg s h v) := by
  unfold writeMapCfg
  refine onlyChanges_ite ?_ ?_
  · split
    · refine onlyChanges_then ?_ (setRegAt_only ..) rfl
      exact onlyChanges_refl _ _
    · refine onlyChanges_then ?_ (modShd_only ..) rfl
      extract_lets v60
      have hv60 : onlyChanges [.regs, .shd] s v60 := by
        refine onlyChanges_then ?_ (setRegAt_only ..) rfl
        exact onlyChanges_refl _ _
      refine raw_shdNode ?_ rfl
      exact hv60
  · refine onlyChanges_then ?_ (setRegAt_only ..) rfl
    exact onlyChanges_refl _ _

theorem buildMask_only (s : State) (h : Head) (emission : Int) : onlyChanges [.out, .free, .regs, .mem, .flt, .saf, .pwr, .rng, .hif, .lmm, .ly, .shd, .bld, .pxc, .tg, .lanes, .tbl, .kps, .cbl] s (buildMask s h emission) := by
  unfold buildMask
  refine onlyChanges_ite ?_ ?_
  · exact onlyChanges_refl _ _
  · extract_lets v47 v48 v49 v50 v51 v52 v53 v54 v55 v56 v57 v58 v59
    have hv56 : onlyChanges [.out, .free, .regs, .mem, .flt, .saf, .pwr, .rng, .hif, .lmm, .ly,   .shd, .bld, .pxc, .tg, .lanes, .tbl, .kps, .cbl] s v56 := by
      refine foldl_only ?_ (fun t61 a61 => ?_)
      · exact onlyChanges_refl _ _
      · refine onlyChanges_then ?_ (clientWrite_only ..) rfl
        exact onlyChanges_refl _ _
    have hv59 : onlyChanges [.out, .free, .regs, .mem, .flt, .saf, .pwr, .rng, .hif, .lmm, .ly,   .shd, .bld, .pxc, .tg, .lanes, .tbl, .kps, .cbl] s v59 := by
      refine onlyChanges_then ?_ (modShd_only ..) rfl
      exact hv56
    refine onlyChanges_then ?_ (setLevel_only ..) rfl
    refine onlyChanges_then ?_ (setLevel_only ..) rfl
    exact hv59

theorem mapList_only (s : State) (h : Head) (ring : Nat) (slot : Nat) (f : ObjList → ObjList) : onlyChanges [.shd] s (mapList s h ring slot f) := by
  unfold mapList
  refine onlyChanges_then ?_ (modShd_only ..) rfl
  exact onlyChanges_refl _ _

theorem dropList_only (s : State) (h : Head) (ring : Nat) (slot : Nat) : onlyChanges [.shd] s (dropList s h ring slot) := by
  unfold dropList
  refine onlyChanges_then ?_ (modShd_only ..) rfl
  exact onlyChanges_refl _ _

theorem listsApply_only (s : State) (h : Head) : onlyChanges [.shd] s (listsApply s h) := by
  unfold listsApply
  dsimp only
  split
  · exact onlyChanges_refl _ _
  · refine onlyChanges_then ?_ (modShd_only ..) rfl
    exact onlyChanges_refl _ _

theorem listsCompose_only (s : State) (h : Head) : onlyChanges [.shd] s (listsCompose s h) := by
  unfold listsCompose
  refine onlyChanges_then ?_ (modShd_only ..) rfl
  exact onlyChanges_refl _ _

theorem listsComplete_only (s : State) (h : Head) (fsn : Word) (time : Word) : onlyChanges [.out, .rng, .hif, .shd] s (listsComplete s h fsn time) := by
  unfold listsComplete
  extract_lets v63
  refine onlyChanges_then ?_ (modShd_only ..) rfl
  refine foldl_only ?_ (fun t64 a64 => ?_)
  · exact onlyChanges_refl _ _
  · refine onlyChanges_then ?_ (completeStitch_only ..) rfl
    exact onlyChanges_refl _ _

theorem refuseList_only (s : State) (h : Head) (ring : Nat) (slot : Nat) (code : Nat) (detail : Nat) : onlyChanges [.out, .free, .rng, .hif, .shd] s (refuseList s h ring slot code detail) := by
  unfold refuseList
  refine onlyChanges_then ?_ (completeAt_only ..) rfl
  refine onlyChanges_then ?_ (dropList_only ..) rfl
  exact onlyChanges_refl _ _

theorem listRead_only (s : State) (h : Head) (l : ObjList) (d : Desc) (data : HostRead) : onlyChanges [.out, .free, .rng, .hif, .shd] s (listRead s h l d data) := by
  unfold listRead
  split
  · refine onlyChanges_then ?_ (refuseList_only ..) rfl
    refine onlyChanges_then ?_ (hostFails_only ..) rfl
    exact onlyChanges_refl _ _
  · refine onlyChanges_then ?_ (refuseList_only ..) rfl
    exact onlyChanges_refl _ _
  · extract_lets v65
    refine onlyChanges_ite ?_ ?_
    · refine onlyChanges_then ?_ (refuseList_only ..) rfl
      exact onlyChanges_refl _ _
    · split
      · refine onlyChanges_then ?_ (refuseList_only ..) rfl
        refine onlyChanges_then ?_ (modShd_only ..) rfl
        exact onlyChanges_refl _ _
      · refine onlyChanges_ite ?_ ?_
        · refine onlyChanges_then ?_ (refuseList_only ..) rfl
          exact onlyChanges_refl _ _
        · refine onlyChanges_ite ?_ ?_
          · refine onlyChanges_then ?_ (refuseList_only ..) rfl
            exact onlyChanges_refl _ _
          · refine onlyChanges_ite ?_ ?_
            · refine onlyChanges_then ?_ (listsApply_only ..) rfl
              refine onlyChanges_then ?_ (mapList_only ..) rfl
              exact onlyChanges_refl _ _
            · refine onlyChanges_then ?_ (mapList_only ..) rfl
              exact onlyChanges_refl _ _

theorem listReadDone_only (s : State) (h : Head) (slot : Nat) (data : HostRead) : onlyChanges [.out, .free, .rng, .hif, .shd] s (listReadDone s h slot data) := by
  unfold listReadDone
  split
  · exact onlyChanges_refl _ _
  · split
    · exact onlyChanges_refl _ _
    · refine onlyChanges_then ?_ (listRead_only ..) rfl
      exact onlyChanges_refl _ _

theorem objectsFetch_only (s : State) (ring : Nat) (slot : Nat) (d : Desc) (h : Head) : onlyChanges [.out, .free, .rng, .hif, .shd] s (objectsFetch s ring slot d h) := by
  unfold objectsFetch
  split
  · refine onlyChanges_then ?_ (completeAt_only ..) rfl
    exact onlyChanges_refl _ _
  · refine onlyChanges_ite ?_ ?_
    · refine onlyChanges_then ?_ (completeAt_only ..) rfl
      exact onlyChanges_refl _ _
    · extract_lets v0 v1
      have hv1 : onlyChanges [.out, .free, .rng, .hif, .shd] s v1 := by
        refine onlyChanges_then ?_ (modShd_only ..) rfl
        exact onlyChanges_refl _ _
      refine onlyChanges_ite ?_ ?_
      · refine onlyChanges_then ?_ (listRead_only ..) rfl
        exact hv1
      · exact hv1

theorem writeMapWord_only (s : State) (h : Head) (idx : Nat) (v : Word) : onlyChanges [.regs] s (writeMapWord s h idx v) := by
  unfold writeMapWord
  refine onlyChanges_ite ?_ ?_
  · refine onlyChanges_then ?_ (setRegAt_only ..) rfl
    refine onlyChanges_then ?_ (setReg_only ..) rfl
    exact onlyChanges_refl _ _
  · exact onlyChanges_refl _ _

theorem writeAge_only (s : State) (h : Head) (drop : Bool) (v : Word) : onlyChanges [.regs] s (writeAge s h drop v) := by
  unfold writeAge
  extract_lets v66 v67 v68
  refine onlyChanges_ite ?_ ?_
  · refine onlyChanges_then ?_ (setRegAt_only ..) rfl
    exact onlyChanges_refl _ _
  · exact onlyChanges_refl _ _

theorem writeShdCtrl_only (s : State) (v : Word) : onlyChanges [.regs, .shd] s (writeShdCtrl s v) := by
  unfold writeShdCtrl
  extract_lets v69
  refine foldl_only ?_ (fun t70 a70 => ?_)
  · exact onlyChanges_refl _ _
  · extract_lets v71
    refine onlyChanges_ite ?_ ?_
    · refine raw_shdRefused ?_ rfl
      exact onlyChanges_refl _ _
    · refine onlyChanges_then ?_ (setRegAt_only ..) rfl
      exact onlyChanges_refl _ _

theorem sendLtr_only (s : State) (v : Option Nat) : onlyChanges [.out, .hif] s (sendLtr s v) := by
  unfold sendLtr
  refine onlyChanges_ite ?_ ?_
  · refine onlyChanges_then ?_ (emit_only ..) rfl
    refine raw_hif ?_ rfl
    exact onlyChanges_refl _ _
  · exact onlyChanges_refl _ _

theorem ltrJudged_only (s : State) : onlyChanges [.hif, .tg] s (ltrJudged s) := by
  unfold ltrJudged
  refine raw_hif ?_ rfl
  exact onlyChanges_refl _ _

theorem ltrHigher_only (s : State) (changed : Bool) : onlyChanges [.out, .hif, .tg] s (ltrHigher s changed) := by
  unfold ltrHigher
  extract_lets v72 v73
  have hv73 : onlyChanges [.out, .hif, .tg] s v73 := by
    refine onlyChanges_then ?_ (ltrJudged_only ..) rfl
    exact onlyChanges_refl _ _
  refine onlyChanges_ite ?_ ?_
  · refine onlyChanges_ite ?_ ?_
    · refine raw_hif ?_ rfl
      exact hv73
    · refine onlyChanges_then ?_ (sendLtr_only ..) rfl
      exact hv73
  · exact hv73

theorem replayComplete_only (s : State) (ms : List Member) (o : Outcome86) : onlyChanges [.out, .rng, .hif] s (replayComplete s ms o) := by
  unfold replayComplete
  refine onlyChanges_ite ?_ ?_
  · refine onlyChanges_then ?_ (completeSet_only ..) rfl
    exact onlyChanges_refl _ _
  · refine onlyChanges_then ?_ (completeSet_only ..) rfl
    exact onlyChanges_refl _ _

theorem recordOutcome_only (s : State) (h : Head) (o : Outcome86) : onlyChanges [.out, .rng, .hif] s (recordOutcome s h o) := by
  unfold recordOutcome
  extract_lets v74 v75 v76
  have hv76 : onlyChanges [.out, .rng, .hif] s v76 := by
    refine onlyChanges_then ?_ (modRngHead_only ..) rfl
    exact onlyChanges_refl _ _
  refine foldl_only ?_ (fun t78 a78 => ?_)
  · exact hv76
  · refine onlyChanges_then ?_ (replayComplete_only ..) rfl
    exact onlyChanges_refl _ _

theorem closeSet_only (s : State) (h : Head) (c : ChangeSet) (code : Nat) (detail : Nat) (fsn : Word) (time : Word) : onlyChanges [.out, .rng, .hif] s (closeSet s h c code detail fsn time) := by
  unfold closeSet
  extract_lets v77
  have hv77 : onlyChanges [.out, .rng, .hif] s v77 := by
    refine onlyChanges_then ?_ (modRngHead_only ..) rfl
    exact onlyChanges_refl _ _
  refine onlyChanges_then ?_ (recordOutcome_only ..) rfl
  refine onlyChanges_then ?_ (completeSet_only ..) rfl
  exact hv77

theorem refuseSet_only (s : State) (h : Head) (c : ChangeSet) (code : Nat) (detail : Nat) : onlyChanges [.out, .free, .rng, .hif, .tg] s (refuseSet s h c code detail) := by
  unfold refuseSet
  split
  refine onlyChanges_then ?_ (ltrHigher_only ..) rfl
  refine onlyChanges_then ?_ (closeSet_only ..) rfl
  refine onlyChanges_snd (by assumption) ?_
  refine onlyChanges_then ?_ (stampHost_only ..) rfl
  exact onlyChanges_refl _ _

theorem mapSet_only (s : State) (h : Head) (csn : Word) (f : ChangeSet → ChangeSet) : onlyChanges [.rng] s (mapSet s h csn f) := by
  unfold mapSet
  refine onlyChanges_then ?_ (modRngHead_only ..) rfl
  exact onlyChanges_refl _ _

theorem flatSettle_only (s : State) (h : Head) (old : Store Slot) : onlyChanges [.bld] s (flatSettle s h old) := by
  unfold flatSettle
  extract_lets v79 v80 v81
  refine onlyChanges_then ?_ (modBld_only ..) rfl
  exact onlyChanges_refl _ _

theorem setsApply_only (s : State) (h : Head) : onlyChanges [.rng, .ly, .bld] s (setsApply s h) := by
  unfold setsApply
  extract_lets v82 v83 v84 v85 v86
  have hv85 : onlyChanges [.rng, .ly, .bld] s v85 := by
    refine onlyChanges_then ?_ (modLy_only ..) rfl
    exact onlyChanges_refl _ _
  have hv86 : onlyChanges [.rng, .ly, .bld] s v86 := by
    refine onlyChanges_then ?_ (modRngHead_only ..) rfl
    exact hv85
  refine foldl_only ?_ (fun t89 a89 => ?_)
  · exact hv86
  · refine onlyChanges_then ?_ (flatSettle_only ..) rfl
    exact onlyChanges_refl _ _

theorem setsCompose_only (s : State) (h : Head) : onlyChanges [.rng, .ly] s (setsCompose s h) := by
  unfold setsCompose
  refine onlyChanges_then ?_ (modRngHead_only ..) rfl
  refine onlyChanges_then ?_ (modLy_only ..) rfl
  exact onlyChanges_refl _ _

theorem setsComplete_only (s : State) (h : Head) (fsn : Word) (time : Word) : onlyChanges [.out, .rng, .hif] s (setsComplete s h fsn time) := by
  unfold setsComplete
  extract_lets v87
  refine foldl_only ?_ (fun t88 a88 => ?_)
  · exact onlyChanges_refl _ _
  · refine onlyChanges_then ?_ (closeSet_only ..) rfl
    refine onlyChanges_then ?_ (modRngHead_only ..) rfl
    exact onlyChanges_refl _ _

theorem setValidated_only (s : State) (h : Head) (c : ChangeSet) : onlyChanges [.out, .free, .rng, .hif, .ly, .bld, .tg] s (setValidated s h c) := by
  unfold setValidated
  refine onlyChanges_ite ?_ ?_
  · refine onlyChanges_then ?_ (refuseSet_only ..) rfl
    exact onlyChanges_refl _ _
  · extract_lets v90
    have hv90 : onlyChanges [.out, .free, .rng, .hif, .ly, .bld, .tg] s v90 := by
      refine onlyChanges_then ?_ (mapSet_only ..) rfl
      exact onlyChanges_refl _ _
    refine onlyChanges_ite ?_ ?_
    · refine onlyChanges_then ?_ (setsApply_only ..) rfl
      exact hv90
    · exact hv90

theorem setMoved_only (s : State) (h : Head) (c : ChangeSet) : onlyChanges [.out, .free, .rng, .hif, .ly, .bld, .tg] s (setMoved s h c) := by
  unfold setMoved
  refine onlyChanges_ite ?_ ?_
  · refine onlyChanges_then ?_ (mapSet_only ..) rfl
    exact onlyChanges_refl _ _
  · refine onlyChanges_then ?_ (setValidated_only ..) rfl
    exact onlyChanges_refl _ _

theorem setChecked_only (s : State) (h : Head) (c : ChangeSet) : onlyChanges [.out, .free, .rng, .hif, .ly, .bld, .tg] s (setChecked s h c) := by
  unfold setChecked
  extract_lets v91 v92 v93 v94 v95 v96 v97 v98
  have hv91 : onlyChanges [.out, .free, .rng, .hif, .ly, .bld, .tg] s v91 := by
    refine onlyChanges_then ?_ (mapSet_only ..) rfl
    exact onlyChanges_refl _ _
  have hv97 : onlyChanges [.out, .free, .rng, .hif, .ly, .bld, .tg] s v97 := by
    refine onlyChanges_ite ?_ ?_
    · refine onlyChanges_then ?_ (sendLtr_only ..) rfl
      exact hv91
    · refine onlyChanges_ite ?_ ?_
      · refine onlyChanges_then ?_ (mapSet_only ..) rfl
        refine raw_hif ?_ rfl
        exact hv91
      · exact hv91
  refine onlyChanges_ite ?_ ?_
  · refine onlyChanges_then ?_ (setMoved_only ..) rfl
    refine onlyChanges_then ?_ (ltrJudged_only ..) rfl
    exact hv97
  · refine onlyChanges_then ?_ (ltrJudged_only ..) rfl
    exact hv97

theorem setsCheck_only (x1 : Nat) (x2 : State) (x3 : Head) : onlyChanges [.out, .free, .rng, .hif, .ly, .bld, .tg] x2 (setsCheck x1 x2 x3) := by
  induction x1 generalizing x2 with
  | zero => exact onlyChanges_refl _ _
  | succ n ih =>
    unfold setsCheck
    split
    · exact onlyChanges_refl _ _
    · extract_lets c
      split
      · exact onlyChanges_trans (onlyChanges_then (onlyChanges_refl _ _) (refuseSet_only ..) rfl) (ih _)
      · refine onlyChanges_ite (onlyChanges_refl _ _) ?_
        split
        · exact onlyChanges_trans (onlyChanges_then (onlyChanges_refl _ _) (refuseSet_only ..) rfl) (ih _)
        · exact onlyChanges_trans (onlyChanges_then (onlyChanges_then (onlyChanges_refl _ _) (mapSet_only ..) rfl) (setChecked_only ..) rfl) (ih _)

theorem blockRead_only (s : State) (h : Head) (csn : Word) (i : Nat) (data : HostRead) : onlyChanges [.out, .free, .rng, .hif, .ly, .bld, .tg] s (blockRead s h csn i data) := by
  unfold blockRead
  split
  · exact onlyChanges_refl _ _
  · refine onlyChanges_ite ?_ ?_
    · exact onlyChanges_refl _ _
    · split
      · extract_lets v99
        refine onlyChanges_ite ?_ ?_
        · refine onlyChanges_then ?_ (setsCheck_only ..) rfl
          refine onlyChanges_then ?_ (refuseSet_only ..) rfl
          exact onlyChanges_refl _ _
        · refine onlyChanges_then ?_ (setsCheck_only ..) rfl
          refine onlyChanges_then ?_ (mapSet_only ..) rfl
          exact onlyChanges_refl _ _
      · refine onlyChanges_then ?_ (setsCheck_only ..) rfl
        refine onlyChanges_then ?_ (refuseSet_only ..) rfl
        refine onlyChanges_then ?_ (hostFails_only ..) rfl
        exact onlyChanges_refl _ _
      · refine onlyChanges_then ?_ (setsCheck_only ..) rfl
        refine onlyChanges_then ?_ (refuseSet_only ..) rfl
        exact onlyChanges_refl _ _
      · exact onlyChanges_refl _ _

theorem transferEnd_only (s : State) (h : Head) (csn : Word) (i : Nat) (data : HostRead) : onlyChanges [.out, .free, .regs, .mem, .flt, .saf, .pwr, .rng, .hif, .lmm, .ly, .bld, .pxc, .tg, .lanes, .tbl, .kps, .cbl] s (transferEnd s h csn i data) := by
  unfold transferEnd
  split
  · exact onlyChanges_refl _ _
  · refine onlyChanges_ite ?_ ?_
    · exact onlyChanges_refl _ _
    · split
      · refine onlyChanges_ite ?_ ?_
        · exact onlyChanges_refl _ _
        · extract_lets v103 v104
          have hv104 : onlyChanges [.out, .free, .regs, .mem, .flt, .saf, .pwr, .rng, .hif, .lmm, .ly,   .bld, .pxc, .tg, .lanes, .tbl, .kps, .cbl] s v104 := by
            refine onlyChanges_then ?_ (clientWrite_only ..) rfl
            exact onlyChanges_refl _ _
          refine onlyChanges_ite ?_ ?_
          · refine onlyChanges_then ?_ (refuseSet_only ..) rfl
            refine onlyChanges_then ?_ (raise_only ..) rfl
            exact hv104
          · refine onlyChanges_ite ?_ ?_
            · refine onlyChanges_then ?_ (setMoved_only ..) rfl
              refine onlyChanges_then ?_ (mapSet_only ..) rfl
              exact hv104
            · refine onlyChanges_then ?_ (mapSet_only ..) rfl
              exact hv104
      · refine onlyChanges_ite ?_ ?_
        · exact onlyChanges_refl _ _
        · refine onlyChanges_then ?_ (refuseSet_only ..) rfl
          refine onlyChanges_then ?_ (hostFails_only ..) rfl
          exact onlyChanges_refl _ _
      · refine onlyChanges_ite ?_ ?_
        · exact onlyChanges_refl _ _
        · refine onlyChanges_then ?_ (refuseSet_only ..) rfl
          exact onlyChanges_refl _ _
      · exact onlyChanges_refl _ _

theorem setsAfterLtr_only (s : State) : onlyChanges [.out, .free, .rng, .hif, .ly, .bld, .tg] s (setsAfterLtr s) := by
  unfold setsAfterLtr
  refine foldl_only ?_ (fun t100 a100 => ?_)
  · exact onlyChanges_refl _ _
  · extract_lets v101 v102
    have hv102 : onlyChanges [.out, .free, .rng, .hif, .ly, .bld, .tg] t100 v102 := by
      refine onlyChanges_then ?_ (modRngHead_only ..) rfl
      exact onlyChanges_refl _ _
    refine foldl_only ?_ (fun t0 a0 => ?_)
    · exact hv102
    · refine onlyChanges_then ?_ (setValidated_only ..) rfl
      exact onlyChanges_refl _ _

theorem ltrExpiry_only (s : State) : onlyChanges [.out, .free, .rng, .hif, .ly, .bld, .tg] s (ltrExpiry s) := by
  unfold ltrExpiry
  extract_lets v106
  split
  · refine raw_hif ?_ rfl
    exact onlyChanges_refl _ _
  · refine onlyChanges_then ?_ (setsAfterLtr_only ..) rfl
    refine onlyChanges_ite ?_ ?_
    · refine onlyChanges_then ?_ (sendLtr_only ..) rfl
      refine raw_hif ?_ rfl
      exact onlyChanges_refl _ _
    · refine raw_hif ?_ rfl
      refine raw_hif ?_ rfl
      exact onlyChanges_refl _ _

theorem ltrAtStitch_only (s : State) (h : Head) : onlyChanges [.out, .hif, .ly, .tg] s (ltrAtStitch s h) := by
  unfold ltrAtStitch
  refine onlyChanges_then ?_ (ltrHigher_only ..) rfl
  refine onlyChanges_then ?_ (modLy_only ..) rfl
  exact onlyChanges_refl _ _

theorem discardSet_only (s : State) (h : Head) (ring : Nat) : onlyChanges [.out, .free, .flt, .saf, .pwr, .rng, .hif, .bld, .lanes] s (discardSet s h ring) := by
  unfold discardSet
  extract_lets v2
  refine onlyChanges_then ?_ (protocolError_only ..) rfl
  refine onlyChanges_then ?_ (completeMembers_only ..) rfl
  refine onlyChanges_then ?_ (modRngHead_only ..) rfl
  exact onlyChanges_refl _ _

theorem commitFetched_only (s : State) (h : Head) (ms : List Member) (c : Member) : onlyChanges [.out, .free, .rng, .hif, .ly, .bld, .tg] s (commitFetched s h ms c) := by
  unfold commitFetched
  extract_lets v3
  split
  refine onlyChanges_ite ?_ ?_
  · refine onlyChanges_then ?_ (completeSet_only ..) rfl
    refine onlyChanges_snd (by assumption) ?_
    refine onlyChanges_then ?_ (stampHost_only ..) rfl
    exact onlyChanges_refl _ _
  · refine onlyChanges_ite ?_ ?_
    · refine onlyChanges_then ?_ (setsCheck_only ..) rfl
      refine onlyChanges_then ?_ (modRngHead_only ..) rfl
      exact onlyChanges_refl _ _
    · refine onlyChanges_ite ?_ ?_
      · split
        · refine onlyChanges_then ?_ (replayComplete_only ..) rfl
          exact onlyChanges_refl _ _
        · refine onlyChanges_ite ?_ ?_
          · refine onlyChanges_then ?_ (modRngHead_only ..) rfl
            exact onlyChanges_refl _ _
          · refine onlyChanges_then ?_ (completeSet_only ..) rfl
            refine onlyChanges_snd (by assumption) ?_
            refine onlyChanges_then ?_ (stampHost_only ..) rfl
            exact onlyChanges_refl _ _
      · refine onlyChanges_then ?_ (completeSet_only ..) rfl
        refine onlyChanges_snd (by assumption) ?_
        refine onlyChanges_then ?_ (stampHost_only ..) rfl
        exact onlyChanges_refl _ _

theorem memberFetch_only (s : State) (h : Head) (m : Member) : onlyChanges [.out, .free, .flt, .saf, .pwr, .rng, .hif, .ly, .bld, .tg, .lanes] s (memberFetch s h m) := by
  unfold memberFetch
  extract_lets v4 v5
  split
  · refine onlyChanges_ite ?_ ?_
    · refine onlyChanges_ite ?_ ?_
      · refine onlyChanges_then ?_ (modRngHead_only ..) rfl
        refine onlyChanges_then ?_ (completeMembers_only ..) rfl
        exact onlyChanges_refl _ _
      · refine onlyChanges_then ?_ (completeMembers_only ..) rfl
        exact onlyChanges_refl _ _
    · refine onlyChanges_ite ?_ ?_
      · refine onlyChanges_then ?_ (commitFetched_only ..) rfl
        refine onlyChanges_then ?_ (modRngHead_only ..) rfl
        exact onlyChanges_refl _ _
      · refine onlyChanges_then ?_ (modRngHead_only ..) rfl
        exact onlyChanges_refl _ _
  · refine onlyChanges_ite ?_ ?_
    · refine onlyChanges_then ?_ (commitFetched_only ..) rfl
      refine onlyChanges_then ?_ (modRngHead_only ..) rfl
      refine onlyChanges_ite ?_ ?_
      · refine onlyChanges_then ?_ (discardSet_only ..) rfl
        exact onlyChanges_refl _ _
      · exact onlyChanges_refl _ _
    · refine onlyChanges_ite ?_ ?_
      · refine onlyChanges_then ?_ (discardSet_only ..) rfl
        refine onlyChanges_then ?_ (modRngHead_only ..) rfl
        refine onlyChanges_ite ?_ ?_
        · refine onlyChanges_then ?_ (discardSet_only ..) rfl
          exact onlyChanges_refl _ _
        · exact onlyChanges_refl _ _
      · refine onlyChanges_then ?_ (modRngHead_only ..) rfl
        refine onlyChanges_ite ?_ ?_
        · refine onlyChanges_then ?_ (discardSet_only ..) rfl
          exact onlyChanges_refl _ _
        · exact onlyChanges_refl _ _

theorem abortSet_only (s : State) (h : Head) (c : ChangeSet) : onlyChanges [.out, .free, .rng, .hif, .ly, .bld, .tg] s (abortSet s h c) := by
  unfold abortSet
  refine onlyChanges_then ?_ (setsCheck_only ..) rfl
  refine onlyChanges_then ?_ (refuseSet_only ..) rfl
  exact onlyChanges_refl _ _

theorem abortOpen_only (s : State) (h : Head) (ms : List Member) : onlyChanges [.out, .free, .rng, .hif] s (abortOpen s h ms) := by
  unfold abortOpen
  refine onlyChanges_then ?_ (completeMembers_only ..) rfl
  refine onlyChanges_then ?_ (modRngHead_only ..) rfl
  exact onlyChanges_refl _ _

theorem emitPacket_only (s : State) (h : Head) (t : Nat) (seq : Nat) (p : Packet) : onlyChanges [.out, .free, .lanes] s (emitPacket s h t seq p) := by
  unfold emitPacket
  extract_lets v6 v7
  refine onlyChanges_then ?_ (sendSymbols_only ..) rfl
  refine onlyChanges_ite ?_ ?_
  · refine onlyChanges_then ?_ (emit_only ..) rfl
    exact onlyChanges_refl _ _
  · exact onlyChanges_refl _ _

theorem pump_only (x1 : Nat) (x2 : State) (x3 : Head) (x4 : Nat) : onlyChanges [.out, .free, .lanes, .tbl] x2 (pump x1 x2 x3 x4) := by
  induction x1 generalizing x2 with
  | zero => exact onlyChanges_refl _ _
  | succ n ih =>
    unfold pump
    repeat first
      | (with_reducible exact onlyChanges_refl _ _)
      | (with_reducible refine onlyChanges_trans ?_ (ih ..))
      | (with_reducible refine onlyChanges_then ?_ (emitPacket_only ..) rfl)
      | (with_reducible refine onlyChanges_then ?_ (modTile_only ..) rfl)
      | (with_reducible refine onlyChanges_ite ?_ ?_)
      | split
      | dsimp only

theorem sendPackets_only (s : State) (h : Head) (t : Nat) (ps : List Packet) : onlyChanges [.out, .free, .lanes, .tbl] s (sendPackets s h t ps) := by
  unfold sendPackets
  refine onlyChanges_then ?_ (pump_only ..) rfl
  refine onlyChanges_then ?_ (modTile_only ..) rfl
  exact onlyChanges_refl _ _

theorem replayAll_only (s : State) (h : Head) (t : Nat) : onlyChanges [.out, .free, .regs, .mem, .flt, .saf, .pwr, .rng, .hif, .lmm, .ly, .bld, .pxc, .tg, .lanes, .tbl, .kps, .cbl] s (replayAll s h t) := by
  unfold replayAll
  extract_lets v8
  refine onlyChanges_ite ?_ ?_
  · refine onlyChanges_then ?_ (modTile_only ..) rfl
    refine foldl_only ?_ (fun t9 a9 => ?_)
    · refine onlyChanges_then ?_ (clientRead_only ..) rfl
      exact onlyChanges_refl _ _
    · refine onlyChanges_then ?_ (emitPacket_only ..) rfl
      exact onlyChanges_refl _ _
  · exact onlyChanges_refl _ _

theorem newEpoch_only (s : State) (h : Head) (t : Nat) : onlyChanges [.free, .tbl] s (newEpoch s h t).2 := by
  unfold newEpoch
  split
  extract_lets v10
  dsimp -zeta only
  refine onlyChanges_then ?_ (modTbl_only ..) rfl
  refine onlyChanges_snd (by assumption) ?_
  refine onlyChanges_then ?_ (drawBelow_only ..) rfl
  exact onlyChanges_refl _ _

theorem sendConfig_only (s : State) (h : Head) (t : Nat) : onlyChanges [.out, .free, .lanes, .tbl] s (sendConfig s h t) := by
  unfold sendConfig
  split
  extract_lets v11 v12 v13
  have hv13 : onlyChanges [.out, .free, .lanes, .tbl] s v13 := by
    refine onlyChanges_then ?_ (emitPacket_only ..) rfl
    refine onlyChanges_snd (by assumption) ?_
    refine onlyChanges_then ?_ (newEpoch_only ..) rfl
    exact onlyChanges_refl _ _
  refine onlyChanges_then ?_ (modTile_only ..) rfl
  exact hv13

theorem updateConfig_only (s : State) (h : Head) (t : Nat) : onlyChanges [.out, .free, .lanes, .tbl] s (updateConfig s h t) := by
  unfold updateConfig
  extract_lets v14
  refine onlyChanges_then ?_ (sendPackets_only ..) rfl
  refine onlyChanges_then ?_ (modTile_only ..) rfl
  exact onlyChanges_refl _ _

theorem reconfigTile_only (s : State) (h : Head) (t : Nat) : onlyChanges [.out, .free, .lanes, .tbl] s (reconfigTile s h t) := by
  unfold reconfigTile
  extract_lets v15
  refine onlyChanges_ite ?_ ?_
  · exact onlyChanges_refl _ _
  · refine onlyChanges_ite ?_ ?_
    · refine onlyChanges_then ?_ (sendConfig_only ..) rfl
      exact onlyChanges_refl _ _
    · refine onlyChanges_ite ?_ ?_
      · refine onlyChanges_then ?_ (updateConfig_only ..) rfl
        exact onlyChanges_refl _ _
      · exact onlyChanges_refl _ _

theorem reconfigure_only (s : State) (h : Head) : onlyChanges [.out, .free, .lanes, .tbl] s (reconfigure s h) := by
  unfold reconfigure
  extract_lets v18
  refine foldl_only ?_ (fun t19 a19 => ?_)
  · exact onlyChanges_refl _ _
  · refine onlyChanges_then ?_ (reconfigTile_only ..) rfl
    exact onlyChanges_refl _ _

theorem configIfAsked_only (s : State) (h : Head) (t : Nat) : onlyChanges [.out, .free, .lanes, .tbl] s (configIfAsked s h t) := by
  unfold configIfAsked
  extract_lets v20
  refine onlyChanges_ite ?_ ?_
  · refine onlyChanges_then ?_ (sendConfig_only ..) rfl
    exact onlyChanges_refl _ _
  · exact onlyChanges_refl _ _

theorem huskOffset_only (s : State) (h : Head) (t : Nat) (p : Nat) : onlyChanges [.free] s (huskOffset s h t p).2 := by
  unfold huskOffset
  split
  · split
    dsimp -zeta only
    refine onlyChanges_snd (by assumption) ?_
    refine onlyChanges_then ?_ (drawBelow_only ..) rfl
    exact onlyChanges_refl _ _
  · dsimp -zeta only
    exact onlyChanges_refl _ _

theorem autoHusk_only (s : State) (h : Head) (t : Nat) : onlyChanges [.out, .free, .regs, .flt, .saf, .pwr, .rng, .hif, .bld, .lanes, .tbl, .kps, .cbl] s (autoHusk s h t) := by
  unfold autoHusk
  refine onlyChanges_ite ?_ ?_
  · refine foldl_only ?_ (fun t21 a21 => ?_)
    · exact onlyChanges_refl _ _
    · refine onlyChanges_ite ?_ ?_
      · exact onlyChanges_refl _ _
      · split
        refine onlyChanges_then ?_ (sendPackets_only ..) rfl
        refine onlyChanges_snd (by assumption) ?_
        refine onlyChanges_then ?_ (huskOffset_only ..) rfl
        exact onlyChanges_refl _ _
  · exact onlyChanges_refl _ _

theorem bufferFills_only (s : State) (h : Head) (l : Nat) (fill : Nat) : onlyChanges [.tbl] s (bufferFills s h l fill) := by
  unfold bufferFills
  refine onlyChanges_then ?_ (modTbl_only ..) rfl
  exact onlyChanges_refl _ _

theorem pauseDue_only (s0 : State) (h : Head) (t : Nat) (s : State) : onlyChanges [.out, .free, .lanes] s (pauseDue s0 h t s) := by
  unfold pauseDue
  extract_lets v22
  refine onlyChanges_ite ?_ ?_
  · split
    refine onlyChanges_then ?_ (sendSymbols_only ..) rfl
    refine onlyChanges_then ?_ (emit_only ..) rfl
    refine onlyChanges_snd (by assumption) ?_
    refine onlyChanges_then ?_ (drawBelow_only ..) rfl
    exact onlyChanges_refl _ _
  · exact onlyChanges_refl _ _

theorem recordIn_only (s : State) (h : Head) (t : Nat) (ptype : Nat) (r : TileRecord) : onlyChanges [.tbl] s (recordIn s h t ptype r).2 := by
  unfold recordIn
  split
  · dsimp -zeta only
    exact onlyChanges_refl _ _
  · extract_lets v2
    have hv2 : onlyChanges [.tbl] s v2 := by
      refine onlyChanges_then ?_ (bufferFills_only ..) rfl
      exact onlyChanges_refl _ _
    split
    · dsimp -zeta only
      refine onlyChanges_then ?_ (modTile_only ..) rfl
      exact hv2
    · dsimp -zeta only
      refine onlyChanges_then ?_ (modTile_only ..) rfl
      exact hv2

theorem ackRecord_only (s : State) (h : Head) (t : Nat) (r : TileRecord) : onlyChanges [.out, .free, .regs, .mem, .flt, .saf, .pwr, .rng, .hif, .lmm, .ly, .bld, .pxc, .tg, .lanes, .tbl, .kps, .cbl] s (ackRecord s h t r) := by
  unfold ackRecord
  split
  extract_lets v1
  have hv1 : onlyChanges [.out, .free, .regs, .mem, .flt, .saf, .pwr, .rng, .hif, .lmm, .ly,   .bld, .pxc, .tg, .lanes, .tbl, .kps, .cbl] s v1 := by
    refine onlyChanges_then ?_ (pauseDue_only ..) rfl
    refine onlyChanges_snd (by assumption) ?_
    refine onlyChanges_then ?_ (recordIn_only ..) rfl
    exact onlyChanges_refl _ _
  refine onlyChanges_ite ?_ ?_
  · exact hv1
  · refine onlyChanges_ite ?_ ?_
    · refine onlyChanges_then ?_ (pump_only ..) rfl
      refine onlyChanges_then ?_ (replayAll_only ..) rfl
      refine onlyChanges_then ?_ (modTile_only ..) rfl
      refine onlyChanges_ite ?_ ?_
      · refine onlyChanges_then ?_ (modTile_only ..) rfl
        exact hv1
      · exact hv1
    · refine onlyChanges_then ?_ (pump_only ..) rfl
      refine onlyChanges_ite ?_ ?_
      · refine onlyChanges_then ?_ (modTile_only ..) rfl
        exact hv1
      · exact hv1

theorem replayTimer_only (s : State) (h : Head) (t : Nat) : onlyChanges [.out, .free, .regs, .mem, .flt, .saf, .pwr, .rng, .hif, .lmm, .ly, .bld, .pxc, .tg, .lanes, .tbl, .kps, .cbl] s (replayTimer s h t) := by
  unfold replayTimer
  refine onlyChanges_ite ?_ ?_
  · exact onlyChanges_refl _ _
  · refine onlyChanges_then ?_ (replayAll_only ..) rfl
    exact onlyChanges_refl _ _

theorem statusRecord_only (s : State) (h : Head) (t : Nat) (r : TileRecord) : onlyChanges [.out, .free, .regs, .flt, .saf, .pwr, .rng, .hif, .bld, .lanes, .tbl, .kps, .cbl] s (statusRecord s h t r) := by
  unfold statusRecord
  split
  refine onlyChanges_ite ?_ ?_
  · refine onlyChanges_then ?_ (pauseDue_only ..) rfl
    refine onlyChanges_snd (by assumption) ?_
    refine onlyChanges_then ?_ (recordIn_only ..) rfl
    exact onlyChanges_refl _ _
  · extract_lets v3 v4 v5 v6 v7 v8 v9 v10 v11
    have hv8 : onlyChanges [.out, .free, .regs, .flt, .saf, .pwr, .rng, .hif, .bld, .lanes, .tbl,   .kps, .cbl] s v8 := by
      refine onlyChanges_then ?_ (modTile_only ..) rfl
      refine onlyChanges_snd (by assumption) ?_
      refine onlyChanges_then ?_ (recordIn_only ..) rfl
      exact onlyChanges_refl _ _
    have hv11 : onlyChanges [.out, .free, .regs, .flt, .saf, .pwr, .rng, .hif, .bld, .lanes, .tbl,   .kps, .cbl] s v11 := by
      refine onlyChanges_then ?_ (pauseDue_only ..) rfl
      refine onlyChanges_ite ?_ ?_
      · refine onlyChanges_then ?_ (raise_only ..) rfl
        exact hv8
      · exact hv8
    refine onlyChanges_then ?_ (autoHusk_only ..) rfl
    refine onlyChanges_then ?_ (configIfAsked_only ..) rfl
    exact hv11

theorem statusGone_only (s : State) (h : Head) (t : Nat) : onlyChanges [.out, .free, .flt, .saf, .pwr, .hif, .bld, .lanes, .tbl] s (statusGone s h t) := by
  unfold statusGone
  refine onlyChanges_ite ?_ ?_
  · exact onlyChanges_refl _ _
  · refine onlyChanges_ite ?_ ?_
    · refine onlyChanges_then ?_ (raise_only ..) rfl
      refine onlyChanges_then ?_ (modTile_only ..) rfl
      exact onlyChanges_refl _ _
    · refine onlyChanges_then ?_ (modTile_only ..) rfl
      exact onlyChanges_refl _ _

theorem tempRecord_only (s : State) (h : Head) (t : Nat) (r : TileRecord) : onlyChanges [.out, .free, .flt, .saf, .pwr, .hif, .bld, .lanes, .tbl] s (tempRecord s h t r) := by
  unfold tempRecord
  split
  refine onlyChanges_ite ?_ ?_
  · refine onlyChanges_then ?_ (pauseDue_only ..) rfl
    refine onlyChanges_snd (by assumption) ?_
    refine onlyChanges_then ?_ (recordIn_only ..) rfl
    exact onlyChanges_refl _ _
  · extract_lets v12 v13 v14 v15 v16
    have hv16 : onlyChanges [.out, .free, .flt, .saf, .pwr, .hif, .bld, .lanes, .tbl] s v16 := by
      refine onlyChanges_then ?_ (modTile_only ..) rfl
      refine onlyChanges_snd (by assumption) ?_
      refine onlyChanges_then ?_ (recordIn_only ..) rfl
      exact onlyChanges_refl _ _
    refine onlyChanges_then ?_ (pauseDue_only ..) rfl
    refine onlyChanges_ite ?_ ?_
    · refine onlyChanges_then ?_ (raise_only ..) rfl
      exact hv16
    · exact hv16

theorem tempGone_only (s : State) (h : Head) (t : Nat) : onlyChanges [.tbl] s (tempGone s h t) := by
  unfold tempGone
  refine onlyChanges_ite ?_ ?_
  · refine onlyChanges_then ?_ (modTile_only ..) rfl
    exact onlyChanges_refl _ _
  · exact onlyChanges_refl _ _

theorem healthRead_only (s : State) (h : Head) (ps : List Nat) : onlyChanges [.out, .free, .regs, .mem, .flt, .saf, .pwr, .rng, .hif, .lmm, .ly, .bld, .pxc, .tg, .lanes, .tbl, .kps, .cbl] s (healthRead s h ps) := by
  unfold healthRead
  refine onlyChanges_then ?_ (clientRead_only ..) rfl
  exact onlyChanges_refl _ _

theorem putHealth_only (s : State) (h : Head) (p : Nat) (v : Nat) : onlyChanges [.out, .free, .regs, .mem, .flt, .saf, .pwr, .hif, .lmm, .bld, .lanes] s (putHealth s h p v) := by
  unfold putHealth
  extract_lets v17 v18
  refine onlyChanges_then ?_ (clientPut_only ..) rfl
  exact onlyChanges_refl _ _

theorem writeHealth_only (s : State) (h : Head) (p : Nat) (v : Nat) : onlyChanges [.out, .free, .regs, .mem, .flt, .saf, .pwr, .rng, .hif, .lmm, .ly, .bld, .pxc, .tg, .lanes, .tbl, .kps, .cbl] s (writeHealth s h p v) := by
  unfold writeHealth
  refine onlyChanges_then ?_ (putHealth_only ..) rfl
  refine onlyChanges_then ?_ (healthRead_only ..) rfl
  exact onlyChanges_refl _ _

theorem pixelPropose_only (s : State) (h : Head) : onlyChanges [.out, .free, .flt, .saf, .pwr, .rng, .hif, .bld, .pxc, .lanes, .kps, .cbl] s (pixelPropose s h) := by
  unfold pixelPropose
  extract_lets v19
  refine onlyChanges_ite ?_ ?_
  · refine onlyChanges_then ?_ (cblFind_only ..) rfl
    refine onlyChanges_then ?_ (modPxc_only ..) rfl
    exact onlyChanges_refl _ _
  · exact onlyChanges_refl _ _

theorem pixelCandidate_only (s : State) (h : Head) (p : Nat) (st : Nat) : onlyChanges [.out, .free, .flt, .saf, .pwr, .rng, .hif, .bld, .pxc, .lanes, .kps, .cbl] s (pixelCandidate s h p st) := by
  unfold pixelCandidate
  split
  · refine onlyChanges_then ?_ (cblFind_only ..) rfl
    refine onlyChanges_then ?_ (modPxc_only ..) rfl
    exact onlyChanges_refl _ _
  · extract_lets v27
    have hv27 : onlyChanges [.out, .free, .flt, .saf, .pwr, .rng, .hif, .bld, .pxc, .lanes, .kps,   .cbl] s v27 := by
      refine onlyChanges_then ?_ (modPxc_only ..) rfl
      exact onlyChanges_refl _ _
    refine onlyChanges_ite ?_ ?_
    · refine onlyChanges_then ?_ (pixelPropose_only ..) rfl
      exact hv27
    · refine onlyChanges_then ?_ (raise_only ..) rfl
      exact hv27
  · refine onlyChanges_then ?_ (cblFind_only ..) rfl
    exact onlyChanges_refl _ _

theorem applyProbe_only (s : State) (h : Head) (t : Nat) (x : Nat) (y : Nat) (res : Nat) : onlyChanges [.out, .free, .regs, .mem, .flt, .saf, .pwr, .rng, .hif, .lmm, .ly, .bld, .pxc, .tg, .lanes, .tbl, .kps, .cbl] s (applyProbe s h t x y res) := by
  unfold applyProbe
  extract_lets v20 v21 v22 v23
  have hv21 : onlyChanges [.out, .free, .regs, .mem, .flt, .saf, .pwr, .rng, .hif, .lmm, .ly,   .bld, .pxc, .tg, .lanes, .tbl, .kps, .cbl] s v21 := by
    refine onlyChanges_then ?_ (healthRead_only ..) rfl
    exact onlyChanges_refl _ _
  refine onlyChanges_ite ?_ ?_
  · exact hv21
  · refine onlyChanges_ite ?_ ?_
    · refine onlyChanges_then ?_ (pixelCandidate_only ..) rfl
      refine onlyChanges_ite ?_ ?_
      · refine onlyChanges_then ?_ (raise_only ..) rfl
        refine onlyChanges_then ?_ (raise_only ..) rfl
        refine onlyChanges_ite ?_ ?_
        · refine onlyChanges_then ?_ (healthRead_only ..) rfl
          refine onlyChanges_then ?_ (putHealth_only ..) rfl
          exact hv21
        · refine onlyChanges_then ?_ (putHealth_only ..) rfl
          exact hv21
      · refine onlyChanges_then ?_ (raise_only ..) rfl
        refine onlyChanges_ite ?_ ?_
        · refine onlyChanges_then ?_ (healthRead_only ..) rfl
          refine onlyChanges_then ?_ (putHealth_only ..) rfl
          exact hv21
        · refine onlyChanges_then ?_ (putHealth_only ..) rfl
          exact hv21
    · refine onlyChanges_then ?_ (putHealth_only ..) rfl
      exact hv21

theorem healthRecord_only (s : State) (h : Head) (t : Nat) (r : TileRecord) : onlyChanges [.out, .free, .regs, .mem, .flt, .saf, .pwr, .rng, .hif, .lmm, .ly, .bld, .pxc, .tg, .lanes, .tbl, .kps, .cbl] s (healthRecord s h t r) := by
  unfold healthRecord
  split
  refine onlyChanges_ite ?_ ?_
  · refine onlyChanges_then ?_ (pauseDue_only ..) rfl
    refine onlyChanges_snd (by assumption) ?_
    refine onlyChanges_then ?_ (recordIn_only ..) rfl
    exact onlyChanges_refl _ _
  · extract_lets v28 v29
    refine onlyChanges_then ?_ (pauseDue_only ..) rfl
    refine foldl_only ?_ (fun t30 a30 => ?_)
    · refine onlyChanges_snd (by assumption) ?_
      refine onlyChanges_then ?_ (recordIn_only ..) rfl
      exact onlyChanges_refl _ _
    · extract_lets v31 v32 v33 v34
      refine onlyChanges_ite ?_ ?_
      · refine onlyChanges_ite ?_ ?_
        · refine onlyChanges_then ?_ (applyProbe_only ..) rfl
          refine onlyChanges_then ?_ (modPxc_only ..) rfl
          exact onlyChanges_refl _ _
        · refine onlyChanges_then ?_ (modPxc_only ..) rfl
          exact onlyChanges_refl _ _
      · exact onlyChanges_refl _ _

theorem applyMarks_only (s : State) (h : Head) : onlyChanges [.out, .free, .regs, .mem, .flt, .saf, .pwr, .rng, .hif, .lmm, .ly, .bld, .pxc, .tg, .lanes, .tbl, .kps, .cbl] s (applyMarks s h) := by
  unfold applyMarks
  extract_lets v24 v25 v26
  have hv24 : onlyChanges [.out, .free, .regs, .mem, .flt, .saf, .pwr, .rng, .hif, .lmm, .ly,   .bld, .pxc, .tg, .lanes, .tbl, .kps, .cbl] s v24 := by
    refine onlyChanges_then ?_ (healthRead_only ..) rfl
    exact onlyChanges_refl _ _
  have hv26 : onlyChanges [.out, .free, .regs, .mem, .flt, .saf, .pwr, .rng, .hif, .lmm, .ly,   .bld, .pxc, .tg, .lanes, .tbl, .kps, .cbl] s v26 := by
    refine onlyChanges_then ?_ (modPxc_only ..) rfl
    exact hv24
  refine foldl_only ?_ (fun t36 a36 => ?_)
  · exact hv26
  · refine onlyChanges_then ?_ (cblDone_only ..) rfl
    refine onlyChanges_then ?_ (putHealth_only ..) rfl
    exact onlyChanges_refl _ _

theorem clearHealth_only (s : State) (h : Head) (v : Word) : onlyChanges [.out, .free, .regs, .mem, .flt, .saf, .pwr, .rng, .hif, .lmm, .ly, .bld, .pxc, .tg, .lanes, .tbl, .kps, .cbl] s (clearHealth s h v) := by
  unfold clearHealth
  refine onlyChanges_ite ?_ ?_
  · exact onlyChanges_refl _ _
  · refine onlyChanges_ite ?_ ?_
    · refine foldl_only ?_ (fun t35 a35 => ?_)
      · exact onlyChanges_refl _ _
      · refine onlyChanges_then ?_ (writeHealth_only ..) rfl
        exact onlyChanges_refl _ _
    · refine onlyChanges_ite ?_ ?_
      · refine onlyChanges_then ?_ (writeHealth_only ..) rfl
        exact onlyChanges_refl _ _
      · exact onlyChanges_refl _ _

theorem echoBad_only (s : State) (h : Head) (t : Nat) (injected : Bool) : onlyChanges [.out, .free, .flt, .saf, .pwr, .hif, .bld, .lanes, .tbl] s (echoBad s h t injected) := by
  unfold echoBad
  refine onlyChanges_then ?_ (raiseInj_only ..) rfl
  refine onlyChanges_then ?_ (modTile_only ..) rfl
  exact onlyChanges_refl _ _

theorem echoRecord_only (s : State) (h : Head) (t : Nat) (r : TileRecord) : onlyChanges [.out, .free, .flt, .saf, .pwr, .hif, .bld, .lanes, .tbl] s (echoRecord s h t r) := by
  unfold echoRecord
  split
  refine onlyChanges_then ?_ (pauseDue_only ..) rfl
  split
  · extract_lets v43
    refine onlyChanges_ite ?_ ?_
    · refine onlyChanges_then ?_ (echoBad_only ..) rfl
      refine onlyChanges_snd (by assumption) ?_
      refine onlyChanges_then ?_ (recordIn_only ..) rfl
      exact onlyChanges_refl _ _
    · refine onlyChanges_ite ?_ ?_
      · refine onlyChanges_then ?_ (modTile_only ..) rfl
        refine onlyChanges_then ?_ (modTile_only ..) rfl
        refine onlyChanges_snd (by assumption) ?_
        refine onlyChanges_then ?_ (recordIn_only ..) rfl
        exact onlyChanges_refl _ _
      · refine onlyChanges_then ?_ (echoBad_only ..) rfl
        refine onlyChanges_then ?_ (modTile_only ..) rfl
        refine onlyChanges_snd (by assumption) ?_
        refine onlyChanges_then ?_ (recordIn_only ..) rfl
        exact onlyChanges_refl _ _
  · refine onlyChanges_snd (by assumption) ?_
    refine onlyChanges_then ?_ (recordIn_only ..) rfl
    exact onlyChanges_refl _ _

theorem echoLate_only (s : State) (h : Head) (t : Nat) : onlyChanges [.out, .free, .flt, .saf, .pwr, .hif, .bld, .lanes, .tbl] s (echoLate s h t) := by
  unfold echoLate
  refine onlyChanges_ite ?_ ?_
  · refine onlyChanges_then ?_ (raise_only ..) rfl
    refine onlyChanges_then ?_ (modTile_only ..) rfl
    exact onlyChanges_refl _ _
  · exact onlyChanges_refl _ _

theorem echoesDrop_only (s : State) (h : Head) : onlyChanges [.tbl] s (echoesDrop s h) := by
  unfold echoesDrop
  refine onlyChanges_ite ?_ ?_
  · exact onlyChanges_refl _ _
  · refine foldl_only ?_ (fun t37 a37 => ?_)
    · exact onlyChanges_refl _ _
    · refine onlyChanges_then ?_ (modTile_only ..) rfl
      exact onlyChanges_refl _ _

theorem checkCap_only (s : State) (h : Head) (pending : Option Timing) : onlyChanges [.tbl] s (checkCap s h pending) := by
  unfold checkCap
  refine onlyChanges_then ?_ (modTbl_only ..) rfl
  exact onlyChanges_refl _ _

theorem setFwd_only (s : State) (h : Head) (i : Nat) (req : Nat) (awaits : Bool) : onlyChanges [.regs, .tbl] s (setFwd s h i req awaits) := by
  unfold setFwd
  refine onlyChanges_then ?_ (modTbl_only ..) rfl
  refine onlyChanges_then ?_ (setRegAt_only ..) rfl
  exact onlyChanges_refl _ _

theorem forwardRequest_only (s : State) (h : Head) (i : Nat) (code : Nat) : onlyChanges [.out, .free, .regs, .flt, .saf, .pwr, .rng, .hif, .bld, .lanes, .tbl, .kps, .cbl] s (forwardRequest s h i code) := by
  unfold forwardRequest
  extract_lets v38 v39 v40
  refine onlyChanges_ite ?_ ?_
  · exact onlyChanges_refl _ _
  · refine onlyChanges_ite ?_ ?_
    · refine onlyChanges_then ?_ (cblDone_only ..) rfl
      refine onlyChanges_then ?_ (raise_only ..) rfl
      refine onlyChanges_then ?_ (modTbl_only ..) rfl
      refine onlyChanges_then ?_ (setFwd_only ..) rfl
      exact onlyChanges_refl _ _
    · refine onlyChanges_then ?_ (setFwd_only ..) rfl
      exact onlyChanges_refl _ _

theorem forwardReturn_only (s : State) (h : Head) (i : Nat) : onlyChanges [.regs, .tbl] s (forwardReturn s h i) := by
  unfold forwardReturn
  extract_lets v40 v41 v42
  refine onlyChanges_ite ?_ ?_
  · exact onlyChanges_refl _ _
  · refine onlyChanges_ite ?_ ?_
    · refine onlyChanges_then ?_ (setFwd_only ..) rfl
      exact onlyChanges_refl _ _
    · exact onlyChanges_refl _ _

theorem writeFwd_only (s : State) (h : Head) (v : Word) : onlyChanges [.out, .free, .regs, .flt, .saf, .pwr, .rng, .hif, .bld, .lanes, .tbl, .kps, .cbl] s (writeFwd s h v) := by
  unfold writeFwd
  extract_lets v0
  have hv0 : onlyChanges [.out, .free, .regs, .flt, .saf, .pwr, .rng, .hif, .bld, .lanes, .tbl,   .kps, .cbl] s v0 := by
    refine onlyChanges_then ?_ (modTbl_only ..) rfl
    exact onlyChanges_refl _ _
  refine foldl_only ?_ (fun t4 a4 => ?_)
  · exact hv0
  · extract_lets v5
    refine onlyChanges_ite ?_ ?_
    · refine onlyChanges_then ?_ (forwardReturn_only ..) rfl
      exact onlyChanges_refl _ _
    · refine onlyChanges_ite ?_ ?_
      · exact onlyChanges_refl _ _
      · refine onlyChanges_then ?_ (forwardRequest_only ..) rfl
        exact onlyChanges_refl _ _

theorem fwdLatch_only (s : State) (h : Head) (i : Nat) : onlyChanges [.out, .free, .flt, .saf, .pwr, .rng, .hif, .bld, .lanes, .tbl, .kps, .cbl] s (fwdLatch s h i) := by
  unfold fwdLatch
  extract_lets v44 v45
  refine onlyChanges_ite ?_ ?_
  · exact onlyChanges_refl _ _
  · refine onlyChanges_ite ?_ ?_
    · refine onlyChanges_then ?_ (modTbl_only ..) rfl
      exact onlyChanges_refl _ _
    · refine onlyChanges_then ?_ (cblDone_only ..) rfl
      refine onlyChanges_then ?_ (raise_only ..) rfl
      refine onlyChanges_then ?_ (modTbl_only ..) rfl
      exact onlyChanges_refl _ _

theorem fwdBegin_only (s : State) (h : Head) (i : Nat) : onlyChanges [.regs, .tbl] s (fwdBegin s h i) := by
  unfold fwdBegin
  refine onlyChanges_ite ?_ ?_
  · refine onlyChanges_then ?_ (setFwd_only ..) rfl
    exact onlyChanges_refl _ _
  · refine onlyChanges_ite ?_ ?_
    · refine onlyChanges_then ?_ (modTbl_only ..) rfl
      exact onlyChanges_refl _ _
    · exact onlyChanges_refl _ _

theorem fwdStitchPoint_only (s : State) (h : Head) (stitched : Bool) : onlyChanges [.out, .free, .regs, .flt, .saf, .pwr, .rng, .hif, .bld, .lanes, .tbl, .kps, .cbl] s (fwdStitchPoint s h stitched) := by
  unfold fwdStitchPoint
  extract_lets v46
  have hv46 : onlyChanges [.out, .free, .regs, .flt, .saf, .pwr, .rng, .hif, .bld, .lanes, .tbl,   .kps, .cbl] s v46 := by
    refine onlyChanges_ite ?_ ?_
    · refine foldl_only ?_ (fun t49 a49 => ?_)
      · exact onlyChanges_refl _ _
      · refine onlyChanges_then ?_ (fwdLatch_only ..) rfl
        exact onlyChanges_refl _ _
    · exact onlyChanges_refl _ _
  refine onlyChanges_then ?_ (reconfigure_only ..) rfl
  refine foldl_only ?_ (fun t54 a54 => ?_)
  · exact hv46
  · refine onlyChanges_then ?_ (fwdBegin_only ..) rfl
    exact onlyChanges_refl _ _

theorem laneCandidate_only (s : State) (h : Head) (l : Nat) : onlyChanges [.out, .free, .regs, .flt, .saf, .pwr, .rng, .hif, .bld, .lanes, .tbl, .kps, .cbl] s (laneCandidate s h l) := by
  unfold laneCandidate
  extract_lets v47 v48
  refine onlyChanges_ite ?_ ?_
  · refine onlyChanges_ite ?_ ?_
    · refine onlyChanges_then ?_ (forwardRequest_only ..) rfl
      refine onlyChanges_then ?_ (cblFind_only ..) rfl
      exact onlyChanges_refl _ _
    · refine onlyChanges_then ?_ (cblFind_only ..) rfl
      exact onlyChanges_refl _ _
  · exact onlyChanges_refl _ _

theorem laneProposalCheck_only (s : State) : onlyChanges [.pwr, .rng, .kps, .cbl] s (laneProposalCheck s) := by
  unfold laneProposalCheck
  split
  · exact onlyChanges_refl _ _
  · extract_lets v50 v51 v52
    refine onlyChanges_ite ?_ ?_
    · exact onlyChanges_refl _ _
    · refine onlyChanges_then ?_ (cblClose_only ..) rfl
      exact onlyChanges_refl _ _

theorem fwdLost_only (s : State) (h : Head) (l : Nat) : onlyChanges [.regs, .tbl] s (fwdLost s h l) := by
  unfold fwdLost
  extract_lets v53
  refine onlyChanges_ite ?_ ?_
  · refine onlyChanges_then ?_ (modTbl_only ..) rfl
    refine onlyChanges_then ?_ (setFwd_only ..) rfl
    exact onlyChanges_refl _ _
  · exact onlyChanges_refl _ _

theorem writeReq_only (s : State) (h : Head) (v : Word) : onlyChanges [.out, .free, .lanes, .tbl] s (writeReq s h v) := by
  unfold writeReq
  extract_lets v55
  refine onlyChanges_ite ?_ ?_
  · exact onlyChanges_refl _ _
  · refine onlyChanges_then ?_ (sendPackets_only ..) rfl
    exact onlyChanges_refl _ _

theorem repeatConfig_only (s : State) (h : Head) (t : Nat) : onlyChanges [.out, .free, .lanes] s (repeatConfig s h t) := by
  unfold repeatConfig
  extract_lets v56
  refine onlyChanges_ite ?_ ?_
  · refine onlyChanges_then ?_ (emitPacket_only ..) rfl
    exact onlyChanges_refl _ _
  · exact onlyChanges_refl _ _

theorem repeatCommand_only (s : State) (h : Head) : onlyChanges [.out, .free, .lanes] s (repeatCommand s h) := by
  unfold repeatCommand
  split
  · refine onlyChanges_then ?_ (sendLanes_only ..) rfl
    exact onlyChanges_refl _ _
  · refine onlyChanges_then ?_ (sendLanes_only ..) rfl
    exact onlyChanges_refl _ _
  · exact onlyChanges_refl _ _

theorem calFetch_only (s : State) (ring : Nat) (slot : Nat) (d : Desc) : onlyChanges [.out, .free, .rng, .hif, .pxc] s (calFetch s ring slot d) := by
  unfold calFetch
  split
  · refine onlyChanges_then ?_ (completeAt_only ..) rfl
    exact onlyChanges_refl _ _
  · refine onlyChanges_ite ?_ ?_
    · refine onlyChanges_then ?_ (completeAt_only ..) rfl
      exact onlyChanges_refl _ _
    · extract_lets v57 v58
      refine raw_pxc ?_ rfl
      exact onlyChanges_refl _ _

theorem modCal_only (s : State) (f : Cal → Cal) : onlyChanges [.pxc] s (modCal s f) := by
  refine ⟨rfl, fun p h => ?_⟩
  cases p <;> first | rfl | exact ⟨rfl, rfl⟩ | exact ⟨rfl, rfl, rfl⟩ | exact absurd (by decide) h

theorem modCals_only (s : State) (f : Cal → Cal) : onlyChanges [.pxc] s (modCals s f) := by
  refine ⟨rfl, fun p h => ?_⟩
  cases p <;> first | rfl | exact ⟨rfl, rfl⟩ | exact ⟨rfl, rfl, rfl⟩ | exact absurd (by decide) h

theorem calApply_only (s : State) (h : Head) : onlyChanges [.pxc] s (calApply s h) := by
  unfold calApply
  refine onlyChanges_then ?_ (modCal_only ..) rfl
  exact onlyChanges_refl _ _

theorem calDrop_only (s : State) (c : Cal) (code : Nat) (detail : Nat) : onlyChanges [.out, .free, .rng, .hif, .pxc] s (calDrop s c code detail) := by
  unfold calDrop
  refine onlyChanges_then ?_ (completeAt_only ..) rfl
  refine raw_pxc ?_ rfl
  exact onlyChanges_refl _ _

theorem calRead_only (s : State) (data : HostRead) : onlyChanges [.out, .free, .rng, .hif, .pxc] s (calRead s data) := by
  unfold calRead
  split
  · exact onlyChanges_refl _ _
  · refine onlyChanges_ite ?_ ?_
    · exact onlyChanges_refl _ _
    · split
      · refine onlyChanges_then ?_ (calDrop_only ..) rfl
        refine onlyChanges_then ?_ (hostFails_only ..) rfl
        exact onlyChanges_refl _ _
      · refine onlyChanges_then ?_ (calDrop_only ..) rfl
        exact onlyChanges_refl _ _
      · extract_lets v59
        refine onlyChanges_ite ?_ ?_
        · refine onlyChanges_then ?_ (calDrop_only ..) rfl
          exact onlyChanges_refl _ _
        · refine onlyChanges_ite ?_ ?_
          · refine onlyChanges_then ?_ (calApply_only ..) rfl
            refine onlyChanges_then ?_ (modCal_only ..) rfl
            exact onlyChanges_refl _ _
          · refine onlyChanges_then ?_ (modCal_only ..) rfl
            exact onlyChanges_refl _ _

theorem calMergeEnds_only (s : State) : onlyChanges [.out, .free, .regs, .mem, .flt, .saf, .pwr, .rng, .hif, .lmm, .ly, .bld, .pxc, .tg, .lanes, .tbl, .kps, .cbl] s (calMergeEnds s) := by
  unfold calMergeEnds
  split
  · exact onlyChanges_refl _ _
  · refine onlyChanges_ite ?_ ?_
    · exact onlyChanges_refl _ _
    · extract_lets v1 v2 v3
      have hv1 : onlyChanges [.out, .free, .regs, .mem, .flt, .saf, .pwr, .rng, .hif, .lmm, .ly,   .bld, .pxc, .tg, .lanes, .tbl, .kps, .cbl] s v1 := by
        refine onlyChanges_then ?_ (clientWrite_only ..) rfl
        exact onlyChanges_refl _ _
      refine onlyChanges_ite ?_ ?_
      · refine raw_pxc ?_ rfl
        exact hv1
      · refine onlyChanges_then ?_ (calFinish_only ..) rfl
        refine foldl_only ?_ (fun t10 a10 => ?_)
        · refine raw_pxc ?_ rfl
          exact hv1
        · refine onlyChanges_then ?_ (kpsRequest_only ..) rfl
          exact onlyChanges_refl _ _

theorem calCompose_only (s : State) (h : Head) : onlyChanges [.pxc] s (calCompose s h) := by
  unfold calCompose
  refine onlyChanges_then ?_ (modCals_only ..) rfl
  exact onlyChanges_refl _ _

theorem calLatch_only (s : State) (h : Head) (fsn : Word) : onlyChanges [.out, .free, .rng, .hif, .pxc] s (calLatch s h fsn) := by
  unfold calLatch
  extract_lets v6 v7
  have hv6 : onlyChanges [.out, .free, .rng, .hif, .pxc] s v6 := by
    refine onlyChanges_then ?_ (modCals_only ..) rfl
    exact onlyChanges_refl _ _
  have hv7 : onlyChanges [.out, .free, .rng, .hif, .pxc] s v7 := by
    dsimp -zeta only [v7]
    split
    · refine onlyChanges_ite ?_ ?_
      · refine onlyChanges_then ?_ (completeAt_only ..) rfl
        exact hv6
      · exact hv6
    · exact hv6
  refine onlyChanges_then ?_ (calFinish_only ..) rfl
  exact hv7

theorem modNet_only (s : State) (f : Net → Net) : onlyChanges [.net] s (modNet s f) := by
  refine ⟨rfl, fun p h => ?_⟩
  cases p <;> first | rfl | exact ⟨rfl, rfl⟩ | exact ⟨rfl, rfl, rfl⟩ | exact absurd (by decide) h

theorem setLink_only (s : State) (p : Nat) (up : Bool) : onlyChanges [.out, .free, .flt, .saf, .pwr, .hif, .bld, .lanes, .net] s (setLink s p up) := by
  unfold setLink
  extract_lets v8 v9
  have hv9 : onlyChanges [.out, .free, .flt, .saf, .pwr, .hif, .bld, .lanes, .net] s v9 := by
    refine onlyChanges_then ?_ (modPort_only ..) rfl
    exact onlyChanges_refl _ _
  refine onlyChanges_ite ?_ ?_
  · refine onlyChanges_then ?_ (setLevel_only ..) rfl
    exact hv9
  · refine onlyChanges_ite ?_ ?_
    · refine onlyChanges_then ?_ (setLevel_only ..) rfl
      exact hv9
    · exact hv9

theorem stampWithin_only (s : State) (base : Int) : onlyChanges [.free] s (stampWithin s base).2 := by
  unfold stampWithin
  split
  dsimp -zeta only
  refine onlyChanges_snd (by assumption) ?_
  refine onlyChanges_then ?_ (drawBelow_only ..) rfl
  exact onlyChanges_refl _ _

theorem txStamp_only (s : State) (p : Nat) : onlyChanges [.free] s (txStamp s p).2 := by
  unfold txStamp
  refine onlyChanges_then ?_ (stampWithin_only ..) rfl
  exact onlyChanges_refl _ _

theorem rxStamp_only (s : State) (p : Nat) : onlyChanges [.free] s (rxStamp s p).2 := by
  unfold rxStamp
  refine onlyChanges_then ?_ (stampWithin_only ..) rfl
  exact onlyChanges_refl _ _

theorem txStart_only (s : State) (p : Nat) : onlyChanges [.free, .rng, .net] s (txStart s p) := by
  unfold txStart
  extract_lets v11
  split
  · exact onlyChanges_refl _ _
  · refine onlyChanges_ite ?_ ?_
    · split
      refine onlyChanges_then ?_ (stageWork_only ..) rfl
      refine onlyChanges_then ?_ (modPort_only ..) rfl
      refine onlyChanges_snd (by assumption) ?_
      refine onlyChanges_then ?_ (txStamp_only ..) rfl
      exact onlyChanges_refl _ _
    · exact onlyChanges_refl _ _

theorem portLink_only (s : State) (p : Nat) : onlyChanges [.out, .free, .flt, .saf, .pwr, .rng, .hif, .bld, .lanes, .net] s (portLink s p) := by
  unfold portLink
  refine onlyChanges_then ?_ (txStart_only ..) rfl
  refine onlyChanges_then ?_ (setLink_only ..) rfl
  refine onlyChanges_then ?_ (streamSettle_only ..) rfl
  exact onlyChanges_refl _ _

theorem portSilent_only (s : State) (p : Nat) : onlyChanges [.out, .free, .flt, .saf, .pwr, .rng, .hif, .bld, .lanes, .net] s (portSilent s p) := by
  unfold portSilent
  refine onlyChanges_then ?_ (portLink_only ..) rfl
  refine onlyChanges_then ?_ (modPort_only ..) rfl
  exact onlyChanges_refl _ _

theorem linkChanges_only (s : State) (p : Nat) (sync : Option Nat) (anDone : Bool) (remoteFault : Bool) (phyUp : Bool) (speedOk : Bool) : onlyChanges [.out, .free, .flt, .saf, .pwr, .rng, .hif, .bld, .lanes, .net] s (linkChanges s p sync anDone remoteFault phyUp speedOk) := by
  unfold linkChanges
  refine onlyChanges_ite ?_ ?_
  · exact onlyChanges_refl _ _
  · extract_lets v0 v1 v2 v3 v4
    have hv3 : onlyChanges [.out, .free, .flt, .saf, .pwr, .rng, .hif, .bld, .lanes, .net] s v3 := by
      refine onlyChanges_then ?_ (modLane_only ..) rfl
      exact onlyChanges_refl _ _
    have hv4 : onlyChanges [.out, .free, .flt, .saf, .pwr, .rng, .hif, .bld, .lanes, .net] s v4 := by
      refine onlyChanges_ite ?_ ?_
      · refine onlyChanges_then ?_ (setLevel_only ..) rfl
        exact hv3
      · exact hv3
    refine onlyChanges_then ?_ (portLink_only ..) rfl
    refine onlyChanges_then ?_ (modPort_only ..) rfl
    exact hv4

theorem portEnds_only (s : State) (p : Nat) : onlyChanges [.out, .free, .flt, .saf, .pwr, .hif, .bld, .lanes, .net] s (portEnds s p) := by
  unfold portEnds
  split
  refine onlyChanges_then ?_ (setLink_only ..) rfl
  refine onlyChanges_then ?_ (modPort_only ..) rfl
  refine onlyChanges_snd (by assumption) ?_
  refine onlyChanges_then ?_ (drawBelow_only ..) rfl
  exact onlyChanges_refl _ _

theorem writeNetCtrl_only (s : State) (p : Nat) (v : Word) : onlyChanges [.out, .free, .regs, .flt, .saf, .pwr, .rng, .hif, .bld, .lanes, .net] s (writeNetCtrl s p v) := by
  unfold writeNetCtrl
  extract_lets v12 v13 v14
  refine onlyChanges_ite ?_ ?_
  · refine onlyChanges_ite ?_ ?_
    · refine onlyChanges_then ?_ (setRegAt_only ..) rfl
      refine onlyChanges_ite ?_ ?_
      · refine onlyChanges_then ?_ (modPort_only ..) rfl
        exact onlyChanges_refl _ _
      · exact onlyChanges_refl _ _
    · refine onlyChanges_then ?_ (portEnds_only ..) rfl
      refine onlyChanges_then ?_ (setRegAt_only ..) rfl
      refine onlyChanges_ite ?_ ?_
      · refine onlyChanges_then ?_ (modPort_only ..) rfl
        exact onlyChanges_refl _ _
      · exact onlyChanges_refl _ _
  · refine onlyChanges_then ?_ (portLink_only ..) rfl
    refine onlyChanges_then ?_ (setRegAt_only ..) rfl
    refine onlyChanges_ite ?_ ?_
    · exact onlyChanges_refl _ _
    · refine onlyChanges_then ?_ (modPort_only ..) rfl
      exact onlyChanges_refl _ _

theorem writeNetMac_only (s : State) (p : Nat) (off : Nat) (v : Word) : onlyChanges [.regs, .net] s (writeNetMac s p off v) := by
  unfold writeNetMac
  refine onlyChanges_ite ?_ ?_
  · refine onlyChanges_then ?_ (modPort_only ..) rfl
    exact onlyChanges_refl _ _
  · refine onlyChanges_then ?_ (setRegAt_only ..) rfl
    exact onlyChanges_refl _ _

theorem writeMdio_only (s : State) (v : Word) : onlyChanges [.out, .net] s (writeMdio s v) := by
  unfold writeMdio
  refine onlyChanges_ite ?_ ?_
  · exact onlyChanges_refl _ _
  · refine onlyChanges_ite ?_ ?_
    · refine onlyChanges_then ?_ (modNet_only ..) rfl
      exact onlyChanges_refl _ _
    · extract_lets v15
      refine onlyChanges_ite ?_ ?_
      · refine onlyChanges_then ?_ (emit_only ..) rfl
        refine onlyChanges_then ?_ (modNet_only ..) rfl
        exact onlyChanges_refl _ _
      · exact onlyChanges_refl _ _

theorem mdioEnds_only (s : State) (data : Half) : onlyChanges [.net] s (mdioEnds s data) := by
  unfold mdioEnds
  refine onlyChanges_ite ?_ ?_
  · exact onlyChanges_refl _ _
  · split
    · exact onlyChanges_refl _ _
    · refine onlyChanges_then ?_ (modNet_only ..) rfl
      exact onlyChanges_refl _ _

theorem txFetch_only (s : State) (p : Nat) (ring : Nat) (slot : Nat) (d : Desc) : onlyChanges [.out, .free, .rng, .hif] s (txFetch s p ring slot d) := by
  unfold txFetch
  split
  · refine onlyChanges_then ?_ (completeAt_only ..) rfl
    exact onlyChanges_refl _ _
  · exact onlyChanges_refl _ _

theorem txReadDone_only (s : State) (p : Nat) (data : HostRead) : onlyChanges [.out, .free, .rng, .hif, .net] s (txReadDone s p data) := by
  unfold txReadDone
  refine onlyChanges_ite ?_ ?_
  · exact onlyChanges_refl _ _
  · extract_lets v16
    split
    · exact onlyChanges_refl _ _
    · refine onlyChanges_ite ?_ ?_
      · exact onlyChanges_refl _ _
      · split
        · refine onlyChanges_then ?_ (completeAt_only ..) rfl
          refine onlyChanges_then ?_ (hostFails_only ..) rfl
          exact onlyChanges_refl _ _
        · refine onlyChanges_then ?_ (completeAt_only ..) rfl
          exact onlyChanges_refl _ _
        · refine onlyChanges_then ?_ (txStart_only ..) rfl
          refine onlyChanges_then ?_ (modPort_only ..) rfl
          exact onlyChanges_refl _ _

theorem txDone_only (s : State) (p : Nat) : onlyChanges [.out, .free, .rng, .hif, .lanes, .net] s (txDone s p) := by
  unfold txDone
  dsimp only
  split
  · refine onlyChanges_ite ?_ ?_
    · exact onlyChanges_refl _ _
    · refine onlyChanges_then ?_ (txStart_only ..) rfl
      refine onlyChanges_then ?_ (completeAt_only ..) rfl
      split
      · refine onlyChanges_ite ?_ ?_
        · refine onlyChanges_then ?_ (postWrite_only ..) rfl
          refine onlyChanges_then ?_ (sendSymbols_only ..) rfl
          refine onlyChanges_then ?_ (emit_only ..) rfl
          refine onlyChanges_then ?_ (modPort_only ..) rfl
          exact onlyChanges_refl _ _
        · refine onlyChanges_then ?_ (sendSymbols_only ..) rfl
          refine onlyChanges_then ?_ (emit_only ..) rfl
          refine onlyChanges_then ?_ (modPort_only ..) rfl
          exact onlyChanges_refl _ _
      · refine onlyChanges_then ?_ (sendSymbols_only ..) rfl
        refine onlyChanges_then ?_ (emit_only ..) rfl
        refine onlyChanges_then ?_ (modPort_only ..) rfl
        exact onlyChanges_refl _ _
  · exact onlyChanges_refl _ _

theorem rxFetch_only (s : State) (p : Nat) (ring : Nat) (slot : Nat) (d : Desc) : onlyChanges [.out, .free, .rng, .hif] s (rxFetch s p ring slot d) := by
  unfold rxFetch
  split
  · refine onlyChanges_then ?_ (completeAt_only ..) rfl
    exact onlyChanges_refl _ _
  · exact onlyChanges_refl _ _

theorem dropNoBuf_only (s : State) (p : Nat) : onlyChanges [.net] s (dropNoBuf s p) := by
  unfold dropNoBuf
  refine onlyChanges_then ?_ (modPort_only ..) rfl
  exact onlyChanges_refl _ _

theorem dropTooLong_only (s : State) (p : Nat) : onlyChanges [.net] s (dropTooLong s p) := by
  unfold dropTooLong
  refine onlyChanges_then ?_ (modPort_only ..) rfl
  exact onlyChanges_refl _ _

theorem rxDeliver_only (s : State) (p : Nat) (f : List Byte) (t : Stamp) : onlyChanges [.out, .free, .pwr, .rng, .hif, .net] s (rxDeliver s p f t) := by
  unfold rxDeliver
  split
  · refine onlyChanges_then ?_ (dropNoBuf_only ..) rfl
    exact onlyChanges_refl _ _
  · extract_lets v18 v19 v20
    refine onlyChanges_ite ?_ ?_
    · refine onlyChanges_then ?_ (dropTooLong_only ..) rfl
      exact onlyChanges_refl _ _
    · refine onlyChanges_then ?_ (completeWord_only ..) rfl
      refine onlyChanges_then ?_ (idleExits_only ..) rfl
      refine onlyChanges_then ?_ (modPort_only ..) rfl
      refine onlyChanges_ite ?_ ?_
      · refine onlyChanges_then ?_ (postWrite_only ..) rfl
        refine onlyChanges_then ?_ (postWrite_only ..) rfl
        exact onlyChanges_refl _ _
      · refine onlyChanges_then ?_ (postWrite_only ..) rfl
        exact onlyChanges_refl _ _

theorem rxFlush_only (s : State) (p : Nat) : onlyChanges [.out, .free, .pwr, .rng, .hif, .net] s (rxFlush s p) := by
  unfold rxFlush
  refine foldl_only ?_ (fun t27 a27 => ?_)
  · refine onlyChanges_then ?_ (modPort_only ..) rfl
    exact onlyChanges_refl _ _
  · refine onlyChanges_then ?_ (rxDeliver_only ..) rfl
    exact onlyChanges_refl _ _

theorem framesGo_only (before : State) (s : State) : onlyChanges [.out, .free, .pwr, .rng, .hif, .net] s (framesGo before s) := by
  unfold framesGo
  refine onlyChanges_ite ?_ ?_
  · refine onlyChanges_then ?_ (rxFlush_only ..) rfl
    refine onlyChanges_then ?_ (rxFlush_only ..) rfl
    exact onlyChanges_refl _ _
  · exact onlyChanges_refl _ _

theorem inOneCycle_only {ps : List Part} {s : State} {f : State → State} (hf : ∀ u, onlyChanges ps u (f u))
    (w : covers ps [.out, .free, .pwr, .rng, .hif, .net] = true) : onlyChanges ps s (inOneCycle f s) := by
  unfold inOneCycle
  exact oneCycle_only (fun u => onlyChanges_trans (hf u) (onlyChanges_mono (framesGo_only u _) (fun _ hp => covers_mem w hp)))

theorem rxAccept_only (s : State) (p : Nat) (f : List Byte) (t : Stamp) : onlyChanges [.out, .free, .pwr, .rng, .hif, .lanes, .net] s (rxAccept s p f t) := by
  unfold rxAccept
  refine onlyChanges_ite ?_ ?_
  · extract_lets v28
    refine onlyChanges_then ?_ (wake_only ..) rfl
    refine onlyChanges_ite ?_ ?_
    · refine onlyChanges_then ?_ (modPort_only ..) rfl
      exact onlyChanges_refl _ _
    · refine onlyChanges_then ?_ (dropNoBuf_only ..) rfl
      exact onlyChanges_refl _ _
  · refine onlyChanges_then ?_ (wake_only ..) rfl
    refine onlyChanges_then ?_ (rxDeliver_only ..) rfl
    exact onlyChanges_refl _ _

theorem telLatch_only (s : State) (b : List Byte) : onlyChanges [.out, .free, .saf, .pwr, .bld, .lanes] s (telLatch s b) := by
  unfold telLatch
  extract_lets v29 v30
  have hv30 : onlyChanges [.out, .free, .saf, .pwr, .bld, .lanes] s v30 := by
    refine foldl_only ?_ (fun t31 a31 => ?_)
    · exact onlyChanges_refl _ _
    · refine onlyChanges_ite ?_ ?_
      · exact onlyChanges_refl _ _
      · refine onlyChanges_ite ?_ ?_
        · refine raw_saf ?_ rfl
          exact onlyChanges_refl _ _
        · refine onlyChanges_ite ?_ ?_
          · refine raw_saf ?_ rfl
            exact onlyChanges_refl _ _
          · refine onlyChanges_ite ?_ ?_
            · refine raw_saf ?_ rfl
              exact onlyChanges_refl _ _
            · exact onlyChanges_refl _ _
  refine onlyChanges_then ?_ (settle_only ..) rfl
  exact hv30

theorem telAccept_only (s : State) (k : TelKey) (confirmed : Bool) (ports : Nat) (second : Word) : onlyChanges [.out, .free, .saf, .pwr, .rng, .hif, .bld, .lanes] s (telAccept s k confirmed ports second) := by
  unfold telAccept
  refine onlyChanges_ite ?_ ?_
  · exact onlyChanges_refl _ _
  · extract_lets v32 v33 v34 v35 v36 v37
    split
    refine onlyChanges_then ?_ (wake_only ..) rfl
    refine onlyChanges_then ?_ (writeRecord_only ..) rfl
    refine onlyChanges_snd (by assumption) ?_
    refine onlyChanges_then ?_ (stampCore_only ..) rfl
    refine onlyChanges_ite ?_ ?_
    · refine onlyChanges_then ?_ (telLatch_only ..) rfl
      refine raw_saf ?_ rfl
      exact onlyChanges_refl _ _
    · exact onlyChanges_refl _ _

theorem telClose_only (s : State) (k : TelKey) : onlyChanges [.net] s (telClose s k) := by
  unfold telClose
  refine onlyChanges_then ?_ (modNet_only ..) rfl
  exact onlyChanges_refl _ _

theorem telSingle_only (s : State) (k : TelKey) : onlyChanges [.out, .free, .flt, .saf, .pwr, .rng, .hif, .bld, .lanes, .net] s (telSingle s k) := by
  unfold telSingle
  refine onlyChanges_then ?_ (telAccept_only ..) rfl
  refine onlyChanges_then ?_ (raise_only ..) rfl
  refine onlyChanges_then ?_ (telClose_only ..) rfl
  exact onlyChanges_refl _ _

theorem telSecond_only (s : State) (k : TelKey) (f : List Byte) (t : Word) : onlyChanges [.out, .free, .flt, .saf, .pwr, .rng, .hif, .bld, .lanes, .net] s (telSecond s k f t) := by
  unfold telSecond
  extract_lets v38
  have hv38 : onlyChanges [.out, .free, .flt, .saf, .pwr, .rng, .hif, .bld, .lanes, .net] s v38 := by
    refine onlyChanges_then ?_ (telClose_only ..) rfl
    exact onlyChanges_refl _ _
  refine onlyChanges_ite ?_ ?_
  · refine onlyChanges_then ?_ (telAccept_only ..) rfl
    exact hv38
  · split
    refine onlyChanges_then ?_ (writeRecord_only ..) rfl
    refine onlyChanges_snd (by assumption) ?_
    refine onlyChanges_then ?_ (stampCore_only ..) rfl
    refine onlyChanges_then ?_ (raise_only ..) rfl
    exact hv38

theorem telOpen_only (s : State) (k : TelKey) : onlyChanges [.out, .free, .flt, .saf, .pwr, .rng, .hif, .bld, .lanes, .net] s (telOpen s k) := by
  unfold telOpen
  extract_lets v39
  have hv39 : onlyChanges [.out, .free, .flt, .saf, .pwr, .rng, .hif, .bld, .lanes, .net] s v39 := by
    refine onlyChanges_ite ?_ ?_
    · split
      · exact onlyChanges_refl _ _
      · refine onlyChanges_then ?_ (telSingle_only ..) rfl
        exact onlyChanges_refl _ _
    · exact onlyChanges_refl _ _
  refine onlyChanges_then ?_ (modNet_only ..) rfl
  exact hv39

theorem telArrive_only (s : State) (p : Nat) (src : Nat) (f : List Byte) (t : Word) : onlyChanges [.out, .free, .flt, .saf, .pwr, .rng, .hif, .bld, .lanes, .net] s (telArrive s p src f t) := by
  unfold telArrive
  refine onlyChanges_ite ?_ ?_
  · refine onlyChanges_then ?_ (modNet_only ..) rfl
    exact onlyChanges_refl _ _
  · extract_lets v40
    split
    · refine onlyChanges_ite ?_ ?_
      · refine onlyChanges_then ?_ (modNet_only ..) rfl
        exact onlyChanges_refl _ _
      · refine onlyChanges_then ?_ (telSecond_only ..) rfl
        exact onlyChanges_refl _ _
    · split
      · refine onlyChanges_ite ?_ ?_
        · refine onlyChanges_then ?_ (modNet_only ..) rfl
          exact onlyChanges_refl _ _
        · refine onlyChanges_then ?_ (modNet_only ..) rfl
          exact onlyChanges_refl _ _
      · refine onlyChanges_then ?_ (telOpen_only ..) rfl
        exact onlyChanges_refl _ _

theorem telWindowEnds_only (s : State) (src : Nat) (seq : Nat) : onlyChanges [.out, .free, .flt, .saf, .pwr, .rng, .hif, .bld, .lanes, .net] s (telWindowEnds s src seq) := by
  unfold telWindowEnds
  refine onlyChanges_ite ?_ ?_
  · exact onlyChanges_refl _ _
  · split
    · refine onlyChanges_then ?_ (telSingle_only ..) rfl
      exact onlyChanges_refl _ _
    · exact onlyChanges_refl _ _

theorem telForget_only (s : State) (src : Nat) (seq : Nat) : onlyChanges [.net] s (telForget s src seq) := by
  unfold telForget
  refine onlyChanges_then ?_ (modNet_only ..) rfl
  exact onlyChanges_refl _ _

theorem telTimesOut_only (s : State) (src : Nat) : onlyChanges [.out, .free, .flt, .saf, .pwr, .hif, .bld, .lanes] s (telTimesOut s src) := by
  unfold telTimesOut
  refine onlyChanges_ite ?_ ?_
  · refine onlyChanges_then ?_ (raise_only ..) rfl
    exact onlyChanges_refl _ _
  · exact onlyChanges_refl _ _

theorem rxFrame_only (s0 : State) (p : Nat) (f : List Byte) (error : Nat) : onlyChanges [.out, .free, .flt, .saf, .pwr, .rng, .hif, .bld, .lanes, .net] s0 (rxFrame s0 p f error) := by
  unfold rxFrame
  extract_lets v5 v6
  have hv6 : onlyChanges [.out, .free, .flt, .saf, .pwr, .rng, .hif, .bld, .lanes, .net] s0 v6 := by
    refine onlyChanges_ite ?_ ?_
    · refine onlyChanges_then ?_ (modPort_only ..) rfl
      exact onlyChanges_refl _ _
    · exact onlyChanges_refl _ _
  refine onlyChanges_ite ?_ ?_
  · exact onlyChanges_refl _ _
  · refine onlyChanges_ite ?_ ?_
    · refine onlyChanges_then ?_ (modPort_only ..) rfl
      exact hv6
    · refine onlyChanges_ite ?_ ?_
      · refine onlyChanges_then ?_ (modPort_only ..) rfl
        exact hv6
      · split
        split
        · refine onlyChanges_ite ?_ ?_
          · refine onlyChanges_then ?_ (telArrive_only ..) rfl
            refine onlyChanges_snd (by assumption) ?_
            refine onlyChanges_then ?_ (rxStamp_only ..) rfl
            exact hv6
          · refine onlyChanges_snd (by assumption) ?_
            refine onlyChanges_then ?_ (rxStamp_only ..) rfl
            exact hv6
        · refine onlyChanges_ite ?_ ?_
          · refine onlyChanges_then ?_ (dropTooLong_only ..) rfl
            refine onlyChanges_snd (by assumption) ?_
            refine onlyChanges_then ?_ (rxStamp_only ..) rfl
            exact hv6
          · refine onlyChanges_ite ?_ ?_
            · refine onlyChanges_then ?_ (rxAccept_only ..) rfl
              refine onlyChanges_snd (by assumption) ?_
              refine onlyChanges_then ?_ (rxStamp_only ..) rfl
              exact hv6
            · refine onlyChanges_snd (by assumption) ?_
              refine onlyChanges_then ?_ (rxStamp_only ..) rfl
              exact hv6

theorem modLaneBlock_only (s : State) (b : Nat) (f : LaneBlock → LaneBlock) : onlyChanges [.lanes] s (modLaneBlock s b f) := by
  refine ⟨rfl, fun p h => ?_⟩
  cases p <;> first | rfl | exact ⟨rfl, rfl⟩ | exact ⟨rfl, rfl, rfl⟩ | exact absurd (by decide) h

theorem startSearch_only (s : State) (l : Nat) : onlyChanges [.lanes] s (startSearch s l) := by
  unfold startSearch
  refine onlyChanges_then ?_ (modLane_only ..) rfl
  exact onlyChanges_refl _ _

theorem cdrLocks_only (s : State) (l : Nat) : onlyChanges [.lanes] s (cdrLocks s l) := by
  unfold cdrLocks
  extract_lets v7
  refine onlyChanges_ite ?_ ?_
  · exact onlyChanges_refl _ _
  · refine onlyChanges_ite ?_ ?_
    · refine onlyChanges_then ?_ (startSearch_only ..) rfl
      refine onlyChanges_then ?_ (modLane_only ..) rfl
      exact onlyChanges_refl _ _
    · refine onlyChanges_then ?_ (modLane_only ..) rfl
      exact onlyChanges_refl _ _

theorem laneAligned_only (s : State) (l : Nat) : onlyChanges [.out, .free, .flt, .saf, .pwr, .rng, .hif, .bld, .lanes, .tbl, .kps, .cbl] s (laneAligned s l) := by
  unfold laneAligned
  extract_lets v8 v9
  have hv9 : onlyChanges [.out, .free, .flt, .saf, .pwr, .rng, .hif, .bld, .lanes, .tbl, .kps,   .cbl] s v9 := by
    refine onlyChanges_then ?_ (laneProposalCheck_only ..) rfl
    refine onlyChanges_then ?_ (setLevel_only ..) rfl
    exact onlyChanges_refl _ _
  refine foldl_only ?_ (fun t10 a10 => ?_)
  · exact hv9
  · refine onlyChanges_then ?_ (configIfAsked_only ..) rfl
    refine onlyChanges_then ?_ (reconfigTile_only ..) rfl
    exact onlyChanges_refl _ _

theorem setSymbol_only (s : State) (l : Nat) (place : Nat) (pos : Bool) : onlyChanges [.free] s (setSymbol s l place pos).2 := by
  unfold setSymbol
  split
  · split
    · dsimp -zeta only
      exact onlyChanges_refl _ _
    · dsimp -zeta only
      exact onlyChanges_refl _ _
    · dsimp -zeta only
      exact onlyChanges_refl _ _
    · dsimp -zeta only
      exact onlyChanges_refl _ _
    · split
      dsimp -zeta only
      refine onlyChanges_snd (by assumption) ?_
      refine onlyChanges_then ?_ (drawBelow_only ..) rfl
      exact onlyChanges_refl _ _
  · split
    · dsimp -zeta only
      exact onlyChanges_refl _ _
    · dsimp -zeta only
      exact onlyChanges_refl _ _

theorem slotSends_only (s : State) (l : Nat) (g : Group) : onlyChanges [.free, .lanes] s (slotSends s l g).2 := by
  unfold slotSends
  dsimp only
  split
  · dsimp -zeta only
    refine onlyChanges_then ?_ (modLane_only ..) rfl
    exact onlyChanges_refl _ _
  · split
    · dsimp -zeta only
      exact onlyChanges_refl _ _
    · dsimp -zeta only
      refine onlyChanges_then ?_ (modLane_only ..) rfl
      refine raw_txRd ?_ rfl
      split
      · dsimp -zeta only
        exact onlyChanges_refl _ _
      · refine onlyChanges_then ?_ (setSymbol_only ..) rfl
        exact onlyChanges_refl _ _

theorem laneSlot_only (l : Nat) (s : State) (g : Group) : onlyChanges [.out, .free, .lanes] s (laneSlot l s g) := by
  unfold laneSlot
  extract_lets v12 v13
  have hv12 : onlyChanges [.out, .free, .lanes] s v12.2 := by
    refine onlyChanges_then ?_ (slotSends_only ..) rfl
    exact onlyChanges_refl _ _
  have hv13 : onlyChanges [.out, .free, .lanes] s v13 := by
    refine onlyChanges_then ?_ (modLane_only ..) rfl
    exact hv12
  split
  · refine onlyChanges_then ?_ (sendGroups_only ..) rfl
    exact hv13
  · refine onlyChanges_then ?_ (sendGroups_only ..) rfl
    exact hv13
  · exact hv13

theorem laneDrops_only (s : State) (l : Nat) : onlyChanges [.out, .free, .regs, .flt, .saf, .pwr, .rng, .hif, .bld, .lanes, .tbl, .net, .kps, .cbl] s (laneDrops s l) := by
  unfold laneDrops
  extract_lets v14
  refine onlyChanges_ite ?_ ?_
  · exact onlyChanges_refl _ _
  · refine onlyChanges_ite ?_ ?_
    · refine onlyChanges_then ?_ (setLevel_only ..) rfl
      refine onlyChanges_then ?_ (portSilent_only ..) rfl
      refine onlyChanges_then ?_ (modLane_only ..) rfl
      exact onlyChanges_refl _ _
    · refine onlyChanges_ite ?_ ?_
      · refine onlyChanges_then ?_ (laneCandidate_only ..) rfl
        refine onlyChanges_then ?_ (fwdLost_only ..) rfl
        refine onlyChanges_then ?_ (laneProposalCheck_only ..) rfl
        refine onlyChanges_then ?_ (setLevel_only ..) rfl
        refine onlyChanges_then ?_ (modLane_only ..) rfl
        exact onlyChanges_refl _ _
      · refine onlyChanges_then ?_ (modLane_only ..) rfl
        exact onlyChanges_refl _ _

theorem laneSyncs_only (s : State) (l : Nat) : onlyChanges [.out, .free, .regs, .flt, .saf, .pwr, .rng, .hif, .bld, .lanes, .tbl, .net, .kps, .cbl] s (laneSyncs s l) := by
  unfold laneSyncs
  extract_lets v15
  refine onlyChanges_ite ?_ ?_
  · exact onlyChanges_refl _ _
  · refine onlyChanges_ite ?_ ?_
    · refine onlyChanges_then ?_ (portLink_only ..) rfl
      refine onlyChanges_then ?_ (modPort_only ..) rfl
      refine onlyChanges_then ?_ (setLevel_only ..) rfl
      refine onlyChanges_then ?_ (modLane_only ..) rfl
      exact onlyChanges_refl _ _
    · refine onlyChanges_then ?_ (laneDrops_only ..) rfl
      exact onlyChanges_refl _ _

theorem laneHears_only (s : State) (l : Nat) (x1 : List Group) : onlyChanges [.out, .free, .regs, .flt, .saf, .pwr, .rng, .hif, .bld, .lanes, .tbl, .net, .kps, .cbl] s (laneHears s l x1) := by
  induction x1 generalizing s with
  | nil => exact onlyChanges_refl _ _
  | cons v vs ih =>
    unfold laneHears
    dsimp only
    refine onlyChanges_trans ?_ (ih ..)
    have h1 : onlyChanges [.out, .free, .regs, .flt, .saf, .pwr, .rng, .hif, .bld, .lanes, .tbl, .net, .kps, .cbl] s (laneSyncs (laneSlot l s v) l) :=
      onlyChanges_then (onlyChanges_then (onlyChanges_refl _ _) (laneSlot_only ..) rfl) (laneSyncs_only ..) rfl
    exact onlyChanges_ite (onlyChanges_then (onlyChanges_then h1 (modLane_only ..) rfl) (laneDrops_only ..) rfl) h1

theorem elasticMoves_only (s : State) (l : Nat) (drift : Int) : onlyChanges [.out, .free, .regs, .flt, .saf, .pwr, .rng, .hif, .bld, .lanes, .tbl, .net, .kps, .cbl] s (elasticMoves s l drift) := by
  unfold elasticMoves
  extract_lets v16
  refine onlyChanges_ite ?_ ?_
  · exact onlyChanges_refl _ _
  · refine onlyChanges_ite ?_ ?_
    · refine onlyChanges_then ?_ (modLane_only ..) rfl
      exact onlyChanges_refl _ _
    · refine onlyChanges_then ?_ (laneDrops_only ..) rfl
      refine onlyChanges_then ?_ (modLane_only ..) rfl
      exact onlyChanges_refl _ _

theorem laneMeets_only (s : State) (l : Nat) (groups : List Group) (drift : Int) (cdr : Bool) : onlyChanges [.out, .free, .regs, .flt, .saf, .pwr, .rng, .hif, .bld, .lanes, .tbl, .net, .kps, .cbl] s (laneMeets s l groups drift cdr) := by
  unfold laneMeets
  extract_lets v17
  refine onlyChanges_ite ?_ ?_
  · exact onlyChanges_refl _ _
  · refine onlyChanges_ite ?_ ?_
    · refine onlyChanges_then ?_ (laneDrops_only ..) rfl
      refine onlyChanges_then ?_ (modLane_only ..) rfl
      refine onlyChanges_ite ?_ ?_
      · refine onlyChanges_then ?_ (elasticMoves_only ..) rfl
        refine onlyChanges_then ?_ (laneHears_only ..) rfl
        exact onlyChanges_refl _ _
      · exact onlyChanges_refl _ _
    · refine onlyChanges_ite ?_ ?_
      · refine onlyChanges_then ?_ (elasticMoves_only ..) rfl
        refine onlyChanges_then ?_ (laneHears_only ..) rfl
        exact onlyChanges_refl _ _
      · exact onlyChanges_refl _ _

theorem ownGroups_only (l : Nat) (x1 : Nat) (x2 : State) : onlyChanges [.free, .lanes] x2 (ownGroups l x1 x2).2 := by
  induction x1 generalizing x2 with
  | zero => exact onlyChanges_refl _ _
  | succ n ih =>
    unfold ownGroups
    dsimp only
    refine onlyChanges_trans ?_ (ih _)
    exact onlyChanges_then (onlyChanges_refl _ _) (slotSends_only ..) rfl

theorem searchHears_only (s : State) (l : Nat) (bits : List Bool) : onlyChanges [.free, .lanes] s (searchHears s l bits).2 := by
  unfold searchHears
  split
  · extract_lets v24 v25
    have hv24 : onlyChanges [.free, .lanes] s v24.2 := by
      refine onlyChanges_then ?_ (ownGroups_only ..) rfl
      exact onlyChanges_refl _ _
    split
    · dsimp -zeta only
      exact hv24
    · split
      dsimp -zeta only
      refine onlyChanges_snd (by assumption) ?_
      refine onlyChanges_then ?_ (drawBelow_only ..) rfl
      exact hv24
  · dsimp -zeta only
    exact onlyChanges_refl _ _

theorem searchEnds_only (s : State) (l : Nat) (bits : List Bool) (groups : List Group) : onlyChanges [.out, .free, .regs, .flt, .saf, .pwr, .rng, .hif, .bld, .lanes, .tbl, .net, .kps, .cbl] s (searchEnds s l bits groups) := by
  unfold searchEnds
  extract_lets v22
  refine onlyChanges_ite ?_ ?_
  · exact onlyChanges_refl _ _
  · split
    · refine onlyChanges_then ?_ (modLane_only ..) rfl
      refine onlyChanges_then ?_ (searchHears_only ..) rfl
      exact onlyChanges_refl _ _
    · refine onlyChanges_then ?_ (laneHears_only ..) rfl
      refine onlyChanges_then ?_ (laneAligned_only ..) rfl
      refine onlyChanges_then ?_ (modLane_only ..) rfl
      refine onlyChanges_then ?_ (modLane_only ..) rfl
      refine onlyChanges_then ?_ (searchHears_only ..) rfl
      exact onlyChanges_refl _ _
    · refine onlyChanges_then ?_ (modLane_only ..) rfl
      refine onlyChanges_then ?_ (modLane_only ..) rfl
      refine onlyChanges_then ?_ (searchHears_only ..) rfl
      exact onlyChanges_refl _ _

theorem eqApply_only (s : State) (l : Nat) (upset : Bool) : onlyChanges [.out, .free, .regs, .flt, .saf, .pwr, .hif, .bld, .lanes] s (eqApply s l upset) := by
  unfold eqApply
  extract_lets v23
  refine onlyChanges_ite ?_ ?_
  · exact onlyChanges_refl _ _
  · split
    · refine onlyChanges_then ?_ (modLane_only ..) rfl
      refine onlyChanges_then ?_ (modLaneBlock_only ..) rfl
      refine onlyChanges_then ?_ (raiseInj_only ..) rfl
      refine onlyChanges_ite ?_ ?_
      · refine onlyChanges_then ?_ (tableSpoilt_only ..) rfl
        refine onlyChanges_then ?_ (spendInj_only ..) rfl
        exact onlyChanges_refl _ _
      · refine onlyChanges_ite ?_ ?_
        · refine onlyChanges_then ?_ (tableSpoilt_only ..) rfl
          exact onlyChanges_refl _ _
        · exact onlyChanges_refl _ _
    · refine onlyChanges_then ?_ (modLane_only ..) rfl
      refine onlyChanges_ite ?_ ?_
      · refine onlyChanges_then ?_ (tableSpoilt_only ..) rfl
        refine onlyChanges_then ?_ (spendInj_only ..) rfl
        exact onlyChanges_refl _ _
      · refine onlyChanges_ite ?_ ?_
        · refine onlyChanges_then ?_ (tableSpoilt_only ..) rfl
          exact onlyChanges_refl _ _
        · exact onlyChanges_refl _ _

theorem eqPoint_only (s : State) (l : Nat) (upset : Bool) : onlyChanges [.out, .free, .regs, .flt, .saf, .pwr, .hif, .bld, .lanes] s (eqPoint s l upset) := by
  unfold eqPoint
  refine onlyChanges_ite ?_ ?_
  · refine onlyChanges_then ?_ (eqApply_only ..) rfl
    exact onlyChanges_refl _ _
  · exact onlyChanges_refl _ _

theorem eqAllPending_only (s : State) : onlyChanges [.lanes] s (eqAllPending s) := by
  unfold eqAllPending
  refine foldl_only ?_ (fun t26 a26 => ?_)
  · exact onlyChanges_refl _ _
  · refine onlyChanges_then ?_ (modLane_only ..) rfl
    exact onlyChanges_refl _ _

theorem scanStarts_only (s : State) (l : Nat) : onlyChanges [.lanes] s (scanStarts s l) := by
  unfold scanStarts
  extract_lets v27
  refine onlyChanges_ite ?_ ?_
  · refine onlyChanges_then ?_ (modLane_only ..) rfl
    exact onlyChanges_refl _ _
  · exact onlyChanges_refl _ _

theorem scanEnds_only (s0 : State) (l : Nat) (clean : DWord) (groups : List Group) (drift : Int) : onlyChanges [.out, .free, .regs, .flt, .saf, .pwr, .rng, .hif, .bld, .lanes, .tbl, .net, .kps, .cbl] s0 (scanEnds s0 l clean groups drift) := by
  unfold scanEnds
  extract_lets v28 v29
  have hv28 : onlyChanges [.out, .free, .regs, .flt, .saf, .pwr, .rng, .hif, .bld, .lanes, .tbl,   .net, .kps, .cbl] s0 v28 := by
    refine onlyChanges_then ?_ (laneMeets_only ..) rfl
    exact onlyChanges_refl _ _
  refine onlyChanges_ite ?_ ?_
  · exact hv28
  · refine onlyChanges_ite ?_ ?_
    · refine onlyChanges_then ?_ (laneCandidate_only ..) rfl
      refine onlyChanges_then ?_ (laneProposalCheck_only ..) rfl
      refine onlyChanges_then ?_ (setLevel_only ..) rfl
      refine onlyChanges_then ?_ (modLane_only ..) rfl
      refine onlyChanges_then ?_ (modLane_only ..) rfl
      exact hv28
    · refine onlyChanges_ite ?_ ?_
      · refine onlyChanges_then ?_ (setLevel_only ..) rfl
        refine onlyChanges_then ?_ (modLane_only ..) rfl
        refine onlyChanges_then ?_ (modLane_only ..) rfl
        exact hv28
      · refine onlyChanges_ite ?_ ?_
        · refine onlyChanges_then ?_ (setLevel_only ..) rfl
          refine onlyChanges_then ?_ (modLane_only ..) rfl
          refine onlyChanges_then ?_ (modLane_only ..) rfl
          exact hv28
        · refine onlyChanges_ite ?_ ?_
          · refine onlyChanges_then ?_ (laneProposalCheck_only ..) rfl
            refine onlyChanges_then ?_ (setLevel_only ..) rfl
            refine onlyChanges_then ?_ (modLane_only ..) rfl
            refine onlyChanges_then ?_ (modLane_only ..) rfl
            exact hv28
          · refine onlyChanges_then ?_ (modLane_only ..) rfl
            exact hv28

theorem trimMoves_only (s : State) (l : Nat) : onlyChanges [.lanes] s (trimMoves s l) := by
  unfold trimMoves
  extract_lets v30
  refine onlyChanges_ite ?_ ?_
  · exact onlyChanges_refl _ _
  · refine onlyChanges_then ?_ (modLane_only ..) rfl
    exact onlyChanges_refl _ _

theorem pathsEnter_only (s : State) (l : Nat) : onlyChanges [.tbl] s (pathsEnter s l) := by
  unfold pathsEnter
  refine onlyChanges_ite ?_ ?_
  · extract_lets v31
    refine foldl_only ?_ (fun t32 a32 => ?_)
    · exact onlyChanges_refl _ _
    · refine onlyChanges_then ?_ (modTile_only ..) rfl
      exact onlyChanges_refl _ _
  · exact onlyChanges_refl _ _

theorem lowerLane_only (s : State) (l : Nat) (p : Nat) : onlyChanges [.out, .free, .flt, .saf, .pwr, .rng, .hif, .bld, .lanes, .net] s (lowerLane s l p) := by
  unfold lowerLane
  extract_lets v33 v34
  have hv33 : onlyChanges [.out, .free, .flt, .saf, .pwr, .rng, .hif, .bld, .lanes, .net] s v33 := by
    refine onlyChanges_then ?_ (modLane_only ..) rfl
    exact onlyChanges_refl _ _
  have hv34 : onlyChanges [.out, .free, .flt, .saf, .pwr, .rng, .hif, .bld, .lanes, .net] s v34 := by
    refine onlyChanges_then ?_ (streamSettle_only ..) rfl
    exact hv33
  refine onlyChanges_ite ?_ ?_
  · exact hv34
  · refine onlyChanges_then ?_ (portSilent_only ..) rfl
    exact hv34

theorem laneReaches_only (s : State) (l : Nat) (upset : Bool) : onlyChanges [.out, .free, .regs, .flt, .saf, .pwr, .hif, .bld, .lanes, .tbl] s (laneReaches s l upset) := by
  unfold laneReaches
  extract_lets v35
  refine onlyChanges_ite ?_ ?_
  · exact onlyChanges_refl _ _
  · refine onlyChanges_ite ?_ ?_
    · refine onlyChanges_then ?_ (startSearch_only ..) rfl
      refine onlyChanges_then ?_ (pathsEnter_only ..) rfl
      refine onlyChanges_then ?_ (streamSettle_only ..) rfl
      refine onlyChanges_then ?_ (modLane_only ..) rfl
      refine onlyChanges_ite ?_ ?_
      · refine onlyChanges_then ?_ (eqApply_only ..) rfl
        exact onlyChanges_refl _ _
      · exact onlyChanges_refl _ _
    · refine onlyChanges_then ?_ (pathsEnter_only ..) rfl
      refine onlyChanges_then ?_ (streamSettle_only ..) rfl
      refine onlyChanges_then ?_ (modLane_only ..) rfl
      refine onlyChanges_ite ?_ ?_
      · refine onlyChanges_then ?_ (eqApply_only ..) rfl
        exact onlyChanges_refl _ _
      · exact onlyChanges_refl _ _

theorem laneTests_only (s : State) (l : Nat) (old : Word) : onlyChanges [.out, .lanes] s (laneTests s l old) := by
  unfold laneTests
  refine onlyChanges_then ?_ (streamSettle_only ..) rfl
  refine onlyChanges_then ?_ (modLane_only ..) rfl
  exact onlyChanges_refl _ _

theorem writeLaneCtrl_only (s : State) (l : Nat) (v : Word) : onlyChanges [.out, .free, .regs, .flt, .saf, .pwr, .rng, .hif, .bld, .lanes, .net] s (writeLaneCtrl s l v) := by
  unfold writeLaneCtrl
  extract_lets v36 v37 v38 v39 v40 v41 v42 v43 v44 v45 v46 v47 v48 v49 v50 v51 v52
  have hv50 : onlyChanges [.out, .free, .regs, .flt, .saf, .pwr, .rng, .hif, .bld, .lanes, .net] s v50 := by
    refine onlyChanges_then ?_ (laneTests_only ..) rfl
    refine onlyChanges_then ?_ (setRegAt_only ..) rfl
    exact onlyChanges_refl _ _
  have hv51 : onlyChanges [.out, .free, .regs, .flt, .saf, .pwr, .rng, .hif, .bld, .lanes, .net] s v51 := by
    refine onlyChanges_ite ?_ ?_
    · refine onlyChanges_then ?_ (modLane_only ..) rfl
      exact hv50
    · exact hv50
  have hv52 : onlyChanges [.out, .free, .regs, .flt, .saf, .pwr, .rng, .hif, .bld, .lanes, .net] s v52 := by
    refine onlyChanges_ite ?_ ?_
    · refine onlyChanges_then ?_ (lowerLane_only ..) rfl
      exact hv51
    · exact hv51
  refine onlyChanges_ite ?_ ?_
  · refine onlyChanges_then ?_ (startSearch_only ..) rfl
    exact hv52
  · exact hv52

theorem clearLaneCounts_only (s : State) (b : Nat) : onlyChanges [.lanes] s (clearLaneCounts s b) := by
  unfold clearLaneCounts
  refine foldl_only ?_ (fun t0 a0 => ?_)
  · exact onlyChanges_refl _ _
  · refine onlyChanges_then ?_ (modLane_only ..) rfl
    exact onlyChanges_refl _ _

theorem timingRefused_only (s : State) (h : Head) : onlyChanges [.tg] s (timingRefused s h) := by
  unfold timingRefused
  refine onlyChanges_then ?_ (modTg_only ..) rfl
  exact onlyChanges_refl _ _

theorem writeLnCtrl_only (s : State) (b : Nat) (v : Word) : onlyChanges [.regs, .tg, .lanes] s (writeLnCtrl s b v) := by
  unfold writeLnCtrl
  extract_lets v53 v54
  refine onlyChanges_ite ?_ ?_
  · refine onlyChanges_ite ?_ ?_
    · refine onlyChanges_then ?_ (clearLaneCounts_only ..) rfl
      refine onlyChanges_then ?_ (setRegAt_only ..) rfl
      exact onlyChanges_refl _ _
    · refine onlyChanges_then ?_ (setRegAt_only ..) rfl
      exact onlyChanges_refl _ _
  · refine onlyChanges_ite ?_ ?_
    · refine onlyChanges_then ?_ (clearLaneCounts_only ..) rfl
      refine onlyChanges_ite ?_ ?_
      · refine onlyChanges_then ?_ (modLaneBlock_only ..) rfl
        refine onlyChanges_ite ?_ ?_
        · refine onlyChanges_then ?_ (timingRefused_only ..) rfl
          refine onlyChanges_then ?_ (setRegAt_only ..) rfl
          exact onlyChanges_refl _ _
        · refine onlyChanges_then ?_ (setRegAt_only ..) rfl
          exact onlyChanges_refl _ _
      · refine onlyChanges_ite ?_ ?_
        · refine onlyChanges_then ?_ (timingRefused_only ..) rfl
          refine onlyChanges_then ?_ (setRegAt_only ..) rfl
          exact onlyChanges_refl _ _
        · refine onlyChanges_then ?_ (setRegAt_only ..) rfl
          exact onlyChanges_refl _ _
    · refine onlyChanges_ite ?_ ?_
      · refine onlyChanges_then ?_ (modLaneBlock_only ..) rfl
        refine onlyChanges_ite ?_ ?_
        · refine onlyChanges_then ?_ (timingRefused_only ..) rfl
          refine onlyChanges_then ?_ (setRegAt_only ..) rfl
          exact onlyChanges_refl _ _
        · refine onlyChanges_then ?_ (setRegAt_only ..) rfl
          exact onlyChanges_refl _ _
      · refine onlyChanges_ite ?_ ?_
        · refine onlyChanges_then ?_ (timingRefused_only ..) rfl
          refine onlyChanges_then ?_ (setRegAt_only ..) rfl
          exact onlyChanges_refl _ _
        · refine onlyChanges_then ?_ (setRegAt_only ..) rfl
          exact onlyChanges_refl _ _

theorem writeEq_only (s : State) (idx : Nat) (v : Word) : onlyChanges [.regs, .lanes] s (writeEq s idx v) := by
  unfold writeEq
  extract_lets v55 v56 v57 v58
  have hv58 : onlyChanges [.regs, .lanes] s v58 := by
    refine onlyChanges_then ?_ (setTable_only ..) rfl
    exact onlyChanges_refl _ _
  refine onlyChanges_ite ?_ ?_
  · refine onlyChanges_then ?_ (modLane_only ..) rfl
    exact hv58
  · exact hv58

theorem splitsCut_only (s : State) (path : Head) : onlyChanges [.pxc] s (splitsCut s path) := by
  unfold splitsCut
  extract_lets v59 v60
  refine onlyChanges_then ?_ (modPxc_only ..) rfl
  exact onlyChanges_refl _ _

theorem forceApply_only (s : State) (h : Head) : onlyChanges [.bld, .tg] s (forceApply s h) := by
  unfold forceApply
  split
  · exact onlyChanges_refl _ _
  · extract_lets v61 v62
    have hv62 : onlyChanges [.bld, .tg] s v62 := by
      refine onlyChanges_then ?_ (modTg_only ..) rfl
      exact onlyChanges_refl _ _
    refine onlyChanges_ite ?_ ?_
    · exact hv62
    · refine foldl_only ?_ (fun t63 a63 => ?_)
      · exact hv62
      · refine onlyChanges_then ?_ (modBld_only ..) rfl
        exact onlyChanges_refl _ _

theorem toneApply_only (s : State) (h : Head) : onlyChanges [.bld] s (toneApply s h) := by
  unfold toneApply
  refine onlyChanges_then ?_ (modBld_only ..) rfl
  exact onlyChanges_refl _ _

theorem blockApply_only (s : State) (h : Head) : onlyChanges [.saf] s (blockApply s h) := by
  unfold blockApply
  refine onlyChanges_then ?_ (modSafHead_only ..) rfl
  exact onlyChanges_refl _ _

theorem bandApply_only (s : State) (h : Head) : onlyChanges [.pxc] s (bandApply s h) := by
  unfold bandApply
  refine onlyChanges_then ?_ (modPxc_only ..) rfl
  exact onlyChanges_refl _ _

theorem pitchApply_only (s : State) (h : Head) : onlyChanges [.tg] s (pitchApply s h) := by
  unfold pitchApply
  refine onlyChanges_then ?_ (modTg_only ..) rfl
  exact onlyChanges_refl _ _

theorem cutApply_only (s : State) (h : Head) : onlyChanges [.saf, .rng, .ly, .shd, .bld, .pxc, .tg] s (cutApply s h) := by
  unfold cutApply
  extract_lets v64 v65 v66
  have hv65 : onlyChanges [.saf, .rng, .ly, .shd, .bld, .pxc, .tg] s v65 := by
    refine onlyChanges_then ?_ (calApply_only ..) rfl
    refine onlyChanges_then ?_ (listsApply_only ..) rfl
    refine onlyChanges_then ?_ (setsApply_only ..) rfl
    refine onlyChanges_then ?_ (forceApply_only ..) rfl
    exact onlyChanges_refl _ _
  have hv66 : onlyChanges [.saf, .rng, .ly, .shd, .bld, .pxc, .tg] s v66 := by
    refine onlyChanges_then ?_ (degradeApply_only ..) rfl
    refine onlyChanges_then ?_ (blockApply_only ..) rfl
    refine onlyChanges_then ?_ (toneApply_only ..) rfl
    exact hv65
  refine onlyChanges_then ?_ (flatSettle_only ..) rfl
  refine onlyChanges_then ?_ (splitsCut_only ..) rfl
  refine onlyChanges_then ?_ (pitchApply_only ..) rfl
  refine onlyChanges_then ?_ (bandApply_only ..) rfl
  refine onlyChanges_then ?_ (headroomApply_only ..) rfl
  exact hv66

theorem cutApplyAll_only (s : State) (h : Head) : onlyChanges [.out, .free, .saf, .pwr, .rng, .ly, .shd, .bld, .pxc, .tg, .lanes] s (cutApplyAll s h) := by
  unfold cutApplyAll
  refine onlyChanges_then ?_ (settle_only ..) rfl
  refine foldl_only ?_ (fun t68 a68 => ?_)
  · exact onlyChanges_refl _ _
  · refine onlyChanges_then ?_ (cutApply_only ..) rfl
    exact onlyChanges_refl _ _

theorem setTgState_only (s : State) (h : Head) (v : Nat) : onlyChanges [.tg] s (setTgState s h v) := by
  unfold setTgState
  refine foldl_only ?_ (fun t67 a67 => ?_)
  · exact onlyChanges_refl _ _
  · refine onlyChanges_then ?_ (modTg_only ..) rfl
    exact onlyChanges_refl _ _

theorem startCut_only (s : State) (h : Head) : onlyChanges [.out, .free, .regs, .mem, .flt, .saf, .pwr, .rng, .hif, .lmm, .ly, .shd, .bld, .pxc, .tg, .lanes, .tbl, .kps, .cbl] s (startCut s h) := by
  unfold startCut
  extract_lets v68 v0
  have hv68 : onlyChanges [.out, .free, .regs, .mem, .flt, .saf, .pwr, .rng, .hif, .lmm, .ly,   .shd, .bld, .pxc, .tg, .lanes, .tbl, .kps, .cbl] s v68 := by
    refine onlyChanges_then ?_ (cutApplyAll_only ..) rfl
    exact onlyChanges_refl _ _
  have hv0 : onlyChanges [.out, .free, .regs, .mem, .flt, .saf, .pwr, .rng, .hif, .lmm, .ly,   .shd, .bld, .pxc, .tg, .lanes, .tbl, .kps, .cbl] s v0 := by
    refine foldl_only ?_ (fun t0 a0 => ?_)
    · exact hv68
    · refine onlyChanges_then ?_ (checkCap_only ..) rfl
      refine onlyChanges_then ?_ (modPxc_only ..) rfl
      refine onlyChanges_then ?_ (modPwr_only ..) rfl
      exact onlyChanges_refl _ _
  refine onlyChanges_then ?_ (buildMask_only ..) rfl
  refine onlyChanges_then ?_ (modTg_only ..) rfl
  exact hv0

theorem startHead_only (s : State) (h : Head) : onlyChanges [.out, .free, .regs, .mem, .flt, .saf, .pwr, .rng, .hif, .lmm, .ly, .shd, .bld, .pxc, .tg, .lanes, .tbl, .kps, .cbl] s (startHead s h) := by
  unfold startHead
  refine onlyChanges_ite ?_ ?_
  · exact onlyChanges_refl _ _
  · extract_lets v69
    have hv69 : onlyChanges [.out, .free, .regs, .mem, .flt, .saf, .pwr, .rng, .hif, .lmm, .ly,   .shd, .bld, .pxc, .tg, .lanes, .tbl, .kps, .cbl] s v69 := by
      refine onlyChanges_then ?_ (setTgState_only ..) rfl
      exact onlyChanges_refl _ _
    split
    · refine onlyChanges_then ?_ (startCut_only ..) rfl
      exact hv69
    · extract_lets v72
      have hv72 : onlyChanges [.out, .free, .regs, .mem, .flt, .saf, .pwr, .rng, .hif, .lmm, .ly,   .shd, .bld, .pxc, .tg, .lanes, .tbl, .kps, .cbl] s v72 := by
        refine onlyChanges_then ?_ (modTg_only ..) rfl
        refine onlyChanges_then ?_ (setTgState_only ..) rfl
        exact hv69
      refine onlyChanges_ite ?_ ?_
      · refine onlyChanges_then ?_ (modLmm_only ..) rfl
        exact hv72
      · exact hv72

theorem stopHead_only (s : State) (h : Head) : onlyChanges [.tg] s (stopHead s h) := by
  unfold stopHead
  refine onlyChanges_then ?_ (setTgState_only ..) rfl
  exact onlyChanges_refl _ _

theorem joinHeads_only (s : State) : onlyChanges [.tg] s (joinHeads s) := by
  unfold joinHeads
  refine onlyChanges_then ?_ (modTg_only ..) rfl
  exact onlyChanges_refl _ _

theorem writeJoined_only (s : State) (v : Word) : onlyChanges [.out, .free, .regs, .saf, .pwr, .bld, .tg, .lanes] s (writeJoined s v) := by
  unfold writeJoined
  refine onlyChanges_ite ?_ ?_
  · exact onlyChanges_refl _ _
  · refine onlyChanges_ite ?_ ?_
    · extract_lets v70
      have hv70 : onlyChanges [.out, .free, .regs, .saf, .pwr, .bld, .tg, .lanes] s v70 := by
        refine onlyChanges_then ?_ (setRegAt_only ..) rfl
        exact onlyChanges_refl _ _
      refine onlyChanges_then ?_ (settle_only ..) rfl
      refine onlyChanges_ite ?_ ?_
      · refine onlyChanges_then ?_ (joinHeads_only ..) rfl
        exact hv70
      · exact hv70
    · refine onlyChanges_then ?_ (timingRefused_only ..) rfl
      exact onlyChanges_refl _ _

theorem writeTgCtrl_only (s : State) (h : Head) (v : Word) : onlyChanges [.out, .free, .regs, .mem, .flt, .saf, .pwr, .rng, .hif, .lmm, .ly, .shd, .bld, .pxc, .tg, .lanes, .tbl, .kps, .cbl] s (writeTgCtrl s h v) := by
  unfold writeTgCtrl
  extract_lets v71
  have hv71 : onlyChanges [.out, .free, .regs, .mem, .flt, .saf, .pwr, .rng, .hif, .lmm, .ly,   .shd, .bld, .pxc, .tg, .lanes, .tbl, .kps, .cbl] s v71 := by
    refine onlyChanges_ite ?_ ?_
    · refine onlyChanges_then ?_ (writeJoined_only ..) rfl
      exact onlyChanges_refl _ _
    · exact onlyChanges_refl _ _
  refine onlyChanges_ite ?_ ?_
  · refine onlyChanges_then ?_ (setRegAt_only ..) rfl
    exact hv71
  · refine onlyChanges_ite ?_ ?_
    · refine onlyChanges_ite ?_ ?_
      · refine onlyChanges_then ?_ (startHead_only ..) rfl
        refine onlyChanges_then ?_ (setRegAt_only ..) rfl
        exact hv71
      · refine onlyChanges_then ?_ (setRegAt_only ..) rfl
        exact hv71
    · refine onlyChanges_ite ?_ ?_
      · refine onlyChanges_then ?_ (stopHead_only ..) rfl
        refine onlyChanges_then ?_ (setRegAt_only ..) rfl
        exact hv71
      · refine onlyChanges_then ?_ (setRegAt_only ..) rfl
        exact hv71

theorem commitWrite_only (s : State) (h : Head) : onlyChanges [.tg] s (commitWrite s h) := by
  unfold commitWrite
  refine onlyChanges_ite ?_ ?_
  · refine onlyChanges_then ?_ (modTg_only ..) rfl
    exact onlyChanges_refl _ _
  · refine foldl_only ?_ (fun t73 a73 => ?_)
    · exact onlyChanges_refl _ _
    · refine onlyChanges_then ?_ (modTg_only ..) rfl
      exact onlyChanges_refl _ _

theorem commitPend_only (s : State) (h : Head) : onlyChanges [.bld, .pxc, .tg, .tbl] s (commitPend s h) := by
  unfold commitPend
  extract_lets v74 v75
  have hv74 : onlyChanges [.bld, .pxc, .tg, .tbl] s v74 := by
    refine foldl_only ?_ (fun t76 a76 => ?_)
    · exact onlyChanges_refl _ _
    · refine onlyChanges_then ?_ (modTg_only ..) rfl
      exact onlyChanges_refl _ _
  have hv75 : onlyChanges [.bld, .pxc, .tg, .tbl] s v75 := by
    refine foldl_only ?_ (fun t77 a77 => ?_)
    · exact hv74
    · refine onlyChanges_then ?_ (checkCap_only ..) rfl
      exact onlyChanges_refl _ _
  refine onlyChanges_ite ?_ ?_
  · refine foldl_only ?_ (fun t78 a78 => ?_)
    · exact hv75
    · refine onlyChanges_then ?_ (splitsCut_only ..) rfl
      refine onlyChanges_then ?_ (forceApply_only ..) rfl
      exact onlyChanges_refl _ _
  · exact hv75

theorem commitCheckEnd_only (s : State) (h : Head) : onlyChanges [.out, .hif, .bld, .pxc, .tg, .tbl] s (commitCheckEnd s h) := by
  unfold commitCheckEnd
  split
  · exact onlyChanges_refl _ _
  · refine onlyChanges_ite ?_ ?_
    · exact onlyChanges_refl _ _
    · split
      · refine foldl_only ?_ (fun t81 a81 => ?_)
        · refine onlyChanges_then ?_ (modTg_only ..) rfl
          exact onlyChanges_refl _ _
        · refine onlyChanges_then ?_ (modTg_only ..) rfl
          exact onlyChanges_refl _ _
      · extract_lets v82 v83 v84
        have hv82 : onlyChanges [.out, .hif, .bld, .pxc, .tg, .tbl] s v82 := by
          refine onlyChanges_then ?_ (modTg_only ..) rfl
          exact onlyChanges_refl _ _
        have hv84 : onlyChanges [.out, .hif, .bld, .pxc, .tg, .tbl] s v84 := by
          refine onlyChanges_then ?_ (ltrJudged_only ..) rfl
          exact hv82
        refine onlyChanges_ite ?_ ?_
        · refine onlyChanges_ite ?_ ?_
          · refine raw_hif ?_ rfl
            exact hv84
          · refine onlyChanges_then ?_ (commitPend_only ..) rfl
            refine onlyChanges_then ?_ (sendLtr_only ..) rfl
            exact hv84
        · refine onlyChanges_then ?_ (commitPend_only ..) rfl
          exact hv84

theorem commitsAfterLtr_only (s : State) : onlyChanges [.bld, .pxc, .tg, .tbl] s (commitsAfterLtr s) := by
  unfold commitsAfterLtr
  refine onlyChanges_ite ?_ ?_
  · exact onlyChanges_refl _ _
  · refine foldl_only ?_ (fun t79 a79 => ?_)
    · exact onlyChanges_refl _ _
    · refine onlyChanges_ite ?_ ?_
      · refine onlyChanges_then ?_ (commitPend_only ..) rfl
        exact onlyChanges_refl _ _
      · exact onlyChanges_refl _ _

theorem sweepFails_only (s : State) (sources : List SlotFetch) : onlyChanges [.hif] s (sweepFails s sources) := by
  unfold sweepFails
  refine foldl_only ?_ (fun t80 a80 => ?_)
  · exact onlyChanges_refl _ _
  · split
    · refine onlyChanges_then ?_ (hostFails_only ..) rfl
      exact onlyChanges_refl _ _
    · exact onlyChanges_refl _ _

theorem composePath_only (s0 : State) (f : Nat) (s : State) (p : Plan) : onlyChanges [.out, .free, .regs, .mem, .flt, .saf, .pwr, .rng, .hif, .lmm, .ly, .bld, .pxc, .tg, .lanes, .tbl, .kps, .cbl] s (composePath s0 f s p) := by
  unfold composePath
  extract_lets v85 v86 v87 v88 v89 v90
  have hv87 : onlyChanges [.out, .free, .regs, .mem, .flt, .saf, .pwr, .rng, .hif, .lmm, .ly,   .bld, .pxc, .tg, .lanes, .tbl, .kps, .cbl] s v87 := by
    refine onlyChanges_then ?_ (clientWrite_only ..) rfl
    exact onlyChanges_refl _ _
  have hv89 : onlyChanges [.out, .free, .regs, .mem, .flt, .saf, .pwr, .rng, .hif, .lmm, .ly,   .bld, .pxc, .tg, .lanes, .tbl, .kps, .cbl] s v89 := by
    refine onlyChanges_ite ?_ ?_
    · refine onlyChanges_then ?_ (clientWrite_only ..) rfl
      exact hv87
    · exact hv87
  have hv90 : onlyChanges [.out, .free, .regs, .mem, .flt, .saf, .pwr, .rng, .hif, .lmm, .ly,   .bld, .pxc, .tg, .lanes, .tbl, .kps, .cbl] s v90 := by
    refine onlyChanges_then ?_ (modBld_only ..) rfl
    exact hv89
  refine onlyChanges_then ?_ (modPxc_only ..) rfl
  exact hv90

theorem toneInject_only (s : State) (p : Plan) : onlyChanges [.out, .free, .regs, .flt, .saf, .pwr, .hif, .bld, .lanes] s (toneInject s p) := by
  unfold toneInject
  extract_lets v91
  refine onlyChanges_ite ?_ ?_
  · refine onlyChanges_then ?_ (tableSpoilt_only ..) rfl
    refine onlyChanges_then ?_ (spendInj_only ..) rfl
    exact onlyChanges_refl _ _
  · exact onlyChanges_refl _ _

theorem toneParity_only (s : State) (p : Plan) : onlyChanges [.out, .free, .regs, .flt, .saf, .pwr, .hif, .bld, .tg, .lanes] s (toneParity s p) := by
  unfold toneParity
  extract_lets v92
  have hv92 : onlyChanges [.out, .free, .regs, .flt, .saf, .pwr, .hif, .bld, .tg, .lanes] s v92 := by
    refine onlyChanges_then ?_ (toneInject_only ..) rfl
    exact onlyChanges_refl _ _
  refine foldl_only ?_ (fun t1 a1 => ?_)
  · exact hv92
  · refine onlyChanges_then ?_ (spoilSweep_only ..) rfl
    refine onlyChanges_then ?_ (raiseInj_only ..) rfl
    exact onlyChanges_refl _ _

theorem beginFrame_only (s : State) (h : Head) (f : Word) : onlyChanges [.out, .free, .lanes, .tbl] s (beginFrame s h f) := by
  unfold beginFrame
  refine foldl_only ?_ (fun t93 a93 => ?_)
  · exact onlyChanges_refl _ _
  · refine onlyChanges_then ?_ (sendPackets_only ..) rfl
    refine onlyChanges_then ?_ (modTile_only ..) rfl
    exact onlyChanges_refl _ _

theorem sendFrame_only (s : State) (h : Head) (f : Word) (lines : Nat) : onlyChanges [.out, .free, .pxc, .lanes, .tbl] s (sendFrame s h f lines) := by
  unfold sendFrame
  extract_lets v94 v95
  have hv95 : onlyChanges [.out, .free, .pxc, .lanes, .tbl] s v95 := by
    refine onlyChanges_then ?_ (modPxc_only ..) rfl
    refine onlyChanges_then ?_ (beginFrame_only ..) rfl
    exact onlyChanges_refl _ _
  refine foldl_only ?_ (fun t2 a2 => ?_)
  · exact hv95
  · refine foldl_only ?_ (fun t3 a3 => ?_)
    · exact onlyChanges_refl _ _
    · split
      · exact onlyChanges_refl _ _
      · refine onlyChanges_then ?_ (sendPackets_only ..) rfl
        exact onlyChanges_refl _ _

theorem notReadyFault_only (s : State) (h : Head) (is : List Nat) : onlyChanges [.out, .free, .flt, .saf, .pwr, .hif, .bld, .lanes] s (notReadyFault s h is) := by
  unfold notReadyFault
  split
  · exact onlyChanges_refl _ _
  · refine onlyChanges_then ?_ (raise_only ..) rfl
    exact onlyChanges_refl _ _

theorem sweepReads_only (s : State) (plans : List Plan) (ranges : Plan → List (Nat × Nat)) : onlyChanges [.out, .free, .regs, .mem, .flt, .saf, .pwr, .rng, .hif, .lmm, .ly, .bld, .pxc, .tg, .lanes, .tbl, .kps, .cbl] s (sweepReads s plans ranges) := by
  unfold sweepReads
  refine foldl_only ?_ (fun t4 a4 => ?_)
  · exact onlyChanges_refl _ _
  · refine onlyChanges_then ?_ (clientRead_only ..) rfl
    exact onlyChanges_refl _ _

theorem composeSweep_only (s : State) (h : Head) (sources : List SlotFetch) (use : List Nat) : onlyChanges [.out, .free, .regs, .mem, .flt, .saf, .pwr, .rng, .hif, .lmm, .ly, .bld, .pxc, .tg, .lanes, .tbl, .kps, .cbl] s (composeSweep s h sources use) := by
  unfold composeSweep
  extract_lets v1 v2 v3 v4 v5 v6 v7 v8 v9
  have hv2 : onlyChanges [.out, .free, .regs, .mem, .flt, .saf, .pwr, .rng, .hif, .lmm, .ly,   .bld, .pxc, .tg, .lanes, .tbl, .kps, .cbl] s v2 := by
    refine onlyChanges_then ?_ (modTg_only ..) rfl
    exact onlyChanges_refl _ _
  have hv3 : onlyChanges [.out, .free, .regs, .mem, .flt, .saf, .pwr, .rng, .hif, .lmm, .ly,   .bld, .pxc, .tg, .lanes, .tbl, .kps, .cbl] s v3 := by
    refine onlyChanges_then ?_ (sweepReads_only ..) rfl
    exact hv2
  have hv5 : onlyChanges [.out, .free, .regs, .mem, .flt, .saf, .pwr, .rng, .hif, .lmm, .ly,   .bld, .pxc, .tg, .lanes, .tbl, .kps, .cbl] s v5 := by
    refine foldl_only ?_ (fun t23 a23 => ?_)
    · exact hv3
    · refine onlyChanges_then ?_ (composePath_only ..) rfl
      exact onlyChanges_refl _ _
  have hv6 : onlyChanges [.out, .free, .regs, .mem, .flt, .saf, .pwr, .rng, .hif, .lmm, .ly,   .bld, .pxc, .tg, .lanes, .tbl, .kps, .cbl] s v6 := by
    dsimp -zeta only [v6]
    split
    · refine onlyChanges_then ?_ (abandonRow_only ..) rfl
      exact hv5
    · exact hv5
  have hv7 : onlyChanges [.out, .free, .regs, .mem, .flt, .saf, .pwr, .rng, .hif, .lmm, .ly,   .bld, .pxc, .tg, .lanes, .tbl, .kps, .cbl] s v7 := by
    refine foldl_only ?_ (fun t35 a35 => ?_)
    · exact hv6
    · refine onlyChanges_then ?_ (spoilSweep_only ..) rfl
      refine onlyChanges_then ?_ (raise_only ..) rfl
      exact onlyChanges_refl _ _
  have hv8 : onlyChanges [.out, .free, .regs, .mem, .flt, .saf, .pwr, .rng, .hif, .lmm, .ly,   .bld, .pxc, .tg, .lanes, .tbl, .kps, .cbl] s v8 := by
    refine foldl_only ?_ (fun t1 a1 => ?_)
    · exact hv7
    · refine onlyChanges_then ?_ (toneParity_only ..) rfl
      exact onlyChanges_refl _ _
  have hv9 : onlyChanges [.out, .free, .regs, .mem, .flt, .saf, .pwr, .rng, .hif, .lmm, .ly,   .bld, .pxc, .tg, .lanes, .tbl, .kps, .cbl] s v9 := by
    refine onlyChanges_then ?_ (sweepReads_only ..) rfl
    exact hv8
  refine foldl_only ?_ (fun t0 a0 => ?_)
  · exact hv9
  · refine onlyChanges_then ?_ (sendFrame_only ..) rfl
    exact onlyChanges_refl _ _

theorem beginSweep_only (s : State) (h : Head) (sources : List SlotFetch) : onlyChanges [.out, .free, .regs, .mem, .flt, .saf, .pwr, .rng, .hif, .lmm, .ly, .bld, .pxc, .tg, .lanes, .tbl, .kps, .cbl] s (beginSweep s h sources) := by
  unfold beginSweep
  extract_lets v10 v11 v12 v13 v14 v15 v16 v17
  have hv13 : onlyChanges [.out, .free, .regs, .mem, .flt, .saf, .pwr, .rng, .hif, .lmm, .ly,   .bld, .pxc, .tg, .lanes, .tbl, .kps, .cbl] s v13 := by
    refine onlyChanges_then ?_ (modTg_only ..) rfl
    refine onlyChanges_then ?_ (setTgState_only ..) rfl
    exact onlyChanges_refl _ _
  have hv14 : onlyChanges [.out, .free, .regs, .mem, .flt, .saf, .pwr, .rng, .hif, .lmm, .ly,   .bld, .pxc, .tg, .lanes, .tbl, .kps, .cbl] s v14 := by
    refine foldl_only ?_ (fun t0 a0 => ?_)
    · exact hv13
    · refine onlyChanges_then ?_ (modPxc_only ..) rfl
      refine onlyChanges_then ?_ (modBld_only ..) rfl
      refine onlyChanges_then ?_ (modTg_only ..) rfl
      exact onlyChanges_refl _ _
  have hv15 : onlyChanges [.out, .free, .regs, .mem, .flt, .saf, .pwr, .rng, .hif, .lmm, .ly,   .bld, .pxc, .tg, .lanes, .tbl, .kps, .cbl] s v15 := by
    refine onlyChanges_then ?_ (modLy_only ..) rfl
    exact hv14
  have hv16 : onlyChanges [.out, .free, .regs, .mem, .flt, .saf, .pwr, .rng, .hif, .lmm, .ly,   .bld, .pxc, .tg, .lanes, .tbl, .kps, .cbl] s v16 := by
    refine onlyChanges_ite ?_ ?_
    · refine foldl_only ?_ (fun t16 a16 => ?_)
      · exact hv15
      · refine onlyChanges_then ?_ (modBld_only ..) rfl
        exact onlyChanges_refl _ _
    · exact hv15
  have hv17 : onlyChanges [.out, .free, .regs, .mem, .flt, .saf, .pwr, .rng, .hif, .lmm, .ly,   .bld, .pxc, .tg, .lanes, .tbl, .kps, .cbl] s v17 := by
    refine onlyChanges_then ?_ (notReadyFault_only ..) rfl
    refine onlyChanges_then ?_ (sweepFails_only ..) rfl
    exact hv16
  refine onlyChanges_ite ?_ ?_
  · exact hv17
  · refine onlyChanges_then ?_ (composeSweep_only ..) rfl
    exact hv17

theorem enterStopped_only (s : State) (h : Head) : onlyChanges [.out, .free, .saf, .pwr, .rng, .lmm, .ly, .shd, .bld, .pxc, .tg, .lanes, .kps, .cbl] s (enterStopped s h) := by
  unfold enterStopped
  extract_lets v18
  have hv18 : onlyChanges [.out, .free, .saf, .pwr, .rng, .lmm, .ly, .shd, .bld, .pxc, .tg,   .lanes, .kps, .cbl] s v18 := by
    refine onlyChanges_then ?_ (modTg_only ..) rfl
    refine onlyChanges_then ?_ (setTgState_only ..) rfl
    exact onlyChanges_refl _ _
  refine foldl_only ?_ (fun t19 a19 => ?_)
  · refine onlyChanges_then ?_ (cutApplyAll_only ..) rfl
    exact hv18
  · refine onlyChanges_then ?_ (retireSwitch_only ..) rfl
    exact onlyChanges_refl _ _

theorem sweepStarts_only (s : State) (h : Head) (sources : List SlotFetch) : onlyChanges [.out, .free, .regs, .mem, .flt, .saf, .pwr, .rng, .hif, .lmm, .ly, .shd, .bld, .pxc, .tg, .lanes, .tbl, .kps, .cbl] s (sweepStarts s h sources) := by
  unfold sweepStarts
  extract_lets v20
  refine onlyChanges_ite ?_ ?_
  · exact onlyChanges_refl _ _
  · refine onlyChanges_ite ?_ ?_
    · refine onlyChanges_then ?_ (modTg_only ..) rfl
      exact onlyChanges_refl _ _
    · refine onlyChanges_ite ?_ ?_
      · refine onlyChanges_then ?_ (enterStopped_only ..) rfl
        exact onlyChanges_refl _ _
      · refine onlyChanges_then ?_ (beginSweep_only ..) rfl
        refine onlyChanges_ite ?_ ?_
        · refine onlyChanges_then ?_ (modTg_only ..) rfl
          exact onlyChanges_refl _ _
        · exact onlyChanges_refl _ _

theorem triggerArrives_only (s : State) (h : Head) : onlyChanges [.tg] s (triggerArrives s h) := by
  unfold triggerArrives
  extract_lets v21
  refine onlyChanges_ite ?_ ?_
  · exact onlyChanges_refl _ _
  · refine onlyChanges_then ?_ (modTg_only ..) rfl
    exact onlyChanges_refl _ _

theorem triggerWaitEnds_only (s : State) (h : Head) : onlyChanges [.tg] s (triggerWaitEnds s h) := by
  unfold triggerWaitEnds
  extract_lets v22
  refine onlyChanges_ite ?_ ?_
  · refine onlyChanges_then ?_ (modTg_only ..) rfl
    exact onlyChanges_refl _ _
  · exact onlyChanges_refl _ _

theorem rowLate_only (s : State) (h : Head) (slot : Nat) (line : Nat) : onlyChanges [.out, .free, .flt, .saf, .pwr, .hif, .ly, .bld, .tg, .lanes, .tbl] s (rowLate s h slot line) := by
  unfold rowLate
  extract_lets v24 v25
  refine onlyChanges_ite ?_ ?_
  · exact onlyChanges_refl _ _
  · refine onlyChanges_then ?_ (abandonRow_only ..) rfl
    exact onlyChanges_refl _ _

theorem doseBlock_only (s : State) (path : Head) (f : Nat) (bx : Nat) (by_ : Nat) : onlyChanges [.out, .free, .regs, .mem, .flt, .saf, .pwr, .rng, .hif, .lmm, .ly, .bld, .pxc, .tg, .lanes, .tbl, .kps, .cbl] s (doseBlock s path f bx by_) := by
  unfold doseBlock
  extract_lets v26 v27 v28 v29 v30 v31
  split
  extract_lets v32
  refine onlyChanges_ite ?_ ?_
  · refine onlyChanges_then ?_ (clientWrite_only ..) rfl
    refine onlyChanges_snd (by assumption) ?_
    refine onlyChanges_then ?_ (drawBelow_only ..) rfl
    exact onlyChanges_refl _ _
  · refine onlyChanges_snd (by assumption) ?_
    refine onlyChanges_then ?_ (drawBelow_only ..) rfl
    exact onlyChanges_refl _ _

theorem doseSweep_only (s : State) (path : Head) (full : Bool) : onlyChanges [.out, .free, .regs, .mem, .flt, .saf, .pwr, .rng, .hif, .lmm, .ly, .bld, .pxc, .tg, .lanes, .tbl, .kps, .cbl] s (doseSweep s path full) := by
  unfold doseSweep
  refine onlyChanges_ite ?_ ?_
  · refine onlyChanges_then ?_ (modPxc_only ..) rfl
    exact onlyChanges_refl _ _
  · refine onlyChanges_ite ?_ ?_
    · exact onlyChanges_refl _ _
    · extract_lets v33 v34
      have hv34 : onlyChanges [.out, .free, .regs, .mem, .flt, .saf, .pwr, .rng, .hif, .lmm, .ly,   .bld, .pxc, .tg, .lanes, .tbl, .kps, .cbl] s v34 := by
        refine onlyChanges_then ?_ (clientRead_only ..) rfl
        exact onlyChanges_refl _ _
      refine foldl_only ?_ (fun t2 a2 => ?_)
      · exact hv34
      · refine foldl_only ?_ (fun t3 a3 => ?_)
        · exact onlyChanges_refl _ _
        · refine onlyChanges_then ?_ (doseBlock_only ..) rfl
          exact onlyChanges_refl _ _

theorem weakSweep_only (s : State) (path : Head) : onlyChanges [.out, .free, .regs, .mem, .flt, .saf, .pwr, .rng, .hif, .lmm, .ly, .bld, .pxc, .tg, .lanes, .tbl, .kps, .cbl] s (weakSweep s path) := by
  unfold weakSweep
  refine foldl_only ?_ (fun t4 a4 => ?_)
  · exact onlyChanges_refl _ _
  · extract_lets v5 v6 v7
    refine onlyChanges_ite ?_ ?_
    · refine onlyChanges_then ?_ (pixelCandidate_only ..) rfl
      refine onlyChanges_then ?_ (raise_only ..) rfl
      refine onlyChanges_then ?_ (writeHealth_only ..) rfl
      exact onlyChanges_refl _ _
    · exact onlyChanges_refl _ _

theorem clampFaults_only (s : State) (path : Head) (lines : Nat) : onlyChanges [.out, .free, .flt, .saf, .pwr, .hif, .bld, .lanes] s (clampFaults s path lines) := by
  unfold clampFaults
  extract_lets v8 v9
  have hv9 : onlyChanges [.out, .free, .flt, .saf, .pwr, .hif, .bld, .lanes] s v9 := by
    refine onlyChanges_ite ?_ ?_
    · refine onlyChanges_then ?_ (raise_only ..) rfl
      exact onlyChanges_refl _ _
    · exact onlyChanges_refl _ _
  refine onlyChanges_ite ?_ ?_
  · refine onlyChanges_then ?_ (raise_only ..) rfl
    exact hv9
  · exact hv9

theorem publishSweep_only (s : State) (path : Head) : onlyChanges [.bld, .pxc] s (publishSweep s path) := by
  unfold publishSweep
  extract_lets v10
  have hv10 : onlyChanges [.bld, .pxc] s v10 := by
    refine onlyChanges_then ?_ (modBld_only ..) rfl
    exact onlyChanges_refl _ _
  refine onlyChanges_then ?_ (modPxc_only ..) rfl
  exact hv10

theorem pathEnds_only (s : State) (h : Head) (path : Head) : onlyChanges [.out, .free, .regs, .mem, .flt, .saf, .pwr, .rng, .hif, .lmm, .ly, .bld, .pxc, .tg, .lanes, .tbl, .kps, .cbl] s (pathEnds s h path) := by
  unfold pathEnds
  extract_lets v11 v12
  have hv12 : onlyChanges [.out, .free, .regs, .mem, .flt, .saf, .pwr, .rng, .hif, .lmm, .ly,   .bld, .pxc, .tg, .lanes, .tbl, .kps, .cbl] s v12 := by
    refine onlyChanges_then ?_ (clampFaults_only ..) rfl
    exact onlyChanges_refl _ _
  refine onlyChanges_then ?_ (doseSweep_only ..) rfl
  refine onlyChanges_ite ?_ ?_
  · refine onlyChanges_then ?_ (weakSweep_only ..) rfl
    refine onlyChanges_then ?_ (publishSweep_only ..) rfl
    exact hv12
  · exact hv12

theorem flatEnds_only (s : State) (h : Head) : onlyChanges [.bld] s (flatEnds s h) := by
  unfold flatEnds
  extract_lets v13
  refine foldl_only ?_ (fun t14 a14 => ?_)
  · exact onlyChanges_refl _ _
  · refine onlyChanges_then ?_ (modBld_only ..) rfl
    exact onlyChanges_refl _ _

theorem cutNow_only (s : State) (h : Head) : onlyChanges [.out, .free, .regs, .mem, .flt, .saf, .pwr, .rng, .hif, .lmm, .ly, .shd, .bld, .pxc, .tg, .lanes, .tbl, .kps, .cbl] s (cutNow s h) := by
  unfold cutNow
  extract_lets v15
  refine onlyChanges_ite ?_ ?_
  · exact onlyChanges_refl _ _
  · split
    extract_lets v16 v17 v18 v19 v20 v21
    have hv16 : onlyChanges [.out, .free, .regs, .mem, .flt, .saf, .pwr, .rng, .hif, .lmm, .ly,   .shd, .bld, .pxc, .tg, .lanes, .tbl, .kps, .cbl] s v16 := by
      refine onlyChanges_then ?_ (flatEnds_only ..) rfl
      refine foldl_only ?_ (fun t22 a22 => ?_)
      · refine onlyChanges_snd (by assumption) ?_
        refine onlyChanges_then ?_ (stampCore_only ..) rfl
        exact onlyChanges_refl _ _
      · refine onlyChanges_then ?_ (pathEnds_only ..) rfl
        exact onlyChanges_refl _ _
    have hv17 : onlyChanges [.out, .free, .regs, .mem, .flt, .saf, .pwr, .rng, .hif, .lmm, .ly,   .shd, .bld, .pxc, .tg, .lanes, .tbl, .kps, .cbl] s v17 := by
      refine foldl_only ?_ (fun t31 a31 => ?_)
      · exact hv16
      · refine onlyChanges_then ?_ (modTg_only ..) rfl
        exact onlyChanges_refl _ _
    have hv18 : onlyChanges [.out, .free, .regs, .mem, .flt, .saf, .pwr, .rng, .hif, .lmm, .ly,   .shd, .bld, .pxc, .tg, .lanes, .tbl, .kps, .cbl] s v18 := by
      refine onlyChanges_then ?_ (modTg_only ..) rfl
      exact hv17
    have hv19 : onlyChanges [.out, .free, .regs, .mem, .flt, .saf, .pwr, .rng, .hif, .lmm, .ly,   .shd, .bld, .pxc, .tg, .lanes, .tbl, .kps, .cbl] s v19 := by
      refine foldl_only ?_ (fun t32 a32 => ?_)
      · exact hv18
      · refine onlyChanges_then ?_ (calCompose_only ..) rfl
        refine onlyChanges_then ?_ (listsCompose_only ..) rfl
        refine onlyChanges_then ?_ (setsCompose_only ..) rfl
        exact onlyChanges_refl _ _
    have hv20 : onlyChanges [.out, .free, .regs, .mem, .flt, .saf, .pwr, .rng, .hif, .lmm, .ly,   .shd, .bld, .pxc, .tg, .lanes, .tbl, .kps, .cbl] s v20 := by
      refine onlyChanges_then ?_ (cutApplyAll_only ..) rfl
      exact hv19
    have hv21 : onlyChanges [.out, .free, .regs, .mem, .flt, .saf, .pwr, .rng, .hif, .lmm, .ly,   .shd, .bld, .pxc, .tg, .lanes, .tbl, .kps, .cbl] s v21 := by
      refine foldl_only ?_ (fun t35 a35 => ?_)
      · exact hv20
      · refine onlyChanges_then ?_ (checkCap_only ..) rfl
        exact onlyChanges_refl _ _
    refine onlyChanges_then ?_ (buildMask_only ..) rfl
    exact hv21

theorem sendDrive_only (s : State) (h : Head) (v : Nat) (repeated : Bool) : onlyChanges [.bld, .tg, .cle] s (sendDrive s h v repeated) := by
  unfold sendDrive
  extract_lets v23
  have hv23 : onlyChanges [.bld, .tg, .cle] s v23 := by
    refine onlyChanges_then ?_ (modBld_only ..) rfl
    exact onlyChanges_refl _ _
  refine onlyChanges_ite ?_ ?_
  · refine onlyChanges_then ?_ (modTg_only ..) rfl
    refine raw_cle ?_ rfl
    exact hv23
  · exact hv23

theorem driveTotal_only (s : State) (h : Head) : onlyChanges [.bld, .tg, .cle] s (driveTotal s h) := by
  unfold driveTotal
  extract_lets v24
  refine onlyChanges_ite ?_ ?_
  · refine onlyChanges_then ?_ (sendDrive_only ..) rfl
    exact onlyChanges_refl _ _
  · exact onlyChanges_refl _ _

theorem snapshotNow_only (s : State) (h : Head) (noStitch : Bool) (time : Word) : onlyChanges [.out, .rng, .hif, .tbl] s (snapshotNow s h noStitch time) := by
  unfold snapshotNow
  extract_lets v25
  have hv25 : onlyChanges [.out, .rng, .hif, .tbl] s v25 := by
    dsimp -zeta only [v25]
    refine onlyChanges_then ?_ (writeRecord_only ..) rfl
    exact onlyChanges_refl _ _
  refine foldl_only ?_ (fun t26 a26 => ?_)
  · exact hv25
  · refine onlyChanges_then ?_ (modTile_only ..) rfl
    exact onlyChanges_refl _ _

theorem overdueLevel_only (s : State) (h : Head) : onlyChanges [.out, .free, .flt, .saf, .pwr, .hif, .bld, .lanes] s (overdueLevel s h) := by
  unfold overdueLevel
  extract_lets v27 v28
  refine onlyChanges_then ?_ (setLevel_only ..) rfl
  exact onlyChanges_refl _ _

theorem stitchPoint_only (s : State) (h : Head) (stitched : Bool) (time : Word) : onlyChanges [.out, .free, .regs, .mem, .flt, .saf, .pwr, .rng, .hif, .lmm, .ly, .bld, .pxc, .tg, .lanes, .tbl, .kps, .cbl] s (stitchPoint s h stitched time) := by
  unfold stitchPoint
  extract_lets v29 v30
  have hv29 : onlyChanges [.out, .free, .regs, .mem, .flt, .saf, .pwr, .rng, .hif, .lmm, .ly,   .bld, .pxc, .tg, .lanes, .tbl, .kps, .cbl] s v29 := by
    refine onlyChanges_then ?_ (snapshotNow_only ..) rfl
    exact onlyChanges_refl _ _
  have hv30 : onlyChanges [.out, .free, .regs, .mem, .flt, .saf, .pwr, .rng, .hif, .lmm, .ly,   .bld, .pxc, .tg, .lanes, .tbl, .kps, .cbl] s v30 := by
    refine onlyChanges_then ?_ (overdueLevel_only ..) rfl
    refine onlyChanges_then ?_ (applyMarks_only ..) rfl
    exact hv29
  refine onlyChanges_then ?_ (retireSwitch_only ..) rfl
  refine onlyChanges_then ?_ (fwdStitchPoint_only ..) rfl
  exact hv30

theorem probesAdvance_only (s : State) (h : Head) : onlyChanges [.pxc] s (probesAdvance s h) := by
  unfold probesAdvance
  refine onlyChanges_then ?_ (modPxc_only ..) rfl
  exact onlyChanges_refl _ _

theorem echoesAwait_only (s : State) (h : Head) (b : Nat) (f : Word) : onlyChanges [.out, .free, .regs, .mem, .flt, .saf, .pwr, .rng, .hif, .lmm, .ly, .bld, .pxc, .tg, .lanes, .tbl, .kps, .cbl] s (echoesAwait s h b f) := by
  unfold echoesAwait
  refine foldl_only ?_ (fun t33 a33 => ?_)
  · exact onlyChanges_refl _ _
  · refine onlyChanges_ite ?_ ?_
    · extract_lets v34 v0 v1
      have hv34 : onlyChanges [.out, .free, .regs, .mem, .flt, .saf, .pwr, .rng, .hif, .lmm, .ly,   .bld, .pxc, .tg, .lanes, .tbl, .kps, .cbl] t33 v34 := by
        refine onlyChanges_then ?_ (clientRead_only ..) rfl
        exact onlyChanges_refl _ _
      refine onlyChanges_then ?_ (modTile_only ..) rfl
      refine onlyChanges_ite ?_ ?_
      · refine onlyChanges_then ?_ (spendInj_only ..) rfl
        exact hv34
      · exact hv34
    · exact onlyChanges_refl _ _

theorem stitchPath_only (s : State) (f : Word) (time : Word) (b : Nat) (h : Head) : onlyChanges [.out, .free, .regs, .mem, .flt, .saf, .pwr, .rng, .hif, .lmm, .ly, .bld, .pxc, .tg, .lanes, .tbl, .kps, .cbl] s (stitchPath s f time b h) := by
  unfold stitchPath
  extract_lets v36 v37 v38
  have hv36 : onlyChanges [.out, .free, .regs, .mem, .flt, .saf, .pwr, .rng, .hif, .lmm, .ly,   .bld, .pxc, .tg, .lanes, .tbl, .kps, .cbl] s v36 := by
    refine onlyChanges_then ?_ (modTg_only ..) rfl
    exact onlyChanges_refl _ _
  have hv37 : onlyChanges [.out, .free, .regs, .mem, .flt, .saf, .pwr, .rng, .hif, .lmm, .ly,   .bld, .pxc, .tg, .lanes, .tbl, .kps, .cbl] s v37 := by
    refine onlyChanges_then ?_ (modBld_only ..) rfl
    exact hv36
  have hv38 : onlyChanges [.out, .free, .regs, .mem, .flt, .saf, .pwr, .rng, .hif, .lmm, .ly,   .bld, .pxc, .tg, .lanes, .tbl, .kps, .cbl] s v38 := by
    refine onlyChanges_then ?_ (modPxc_only ..) rfl
    refine onlyChanges_then ?_ (probesAdvance_only ..) rfl
    exact hv37
  refine onlyChanges_then ?_ (echoesAwait_only ..) rfl
  exact hv38

theorem stitchComplete_only (s : State) (f : Word) (time : Word) (h : Head) : onlyChanges [.out, .free, .rng, .hif, .shd, .pxc] s (stitchComplete s f time h) := by
  unfold stitchComplete
  refine onlyChanges_then ?_ (calLatch_only ..) rfl
  refine onlyChanges_then ?_ (listsComplete_only ..) rfl
  refine onlyChanges_then ?_ (setsComplete_only ..) rfl
  exact onlyChanges_refl _ _

theorem stitchNow_only (s : State) (h : Head) (late : Bool) : onlyChanges [.out, .free, .regs, .mem, .flt, .saf, .pwr, .rng, .hif, .lmm, .ly, .shd, .bld, .pxc, .tg, .lanes, .tbl, .kps, .cbl] s (stitchNow s h late) := by
  unfold stitchNow
  refine onlyChanges_ite ?_ ?_
  · exact onlyChanges_refl _ _
  · extract_lets v39 v40 v41 v42 v43 v44 v45 v46
    have hv42 : onlyChanges [.out, .free, .regs, .mem, .flt, .saf, .pwr, .rng, .hif, .lmm, .ly,   .shd, .bld, .pxc, .tg, .lanes, .tbl, .kps, .cbl] s v42 := by
      refine foldl_only ?_ (fun t47 a47 => ?_)
      · exact onlyChanges_refl _ _
      · refine onlyChanges_then ?_ (sendLanes_only ..) rfl
        exact onlyChanges_refl _ _
    have hv43 : onlyChanges [.out, .free, .regs, .mem, .flt, .saf, .pwr, .rng, .hif, .lmm, .ly,   .shd, .bld, .pxc, .tg, .lanes, .tbl, .kps, .cbl] s v43 := by
      refine onlyChanges_then ?_ (modTg_only ..) rfl
      exact hv42
    have hv44 : onlyChanges [.out, .free, .regs, .mem, .flt, .saf, .pwr, .rng, .hif, .lmm, .ly,   .shd, .bld, .pxc, .tg, .lanes, .tbl, .kps, .cbl] s v44 := by
      refine foldl_only ?_ (fun t48 a48 => ?_)
      · exact hv43
      · refine onlyChanges_then ?_ (stitchPath_only ..) rfl
        exact onlyChanges_refl _ _
    have hv45 : onlyChanges [.out, .free, .regs, .mem, .flt, .saf, .pwr, .rng, .hif, .lmm, .ly,   .shd, .bld, .pxc, .tg, .lanes, .tbl, .kps, .cbl] s v45 := by
      refine onlyChanges_then ?_ (ltrAtStitch_only ..) rfl
      refine foldl_only ?_ (fun t2 a2 => ?_)
      · exact hv44
      · refine onlyChanges_then ?_ (stitchComplete_only ..) rfl
        exact onlyChanges_refl _ _
    have hv46 : onlyChanges [.out, .free, .regs, .mem, .flt, .saf, .pwr, .rng, .hif, .lmm, .ly,   .shd, .bld, .pxc, .tg, .lanes, .tbl, .kps, .cbl] s v46 := by
      refine foldl_only ?_ (fun t3 a3 => ?_)
      · exact hv45
      · refine onlyChanges_then ?_ (stitchPoint_only ..) rfl
        exact onlyChanges_refl _ _
    refine onlyChanges_then ?_ (modTg_only ..) rfl
    exact hv46

theorem repeatFault_only (s : State) (h : Head) (was : Nat) : onlyChanges [.out, .free, .flt, .saf, .pwr, .hif, .bld, .lanes] s (repeatFault s h was) := by
  unfold repeatFault
  extract_lets v4
  refine onlyChanges_ite ?_ ?_
  · refine onlyChanges_then ?_ (raise_only ..) rfl
    exact onlyChanges_refl _ _
  · exact onlyChanges_refl _ _

theorem slackEnds_only (s : State) (h : Head) : onlyChanges [.out, .free, .regs, .mem, .flt, .saf, .pwr, .rng, .hif, .lmm, .ly, .bld, .pxc, .tg, .lanes, .tbl, .cle, .kps, .cbl] s (slackEnds s h) := by
  unfold slackEnds
  extract_lets v5
  refine onlyChanges_ite ?_ ?_
  · exact onlyChanges_refl _ _
  · split
    extract_lets v6 v7 v8 v9
    have hv6 : onlyChanges [.out, .free, .regs, .mem, .flt, .saf, .pwr, .rng, .hif, .lmm, .ly,   .bld, .pxc, .tg, .lanes, .tbl, .cle, .kps, .cbl] s v6 := by
      refine onlyChanges_then ?_ (modTg_only ..) rfl
      refine onlyChanges_snd (by assumption) ?_
      refine onlyChanges_then ?_ (stampCore_only ..) rfl
      exact onlyChanges_refl _ _
    have hv7 : onlyChanges [.out, .free, .regs, .mem, .flt, .saf, .pwr, .rng, .hif, .lmm, .ly,   .bld, .pxc, .tg, .lanes, .tbl, .cle, .kps, .cbl] s v7 := by
      refine onlyChanges_ite ?_ ?_
      · exact hv6
      · refine onlyChanges_then ?_ (repeatFault_only ..) rfl
        refine onlyChanges_then ?_ (modTg_only ..) rfl
        exact hv6
    have hv8 : onlyChanges [.out, .free, .regs, .mem, .flt, .saf, .pwr, .rng, .hif, .lmm, .ly,   .bld, .pxc, .tg, .lanes, .tbl, .cle, .kps, .cbl] s v8 := by
      refine foldl_only ?_ (fun t1 a1 => ?_)
      · exact hv7
      · refine onlyChanges_then ?_ (sendDrive_only ..) rfl
        exact onlyChanges_refl _ _
    have hv9 : onlyChanges [.out, .free, .regs, .mem, .flt, .saf, .pwr, .rng, .hif, .lmm, .ly,   .bld, .pxc, .tg, .lanes, .tbl, .cle, .kps, .cbl] s v9 := by
      refine foldl_only ?_ (fun t1 a1 => ?_)
      · exact hv8
      · refine onlyChanges_then ?_ (stitchPoint_only ..) rfl
        exact onlyChanges_refl _ _
    refine onlyChanges_then ?_ (modTg_only ..) rfl
    exact hv9

theorem modHkp_only (s : State) (f : Hkp → Hkp) : onlyChanges [.hkp] s (modHkp s f) := by
  refine ⟨rfl, fun p h => ?_⟩
  cases p <;> first | rfl | exact ⟨rfl, rfl⟩ | exact ⟨rfl, rfl, rfl⟩ | exact absurd (by decide) h

theorem roundStart_only (s0 : State) : onlyChanges [.tim, .hkp] s0 (roundStart s0) := by
  unfold roundStart
  extract_lets v2
  have hv2 : onlyChanges [.tim, .hkp] s0 v2 := by
    refine onlyChanges_then ?_ (takePulse_only ..) rfl
    exact onlyChanges_refl _ _
  refine onlyChanges_ite ?_ ?_
  · exact hv2
  · refine onlyChanges_ite ?_ ?_
    · refine onlyChanges_then ?_ (modHkp_only ..) rfl
      exact hv2
    · refine onlyChanges_ite ?_ ?_
      · exact hv2
      · refine onlyChanges_then ?_ (modHkp_only ..) rfl
        exact hv2

theorem slotEnds_only (s : State) (code : Nat) : onlyChanges [.hkp] s (slotEnds s code) := by
  unfold slotEnds
  refine onlyChanges_ite ?_ ?_
  · exact onlyChanges_refl _ _
  · refine onlyChanges_then ?_ (modHkp_only ..) rfl
    exact onlyChanges_refl _ _

theorem putVal_only (s : State) (c : Nat) (v : HkVal) : onlyChanges [.hkp] s (putVal s c v) := by
  unfold putVal
  refine onlyChanges_then ?_ (modHkp_only ..) rfl
  exact onlyChanges_refl _ _

theorem putTemp_only (s : State) (c : Nat) (ok : Bool) (t : Int) : onlyChanges [.free, .hkp] s (putTemp s c ok t) := by
  unfold putTemp
  extract_lets v2
  refine onlyChanges_ite ?_ ?_
  · refine onlyChanges_then ?_ (putVal_only ..) rfl
    exact onlyChanges_refl _ _
  · split
    · refine onlyChanges_then ?_ (putVal_only ..) rfl
      exact onlyChanges_refl _ _
    · refine onlyChanges_ite ?_ ?_
      · refine onlyChanges_then ?_ (putVal_only ..) rfl
        exact onlyChanges_refl _ _
      · split
        refine onlyChanges_then ?_ (putVal_only ..) rfl
        refine onlyChanges_snd (by assumption) ?_
        refine onlyChanges_then ?_ (drawBelow_only ..) rfl
        exact onlyChanges_refl _ _

theorem putMilli_only (s : State) (good : Bool) (c : Nat) : onlyChanges [.hkp] s (putMilli s good c) := by
  unfold putMilli
  extract_lets v3
  refine onlyChanges_then ?_ (putVal_only ..) rfl
  exact onlyChanges_refl _ _

theorem putNtc_only (s : State) (good : Bool) (n : Nat) : onlyChanges [.free, .hkp] s (putNtc s good n) := by
  unfold putNtc
  extract_lets v4
  refine onlyChanges_ite ?_ ?_
  · refine onlyChanges_then ?_ (putTemp_only ..) rfl
    exact onlyChanges_refl _ _
  · refine onlyChanges_then ?_ (putVal_only ..) rfl
    exact onlyChanges_refl _ _

theorem putTile_only (s : State) (h : Head) : onlyChanges [.free, .hkp] s (putTile s h) := by
  unfold putTile
  extract_lets v5
  split
  split
  · refine onlyChanges_then ?_ (putVal_only ..) rfl
    exact onlyChanges_refl _ _
  · refine onlyChanges_then ?_ (putTemp_only ..) rfl
    exact onlyChanges_refl _ _

theorem publishRound_only (s : State) : onlyChanges [.free, .hkp] s (publishRound s) := by
  unfold publishRound
  extract_lets v6 v7 v8 v9 v10 v11 v12 v13
  have hv7 : onlyChanges [.free, .hkp] s v7 := by
    refine onlyChanges_then ?_ (putTemp_only ..) rfl
    exact onlyChanges_refl _ _
  have hv8 : onlyChanges [.free, .hkp] s v8 := by
    refine foldl_only ?_ (fun t17 a17 => ?_)
    · exact hv7
    · refine onlyChanges_then ?_ (putMilli_only ..) rfl
      exact onlyChanges_refl _ _
  have hv9 : onlyChanges [.free, .hkp] s v9 := by
    refine foldl_only ?_ (fun t18 a18 => ?_)
    · exact hv8
    · refine onlyChanges_then ?_ (putNtc_only ..) rfl
      exact onlyChanges_refl _ _
  have hv10 : onlyChanges [.free, .hkp] s v10 := by
    refine onlyChanges_then ?_ (putVal_only ..) rfl
    exact hv9
  have hv11 : onlyChanges [.free, .hkp] s v11 := by
    refine onlyChanges_then ?_ (putVal_only ..) rfl
    exact hv10
  have hv12 : onlyChanges [.free, .hkp] s v12 := by
    refine onlyChanges_then ?_ (putVal_only ..) rfl
    exact hv11
  have hv13 : onlyChanges [.free, .hkp] s v13 := by
    refine foldl_only ?_ (fun t22 a22 => ?_)
    · exact hv12
    · refine onlyChanges_then ?_ (putTile_only ..) rfl
      exact onlyChanges_refl _ _
  refine onlyChanges_then ?_ (modHkp_only ..) rfl
  exact hv13

theorem bandLevels_only (s : State) : onlyChanges [.out, .free, .flt, .saf, .pwr, .hif, .bld, .lanes] s (bandLevels s) := by
  unfold bandLevels
  extract_lets v14 v15
  have hv15 : onlyChanges [.out, .free, .flt, .saf, .pwr, .hif, .bld, .lanes] s v15 := by
    refine onlyChanges_then ?_ (setLevel_only ..) rfl
    exact onlyChanges_refl _ _
  refine onlyChanges_then ?_ (setLevel_only ..) rfl
  exact hv15

theorem bandEvent_only (s : State) : onlyChanges [.pwr, .pxc, .lanes] s (bandEvent s) := by
  unfold bandEvent
  extract_lets v19 v20
  have hv19 : onlyChanges [.pwr, .pxc, .lanes] s v19 := by
    refine onlyChanges_then ?_ (eqAllPending_only ..) rfl
    exact onlyChanges_refl _ _
  have hv20 : onlyChanges [.pwr, .pxc, .lanes] s v20 := by
    refine foldl_only ?_ (fun t23 a23 => ?_)
    · exact hv19
    · refine onlyChanges_ite ?_ ?_
      · refine onlyChanges_then ?_ (bandApply_only ..) rfl
        exact onlyChanges_refl _ _
      · exact onlyChanges_refl _ _
  refine onlyChanges_then ?_ (wake_only ..) rfl
  exact hv20

theorem decideBand_only (s : State) : onlyChanges [.out, .free, .flt, .saf, .pwr, .rng, .hif, .bld, .pxc, .lanes, .hkp, .kps] s (decideBand s) := by
  unfold decideBand
  extract_lets v21
  split
  · refine onlyChanges_ite ?_ ?_
    · refine onlyChanges_then ?_ (kpsRequest_only ..) rfl
      refine onlyChanges_then ?_ (bandLevels_only ..) rfl
      refine onlyChanges_then ?_ (bandEvent_only ..) rfl
      refine onlyChanges_then ?_ (modHkp_only ..) rfl
      exact onlyChanges_refl _ _
    · refine onlyChanges_then ?_ (bandLevels_only ..) rfl
      refine onlyChanges_then ?_ (bandEvent_only ..) rfl
      refine onlyChanges_then ?_ (modHkp_only ..) rfl
      exact onlyChanges_refl _ _
  · extract_lets v32 v33 v34
    have hv34 : onlyChanges [.out, .free, .flt, .saf, .pwr, .rng, .hif, .bld, .pxc, .lanes, .hkp,   .kps] s v34 := by
      refine onlyChanges_then ?_ (modHkp_only ..) rfl
      exact onlyChanges_refl _ _
    refine onlyChanges_ite ?_ ?_
    · exact hv34
    · refine onlyChanges_ite ?_ ?_
      · refine onlyChanges_then ?_ (kpsRequest_only ..) rfl
        refine onlyChanges_then ?_ (bandLevels_only ..) rfl
        refine onlyChanges_then ?_ (bandEvent_only ..) rfl
        refine onlyChanges_then ?_ (modHkp_only ..) rfl
        exact hv34
      · refine onlyChanges_then ?_ (bandLevels_only ..) rfl
        refine onlyChanges_then ?_ (bandEvent_only ..) rfl
        refine onlyChanges_then ?_ (modHkp_only ..) rfl
        exact hv34

theorem throttleHead_only (s : State) (h : Head) : onlyChanges [.hkp] s (throttleHead s h) := by
  unfold throttleHead
  extract_lets v24 v25 v26
  refine onlyChanges_then ?_ (modHkp_only ..) rfl
  exact onlyChanges_refl _ _

theorem headroomStopped_only (s : State) : onlyChanges [.bld] s (headroomStopped s) := by
  unfold headroomStopped
  refine foldl_only ?_ (fun t27 a27 => ?_)
  · exact onlyChanges_refl _ _
  · refine onlyChanges_ite ?_ ?_
    · refine onlyChanges_then ?_ (headroomApply_only ..) rfl
      exact onlyChanges_refl _ _
    · exact onlyChanges_refl _ _

theorem sensorLevel_only (s : State) (c : Nat) : onlyChanges [.out, .free, .flt, .saf, .pwr, .hif, .bld, .lanes] s (sensorLevel s c) := by
  unfold sensorLevel
  extract_lets v28
  refine onlyChanges_then ?_ (setLevel_only ..) rfl
  exact onlyChanges_refl _ _

theorem sensorLevels_only (s : State) : onlyChanges [.out, .free, .flt, .saf, .pwr, .hif, .bld, .lanes] s (sensorLevels s) := by
  unfold sensorLevels
  refine foldl_only ?_ (fun t29 a29 => ?_)
  · exact onlyChanges_refl _ _
  · refine onlyChanges_then ?_ (sensorLevel_only ..) rfl
    exact onlyChanges_refl _ _

theorem judgeSupply_only (s : State) : onlyChanges [.out, .free, .flt, .saf, .pwr, .hif, .bld, .lanes, .hkp] s (judgeSupply s) := by
  unfold judgeSupply
  extract_lets v30 v31
  have hv31 : onlyChanges [.out, .free, .flt, .saf, .pwr, .hif, .bld, .lanes, .hkp] s v31 := by
    refine onlyChanges_then ?_ (modHkp_only ..) rfl
    exact onlyChanges_refl _ _
  refine onlyChanges_ite ?_ ?_
  · refine onlyChanges_then ?_ (setLevel_only ..) rfl
    exact hv31
  · refine onlyChanges_ite ?_ ?_
    · refine onlyChanges_then ?_ (setLevel_only ..) rfl
      exact hv31
    · exact hv31

theorem evaluateRound_only (s : State) : onlyChanges [.out, .free, .flt, .saf, .pwr, .rng, .hif, .bld, .pxc, .lanes, .hkp, .kps] s (evaluateRound s) := by
  unfold evaluateRound
  refine onlyChanges_ite ?_ ?_
  · exact onlyChanges_refl _ _
  · extract_lets v35 v36 v37 v38 v39 v40
    have hv35 : onlyChanges [.out, .free, .flt, .saf, .pwr, .rng, .hif, .bld, .pxc, .lanes, .hkp,   .kps] s v35 := by
      refine onlyChanges_then ?_ (modHkp_only ..) rfl
      exact onlyChanges_refl _ _
    have hv36 : onlyChanges [.out, .free, .flt, .saf, .pwr, .rng, .hif, .bld, .pxc, .lanes, .hkp,   .kps] s v36 := by
      refine onlyChanges_then ?_ (publishRound_only ..) rfl
      exact hv35
    have hv37 : onlyChanges [.out, .free, .flt, .saf, .pwr, .rng, .hif, .bld, .pxc, .lanes, .hkp,   .kps] s v37 := by
      refine foldl_only ?_ (fun t0 a0 => ?_)
      · exact hv36
      · refine onlyChanges_then ?_ (throttleHead_only ..) rfl
        exact onlyChanges_refl _ _
    have hv38 : onlyChanges [.out, .free, .flt, .saf, .pwr, .rng, .hif, .bld, .pxc, .lanes, .hkp,   .kps] s v38 := by
      refine onlyChanges_then ?_ (decideBand_only ..) rfl
      exact hv37
    have hv39 : onlyChanges [.out, .free, .flt, .saf, .pwr, .rng, .hif, .bld, .pxc, .lanes, .hkp,   .kps] s v39 := by
      refine onlyChanges_then ?_ (sensorLevels_only ..) rfl
      refine onlyChanges_then ?_ (headroomStopped_only ..) rfl
      exact hv38
    have hv40 : onlyChanges [.out, .free, .flt, .saf, .pwr, .rng, .hif, .bld, .pxc, .lanes, .hkp,   .kps] s v40 := by
      refine onlyChanges_ite ?_ ?_
      · exact hv39
      · refine onlyChanges_then ?_ (judgeSupply_only ..) rfl
        exact hv39
    refine onlyChanges_then ?_ (modHkp_only ..) rfl
    exact hv40

theorem writeHkCtrl_only (s : State) (v : Word) : onlyChanges [.out, .free, .regs, .flt, .saf, .pwr, .hif, .bld, .lanes, .hkp] s (writeHkCtrl s v) := by
  unfold writeHkCtrl
  extract_lets v41 v42 v43 v44
  have hv44 : onlyChanges [.out, .free, .regs, .flt, .saf, .pwr, .hif, .bld, .lanes, .hkp] s v44 := by
    refine onlyChanges_then ?_ (setRegAt_only ..) rfl
    exact onlyChanges_refl _ _
  refine onlyChanges_then ?_ (bandLevels_only ..) rfl
  refine onlyChanges_ite ?_ ?_
  · exact hv44
  · refine onlyChanges_then ?_ (modHkp_only ..) rfl
    exact hv44

theorem writeHkRound_only (s : State) (v : Word) : onlyChanges [.regs, .hkp] s (writeHkRound s v) := by
  unfold writeHkRound
  refine onlyChanges_ite ?_ ?_
  · refine onlyChanges_then ?_ (modHkp_only ..) rfl
    exact onlyChanges_refl _ _
  · extract_lets v45 v46
    refine onlyChanges_ite ?_ ?_
    · exact onlyChanges_refl _ _
    · refine onlyChanges_then ?_ (setRegAt_only ..) rfl
      exact onlyChanges_refl _ _

theorem writeNtc_only (s : State) (n : Nat) (k : Nat) (v : Word) : onlyChanges [.regs] s (writeNtc s n k v) := by
  unfold writeNtc
  refine onlyChanges_ite ?_ ?_
  · exact onlyChanges_refl _ _
  · refine onlyChanges_then ?_ (setRegAt_only ..) rfl
    exact onlyChanges_refl _ _

theorem hkpBlockReset_only (s : State) : onlyChanges [.regs, .hkp] s (hkpBlockReset s) := by
  unfold hkpBlockReset
  extract_lets v47 v48
  have hv47 : onlyChanges [.regs, .hkp] s v47 := by
    refine onlyChanges_then ?_ (clearRegs_only ..) rfl
    exact onlyChanges_refl _ _
  refine onlyChanges_then ?_ (modHkp_only ..) rfl
  exact hv47

theorem badTableWord_only (s : State) (w : Nat) : onlyChanges [.regs] s (badTableWord s w) := by
  unfold badTableWord
  extract_lets v49
  refine onlyChanges_ite ?_ ?_
  · refine onlyChanges_then ?_ (tableSpoilt_only ..) rfl
    exact onlyChanges_refl _ _
  · exact onlyChanges_refl _ _

theorem assertSource_only (s : State) (source : Nat) (part : Nat) (heads : Nat) (detail : Nat) (addr : Nat) : onlyChanges [.out, .free, .regs, .mem, .flt, .saf, .pwr, .rng, .hif, .lmm, .ly, .bld, .pxc, .tg, .lanes, .tbl, .kps, .cbl] s (assertSource s source part heads detail addr) := by
  unfold assertSource
  extract_lets v50
  refine onlyChanges_ite ?_ ?_
  · refine onlyChanges_then ?_ (corrected_only ..) rfl
    exact onlyChanges_refl _ _
  · refine onlyChanges_ite ?_ ?_
    · refine onlyChanges_then ?_ (uncorrectable_only ..) rfl
      exact onlyChanges_refl _ _
    · refine onlyChanges_ite ?_ ?_
      · exact onlyChanges_refl _ _
      · refine onlyChanges_ite ?_ ?_
        · refine onlyChanges_then ?_ (setLevel_only ..) rfl
          exact onlyChanges_refl _ _
        · refine onlyChanges_then ?_ (raise_only ..) rfl
          refine onlyChanges_ite ?_ ?_
          · refine onlyChanges_then ?_ (spoilSweeps_only ..) rfl
            refine onlyChanges_ite ?_ ?_
            · refine onlyChanges_then ?_ (badTableWord_only ..) rfl
              exact onlyChanges_refl _ _
            · exact onlyChanges_refl _ _
          · refine onlyChanges_ite ?_ ?_
            · refine onlyChanges_then ?_ (badTableWord_only ..) rfl
              exact onlyChanges_refl _ _
            · exact onlyChanges_refl _ _

theorem clearCondition_only (s : State) (source : Nat) (part : Nat) : onlyChanges [.out, .free, .flt, .saf, .pwr, .hif, .bld, .lanes] s (clearCondition s source part) := by
  unfold clearCondition
  refine onlyChanges_then ?_ (setLevel_only ..) rfl
  exact onlyChanges_refl _ _

theorem eventOut_only (s : State) : onlyChanges [.out, .flt, .rng, .hif] s (eventOut s) := by
  unfold eventOut
  refine onlyChanges_ite ?_ ?_
  · exact onlyChanges_refl _ _
  · split
    · refine onlyChanges_then ?_ (modFlt_only ..) rfl
      exact onlyChanges_refl _ _
    · extract_lets v51
      have hv51 : onlyChanges [.out, .flt, .rng, .hif] s v51 := by
        refine onlyChanges_then ?_ (modFlt_only ..) rfl
        exact onlyChanges_refl _ _
      split
      · refine onlyChanges_then ?_ (modFlt_only ..) rfl
        refine onlyChanges_snd (by assumption) ?_
        refine onlyChanges_then ?_ (writeRecord_only ..) rfl
        exact hv51
      · refine onlyChanges_then ?_ (modFlt_only ..) rfl
        refine onlyChanges_snd (by assumption) ?_
        refine onlyChanges_then ?_ (writeRecord_only ..) rfl
        exact hv51

theorem writeSticky_only (s : State) (high : Bool) (v : Word) : onlyChanges [.out, .free, .flt, .saf, .pwr, .bld, .lanes] s (writeSticky s high v) := by
  unfold writeSticky
  refine onlyChanges_then ?_ (clearSticky_only ..) rfl
  exact onlyChanges_refl _ _

theorem writeCntClr_only (s : State) (high : Bool) (v : Word) : onlyChanges [.flt] s (writeCntClr s high v) := by
  unfold writeCntClr
  extract_lets v52
  refine onlyChanges_then ?_ (modFlt_only ..) rfl
  exact onlyChanges_refl _ _

theorem writeFirst_only (s : State) (v : Word) : onlyChanges [.flt] s (writeFirst s v) := by
  unfold writeFirst
  refine onlyChanges_ite ?_ ?_
  · refine onlyChanges_then ?_ (modFlt_only ..) rfl
    exact onlyChanges_refl _ _
  · exact onlyChanges_refl _ _

theorem writeSev_only (s : State) (k : Nat) (v : Word) : onlyChanges [.out, .free, .regs, .flt, .saf, .pwr, .bld, .lanes] s (writeSev s k v) := by
  unfold writeSev
  dsimp only
  refine onlyChanges_then ?_ (settle_only ..) rfl
  split
  · refine onlyChanges_then ?_ (setRegAt_only ..) rfl
    exact onlyChanges_refl _ _
  · refine onlyChanges_then ?_ (modFlt_only ..) rfl
    refine onlyChanges_then ?_ (setRegAt_only ..) rfl
    exact onlyChanges_refl _ _

theorem selfFail_only (s : State) (injected : Bool) : onlyChanges [.out, .free, .flt, .saf, .pwr, .hif, .bld, .lanes] s (selfFail s injected) := by
  unfold selfFail
  refine onlyChanges_ite ?_ ?_
  · exact onlyChanges_refl _ _
  · refine onlyChanges_then ?_ (raiseInj_only ..) rfl
    refine onlyChanges_then ?_ (modFlt_only ..) rfl
    exact onlyChanges_refl _ _

theorem writeInj_only (s : State) (v : Word) : onlyChanges [.out, .free, .regs, .flt, .saf, .pwr, .hif, .bld, .lanes] s (writeInj s v) := by
  unfold writeInj
  extract_lets v59
  refine onlyChanges_ite ?_ ?_
  · refine onlyChanges_then ?_ (setLevel_only ..) rfl
    refine onlyChanges_then ?_ (setRegAt_only ..) rfl
    exact onlyChanges_refl _ _
  · refine onlyChanges_ite ?_ ?_
    · refine onlyChanges_then ?_ (modFlt_only ..) rfl
      exact onlyChanges_refl _ _
    · refine onlyChanges_ite ?_ ?_
      · refine onlyChanges_then ?_ (selfFail_only ..) rfl
        refine onlyChanges_then ?_ (spendInj_only ..) rfl
        refine onlyChanges_then ?_ (setLevel_only ..) rfl
        refine onlyChanges_then ?_ (setRegAt_only ..) rfl
        exact onlyChanges_refl _ _
      · refine onlyChanges_then ?_ (setLevel_only ..) rfl
        refine onlyChanges_then ?_ (setRegAt_only ..) rfl
        exact onlyChanges_refl _ _

theorem aoClockSet_only (s : State) (clock : Nat) (on : Bool) : onlyChanges [.out, .free, .flt, .saf, .pwr, .bld, .lanes] s (aoClockSet s clock on) := by
  unfold aoClockSet
  refine onlyChanges_then ?_ (settle_only ..) rfl
  refine onlyChanges_then ?_ (modFlt_only ..) rfl
  exact onlyChanges_refl _ _

theorem clockCondition_only (s : State) (clock : Nat) (on : Bool) : onlyChanges [.out, .free, .flt, .saf, .pwr, .hif, .bld, .lanes] s (clockCondition s clock on) := by
  unfold clockCondition
  refine onlyChanges_ite ?_ ?_
  · refine onlyChanges_ite ?_ ?_
    · exact onlyChanges_refl _ _
    · refine onlyChanges_then ?_ (modFlt_only ..) rfl
      exact onlyChanges_refl _ _
  · refine onlyChanges_then ?_ (setLevel_only ..) rfl
    exact onlyChanges_refl _ _

theorem clockGate_only (s : State) (clock : Nat) (count : Nat) : onlyChanges [.out, .free, .flt, .saf, .pwr, .hif, .bld, .lanes] s (clockGate s clock count) := by
  unfold clockGate
  refine onlyChanges_ite ?_ ?_
  · exact onlyChanges_refl _ _
  · extract_lets v60 v61 v62 v63 v64
    have hv62 : onlyChanges [.out, .free, .flt, .saf, .pwr, .hif, .bld, .lanes] s v62 := by
      refine onlyChanges_then ?_ (modFlt_only ..) rfl
      exact onlyChanges_refl _ _
    have hv63 : onlyChanges [.out, .free, .flt, .saf, .pwr, .hif, .bld, .lanes] s v63 := by
      refine onlyChanges_ite ?_ ?_
      · refine onlyChanges_then ?_ (aoClockSet_only ..) rfl
        exact hv62
      · exact hv62
    have hv64 : onlyChanges [.out, .free, .flt, .saf, .pwr, .hif, .bld, .lanes] s v64 := by
      refine onlyChanges_ite ?_ ?_
      · refine onlyChanges_then ?_ (clockCondition_only ..) rfl
        exact hv63
      · refine onlyChanges_ite ?_ ?_
        · refine onlyChanges_then ?_ (clockCondition_only ..) rfl
          exact hv63
        · exact hv63
    refine onlyChanges_ite ?_ ?_
    · refine onlyChanges_then ?_ (raiseOwed_only ..) rfl
      exact hv64
    · exact hv64

theorem modSaf_only (s : State) (f : Saf → Saf) : onlyChanges [.saf] s (modSaf s f) := by
  refine ⟨rfl, fun p h => ?_⟩
  cases p <;> first | rfl | exact ⟨rfl, rfl⟩ | exact ⟨rfl, rfl, rfl⟩ | exact absurd (by decide) h

theorem rwlWords_only (s : State) (img : List Byte) : onlyChanges [.out, .free, .regs, .flt, .saf, .pwr, .hif, .bld, .lanes] s (rwlWords s img) := by
  unfold rwlWords
  refine foldl_only ?_ (fun t65 a65 => ?_)
  · refine onlyChanges_then ?_ (writeInj_only ..) rfl
    exact onlyChanges_refl _ _
  · refine onlyChanges_then ?_ (setRegAt_only ..) rfl
    exact onlyChanges_refl _ _

theorem echoSettle_only (s0 : State) (s : State) : onlyChanges [.out, .free, .lanes, .tbl] s (echoSettle s0 s) := by
  unfold echoSettle
  refine foldl_only ?_ (fun t66 a66 => ?_)
  · exact onlyChanges_refl _ _
  · refine onlyChanges_ite ?_ ?_
    · exact onlyChanges_refl _ _
    · refine onlyChanges_then ?_ (reconfigure_only ..) rfl
      refine onlyChanges_then ?_ (echoesDrop_only ..) rfl
      exact onlyChanges_refl _ _

theorem writeRwl_only (s : State) (img : List Byte) : onlyChanges [.out, .free, .regs, .flt, .saf, .pwr, .hif, .bld, .lanes, .tbl] s (writeRwl s img) := by
  unfold writeRwl
  refine onlyChanges_then ?_ (echoSettle_only ..) rfl
  refine onlyChanges_then ?_ (rwlWords_only ..) rfl
  exact onlyChanges_refl _ _

theorem judgeIntegrity_only (s : State) : onlyChanges [.out, .free, .flt, .saf, .pwr, .hif, .bld, .lanes] s (judgeIntegrity s) := by
  unfold judgeIntegrity
  refine onlyChanges_then ?_ (setLevel_only ..) rfl
  exact onlyChanges_refl _ _

theorem blocksNow_only (s : State) : onlyChanges [.saf, .bld] s (blocksNow s) := by
  unfold blocksNow
  refine foldl_only ?_ (fun t67 a67 => ?_)
  · exact onlyChanges_refl _ _
  · refine onlyChanges_ite ?_ ?_
    · refine onlyChanges_then ?_ (headroomApply_only ..) rfl
      refine onlyChanges_then ?_ (blockApply_only ..) rfl
      exact onlyChanges_refl _ _
    · exact onlyChanges_refl _ _

theorem raiseToFloors_only (s : State) : onlyChanges [.regs] s (raiseToFloors s) := by
  unfold raiseToFloors
  refine foldl_only ?_ (fun t68 a68 => ?_)
  · exact onlyChanges_refl _ _
  · extract_lets v69
    refine onlyChanges_then ?_ (setRegAt_only ..) rfl
    exact onlyChanges_refl _ _

theorem imageNow_only (s : State) (img : List Byte) (copy : Nat) : onlyChanges [.out, .free, .regs, .flt, .saf, .pwr, .hif, .bld, .lanes, .tbl] s (imageNow s img copy) := by
  unfold imageNow
  extract_lets v70
  have hv70 : onlyChanges [.out, .free, .regs, .flt, .saf, .pwr, .hif, .bld, .lanes, .tbl] s v70 := by
    refine onlyChanges_then ?_ (modSaf_only ..) rfl
    exact onlyChanges_refl _ _
  refine onlyChanges_then ?_ (echoSettle_only ..) rfl
  refine onlyChanges_then ?_ (settle_only ..) rfl
  refine onlyChanges_then ?_ (blocksNow_only ..) rfl
  refine onlyChanges_then ?_ (rwlWords_only ..) rfl
  refine onlyChanges_then ?_ (raiseToFloors_only ..) rfl
  exact hv70

theorem loadSafecfg_only (s : State) : onlyChanges [.out, .free, .regs, .flt, .saf, .pwr, .rng, .hif, .bld, .lanes, .tbl, .kps, .cbl] s (loadSafecfg s) := by
  unfold loadSafecfg
  extract_lets f u
  clear_value f
  cases f with
  | none => exact onlyChanges_then (onlyChanges_then (onlyChanges_then (onlyChanges_then (onlyChanges_refl _ _) (modSaf_only ..) rfl) (blocksNow_only ..) rfl) (settle_only ..) rfl) (setLevel_only ..) rfl
  | some c => exact onlyChanges_then (onlyChanges_then (onlyChanges_refl _ _) (imageNow_only s (safecfgCopy s c) c) rfl) (setLevel_only ..) rfl

theorem integrityCheck_only (s : State) (upset : Bool) : onlyChanges [.out, .free, .flt, .saf, .pwr, .hif, .bld, .lanes] s (integrityCheck s upset) := by
  unfold integrityCheck
  refine onlyChanges_ite ?_ ?_
  · refine onlyChanges_then ?_ (judgeIntegrity_only ..) rfl
    refine onlyChanges_then ?_ (modSaf_only ..) rfl
    exact onlyChanges_refl _ _
  · exact onlyChanges_refl _ _

theorem logNote_only (s : State) (kind : Nat) : onlyChanges [.free, .pwr, .rng, .kps] s (logNote s kind) := by
  unfold logNote
  split
  split
  refine onlyChanges_then ?_ (kpsRequest_only ..) rfl
  refine onlyChanges_snd (by assumption) ?_
  refine onlyChanges_then ?_ (drawBelow_only ..) rfl
  refine onlyChanges_snd (by assumption) ?_
  refine onlyChanges_then ?_ (drawBelow_only ..) rfl
  exact onlyChanges_refl _ _

theorem commitLeaves_only (s : State) : onlyChanges [.pwr, .rng, .kps] s (commitLeaves s) := by
  unfold commitLeaves
  refine onlyChanges_then ?_ (kpsTake_only ..) rfl
  refine onlyChanges_then ?_ (modKps_only ..) rfl
  exact onlyChanges_refl _ _

theorem endSession_only (s : State) (note : Bool) : onlyChanges [.out, .free, .regs, .flt, .saf, .pwr, .rng, .hif, .bld, .lanes, .tbl, .kps] s (endSession s note) := by
  unfold endSession
  refine onlyChanges_ite ?_ ?_
  · exact onlyChanges_refl _ _
  · extract_lets v1 v2 v3
    have hv1 : onlyChanges [.out, .free, .regs, .flt, .saf, .pwr, .rng, .hif, .bld, .lanes, .tbl,   .kps] s v1 := by
      refine onlyChanges_ite ?_ ?_
      · refine onlyChanges_then ?_ (commitLeaves_only ..) rfl
        exact onlyChanges_refl _ _
      · exact onlyChanges_refl _ _
    have hv2 : onlyChanges [.out, .free, .regs, .flt, .saf, .pwr, .rng, .hif, .bld, .lanes, .tbl,   .kps] s v2 := by
      refine onlyChanges_then ?_ (modSaf_only ..) rfl
      exact hv1
    have hv3 : onlyChanges [.out, .free, .regs, .flt, .saf, .pwr, .rng, .hif, .bld, .lanes, .tbl,   .kps] s v3 := by
      dsimp -zeta only [v3]
      split
      · refine onlyChanges_then ?_ (writeRwl_only ..) rfl
        exact hv2
      · refine onlyChanges_then ?_ (writeInj_only ..) rfl
        exact hv2
    refine onlyChanges_ite ?_ ?_
    · refine onlyChanges_then ?_ (logNote_only ..) rfl
      exact hv3
    · exact hv3

theorem sessionOpen_only (s : State) : onlyChanges [.free, .saf, .pwr, .rng, .kps] s (sessionOpen s) := by
  unfold sessionOpen
  refine onlyChanges_ite ?_ ?_
  · refine onlyChanges_then ?_ (modSaf_only ..) rfl
    exact onlyChanges_refl _ _
  · refine onlyChanges_ite ?_ ?_
    · exact onlyChanges_refl _ _
    · extract_lets v4
      refine onlyChanges_ite ?_ ?_
      · refine onlyChanges_then ?_ (modSaf_only ..) rfl
        exact onlyChanges_refl _ _
      · refine onlyChanges_ite ?_ ?_
        · refine onlyChanges_then ?_ (logNote_only ..) rfl
          refine onlyChanges_then ?_ (modSaf_only ..) rfl
          exact onlyChanges_refl _ _
        · refine onlyChanges_then ?_ (modSaf_only ..) rfl
          exact onlyChanges_refl _ _

theorem commitFails_only (s : State) (reason : Nat) : onlyChanges [.saf] s (commitFails s reason) := by
  unfold commitFails
  refine onlyChanges_then ?_ (modSaf_only ..) rfl
  exact onlyChanges_refl _ _

theorem sessionCommit_only (s : State) : onlyChanges [.saf, .pwr, .rng, .kps] s (sessionCommit s) := by
  unfold sessionCommit
  refine onlyChanges_ite ?_ ?_
  · refine onlyChanges_then ?_ (commitFails_only ..) rfl
    exact onlyChanges_refl _ _
  · refine onlyChanges_ite ?_ ?_
    · exact onlyChanges_refl _ _
    · refine onlyChanges_then ?_ (kpsRequest_only ..) rfl
      refine onlyChanges_then ?_ (modSaf_only ..) rfl
      exact onlyChanges_refl _ _

theorem commitCheckEnds_only (s : State) (written : Bool) : onlyChanges [.out, .free, .regs, .flt, .saf, .pwr, .rng, .hif, .bld, .pxc, .lanes, .tbl, .kps, .cbl] s (commitCheckEnds s written) := by
  unfold commitCheckEnds
  extract_lets v5
  split
  · refine onlyChanges_then ?_ (commitFails_only ..) rfl
    exact onlyChanges_refl _ _
  · refine onlyChanges_ite ?_ ?_
    · refine onlyChanges_then ?_ (commitFails_only ..) rfl
      exact onlyChanges_refl _ _
    · refine onlyChanges_then ?_ (judgeIntegrity_only ..) rfl
      refine onlyChanges_then ?_ (imageNow_only ..) rfl
      refine onlyChanges_then ?_ (modSaf_only ..) rfl
      refine onlyChanges_then ?_ (opWritten_only ..) rfl
      exact onlyChanges_refl _ _

theorem sessionCommitEnd_only (s : State) (written : Bool) : onlyChanges [.out, .free, .regs, .flt, .saf, .pwr, .rng, .hif, .bld, .pxc, .lanes, .tbl, .kps, .cbl] s (sessionCommitEnd s written) := by
  unfold sessionCommitEnd
  refine onlyChanges_ite ?_ ?_
  · exact onlyChanges_refl _ _
  · refine onlyChanges_then ?_ (commitLeaves_only ..) rfl
    refine onlyChanges_then ?_ (commitCheckEnds_only ..) rfl
    exact onlyChanges_refl _ _

theorem writeUnlock_only (s : State) (v : Word) : onlyChanges [.out, .free, .regs, .flt, .saf, .pwr, .rng, .hif, .bld, .lanes, .tbl, .kps] s (writeUnlock s v) := by
  unfold writeUnlock
  split
  · refine onlyChanges_then ?_ (sessionOpen_only ..) rfl
    exact onlyChanges_refl _ _
  · refine onlyChanges_then ?_ (sessionCommit_only ..) rfl
    exact onlyChanges_refl _ _
  · refine onlyChanges_then ?_ (endSession_only ..) rfl
    exact onlyChanges_refl _ _
  · exact onlyChanges_refl _ _

theorem safeNOn_only (s : State) : onlyChanges [.out, .free, .flt, .saf, .pwr, .hif, .bld, .lanes] s (safeNOn s) := by
  unfold safeNOn
  refine onlyChanges_ite ?_ ?_
  · exact onlyChanges_refl _ _
  · refine onlyChanges_then ?_ (wake_only ..) rfl
    refine onlyChanges_then ?_ (setLevel_only ..) rfl
    refine onlyChanges_then ?_ (settle_only ..) rfl
    refine onlyChanges_then ?_ (modSaf_only ..) rfl
    exact onlyChanges_refl _ _

theorem safeNOff_only (s : State) : onlyChanges [.out, .free, .flt, .saf, .pwr, .hif, .bld, .lanes] s (safeNOff s) := by
  unfold safeNOff
  refine onlyChanges_ite ?_ ?_
  · refine onlyChanges_then ?_ (setLevel_only ..) rfl
    refine onlyChanges_then ?_ (settle_only ..) rfl
    refine onlyChanges_then ?_ (modSaf_only ..) rfl
    exact onlyChanges_refl _ _
  · exact onlyChanges_refl _ _

theorem autoClear_only (s : State) (source : Nat) : onlyChanges [.out, .free, .flt, .saf, .pwr, .bld, .lanes] s (autoClear s source) := by
  unfold autoClear
  refine onlyChanges_ite ?_ ?_
  · refine onlyChanges_then ?_ (clearSticky_only ..) rfl
    exact onlyChanges_refl _ _
  · exact onlyChanges_refl _ _

theorem writeHb_only (s : State) (v : Word) : onlyChanges [.out, .free, .regs, .flt, .saf, .pwr, .hif, .bld, .lanes] s (writeHb s v) := by
  unfold writeHb
  extract_lets v6
  refine onlyChanges_ite ?_ ?_
  · refine onlyChanges_then ?_ (modSaf_only ..) rfl
    exact onlyChanges_refl _ _
  · refine onlyChanges_then ?_ (setLevel_only ..) rfl
    refine onlyChanges_then ?_ (modSaf_only ..) rfl
    refine onlyChanges_then ?_ (setRegAt_only ..) rfl
    exact onlyChanges_refl _ _

theorem hbGraceEnds_only (s : State) : onlyChanges [.saf] s (hbGraceEnds s) := by
  unfold hbGraceEnds
  refine onlyChanges_ite ?_ ?_
  · refine onlyChanges_then ?_ (modSaf_only ..) rfl
    exact onlyChanges_refl _ _
  · exact onlyChanges_refl _ _

theorem hbTimesOut_only (s : State) : onlyChanges [.out, .free, .flt, .saf, .pwr, .hif, .bld, .lanes] s (hbTimesOut s) := by
  unfold hbTimesOut
  refine onlyChanges_ite ?_ ?_
  · refine onlyChanges_then ?_ (setLevel_only ..) rfl
    exact onlyChanges_refl _ _
  · exact onlyChanges_refl _ _

theorem watchdogExpires_only (s : State) (i : Nat) : onlyChanges [.out, .free, .flt, .saf, .pwr, .hif, .bld, .lanes] s (watchdogExpires s i) := by
  unfold watchdogExpires
  refine onlyChanges_ite ?_ ?_
  · exact onlyChanges_refl _ _
  · extract_lets v7 v8
    have hv7 : onlyChanges [.out, .free, .flt, .saf, .pwr, .hif, .bld, .lanes] s v7 := by
      refine onlyChanges_then ?_ (modSaf_only ..) rfl
      exact onlyChanges_refl _ _
    have hv8 : onlyChanges [.out, .free, .flt, .saf, .pwr, .hif, .bld, .lanes] s v8 := by
      refine onlyChanges_ite ?_ ?_
      · refine onlyChanges_then ?_ (modSafHead_only ..) rfl
        exact hv7
      · refine onlyChanges_ite ?_ ?_
        · refine onlyChanges_then ?_ (modSafHead_only ..) rfl
          exact hv7
        · exact hv7
    refine onlyChanges_then ?_ (raise_only ..) rfl
    exact hv8

theorem laceFetch_only (s : State) (ring : Nat) (slot : Nat) (d : Desc) (bad : Option Nat) : onlyChanges [.out, .free, .rng, .hif, .lce] s (laceFetch s ring slot d bad) := by
  unfold laceFetch
  split
  · refine onlyChanges_then ?_ (completeAt_only ..) rfl
    exact onlyChanges_refl _ _
  · refine onlyChanges_then ?_ (modChain_only ..) rfl
    exact onlyChanges_refl _ _

theorem laceReady_only (s : State) (c : Nat) (data : HostRead) : onlyChanges [.out, .free, .rng, .hif, .lce] s (laceReady s c data) := by
  unfold laceReady
  refine onlyChanges_ite ?_ ?_
  · exact onlyChanges_refl _ _
  · split
    · exact onlyChanges_refl _ _
    · refine onlyChanges_ite ?_ ?_
      · exact onlyChanges_refl _ _
      · split
        · refine onlyChanges_then ?_ (completeAt_only ..) rfl
          refine onlyChanges_then ?_ (modChain_only ..) rfl
          refine onlyChanges_then ?_ (hostFails_only ..) rfl
          exact onlyChanges_refl _ _
        · refine onlyChanges_then ?_ (completeAt_only ..) rfl
          refine onlyChanges_then ?_ (modChain_only ..) rfl
          exact onlyChanges_refl _ _
        · extract_lets v13
          refine onlyChanges_then ?_ (modChain_only ..) rfl
          exact onlyChanges_refl _ _

theorem laceTriggerNow_only (s : State) (c : Nat) : onlyChanges [.out, .free, .flt, .saf, .pwr, .hif, .bld, .lanes, .lce] s (laceTriggerNow s c) := by
  unfold laceTriggerNow
  extract_lets v9 v10
  refine onlyChanges_ite ?_ ?_
  · exact onlyChanges_refl _ _
  · refine onlyChanges_ite ?_ ?_
    · refine onlyChanges_then ?_ (modChain_only ..) rfl
      exact onlyChanges_refl _ _
    · refine onlyChanges_ite ?_ ?_
      · exact onlyChanges_refl _ _
      · refine onlyChanges_ite ?_ ?_
        · refine onlyChanges_then ?_ (modChain_only ..) rfl
          exact onlyChanges_refl _ _
        · refine onlyChanges_ite ?_ ?_
          · exact onlyChanges_refl _ _
          · refine onlyChanges_then ?_ (raise_only ..) rfl
            refine onlyChanges_then ?_ (modChain_only ..) rfl
            exact onlyChanges_refl _ _

theorem writeLceCommit_only (s : State) (v : Word) : onlyChanges [.lce] s (writeLceCommit s v) := by
  unfold writeLceCommit
  refine foldl_only ?_ (fun t11 a11 => ?_)
  · exact onlyChanges_refl _ _
  · refine onlyChanges_ite ?_ ?_
    · extract_lets v12
      refine onlyChanges_then ?_ (modChain_only ..) rfl
      exact onlyChanges_refl _ _
    · exact onlyChanges_refl _ _

theorem laceStarts_only (s : State) (c : Nat) : onlyChanges [.out, .rng, .lce] s (laceStarts s c) := by
  unfold laceStarts
  refine onlyChanges_ite ?_ ?_
  · exact onlyChanges_refl _ _
  · split
    · exact onlyChanges_refl _ _
    · extract_lets v14 v15 v16 v17
      have hv14 : onlyChanges [.out, .rng, .lce] s v14 := by
        refine onlyChanges_then ?_ (modChain_only ..) rfl
        exact onlyChanges_refl _ _
      have hv16 : onlyChanges [.out, .rng, .lce] s v16 := by
        refine onlyChanges_then ?_ (modChain_only ..) rfl
        exact hv14
      have hv17 : onlyChanges [.out, .rng, .lce] s v17 := by
        dsimp -zeta only [v17]
        split
        · refine onlyChanges_then ?_ (stageWork_only ..) rfl
          refine onlyChanges_then ?_ (modChain_only ..) rfl
          exact hv14
        · refine onlyChanges_then ?_ (modChain_only ..) rfl
          exact hv14
      refine onlyChanges_then ?_ (emit_only ..) rfl
      exact hv17

theorem laceGapEnds_only (s : State) (c : Nat) : onlyChanges [.out, .free, .rng, .hif, .lce] s (laceGapEnds s c) := by
  unfold laceGapEnds
  extract_lets v18
  refine onlyChanges_ite ?_ ?_
  · exact onlyChanges_refl _ _
  · split
    · refine onlyChanges_then ?_ (completeAt_only ..) rfl
      refine onlyChanges_then ?_ (modChain_only ..) rfl
      exact onlyChanges_refl _ _
    · refine onlyChanges_then ?_ (modChain_only ..) rfl
      exact onlyChanges_refl _ _

theorem writeLceCtrl_only (s : State) (c : Nat) (v : Word) : onlyChanges [.regs, .lce] s (writeLceCtrl s c v) := by
  unfold writeLceCtrl
  extract_lets v19 v20 v21 v22 v23 v24 v25
  have hv24 : onlyChanges [.regs, .lce] s v24 := by
    refine onlyChanges_ite ?_ ?_
    · exact onlyChanges_refl _ _
    · refine onlyChanges_then ?_ (modChain_only ..) rfl
      exact onlyChanges_refl _ _
  have hv25 : onlyChanges [.regs, .lce] s v25 := by
    refine onlyChanges_then ?_ (setRegAt_only ..) rfl
    exact hv24
  refine onlyChanges_ite ?_ ?_
  · refine onlyChanges_then ?_ (modChain_only ..) rfl
    exact hv25
  · exact hv25

theorem modCrcCtx_only (s : State) (c : Nat) (f : CrcCtx → CrcCtx) : onlyChanges [.crc] s (modCrcCtx s c f) := by
  refine ⟨rfl, fun p h => ?_⟩
  cases p <;> first | rfl | exact ⟨rfl, rfl⟩ | exact ⟨rfl, rfl, rfl⟩ | exact absurd (by decide) h

theorem abortHeld_only (s : State) (w : Work) : onlyChanges [.out, .free, .rng, .hif] s (abortHeld s w) := by
  unfold abortHeld
  refine onlyChanges_ite ?_ ?_
  · refine onlyChanges_then ?_ (completeWord_only ..) rfl
    exact onlyChanges_refl _ _
  · refine onlyChanges_then ?_ (completeAt_only ..) rfl
    exact onlyChanges_refl _ _

theorem crcFetch_only (s : State) (ring : Nat) (slot : Nat) (d : Desc) (bad : Option Nat) : onlyChanges [.out, .free, .rng, .hif] s (crcFetch s ring slot d bad) := by
  unfold crcFetch
  split
  · refine onlyChanges_then ?_ (completeAt_only ..) rfl
    exact onlyChanges_refl _ _
  · refine onlyChanges_ite ?_ ?_
    · refine onlyChanges_then ?_ (stageWork_only ..) rfl
      exact onlyChanges_refl _ _
    · exact onlyChanges_refl _ _

theorem crcCount_only (s : State) (c : Nat) (mism : Nat) : onlyChanges [.crc] s (crcCount s c mism) := by
  unfold crcCount
  refine onlyChanges_then ?_ (modCrcCtx_only ..) rfl
  exact onlyChanges_refl _ _

theorem crcEnds_only (s : State) (c : Nat) (data : List Byte) (w : Work) : onlyChanges [.out, .free, .regs, .flt, .saf, .pwr, .rng, .hif, .crc, .bld, .lanes] s (crcEnds s c data w) := by
  unfold crcEnds
  extract_lets v26 v27 v28 v29 v30
  have hv30 : onlyChanges [.out, .free, .regs, .flt, .saf, .pwr, .rng, .hif, .crc, .bld, .lanes] s v30 := by
    refine onlyChanges_then ?_ (setRegAt_only ..) rfl
    exact onlyChanges_refl _ _
  refine onlyChanges_ite ?_ ?_
  · refine onlyChanges_ite ?_ ?_
    · refine onlyChanges_then ?_ (completeWord_only ..) rfl
      refine onlyChanges_then ?_ (crcCount_only ..) rfl
      refine onlyChanges_then ?_ (modCrcCtx_only ..) rfl
      exact hv30
    · refine onlyChanges_then ?_ (completeWord_only ..) rfl
      refine onlyChanges_ite ?_ ?_
      · refine onlyChanges_then ?_ (signalMsix_only ..) rfl
        refine onlyChanges_then ?_ (raise_only ..) rfl
        refine onlyChanges_then ?_ (crcCount_only ..) rfl
        refine onlyChanges_then ?_ (modCrcCtx_only ..) rfl
        exact hv30
      · refine onlyChanges_then ?_ (raise_only ..) rfl
        refine onlyChanges_then ?_ (crcCount_only ..) rfl
        refine onlyChanges_then ?_ (modCrcCtx_only ..) rfl
        exact hv30
  · refine onlyChanges_then ?_ (completeWord_only ..) rfl
    refine onlyChanges_then ?_ (crcCount_only ..) rfl
    exact hv30

theorem crcJobEnds_only (s : State) (c : Nat) (data : HostRead) : onlyChanges [.out, .free, .regs, .flt, .saf, .pwr, .rng, .hif, .crc, .bld, .lanes] s (crcJobEnds s c data) := by
  unfold crcJobEnds
  refine onlyChanges_ite ?_ ?_
  · exact onlyChanges_refl _ _
  · split
    · exact onlyChanges_refl _ _
    · refine onlyChanges_ite ?_ ?_
      · refine onlyChanges_then ?_ (crcEnds_only ..) rfl
        exact onlyChanges_refl _ _
      · refine onlyChanges_ite ?_ ?_
        · exact onlyChanges_refl _ _
        · split
          · refine onlyChanges_then ?_ (completeWord_only ..) rfl
            refine onlyChanges_then ?_ (hostFails_only ..) rfl
            exact onlyChanges_refl _ _
          · refine onlyChanges_then ?_ (completeWord_only ..) rfl
            exact onlyChanges_refl _ _
          · refine onlyChanges_then ?_ (crcEnds_only ..) rfl
            exact onlyChanges_refl _ _

theorem crcRefuse_only (s : State) (c : Nat) : onlyChanges [.crc] s (crcRefuse s c) := by
  unfold crcRefuse
  refine raw_crc ?_ rfl
  exact onlyChanges_refl _ _

theorem crcLoad_only (s : State) (c : Nat) (p : CrcParams) : onlyChanges [.regs] s (crcLoad s c p) := by
  unfold crcLoad
  extract_lets v31 v32
  refine onlyChanges_then ?_ (setRegAt_only ..) rfl
  refine onlyChanges_then ?_ (setRegAt_only ..) rfl
  refine onlyChanges_then ?_ (setRegAt_only ..) rfl
  refine onlyChanges_then ?_ (setRegAt_only ..) rfl
  exact onlyChanges_refl _ _

theorem writeCrcCfg_only (s : State) (c : Nat) (v : Word) : onlyChanges [.regs, .crc] s (writeCrcCfg s c v) := by
  unfold writeCrcCfg
  refine onlyChanges_ite ?_ ?_
  · refine onlyChanges_then ?_ (crcRefuse_only ..) rfl
    exact onlyChanges_refl _ _
  · extract_lets v33 v34
    have hv34 : onlyChanges [.regs, .crc] s v34 := by
      refine onlyChanges_then ?_ (setRegAt_only ..) rfl
      exact onlyChanges_refl _ _
    split
    · refine onlyChanges_then ?_ (crcLoad_only ..) rfl
      exact hv34
    · exact hv34

theorem writeCrcWord_only (s : State) (c : Nat) (off : Nat) (v : Word) : onlyChanges [.regs, .crc] s (writeCrcWord s c off v) := by
  unfold writeCrcWord
  refine onlyChanges_ite ?_ ?_
  · refine onlyChanges_then ?_ (crcRefuse_only ..) rfl
    exact onlyChanges_refl _ _
  · refine onlyChanges_then ?_ (setRegAt_only ..) rfl
    exact onlyChanges_refl _ _

theorem modRst_only (s : State) (f : Rst → Rst) : onlyChanges [.rst] s (modRst s f) := by
  refine ⟨rfl, fun p h => ?_⟩
  cases p <;> first | rfl | exact ⟨rfl, rfl⟩ | exact ⟨rfl, rfl, rfl⟩ | exact absurd (by decide) h

theorem mixWords_only (s : State) (p : Nat) (new : Kps) (x1 : Nat) : onlyChanges [.free, .kps] s (mixWords s p new x1) := by
  induction x1 generalizing s with
  | zero => exact onlyChanges_refl _ _
  | succ n ih =>
    unfold mixWords
    repeat first
      | (with_reducible exact onlyChanges_refl _ _)
      | (with_reducible refine onlyChanges_trans ?_ (ih ..))
      | (with_reducible refine onlyChanges_then ?_ (modKps_only ..) rfl)
      | (with_reducible refine onlyChanges_then ?_ (drawBelow_only ..) rfl)
      | (with_reducible refine onlyChanges_then ?_ (onlyChanges_snd (by assumption) (drawBelow_only ..)) rfl)
      | (with_reducible refine onlyChanges_ite ?_ ?_)
      | split
      | dsimp only

theorem kpsInterrupt_only (s : State) : onlyChanges [.out, .free, .regs, .flt, .saf, .pwr, .rng, .hif, .bld, .lanes, .kps, .cbl] s (kpsInterrupt s) := by
  unfold kpsInterrupt
  dsimp only
  split
  · exact onlyChanges_refl _ _
  · split
    · refine onlyChanges_ite ?_ ?_
      · refine onlyChanges_then ?_ (swapSector_only ..) rfl
        refine onlyChanges_then ?_ (drawBelow_only ..) rfl
        refine onlyChanges_then ?_ (modKps_only ..) rfl
        exact onlyChanges_refl _ _
      · refine onlyChanges_then ?_ (mixWords_only ..) rfl
        refine onlyChanges_ite ?_ ?_
        · refine onlyChanges_then ?_ (spendInj_only ..) rfl
          refine onlyChanges_then ?_ (drawBelow_only ..) rfl
          refine onlyChanges_then ?_ (modKps_only ..) rfl
          exact onlyChanges_refl _ _
        · refine onlyChanges_then ?_ (drawBelow_only ..) rfl
          refine onlyChanges_then ?_ (modKps_only ..) rfl
          exact onlyChanges_refl _ _
    · refine onlyChanges_then ?_ (mixWords_only ..) rfl
      refine onlyChanges_ite ?_ ?_
      · refine onlyChanges_then ?_ (spendInj_only ..) rfl
        refine onlyChanges_then ?_ (modKps_only ..) rfl
        exact onlyChanges_refl _ _
      · refine onlyChanges_then ?_ (modKps_only ..) rfl
        exact onlyChanges_refl _ _
    · refine onlyChanges_then ?_ (modKps_only ..) rfl
      exact onlyChanges_refl _ _

theorem rebuildMap_only (s : State) : onlyChanges [.kps] s (rebuildMap s) := by
  unfold rebuildMap
  refine foldl_only ?_ (fun t40 a40 => ?_)
  · exact onlyChanges_refl _ _
  · extract_lets v41
    refine onlyChanges_ite ?_ ?_
    · refine onlyChanges_then ?_ (modSector_only ..) rfl
      exact onlyChanges_refl _ _
    · exact onlyChanges_refl _ _

theorem ledgerLoad_only (s : State) : onlyChanges [.out, .free, .regs, .flt, .saf, .pwr, .rng, .hif, .bld, .lanes, .kps, .cbl] s (ledgerLoad s) := by
  unfold ledgerLoad
  split
  · refine onlyChanges_then ?_ (modKps_only ..) rfl
    exact onlyChanges_refl _ _
  · refine onlyChanges_then ?_ (modKps_only ..) rfl
    exact onlyChanges_refl _ _

theorem eventScan_only (s : State) : onlyChanges [.out, .free, .regs, .flt, .saf, .pwr, .rng, .hif, .bld, .lanes, .kps, .cbl] s (eventScan s) := by
  unfold eventScan
  extract_lets v42
  refine onlyChanges_then ?_ (modKps_only ..) rfl
  exact onlyChanges_refl _ _

theorem kpsReady_only (s : State) : onlyChanges [.out, .free, .regs, .flt, .saf, .pwr, .rng, .hif, .bld, .lanes, .kps, .cbl] s (kpsReady s) := by
  unfold kpsReady
  refine onlyChanges_then ?_ (spareLevel_only ..) rfl
  refine onlyChanges_then ?_ (eventScan_only ..) rfl
  refine onlyChanges_then ?_ (ledgerLoad_only ..) rfl
  refine onlyChanges_then ?_ (rebuildMap_only ..) rfl
  exact onlyChanges_refl _ _

theorem priorRecord_only (s : State) : onlyChanges [.pwr, .rng, .kps] s (priorRecord s) := by
  unfold priorRecord
  refine onlyChanges_ite ?_ ?_
  · exact onlyChanges_refl _ _
  · refine onlyChanges_then ?_ (kpsRequest_only ..) rfl
    exact onlyChanges_refl _ _

theorem bankMapLoad_only (s : State) : onlyChanges [.out, .free, .regs, .flt, .saf, .pwr, .rng, .hif, .lmm, .bld, .lanes, .kps, .cbl] s (bankMapLoad s) := by
  unfold bankMapLoad
  split
  · refine raw_lmm ?_ rfl
    exact onlyChanges_refl _ _
  · refine foldl_only ?_ (fun t46 a46 => ?_)
    · refine raw_lmm ?_ rfl
      exact onlyChanges_refl _ _
    · extract_lets v47
      refine onlyChanges_then ?_ (modBank_only ..) rfl
      exact onlyChanges_refl _ _

theorem calibLoad_only (s : State) : onlyChanges [.out, .free, .regs, .mem, .flt, .saf, .pwr, .rng, .hif, .bld, .lanes, .kps, .cbl] s (calibLoad s) := by
  unfold calibLoad
  extract_lets v43 v44 v45
  have hv45 : onlyChanges [.out, .free, .regs, .mem, .flt, .saf, .pwr, .rng, .hif, .bld, .lanes,   .kps, .cbl] s v45 := by
    refine onlyChanges_then ?_ (memWrite_only ..) rfl
    exact onlyChanges_refl _ _
  refine onlyChanges_ite ?_ ?_
  · exact hv45
  · refine onlyChanges_then ?_ (modKps_only ..) rfl
    exact hv45

theorem doseLoad_only (s : State) : onlyChanges [.out, .free, .regs, .mem, .flt, .saf, .pwr, .rng, .hif, .bld, .pxc, .lanes, .kps, .cbl] s (doseLoad s) := by
  unfold doseLoad
  dsimp only
  split
  · refine onlyChanges_then ?_ (memWrite_only ..) rfl
    refine onlyChanges_then ?_ (modKps_only ..) rfl
    exact onlyChanges_refl _ _
  · refine onlyChanges_then ?_ (modKps_only ..) rfl
    refine raw_pxc ?_ rfl
    refine onlyChanges_then ?_ (memWrite_only ..) rfl
    exact onlyChanges_refl _ _

theorem coldState_only (s : State) : onlyChanges [.out, .free, .regs, .mem, .flt, .saf, .rst, .pwr, .rng, .hif, .crc, .glb, .lmm, .ly, .shd, .bld, .pxc, .tg, .lanes, .tbl, .net, .tim, .cle, .lce, .hkp, .kps, .cbl] s (coldState s) := by
  refine ⟨rfl, fun p h => ?_⟩
  cases p <;> exact absurd (by decide) h

theorem warmState_only (s : State) (copied : Bool) : onlyChanges [.out, .free, .regs, .mem, .flt, .saf, .rst, .pwr, .rng, .hif, .crc, .glb, .lmm, .ly, .shd, .bld, .pxc, .tg, .lanes, .tbl, .net, .tim, .cle, .lce, .hkp, .kps, .cbl] s (warmState s copied) := by
  unfold warmState
  extract_lets v52
  have hv52 : onlyChanges [.out, .free, .regs, .mem, .flt, .saf, .rst, .pwr, .rng, .hif, .crc,   .glb, .lmm, .ly, .shd, .bld, .pxc, .tg, .lanes, .tbl, .net, .tim,   .cle, .lce, .hkp, .kps, .cbl] s v52 := by
    refine onlyChanges_then ?_ (coldState_only ..) rfl
    exact onlyChanges_refl _ _
  refine raw_mem_flt_saf_lmm_pxc ?_ rfl
  exact hv52

theorem wideAsserts_only (s : State) (b : Nat) : onlyChanges [.out, .free, .regs, .mem, .flt, .saf, .rst, .pwr, .rng, .hif, .crc, .glb, .lmm, .ly, .shd, .bld, .pxc, .tg, .lanes, .tbl, .net, .tim, .cle, .lce, .hkp, .kps, .cbl] s (wideAsserts s b) := by
  unfold wideAsserts
  extract_lets v53 v54 v55 v56 v57 v58 v59
  have hv59 : onlyChanges [.out, .free, .regs, .mem, .flt, .saf, .rst, .pwr, .rng, .hif, .crc,   .glb, .lmm, .ly, .shd, .bld, .pxc, .tg, .lanes, .tbl, .net, .tim,   .cle, .lce, .hkp, .kps, .cbl] s v59 := by
    refine onlyChanges_then ?_ (coldState_only ..) rfl
    exact onlyChanges_refl _ _
  refine raw_rst ?_ rfl
  refine onlyChanges_ite ?_ ?_
  · refine onlyChanges_then ?_ (coldState_only ..) rfl
    exact onlyChanges_refl _ _
  · refine onlyChanges_ite ?_ ?_
    · refine raw_flt ?_ rfl
      exact hv59
    · refine onlyChanges_then ?_ (warmState_only ..) rfl
      exact onlyChanges_refl _ _

theorem hostDown_only (s : State) : onlyChanges [.out, .free, .regs, .flt, .saf, .rst, .pwr, .rng, .hif, .ly, .bld, .pxc, .tg, .lanes, .tbl, .kps] s (hostDown s) := by
  unfold hostDown
  extract_lets v60 v61 v62
  refine onlyChanges_ite ?_ ?_
  · refine onlyChanges_then ?_ (wake_only ..) rfl
    refine onlyChanges_then ?_ (endSession_only ..) rfl
    refine onlyChanges_then ?_ (commitsAfterLtr_only ..) rfl
    refine onlyChanges_then ?_ (setsAfterLtr_only ..) rfl
    refine raw_regs_rst_rng_hif ?_ rfl
    exact onlyChanges_refl _ _
  · refine onlyChanges_then ?_ (endSession_only ..) rfl
    refine onlyChanges_then ?_ (commitsAfterLtr_only ..) rfl
    refine onlyChanges_then ?_ (setsAfterLtr_only ..) rfl
    refine raw_regs_rst_rng_hif ?_ rfl
    exact onlyChanges_refl _ _

theorem hostCheck_only (s : State) : onlyChanges [.rst] s (hostCheck s) := by
  unfold hostCheck
  refine onlyChanges_ite ?_ ?_
  · refine onlyChanges_then ?_ (modRst_only ..) rfl
    exact onlyChanges_refl _ _
  · exact onlyChanges_refl _ _

theorem hostAsserts_only (s : State) (b : Nat) : onlyChanges [.out, .free, .regs, .flt, .saf, .rst, .pwr, .rng, .hif, .ly, .bld, .pxc, .tg, .lanes, .tbl, .kps] s (hostAsserts s b) := by
  unfold hostAsserts
  extract_lets v63
  have hv63 : onlyChanges [.out, .free, .regs, .flt, .saf, .rst, .pwr, .rng, .hif, .ly, .bld,   .pxc, .tg, .lanes, .tbl, .kps] s v63 := by
    refine onlyChanges_then ?_ (modRst_only ..) rfl
    exact onlyChanges_refl _ _
  refine onlyChanges_ite ?_ ?_
  · refine onlyChanges_then ?_ (hostDown_only ..) rfl
    exact hv63
  · refine onlyChanges_then ?_ (modRst_only ..) rfl
    exact hv63

theorem sourceAsserts_only (s : State) (b : Nat) : onlyChanges [.out, .free, .regs, .mem, .flt, .saf, .rst, .pwr, .rng, .hif, .crc, .glb, .lmm, .ly, .shd, .bld, .pxc, .tg, .lanes, .tbl, .net, .tim, .cle, .lce, .hkp, .kps, .cbl] s (sourceAsserts s b) := by
  unfold sourceAsserts
  refine onlyChanges_ite ?_ ?_
  · refine onlyChanges_then ?_ (hostAsserts_only ..) rfl
    exact onlyChanges_refl _ _
  · refine onlyChanges_then ?_ (wideAsserts_only ..) rfl
    exact onlyChanges_refl _ _

theorem releaseBegins_only (s : State) : onlyChanges [.rst] s (releaseBegins s) := by
  unfold releaseBegins
  refine onlyChanges_ite ?_ ?_
  · refine onlyChanges_then ?_ (modRst_only ..) rfl
    exact onlyChanges_refl _ _
  · exact onlyChanges_refl _ _

theorem sourcesRelease_only (s : State) (bs : List Nat) : onlyChanges [.rst] s (sourcesRelease s bs) := by
  unfold sourcesRelease
  extract_lets v64
  have hv64 : onlyChanges [.rst] s v64 := by
    refine onlyChanges_then ?_ (modRst_only ..) rfl
    exact onlyChanges_refl _ _
  refine onlyChanges_then ?_ (hostCheck_only ..) rfl
  refine onlyChanges_then ?_ (releaseBegins_only ..) rfl
  exact hv64

theorem hostPulse_only (s : State) (b : Nat) : onlyChanges [.out, .free, .regs, .flt, .saf, .rst, .pwr, .rng, .hif, .ly, .bld, .pxc, .tg, .lanes, .tbl, .kps] s (hostPulse s b) := by
  unfold hostPulse
  refine onlyChanges_then ?_ (sourcesRelease_only ..) rfl
  refine onlyChanges_then ?_ (hostAsserts_only ..) rfl
  exact onlyChanges_refl _ _

theorem rewriteCpl_only (s : State) (w : Written) : onlyChanges [.out, .rng, .hif] s (rewriteCpl s w) := by
  unfold rewriteCpl
  extract_lets v65 v66 v67
  have hv67 : onlyChanges [.out, .rng, .hif] s v67 := by
    refine onlyChanges_then ?_ (postWrite_only ..) rfl
    exact onlyChanges_refl _ _
  refine onlyChanges_then ?_ (ringIrq_only ..) rfl
  refine onlyChanges_then ?_ (modRng_only ..) rfl
  exact hv67

theorem journalResumes_only (s : State) : onlyChanges [.out, .regs, .rng, .hif] s (journalResumes s) := by
  unfold journalResumes
  split
  · exact onlyChanges_refl _ _
  · extract_lets v74 v75 v76
    have hv76 : onlyChanges [.out, .regs, .rng, .hif] s v76 := by
      refine raw_regs_rng ?_ rfl
      exact onlyChanges_refl _ _
    refine foldl_only ?_ (fun t78 a78 => ?_)
    · refine foldl_only ?_ (fun t80 a80 => ?_)
      · exact hv76
      · refine onlyChanges_then ?_ (rewriteCpl_only ..) rfl
        exact onlyChanges_refl _ _
    · refine onlyChanges_ite ?_ ?_
      · refine onlyChanges_then ?_ (flushHeld_only ..) rfl
        exact onlyChanges_refl _ _
      · exact onlyChanges_refl _ _

theorem forgetWork_only (s : State) : onlyChanges [.rng, .shd, .pxc, .net, .lce, .kps] s (forgetWork s) := by
  unfold forgetWork
  extract_lets v68 v69 v70 v71 v72 v73
  have hv70 : onlyChanges [.rng, .shd, .pxc, .net, .lce, .kps] s v70 := by
    refine foldl_only ?_ (fun t77 a77 => ?_)
    · exact onlyChanges_refl _ _
    · refine onlyChanges_then ?_ (modShd_only ..) rfl
      exact onlyChanges_refl _ _
  have hv72 : onlyChanges [.rng, .shd, .pxc, .net, .lce, .kps] s v72 := by
    refine raw_pxc ?_ rfl
    exact hv70
  have hv73 : onlyChanges [.rng, .shd, .pxc, .net, .lce, .kps] s v73 := by
    refine foldl_only ?_ (fun t81 a81 => ?_)
    · exact hv72
    · refine onlyChanges_then ?_ (modChain_only ..) rfl
      exact onlyChanges_refl _ _
  refine onlyChanges_then ?_ (modRng_only ..) rfl
  refine onlyChanges_then ?_ (modKps_only ..) rfl
  refine foldl_only ?_ (fun t82 a82 => ?_)
  · exact hv73
  · refine onlyChanges_then ?_ (modPort_only ..) rfl
    exact onlyChanges_refl _ _

theorem journalForgets_only (s : State) : onlyChanges [.regs, .rng, .shd, .pxc, .net, .lce, .kps] s (journalForgets s) := by
  unfold journalForgets
  split
  · exact onlyChanges_refl _ _
  · extract_lets v79
    have hv79 : onlyChanges [.regs, .rng, .shd, .pxc, .net, .lce, .kps] s v79 := by
      refine onlyChanges_then ?_ (forgetWork_only ..) rfl
      exact onlyChanges_refl _ _
    refine raw_regs_rng ?_ rfl
    exact hv79

theorem journalRead_only (s : State) : onlyChanges [.out, .free, .regs, .mem, .flt, .saf, .pwr, .rng, .hif, .lmm, .ly, .bld, .pxc, .tg, .lanes, .tbl, .kps, .cbl] s (journalRead s) := by
  unfold journalRead
  refine onlyChanges_then ?_ (clientRead_only ..) rfl
  exact onlyChanges_refl _ _

theorem writeJournal_only (s : State) (v : Word) : onlyChanges [.out, .free, .regs, .mem, .flt, .saf, .pwr, .rng, .hif, .lmm, .ly, .shd, .bld, .pxc, .tg, .lanes, .tbl, .net, .lce, .kps, .cbl] s (writeJournal s v) := by
  unfold writeJournal
  refine onlyChanges_ite ?_ ?_
  · exact onlyChanges_refl _ _
  · refine onlyChanges_ite ?_ ?_
    · extract_lets v0
      have hv0 : onlyChanges [.out, .free, .regs, .mem, .flt, .saf, .pwr, .rng, .hif, .lmm, .ly,   .shd, .bld, .pxc, .tg, .lanes, .tbl, .net, .lce, .kps, .cbl] s v0 := by
        refine onlyChanges_then ?_ (journalRead_only ..) rfl
        exact onlyChanges_refl _ _
      refine onlyChanges_ite ?_ ?_
      · refine onlyChanges_then ?_ (journalForgets_only ..) rfl
        exact hv0
      · refine onlyChanges_then ?_ (journalResumes_only ..) rfl
        exact hv0
    · refine onlyChanges_ite ?_ ?_
      · refine onlyChanges_then ?_ (journalForgets_only ..) rfl
        exact onlyChanges_refl _ _
      · exact onlyChanges_refl _ _

theorem stepEnds_only (s : State) (n : Nat) : onlyChanges [.out, .free, .regs, .mem, .flt, .saf, .rst, .pwr, .rng, .hif, .lmm, .bld, .pxc, .lanes, .tbl, .kps, .cbl] s (stepEnds s n) := by
  unfold stepEnds
  extract_lets v83
  have hv83 : onlyChanges [.out, .free, .regs, .mem, .flt, .saf, .rst, .pwr, .rng, .hif, .lmm,   .bld, .pxc, .lanes, .tbl, .kps, .cbl] s v83 := by
    refine onlyChanges_then ?_ (modRst_only ..) rfl
    exact onlyChanges_refl _ _
  split
  · refine onlyChanges_then ?_ (modRst_only ..) rfl
    exact onlyChanges_refl _ _
  · refine onlyChanges_then ?_ (hostCheck_only ..) rfl
    refine onlyChanges_then ?_ (modRst_only ..) rfl
    exact onlyChanges_refl _ _
  · refine onlyChanges_ite ?_ ?_
    · refine onlyChanges_then ?_ (priorRecord_only ..) rfl
      refine onlyChanges_then ?_ (kpsReady_only ..) rfl
      refine onlyChanges_then ?_ (modRst_only ..) rfl
      exact onlyChanges_refl _ _
    · refine onlyChanges_then ?_ (kpsReady_only ..) rfl
      refine onlyChanges_then ?_ (modRst_only ..) rfl
      exact onlyChanges_refl _ _
  · refine onlyChanges_ite ?_ ?_
    · refine onlyChanges_then ?_ (bankMapLoad_only ..) rfl
      refine onlyChanges_then ?_ (modRst_only ..) rfl
      exact onlyChanges_refl _ _
    · refine onlyChanges_then ?_ (modRst_only ..) rfl
      exact onlyChanges_refl _ _
  · refine onlyChanges_then ?_ (settle_only ..) rfl
    refine onlyChanges_ite ?_ ?_
    · refine onlyChanges_then ?_ (raise_only ..) rfl
      refine onlyChanges_then ?_ (beginJudging_only ..) rfl
      refine onlyChanges_then ?_ (modRst_only ..) rfl
      refine onlyChanges_then ?_ (loadSafecfg_only ..) rfl
      exact onlyChanges_refl _ _
    · refine onlyChanges_then ?_ (beginJudging_only ..) rfl
      refine onlyChanges_then ?_ (modRst_only ..) rfl
      refine onlyChanges_then ?_ (loadSafecfg_only ..) rfl
      exact onlyChanges_refl _ _
  · refine onlyChanges_ite ?_ ?_
    · refine onlyChanges_then ?_ (doseLoad_only ..) rfl
      refine onlyChanges_then ?_ (calibLoad_only ..) rfl
      refine onlyChanges_then ?_ (modRst_only ..) rfl
      exact onlyChanges_refl _ _
    · refine onlyChanges_then ?_ (calibLoad_only ..) rfl
      refine onlyChanges_then ?_ (modRst_only ..) rfl
      exact onlyChanges_refl _ _
  · exact hv83

theorem dropLevels_only (s : State) (srcs : List Nat) : onlyChanges [.out, .free, .flt, .saf, .pwr, .hif, .bld, .lanes] s (dropLevels s srcs) := by
  unfold dropLevels
  refine foldl_only ?_ (fun t84 a84 => ?_)
  · exact onlyChanges_refl _ _
  · refine onlyChanges_then ?_ (setLevel_only ..) rfl
    exact onlyChanges_refl _ _

theorem abortWork_only (s : State) (opcodes : List Nat) : onlyChanges [.out, .free, .rng, .hif] s (abortWork s opcodes) := by
  unfold abortWork
  refine foldl_only ?_ (fun t85 a85 => ?_)
  · exact onlyChanges_refl _ _
  · refine onlyChanges_ite ?_ ?_
    · refine onlyChanges_then ?_ (abortHeld_only ..) rfl
      exact onlyChanges_refl _ _
    · refine onlyChanges_then ?_ (completeAt_only ..) rfl
      exact onlyChanges_refl _ _

theorem clearWindow_only (s : State) (base : Nat) (keep : List Nat) : onlyChanges [.regs] s (clearWindow s base keep) := by
  refine ⟨rfl, fun p h => ?_⟩
  cases p <;> first | rfl | exact ⟨rfl, rfl⟩ | exact ⟨rfl, rfl, rfl⟩ | exact absurd (by decide) h

theorem resetNet_only (s : State) : onlyChanges [.out, .free, .regs, .flt, .saf, .pwr, .rng, .hif, .bld, .lanes, .net] s (resetNet s) := by
  unfold resetNet
  extract_lets v86 v87 v88
  have hv86 : onlyChanges [.out, .free, .regs, .flt, .saf, .pwr, .rng, .hif, .bld, .lanes, .net] s v86 := by
    refine onlyChanges_then ?_ (abortWork_only ..) rfl
    exact onlyChanges_refl _ _
  have hv87 : onlyChanges [.out, .free, .regs, .flt, .saf, .pwr, .rng, .hif, .bld, .lanes, .net] s v87 := by
    refine onlyChanges_then ?_ (clearWindow_only ..) rfl
    refine onlyChanges_then ?_ (clearWindow_only ..) rfl
    exact hv86
  have hv88 : onlyChanges [.out, .free, .regs, .flt, .saf, .pwr, .rng, .hif, .bld, .lanes, .net] s v88 := by
    refine raw_laneBlocks_net ?_ rfl
    exact hv87
  refine onlyChanges_then ?_ (dropLevels_only ..) rfl
  refine onlyChanges_then ?_ (modLane_only ..) rfl
  refine onlyChanges_then ?_ (modLane_only ..) rfl
  exact hv88

theorem resetCle_only (s : State) : onlyChanges [.out, .free, .regs, .flt, .saf, .pwr, .hif, .bld, .lanes, .cle] s (resetCle s) := by
  unfold resetCle
  extract_lets v89
  have hv89 : onlyChanges [.out, .free, .regs, .flt, .saf, .pwr, .hif, .bld, .lanes, .cle] s v89 := by
    refine onlyChanges_then ?_ (clearWindow_only ..) rfl
    exact onlyChanges_refl _ _
  refine onlyChanges_then ?_ (dropLevels_only ..) rfl
  refine raw_cle ?_ rfl
  exact hv89

theorem resetLce_only (s : State) : onlyChanges [.out, .free, .regs, .rng, .hif, .lce] s (resetLce s) := by
  unfold resetLce
  extract_lets v90
  have hv90 : onlyChanges [.out, .free, .regs, .rng, .hif, .lce] s v90 := by
    refine onlyChanges_then ?_ (clearWindow_only ..) rfl
    refine onlyChanges_then ?_ (abortWork_only ..) rfl
    exact onlyChanges_refl _ _
  refine foldl_only ?_ (fun t91 a91 => ?_)
  · exact hv90
  · refine onlyChanges_then ?_ (modChain_only ..) rfl
    exact onlyChanges_refl _ _

theorem resetCrc_only (s : State) : onlyChanges [.out, .free, .regs, .rng, .hif, .crc] s (resetCrc s) := by
  unfold resetCrc
  extract_lets v92
  have hv92 : onlyChanges [.out, .free, .regs, .rng, .hif, .crc] s v92 := by
    refine onlyChanges_then ?_ (clearWindow_only ..) rfl
    refine onlyChanges_then ?_ (abortWork_only ..) rfl
    exact onlyChanges_refl _ _
  refine raw_crc ?_ rfl
  exact hv92

theorem resetHkp_only (s : State) : onlyChanges [.out, .free, .regs, .flt, .saf, .pwr, .hif, .bld, .lanes, .hkp] s (resetHkp s) := by
  unfold resetHkp
  refine onlyChanges_then ?_ (dropLevels_only ..) rfl
  refine onlyChanges_then ?_ (sensorLevels_only ..) rfl
  refine onlyChanges_then ?_ (bandLevels_only ..) rfl
  refine onlyChanges_then ?_ (hkpBlockReset_only ..) rfl
  exact onlyChanges_refl _ _

theorem resetFlt_only (s : State) : onlyChanges [.out, .free, .regs, .flt, .saf, .pwr, .bld, .lanes] s (resetFlt s) := by
  unfold resetFlt
  refine onlyChanges_then ?_ (settle_only ..) rfl
  refine onlyChanges_then ?_ (modFlt_only ..) rfl
  refine onlyChanges_then ?_ (clearWindow_only ..) rfl
  exact onlyChanges_refl _ _

theorem resetSaf_only (s : State) : onlyChanges [.out, .free, .regs, .flt, .saf, .pwr, .rng, .hif, .bld, .lanes, .tbl, .kps] s (resetSaf s) := by
  unfold resetSaf
  extract_lets v93
  have hv93 : onlyChanges [.out, .free, .regs, .flt, .saf, .pwr, .rng, .hif, .bld, .lanes, .tbl,   .kps] s v93 := by
    refine onlyChanges_then ?_ (clearWindow_only ..) rfl
    refine onlyChanges_then ?_ (endSession_only ..) rfl
    exact onlyChanges_refl _ _
  refine onlyChanges_then ?_ (modSaf_only ..) rfl
  exact hv93

theorem abortCals_only (s : State) : onlyChanges [.out, .free, .rng, .hif, .pxc] s (abortCals s) := by
  unfold abortCals
  extract_lets v94
  refine foldl_only ?_ (fun t95 a95 => ?_)
  · refine raw_pxc ?_ rfl
    exact onlyChanges_refl _ _
  · refine onlyChanges_then ?_ (completeAt_only ..) rfl
    exact onlyChanges_refl _ _

theorem resetKps_only (s : State) : onlyChanges [.out, .free, .regs, .flt, .saf, .pwr, .rng, .hif, .bld, .pxc, .lanes, .kps, .cbl] s (resetKps s) := by
  unfold resetKps
  extract_lets v96 v97 v98
  have hv96 : onlyChanges [.out, .free, .regs, .flt, .saf, .pwr, .rng, .hif, .bld, .pxc, .lanes,   .kps, .cbl] s v96 := by
    refine onlyChanges_ite ?_ ?_
    · refine onlyChanges_then ?_ (commitFails_only ..) rfl
      exact onlyChanges_refl _ _
    · exact onlyChanges_refl _ _
  have hv97 : onlyChanges [.out, .free, .regs, .flt, .saf, .pwr, .rng, .hif, .bld, .pxc, .lanes,   .kps, .cbl] s v97 := by
    refine onlyChanges_then ?_ (kpsInterrupt_only ..) rfl
    refine onlyChanges_then ?_ (abortCals_only ..) rfl
    refine onlyChanges_then ?_ (abortWork_only ..) rfl
    exact hv96
  have hv98 : onlyChanges [.out, .free, .regs, .flt, .saf, .pwr, .rng, .hif, .bld, .pxc, .lanes,   .kps, .cbl] s v98 := by
    refine onlyChanges_then ?_ (clearWindow_only ..) rfl
    exact hv97
  refine onlyChanges_then ?_ (modKps_only ..) rfl
  refine raw_pxc ?_ rfl
  exact hv98

theorem resetCbl_only (s : State) : onlyChanges [.regs, .lmm, .cbl] s (resetCbl s) := by
  unfold resetCbl
  extract_lets v99
  have hv99 : onlyChanges [.regs, .lmm, .cbl] s v99 := by
    refine onlyChanges_then ?_ (clearWindow_only ..) rfl
    refine onlyChanges_then ?_ (retireAbandon_only ..) rfl
    exact onlyChanges_refl _ _
  refine raw_cbl ?_ rfl
  exact hv99

theorem resetBlock_only (s : State) (b : Nat) : onlyChanges [.out, .free, .regs, .flt, .saf, .rst, .pwr, .rng, .hif, .crc, .lmm, .bld, .pxc, .lanes, .tbl, .net, .cle, .lce, .hkp, .kps, .cbl] s (resetBlock s b) := by
  unfold resetBlock
  extract_lets v1 v2
  have hv1 : onlyChanges [.out, .free, .regs, .flt, .saf, .rst, .pwr, .rng, .hif, .crc, .lmm,   .bld, .pxc, .lanes, .tbl, .net, .cle, .lce, .hkp, .kps, .cbl] s v1 := by
    refine onlyChanges_ite ?_ ?_
    · refine onlyChanges_then ?_ (raise_only ..) rfl
      exact onlyChanges_refl _ _
    · exact onlyChanges_refl _ _
  have hv2 : onlyChanges [.out, .free, .regs, .flt, .saf, .rst, .pwr, .rng, .hif, .crc, .lmm,   .bld, .pxc, .lanes, .tbl, .net, .cle, .lce, .hkp, .kps, .cbl] s v2 := by
    dsimp -zeta only [v2]
    split
    · refine onlyChanges_then ?_ (resetNet_only ..) rfl
      refine onlyChanges_ite ?_ ?_
      · refine onlyChanges_then ?_ (raise_only ..) rfl
        exact onlyChanges_refl _ _
      · exact onlyChanges_refl _ _
    · refine onlyChanges_then ?_ (resetCle_only ..) rfl
      refine onlyChanges_ite ?_ ?_
      · refine onlyChanges_then ?_ (raise_only ..) rfl
        exact onlyChanges_refl _ _
      · exact onlyChanges_refl _ _
    · refine onlyChanges_then ?_ (resetLce_only ..) rfl
      refine onlyChanges_ite ?_ ?_
      · refine onlyChanges_then ?_ (raise_only ..) rfl
        exact onlyChanges_refl _ _
      · exact onlyChanges_refl _ _
    · refine onlyChanges_then ?_ (resetCrc_only ..) rfl
      refine onlyChanges_ite ?_ ?_
      · refine onlyChanges_then ?_ (raise_only ..) rfl
        exact onlyChanges_refl _ _
      · exact onlyChanges_refl _ _
    · refine onlyChanges_then ?_ (resetHkp_only ..) rfl
      refine onlyChanges_ite ?_ ?_
      · refine onlyChanges_then ?_ (raise_only ..) rfl
        exact onlyChanges_refl _ _
      · exact onlyChanges_refl _ _
    · refine onlyChanges_then ?_ (resetFlt_only ..) rfl
      refine onlyChanges_ite ?_ ?_
      · refine onlyChanges_then ?_ (raise_only ..) rfl
        exact onlyChanges_refl _ _
      · exact onlyChanges_refl _ _
    · refine onlyChanges_then ?_ (resetSaf_only ..) rfl
      refine onlyChanges_ite ?_ ?_
      · refine onlyChanges_then ?_ (raise_only ..) rfl
        exact onlyChanges_refl _ _
      · exact onlyChanges_refl _ _
    · refine onlyChanges_then ?_ (resetKps_only ..) rfl
      refine onlyChanges_ite ?_ ?_
      · refine onlyChanges_then ?_ (raise_only ..) rfl
        exact onlyChanges_refl _ _
      · exact onlyChanges_refl _ _
    · refine onlyChanges_then ?_ (resetCbl_only ..) rfl
      exact hv1
  refine onlyChanges_then ?_ (modRst_only ..) rfl
  exact hv2

theorem resetOrDefer_only (s : State) (b : Nat) : onlyChanges [.out, .free, .regs, .flt, .saf, .rst, .pwr, .rng, .hif, .crc, .lmm, .bld, .pxc, .lanes, .tbl, .net, .cle, .lce, .hkp, .kps, .cbl] s (resetOrDefer s b) := by
  unfold resetOrDefer
  refine onlyChanges_ite ?_ ?_
  · refine onlyChanges_then ?_ (resetBlock_only ..) rfl
    exact onlyChanges_refl _ _
  · refine onlyChanges_then ?_ (modRst_only ..) rfl
    exact onlyChanges_refl _ _

theorem deferredResets_only (s : State) : onlyChanges [.out, .free, .regs, .flt, .saf, .rst, .pwr, .rng, .hif, .crc, .lmm, .bld, .pxc, .lanes, .tbl, .net, .cle, .lce, .hkp, .kps, .cbl] s (deferredResets s) := by
  unfold deferredResets
  refine foldl_only ?_ (fun t3 a3 => ?_)
  · refine onlyChanges_then ?_ (modRst_only ..) rfl
    exact onlyChanges_refl _ _
  · refine onlyChanges_then ?_ (resetBlock_only ..) rfl
    exact onlyChanges_refl _ _

theorem writeRstBlock_only (s : State) (v : Word) : onlyChanges [.out, .free, .regs, .flt, .saf, .rst, .pwr, .rng, .hif, .crc, .lmm, .bld, .pxc, .lanes, .tbl, .net, .cle, .lce, .hkp, .kps, .cbl] s (writeRstBlock s v) := by
  unfold writeRstBlock
  extract_lets v4
  refine onlyChanges_ite ?_ ?_
  · refine onlyChanges_then ?_ (modRst_only ..) rfl
    exact onlyChanges_refl _ _
  · refine onlyChanges_ite ?_ ?_
    · exact onlyChanges_refl _ _
    · refine foldl_only ?_ (fun t5 a5 => ?_)
      · refine onlyChanges_then ?_ (modRst_only ..) rfl
        exact onlyChanges_refl _ _
      · refine onlyChanges_then ?_ (resetOrDefer_only ..) rfl
        exact onlyChanges_refl _ _

theorem blockReleases_only (s : State) (b : Nat) : onlyChanges [.out, .free, .regs, .flt, .saf, .rst, .pwr, .rng, .hif, .bld, .lanes, .kps, .cbl] s (blockReleases s b) := by
  unfold blockReleases
  refine onlyChanges_ite ?_ ?_
  · exact onlyChanges_refl _ _
  · extract_lets v6
    have hv6 : onlyChanges [.out, .free, .regs, .flt, .saf, .rst, .pwr, .rng, .hif, .bld, .lanes,   .kps, .cbl] s v6 := by
      refine onlyChanges_then ?_ (modRst_only ..) rfl
      exact onlyChanges_refl _ _
    split
    · refine onlyChanges_then ?_ (settle_only ..) rfl
      refine onlyChanges_then ?_ (beginJudging_only ..) rfl
      refine onlyChanges_then ?_ (modRst_only ..) rfl
      exact onlyChanges_refl _ _
    · refine onlyChanges_then ?_ (kpsReady_only ..) rfl
      refine onlyChanges_then ?_ (modRst_only ..) rfl
      exact onlyChanges_refl _ _
    · exact hv6

theorem writeRstCmd_only (s : State) (v : Word) : onlyChanges [.out, .free, .regs, .mem, .flt, .saf, .rst, .pwr, .rng, .hif, .crc, .glb, .lmm, .ly, .shd, .bld, .pxc, .tg, .lanes, .tbl, .net, .tim, .cle, .lce, .hkp, .kps, .cbl] s (writeRstCmd s v) := by
  unfold writeRstCmd
  refine onlyChanges_ite ?_ ?_
  · exact onlyChanges_refl _ _
  · split
    · refine onlyChanges_then ?_ (sourceAsserts_only ..) rfl
      exact onlyChanges_refl _ _
    · refine onlyChanges_then ?_ (sourceAsserts_only ..) rfl
      exact onlyChanges_refl _ _
    · refine onlyChanges_then ?_ (sourceAsserts_only ..) rfl
      exact onlyChanges_refl _ _
    · exact onlyChanges_refl _ _

theorem faultReset_only (s : State) : onlyChanges [.out, .free, .regs, .mem, .flt, .saf, .rst, .pwr, .rng, .hif, .crc, .glb, .lmm, .ly, .shd, .bld, .pxc, .tg, .lanes, .tbl, .net, .tim, .cle, .lce, .hkp, .kps, .cbl] s (faultReset s) := by
  unfold faultReset
  refine onlyChanges_ite ?_ ?_
  · refine onlyChanges_then ?_ (sourceAsserts_only ..) rfl
    exact onlyChanges_refl _ _
  · exact onlyChanges_refl _ _

theorem modCle_only (s : State) (f : Cle → Cle) : onlyChanges [.cle] s (modCle s f) := by
  refine ⟨rfl, fun p h => ?_⟩
  cases p <;> first | rfl | exact ⟨rfl, rfl⟩ | exact ⟨rfl, rfl, rfl⟩ | exact absurd (by decide) h

theorem modAdc_only (s : State) (c : Nat) (f : Adc → Adc) : onlyChanges [.cle] s (modAdc s c f) := by
  refine ⟨rfl, fun p h => ?_⟩
  cases p <;> first | rfl | exact ⟨rfl, rfl⟩ | exact ⟨rfl, rfl, rfl⟩ | exact absurd (by decide) h

theorem loopsLeave_only (s : State) (n : Nat) : onlyChanges [.cle] s (loopsLeave s n) := by
  unfold loopsLeave
  refine foldl_only ?_ (fun t7 a7 => ?_)
  · exact onlyChanges_refl _ _
  · refine onlyChanges_then ?_ (modLoop_only ..) rfl
    exact onlyChanges_refl _ _

theorem loopSampleNow_only (s0 : State) (n : Nat) : onlyChanges [.tim, .cle] s0 (loopSampleNow s0 n) := by
  unfold loopSampleNow
  extract_lets v8
  have hv8 : onlyChanges [.tim, .cle] s0 v8 := by
    refine onlyChanges_then ?_ (takePulse_only ..) rfl
    exact onlyChanges_refl _ _
  refine onlyChanges_ite ?_ ?_
  · exact hv8
  · split
    · refine onlyChanges_then ?_ (modLoop_only ..) rfl
      exact hv8
    · refine onlyChanges_then ?_ (modCle_only ..) rfl
      refine onlyChanges_then ?_ (modLoop_only ..) rfl
      exact hv8

theorem loopComputeBegin_only (s : State) : onlyChanges [.cle] s (loopComputeBegin s) := by
  unfold loopComputeBegin
  refine onlyChanges_ite ?_ ?_
  · exact onlyChanges_refl _ _
  · split
    · exact onlyChanges_refl _ _
    · refine onlyChanges_then ?_ (modLoop_only ..) rfl
      refine onlyChanges_then ?_ (modCle_only ..) rfl
      exact onlyChanges_refl _ _

theorem lawRun_only (s : State) (n : Nat) (m : LoopSample) : onlyChanges [.free] s (lawRun s n m).2 := by
  unfold lawRun
  extract_lets v9
  split
  split
  · split
    dsimp -zeta only
    refine onlyChanges_snd (by assumption) ?_
    refine onlyChanges_then ?_ (drawBelow_only ..) rfl
    exact onlyChanges_refl _ _
  · split
    · split
      dsimp -zeta only
      refine onlyChanges_snd (by assumption) ?_
      refine onlyChanges_then ?_ (drawBelow_only ..) rfl
      exact onlyChanges_refl _ _
    · dsimp -zeta only
      exact onlyChanges_refl _ _

theorem loopComputeFinish_only (s : State) : onlyChanges [.free, .cle] s (loopComputeFinish s) := by
  unfold loopComputeFinish
  split
  · exact onlyChanges_refl _ _
  · extract_lets v10
    have hv10 : onlyChanges [.free, .cle] s v10 := by
      refine onlyChanges_then ?_ (modCle_only ..) rfl
      exact onlyChanges_refl _ _
    split
    · exact hv10
    · refine onlyChanges_ite ?_ ?_
      · exact hv10
      · split
        refine onlyChanges_then ?_ (modLoop_only ..) rfl
        refine onlyChanges_snd (by assumption) ?_
        refine onlyChanges_then ?_ (lawRun_only ..) rfl
        exact hv10

theorem loopDrive_only (s : State) (dest : Nat) (u : Int) : onlyChanges [.regs] s (loopDrive s dest u) := by
  unfold loopDrive
  refine onlyChanges_ite ?_ ?_
  · refine onlyChanges_then ?_ (setRegAt_only ..) rfl
    exact onlyChanges_refl _ _
  · refine onlyChanges_ite ?_ ?_
    · refine onlyChanges_then ?_ (setRegAt_only ..) rfl
      exact onlyChanges_refl _ _
    · exact onlyChanges_refl _ _

theorem loopCommitSample_only (s : State) (n : Nat) (m : LoopSample) (r : LoopResult) : onlyChanges [.out, .free, .regs, .flt, .saf, .pwr, .hif, .bld, .lanes, .cle] s (loopCommitSample s n m r) := by
  unfold loopCommitSample
  extract_lets v11 v12 v13 v14 v15 v16 v17 v18 v19 v20 v21
  have hv18 : onlyChanges [.out, .free, .regs, .flt, .saf, .pwr, .hif, .bld, .lanes, .cle] s v18 := by
    refine onlyChanges_then ?_ (loopDrive_only ..) rfl
    exact onlyChanges_refl _ _
  have hv19 : onlyChanges [.out, .free, .regs, .flt, .saf, .pwr, .hif, .bld, .lanes, .cle] s v19 := by
    refine onlyChanges_then ?_ (modLoop_only ..) rfl
    exact hv18
  have hv20 : onlyChanges [.out, .free, .regs, .flt, .saf, .pwr, .hif, .bld, .lanes, .cle] s v20 := by
    refine onlyChanges_ite ?_ ?_
    · refine onlyChanges_then ?_ (raise_only ..) rfl
      exact hv19
    · exact hv19
  have hv21 : onlyChanges [.out, .free, .regs, .flt, .saf, .pwr, .hif, .bld, .lanes, .cle] s v21 := by
    refine onlyChanges_ite ?_ ?_
    · refine onlyChanges_then ?_ (raise_only ..) rfl
      exact hv20
    · exact hv20
  refine onlyChanges_ite ?_ ?_
  · refine onlyChanges_then ?_ (raise_only ..) rfl
    exact hv21
  · exact hv21

theorem loopOverrun_only (s : State) (n : Nat) : onlyChanges [.out, .free, .flt, .saf, .pwr, .hif, .bld, .lanes, .cle] s (loopOverrun s n) := by
  unfold loopOverrun
  extract_lets v22 v23 v24
  have hv23 : onlyChanges [.out, .free, .flt, .saf, .pwr, .hif, .bld, .lanes, .cle] s v23 := by
    refine onlyChanges_then ?_ (modLoop_only ..) rfl
    exact onlyChanges_refl _ _
  have hv24 : onlyChanges [.out, .free, .flt, .saf, .pwr, .hif, .bld, .lanes, .cle] s v24 := by
    refine onlyChanges_then ?_ (modCle_only ..) rfl
    exact hv23
  refine onlyChanges_ite ?_ ?_
  · refine onlyChanges_then ?_ (raise_only ..) rfl
    exact hv24
  · exact hv24

theorem loopOutputNow_only (s : State) (n : Nat) : onlyChanges [.out, .free, .regs, .flt, .saf, .pwr, .hif, .bld, .lanes, .cle] s (loopOutputNow s n) := by
  unfold loopOutputNow
  refine onlyChanges_ite ?_ ?_
  · exact onlyChanges_refl _ _
  · split
    · exact onlyChanges_refl _ _
    · split
      · refine onlyChanges_then ?_ (loopCommitSample_only ..) rfl
        exact onlyChanges_refl _ _
      · refine onlyChanges_then ?_ (loopOverrun_only ..) rfl
        exact onlyChanges_refl _ _

theorem cleRefuse_only (s : State) (n : Nat) (reason : Nat) : onlyChanges [.cle] s (cleRefuse s n reason) := by
  unfold cleRefuse
  refine onlyChanges_then ?_ (modCle_only ..) rfl
  exact onlyChanges_refl _ _

theorem writeLoopCtrl_only (s : State) (n : Nat) (v : Word) : onlyChanges [.regs, .cle] s (writeLoopCtrl s n v) := by
  unfold writeLoopCtrl
  extract_lets v25 v26
  have hv26 : onlyChanges [.regs, .cle] s v26 := by
    refine onlyChanges_ite ?_ ?_
    · refine onlyChanges_then ?_ (modLoop_only ..) rfl
      exact onlyChanges_refl _ _
    · exact onlyChanges_refl _ _
  refine onlyChanges_ite ?_ ?_
  · refine onlyChanges_ite ?_ ?_
    · refine onlyChanges_ite ?_ ?_
      · exact hv26
      · refine onlyChanges_then ?_ (cleRefuse_only ..) rfl
        exact hv26
    · refine onlyChanges_then ?_ (setRegAt_only ..) rfl
      refine onlyChanges_ite ?_ ?_
      · exact hv26
      · refine onlyChanges_then ?_ (cleRefuse_only ..) rfl
        exact hv26
  · refine onlyChanges_ite ?_ ?_
    · split
      · refine onlyChanges_then ?_ (cleRefuse_only ..) rfl
        refine onlyChanges_then ?_ (setRegAt_only ..) rfl
        exact hv26
      · refine onlyChanges_then ?_ (modLoop_only ..) rfl
        refine onlyChanges_then ?_ (setRegAt_only ..) rfl
        refine onlyChanges_then ?_ (setRegAt_only ..) rfl
        exact hv26
    · refine onlyChanges_then ?_ (setRegAt_only ..) rfl
      exact hv26

theorem writeLoopTime_only (s : State) (n : Nat) (off : Nat) (v : Word) : onlyChanges [.regs, .cle] s (writeLoopTime s n off v) := by
  unfold writeLoopTime
  refine onlyChanges_ite ?_ ?_
  · refine onlyChanges_then ?_ (cleRefuse_only ..) rfl
    exact onlyChanges_refl _ _
  · refine onlyChanges_then ?_ (setRegAt_only ..) rfl
    exact onlyChanges_refl _ _

theorem writeCleCommit_only (s : State) (v : Word) : onlyChanges [.cle] s (writeCleCommit s v) := by
  unfold writeCleCommit
  refine foldl_only ?_ (fun t27 a27 => ?_)
  · exact onlyChanges_refl _ _
  · refine onlyChanges_ite ?_ ?_
    · refine onlyChanges_then ?_ (modLoop_only ..) rfl
      exact onlyChanges_refl _ _
    · exact onlyChanges_refl _ _

theorem writeAdcCtrl_only (s : State) (v : Word) : onlyChanges [.regs, .cle] s (writeAdcCtrl s v) := by
  unfold writeAdcCtrl
  refine foldl_only ?_ (fun t28 a28 => ?_)
  · exact onlyChanges_refl _ _
  · extract_lets v29 v30 v31
    refine onlyChanges_ite ?_ ?_
    · refine onlyChanges_then ?_ (setRegAt_only ..) rfl
      exact onlyChanges_refl _ _
    · split
      · refine onlyChanges_then ?_ (cleRefuse_only ..) rfl
        exact onlyChanges_refl _ _
      · refine onlyChanges_then ?_ (setRegAt_only ..) rfl
        exact onlyChanges_refl _ _

theorem writeSetpoint_only (s : State) (n : Nat) (v : Word) : onlyChanges [.regs, .cle] s (writeSetpoint s n v) := by
  unfold writeSetpoint
  refine onlyChanges_ite ?_ ?_
  · refine onlyChanges_ite ?_ ?_
    · refine onlyChanges_then ?_ (modCle_only ..) rfl
      exact onlyChanges_refl _ _
    · refine onlyChanges_then ?_ (setRegAt_only ..) rfl
      exact onlyChanges_refl _ _
  · refine onlyChanges_ite ?_ ?_
    · refine onlyChanges_then ?_ (modCle_only ..) rfl
      exact onlyChanges_refl _ _
    · refine onlyChanges_then ?_ (setRegAt_only ..) rfl
      exact onlyChanges_refl _ _

theorem totalArrives_only (s : State) (h : Head) : onlyChanges [.cle] s (totalArrives s h) := by
  unfold totalArrives
  refine onlyChanges_ite ?_ ?_
  · exact onlyChanges_refl _ _
  · split
    · exact onlyChanges_refl _ _
    · refine onlyChanges_then ?_ (modCle_only ..) rfl
      exact onlyChanges_refl _ _

theorem adcStart_only (s0 : State) (c : Nat) : onlyChanges [.tim, .cle] s0 (adcStart s0 c) := by
  unfold adcStart
  extract_lets v32
  have hv32 : onlyChanges [.tim, .cle] s0 v32 := by
    refine onlyChanges_then ?_ (takePulse_only ..) rfl
    exact onlyChanges_refl _ _
  refine onlyChanges_ite ?_ ?_
  · exact hv32
  · refine onlyChanges_then ?_ (modAdc_only ..) rfl
    exact hv32

theorem adcEnd_only (s : State) (c : Nat) (code : Half) : onlyChanges [.cle] s (adcEnd s c code) := by
  unfold adcEnd
  refine onlyChanges_ite ?_ ?_
  · exact onlyChanges_refl _ _
  · refine onlyChanges_then ?_ (modAdc_only ..) rfl
    exact onlyChanges_refl _ _

theorem setpStart_only (s : State) (n : Nat) : onlyChanges [.cle] s (setpStart s n) := by
  unfold setpStart
  refine onlyChanges_ite ?_ ?_
  · exact onlyChanges_refl _ _
  · extract_lets v33
    refine onlyChanges_then ?_ (modCle_only ..) rfl
    exact onlyChanges_refl _ _

theorem imuStart_only (s0 : State) : onlyChanges [.out, .tim, .cle] s0 (imuStart s0) := by
  unfold imuStart
  extract_lets v34
  have hv34 : onlyChanges [.out, .tim, .cle] s0 v34 := by
    refine onlyChanges_then ?_ (takePulse_only ..) rfl
    exact onlyChanges_refl _ _
  refine onlyChanges_ite ?_ ?_
  · exact hv34
  · refine onlyChanges_ite ?_ ?_
    · refine onlyChanges_then ?_ (modCle_only ..) rfl
      exact hv34
    · refine onlyChanges_then ?_ (emit_only ..) rfl
      refine onlyChanges_then ?_ (modCle_only ..) rfl
      exact hv34

theorem drawBytes_only (s : State) (x1 : Nat) : onlyChanges [.free] s (drawBytes s x1).2 := by
  induction x1 generalizing s with
  | zero => exact onlyChanges_refl _ _
  | succ n ih =>
    unfold drawBytes
    exact onlyChanges_trans (drawBelow_only s 256) (ih _)

theorem imuEnd_only (s : State) (data : List Byte) : onlyChanges [.out, .free, .flt, .saf, .pwr, .hif, .bld, .lanes, .cle] s (imuEnd s data) := by
  unfold imuEnd
  refine onlyChanges_ite ?_ ?_
  · exact onlyChanges_refl _ _
  · extract_lets v35
    split
    extract_lets v36 v37
    have hv37 : onlyChanges [.out, .free, .flt, .saf, .pwr, .hif, .bld, .lanes, .cle] s v37 := by
      refine onlyChanges_then ?_ (modCle_only ..) rfl
      refine onlyChanges_snd (by assumption) ?_
      refine onlyChanges_then ?_ (drawBytes_only ..) rfl
      exact onlyChanges_refl _ _
    refine onlyChanges_ite ?_ ?_
    · refine onlyChanges_then ?_ (setLevel_only ..) rfl
      refine foldl_only ?_ (fun t38 a38 => ?_)
      · refine onlyChanges_then ?_ (modCle_only ..) rfl
        exact hv37
      · refine onlyChanges_then ?_ (modLoop_only ..) rfl
        exact onlyChanges_refl _ _
    · refine onlyChanges_then ?_ (setLevel_only ..) rfl
      refine onlyChanges_then ?_ (modCle_only ..) rfl
      exact hv37

theorem writeLen_only (s : State) (v : Word) : onlyChanges [.regs] s (writeLen s v) := by
  unfold writeLen
  refine onlyChanges_then ?_ (setRegAt_only ..) rfl
  exact onlyChanges_refl _ _

theorem modTim_only (s : State) (f : Tim → Tim) : onlyChanges [.tim] s (modTim s f) := by
  refine ⟨rfl, fun p h => ?_⟩
  cases p <;> first | rfl | exact ⟨rfl, rfl⟩ | exact ⟨rfl, rfl, rfl⟩ | exact absurd (by decide) h

theorem endHoldover_only (s : State) : onlyChanges [.out, .free, .flt, .saf, .pwr, .hif, .bld, .lanes, .tim] s (endHoldover s) := by
  unfold endHoldover
  refine onlyChanges_then ?_ (setLevel_only ..) rfl
  refine onlyChanges_then ?_ (modTim_only ..) rfl
  exact onlyChanges_refl _ _

theorem discipline_only (s : State) : onlyChanges [.out, .free, .flt, .saf, .pwr, .hif, .bld, .lanes, .tim] s (discipline s) := by
  unfold discipline
  refine onlyChanges_ite ?_ ?_
  · refine onlyChanges_then ?_ (endHoldover_only ..) rfl
    exact onlyChanges_refl _ _
  · exact onlyChanges_refl _ _

theorem holdoverNow_only (s : State) : onlyChanges [.out, .free, .flt, .saf, .pwr, .hif, .bld, .lanes, .tim] s (holdoverNow s) := by
  unfold holdoverNow
  refine onlyChanges_ite ?_ ?_
  · refine onlyChanges_then ?_ (setLevel_only ..) rfl
    refine onlyChanges_then ?_ (modTim_only ..) rfl
    exact onlyChanges_refl _ _
  · exact onlyChanges_refl _ _

theorem writeHold_only (s : State) (v : Word) : onlyChanges [.out, .free, .regs, .flt, .saf, .pwr, .hif, .bld, .lanes, .tim] s (writeHold s v) := by
  unfold writeHold
  extract_lets v39 v40
  have hv40 : onlyChanges [.out, .free, .regs, .flt, .saf, .pwr, .hif, .bld, .lanes, .tim] s v40 := by
    refine onlyChanges_ite ?_ ?_
    · refine onlyChanges_then ?_ (setRegAt_only ..) rfl
      exact onlyChanges_refl _ _
    · exact onlyChanges_refl _ _
  refine onlyChanges_ite ?_ ?_
  · refine onlyChanges_ite ?_ ?_
    · refine onlyChanges_then ?_ (endHoldover_only ..) rfl
      exact hv40
    · exact hv40
  · exact hv40

theorem timRefuse_only (s : State) : onlyChanges [.tim] s (timRefuse s) := by
  unfold timRefuse
  refine onlyChanges_then ?_ (modTim_only ..) rfl
  exact onlyChanges_refl _ _

theorem writeIncrFrac_only (s : State) (v : Word) : onlyChanges [.out, .free, .regs, .flt, .saf, .pwr, .hif, .bld, .lanes, .tim] s (writeIncrFrac s v) := by
  unfold writeIncrFrac
  extract_lets v41
  refine onlyChanges_ite ?_ ?_
  · refine onlyChanges_then ?_ (discipline_only ..) rfl
    refine onlyChanges_then ?_ (modTim_only ..) rfl
    refine onlyChanges_then ?_ (setRegAt_only ..) rfl
    exact onlyChanges_refl _ _
  · refine onlyChanges_then ?_ (timRefuse_only ..) rfl
    exact onlyChanges_refl _ _

theorem writeSlewRate_only (s : State) (v : Word) : onlyChanges [.regs, .tim] s (writeSlewRate s v) := by
  unfold writeSlewRate
  refine onlyChanges_ite ?_ ?_
  · refine onlyChanges_then ?_ (setRegAt_only ..) rfl
    exact onlyChanges_refl _ _
  · refine onlyChanges_then ?_ (timRefuse_only ..) rfl
    exact onlyChanges_refl _ _

theorem trigSet_only (s : State) (n : Nat) : onlyChanges [.tim] s (trigSet s n) := by
  unfold trigSet
  extract_lets v42 v43
  refine onlyChanges_then ?_ (modTrig_only ..) rfl
  exact onlyChanges_refl _ _

theorem trigArm_only (s : State) (n : Nat) : onlyChanges [.regs, .tim] s (trigArm s n) := by
  unfold trigArm
  extract_lets v44
  have hv44 : onlyChanges [.regs, .tim] s v44 := by
    refine onlyChanges_then ?_ (setRegAt_only ..) rfl
    exact onlyChanges_refl _ _
  refine onlyChanges_then ?_ (trigSet_only ..) rfl
  refine onlyChanges_then ?_ (modTrig_only ..) rfl
  exact hv44

theorem trigWaitOff_only (n : Nat) (s : State) (h : Head) : onlyChanges [.tg] s (trigWaitOff n s h) := by
  unfold trigWaitOff
  extract_lets v45
  refine onlyChanges_ite ?_ ?_
  · refine onlyChanges_then ?_ (modTg_only ..) rfl
    exact onlyChanges_refl _ _
  · exact onlyChanges_refl _ _

theorem trigStop_only (s : State) (n : Nat) : onlyChanges [.regs, .tg, .tim, .cle] s (trigStop s n) := by
  unfold trigStop
  refine foldl_only ?_ (fun t46 a46 => ?_)
  · refine onlyChanges_then ?_ (modTrig_only ..) rfl
    refine onlyChanges_then ?_ (setRegAt_only ..) rfl
    refine onlyChanges_then ?_ (loopsLeave_only ..) rfl
    exact onlyChanges_refl _ _
  · refine onlyChanges_then ?_ (trigWaitOff_only ..) rfl
    exact onlyChanges_refl _ _

theorem writeTrigCtrl_only (s : State) (n : Nat) (v : Word) : onlyChanges [.regs, .tg, .tim, .cle] s (writeTrigCtrl s n v) := by
  unfold writeTrigCtrl
  refine onlyChanges_ite ?_ ?_
  · refine onlyChanges_then ?_ (trigArm_only ..) rfl
    exact onlyChanges_refl _ _
  · refine onlyChanges_ite ?_ ?_
    · exact onlyChanges_refl _ _
    · refine onlyChanges_then ?_ (trigStop_only ..) rfl
      exact onlyChanges_refl _ _

theorem writePps_only (s : State) (v : Word) : onlyChanges [.out, .regs, .tim] s (writePps s v) := by
  unfold writePps
  extract_lets v47 v48
  have hv48 : onlyChanges [.out, .regs, .tim] s v48 := by
    refine onlyChanges_then ?_ (setRegAt_only ..) rfl
    exact onlyChanges_refl _ _
  refine onlyChanges_ite ?_ ?_
  · refine onlyChanges_then ?_ (emit_only ..) rfl
    refine onlyChanges_then ?_ (modTim_only ..) rfl
    exact hv48
  · exact hv48

theorem trigDeliver_only (s0 : State) (n : Nat) : onlyChanges [.out, .pwr, .lanes, .tim] s0 (trigDeliver s0 n) := by
  unfold trigDeliver
  extract_lets v49 v50 v51
  have hv49 : onlyChanges [.out, .pwr, .lanes, .tim] s0 v49 := by
    refine foldl_only ?_ (fun t52 a52 => ?_)
    · exact onlyChanges_refl _ _
    · refine onlyChanges_then ?_ (sendPulse_only ..) rfl
      exact onlyChanges_refl _ _
  have hv50 : onlyChanges [.out, .pwr, .lanes, .tim] s0 v50 := by
    refine onlyChanges_then ?_ (emit_only ..) rfl
    refine onlyChanges_then ?_ (modTrig_only ..) rfl
    exact hv49
  have hv51 : onlyChanges [.out, .pwr, .lanes, .tim] s0 v51 := by
    refine onlyChanges_ite ?_ ?_
    · refine onlyChanges_then ?_ (emit_only ..) rfl
      refine onlyChanges_then ?_ (modTim_only ..) rfl
      exact hv50
    · exact hv50
  refine onlyChanges_ite ?_ ?_
  · refine onlyChanges_then ?_ (wake_only ..) rfl
    exact hv51
  · exact hv51

theorem trigFire_only (s : State) (n : Nat) : onlyChanges [.out, .pwr, .lanes, .tim] s (trigFire s n) := by
  unfold trigFire
  refine onlyChanges_ite ?_ ?_
  · exact onlyChanges_refl _ _
  · split
    · exact onlyChanges_refl _ _
    · extract_lets v0 v1
      have hv0 : onlyChanges [.out, .pwr, .lanes, .tim] s v0 := by
        refine onlyChanges_then ?_ (modTim_only ..) rfl
        exact onlyChanges_refl _ _
      refine onlyChanges_then ?_ (trigDeliver_only ..) rfl
      refine onlyChanges_then ?_ (modTrig_only ..) rfl
      exact hv0

theorem ppsEnds_only (s : State) : onlyChanges [.out, .tim] s (ppsEnds s) := by
  unfold ppsEnds
  refine onlyChanges_ite ?_ ?_
  · refine onlyChanges_then ?_ (emit_only ..) rfl
    refine onlyChanges_then ?_ (modTim_only ..) rfl
    exact onlyChanges_refl _ _
  · exact onlyChanges_refl _ _

theorem trigsJump_only (s : State) (old : Nat) : onlyChanges [.out, .pwr, .lanes, .tim] s (trigsJump s old) := by
  unfold trigsJump
  refine foldl_only ?_ (fun t53 a53 => ?_)
  · exact onlyChanges_refl _ _
  · extract_lets v54 v55
    have hv55 : onlyChanges [.out, .pwr, .lanes, .tim] t53 v55 := by
      refine onlyChanges_then ?_ (trigSet_only ..) rfl
      exact onlyChanges_refl _ _
    refine onlyChanges_ite ?_ ?_
    · refine onlyChanges_then ?_ (trigDeliver_only ..) rfl
      exact hv55
    · exact hv55

theorem stepTo_only (s : State) (c : Nat) : onlyChanges [.out, .free, .flt, .saf, .pwr, .hif, .bld, .lanes, .tim] s (stepTo s c) := by
  unfold stepTo
  extract_lets v56
  have hv56 : onlyChanges [.out, .free, .flt, .saf, .pwr, .hif, .bld, .lanes, .tim] s v56 := by
    refine onlyChanges_then ?_ (modTim_only ..) rfl
    exact onlyChanges_refl _ _
  refine onlyChanges_then ?_ (trigsJump_only ..) rfl
  refine onlyChanges_then ?_ (discipline_only ..) rfl
  refine onlyChanges_then ?_ (raise_only ..) rfl
  exact hv56

theorem timSet_only (s : State) : onlyChanges [.out, .free, .flt, .saf, .pwr, .hif, .bld, .lanes, .tim] s (timSet s) := by
  unfold timSet
  extract_lets v57
  refine onlyChanges_then ?_ (stepTo_only ..) rfl
  refine onlyChanges_then ?_ (modTim_only ..) rfl
  exact onlyChanges_refl _ _

theorem timStep_only (s : State) : onlyChanges [.out, .free, .flt, .saf, .pwr, .hif, .bld, .lanes, .tim] s (timStep s) := by
  unfold timStep
  refine onlyChanges_ite ?_ ?_
  · refine onlyChanges_then ?_ (stepTo_only ..) rfl
    exact onlyChanges_refl _ _
  · refine onlyChanges_then ?_ (timRefuse_only ..) rfl
    exact onlyChanges_refl _ _

theorem timSlew_only (s : State) : onlyChanges [.out, .free, .flt, .saf, .pwr, .hif, .bld, .lanes, .tim] s (timSlew s) := by
  unfold timSlew
  refine onlyChanges_then ?_ (discipline_only ..) rfl
  refine onlyChanges_then ?_ (modTim_only ..) rfl
  exact onlyChanges_refl _ _

theorem timCancel_only (s : State) : onlyChanges [.tim] s (timCancel s) := by
  unfold timCancel
  refine onlyChanges_then ?_ (modTim_only ..) rfl
  exact onlyChanges_refl _ _

theorem writeTimCmd_only (s : State) (v : Word) : onlyChanges [.out, .free, .flt, .saf, .pwr, .hif, .bld, .lanes, .tim] s (writeTimCmd s v) := by
  unfold writeTimCmd
  split
  · refine onlyChanges_then ?_ (timSet_only ..) rfl
    exact onlyChanges_refl _ _
  · refine onlyChanges_then ?_ (timStep_only ..) rfl
    exact onlyChanges_refl _ _
  · refine onlyChanges_then ?_ (timSlew_only ..) rfl
    exact onlyChanges_refl _ _
  · refine onlyChanges_then ?_ (timCancel_only ..) rfl
    exact onlyChanges_refl _ _
  · refine onlyChanges_then ?_ (discipline_only ..) rfl
    exact onlyChanges_refl _ _
  · exact onlyChanges_refl _ _

theorem slewEnds_only (s : State) : onlyChanges [.tim] s (slewEnds s) := by
  unfold slewEnds
  extract_lets v58
  refine onlyChanges_ite ?_ ?_
  · exact onlyChanges_refl _ _
  · refine onlyChanges_then ?_ (modTim_only ..) rfl
    exact onlyChanges_refl _ _

theorem latchNow_only (s : State) : onlyChanges [.tim] s (latchNow s) := by
  unfold latchNow
  refine onlyChanges_then ?_ (modTim_only ..) rfl
  exact onlyChanges_refl _ _

theorem modCap_only (s : State) (n : Nat) (f : Cap → Cap) : onlyChanges [.tim] s (modCap s n f) := by
  refine ⟨rfl, fun p h => ?_⟩
  cases p <;> first | rfl | exact ⟨rfl, rfl⟩ | exact ⟨rfl, rfl, rfl⟩ | exact absurd (by decide) h

theorem captureNs_only (s : State) (src : Nat) : onlyChanges [.free] s (captureNs s src).2 := by
  unfold captureNs
  split
  · dsimp -zeta only
    exact onlyChanges_refl _ _
  · split
    split
    · dsimp -zeta only
      refine onlyChanges_snd (by assumption) ?_
      refine onlyChanges_then ?_ (drawBelow_only ..) rfl
      exact onlyChanges_refl _ _
    · dsimp -zeta only
      refine onlyChanges_snd (by assumption) ?_
      refine onlyChanges_then ?_ (drawBelow_only ..) rfl
      exact onlyChanges_refl _ _

theorem captureNow_only (s : State) (n : Nat) (rising : Bool) : onlyChanges [.out, .free, .hif, .tim] s (captureNow s n rising) := by
  unfold captureNow
  extract_lets v59 v60
  refine onlyChanges_ite ?_ ?_
  · exact onlyChanges_refl _ _
  · split
    extract_lets v61
    refine onlyChanges_ite ?_ ?_
    · refine onlyChanges_then ?_ (modCap_only ..) rfl
      refine onlyChanges_snd (by assumption) ?_
      refine onlyChanges_then ?_ (captureNs_only ..) rfl
      exact onlyChanges_refl _ _
    · refine onlyChanges_ite ?_ ?_
      · refine onlyChanges_then ?_ (signalMsix_only ..) rfl
        refine onlyChanges_then ?_ (modCap_only ..) rfl
        refine onlyChanges_snd (by assumption) ?_
        refine onlyChanges_then ?_ (captureNs_only ..) rfl
        exact onlyChanges_refl _ _
      · refine onlyChanges_then ?_ (modCap_only ..) rfl
        refine onlyChanges_snd (by assumption) ?_
        refine onlyChanges_then ?_ (captureNs_only ..) rfl
        exact onlyChanges_refl _ _

theorem capturePops_only (s : State) (n : Nat) : onlyChanges [.tim] s (capturePops s n) := by
  unfold capturePops
  split
  · exact onlyChanges_refl _ _
  · refine onlyChanges_then ?_ (modCap_only ..) rfl
    exact onlyChanges_refl _ _

theorem idleEnters_only (s : State) : onlyChanges [.free, .pwr, .hif] s (idleEnters s) := by
  unfold idleEnters
  refine onlyChanges_ite ?_ ?_
  · refine onlyChanges_then ?_ (linkRests_only ..) rfl
    refine onlyChanges_then ?_ (modPwr_only ..) rfl
    exact onlyChanges_refl _ _
  · exact onlyChanges_refl _ _

theorem powerRequest_only (s : State) (target : Nat) (byTimer : Bool) : onlyChanges [.pwr] s (powerRequest s target byTimer) := by
  unfold powerRequest
  refine onlyChanges_ite ?_ ?_
  · refine onlyChanges_then ?_ (modPwr_only ..) rfl
    exact onlyChanges_refl _ _
  · refine onlyChanges_then ?_ (modPwr_only ..) rfl
    exact onlyChanges_refl _ _

theorem timerRequest_only (s : State) (target : Nat) : onlyChanges [.pwr] s (timerRequest s target) := by
  unfold timerRequest
  refine onlyChanges_ite ?_ ?_
  · refine onlyChanges_then ?_ (powerRequest_only ..) rfl
    exact onlyChanges_refl _ _
  · exact onlyChanges_refl _ _

theorem refuseEntry_only (s : State) (code : Nat) : onlyChanges [.out, .free, .flt, .saf, .pwr, .hif, .bld, .lanes] s (refuseEntry s code) := by
  unfold refuseEntry
  extract_lets v62
  have hv62 : onlyChanges [.out, .free, .flt, .saf, .pwr, .hif, .bld, .lanes] s v62 := by
    refine onlyChanges_then ?_ (modPwr_only ..) rfl
    refine onlyChanges_then ?_ (abortEntry_only ..) rfl
    exact onlyChanges_refl _ _
  refine onlyChanges_then ?_ (raise_only ..) rfl
  exact hv62

theorem sendPark_only (s : State) (h : Head) : onlyChanges [.out, .free, .lanes] s (sendPark s h) := by
  unfold sendPark
  refine onlyChanges_then ?_ (sendFour_only ..) rfl
  exact onlyChanges_refl _ _

theorem lanesOff_only (s : State) (ls : List Nat) : onlyChanges [.out, .free, .flt, .saf, .pwr, .rng, .hif, .bld, .lanes, .net] s (lanesOff s ls) := by
  unfold lanesOff
  refine foldl_only ?_ (fun t63 a63 => ?_)
  · exact onlyChanges_refl _ _
  · extract_lets v64
    refine onlyChanges_ite ?_ ?_
    · exact onlyChanges_refl _ _
    · refine onlyChanges_then ?_ (lowerLane_only ..) rfl
      refine onlyChanges_then ?_ (modPwr_only ..) rfl
      exact onlyChanges_refl _ _

theorem blockAgrees_only (s : State) (code : Nat) (target : Nat) : onlyChanges [.out, .free, .flt, .saf, .pwr, .rng, .hif, .bld, .lanes, .net] s (blockAgrees s code target) := by
  unfold blockAgrees
  split
  · refine onlyChanges_ite ?_ ?_
    · refine onlyChanges_then ?_ (modPwr_only ..) rfl
      exact onlyChanges_refl _ _
    · exact onlyChanges_refl _ _
  · refine onlyChanges_then ?_ (lanesOff_only ..) rfl
    refine foldl_only ?_ (fun t66 a66 => ?_)
    · exact onlyChanges_refl _ _
    · refine onlyChanges_then ?_ (sendPark_only ..) rfl
      exact onlyChanges_refl _ _
  · refine onlyChanges_then ?_ (lanesOff_only ..) rfl
    exact onlyChanges_refl _ _
  · exact onlyChanges_refl _ _

theorem askBlock_only (s : State) (code : Nat) (target : Nat) : onlyChanges [.pwr, .rng, .pxc, .kps] s (askBlock s code target) := by
  unfold askBlock
  extract_lets v65
  have hv65 : onlyChanges [.pwr, .rng, .pxc, .kps] s v65 := by
    refine onlyChanges_then ?_ (modPwr_only ..) rfl
    exact onlyChanges_refl _ _
  refine onlyChanges_ite ?_ ?_
  · refine onlyChanges_then ?_ (requestCheckpoint_only ..) rfl
    exact hv65
  · exact hv65

theorem noReturn_only (s : State) : onlyChanges [.pwr] s (noReturn s) := by
  unfold noReturn
  refine onlyChanges_then ?_ (modPwr_only ..) rfl
  exact onlyChanges_refl _ _

theorem allAgreed_only (s : State) : onlyChanges [.pwr] s (allAgreed s) := by
  unfold allAgreed
  refine onlyChanges_ite ?_ ?_
  · refine onlyChanges_then ?_ (modPwr_only ..) rfl
    exact onlyChanges_refl _ _
  · refine onlyChanges_then ?_ (noReturn_only ..) rfl
    refine onlyChanges_then ?_ (modPwr_only ..) rfl
    exact onlyChanges_refl _ _

theorem blockAnswers_only (s0 : State) : onlyChanges [.out, .free, .flt, .saf, .pwr, .rng, .hif, .bld, .pxc, .lanes, .net, .kps] s0 (blockAnswers s0) := by
  unfold blockAnswers
  extract_lets v67
  have hv67 : onlyChanges [.out, .free, .flt, .saf, .pwr, .rng, .hif, .bld, .pxc, .lanes, .net,   .kps] s0 v67 := by
    refine onlyChanges_ite ?_ ?_
    · refine onlyChanges_then ?_ (linkRests_only ..) rfl
      exact onlyChanges_refl _ _
    · exact onlyChanges_refl _ _
  refine onlyChanges_ite ?_ ?_
  · exact hv67
  · refine onlyChanges_ite ?_ ?_
    · refine onlyChanges_then ?_ (refuseEntry_only ..) rfl
      exact hv67
    · refine onlyChanges_ite ?_ ?_
      · exact hv67
      · split
        · refine onlyChanges_then ?_ (askBlock_only ..) rfl
          refine onlyChanges_then ?_ (modPwr_only ..) rfl
          refine onlyChanges_then ?_ (blockAgrees_only ..) rfl
          exact hv67
        · refine onlyChanges_then ?_ (allAgreed_only ..) rfl
          refine onlyChanges_then ?_ (modPwr_only ..) rfl
          refine onlyChanges_then ?_ (blockAgrees_only ..) rfl
          exact hv67

theorem askExpires_only (s : State) : onlyChanges [.out, .free, .flt, .saf, .pwr, .hif, .bld, .lanes] s (askExpires s) := by
  unfold askExpires
  refine onlyChanges_ite ?_ ?_
  · refine onlyChanges_then ?_ (refuseEntry_only ..) rfl
    exact onlyChanges_refl _ _
  · exact onlyChanges_refl _ _

theorem saveHeader_only (s : State) : onlyChanges [.free, .pwr] s (saveHeader s) := by
  unfold saveHeader
  split
  split
  refine onlyChanges_then ?_ (modPwr_only ..) rfl
  refine onlyChanges_snd (by assumption) ?_
  refine onlyChanges_then ?_ (drawBelow_only ..) rfl
  refine onlyChanges_snd (by assumption) ?_
  refine onlyChanges_then ?_ (drawBelow_only ..) rfl
  exact onlyChanges_refl _ _

theorem saveEnds_only (s : State) : onlyChanges [.free, .pwr] s (saveEnds s) := by
  unfold saveEnds
  refine onlyChanges_ite ?_ ?_
  · refine onlyChanges_then ?_ (noReturn_only ..) rfl
    refine onlyChanges_then ?_ (modPwr_only ..) rfl
    refine onlyChanges_then ?_ (saveHeader_only ..) rfl
    exact onlyChanges_refl _ _
  · exact onlyChanges_refl _ _

theorem netLost_only (s : State) : onlyChanges [.net] s (netLost s) := by
  unfold netLost
  refine foldl_only ?_ (fun t2 a2 => ?_)
  · refine onlyChanges_then ?_ (modNet_only ..) rfl
    exact onlyChanges_refl _ _
  · refine onlyChanges_then ?_ (modPort_only ..) rfl
    exact onlyChanges_refl _ _

theorem linkLost_only (s : State) : onlyChanges [.tbl] s (linkLost s) := by
  unfold linkLost
  refine foldl_only ?_ (fun t3 a3 => ?_)
  · exact onlyChanges_refl _ _
  · refine onlyChanges_then ?_ (modTbl_only ..) rfl
    refine foldl_only ?_ (fun t5 a5 => ?_)
    · exact onlyChanges_refl _ _
    · refine onlyChanges_then ?_ (modTile_only ..) rfl
      exact onlyChanges_refl _ _

theorem pixLost_only (s : State) : onlyChanges [.pxc] s (pixLost s) := by
  unfold pixLost
  refine foldl_only ?_ (fun t4 a4 => ?_)
  · exact onlyChanges_refl _ _
  · refine onlyChanges_then ?_ (modPxc_only ..) rfl
    exact onlyChanges_refl _ _

theorem ctrlLost_only (s : State) : onlyChanges [.flt, .tim, .cle, .lce, .hkp] s (ctrlLost s) := by
  unfold ctrlLost
  extract_lets v6 v7
  have hv6 : onlyChanges [.flt, .tim, .cle, .lce, .hkp] s v6 := by
    refine foldl_only ?_ (fun t8 a8 => ?_)
    · exact onlyChanges_refl _ _
    · refine onlyChanges_then ?_ (modCap_only ..) rfl
      exact onlyChanges_refl _ _
  have hv7 : onlyChanges [.flt, .tim, .cle, .lce, .hkp] s v7 := by
    refine foldl_only ?_ (fun t11 a11 => ?_)
    · exact hv6
    · refine onlyChanges_then ?_ (modChain_only ..) rfl
      exact onlyChanges_refl _ _
  refine raw_flt_tim_cle_hkp ?_ rfl
  exact hv7

theorem memLost_only (s : State) (keeps : Nat → Bool) : onlyChanges [.mem, .lmm] s (memLost s keeps) := by
  unfold memLost
  extract_lets v7
  refine onlyChanges_then ?_ (modLmm_only ..) rfl
  refine raw_mem ?_ rfl
  exact onlyChanges_refl _ _

theorem entryLosses_only (s : State) (target : Nat) : onlyChanges [.mem, .flt, .lmm, .pxc, .tbl, .tim, .cle, .lce, .hkp] s (entryLosses s target) := by
  unfold entryLosses
  refine onlyChanges_ite ?_ ?_
  · exact onlyChanges_refl _ _
  · extract_lets v9 v10
    have hv9 : onlyChanges [.mem, .flt, .lmm, .pxc, .tbl, .tim, .cle, .lce, .hkp] s v9 := by
      refine onlyChanges_then ?_ (memLost_only ..) rfl
      refine onlyChanges_then ?_ (linkLost_only ..) rfl
      exact onlyChanges_refl _ _
    have hv10 : onlyChanges [.mem, .flt, .lmm, .pxc, .tbl, .tim, .cle, .lce, .hkp] s v10 := by
      refine onlyChanges_ite ?_ ?_
      · refine onlyChanges_then ?_ (pixLost_only ..) rfl
        exact hv9
      · exact hv9
    refine onlyChanges_ite ?_ ?_
    · refine onlyChanges_then ?_ (ctrlLost_only ..) rfl
      exact hv10
    · exact hv10

theorem entryEnds_only (s : State) : onlyChanges [.out, .free, .regs, .mem, .flt, .saf, .rst, .pwr, .rng, .hif, .lmm, .ly, .bld, .pxc, .tg, .lanes, .tbl, .net, .tim, .cle, .lce, .hkp, .kps] s (entryEnds s) := by
  unfold entryEnds
  refine onlyChanges_ite ?_ ?_
  · exact onlyChanges_refl _ _
  · extract_lets v12 v13 v14 v15 v16
    have hv13 : onlyChanges [.out, .free, .regs, .mem, .flt, .saf, .rst, .pwr, .rng, .hif, .lmm,   .ly, .bld, .pxc, .tg, .lanes, .tbl, .net, .tim, .cle, .lce, .hkp,   .kps] s v13 := by
      refine onlyChanges_then ?_ (entryLosses_only ..) rfl
      exact onlyChanges_refl _ _
    have hv14 : onlyChanges [.out, .free, .regs, .mem, .flt, .saf, .rst, .pwr, .rng, .hif, .lmm,   .ly, .bld, .pxc, .tg, .lanes, .tbl, .net, .tim, .cle, .lce, .hkp,   .kps] s v14 := by
      refine onlyChanges_ite ?_ ?_
      · refine onlyChanges_then ?_ (hostDown_only ..) rfl
        refine onlyChanges_then ?_ (modPwr_only ..) rfl
        exact hv13
      · exact hv13
    have hv15 : onlyChanges [.out, .free, .regs, .mem, .flt, .saf, .rst, .pwr, .rng, .hif, .lmm,   .ly, .bld, .pxc, .tg, .lanes, .tbl, .net, .tim, .cle, .lce, .hkp,   .kps] s v15 := by
      refine onlyChanges_then ?_ (modPwr_only ..) rfl
      exact hv14
    have hv16 : onlyChanges [.out, .free, .regs, .mem, .flt, .saf, .rst, .pwr, .rng, .hif, .lmm,   .ly, .bld, .pxc, .tg, .lanes, .tbl, .net, .tim, .cle, .lce, .hkp,   .kps] s v16 := by
      refine onlyChanges_ite ?_ ?_
      · refine onlyChanges_then ?_ (netLost_only ..) rfl
        exact hv15
      · exact hv15
    refine onlyChanges_ite ?_ ?_
    · refine onlyChanges_then ?_ (kpsTake_only ..) rfl
      exact hv16
    · refine onlyChanges_then ?_ (beginExit_only ..) rfl
      exact hv16

theorem domainGood_only (s : State) (d : Nat) : onlyChanges [.out, .free, .flt, .saf, .rst, .pwr, .rng, .hif, .bld, .lanes, .kps] s (domainGood s d) := by
  unfold domainGood
  refine onlyChanges_ite ?_ ?_
  · extract_lets v17
    have hv17 : onlyChanges [.out, .free, .flt, .saf, .rst, .pwr, .rng, .hif, .bld, .lanes, .kps] s v17 := by
      refine onlyChanges_then ?_ (hostCheck_only ..) rfl
      refine onlyChanges_then ?_ (modPwr_only ..) rfl
      exact onlyChanges_refl _ _
    refine onlyChanges_ite ?_ ?_
    · refine onlyChanges_then ?_ (raiseOwed_only ..) rfl
      exact hv17
    · refine onlyChanges_ite ?_ ?_
      · refine onlyChanges_then ?_ (kpsTake_only ..) rfl
        exact hv17
      · exact hv17
  · exact onlyChanges_refl _ _

theorem domainMissed_only (s : State) (d : Nat) : onlyChanges [.out, .free, .flt, .saf, .pwr, .hif, .bld, .lanes] s (domainMissed s d) := by
  unfold domainMissed
  refine onlyChanges_ite ?_ ?_
  · extract_lets v18
    have hv18 : onlyChanges [.out, .free, .flt, .saf, .pwr, .hif, .bld, .lanes] s v18 := by
      refine onlyChanges_ite ?_ ?_
      · refine onlyChanges_then ?_ (modPwr_only ..) rfl
        exact onlyChanges_refl _ _
      · refine onlyChanges_then ?_ (modPwr_only ..) rfl
        exact onlyChanges_refl _ _
    refine onlyChanges_then ?_ (raise_only ..) rfl
    exact hv18
  · exact onlyChanges_refl _ _

theorem domainRetried_only (s : State) (d : Nat) : onlyChanges [.pwr] s (domainRetried s d) := by
  unfold domainRetried
  refine onlyChanges_ite ?_ ?_
  · refine onlyChanges_then ?_ (modPwr_only ..) rfl
    exact onlyChanges_refl _ _
  · exact onlyChanges_refl _ _

theorem healthLost_only (s : State) (all : Bool) : onlyChanges [.mem] s (healthLost s all) := by
  unfold healthLost
  refine foldl_only ?_ (fun t19 a19 => ?_)
  · exact onlyChanges_refl _ _
  · extract_lets v20
    refine onlyChanges_ite ?_ ?_
    · exact onlyChanges_refl _ _
    · refine onlyChanges_then ?_ (memWrite_only ..) rfl
      exact onlyChanges_refl _ _

theorem extentLost_only (s : State) (all : Bool) (sl : Slot) : onlyChanges [.lmm] s (extentLost s all sl) := by
  unfold extentLost
  refine onlyChanges_ite ?_ ?_
  · exact onlyChanges_refl _ _
  · extract_lets v21 v22
    refine onlyChanges_then ?_ (modLmm_only ..) rfl
    exact onlyChanges_refl _ _

theorem saveLosses_only (s : State) (off : Bool) : onlyChanges [.out, .free, .regs, .mem, .flt, .saf, .pwr, .rng, .hif, .lmm, .shd, .bld, .pxc, .lanes, .kps, .cbl] s (saveLosses s off) := by
  unfold saveLosses
  extract_lets v23 v24
  have hv23 : onlyChanges [.out, .free, .regs, .mem, .flt, .saf, .pwr, .rng, .hif, .lmm, .shd,   .bld, .pxc, .lanes, .kps, .cbl] s v23 := by
    refine onlyChanges_then ?_ (healthLost_only ..) rfl
    refine onlyChanges_then ?_ (doseLoad_only ..) rfl
    refine onlyChanges_then ?_ (calibLoad_only ..) rfl
    exact onlyChanges_refl _ _
  have hv24 : onlyChanges [.out, .free, .regs, .mem, .flt, .saf, .pwr, .rng, .hif, .lmm, .shd,   .bld, .pxc, .lanes, .kps, .cbl] s v24 := by
    refine foldl_only ?_ (fun t31 a31 => ?_)
    · exact hv23
    · refine foldl_only ?_ (fun t32 a32 => ?_)
      · exact onlyChanges_refl _ _
      · refine onlyChanges_then ?_ (extentLost_only ..) rfl
        exact onlyChanges_refl _ _
  refine foldl_only ?_ (fun t33 a33 => ?_)
  · exact hv24
  · refine onlyChanges_then ?_ (modShd_only ..) rfl
    refine onlyChanges_then ?_ (modBld_only ..) rfl
    exact onlyChanges_refl _ _

theorem offLosses_only (s : State) : onlyChanges [.regs, .pwr, .tim] s (offLosses s) := by
  refine ⟨rfl, fun p h => ?_⟩
  cases p <;> first | rfl | exact ⟨rfl, rfl⟩ | exact ⟨rfl, rfl, rfl⟩ | exact absurd (by decide) h

theorem lanesBack_only (s : State) : onlyChanges [.out, .free, .regs, .flt, .saf, .pwr, .hif, .bld, .lanes, .tbl] s (lanesBack s) := by
  unfold lanesBack
  refine foldl_only ?_ (fun t25 a25 => ?_)
  · refine onlyChanges_then ?_ (lanesReturn_only ..) rfl
    exact onlyChanges_refl _ _
  · refine onlyChanges_ite ?_ ?_
    · refine onlyChanges_then ?_ (laneReaches_only ..) rfl
      exact onlyChanges_refl _ _
    · exact onlyChanges_refl _ _

theorem edgesReplay_only (s : State) (edges : List (Nat × Bool)) : onlyChanges [.out, .free, .hif, .tim] s (edgesReplay s edges) := by
  unfold edgesReplay
  refine foldl_only ?_ (fun t26 a26 => ?_)
  · exact onlyChanges_refl _ _
  · refine foldl_only ?_ (fun t27 a27 => ?_)
    · exact onlyChanges_refl _ _
    · refine onlyChanges_then ?_ (captureNow_only ..) rfl
      exact onlyChanges_refl _ _

theorem exitRuns_only (s : State) : onlyChanges [.out, .free, .regs, .flt, .saf, .rst, .pwr, .rng, .hif, .crc, .lmm, .bld, .pxc, .lanes, .tbl, .net, .tim, .cle, .lce, .hkp, .kps, .cbl] s (exitRuns s) := by
  unfold exitRuns
  extract_lets v28
  have hv28 : onlyChanges [.out, .free, .regs, .flt, .saf, .rst, .pwr, .rng, .hif, .crc, .lmm,   .bld, .pxc, .lanes, .tbl, .net, .tim, .cle, .lce, .hkp, .kps, .cbl] s v28 := by
    refine onlyChanges_then ?_ (modPwr_only ..) rfl
    refine onlyChanges_then ?_ (lanesBack_only ..) rfl
    exact onlyChanges_refl _ _
  refine onlyChanges_then ?_ (kpsTake_only ..) rfl
  refine onlyChanges_then ?_ (edgesReplay_only ..) rfl
  refine onlyChanges_then ?_ (rxFlush_only ..) rfl
  refine onlyChanges_then ?_ (rxFlush_only ..) rfl
  refine onlyChanges_then ?_ (hostCheck_only ..) rfl
  refine onlyChanges_then ?_ (deferredResets_only ..) rfl
  exact hv28

theorem exitEnds_only (s : State) (crcOk : Bool) : onlyChanges [.out, .free, .regs, .mem, .flt, .saf, .rst, .pwr, .rng, .hif, .crc, .glb, .lmm, .ly, .shd, .bld, .pxc, .tg, .lanes, .tbl, .net, .tim, .cle, .lce, .hkp, .kps, .cbl] s (exitEnds s crcOk) := by
  unfold exitEnds
  refine onlyChanges_ite ?_ ?_
  · exact onlyChanges_refl _ _
  · extract_lets v29 v30
    refine onlyChanges_ite ?_ ?_
    · refine onlyChanges_then ?_ (sourceAsserts_only ..) rfl
      refine onlyChanges_then ?_ (raise_only ..) rfl
      refine onlyChanges_then ?_ (modPwr_only ..) rfl
      exact onlyChanges_refl _ _
    · refine onlyChanges_then ?_ (exitRuns_only ..) rfl
      refine onlyChanges_ite ?_ ?_
      · refine onlyChanges_then ?_ (offLosses_only ..) rfl
        refine onlyChanges_ite ?_ ?_
        · refine onlyChanges_then ?_ (saveLosses_only ..) rfl
          refine onlyChanges_then ?_ (modPwr_only ..) rfl
          exact onlyChanges_refl _ _
        · exact onlyChanges_refl _ _
      · refine onlyChanges_ite ?_ ?_
        · refine onlyChanges_then ?_ (saveLosses_only ..) rfl
          refine onlyChanges_then ?_ (modPwr_only ..) rfl
          exact onlyChanges_refl _ _
        · exact onlyChanges_refl _ _

theorem writePwrCmd_only (s : State) (v : Word) : onlyChanges [.pwr, .lanes] s (writePwrCmd s v) := by
  unfold writePwrCmd
  split
  · refine onlyChanges_then ?_ (powerRequest_only ..) rfl
    exact onlyChanges_refl _ _
  · refine onlyChanges_then ?_ (powerRequest_only ..) rfl
    exact onlyChanges_refl _ _
  · refine onlyChanges_then ?_ (powerRequest_only ..) rfl
    exact onlyChanges_refl _ _
  · refine onlyChanges_then ?_ (wake_only ..) rfl
    exact onlyChanges_refl _ _
  · exact onlyChanges_refl _ _

theorem writePwrCtrl_only (s : State) (v : Word) : onlyChanges [.regs, .pwr] s (writePwrCtrl s v) := by
  unfold writePwrCtrl
  refine onlyChanges_ite ?_ ?_
  · refine onlyChanges_then ?_ (modPwr_only ..) rfl
    exact onlyChanges_refl _ _
  · refine onlyChanges_then ?_ (setRegAt_only ..) rfl
    exact onlyChanges_refl _ _

theorem wakeTimer_only (s : State) : onlyChanges [.regs, .pwr, .lanes] s (wakeTimer s) := by
  unfold wakeTimer
  refine onlyChanges_ite ?_ ?_
  · exact onlyChanges_refl _ _
  · refine onlyChanges_then ?_ (wake_only ..) rfl
    refine onlyChanges_then ?_ (setRegAt_only ..) rfl
    exact onlyChanges_refl _ _

theorem latchEdge_only (s : State) (pin : Nat) (rising : Bool) : onlyChanges [.pwr] s (latchEdge s pin rising) := by
  unfold latchEdge
  refine onlyChanges_ite ?_ ?_
  · refine onlyChanges_then ?_ (modPwr_only ..) rfl
    exact onlyChanges_refl _ _
  · exact onlyChanges_refl _ _

theorem wakeArrives_only (s : State) (source : Nat) : onlyChanges [.pwr, .lanes] s (wakeArrives s source) := by
  unfold wakeArrives
  extract_lets v34 v35 v36
  refine onlyChanges_ite ?_ ?_
  · exact onlyChanges_refl _ _
  · refine onlyChanges_ite ?_ ?_
    · exact onlyChanges_refl _ _
    · refine onlyChanges_ite ?_ ?_
      · exact onlyChanges_refl _ _
      · refine onlyChanges_ite ?_ ?_
        · refine onlyChanges_then ?_ (latchEdge_only ..) rfl
          refine onlyChanges_then ?_ (wake_only ..) rfl
          exact onlyChanges_refl _ _
        · refine onlyChanges_then ?_ (wake_only ..) rfl
          exact onlyChanges_refl _ _

theorem refChanges_only (s : State) (present : Bool) : onlyChanges [.pwr] s (refChanges s present) := by
  unfold refChanges
  refine onlyChanges_then ?_ (modPwr_only ..) rfl
  exact onlyChanges_refl _ _

theorem proposeFound_only (s : State) (kind : Nat) (next : Option Nat) : onlyChanges [.out, .free, .flt, .saf, .pwr, .rng, .hif, .bld, .lanes, .kps, .cbl] s (proposeFound s kind next) := by
  unfold proposeFound
  split
  · refine onlyChanges_then ?_ (cblFind_only ..) rfl
    refine onlyChanges_then ?_ (modCbl_only ..) rfl
    exact onlyChanges_refl _ _
  · exact onlyChanges_refl _ _

theorem proposeNext_only (s : State) (kind : Nat) : onlyChanges [.out, .free, .flt, .saf, .pwr, .rng, .hif, .bld, .pxc, .lanes, .kps, .cbl] s (proposeNext s kind) := by
  unfold proposeNext
  refine onlyChanges_ite ?_ ?_
  · exact onlyChanges_refl _ _
  · split
    · refine onlyChanges_then ?_ (proposeFound_only ..) rfl
      exact onlyChanges_refl _ _
    · refine onlyChanges_then ?_ (proposeFound_only ..) rfl
      exact onlyChanges_refl _ _
    · refine onlyChanges_then ?_ (pixelPropose_only ..) rfl
      refine onlyChanges_then ?_ (pixelPropose_only ..) rfl
      exact onlyChanges_refl _ _
    · exact onlyChanges_refl _ _

theorem proposalActs_only (s : State) (kind : Nat) (p : Proposal) : onlyChanges [.out, .free, .regs, .flt, .saf, .pwr, .rng, .hif, .lmm, .bld, .pxc, .lanes, .tbl, .kps, .cbl] s (proposalActs s kind p) := by
  unfold proposalActs
  split
  · refine onlyChanges_then ?_ (modLmm_only ..) rfl
    exact onlyChanges_refl _ _
  · refine onlyChanges_then ?_ (kpsRequest_only ..) rfl
    exact onlyChanges_refl _ _
  · extract_lets v39
    refine onlyChanges_then ?_ (forwardRequest_only ..) rfl
    exact onlyChanges_refl _ _
  · refine onlyChanges_then ?_ (modPxc_only ..) rfl
    exact onlyChanges_refl _ _

theorem approveProposal_only (s : State) (kind : Nat) (p : Proposal) : onlyChanges [.out, .free, .regs, .flt, .saf, .pwr, .rng, .hif, .lmm, .bld, .pxc, .lanes, .tbl, .kps, .cbl] s (approveProposal s kind p) := by
  unfold approveProposal
  split
  extract_lets v37 v38
  have hv37 : onlyChanges [.out, .free, .regs, .flt, .saf, .pwr, .rng, .hif, .lmm, .bld, .pxc,   .lanes, .tbl, .kps, .cbl] s v37 := by
    refine onlyChanges_then ?_ (cblRecord_only ..) rfl
    refine onlyChanges_then ?_ (setProposal_only ..) rfl
    refine onlyChanges_snd (by assumption) ?_
    refine onlyChanges_then ?_ (drawBelow_only ..) rfl
    exact onlyChanges_refl _ _
  have hv38 : onlyChanges [.out, .free, .regs, .flt, .saf, .pwr, .rng, .hif, .lmm, .bld, .pxc,   .lanes, .tbl, .kps, .cbl] s v38 := by
    refine onlyChanges_then ?_ (modCbl_only ..) rfl
    exact hv37
  refine onlyChanges_then ?_ (proposeNext_only ..) rfl
  refine onlyChanges_then ?_ (proposalActs_only ..) rfl
  exact hv38

theorem declineProposal_only (s : State) (kind : Nat) (p : Proposal) : onlyChanges [.out, .free, .flt, .saf, .pwr, .rng, .hif, .lmm, .bld, .pxc, .lanes, .kps, .cbl] s (declineProposal s kind p) := by
  unfold declineProposal
  extract_lets v40 v41
  have hv40 : onlyChanges [.out, .free, .flt, .saf, .pwr, .rng, .hif, .lmm, .bld, .pxc, .lanes,   .kps, .cbl] s v40 := by
    refine onlyChanges_then ?_ (cblClose_only ..) rfl
    exact onlyChanges_refl _ _
  have hv41 : onlyChanges [.out, .free, .flt, .saf, .pwr, .rng, .hif, .lmm, .bld, .pxc, .lanes,   .kps, .cbl] s v41 := by
    dsimp -zeta only [v41]
    split
    · refine onlyChanges_then ?_ (modBank_only ..) rfl
      refine onlyChanges_then ?_ (cblClose_only ..) rfl
      exact onlyChanges_refl _ _
    · refine onlyChanges_then ?_ (modSector_only ..) rfl
      refine onlyChanges_then ?_ (cblClose_only ..) rfl
      exact onlyChanges_refl _ _
    · exact hv40
  refine onlyChanges_then ?_ (proposeNext_only ..) rfl
  exact hv41

theorem lastWriteSectors_only (s : State) (ring : Nat) (slot : Nat) (d : Desc) (bs : List Byte) : onlyChanges [.pwr, .rng, .kps] s (lastWriteSectors s ring slot d bs) := by
  unfold lastWriteSectors
  extract_lets v42 v43
  refine foldl_only ?_ (fun t44 a44 => ?_)
  · exact onlyChanges_refl _ _
  · refine onlyChanges_then ?_ (kpsRequest_only ..) rfl
    exact onlyChanges_refl _ _

theorem lastWriteFetch_only (s : State) (ring : Nat) (slot : Nat) (d : Desc) (data : HostRead) : onlyChanges [.out, .free, .pwr, .rng, .hif, .kps] s (lastWriteFetch s ring slot d data) := by
  unfold lastWriteFetch
  split
  · refine onlyChanges_then ?_ (completeAt_only ..) rfl
    exact onlyChanges_refl _ _
  · refine onlyChanges_ite ?_ ?_
    · refine onlyChanges_then ?_ (completeAt_only ..) rfl
      exact onlyChanges_refl _ _
    · split
      · refine onlyChanges_then ?_ (completeAt_only ..) rfl
        refine onlyChanges_then ?_ (hostFails_only ..) rfl
        exact onlyChanges_refl _ _
      · refine onlyChanges_then ?_ (completeAt_only ..) rfl
        exact onlyChanges_refl _ _
      · extract_lets v45
        refine onlyChanges_ite ?_ ?_
        · refine onlyChanges_then ?_ (completeAt_only ..) rfl
          exact onlyChanges_refl _ _
        · refine onlyChanges_then ?_ (lastWriteSectors_only ..) rfl
          exact onlyChanges_refl _ _

theorem modBoot_only (s : State) (f : Boot → Boot) : onlyChanges [.rst] s (modBoot s f) := by
  refine ⟨rfl, fun p h => ?_⟩
  cases p <;> first | rfl | exact ⟨rfl, rfl⟩ | exact ⟨rfl, rfl, rfl⟩ | exact absurd (by decide) h

theorem releaseEnds_only (s : State) : onlyChanges [.rst] s (releaseEnds s) := by
  unfold releaseEnds
  refine onlyChanges_ite ?_ ?_
  · refine onlyChanges_then ?_ (modRst_only ..) rfl
    exact onlyChanges_refl _ _
  · exact onlyChanges_refl _ _

theorem scriptStarts_only (s : State) : onlyChanges [.out, .free, .regs, .flt, .saf, .rst, .pwr, .rng, .hif, .bld, .lanes, .kps, .cbl] s (scriptStarts s) := by
  unfold scriptStarts
  split
  · refine onlyChanges_then ?_ (modBoot_only ..) rfl
    exact onlyChanges_refl _ _
  · refine onlyChanges_then ?_ (releaseEnds_only ..) rfl
    refine onlyChanges_then ?_ (modBoot_only ..) rfl
    exact onlyChanges_refl _ _

theorem releaseStepEnds_only (s : State) : onlyChanges [.out, .free, .regs, .mem, .flt, .saf, .rst, .pwr, .rng, .hif, .lmm, .bld, .pxc, .lanes, .tbl, .kps, .cbl] s (releaseStepEnds s) := by
  unfold releaseStepEnds
  refine onlyChanges_ite ?_ ?_
  · exact onlyChanges_refl _ _
  · refine onlyChanges_ite ?_ ?_
    · refine onlyChanges_then ?_ (scriptStarts_only ..) rfl
      refine onlyChanges_then ?_ (modRst_only ..) rfl
      refine onlyChanges_then ?_ (stepEnds_only ..) rfl
      exact onlyChanges_refl _ _
    · refine onlyChanges_then ?_ (stepEnds_only ..) rfl
      exact onlyChanges_refl _ _

theorem bootTime_only (s : State) : onlyChanges [.free] s (bootTime s).2 := by
  unfold bootTime
  extract_lets v46
  split
  dsimp -zeta only
  refine onlyChanges_snd (by assumption) ?_
  refine onlyChanges_then ?_ (drawBelow_only ..) rfl
  exact onlyChanges_refl _ _

theorem scriptEnds_only (s : State) (st : Nat) (reason : Nat) : onlyChanges [.free, .rst] s (scriptEnds s st reason) := by
  unfold scriptEnds
  split
  refine onlyChanges_then ?_ (releaseEnds_only ..) rfl
  refine onlyChanges_then ?_ (modBoot_only ..) rfl
  refine onlyChanges_snd (by assumption) ?_
  refine onlyChanges_then ?_ (bootTime_only ..) rfl
  exact onlyChanges_refl _ _

theorem lightHead_only (s : State) (h : Head) : onlyChanges [.out, .free, .lanes] s (lightHead s h) := by
  unfold lightHead
  refine onlyChanges_ite ?_ ?_
  · refine onlyChanges_then ?_ (repeatCommand_only ..) rfl
    refine onlyChanges_then ?_ (sendFour_only ..) rfl
    exact onlyChanges_refl _ _
  · exact onlyChanges_refl _ _

theorem autolight_only (s : State) : onlyChanges [.out, .free, .regs, .flt, .saf, .rst, .pwr, .rng, .hif, .bld, .lanes, .kps, .cbl] s (autolight s) := by
  unfold autolight
  refine onlyChanges_ite ?_ ?_
  · refine onlyChanges_then ?_ (modBoot_only ..) rfl
    refine onlyChanges_then ?_ (lightHead_only ..) rfl
    refine onlyChanges_then ?_ (lightHead_only ..) rfl
    exact onlyChanges_refl _ _
  · exact onlyChanges_refl _ _

theorem scriptDone_only (s : State) : onlyChanges [.out, .free, .regs, .flt, .saf, .rst, .pwr, .rng, .hif, .bld, .lanes, .kps, .cbl] s (scriptDone s) := by
  unfold scriptDone
  refine onlyChanges_then ?_ (autolight_only ..) rfl
  refine onlyChanges_then ?_ (scriptEnds_only ..) rfl
  exact onlyChanges_refl _ _

theorem scriptFails_only (s : State) (reason : Nat) : onlyChanges [.out, .free, .regs, .flt, .saf, .rst, .pwr, .rng, .hif, .bld, .lanes, .kps, .cbl] s (scriptFails s reason) := by
  unfold scriptFails
  refine onlyChanges_ite ?_ ?_
  · refine onlyChanges_then ?_ (scriptEnds_only ..) rfl
    exact onlyChanges_refl _ _
  · extract_lets v47
    have hv47 : onlyChanges [.out, .free, .regs, .flt, .saf, .rst, .pwr, .rng, .hif, .bld, .lanes,   .kps, .cbl] s v47 := by
      refine onlyChanges_then ?_ (scriptEnds_only ..) rfl
      exact onlyChanges_refl _ _
    refine onlyChanges_ite ?_ ?_
    · refine onlyChanges_then ?_ (autolight_only ..) rfl
      exact hv47
    · exact hv47

theorem recordDone_only (s : State) : onlyChanges [.out, .free, .regs, .flt, .saf, .rst, .pwr, .rng, .hif, .bld, .lanes, .kps, .cbl] s (recordDone s) := by
  unfold recordDone
  refine onlyChanges_ite ?_ ?_
  · refine onlyChanges_then ?_ (scriptEnds_only ..) rfl
    exact onlyChanges_refl _ _
  · extract_lets v48
    refine onlyChanges_then ?_ (modBoot_only ..) rfl
    exact onlyChanges_refl _ _

theorem recordWaits_only (s : State) : onlyChanges [.rst] s (recordWaits s) := by
  unfold recordWaits
  refine onlyChanges_then ?_ (modBoot_only ..) rfl
  exact onlyChanges_refl _ _

theorem recordFails_only (s : State) (reason : Nat) : onlyChanges [.out, .free, .regs, .flt, .saf, .rst, .pwr, .rng, .hif, .bld, .lanes, .kps, .cbl] s (recordFails s reason) := by
  unfold recordFails
  refine onlyChanges_ite ?_ ?_
  · refine onlyChanges_then ?_ (recordDone_only ..) rfl
    exact onlyChanges_refl _ _
  · refine onlyChanges_then ?_ (scriptFails_only ..) rfl
    exact onlyChanges_refl _ _

theorem recordTimesOut_only (s : State) : onlyChanges [.out, .free, .regs, .flt, .saf, .rst, .pwr, .rng, .hif, .bld, .lanes, .kps, .cbl] s (recordTimesOut s) := by
  unfold recordTimesOut
  refine onlyChanges_ite ?_ ?_
  · split
    · refine onlyChanges_then ?_ (recordFails_only ..) rfl
      exact onlyChanges_refl _ _
    · exact onlyChanges_refl _ _
  · exact onlyChanges_refl _ _

theorem bootRunNow_only (s : State) : onlyChanges [.out, .free, .regs, .flt, .saf, .rst, .pwr, .rng, .hif, .bld, .lanes, .kps, .cbl] s (bootRunNow s) := by
  unfold bootRunNow
  refine onlyChanges_ite ?_ ?_
  · refine onlyChanges_then ?_ (scriptStarts_only ..) rfl
    exact onlyChanges_refl _ _
  · refine onlyChanges_then ?_ (modRst_only ..) rfl
    exact onlyChanges_refl _ _

theorem bootStopNow_only (s : State) : onlyChanges [.out, .free, .regs, .flt, .saf, .rst, .pwr, .rng, .hif, .bld, .lanes, .kps, .cbl] s (bootStopNow s) := by
  unfold bootStopNow
  refine onlyChanges_ite ?_ ?_
  · exact onlyChanges_refl _ _
  · refine onlyChanges_ite ?_ ?_
    · refine onlyChanges_then ?_ (modBoot_only ..) rfl
      exact onlyChanges_refl _ _
    · refine onlyChanges_then ?_ (scriptEnds_only ..) rfl
      exact onlyChanges_refl _ _

theorem writeBootCmd_only (s : State) (v : Word) : onlyChanges [.out, .free, .regs, .flt, .saf, .rst, .pwr, .rng, .hif, .bld, .lanes, .kps, .cbl] s (writeBootCmd s v) := by
  unfold writeBootCmd
  split
  · refine onlyChanges_then ?_ (bootRunNow_only ..) rfl
    exact onlyChanges_refl _ _
  · refine onlyChanges_then ?_ (bootStopNow_only ..) rfl
    exact onlyChanges_refl _ _
  · exact onlyChanges_refl _ _

theorem slipSearchGo_only (s : State) : onlyChanges [.out, .free, .regs, .flt, .saf, .rst, .pwr, .rng, .hif, .bld, .lanes, .kps, .cbl] s (slipSearchGo s) := by
  unfold slipSearchGo
  refine onlyChanges_ite ?_ ?_
  · exact onlyChanges_refl _ _
  · extract_lets v49 v50
    have hv50 : onlyChanges [.out, .free, .regs, .flt, .saf, .rst, .pwr, .rng, .hif, .bld, .lanes,   .kps, .cbl] s v50 := by
      refine foldl_only ?_ (fun t51 a51 => ?_)
      · refine onlyChanges_then ?_ (modBoot_only ..) rfl
        exact onlyChanges_refl _ _
      · refine onlyChanges_ite ?_ ?_
        · exact onlyChanges_refl _ _
        · refine onlyChanges_then ?_ (startSearch_only ..) rfl
          exact onlyChanges_refl _ _
    refine onlyChanges_ite ?_ ?_
    · refine onlyChanges_then ?_ (recordDone_only ..) rfl
      exact hv50
    · exact hv50

theorem slipSearchFailed_only (s : State) (l : Nat) : onlyChanges [.out, .free, .regs, .flt, .saf, .rst, .pwr, .rng, .hif, .bld, .lanes, .kps, .cbl] s (slipSearchFailed s l) := by
  unfold slipSearchFailed
  refine onlyChanges_ite ?_ ?_
  · refine onlyChanges_then ?_ (recordFails_only ..) rfl
    exact onlyChanges_refl _ _
  · exact onlyChanges_refl _ _

theorem setRecTile_only (s : State) (t : Nat) (k : Nat) : onlyChanges [.rst] s (setRecTile s t k) := by
  unfold setRecTile
  refine onlyChanges_then ?_ (modBoot_only ..) rfl
  exact onlyChanges_refl _ _

theorem loadTile_only (s : State) (h : Head) (t : Nat) (off : Nat) (status : Bool) : onlyChanges [.out, .free, .regs, .flt, .saf, .rst, .pwr, .rng, .hif, .bld, .lanes, .tbl, .kps, .cbl] s (loadTile s h t off status) := by
  unfold loadTile
  extract_lets v54
  split
  split
  · refine onlyChanges_ite ?_ ?_
    · refine onlyChanges_ite ?_ ?_
      · refine onlyChanges_then ?_ (setRecTile_only ..) rfl
        refine onlyChanges_then ?_ (sendPackets_only ..) rfl
        exact onlyChanges_refl _ _
      · refine onlyChanges_then ?_ (setRecTile_only ..) rfl
        refine onlyChanges_then ?_ (sendPackets_only ..) rfl
        exact onlyChanges_refl _ _
    · exact onlyChanges_refl _ _
  · refine onlyChanges_ite ?_ ?_
    · refine onlyChanges_ite ?_ ?_
      · refine onlyChanges_then ?_ (setRecTile_only ..) rfl
        exact onlyChanges_refl _ _
      · refine onlyChanges_then ?_ (setRecTile_only ..) rfl
        refine onlyChanges_then ?_ (sendPackets_only ..) rfl
        exact onlyChanges_refl _ _
    · exact onlyChanges_refl _ _
  · refine onlyChanges_ite ?_ ?_
    · refine onlyChanges_then ?_ (setRecTile_only ..) rfl
      exact onlyChanges_refl _ _
    · exact onlyChanges_refl _ _
  · exact onlyChanges_refl _ _

theorem loadTilesGo_only (s : State) (status : Option (Head × Nat)) : onlyChanges [.out, .free, .regs, .flt, .saf, .rst, .pwr, .rng, .hif, .bld, .lanes, .tbl, .kps, .cbl] s (loadTilesGo s status) := by
  unfold loadTilesGo
  refine onlyChanges_ite ?_ ?_
  · exact onlyChanges_refl _ _
  · extract_lets v52
    refine onlyChanges_ite ?_ ?_
    · refine onlyChanges_then ?_ (recordFails_only ..) rfl
      exact onlyChanges_refl _ _
    · refine onlyChanges_ite ?_ ?_
      · refine onlyChanges_then ?_ (recordDone_only ..) rfl
        refine foldl_only ?_ (fun t55 a55 => ?_)
        · exact onlyChanges_refl _ _
        · refine onlyChanges_then ?_ (loadTile_only ..) rfl
          exact onlyChanges_refl _ _
      · refine foldl_only ?_ (fun t57 a57 => ?_)
        · exact onlyChanges_refl _ _
        · refine onlyChanges_then ?_ (loadTile_only ..) rfl
          exact onlyChanges_refl _ _

theorem noteEntries_only (s : State) (h : Head) : onlyChanges [.out, .free, .regs, .flt, .saf, .pwr, .rng, .hif, .bld, .lanes, .tbl, .kps, .cbl] s (noteEntries s h) := by
  unfold noteEntries
  refine foldl_only ?_ (fun t53 a53 => ?_)
  · exact onlyChanges_refl _ _
  · refine onlyChanges_then ?_ (modTbl_only ..) rfl
    exact onlyChanges_refl _ _

theorem recordGoes_only (s : State) (status : Option (Head × Nat)) : onlyChanges [.out, .free, .regs, .flt, .saf, .rst, .pwr, .rng, .hif, .bld, .lanes, .tbl, .kps, .cbl] s (recordGoes s status) := by
  unfold recordGoes
  refine onlyChanges_then ?_ (loadTilesGo_only ..) rfl
  refine onlyChanges_then ?_ (slipSearchGo_only ..) rfl
  exact onlyChanges_refl _ _

theorem writeTone_only (s : State) (h : Head) (bank : Nat) (idx : Nat) (v : Word) : onlyChanges [.regs] s (writeTone s h bank idx v) := by
  unfold writeTone
  extract_lets v56
  refine onlyChanges_ite ?_ ?_
  · exact onlyChanges_refl _ _
  · refine onlyChanges_then ?_ (setTable_only ..) rfl
    exact onlyChanges_refl _ _

theorem writeToneCtrl_only (s : State) (h : Head) (v : Word) : onlyChanges [.bld] s (writeToneCtrl s h v) := by
  unfold writeToneCtrl
  refine onlyChanges_ite ?_ ?_
  · refine onlyChanges_then ?_ (modBld_only ..) rfl
    exact onlyChanges_refl _ _
  · exact onlyChanges_refl _ _

theorem toneCheckEnds_only (s : State) (h : Head) : onlyChanges [.bld] s (toneCheckEnds s h) := by
  unfold toneCheckEnds
  extract_lets v58
  refine onlyChanges_ite ?_ ?_
  · exact onlyChanges_refl _ _
  · split
    · refine onlyChanges_then ?_ (modBld_only ..) rfl
      refine raw_bldEntry ?_ rfl
      exact onlyChanges_refl _ _
    · refine onlyChanges_ite ?_ ?_
      · refine onlyChanges_then ?_ (toneApply_only ..) rfl
        refine onlyChanges_then ?_ (modBld_only ..) rfl
        exact onlyChanges_refl _ _
      · refine onlyChanges_then ?_ (modBld_only ..) rfl
        exact onlyChanges_refl _ _

theorem writeHeadroom_only (s : State) (h : Head) (n : Nat) (v : Word) : onlyChanges [.regs, .bld] s (writeHeadroom s h n v) := by
  unfold writeHeadroom
  extract_lets v59 v60 v61
  refine onlyChanges_ite ?_ ?_
  · exact onlyChanges_refl _ _
  · refine onlyChanges_ite ?_ ?_
    · refine onlyChanges_then ?_ (headroomStopped_only ..) rfl
      refine onlyChanges_then ?_ (setRegAt_only ..) rfl
      exact onlyChanges_refl _ _
    · refine onlyChanges_then ?_ (modBld_only ..) rfl
      exact onlyChanges_refl _ _

theorem raiseAge_only (x : Nat) (x1 : Nat) (x2 : Nat) (x3 : State) : onlyChanges [.regs] x3 (raiseAge x x1 x2 x3) := by
  induction x2 generalizing x1 x3 with
  | zero => exact onlyChanges_refl _ _
  | succ n ih =>
    unfold raiseAge
    repeat first
      | (with_reducible exact onlyChanges_refl _ _)
      | (with_reducible refine onlyChanges_trans ?_ (ih ..))
      | (with_reducible refine onlyChanges_then ?_ (setRegAt_only ..) rfl)
      | (with_reducible refine onlyChanges_ite ?_ ?_)
      | split
      | dsimp only

theorem writeAging_only (s : State) (k : Nat) (v : Word) : onlyChanges [.regs, .pxc] s (writeAging s k v) := by
  unfold writeAging
  extract_lets v62
  refine onlyChanges_ite ?_ ?_
  · exact onlyChanges_refl _ _
  · refine onlyChanges_ite ?_ ?_
    · refine onlyChanges_then ?_ (raiseAge_only ..) rfl
      refine onlyChanges_then ?_ (setRegAt_only ..) rfl
      exact onlyChanges_refl _ _
    · refine raw_pxc ?_ rfl
      exact onlyChanges_refl _ _

theorem doseCheckpoint_only (s : State) : onlyChanges [.pwr, .rng, .pxc, .kps] s (doseCheckpoint s) := by
  unfold doseCheckpoint
  refine onlyChanges_ite ?_ ?_
  · refine onlyChanges_then ?_ (requestCheckpoint_only ..) rfl
    exact onlyChanges_refl _ _
  · exact onlyChanges_refl _ _

theorem readGpio_only (s : State) : onlyChanges [.free] s (readGpio s).2 := by
  unfold readGpio
  extract_lets v63 v0
  split
  dsimp -zeta only
  refine onlyChanges_snd (by assumption) ?_
  refine onlyChanges_then ?_ (drawBelow_only ..) rfl
  exact onlyChanges_refl _ _

theorem readBoot_only (s : State) : onlyChanges [.free] s (readBoot s).2 := by
  unfold readBoot
  extract_lets v64
  split
  · split
    dsimp -zeta only
    refine onlyChanges_snd (by assumption) ?_
    refine onlyChanges_then ?_ (drawBelow_only ..) rfl
    exact onlyChanges_refl _ _
  · dsimp -zeta only
    exact onlyChanges_refl _ _

theorem readTimer_only (s : State) : onlyChanges [.free, .regs] s (readTimer s).2 := by
  unfold readTimer
  extract_lets v0
  split
  · dsimp -zeta only
    exact onlyChanges_refl _ _
  · split
    extract_lets v1
    dsimp -zeta only
    refine onlyChanges_then ?_ (setRegAt_only ..) rfl
    refine onlyChanges_snd (by assumption) ?_
    refine onlyChanges_then ?_ (drawBelow_only ..) rfl
    exact onlyChanges_refl _ _

theorem readPos_only (s : State) (h : Head) : onlyChanges [.free] s (readPos s h).2 := by
  unfold readPos
  extract_lets v65
  split
  · dsimp -zeta only
    exact onlyChanges_refl _ _
  · split
    · dsimp -zeta only
      exact onlyChanges_refl _ _
    · split
      · split
        dsimp -zeta only
        refine onlyChanges_snd (by assumption) ?_
        refine onlyChanges_then ?_ (drawBelow_only ..) rfl
        exact onlyChanges_refl _ _
      · split
        dsimp -zeta only
        refine onlyChanges_snd (by assumption) ?_
        refine onlyChanges_then ?_ (drawBelow_only ..) rfl
        exact onlyChanges_refl _ _

theorem readSlewRem_only (s : State) : onlyChanges [.free] s (readSlewRem s).2 := by
  unfold readSlewRem
  extract_lets v66
  split
  · dsimp -zeta only
    exact onlyChanges_refl _ _
  · split
    dsimp -zeta only
    refine onlyChanges_snd (by assumption) ?_
    refine onlyChanges_then ?_ (drawBelow_only ..) rfl
    exact onlyChanges_refl _ _

theorem readSlot_only (s : State) (h : Head) (i : Nat) : onlyChanges [.free] s (readSlot s h i).2 := by
  unfold readSlot
  extract_lets v67
  split
  · split
    dsimp -zeta only
    refine onlyChanges_snd (by assumption) ?_
    refine onlyChanges_then ?_ (drawBelow_only ..) rfl
    exact onlyChanges_refl _ _
  · dsimp -zeta only
    exact onlyChanges_refl _ _

theorem readWord_only (s : State) (idx : Nat) : onlyChanges [.out, .free, .regs, .flt, .saf, .pwr, .rng, .hif, .bld, .lanes, .tim, .kps, .cbl] s (readWord s idx).2 := by
  unfold readWord
  dsimp only
  split
  · refine onlyChanges_then ?_ (readGpio_only ..) rfl
    exact onlyChanges_refl _ _
  · refine onlyChanges_then ?_ (readPos_only ..) rfl
    exact onlyChanges_refl _ _
  · refine onlyChanges_then ?_ (readPos_only ..) rfl
    exact onlyChanges_refl _ _
  · refine onlyChanges_then ?_ (readSlewRem_only ..) rfl
    exact onlyChanges_refl _ _
  · dsimp -zeta only
    refine onlyChanges_then ?_ (latchNow_only ..) rfl
    exact onlyChanges_refl _ _
  · split
    · dsimp -zeta only
      refine onlyChanges_then ?_ (drawBelow_only ..) rfl
      exact onlyChanges_refl _ _
    · dsimp -zeta only
      exact onlyChanges_refl _ _
  · refine onlyChanges_then ?_ (readTimer_only ..) rfl
    exact onlyChanges_refl _ _
  · refine onlyChanges_then ?_ (readBoot_only ..) rfl
    exact onlyChanges_refl _ _
  · split
    · dsimp -zeta only
      refine onlyChanges_then ?_ (drawBelow_only ..) rfl
      exact onlyChanges_refl _ _
    · dsimp -zeta only
      exact onlyChanges_refl _ _
  · refine onlyChanges_then ?_ (windowWord_only ..) rfl
    exact onlyChanges_refl _ _
  · refine onlyChanges_then ?_ (windowReadHiOp_only ..) rfl
    exact onlyChanges_refl _ _
  · split
    · dsimp -zeta only
      refine onlyChanges_then ?_ (capturePops_only ..) rfl
      exact onlyChanges_refl _ _
    · split
      · refine onlyChanges_then ?_ (readSlot_only ..) rfl
        exact onlyChanges_refl _ _
      · dsimp -zeta only
        exact onlyChanges_refl _ _

theorem modGlb_only (s : State) (f : Glb → Glb) : onlyChanges [.glb] s (modGlb s f) := by
  refine ⟨rfl, fun p h => ?_⟩
  cases p <;> first | rfl | exact ⟨rfl, rfl⟩ | exact ⟨rfl, rfl, rfl⟩ | exact absurd (by decide) h

theorem spoilParity_only (s : State) (idx : Nat) : onlyChanges [.glb] s (spoilParity s idx) := by
  unfold spoilParity
  refine onlyChanges_then ?_ (modGlb_only ..) rfl
  exact onlyChanges_refl _ _

theorem freshParity_only (s : State) (idx : Nat) : onlyChanges [.glb] s (freshParity s idx) := by
  unfold freshParity
  refine onlyChanges_then ?_ (modGlb_only ..) rfl
  exact onlyChanges_refl _ _

theorem checkParity_only (s : State) (idx : Nat) (upset : Bool) : onlyChanges [.out, .free, .regs, .flt, .saf, .pwr, .hif, .glb, .bld, .lanes] s (checkParity s idx upset).2 := by
  unfold checkParity
  split
  · dsimp -zeta only
    exact onlyChanges_refl _ _
  · extract_lets v69 v70
    have hv70 : onlyChanges [.out, .free, .regs, .flt, .saf, .pwr, .hif, .glb, .bld, .lanes] s v70 := by
      refine onlyChanges_ite ?_ ?_
      · refine onlyChanges_then ?_ (spoilParity_only ..) rfl
        refine onlyChanges_then ?_ (spendInj_only ..) rfl
        exact onlyChanges_refl _ _
      · refine onlyChanges_ite ?_ ?_
        · refine onlyChanges_then ?_ (spoilParity_only ..) rfl
          exact onlyChanges_refl _ _
        · exact onlyChanges_refl _ _
    split
    · dsimp -zeta only
      refine onlyChanges_then ?_ (raiseInj_only ..) rfl
      refine onlyChanges_then ?_ (modGlb_only ..) rfl
      exact hv70
    · dsimp -zeta only
      exact hv70

theorem plainWrite_only (s : State) (idx : Nat) (v : Word) : onlyChanges [.regs] s (plainWrite s idx v) := by
  unfold plainWrite
  refine onlyChanges_then ?_ (setReg_only ..) rfl
  exact onlyChanges_refl _ _

theorem writeGlb_only (s : State) (idx : Nat) (o : Nat) (v : Word) : onlyChanges [.regs, .glb] s (writeGlb s idx o v) := by
  unfold writeGlb
  refine onlyChanges_ite ?_ ?_
  · refine onlyChanges_then ?_ (modGlb_only ..) rfl
    exact onlyChanges_refl _ _
  · refine onlyChanges_then ?_ (plainWrite_only ..) rfl
    exact onlyChanges_refl _ _

theorem writeHif_only (s : State) (idx : Nat) (o : Nat) (v : Word) : onlyChanges [.out, .regs, .hif] s (writeHif s idx o v) := by
  unfold writeHif
  refine onlyChanges_ite ?_ ?_
  · refine raw_hif ?_ rfl
    exact onlyChanges_refl _ _
  · refine onlyChanges_ite ?_ ?_
    · refine onlyChanges_then ?_ (flushMsix_only ..) rfl
      refine onlyChanges_then ?_ (plainWrite_only ..) rfl
      exact onlyChanges_refl _ _
    · refine onlyChanges_then ?_ (plainWrite_only ..) rfl
      exact onlyChanges_refl _ _

theorem writeRng_only (s : State) (idx : Nat) (o : Nat) (v : Word) : onlyChanges [.out, .free, .regs, .mem, .flt, .saf, .pwr, .rng, .hif, .lmm, .ly, .shd, .bld, .pxc, .tg, .lanes, .tbl, .net, .lce, .kps, .cbl] s (writeRng s idx o v) := by
  unfold writeRng
  split
  · refine onlyChanges_then ?_ (writeRngCtrl_only ..) rfl
    exact onlyChanges_refl _ _
  · refine onlyChanges_then ?_ (writeJournal_only ..) rfl
    exact onlyChanges_refl _ _
  · refine onlyChanges_ite ?_ ?_
    · extract_lets v6
      split
      · refine onlyChanges_then ?_ (writeRingCfg_only ..) rfl
        exact onlyChanges_refl _ _
      · refine onlyChanges_then ?_ (modRing_only ..) rfl
        exact onlyChanges_refl _ _
      · refine onlyChanges_then ?_ (plainWrite_only ..) rfl
        exact onlyChanges_refl _ _
    · refine onlyChanges_then ?_ (plainWrite_only ..) rfl
      exact onlyChanges_refl _ _

theorem writeLmm_only (s : State) (idx : Nat) (o : Nat) (v : Word) : onlyChanges [.regs, .lmm] s (writeLmm s idx o v) := by
  unfold writeLmm
  split
  · refine onlyChanges_then ?_ (modLmm_only ..) rfl
    exact onlyChanges_refl _ _
  · refine onlyChanges_then ?_ (modLmm_only ..) rfl
    exact onlyChanges_refl _ _
  · refine onlyChanges_ite ?_ ?_
    · refine onlyChanges_then ?_ (writeBudget_only ..) rfl
      exact onlyChanges_refl _ _
    · refine onlyChanges_ite ?_ ?_
      · refine onlyChanges_then ?_ (writeRegion_only ..) rfl
        exact onlyChanges_refl _ _
      · refine onlyChanges_then ?_ (plainWrite_only ..) rfl
        exact onlyChanges_refl _ _

theorem writeLy_only (s : State) (h : Head) (idx : Nat) (o : Nat) (v : Word) : onlyChanges [.regs, .ly] s (writeLy s h idx o v) := by
  unfold writeLy
  split
  · refine onlyChanges_then ?_ (modLy_only ..) rfl
    exact onlyChanges_refl _ _
  · refine onlyChanges_ite ?_ ?_
    · refine onlyChanges_then ?_ (plainWrite_only ..) rfl
      exact onlyChanges_refl _ _
    · exact onlyChanges_refl _ _
  · refine onlyChanges_then ?_ (plainWrite_only ..) rfl
    exact onlyChanges_refl _ _

theorem stoppedWrite_only (s : State) (h : Head) (idx : Nat) (v : Word) : onlyChanges [.regs, .tg] s (stoppedWrite s h idx v) := by
  unfold stoppedWrite
  refine onlyChanges_ite ?_ ?_
  · refine onlyChanges_then ?_ (plainWrite_only ..) rfl
    exact onlyChanges_refl _ _
  · refine onlyChanges_then ?_ (timingRefused_only ..) rfl
    exact onlyChanges_refl _ _

theorem writeTg_only (s : State) (h : Head) (idx : Nat) (o : Nat) (v : Word) : onlyChanges [.out, .free, .regs, .mem, .flt, .saf, .pwr, .rng, .hif, .lmm, .ly, .shd, .bld, .pxc, .tg, .lanes, .tbl, .kps, .cbl] s (writeTg s h idx o v) := by
  unfold writeTg
  split
  · refine onlyChanges_then ?_ (writeTgCtrl_only ..) rfl
    exact onlyChanges_refl _ _
  · refine onlyChanges_then ?_ (modTg_only ..) rfl
    exact onlyChanges_refl _ _
  · refine onlyChanges_ite ?_ ?_
    · refine onlyChanges_then ?_ (commitWrite_only ..) rfl
      exact onlyChanges_refl _ _
    · exact onlyChanges_refl _ _
  · refine onlyChanges_then ?_ (stoppedWrite_only ..) rfl
    exact onlyChanges_refl _ _
  · refine onlyChanges_then ?_ (stoppedWrite_only ..) rfl
    exact onlyChanges_refl _ _
  · refine onlyChanges_ite ?_ ?_
    · refine onlyChanges_ite ?_ ?_
      · refine onlyChanges_then ?_ (reconfigure_only ..) rfl
        refine onlyChanges_then ?_ (plainWrite_only ..) rfl
        exact onlyChanges_refl _ _
      · refine onlyChanges_then ?_ (timingRefused_only ..) rfl
        exact onlyChanges_refl _ _
    · refine onlyChanges_then ?_ (plainWrite_only ..) rfl
      exact onlyChanges_refl _ _

theorem writeLn_only (s : State) (b : Nat) (idx : Nat) (o : Nat) (v : Word) : onlyChanges [.out, .free, .regs, .flt, .saf, .pwr, .rng, .hif, .bld, .tg, .lanes, .net] s (writeLn s b idx o v) := by
  unfold writeLn
  refine onlyChanges_ite ?_ ?_
  · refine onlyChanges_then ?_ (writeLnCtrl_only ..) rfl
    exact onlyChanges_refl _ _
  · refine onlyChanges_ite ?_ ?_
    · refine onlyChanges_then ?_ (modLaneBlock_only ..) rfl
      exact onlyChanges_refl _ _
    · refine onlyChanges_ite ?_ ?_
      · extract_lets v1
        split
        · refine onlyChanges_then ?_ (writeLaneCtrl_only ..) rfl
          exact onlyChanges_refl _ _
        · refine onlyChanges_then ?_ (modLane_only ..) rfl
          exact onlyChanges_refl _ _
        · exact onlyChanges_refl _ _
      · refine onlyChanges_ite ?_ ?_
        · refine onlyChanges_then ?_ (writeEq_only ..) rfl
          exact onlyChanges_refl _ _
        · refine onlyChanges_then ?_ (plainWrite_only ..) rfl
          exact onlyChanges_refl _ _

theorem writeTblCtrl_only (s : State) (h : Head) (idx : Nat) (v : Word) : onlyChanges [.out, .free, .regs, .tg, .lanes, .tbl] s (writeTblCtrl s h idx v) := by
  unfold writeTblCtrl
  extract_lets v2 v3 v4 v5
  have hv5 : onlyChanges [.out, .free, .regs, .tg, .lanes, .tbl] s v5 := by
    refine onlyChanges_then ?_ (setReg_only ..) rfl
    exact onlyChanges_refl _ _
  refine onlyChanges_then ?_ (reconfigure_only ..) rfl
  refine onlyChanges_then ?_ (echoesDrop_only ..) rfl
  refine onlyChanges_ite ?_ ?_
  · refine onlyChanges_then ?_ (timingRefused_only ..) rfl
    exact hv5
  · exact hv5

theorem writeTbl_only (s : State) (h : Head) (idx : Nat) (o : Nat) (v : Word) : onlyChanges [.out, .free, .regs, .flt, .saf, .pwr, .rng, .hif, .bld, .tg, .lanes, .tbl, .kps, .cbl] s (writeTbl s h idx o v) := by
  unfold writeTbl
  split
  · refine onlyChanges_then ?_ (writeTblCtrl_only ..) rfl
    exact onlyChanges_refl _ _
  · refine onlyChanges_then ?_ (writeFwd_only ..) rfl
    exact onlyChanges_refl _ _
  · refine onlyChanges_then ?_ (writeReq_only ..) rfl
    exact onlyChanges_refl _ _
  · refine onlyChanges_then ?_ (plainWrite_only ..) rfl
    exact onlyChanges_refl _ _

theorem writeNet_only (s : State) (idx : Nat) (o : Nat) (v : Word) : onlyChanges [.out, .free, .regs, .flt, .saf, .pwr, .rng, .hif, .bld, .lanes, .net] s (writeNet s idx o v) := by
  unfold writeNet
  split
  · refine onlyChanges_then ?_ (writeMdio_only ..) rfl
    exact onlyChanges_refl _ _
  · refine onlyChanges_then ?_ (modNet_only ..) rfl
    exact onlyChanges_refl _ _
  · refine onlyChanges_ite ?_ ?_
    · extract_lets v7
      split
      · refine onlyChanges_then ?_ (writeNetCtrl_only ..) rfl
        exact onlyChanges_refl _ _
      · refine onlyChanges_then ?_ (modPort_only ..) rfl
        exact onlyChanges_refl _ _
      · refine onlyChanges_then ?_ (writeNetMac_only ..) rfl
        exact onlyChanges_refl _ _
      · refine onlyChanges_then ?_ (writeNetMac_only ..) rfl
        exact onlyChanges_refl _ _
      · refine onlyChanges_then ?_ (plainWrite_only ..) rfl
        exact onlyChanges_refl _ _
    · refine onlyChanges_then ?_ (plainWrite_only ..) rfl
      exact onlyChanges_refl _ _

theorem writeTim_only (s : State) (idx : Nat) (o : Nat) (v : Word) : onlyChanges [.out, .free, .regs, .flt, .saf, .pwr, .hif, .bld, .tg, .lanes, .tim, .cle] s (writeTim s idx o v) := by
  unfold writeTim
  split
  · refine onlyChanges_then ?_ (modTim_only ..) rfl
    exact onlyChanges_refl _ _
  · refine onlyChanges_then ?_ (writeTimCmd_only ..) rfl
    exact onlyChanges_refl _ _
  · refine onlyChanges_then ?_ (writeIncrFrac_only ..) rfl
    exact onlyChanges_refl _ _
  · refine onlyChanges_then ?_ (writeSlewRate_only ..) rfl
    exact onlyChanges_refl _ _
  · refine onlyChanges_then ?_ (writeHold_only ..) rfl
    exact onlyChanges_refl _ _
  · refine onlyChanges_then ?_ (writePps_only ..) rfl
    exact onlyChanges_refl _ _
  · refine onlyChanges_ite ?_ ?_
    · extract_lets v9
      split
      · refine onlyChanges_then ?_ (writeTrigCtrl_only ..) rfl
        exact onlyChanges_refl _ _
      · refine onlyChanges_then ?_ (modTrig_only ..) rfl
        exact onlyChanges_refl _ _
      · refine onlyChanges_then ?_ (plainWrite_only ..) rfl
        exact onlyChanges_refl _ _
    · refine onlyChanges_ite ?_ ?_
      · refine onlyChanges_then ?_ (modCap_only ..) rfl
        exact onlyChanges_refl _ _
      · refine onlyChanges_then ?_ (plainWrite_only ..) rfl
        exact onlyChanges_refl _ _

theorem writeCle_only (s : State) (idx : Nat) (o : Nat) (v : Word) : onlyChanges [.regs, .cle] s (writeCle s idx o v) := by
  unfold writeCle
  split
  · refine onlyChanges_then ?_ (modCle_only ..) rfl
    exact onlyChanges_refl _ _
  · refine onlyChanges_then ?_ (writeCleCommit_only ..) rfl
    exact onlyChanges_refl _ _
  · refine onlyChanges_then ?_ (writeLen_only ..) rfl
    exact onlyChanges_refl _ _
  · refine onlyChanges_then ?_ (writeAdcCtrl_only ..) rfl
    exact onlyChanges_refl _ _
  · refine onlyChanges_then ?_ (writeSetpoint_only ..) rfl
    exact onlyChanges_refl _ _
  · refine onlyChanges_then ?_ (writeSetpoint_only ..) rfl
    exact onlyChanges_refl _ _
  · refine onlyChanges_ite ?_ ?_
    · refine onlyChanges_then ?_ (writeSetpoint_only ..) rfl
      exact onlyChanges_refl _ _
    · refine onlyChanges_ite ?_ ?_
      · extract_lets v11
        split
        · refine onlyChanges_then ?_ (writeLoopCtrl_only ..) rfl
          exact onlyChanges_refl _ _
        · refine onlyChanges_then ?_ (writeLoopTime_only ..) rfl
          exact onlyChanges_refl _ _
        · refine onlyChanges_then ?_ (writeLoopTime_only ..) rfl
          exact onlyChanges_refl _ _
        · refine onlyChanges_then ?_ (plainWrite_only ..) rfl
          exact onlyChanges_refl _ _
      · refine onlyChanges_ite ?_ ?_
        · refine onlyChanges_then ?_ (modLoop_only ..) rfl
          exact onlyChanges_refl _ _
        · refine onlyChanges_then ?_ (plainWrite_only ..) rfl
          exact onlyChanges_refl _ _

theorem writeLce_only (s : State) (idx : Nat) (o : Nat) (v : Word) : onlyChanges [.regs, .lce] s (writeLce s idx o v) := by
  unfold writeLce
  refine onlyChanges_ite ?_ ?_
  · refine onlyChanges_then ?_ (writeLceCommit_only ..) rfl
    exact onlyChanges_refl _ _
  · refine onlyChanges_ite ?_ ?_
    · extract_lets v8
      split
      · refine onlyChanges_then ?_ (writeLceCtrl_only ..) rfl
        exact onlyChanges_refl _ _
      · refine onlyChanges_then ?_ (modChain_only ..) rfl
        exact onlyChanges_refl _ _
      · refine onlyChanges_then ?_ (plainWrite_only ..) rfl
        exact onlyChanges_refl _ _
    · refine onlyChanges_then ?_ (plainWrite_only ..) rfl
      exact onlyChanges_refl _ _

theorem writeCrc_only (s : State) (idx : Nat) (o : Nat) (v : Word) : onlyChanges [.regs, .crc] s (writeCrc s idx o v) := by
  unfold writeCrc
  refine onlyChanges_ite ?_ ?_
  · refine raw_crc ?_ rfl
    exact onlyChanges_refl _ _
  · refine onlyChanges_ite ?_ ?_
    · extract_lets v10
      split
      · refine onlyChanges_then ?_ (writeCrcCfg_only ..) rfl
        exact onlyChanges_refl _ _
      · refine onlyChanges_then ?_ (writeCrcWord_only ..) rfl
        exact onlyChanges_refl _ _
      · refine onlyChanges_then ?_ (writeCrcWord_only ..) rfl
        exact onlyChanges_refl _ _
      · refine onlyChanges_then ?_ (writeCrcWord_only ..) rfl
        exact onlyChanges_refl _ _
      · refine onlyChanges_then ?_ (writeCrcWord_only ..) rfl
        exact onlyChanges_refl _ _
      · exact onlyChanges_refl _ _
    · refine onlyChanges_then ?_ (plainWrite_only ..) rfl
      exact onlyChanges_refl _ _

theorem writeFlt_only (s : State) (idx : Nat) (o : Nat) (v : Word) : onlyChanges [.out, .free, .regs, .flt, .saf, .pwr, .hif, .bld, .lanes] s (writeFlt s idx o v) := by
  unfold writeFlt
  split
  · refine onlyChanges_then ?_ (modFlt_only ..) rfl
    exact onlyChanges_refl _ _
  · refine onlyChanges_then ?_ (writeSticky_only ..) rfl
    exact onlyChanges_refl _ _
  · refine onlyChanges_then ?_ (writeSticky_only ..) rfl
    exact onlyChanges_refl _ _
  · refine onlyChanges_then ?_ (writeFirst_only ..) rfl
    exact onlyChanges_refl _ _
  · refine onlyChanges_ite ?_ ?_
    · refine onlyChanges_then ?_ (writeInj_only ..) rfl
      exact onlyChanges_refl _ _
    · exact onlyChanges_refl _ _
  · refine onlyChanges_then ?_ (writeCntClr_only ..) rfl
    exact onlyChanges_refl _ _
  · refine onlyChanges_then ?_ (writeCntClr_only ..) rfl
    exact onlyChanges_refl _ _
  · refine onlyChanges_ite ?_ ?_
    · refine onlyChanges_then ?_ (writeSev_only ..) rfl
      exact onlyChanges_refl _ _
    · refine onlyChanges_then ?_ (plainWrite_only ..) rfl
      exact onlyChanges_refl _ _

theorem writeSaf_only (s : State) (idx : Nat) (o : Nat) (v : Word) : onlyChanges [.out, .free, .regs, .flt, .saf, .pwr, .rng, .hif, .bld, .lanes, .tbl, .kps] s (writeSaf s idx o v) := by
  unfold writeSaf
  split
  · refine onlyChanges_then ?_ (modSaf_only ..) rfl
    exact onlyChanges_refl _ _
  · refine onlyChanges_then ?_ (writeUnlock_only ..) rfl
    exact onlyChanges_refl _ _
  · refine onlyChanges_then ?_ (modSaf_only ..) rfl
    exact onlyChanges_refl _ _
  · refine onlyChanges_then ?_ (modSaf_only ..) rfl
    exact onlyChanges_refl _ _
  · refine onlyChanges_then ?_ (writeHb_only ..) rfl
    exact onlyChanges_refl _ _
  · refine onlyChanges_then ?_ (modSaf_only ..) rfl
    exact onlyChanges_refl _ _
  · refine onlyChanges_ite ?_ ?_
    · exact onlyChanges_refl _ _
    · refine onlyChanges_then ?_ (plainWrite_only ..) rfl
      exact onlyChanges_refl _ _

theorem writeHkp_only (s : State) (idx : Nat) (o : Nat) (v : Word) : onlyChanges [.out, .free, .regs, .flt, .saf, .pwr, .hif, .bld, .lanes, .hkp] s (writeHkp s idx o v) := by
  unfold writeHkp
  split
  · refine onlyChanges_then ?_ (writeHkCtrl_only ..) rfl
    exact onlyChanges_refl _ _
  · refine onlyChanges_then ?_ (modHkp_only ..) rfl
    exact onlyChanges_refl _ _
  · refine onlyChanges_then ?_ (writeHkRound_only ..) rfl
    exact onlyChanges_refl _ _
  · refine onlyChanges_ite ?_ ?_
    · refine onlyChanges_then ?_ (writeNtc_only ..) rfl
      exact onlyChanges_refl _ _
    · refine onlyChanges_then ?_ (plainWrite_only ..) rfl
      exact onlyChanges_refl _ _

theorem writePwr_only (s : State) (idx : Nat) (o : Nat) (v : Word) : onlyChanges [.regs, .pwr, .lanes] s (writePwr s idx o v) := by
  unfold writePwr
  split
  · refine onlyChanges_then ?_ (writePwrCtrl_only ..) rfl
    exact onlyChanges_refl _ _
  · refine onlyChanges_then ?_ (modPwr_only ..) rfl
    exact onlyChanges_refl _ _
  · refine onlyChanges_then ?_ (writePwrCmd_only ..) rfl
    exact onlyChanges_refl _ _
  · refine onlyChanges_then ?_ (modPwr_only ..) rfl
    exact onlyChanges_refl _ _
  · refine onlyChanges_then ?_ (plainWrite_only ..) rfl
    exact onlyChanges_refl _ _

theorem writeRst_only (s : State) (o : Nat) (v : Word) : onlyChanges [.out, .free, .regs, .mem, .flt, .saf, .rst, .pwr, .rng, .hif, .crc, .glb, .lmm, .ly, .shd, .bld, .pxc, .tg, .lanes, .tbl, .net, .tim, .cle, .lce, .hkp, .kps, .cbl] s (writeRst s o v) := by
  unfold writeRst
  split
  · refine onlyChanges_then ?_ (modRst_only ..) rfl
    exact onlyChanges_refl _ _
  · refine onlyChanges_then ?_ (writeRstCmd_only ..) rfl
    exact onlyChanges_refl _ _
  · refine onlyChanges_then ?_ (writeRstBlock_only ..) rfl
    exact onlyChanges_refl _ _
  · refine onlyChanges_then ?_ (modRst_only ..) rfl
    exact onlyChanges_refl _ _
  · refine onlyChanges_then ?_ (writeBootCmd_only ..) rfl
    exact onlyChanges_refl _ _
  · exact onlyChanges_refl _ _

theorem writePxcHead_only (s : State) (h : Head) (idx : Nat) (o : Nat) (v : Word) : onlyChanges [.out, .free, .regs, .mem, .flt, .saf, .pwr, .rng, .hif, .lmm, .ly, .bld, .pxc, .tg, .lanes, .tbl, .kps, .cbl] s (writePxcHead s h idx o v) := by
  unfold writePxcHead
  split
  · refine onlyChanges_ite ?_ ?_
    · refine onlyChanges_then ?_ (reconfigure_only ..) rfl
      refine onlyChanges_then ?_ (plainWrite_only ..) rfl
      exact onlyChanges_refl _ _
    · exact onlyChanges_refl _ _
  · refine onlyChanges_then ?_ (clearHealth_only ..) rfl
    exact onlyChanges_refl _ _
  · refine onlyChanges_then ?_ (plainWrite_only ..) rfl
    exact onlyChanges_refl _ _

theorem writePxc_only (s : State) (idx : Nat) (o : Nat) (v : Word) : onlyChanges [.out, .free, .regs, .mem, .flt, .saf, .pwr, .rng, .hif, .lmm, .ly, .bld, .pxc, .tg, .lanes, .tbl, .kps, .cbl] s (writePxc s idx o v) := by
  unfold writePxc
  split
  · refine raw_pxc ?_ rfl
    exact onlyChanges_refl _ _
  · refine onlyChanges_ite ?_ ?_
    · refine onlyChanges_then ?_ (doseCheckpoint_only ..) rfl
      refine onlyChanges_then ?_ (plainWrite_only ..) rfl
      exact onlyChanges_refl _ _
    · refine onlyChanges_then ?_ (plainWrite_only ..) rfl
      exact onlyChanges_refl _ _
  · refine onlyChanges_ite ?_ ?_
    · refine onlyChanges_then ?_ (writeAging_only ..) rfl
      exact onlyChanges_refl _ _
    · refine onlyChanges_ite ?_ ?_
      · refine onlyChanges_then ?_ (writePxcHead_only ..) rfl
        exact onlyChanges_refl _ _
      · refine onlyChanges_ite ?_ ?_
        · refine onlyChanges_then ?_ (writePxcHead_only ..) rfl
          exact onlyChanges_refl _ _
        · refine onlyChanges_then ?_ (plainWrite_only ..) rfl
          exact onlyChanges_refl _ _

theorem writeKps_only (s : State) (idx : Nat) (o : Nat) (v : Word) : onlyChanges [.out, .free, .regs, .flt, .saf, .pwr, .hif, .bld, .lanes, .kps] s (writeKps s idx o v) := by
  unfold writeKps
  split
  · refine onlyChanges_then ?_ (spareLevel_only ..) rfl
    refine onlyChanges_then ?_ (plainWrite_only ..) rfl
    exact onlyChanges_refl _ _
  · refine onlyChanges_then ?_ (modKps_only ..) rfl
    exact onlyChanges_refl _ _
  · refine onlyChanges_then ?_ (fuseProgramWrite_only ..) rfl
    exact onlyChanges_refl _ _
  · refine onlyChanges_then ?_ (modKps_only ..) rfl
    exact onlyChanges_refl _ _
  · refine onlyChanges_then ?_ (plainWrite_only ..) rfl
    exact onlyChanges_refl _ _

theorem writeShdHead_only (s : State) (h : Head) (idx : Nat) (o : Nat) (v : Word) : onlyChanges [.regs, .shd] s (writeShdHead s h idx o v) := by
  unfold writeShdHead
  split
  · refine onlyChanges_then ?_ (writeMapCfg_only ..) rfl
    exact onlyChanges_refl _ _
  · refine onlyChanges_ite ?_ ?_
    · refine onlyChanges_then ?_ (writeAge_only ..) rfl
      exact onlyChanges_refl _ _
    · exact onlyChanges_refl _ _
  · refine onlyChanges_ite ?_ ?_
    · refine onlyChanges_then ?_ (writeAge_only ..) rfl
      exact onlyChanges_refl _ _
    · exact onlyChanges_refl _ _
  · refine onlyChanges_ite ?_ ?_
    · refine onlyChanges_then ?_ (writeMapWord_only ..) rfl
      exact onlyChanges_refl _ _
    · refine onlyChanges_then ?_ (plainWrite_only ..) rfl
      exact onlyChanges_refl _ _

theorem writeShd_only (s : State) (idx : Nat) (o : Nat) (v : Word) : onlyChanges [.regs, .shd] s (writeShd s idx o v) := by
  unfold writeShd
  split
  · refine onlyChanges_then ?_ (writeShdCtrl_only ..) rfl
    exact onlyChanges_refl _ _
  · extract_lets v12
    have hv12 : onlyChanges [.regs, .shd] s v12 := by
      refine raw_shdRefused ?_ rfl
      exact onlyChanges_refl _ _
    refine onlyChanges_then ?_ (modShd_only ..) rfl
    refine onlyChanges_then ?_ (modShd_only ..) rfl
    exact hv12
  · refine onlyChanges_ite ?_ ?_
    · refine onlyChanges_then ?_ (writeShdHead_only ..) rfl
      exact onlyChanges_refl _ _
    · refine onlyChanges_ite ?_ ?_
      · refine onlyChanges_then ?_ (writeShdHead_only ..) rfl
        exact onlyChanges_refl _ _
      · refine onlyChanges_ite ?_ ?_
        · refine onlyChanges_then ?_ (writeMapWord_only ..) rfl
          exact onlyChanges_refl _ _
        · refine onlyChanges_then ?_ (plainWrite_only ..) rfl
          exact onlyChanges_refl _ _

theorem writeBldHead_only (s : State) (h : Head) (idx : Nat) (o : Nat) (v : Word) : onlyChanges [.regs, .bld] s (writeBldHead s h idx o v) := by
  unfold writeBldHead
  refine onlyChanges_ite ?_ ?_
  · refine onlyChanges_then ?_ (writeToneCtrl_only ..) rfl
    exact onlyChanges_refl _ _
  · refine onlyChanges_ite ?_ ?_
    · refine onlyChanges_then ?_ (writeHeadroom_only ..) rfl
      exact onlyChanges_refl _ _
    · refine onlyChanges_then ?_ (plainWrite_only ..) rfl
      exact onlyChanges_refl _ _

theorem writeBld_only (s : State) (idx : Nat) (o : Nat) (v : Word) : onlyChanges [.regs, .bld] s (writeBld s idx o v) := by
  unfold writeBld
  refine onlyChanges_ite ?_ ?_
  · refine onlyChanges_then ?_ (modBld_only ..) rfl
    refine onlyChanges_then ?_ (modBld_only ..) rfl
    exact onlyChanges_refl _ _
  · refine onlyChanges_ite ?_ ?_
    · refine onlyChanges_then ?_ (writeBldHead_only ..) rfl
      exact onlyChanges_refl _ _
    · refine onlyChanges_ite ?_ ?_
      · refine onlyChanges_then ?_ (writeBldHead_only ..) rfl
        exact onlyChanges_refl _ _
      · refine onlyChanges_ite ?_ ?_
        · extract_lets v15
          refine onlyChanges_then ?_ (writeTone_only ..) rfl
          exact onlyChanges_refl _ _
        · exact onlyChanges_refl _ _

theorem routeWrite_only (s : State) (idx : Nat) (v : Word) : onlyChanges [.out, .free, .regs, .mem, .flt, .saf, .rst, .pwr, .rng, .hif, .crc, .glb, .lmm, .ly, .shd, .bld, .pxc, .tg, .lanes, .tbl, .net, .tim, .cle, .lce, .hkp, .kps, .cbl] s (routeWrite s idx v) := by
  unfold routeWrite
  extract_lets v13 v14
  split
  · refine onlyChanges_then ?_ (writeGlb_only ..) rfl
    exact onlyChanges_refl _ _
  · refine onlyChanges_then ?_ (writeHif_only ..) rfl
    exact onlyChanges_refl _ _
  · refine onlyChanges_then ?_ (writeRng_only ..) rfl
    exact onlyChanges_refl _ _
  · refine onlyChanges_then ?_ (writeLmm_only ..) rfl
    exact onlyChanges_refl _ _
  · refine onlyChanges_then ?_ (writeLy_only ..) rfl
    exact onlyChanges_refl _ _
  · refine onlyChanges_then ?_ (writeLy_only ..) rfl
    exact onlyChanges_refl _ _
  · refine onlyChanges_then ?_ (writeTg_only ..) rfl
    exact onlyChanges_refl _ _
  · refine onlyChanges_then ?_ (writeTg_only ..) rfl
    exact onlyChanges_refl _ _
  · refine onlyChanges_then ?_ (writeLn_only ..) rfl
    exact onlyChanges_refl _ _
  · refine onlyChanges_then ?_ (writeLn_only ..) rfl
    exact onlyChanges_refl _ _
  · refine onlyChanges_then ?_ (writeLn_only ..) rfl
    exact onlyChanges_refl _ _
  · refine onlyChanges_ite ?_ ?_
    · refine onlyChanges_then ?_ (writeTbl_only ..) rfl
      exact onlyChanges_refl _ _
    · refine onlyChanges_ite ?_ ?_
      · refine onlyChanges_then ?_ (writeTbl_only ..) rfl
        exact onlyChanges_refl _ _
      · exact onlyChanges_refl _ _
  · refine onlyChanges_then ?_ (writeNet_only ..) rfl
    exact onlyChanges_refl _ _
  · refine onlyChanges_then ?_ (writeTim_only ..) rfl
    exact onlyChanges_refl _ _
  · refine onlyChanges_then ?_ (writeCle_only ..) rfl
    exact onlyChanges_refl _ _
  · refine onlyChanges_then ?_ (writeLce_only ..) rfl
    exact onlyChanges_refl _ _
  · refine onlyChanges_then ?_ (writeCrc_only ..) rfl
    exact onlyChanges_refl _ _
  · refine onlyChanges_then ?_ (writeFlt_only ..) rfl
    exact onlyChanges_refl _ _
  · refine onlyChanges_then ?_ (writeSaf_only ..) rfl
    exact onlyChanges_refl _ _
  · refine onlyChanges_then ?_ (writeHkp_only ..) rfl
    exact onlyChanges_refl _ _
  · refine onlyChanges_then ?_ (writePwr_only ..) rfl
    exact onlyChanges_refl _ _
  · refine onlyChanges_then ?_ (writeRst_only ..) rfl
    exact onlyChanges_refl _ _
  · refine onlyChanges_then ?_ (plainWrite_only ..) rfl
    exact onlyChanges_refl _ _
  · refine onlyChanges_ite ?_ ?_
    · refine onlyChanges_then ?_ (writePxc_only ..) rfl
      exact onlyChanges_refl _ _
    · refine onlyChanges_ite ?_ ?_
      · refine onlyChanges_then ?_ (writeKps_only ..) rfl
        exact onlyChanges_refl _ _
      · refine onlyChanges_ite ?_ ?_
        · refine onlyChanges_then ?_ (writeShd_only ..) rfl
          exact onlyChanges_refl _ _
        · refine onlyChanges_ite ?_ ?_
          · refine onlyChanges_then ?_ (writeBld_only ..) rfl
            exact onlyChanges_refl _ _
          · exact onlyChanges_refl _ _

theorem wordWrite_only (s : State) (idx : Nat) (v : Word) : onlyChanges [.out, .free, .regs, .mem, .flt, .saf, .rst, .pwr, .rng, .hif, .crc, .glb, .lmm, .ly, .shd, .bld, .pxc, .tg, .lanes, .tbl, .net, .tim, .cle, .lce, .hkp, .kps, .cbl] s (wordWrite s idx v) := by
  unfold wordWrite
  refine onlyChanges_ite ?_ ?_
  · refine onlyChanges_then ?_ (routeWrite_only ..) rfl
    exact onlyChanges_refl _ _
  · refine onlyChanges_then ?_ (routeWrite_only ..) rfl
    refine onlyChanges_then ?_ (freshParity_only ..) rfl
    exact onlyChanges_refl _ _

theorem noteAccess_only (s : State) (b : Bus) (idx : Nat) : onlyChanges [.glb] s (noteAccess s b idx) := by
  unfold noteAccess
  refine onlyChanges_then ?_ (modGlb_only ..) rfl
  exact onlyChanges_refl _ _

theorem noteOff_only (s : State) (b : Bus) (idx : Nat) : onlyChanges [.glb] s (noteOff s b idx) := by
  unfold noteOff
  refine onlyChanges_then ?_ (modGlb_only ..) rfl
  refine onlyChanges_then ?_ (noteAccess_only ..) rfl
  exact onlyChanges_refl _ _

theorem pageWrite_only (s : State) (idx : Nat) (whole : Bool) (v : Word) : onlyChanges [.out, .free, .flt, .saf, .pwr, .rng, .hif, .bld, .lanes] s (pageWrite s idx whole v) := by
  unfold pageWrite
  extract_lets v16
  refine onlyChanges_ite ?_ ?_
  · refine onlyChanges_then ?_ (doorbellWrite_only ..) rfl
    exact onlyChanges_refl _ _
  · exact onlyChanges_refl _ _

theorem portWrite_only (s0 : State) (b : Bus) (addr : Nat) (whole : Bool) (v : Word) : onlyChanges [.out, .free, .regs, .mem, .flt, .saf, .rst, .pwr, .rng, .hif, .crc, .glb, .lmm, .ly, .shd, .bld, .pxc, .tg, .lanes, .tbl, .net, .tim, .cle, .lce, .hkp, .kps, .cbl] s0 (portWrite s0 b addr whole v).2 := by
  unfold portWrite
  extract_lets v17 v18
  have hv17 : onlyChanges [.out, .free, .regs, .mem, .flt, .saf, .rst, .pwr, .rng, .hif, .crc,   .glb, .lmm, .ly, .shd, .bld, .pxc, .tg, .lanes, .tbl, .net, .tim,   .cle, .lce, .hkp, .kps, .cbl] s0 v17 := by
    refine onlyChanges_ite ?_ ?_
    · refine onlyChanges_then ?_ (linkWakes_only ..) rfl
      exact onlyChanges_refl _ _
    · exact onlyChanges_refl _ _
  split
  · dsimp -zeta only
    exact hv17
  · split
    · dsimp -zeta only
      exact hv17
    · split
      · dsimp -zeta only
        refine onlyChanges_then ?_ (modGlb_only ..) rfl
        refine onlyChanges_then ?_ (noteAccess_only ..) rfl
        exact hv17
      · split
        · dsimp -zeta only
          refine onlyChanges_then ?_ (modRst_only ..) rfl
          exact hv17
        · split
          · dsimp -zeta only
            refine onlyChanges_then ?_ (noteOff_only ..) rfl
            exact hv17
          · split
            · dsimp -zeta only
              refine onlyChanges_then ?_ (pageWrite_only ..) rfl
              refine onlyChanges_ite ?_ ?_
              · exact hv17
              · refine onlyChanges_then ?_ (idleExits_only ..) rfl
                exact hv17
            · dsimp -zeta only
              refine onlyChanges_then ?_ (wordWrite_only ..) rfl
              refine onlyChanges_ite ?_ ?_
              · exact hv17
              · refine onlyChanges_then ?_ (idleExits_only ..) rfl
                exact hv17

theorem portRead_only (s0 : State) (b : Bus) (addr : Nat) (upset : Bool) : onlyChanges [.out, .free, .regs, .flt, .saf, .pwr, .rng, .hif, .glb, .bld, .lanes, .tim, .kps, .cbl] s0 (portRead s0 b addr upset).2.2 := by
  unfold portRead
  extract_lets v19 v20
  have hv19 : onlyChanges [.out, .free, .regs, .flt, .saf, .pwr, .rng, .hif, .glb, .bld, .lanes,   .tim, .kps, .cbl] s0 v19 := by
    refine onlyChanges_ite ?_ ?_
    · refine onlyChanges_then ?_ (linkWakes_only ..) rfl
      exact onlyChanges_refl _ _
    · exact onlyChanges_refl _ _
  split
  · dsimp -zeta only
    exact hv19
  · split
    · dsimp -zeta only
      exact hv19
    · split
      · dsimp -zeta only
        refine onlyChanges_then ?_ (noteOff_only ..) rfl
        exact hv19
      · split
        · dsimp -zeta only
          exact hv19
        · split
          extract_lets v27
          have hv27 : onlyChanges [.out, .free, .regs, .flt, .saf, .pwr, .rng, .hif, .glb, .bld, .lanes,   .tim, .kps, .cbl] s0 v27 := by
            refine onlyChanges_ite ?_ ?_
            · refine onlyChanges_then ?_ (noteAccess_only ..) rfl
              refine onlyChanges_snd (by assumption) ?_
              refine onlyChanges_then ?_ (checkParity_only ..) rfl
              exact hv19
            · refine onlyChanges_snd (by assumption) ?_
              refine onlyChanges_then ?_ (checkParity_only ..) rfl
              exact hv19
          split
          dsimp -zeta only
          refine onlyChanges_snd (by assumption) ?_
          refine onlyChanges_then ?_ (readWord_only ..) rfl
          exact hv27

theorem svcAnswer_only (s : State) (data : List Byte) (status : Nat) : onlyChanges [.out] s (svcAnswer s data status) := by
  unfold svcAnswer
  extract_lets v21
  refine onlyChanges_then ?_ (emit_only ..) rfl
  exact onlyChanges_refl _ _

theorem svcCheck_only (s : State) (frame : List Byte) : onlyChanges [.out, .free, .regs, .flt, .saf, .pwr, .hif, .bld, .lanes] s (svcCheck s frame).2.2 := by
  unfold svcCheck
  extract_lets v22 v23
  split
  · dsimp -zeta only
    refine onlyChanges_then ?_ (spendInj_only ..) rfl
    exact onlyChanges_refl _ _
  · dsimp -zeta only
    exact onlyChanges_refl _ _

theorem svcCrcError_only (s : State) (inj : Bool) (data : List Byte) : onlyChanges [.out, .free, .flt, .saf, .pwr, .hif, .glb, .bld, .lanes] s (svcCrcError s inj data) := by
  unfold svcCrcError
  refine onlyChanges_then ?_ (svcAnswer_only ..) rfl
  refine onlyChanges_then ?_ (raiseInj_only ..) rfl
  refine onlyChanges_then ?_ (modGlb_only ..) rfl
  exact onlyChanges_refl _ _

theorem svcWriteFrame_only (s : State) (frame : List Byte) : onlyChanges [.out, .free, .regs, .mem, .flt, .saf, .rst, .pwr, .rng, .hif, .crc, .glb, .lmm, .ly, .shd, .bld, .pxc, .tg, .lanes, .tbl, .net, .tim, .cle, .lce, .hkp, .kps, .cbl] s (svcWriteFrame s frame) := by
  unfold svcWriteFrame
  split
  extract_lets v24
  refine onlyChanges_ite ?_ ?_
  · refine onlyChanges_then ?_ (svcCrcError_only ..) rfl
    refine onlyChanges_thd (by assumption) ?_
    refine onlyChanges_then ?_ (svcCheck_only ..) rfl
    exact onlyChanges_refl _ _
  · refine onlyChanges_ite ?_ ?_
    · refine onlyChanges_then ?_ (svcAnswer_only ..) rfl
      refine onlyChanges_thd (by assumption) ?_
      refine onlyChanges_then ?_ (svcCheck_only ..) rfl
      exact onlyChanges_refl _ _
    · split
      refine onlyChanges_then ?_ (svcAnswer_only ..) rfl
      refine onlyChanges_snd (by assumption) ?_
      refine onlyChanges_then ?_ (portWrite_only ..) rfl
      refine onlyChanges_thd (by assumption) ?_
      refine onlyChanges_then ?_ (svcCheck_only ..) rfl
      exact onlyChanges_refl _ _

theorem svcReadFrame_only (s : State) (frame : List Byte) (upset : Bool) : onlyChanges [.out, .free, .regs, .flt, .saf, .pwr, .rng, .hif, .glb, .bld, .lanes, .tim, .kps, .cbl] s (svcReadFrame s frame upset) := by
  unfold svcReadFrame
  split
  extract_lets v25
  refine onlyChanges_ite ?_ ?_
  · refine onlyChanges_then ?_ (svcCrcError_only ..) rfl
    refine onlyChanges_thd (by assumption) ?_
    refine onlyChanges_then ?_ (svcCheck_only ..) rfl
    exact onlyChanges_refl _ _
  · refine onlyChanges_ite ?_ ?_
    · refine onlyChanges_then ?_ (svcAnswer_only ..) rfl
      refine onlyChanges_thd (by assumption) ?_
      refine onlyChanges_then ?_ (svcCheck_only ..) rfl
      exact onlyChanges_refl _ _
    · split
      refine onlyChanges_then ?_ (svcAnswer_only ..) rfl
      refine onlyChanges_thd (by assumption) ?_
      refine onlyChanges_then ?_ (portRead_only ..) rfl
      refine onlyChanges_thd (by assumption) ?_
      refine onlyChanges_then ?_ (svcCheck_only ..) rfl
      exact onlyChanges_refl _ _

theorem writeThrough_only (b : Bus) (addr : Nat) (whole : Bool) (v : Word) (s : State) : onlyChanges [.out, .free, .regs, .mem, .flt, .saf, .rst, .pwr, .rng, .hif, .crc, .glb, .lmm, .ly, .shd, .bld, .pxc, .tg, .lanes, .tbl, .net, .tim, .cle, .lce, .hkp, .kps, .cbl] s (writeThrough b addr whole v s) := by
  unfold writeThrough
  split
  · refine onlyChanges_ite ?_ ?_
    · refine onlyChanges_then ?_ (portWrite_only ..) rfl
      exact onlyChanges_refl _ _
    · exact onlyChanges_refl _ _
  · refine onlyChanges_ite ?_ ?_
    · refine onlyChanges_then ?_ (svcWriteFrame_only ..) rfl
      exact onlyChanges_refl _ _
    · exact onlyChanges_refl _ _
  · exact onlyChanges_refl _ _

theorem busWrite_only (s : State) (b : Bus) (addr : Nat) (whole : Bool) (v : Word) : onlyChanges [.out, .free, .regs, .mem, .flt, .saf, .rst, .pwr, .rng, .hif, .crc, .glb, .lmm, .ly, .shd, .bld, .pxc, .tg, .lanes, .tbl, .net, .tim, .cle, .lce, .hkp, .kps, .cbl] s (busWrite s b addr whole v) := by
  unfold busWrite
  refine inOneCycle_only (fun t26 => ?_) rfl
  refine onlyChanges_then ?_ (writeThrough_only ..) rfl
  exact onlyChanges_refl _ _

theorem pcieRead_only (s : State) (addr : Nat) (enables : Nat) (upset : Bool) : onlyChanges [.out, .free, .regs, .flt, .saf, .pwr, .rng, .hif, .glb, .bld, .lanes, .tim, .kps, .cbl] s (pcieRead s addr enables upset) := by
  unfold pcieRead
  split
  refine onlyChanges_then ?_ (emit_only ..) rfl
  refine onlyChanges_thd (by assumption) ?_
  refine onlyChanges_then ?_ (portRead_only ..) rfl
  exact onlyChanges_refl _ _

theorem readThrough_only (b : Bus) (addr : Nat) (s : State) : onlyChanges [.out, .free, .regs, .flt, .saf, .pwr, .rng, .hif, .glb, .bld, .lanes, .tim, .kps, .cbl] s (readThrough b addr s) := by
  unfold readThrough
  split
  · refine onlyChanges_ite ?_ ?_
    · refine onlyChanges_then ?_ (pcieRead_only ..) rfl
      exact onlyChanges_refl _ _
    · exact onlyChanges_refl _ _
  · refine onlyChanges_ite ?_ ?_
    · refine onlyChanges_then ?_ (svcReadFrame_only ..) rfl
      exact onlyChanges_refl _ _
    · exact onlyChanges_refl _ _
  · exact onlyChanges_refl _ _

theorem busRead_only (s : State) (b : Bus) (addr : Nat) : onlyChanges [.out, .free, .regs, .flt, .saf, .pwr, .rng, .hif, .glb, .bld, .lanes, .net, .tim, .kps, .cbl] s (busRead s b addr) := by
  unfold busRead
  refine inOneCycle_only (fun t28 => ?_) rfl
  refine onlyChanges_then ?_ (readThrough_only ..) rfl
  exact onlyChanges_refl _ _

theorem checkNext_only (s : State) (p : Nat) : onlyChanges [.glb] s (checkNext s p) := by
  unfold checkNext
  split
  · refine onlyChanges_then ?_ (modGlb_only ..) rfl
    exact onlyChanges_refl _ _
  · refine onlyChanges_then ?_ (modGlb_only ..) rfl
    exact onlyChanges_refl _ _

theorem backgroundCheck_only (s : State) (upset : Bool) : onlyChanges [.out, .free, .regs, .flt, .saf, .pwr, .hif, .glb, .bld, .lanes] s (backgroundCheck s upset) := by
  unfold backgroundCheck
  refine onlyChanges_ite ?_ ?_
  · exact onlyChanges_refl _ _
  · split
    · refine onlyChanges_then ?_ (checkNext_only ..) rfl
      exact onlyChanges_refl _ _
    · split
      refine onlyChanges_then ?_ (checkNext_only ..) rfl
      refine onlyChanges_ite ?_ ?_
      · refine onlyChanges_then ?_ (noteAccess_only ..) rfl
        refine onlyChanges_snd (by assumption) ?_
        refine onlyChanges_then ?_ (checkParity_only ..) rfl
        exact onlyChanges_refl _ _
      · refine onlyChanges_snd (by assumption) ?_
        refine onlyChanges_then ?_ (checkParity_only ..) rfl
        exact onlyChanges_refl _ _

theorem queryActs_only (s : State) (ring : Nat) (slot : Nat) (d : Desc) : onlyChanges [.out, .free, .regs, .flt, .saf, .pwr, .rng, .hif, .glb, .lmm, .bld, .pxc, .lanes, .tbl, .tim, .kps, .cbl] s (queryActs s ring slot d) := by
  unfold queryActs
  split
  · refine onlyChanges_then ?_ (completeAt_only ..) rfl
    exact onlyChanges_refl _ _
  · refine onlyChanges_ite ?_ ?_
    · split
      refine onlyChanges_then ?_ (completeWord_only ..) rfl
      refine onlyChanges_thd (by assumption) ?_
      refine onlyChanges_then ?_ (portRead_only ..) rfl
      exact onlyChanges_refl _ _
    · split
      · refine onlyChanges_then ?_ (completeAt_only ..) rfl
        exact onlyChanges_refl _ _
      · split
        · refine onlyChanges_then ?_ (completeAt_only ..) rfl
          exact onlyChanges_refl _ _
        · refine onlyChanges_then ?_ (completeAt_only ..) rfl
          refine onlyChanges_ite ?_ ?_
          · refine onlyChanges_then ?_ (approveProposal_only ..) rfl
            exact onlyChanges_refl _ _
          · refine onlyChanges_then ?_ (declineProposal_only ..) rfl
            exact onlyChanges_refl _ _

theorem mapWork_only (s : State) (ring : Nat) (slot : Nat) (f : Work → Work) : onlyChanges [.rng] s (mapWork s ring slot f) := by
  unfold mapWork
  refine onlyChanges_then ?_ (modRng_only ..) rfl
  exact onlyChanges_refl _ _

theorem fenceActs_only (s : State) (ring : Nat) (slot : Nat) (d : Desc) : onlyChanges [.out, .free, .rng, .hif] s (fenceActs s ring slot d) := by
  unfold fenceActs
  split
  · refine onlyChanges_then ?_ (completeAt_only ..) rfl
    exact onlyChanges_refl _ _
  · extract_lets v31 v32
    refine onlyChanges_then ?_ (mapWork_only ..) rfl
    exact onlyChanges_refl _ _

theorem abortRunning_only (s : State) (w : Work) : onlyChanges [.out, .free, .rng, .hif, .shd, .pxc, .net, .lce, .kps] s (abortRunning s w).2 := by
  unfold abortRunning
  extract_lets v29 v30
  split
  · split
    · dsimp -zeta only
      refine onlyChanges_then ?_ (completeAt_only ..) rfl
      refine onlyChanges_then ?_ (dropList_only ..) rfl
      exact onlyChanges_refl _ _
    · dsimp -zeta only
      exact onlyChanges_refl _ _
  · split
    · split
      · dsimp -zeta only
        refine onlyChanges_then ?_ (calDrop_only ..) rfl
        exact onlyChanges_refl _ _
      · dsimp -zeta only
        exact onlyChanges_refl _ _
    · dsimp -zeta only
      exact onlyChanges_refl _ _
  · split
    · dsimp -zeta only
      exact onlyChanges_refl _ _
    · dsimp -zeta only
      refine onlyChanges_then ?_ (completeAt_only ..) rfl
      refine onlyChanges_then ?_ (dropLastWrite_only ..) rfl
      exact onlyChanges_refl _ _
  · split
    · dsimp -zeta only
      exact onlyChanges_refl _ _
    · split
      split
      · dsimp -zeta only
        refine onlyChanges_then ?_ (stageWork_only ..) rfl
        refine onlyChanges_snd (by assumption) ?_
        refine onlyChanges_then ?_ (drawBelow_only ..) rfl
        exact onlyChanges_refl _ _
      · dsimp -zeta only
        refine onlyChanges_then ?_ (completeWord_only ..) rfl
        refine onlyChanges_snd (by assumption) ?_
        refine onlyChanges_then ?_ (drawBelow_only ..) rfl
        exact onlyChanges_refl _ _
  · split
    · dsimp -zeta only
      exact onlyChanges_refl _ _
    · dsimp -zeta only
      refine onlyChanges_then ?_ (completeAt_only ..) rfl
      refine onlyChanges_then ?_ (modChain_only ..) rfl
      exact onlyChanges_refl _ _
  · split
    · dsimp -zeta only
      exact onlyChanges_refl _ _
    · dsimp -zeta only
      refine onlyChanges_then ?_ (completeAt_only ..) rfl
      refine onlyChanges_then ?_ (modPort_only ..) rfl
      exact onlyChanges_refl _ _
  · dsimp -zeta only
    refine onlyChanges_then ?_ (completeWord_only ..) rfl
    exact onlyChanges_refl _ _
  · dsimp -zeta only
    refine onlyChanges_then ?_ (completeAt_only ..) rfl
    exact onlyChanges_refl _ _
  · dsimp -zeta only
    exact onlyChanges_refl _ _

theorem abortHeldCommit_only (s : State) (h : Head) (ms : List Member) : onlyChanges [.out, .free, .rng, .hif] s (abortHeldCommit s h ms) := by
  unfold abortHeldCommit
  split
  extract_lets v33 v34
  have hv34 : onlyChanges [.out, .free, .rng, .hif] s v34 := by
    refine onlyChanges_then ?_ (completeSet_only ..) rfl
    refine onlyChanges_snd (by assumption) ?_
    refine onlyChanges_then ?_ (stampHost_only ..) rfl
    exact onlyChanges_refl _ _
  refine onlyChanges_ite ?_ ?_
  · refine onlyChanges_then ?_ (recordOutcome_only ..) rfl
    refine onlyChanges_then ?_ (modRngHead_only ..) rfl
    exact hv34
  · exact hv34

theorem abortMembers_only {s : State} {h : Head} {ring : Nat} {tag : Half} {t : State} (h : abortMembers s h ring tag = some t) : onlyChanges [.out, .free, .rng, .hif, .ly, .bld, .tg] s t := by
  unfold abortMembers at h
  dsimp only at h
  repeat' split at h
  all_goals first | contradiction | skip
  all_goals injection h with h
  all_goals subst h
  all_goals repeat first
    | (with_reducible exact onlyChanges_refl _ _)
    | (with_reducible refine onlyChanges_then ?_ (abortHeldCommit_only ..) rfl)
    | (with_reducible refine onlyChanges_then ?_ (abortOpen_only ..) rfl)
    | (with_reducible refine onlyChanges_then ?_ (abortSet_only ..) rfl)
    | (with_reducible refine onlyChanges_then ?_ (completeSet_only ..) rfl)
    | (with_reducible refine onlyChanges_then ?_ (dropWork_only ..) rfl)
    | (with_reducible refine onlyChanges_then ?_ (stampHost_only ..) rfl)
    | (with_reducible refine onlyChanges_then ?_ (onlyChanges_snd (by assumption) (stampHost_only ..)) rfl)
    | (with_reducible refine onlyChanges_then ?_ (modRngHead_only ..) rfl)
    | (with_reducible refine onlyChanges_ite ?_ ?_)
    | split

theorem abortTarget_only (s : State) (ring : Nat) (tag : Half) (own : Nat × Nat) : onlyChanges [.out, .free, .rng, .hif, .ly, .shd, .bld, .pxc, .tg, .net, .lce, .kps] s (abortTarget s ring tag own).2 := by
  unfold abortTarget
  split
  · split
    · exact onlyChanges_refl _ _
    · split
      · exact onlyChanges_then (onlyChanges_refl _ _) (abortHeld_only ..) rfl
      · exact onlyChanges_then (onlyChanges_refl _ _) (abortRunning_only ..) rfl
  · split
    · rename_i t ht
      obtain ⟨h, hh, hm⟩ := List.exists_of_findSome?_eq_some ht
      exact onlyChanges_then (onlyChanges_refl _ _) (abortMembers_only hm) rfl
    · exact onlyChanges_refl _ _

theorem abortActs_only (s : State) (ring : Nat) (slot : Nat) (d : Desc) : onlyChanges [.out, .free, .rng, .hif, .ly, .shd, .bld, .pxc, .tg, .net, .lce, .kps] s (abortActs s ring slot d) := by
  unfold abortActs
  split
  · refine onlyChanges_then ?_ (completeAt_only ..) rfl
    exact onlyChanges_refl _ _
  · extract_lets v35
    have hv35 : onlyChanges [.out, .free, .rng, .hif, .ly, .shd, .bld, .pxc, .tg, .net, .lce, .kps] s v35.2 := by
      refine onlyChanges_then ?_ (abortTarget_only ..) rfl
      exact onlyChanges_refl _ _
    refine onlyChanges_then ?_ (completeAt_only ..) rfl
    exact hv35

theorem workActs_only (s : State) (w : Work) : onlyChanges [.out, .free, .regs, .flt, .saf, .pwr, .rng, .hif, .glb, .lmm, .ly, .shd, .bld, .pxc, .tg, .lanes, .tbl, .net, .tim, .lce, .kps, .cbl] s (workActs s w) := by
  unfold workActs
  extract_lets v36 v37 v38
  refine onlyChanges_ite ?_ ?_
  · refine onlyChanges_then ?_ (completeAt_only ..) rfl
    exact onlyChanges_refl _ _
  · refine onlyChanges_ite ?_ ?_
    · refine onlyChanges_then ?_ (completeAt_only ..) rfl
      exact onlyChanges_refl _ _
    · split
      · split
        · refine onlyChanges_then ?_ (completeAt_only ..) rfl
          exact onlyChanges_refl _ _
        · refine onlyChanges_then ?_ (completeAt_only ..) rfl
          exact onlyChanges_refl _ _
      · refine onlyChanges_then ?_ (objectsFetch_only ..) rfl
        exact onlyChanges_refl _ _
      · refine onlyChanges_then ?_ (calFetch_only ..) rfl
        exact onlyChanges_refl _ _
      · refine onlyChanges_then ?_ (lastWriteFetch_only ..) rfl
        exact onlyChanges_refl _ _
      · refine onlyChanges_then ?_ (crcFetch_only ..) rfl
        exact onlyChanges_refl _ _
      · refine onlyChanges_then ?_ (laceFetch_only ..) rfl
        exact onlyChanges_refl _ _
      · refine onlyChanges_then ?_ (txFetch_only ..) rfl
        exact onlyChanges_refl _ _
      · refine onlyChanges_then ?_ (rxFetch_only ..) rfl
        exact onlyChanges_refl _ _
      · refine onlyChanges_then ?_ (queryActs_only ..) rfl
        exact onlyChanges_refl _ _
      · refine onlyChanges_then ?_ (fenceActs_only ..) rfl
        exact onlyChanges_refl _ _
      · refine onlyChanges_then ?_ (abortActs_only ..) rfl
        exact onlyChanges_refl _ _
      · refine onlyChanges_then ?_ (completeAt_only ..) rfl
        exact onlyChanges_refl _ _

theorem runWork_only (s : State) (w : Work) : onlyChanges [.out, .free, .regs, .flt, .saf, .pwr, .rng, .hif, .glb, .lmm, .ly, .shd, .bld, .pxc, .tg, .lanes, .tbl, .net, .tim, .lce, .kps, .cbl] s (runWork s w) := by
  unfold runWork
  split
  · refine onlyChanges_ite ?_ ?_
    · refine onlyChanges_ite ?_ ?_
      · refine onlyChanges_then ?_ (commitFetched_only ..) rfl
        refine onlyChanges_then ?_ (dropWork_only ..) rfl
        exact onlyChanges_refl _ _
      · refine onlyChanges_then ?_ (memberFetch_only ..) rfl
        refine onlyChanges_then ?_ (dropWork_only ..) rfl
        exact onlyChanges_refl _ _
    · refine onlyChanges_then ?_ (workActs_only ..) rfl
      refine onlyChanges_then ?_ (stageWork_only ..) rfl
      exact onlyChanges_refl _ _
  · refine onlyChanges_then ?_ (workActs_only ..) rfl
    refine onlyChanges_then ?_ (stageWork_only ..) rfl
    exact onlyChanges_refl _ _

theorem fenceGoes_only (s : State) (w : Work) : onlyChanges [.out, .free, .rng, .hif] s (fenceGoes s w) := by
  unfold fenceGoes
  refine onlyChanges_ite ?_ ?_
  · refine onlyChanges_then ?_ (stageWork_only ..) rfl
    exact onlyChanges_refl _ _
  · refine onlyChanges_then ?_ (completeAt_only ..) rfl
    exact onlyChanges_refl _ _

theorem settleRings_only (x1 : Nat) (x2 : State) : onlyChanges [.out, .free, .regs, .flt, .saf, .pwr, .rng, .hif, .glb, .lmm, .ly, .shd, .bld, .pxc, .tg, .lanes, .tbl, .net, .tim, .lce, .kps, .cbl] x2 (settleRings x1 x2) := by
  induction x1 generalizing x2 with
  | zero => exact onlyChanges_refl _ _
  | succ n ih =>
    unfold settleRings
    repeat first
      | (with_reducible exact onlyChanges_refl _ _)
      | (with_reducible refine onlyChanges_trans ?_ (ih ..))
      | (with_reducible refine onlyChanges_then ?_ (fenceGoes_only ..) rfl)
      | (with_reducible refine onlyChanges_then ?_ (runWork_only ..) rfl)
      | (with_reducible refine onlyChanges_ite ?_ ?_)
      | split
      | dsimp only

theorem settleFences_only (x1 : Nat) (x2 : State) : onlyChanges [.out, .free, .rng, .hif] x2 (settleFences x1 x2) := by
  induction x1 generalizing x2 with
  | zero => exact onlyChanges_refl _ _
  | succ n ih =>
    unfold settleFences
    repeat first
      | (with_reducible exact onlyChanges_refl _ _)
      | (with_reducible refine onlyChanges_trans ?_ (ih ..))
      | (with_reducible refine onlyChanges_then ?_ (fenceGoes_only ..) rfl)
      | (with_reducible refine onlyChanges_ite ?_ ?_)
      | split
      | dsimp only

theorem ringSettle_only (s : State) : onlyChanges [.out, .free, .regs, .flt, .saf, .pwr, .rng, .hif, .glb, .lmm, .ly, .shd, .bld, .pxc, .tg, .lanes, .tbl, .net, .tim, .lce, .kps, .cbl] s (ringSettle s) := by
  unfold ringSettle
  refine onlyChanges_ite ?_ ?_
  · refine onlyChanges_then ?_ (settleRings_only ..) rfl
    exact onlyChanges_refl _ _
  · refine onlyChanges_then ?_ (settleFences_only ..) rfl
    exact onlyChanges_refl _ _

theorem fencesStitch_only (before : State) (s : State) (h : Head) : onlyChanges [.rng] s (fencesStitch before s h) := by
  unfold fencesStitch
  extract_lets v39
  refine foldl_only ?_ (fun t40 a40 => ?_)
  · exact onlyChanges_refl _ _
  · refine onlyChanges_then ?_ (mapWork_only ..) rfl
    exact onlyChanges_refl _ _

theorem discardOther_only (s : State) (ring : Nat) (d : Desc) (ok : Bool) : onlyChanges [.out, .free, .flt, .saf, .pwr, .rng, .hif, .bld, .lanes] s (discardOther s ring d ok) := by
  unfold discardOther
  split
  · exact onlyChanges_refl _ _
  · extract_lets v41
    split
    · refine onlyChanges_ite ?_ ?_
      · refine onlyChanges_then ?_ (discardSet_only ..) rfl
        exact onlyChanges_refl _ _
      · exact onlyChanges_refl _ _
    · exact onlyChanges_refl _ _

theorem dcrcCheck_only (s : State) (ring : Nat) (slot : Nat) (d : Desc) : onlyChanges [.out, .free, .regs, .flt, .saf, .pwr, .hif, .bld, .lanes] s (dcrcCheck s ring slot d).2 := by
  unfold dcrcCheck
  split
  · dsimp -zeta only
    exact onlyChanges_refl _ _
  · extract_lets v44 v45 v46
    have hv45 : onlyChanges [.out, .free, .regs, .flt, .saf, .pwr, .hif, .bld, .lanes] s v45 := by
      refine onlyChanges_ite ?_ ?_
      · refine onlyChanges_then ?_ (spendInj_only ..) rfl
        exact onlyChanges_refl _ _
      · exact onlyChanges_refl _ _
    split
    · dsimp -zeta only
      exact hv45
    · dsimp -zeta only
      refine onlyChanges_then ?_ (raiseInj_only ..) rfl
      exact hv45

theorem commitCloses_only (s : State) (role : Nat) (d : Desc) : onlyChanges [.rng] s (commitCloses s role d).2 := by
  unfold commitCloses
  split
  · extract_lets v42
    split
    · dsimp -zeta only
      refine onlyChanges_then ?_ (modRngHead_only ..) rfl
      exact onlyChanges_refl _ _
    · dsimp -zeta only
      exact onlyChanges_refl _ _
  · dsimp -zeta only
    exact onlyChanges_refl _ _

theorem fetchDesc_only (s : State) (ring : Nat) (d : Desc) (data : HostRead) : onlyChanges [.out, .free, .regs, .flt, .saf, .pwr, .rng, .hif, .glb, .lmm, .ly, .shd, .bld, .pxc, .tg, .lanes, .tbl, .net, .tim, .lce, .kps, .cbl] s (fetchDesc s ring d data) := by
  unfold fetchDesc
  refine inOneCycle_only (fun t43 => ?_) rfl
  extract_lets v47
  refine onlyChanges_ite ?_ ?_
  · exact onlyChanges_refl _ _
  · split
    extract_lets v48 v49 v50
    have hv49 : onlyChanges [.out, .free, .regs, .flt, .saf, .pwr, .rng, .hif, .glb, .lmm, .ly,   .shd, .bld, .pxc, .tg, .lanes, .tbl, .net, .tim, .lce, .kps, .cbl] t43 v49 := by
      refine onlyChanges_ite ?_ ?_
      · refine onlyChanges_then ?_ (discardOther_only ..) rfl
        refine onlyChanges_snd (by assumption) ?_
        refine onlyChanges_then ?_ (dcrcCheck_only ..) rfl
        refine onlyChanges_then ?_ (takeSlot_only ..) rfl
        exact onlyChanges_refl _ _
      · refine onlyChanges_snd (by assumption) ?_
        refine onlyChanges_then ?_ (dcrcCheck_only ..) rfl
        refine onlyChanges_then ?_ (takeSlot_only ..) rfl
        exact onlyChanges_refl _ _
    split
    extract_lets v53 v54
    have hv54 : onlyChanges [.out, .free, .regs, .flt, .saf, .pwr, .rng, .hif, .glb, .lmm, .ly,   .shd, .bld, .pxc, .tg, .lanes, .tbl, .net, .tim, .lce, .kps, .cbl] t43 v54 := by
      refine onlyChanges_then ?_ (modRng_only ..) rfl
      refine onlyChanges_snd (by assumption) ?_
      split
      · dsimp -zeta only
        exact hv49
      · refine onlyChanges_then ?_ (commitCloses_only ..) rfl
        exact hv49
    refine onlyChanges_ite ?_ ?_
    · refine onlyChanges_then ?_ (ringSettle_only ..) rfl
      refine onlyChanges_then ?_ (runWork_only ..) rfl
      exact hv54
    · refine onlyChanges_then ?_ (ringSettle_only ..) rfl
      exact hv54

theorem fetchRow_only (s : State) (ring : Nat) (opcode : Nat) (d : Desc) : onlyChanges [.out, .free, .regs, .flt, .saf, .pwr, .rng, .hif, .glb, .lmm, .ly, .shd, .bld, .pxc, .tg, .lanes, .tbl, .net, .tim, .lce, .kps, .cbl] s (fetchRow s ring opcode d) := by
  unfold fetchRow
  refine onlyChanges_then ?_ (fetchDesc_only ..) rfl
  exact onlyChanges_refl _ _

theorem recActed_only (s : State) : onlyChanges [.out, .free, .regs, .flt, .saf, .rst, .pwr, .rng, .hif, .bld, .lanes, .kps, .cbl] s (recActed s) := by
  unfold recActed
  refine onlyChanges_ite ?_ ?_
  · refine onlyChanges_then ?_ (recordDone_only ..) rfl
    exact onlyChanges_refl _ _
  · exact onlyChanges_refl _ _

theorem recBegins_only {ps : List Part} (s : State) (opcode : Nat) (act : State → State) (h : ∀ u, onlyChanges ps u (act u))
    (w : covers ps [.out, .free, .regs, .flt, .saf, .rst, .pwr, .rng, .hif, .bld, .lanes, .kps, .cbl] = true) : onlyChanges ps s (recBegins s opcode act) := by
  unfold recBegins
  refine onlyChanges_ite (onlyChanges_refl _ _) (onlyChanges_ite ?_ (onlyChanges_ite ?_ (onlyChanges_ite (h s) (onlyChanges_refl _ _))))
  · exact onlyChanges_then (onlyChanges_then (onlyChanges_refl _ _) (lastTouch_only ..) (covers_trans w rfl)) (scriptFails_only ..) (covers_trans w rfl)
  · exact onlyChanges_then (onlyChanges_refl _ _) (scriptFails_only ..) (covers_trans w rfl)

theorem writeWords_only (addr : Nat) (x1 : List Word) (x2 : State) : onlyChanges [.out, .free, .regs, .mem, .flt, .saf, .rst, .pwr, .rng, .hif, .crc, .glb, .lmm, .ly, .shd, .bld, .pxc, .tg, .lanes, .tbl, .net, .tim, .cle, .lce, .hkp, .kps, .cbl] x2 (writeWords addr x1 x2) := by
  induction x1 generalizing addr x2 with
  | nil => exact onlyChanges_then (onlyChanges_refl _ _) (recActed_only ..) rfl
  | cons v vs ih =>
    unfold writeWords
    refine onlyChanges_ite ?_ ?_
    · exact onlyChanges_then (onlyChanges_refl _ _) (scriptFails_only ..) rfl
    · refine onlyChanges_trans ?_ (ih _ _)
      exact onlyChanges_then (onlyChanges_refl _ _) (portWrite_only ..) rfl

theorem recWrite_only (s : State) : onlyChanges [.out, .free, .regs, .mem, .flt, .saf, .rst, .pwr, .rng, .hif, .crc, .glb, .lmm, .ly, .shd, .bld, .pxc, .tg, .lanes, .tbl, .net, .tim, .cle, .lce, .hkp, .kps, .cbl] s (recWrite s) := by
  unfold recWrite
  extract_lets v51 v52
  refine onlyChanges_ite ?_ ?_
  · refine onlyChanges_ite ?_ ?_
    · refine onlyChanges_then ?_ (writeWords_only ..) rfl
      exact onlyChanges_refl _ _
    · refine onlyChanges_then ?_ (scriptFails_only ..) rfl
      refine onlyChanges_then ?_ (lastTouch_only ..) rfl
      exact onlyChanges_refl _ _
  · refine onlyChanges_then ?_ (writeWords_only ..) rfl
    exact onlyChanges_refl _ _

theorem recMaskWrite_only (s : State) : onlyChanges [.out, .free, .regs, .mem, .flt, .saf, .rst, .pwr, .rng, .hif, .crc, .glb, .lmm, .ly, .shd, .bld, .pxc, .tg, .lanes, .tbl, .net, .tim, .cle, .lce, .hkp, .kps, .cbl] s (recMaskWrite s) := by
  unfold recMaskWrite
  extract_lets v55
  refine onlyChanges_ite ?_ ?_
  · refine onlyChanges_then ?_ (scriptFails_only ..) rfl
    exact onlyChanges_refl _ _
  · split
    refine onlyChanges_then ?_ (recActed_only ..) rfl
    refine onlyChanges_then ?_ (portWrite_only ..) rfl
    refine onlyChanges_thd (by assumption) ?_
    refine onlyChanges_then ?_ (portRead_only ..) rfl
    exact onlyChanges_refl _ _

theorem recPollRead_only (s : State) : onlyChanges [.out, .free, .regs, .flt, .saf, .rst, .pwr, .rng, .hif, .glb, .bld, .lanes, .tim, .kps, .cbl] s (recPollRead s) := by
  unfold recPollRead
  refine onlyChanges_ite ?_ ?_
  · split
    refine onlyChanges_ite ?_ ?_
    · refine onlyChanges_then ?_ (recordDone_only ..) rfl
      refine onlyChanges_thd (by assumption) ?_
      refine onlyChanges_then ?_ (portRead_only ..) rfl
      exact onlyChanges_refl _ _
    · refine onlyChanges_thd (by assumption) ?_
      refine onlyChanges_then ?_ (portRead_only ..) rfl
      exact onlyChanges_refl _ _
  · exact onlyChanges_refl _ _

theorem recSlipSearch_only (s : State) : onlyChanges [.out, .free, .regs, .flt, .saf, .rst, .pwr, .rng, .hif, .bld, .lanes, .kps, .cbl] s (recSlipSearch s) := by
  unfold recSlipSearch
  refine onlyChanges_then ?_ (slipSearchGo_only ..) rfl
  refine onlyChanges_then ?_ (modBoot_only ..) rfl
  refine onlyChanges_then ?_ (recordWaits_only ..) rfl
  exact onlyChanges_refl _ _

theorem recLoadTiles_only (s : State) : onlyChanges [.out, .free, .regs, .flt, .saf, .rst, .pwr, .rng, .hif, .bld, .lanes, .tbl, .kps, .cbl] s (recLoadTiles s) := by
  unfold recLoadTiles
  refine onlyChanges_ite ?_ ?_
  · extract_lets v56
    have hv56 : onlyChanges [.out, .free, .regs, .flt, .saf, .rst, .pwr, .rng, .hif, .bld, .lanes,   .tbl, .kps, .cbl] s v56 := by
      refine onlyChanges_then ?_ (noteEntries_only ..) rfl
      refine onlyChanges_then ?_ (recordWaits_only ..) rfl
      exact onlyChanges_refl _ _
    refine onlyChanges_then ?_ (loadTilesGo_only ..) rfl
    refine foldl_only ?_ (fun t62 a62 => ?_)
    · exact hv56
    · refine onlyChanges_then ?_ (setRecTile_only ..) rfl
      exact onlyChanges_refl _ _
  · refine onlyChanges_then ?_ (recordFails_only ..) rfl
    exact onlyChanges_refl _ _

theorem recWaitEnds_only (s : State) : onlyChanges [.out, .free, .regs, .flt, .saf, .rst, .pwr, .rng, .hif, .bld, .lanes, .kps, .cbl] s (recWaitEnds s) := by
  unfold recWaitEnds
  refine onlyChanges_ite ?_ ?_
  · refine onlyChanges_then ?_ (recordDone_only ..) rfl
    exact onlyChanges_refl _ _
  · exact onlyChanges_refl _ _

theorem hostAspm_only (s : State) : onlyChanges [.free, .hif] s (hostAspm s) := by
  unfold hostAspm
  split
  refine raw_hif ?_ rfl
  refine onlyChanges_snd (by assumption) ?_
  refine onlyChanges_then ?_ (drawBelow_only ..) rfl
  exact onlyChanges_refl _ _

theorem linkTrains_only (s : State) (rate : Nat) (width : Nat) : onlyChanges [.out, .free, .flt, .saf, .rst, .pwr, .rng, .hif, .ly, .bld, .pxc, .tg, .lanes, .tbl] s (linkTrains s rate width) := by
  unfold linkTrains
  refine onlyChanges_ite ?_ ?_
  · exact onlyChanges_refl _ _
  · extract_lets v57 v58 v59
    have hv57 : onlyChanges [.out, .free, .flt, .saf, .rst, .pwr, .rng, .hif, .ly, .bld, .pxc, .tg,   .lanes, .tbl] s v57 := by
      refine onlyChanges_then ?_ (sourcesRelease_only ..) rfl
      exact onlyChanges_refl _ _
    have hv58 : onlyChanges [.out, .free, .flt, .saf, .rst, .pwr, .rng, .hif, .ly, .bld, .pxc, .tg,   .lanes, .tbl] s v58 := by
      refine onlyChanges_then ?_ (hostAspm_only ..) rfl
      exact hv57
    split
    · refine onlyChanges_then ?_ (setLevel_only ..) rfl
      refine raw_hif ?_ rfl
      exact hv58
    · refine onlyChanges_then ?_ (commitsAfterLtr_only ..) rfl
      refine onlyChanges_then ?_ (ltrExpiry_only ..) rfl
      refine raw_hif ?_ rfl
      refine onlyChanges_then ?_ (setLevel_only ..) rfl
      refine raw_hif ?_ rfl
      exact hv58

theorem uploadSpoilt_only (s : State) : onlyChanges [.pxc] s (uploadSpoilt s) := by
  unfold uploadSpoilt
  split
  · refine raw_pxc ?_ rfl
    exact onlyChanges_refl _ _
  · exact onlyChanges_refl _ _

theorem storeRead_only (s : State) : onlyChanges [.out, .free, .regs, .mem, .flt, .saf, .pwr, .rng, .hif, .lmm, .ly, .bld, .pxc, .tg, .lanes, .tbl, .kps, .cbl] s (storeRead s) := by
  unfold storeRead
  refine onlyChanges_ite ?_ ?_
  · exact onlyChanges_refl _ _
  · extract_lets v60
    refine onlyChanges_then ?_ (clientRead_only ..) rfl
    refine onlyChanges_ite ?_ ?_
    · refine onlyChanges_then ?_ (uploadSpoilt_only ..) rfl
      exact onlyChanges_refl _ _
    · exact onlyChanges_refl _ _

theorem svcBadFrame_only (s : State) : onlyChanges [.out, .free, .regs, .flt, .saf, .pwr, .hif, .glb, .bld, .lanes] s (svcBadFrame s) := by
  unfold svcBadFrame
  dsimp only
  refine onlyChanges_then (onlyChanges_then ?_ (modGlb_only ..) rfl) (svcAnswer_only ..) rfl
  exact onlyChanges_ite (onlyChanges_then (onlyChanges_refl _ _) (spendInj_only ..) rfl) (onlyChanges_refl _ _)


end Sys2Proof.Machine
end

