-- ==== Sys2Proof/Laws/Latches.lean ====
section
/-! SUPPORT. Which operations leave the DARK latches as they stand (16 R566): all but the telegram that acts on them and the
reaches. -/

set_option linter.unusedVariables false
namespace Sys2Proof.Machine

theorem dark_refl (s : State) : darkHeld s s := fun _ h => h

theorem dark_trans {s t u : State} (h1 : darkHeld s t) (h2 : darkHeld t u) : darkHeld s u := fun h k => h2 h (h1 h k)

/-- A part that an operation may not change is kept with all that it holds. -/
theorem dark_of {ps : List Part} {s t : State} (h : onlyChanges ps s t) (w : ps.contains .saf = false) : darkHeld s t := by
  have h1 : t.saf = s.saf := h.2 .saf (fun hp => by simp_all)
  simp_all [darkHeld]

theorem dark_then {s t u : State} (h : darkHeld s u) (k : darkHeld u t) (_ : true = true) : darkHeld s t := dark_trans h k

theorem dark_ite {s a b : State} {c : Prop} [Decidable c] (ha : darkHeld s a) (hb : darkHeld s b) :
    darkHeld s (if c then a else b) := by split <;> assumption

theorem dark_snd {α : Type} {s t : State} {x : α} {p : α × State} (e : p = (x, t)) (h : darkHeld s p.2) : darkHeld s t := by
  rw [e] at h; exact h

theorem dark_thd {α β : Type} {s t : State} {x : α} {y : β} {p : α × β × State} (e : p = (x, y, t))
    (h : darkHeld s p.2.2) : darkHeld s t := by rw [e] at h; exact h

theorem foldl_dark {α : Type} {s u : State} {f : State → α → State} {l : List α} (h : darkHeld s u)
    (hf : ∀ t a, darkHeld t (f t a)) : darkHeld s (l.foldl f u) :=
  foldl_inv (fun t => darkHeld s t) f l u h (fun t a ht => dark_trans ht (hf t a))

theorem oneCycle_dark {s : State} {f : State → State} (hf : ∀ u, darkHeld u (f u)) : darkHeld s (oneCycle f s) := by
  obtain ⟨c, g, -, he⟩ := oneCycle_cases f s
  rw [he]
  exact dark_trans (dark_of (modFlt_only ..) rfl) (dark_trans (hf _) (dark_of (modFlt_only ..) rfl))

theorem dark_some {s a t : State} (h : some a = some t) (k : darkHeld s a) : darkHeld s t := by
  injection h with h; subst h; exact k

theorem dark_set (p : Pair Bool) (k : Head) : ∀ h, p.get h = true → (p.set k true).get h = true := by
  intro h; cases h <;> cases k <;> simp [Pair.get, Pair.set]

/-- An update of the safety core that clears no DARK latch. -/
theorem modSaf_dark (s : State) (f : Saf → Saf) (h : ∀ h, s.saf.dark.get h = true → (f s.saf).dark.get h = true) :
    darkHeld s (modSaf s f) := h

theorem modSafHead_dark (s : State) (h : Head) (f : SafHead → SafHead) : darkHeld s (modSafHead s h f) := fun _ h => h

theorem dark_raw_saf {s u : State} {x : Saf} (h : darkHeld s u) (e : ∀ h, u.saf.dark.get h = true → x.dark.get h = true) :
    darkHeld s { u with saf := x } :=
  dark_trans h (modSaf_dark u (fun _ => x) e)

theorem degradeApply_dark (s : State) (h : Head) : darkHeld s (degradeApply s h) := by
  unfold degradeApply
  refine dark_then ?_ (modSafHead_dark _ _ _) rfl
  exact dark_refl _

theorem settleHead_dark (s : State) (h : Head) : darkHeld s (settleHead s h) := by
  unfold settleHead
  extract_lets v52 v53 v54 v55 v56 v57
  have hv55 : darkHeld s v55 := by
    refine dark_then ?_ (modSafHead_dark _ _ _) rfl
    exact dark_refl _
  have hv56 : darkHeld s v56 := by
    refine dark_ite ?_ ?_
    · refine dark_then ?_ (dark_of (headroomApply_only ..) rfl) rfl
      refine dark_then ?_ (degradeApply_dark _ _) rfl
      exact hv55
    · exact hv55
  have hv57 : darkHeld s v57 := by
    refine dark_ite ?_ ?_
    · refine dark_then ?_ (dark_of (sendFour_only ..) rfl) rfl
      exact hv56
    · refine dark_ite ?_ ?_
      · refine dark_then ?_ (dark_of (sendFour_only ..) rfl) rfl
        exact hv56
      · exact hv56
  refine dark_ite ?_ ?_
  · refine dark_then ?_ (dark_of (wake_only ..) rfl) rfl
    exact hv57
  · exact hv57

theorem settle_dark (s : State) : darkHeld s (settle s) := by
  unfold settle
  refine dark_then ?_ (settleHead_dark _ _) rfl
  refine dark_then ?_ (settleHead_dark _ _) rfl
  exact dark_refl _

theorem raiseInj_dark (s : State) (src : Nat) (named : Nat) (detail : Nat) (injected : Bool) : darkHeld s (raiseInj s src named detail injected) := by
  unfold raiseInj
  refine dark_ite ?_ ?_
  · refine dark_ite ?_ ?_
    · exact dark_refl _
    · refine dark_then ?_ (dark_of (modFlt_only ..) rfl) rfl
      exact dark_refl _
  · extract_lets v58
    split
    extract_lets v59 v60 v61 v62 v63 v64 v65 v66 v67
    have hv65 : darkHeld s v65 := by
      refine dark_then ?_ (dark_of (modFlt_only ..) rfl) rfl
      refine dark_snd (by assumption) ?_
      refine dark_then ?_ (dark_of (stampCore_only ..) rfl) rfl
      exact dark_refl _
    have hv66 : darkHeld s v66 := by
      refine dark_ite ?_ ?_
      · refine dark_then ?_ (dark_of (signalMsix_only ..) rfl) rfl
        exact hv65
      · exact hv65
    have hv67 : darkHeld s v67 := by
      refine dark_ite ?_ ?_
      · refine dark_then ?_ (dark_of (wake_only ..) rfl) rfl
        exact hv66
      · exact hv66
    refine dark_then ?_ (settle_dark _) rfl
    exact hv67

theorem raise_dark (s : State) (src : Nat) (heads : Nat) (detail : Nat) : darkHeld s (raise s src heads detail) := by
  unfold raise
  refine dark_then ?_ (raiseInj_dark _ _ _ _ _) rfl
  exact dark_refl _

theorem raiseOwed_dark (s : State) : darkHeld s (raiseOwed s) := by
  unfold raiseOwed
  refine dark_ite ?_ ?_
  · refine foldl_dark ?_ (fun t63 a63 => ?_)
    · refine dark_then ?_ (dark_of (modFlt_only ..) rfl) rfl
      exact dark_refl _
    · refine dark_then ?_ (raise_dark _ _ _ _) rfl
      exact dark_refl _
  · exact dark_refl _

theorem raiseTimes_dark (s : State) (src : Nat) (heads : Nat) (detail : Nat) (x1 : Nat) : darkHeld s (raiseTimes s src heads detail x1) := by
  induction x1 generalizing s with
  | zero => exact dark_refl _
  | succ n ih =>
    unfold raiseTimes
    repeat first
      | (with_reducible exact dark_refl _)
      | (with_reducible refine dark_trans ?_ (ih _))
      | (with_reducible refine dark_then ?_ (raise_dark _ _ _ _) rfl)
      | (with_reducible refine dark_ite ?_ ?_)
      | split
      | dsimp only

theorem setLevel_dark (s : State) (src : Nat) (inst : Nat) (heads : Nat) (detail : Nat) (on : Bool) : darkHeld s (setLevel s src inst heads detail on) := by
  unfold setLevel
  extract_lets v69
  refine dark_ite ?_ ?_
  · refine dark_ite ?_ ?_
    · exact dark_refl _
    · refine dark_then ?_ (raise_dark _ _ _ _) rfl
      refine dark_then ?_ (dark_of (modFlt_only ..) rfl) rfl
      exact dark_refl _
  · refine dark_ite ?_ ?_
    · refine dark_ite ?_ ?_
      · refine dark_then ?_ (dark_of (modFlt_only ..) rfl) rfl
        exact dark_refl _
      · refine dark_then ?_ (dark_of (clearEntry_only ..) rfl) rfl
        refine dark_then ?_ (dark_of (modFlt_only ..) rfl) rfl
        exact dark_refl _
    · exact dark_refl _

theorem clearSticky_dark (s : State) (m : DWord) : darkHeld s (clearSticky s m) := by
  unfold clearSticky
  extract_lets v0 v1
  refine dark_then ?_ (settle_dark _) rfl
  refine dark_then ?_ (dark_of (modFlt_only ..) rfl) rfl
  exact dark_refl _

theorem beginJudging_dark (s : State) : darkHeld s (beginJudging s) := by
  unfold beginJudging
  refine foldl_dark ?_ (fun t71 a71 => ?_)
  · exact dark_refl _
  · refine dark_then ?_ (raise_dark _ _ _ _) rfl
    exact dark_refl _

theorem spendInj_dark (s : State) : darkHeld s (spendInj s) := by
  unfold spendInj
  refine dark_then ?_ (setLevel_dark _ _ _ _ _ _) rfl
  refine dark_then ?_ (dark_of (setRegAt_only ..) rfl) rfl
  exact dark_refl _

theorem protocolError_dark (s : State) (n : Nat) : darkHeld s (protocolError s n) := by
  unfold protocolError
  refine dark_then ?_ (raise_dark _ _ _ _) rfl
  refine dark_then ?_ (dark_of (modRing_only ..) rfl) rfl
  exact dark_refl _

theorem writeRingCfg_dark (s : State) (n : Nat) (value : Word) : darkHeld s (writeRingCfg s n value) := by
  unfold writeRingCfg
  extract_lets v91 v92
  refine dark_ite ?_ ?_
  · refine dark_ite ?_ ?_
    · refine dark_ite ?_ ?_
      · exact dark_refl _
      · refine dark_then ?_ (protocolError_dark _ _) rfl
        exact dark_refl _
    · refine dark_ite ?_ ?_
      · refine dark_then ?_ (protocolError_dark _ _) rfl
        refine dark_ite ?_ ?_
        · exact dark_refl _
        · refine dark_then ?_ (protocolError_dark _ _) rfl
          exact dark_refl _
      · refine dark_then ?_ (dark_of (disableRing_only ..) rfl) rfl
        refine dark_ite ?_ ?_
        · exact dark_refl _
        · refine dark_then ?_ (protocolError_dark _ _) rfl
          exact dark_refl _
  · refine dark_ite ?_ ?_
    · refine dark_ite ?_ ?_
      · refine dark_then ?_ (dark_of (enableRing_only ..) rfl) rfl
        refine dark_then ?_ (dark_of (setRegAt_only ..) rfl) rfl
        refine dark_ite ?_ ?_
        · exact dark_refl _
        · refine dark_then ?_ (protocolError_dark _ _) rfl
          exact dark_refl _
      · refine dark_then ?_ (protocolError_dark _ _) rfl
        refine dark_then ?_ (dark_of (setRegAt_only ..) rfl) rfl
        refine dark_ite ?_ ?_
        · exact dark_refl _
        · refine dark_then ?_ (protocolError_dark _ _) rfl
          exact dark_refl _
    · refine dark_then ?_ (dark_of (setRegAt_only ..) rfl) rfl
      refine dark_ite ?_ ?_
      · exact dark_refl _
      · refine dark_then ?_ (protocolError_dark _ _) rfl
        exact dark_refl _

theorem doorbellRelease_dark (s : State) (n : Nat) (idx : Nat) : darkHeld s (doorbellRelease s n idx) := by
  unfold doorbellRelease
  extract_lets v98 v99 v100 v101 v102 v103 v104 v105
  have hv103 : darkHeld s v103 := by
    refine dark_then ?_ (dark_of (modRing_only ..) rfl) rfl
    exact dark_refl _
  have hv104 : darkHeld s v104 := by
    refine dark_then ?_ (dark_of (modRng_only ..) rfl) rfl
    exact hv103
  have hv105 : darkHeld s v105 := by
    refine dark_ite ?_ ?_
    · refine dark_then ?_ (dark_of (flushHeld_only ..) rfl) rfl
      exact hv104
    · exact hv104
  refine dark_ite ?_ ?_
  · refine dark_then ?_ (protocolError_dark _ _) rfl
    exact hv105
  · exact hv105

theorem doorbellWrite_dark (s : State) (n : Nat) (whole : Bool) (value : Word) : darkHeld s (doorbellWrite s n whole value) := by
  unfold doorbellWrite
  extract_lets v106
  refine dark_ite ?_ ?_
  · refine dark_then ?_ (protocolError_dark _ _) rfl
    exact dark_refl _
  · refine dark_then ?_ (dark_of (wake_only ..) rfl) rfl
    refine dark_ite ?_ ?_
    · refine dark_then ?_ (dark_of (modRing_only ..) rfl) rfl
      exact dark_refl _
    · refine dark_then ?_ (doorbellRelease_dark _ _ _) rfl
      exact dark_refl _

theorem spareLevel_dark (s : State) : darkHeld s (spareLevel s) := by
  unfold spareLevel
  refine dark_then ?_ (setLevel_dark _ _ _ _ _ _) rfl
  exact dark_refl _

theorem cblFind_dark (s : State) (kind : Nat) (target : Nat) (pixels : List (Nat × Nat)) : darkHeld s (cblFind s kind target pixels) := by
  unfold cblFind
  extract_lets v7
  have hv7 : darkHeld s v7 := by
    refine dark_then ?_ (raise_dark _ _ _ _) rfl
    exact dark_refl _
  refine dark_ite ?_ ?_
  · refine dark_then ?_ (dark_of (cblRecord_only ..) rfl) rfl
    refine dark_then ?_ (dark_of (setProposal_only ..) rfl) rfl
    refine dark_then ?_ (dark_of (modCbl_only ..) rfl) rfl
    exact hv7
  · refine dark_ite ?_ ?_
    · refine dark_then ?_ (dark_of (modCbl_only ..) rfl) rfl
      exact hv7
    · exact hv7

theorem sectorCandidate_dark (s : State) (p : Nat) : darkHeld s (sectorCandidate s p) := by
  unfold sectorCandidate
  extract_lets v10
  refine dark_ite ?_ ?_
  · exact dark_refl _
  · refine dark_ite ?_ ?_
    · refine dark_then ?_ (dark_of (kpsRequest_only ..) rfl) rfl
      refine dark_then ?_ (cblFind_dark _ _ _ _) rfl
      refine dark_then ?_ (dark_of (modSector_only ..) rfl) rfl
      exact dark_refl _
    · refine dark_then ?_ (cblFind_dark _ _ _ _) rfl
      refine dark_then ?_ (dark_of (modSector_only ..) rfl) rfl
      exact dark_refl _

theorem lastCorrected_dark (s : State) (p : Nat) (injected : Bool) : darkHeld s (lastCorrected s p injected) := by
  unfold lastCorrected
  extract_lets v11 v12 v13
  have hv11 : darkHeld s v11 := by
    refine dark_then ?_ (raiseInj_dark _ _ _ _ _) rfl
    exact dark_refl _
  have hv12 : darkHeld s v12 := by
    refine dark_then ?_ (dark_of (modSector_only ..) rfl) rfl
    exact hv11
  have hv13 : darkHeld s v13 := by
    refine dark_then ?_ (dark_of (modKps_only ..) rfl) rfl
    exact hv12
  refine dark_ite ?_ ?_
  · exact hv13
  · refine dark_then ?_ (dark_of (kpsRequest_only ..) rfl) rfl
    exact hv13

theorem lastUncorrectable_dark (s : State) (p : Nat) : darkHeld s (lastUncorrectable s p) := by
  unfold lastUncorrectable
  refine dark_then ?_ (sectorCandidate_dark _ _) rfl
  refine dark_then ?_ (raise_dark _ _ _ _) rfl
  exact dark_refl _

theorem programmePhysical_dark (s : State) (p : Nat) (o : Nat) (bs : List Byte) : darkHeld s (programmePhysical s p o bs) := by
  unfold programmePhysical
  extract_lets v14 v15 v16 v17 v18 v19 v20 v21
  have hv19 : darkHeld s v19 := by
    refine dark_then ?_ (dark_of (modKps_only ..) rfl) rfl
    exact dark_refl _
  have hv20 : darkHeld s v20 := by
    refine dark_ite ?_ ?_
    · refine dark_then ?_ (spendInj_dark _) rfl
      exact hv19
    · exact hv19
  have hv21 : darkHeld s v21 := by
    refine dark_then ?_ (dark_of (modSector_only ..) rfl) rfl
    exact hv20
  refine dark_ite ?_ ?_
  · refine dark_then ?_ (sectorCandidate_dark _ _) rfl
    exact hv21
  · exact hv21

theorem programme_dark (s : State) (a : Nat) (bs : List Byte) : darkHeld s (programme s a bs) := by
  unfold programme
  split
  · refine dark_then ?_ (programmePhysical_dark _ _ _ _) rfl
    exact dark_refl _
  · exact dark_refl _

theorem swapSector_dark (s : State) (p : Nat) : darkHeld s (swapSector s p) := by
  unfold swapSector
  split
  · exact dark_refl _
  · extract_lets v23 v24 v25 v26 v27 v28
    have hv26 : darkHeld s v26 := by
      refine dark_then ?_ (programmePhysical_dark _ _ _ _) rfl
      exact dark_refl _
    have hv27 : darkHeld s v27 := by
      refine dark_then ?_ (dark_of (modKps_only ..) rfl) rfl
      exact hv26
    have hv28 : darkHeld s v28 := by
      refine dark_then ?_ (dark_of (modSector_only ..) rfl) rfl
      exact hv27
    refine dark_then ?_ (spareLevel_dark _) rfl
    refine dark_then ?_ (dark_of (cblDone_only ..) rfl) rfl
    refine dark_then ?_ (dark_of (modSector_only ..) rfl) rfl
    exact hv28

theorem opProgramme_dark (s : State) (o : KpsOp) : darkHeld s (opProgramme s o) := by
  unfold opProgramme
  split
  · refine dark_then ?_ (programme_dark _ _ _) rfl
    exact dark_refl _
  · extract_lets v33
    refine dark_then ?_ (programme_dark _ _ _) rfl
    exact dark_refl _
  · extract_lets v34
    have hv34 : darkHeld s v34 := by
      refine dark_then ?_ (dark_of (modKps_only ..) rfl) rfl
      exact dark_refl _
    refine dark_then ?_ (programme_dark _ _ _) rfl
    exact hv34
  · refine dark_then ?_ (programme_dark _ _ _) rfl
    exact dark_refl _
  · refine dark_then ?_ (programme_dark _ _ _) rfl
    exact dark_refl _
  · split
    · exact dark_refl _
    · extract_lets v40 v41
      refine dark_then ?_ (programme_dark _ _ _) rfl
      exact dark_refl _
  · refine dark_then ?_ (programmePhysical_dark _ _ _ _) rfl
    exact dark_refl _
  · refine dark_then ?_ (swapSector_dark _ _) rfl
    exact dark_refl _
  · exact dark_refl _

theorem opWritten_dark (s : State) (o : KpsOp) : darkHeld s (opWritten s o) := by
  unfold opWritten
  extract_lets v32
  have hv32 : darkHeld s v32 := by
    refine dark_then ?_ (opProgramme_dark _ _) rfl
    exact dark_refl _
  split
  · refine dark_then ?_ (dark_of (modKps_only ..) rfl) rfl
    refine dark_then ?_ (opProgramme_dark _ _) rfl
    exact dark_refl _
  · refine dark_raw_saf ?_ (by first | exact fun _ h => h | exact dark_set _ _)
    refine dark_then ?_ (dark_of (modKps_only ..) rfl) rfl
    refine dark_then ?_ (opProgramme_dark _ _) rfl
    exact dark_refl _
  · refine dark_ite ?_ ?_
    · refine dark_then ?_ (dark_of (checkpointEnd_only ..) rfl) rfl
      refine dark_then ?_ (opProgramme_dark _ _) rfl
      exact dark_refl _
    · refine dark_then ?_ (opProgramme_dark _ _) rfl
      exact dark_refl _
  · refine dark_ite ?_ ?_
    · refine dark_then ?_ (dark_of (completeWord_only ..) rfl) rfl
      refine dark_then ?_ (opProgramme_dark _ _) rfl
      exact dark_refl _
    · refine dark_then ?_ (opProgramme_dark _ _) rfl
      exact dark_refl _
  · exact hv32

theorem lastView_dark (s : State) : darkHeld s (lastView s) := by
  unfold lastView
  split
  · exact dark_refl _
  · refine dark_then ?_ (opProgramme_dark _ _) rfl
    refine dark_then ?_ (dark_of (modKps_only ..) rfl) rfl
    exact dark_refl _

theorem lastTouch_dark (s : State) (a : Nat) (n : Nat) : darkHeld s (lastTouch s a n) := by
  unfold lastTouch
  extract_lets v35 v36 v37 v38 v39
  have hv35 : darkHeld s v35 := by
    refine dark_then ?_ (lastView_dark _) rfl
    exact dark_refl _
  have hv39 : darkHeld s v39 := by
    refine foldl_dark ?_ (fun t42 a42 => ?_)
    · refine foldl_dark ?_ (fun t43 a43 => ?_)
      · exact dark_refl _
      · refine dark_then ?_ (lastCorrected_dark _ _ _) rfl
        exact dark_refl _
    · refine dark_then ?_ (lastUncorrectable_dark _ _) rfl
      exact dark_refl _
  refine dark_then ?_ (raiseTimes_dark _ _ _ _ _) rfl
  exact hv39

theorem lastRead_dark (s : State) (a : Nat) (n : Nat) : darkHeld s (lastRead s a n).2 := by
  unfold lastRead
  dsimp -zeta only
  refine dark_then ?_ (lastTouch_dark _ _ _) rfl
  exact dark_refl _

theorem opFailed_dark (s : State) (o : KpsOp) : darkHeld s (opFailed s o) := by
  unfold opFailed
  extract_lets v44
  have hv44 : darkHeld s v44 := by
    refine dark_then ?_ (raise_dark _ _ _ _) rfl
    exact dark_refl _
  split
  · refine dark_then ?_ (dark_of (opLost_only ..) rfl) rfl
    exact hv44
  · extract_lets v0
    have hv0 : darkHeld s v0 := by
      refine dark_then ?_ (dark_of (modSector_only ..) rfl) rfl
      refine dark_then ?_ (cblFind_dark _ _ _ _) rfl
      exact hv44
    refine dark_ite ?_ ?_
    · refine dark_then ?_ (opWritten_dark _ _) rfl
      refine dark_then ?_ (swapSector_dark _ _) rfl
      exact hv0
    · refine dark_then ?_ (dark_of (opLost_only ..) rfl) rfl
      exact hv0

theorem kpsEnd_dark (s : State) (ok : Bool) : darkHeld s (kpsEnd s ok) := by
  unfold kpsEnd
  split
  · exact dark_refl _
  · exact dark_refl _
  · extract_lets v0 v1 v2
    have hv0 : darkHeld s v0 := by
      refine dark_then ?_ (dark_of (modKps_only ..) rfl) rfl
      exact dark_refl _
    have hv1 : darkHeld s v1 := by
      refine dark_ite ?_ ?_
      · refine dark_then ?_ (opWritten_dark _ _) rfl
        exact hv0
      · refine dark_then ?_ (opFailed_dark _ _) rfl
        exact hv0
    have hv2 : darkHeld s v2 := by
      dsimp -zeta only [v2]
      split
      · refine dark_then ?_ (dark_of (calibSectorDone_only ..) rfl) rfl
        refine dark_ite ?_ ?_
        · refine dark_then ?_ (opWritten_dark _ _) rfl
          exact hv0
        · refine dark_then ?_ (opFailed_dark _ _) rfl
          exact hv0
      · exact hv1
    refine dark_then ?_ (dark_of (kpsTake_only ..) rfl) rfl
    refine dark_then ?_ (dark_of (lastRests_only ..) rfl) rfl
    exact hv2

theorem kpsScrub_dark (s : State) (found : Bool) (bad : Option Nat) : darkHeld s (kpsScrub s found bad) := by
  unfold kpsScrub
  refine dark_ite ?_ ?_
  · exact dark_refl _
  · extract_lets v48 v49 v50 v51 v52 v53 v54
    have hv51 : darkHeld s v51 := by
      dsimp -zeta only [v51]
      split
      · refine dark_then ?_ (dark_of (modKps_only ..) rfl) rfl
        exact dark_refl _
      · exact dark_refl _
    have hv54 : darkHeld s v54 := by
      refine dark_then ?_ (dark_of (modKps_only ..) rfl) rfl
      exact hv51
    refine dark_ite ?_ ?_
    · exact hv54
    · refine dark_then ?_ (dark_of (modSector_only ..) rfl) rfl
      refine dark_ite ?_ ?_
      · refine dark_then ?_ (lastUncorrectable_dark _ _) rfl
        refine dark_ite ?_ ?_
        · refine dark_then ?_ (sectorCandidate_dark _ _) rfl
          refine dark_ite ?_ ?_
          · refine dark_then ?_ (lastCorrected_dark _ _ _) rfl
            exact hv54
          · exact hv54
        · refine dark_ite ?_ ?_
          · refine dark_then ?_ (lastCorrected_dark _ _ _) rfl
            exact hv54
          · exact hv54
      · refine dark_ite ?_ ?_
        · refine dark_then ?_ (sectorCandidate_dark _ _) rfl
          refine dark_ite ?_ ?_
          · refine dark_then ?_ (lastCorrected_dark _ _ _) rfl
            exact hv54
          · exact hv54
        · refine dark_ite ?_ ?_
          · refine dark_then ?_ (lastCorrected_dark _ _ _) rfl
            exact hv54
          · exact hv54

theorem windowWord_dark (s : State) (hi : Bool) : darkHeld s (windowWord s hi).2 := by
  unfold windowWord
  extract_lets v58
  split
  · split
    split
    · dsimp -zeta only
      refine dark_snd (by assumption) ?_
      refine dark_then ?_ (lastRead_dark _ _ _) rfl
      exact dark_refl _
    · dsimp -zeta only
      refine dark_then ?_ (dark_of (modKps_only ..) rfl) rfl
      refine dark_snd (by assumption) ?_
      refine dark_then ?_ (lastRead_dark _ _ _) rfl
      exact dark_refl _
  · dsimp -zeta only
    refine dark_then ?_ (dark_of (modKps_only ..) rfl) rfl
    exact dark_refl _

theorem windowReadHiOp_dark (s : State) : darkHeld s (windowReadHiOp s).2 := by
  unfold windowReadHiOp
  split
  dsimp -zeta only
  refine dark_then ?_ (dark_of (setRegAt_only ..) rfl) rfl
  refine dark_snd (by assumption) ?_
  refine dark_then ?_ (windowWord_dark _ _) rfl
  exact dark_refl _

theorem bankCandidate_dark (s : State) (b : Nat) : darkHeld s (bankCandidate s b) := by
  unfold bankCandidate
  extract_lets v6
  refine dark_ite ?_ ?_
  · refine dark_then ?_ (dark_of (kpsRequest_only ..) rfl) rfl
    refine dark_then ?_ (dark_of (modBank_only ..) rfl) rfl
    exact dark_refl _
  · refine dark_ite ?_ ?_
    · exact dark_refl _
    · refine dark_ite ?_ ?_
      · refine dark_then ?_ (raise_dark _ _ _ _) rfl
        refine dark_then ?_ (cblFind_dark _ _ _ _) rfl
        refine dark_then ?_ (dark_of (modBank_only ..) rfl) rfl
        exact dark_refl _
      · refine dark_ite ?_ ?_
        · refine dark_then ?_ (dark_of (modLmm_only ..) rfl) rfl
          refine dark_then ?_ (cblFind_dark _ _ _ _) rfl
          refine dark_then ?_ (dark_of (modBank_only ..) rfl) rfl
          exact dark_refl _
        · refine dark_then ?_ (cblFind_dark _ _ _ _) rfl
          refine dark_then ?_ (dark_of (modBank_only ..) rfl) rfl
          exact dark_refl _

theorem corrected_dark (s : State) (p : Nat) (scrub : Bool) : darkHeld s (corrected s p scrub) := by
  unfold corrected
  extract_lets v7 v8
  split
  extract_lets v9 v10 v11 v12
  have hv9 : darkHeld s v9 := by
    refine dark_then ?_ (dark_of (modLmm_only ..) rfl) rfl
    refine dark_snd (by assumption) ?_
    refine dark_then ?_ (dark_of (addressOf_only ..) rfl) rfl
    refine dark_then ?_ (raiseInj_dark _ _ _ _ _) rfl
    exact dark_refl _
  have hv10 : darkHeld s v10 := by
    refine dark_then ?_ (dark_of (modBank_only ..) rfl) rfl
    exact hv9
  have hv11 : darkHeld s v11 := by
    refine dark_ite ?_ ?_
    · refine dark_then ?_ (dark_of (modLmm_only ..) rfl) rfl
      exact hv10
    · exact hv10
  refine dark_ite ?_ ?_
  · refine dark_then ?_ (bankCandidate_dark _ _) rfl
    exact hv11
  · exact hv11

theorem injectWord_dark (s : State) (p : Option Nat) : darkHeld s (injectWord s p) := by
  unfold injectWord
  split
  · refine dark_then ?_ (spendInj_dark _) rfl
    refine dark_then ?_ (dark_of (modLmm_only ..) rfl) rfl
    exact dark_refl _
  · exact dark_refl _

theorem wordWritten_dark (s : State) (w : Nat) : darkHeld s (wordWritten s w) := by
  unfold wordWritten
  extract_lets v3 v4
  have hv4 : darkHeld s v4 := by
    refine dark_then ?_ (dark_of (modLmm_only ..) rfl) rfl
    exact dark_refl _
  split
  · refine dark_then ?_ (injectWord_dark _ _) rfl
    exact hv4
  · exact hv4

theorem repairWord_dark (s : State) (w : Nat) : darkHeld s (repairWord s w) := by
  unfold repairWord
  extract_lets v8
  split
  · refine dark_then ?_ (dark_of (flatSpoilt_only ..) rfl) rfl
    exact dark_refl _
  · refine dark_then ?_ (dark_of (flatSpoilt_only ..) rfl) rfl
    exact dark_refl _
  · refine dark_then ?_ (wordWritten_dark _ _) rfl
    refine dark_then ?_ (dark_of (memWrite_only ..) rfl) rfl
    exact dark_refl _
  · refine dark_then ?_ (wordWritten_dark _ _) rfl
    refine dark_then ?_ (dark_of (memWrite_only ..) rfl) rfl
    exact dark_refl _
  · refine dark_ite ?_ ?_
    · refine dark_then ?_ (wordWritten_dark _ _) rfl
      refine dark_then ?_ (dark_of (memWrite_only ..) rfl) rfl
      exact dark_refl _
    · exact dark_refl _
  · refine dark_then ?_ (wordWritten_dark _ _) rfl
    refine dark_then ?_ (dark_of (journalSpoilt_only ..) rfl) rfl
    exact dark_refl _
  · refine dark_then ?_ (dark_of (runSpoilt_only ..) rfl) rfl
    exact dark_refl _
  · exact dark_refl _

theorem abandonRow_dark (s : State) (h : Head) (slot : Nat) (line : Nat) : darkHeld s (abandonRow s h slot line) := by
  unfold abandonRow
  extract_lets v11
  refine dark_ite ?_ ?_
  · exact dark_refl _
  · refine dark_ite ?_ ?_
    · refine dark_then ?_ (raise_dark _ _ _ _) rfl
      refine dark_then ?_ (dark_of (modLy_only ..) rfl) rfl
      refine dark_then ?_ (dark_of (modTg_only ..) rfl) rfl
      refine dark_then ?_ (dark_of (withdrawRows_only ..) rfl) rfl
      exact dark_refl _
    · refine dark_then ?_ (dark_of (modLy_only ..) rfl) rfl
      refine dark_then ?_ (dark_of (modTg_only ..) rfl) rfl
      refine dark_then ?_ (dark_of (withdrawRows_only ..) rfl) rfl
      exact dark_refl _

theorem rowSpoilt_dark (s : State) (path : Head) (w : Nat) (k : Nat) : darkHeld s (rowSpoilt s path w k) := by
  unfold rowSpoilt
  extract_lets v12 v13 v14 v15
  refine dark_ite ?_ ?_
  · refine dark_then ?_ (abandonRow_dark _ _ _ _) rfl
    exact dark_refl _
  · refine dark_then ?_ (abandonRow_dark _ _ _ _) rfl
    exact dark_refl _

theorem workSpoilt_dark (s : State) (w : Nat) (used : Bool) : darkHeld s (workSpoilt s w used) := by
  unfold workSpoilt
  extract_lets v16 v17
  refine dark_ite ?_ ?_
  · refine foldl_dark ?_ (fun t18 a18 => ?_)
    · exact dark_refl _
    · refine dark_ite ?_ ?_
      · refine dark_then ?_ (rowSpoilt_dark _ _ _ _) rfl
        exact dark_refl _
      · exact dark_refl _
  · refine dark_ite ?_ ?_
    · refine dark_then ?_ (dark_of (spoilSweeps_only ..) rfl) rfl
      refine foldl_dark ?_ (fun t23 a23 => ?_)
      · exact dark_refl _
      · refine dark_then ?_ (dark_of (modPxc_only ..) rfl) rfl
        exact dark_refl _
    · refine dark_ite ?_ ?_
      · refine dark_then ?_ (dark_of (spoilSweeps_only ..) rfl) rfl
        exact dark_refl _
      · refine dark_ite ?_ ?_
        · refine dark_then ?_ (dark_of (spoilSweeps_only ..) rfl) rfl
          exact dark_refl _
        · exact dark_refl _

theorem uncorrectable_dark (s : State) (b : Nat) (w : Option Nat) (used : Bool) (injected : Bool) : darkHeld s (uncorrectable s b w used injected) := by
  unfold uncorrectable
  split
  · extract_lets v19 v20 v21
    have hv20 : darkHeld s v20 := by
      refine dark_then ?_ (raiseInj_dark _ _ _ _ _) rfl
      exact dark_refl _
    have hv21 : darkHeld s v21 := by
      refine dark_then ?_ (dark_of (modLmm_only ..) rfl) rfl
      exact hv20
    refine dark_then ?_ (bankCandidate_dark _ _) rfl
    refine dark_then ?_ (repairWord_dark _ _) rfl
    refine dark_then ?_ (workSpoilt_dark _ _ _) rfl
    exact hv21
  · split
    split
    extract_lets v33
    have hv33 : darkHeld s v33 := by
      refine dark_then ?_ (raiseInj_dark _ _ _ _ _) rfl
      refine dark_snd (by assumption) ?_
      refine dark_then ?_ (dark_of (drawBelow_only ..) rfl) rfl
      refine dark_snd (by assumption) ?_
      refine dark_then ?_ (dark_of (drawBelow_only ..) rfl) rfl
      exact dark_refl _
    refine dark_then ?_ (bankCandidate_dark _ _) rfl
    refine dark_then ?_ (dark_of (modLmm_only ..) rfl) rfl
    exact hv33

theorem readChecks_dark (s : State) (reader : Option Head) (used : Bool) (w : Nat) : darkHeld s (readChecks s reader used w) := by
  unfold readChecks
  extract_lets v22
  split
  · refine dark_then ?_ (uncorrectable_dark _ _ _ _ _) rfl
    exact dark_refl _
  · refine dark_then ?_ (corrected_dark _ _ _) rfl
    exact dark_refl _
  · refine dark_ite ?_ ?_
    · refine dark_then ?_ (uncorrectable_dark _ _ _ _ _) rfl
      exact dark_refl _
    · exact dark_refl _

theorem clientRead_dark (s : State) (reader : Option Head) (ranges : List (Nat × Nat)) : darkHeld s (clientRead s reader ranges) := by
  unfold clientRead
  refine foldl_dark ?_ (fun t24 a24 => ?_)
  · exact dark_refl _
  · refine dark_then ?_ (readChecks_dark _ _ _ _) rfl
    exact dark_refl _

theorem clientPut_dark (s0 : State) (a : Nat) (bs : List Byte) : darkHeld s0 (clientPut s0 a bs) := by
  unfold clientPut
  refine dark_ite ?_ ?_
  · exact dark_refl _
  · extract_lets v25 v26 v27 v28 v29
    have hv29 : darkHeld s0 v29 := by
      refine dark_then ?_ (dark_of (modLmm_only ..) rfl) rfl
      refine dark_then ?_ (dark_of (memWrite_only ..) rfl) rfl
      exact dark_refl _
    split
    · refine dark_then ?_ (injectWord_dark _ _) rfl
      exact hv29
    · exact hv29

theorem clientWrite_dark (s : State) (a : Nat) (bs : List Byte) : darkHeld s (clientWrite s a bs) := by
  unfold clientWrite
  refine dark_ite ?_ ?_
  · exact dark_refl _
  · refine dark_then ?_ (clientPut_dark _ _ _) rfl
    refine foldl_dark ?_ (fun t31 a31 => ?_)
    · exact dark_refl _
    · refine dark_then ?_ (readChecks_dark _ _ _ _) rfl
      exact dark_refl _

theorem scrubBad_dark (s : State) (p : Nat) (injected : Bool) : darkHeld s (scrubBad s p injected) := by
  unfold scrubBad
  refine dark_then ?_ (dark_of (modLmm_only ..) rfl) rfl
  refine dark_then ?_ (uncorrectable_dark _ _ _ _ _) rfl
  exact dark_refl _

theorem scrubRead_dark (s : State) (p : Nat) (errors : List (Nat × Bool)) : darkHeld s (scrubRead s p errors) := by
  unfold scrubRead
  extract_lets v34
  split
  · refine dark_then ?_ (scrubBad_dark _ _ _) rfl
    exact dark_refl _
  · refine dark_then ?_ (scrubBad_dark _ _ _) rfl
    exact dark_refl _
  · refine dark_then ?_ (corrected_dark _ _ _) rfl
    exact dark_refl _
  · refine dark_then ?_ (corrected_dark _ _ _) rfl
    exact dark_refl _
  · refine dark_ite ?_ ?_
    · refine dark_then ?_ (scrubBad_dark _ _ _) rfl
      exact dark_refl _
    · exact dark_refl _

theorem scrubOne_dark (s : State) (errors : List (Nat × Bool)) : darkHeld s (scrubOne s errors) := by
  unfold scrubOne
  extract_lets v35 v36 v37 v38 v39
  have hv36 : darkHeld s v36 := by
    refine dark_ite ?_ ?_
    · refine dark_then ?_ (dark_of (passEnd_only ..) rfl) rfl
      exact dark_refl _
    · exact dark_refl _
  have hv37 : darkHeld s v37 := by
    refine dark_then ?_ (scrubRead_dark _ _ _) rfl
    exact hv36
  have hv39 : darkHeld s v39 := by
    refine dark_then ?_ (dark_of (modLmm_only ..) rfl) rfl
    exact hv37
  refine dark_ite ?_ ?_
  · refine dark_then ?_ (dark_of (passEnd_only ..) rfl) rfl
    exact hv39
  · exact hv39

theorem scrubMany_dark (s : State) (errors : List (Nat × Bool)) (x1 : Nat) : darkHeld s (scrubMany s errors x1) := by
  induction x1 generalizing s with
  | zero => exact dark_refl _
  | succ n ih =>
    unfold scrubMany
    repeat first
      | (with_reducible exact dark_refl _)
      | (with_reducible refine dark_trans ?_ (ih _))
      | (with_reducible refine dark_then ?_ (scrubOne_dark _ _) rfl)
      | (with_reducible refine dark_ite ?_ ?_)
      | split
      | dsimp only

theorem periodStart_dark (s : State) (used : List (Nat × Nat)) (errors : List (Nat × Bool)) : darkHeld s (periodStart s used errors) := by
  unfold periodStart
  extract_lets v40
  have hv40 : darkHeld s v40 := by
    refine dark_then ?_ (dark_of (modLmm_only ..) rfl) rfl
    exact dark_refl _
  refine dark_ite ?_ ?_
  · refine dark_then ?_ (scrubMany_dark _ _ _) rfl
    exact hv40
  · exact hv40

theorem writeBackOne_dark (s : State) : darkHeld s (writeBackOne s) := by
  unfold writeBackOne
  split
  · exact dark_refl _
  · extract_lets v41
    have hv41 : darkHeld s v41 := by
      refine dark_then ?_ (dark_of (modLmm_only ..) rfl) rfl
      exact dark_refl _
    refine dark_ite ?_ ?_
    · refine dark_then ?_ (injectWord_dark _ _) rfl
      exact hv41
    · exact hv41

theorem copierReads_dark (s : State) (b : Nat) : darkHeld s (copierReads s b) := by
  unfold copierReads
  refine foldl_dark ?_ (fun t44 a44 => ?_)
  · exact dark_refl _
  · refine dark_then ?_ (readChecks_dark _ _ _ _) rfl
    exact dark_refl _

theorem copierWrites_dark (s : State) (b : Nat) : darkHeld s (copierWrites s b) := by
  unfold copierWrites
  extract_lets v45
  have hv45 : darkHeld s v45 := by
    refine dark_then ?_ (dark_of (modLmm_only ..) rfl) rfl
    exact dark_refl _
  refine dark_ite ?_ ?_
  · refine dark_then ?_ (injectWord_dark _ _) rfl
    exact hv45
  · exact hv45

theorem copyEnd_dark (s : State) : darkHeld s (copyEnd s) := by
  unfold copyEnd
  split
  · exact dark_refl _
  · refine dark_ite ?_ ?_
    · exact dark_refl _
    · extract_lets v46
      have hv46 : darkHeld s v46 := by
        refine dark_then ?_ (copierWrites_dark _ _) rfl
        refine dark_then ?_ (copierReads_dark _ _) rfl
        exact dark_refl _
      refine dark_then ?_ (dark_of (retireFinish_only ..) rfl) rfl
      refine dark_then ?_ (dark_of (modLmm_only ..) rfl) rfl
      exact hv46

theorem buildMask_dark (s : State) (h : Head) (emission : Int) : darkHeld s (buildMask s h emission) := by
  unfold buildMask
  refine dark_ite ?_ ?_
  · exact dark_refl _
  · extract_lets v47 v48 v49 v50 v51 v52 v53 v54 v55 v56 v57 v58 v59
    have hv56 : darkHeld s v56 := by
      refine foldl_dark ?_ (fun t61 a61 => ?_)
      · exact dark_refl _
      · refine dark_then ?_ (clientWrite_dark _ _ _) rfl
        exact dark_refl _
    have hv59 : darkHeld s v59 := by
      refine dark_then ?_ (dark_of (modShd_only ..) rfl) rfl
      exact hv56
    refine dark_then ?_ (setLevel_dark _ _ _ _ _ _) rfl
    refine dark_then ?_ (setLevel_dark _ _ _ _ _ _) rfl
    exact hv59

theorem transferEnd_dark (s : State) (h : Head) (csn : Word) (i : Nat) (data : HostRead) : darkHeld s (transferEnd s h csn i data) := by
  unfold transferEnd
  split
  · exact dark_refl _
  · refine dark_ite ?_ ?_
    · exact dark_refl _
    · split
      · refine dark_ite ?_ ?_
        · exact dark_refl _
        · extract_lets v103 v104
          have hv104 : darkHeld s v104 := by
            refine dark_then ?_ (clientWrite_dark _ _ _) rfl
            exact dark_refl _
          refine dark_ite ?_ ?_
          · refine dark_then ?_ (dark_of (refuseSet_only ..) rfl) rfl
            refine dark_then ?_ (raise_dark _ _ _ _) rfl
            exact hv104
          · refine dark_ite ?_ ?_
            · refine dark_then ?_ (dark_of (setMoved_only ..) rfl) rfl
              refine dark_then ?_ (dark_of (mapSet_only ..) rfl) rfl
              exact hv104
            · refine dark_then ?_ (dark_of (mapSet_only ..) rfl) rfl
              exact hv104
      · refine dark_ite ?_ ?_
        · exact dark_refl _
        · refine dark_then ?_ (dark_of (refuseSet_only ..) rfl) rfl
          refine dark_then ?_ (dark_of (hostFails_only ..) rfl) rfl
          exact dark_refl _
      · refine dark_ite ?_ ?_
        · exact dark_refl _
        · refine dark_then ?_ (dark_of (refuseSet_only ..) rfl) rfl
          exact dark_refl _
      · exact dark_refl _

theorem discardSet_dark (s : State) (h : Head) (ring : Nat) : darkHeld s (discardSet s h ring) := by
  unfold discardSet
  extract_lets v2
  refine dark_then ?_ (protocolError_dark _ _) rfl
  refine dark_then ?_ (dark_of (completeMembers_only ..) rfl) rfl
  refine dark_then ?_ (dark_of (modRngHead_only ..) rfl) rfl
  exact dark_refl _

theorem memberFetch_dark (s : State) (h : Head) (m : Member) : darkHeld s (memberFetch s h m) := by
  unfold memberFetch
  extract_lets v4 v5
  split
  · refine dark_ite ?_ ?_
    · refine dark_ite ?_ ?_
      · refine dark_then ?_ (dark_of (modRngHead_only ..) rfl) rfl
        refine dark_then ?_ (dark_of (completeMembers_only ..) rfl) rfl
        exact dark_refl _
      · refine dark_then ?_ (dark_of (completeMembers_only ..) rfl) rfl
        exact dark_refl _
    · refine dark_ite ?_ ?_
      · refine dark_then ?_ (dark_of (commitFetched_only ..) rfl) rfl
        refine dark_then ?_ (dark_of (modRngHead_only ..) rfl) rfl
        exact dark_refl _
      · refine dark_then ?_ (dark_of (modRngHead_only ..) rfl) rfl
        exact dark_refl _
  · refine dark_ite ?_ ?_
    · refine dark_then ?_ (dark_of (commitFetched_only ..) rfl) rfl
      refine dark_then ?_ (dark_of (modRngHead_only ..) rfl) rfl
      refine dark_ite ?_ ?_
      · refine dark_then ?_ (discardSet_dark _ _ _) rfl
        exact dark_refl _
      · exact dark_refl _
    · refine dark_ite ?_ ?_
      · refine dark_then ?_ (discardSet_dark _ _ _) rfl
        refine dark_then ?_ (dark_of (modRngHead_only ..) rfl) rfl
        refine dark_ite ?_ ?_
        · refine dark_then ?_ (discardSet_dark _ _ _) rfl
          exact dark_refl _
        · exact dark_refl _
      · refine dark_then ?_ (dark_of (modRngHead_only ..) rfl) rfl
        refine dark_ite ?_ ?_
        · refine dark_then ?_ (discardSet_dark _ _ _) rfl
          exact dark_refl _
        · exact dark_refl _

theorem replayAll_dark (s : State) (h : Head) (t : Nat) : darkHeld s (replayAll s h t) := by
  unfold replayAll
  extract_lets v8
  refine dark_ite ?_ ?_
  · refine dark_then ?_ (dark_of (modTile_only ..) rfl) rfl
    refine foldl_dark ?_ (fun t9 a9 => ?_)
    · refine dark_then ?_ (clientRead_dark _ _ _) rfl
      exact dark_refl _
    · refine dark_then ?_ (dark_of (emitPacket_only ..) rfl) rfl
      exact dark_refl _
  · exact dark_refl _

theorem autoHusk_dark (s : State) (h : Head) (t : Nat) : darkHeld s (autoHusk s h t) := by
  unfold autoHusk
  refine dark_ite ?_ ?_
  · refine foldl_dark ?_ (fun t21 a21 => ?_)
    · exact dark_refl _
    · refine dark_ite ?_ ?_
      · exact dark_refl _
      · split
        refine dark_then ?_ (dark_of (sendPackets_only ..) rfl) rfl
        refine dark_snd (by assumption) ?_
        refine dark_then ?_ (dark_of (huskOffset_only ..) rfl) rfl
        exact dark_refl _
  · exact dark_refl _

theorem ackRecord_dark (s : State) (h : Head) (t : Nat) (r : TileRecord) : darkHeld s (ackRecord s h t r) := by
  unfold ackRecord
  split
  extract_lets v1
  have hv1 : darkHeld s v1 := by
    refine dark_then ?_ (dark_of (pauseDue_only ..) rfl) rfl
    refine dark_snd (by assumption) ?_
    refine dark_then ?_ (dark_of (recordIn_only ..) rfl) rfl
    exact dark_refl _
  refine dark_ite ?_ ?_
  · exact hv1
  · refine dark_ite ?_ ?_
    · refine dark_then ?_ (dark_of (pump_only ..) rfl) rfl
      refine dark_then ?_ (replayAll_dark _ _ _) rfl
      refine dark_then ?_ (dark_of (modTile_only ..) rfl) rfl
      refine dark_ite ?_ ?_
      · refine dark_then ?_ (dark_of (modTile_only ..) rfl) rfl
        exact hv1
      · exact hv1
    · refine dark_then ?_ (dark_of (pump_only ..) rfl) rfl
      refine dark_ite ?_ ?_
      · refine dark_then ?_ (dark_of (modTile_only ..) rfl) rfl
        exact hv1
      · exact hv1

theorem replayTimer_dark (s : State) (h : Head) (t : Nat) : darkHeld s (replayTimer s h t) := by
  unfold replayTimer
  refine dark_ite ?_ ?_
  · exact dark_refl _
  · refine dark_then ?_ (replayAll_dark _ _ _) rfl
    exact dark_refl _

theorem statusRecord_dark (s : State) (h : Head) (t : Nat) (r : TileRecord) : darkHeld s (statusRecord s h t r) := by
  unfold statusRecord
  split
  refine dark_ite ?_ ?_
  · refine dark_then ?_ (dark_of (pauseDue_only ..) rfl) rfl
    refine dark_snd (by assumption) ?_
    refine dark_then ?_ (dark_of (recordIn_only ..) rfl) rfl
    exact dark_refl _
  · extract_lets v3 v4 v5 v6 v7 v8 v9 v10 v11
    have hv8 : darkHeld s v8 := by
      refine dark_then ?_ (dark_of (modTile_only ..) rfl) rfl
      refine dark_snd (by assumption) ?_
      refine dark_then ?_ (dark_of (recordIn_only ..) rfl) rfl
      exact dark_refl _
    have hv11 : darkHeld s v11 := by
      refine dark_then ?_ (dark_of (pauseDue_only ..) rfl) rfl
      refine dark_ite ?_ ?_
      · refine dark_then ?_ (raise_dark _ _ _ _) rfl
        exact hv8
      · exact hv8
    refine dark_then ?_ (autoHusk_dark _ _ _) rfl
    refine dark_then ?_ (dark_of (configIfAsked_only ..) rfl) rfl
    exact hv11

theorem statusGone_dark (s : State) (h : Head) (t : Nat) : darkHeld s (statusGone s h t) := by
  unfold statusGone
  refine dark_ite ?_ ?_
  · exact dark_refl _
  · refine dark_ite ?_ ?_
    · refine dark_then ?_ (raise_dark _ _ _ _) rfl
      refine dark_then ?_ (dark_of (modTile_only ..) rfl) rfl
      exact dark_refl _
    · refine dark_then ?_ (dark_of (modTile_only ..) rfl) rfl
      exact dark_refl _

theorem tempRecord_dark (s : State) (h : Head) (t : Nat) (r : TileRecord) : darkHeld s (tempRecord s h t r) := by
  unfold tempRecord
  split
  refine dark_ite ?_ ?_
  · refine dark_then ?_ (dark_of (pauseDue_only ..) rfl) rfl
    refine dark_snd (by assumption) ?_
    refine dark_then ?_ (dark_of (recordIn_only ..) rfl) rfl
    exact dark_refl _
  · extract_lets v12 v13 v14 v15 v16
    have hv16 : darkHeld s v16 := by
      refine dark_then ?_ (dark_of (modTile_only ..) rfl) rfl
      refine dark_snd (by assumption) ?_
      refine dark_then ?_ (dark_of (recordIn_only ..) rfl) rfl
      exact dark_refl _
    refine dark_then ?_ (dark_of (pauseDue_only ..) rfl) rfl
    refine dark_ite ?_ ?_
    · refine dark_then ?_ (raise_dark _ _ _ _) rfl
      exact hv16
    · exact hv16

theorem healthRead_dark (s : State) (h : Head) (ps : List Nat) : darkHeld s (healthRead s h ps) := by
  unfold healthRead
  refine dark_then ?_ (clientRead_dark _ _ _) rfl
  exact dark_refl _

theorem putHealth_dark (s : State) (h : Head) (p : Nat) (v : Nat) : darkHeld s (putHealth s h p v) := by
  unfold putHealth
  extract_lets v17 v18
  refine dark_then ?_ (clientPut_dark _ _ _) rfl
  exact dark_refl _

theorem writeHealth_dark (s : State) (h : Head) (p : Nat) (v : Nat) : darkHeld s (writeHealth s h p v) := by
  unfold writeHealth
  refine dark_then ?_ (putHealth_dark _ _ _ _) rfl
  refine dark_then ?_ (healthRead_dark _ _ _) rfl
  exact dark_refl _

theorem pixelPropose_dark (s : State) (h : Head) : darkHeld s (pixelPropose s h) := by
  unfold pixelPropose
  extract_lets v19
  refine dark_ite ?_ ?_
  · refine dark_then ?_ (cblFind_dark _ _ _ _) rfl
    refine dark_then ?_ (dark_of (modPxc_only ..) rfl) rfl
    exact dark_refl _
  · exact dark_refl _

theorem pixelCandidate_dark (s : State) (h : Head) (p : Nat) (st : Nat) : darkHeld s (pixelCandidate s h p st) := by
  unfold pixelCandidate
  split
  · refine dark_then ?_ (cblFind_dark _ _ _ _) rfl
    refine dark_then ?_ (dark_of (modPxc_only ..) rfl) rfl
    exact dark_refl _
  · extract_lets v27
    have hv27 : darkHeld s v27 := by
      refine dark_then ?_ (dark_of (modPxc_only ..) rfl) rfl
      exact dark_refl _
    refine dark_ite ?_ ?_
    · refine dark_then ?_ (pixelPropose_dark _ _) rfl
      exact hv27
    · refine dark_then ?_ (raise_dark _ _ _ _) rfl
      exact hv27
  · refine dark_then ?_ (cblFind_dark _ _ _ _) rfl
    exact dark_refl _

theorem applyProbe_dark (s : State) (h : Head) (t : Nat) (x : Nat) (y : Nat) (res : Nat) : darkHeld s (applyProbe s h t x y res) := by
  unfold applyProbe
  extract_lets v20 v21 v22 v23
  have hv21 : darkHeld s v21 := by
    refine dark_then ?_ (healthRead_dark _ _ _) rfl
    exact dark_refl _
  refine dark_ite ?_ ?_
  · exact hv21
  · refine dark_ite ?_ ?_
    · refine dark_then ?_ (pixelCandidate_dark _ _ _ _) rfl
      refine dark_ite ?_ ?_
      · refine dark_then ?_ (raise_dark _ _ _ _) rfl
        refine dark_then ?_ (raise_dark _ _ _ _) rfl
        refine dark_ite ?_ ?_
        · refine dark_then ?_ (healthRead_dark _ _ _) rfl
          refine dark_then ?_ (putHealth_dark _ _ _ _) rfl
          exact hv21
        · refine dark_then ?_ (putHealth_dark _ _ _ _) rfl
          exact hv21
      · refine dark_then ?_ (raise_dark _ _ _ _) rfl
        refine dark_ite ?_ ?_
        · refine dark_then ?_ (healthRead_dark _ _ _) rfl
          refine dark_then ?_ (putHealth_dark _ _ _ _) rfl
          exact hv21
        · refine dark_then ?_ (putHealth_dark _ _ _ _) rfl
          exact hv21
    · refine dark_then ?_ (putHealth_dark _ _ _ _) rfl
      exact hv21

theorem healthRecord_dark (s : State) (h : Head) (t : Nat) (r : TileRecord) : darkHeld s (healthRecord s h t r) := by
  unfold healthRecord
  split
  refine dark_ite ?_ ?_
  · refine dark_then ?_ (dark_of (pauseDue_only ..) rfl) rfl
    refine dark_snd (by assumption) ?_
    refine dark_then ?_ (dark_of (recordIn_only ..) rfl) rfl
    exact dark_refl _
  · extract_lets v28 v29
    refine dark_then ?_ (dark_of (pauseDue_only ..) rfl) rfl
    refine foldl_dark ?_ (fun t30 a30 => ?_)
    · refine dark_snd (by assumption) ?_
      refine dark_then ?_ (dark_of (recordIn_only ..) rfl) rfl
      exact dark_refl _
    · extract_lets v31 v32 v33 v34
      refine dark_ite ?_ ?_
      · refine dark_ite ?_ ?_
        · refine dark_then ?_ (applyProbe_dark _ _ _ _ _ _) rfl
          refine dark_then ?_ (dark_of (modPxc_only ..) rfl) rfl
          exact dark_refl _
        · refine dark_then ?_ (dark_of (modPxc_only ..) rfl) rfl
          exact dark_refl _
      · exact dark_refl _

theorem applyMarks_dark (s : State) (h : Head) : darkHeld s (applyMarks s h) := by
  unfold applyMarks
  extract_lets v24 v25 v26
  have hv24 : darkHeld s v24 := by
    refine dark_then ?_ (healthRead_dark _ _ _) rfl
    exact dark_refl _
  have hv26 : darkHeld s v26 := by
    refine dark_then ?_ (dark_of (modPxc_only ..) rfl) rfl
    exact hv24
  refine foldl_dark ?_ (fun t36 a36 => ?_)
  · exact hv26
  · refine dark_then ?_ (dark_of (cblDone_only ..) rfl) rfl
    refine dark_then ?_ (putHealth_dark _ _ _ _) rfl
    exact dark_refl _

theorem clearHealth_dark (s : State) (h : Head) (v : Word) : darkHeld s (clearHealth s h v) := by
  unfold clearHealth
  refine dark_ite ?_ ?_
  · exact dark_refl _
  · refine dark_ite ?_ ?_
    · refine foldl_dark ?_ (fun t35 a35 => ?_)
      · exact dark_refl _
      · refine dark_then ?_ (writeHealth_dark _ _ _ _) rfl
        exact dark_refl _
    · refine dark_ite ?_ ?_
      · refine dark_then ?_ (writeHealth_dark _ _ _ _) rfl
        exact dark_refl _
      · exact dark_refl _

theorem echoBad_dark (s : State) (h : Head) (t : Nat) (injected : Bool) : darkHeld s (echoBad s h t injected) := by
  unfold echoBad
  refine dark_then ?_ (raiseInj_dark _ _ _ _ _) rfl
  refine dark_then ?_ (dark_of (modTile_only ..) rfl) rfl
  exact dark_refl _

theorem echoRecord_dark (s : State) (h : Head) (t : Nat) (r : TileRecord) : darkHeld s (echoRecord s h t r) := by
  unfold echoRecord
  split
  refine dark_then ?_ (dark_of (pauseDue_only ..) rfl) rfl
  split
  · extract_lets v43
    refine dark_ite ?_ ?_
    · refine dark_then ?_ (echoBad_dark _ _ _ _) rfl
      refine dark_snd (by assumption) ?_
      refine dark_then ?_ (dark_of (recordIn_only ..) rfl) rfl
      exact dark_refl _
    · refine dark_ite ?_ ?_
      · refine dark_then ?_ (dark_of (modTile_only ..) rfl) rfl
        refine dark_then ?_ (dark_of (modTile_only ..) rfl) rfl
        refine dark_snd (by assumption) ?_
        refine dark_then ?_ (dark_of (recordIn_only ..) rfl) rfl
        exact dark_refl _
      · refine dark_then ?_ (echoBad_dark _ _ _ _) rfl
        refine dark_then ?_ (dark_of (modTile_only ..) rfl) rfl
        refine dark_snd (by assumption) ?_
        refine dark_then ?_ (dark_of (recordIn_only ..) rfl) rfl
        exact dark_refl _
  · refine dark_snd (by assumption) ?_
    refine dark_then ?_ (dark_of (recordIn_only ..) rfl) rfl
    exact dark_refl _

theorem echoLate_dark (s : State) (h : Head) (t : Nat) : darkHeld s (echoLate s h t) := by
  unfold echoLate
  refine dark_ite ?_ ?_
  · refine dark_then ?_ (raise_dark _ _ _ _) rfl
    refine dark_then ?_ (dark_of (modTile_only ..) rfl) rfl
    exact dark_refl _
  · exact dark_refl _

theorem forwardRequest_dark (s : State) (h : Head) (i : Nat) (code : Nat) : darkHeld s (forwardRequest s h i code) := by
  unfold forwardRequest
  extract_lets v38 v39 v40
  refine dark_ite ?_ ?_
  · exact dark_refl _
  · refine dark_ite ?_ ?_
    · refine dark_then ?_ (dark_of (cblDone_only ..) rfl) rfl
      refine dark_then ?_ (raise_dark _ _ _ _) rfl
      refine dark_then ?_ (dark_of (modTbl_only ..) rfl) rfl
      refine dark_then ?_ (dark_of (setFwd_only ..) rfl) rfl
      exact dark_refl _
    · refine dark_then ?_ (dark_of (setFwd_only ..) rfl) rfl
      exact dark_refl _

theorem writeFwd_dark (s : State) (h : Head) (v : Word) : darkHeld s (writeFwd s h v) := by
  unfold writeFwd
  extract_lets v0
  have hv0 : darkHeld s v0 := by
    refine dark_then ?_ (dark_of (modTbl_only ..) rfl) rfl
    exact dark_refl _
  refine foldl_dark ?_ (fun t4 a4 => ?_)
  · exact hv0
  · extract_lets v5
    refine dark_ite ?_ ?_
    · refine dark_then ?_ (dark_of (forwardReturn_only ..) rfl) rfl
      exact dark_refl _
    · refine dark_ite ?_ ?_
      · exact dark_refl _
      · refine dark_then ?_ (forwardRequest_dark _ _ _ _) rfl
        exact dark_refl _

theorem fwdLatch_dark (s : State) (h : Head) (i : Nat) : darkHeld s (fwdLatch s h i) := by
  unfold fwdLatch
  extract_lets v44 v45
  refine dark_ite ?_ ?_
  · exact dark_refl _
  · refine dark_ite ?_ ?_
    · refine dark_then ?_ (dark_of (modTbl_only ..) rfl) rfl
      exact dark_refl _
    · refine dark_then ?_ (dark_of (cblDone_only ..) rfl) rfl
      refine dark_then ?_ (raise_dark _ _ _ _) rfl
      refine dark_then ?_ (dark_of (modTbl_only ..) rfl) rfl
      exact dark_refl _

theorem fwdStitchPoint_dark (s : State) (h : Head) (stitched : Bool) : darkHeld s (fwdStitchPoint s h stitched) := by
  unfold fwdStitchPoint
  extract_lets v46
  have hv46 : darkHeld s v46 := by
    refine dark_ite ?_ ?_
    · refine foldl_dark ?_ (fun t49 a49 => ?_)
      · exact dark_refl _
      · refine dark_then ?_ (fwdLatch_dark _ _ _) rfl
        exact dark_refl _
    · exact dark_refl _
  refine dark_then ?_ (dark_of (reconfigure_only ..) rfl) rfl
  refine foldl_dark ?_ (fun t54 a54 => ?_)
  · exact hv46
  · refine dark_then ?_ (dark_of (fwdBegin_only ..) rfl) rfl
    exact dark_refl _

theorem laneCandidate_dark (s : State) (h : Head) (l : Nat) : darkHeld s (laneCandidate s h l) := by
  unfold laneCandidate
  extract_lets v47 v48
  refine dark_ite ?_ ?_
  · refine dark_ite ?_ ?_
    · refine dark_then ?_ (forwardRequest_dark _ _ _ _) rfl
      refine dark_then ?_ (cblFind_dark _ _ _ _) rfl
      exact dark_refl _
    · refine dark_then ?_ (cblFind_dark _ _ _ _) rfl
      exact dark_refl _
  · exact dark_refl _

theorem calMergeEnds_dark (s : State) : darkHeld s (calMergeEnds s) := by
  unfold calMergeEnds
  split
  · exact dark_refl _
  · refine dark_ite ?_ ?_
    · exact dark_refl _
    · extract_lets v1 v2 v3
      have hv1 : darkHeld s v1 := by
        refine dark_then ?_ (clientWrite_dark _ _ _) rfl
        exact dark_refl _
      refine dark_ite ?_ ?_
      · refine dark_trans ?_ (dark_of (raw_pxc (onlyChanges_refl [.pxc] _) rfl) rfl)
        exact hv1
      · refine dark_then ?_ (dark_of (calFinish_only ..) rfl) rfl
        refine foldl_dark ?_ (fun t10 a10 => ?_)
        · refine dark_trans ?_ (dark_of (raw_pxc (onlyChanges_refl [.pxc] _) rfl) rfl)
          exact hv1
        · refine dark_then ?_ (dark_of (kpsRequest_only ..) rfl) rfl
          exact dark_refl _

theorem setLink_dark (s : State) (p : Nat) (up : Bool) : darkHeld s (setLink s p up) := by
  unfold setLink
  extract_lets v8 v9
  have hv9 : darkHeld s v9 := by
    refine dark_then ?_ (dark_of (modPort_only ..) rfl) rfl
    exact dark_refl _
  refine dark_ite ?_ ?_
  · refine dark_then ?_ (setLevel_dark _ _ _ _ _ _) rfl
    exact hv9
  · refine dark_ite ?_ ?_
    · refine dark_then ?_ (setLevel_dark _ _ _ _ _ _) rfl
      exact hv9
    · exact hv9

theorem portLink_dark (s : State) (p : Nat) : darkHeld s (portLink s p) := by
  unfold portLink
  refine dark_then ?_ (dark_of (txStart_only ..) rfl) rfl
  refine dark_then ?_ (setLink_dark _ _ _) rfl
  refine dark_then ?_ (dark_of (streamSettle_only ..) rfl) rfl
  exact dark_refl _

theorem portSilent_dark (s : State) (p : Nat) : darkHeld s (portSilent s p) := by
  unfold portSilent
  refine dark_then ?_ (portLink_dark _ _) rfl
  refine dark_then ?_ (dark_of (modPort_only ..) rfl) rfl
  exact dark_refl _

theorem linkChanges_dark (s : State) (p : Nat) (sync : Option Nat) (anDone : Bool) (remoteFault : Bool) (phyUp : Bool) (speedOk : Bool) : darkHeld s (linkChanges s p sync anDone remoteFault phyUp speedOk) := by
  unfold linkChanges
  refine dark_ite ?_ ?_
  · exact dark_refl _
  · extract_lets v0 v1 v2 v3 v4
    have hv3 : darkHeld s v3 := by
      refine dark_then ?_ (dark_of (modLane_only ..) rfl) rfl
      exact dark_refl _
    have hv4 : darkHeld s v4 := by
      refine dark_ite ?_ ?_
      · refine dark_then ?_ (setLevel_dark _ _ _ _ _ _) rfl
        exact hv3
      · exact hv3
    refine dark_then ?_ (portLink_dark _ _) rfl
    refine dark_then ?_ (dark_of (modPort_only ..) rfl) rfl
    exact hv4

theorem portEnds_dark (s : State) (p : Nat) : darkHeld s (portEnds s p) := by
  unfold portEnds
  split
  refine dark_then ?_ (setLink_dark _ _ _) rfl
  refine dark_then ?_ (dark_of (modPort_only ..) rfl) rfl
  refine dark_snd (by assumption) ?_
  refine dark_then ?_ (dark_of (drawBelow_only ..) rfl) rfl
  exact dark_refl _

theorem writeNetCtrl_dark (s : State) (p : Nat) (v : Word) : darkHeld s (writeNetCtrl s p v) := by
  unfold writeNetCtrl
  extract_lets v12 v13 v14
  refine dark_ite ?_ ?_
  · refine dark_ite ?_ ?_
    · refine dark_then ?_ (dark_of (setRegAt_only ..) rfl) rfl
      refine dark_ite ?_ ?_
      · refine dark_then ?_ (dark_of (modPort_only ..) rfl) rfl
        exact dark_refl _
      · exact dark_refl _
    · refine dark_then ?_ (portEnds_dark _ _) rfl
      refine dark_then ?_ (dark_of (setRegAt_only ..) rfl) rfl
      refine dark_ite ?_ ?_
      · refine dark_then ?_ (dark_of (modPort_only ..) rfl) rfl
        exact dark_refl _
      · exact dark_refl _
  · refine dark_then ?_ (portLink_dark _ _) rfl
    refine dark_then ?_ (dark_of (setRegAt_only ..) rfl) rfl
    refine dark_ite ?_ ?_
    · exact dark_refl _
    · refine dark_then ?_ (dark_of (modPort_only ..) rfl) rfl
      exact dark_refl _

theorem inOneCycle_dark {s : State} {f : State → State} (hf : ∀ u, darkHeld u (f u)) (_ : true = true) :
    darkHeld s (inOneCycle f s) := by
  unfold inOneCycle
  exact oneCycle_dark (fun u => dark_trans (hf u) (dark_of (framesGo_only ..) rfl))

theorem telTimesOut_dark (s : State) (src : Nat) : darkHeld s (telTimesOut s src) := by
  unfold telTimesOut
  refine dark_ite ?_ ?_
  · refine dark_then ?_ (raise_dark _ _ _ _) rfl
    exact dark_refl _
  · exact dark_refl _

theorem laneAligned_dark (s : State) (l : Nat) : darkHeld s (laneAligned s l) := by
  unfold laneAligned
  extract_lets v8 v9
  have hv9 : darkHeld s v9 := by
    refine dark_then ?_ (dark_of (laneProposalCheck_only ..) rfl) rfl
    refine dark_then ?_ (setLevel_dark _ _ _ _ _ _) rfl
    exact dark_refl _
  refine foldl_dark ?_ (fun t10 a10 => ?_)
  · exact hv9
  · refine dark_then ?_ (dark_of (configIfAsked_only ..) rfl) rfl
    refine dark_then ?_ (dark_of (reconfigTile_only ..) rfl) rfl
    exact dark_refl _

theorem laneDrops_dark (s : State) (l : Nat) : darkHeld s (laneDrops s l) := by
  unfold laneDrops
  extract_lets v14
  refine dark_ite ?_ ?_
  · exact dark_refl _
  · refine dark_ite ?_ ?_
    · refine dark_then ?_ (setLevel_dark _ _ _ _ _ _) rfl
      refine dark_then ?_ (portSilent_dark _ _) rfl
      refine dark_then ?_ (dark_of (modLane_only ..) rfl) rfl
      exact dark_refl _
    · refine dark_ite ?_ ?_
      · refine dark_then ?_ (laneCandidate_dark _ _ _) rfl
        refine dark_then ?_ (dark_of (fwdLost_only ..) rfl) rfl
        refine dark_then ?_ (dark_of (laneProposalCheck_only ..) rfl) rfl
        refine dark_then ?_ (setLevel_dark _ _ _ _ _ _) rfl
        refine dark_then ?_ (dark_of (modLane_only ..) rfl) rfl
        exact dark_refl _
      · refine dark_then ?_ (dark_of (modLane_only ..) rfl) rfl
        exact dark_refl _

theorem laneSyncs_dark (s : State) (l : Nat) : darkHeld s (laneSyncs s l) := by
  unfold laneSyncs
  extract_lets v15
  refine dark_ite ?_ ?_
  · exact dark_refl _
  · refine dark_ite ?_ ?_
    · refine dark_then ?_ (portLink_dark _ _) rfl
      refine dark_then ?_ (dark_of (modPort_only ..) rfl) rfl
      refine dark_then ?_ (setLevel_dark _ _ _ _ _ _) rfl
      refine dark_then ?_ (dark_of (modLane_only ..) rfl) rfl
      exact dark_refl _
    · refine dark_then ?_ (laneDrops_dark _ _) rfl
      exact dark_refl _

theorem laneHears_dark (s : State) (l : Nat) (x1 : List Group) : darkHeld s (laneHears s l x1) := by
  induction x1 generalizing s with
  | nil => exact dark_refl _
  | cons v vs ih =>
    unfold laneHears
    dsimp only
    refine dark_trans ?_ (ih _)
    have h1 : darkHeld s (laneSyncs (laneSlot l s v) l) :=
      dark_then (dark_then (dark_refl _) (dark_of (laneSlot_only ..) rfl) rfl) (laneSyncs_dark _ _) rfl
    exact dark_ite (dark_then (dark_then h1 (dark_of (modLane_only ..) rfl) rfl) (laneDrops_dark _ _) rfl) h1

theorem elasticMoves_dark (s : State) (l : Nat) (drift : Int) : darkHeld s (elasticMoves s l drift) := by
  unfold elasticMoves
  extract_lets v16
  refine dark_ite ?_ ?_
  · exact dark_refl _
  · refine dark_ite ?_ ?_
    · refine dark_then ?_ (dark_of (modLane_only ..) rfl) rfl
      exact dark_refl _
    · refine dark_then ?_ (laneDrops_dark _ _) rfl
      refine dark_then ?_ (dark_of (modLane_only ..) rfl) rfl
      exact dark_refl _

theorem laneMeets_dark (s : State) (l : Nat) (groups : List Group) (drift : Int) (cdr : Bool) : darkHeld s (laneMeets s l groups drift cdr) := by
  unfold laneMeets
  extract_lets v17
  refine dark_ite ?_ ?_
  · exact dark_refl _
  · refine dark_ite ?_ ?_
    · refine dark_then ?_ (laneDrops_dark _ _) rfl
      refine dark_then ?_ (dark_of (modLane_only ..) rfl) rfl
      refine dark_ite ?_ ?_
      · refine dark_then ?_ (elasticMoves_dark _ _ _) rfl
        refine dark_then ?_ (laneHears_dark _ _ _) rfl
        exact dark_refl _
      · exact dark_refl _
    · refine dark_ite ?_ ?_
      · refine dark_then ?_ (elasticMoves_dark _ _ _) rfl
        refine dark_then ?_ (laneHears_dark _ _ _) rfl
        exact dark_refl _
      · exact dark_refl _

theorem searchEnds_dark (s : State) (l : Nat) (bits : List Bool) (groups : List Group) : darkHeld s (searchEnds s l bits groups) := by
  unfold searchEnds
  extract_lets v22
  refine dark_ite ?_ ?_
  · exact dark_refl _
  · split
    · refine dark_then ?_ (dark_of (modLane_only ..) rfl) rfl
      refine dark_then ?_ (dark_of (searchHears_only ..) rfl) rfl
      exact dark_refl _
    · refine dark_then ?_ (laneHears_dark _ _ _) rfl
      refine dark_then ?_ (laneAligned_dark _ _) rfl
      refine dark_then ?_ (dark_of (modLane_only ..) rfl) rfl
      refine dark_then ?_ (dark_of (modLane_only ..) rfl) rfl
      refine dark_then ?_ (dark_of (searchHears_only ..) rfl) rfl
      exact dark_refl _
    · refine dark_then ?_ (dark_of (modLane_only ..) rfl) rfl
      refine dark_then ?_ (dark_of (modLane_only ..) rfl) rfl
      refine dark_then ?_ (dark_of (searchHears_only ..) rfl) rfl
      exact dark_refl _

theorem eqApply_dark (s : State) (l : Nat) (upset : Bool) : darkHeld s (eqApply s l upset) := by
  unfold eqApply
  extract_lets v23
  refine dark_ite ?_ ?_
  · exact dark_refl _
  · split
    · refine dark_then ?_ (dark_of (modLane_only ..) rfl) rfl
      refine dark_then ?_ (dark_of (modLaneBlock_only ..) rfl) rfl
      refine dark_then ?_ (raiseInj_dark _ _ _ _ _) rfl
      refine dark_ite ?_ ?_
      · refine dark_then ?_ (dark_of (tableSpoilt_only ..) rfl) rfl
        refine dark_then ?_ (spendInj_dark _) rfl
        exact dark_refl _
      · refine dark_ite ?_ ?_
        · refine dark_then ?_ (dark_of (tableSpoilt_only ..) rfl) rfl
          exact dark_refl _
        · exact dark_refl _
    · refine dark_then ?_ (dark_of (modLane_only ..) rfl) rfl
      refine dark_ite ?_ ?_
      · refine dark_then ?_ (dark_of (tableSpoilt_only ..) rfl) rfl
        refine dark_then ?_ (spendInj_dark _) rfl
        exact dark_refl _
      · refine dark_ite ?_ ?_
        · refine dark_then ?_ (dark_of (tableSpoilt_only ..) rfl) rfl
          exact dark_refl _
        · exact dark_refl _

theorem eqPoint_dark (s : State) (l : Nat) (upset : Bool) : darkHeld s (eqPoint s l upset) := by
  unfold eqPoint
  refine dark_ite ?_ ?_
  · refine dark_then ?_ (eqApply_dark _ _ _) rfl
    exact dark_refl _
  · exact dark_refl _

theorem scanEnds_dark (s0 : State) (l : Nat) (clean : DWord) (groups : List Group) (drift : Int) : darkHeld s0 (scanEnds s0 l clean groups drift) := by
  unfold scanEnds
  extract_lets v28 v29
  have hv28 : darkHeld s0 v28 := by
    refine dark_then ?_ (laneMeets_dark _ _ _ _ _) rfl
    exact dark_refl _
  refine dark_ite ?_ ?_
  · exact hv28
  · refine dark_ite ?_ ?_
    · refine dark_then ?_ (laneCandidate_dark _ _ _) rfl
      refine dark_then ?_ (dark_of (laneProposalCheck_only ..) rfl) rfl
      refine dark_then ?_ (setLevel_dark _ _ _ _ _ _) rfl
      refine dark_then ?_ (dark_of (modLane_only ..) rfl) rfl
      refine dark_then ?_ (dark_of (modLane_only ..) rfl) rfl
      exact hv28
    · refine dark_ite ?_ ?_
      · refine dark_then ?_ (setLevel_dark _ _ _ _ _ _) rfl
        refine dark_then ?_ (dark_of (modLane_only ..) rfl) rfl
        refine dark_then ?_ (dark_of (modLane_only ..) rfl) rfl
        exact hv28
      · refine dark_ite ?_ ?_
        · refine dark_then ?_ (setLevel_dark _ _ _ _ _ _) rfl
          refine dark_then ?_ (dark_of (modLane_only ..) rfl) rfl
          refine dark_then ?_ (dark_of (modLane_only ..) rfl) rfl
          exact hv28
        · refine dark_ite ?_ ?_
          · refine dark_then ?_ (dark_of (laneProposalCheck_only ..) rfl) rfl
            refine dark_then ?_ (setLevel_dark _ _ _ _ _ _) rfl
            refine dark_then ?_ (dark_of (modLane_only ..) rfl) rfl
            refine dark_then ?_ (dark_of (modLane_only ..) rfl) rfl
            exact hv28
          · refine dark_then ?_ (dark_of (modLane_only ..) rfl) rfl
            exact hv28

theorem lowerLane_dark (s : State) (l : Nat) (p : Nat) : darkHeld s (lowerLane s l p) := by
  unfold lowerLane
  extract_lets v33 v34
  have hv33 : darkHeld s v33 := by
    refine dark_then ?_ (dark_of (modLane_only ..) rfl) rfl
    exact dark_refl _
  have hv34 : darkHeld s v34 := by
    refine dark_then ?_ (dark_of (streamSettle_only ..) rfl) rfl
    exact hv33
  refine dark_ite ?_ ?_
  · exact hv34
  · refine dark_then ?_ (portSilent_dark _ _) rfl
    exact hv34

theorem laneReaches_dark (s : State) (l : Nat) (upset : Bool) : darkHeld s (laneReaches s l upset) := by
  unfold laneReaches
  extract_lets v35
  refine dark_ite ?_ ?_
  · exact dark_refl _
  · refine dark_ite ?_ ?_
    · refine dark_then ?_ (dark_of (startSearch_only ..) rfl) rfl
      refine dark_then ?_ (dark_of (pathsEnter_only ..) rfl) rfl
      refine dark_then ?_ (dark_of (streamSettle_only ..) rfl) rfl
      refine dark_then ?_ (dark_of (modLane_only ..) rfl) rfl
      refine dark_ite ?_ ?_
      · refine dark_then ?_ (eqApply_dark _ _ _) rfl
        exact dark_refl _
      · exact dark_refl _
    · refine dark_then ?_ (dark_of (pathsEnter_only ..) rfl) rfl
      refine dark_then ?_ (dark_of (streamSettle_only ..) rfl) rfl
      refine dark_then ?_ (dark_of (modLane_only ..) rfl) rfl
      refine dark_ite ?_ ?_
      · refine dark_then ?_ (eqApply_dark _ _ _) rfl
        exact dark_refl _
      · exact dark_refl _

theorem writeLaneCtrl_dark (s : State) (l : Nat) (v : Word) : darkHeld s (writeLaneCtrl s l v) := by
  unfold writeLaneCtrl
  extract_lets v36 v37 v38 v39 v40 v41 v42 v43 v44 v45 v46 v47 v48 v49 v50 v51 v52
  have hv50 : darkHeld s v50 := by
    refine dark_then ?_ (dark_of (laneTests_only ..) rfl) rfl
    refine dark_then ?_ (dark_of (setRegAt_only ..) rfl) rfl
    exact dark_refl _
  have hv51 : darkHeld s v51 := by
    refine dark_ite ?_ ?_
    · refine dark_then ?_ (dark_of (modLane_only ..) rfl) rfl
      exact hv50
    · exact hv50
  have hv52 : darkHeld s v52 := by
    refine dark_ite ?_ ?_
    · refine dark_then ?_ (lowerLane_dark _ _ _) rfl
      exact hv51
    · exact hv51
  refine dark_ite ?_ ?_
  · refine dark_then ?_ (dark_of (startSearch_only ..) rfl) rfl
    exact hv52
  · exact hv52

theorem blockApply_dark (s : State) (h : Head) : darkHeld s (blockApply s h) := by
  unfold blockApply
  refine dark_then ?_ (modSafHead_dark _ _ _) rfl
  exact dark_refl _

theorem cutApply_dark (s : State) (h : Head) : darkHeld s (cutApply s h) := by
  unfold cutApply
  extract_lets v64 v65 v66
  have hv65 : darkHeld s v65 := by
    refine dark_then ?_ (dark_of (calApply_only ..) rfl) rfl
    refine dark_then ?_ (dark_of (listsApply_only ..) rfl) rfl
    refine dark_then ?_ (dark_of (setsApply_only ..) rfl) rfl
    refine dark_then ?_ (dark_of (forceApply_only ..) rfl) rfl
    exact dark_refl _
  have hv66 : darkHeld s v66 := by
    refine dark_then ?_ (degradeApply_dark _ _) rfl
    refine dark_then ?_ (blockApply_dark _ _) rfl
    refine dark_then ?_ (dark_of (toneApply_only ..) rfl) rfl
    exact hv65
  refine dark_then ?_ (dark_of (flatSettle_only ..) rfl) rfl
  refine dark_then ?_ (dark_of (splitsCut_only ..) rfl) rfl
  refine dark_then ?_ (dark_of (pitchApply_only ..) rfl) rfl
  refine dark_then ?_ (dark_of (bandApply_only ..) rfl) rfl
  refine dark_then ?_ (dark_of (headroomApply_only ..) rfl) rfl
  exact hv66

theorem cutApplyAll_dark (s : State) (h : Head) : darkHeld s (cutApplyAll s h) := by
  unfold cutApplyAll
  refine dark_then ?_ (settle_dark _) rfl
  refine foldl_dark ?_ (fun t68 a68 => ?_)
  · exact dark_refl _
  · refine dark_then ?_ (cutApply_dark _ _) rfl
    exact dark_refl _

theorem startCut_dark (s : State) (h : Head) : darkHeld s (startCut s h) := by
  unfold startCut
  extract_lets v68 v0
  have hv68 : darkHeld s v68 := by
    refine dark_then ?_ (cutApplyAll_dark _ _) rfl
    exact dark_refl _
  have hv0 : darkHeld s v0 := by
    refine foldl_dark ?_ (fun t0 a0 => ?_)
    · exact hv68
    · refine dark_then ?_ (dark_of (checkCap_only ..) rfl) rfl
      refine dark_then ?_ (dark_of (modPxc_only ..) rfl) rfl
      refine dark_then ?_ (dark_of (modPwr_only ..) rfl) rfl
      exact dark_refl _
  refine dark_then ?_ (buildMask_dark _ _ _) rfl
  refine dark_then ?_ (dark_of (modTg_only ..) rfl) rfl
  exact hv0

theorem startHead_dark (s : State) (h : Head) : darkHeld s (startHead s h) := by
  unfold startHead
  refine dark_ite ?_ ?_
  · exact dark_refl _
  · extract_lets v69
    have hv69 : darkHeld s v69 := by
      refine dark_then ?_ (dark_of (setTgState_only ..) rfl) rfl
      exact dark_refl _
    split
    · refine dark_then ?_ (startCut_dark _ _) rfl
      exact hv69
    · extract_lets v72
      have hv72 : darkHeld s v72 := by
        refine dark_then ?_ (dark_of (modTg_only ..) rfl) rfl
        refine dark_then ?_ (dark_of (setTgState_only ..) rfl) rfl
        exact hv69
      refine dark_ite ?_ ?_
      · refine dark_then ?_ (dark_of (modLmm_only ..) rfl) rfl
        exact hv72
      · exact hv72

theorem writeJoined_dark (s : State) (v : Word) : darkHeld s (writeJoined s v) := by
  unfold writeJoined
  refine dark_ite ?_ ?_
  · exact dark_refl _
  · refine dark_ite ?_ ?_
    · extract_lets v70
      have hv70 : darkHeld s v70 := by
        refine dark_then ?_ (dark_of (setRegAt_only ..) rfl) rfl
        exact dark_refl _
      refine dark_then ?_ (settle_dark _) rfl
      refine dark_ite ?_ ?_
      · refine dark_then ?_ (dark_of (joinHeads_only ..) rfl) rfl
        exact hv70
      · exact hv70
    · refine dark_then ?_ (dark_of (timingRefused_only ..) rfl) rfl
      exact dark_refl _

theorem writeTgCtrl_dark (s : State) (h : Head) (v : Word) : darkHeld s (writeTgCtrl s h v) := by
  unfold writeTgCtrl
  extract_lets v71
  have hv71 : darkHeld s v71 := by
    refine dark_ite ?_ ?_
    · refine dark_then ?_ (writeJoined_dark _ _) rfl
      exact dark_refl _
    · exact dark_refl _
  refine dark_ite ?_ ?_
  · refine dark_then ?_ (dark_of (setRegAt_only ..) rfl) rfl
    exact hv71
  · refine dark_ite ?_ ?_
    · refine dark_ite ?_ ?_
      · refine dark_then ?_ (startHead_dark _ _) rfl
        refine dark_then ?_ (dark_of (setRegAt_only ..) rfl) rfl
        exact hv71
      · refine dark_then ?_ (dark_of (setRegAt_only ..) rfl) rfl
        exact hv71
    · refine dark_ite ?_ ?_
      · refine dark_then ?_ (dark_of (stopHead_only ..) rfl) rfl
        refine dark_then ?_ (dark_of (setRegAt_only ..) rfl) rfl
        exact hv71
      · refine dark_then ?_ (dark_of (setRegAt_only ..) rfl) rfl
        exact hv71

theorem composePath_dark (s0 : State) (f : Nat) (s : State) (p : Plan) : darkHeld s (composePath s0 f s p) := by
  unfold composePath
  extract_lets v85 v86 v87 v88 v89 v90
  have hv87 : darkHeld s v87 := by
    refine dark_then ?_ (clientWrite_dark _ _ _) rfl
    exact dark_refl _
  have hv89 : darkHeld s v89 := by
    refine dark_ite ?_ ?_
    · refine dark_then ?_ (clientWrite_dark _ _ _) rfl
      exact hv87
    · exact hv87
  have hv90 : darkHeld s v90 := by
    refine dark_then ?_ (dark_of (modBld_only ..) rfl) rfl
    exact hv89
  refine dark_then ?_ (dark_of (modPxc_only ..) rfl) rfl
  exact hv90

theorem toneInject_dark (s : State) (p : Plan) : darkHeld s (toneInject s p) := by
  unfold toneInject
  extract_lets v91
  refine dark_ite ?_ ?_
  · refine dark_then ?_ (dark_of (tableSpoilt_only ..) rfl) rfl
    refine dark_then ?_ (spendInj_dark _) rfl
    exact dark_refl _
  · exact dark_refl _

theorem toneParity_dark (s : State) (p : Plan) : darkHeld s (toneParity s p) := by
  unfold toneParity
  extract_lets v92
  have hv92 : darkHeld s v92 := by
    refine dark_then ?_ (toneInject_dark _ _) rfl
    exact dark_refl _
  refine foldl_dark ?_ (fun t1 a1 => ?_)
  · exact hv92
  · refine dark_then ?_ (dark_of (spoilSweep_only ..) rfl) rfl
    refine dark_then ?_ (raiseInj_dark _ _ _ _ _) rfl
    exact dark_refl _

theorem notReadyFault_dark (s : State) (h : Head) (is : List Nat) : darkHeld s (notReadyFault s h is) := by
  unfold notReadyFault
  split
  · exact dark_refl _
  · refine dark_then ?_ (raise_dark _ _ _ _) rfl
    exact dark_refl _

theorem sweepReads_dark (s : State) (plans : List Plan) (ranges : Plan → List (Nat × Nat)) : darkHeld s (sweepReads s plans ranges) := by
  unfold sweepReads
  refine foldl_dark ?_ (fun t4 a4 => ?_)
  · exact dark_refl _
  · refine dark_then ?_ (clientRead_dark _ _ _) rfl
    exact dark_refl _

theorem composeSweep_dark (s : State) (h : Head) (sources : List SlotFetch) (use : List Nat) : darkHeld s (composeSweep s h sources use) := by
  unfold composeSweep
  extract_lets v1 v2 v3 v4 v5 v6 v7 v8 v9
  have hv2 : darkHeld s v2 := by
    refine dark_then ?_ (dark_of (modTg_only ..) rfl) rfl
    exact dark_refl _
  have hv3 : darkHeld s v3 := by
    refine dark_then ?_ (sweepReads_dark _ _ _) rfl
    exact hv2
  have hv5 : darkHeld s v5 := by
    refine foldl_dark ?_ (fun t23 a23 => ?_)
    · exact hv3
    · refine dark_then ?_ (composePath_dark _ _ _ _) rfl
      exact dark_refl _
  have hv6 : darkHeld s v6 := by
    dsimp -zeta only [v6]
    split
    · refine dark_then ?_ (abandonRow_dark _ _ _ _) rfl
      exact hv5
    · exact hv5
  have hv7 : darkHeld s v7 := by
    refine foldl_dark ?_ (fun t35 a35 => ?_)
    · exact hv6
    · refine dark_then ?_ (dark_of (spoilSweep_only ..) rfl) rfl
      refine dark_then ?_ (raise_dark _ _ _ _) rfl
      exact dark_refl _
  have hv8 : darkHeld s v8 := by
    refine foldl_dark ?_ (fun t1 a1 => ?_)
    · exact hv7
    · refine dark_then ?_ (toneParity_dark _ _) rfl
      exact dark_refl _
  have hv9 : darkHeld s v9 := by
    refine dark_then ?_ (sweepReads_dark _ _ _) rfl
    exact hv8
  refine foldl_dark ?_ (fun t0 a0 => ?_)
  · exact hv9
  · refine dark_then ?_ (dark_of (sendFrame_only ..) rfl) rfl
    exact dark_refl _

theorem beginSweep_dark (s : State) (h : Head) (sources : List SlotFetch) : darkHeld s (beginSweep s h sources) := by
  unfold beginSweep
  extract_lets v10 v11 v12 v13 v14 v15 v16 v17
  have hv13 : darkHeld s v13 := by
    refine dark_then ?_ (dark_of (modTg_only ..) rfl) rfl
    refine dark_then ?_ (dark_of (setTgState_only ..) rfl) rfl
    exact dark_refl _
  have hv14 : darkHeld s v14 := by
    refine foldl_dark ?_ (fun t0 a0 => ?_)
    · exact hv13
    · refine dark_then ?_ (dark_of (modPxc_only ..) rfl) rfl
      refine dark_then ?_ (dark_of (modBld_only ..) rfl) rfl
      refine dark_then ?_ (dark_of (modTg_only ..) rfl) rfl
      exact dark_refl _
  have hv15 : darkHeld s v15 := by
    refine dark_then ?_ (dark_of (modLy_only ..) rfl) rfl
    exact hv14
  have hv16 : darkHeld s v16 := by
    refine dark_ite ?_ ?_
    · refine foldl_dark ?_ (fun t16 a16 => ?_)
      · exact hv15
      · refine dark_then ?_ (dark_of (modBld_only ..) rfl) rfl
        exact dark_refl _
    · exact hv15
  have hv17 : darkHeld s v17 := by
    refine dark_then ?_ (notReadyFault_dark _ _ _) rfl
    refine dark_then ?_ (dark_of (sweepFails_only ..) rfl) rfl
    exact hv16
  refine dark_ite ?_ ?_
  · exact hv17
  · refine dark_then ?_ (composeSweep_dark _ _ _ _) rfl
    exact hv17

theorem enterStopped_dark (s : State) (h : Head) : darkHeld s (enterStopped s h) := by
  unfold enterStopped
  extract_lets v18
  have hv18 : darkHeld s v18 := by
    refine dark_then ?_ (dark_of (modTg_only ..) rfl) rfl
    refine dark_then ?_ (dark_of (setTgState_only ..) rfl) rfl
    exact dark_refl _
  refine foldl_dark ?_ (fun t19 a19 => ?_)
  · refine dark_then ?_ (cutApplyAll_dark _ _) rfl
    exact hv18
  · refine dark_then ?_ (dark_of (retireSwitch_only ..) rfl) rfl
    exact dark_refl _

theorem sweepStarts_dark (s : State) (h : Head) (sources : List SlotFetch) : darkHeld s (sweepStarts s h sources) := by
  unfold sweepStarts
  extract_lets v20
  refine dark_ite ?_ ?_
  · exact dark_refl _
  · refine dark_ite ?_ ?_
    · refine dark_then ?_ (dark_of (modTg_only ..) rfl) rfl
      exact dark_refl _
    · refine dark_ite ?_ ?_
      · refine dark_then ?_ (enterStopped_dark _ _) rfl
        exact dark_refl _
      · refine dark_then ?_ (beginSweep_dark _ _ _) rfl
        refine dark_ite ?_ ?_
        · refine dark_then ?_ (dark_of (modTg_only ..) rfl) rfl
          exact dark_refl _
        · exact dark_refl _

theorem rowLate_dark (s : State) (h : Head) (slot : Nat) (line : Nat) : darkHeld s (rowLate s h slot line) := by
  unfold rowLate
  extract_lets v24 v25
  refine dark_ite ?_ ?_
  · exact dark_refl _
  · refine dark_then ?_ (abandonRow_dark _ _ _ _) rfl
    exact dark_refl _

theorem doseBlock_dark (s : State) (path : Head) (f : Nat) (bx : Nat) (by_ : Nat) : darkHeld s (doseBlock s path f bx by_) := by
  unfold doseBlock
  extract_lets v26 v27 v28 v29 v30 v31
  split
  extract_lets v32
  refine dark_ite ?_ ?_
  · refine dark_then ?_ (clientWrite_dark _ _ _) rfl
    refine dark_snd (by assumption) ?_
    refine dark_then ?_ (dark_of (drawBelow_only ..) rfl) rfl
    exact dark_refl _
  · refine dark_snd (by assumption) ?_
    refine dark_then ?_ (dark_of (drawBelow_only ..) rfl) rfl
    exact dark_refl _

theorem doseSweep_dark (s : State) (path : Head) (full : Bool) : darkHeld s (doseSweep s path full) := by
  unfold doseSweep
  refine dark_ite ?_ ?_
  · refine dark_then ?_ (dark_of (modPxc_only ..) rfl) rfl
    exact dark_refl _
  · refine dark_ite ?_ ?_
    · exact dark_refl _
    · extract_lets v33 v34
      have hv34 : darkHeld s v34 := by
        refine dark_then ?_ (clientRead_dark _ _ _) rfl
        exact dark_refl _
      refine foldl_dark ?_ (fun t2 a2 => ?_)
      · exact hv34
      · refine foldl_dark ?_ (fun t3 a3 => ?_)
        · exact dark_refl _
        · refine dark_then ?_ (doseBlock_dark _ _ _ _ _) rfl
          exact dark_refl _

theorem weakSweep_dark (s : State) (path : Head) : darkHeld s (weakSweep s path) := by
  unfold weakSweep
  refine foldl_dark ?_ (fun t4 a4 => ?_)
  · exact dark_refl _
  · extract_lets v5 v6 v7
    refine dark_ite ?_ ?_
    · refine dark_then ?_ (pixelCandidate_dark _ _ _ _) rfl
      refine dark_then ?_ (raise_dark _ _ _ _) rfl
      refine dark_then ?_ (writeHealth_dark _ _ _ _) rfl
      exact dark_refl _
    · exact dark_refl _

theorem clampFaults_dark (s : State) (path : Head) (lines : Nat) : darkHeld s (clampFaults s path lines) := by
  unfold clampFaults
  extract_lets v8 v9
  have hv9 : darkHeld s v9 := by
    refine dark_ite ?_ ?_
    · refine dark_then ?_ (raise_dark _ _ _ _) rfl
      exact dark_refl _
    · exact dark_refl _
  refine dark_ite ?_ ?_
  · refine dark_then ?_ (raise_dark _ _ _ _) rfl
    exact hv9
  · exact hv9

theorem pathEnds_dark (s : State) (h : Head) (path : Head) : darkHeld s (pathEnds s h path) := by
  unfold pathEnds
  extract_lets v11 v12
  have hv12 : darkHeld s v12 := by
    refine dark_then ?_ (clampFaults_dark _ _ _) rfl
    exact dark_refl _
  refine dark_then ?_ (doseSweep_dark _ _ _) rfl
  refine dark_ite ?_ ?_
  · refine dark_then ?_ (weakSweep_dark _ _) rfl
    refine dark_then ?_ (dark_of (publishSweep_only ..) rfl) rfl
    exact hv12
  · exact hv12

theorem cutNow_dark (s : State) (h : Head) : darkHeld s (cutNow s h) := by
  unfold cutNow
  extract_lets v15
  refine dark_ite ?_ ?_
  · exact dark_refl _
  · split
    extract_lets v16 v17 v18 v19 v20 v21
    have hv16 : darkHeld s v16 := by
      refine dark_then ?_ (dark_of (flatEnds_only ..) rfl) rfl
      refine foldl_dark ?_ (fun t22 a22 => ?_)
      · refine dark_snd (by assumption) ?_
        refine dark_then ?_ (dark_of (stampCore_only ..) rfl) rfl
        exact dark_refl _
      · refine dark_then ?_ (pathEnds_dark _ _ _) rfl
        exact dark_refl _
    have hv17 : darkHeld s v17 := by
      refine foldl_dark ?_ (fun t31 a31 => ?_)
      · exact hv16
      · refine dark_then ?_ (dark_of (modTg_only ..) rfl) rfl
        exact dark_refl _
    have hv18 : darkHeld s v18 := by
      refine dark_then ?_ (dark_of (modTg_only ..) rfl) rfl
      exact hv17
    have hv19 : darkHeld s v19 := by
      refine foldl_dark ?_ (fun t32 a32 => ?_)
      · exact hv18
      · refine dark_then ?_ (dark_of (calCompose_only ..) rfl) rfl
        refine dark_then ?_ (dark_of (listsCompose_only ..) rfl) rfl
        refine dark_then ?_ (dark_of (setsCompose_only ..) rfl) rfl
        exact dark_refl _
    have hv20 : darkHeld s v20 := by
      refine dark_then ?_ (cutApplyAll_dark _ _) rfl
      exact hv19
    have hv21 : darkHeld s v21 := by
      refine foldl_dark ?_ (fun t35 a35 => ?_)
      · exact hv20
      · refine dark_then ?_ (dark_of (checkCap_only ..) rfl) rfl
        exact dark_refl _
    refine dark_then ?_ (buildMask_dark _ _ _) rfl
    exact hv21

theorem overdueLevel_dark (s : State) (h : Head) : darkHeld s (overdueLevel s h) := by
  unfold overdueLevel
  extract_lets v27 v28
  refine dark_then ?_ (setLevel_dark _ _ _ _ _ _) rfl
  exact dark_refl _

theorem stitchPoint_dark (s : State) (h : Head) (stitched : Bool) (time : Word) : darkHeld s (stitchPoint s h stitched time) := by
  unfold stitchPoint
  extract_lets v29 v30
  have hv29 : darkHeld s v29 := by
    refine dark_then ?_ (dark_of (snapshotNow_only ..) rfl) rfl
    exact dark_refl _
  have hv30 : darkHeld s v30 := by
    refine dark_then ?_ (overdueLevel_dark _ _) rfl
    refine dark_then ?_ (applyMarks_dark _ _) rfl
    exact hv29
  refine dark_then ?_ (dark_of (retireSwitch_only ..) rfl) rfl
  refine dark_then ?_ (fwdStitchPoint_dark _ _ _) rfl
  exact hv30

theorem echoesAwait_dark (s : State) (h : Head) (b : Nat) (f : Word) : darkHeld s (echoesAwait s h b f) := by
  unfold echoesAwait
  refine foldl_dark ?_ (fun t33 a33 => ?_)
  · exact dark_refl _
  · refine dark_ite ?_ ?_
    · extract_lets v34 v0 v1
      have hv34 : darkHeld t33 v34 := by
        refine dark_then ?_ (clientRead_dark _ _ _) rfl
        exact dark_refl _
      refine dark_then ?_ (dark_of (modTile_only ..) rfl) rfl
      refine dark_ite ?_ ?_
      · refine dark_then ?_ (spendInj_dark _) rfl
        exact hv34
      · exact hv34
    · exact dark_refl _

theorem stitchPath_dark (s : State) (f : Word) (time : Word) (b : Nat) (h : Head) : darkHeld s (stitchPath s f time b h) := by
  unfold stitchPath
  extract_lets v36 v37 v38
  have hv36 : darkHeld s v36 := by
    refine dark_then ?_ (dark_of (modTg_only ..) rfl) rfl
    exact dark_refl _
  have hv37 : darkHeld s v37 := by
    refine dark_then ?_ (dark_of (modBld_only ..) rfl) rfl
    exact hv36
  have hv38 : darkHeld s v38 := by
    refine dark_then ?_ (dark_of (modPxc_only ..) rfl) rfl
    refine dark_then ?_ (dark_of (probesAdvance_only ..) rfl) rfl
    exact hv37
  refine dark_then ?_ (echoesAwait_dark _ _ _ _) rfl
  exact hv38

theorem stitchNow_dark (s : State) (h : Head) (late : Bool) : darkHeld s (stitchNow s h late) := by
  unfold stitchNow
  refine dark_ite ?_ ?_
  · exact dark_refl _
  · extract_lets v39 v40 v41 v42 v43 v44 v45 v46
    have hv42 : darkHeld s v42 := by
      refine foldl_dark ?_ (fun t47 a47 => ?_)
      · exact dark_refl _
      · refine dark_then ?_ (dark_of (sendLanes_only ..) rfl) rfl
        exact dark_refl _
    have hv43 : darkHeld s v43 := by
      refine dark_then ?_ (dark_of (modTg_only ..) rfl) rfl
      exact hv42
    have hv44 : darkHeld s v44 := by
      refine foldl_dark ?_ (fun t48 a48 => ?_)
      · exact hv43
      · refine dark_then ?_ (stitchPath_dark _ _ _ _ _) rfl
        exact dark_refl _
    have hv45 : darkHeld s v45 := by
      refine dark_then ?_ (dark_of (ltrAtStitch_only ..) rfl) rfl
      refine foldl_dark ?_ (fun t2 a2 => ?_)
      · exact hv44
      · refine dark_then ?_ (dark_of (stitchComplete_only ..) rfl) rfl
        exact dark_refl _
    have hv46 : darkHeld s v46 := by
      refine foldl_dark ?_ (fun t3 a3 => ?_)
      · exact hv45
      · refine dark_then ?_ (stitchPoint_dark _ _ _ _) rfl
        exact dark_refl _
    refine dark_then ?_ (dark_of (modTg_only ..) rfl) rfl
    exact hv46

theorem repeatFault_dark (s : State) (h : Head) (was : Nat) : darkHeld s (repeatFault s h was) := by
  unfold repeatFault
  extract_lets v4
  refine dark_ite ?_ ?_
  · refine dark_then ?_ (raise_dark _ _ _ _) rfl
    exact dark_refl _
  · exact dark_refl _

theorem slackEnds_dark (s : State) (h : Head) : darkHeld s (slackEnds s h) := by
  unfold slackEnds
  extract_lets v5
  refine dark_ite ?_ ?_
  · exact dark_refl _
  · split
    extract_lets v6 v7 v8 v9
    have hv6 : darkHeld s v6 := by
      refine dark_then ?_ (dark_of (modTg_only ..) rfl) rfl
      refine dark_snd (by assumption) ?_
      refine dark_then ?_ (dark_of (stampCore_only ..) rfl) rfl
      exact dark_refl _
    have hv7 : darkHeld s v7 := by
      refine dark_ite ?_ ?_
      · exact hv6
      · refine dark_then ?_ (repeatFault_dark _ _ _) rfl
        refine dark_then ?_ (dark_of (modTg_only ..) rfl) rfl
        exact hv6
    have hv8 : darkHeld s v8 := by
      refine foldl_dark ?_ (fun t1 a1 => ?_)
      · exact hv7
      · refine dark_then ?_ (dark_of (sendDrive_only ..) rfl) rfl
        exact dark_refl _
    have hv9 : darkHeld s v9 := by
      refine foldl_dark ?_ (fun t1 a1 => ?_)
      · exact hv8
      · refine dark_then ?_ (stitchPoint_dark _ _ _ _) rfl
        exact dark_refl _
    refine dark_then ?_ (dark_of (modTg_only ..) rfl) rfl
    exact hv9

theorem bandLevels_dark (s : State) : darkHeld s (bandLevels s) := by
  unfold bandLevels
  extract_lets v14 v15
  have hv15 : darkHeld s v15 := by
    refine dark_then ?_ (setLevel_dark _ _ _ _ _ _) rfl
    exact dark_refl _
  refine dark_then ?_ (setLevel_dark _ _ _ _ _ _) rfl
  exact hv15

theorem decideBand_dark (s : State) : darkHeld s (decideBand s) := by
  unfold decideBand
  extract_lets v21
  split
  · refine dark_ite ?_ ?_
    · refine dark_then ?_ (dark_of (kpsRequest_only ..) rfl) rfl
      refine dark_then ?_ (bandLevels_dark _) rfl
      refine dark_then ?_ (dark_of (bandEvent_only ..) rfl) rfl
      refine dark_then ?_ (dark_of (modHkp_only ..) rfl) rfl
      exact dark_refl _
    · refine dark_then ?_ (bandLevels_dark _) rfl
      refine dark_then ?_ (dark_of (bandEvent_only ..) rfl) rfl
      refine dark_then ?_ (dark_of (modHkp_only ..) rfl) rfl
      exact dark_refl _
  · extract_lets v32 v33 v34
    have hv34 : darkHeld s v34 := by
      refine dark_then ?_ (dark_of (modHkp_only ..) rfl) rfl
      exact dark_refl _
    refine dark_ite ?_ ?_
    · exact hv34
    · refine dark_ite ?_ ?_
      · refine dark_then ?_ (dark_of (kpsRequest_only ..) rfl) rfl
        refine dark_then ?_ (bandLevels_dark _) rfl
        refine dark_then ?_ (dark_of (bandEvent_only ..) rfl) rfl
        refine dark_then ?_ (dark_of (modHkp_only ..) rfl) rfl
        exact hv34
      · refine dark_then ?_ (bandLevels_dark _) rfl
        refine dark_then ?_ (dark_of (bandEvent_only ..) rfl) rfl
        refine dark_then ?_ (dark_of (modHkp_only ..) rfl) rfl
        exact hv34

theorem sensorLevel_dark (s : State) (c : Nat) : darkHeld s (sensorLevel s c) := by
  unfold sensorLevel
  extract_lets v28
  refine dark_then ?_ (setLevel_dark _ _ _ _ _ _) rfl
  exact dark_refl _

theorem sensorLevels_dark (s : State) : darkHeld s (sensorLevels s) := by
  unfold sensorLevels
  refine foldl_dark ?_ (fun t29 a29 => ?_)
  · exact dark_refl _
  · refine dark_then ?_ (sensorLevel_dark _ _) rfl
    exact dark_refl _

theorem judgeSupply_dark (s : State) : darkHeld s (judgeSupply s) := by
  unfold judgeSupply
  extract_lets v30 v31
  have hv31 : darkHeld s v31 := by
    refine dark_then ?_ (dark_of (modHkp_only ..) rfl) rfl
    exact dark_refl _
  refine dark_ite ?_ ?_
  · refine dark_then ?_ (setLevel_dark _ _ _ _ _ _) rfl
    exact hv31
  · refine dark_ite ?_ ?_
    · refine dark_then ?_ (setLevel_dark _ _ _ _ _ _) rfl
      exact hv31
    · exact hv31

theorem evaluateRound_dark (s : State) : darkHeld s (evaluateRound s) := by
  unfold evaluateRound
  refine dark_ite ?_ ?_
  · exact dark_refl _
  · extract_lets v35 v36 v37 v38 v39 v40
    have hv35 : darkHeld s v35 := by
      refine dark_then ?_ (dark_of (modHkp_only ..) rfl) rfl
      exact dark_refl _
    have hv36 : darkHeld s v36 := by
      refine dark_then ?_ (dark_of (publishRound_only ..) rfl) rfl
      exact hv35
    have hv37 : darkHeld s v37 := by
      refine foldl_dark ?_ (fun t0 a0 => ?_)
      · exact hv36
      · refine dark_then ?_ (dark_of (throttleHead_only ..) rfl) rfl
        exact dark_refl _
    have hv38 : darkHeld s v38 := by
      refine dark_then ?_ (decideBand_dark _) rfl
      exact hv37
    have hv39 : darkHeld s v39 := by
      refine dark_then ?_ (sensorLevels_dark _) rfl
      refine dark_then ?_ (dark_of (headroomStopped_only ..) rfl) rfl
      exact hv38
    have hv40 : darkHeld s v40 := by
      refine dark_ite ?_ ?_
      · exact hv39
      · refine dark_then ?_ (judgeSupply_dark _) rfl
        exact hv39
    refine dark_then ?_ (dark_of (modHkp_only ..) rfl) rfl
    exact hv40

theorem writeHkCtrl_dark (s : State) (v : Word) : darkHeld s (writeHkCtrl s v) := by
  unfold writeHkCtrl
  extract_lets v41 v42 v43 v44
  have hv44 : darkHeld s v44 := by
    refine dark_then ?_ (dark_of (setRegAt_only ..) rfl) rfl
    exact dark_refl _
  refine dark_then ?_ (bandLevels_dark _) rfl
  refine dark_ite ?_ ?_
  · exact hv44
  · refine dark_then ?_ (dark_of (modHkp_only ..) rfl) rfl
    exact hv44

theorem assertSource_dark (s : State) (source : Nat) (part : Nat) (heads : Nat) (detail : Nat) (addr : Nat) : darkHeld s (assertSource s source part heads detail addr) := by
  unfold assertSource
  extract_lets v50
  refine dark_ite ?_ ?_
  · refine dark_then ?_ (corrected_dark _ _ _) rfl
    exact dark_refl _
  · refine dark_ite ?_ ?_
    · refine dark_then ?_ (uncorrectable_dark _ _ _ _ _) rfl
      exact dark_refl _
    · refine dark_ite ?_ ?_
      · exact dark_refl _
      · refine dark_ite ?_ ?_
        · refine dark_then ?_ (setLevel_dark _ _ _ _ _ _) rfl
          exact dark_refl _
        · refine dark_then ?_ (raise_dark _ _ _ _) rfl
          refine dark_ite ?_ ?_
          · refine dark_then ?_ (dark_of (spoilSweeps_only ..) rfl) rfl
            refine dark_ite ?_ ?_
            · refine dark_then ?_ (dark_of (badTableWord_only ..) rfl) rfl
              exact dark_refl _
            · exact dark_refl _
          · refine dark_ite ?_ ?_
            · refine dark_then ?_ (dark_of (badTableWord_only ..) rfl) rfl
              exact dark_refl _
            · exact dark_refl _

theorem clearCondition_dark (s : State) (source : Nat) (part : Nat) : darkHeld s (clearCondition s source part) := by
  unfold clearCondition
  refine dark_then ?_ (setLevel_dark _ _ _ _ _ _) rfl
  exact dark_refl _

theorem writeSticky_dark (s : State) (high : Bool) (v : Word) : darkHeld s (writeSticky s high v) := by
  unfold writeSticky
  refine dark_then ?_ (clearSticky_dark _ _) rfl
  exact dark_refl _

theorem writeSev_dark (s : State) (k : Nat) (v : Word) : darkHeld s (writeSev s k v) := by
  unfold writeSev
  dsimp only
  refine dark_then ?_ (settle_dark _) rfl
  split
  · refine dark_then ?_ (dark_of (setRegAt_only ..) rfl) rfl
    exact dark_refl _
  · refine dark_then ?_ (dark_of (modFlt_only ..) rfl) rfl
    refine dark_then ?_ (dark_of (setRegAt_only ..) rfl) rfl
    exact dark_refl _

theorem selfFail_dark (s : State) (injected : Bool) : darkHeld s (selfFail s injected) := by
  unfold selfFail
  refine dark_ite ?_ ?_
  · exact dark_refl _
  · refine dark_then ?_ (raiseInj_dark _ _ _ _ _) rfl
    refine dark_then ?_ (dark_of (modFlt_only ..) rfl) rfl
    exact dark_refl _

theorem writeInj_dark (s : State) (v : Word) : darkHeld s (writeInj s v) := by
  unfold writeInj
  extract_lets v59
  refine dark_ite ?_ ?_
  · refine dark_then ?_ (setLevel_dark _ _ _ _ _ _) rfl
    refine dark_then ?_ (dark_of (setRegAt_only ..) rfl) rfl
    exact dark_refl _
  · refine dark_ite ?_ ?_
    · refine dark_then ?_ (dark_of (modFlt_only ..) rfl) rfl
      exact dark_refl _
    · refine dark_ite ?_ ?_
      · refine dark_then ?_ (selfFail_dark _ _) rfl
        refine dark_then ?_ (spendInj_dark _) rfl
        refine dark_then ?_ (setLevel_dark _ _ _ _ _ _) rfl
        refine dark_then ?_ (dark_of (setRegAt_only ..) rfl) rfl
        exact dark_refl _
      · refine dark_then ?_ (setLevel_dark _ _ _ _ _ _) rfl
        refine dark_then ?_ (dark_of (setRegAt_only ..) rfl) rfl
        exact dark_refl _

theorem aoClockSet_dark (s : State) (clock : Nat) (on : Bool) : darkHeld s (aoClockSet s clock on) := by
  unfold aoClockSet
  refine dark_then ?_ (settle_dark _) rfl
  refine dark_then ?_ (dark_of (modFlt_only ..) rfl) rfl
  exact dark_refl _

theorem clockCondition_dark (s : State) (clock : Nat) (on : Bool) : darkHeld s (clockCondition s clock on) := by
  unfold clockCondition
  refine dark_ite ?_ ?_
  · refine dark_ite ?_ ?_
    · exact dark_refl _
    · refine dark_then ?_ (dark_of (modFlt_only ..) rfl) rfl
      exact dark_refl _
  · refine dark_then ?_ (setLevel_dark _ _ _ _ _ _) rfl
    exact dark_refl _

theorem clockGate_dark (s : State) (clock : Nat) (count : Nat) : darkHeld s (clockGate s clock count) := by
  unfold clockGate
  refine dark_ite ?_ ?_
  · exact dark_refl _
  · extract_lets v60 v61 v62 v63 v64
    have hv62 : darkHeld s v62 := by
      refine dark_then ?_ (dark_of (modFlt_only ..) rfl) rfl
      exact dark_refl _
    have hv63 : darkHeld s v63 := by
      refine dark_ite ?_ ?_
      · refine dark_then ?_ (aoClockSet_dark _ _ _) rfl
        exact hv62
      · exact hv62
    have hv64 : darkHeld s v64 := by
      refine dark_ite ?_ ?_
      · refine dark_then ?_ (clockCondition_dark _ _ _) rfl
        exact hv63
      · refine dark_ite ?_ ?_
        · refine dark_then ?_ (clockCondition_dark _ _ _) rfl
          exact hv63
        · exact hv63
    refine dark_ite ?_ ?_
    · refine dark_then ?_ (raiseOwed_dark _) rfl
      exact hv64
    · exact hv64

theorem rwlWords_dark (s : State) (img : List Byte) : darkHeld s (rwlWords s img) := by
  unfold rwlWords
  refine foldl_dark ?_ (fun t65 a65 => ?_)
  · refine dark_then ?_ (writeInj_dark _ _) rfl
    exact dark_refl _
  · refine dark_then ?_ (dark_of (setRegAt_only ..) rfl) rfl
    exact dark_refl _

theorem writeRwl_dark (s : State) (img : List Byte) : darkHeld s (writeRwl s img) := by
  unfold writeRwl
  refine dark_then ?_ (dark_of (echoSettle_only ..) rfl) rfl
  refine dark_then ?_ (rwlWords_dark _ _) rfl
  exact dark_refl _

theorem judgeIntegrity_dark (s : State) : darkHeld s (judgeIntegrity s) := by
  unfold judgeIntegrity
  refine dark_then ?_ (setLevel_dark _ _ _ _ _ _) rfl
  exact dark_refl _

theorem blocksNow_dark (s : State) : darkHeld s (blocksNow s) := by
  unfold blocksNow
  refine foldl_dark ?_ (fun t67 a67 => ?_)
  · exact dark_refl _
  · refine dark_ite ?_ ?_
    · refine dark_then ?_ (dark_of (headroomApply_only ..) rfl) rfl
      refine dark_then ?_ (blockApply_dark _ _) rfl
      exact dark_refl _
    · exact dark_refl _

theorem imageNow_dark (s : State) (img : List Byte) (copy : Nat) : darkHeld s (imageNow s img copy) := by
  unfold imageNow
  extract_lets v70
  have hv70 : darkHeld s v70 := by
    refine dark_then ?_ (modSaf_dark _ _ (by first | exact fun _ h => h | exact dark_set _ _)) rfl
    exact dark_refl _
  refine dark_then ?_ (dark_of (echoSettle_only ..) rfl) rfl
  refine dark_then ?_ (settle_dark _) rfl
  refine dark_then ?_ (blocksNow_dark _) rfl
  refine dark_then ?_ (rwlWords_dark _ _) rfl
  refine dark_then ?_ (dark_of (raiseToFloors_only ..) rfl) rfl
  exact hv70

theorem loadSafecfg_dark (s : State) : darkHeld s (loadSafecfg s) := by
  unfold loadSafecfg
  extract_lets f u
  clear_value f
  cases f with
  | none => exact dark_then (dark_then (dark_then (dark_then (dark_refl _) (modSaf_dark _ _ (by first | exact fun _ h => h | exact dark_set _ _)) rfl) (blocksNow_dark _) rfl) (settle_dark _) rfl) (setLevel_dark _ _ _ _ _ _) rfl
  | some c => exact dark_then (dark_then (dark_refl _) (imageNow_dark s (safecfgCopy s c) c) rfl) (setLevel_dark _ _ _ _ _ _) rfl

theorem integrityCheck_dark (s : State) (upset : Bool) : darkHeld s (integrityCheck s upset) := by
  unfold integrityCheck
  refine dark_ite ?_ ?_
  · refine dark_then ?_ (judgeIntegrity_dark _) rfl
    refine dark_then ?_ (modSaf_dark _ _ (by first | exact fun _ h => h | exact dark_set _ _)) rfl
    exact dark_refl _
  · exact dark_refl _

theorem endSession_dark (s : State) (note : Bool) : darkHeld s (endSession s note) := by
  unfold endSession
  refine dark_ite ?_ ?_
  · exact dark_refl _
  · extract_lets v1 v2 v3
    have hv1 : darkHeld s v1 := by
      refine dark_ite ?_ ?_
      · refine dark_then ?_ (dark_of (commitLeaves_only ..) rfl) rfl
        exact dark_refl _
      · exact dark_refl _
    have hv2 : darkHeld s v2 := by
      refine dark_then ?_ (modSaf_dark _ _ (by first | exact fun _ h => h | exact dark_set _ _)) rfl
      exact hv1
    have hv3 : darkHeld s v3 := by
      dsimp -zeta only [v3]
      split
      · refine dark_then ?_ (writeRwl_dark _ _) rfl
        exact hv2
      · refine dark_then ?_ (writeInj_dark _ _) rfl
        exact hv2
    refine dark_ite ?_ ?_
    · refine dark_then ?_ (dark_of (logNote_only ..) rfl) rfl
      exact hv3
    · exact hv3

theorem sessionOpen_dark (s : State) : darkHeld s (sessionOpen s) := by
  unfold sessionOpen
  refine dark_ite ?_ ?_
  · refine dark_then ?_ (modSaf_dark _ _ (by first | exact fun _ h => h | exact dark_set _ _)) rfl
    exact dark_refl _
  · refine dark_ite ?_ ?_
    · exact dark_refl _
    · extract_lets v4
      refine dark_ite ?_ ?_
      · refine dark_then ?_ (modSaf_dark _ _ (by first | exact fun _ h => h | exact dark_set _ _)) rfl
        exact dark_refl _
      · refine dark_ite ?_ ?_
        · refine dark_then ?_ (dark_of (logNote_only ..) rfl) rfl
          refine dark_then ?_ (modSaf_dark _ _ (by first | exact fun _ h => h | exact dark_set _ _)) rfl
          exact dark_refl _
        · refine dark_then ?_ (modSaf_dark _ _ (by first | exact fun _ h => h | exact dark_set _ _)) rfl
          exact dark_refl _

theorem commitFails_dark (s : State) (reason : Nat) : darkHeld s (commitFails s reason) := by
  unfold commitFails
  refine dark_then ?_ (modSaf_dark _ _ (by first | exact fun _ h => h | exact dark_set _ _)) rfl
  exact dark_refl _

theorem sessionCommit_dark (s : State) : darkHeld s (sessionCommit s) := by
  unfold sessionCommit
  refine dark_ite ?_ ?_
  · refine dark_then ?_ (commitFails_dark _ _) rfl
    exact dark_refl _
  · refine dark_ite ?_ ?_
    · exact dark_refl _
    · refine dark_then ?_ (dark_of (kpsRequest_only ..) rfl) rfl
      refine dark_then ?_ (modSaf_dark _ _ (by first | exact fun _ h => h | exact dark_set _ _)) rfl
      exact dark_refl _

theorem commitCheckEnds_dark (s : State) (written : Bool) : darkHeld s (commitCheckEnds s written) := by
  unfold commitCheckEnds
  extract_lets v5
  split
  · refine dark_then ?_ (commitFails_dark _ _) rfl
    exact dark_refl _
  · refine dark_ite ?_ ?_
    · refine dark_then ?_ (commitFails_dark _ _) rfl
      exact dark_refl _
    · refine dark_then ?_ (judgeIntegrity_dark _) rfl
      refine dark_then ?_ (imageNow_dark _ _ _) rfl
      refine dark_then ?_ (modSaf_dark _ _ (by first | exact fun _ h => h | exact dark_set _ _)) rfl
      refine dark_then ?_ (opWritten_dark _ _) rfl
      exact dark_refl _

theorem sessionCommitEnd_dark (s : State) (written : Bool) : darkHeld s (sessionCommitEnd s written) := by
  unfold sessionCommitEnd
  refine dark_ite ?_ ?_
  · exact dark_refl _
  · refine dark_then ?_ (dark_of (commitLeaves_only ..) rfl) rfl
    refine dark_then ?_ (commitCheckEnds_dark _ _) rfl
    exact dark_refl _

theorem writeUnlock_dark (s : State) (v : Word) : darkHeld s (writeUnlock s v) := by
  unfold writeUnlock
  split
  · refine dark_then ?_ (sessionOpen_dark _) rfl
    exact dark_refl _
  · refine dark_then ?_ (sessionCommit_dark _) rfl
    exact dark_refl _
  · refine dark_then ?_ (endSession_dark _ _) rfl
    exact dark_refl _
  · exact dark_refl _

theorem safeNOn_dark (s : State) : darkHeld s (safeNOn s) := by
  unfold safeNOn
  refine dark_ite ?_ ?_
  · exact dark_refl _
  · refine dark_then ?_ (dark_of (wake_only ..) rfl) rfl
    refine dark_then ?_ (setLevel_dark _ _ _ _ _ _) rfl
    refine dark_then ?_ (settle_dark _) rfl
    refine dark_then ?_ (modSaf_dark _ _ (by first | exact fun _ h => h | exact dark_set _ _)) rfl
    exact dark_refl _

theorem safeNOff_dark (s : State) : darkHeld s (safeNOff s) := by
  unfold safeNOff
  refine dark_ite ?_ ?_
  · refine dark_then ?_ (setLevel_dark _ _ _ _ _ _) rfl
    refine dark_then ?_ (settle_dark _) rfl
    refine dark_then ?_ (modSaf_dark _ _ (by first | exact fun _ h => h | exact dark_set _ _)) rfl
    exact dark_refl _
  · exact dark_refl _

theorem autoClear_dark (s : State) (source : Nat) : darkHeld s (autoClear s source) := by
  unfold autoClear
  refine dark_ite ?_ ?_
  · refine dark_then ?_ (clearSticky_dark _ _) rfl
    exact dark_refl _
  · exact dark_refl _

theorem writeHb_dark (s : State) (v : Word) : darkHeld s (writeHb s v) := by
  unfold writeHb
  extract_lets v6
  refine dark_ite ?_ ?_
  · refine dark_then ?_ (modSaf_dark _ _ (by first | exact fun _ h => h | exact dark_set _ _)) rfl
    exact dark_refl _
  · refine dark_then ?_ (setLevel_dark _ _ _ _ _ _) rfl
    refine dark_then ?_ (modSaf_dark _ _ (by first | exact fun _ h => h | exact dark_set _ _)) rfl
    refine dark_then ?_ (dark_of (setRegAt_only ..) rfl) rfl
    exact dark_refl _

theorem hbGraceEnds_dark (s : State) : darkHeld s (hbGraceEnds s) := by
  unfold hbGraceEnds
  refine dark_ite ?_ ?_
  · refine dark_then ?_ (modSaf_dark _ _ (by first | exact fun _ h => h | exact dark_set _ _)) rfl
    exact dark_refl _
  · exact dark_refl _

theorem hbTimesOut_dark (s : State) : darkHeld s (hbTimesOut s) := by
  unfold hbTimesOut
  refine dark_ite ?_ ?_
  · refine dark_then ?_ (setLevel_dark _ _ _ _ _ _) rfl
    exact dark_refl _
  · exact dark_refl _

theorem watchdogExpires_dark (s : State) (i : Nat) : darkHeld s (watchdogExpires s i) := by
  unfold watchdogExpires
  refine dark_ite ?_ ?_
  · exact dark_refl _
  · extract_lets v7 v8
    have hv7 : darkHeld s v7 := by
      refine dark_then ?_ (modSaf_dark _ _ (by first | exact fun _ h => h | exact dark_set _ _)) rfl
      exact dark_refl _
    have hv8 : darkHeld s v8 := by
      refine dark_ite ?_ ?_
      · refine dark_then ?_ (modSafHead_dark _ _ _) rfl
        exact hv7
      · refine dark_ite ?_ ?_
        · refine dark_then ?_ (modSafHead_dark _ _ _) rfl
          exact hv7
        · exact hv7
    refine dark_then ?_ (raise_dark _ _ _ _) rfl
    exact hv8

theorem laceTriggerNow_dark (s : State) (c : Nat) : darkHeld s (laceTriggerNow s c) := by
  unfold laceTriggerNow
  extract_lets v9 v10
  refine dark_ite ?_ ?_
  · exact dark_refl _
  · refine dark_ite ?_ ?_
    · refine dark_then ?_ (dark_of (modChain_only ..) rfl) rfl
      exact dark_refl _
    · refine dark_ite ?_ ?_
      · exact dark_refl _
      · refine dark_ite ?_ ?_
        · refine dark_then ?_ (dark_of (modChain_only ..) rfl) rfl
          exact dark_refl _
        · refine dark_ite ?_ ?_
          · exact dark_refl _
          · refine dark_then ?_ (raise_dark _ _ _ _) rfl
            refine dark_then ?_ (dark_of (modChain_only ..) rfl) rfl
            exact dark_refl _

theorem crcEnds_dark (s : State) (c : Nat) (data : List Byte) (w : Work) : darkHeld s (crcEnds s c data w) := by
  unfold crcEnds
  extract_lets v26 v27 v28 v29 v30
  have hv30 : darkHeld s v30 := by
    refine dark_then ?_ (dark_of (setRegAt_only ..) rfl) rfl
    exact dark_refl _
  refine dark_ite ?_ ?_
  · refine dark_ite ?_ ?_
    · refine dark_then ?_ (dark_of (completeWord_only ..) rfl) rfl
      refine dark_then ?_ (dark_of (crcCount_only ..) rfl) rfl
      refine dark_then ?_ (dark_of (modCrcCtx_only ..) rfl) rfl
      exact hv30
    · refine dark_then ?_ (dark_of (completeWord_only ..) rfl) rfl
      refine dark_ite ?_ ?_
      · refine dark_then ?_ (dark_of (signalMsix_only ..) rfl) rfl
        refine dark_then ?_ (raise_dark _ _ _ _) rfl
        refine dark_then ?_ (dark_of (crcCount_only ..) rfl) rfl
        refine dark_then ?_ (dark_of (modCrcCtx_only ..) rfl) rfl
        exact hv30
      · refine dark_then ?_ (raise_dark _ _ _ _) rfl
        refine dark_then ?_ (dark_of (crcCount_only ..) rfl) rfl
        refine dark_then ?_ (dark_of (modCrcCtx_only ..) rfl) rfl
        exact hv30
  · refine dark_then ?_ (dark_of (completeWord_only ..) rfl) rfl
    refine dark_then ?_ (dark_of (crcCount_only ..) rfl) rfl
    exact hv30

theorem crcJobEnds_dark (s : State) (c : Nat) (data : HostRead) : darkHeld s (crcJobEnds s c data) := by
  unfold crcJobEnds
  refine dark_ite ?_ ?_
  · exact dark_refl _
  · split
    · exact dark_refl _
    · refine dark_ite ?_ ?_
      · refine dark_then ?_ (crcEnds_dark _ _ _ _) rfl
        exact dark_refl _
      · refine dark_ite ?_ ?_
        · exact dark_refl _
        · split
          · refine dark_then ?_ (dark_of (completeWord_only ..) rfl) rfl
            refine dark_then ?_ (dark_of (hostFails_only ..) rfl) rfl
            exact dark_refl _
          · refine dark_then ?_ (dark_of (completeWord_only ..) rfl) rfl
            exact dark_refl _
          · refine dark_then ?_ (crcEnds_dark _ _ _ _) rfl
            exact dark_refl _

theorem kpsInterrupt_dark (s : State) : darkHeld s (kpsInterrupt s) := by
  unfold kpsInterrupt
  dsimp only
  split
  · exact dark_refl _
  · split
    · refine dark_ite ?_ ?_
      · refine dark_then ?_ (swapSector_dark _ _) rfl
        refine dark_then ?_ (dark_of (drawBelow_only ..) rfl) rfl
        refine dark_then ?_ (dark_of (modKps_only ..) rfl) rfl
        exact dark_refl _
      · refine dark_then ?_ (dark_of (mixWords_only ..) rfl) rfl
        refine dark_ite ?_ ?_
        · refine dark_then ?_ (spendInj_dark _) rfl
          refine dark_then ?_ (dark_of (drawBelow_only ..) rfl) rfl
          refine dark_then ?_ (dark_of (modKps_only ..) rfl) rfl
          exact dark_refl _
        · refine dark_then ?_ (dark_of (drawBelow_only ..) rfl) rfl
          refine dark_then ?_ (dark_of (modKps_only ..) rfl) rfl
          exact dark_refl _
    · refine dark_then ?_ (dark_of (mixWords_only ..) rfl) rfl
      refine dark_ite ?_ ?_
      · refine dark_then ?_ (spendInj_dark _) rfl
        refine dark_then ?_ (dark_of (modKps_only ..) rfl) rfl
        exact dark_refl _
      · refine dark_then ?_ (dark_of (modKps_only ..) rfl) rfl
        exact dark_refl _
    · refine dark_then ?_ (dark_of (modKps_only ..) rfl) rfl
      exact dark_refl _

theorem ledgerLoad_dark (s : State) : darkHeld s (ledgerLoad s) := by
  unfold ledgerLoad
  split
  · refine dark_then ?_ (dark_of (modKps_only ..) rfl) rfl
    exact dark_refl _
  · refine dark_then ?_ (dark_of (modKps_only ..) rfl) rfl
    exact dark_refl _

theorem eventScan_dark (s : State) : darkHeld s (eventScan s) := by
  unfold eventScan
  extract_lets v42
  refine dark_then ?_ (dark_of (modKps_only ..) rfl) rfl
  exact dark_refl _

theorem kpsReady_dark (s : State) : darkHeld s (kpsReady s) := by
  unfold kpsReady
  refine dark_then ?_ (spareLevel_dark _) rfl
  refine dark_then ?_ (eventScan_dark _) rfl
  refine dark_then ?_ (ledgerLoad_dark _) rfl
  refine dark_then ?_ (dark_of (rebuildMap_only ..) rfl) rfl
  exact dark_refl _

theorem bankMapLoad_dark (s : State) : darkHeld s (bankMapLoad s) := by
  unfold bankMapLoad
  split
  · refine dark_trans ?_ (dark_of (raw_lmm (onlyChanges_refl [.lmm] _) rfl) rfl)
    exact dark_refl _
  · refine foldl_dark ?_ (fun t46 a46 => ?_)
    · refine dark_trans ?_ (dark_of (raw_lmm (onlyChanges_refl [.lmm] _) rfl) rfl)
      exact dark_refl _
    · extract_lets v47
      refine dark_then ?_ (dark_of (modBank_only ..) rfl) rfl
      exact dark_refl _

theorem calibLoad_dark (s : State) : darkHeld s (calibLoad s) := by
  unfold calibLoad
  extract_lets v43 v44 v45
  have hv45 : darkHeld s v45 := by
    refine dark_then ?_ (dark_of (memWrite_only ..) rfl) rfl
    exact dark_refl _
  refine dark_ite ?_ ?_
  · exact hv45
  · refine dark_then ?_ (dark_of (modKps_only ..) rfl) rfl
    exact hv45

theorem doseLoad_dark (s : State) : darkHeld s (doseLoad s) := by
  unfold doseLoad
  dsimp only
  split
  · refine dark_then ?_ (dark_of (memWrite_only ..) rfl) rfl
    refine dark_then ?_ (dark_of (modKps_only ..) rfl) rfl
    exact dark_refl _
  · refine dark_then ?_ (dark_of (modKps_only ..) rfl) rfl
    refine dark_trans ?_ (dark_of (raw_pxc (onlyChanges_refl [.pxc] _) rfl) rfl)
    refine dark_then ?_ (dark_of (memWrite_only ..) rfl) rfl
    exact dark_refl _

theorem warmState_dark (s : State) (copied : Bool) : darkHeld s (warmState s copied) := fun _ h => h

theorem hostDown_dark (s : State) : darkHeld s (hostDown s) := by
  unfold hostDown
  extract_lets v60 v61 v62
  refine dark_ite ?_ ?_
  · refine dark_then ?_ (dark_of (wake_only ..) rfl) rfl
    refine dark_then ?_ (endSession_dark _ _) rfl
    refine dark_then ?_ (dark_of (commitsAfterLtr_only ..) rfl) rfl
    refine dark_then ?_ (dark_of (setsAfterLtr_only ..) rfl) rfl
    refine dark_trans ?_ (dark_of (raw_regs_rst_rng_hif (onlyChanges_refl [.regs, .rst, .rng, .hif] _) rfl) rfl)
    exact dark_refl _
  · refine dark_then ?_ (endSession_dark _ _) rfl
    refine dark_then ?_ (dark_of (commitsAfterLtr_only ..) rfl) rfl
    refine dark_then ?_ (dark_of (setsAfterLtr_only ..) rfl) rfl
    refine dark_trans ?_ (dark_of (raw_regs_rst_rng_hif (onlyChanges_refl [.regs, .rst, .rng, .hif] _) rfl) rfl)
    exact dark_refl _

theorem hostAsserts_dark (s : State) (b : Nat) : darkHeld s (hostAsserts s b) := by
  unfold hostAsserts
  extract_lets v63
  have hv63 : darkHeld s v63 := by
    refine dark_then ?_ (dark_of (modRst_only ..) rfl) rfl
    exact dark_refl _
  refine dark_ite ?_ ?_
  · refine dark_then ?_ (hostDown_dark _) rfl
    exact hv63
  · refine dark_then ?_ (dark_of (modRst_only ..) rfl) rfl
    exact hv63

theorem hostPulse_dark (s : State) (b : Nat) : darkHeld s (hostPulse s b) := by
  unfold hostPulse
  refine dark_then ?_ (dark_of (sourcesRelease_only ..) rfl) rfl
  refine dark_then ?_ (hostAsserts_dark _ _) rfl
  exact dark_refl _

theorem journalRead_dark (s : State) : darkHeld s (journalRead s) := by
  unfold journalRead
  refine dark_then ?_ (clientRead_dark _ _ _) rfl
  exact dark_refl _

theorem writeJournal_dark (s : State) (v : Word) : darkHeld s (writeJournal s v) := by
  unfold writeJournal
  refine dark_ite ?_ ?_
  · exact dark_refl _
  · refine dark_ite ?_ ?_
    · extract_lets v0
      have hv0 : darkHeld s v0 := by
        refine dark_then ?_ (journalRead_dark _) rfl
        exact dark_refl _
      refine dark_ite ?_ ?_
      · refine dark_then ?_ (dark_of (journalForgets_only ..) rfl) rfl
        exact hv0
      · refine dark_then ?_ (dark_of (journalResumes_only ..) rfl) rfl
        exact hv0
    · refine dark_ite ?_ ?_
      · refine dark_then ?_ (dark_of (journalForgets_only ..) rfl) rfl
        exact dark_refl _
      · exact dark_refl _

theorem stepEnds_dark (s : State) (n : Nat) : darkHeld s (stepEnds s n) := by
  unfold stepEnds
  extract_lets v83
  have hv83 : darkHeld s v83 := by
    refine dark_then ?_ (dark_of (modRst_only ..) rfl) rfl
    exact dark_refl _
  split
  · refine dark_then ?_ (dark_of (modRst_only ..) rfl) rfl
    exact dark_refl _
  · refine dark_then ?_ (dark_of (hostCheck_only ..) rfl) rfl
    refine dark_then ?_ (dark_of (modRst_only ..) rfl) rfl
    exact dark_refl _
  · refine dark_ite ?_ ?_
    · refine dark_then ?_ (dark_of (priorRecord_only ..) rfl) rfl
      refine dark_then ?_ (kpsReady_dark _) rfl
      refine dark_then ?_ (dark_of (modRst_only ..) rfl) rfl
      exact dark_refl _
    · refine dark_then ?_ (kpsReady_dark _) rfl
      refine dark_then ?_ (dark_of (modRst_only ..) rfl) rfl
      exact dark_refl _
  · refine dark_ite ?_ ?_
    · refine dark_then ?_ (bankMapLoad_dark _) rfl
      refine dark_then ?_ (dark_of (modRst_only ..) rfl) rfl
      exact dark_refl _
    · refine dark_then ?_ (dark_of (modRst_only ..) rfl) rfl
      exact dark_refl _
  · refine dark_then ?_ (settle_dark _) rfl
    refine dark_ite ?_ ?_
    · refine dark_then ?_ (raise_dark _ _ _ _) rfl
      refine dark_then ?_ (beginJudging_dark _) rfl
      refine dark_then ?_ (dark_of (modRst_only ..) rfl) rfl
      refine dark_then ?_ (loadSafecfg_dark _) rfl
      exact dark_refl _
    · refine dark_then ?_ (beginJudging_dark _) rfl
      refine dark_then ?_ (dark_of (modRst_only ..) rfl) rfl
      refine dark_then ?_ (loadSafecfg_dark _) rfl
      exact dark_refl _
  · refine dark_ite ?_ ?_
    · refine dark_then ?_ (doseLoad_dark _) rfl
      refine dark_then ?_ (calibLoad_dark _) rfl
      refine dark_then ?_ (dark_of (modRst_only ..) rfl) rfl
      exact dark_refl _
    · refine dark_then ?_ (calibLoad_dark _) rfl
      refine dark_then ?_ (dark_of (modRst_only ..) rfl) rfl
      exact dark_refl _
  · exact hv83

theorem dropLevels_dark (s : State) (srcs : List Nat) : darkHeld s (dropLevels s srcs) := by
  unfold dropLevels
  refine foldl_dark ?_ (fun t84 a84 => ?_)
  · exact dark_refl _
  · refine dark_then ?_ (setLevel_dark _ _ _ _ _ _) rfl
    exact dark_refl _

theorem resetNet_dark (s : State) : darkHeld s (resetNet s) := by
  unfold resetNet
  extract_lets v86 v87 v88
  have hv86 : darkHeld s v86 := by
    refine dark_then ?_ (dark_of (abortWork_only ..) rfl) rfl
    exact dark_refl _
  have hv87 : darkHeld s v87 := by
    refine dark_then ?_ (dark_of (clearWindow_only ..) rfl) rfl
    refine dark_then ?_ (dark_of (clearWindow_only ..) rfl) rfl
    exact hv86
  have hv88 : darkHeld s v88 := by
    refine dark_trans ?_ (dark_of (raw_laneBlocks_net (onlyChanges_refl [.lanes, .net] _) rfl) rfl)
    exact hv87
  refine dark_then ?_ (dropLevels_dark _ _) rfl
  refine dark_then ?_ (dark_of (modLane_only ..) rfl) rfl
  refine dark_then ?_ (dark_of (modLane_only ..) rfl) rfl
  exact hv88

theorem resetCle_dark (s : State) : darkHeld s (resetCle s) := by
  unfold resetCle
  extract_lets v89
  have hv89 : darkHeld s v89 := by
    refine dark_then ?_ (dark_of (clearWindow_only ..) rfl) rfl
    exact dark_refl _
  refine dark_then ?_ (dropLevels_dark _ _) rfl
  refine dark_trans ?_ (dark_of (raw_cle (onlyChanges_refl [.cle] _) rfl) rfl)
  exact hv89

theorem resetHkp_dark (s : State) : darkHeld s (resetHkp s) := by
  unfold resetHkp
  refine dark_then ?_ (dropLevels_dark _ _) rfl
  refine dark_then ?_ (sensorLevels_dark _) rfl
  refine dark_then ?_ (bandLevels_dark _) rfl
  refine dark_then ?_ (dark_of (hkpBlockReset_only ..) rfl) rfl
  exact dark_refl _

theorem resetFlt_dark (s : State) : darkHeld s (resetFlt s) := by
  unfold resetFlt
  refine dark_then ?_ (settle_dark _) rfl
  refine dark_then ?_ (dark_of (modFlt_only ..) rfl) rfl
  refine dark_then ?_ (dark_of (clearWindow_only ..) rfl) rfl
  exact dark_refl _

theorem resetSaf_dark (s : State) : darkHeld s (resetSaf s) := by
  unfold resetSaf
  extract_lets v93
  have hv93 : darkHeld s v93 := by
    refine dark_then ?_ (dark_of (clearWindow_only ..) rfl) rfl
    refine dark_then ?_ (endSession_dark _ _) rfl
    exact dark_refl _
  refine dark_then ?_ (modSaf_dark _ _ (by first | exact fun _ h => h | exact dark_set _ _)) rfl
  exact hv93

theorem resetKps_dark (s : State) : darkHeld s (resetKps s) := by
  unfold resetKps
  extract_lets v96 v97 v98
  have hv96 : darkHeld s v96 := by
    refine dark_ite ?_ ?_
    · refine dark_then ?_ (commitFails_dark _ _) rfl
      exact dark_refl _
    · exact dark_refl _
  have hv97 : darkHeld s v97 := by
    refine dark_then ?_ (kpsInterrupt_dark _) rfl
    refine dark_then ?_ (dark_of (abortCals_only ..) rfl) rfl
    refine dark_then ?_ (dark_of (abortWork_only ..) rfl) rfl
    exact hv96
  have hv98 : darkHeld s v98 := by
    refine dark_then ?_ (dark_of (clearWindow_only ..) rfl) rfl
    exact hv97
  refine dark_then ?_ (dark_of (modKps_only ..) rfl) rfl
  refine dark_trans ?_ (dark_of (raw_pxc (onlyChanges_refl [.pxc] _) rfl) rfl)
  exact hv98

theorem resetBlock_dark (s : State) (b : Nat) : darkHeld s (resetBlock s b) := by
  unfold resetBlock
  extract_lets v1 v2
  have hv1 : darkHeld s v1 := by
    refine dark_ite ?_ ?_
    · refine dark_then ?_ (raise_dark _ _ _ _) rfl
      exact dark_refl _
    · exact dark_refl _
  have hv2 : darkHeld s v2 := by
    dsimp -zeta only [v2]
    split
    · refine dark_then ?_ (resetNet_dark _) rfl
      refine dark_ite ?_ ?_
      · refine dark_then ?_ (raise_dark _ _ _ _) rfl
        exact dark_refl _
      · exact dark_refl _
    · refine dark_then ?_ (resetCle_dark _) rfl
      refine dark_ite ?_ ?_
      · refine dark_then ?_ (raise_dark _ _ _ _) rfl
        exact dark_refl _
      · exact dark_refl _
    · refine dark_then ?_ (dark_of (resetLce_only ..) rfl) rfl
      refine dark_ite ?_ ?_
      · refine dark_then ?_ (raise_dark _ _ _ _) rfl
        exact dark_refl _
      · exact dark_refl _
    · refine dark_then ?_ (dark_of (resetCrc_only ..) rfl) rfl
      refine dark_ite ?_ ?_
      · refine dark_then ?_ (raise_dark _ _ _ _) rfl
        exact dark_refl _
      · exact dark_refl _
    · refine dark_then ?_ (resetHkp_dark _) rfl
      refine dark_ite ?_ ?_
      · refine dark_then ?_ (raise_dark _ _ _ _) rfl
        exact dark_refl _
      · exact dark_refl _
    · refine dark_then ?_ (resetFlt_dark _) rfl
      refine dark_ite ?_ ?_
      · refine dark_then ?_ (raise_dark _ _ _ _) rfl
        exact dark_refl _
      · exact dark_refl _
    · refine dark_then ?_ (resetSaf_dark _) rfl
      refine dark_ite ?_ ?_
      · refine dark_then ?_ (raise_dark _ _ _ _) rfl
        exact dark_refl _
      · exact dark_refl _
    · refine dark_then ?_ (resetKps_dark _) rfl
      refine dark_ite ?_ ?_
      · refine dark_then ?_ (raise_dark _ _ _ _) rfl
        exact dark_refl _
      · exact dark_refl _
    · refine dark_then ?_ (dark_of (resetCbl_only ..) rfl) rfl
      exact hv1
  refine dark_then ?_ (dark_of (modRst_only ..) rfl) rfl
  exact hv2

theorem resetOrDefer_dark (s : State) (b : Nat) : darkHeld s (resetOrDefer s b) := by
  unfold resetOrDefer
  refine dark_ite ?_ ?_
  · refine dark_then ?_ (resetBlock_dark _ _) rfl
    exact dark_refl _
  · refine dark_then ?_ (dark_of (modRst_only ..) rfl) rfl
    exact dark_refl _

theorem deferredResets_dark (s : State) : darkHeld s (deferredResets s) := by
  unfold deferredResets
  refine foldl_dark ?_ (fun t3 a3 => ?_)
  · refine dark_then ?_ (dark_of (modRst_only ..) rfl) rfl
    exact dark_refl _
  · refine dark_then ?_ (resetBlock_dark _ _) rfl
    exact dark_refl _

theorem writeRstBlock_dark (s : State) (v : Word) : darkHeld s (writeRstBlock s v) := by
  unfold writeRstBlock
  extract_lets v4
  refine dark_ite ?_ ?_
  · refine dark_then ?_ (dark_of (modRst_only ..) rfl) rfl
    exact dark_refl _
  · refine dark_ite ?_ ?_
    · exact dark_refl _
    · refine foldl_dark ?_ (fun t5 a5 => ?_)
      · refine dark_then ?_ (dark_of (modRst_only ..) rfl) rfl
        exact dark_refl _
      · refine dark_then ?_ (resetOrDefer_dark _ _) rfl
        exact dark_refl _

theorem blockReleases_dark (s : State) (b : Nat) : darkHeld s (blockReleases s b) := by
  unfold blockReleases
  refine dark_ite ?_ ?_
  · exact dark_refl _
  · extract_lets v6
    have hv6 : darkHeld s v6 := by
      refine dark_then ?_ (dark_of (modRst_only ..) rfl) rfl
      exact dark_refl _
    split
    · refine dark_then ?_ (settle_dark _) rfl
      refine dark_then ?_ (beginJudging_dark _) rfl
      refine dark_then ?_ (dark_of (modRst_only ..) rfl) rfl
      exact dark_refl _
    · refine dark_then ?_ (kpsReady_dark _) rfl
      refine dark_then ?_ (dark_of (modRst_only ..) rfl) rfl
      exact dark_refl _
    · exact hv6

theorem loopCommitSample_dark (s : State) (n : Nat) (m : LoopSample) (r : LoopResult) : darkHeld s (loopCommitSample s n m r) := by
  unfold loopCommitSample
  extract_lets v11 v12 v13 v14 v15 v16 v17 v18 v19 v20 v21
  have hv18 : darkHeld s v18 := by
    refine dark_then ?_ (dark_of (loopDrive_only ..) rfl) rfl
    exact dark_refl _
  have hv19 : darkHeld s v19 := by
    refine dark_then ?_ (dark_of (modLoop_only ..) rfl) rfl
    exact hv18
  have hv20 : darkHeld s v20 := by
    refine dark_ite ?_ ?_
    · refine dark_then ?_ (raise_dark _ _ _ _) rfl
      exact hv19
    · exact hv19
  have hv21 : darkHeld s v21 := by
    refine dark_ite ?_ ?_
    · refine dark_then ?_ (raise_dark _ _ _ _) rfl
      exact hv20
    · exact hv20
  refine dark_ite ?_ ?_
  · refine dark_then ?_ (raise_dark _ _ _ _) rfl
    exact hv21
  · exact hv21

theorem loopOverrun_dark (s : State) (n : Nat) : darkHeld s (loopOverrun s n) := by
  unfold loopOverrun
  extract_lets v22 v23 v24
  have hv23 : darkHeld s v23 := by
    refine dark_then ?_ (dark_of (modLoop_only ..) rfl) rfl
    exact dark_refl _
  have hv24 : darkHeld s v24 := by
    refine dark_then ?_ (dark_of (modCle_only ..) rfl) rfl
    exact hv23
  refine dark_ite ?_ ?_
  · refine dark_then ?_ (raise_dark _ _ _ _) rfl
    exact hv24
  · exact hv24

theorem loopOutputNow_dark (s : State) (n : Nat) : darkHeld s (loopOutputNow s n) := by
  unfold loopOutputNow
  refine dark_ite ?_ ?_
  · exact dark_refl _
  · split
    · exact dark_refl _
    · split
      · refine dark_then ?_ (loopCommitSample_dark _ _ _ _) rfl
        exact dark_refl _
      · refine dark_then ?_ (loopOverrun_dark _ _) rfl
        exact dark_refl _

theorem imuEnd_dark (s : State) (data : List Byte) : darkHeld s (imuEnd s data) := by
  unfold imuEnd
  refine dark_ite ?_ ?_
  · exact dark_refl _
  · extract_lets v35
    split
    extract_lets v36 v37
    have hv37 : darkHeld s v37 := by
      refine dark_then ?_ (dark_of (modCle_only ..) rfl) rfl
      refine dark_snd (by assumption) ?_
      refine dark_then ?_ (dark_of (drawBytes_only ..) rfl) rfl
      exact dark_refl _
    refine dark_ite ?_ ?_
    · refine dark_then ?_ (setLevel_dark _ _ _ _ _ _) rfl
      refine foldl_dark ?_ (fun t38 a38 => ?_)
      · refine dark_then ?_ (dark_of (modCle_only ..) rfl) rfl
        exact hv37
      · refine dark_then ?_ (dark_of (modLoop_only ..) rfl) rfl
        exact dark_refl _
    · refine dark_then ?_ (setLevel_dark _ _ _ _ _ _) rfl
      refine dark_then ?_ (dark_of (modCle_only ..) rfl) rfl
      exact hv37

theorem endHoldover_dark (s : State) : darkHeld s (endHoldover s) := by
  unfold endHoldover
  refine dark_then ?_ (setLevel_dark _ _ _ _ _ _) rfl
  refine dark_then ?_ (dark_of (modTim_only ..) rfl) rfl
  exact dark_refl _

theorem discipline_dark (s : State) : darkHeld s (discipline s) := by
  unfold discipline
  refine dark_ite ?_ ?_
  · refine dark_then ?_ (endHoldover_dark _) rfl
    exact dark_refl _
  · exact dark_refl _

theorem holdoverNow_dark (s : State) : darkHeld s (holdoverNow s) := by
  unfold holdoverNow
  refine dark_ite ?_ ?_
  · refine dark_then ?_ (setLevel_dark _ _ _ _ _ _) rfl
    refine dark_then ?_ (dark_of (modTim_only ..) rfl) rfl
    exact dark_refl _
  · exact dark_refl _

theorem writeHold_dark (s : State) (v : Word) : darkHeld s (writeHold s v) := by
  unfold writeHold
  extract_lets v39 v40
  have hv40 : darkHeld s v40 := by
    refine dark_ite ?_ ?_
    · refine dark_then ?_ (dark_of (setRegAt_only ..) rfl) rfl
      exact dark_refl _
    · exact dark_refl _
  refine dark_ite ?_ ?_
  · refine dark_ite ?_ ?_
    · refine dark_then ?_ (endHoldover_dark _) rfl
      exact hv40
    · exact hv40
  · exact hv40

theorem writeIncrFrac_dark (s : State) (v : Word) : darkHeld s (writeIncrFrac s v) := by
  unfold writeIncrFrac
  extract_lets v41
  refine dark_ite ?_ ?_
  · refine dark_then ?_ (discipline_dark _) rfl
    refine dark_then ?_ (dark_of (modTim_only ..) rfl) rfl
    refine dark_then ?_ (dark_of (setRegAt_only ..) rfl) rfl
    exact dark_refl _
  · refine dark_then ?_ (dark_of (timRefuse_only ..) rfl) rfl
    exact dark_refl _

theorem stepTo_dark (s : State) (c : Nat) : darkHeld s (stepTo s c) := by
  unfold stepTo
  extract_lets v56
  have hv56 : darkHeld s v56 := by
    refine dark_then ?_ (dark_of (modTim_only ..) rfl) rfl
    exact dark_refl _
  refine dark_then ?_ (dark_of (trigsJump_only ..) rfl) rfl
  refine dark_then ?_ (discipline_dark _) rfl
  refine dark_then ?_ (raise_dark _ _ _ _) rfl
  exact hv56

theorem timSet_dark (s : State) : darkHeld s (timSet s) := by
  unfold timSet
  extract_lets v57
  refine dark_then ?_ (stepTo_dark _ _) rfl
  refine dark_then ?_ (dark_of (modTim_only ..) rfl) rfl
  exact dark_refl _

theorem timStep_dark (s : State) : darkHeld s (timStep s) := by
  unfold timStep
  refine dark_ite ?_ ?_
  · refine dark_then ?_ (stepTo_dark _ _) rfl
    exact dark_refl _
  · refine dark_then ?_ (dark_of (timRefuse_only ..) rfl) rfl
    exact dark_refl _

theorem timSlew_dark (s : State) : darkHeld s (timSlew s) := by
  unfold timSlew
  refine dark_then ?_ (discipline_dark _) rfl
  refine dark_then ?_ (dark_of (modTim_only ..) rfl) rfl
  exact dark_refl _

theorem writeTimCmd_dark (s : State) (v : Word) : darkHeld s (writeTimCmd s v) := by
  unfold writeTimCmd
  split
  · refine dark_then ?_ (timSet_dark _) rfl
    exact dark_refl _
  · refine dark_then ?_ (timStep_dark _) rfl
    exact dark_refl _
  · refine dark_then ?_ (timSlew_dark _) rfl
    exact dark_refl _
  · refine dark_then ?_ (dark_of (timCancel_only ..) rfl) rfl
    exact dark_refl _
  · refine dark_then ?_ (discipline_dark _) rfl
    exact dark_refl _
  · exact dark_refl _

theorem refuseEntry_dark (s : State) (code : Nat) : darkHeld s (refuseEntry s code) := by
  unfold refuseEntry
  extract_lets v62
  have hv62 : darkHeld s v62 := by
    refine dark_then ?_ (dark_of (modPwr_only ..) rfl) rfl
    refine dark_then ?_ (dark_of (abortEntry_only ..) rfl) rfl
    exact dark_refl _
  refine dark_then ?_ (raise_dark _ _ _ _) rfl
  exact hv62

theorem lanesOff_dark (s : State) (ls : List Nat) : darkHeld s (lanesOff s ls) := by
  unfold lanesOff
  refine foldl_dark ?_ (fun t63 a63 => ?_)
  · exact dark_refl _
  · extract_lets v64
    refine dark_ite ?_ ?_
    · exact dark_refl _
    · refine dark_then ?_ (lowerLane_dark _ _ _) rfl
      refine dark_then ?_ (dark_of (modPwr_only ..) rfl) rfl
      exact dark_refl _

theorem blockAgrees_dark (s : State) (code : Nat) (target : Nat) : darkHeld s (blockAgrees s code target) := by
  unfold blockAgrees
  split
  · refine dark_ite ?_ ?_
    · refine dark_then ?_ (dark_of (modPwr_only ..) rfl) rfl
      exact dark_refl _
    · exact dark_refl _
  · refine dark_then ?_ (lanesOff_dark _ _) rfl
    refine foldl_dark ?_ (fun t66 a66 => ?_)
    · exact dark_refl _
    · refine dark_then ?_ (dark_of (sendPark_only ..) rfl) rfl
      exact dark_refl _
  · refine dark_then ?_ (lanesOff_dark _ _) rfl
    exact dark_refl _
  · exact dark_refl _

theorem blockAnswers_dark (s0 : State) : darkHeld s0 (blockAnswers s0) := by
  unfold blockAnswers
  extract_lets v67
  have hv67 : darkHeld s0 v67 := by
    refine dark_ite ?_ ?_
    · refine dark_then ?_ (dark_of (linkRests_only ..) rfl) rfl
      exact dark_refl _
    · exact dark_refl _
  refine dark_ite ?_ ?_
  · exact hv67
  · refine dark_ite ?_ ?_
    · refine dark_then ?_ (refuseEntry_dark _ _) rfl
      exact hv67
    · refine dark_ite ?_ ?_
      · exact hv67
      · split
        · refine dark_then ?_ (dark_of (askBlock_only ..) rfl) rfl
          refine dark_then ?_ (dark_of (modPwr_only ..) rfl) rfl
          refine dark_then ?_ (blockAgrees_dark _ _ _) rfl
          exact hv67
        · refine dark_then ?_ (dark_of (allAgreed_only ..) rfl) rfl
          refine dark_then ?_ (dark_of (modPwr_only ..) rfl) rfl
          refine dark_then ?_ (blockAgrees_dark _ _ _) rfl
          exact hv67

theorem askExpires_dark (s : State) : darkHeld s (askExpires s) := by
  unfold askExpires
  refine dark_ite ?_ ?_
  · refine dark_then ?_ (refuseEntry_dark _ _) rfl
    exact dark_refl _
  · exact dark_refl _

theorem entryEnds_dark (s : State) : darkHeld s (entryEnds s) := by
  unfold entryEnds
  refine dark_ite ?_ ?_
  · exact dark_refl _
  · extract_lets v12 v13 v14 v15 v16
    have hv13 : darkHeld s v13 := by
      refine dark_then ?_ (dark_of (entryLosses_only ..) rfl) rfl
      exact dark_refl _
    have hv14 : darkHeld s v14 := by
      refine dark_ite ?_ ?_
      · refine dark_then ?_ (hostDown_dark _) rfl
        refine dark_then ?_ (dark_of (modPwr_only ..) rfl) rfl
        exact hv13
      · exact hv13
    have hv15 : darkHeld s v15 := by
      refine dark_then ?_ (dark_of (modPwr_only ..) rfl) rfl
      exact hv14
    have hv16 : darkHeld s v16 := by
      refine dark_ite ?_ ?_
      · refine dark_then ?_ (dark_of (netLost_only ..) rfl) rfl
        exact hv15
      · exact hv15
    refine dark_ite ?_ ?_
    · refine dark_then ?_ (dark_of (kpsTake_only ..) rfl) rfl
      exact hv16
    · refine dark_then ?_ (dark_of (beginExit_only ..) rfl) rfl
      exact hv16

theorem domainGood_dark (s : State) (d : Nat) : darkHeld s (domainGood s d) := by
  unfold domainGood
  refine dark_ite ?_ ?_
  · extract_lets v17
    have hv17 : darkHeld s v17 := by
      refine dark_then ?_ (dark_of (hostCheck_only ..) rfl) rfl
      refine dark_then ?_ (dark_of (modPwr_only ..) rfl) rfl
      exact dark_refl _
    refine dark_ite ?_ ?_
    · refine dark_then ?_ (raiseOwed_dark _) rfl
      exact hv17
    · refine dark_ite ?_ ?_
      · refine dark_then ?_ (dark_of (kpsTake_only ..) rfl) rfl
        exact hv17
      · exact hv17
  · exact dark_refl _

theorem domainMissed_dark (s : State) (d : Nat) : darkHeld s (domainMissed s d) := by
  unfold domainMissed
  refine dark_ite ?_ ?_
  · extract_lets v18
    have hv18 : darkHeld s v18 := by
      refine dark_ite ?_ ?_
      · refine dark_then ?_ (dark_of (modPwr_only ..) rfl) rfl
        exact dark_refl _
      · refine dark_then ?_ (dark_of (modPwr_only ..) rfl) rfl
        exact dark_refl _
    refine dark_then ?_ (raise_dark _ _ _ _) rfl
    exact hv18
  · exact dark_refl _

theorem saveLosses_dark (s : State) (off : Bool) : darkHeld s (saveLosses s off) := by
  unfold saveLosses
  extract_lets v23 v24
  have hv23 : darkHeld s v23 := by
    refine dark_then ?_ (dark_of (healthLost_only ..) rfl) rfl
    refine dark_then ?_ (doseLoad_dark _) rfl
    refine dark_then ?_ (calibLoad_dark _) rfl
    exact dark_refl _
  have hv24 : darkHeld s v24 := by
    refine foldl_dark ?_ (fun t31 a31 => ?_)
    · exact hv23
    · refine foldl_dark ?_ (fun t32 a32 => ?_)
      · exact dark_refl _
      · refine dark_then ?_ (dark_of (extentLost_only ..) rfl) rfl
        exact dark_refl _
  refine foldl_dark ?_ (fun t33 a33 => ?_)
  · exact hv24
  · refine dark_then ?_ (dark_of (modShd_only ..) rfl) rfl
    refine dark_then ?_ (dark_of (modBld_only ..) rfl) rfl
    exact dark_refl _

theorem lanesBack_dark (s : State) : darkHeld s (lanesBack s) := by
  unfold lanesBack
  refine foldl_dark ?_ (fun t25 a25 => ?_)
  · refine dark_then ?_ (dark_of (lanesReturn_only ..) rfl) rfl
    exact dark_refl _
  · refine dark_ite ?_ ?_
    · refine dark_then ?_ (laneReaches_dark _ _ _) rfl
      exact dark_refl _
    · exact dark_refl _

theorem exitRuns_dark (s : State) : darkHeld s (exitRuns s) := by
  unfold exitRuns
  extract_lets v28
  have hv28 : darkHeld s v28 := by
    refine dark_then ?_ (dark_of (modPwr_only ..) rfl) rfl
    refine dark_then ?_ (lanesBack_dark _) rfl
    exact dark_refl _
  refine dark_then ?_ (dark_of (kpsTake_only ..) rfl) rfl
  refine dark_then ?_ (dark_of (edgesReplay_only ..) rfl) rfl
  refine dark_then ?_ (dark_of (rxFlush_only ..) rfl) rfl
  refine dark_then ?_ (dark_of (rxFlush_only ..) rfl) rfl
  refine dark_then ?_ (dark_of (hostCheck_only ..) rfl) rfl
  refine dark_then ?_ (deferredResets_dark _) rfl
  exact hv28

theorem proposeFound_dark (s : State) (kind : Nat) (next : Option Nat) : darkHeld s (proposeFound s kind next) := by
  unfold proposeFound
  split
  · refine dark_then ?_ (cblFind_dark _ _ _ _) rfl
    refine dark_then ?_ (dark_of (modCbl_only ..) rfl) rfl
    exact dark_refl _
  · exact dark_refl _

theorem proposeNext_dark (s : State) (kind : Nat) : darkHeld s (proposeNext s kind) := by
  unfold proposeNext
  refine dark_ite ?_ ?_
  · exact dark_refl _
  · split
    · refine dark_then ?_ (proposeFound_dark _ _ _) rfl
      exact dark_refl _
    · refine dark_then ?_ (proposeFound_dark _ _ _) rfl
      exact dark_refl _
    · refine dark_then ?_ (pixelPropose_dark _ _) rfl
      refine dark_then ?_ (pixelPropose_dark _ _) rfl
      exact dark_refl _
    · exact dark_refl _

theorem proposalActs_dark (s : State) (kind : Nat) (p : Proposal) : darkHeld s (proposalActs s kind p) := by
  unfold proposalActs
  split
  · refine dark_then ?_ (dark_of (modLmm_only ..) rfl) rfl
    exact dark_refl _
  · refine dark_then ?_ (dark_of (kpsRequest_only ..) rfl) rfl
    exact dark_refl _
  · extract_lets v39
    refine dark_then ?_ (forwardRequest_dark _ _ _ _) rfl
    exact dark_refl _
  · refine dark_then ?_ (dark_of (modPxc_only ..) rfl) rfl
    exact dark_refl _

theorem approveProposal_dark (s : State) (kind : Nat) (p : Proposal) : darkHeld s (approveProposal s kind p) := by
  unfold approveProposal
  split
  extract_lets v37 v38
  have hv37 : darkHeld s v37 := by
    refine dark_then ?_ (dark_of (cblRecord_only ..) rfl) rfl
    refine dark_then ?_ (dark_of (setProposal_only ..) rfl) rfl
    refine dark_snd (by assumption) ?_
    refine dark_then ?_ (dark_of (drawBelow_only ..) rfl) rfl
    exact dark_refl _
  have hv38 : darkHeld s v38 := by
    refine dark_then ?_ (dark_of (modCbl_only ..) rfl) rfl
    exact hv37
  refine dark_then ?_ (proposeNext_dark _ _) rfl
  refine dark_then ?_ (proposalActs_dark _ _ _) rfl
  exact hv38

theorem declineProposal_dark (s : State) (kind : Nat) (p : Proposal) : darkHeld s (declineProposal s kind p) := by
  unfold declineProposal
  extract_lets v40 v41
  have hv40 : darkHeld s v40 := by
    refine dark_then ?_ (dark_of (cblClose_only ..) rfl) rfl
    exact dark_refl _
  have hv41 : darkHeld s v41 := by
    dsimp -zeta only [v41]
    split
    · refine dark_then ?_ (dark_of (modBank_only ..) rfl) rfl
      refine dark_then ?_ (dark_of (cblClose_only ..) rfl) rfl
      exact dark_refl _
    · refine dark_then ?_ (dark_of (modSector_only ..) rfl) rfl
      refine dark_then ?_ (dark_of (cblClose_only ..) rfl) rfl
      exact dark_refl _
    · exact hv40
  refine dark_then ?_ (proposeNext_dark _ _) rfl
  exact hv41

theorem scriptStarts_dark (s : State) : darkHeld s (scriptStarts s) := by
  unfold scriptStarts
  split
  · refine dark_then ?_ (dark_of (modBoot_only ..) rfl) rfl
    exact dark_refl _
  · refine dark_then ?_ (dark_of (releaseEnds_only ..) rfl) rfl
    refine dark_then ?_ (dark_of (modBoot_only ..) rfl) rfl
    exact dark_refl _

theorem releaseStepEnds_dark (s : State) : darkHeld s (releaseStepEnds s) := by
  unfold releaseStepEnds
  refine dark_ite ?_ ?_
  · exact dark_refl _
  · refine dark_ite ?_ ?_
    · refine dark_then ?_ (scriptStarts_dark _) rfl
      refine dark_then ?_ (dark_of (modRst_only ..) rfl) rfl
      refine dark_then ?_ (stepEnds_dark _ _) rfl
      exact dark_refl _
    · refine dark_then ?_ (stepEnds_dark _ _) rfl
      exact dark_refl _

theorem autolight_dark (s : State) : darkHeld s (autolight s) := by
  unfold autolight
  refine dark_ite ?_ ?_
  · refine dark_then ?_ (dark_of (modBoot_only ..) rfl) rfl
    refine dark_then ?_ (dark_of (lightHead_only ..) rfl) rfl
    refine dark_then ?_ (dark_of (lightHead_only ..) rfl) rfl
    exact dark_refl _
  · exact dark_refl _

theorem scriptDone_dark (s : State) : darkHeld s (scriptDone s) := by
  unfold scriptDone
  refine dark_then ?_ (autolight_dark _) rfl
  refine dark_then ?_ (dark_of (scriptEnds_only ..) rfl) rfl
  exact dark_refl _

theorem scriptFails_dark (s : State) (reason : Nat) : darkHeld s (scriptFails s reason) := by
  unfold scriptFails
  refine dark_ite ?_ ?_
  · refine dark_then ?_ (dark_of (scriptEnds_only ..) rfl) rfl
    exact dark_refl _
  · extract_lets v47
    have hv47 : darkHeld s v47 := by
      refine dark_then ?_ (dark_of (scriptEnds_only ..) rfl) rfl
      exact dark_refl _
    refine dark_ite ?_ ?_
    · refine dark_then ?_ (autolight_dark _) rfl
      exact hv47
    · exact hv47

theorem recordDone_dark (s : State) : darkHeld s (recordDone s) := by
  unfold recordDone
  refine dark_ite ?_ ?_
  · refine dark_then ?_ (dark_of (scriptEnds_only ..) rfl) rfl
    exact dark_refl _
  · extract_lets v48
    refine dark_then ?_ (dark_of (modBoot_only ..) rfl) rfl
    exact dark_refl _

theorem recordFails_dark (s : State) (reason : Nat) : darkHeld s (recordFails s reason) := by
  unfold recordFails
  refine dark_ite ?_ ?_
  · refine dark_then ?_ (recordDone_dark _) rfl
    exact dark_refl _
  · refine dark_then ?_ (scriptFails_dark _ _) rfl
    exact dark_refl _

theorem recordTimesOut_dark (s : State) : darkHeld s (recordTimesOut s) := by
  unfold recordTimesOut
  refine dark_ite ?_ ?_
  · split
    · refine dark_then ?_ (recordFails_dark _ _) rfl
      exact dark_refl _
    · exact dark_refl _
  · exact dark_refl _

theorem bootRunNow_dark (s : State) : darkHeld s (bootRunNow s) := by
  unfold bootRunNow
  refine dark_ite ?_ ?_
  · refine dark_then ?_ (scriptStarts_dark _) rfl
    exact dark_refl _
  · refine dark_then ?_ (dark_of (modRst_only ..) rfl) rfl
    exact dark_refl _

theorem bootStopNow_dark (s : State) : darkHeld s (bootStopNow s) := by
  unfold bootStopNow
  refine dark_ite ?_ ?_
  · exact dark_refl _
  · refine dark_ite ?_ ?_
    · refine dark_then ?_ (dark_of (modBoot_only ..) rfl) rfl
      exact dark_refl _
    · refine dark_then ?_ (dark_of (scriptEnds_only ..) rfl) rfl
      exact dark_refl _

theorem writeBootCmd_dark (s : State) (v : Word) : darkHeld s (writeBootCmd s v) := by
  unfold writeBootCmd
  split
  · refine dark_then ?_ (bootRunNow_dark _) rfl
    exact dark_refl _
  · refine dark_then ?_ (bootStopNow_dark _) rfl
    exact dark_refl _
  · exact dark_refl _

theorem slipSearchGo_dark (s : State) : darkHeld s (slipSearchGo s) := by
  unfold slipSearchGo
  refine dark_ite ?_ ?_
  · exact dark_refl _
  · extract_lets v49 v50
    have hv50 : darkHeld s v50 := by
      refine foldl_dark ?_ (fun t51 a51 => ?_)
      · refine dark_then ?_ (dark_of (modBoot_only ..) rfl) rfl
        exact dark_refl _
      · refine dark_ite ?_ ?_
        · exact dark_refl _
        · refine dark_then ?_ (dark_of (startSearch_only ..) rfl) rfl
          exact dark_refl _
    refine dark_ite ?_ ?_
    · refine dark_then ?_ (recordDone_dark _) rfl
      exact hv50
    · exact hv50

theorem slipSearchFailed_dark (s : State) (l : Nat) : darkHeld s (slipSearchFailed s l) := by
  unfold slipSearchFailed
  refine dark_ite ?_ ?_
  · refine dark_then ?_ (recordFails_dark _ _) rfl
    exact dark_refl _
  · exact dark_refl _

theorem loadTile_dark (s : State) (h : Head) (t : Nat) (off : Nat) (status : Bool) : darkHeld s (loadTile s h t off status) := by
  unfold loadTile
  extract_lets v54
  split
  split
  · refine dark_ite ?_ ?_
    · refine dark_ite ?_ ?_
      · refine dark_then ?_ (dark_of (setRecTile_only ..) rfl) rfl
        refine dark_then ?_ (dark_of (sendPackets_only ..) rfl) rfl
        exact dark_refl _
      · refine dark_then ?_ (dark_of (setRecTile_only ..) rfl) rfl
        refine dark_then ?_ (dark_of (sendPackets_only ..) rfl) rfl
        exact dark_refl _
    · exact dark_refl _
  · refine dark_ite ?_ ?_
    · refine dark_ite ?_ ?_
      · refine dark_then ?_ (dark_of (setRecTile_only ..) rfl) rfl
        exact dark_refl _
      · refine dark_then ?_ (dark_of (setRecTile_only ..) rfl) rfl
        refine dark_then ?_ (dark_of (sendPackets_only ..) rfl) rfl
        exact dark_refl _
    · exact dark_refl _
  · refine dark_ite ?_ ?_
    · refine dark_then ?_ (dark_of (setRecTile_only ..) rfl) rfl
      exact dark_refl _
    · exact dark_refl _
  · exact dark_refl _

theorem loadTilesGo_dark (s : State) (status : Option (Head × Nat)) : darkHeld s (loadTilesGo s status) := by
  unfold loadTilesGo
  refine dark_ite ?_ ?_
  · exact dark_refl _
  · extract_lets v52
    refine dark_ite ?_ ?_
    · refine dark_then ?_ (recordFails_dark _ _) rfl
      exact dark_refl _
    · refine dark_ite ?_ ?_
      · refine dark_then ?_ (recordDone_dark _) rfl
        refine foldl_dark ?_ (fun t55 a55 => ?_)
        · exact dark_refl _
        · refine dark_then ?_ (loadTile_dark _ _ _ _ _) rfl
          exact dark_refl _
      · refine foldl_dark ?_ (fun t57 a57 => ?_)
        · exact dark_refl _
        · refine dark_then ?_ (loadTile_dark _ _ _ _ _) rfl
          exact dark_refl _

theorem noteEntries_dark (s : State) (h : Head) : darkHeld s (noteEntries s h) := by
  unfold noteEntries
  refine foldl_dark ?_ (fun t53 a53 => ?_)
  · exact dark_refl _
  · refine dark_then ?_ (dark_of (modTbl_only ..) rfl) rfl
    exact dark_refl _

theorem recordGoes_dark (s : State) (status : Option (Head × Nat)) : darkHeld s (recordGoes s status) := by
  unfold recordGoes
  refine dark_then ?_ (loadTilesGo_dark _ _) rfl
  refine dark_then ?_ (slipSearchGo_dark _) rfl
  exact dark_refl _

theorem readWord_dark (s : State) (idx : Nat) : darkHeld s (readWord s idx).2 := by
  unfold readWord
  dsimp only
  split
  · refine dark_then ?_ (dark_of (readGpio_only ..) rfl) rfl
    exact dark_refl _
  · refine dark_then ?_ (dark_of (readPos_only ..) rfl) rfl
    exact dark_refl _
  · refine dark_then ?_ (dark_of (readPos_only ..) rfl) rfl
    exact dark_refl _
  · refine dark_then ?_ (dark_of (readSlewRem_only ..) rfl) rfl
    exact dark_refl _
  · dsimp -zeta only
    refine dark_then ?_ (dark_of (latchNow_only ..) rfl) rfl
    exact dark_refl _
  · split
    · dsimp -zeta only
      refine dark_then ?_ (dark_of (drawBelow_only ..) rfl) rfl
      exact dark_refl _
    · dsimp -zeta only
      exact dark_refl _
  · refine dark_then ?_ (dark_of (readTimer_only ..) rfl) rfl
    exact dark_refl _
  · refine dark_then ?_ (dark_of (readBoot_only ..) rfl) rfl
    exact dark_refl _
  · split
    · dsimp -zeta only
      refine dark_then ?_ (dark_of (drawBelow_only ..) rfl) rfl
      exact dark_refl _
    · dsimp -zeta only
      exact dark_refl _
  · refine dark_then ?_ (windowWord_dark _ _) rfl
    exact dark_refl _
  · refine dark_then ?_ (windowReadHiOp_dark _) rfl
    exact dark_refl _
  · split
    · dsimp -zeta only
      refine dark_then ?_ (dark_of (capturePops_only ..) rfl) rfl
      exact dark_refl _
    · split
      · refine dark_then ?_ (dark_of (readSlot_only ..) rfl) rfl
        exact dark_refl _
      · dsimp -zeta only
        exact dark_refl _

theorem checkParity_dark (s : State) (idx : Nat) (upset : Bool) : darkHeld s (checkParity s idx upset).2 := by
  unfold checkParity
  split
  · dsimp -zeta only
    exact dark_refl _
  · extract_lets v69 v70
    have hv70 : darkHeld s v70 := by
      refine dark_ite ?_ ?_
      · refine dark_then ?_ (dark_of (spoilParity_only ..) rfl) rfl
        refine dark_then ?_ (spendInj_dark _) rfl
        exact dark_refl _
      · refine dark_ite ?_ ?_
        · refine dark_then ?_ (dark_of (spoilParity_only ..) rfl) rfl
          exact dark_refl _
        · exact dark_refl _
    split
    · dsimp -zeta only
      refine dark_then ?_ (raiseInj_dark _ _ _ _ _) rfl
      refine dark_then ?_ (dark_of (modGlb_only ..) rfl) rfl
      exact hv70
    · dsimp -zeta only
      exact hv70

theorem writeRng_dark (s : State) (idx : Nat) (o : Nat) (v : Word) : darkHeld s (writeRng s idx o v) := by
  unfold writeRng
  split
  · refine dark_then ?_ (dark_of (writeRngCtrl_only ..) rfl) rfl
    exact dark_refl _
  · refine dark_then ?_ (writeJournal_dark _ _) rfl
    exact dark_refl _
  · refine dark_ite ?_ ?_
    · extract_lets v6
      split
      · refine dark_then ?_ (writeRingCfg_dark _ _ _) rfl
        exact dark_refl _
      · refine dark_then ?_ (dark_of (modRing_only ..) rfl) rfl
        exact dark_refl _
      · refine dark_then ?_ (dark_of (plainWrite_only ..) rfl) rfl
        exact dark_refl _
    · refine dark_then ?_ (dark_of (plainWrite_only ..) rfl) rfl
      exact dark_refl _

theorem writeTg_dark (s : State) (h : Head) (idx : Nat) (o : Nat) (v : Word) : darkHeld s (writeTg s h idx o v) := by
  unfold writeTg
  split
  · refine dark_then ?_ (writeTgCtrl_dark _ _ _) rfl
    exact dark_refl _
  · refine dark_then ?_ (dark_of (modTg_only ..) rfl) rfl
    exact dark_refl _
  · refine dark_ite ?_ ?_
    · refine dark_then ?_ (dark_of (commitWrite_only ..) rfl) rfl
      exact dark_refl _
    · exact dark_refl _
  · refine dark_then ?_ (dark_of (stoppedWrite_only ..) rfl) rfl
    exact dark_refl _
  · refine dark_then ?_ (dark_of (stoppedWrite_only ..) rfl) rfl
    exact dark_refl _
  · refine dark_ite ?_ ?_
    · refine dark_ite ?_ ?_
      · refine dark_then ?_ (dark_of (reconfigure_only ..) rfl) rfl
        refine dark_then ?_ (dark_of (plainWrite_only ..) rfl) rfl
        exact dark_refl _
      · refine dark_then ?_ (dark_of (timingRefused_only ..) rfl) rfl
        exact dark_refl _
    · refine dark_then ?_ (dark_of (plainWrite_only ..) rfl) rfl
      exact dark_refl _

theorem writeLn_dark (s : State) (b : Nat) (idx : Nat) (o : Nat) (v : Word) : darkHeld s (writeLn s b idx o v) := by
  unfold writeLn
  refine dark_ite ?_ ?_
  · refine dark_then ?_ (dark_of (writeLnCtrl_only ..) rfl) rfl
    exact dark_refl _
  · refine dark_ite ?_ ?_
    · refine dark_then ?_ (dark_of (modLaneBlock_only ..) rfl) rfl
      exact dark_refl _
    · refine dark_ite ?_ ?_
      · extract_lets v1
        split
        · refine dark_then ?_ (writeLaneCtrl_dark _ _ _) rfl
          exact dark_refl _
        · refine dark_then ?_ (dark_of (modLane_only ..) rfl) rfl
          exact dark_refl _
        · exact dark_refl _
      · refine dark_ite ?_ ?_
        · refine dark_then ?_ (dark_of (writeEq_only ..) rfl) rfl
          exact dark_refl _
        · refine dark_then ?_ (dark_of (plainWrite_only ..) rfl) rfl
          exact dark_refl _

theorem writeTbl_dark (s : State) (h : Head) (idx : Nat) (o : Nat) (v : Word) : darkHeld s (writeTbl s h idx o v) := by
  unfold writeTbl
  split
  · refine dark_then ?_ (dark_of (writeTblCtrl_only ..) rfl) rfl
    exact dark_refl _
  · refine dark_then ?_ (writeFwd_dark _ _ _) rfl
    exact dark_refl _
  · refine dark_then ?_ (dark_of (writeReq_only ..) rfl) rfl
    exact dark_refl _
  · refine dark_then ?_ (dark_of (plainWrite_only ..) rfl) rfl
    exact dark_refl _

theorem writeNet_dark (s : State) (idx : Nat) (o : Nat) (v : Word) : darkHeld s (writeNet s idx o v) := by
  unfold writeNet
  split
  · refine dark_then ?_ (dark_of (writeMdio_only ..) rfl) rfl
    exact dark_refl _
  · refine dark_then ?_ (dark_of (modNet_only ..) rfl) rfl
    exact dark_refl _
  · refine dark_ite ?_ ?_
    · extract_lets v7
      split
      · refine dark_then ?_ (writeNetCtrl_dark _ _ _) rfl
        exact dark_refl _
      · refine dark_then ?_ (dark_of (modPort_only ..) rfl) rfl
        exact dark_refl _
      · refine dark_then ?_ (dark_of (writeNetMac_only ..) rfl) rfl
        exact dark_refl _
      · refine dark_then ?_ (dark_of (writeNetMac_only ..) rfl) rfl
        exact dark_refl _
      · refine dark_then ?_ (dark_of (plainWrite_only ..) rfl) rfl
        exact dark_refl _
    · refine dark_then ?_ (dark_of (plainWrite_only ..) rfl) rfl
      exact dark_refl _

theorem writeTim_dark (s : State) (idx : Nat) (o : Nat) (v : Word) : darkHeld s (writeTim s idx o v) := by
  unfold writeTim
  split
  · refine dark_then ?_ (dark_of (modTim_only ..) rfl) rfl
    exact dark_refl _
  · refine dark_then ?_ (writeTimCmd_dark _ _) rfl
    exact dark_refl _
  · refine dark_then ?_ (writeIncrFrac_dark _ _) rfl
    exact dark_refl _
  · refine dark_then ?_ (dark_of (writeSlewRate_only ..) rfl) rfl
    exact dark_refl _
  · refine dark_then ?_ (writeHold_dark _ _) rfl
    exact dark_refl _
  · refine dark_then ?_ (dark_of (writePps_only ..) rfl) rfl
    exact dark_refl _
  · refine dark_ite ?_ ?_
    · extract_lets v9
      split
      · refine dark_then ?_ (dark_of (writeTrigCtrl_only ..) rfl) rfl
        exact dark_refl _
      · refine dark_then ?_ (dark_of (modTrig_only ..) rfl) rfl
        exact dark_refl _
      · refine dark_then ?_ (dark_of (plainWrite_only ..) rfl) rfl
        exact dark_refl _
    · refine dark_ite ?_ ?_
      · refine dark_then ?_ (dark_of (modCap_only ..) rfl) rfl
        exact dark_refl _
      · refine dark_then ?_ (dark_of (plainWrite_only ..) rfl) rfl
        exact dark_refl _

theorem writeFlt_dark (s : State) (idx : Nat) (o : Nat) (v : Word) : darkHeld s (writeFlt s idx o v) := by
  unfold writeFlt
  split
  · refine dark_then ?_ (dark_of (modFlt_only ..) rfl) rfl
    exact dark_refl _
  · refine dark_then ?_ (writeSticky_dark _ _ _) rfl
    exact dark_refl _
  · refine dark_then ?_ (writeSticky_dark _ _ _) rfl
    exact dark_refl _
  · refine dark_then ?_ (dark_of (writeFirst_only ..) rfl) rfl
    exact dark_refl _
  · refine dark_ite ?_ ?_
    · refine dark_then ?_ (writeInj_dark _ _) rfl
      exact dark_refl _
    · exact dark_refl _
  · refine dark_then ?_ (dark_of (writeCntClr_only ..) rfl) rfl
    exact dark_refl _
  · refine dark_then ?_ (dark_of (writeCntClr_only ..) rfl) rfl
    exact dark_refl _
  · refine dark_ite ?_ ?_
    · refine dark_then ?_ (writeSev_dark _ _ _) rfl
      exact dark_refl _
    · refine dark_then ?_ (dark_of (plainWrite_only ..) rfl) rfl
      exact dark_refl _

theorem writeSaf_dark (s : State) (idx : Nat) (o : Nat) (v : Word) : darkHeld s (writeSaf s idx o v) := by
  unfold writeSaf
  split
  · refine dark_then ?_ (modSaf_dark _ _ (by first | exact fun _ h => h | exact dark_set _ _)) rfl
    exact dark_refl _
  · refine dark_then ?_ (writeUnlock_dark _ _) rfl
    exact dark_refl _
  · refine dark_then ?_ (modSaf_dark _ _ (by first | exact fun _ h => h | exact dark_set _ _)) rfl
    exact dark_refl _
  · refine dark_then ?_ (modSaf_dark _ _ (by first | exact fun _ h => h | exact dark_set _ _)) rfl
    exact dark_refl _
  · refine dark_then ?_ (writeHb_dark _ _) rfl
    exact dark_refl _
  · refine dark_then ?_ (modSaf_dark _ _ (by first | exact fun _ h => h | exact dark_set _ _)) rfl
    exact dark_refl _
  · refine dark_ite ?_ ?_
    · exact dark_refl _
    · refine dark_then ?_ (dark_of (plainWrite_only ..) rfl) rfl
      exact dark_refl _

theorem writeHkp_dark (s : State) (idx : Nat) (o : Nat) (v : Word) : darkHeld s (writeHkp s idx o v) := by
  unfold writeHkp
  split
  · refine dark_then ?_ (writeHkCtrl_dark _ _) rfl
    exact dark_refl _
  · refine dark_then ?_ (dark_of (modHkp_only ..) rfl) rfl
    exact dark_refl _
  · refine dark_then ?_ (dark_of (writeHkRound_only ..) rfl) rfl
    exact dark_refl _
  · refine dark_ite ?_ ?_
    · refine dark_then ?_ (dark_of (writeNtc_only ..) rfl) rfl
      exact dark_refl _
    · refine dark_then ?_ (dark_of (plainWrite_only ..) rfl) rfl
      exact dark_refl _

theorem writePxcHead_dark (s : State) (h : Head) (idx : Nat) (o : Nat) (v : Word) : darkHeld s (writePxcHead s h idx o v) := by
  unfold writePxcHead
  split
  · refine dark_ite ?_ ?_
    · refine dark_then ?_ (dark_of (reconfigure_only ..) rfl) rfl
      refine dark_then ?_ (dark_of (plainWrite_only ..) rfl) rfl
      exact dark_refl _
    · exact dark_refl _
  · refine dark_then ?_ (clearHealth_dark _ _ _) rfl
    exact dark_refl _
  · refine dark_then ?_ (dark_of (plainWrite_only ..) rfl) rfl
    exact dark_refl _

theorem writePxc_dark (s : State) (idx : Nat) (o : Nat) (v : Word) : darkHeld s (writePxc s idx o v) := by
  unfold writePxc
  split
  · refine dark_trans ?_ (dark_of (raw_pxc (onlyChanges_refl [.pxc] _) rfl) rfl)
    exact dark_refl _
  · refine dark_ite ?_ ?_
    · refine dark_then ?_ (dark_of (doseCheckpoint_only ..) rfl) rfl
      refine dark_then ?_ (dark_of (plainWrite_only ..) rfl) rfl
      exact dark_refl _
    · refine dark_then ?_ (dark_of (plainWrite_only ..) rfl) rfl
      exact dark_refl _
  · refine dark_ite ?_ ?_
    · refine dark_then ?_ (dark_of (writeAging_only ..) rfl) rfl
      exact dark_refl _
    · refine dark_ite ?_ ?_
      · refine dark_then ?_ (writePxcHead_dark _ _ _ _ _) rfl
        exact dark_refl _
      · refine dark_ite ?_ ?_
        · refine dark_then ?_ (writePxcHead_dark _ _ _ _ _) rfl
          exact dark_refl _
        · refine dark_then ?_ (dark_of (plainWrite_only ..) rfl) rfl
          exact dark_refl _

theorem writeKps_dark (s : State) (idx : Nat) (o : Nat) (v : Word) : darkHeld s (writeKps s idx o v) := by
  unfold writeKps
  split
  · refine dark_then ?_ (spareLevel_dark _) rfl
    refine dark_then ?_ (dark_of (plainWrite_only ..) rfl) rfl
    exact dark_refl _
  · refine dark_then ?_ (dark_of (modKps_only ..) rfl) rfl
    exact dark_refl _
  · refine dark_then ?_ (dark_of (fuseProgramWrite_only ..) rfl) rfl
    exact dark_refl _
  · refine dark_then ?_ (dark_of (modKps_only ..) rfl) rfl
    exact dark_refl _
  · refine dark_then ?_ (dark_of (plainWrite_only ..) rfl) rfl
    exact dark_refl _

theorem pageWrite_dark (s : State) (idx : Nat) (whole : Bool) (v : Word) : darkHeld s (pageWrite s idx whole v) := by
  unfold pageWrite
  extract_lets v16
  refine dark_ite ?_ ?_
  · refine dark_then ?_ (doorbellWrite_dark _ _ _ _) rfl
    exact dark_refl _
  · exact dark_refl _

theorem portRead_dark (s0 : State) (b : Bus) (addr : Nat) (upset : Bool) : darkHeld s0 (portRead s0 b addr upset).2.2 := by
  unfold portRead
  extract_lets v19 v20
  have hv19 : darkHeld s0 v19 := by
    refine dark_ite ?_ ?_
    · refine dark_then ?_ (dark_of (linkWakes_only ..) rfl) rfl
      exact dark_refl _
    · exact dark_refl _
  split
  · dsimp -zeta only
    exact hv19
  · split
    · dsimp -zeta only
      exact hv19
    · split
      · dsimp -zeta only
        refine dark_then ?_ (dark_of (noteOff_only ..) rfl) rfl
        exact hv19
      · split
        · dsimp -zeta only
          exact hv19
        · split
          extract_lets v27
          have hv27 : darkHeld s0 v27 := by
            refine dark_ite ?_ ?_
            · refine dark_then ?_ (dark_of (noteAccess_only ..) rfl) rfl
              refine dark_snd (by assumption) ?_
              refine dark_then ?_ (checkParity_dark _ _ _) rfl
              exact hv19
            · refine dark_snd (by assumption) ?_
              refine dark_then ?_ (checkParity_dark _ _ _) rfl
              exact hv19
          split
          dsimp -zeta only
          refine dark_snd (by assumption) ?_
          refine dark_then ?_ (readWord_dark _ _) rfl
          exact hv27

theorem svcCheck_dark (s : State) (frame : List Byte) : darkHeld s (svcCheck s frame).2.2 := by
  unfold svcCheck
  extract_lets v22 v23
  split
  · dsimp -zeta only
    refine dark_then ?_ (spendInj_dark _) rfl
    exact dark_refl _
  · dsimp -zeta only
    exact dark_refl _

theorem svcCrcError_dark (s : State) (inj : Bool) (data : List Byte) : darkHeld s (svcCrcError s inj data) := by
  unfold svcCrcError
  refine dark_then ?_ (dark_of (svcAnswer_only ..) rfl) rfl
  refine dark_then ?_ (raiseInj_dark _ _ _ _ _) rfl
  refine dark_then ?_ (dark_of (modGlb_only ..) rfl) rfl
  exact dark_refl _

theorem svcReadFrame_dark (s : State) (frame : List Byte) (upset : Bool) : darkHeld s (svcReadFrame s frame upset) := by
  unfold svcReadFrame
  split
  extract_lets v25
  refine dark_ite ?_ ?_
  · refine dark_then ?_ (svcCrcError_dark _ _ _) rfl
    refine dark_thd (by assumption) ?_
    refine dark_then ?_ (svcCheck_dark _ _) rfl
    exact dark_refl _
  · refine dark_ite ?_ ?_
    · refine dark_then ?_ (dark_of (svcAnswer_only ..) rfl) rfl
      refine dark_thd (by assumption) ?_
      refine dark_then ?_ (svcCheck_dark _ _) rfl
      exact dark_refl _
    · split
      refine dark_then ?_ (dark_of (svcAnswer_only ..) rfl) rfl
      refine dark_thd (by assumption) ?_
      refine dark_then ?_ (portRead_dark _ _ _ _) rfl
      refine dark_thd (by assumption) ?_
      refine dark_then ?_ (svcCheck_dark _ _) rfl
      exact dark_refl _

theorem pcieRead_dark (s : State) (addr : Nat) (enables : Nat) (upset : Bool) : darkHeld s (pcieRead s addr enables upset) := by
  unfold pcieRead
  split
  refine dark_then ?_ (dark_of (emit_only ..) rfl) rfl
  refine dark_thd (by assumption) ?_
  refine dark_then ?_ (portRead_dark _ _ _ _) rfl
  exact dark_refl _

theorem readThrough_dark (b : Bus) (addr : Nat) (s : State) : darkHeld s (readThrough b addr s) := by
  unfold readThrough
  split
  · refine dark_ite ?_ ?_
    · refine dark_then ?_ (pcieRead_dark _ _ _ _) rfl
      exact dark_refl _
    · exact dark_refl _
  · refine dark_ite ?_ ?_
    · refine dark_then ?_ (svcReadFrame_dark _ _ _) rfl
      exact dark_refl _
    · exact dark_refl _
  · exact dark_refl _

theorem busRead_dark (s : State) (b : Bus) (addr : Nat) : darkHeld s (busRead s b addr) := by
  unfold busRead
  refine inOneCycle_dark (fun t28 => ?_) rfl
  refine dark_then ?_ (readThrough_dark _ _ _) rfl
  exact dark_refl _

theorem backgroundCheck_dark (s : State) (upset : Bool) : darkHeld s (backgroundCheck s upset) := by
  unfold backgroundCheck
  refine dark_ite ?_ ?_
  · exact dark_refl _
  · split
    · refine dark_then ?_ (dark_of (checkNext_only ..) rfl) rfl
      exact dark_refl _
    · split
      refine dark_then ?_ (dark_of (checkNext_only ..) rfl) rfl
      refine dark_ite ?_ ?_
      · refine dark_then ?_ (dark_of (noteAccess_only ..) rfl) rfl
        refine dark_snd (by assumption) ?_
        refine dark_then ?_ (checkParity_dark _ _ _) rfl
        exact dark_refl _
      · refine dark_snd (by assumption) ?_
        refine dark_then ?_ (checkParity_dark _ _ _) rfl
        exact dark_refl _

theorem queryActs_dark (s : State) (ring : Nat) (slot : Nat) (d : Desc) : darkHeld s (queryActs s ring slot d) := by
  unfold queryActs
  split
  · refine dark_then ?_ (dark_of (completeAt_only ..) rfl) rfl
    exact dark_refl _
  · refine dark_ite ?_ ?_
    · split
      refine dark_then ?_ (dark_of (completeWord_only ..) rfl) rfl
      refine dark_thd (by assumption) ?_
      refine dark_then ?_ (portRead_dark _ _ _ _) rfl
      exact dark_refl _
    · split
      · refine dark_then ?_ (dark_of (completeAt_only ..) rfl) rfl
        exact dark_refl _
      · split
        · refine dark_then ?_ (dark_of (completeAt_only ..) rfl) rfl
          exact dark_refl _
        · refine dark_then ?_ (dark_of (completeAt_only ..) rfl) rfl
          refine dark_ite ?_ ?_
          · refine dark_then ?_ (approveProposal_dark _ _ _) rfl
            exact dark_refl _
          · refine dark_then ?_ (declineProposal_dark _ _ _) rfl
            exact dark_refl _

theorem workActs_dark (s : State) (w : Work) : darkHeld s (workActs s w) := by
  unfold workActs
  extract_lets v36 v37 v38
  refine dark_ite ?_ ?_
  · refine dark_then ?_ (dark_of (completeAt_only ..) rfl) rfl
    exact dark_refl _
  · refine dark_ite ?_ ?_
    · refine dark_then ?_ (dark_of (completeAt_only ..) rfl) rfl
      exact dark_refl _
    · split
      · split
        · refine dark_then ?_ (dark_of (completeAt_only ..) rfl) rfl
          exact dark_refl _
        · refine dark_then ?_ (dark_of (completeAt_only ..) rfl) rfl
          exact dark_refl _
      · refine dark_then ?_ (dark_of (objectsFetch_only ..) rfl) rfl
        exact dark_refl _
      · refine dark_then ?_ (dark_of (calFetch_only ..) rfl) rfl
        exact dark_refl _
      · refine dark_then ?_ (dark_of (lastWriteFetch_only ..) rfl) rfl
        exact dark_refl _
      · refine dark_then ?_ (dark_of (crcFetch_only ..) rfl) rfl
        exact dark_refl _
      · refine dark_then ?_ (dark_of (laceFetch_only ..) rfl) rfl
        exact dark_refl _
      · refine dark_then ?_ (dark_of (txFetch_only ..) rfl) rfl
        exact dark_refl _
      · refine dark_then ?_ (dark_of (rxFetch_only ..) rfl) rfl
        exact dark_refl _
      · refine dark_then ?_ (queryActs_dark _ _ _ _) rfl
        exact dark_refl _
      · refine dark_then ?_ (dark_of (fenceActs_only ..) rfl) rfl
        exact dark_refl _
      · refine dark_then ?_ (dark_of (abortActs_only ..) rfl) rfl
        exact dark_refl _
      · refine dark_then ?_ (dark_of (completeAt_only ..) rfl) rfl
        exact dark_refl _

theorem runWork_dark (s : State) (w : Work) : darkHeld s (runWork s w) := by
  unfold runWork
  split
  · refine dark_ite ?_ ?_
    · refine dark_ite ?_ ?_
      · refine dark_then ?_ (dark_of (commitFetched_only ..) rfl) rfl
        refine dark_then ?_ (dark_of (dropWork_only ..) rfl) rfl
        exact dark_refl _
      · refine dark_then ?_ (memberFetch_dark _ _ _) rfl
        refine dark_then ?_ (dark_of (dropWork_only ..) rfl) rfl
        exact dark_refl _
    · refine dark_then ?_ (workActs_dark _ _) rfl
      refine dark_then ?_ (dark_of (stageWork_only ..) rfl) rfl
      exact dark_refl _
  · refine dark_then ?_ (workActs_dark _ _) rfl
    refine dark_then ?_ (dark_of (stageWork_only ..) rfl) rfl
    exact dark_refl _

theorem settleRings_dark (x1 : Nat) (x2 : State) : darkHeld x2 (settleRings x1 x2) := by
  induction x1 generalizing x2 with
  | zero => exact dark_refl _
  | succ n ih =>
    unfold settleRings
    repeat first
      | (with_reducible exact dark_refl _)
      | (with_reducible refine dark_trans ?_ (ih _))
      | (with_reducible refine dark_then ?_ (dark_of (fenceGoes_only ..) rfl) rfl)
      | (with_reducible refine dark_then ?_ (runWork_dark _ _) rfl)
      | (with_reducible refine dark_ite ?_ ?_)
      | split
      | dsimp only

theorem ringSettle_dark (s : State) : darkHeld s (ringSettle s) := by
  unfold ringSettle
  refine dark_ite ?_ ?_
  · refine dark_then ?_ (settleRings_dark _ _) rfl
    exact dark_refl _
  · refine dark_then ?_ (dark_of (settleFences_only ..) rfl) rfl
    exact dark_refl _

theorem discardOther_dark (s : State) (ring : Nat) (d : Desc) (ok : Bool) : darkHeld s (discardOther s ring d ok) := by
  unfold discardOther
  split
  · exact dark_refl _
  · extract_lets v41
    split
    · refine dark_ite ?_ ?_
      · refine dark_then ?_ (discardSet_dark _ _ _) rfl
        exact dark_refl _
      · exact dark_refl _
    · exact dark_refl _

theorem dcrcCheck_dark (s : State) (ring : Nat) (slot : Nat) (d : Desc) : darkHeld s (dcrcCheck s ring slot d).2 := by
  unfold dcrcCheck
  split
  · dsimp -zeta only
    exact dark_refl _
  · extract_lets v44 v45 v46
    have hv45 : darkHeld s v45 := by
      refine dark_ite ?_ ?_
      · refine dark_then ?_ (spendInj_dark _) rfl
        exact dark_refl _
      · exact dark_refl _
    split
    · dsimp -zeta only
      exact hv45
    · dsimp -zeta only
      refine dark_then ?_ (raiseInj_dark _ _ _ _ _) rfl
      exact hv45

theorem fetchDesc_dark (s : State) (ring : Nat) (d : Desc) (data : HostRead) : darkHeld s (fetchDesc s ring d data) := by
  unfold fetchDesc
  refine inOneCycle_dark (fun t43 => ?_) rfl
  extract_lets v47
  refine dark_ite ?_ ?_
  · exact dark_refl _
  · split
    extract_lets v48 v49 v50
    have hv49 : darkHeld t43 v49 := by
      refine dark_ite ?_ ?_
      · refine dark_then ?_ (discardOther_dark _ _ _ _) rfl
        refine dark_snd (by assumption) ?_
        refine dark_then ?_ (dcrcCheck_dark _ _ _ _) rfl
        refine dark_then ?_ (dark_of (takeSlot_only ..) rfl) rfl
        exact dark_refl _
      · refine dark_snd (by assumption) ?_
        refine dark_then ?_ (dcrcCheck_dark _ _ _ _) rfl
        refine dark_then ?_ (dark_of (takeSlot_only ..) rfl) rfl
        exact dark_refl _
    split
    extract_lets v53 v54
    have hv54 : darkHeld t43 v54 := by
      refine dark_then ?_ (dark_of (modRng_only ..) rfl) rfl
      refine dark_snd (by assumption) ?_
      split
      · dsimp -zeta only
        exact hv49
      · refine dark_then ?_ (dark_of (commitCloses_only ..) rfl) rfl
        exact hv49
    refine dark_ite ?_ ?_
    · refine dark_then ?_ (ringSettle_dark _) rfl
      refine dark_then ?_ (runWork_dark _ _) rfl
      exact hv54
    · refine dark_then ?_ (ringSettle_dark _) rfl
      exact hv54

theorem fetchRow_dark (s : State) (ring : Nat) (opcode : Nat) (d : Desc) : darkHeld s (fetchRow s ring opcode d) := by
  unfold fetchRow
  refine dark_then ?_ (fetchDesc_dark _ _ _ _) rfl
  exact dark_refl _

theorem recActed_dark (s : State) : darkHeld s (recActed s) := by
  unfold recActed
  refine dark_ite ?_ ?_
  · refine dark_then ?_ (recordDone_dark _) rfl
    exact dark_refl _
  · exact dark_refl _

theorem recPollRead_dark (s : State) : darkHeld s (recPollRead s) := by
  unfold recPollRead
  refine dark_ite ?_ ?_
  · split
    refine dark_ite ?_ ?_
    · refine dark_then ?_ (recordDone_dark _) rfl
      refine dark_thd (by assumption) ?_
      refine dark_then ?_ (portRead_dark _ _ _ _) rfl
      exact dark_refl _
    · refine dark_thd (by assumption) ?_
      refine dark_then ?_ (portRead_dark _ _ _ _) rfl
      exact dark_refl _
  · exact dark_refl _

theorem recSlipSearch_dark (s : State) : darkHeld s (recSlipSearch s) := by
  unfold recSlipSearch
  refine dark_then ?_ (slipSearchGo_dark _) rfl
  refine dark_then ?_ (dark_of (modBoot_only ..) rfl) rfl
  refine dark_then ?_ (dark_of (recordWaits_only ..) rfl) rfl
  exact dark_refl _

theorem recLoadTiles_dark (s : State) : darkHeld s (recLoadTiles s) := by
  unfold recLoadTiles
  refine dark_ite ?_ ?_
  · extract_lets v56
    have hv56 : darkHeld s v56 := by
      refine dark_then ?_ (noteEntries_dark _ _) rfl
      refine dark_then ?_ (dark_of (recordWaits_only ..) rfl) rfl
      exact dark_refl _
    refine dark_then ?_ (loadTilesGo_dark _ _) rfl
    refine foldl_dark ?_ (fun t62 a62 => ?_)
    · exact hv56
    · refine dark_then ?_ (dark_of (setRecTile_only ..) rfl) rfl
      exact dark_refl _
  · refine dark_then ?_ (recordFails_dark _ _) rfl
    exact dark_refl _

theorem recWaitEnds_dark (s : State) : darkHeld s (recWaitEnds s) := by
  unfold recWaitEnds
  refine dark_ite ?_ ?_
  · refine dark_then ?_ (recordDone_dark _) rfl
    exact dark_refl _
  · exact dark_refl _

theorem linkTrains_dark (s : State) (rate : Nat) (width : Nat) : darkHeld s (linkTrains s rate width) := by
  unfold linkTrains
  refine dark_ite ?_ ?_
  · exact dark_refl _
  · extract_lets v57 v58 v59
    have hv57 : darkHeld s v57 := by
      refine dark_then ?_ (dark_of (sourcesRelease_only ..) rfl) rfl
      exact dark_refl _
    have hv58 : darkHeld s v58 := by
      refine dark_then ?_ (dark_of (hostAspm_only ..) rfl) rfl
      exact hv57
    split
    · refine dark_then ?_ (setLevel_dark _ _ _ _ _ _) rfl
      refine dark_trans ?_ (dark_of (raw_hif (onlyChanges_refl [.hif] _) rfl) rfl)
      exact hv58
    · refine dark_then ?_ (dark_of (commitsAfterLtr_only ..) rfl) rfl
      refine dark_then ?_ (dark_of (ltrExpiry_only ..) rfl) rfl
      refine dark_trans ?_ (dark_of (raw_hif (onlyChanges_refl [.hif] _) rfl) rfl)
      refine dark_then ?_ (setLevel_dark _ _ _ _ _ _) rfl
      refine dark_trans ?_ (dark_of (raw_hif (onlyChanges_refl [.hif] _) rfl) rfl)
      exact hv58

theorem storeRead_dark (s : State) : darkHeld s (storeRead s) := by
  unfold storeRead
  refine dark_ite ?_ ?_
  · exact dark_refl _
  · extract_lets v60
    refine dark_then ?_ (clientRead_dark _ _ _) rfl
    refine dark_ite ?_ ?_
    · refine dark_then ?_ (dark_of (uploadSpoilt_only ..) rfl) rfl
      exact dark_refl _
    · exact dark_refl _

theorem svcBadFrame_dark (s : State) : darkHeld s (svcBadFrame s) := by
  unfold svcBadFrame
  dsimp only
  refine dark_then (dark_then ?_ (dark_of (modGlb_only ..) rfl) rfl) (dark_of (svcAnswer_only ..) rfl) rfl
  exact dark_ite (dark_then (dark_refl _) (spendInj_dark _) rfl) (dark_refl _)

end Sys2Proof.Machine
end

