-- ==== Sys2Proof/Laws/Bus.lean ====
section
/-! SUPPORT. What a register access that is served does: the word's own write, inside one cycle of the collector, and
through the service port an answer of status 0 as well. -/

namespace Sys2Proof.Machine

/-! ## Bytes on the service port (21 R694) -/

theorem leNat_leBytes (n v : Nat) : leNat (leBytes n v) = v % 256 ^ n := by
  induction n generalizing v with
  | zero => simp [leBytes, leNat, Nat.mod_one]
  | succ n ih =>
    rw [Nat.pow_succ, Nat.mul_comm (256 ^ n) 256, Nat.mod_mul]
    simp [leBytes, leNat, ih]

theorem length_leBytes (n v : Nat) : (leBytes n v).length = n := by
  induction n generalizing v with
  | zero => rfl
  | succ n ih => simp [leBytes, ih]

theorem length_beBytes (n v : Nat) : (beBytes n v).length = n := by simp [beBytes, length_leBytes]

theorem beNat_beBytes (n v : Nat) : beNat (beBytes n v) = v % 256 ^ n := by simp [beNat, beBytes, leNat_leBytes]

theorem crcBits_small (p : CrcParams) (b i r : Nat) (hp : p.poly < 2 ^ p.w) (hr : r < 2 ^ p.w) : crcBits p b i r < 2 ^ p.w := by
  induction i generalizing r with
  | zero => exact hr
  | succ i ih =>
    unfold crcBits
    apply ih
    have h2 : (r <<< 1) % 2 ^ p.w < 2 ^ p.w := Nat.mod_lt _ (Nat.two_pow_pos _)
    split
    · exact Nat.xor_lt_two_pow h2 hp
    · exact h2

theorem crc8_small (bs : List Byte) : crc8 bs < 256 := by
  have h : ∀ (p : CrcParams) (r : Nat), p.poly < 2 ^ p.w → r < 2 ^ p.w → crcFeed p r bs < 2 ^ p.w := by
    intro p r hp hr
    induction bs generalizing r with
    | nil => exact hr
    | cons b bs ih => exact ih _ (crcBits_small _ _ _ _ hp hr)
  have h1 := h { w := 8, poly := 0x07, init := 0, refin := false, refout := false, xorout := 0 } 0 (by decide) (by decide)
  simpa [crc8, crcPreset, crcFinish, crcRun, leBytes] using h1

/-- A well-formed frame passes the port's check when no injection is armed for it. -/
theorem svcCheck_request (s : State) (cmd addr : Nat) (data : List Byte) (h : injArmed s 58 = false) :
    svcCheck s (svcRequest cmd addr data) = (true, false, s) := by
  have hl : leBytes 1 (crc8 ([BitVec.ofNat 8 cmd] ++ beBytes 4 addr ++ data))
      = [BitVec.ofNat 8 (crc8 ([BitVec.ofNat 8 cmd] ++ beBytes 4 addr ++ data))] := rfl
  unfold svcCheck svcRequest
  simp only [hl, h, Bool.false_eq_true, if_false, List.dropLast_concat]
  have hc := crc8_small ([BitVec.ofNat 8 cmd] ++ beBytes 4 addr ++ data)
  have hb : byteAt ([BitVec.ofNat 8 cmd] ++ beBytes 4 addr ++ data ++
      [BitVec.ofNat 8 (crc8 ([BitVec.ofNat 8 cmd] ++ beBytes 4 addr ++ data))])
      (([BitVec.ofNat 8 cmd] ++ beBytes 4 addr ++ data ++
      [BitVec.ofNat 8 (crc8 ([BitVec.ofNat 8 cmd] ++ beBytes 4 addr ++ data))]).length - 1)
      = crc8 ([BitVec.ofNat 8 cmd] ++ beBytes 4 addr ++ data) := by
    generalize [BitVec.ofNat 8 cmd] ++ beBytes 4 addr ++ data = l at hc ⊢
    simp [byteAt, Nat.mod_eq_of_lt hc]
  rw [hb]; simp

theorem svcRequest_addr (cmd addr : Nat) (data : List Byte) (h : addr < 0x40000) :
    beNat (((svcRequest cmd addr data).drop 1).take 4) = addr := by
  have h1 : (svcRequest cmd addr data).drop 1 = beBytes 4 addr ++ (data ++ leBytes 1 (crc8 ([BitVec.ofNat 8 cmd] ++ beBytes 4 addr ++ data))) := by
    simp [svcRequest]
  rw [h1, List.take_append_of_le_length (by simp [length_beBytes]), List.take_of_length_le (by simp [length_beBytes]),
    beNat_beBytes, Nat.mod_eq_of_lt (by omega)]

theorem svcRequest_data (cmd addr : Nat) (v : Word) :
    BitVec.ofNat 32 (beNat (((svcRequest cmd addr (beBytes 4 v.toNat)).drop 5).take 4)) = v := by
  have h1 : (svcRequest cmd addr (beBytes 4 v.toNat)).drop 5 =
      beBytes 4 v.toNat ++ leBytes 1 (crc8 ([BitVec.ofNat 8 cmd] ++ beBytes 4 addr ++ beBytes 4 v.toNat)) := by
    have h2 : ([BitVec.ofNat 8 cmd] ++ beBytes 4 addr).length = 5 := by simp [length_beBytes]
    have h3 := List.drop_left' (l₁ := [BitVec.ofNat 8 cmd] ++ beBytes 4 addr)
      (l₂ := beBytes 4 v.toNat ++ leBytes 1 (crc8 ([BitVec.ofNat 8 cmd] ++ beBytes 4 addr ++ beBytes 4 v.toNat))) h2
    simpa [svcRequest] using h3
  rw [h1, List.take_append_of_le_length (by simp [length_beBytes]), List.take_of_length_le (by simp [length_beBytes]),
    beNat_beBytes]
  apply BitVec.eq_of_toNat_eq
  have := v.isLt
  simp only [BitVec.toNat_ofNat]
  omega

/-! ## Writes -/

/-- What a port adds to a write that it serves: the service port answers with status 0. -/
def answered (b : Bus) (s : State) : State :=
  match b with
  | .service => svcAnswer s [] 0
  | _ => s

/-- What a port does before it serves a write of word `idx`: an access of PCI Express takes the link out of L1 (18 R610), and one
that reaches a block other than PWR ends IDLE (18 R612, R614). -/
def portWakes (b : Bus) (idx : Nat) (s : State) : State :=
  let s1 := if b == .pcie then linkWakes s else s
  if idx / 1024 = 21 then s1 else idleExits s1

@[simp] theorem scriptKeeps_linkWakes (s : State) (b : Bus) (i : Nat) : scriptKeeps (linkWakes s) b i = scriptKeeps s b i := rfl

@[simp] theorem windowServes_linkWakes (s : State) (i : Nat) : windowServes (linkWakes s) i = windowServes s i := rfl

theorem writeThrough_reaches (s : State) (b : Bus) (addr : Nat) (v : Word) (h : reaches s b addr = true)
    (h4 : addr % 4 = 0) : writeThrough b addr true v s = answered b (wordWrite (portWakes b (addr / 4) s) (addr / 4) v) := by
  cases b with
  | script => simp [reaches] at h
  | pcie =>
    simp only [reaches, Bool.and_eq_true, decide_eq_true_eq, Bool.not_eq_true'] at h
    obtain ⟨⟨⟨⟨h1, h2⟩, h3⟩, h5⟩, h6⟩ := h
    simp [writeThrough, portWrite, h2, h3, h5, h6, show ¬(0x40000 ≤ addr) by omega, answered, portWakes]
  | service =>
    simp only [reaches, Bool.and_eq_true, decide_eq_true_eq, Bool.not_eq_true'] at h
    obtain ⟨⟨⟨⟨h1, h2⟩, h3⟩, h5⟩, ⟨h6, h7⟩, h8⟩ := h
    have ha : svcAddressBad addr = false := by simp [svcAddressBad, h4]; omega
    simp only [writeThrough, h6, if_true, svcWriteFrame, svcCheck_request s _ _ _ h8, svcRequest_addr _ _ _ h1, svcRequest_data,
      ha]
    simp [portWrite, h2, h3, h5, h7, show ¬(0x40000 ≤ addr) by omega, answered, portWakes]

/-- A write that reaches its word is the word's write and the port's answer, in one cycle of the collector. -/
theorem busWrite_reaches (s : State) (b : Bus) (addr : Nat) (v : Word) (h : reaches s b addr = true) (h4 : addr % 4 = 0) :
    busWrite s b addr true v = inOneCycle (fun s => answered b (wordWrite (portWakes b (addr / 4) s) (addr / 4) v)) s := by
  have hm : ∀ f : Flt → Flt, reaches (modFlt s f) b addr = true := fun f => h
  unfold busWrite inOneCycle oneCycle
  split
  · dsimp only
    rw [writeThrough_reaches s b addr v h h4]
  · dsimp only
    rw [writeThrough_reaches _ b addr v (hm _) h4]

/-- The answer of a port changes only what has left the block. -/
@[simp] theorem answered_fields (b : Bus) (s : State) :
    (answered b s).pending = s.pending ∧ (answered b s).free = s.free ∧ (answered b s).regs = s.regs ∧ (answered b s).tableBad = s.tableBad
      ∧ (answered b s).mem = s.mem ∧ (answered b s).flt = s.flt ∧ (answered b s).saf = s.saf
      ∧ (answered b s).rst = s.rst ∧ (answered b s).pwr = s.pwr ∧ (answered b s).rng = s.rng
      ∧ (answered b s).hif = s.hif ∧ (answered b s).crc = s.crc ∧ (answered b s).glb = s.glb
      ∧ (answered b s).lmm = s.lmm ∧ (answered b s).ly = s.ly ∧ (answered b s).shd = s.shd
      ∧ (answered b s).shdRefused = s.shdRefused ∧ (answered b s).shdNode = s.shdNode
      ∧ (answered b s).bldEntry = s.bldEntry ∧ (answered b s).bld = s.bld ∧ (answered b s).pxc = s.pxc
      ∧ (answered b s).tg = s.tg ∧ (answered b s).lanes = s.lanes ∧ (answered b s).laneBlocks = s.laneBlocks ∧ (answered b s).txRd = s.txRd
      ∧ (answered b s).tbl = s.tbl ∧ (answered b s).net = s.net ∧ (answered b s).tim = s.tim
      ∧ (answered b s).cle = s.cle ∧ (answered b s).lce = s.lce ∧ (answered b s).hkp = s.hkp
      ∧ (answered b s).kps = s.kps ∧ (answered b s).cbl = s.cbl := by
  cases b <;> repeat' first | exact rfl | apply And.intro

@[simp] theorem wordLocked_portWakes (b : Bus) (k : Nat) (s : State) (i : Nat) :
    wordLocked (portWakes b k s) i = wordLocked s i := by
  have h : (portWakes b k s).saf = s.saf := by
    unfold portWakes idleExits
    dsimp only
    repeat' split
    all_goals rfl
  unfold wordLocked
  rw [h]

/-- Fresh parity changes the global block alone. -/
@[simp] theorem freshParity_fields (s : State) (idx : Nat) :
    (freshParity s idx).pending = s.pending ∧ (freshParity s idx).out = s.out ∧ (freshParity s idx).free = s.free
      ∧ (freshParity s idx).regs = s.regs ∧ (freshParity s idx).tableBad = s.tableBad ∧ (freshParity s idx).mem = s.mem ∧ (freshParity s idx).flt = s.flt
      ∧ (freshParity s idx).saf = s.saf ∧ (freshParity s idx).rst = s.rst ∧ (freshParity s idx).pwr = s.pwr
      ∧ (freshParity s idx).rng = s.rng ∧ (freshParity s idx).hif = s.hif ∧ (freshParity s idx).crc = s.crc
      ∧ (freshParity s idx).lmm = s.lmm ∧ (freshParity s idx).ly = s.ly ∧ (freshParity s idx).shd = s.shd
      ∧ (freshParity s idx).shdRefused = s.shdRefused ∧ (freshParity s idx).shdNode = s.shdNode
      ∧ (freshParity s idx).bldEntry = s.bldEntry ∧ (freshParity s idx).bld = s.bld ∧ (freshParity s idx).pxc = s.pxc
      ∧ (freshParity s idx).tg = s.tg ∧ (freshParity s idx).lanes = s.lanes
      ∧ (freshParity s idx).laneBlocks = s.laneBlocks ∧ (freshParity s idx).txRd = s.txRd ∧ (freshParity s idx).tbl = s.tbl
      ∧ (freshParity s idx).net = s.net ∧ (freshParity s idx).tim = s.tim ∧ (freshParity s idx).cle = s.cle
      ∧ (freshParity s idx).lce = s.lce ∧ (freshParity s idx).hkp = s.hkp ∧ (freshParity s idx).kps = s.kps
      ∧ (freshParity s idx).cbl = s.cbl :=
  by repeat' first | exact rfl | apply And.intro

/-- A write that reaches its word, with the mark of the cycle as what it is. -/
theorem busWrite_word (s : State) (b : Bus) (addr : Nat) (v : Word) (h : reaches s b addr = true) (h4 : addr % 4 = 0) :
    ∃ (c : Option (Nat × Bool)) (g : Flt → Flt), (∀ x, fltCore (g x) = fltCore x) ∧
      busWrite s b addr true v = modFlt (framesGo (modFlt s (fun x => { x with cycle := c }))
        (answered b (wordWrite (portWakes b (addr / 4) (modFlt s (fun x => { x with cycle := c }))) (addr / 4) v))) g := by
  obtain ⟨c, g, hg, he⟩ := oneCycle_cases (fun x => framesGo x (answered b (wordWrite (portWakes b (addr / 4) x) (addr / 4) v))) s
  exact ⟨c, g, hg, by rw [busWrite_reaches s b addr v h h4]; exact he⟩

/-- What a served write of a command leaves, with `f` what the word's window does: `f` ran on the state with fresh parity and
the cycle marked, the port answered, and frames left where a low-power state ended. -/
def ran (b : Bus) (idx : Nat) (f : State → State) (s t : State) : Prop :=
  ∃ (c : Option (Nat × Bool)) (g : Flt → Flt), (∀ x, fltCore (g x) = fltCore x) ∧
    t = modFlt (framesGo (modFlt s (fun x => { x with cycle := c }))
      (answered b (f (freshParity (portWakes b idx (modFlt s (fun x => { x with cycle := c }))) idx)))) g

/-- A word that no lock keeps is written by its window, with fresh parity. -/
theorem wordWrite_open (s : State) (idx : Nat) (v : Word) (h : wordLocked s idx = false) :
    wordWrite s idx v = routeWrite (freshParity s idx) idx v := by
  unfold wordWrite; rw [h]; rfl

/-- A command's register write that reaches an open word. -/
theorem writeAlone_ran (s : State) (b : Bus) (addr : Nat) (v : Word) (f : State → State) (h : reaches s b addr = true)
    (h4 : addr % 4 = 0) (ho : wordLocked s (addr / 4) = false) (hr : ∀ u, routeWrite u (addr / 4) v = f u) :
    ∃ t, writeAlone b addr v s = .next t ∧ ran b (addr / 4) f s t := by
  obtain ⟨c, g, hg, he⟩ := busWrite_word s b addr v h h4
  refine ⟨_, rfl, c, g, hg, ?_⟩
  rw [he, wordWrite_open _ _ _ (by rw [wordLocked_portWakes]; exact ho), hr]

/-- The same for a command after which descriptors that can go on do. -/
theorem writeSettles_ran (s : State) (b : Bus) (addr : Nat) (v : Word) (f : State → State) (h : reaches s b addr = true)
    (h4 : addr % 4 = 0) (ho : wordLocked s (addr / 4) = false) (hr : ∀ u, routeWrite u (addr / 4) v = f u) :
    ∃ t, writeSettles b addr v s = .next (ringSettle t) ∧ ran b (addr / 4) f s t := by
  obtain ⟨c, g, hg, he⟩ := busWrite_word s b addr v h h4
  refine ⟨_, rfl, c, g, hg, ?_⟩
  rw [he, wordWrite_open _ _ _ (by rw [wordLocked_portWakes]; exact ho), hr]

/-! ## Frames -/

theorem answered_only (b : Bus) (s : State) : onlyChanges [.out] s (answered b s) := by
  cases b <;> exact ⟨by simp, fun p hp => by cases p <;> simp_all [agree]⟩

theorem portWakes_only (b : Bus) (idx : Nat) (s : State) : onlyChanges [.pwr, .hif] s (portWakes b idx s) := by
  have h : onlyChanges [.pwr, .hif] s (if b == .pcie then linkWakes s else s) :=
    onlyChanges_ite (onlyChanges_mono (linkWakes_only s) (by simp)) (onlyChanges_refl _ _)
  unfold portWakes
  exact onlyChanges_ite h (onlyChanges_trans h (onlyChanges_mono (idleExits_only _) (by simp)))

/-- The mark of a command's cycle is no part of the collector. -/
theorem mark_only (s : State) (g : Flt → Flt) (hg : ∀ x, fltCore (g x) = fltCore x) : onlyChanges [] s (modFlt s g) :=
  ⟨rfl, fun p _ => by cases p <;> simp_all [agree]⟩

/-- A served write changes what its window changes, the global block, the link's and the device's state, what has left the
block, and what frames that leave change. -/
theorem ran_onlyChanges {ps : List Part} {b : Bus} {idx : Nat} {f : State → State} {s t : State}
    (hf : ∀ u, onlyChanges ps u (f u)) (h : ran b idx f s t) :
    onlyChanges ([.out, .free, .pwr, .rng, .hif, .net, .glb] ++ ps) s t := by
  obtain ⟨c, g, hg, rfl⟩ := h
  refine onlyChanges_trans (onlyChanges_mono (mark_only s (fun x => { x with cycle := c }) (fun _ => rfl)) (by simp)) ?_
  refine onlyChanges_trans ?_ (onlyChanges_mono (mark_only _ g hg) (by simp))
  refine onlyChanges_trans ?_ (onlyChanges_mono (framesGo_only ..) (by simp +contextual))
  refine onlyChanges_trans ?_ (onlyChanges_mono (answered_only ..) (by simp))
  refine onlyChanges_trans ?_ (onlyChanges_mono (hf _) (by simp +contextual))
  refine onlyChanges_trans ?_ (onlyChanges_mono (freshParity_only ..) (by simp))
  exact onlyChanges_mono (portWakes_only ..) (by simp +contextual)

/-- A port's write of a word outside the doorbell page changes what the word's window changes, and what a port access may. -/
theorem portWrite_in {ps : List Part} (s : State) (b : Bus) (addr : Nat) (whole : Bool) (v : Word)
    (hd : inDoorbells (addr / 4) = false) (h : ∀ u, onlyChanges ps u (routeWrite u (addr / 4) v)) :
    onlyChanges (.pwr :: .glb :: .rst :: .hif :: ps) s (portWrite s b addr whole v).2 := by
  have h0 : ∀ c : Bool, onlyChanges (.pwr :: .glb :: .rst :: .hif :: ps) s (if c then linkWakes s else s) := fun c =>
    onlyChanges_ite (onlyChanges_mono (linkWakes_only s) (by simp)) (onlyChanges_refl _ _)
  have hg : ∀ (u : State) (f : Glb → Glb), onlyChanges (.pwr :: .glb :: .rst :: .hif :: ps) u (modGlb u f) := fun u f =>
    onlyChanges_mono (modGlb_only u f) (by simp)
  have hn : ∀ u, onlyChanges (.pwr :: .glb :: .rst :: .hif :: ps) u (noteAccess u b (addr / 4)) := fun u =>
    onlyChanges_mono (noteAccess_only ..) (by simp)
  unfold portWrite
  extract_lets u idx u1
  have hu : onlyChanges (.pwr :: .glb :: .rst :: .hif :: ps) s u := h0 _
  have hu1 : onlyChanges (.pwr :: .glb :: .rst :: .hif :: ps) s u1 :=
    onlyChanges_ite hu (onlyChanges_trans hu (onlyChanges_mono (idleExits_only _) (by simp +contextual)))
  clear_value u1
  clear_value u
  have hd' : inDoorbells idx = false := hd
  rw [hd']
  split
  · exact hu
  split
  · exact hu
  split
  · exact onlyChanges_trans hu (onlyChanges_trans (hn u) (hg _ _))
  split
  · exact onlyChanges_trans hu (onlyChanges_mono (modRst_only ..) (by simp))
  split
  · exact onlyChanges_trans hu (onlyChanges_trans (hn u) (hg _ _))
  rw [if_neg (by simp)]
  unfold wordWrite
  dsimp only
  split
  · exact onlyChanges_trans hu1 (onlyChanges_mono (h u1) (by simp_all))
  · exact onlyChanges_trans hu1 (onlyChanges_trans (onlyChanges_mono (freshParity_only ..) (by simp)) (onlyChanges_mono (h _) (by simp_all)))

/-- The same for a command's register write, which may come as a frame of the service port. -/
theorem busWrite_word_only {ps : List Part} (s : State) (b : Bus) (addr : Nat) (whole : Bool) (v : Word)
    (ha : addr < 0x40000) (hd : inDoorbells (addr / 4) = false) (h : ∀ u, onlyChanges ps u (routeWrite u (addr / 4) v)) :
    onlyChanges (portParts ++ [.rng, .net] ++ ps) s (busWrite s b addr whole v) := by
  unfold busWrite
  refine inOneCycle_only (fun u => ?_) rfl
  unfold writeThrough
  cases b with
  | pcie =>
    dsimp only
    split
    · exact onlyChanges_mono (portWrite_in u .pcie addr whole v hd h) (by simp +contextual [portParts, faultParts])
    · exact onlyChanges_refl _ _
  | script => exact onlyChanges_refl _ _
  | service =>
    dsimp only
    split
    · unfold svcWriteFrame
      dsimp only
      have h1 : onlyChanges (portParts ++ [.rng, .net] ++ ps) u (svcCheck u (svcRequest 2 addr (beBytes 4 v.toNat))).2.2 :=
        onlyChanges_mono (svcCheck_only ..) (by simp [portParts, faultParts])
      rw [svcRequest_addr _ _ _ ha, svcRequest_data]
      split
      · exact onlyChanges_trans h1 (onlyChanges_mono (svcCrcError_only ..) (by simp [portParts, faultParts]))
      split
      · exact onlyChanges_trans h1 (onlyChanges_mono (svcAnswer_only ..) (by simp [portParts, faultParts]))
      · refine onlyChanges_trans (onlyChanges_trans h1 (onlyChanges_mono (portWrite_in _ .service addr true v hd h) ?_))
          (onlyChanges_mono (svcAnswer_only ..) (by simp [portParts, faultParts]))
        simp +contextual [portParts, faultParts]
    · exact onlyChanges_refl _ _

end Sys2Proof.Machine
end

