-- ==== Sys2Proof/Laws/Fuses.lean ====
section
/-! SUPPORT. A fuse bit that reads as blown reads so after every operation (20 R679, R680). -/

set_option linter.unusedVariables false
namespace Sys2Proof.Machine

/-- From `s` to `t` every blown fuse bit stays blown. -/
structure keepsFuses (s t : State) : Prop where
  kept : ∀ w b, fuseBlown s w b = true → fuseBlown t w b = true

theorem blown_refl (s : State) : keepsFuses s s := ⟨fun _ _ h => h⟩

theorem blown_trans {s t u : State} (h1 : keepsFuses s t) (h2 : keepsFuses t u) : keepsFuses s u := ⟨fun w b h => h2.kept w b (h1.kept w b h)⟩

/-- A part that an operation may not change is kept with all that it holds. -/
theorem blown_of {ps : List Part} {s t : State} (h : onlyChanges ps s t) (w : ps.contains .kps = false) : keepsFuses s t := by
  have h1 : t.kps = s.kps := h.2 .kps (fun hp => by simp_all)
  exact ⟨fun w b hb => by simp_all [fuseBlown, fuseOf]⟩

theorem blown_then {s t u : State} (h : keepsFuses s u) (k : keepsFuses u t) (_ : true = true) : keepsFuses s t := blown_trans h k

theorem blown_ite {s a b : State} {c : Prop} [Decidable c] (ha : keepsFuses s a) (hb : keepsFuses s b) :
    keepsFuses s (if c then a else b) := by split <;> assumption

theorem blown_snd {α : Type} {s t : State} {x : α} {p : α × State} (e : p = (x, t)) (h : keepsFuses s p.2) : keepsFuses s t := by
  rw [e] at h; exact h

theorem blown_thd {α β : Type} {s t : State} {x : α} {y : β} {p : α × β × State} (e : p = (x, y, t))
    (h : keepsFuses s p.2.2) : keepsFuses s t := by rw [e] at h; exact h

theorem foldl_blown {α : Type} {s u : State} {f : State → α → State} {l : List α} (h : keepsFuses s u)
    (hf : ∀ t a, keepsFuses t (f t a)) : keepsFuses s (l.foldl f u) :=
  foldl_inv (fun t => keepsFuses s t) f l u h (fun t a ht => blown_trans ht (hf t a))

theorem oneCycle_blown {s : State} {f : State → State} (hf : ∀ u, keepsFuses u (f u)) : keepsFuses s (oneCycle f s) := by
  obtain ⟨c, g, -, he⟩ := oneCycle_cases f s
  rw [he]
  exact blown_trans (blown_of (modFlt_only ..) rfl) (blown_trans (hf _) (blown_of (modFlt_only ..) rfl))

theorem blown_some {s a t : State} (h : some a = some t) (k : keepsFuses s a) : keepsFuses s t := by
  injection h with h; subst h; exact k

/-- An update of the keeping store that leaves the blown bits alone. -/
theorem modKps_blown (s : State) (f : Kps → Kps) (h : (f s.kps).blown = s.kps.blown) : keepsFuses s (modKps s f) := by
  refine ⟨fun w b hb => ?_⟩
  simpa [fuseBlown, fuseOf, modKps, h] using hb

theorem modSector_blown (s : State) (p : Nat) (f : Sector → Sector) : keepsFuses s (modSector s p f) :=
  modKps_blown s (fun k => { k with sectors := Store.put Sector.reset k.sectors p (f (sectorOf s p)) }) rfl

theorem blown_raw_kps {s u : State} {x : Kps} (h : keepsFuses s u) (e : x.blown = u.kps.blown) :
    keepsFuses s { u with kps := x } :=
  blown_trans h (modKps_blown u (fun _ => x) e)

theorem secondPasses_blown (s : State) : keepsFuses s (secondPasses s) := by
  unfold secondPasses
  extract_lets v72
  refine blown_raw_kps ?_ rfl
  exact blown_refl _

theorem tick_blown (s : State) : keepsFuses s (tick s) := by
  unfold tick
  refine blown_ite ?_ ?_
  · split
    extract_lets v73
    refine blown_ite ?_ ?_
    · refine blown_then ?_ (secondPasses_blown _) rfl
      refine blown_trans ?_ (blown_of (raw_tim (onlyChanges_refl [.tim] _) rfl) rfl)
      exact blown_refl _
    · refine blown_trans ?_ (blown_of (raw_tim (onlyChanges_refl [.tim] _) rfl) rfl)
      exact blown_refl _
  · exact blown_refl _

theorem kpsTake_blown (s : State) : keepsFuses s (kpsTake s) := by
  unfold kpsTake
  extract_lets v5
  split
  · refine blown_ite ?_ ?_
    · extract_lets v6
      have hv6 : keepsFuses s v6 := by
        refine blown_then ?_ (modKps_blown _ _ (by rfl)) rfl
        refine blown_ite ?_ ?_
        · refine blown_trans ?_ (blown_of (raw_pwr (onlyChanges_refl [.pwr] _) rfl) rfl)
          exact blown_refl _
        · exact blown_refl _
      split
      · refine blown_then ?_ (blown_of (stageWork_only ..) rfl) rfl
        refine blown_then ?_ (modKps_blown _ _ (by rfl)) rfl
        refine blown_ite ?_ ?_
        · refine blown_trans ?_ (blown_of (raw_pwr (onlyChanges_refl [.pwr] _) rfl) rfl)
          exact blown_refl _
        · exact blown_refl _
      · exact hv6
    · exact blown_refl _
  · exact blown_refl _

theorem kpsRequest_blown (s : State) (o : KpsOp) : keepsFuses s (kpsRequest s o) := by
  unfold kpsRequest
  refine blown_then ?_ (kpsTake_blown _) rfl
  refine blown_then ?_ (modKps_blown _ _ (by rfl)) rfl
  exact blown_refl _

theorem cblRecord_blown (s : State) (kind : Nat) (number : Nat) (target : Nat) (outcome : Nat) : keepsFuses s (cblRecord s kind number target outcome) := by
  unfold cblRecord
  split
  refine blown_then ?_ (kpsRequest_blown _ _) rfl
  exact blown_refl _

theorem cblFind_blown (s : State) (kind : Nat) (target : Nat) (pixels : List (Nat × Nat)) : keepsFuses s (cblFind s kind target pixels) := by
  unfold cblFind
  extract_lets v7
  have hv7 : keepsFuses s v7 := by
    refine blown_then ?_ (blown_of (raise_only ..) rfl) rfl
    exact blown_refl _
  refine blown_ite ?_ ?_
  · refine blown_then ?_ (cblRecord_blown _ _ _ _ _) rfl
    refine blown_then ?_ (blown_of (setProposal_only ..) rfl) rfl
    refine blown_then ?_ (blown_of (modCbl_only ..) rfl) rfl
    exact hv7
  · refine blown_ite ?_ ?_
    · refine blown_then ?_ (blown_of (modCbl_only ..) rfl) rfl
      exact hv7
    · exact hv7

theorem cblDone_blown (s : State) (kind : Nat) (number : Nat) (target : Nat) (outcome : Nat) : keepsFuses s (cblDone s kind number target outcome) := by
  unfold cblDone
  extract_lets v8 v9
  have hv9 : keepsFuses s v9 := by
    refine blown_then ?_ (blown_of (modCbl_only ..) rfl) rfl
    exact blown_refl _
  refine blown_then ?_ (cblRecord_blown _ _ _ _ _) rfl
  exact hv9

theorem cblClose_blown (s : State) (kind : Nat) (outcome : Nat) : keepsFuses s (cblClose s kind outcome) := by
  unfold cblClose
  split
  · exact blown_refl _
  · refine blown_then ?_ (cblRecord_blown _ _ _ _ _) rfl
    refine blown_then ?_ (blown_of (modCbl_only ..) rfl) rfl
    refine blown_then ?_ (blown_of (setProposal_only ..) rfl) rfl
    exact blown_refl _

theorem sectorCandidate_blown (s : State) (p : Nat) : keepsFuses s (sectorCandidate s p) := by
  unfold sectorCandidate
  extract_lets v10
  refine blown_ite ?_ ?_
  · exact blown_refl _
  · refine blown_ite ?_ ?_
    · refine blown_then ?_ (kpsRequest_blown _ _) rfl
      refine blown_then ?_ (cblFind_blown _ _ _ _) rfl
      refine blown_then ?_ (modSector_blown _ _ _) rfl
      exact blown_refl _
    · refine blown_then ?_ (cblFind_blown _ _ _ _) rfl
      refine blown_then ?_ (modSector_blown _ _ _) rfl
      exact blown_refl _

theorem lastCorrected_blown (s : State) (p : Nat) (injected : Bool) : keepsFuses s (lastCorrected s p injected) := by
  unfold lastCorrected
  extract_lets v11 v12 v13
  have hv11 : keepsFuses s v11 := by
    refine blown_then ?_ (blown_of (raiseInj_only ..) rfl) rfl
    exact blown_refl _
  have hv12 : keepsFuses s v12 := by
    refine blown_then ?_ (modSector_blown _ _ _) rfl
    exact hv11
  have hv13 : keepsFuses s v13 := by
    refine blown_then ?_ (modKps_blown _ _ (by rfl)) rfl
    exact hv12
  refine blown_ite ?_ ?_
  · exact hv13
  · refine blown_then ?_ (kpsRequest_blown _ _) rfl
    exact hv13

theorem lastUncorrectable_blown (s : State) (p : Nat) : keepsFuses s (lastUncorrectable s p) := by
  unfold lastUncorrectable
  refine blown_then ?_ (sectorCandidate_blown _ _) rfl
  refine blown_then ?_ (blown_of (raise_only ..) rfl) rfl
  exact blown_refl _

theorem programmePhysical_blown (s : State) (p : Nat) (o : Nat) (bs : List Byte) : keepsFuses s (programmePhysical s p o bs) := by
  unfold programmePhysical
  extract_lets v14 v15 v16 v17 v18 v19 v20 v21
  have hv19 : keepsFuses s v19 := by
    refine blown_then ?_ (modKps_blown _ _ (by rfl)) rfl
    exact blown_refl _
  have hv20 : keepsFuses s v20 := by
    refine blown_ite ?_ ?_
    · refine blown_then ?_ (blown_of (spendInj_only ..) rfl) rfl
      exact hv19
    · exact hv19
  have hv21 : keepsFuses s v21 := by
    refine blown_then ?_ (modSector_blown _ _ _) rfl
    exact hv20
  refine blown_ite ?_ ?_
  · refine blown_then ?_ (sectorCandidate_blown _ _) rfl
    exact hv21
  · exact hv21

theorem programme_blown (s : State) (a : Nat) (bs : List Byte) : keepsFuses s (programme s a bs) := by
  unfold programme
  split
  · refine blown_then ?_ (programmePhysical_blown _ _ _ _) rfl
    exact blown_refl _
  · exact blown_refl _

theorem swapSector_blown (s : State) (p : Nat) : keepsFuses s (swapSector s p) := by
  unfold swapSector
  split
  · exact blown_refl _
  · extract_lets v23 v24 v25 v26 v27 v28
    have hv26 : keepsFuses s v26 := by
      refine blown_then ?_ (programmePhysical_blown _ _ _ _) rfl
      exact blown_refl _
    have hv27 : keepsFuses s v27 := by
      refine blown_then ?_ (modKps_blown _ _ (by rfl)) rfl
      exact hv26
    have hv28 : keepsFuses s v28 := by
      refine blown_then ?_ (modSector_blown _ _ _) rfl
      exact hv27
    refine blown_then ?_ (blown_of (spareLevel_only ..) rfl) rfl
    refine blown_then ?_ (cblDone_blown _ _ _ _ _) rfl
    refine blown_then ?_ (modSector_blown _ _ _) rfl
    exact hv28

theorem requestCheckpoint_blown (s : State) : keepsFuses s (requestCheckpoint s) := by
  unfold requestCheckpoint
  refine blown_ite ?_ ?_
  · exact blown_refl _
  · refine foldl_blown ?_ (fun t22 a22 => ?_)
    · refine blown_trans ?_ (blown_of (raw_pxc (onlyChanges_refl [.pxc] _) rfl) rfl)
      exact blown_refl _
    · refine blown_then ?_ (kpsRequest_blown _ _) rfl
      exact blown_refl _

theorem checkpointEnd_blown (s : State) : keepsFuses s (checkpointEnd s) := by
  unfold checkpointEnd
  extract_lets v29 v30 v31
  have hv31 : keepsFuses s v31 := by
    refine blown_then ?_ (modKps_blown _ _ (by rfl)) rfl
    exact blown_refl _
  refine blown_then ?_ (kpsRequest_blown _ _) rfl
  refine blown_trans ?_ (blown_of (raw_pxc (onlyChanges_refl [.pxc] _) rfl) rfl)
  exact hv31

theorem opProgramme_blown (s : State) (o : KpsOp) : keepsFuses s (opProgramme s o) := by
  unfold opProgramme
  split
  · refine blown_then ?_ (programme_blown _ _ _) rfl
    exact blown_refl _
  · extract_lets v33
    refine blown_then ?_ (programme_blown _ _ _) rfl
    exact blown_refl _
  · extract_lets v34
    have hv34 : keepsFuses s v34 := by
      refine blown_then ?_ (modKps_blown _ _ (by rfl)) rfl
      exact blown_refl _
    refine blown_then ?_ (programme_blown _ _ _) rfl
    exact hv34
  · refine blown_then ?_ (programme_blown _ _ _) rfl
    exact blown_refl _
  · refine blown_then ?_ (programme_blown _ _ _) rfl
    exact blown_refl _
  · split
    · exact blown_refl _
    · extract_lets v40 v41
      refine blown_then ?_ (programme_blown _ _ _) rfl
      exact blown_refl _
  · refine blown_then ?_ (programmePhysical_blown _ _ _ _) rfl
    exact blown_refl _
  · refine blown_then ?_ (swapSector_blown _ _) rfl
    exact blown_refl _
  · exact blown_refl _

theorem opWritten_blown (s : State) (o : KpsOp) : keepsFuses s (opWritten s o) := by
  unfold opWritten
  extract_lets v32
  have hv32 : keepsFuses s v32 := by
    refine blown_then ?_ (opProgramme_blown _ _) rfl
    exact blown_refl _
  split
  · refine blown_then ?_ (modKps_blown _ _ (by rfl)) rfl
    refine blown_then ?_ (opProgramme_blown _ _) rfl
    exact blown_refl _
  · refine blown_trans ?_ (blown_of (raw_saf (onlyChanges_refl [.saf] _) rfl) rfl)
    refine blown_then ?_ (modKps_blown _ _ (by rfl)) rfl
    refine blown_then ?_ (opProgramme_blown _ _) rfl
    exact blown_refl _
  · refine blown_ite ?_ ?_
    · refine blown_then ?_ (checkpointEnd_blown _) rfl
      refine blown_then ?_ (opProgramme_blown _ _) rfl
      exact blown_refl _
    · refine blown_then ?_ (opProgramme_blown _ _) rfl
      exact blown_refl _
  · refine blown_ite ?_ ?_
    · refine blown_then ?_ (blown_of (completeWord_only ..) rfl) rfl
      refine blown_then ?_ (opProgramme_blown _ _) rfl
      exact blown_refl _
    · refine blown_then ?_ (opProgramme_blown _ _) rfl
      exact blown_refl _
  · exact hv32

theorem lastView_blown (s : State) : keepsFuses s (lastView s) := by
  unfold lastView
  split
  · exact blown_refl _
  · refine blown_then ?_ (opProgramme_blown _ _) rfl
    refine blown_then ?_ (modKps_blown _ _ (by rfl)) rfl
    exact blown_refl _

theorem lastTouch_blown (s : State) (a : Nat) (n : Nat) : keepsFuses s (lastTouch s a n) := by
  unfold lastTouch
  extract_lets v35 v36 v37 v38 v39
  have hv35 : keepsFuses s v35 := by
    refine blown_then ?_ (lastView_blown _) rfl
    exact blown_refl _
  have hv39 : keepsFuses s v39 := by
    refine foldl_blown ?_ (fun t42 a42 => ?_)
    · refine foldl_blown ?_ (fun t43 a43 => ?_)
      · exact blown_refl _
      · refine blown_then ?_ (lastCorrected_blown _ _ _) rfl
        exact blown_refl _
    · refine blown_then ?_ (lastUncorrectable_blown _ _) rfl
      exact blown_refl _
  refine blown_then ?_ (blown_of (raiseTimes_only ..) rfl) rfl
  exact hv39

theorem lastRead_blown (s : State) (a : Nat) (n : Nat) : keepsFuses s (lastRead s a n).2 := by
  unfold lastRead
  dsimp -zeta only
  refine blown_then ?_ (lastTouch_blown _ _ _) rfl
  exact blown_refl _

theorem dropLastWrite_blown (s : State) (ring : Nat) (slot : Nat) : keepsFuses s (dropLastWrite s ring slot) := by
  unfold dropLastWrite
  refine blown_then ?_ (modKps_blown _ _ (by rfl)) rfl
  exact blown_refl _

theorem opLost_blown (s : State) (o : KpsOp) : keepsFuses s (opLost s o) := by
  unfold opLost
  split
  · refine blown_then ?_ (kpsRequest_blown _ _) rfl
    refine blown_then ?_ (modKps_blown _ _ (by rfl)) rfl
    exact blown_refl _
  · refine blown_then ?_ (blown_of (completeWord_only ..) rfl) rfl
    refine blown_then ?_ (dropLastWrite_blown _ _ _) rfl
    exact blown_refl _
  · refine blown_trans ?_ (blown_of (raw_pxc (onlyChanges_refl [.pxc] _) rfl) rfl)
    exact blown_refl _
  · refine blown_then ?_ (modKps_blown _ _ (by rfl)) rfl
    refine blown_trans ?_ (blown_of (raw_pxc (onlyChanges_refl [.pxc] _) rfl) rfl)
    exact blown_refl _
  · refine blown_then ?_ (cblDone_blown _ _ _ _ _) rfl
    exact blown_refl _
  · exact blown_refl _

theorem opFailed_blown (s : State) (o : KpsOp) : keepsFuses s (opFailed s o) := by
  unfold opFailed
  extract_lets v44
  have hv44 : keepsFuses s v44 := by
    refine blown_then ?_ (blown_of (raise_only ..) rfl) rfl
    exact blown_refl _
  split
  · refine blown_then ?_ (opLost_blown _ _) rfl
    exact hv44
  · extract_lets v0
    have hv0 : keepsFuses s v0 := by
      refine blown_then ?_ (modSector_blown _ _ _) rfl
      refine blown_then ?_ (cblFind_blown _ _ _ _) rfl
      exact hv44
    refine blown_ite ?_ ?_
    · refine blown_then ?_ (opWritten_blown _ _) rfl
      refine blown_then ?_ (swapSector_blown _ _) rfl
      exact hv0
    · refine blown_then ?_ (opLost_blown _ _) rfl
      exact hv0

theorem kpsEnd_blown (s : State) (ok : Bool) : keepsFuses s (kpsEnd s ok) := by
  unfold kpsEnd
  split
  · exact blown_refl _
  · exact blown_refl _
  · extract_lets v0 v1 v2
    have hv0 : keepsFuses s v0 := by
      refine blown_then ?_ (modKps_blown _ _ (by rfl)) rfl
      exact blown_refl _
    have hv1 : keepsFuses s v1 := by
      refine blown_ite ?_ ?_
      · refine blown_then ?_ (opWritten_blown _ _) rfl
        exact hv0
      · refine blown_then ?_ (opFailed_blown _ _) rfl
        exact hv0
    have hv2 : keepsFuses s v2 := by
      dsimp -zeta only [v2]
      split
      · refine blown_then ?_ (blown_of (calibSectorDone_only ..) rfl) rfl
        refine blown_ite ?_ ?_
        · refine blown_then ?_ (opWritten_blown _ _) rfl
          exact hv0
        · refine blown_then ?_ (opFailed_blown _ _) rfl
          exact hv0
      · exact hv1
    refine blown_then ?_ (kpsTake_blown _) rfl
    refine blown_then ?_ (blown_of (lastRests_only ..) rfl) rfl
    exact hv2

theorem kpsScrub_blown (s : State) (found : Bool) (bad : Option Nat) : keepsFuses s (kpsScrub s found bad) := by
  unfold kpsScrub
  refine blown_ite ?_ ?_
  · exact blown_refl _
  · extract_lets v48 v49 v50 v51 v52 v53 v54
    have hv51 : keepsFuses s v51 := by
      dsimp -zeta only [v51]
      split
      · refine blown_then ?_ (modKps_blown _ _ (by rfl)) rfl
        exact blown_refl _
      · exact blown_refl _
    have hv54 : keepsFuses s v54 := by
      refine blown_then ?_ (modKps_blown _ _ (by rfl)) rfl
      exact hv51
    refine blown_ite ?_ ?_
    · exact hv54
    · refine blown_then ?_ (modSector_blown _ _ _) rfl
      refine blown_ite ?_ ?_
      · refine blown_then ?_ (lastUncorrectable_blown _ _) rfl
        refine blown_ite ?_ ?_
        · refine blown_then ?_ (sectorCandidate_blown _ _) rfl
          refine blown_ite ?_ ?_
          · refine blown_then ?_ (lastCorrected_blown _ _ _) rfl
            exact hv54
          · exact hv54
        · refine blown_ite ?_ ?_
          · refine blown_then ?_ (lastCorrected_blown _ _ _) rfl
            exact hv54
          · exact hv54
      · refine blown_ite ?_ ?_
        · refine blown_then ?_ (sectorCandidate_blown _ _) rfl
          refine blown_ite ?_ ?_
          · refine blown_then ?_ (lastCorrected_blown _ _ _) rfl
            exact hv54
          · exact hv54
        · refine blown_ite ?_ ?_
          · refine blown_then ?_ (lastCorrected_blown _ _ _) rfl
            exact hv54
          · exact hv54

theorem fuseProgramWrite_blown (s : State) (v : Word) : keepsFuses s (fuseProgramWrite s v) := by
  unfold fuseProgramWrite
  extract_lets v55 v56
  refine blown_ite ?_ ?_
  · refine blown_then ?_ (modKps_blown _ _ (by rfl)) rfl
    exact blown_refl _
  · refine blown_then ?_ (modKps_blown _ _ (by rfl)) rfl
    exact blown_refl _

theorem fuseEnd_blown (s : State) (ok : Bool) : keepsFuses s (fuseEnd s ok) := by
  unfold fuseEnd
  split
  · exact blown_refl _
  · rename_i x w b e
    extract_lets s1
    have h1 : keepsFuses s s1 := modKps_blown _ _ rfl
    split
    · refine blown_trans h1 ⟨fun k c hk => ?_⟩
      unfold fuseBlown fuseOf at hk ⊢
      by_cases e : k = w
      · subst e
        simp only [modKps, Store.get_put_same]
        split at hk <;> simp_all [bit]
        exact hk.imp_right Or.inl
      · simpa only [modKps, Store.get_put_other _ _ _ _ _ e] using hk
    · exact blown_trans h1 (modKps_blown _ _ rfl)

theorem windowWord_blown (s : State) (hi : Bool) : keepsFuses s (windowWord s hi).2 := by
  unfold windowWord
  extract_lets v58
  split
  · split
    split
    · dsimp -zeta only
      refine blown_snd (by assumption) ?_
      refine blown_then ?_ (lastRead_blown _ _ _) rfl
      exact blown_refl _
    · dsimp -zeta only
      refine blown_then ?_ (modKps_blown _ _ (by rfl)) rfl
      refine blown_snd (by assumption) ?_
      refine blown_then ?_ (lastRead_blown _ _ _) rfl
      exact blown_refl _
  · dsimp -zeta only
    refine blown_then ?_ (modKps_blown _ _ (by rfl)) rfl
    exact blown_refl _

theorem windowReadHiOp_blown (s : State) : keepsFuses s (windowReadHiOp s).2 := by
  unfold windowReadHiOp
  split
  dsimp -zeta only
  refine blown_then ?_ (blown_of (setRegAt_only ..) rfl) rfl
  refine blown_snd (by assumption) ?_
  refine blown_then ?_ (windowWord_blown _ _) rfl
  exact blown_refl _

theorem bankCandidate_blown (s : State) (b : Nat) : keepsFuses s (bankCandidate s b) := by
  unfold bankCandidate
  extract_lets v6
  refine blown_ite ?_ ?_
  · refine blown_then ?_ (kpsRequest_blown _ _) rfl
    refine blown_then ?_ (blown_of (modBank_only ..) rfl) rfl
    exact blown_refl _
  · refine blown_ite ?_ ?_
    · exact blown_refl _
    · refine blown_ite ?_ ?_
      · refine blown_then ?_ (blown_of (raise_only ..) rfl) rfl
        refine blown_then ?_ (cblFind_blown _ _ _ _) rfl
        refine blown_then ?_ (blown_of (modBank_only ..) rfl) rfl
        exact blown_refl _
      · refine blown_ite ?_ ?_
        · refine blown_then ?_ (blown_of (modLmm_only ..) rfl) rfl
          refine blown_then ?_ (cblFind_blown _ _ _ _) rfl
          refine blown_then ?_ (blown_of (modBank_only ..) rfl) rfl
          exact blown_refl _
        · refine blown_then ?_ (cblFind_blown _ _ _ _) rfl
          refine blown_then ?_ (blown_of (modBank_only ..) rfl) rfl
          exact blown_refl _

theorem corrected_blown (s : State) (p : Nat) (scrub : Bool) : keepsFuses s (corrected s p scrub) := by
  unfold corrected
  extract_lets v7 v8
  split
  extract_lets v9 v10 v11 v12
  have hv9 : keepsFuses s v9 := by
    refine blown_then ?_ (blown_of (modLmm_only ..) rfl) rfl
    refine blown_snd (by assumption) ?_
    refine blown_then ?_ (blown_of (addressOf_only ..) rfl) rfl
    refine blown_then ?_ (blown_of (raiseInj_only ..) rfl) rfl
    exact blown_refl _
  have hv10 : keepsFuses s v10 := by
    refine blown_then ?_ (blown_of (modBank_only ..) rfl) rfl
    exact hv9
  have hv11 : keepsFuses s v11 := by
    refine blown_ite ?_ ?_
    · refine blown_then ?_ (blown_of (modLmm_only ..) rfl) rfl
      exact hv10
    · exact hv10
  refine blown_ite ?_ ?_
  · refine blown_then ?_ (bankCandidate_blown _ _) rfl
    exact hv11
  · exact hv11

theorem repairWord_blown (s : State) (w : Nat) : keepsFuses s (repairWord s w) := by
  unfold repairWord
  extract_lets v8
  split
  · refine blown_then ?_ (blown_of (flatSpoilt_only ..) rfl) rfl
    exact blown_refl _
  · refine blown_then ?_ (blown_of (flatSpoilt_only ..) rfl) rfl
    exact blown_refl _
  · refine blown_then ?_ (blown_of (wordWritten_only ..) rfl) rfl
    refine blown_then ?_ (blown_of (memWrite_only ..) rfl) rfl
    exact blown_refl _
  · refine blown_then ?_ (blown_of (wordWritten_only ..) rfl) rfl
    refine blown_then ?_ (blown_of (memWrite_only ..) rfl) rfl
    exact blown_refl _
  · refine blown_ite ?_ ?_
    · refine blown_then ?_ (blown_of (wordWritten_only ..) rfl) rfl
      refine blown_then ?_ (blown_of (memWrite_only ..) rfl) rfl
      exact blown_refl _
    · exact blown_refl _
  · refine blown_then ?_ (blown_of (wordWritten_only ..) rfl) rfl
    refine blown_then ?_ (blown_of (journalSpoilt_only ..) rfl) rfl
    exact blown_refl _
  · refine blown_then ?_ (blown_of (runSpoilt_only ..) rfl) rfl
    exact blown_refl _
  · exact blown_refl _

theorem uncorrectable_blown (s : State) (b : Nat) (w : Option Nat) (used : Bool) (injected : Bool) : keepsFuses s (uncorrectable s b w used injected) := by
  unfold uncorrectable
  split
  · extract_lets v19 v20 v21
    have hv20 : keepsFuses s v20 := by
      refine blown_then ?_ (blown_of (raiseInj_only ..) rfl) rfl
      exact blown_refl _
    have hv21 : keepsFuses s v21 := by
      refine blown_then ?_ (blown_of (modLmm_only ..) rfl) rfl
      exact hv20
    refine blown_then ?_ (bankCandidate_blown _ _) rfl
    refine blown_then ?_ (repairWord_blown _ _) rfl
    refine blown_then ?_ (blown_of (workSpoilt_only ..) rfl) rfl
    exact hv21
  · split
    split
    extract_lets v33
    have hv33 : keepsFuses s v33 := by
      refine blown_then ?_ (blown_of (raiseInj_only ..) rfl) rfl
      refine blown_snd (by assumption) ?_
      refine blown_then ?_ (blown_of (drawBelow_only ..) rfl) rfl
      refine blown_snd (by assumption) ?_
      refine blown_then ?_ (blown_of (drawBelow_only ..) rfl) rfl
      exact blown_refl _
    refine blown_then ?_ (bankCandidate_blown _ _) rfl
    refine blown_then ?_ (blown_of (modLmm_only ..) rfl) rfl
    exact hv33

theorem readChecks_blown (s : State) (reader : Option Head) (used : Bool) (w : Nat) : keepsFuses s (readChecks s reader used w) := by
  unfold readChecks
  extract_lets v22
  split
  · refine blown_then ?_ (uncorrectable_blown _ _ _ _ _) rfl
    exact blown_refl _
  · refine blown_then ?_ (corrected_blown _ _ _) rfl
    exact blown_refl _
  · refine blown_ite ?_ ?_
    · refine blown_then ?_ (uncorrectable_blown _ _ _ _ _) rfl
      exact blown_refl _
    · exact blown_refl _

theorem clientRead_blown (s : State) (reader : Option Head) (ranges : List (Nat × Nat)) : keepsFuses s (clientRead s reader ranges) := by
  unfold clientRead
  refine foldl_blown ?_ (fun t24 a24 => ?_)
  · exact blown_refl _
  · refine blown_then ?_ (readChecks_blown _ _ _ _) rfl
    exact blown_refl _

theorem clientWrite_blown (s : State) (a : Nat) (bs : List Byte) : keepsFuses s (clientWrite s a bs) := by
  unfold clientWrite
  refine blown_ite ?_ ?_
  · exact blown_refl _
  · refine blown_then ?_ (blown_of (clientPut_only ..) rfl) rfl
    refine foldl_blown ?_ (fun t31 a31 => ?_)
    · exact blown_refl _
    · refine blown_then ?_ (readChecks_blown _ _ _ _) rfl
      exact blown_refl _

theorem scrubBad_blown (s : State) (p : Nat) (injected : Bool) : keepsFuses s (scrubBad s p injected) := by
  unfold scrubBad
  refine blown_then ?_ (blown_of (modLmm_only ..) rfl) rfl
  refine blown_then ?_ (uncorrectable_blown _ _ _ _ _) rfl
  exact blown_refl _

theorem scrubRead_blown (s : State) (p : Nat) (errors : List (Nat × Bool)) : keepsFuses s (scrubRead s p errors) := by
  unfold scrubRead
  extract_lets v34
  split
  · refine blown_then ?_ (scrubBad_blown _ _ _) rfl
    exact blown_refl _
  · refine blown_then ?_ (scrubBad_blown _ _ _) rfl
    exact blown_refl _
  · refine blown_then ?_ (corrected_blown _ _ _) rfl
    exact blown_refl _
  · refine blown_then ?_ (corrected_blown _ _ _) rfl
    exact blown_refl _
  · refine blown_ite ?_ ?_
    · refine blown_then ?_ (scrubBad_blown _ _ _) rfl
      exact blown_refl _
    · exact blown_refl _

theorem scrubOne_blown (s : State) (errors : List (Nat × Bool)) : keepsFuses s (scrubOne s errors) := by
  unfold scrubOne
  extract_lets v35 v36 v37 v38 v39
  have hv36 : keepsFuses s v36 := by
    refine blown_ite ?_ ?_
    · refine blown_then ?_ (blown_of (passEnd_only ..) rfl) rfl
      exact blown_refl _
    · exact blown_refl _
  have hv37 : keepsFuses s v37 := by
    refine blown_then ?_ (scrubRead_blown _ _ _) rfl
    exact hv36
  have hv39 : keepsFuses s v39 := by
    refine blown_then ?_ (blown_of (modLmm_only ..) rfl) rfl
    exact hv37
  refine blown_ite ?_ ?_
  · refine blown_then ?_ (blown_of (passEnd_only ..) rfl) rfl
    exact hv39
  · exact hv39

theorem scrubMany_blown (s : State) (errors : List (Nat × Bool)) (x1 : Nat) : keepsFuses s (scrubMany s errors x1) := by
  induction x1 generalizing s with
  | zero => exact blown_refl _
  | succ n ih =>
    unfold scrubMany
    repeat first
      | (with_reducible exact blown_refl _)
      | (with_reducible refine blown_trans ?_ (ih _))
      | (with_reducible refine blown_then ?_ (scrubOne_blown _ _) rfl)
      | (with_reducible refine blown_ite ?_ ?_)
      | split
      | dsimp only

theorem periodStart_blown (s : State) (used : List (Nat × Nat)) (errors : List (Nat × Bool)) : keepsFuses s (periodStart s used errors) := by
  unfold periodStart
  extract_lets v40
  have hv40 : keepsFuses s v40 := by
    refine blown_then ?_ (blown_of (modLmm_only ..) rfl) rfl
    exact blown_refl _
  refine blown_ite ?_ ?_
  · refine blown_then ?_ (scrubMany_blown _ _ _) rfl
    exact hv40
  · exact hv40

theorem retireFinish_blown (s : State) : keepsFuses s (retireFinish s) := by
  unfold retireFinish
  split
  · exact blown_refl _
  · refine blown_ite ?_ ?_
    · extract_lets v42 v43
      have hv42 : keepsFuses s v42 := by
        refine blown_then ?_ (blown_of (modBank_only ..) rfl) rfl
        exact blown_refl _
      have hv43 : keepsFuses s v43 := by
        refine blown_then ?_ (blown_of (modBank_only ..) rfl) rfl
        exact hv42
      refine blown_then ?_ (kpsRequest_blown _ _) rfl
      refine blown_then ?_ (cblDone_blown _ _ _ _ _) rfl
      refine blown_then ?_ (blown_of (modLmm_only ..) rfl) rfl
      exact hv43
    · exact blown_refl _

theorem retireSwitch_blown (s : State) (h : Head) : keepsFuses s (retireSwitch s h) := by
  unfold retireSwitch
  split
  · exact blown_refl _
  · refine blown_ite ?_ ?_
    · refine blown_then ?_ (retireFinish_blown _) rfl
      refine blown_then ?_ (blown_of (modLmm_only ..) rfl) rfl
      exact blown_refl _
    · exact blown_refl _

theorem copierReads_blown (s : State) (b : Nat) : keepsFuses s (copierReads s b) := by
  unfold copierReads
  refine foldl_blown ?_ (fun t44 a44 => ?_)
  · exact blown_refl _
  · refine blown_then ?_ (readChecks_blown _ _ _ _) rfl
    exact blown_refl _

theorem copyEnd_blown (s : State) : keepsFuses s (copyEnd s) := by
  unfold copyEnd
  split
  · exact blown_refl _
  · refine blown_ite ?_ ?_
    · exact blown_refl _
    · extract_lets v46
      have hv46 : keepsFuses s v46 := by
        refine blown_then ?_ (blown_of (copierWrites_only ..) rfl) rfl
        refine blown_then ?_ (copierReads_blown _ _) rfl
        exact blown_refl _
      refine blown_then ?_ (retireFinish_blown _) rfl
      refine blown_then ?_ (blown_of (modLmm_only ..) rfl) rfl
      exact hv46

theorem buildMask_blown (s : State) (h : Head) (emission : Int) : keepsFuses s (buildMask s h emission) := by
  unfold buildMask
  refine blown_ite ?_ ?_
  · exact blown_refl _
  · extract_lets v47 v48 v49 v50 v51 v52 v53 v54 v55 v56 v57 v58 v59
    have hv56 : keepsFuses s v56 := by
      refine foldl_blown ?_ (fun t61 a61 => ?_)
      · exact blown_refl _
      · refine blown_then ?_ (clientWrite_blown _ _ _) rfl
        exact blown_refl _
    have hv59 : keepsFuses s v59 := by
      refine blown_then ?_ (blown_of (modShd_only ..) rfl) rfl
      exact hv56
    refine blown_then ?_ (blown_of (setLevel_only ..) rfl) rfl
    refine blown_then ?_ (blown_of (setLevel_only ..) rfl) rfl
    exact hv59

theorem transferEnd_blown (s : State) (h : Head) (csn : Word) (i : Nat) (data : HostRead) : keepsFuses s (transferEnd s h csn i data) := by
  unfold transferEnd
  split
  · exact blown_refl _
  · refine blown_ite ?_ ?_
    · exact blown_refl _
    · split
      · refine blown_ite ?_ ?_
        · exact blown_refl _
        · extract_lets v103 v104
          have hv104 : keepsFuses s v104 := by
            refine blown_then ?_ (clientWrite_blown _ _ _) rfl
            exact blown_refl _
          refine blown_ite ?_ ?_
          · refine blown_then ?_ (blown_of (refuseSet_only ..) rfl) rfl
            refine blown_then ?_ (blown_of (raise_only ..) rfl) rfl
            exact hv104
          · refine blown_ite ?_ ?_
            · refine blown_then ?_ (blown_of (setMoved_only ..) rfl) rfl
              refine blown_then ?_ (blown_of (mapSet_only ..) rfl) rfl
              exact hv104
            · refine blown_then ?_ (blown_of (mapSet_only ..) rfl) rfl
              exact hv104
      · refine blown_ite ?_ ?_
        · exact blown_refl _
        · refine blown_then ?_ (blown_of (refuseSet_only ..) rfl) rfl
          refine blown_then ?_ (blown_of (hostFails_only ..) rfl) rfl
          exact blown_refl _
      · refine blown_ite ?_ ?_
        · exact blown_refl _
        · refine blown_then ?_ (blown_of (refuseSet_only ..) rfl) rfl
          exact blown_refl _
      · exact blown_refl _

theorem replayAll_blown (s : State) (h : Head) (t : Nat) : keepsFuses s (replayAll s h t) := by
  unfold replayAll
  extract_lets v8
  refine blown_ite ?_ ?_
  · refine blown_then ?_ (blown_of (modTile_only ..) rfl) rfl
    refine foldl_blown ?_ (fun t9 a9 => ?_)
    · refine blown_then ?_ (clientRead_blown _ _ _) rfl
      exact blown_refl _
    · refine blown_then ?_ (blown_of (emitPacket_only ..) rfl) rfl
      exact blown_refl _
  · exact blown_refl _

theorem autoHusk_blown (s : State) (h : Head) (t : Nat) : keepsFuses s (autoHusk s h t) := by
  unfold autoHusk
  refine blown_ite ?_ ?_
  · refine foldl_blown ?_ (fun t21 a21 => ?_)
    · exact blown_refl _
    · refine blown_ite ?_ ?_
      · exact blown_refl _
      · split
        refine blown_then ?_ (blown_of (sendPackets_only ..) rfl) rfl
        refine blown_snd (by assumption) ?_
        refine blown_then ?_ (blown_of (huskOffset_only ..) rfl) rfl
        exact blown_refl _
  · exact blown_refl _

theorem ackRecord_blown (s : State) (h : Head) (t : Nat) (r : TileRecord) : keepsFuses s (ackRecord s h t r) := by
  unfold ackRecord
  split
  extract_lets v1
  have hv1 : keepsFuses s v1 := by
    refine blown_then ?_ (blown_of (pauseDue_only ..) rfl) rfl
    refine blown_snd (by assumption) ?_
    refine blown_then ?_ (blown_of (recordIn_only ..) rfl) rfl
    exact blown_refl _
  refine blown_ite ?_ ?_
  · exact hv1
  · refine blown_ite ?_ ?_
    · refine blown_then ?_ (blown_of (pump_only ..) rfl) rfl
      refine blown_then ?_ (replayAll_blown _ _ _) rfl
      refine blown_then ?_ (blown_of (modTile_only ..) rfl) rfl
      refine blown_ite ?_ ?_
      · refine blown_then ?_ (blown_of (modTile_only ..) rfl) rfl
        exact hv1
      · exact hv1
    · refine blown_then ?_ (blown_of (pump_only ..) rfl) rfl
      refine blown_ite ?_ ?_
      · refine blown_then ?_ (blown_of (modTile_only ..) rfl) rfl
        exact hv1
      · exact hv1

theorem replayTimer_blown (s : State) (h : Head) (t : Nat) : keepsFuses s (replayTimer s h t) := by
  unfold replayTimer
  refine blown_ite ?_ ?_
  · exact blown_refl _
  · refine blown_then ?_ (replayAll_blown _ _ _) rfl
    exact blown_refl _

theorem statusRecord_blown (s : State) (h : Head) (t : Nat) (r : TileRecord) : keepsFuses s (statusRecord s h t r) := by
  unfold statusRecord
  split
  refine blown_ite ?_ ?_
  · refine blown_then ?_ (blown_of (pauseDue_only ..) rfl) rfl
    refine blown_snd (by assumption) ?_
    refine blown_then ?_ (blown_of (recordIn_only ..) rfl) rfl
    exact blown_refl _
  · extract_lets v3 v4 v5 v6 v7 v8 v9 v10 v11
    have hv8 : keepsFuses s v8 := by
      refine blown_then ?_ (blown_of (modTile_only ..) rfl) rfl
      refine blown_snd (by assumption) ?_
      refine blown_then ?_ (blown_of (recordIn_only ..) rfl) rfl
      exact blown_refl _
    have hv11 : keepsFuses s v11 := by
      refine blown_then ?_ (blown_of (pauseDue_only ..) rfl) rfl
      refine blown_ite ?_ ?_
      · refine blown_then ?_ (blown_of (raise_only ..) rfl) rfl
        exact hv8
      · exact hv8
    refine blown_then ?_ (autoHusk_blown _ _ _) rfl
    refine blown_then ?_ (blown_of (configIfAsked_only ..) rfl) rfl
    exact hv11

theorem healthRead_blown (s : State) (h : Head) (ps : List Nat) : keepsFuses s (healthRead s h ps) := by
  unfold healthRead
  refine blown_then ?_ (clientRead_blown _ _ _) rfl
  exact blown_refl _

theorem writeHealth_blown (s : State) (h : Head) (p : Nat) (v : Nat) : keepsFuses s (writeHealth s h p v) := by
  unfold writeHealth
  refine blown_then ?_ (blown_of (putHealth_only ..) rfl) rfl
  refine blown_then ?_ (healthRead_blown _ _ _) rfl
  exact blown_refl _

theorem pixelPropose_blown (s : State) (h : Head) : keepsFuses s (pixelPropose s h) := by
  unfold pixelPropose
  extract_lets v19
  refine blown_ite ?_ ?_
  · refine blown_then ?_ (cblFind_blown _ _ _ _) rfl
    refine blown_then ?_ (blown_of (modPxc_only ..) rfl) rfl
    exact blown_refl _
  · exact blown_refl _

theorem pixelCandidate_blown (s : State) (h : Head) (p : Nat) (st : Nat) : keepsFuses s (pixelCandidate s h p st) := by
  unfold pixelCandidate
  split
  · refine blown_then ?_ (cblFind_blown _ _ _ _) rfl
    refine blown_then ?_ (blown_of (modPxc_only ..) rfl) rfl
    exact blown_refl _
  · extract_lets v27
    have hv27 : keepsFuses s v27 := by
      refine blown_then ?_ (blown_of (modPxc_only ..) rfl) rfl
      exact blown_refl _
    refine blown_ite ?_ ?_
    · refine blown_then ?_ (pixelPropose_blown _ _) rfl
      exact hv27
    · refine blown_then ?_ (blown_of (raise_only ..) rfl) rfl
      exact hv27
  · refine blown_then ?_ (cblFind_blown _ _ _ _) rfl
    exact blown_refl _

theorem applyProbe_blown (s : State) (h : Head) (t : Nat) (x : Nat) (y : Nat) (res : Nat) : keepsFuses s (applyProbe s h t x y res) := by
  unfold applyProbe
  extract_lets v20 v21 v22 v23
  have hv21 : keepsFuses s v21 := by
    refine blown_then ?_ (healthRead_blown _ _ _) rfl
    exact blown_refl _
  refine blown_ite ?_ ?_
  · exact hv21
  · refine blown_ite ?_ ?_
    · refine blown_then ?_ (pixelCandidate_blown _ _ _ _) rfl
      refine blown_ite ?_ ?_
      · refine blown_then ?_ (blown_of (raise_only ..) rfl) rfl
        refine blown_then ?_ (blown_of (raise_only ..) rfl) rfl
        refine blown_ite ?_ ?_
        · refine blown_then ?_ (healthRead_blown _ _ _) rfl
          refine blown_then ?_ (blown_of (putHealth_only ..) rfl) rfl
          exact hv21
        · refine blown_then ?_ (blown_of (putHealth_only ..) rfl) rfl
          exact hv21
      · refine blown_then ?_ (blown_of (raise_only ..) rfl) rfl
        refine blown_ite ?_ ?_
        · refine blown_then ?_ (healthRead_blown _ _ _) rfl
          refine blown_then ?_ (blown_of (putHealth_only ..) rfl) rfl
          exact hv21
        · refine blown_then ?_ (blown_of (putHealth_only ..) rfl) rfl
          exact hv21
    · refine blown_then ?_ (blown_of (putHealth_only ..) rfl) rfl
      exact hv21

theorem healthRecord_blown (s : State) (h : Head) (t : Nat) (r : TileRecord) : keepsFuses s (healthRecord s h t r) := by
  unfold healthRecord
  split
  refine blown_ite ?_ ?_
  · refine blown_then ?_ (blown_of (pauseDue_only ..) rfl) rfl
    refine blown_snd (by assumption) ?_
    refine blown_then ?_ (blown_of (recordIn_only ..) rfl) rfl
    exact blown_refl _
  · extract_lets v28 v29
    refine blown_then ?_ (blown_of (pauseDue_only ..) rfl) rfl
    refine foldl_blown ?_ (fun t30 a30 => ?_)
    · refine blown_snd (by assumption) ?_
      refine blown_then ?_ (blown_of (recordIn_only ..) rfl) rfl
      exact blown_refl _
    · extract_lets v31 v32 v33 v34
      refine blown_ite ?_ ?_
      · refine blown_ite ?_ ?_
        · refine blown_then ?_ (applyProbe_blown _ _ _ _ _ _) rfl
          refine blown_then ?_ (blown_of (modPxc_only ..) rfl) rfl
          exact blown_refl _
        · refine blown_then ?_ (blown_of (modPxc_only ..) rfl) rfl
          exact blown_refl _
      · exact blown_refl _

theorem applyMarks_blown (s : State) (h : Head) : keepsFuses s (applyMarks s h) := by
  unfold applyMarks
  extract_lets v24 v25 v26
  have hv24 : keepsFuses s v24 := by
    refine blown_then ?_ (healthRead_blown _ _ _) rfl
    exact blown_refl _
  have hv26 : keepsFuses s v26 := by
    refine blown_then ?_ (blown_of (modPxc_only ..) rfl) rfl
    exact hv24
  refine foldl_blown ?_ (fun t36 a36 => ?_)
  · exact hv26
  · refine blown_then ?_ (cblDone_blown _ _ _ _ _) rfl
    refine blown_then ?_ (blown_of (putHealth_only ..) rfl) rfl
    exact blown_refl _

theorem clearHealth_blown (s : State) (h : Head) (v : Word) : keepsFuses s (clearHealth s h v) := by
  unfold clearHealth
  refine blown_ite ?_ ?_
  · exact blown_refl _
  · refine blown_ite ?_ ?_
    · refine foldl_blown ?_ (fun t35 a35 => ?_)
      · exact blown_refl _
      · refine blown_then ?_ (writeHealth_blown _ _ _ _) rfl
        exact blown_refl _
    · refine blown_ite ?_ ?_
      · refine blown_then ?_ (writeHealth_blown _ _ _ _) rfl
        exact blown_refl _
      · exact blown_refl _

theorem forwardRequest_blown (s : State) (h : Head) (i : Nat) (code : Nat) : keepsFuses s (forwardRequest s h i code) := by
  unfold forwardRequest
  extract_lets v38 v39 v40
  refine blown_ite ?_ ?_
  · exact blown_refl _
  · refine blown_ite ?_ ?_
    · refine blown_then ?_ (cblDone_blown _ _ _ _ _) rfl
      refine blown_then ?_ (blown_of (raise_only ..) rfl) rfl
      refine blown_then ?_ (blown_of (modTbl_only ..) rfl) rfl
      refine blown_then ?_ (blown_of (setFwd_only ..) rfl) rfl
      exact blown_refl _
    · refine blown_then ?_ (blown_of (setFwd_only ..) rfl) rfl
      exact blown_refl _

theorem writeFwd_blown (s : State) (h : Head) (v : Word) : keepsFuses s (writeFwd s h v) := by
  unfold writeFwd
  extract_lets v0
  have hv0 : keepsFuses s v0 := by
    refine blown_then ?_ (blown_of (modTbl_only ..) rfl) rfl
    exact blown_refl _
  refine foldl_blown ?_ (fun t4 a4 => ?_)
  · exact hv0
  · extract_lets v5
    refine blown_ite ?_ ?_
    · refine blown_then ?_ (blown_of (forwardReturn_only ..) rfl) rfl
      exact blown_refl _
    · refine blown_ite ?_ ?_
      · exact blown_refl _
      · refine blown_then ?_ (forwardRequest_blown _ _ _ _) rfl
        exact blown_refl _

theorem fwdLatch_blown (s : State) (h : Head) (i : Nat) : keepsFuses s (fwdLatch s h i) := by
  unfold fwdLatch
  extract_lets v44 v45
  refine blown_ite ?_ ?_
  · exact blown_refl _
  · refine blown_ite ?_ ?_
    · refine blown_then ?_ (blown_of (modTbl_only ..) rfl) rfl
      exact blown_refl _
    · refine blown_then ?_ (cblDone_blown _ _ _ _ _) rfl
      refine blown_then ?_ (blown_of (raise_only ..) rfl) rfl
      refine blown_then ?_ (blown_of (modTbl_only ..) rfl) rfl
      exact blown_refl _

theorem fwdStitchPoint_blown (s : State) (h : Head) (stitched : Bool) : keepsFuses s (fwdStitchPoint s h stitched) := by
  unfold fwdStitchPoint
  extract_lets v46
  have hv46 : keepsFuses s v46 := by
    refine blown_ite ?_ ?_
    · refine foldl_blown ?_ (fun t49 a49 => ?_)
      · exact blown_refl _
      · refine blown_then ?_ (fwdLatch_blown _ _ _) rfl
        exact blown_refl _
    · exact blown_refl _
  refine blown_then ?_ (blown_of (reconfigure_only ..) rfl) rfl
  refine foldl_blown ?_ (fun t54 a54 => ?_)
  · exact hv46
  · refine blown_then ?_ (blown_of (fwdBegin_only ..) rfl) rfl
    exact blown_refl _

theorem laneCandidate_blown (s : State) (h : Head) (l : Nat) : keepsFuses s (laneCandidate s h l) := by
  unfold laneCandidate
  extract_lets v47 v48
  refine blown_ite ?_ ?_
  · refine blown_ite ?_ ?_
    · refine blown_then ?_ (forwardRequest_blown _ _ _ _) rfl
      refine blown_then ?_ (cblFind_blown _ _ _ _) rfl
      exact blown_refl _
    · refine blown_then ?_ (cblFind_blown _ _ _ _) rfl
      exact blown_refl _
  · exact blown_refl _

theorem laneProposalCheck_blown (s : State) : keepsFuses s (laneProposalCheck s) := by
  unfold laneProposalCheck
  split
  · exact blown_refl _
  · extract_lets v50 v51 v52
    refine blown_ite ?_ ?_
    · exact blown_refl _
    · refine blown_then ?_ (cblClose_blown _ _ _) rfl
      exact blown_refl _

theorem calMergeEnds_blown (s : State) : keepsFuses s (calMergeEnds s) := by
  unfold calMergeEnds
  split
  · exact blown_refl _
  · refine blown_ite ?_ ?_
    · exact blown_refl _
    · extract_lets v1 v2 v3
      have hv1 : keepsFuses s v1 := by
        refine blown_then ?_ (clientWrite_blown _ _ _) rfl
        exact blown_refl _
      refine blown_ite ?_ ?_
      · refine blown_trans ?_ (blown_of (raw_pxc (onlyChanges_refl [.pxc] _) rfl) rfl)
        exact hv1
      · refine blown_then ?_ (blown_of (calFinish_only ..) rfl) rfl
        refine foldl_blown ?_ (fun t10 a10 => ?_)
        · refine blown_trans ?_ (blown_of (raw_pxc (onlyChanges_refl [.pxc] _) rfl) rfl)
          exact hv1
        · refine blown_then ?_ (kpsRequest_blown _ _) rfl
          exact blown_refl _

theorem inOneCycle_blown {s : State} {f : State → State} (hf : ∀ u, keepsFuses u (f u)) (_ : true = true) :
    keepsFuses s (inOneCycle f s) := by
  unfold inOneCycle
  exact oneCycle_blown (fun u => blown_trans (hf u) (blown_of (framesGo_only ..) rfl))

theorem laneAligned_blown (s : State) (l : Nat) : keepsFuses s (laneAligned s l) := by
  unfold laneAligned
  extract_lets v8 v9
  have hv9 : keepsFuses s v9 := by
    refine blown_then ?_ (laneProposalCheck_blown _) rfl
    refine blown_then ?_ (blown_of (setLevel_only ..) rfl) rfl
    exact blown_refl _
  refine foldl_blown ?_ (fun t10 a10 => ?_)
  · exact hv9
  · refine blown_then ?_ (blown_of (configIfAsked_only ..) rfl) rfl
    refine blown_then ?_ (blown_of (reconfigTile_only ..) rfl) rfl
    exact blown_refl _

theorem laneDrops_blown (s : State) (l : Nat) : keepsFuses s (laneDrops s l) := by
  unfold laneDrops
  extract_lets v14
  refine blown_ite ?_ ?_
  · exact blown_refl _
  · refine blown_ite ?_ ?_
    · refine blown_then ?_ (blown_of (setLevel_only ..) rfl) rfl
      refine blown_then ?_ (blown_of (portSilent_only ..) rfl) rfl
      refine blown_then ?_ (blown_of (modLane_only ..) rfl) rfl
      exact blown_refl _
    · refine blown_ite ?_ ?_
      · refine blown_then ?_ (laneCandidate_blown _ _ _) rfl
        refine blown_then ?_ (blown_of (fwdLost_only ..) rfl) rfl
        refine blown_then ?_ (laneProposalCheck_blown _) rfl
        refine blown_then ?_ (blown_of (setLevel_only ..) rfl) rfl
        refine blown_then ?_ (blown_of (modLane_only ..) rfl) rfl
        exact blown_refl _
      · refine blown_then ?_ (blown_of (modLane_only ..) rfl) rfl
        exact blown_refl _

theorem laneSyncs_blown (s : State) (l : Nat) : keepsFuses s (laneSyncs s l) := by
  unfold laneSyncs
  extract_lets v15
  refine blown_ite ?_ ?_
  · exact blown_refl _
  · refine blown_ite ?_ ?_
    · refine blown_then ?_ (blown_of (portLink_only ..) rfl) rfl
      refine blown_then ?_ (blown_of (modPort_only ..) rfl) rfl
      refine blown_then ?_ (blown_of (setLevel_only ..) rfl) rfl
      refine blown_then ?_ (blown_of (modLane_only ..) rfl) rfl
      exact blown_refl _
    · refine blown_then ?_ (laneDrops_blown _ _) rfl
      exact blown_refl _

theorem laneHears_blown (s : State) (l : Nat) (x1 : List Group) : keepsFuses s (laneHears s l x1) := by
  induction x1 generalizing s with
  | nil => exact blown_refl _
  | cons v vs ih =>
    unfold laneHears
    dsimp only
    refine blown_trans ?_ (ih _)
    have h1 : keepsFuses s (laneSyncs (laneSlot l s v) l) :=
      blown_then (blown_then (blown_refl _) (blown_of (laneSlot_only ..) rfl) rfl) (laneSyncs_blown _ _) rfl
    exact blown_ite (blown_then (blown_then h1 (blown_of (modLane_only ..) rfl) rfl) (laneDrops_blown _ _) rfl) h1

theorem elasticMoves_blown (s : State) (l : Nat) (drift : Int) : keepsFuses s (elasticMoves s l drift) := by
  unfold elasticMoves
  extract_lets v16
  refine blown_ite ?_ ?_
  · exact blown_refl _
  · refine blown_ite ?_ ?_
    · refine blown_then ?_ (blown_of (modLane_only ..) rfl) rfl
      exact blown_refl _
    · refine blown_then ?_ (laneDrops_blown _ _) rfl
      refine blown_then ?_ (blown_of (modLane_only ..) rfl) rfl
      exact blown_refl _

theorem laneMeets_blown (s : State) (l : Nat) (groups : List Group) (drift : Int) (cdr : Bool) : keepsFuses s (laneMeets s l groups drift cdr) := by
  unfold laneMeets
  extract_lets v17
  refine blown_ite ?_ ?_
  · exact blown_refl _
  · refine blown_ite ?_ ?_
    · refine blown_then ?_ (laneDrops_blown _ _) rfl
      refine blown_then ?_ (blown_of (modLane_only ..) rfl) rfl
      refine blown_ite ?_ ?_
      · refine blown_then ?_ (elasticMoves_blown _ _ _) rfl
        refine blown_then ?_ (laneHears_blown _ _ _) rfl
        exact blown_refl _
      · exact blown_refl _
    · refine blown_ite ?_ ?_
      · refine blown_then ?_ (elasticMoves_blown _ _ _) rfl
        refine blown_then ?_ (laneHears_blown _ _ _) rfl
        exact blown_refl _
      · exact blown_refl _

theorem searchEnds_blown (s : State) (l : Nat) (bits : List Bool) (groups : List Group) : keepsFuses s (searchEnds s l bits groups) := by
  unfold searchEnds
  extract_lets v22
  refine blown_ite ?_ ?_
  · exact blown_refl _
  · split
    · refine blown_then ?_ (blown_of (modLane_only ..) rfl) rfl
      refine blown_then ?_ (blown_of (searchHears_only ..) rfl) rfl
      exact blown_refl _
    · refine blown_then ?_ (laneHears_blown _ _ _) rfl
      refine blown_then ?_ (laneAligned_blown _ _) rfl
      refine blown_then ?_ (blown_of (modLane_only ..) rfl) rfl
      refine blown_then ?_ (blown_of (modLane_only ..) rfl) rfl
      refine blown_then ?_ (blown_of (searchHears_only ..) rfl) rfl
      exact blown_refl _
    · refine blown_then ?_ (blown_of (modLane_only ..) rfl) rfl
      refine blown_then ?_ (blown_of (modLane_only ..) rfl) rfl
      refine blown_then ?_ (blown_of (searchHears_only ..) rfl) rfl
      exact blown_refl _

theorem scanEnds_blown (s0 : State) (l : Nat) (clean : DWord) (groups : List Group) (drift : Int) : keepsFuses s0 (scanEnds s0 l clean groups drift) := by
  unfold scanEnds
  extract_lets v28 v29
  have hv28 : keepsFuses s0 v28 := by
    refine blown_then ?_ (laneMeets_blown _ _ _ _ _) rfl
    exact blown_refl _
  refine blown_ite ?_ ?_
  · exact hv28
  · refine blown_ite ?_ ?_
    · refine blown_then ?_ (laneCandidate_blown _ _ _) rfl
      refine blown_then ?_ (laneProposalCheck_blown _) rfl
      refine blown_then ?_ (blown_of (setLevel_only ..) rfl) rfl
      refine blown_then ?_ (blown_of (modLane_only ..) rfl) rfl
      refine blown_then ?_ (blown_of (modLane_only ..) rfl) rfl
      exact hv28
    · refine blown_ite ?_ ?_
      · refine blown_then ?_ (blown_of (setLevel_only ..) rfl) rfl
        refine blown_then ?_ (blown_of (modLane_only ..) rfl) rfl
        refine blown_then ?_ (blown_of (modLane_only ..) rfl) rfl
        exact hv28
      · refine blown_ite ?_ ?_
        · refine blown_then ?_ (blown_of (setLevel_only ..) rfl) rfl
          refine blown_then ?_ (blown_of (modLane_only ..) rfl) rfl
          refine blown_then ?_ (blown_of (modLane_only ..) rfl) rfl
          exact hv28
        · refine blown_ite ?_ ?_
          · refine blown_then ?_ (laneProposalCheck_blown _) rfl
            refine blown_then ?_ (blown_of (setLevel_only ..) rfl) rfl
            refine blown_then ?_ (blown_of (modLane_only ..) rfl) rfl
            refine blown_then ?_ (blown_of (modLane_only ..) rfl) rfl
            exact hv28
          · refine blown_then ?_ (blown_of (modLane_only ..) rfl) rfl
            exact hv28

theorem startCut_blown (s : State) (h : Head) : keepsFuses s (startCut s h) := by
  unfold startCut
  extract_lets v68 v0
  have hv68 : keepsFuses s v68 := by
    refine blown_then ?_ (blown_of (cutApplyAll_only ..) rfl) rfl
    exact blown_refl _
  have hv0 : keepsFuses s v0 := by
    refine foldl_blown ?_ (fun t0 a0 => ?_)
    · exact hv68
    · refine blown_then ?_ (blown_of (checkCap_only ..) rfl) rfl
      refine blown_then ?_ (blown_of (modPxc_only ..) rfl) rfl
      refine blown_then ?_ (blown_of (modPwr_only ..) rfl) rfl
      exact blown_refl _
  refine blown_then ?_ (buildMask_blown _ _ _) rfl
  refine blown_then ?_ (blown_of (modTg_only ..) rfl) rfl
  exact hv0

theorem startHead_blown (s : State) (h : Head) : keepsFuses s (startHead s h) := by
  unfold startHead
  refine blown_ite ?_ ?_
  · exact blown_refl _
  · extract_lets v69
    have hv69 : keepsFuses s v69 := by
      refine blown_then ?_ (blown_of (setTgState_only ..) rfl) rfl
      exact blown_refl _
    split
    · refine blown_then ?_ (startCut_blown _ _) rfl
      exact hv69
    · extract_lets v72
      have hv72 : keepsFuses s v72 := by
        refine blown_then ?_ (blown_of (modTg_only ..) rfl) rfl
        refine blown_then ?_ (blown_of (setTgState_only ..) rfl) rfl
        exact hv69
      refine blown_ite ?_ ?_
      · refine blown_then ?_ (blown_of (modLmm_only ..) rfl) rfl
        exact hv72
      · exact hv72

theorem writeTgCtrl_blown (s : State) (h : Head) (v : Word) : keepsFuses s (writeTgCtrl s h v) := by
  unfold writeTgCtrl
  extract_lets v71
  have hv71 : keepsFuses s v71 := by
    refine blown_ite ?_ ?_
    · refine blown_then ?_ (blown_of (writeJoined_only ..) rfl) rfl
      exact blown_refl _
    · exact blown_refl _
  refine blown_ite ?_ ?_
  · refine blown_then ?_ (blown_of (setRegAt_only ..) rfl) rfl
    exact hv71
  · refine blown_ite ?_ ?_
    · refine blown_ite ?_ ?_
      · refine blown_then ?_ (startHead_blown _ _) rfl
        refine blown_then ?_ (blown_of (setRegAt_only ..) rfl) rfl
        exact hv71
      · refine blown_then ?_ (blown_of (setRegAt_only ..) rfl) rfl
        exact hv71
    · refine blown_ite ?_ ?_
      · refine blown_then ?_ (blown_of (stopHead_only ..) rfl) rfl
        refine blown_then ?_ (blown_of (setRegAt_only ..) rfl) rfl
        exact hv71
      · refine blown_then ?_ (blown_of (setRegAt_only ..) rfl) rfl
        exact hv71

theorem composePath_blown (s0 : State) (f : Nat) (s : State) (p : Plan) : keepsFuses s (composePath s0 f s p) := by
  unfold composePath
  extract_lets v85 v86 v87 v88 v89 v90
  have hv87 : keepsFuses s v87 := by
    refine blown_then ?_ (clientWrite_blown _ _ _) rfl
    exact blown_refl _
  have hv89 : keepsFuses s v89 := by
    refine blown_ite ?_ ?_
    · refine blown_then ?_ (clientWrite_blown _ _ _) rfl
      exact hv87
    · exact hv87
  have hv90 : keepsFuses s v90 := by
    refine blown_then ?_ (blown_of (modBld_only ..) rfl) rfl
    exact hv89
  refine blown_then ?_ (blown_of (modPxc_only ..) rfl) rfl
  exact hv90

theorem sweepReads_blown (s : State) (plans : List Plan) (ranges : Plan → List (Nat × Nat)) : keepsFuses s (sweepReads s plans ranges) := by
  unfold sweepReads
  refine foldl_blown ?_ (fun t4 a4 => ?_)
  · exact blown_refl _
  · refine blown_then ?_ (clientRead_blown _ _ _) rfl
    exact blown_refl _

theorem composeSweep_blown (s : State) (h : Head) (sources : List SlotFetch) (use : List Nat) : keepsFuses s (composeSweep s h sources use) := by
  unfold composeSweep
  extract_lets v1 v2 v3 v4 v5 v6 v7 v8 v9
  have hv2 : keepsFuses s v2 := by
    refine blown_then ?_ (blown_of (modTg_only ..) rfl) rfl
    exact blown_refl _
  have hv3 : keepsFuses s v3 := by
    refine blown_then ?_ (sweepReads_blown _ _ _) rfl
    exact hv2
  have hv5 : keepsFuses s v5 := by
    refine foldl_blown ?_ (fun t23 a23 => ?_)
    · exact hv3
    · refine blown_then ?_ (composePath_blown _ _ _ _) rfl
      exact blown_refl _
  have hv6 : keepsFuses s v6 := by
    dsimp -zeta only [v6]
    split
    · refine blown_then ?_ (blown_of (abandonRow_only ..) rfl) rfl
      exact hv5
    · exact hv5
  have hv7 : keepsFuses s v7 := by
    refine foldl_blown ?_ (fun t35 a35 => ?_)
    · exact hv6
    · refine blown_then ?_ (blown_of (spoilSweep_only ..) rfl) rfl
      refine blown_then ?_ (blown_of (raise_only ..) rfl) rfl
      exact blown_refl _
  have hv8 : keepsFuses s v8 := by
    refine foldl_blown ?_ (fun t1 a1 => ?_)
    · exact hv7
    · refine blown_then ?_ (blown_of (toneParity_only ..) rfl) rfl
      exact blown_refl _
  have hv9 : keepsFuses s v9 := by
    refine blown_then ?_ (sweepReads_blown _ _ _) rfl
    exact hv8
  refine foldl_blown ?_ (fun t0 a0 => ?_)
  · exact hv9
  · refine blown_then ?_ (blown_of (sendFrame_only ..) rfl) rfl
    exact blown_refl _

theorem beginSweep_blown (s : State) (h : Head) (sources : List SlotFetch) : keepsFuses s (beginSweep s h sources) := by
  unfold beginSweep
  extract_lets v10 v11 v12 v13 v14 v15 v16 v17
  have hv13 : keepsFuses s v13 := by
    refine blown_then ?_ (blown_of (modTg_only ..) rfl) rfl
    refine blown_then ?_ (blown_of (setTgState_only ..) rfl) rfl
    exact blown_refl _
  have hv14 : keepsFuses s v14 := by
    refine foldl_blown ?_ (fun t0 a0 => ?_)
    · exact hv13
    · refine blown_then ?_ (blown_of (modPxc_only ..) rfl) rfl
      refine blown_then ?_ (blown_of (modBld_only ..) rfl) rfl
      refine blown_then ?_ (blown_of (modTg_only ..) rfl) rfl
      exact blown_refl _
  have hv15 : keepsFuses s v15 := by
    refine blown_then ?_ (blown_of (modLy_only ..) rfl) rfl
    exact hv14
  have hv16 : keepsFuses s v16 := by
    refine blown_ite ?_ ?_
    · refine foldl_blown ?_ (fun t16 a16 => ?_)
      · exact hv15
      · refine blown_then ?_ (blown_of (modBld_only ..) rfl) rfl
        exact blown_refl _
    · exact hv15
  have hv17 : keepsFuses s v17 := by
    refine blown_then ?_ (blown_of (notReadyFault_only ..) rfl) rfl
    refine blown_then ?_ (blown_of (sweepFails_only ..) rfl) rfl
    exact hv16
  refine blown_ite ?_ ?_
  · exact hv17
  · refine blown_then ?_ (composeSweep_blown _ _ _ _) rfl
    exact hv17

theorem enterStopped_blown (s : State) (h : Head) : keepsFuses s (enterStopped s h) := by
  unfold enterStopped
  extract_lets v18
  have hv18 : keepsFuses s v18 := by
    refine blown_then ?_ (blown_of (modTg_only ..) rfl) rfl
    refine blown_then ?_ (blown_of (setTgState_only ..) rfl) rfl
    exact blown_refl _
  refine foldl_blown ?_ (fun t19 a19 => ?_)
  · refine blown_then ?_ (blown_of (cutApplyAll_only ..) rfl) rfl
    exact hv18
  · refine blown_then ?_ (retireSwitch_blown _ _) rfl
    exact blown_refl _

theorem sweepStarts_blown (s : State) (h : Head) (sources : List SlotFetch) : keepsFuses s (sweepStarts s h sources) := by
  unfold sweepStarts
  extract_lets v20
  refine blown_ite ?_ ?_
  · exact blown_refl _
  · refine blown_ite ?_ ?_
    · refine blown_then ?_ (blown_of (modTg_only ..) rfl) rfl
      exact blown_refl _
    · refine blown_ite ?_ ?_
      · refine blown_then ?_ (enterStopped_blown _ _) rfl
        exact blown_refl _
      · refine blown_then ?_ (beginSweep_blown _ _ _) rfl
        refine blown_ite ?_ ?_
        · refine blown_then ?_ (blown_of (modTg_only ..) rfl) rfl
          exact blown_refl _
        · exact blown_refl _

theorem doseBlock_blown (s : State) (path : Head) (f : Nat) (bx : Nat) (by_ : Nat) : keepsFuses s (doseBlock s path f bx by_) := by
  unfold doseBlock
  extract_lets v26 v27 v28 v29 v30 v31
  split
  extract_lets v32
  refine blown_ite ?_ ?_
  · refine blown_then ?_ (clientWrite_blown _ _ _) rfl
    refine blown_snd (by assumption) ?_
    refine blown_then ?_ (blown_of (drawBelow_only ..) rfl) rfl
    exact blown_refl _
  · refine blown_snd (by assumption) ?_
    refine blown_then ?_ (blown_of (drawBelow_only ..) rfl) rfl
    exact blown_refl _

theorem doseSweep_blown (s : State) (path : Head) (full : Bool) : keepsFuses s (doseSweep s path full) := by
  unfold doseSweep
  refine blown_ite ?_ ?_
  · refine blown_then ?_ (blown_of (modPxc_only ..) rfl) rfl
    exact blown_refl _
  · refine blown_ite ?_ ?_
    · exact blown_refl _
    · extract_lets v33 v34
      have hv34 : keepsFuses s v34 := by
        refine blown_then ?_ (clientRead_blown _ _ _) rfl
        exact blown_refl _
      refine foldl_blown ?_ (fun t2 a2 => ?_)
      · exact hv34
      · refine foldl_blown ?_ (fun t3 a3 => ?_)
        · exact blown_refl _
        · refine blown_then ?_ (doseBlock_blown _ _ _ _ _) rfl
          exact blown_refl _

theorem weakSweep_blown (s : State) (path : Head) : keepsFuses s (weakSweep s path) := by
  unfold weakSweep
  refine foldl_blown ?_ (fun t4 a4 => ?_)
  · exact blown_refl _
  · extract_lets v5 v6 v7
    refine blown_ite ?_ ?_
    · refine blown_then ?_ (pixelCandidate_blown _ _ _ _) rfl
      refine blown_then ?_ (blown_of (raise_only ..) rfl) rfl
      refine blown_then ?_ (writeHealth_blown _ _ _ _) rfl
      exact blown_refl _
    · exact blown_refl _

theorem pathEnds_blown (s : State) (h : Head) (path : Head) : keepsFuses s (pathEnds s h path) := by
  unfold pathEnds
  extract_lets v11 v12
  have hv12 : keepsFuses s v12 := by
    refine blown_then ?_ (blown_of (clampFaults_only ..) rfl) rfl
    exact blown_refl _
  refine blown_then ?_ (doseSweep_blown _ _ _) rfl
  refine blown_ite ?_ ?_
  · refine blown_then ?_ (weakSweep_blown _ _) rfl
    refine blown_then ?_ (blown_of (publishSweep_only ..) rfl) rfl
    exact hv12
  · exact hv12

theorem cutNow_blown (s : State) (h : Head) : keepsFuses s (cutNow s h) := by
  unfold cutNow
  extract_lets v15
  refine blown_ite ?_ ?_
  · exact blown_refl _
  · split
    extract_lets v16 v17 v18 v19 v20 v21
    have hv16 : keepsFuses s v16 := by
      refine blown_then ?_ (blown_of (flatEnds_only ..) rfl) rfl
      refine foldl_blown ?_ (fun t22 a22 => ?_)
      · refine blown_snd (by assumption) ?_
        refine blown_then ?_ (blown_of (stampCore_only ..) rfl) rfl
        exact blown_refl _
      · refine blown_then ?_ (pathEnds_blown _ _ _) rfl
        exact blown_refl _
    have hv17 : keepsFuses s v17 := by
      refine foldl_blown ?_ (fun t31 a31 => ?_)
      · exact hv16
      · refine blown_then ?_ (blown_of (modTg_only ..) rfl) rfl
        exact blown_refl _
    have hv18 : keepsFuses s v18 := by
      refine blown_then ?_ (blown_of (modTg_only ..) rfl) rfl
      exact hv17
    have hv19 : keepsFuses s v19 := by
      refine foldl_blown ?_ (fun t32 a32 => ?_)
      · exact hv18
      · refine blown_then ?_ (blown_of (calCompose_only ..) rfl) rfl
        refine blown_then ?_ (blown_of (listsCompose_only ..) rfl) rfl
        refine blown_then ?_ (blown_of (setsCompose_only ..) rfl) rfl
        exact blown_refl _
    have hv20 : keepsFuses s v20 := by
      refine blown_then ?_ (blown_of (cutApplyAll_only ..) rfl) rfl
      exact hv19
    have hv21 : keepsFuses s v21 := by
      refine foldl_blown ?_ (fun t35 a35 => ?_)
      · exact hv20
      · refine blown_then ?_ (blown_of (checkCap_only ..) rfl) rfl
        exact blown_refl _
    refine blown_then ?_ (buildMask_blown _ _ _) rfl
    exact hv21

theorem stitchPoint_blown (s : State) (h : Head) (stitched : Bool) (time : Word) : keepsFuses s (stitchPoint s h stitched time) := by
  unfold stitchPoint
  extract_lets v29 v30
  have hv29 : keepsFuses s v29 := by
    refine blown_then ?_ (blown_of (snapshotNow_only ..) rfl) rfl
    exact blown_refl _
  have hv30 : keepsFuses s v30 := by
    refine blown_then ?_ (blown_of (overdueLevel_only ..) rfl) rfl
    refine blown_then ?_ (applyMarks_blown _ _) rfl
    exact hv29
  refine blown_then ?_ (retireSwitch_blown _ _) rfl
  refine blown_then ?_ (fwdStitchPoint_blown _ _ _) rfl
  exact hv30

theorem echoesAwait_blown (s : State) (h : Head) (b : Nat) (f : Word) : keepsFuses s (echoesAwait s h b f) := by
  unfold echoesAwait
  refine foldl_blown ?_ (fun t33 a33 => ?_)
  · exact blown_refl _
  · refine blown_ite ?_ ?_
    · extract_lets v34 v0 v1
      have hv34 : keepsFuses t33 v34 := by
        refine blown_then ?_ (clientRead_blown _ _ _) rfl
        exact blown_refl _
      refine blown_then ?_ (blown_of (modTile_only ..) rfl) rfl
      refine blown_ite ?_ ?_
      · refine blown_then ?_ (blown_of (spendInj_only ..) rfl) rfl
        exact hv34
      · exact hv34
    · exact blown_refl _

theorem stitchPath_blown (s : State) (f : Word) (time : Word) (b : Nat) (h : Head) : keepsFuses s (stitchPath s f time b h) := by
  unfold stitchPath
  extract_lets v36 v37 v38
  have hv36 : keepsFuses s v36 := by
    refine blown_then ?_ (blown_of (modTg_only ..) rfl) rfl
    exact blown_refl _
  have hv37 : keepsFuses s v37 := by
    refine blown_then ?_ (blown_of (modBld_only ..) rfl) rfl
    exact hv36
  have hv38 : keepsFuses s v38 := by
    refine blown_then ?_ (blown_of (modPxc_only ..) rfl) rfl
    refine blown_then ?_ (blown_of (probesAdvance_only ..) rfl) rfl
    exact hv37
  refine blown_then ?_ (echoesAwait_blown _ _ _ _) rfl
  exact hv38

theorem stitchNow_blown (s : State) (h : Head) (late : Bool) : keepsFuses s (stitchNow s h late) := by
  unfold stitchNow
  refine blown_ite ?_ ?_
  · exact blown_refl _
  · extract_lets v39 v40 v41 v42 v43 v44 v45 v46
    have hv42 : keepsFuses s v42 := by
      refine foldl_blown ?_ (fun t47 a47 => ?_)
      · exact blown_refl _
      · refine blown_then ?_ (blown_of (sendLanes_only ..) rfl) rfl
        exact blown_refl _
    have hv43 : keepsFuses s v43 := by
      refine blown_then ?_ (blown_of (modTg_only ..) rfl) rfl
      exact hv42
    have hv44 : keepsFuses s v44 := by
      refine foldl_blown ?_ (fun t48 a48 => ?_)
      · exact hv43
      · refine blown_then ?_ (stitchPath_blown _ _ _ _ _) rfl
        exact blown_refl _
    have hv45 : keepsFuses s v45 := by
      refine blown_then ?_ (blown_of (ltrAtStitch_only ..) rfl) rfl
      refine foldl_blown ?_ (fun t2 a2 => ?_)
      · exact hv44
      · refine blown_then ?_ (blown_of (stitchComplete_only ..) rfl) rfl
        exact blown_refl _
    have hv46 : keepsFuses s v46 := by
      refine foldl_blown ?_ (fun t3 a3 => ?_)
      · exact hv45
      · refine blown_then ?_ (stitchPoint_blown _ _ _ _) rfl
        exact blown_refl _
    refine blown_then ?_ (blown_of (modTg_only ..) rfl) rfl
    exact hv46

theorem slackEnds_blown (s : State) (h : Head) : keepsFuses s (slackEnds s h) := by
  unfold slackEnds
  extract_lets v5
  refine blown_ite ?_ ?_
  · exact blown_refl _
  · split
    extract_lets v6 v7 v8 v9
    have hv6 : keepsFuses s v6 := by
      refine blown_then ?_ (blown_of (modTg_only ..) rfl) rfl
      refine blown_snd (by assumption) ?_
      refine blown_then ?_ (blown_of (stampCore_only ..) rfl) rfl
      exact blown_refl _
    have hv7 : keepsFuses s v7 := by
      refine blown_ite ?_ ?_
      · exact hv6
      · refine blown_then ?_ (blown_of (repeatFault_only ..) rfl) rfl
        refine blown_then ?_ (blown_of (modTg_only ..) rfl) rfl
        exact hv6
    have hv8 : keepsFuses s v8 := by
      refine foldl_blown ?_ (fun t1 a1 => ?_)
      · exact hv7
      · refine blown_then ?_ (blown_of (sendDrive_only ..) rfl) rfl
        exact blown_refl _
    have hv9 : keepsFuses s v9 := by
      refine foldl_blown ?_ (fun t1 a1 => ?_)
      · exact hv8
      · refine blown_then ?_ (stitchPoint_blown _ _ _ _) rfl
        exact blown_refl _
    refine blown_then ?_ (blown_of (modTg_only ..) rfl) rfl
    exact hv9

theorem decideBand_blown (s : State) : keepsFuses s (decideBand s) := by
  unfold decideBand
  extract_lets v21
  split
  · refine blown_ite ?_ ?_
    · refine blown_then ?_ (kpsRequest_blown _ _) rfl
      refine blown_then ?_ (blown_of (bandLevels_only ..) rfl) rfl
      refine blown_then ?_ (blown_of (bandEvent_only ..) rfl) rfl
      refine blown_then ?_ (blown_of (modHkp_only ..) rfl) rfl
      exact blown_refl _
    · refine blown_then ?_ (blown_of (bandLevels_only ..) rfl) rfl
      refine blown_then ?_ (blown_of (bandEvent_only ..) rfl) rfl
      refine blown_then ?_ (blown_of (modHkp_only ..) rfl) rfl
      exact blown_refl _
  · extract_lets v32 v33 v34
    have hv34 : keepsFuses s v34 := by
      refine blown_then ?_ (blown_of (modHkp_only ..) rfl) rfl
      exact blown_refl _
    refine blown_ite ?_ ?_
    · exact hv34
    · refine blown_ite ?_ ?_
      · refine blown_then ?_ (kpsRequest_blown _ _) rfl
        refine blown_then ?_ (blown_of (bandLevels_only ..) rfl) rfl
        refine blown_then ?_ (blown_of (bandEvent_only ..) rfl) rfl
        refine blown_then ?_ (blown_of (modHkp_only ..) rfl) rfl
        exact hv34
      · refine blown_then ?_ (blown_of (bandLevels_only ..) rfl) rfl
        refine blown_then ?_ (blown_of (bandEvent_only ..) rfl) rfl
        refine blown_then ?_ (blown_of (modHkp_only ..) rfl) rfl
        exact hv34

theorem evaluateRound_blown (s : State) : keepsFuses s (evaluateRound s) := by
  unfold evaluateRound
  refine blown_ite ?_ ?_
  · exact blown_refl _
  · extract_lets v35 v36 v37 v38 v39 v40
    have hv35 : keepsFuses s v35 := by
      refine blown_then ?_ (blown_of (modHkp_only ..) rfl) rfl
      exact blown_refl _
    have hv36 : keepsFuses s v36 := by
      refine blown_then ?_ (blown_of (publishRound_only ..) rfl) rfl
      exact hv35
    have hv37 : keepsFuses s v37 := by
      refine foldl_blown ?_ (fun t0 a0 => ?_)
      · exact hv36
      · refine blown_then ?_ (blown_of (throttleHead_only ..) rfl) rfl
        exact blown_refl _
    have hv38 : keepsFuses s v38 := by
      refine blown_then ?_ (decideBand_blown _) rfl
      exact hv37
    have hv39 : keepsFuses s v39 := by
      refine blown_then ?_ (blown_of (sensorLevels_only ..) rfl) rfl
      refine blown_then ?_ (blown_of (headroomStopped_only ..) rfl) rfl
      exact hv38
    have hv40 : keepsFuses s v40 := by
      refine blown_ite ?_ ?_
      · exact hv39
      · refine blown_then ?_ (blown_of (judgeSupply_only ..) rfl) rfl
        exact hv39
    refine blown_then ?_ (blown_of (modHkp_only ..) rfl) rfl
    exact hv40

theorem assertSource_blown (s : State) (source : Nat) (part : Nat) (heads : Nat) (detail : Nat) (addr : Nat) : keepsFuses s (assertSource s source part heads detail addr) := by
  unfold assertSource
  extract_lets v50
  refine blown_ite ?_ ?_
  · refine blown_then ?_ (corrected_blown _ _ _) rfl
    exact blown_refl _
  · refine blown_ite ?_ ?_
    · refine blown_then ?_ (uncorrectable_blown _ _ _ _ _) rfl
      exact blown_refl _
    · refine blown_ite ?_ ?_
      · exact blown_refl _
      · refine blown_ite ?_ ?_
        · refine blown_then ?_ (blown_of (setLevel_only ..) rfl) rfl
          exact blown_refl _
        · refine blown_then ?_ (blown_of (raise_only ..) rfl) rfl
          refine blown_ite ?_ ?_
          · refine blown_then ?_ (blown_of (spoilSweeps_only ..) rfl) rfl
            refine blown_ite ?_ ?_
            · refine blown_then ?_ (blown_of (badTableWord_only ..) rfl) rfl
              exact blown_refl _
            · exact blown_refl _
          · refine blown_ite ?_ ?_
            · refine blown_then ?_ (blown_of (badTableWord_only ..) rfl) rfl
              exact blown_refl _
            · exact blown_refl _

theorem loadSafecfg_blown (s : State) : keepsFuses s (loadSafecfg s) := by
  unfold loadSafecfg
  extract_lets f u
  clear_value f
  cases f with
  | none => exact blown_then (blown_then (blown_then (blown_then (blown_refl _) (blown_of (modSaf_only ..) rfl) rfl) (blown_of (blocksNow_only ..) rfl) rfl) (blown_of (settle_only ..) rfl) rfl) (blown_of (setLevel_only ..) rfl) rfl
  | some c => exact blown_then (blown_then (blown_refl _) (blown_of (imageNow_only s (safecfgCopy s c) c) rfl) rfl) (blown_of (setLevel_only ..) rfl) rfl

theorem logNote_blown (s : State) (kind : Nat) : keepsFuses s (logNote s kind) := by
  unfold logNote
  split
  split
  refine blown_then ?_ (kpsRequest_blown _ _) rfl
  refine blown_snd (by assumption) ?_
  refine blown_then ?_ (blown_of (drawBelow_only ..) rfl) rfl
  refine blown_snd (by assumption) ?_
  refine blown_then ?_ (blown_of (drawBelow_only ..) rfl) rfl
  exact blown_refl _

theorem commitLeaves_blown (s : State) : keepsFuses s (commitLeaves s) := by
  unfold commitLeaves
  refine blown_then ?_ (kpsTake_blown _) rfl
  refine blown_then ?_ (modKps_blown _ _ (by rfl)) rfl
  exact blown_refl _

theorem endSession_blown (s : State) (note : Bool) : keepsFuses s (endSession s note) := by
  unfold endSession
  refine blown_ite ?_ ?_
  · exact blown_refl _
  · extract_lets v1 v2 v3
    have hv1 : keepsFuses s v1 := by
      refine blown_ite ?_ ?_
      · refine blown_then ?_ (commitLeaves_blown _) rfl
        exact blown_refl _
      · exact blown_refl _
    have hv2 : keepsFuses s v2 := by
      refine blown_then ?_ (blown_of (modSaf_only ..) rfl) rfl
      exact hv1
    have hv3 : keepsFuses s v3 := by
      dsimp -zeta only [v3]
      split
      · refine blown_then ?_ (blown_of (writeRwl_only ..) rfl) rfl
        exact hv2
      · refine blown_then ?_ (blown_of (writeInj_only ..) rfl) rfl
        exact hv2
    refine blown_ite ?_ ?_
    · refine blown_then ?_ (logNote_blown _ _) rfl
      exact hv3
    · exact hv3

theorem sessionOpen_blown (s : State) : keepsFuses s (sessionOpen s) := by
  unfold sessionOpen
  refine blown_ite ?_ ?_
  · refine blown_then ?_ (blown_of (modSaf_only ..) rfl) rfl
    exact blown_refl _
  · refine blown_ite ?_ ?_
    · exact blown_refl _
    · extract_lets v4
      refine blown_ite ?_ ?_
      · refine blown_then ?_ (blown_of (modSaf_only ..) rfl) rfl
        exact blown_refl _
      · refine blown_ite ?_ ?_
        · refine blown_then ?_ (logNote_blown _ _) rfl
          refine blown_then ?_ (blown_of (modSaf_only ..) rfl) rfl
          exact blown_refl _
        · refine blown_then ?_ (blown_of (modSaf_only ..) rfl) rfl
          exact blown_refl _

theorem sessionCommit_blown (s : State) : keepsFuses s (sessionCommit s) := by
  unfold sessionCommit
  refine blown_ite ?_ ?_
  · refine blown_then ?_ (blown_of (commitFails_only ..) rfl) rfl
    exact blown_refl _
  · refine blown_ite ?_ ?_
    · exact blown_refl _
    · refine blown_then ?_ (kpsRequest_blown _ _) rfl
      refine blown_then ?_ (blown_of (modSaf_only ..) rfl) rfl
      exact blown_refl _

theorem commitCheckEnds_blown (s : State) (written : Bool) : keepsFuses s (commitCheckEnds s written) := by
  unfold commitCheckEnds
  extract_lets v5
  split
  · refine blown_then ?_ (blown_of (commitFails_only ..) rfl) rfl
    exact blown_refl _
  · refine blown_ite ?_ ?_
    · refine blown_then ?_ (blown_of (commitFails_only ..) rfl) rfl
      exact blown_refl _
    · refine blown_then ?_ (blown_of (judgeIntegrity_only ..) rfl) rfl
      refine blown_then ?_ (blown_of (imageNow_only ..) rfl) rfl
      refine blown_then ?_ (blown_of (modSaf_only ..) rfl) rfl
      refine blown_then ?_ (opWritten_blown _ _) rfl
      exact blown_refl _

theorem sessionCommitEnd_blown (s : State) (written : Bool) : keepsFuses s (sessionCommitEnd s written) := by
  unfold sessionCommitEnd
  refine blown_ite ?_ ?_
  · exact blown_refl _
  · refine blown_then ?_ (commitLeaves_blown _) rfl
    refine blown_then ?_ (commitCheckEnds_blown _ _) rfl
    exact blown_refl _

theorem writeUnlock_blown (s : State) (v : Word) : keepsFuses s (writeUnlock s v) := by
  unfold writeUnlock
  split
  · refine blown_then ?_ (sessionOpen_blown _) rfl
    exact blown_refl _
  · refine blown_then ?_ (sessionCommit_blown _) rfl
    exact blown_refl _
  · refine blown_then ?_ (endSession_blown _ _) rfl
    exact blown_refl _
  · exact blown_refl _

theorem mixWords_blown (s : State) (p : Nat) (new : Kps) (x1 : Nat) : keepsFuses s (mixWords s p new x1) := by
  induction x1 generalizing s with
  | zero => exact blown_refl _
  | succ n ih =>
    unfold mixWords
    repeat first
      | (with_reducible exact blown_refl _)
      | (with_reducible refine blown_trans ?_ (ih _))
      | (with_reducible refine blown_then ?_ (modKps_blown _ _ (by rfl)) rfl)
      | (with_reducible refine blown_then ?_ (blown_of (drawBelow_only ..) rfl) rfl)
      | (with_reducible refine blown_then ?_ (blown_snd (by assumption) (blown_of (drawBelow_only ..) rfl)) rfl)
      | (with_reducible refine blown_ite ?_ ?_)
      | split
      | dsimp only

theorem kpsInterrupt_blown (s : State) : keepsFuses s (kpsInterrupt s) := by
  unfold kpsInterrupt
  dsimp only
  split
  · exact blown_refl _
  · split
    · refine blown_ite ?_ ?_
      · refine blown_then ?_ (swapSector_blown _ _) rfl
        refine blown_then ?_ (blown_of (drawBelow_only ..) rfl) rfl
        refine blown_then ?_ (modKps_blown _ _ (by rfl)) rfl
        exact blown_refl _
      · refine blown_then ?_ (mixWords_blown _ _ _ _) rfl
        refine blown_ite ?_ ?_
        · refine blown_then ?_ (blown_of (spendInj_only ..) rfl) rfl
          refine blown_then ?_ (blown_of (drawBelow_only ..) rfl) rfl
          refine blown_then ?_ (modKps_blown _ _ (by rfl)) rfl
          exact blown_refl _
        · refine blown_then ?_ (blown_of (drawBelow_only ..) rfl) rfl
          refine blown_then ?_ (modKps_blown _ _ (by rfl)) rfl
          exact blown_refl _
    · refine blown_then ?_ (mixWords_blown _ _ _ _) rfl
      refine blown_ite ?_ ?_
      · refine blown_then ?_ (blown_of (spendInj_only ..) rfl) rfl
        refine blown_then ?_ (modKps_blown _ _ (by rfl)) rfl
        exact blown_refl _
      · refine blown_then ?_ (modKps_blown _ _ (by rfl)) rfl
        exact blown_refl _
    · refine blown_then ?_ (modKps_blown _ _ (by rfl)) rfl
      exact blown_refl _

theorem rebuildMap_blown (s : State) : keepsFuses s (rebuildMap s) := by
  unfold rebuildMap
  refine foldl_blown ?_ (fun t40 a40 => ?_)
  · exact blown_refl _
  · extract_lets v41
    refine blown_ite ?_ ?_
    · refine blown_then ?_ (modSector_blown _ _ _) rfl
      exact blown_refl _
    · exact blown_refl _

theorem ledgerLoad_blown (s : State) : keepsFuses s (ledgerLoad s) := by
  unfold ledgerLoad
  split
  · refine blown_then ?_ (modKps_blown _ _ (by rfl)) rfl
    exact blown_refl _
  · refine blown_then ?_ (modKps_blown _ _ (by rfl)) rfl
    exact blown_refl _

theorem eventScan_blown (s : State) : keepsFuses s (eventScan s) := by
  unfold eventScan
  extract_lets v42
  refine blown_then ?_ (modKps_blown _ _ (by rfl)) rfl
  exact blown_refl _

theorem kpsReady_blown (s : State) : keepsFuses s (kpsReady s) := by
  unfold kpsReady
  refine blown_then ?_ (blown_of (spareLevel_only ..) rfl) rfl
  refine blown_then ?_ (eventScan_blown _) rfl
  refine blown_then ?_ (ledgerLoad_blown _) rfl
  refine blown_then ?_ (rebuildMap_blown _) rfl
  exact blown_refl _

theorem priorRecord_blown (s : State) : keepsFuses s (priorRecord s) := by
  unfold priorRecord
  refine blown_ite ?_ ?_
  · exact blown_refl _
  · refine blown_then ?_ (kpsRequest_blown _ _) rfl
    exact blown_refl _

theorem bankMapLoad_blown (s : State) : keepsFuses s (bankMapLoad s) := by
  unfold bankMapLoad
  split
  · refine blown_trans ?_ (blown_of (raw_lmm (onlyChanges_refl [.lmm] _) rfl) rfl)
    exact blown_refl _
  · refine foldl_blown ?_ (fun t46 a46 => ?_)
    · refine blown_trans ?_ (blown_of (raw_lmm (onlyChanges_refl [.lmm] _) rfl) rfl)
      exact blown_refl _
    · extract_lets v47
      refine blown_then ?_ (blown_of (modBank_only ..) rfl) rfl
      exact blown_refl _

theorem calibLoad_blown (s : State) : keepsFuses s (calibLoad s) := by
  unfold calibLoad
  extract_lets v43 v44 v45
  have hv45 : keepsFuses s v45 := by
    refine blown_then ?_ (blown_of (memWrite_only ..) rfl) rfl
    exact blown_refl _
  refine blown_ite ?_ ?_
  · exact hv45
  · refine blown_then ?_ (modKps_blown _ _ (by rfl)) rfl
    exact hv45

theorem doseLoad_blown (s : State) : keepsFuses s (doseLoad s) := by
  unfold doseLoad
  dsimp only
  split
  · refine blown_then ?_ (blown_of (memWrite_only ..) rfl) rfl
    refine blown_then ?_ (modKps_blown _ _ (by rfl)) rfl
    exact blown_refl _
  · refine blown_then ?_ (modKps_blown _ _ (by rfl)) rfl
    refine blown_trans ?_ (blown_of (raw_pxc (onlyChanges_refl [.pxc] _) rfl) rfl)
    refine blown_then ?_ (blown_of (memWrite_only ..) rfl) rfl
    exact blown_refl _

theorem coldState_blown (s : State) : keepsFuses s (coldState s) := ⟨fun w b h => (kpsInterrupt_blown s).kept w b h⟩

theorem warmState_blown (s : State) (copied : Bool) : keepsFuses s (warmState s copied) := by
  unfold warmState
  extract_lets v52
  have hv52 : keepsFuses s v52 := by
    refine blown_then ?_ (coldState_blown _) rfl
    exact blown_refl _
  refine blown_trans ?_ (blown_of (raw_mem_flt_saf_lmm_pxc (onlyChanges_refl [.mem, .flt, .saf, .lmm, .pxc] _) rfl) rfl)
  exact hv52

theorem wideAsserts_blown (s : State) (b : Nat) : keepsFuses s (wideAsserts s b) := by
  unfold wideAsserts
  extract_lets v53 v54 v55 v56 v57 v58 v59
  have hv59 : keepsFuses s v59 := by
    refine blown_then ?_ (coldState_blown _) rfl
    exact blown_refl _
  refine blown_trans ?_ (blown_of (raw_rst (onlyChanges_refl [.rst] _) rfl) rfl)
  refine blown_ite ?_ ?_
  · refine blown_then ?_ (coldState_blown _) rfl
    exact blown_refl _
  · refine blown_ite ?_ ?_
    · refine blown_trans ?_ (blown_of (raw_flt (onlyChanges_refl [.flt] _) rfl) rfl)
      exact hv59
    · refine blown_then ?_ (warmState_blown _ _) rfl
      exact blown_refl _

theorem hostDown_blown (s : State) : keepsFuses s (hostDown s) := by
  unfold hostDown
  extract_lets v60 v61 v62
  refine blown_ite ?_ ?_
  · refine blown_then ?_ (blown_of (wake_only ..) rfl) rfl
    refine blown_then ?_ (endSession_blown _ _) rfl
    refine blown_then ?_ (blown_of (commitsAfterLtr_only ..) rfl) rfl
    refine blown_then ?_ (blown_of (setsAfterLtr_only ..) rfl) rfl
    refine blown_trans ?_ (blown_of (raw_regs_rst_rng_hif (onlyChanges_refl [.regs, .rst, .rng, .hif] _) rfl) rfl)
    exact blown_refl _
  · refine blown_then ?_ (endSession_blown _ _) rfl
    refine blown_then ?_ (blown_of (commitsAfterLtr_only ..) rfl) rfl
    refine blown_then ?_ (blown_of (setsAfterLtr_only ..) rfl) rfl
    refine blown_trans ?_ (blown_of (raw_regs_rst_rng_hif (onlyChanges_refl [.regs, .rst, .rng, .hif] _) rfl) rfl)
    exact blown_refl _

theorem hostAsserts_blown (s : State) (b : Nat) : keepsFuses s (hostAsserts s b) := by
  unfold hostAsserts
  extract_lets v63
  have hv63 : keepsFuses s v63 := by
    refine blown_then ?_ (blown_of (modRst_only ..) rfl) rfl
    exact blown_refl _
  refine blown_ite ?_ ?_
  · refine blown_then ?_ (hostDown_blown _) rfl
    exact hv63
  · refine blown_then ?_ (blown_of (modRst_only ..) rfl) rfl
    exact hv63

theorem sourceAsserts_blown (s : State) (b : Nat) : keepsFuses s (sourceAsserts s b) := by
  unfold sourceAsserts
  refine blown_ite ?_ ?_
  · refine blown_then ?_ (hostAsserts_blown _ _) rfl
    exact blown_refl _
  · refine blown_then ?_ (wideAsserts_blown _ _) rfl
    exact blown_refl _

theorem hostPulse_blown (s : State) (b : Nat) : keepsFuses s (hostPulse s b) := by
  unfold hostPulse
  refine blown_then ?_ (blown_of (sourcesRelease_only ..) rfl) rfl
  refine blown_then ?_ (hostAsserts_blown _ _) rfl
  exact blown_refl _

theorem forgetWork_blown (s : State) : keepsFuses s (forgetWork s) := by
  unfold forgetWork
  extract_lets v68 v69 v70 v71 v72 v73
  have hv70 : keepsFuses s v70 := by
    refine foldl_blown ?_ (fun t77 a77 => ?_)
    · exact blown_refl _
    · refine blown_then ?_ (blown_of (modShd_only ..) rfl) rfl
      exact blown_refl _
  have hv72 : keepsFuses s v72 := by
    refine blown_trans ?_ (blown_of (raw_pxc (onlyChanges_refl [.pxc] _) rfl) rfl)
    exact hv70
  have hv73 : keepsFuses s v73 := by
    refine foldl_blown ?_ (fun t81 a81 => ?_)
    · exact hv72
    · refine blown_then ?_ (blown_of (modChain_only ..) rfl) rfl
      exact blown_refl _
  refine blown_then ?_ (blown_of (modRng_only ..) rfl) rfl
  refine blown_then ?_ (modKps_blown _ _ (by rfl)) rfl
  refine foldl_blown ?_ (fun t82 a82 => ?_)
  · exact hv73
  · refine blown_then ?_ (blown_of (modPort_only ..) rfl) rfl
    exact blown_refl _

theorem journalForgets_blown (s : State) : keepsFuses s (journalForgets s) := by
  unfold journalForgets
  split
  · exact blown_refl _
  · extract_lets v79
    have hv79 : keepsFuses s v79 := by
      refine blown_then ?_ (forgetWork_blown _) rfl
      exact blown_refl _
    refine blown_trans ?_ (blown_of (raw_regs_rng (onlyChanges_refl [.regs, .rng] _) rfl) rfl)
    exact hv79

theorem journalRead_blown (s : State) : keepsFuses s (journalRead s) := by
  unfold journalRead
  refine blown_then ?_ (clientRead_blown _ _ _) rfl
  exact blown_refl _

theorem writeJournal_blown (s : State) (v : Word) : keepsFuses s (writeJournal s v) := by
  unfold writeJournal
  refine blown_ite ?_ ?_
  · exact blown_refl _
  · refine blown_ite ?_ ?_
    · extract_lets v0
      have hv0 : keepsFuses s v0 := by
        refine blown_then ?_ (journalRead_blown _) rfl
        exact blown_refl _
      refine blown_ite ?_ ?_
      · refine blown_then ?_ (journalForgets_blown _) rfl
        exact hv0
      · refine blown_then ?_ (blown_of (journalResumes_only ..) rfl) rfl
        exact hv0
    · refine blown_ite ?_ ?_
      · refine blown_then ?_ (journalForgets_blown _) rfl
        exact blown_refl _
      · exact blown_refl _

theorem stepEnds_blown (s : State) (n : Nat) : keepsFuses s (stepEnds s n) := by
  unfold stepEnds
  extract_lets v83
  have hv83 : keepsFuses s v83 := by
    refine blown_then ?_ (blown_of (modRst_only ..) rfl) rfl
    exact blown_refl _
  split
  · refine blown_then ?_ (blown_of (modRst_only ..) rfl) rfl
    exact blown_refl _
  · refine blown_then ?_ (blown_of (hostCheck_only ..) rfl) rfl
    refine blown_then ?_ (blown_of (modRst_only ..) rfl) rfl
    exact blown_refl _
  · refine blown_ite ?_ ?_
    · refine blown_then ?_ (priorRecord_blown _) rfl
      refine blown_then ?_ (kpsReady_blown _) rfl
      refine blown_then ?_ (blown_of (modRst_only ..) rfl) rfl
      exact blown_refl _
    · refine blown_then ?_ (kpsReady_blown _) rfl
      refine blown_then ?_ (blown_of (modRst_only ..) rfl) rfl
      exact blown_refl _
  · refine blown_ite ?_ ?_
    · refine blown_then ?_ (bankMapLoad_blown _) rfl
      refine blown_then ?_ (blown_of (modRst_only ..) rfl) rfl
      exact blown_refl _
    · refine blown_then ?_ (blown_of (modRst_only ..) rfl) rfl
      exact blown_refl _
  · refine blown_then ?_ (blown_of (settle_only ..) rfl) rfl
    refine blown_ite ?_ ?_
    · refine blown_then ?_ (blown_of (raise_only ..) rfl) rfl
      refine blown_then ?_ (blown_of (beginJudging_only ..) rfl) rfl
      refine blown_then ?_ (blown_of (modRst_only ..) rfl) rfl
      refine blown_then ?_ (loadSafecfg_blown _) rfl
      exact blown_refl _
    · refine blown_then ?_ (blown_of (beginJudging_only ..) rfl) rfl
      refine blown_then ?_ (blown_of (modRst_only ..) rfl) rfl
      refine blown_then ?_ (loadSafecfg_blown _) rfl
      exact blown_refl _
  · refine blown_ite ?_ ?_
    · refine blown_then ?_ (doseLoad_blown _) rfl
      refine blown_then ?_ (calibLoad_blown _) rfl
      refine blown_then ?_ (blown_of (modRst_only ..) rfl) rfl
      exact blown_refl _
    · refine blown_then ?_ (calibLoad_blown _) rfl
      refine blown_then ?_ (blown_of (modRst_only ..) rfl) rfl
      exact blown_refl _
  · exact hv83

theorem resetSaf_blown (s : State) : keepsFuses s (resetSaf s) := by
  unfold resetSaf
  extract_lets v93
  have hv93 : keepsFuses s v93 := by
    refine blown_then ?_ (blown_of (clearWindow_only ..) rfl) rfl
    refine blown_then ?_ (endSession_blown _ _) rfl
    exact blown_refl _
  refine blown_then ?_ (blown_of (modSaf_only ..) rfl) rfl
  exact hv93

theorem resetKps_blown (s : State) : keepsFuses s (resetKps s) := by
  unfold resetKps
  extract_lets v96 v97 v98
  have hv96 : keepsFuses s v96 := by
    refine blown_ite ?_ ?_
    · refine blown_then ?_ (blown_of (commitFails_only ..) rfl) rfl
      exact blown_refl _
    · exact blown_refl _
  have hv97 : keepsFuses s v97 := by
    refine blown_then ?_ (kpsInterrupt_blown _) rfl
    refine blown_then ?_ (blown_of (abortCals_only ..) rfl) rfl
    refine blown_then ?_ (blown_of (abortWork_only ..) rfl) rfl
    exact hv96
  have hv98 : keepsFuses s v98 := by
    refine blown_then ?_ (blown_of (clearWindow_only ..) rfl) rfl
    exact hv97
  refine blown_then ?_ (modKps_blown _ _ (by rfl)) rfl
  refine blown_trans ?_ (blown_of (raw_pxc (onlyChanges_refl [.pxc] _) rfl) rfl)
  exact hv98

theorem resetBlock_blown (s : State) (b : Nat) : keepsFuses s (resetBlock s b) := by
  unfold resetBlock
  extract_lets v1 v2
  have hv1 : keepsFuses s v1 := by
    refine blown_ite ?_ ?_
    · refine blown_then ?_ (blown_of (raise_only ..) rfl) rfl
      exact blown_refl _
    · exact blown_refl _
  have hv2 : keepsFuses s v2 := by
    dsimp -zeta only [v2]
    split
    · refine blown_then ?_ (blown_of (resetNet_only ..) rfl) rfl
      refine blown_ite ?_ ?_
      · refine blown_then ?_ (blown_of (raise_only ..) rfl) rfl
        exact blown_refl _
      · exact blown_refl _
    · refine blown_then ?_ (blown_of (resetCle_only ..) rfl) rfl
      refine blown_ite ?_ ?_
      · refine blown_then ?_ (blown_of (raise_only ..) rfl) rfl
        exact blown_refl _
      · exact blown_refl _
    · refine blown_then ?_ (blown_of (resetLce_only ..) rfl) rfl
      refine blown_ite ?_ ?_
      · refine blown_then ?_ (blown_of (raise_only ..) rfl) rfl
        exact blown_refl _
      · exact blown_refl _
    · refine blown_then ?_ (blown_of (resetCrc_only ..) rfl) rfl
      refine blown_ite ?_ ?_
      · refine blown_then ?_ (blown_of (raise_only ..) rfl) rfl
        exact blown_refl _
      · exact blown_refl _
    · refine blown_then ?_ (blown_of (resetHkp_only ..) rfl) rfl
      refine blown_ite ?_ ?_
      · refine blown_then ?_ (blown_of (raise_only ..) rfl) rfl
        exact blown_refl _
      · exact blown_refl _
    · refine blown_then ?_ (blown_of (resetFlt_only ..) rfl) rfl
      refine blown_ite ?_ ?_
      · refine blown_then ?_ (blown_of (raise_only ..) rfl) rfl
        exact blown_refl _
      · exact blown_refl _
    · refine blown_then ?_ (resetSaf_blown _) rfl
      refine blown_ite ?_ ?_
      · refine blown_then ?_ (blown_of (raise_only ..) rfl) rfl
        exact blown_refl _
      · exact blown_refl _
    · refine blown_then ?_ (resetKps_blown _) rfl
      refine blown_ite ?_ ?_
      · refine blown_then ?_ (blown_of (raise_only ..) rfl) rfl
        exact blown_refl _
      · exact blown_refl _
    · refine blown_then ?_ (blown_of (resetCbl_only ..) rfl) rfl
      exact hv1
  refine blown_then ?_ (blown_of (modRst_only ..) rfl) rfl
  exact hv2

theorem resetOrDefer_blown (s : State) (b : Nat) : keepsFuses s (resetOrDefer s b) := by
  unfold resetOrDefer
  refine blown_ite ?_ ?_
  · refine blown_then ?_ (resetBlock_blown _ _) rfl
    exact blown_refl _
  · refine blown_then ?_ (blown_of (modRst_only ..) rfl) rfl
    exact blown_refl _

theorem deferredResets_blown (s : State) : keepsFuses s (deferredResets s) := by
  unfold deferredResets
  refine foldl_blown ?_ (fun t3 a3 => ?_)
  · refine blown_then ?_ (blown_of (modRst_only ..) rfl) rfl
    exact blown_refl _
  · refine blown_then ?_ (resetBlock_blown _ _) rfl
    exact blown_refl _

theorem writeRstBlock_blown (s : State) (v : Word) : keepsFuses s (writeRstBlock s v) := by
  unfold writeRstBlock
  extract_lets v4
  refine blown_ite ?_ ?_
  · refine blown_then ?_ (blown_of (modRst_only ..) rfl) rfl
    exact blown_refl _
  · refine blown_ite ?_ ?_
    · exact blown_refl _
    · refine foldl_blown ?_ (fun t5 a5 => ?_)
      · refine blown_then ?_ (blown_of (modRst_only ..) rfl) rfl
        exact blown_refl _
      · refine blown_then ?_ (resetOrDefer_blown _ _) rfl
        exact blown_refl _

theorem blockReleases_blown (s : State) (b : Nat) : keepsFuses s (blockReleases s b) := by
  unfold blockReleases
  refine blown_ite ?_ ?_
  · exact blown_refl _
  · extract_lets v6
    have hv6 : keepsFuses s v6 := by
      refine blown_then ?_ (blown_of (modRst_only ..) rfl) rfl
      exact blown_refl _
    split
    · refine blown_then ?_ (blown_of (settle_only ..) rfl) rfl
      refine blown_then ?_ (blown_of (beginJudging_only ..) rfl) rfl
      refine blown_then ?_ (blown_of (modRst_only ..) rfl) rfl
      exact blown_refl _
    · refine blown_then ?_ (kpsReady_blown _) rfl
      refine blown_then ?_ (blown_of (modRst_only ..) rfl) rfl
      exact blown_refl _
    · exact hv6

theorem writeRstCmd_blown (s : State) (v : Word) : keepsFuses s (writeRstCmd s v) := by
  unfold writeRstCmd
  refine blown_ite ?_ ?_
  · exact blown_refl _
  · split
    · refine blown_then ?_ (sourceAsserts_blown _ _) rfl
      exact blown_refl _
    · refine blown_then ?_ (sourceAsserts_blown _ _) rfl
      exact blown_refl _
    · refine blown_then ?_ (sourceAsserts_blown _ _) rfl
      exact blown_refl _
    · exact blown_refl _

theorem faultReset_blown (s : State) : keepsFuses s (faultReset s) := by
  unfold faultReset
  refine blown_ite ?_ ?_
  · refine blown_then ?_ (sourceAsserts_blown _ _) rfl
    exact blown_refl _
  · exact blown_refl _

theorem askBlock_blown (s : State) (code : Nat) (target : Nat) : keepsFuses s (askBlock s code target) := by
  unfold askBlock
  extract_lets v65
  have hv65 : keepsFuses s v65 := by
    refine blown_then ?_ (blown_of (modPwr_only ..) rfl) rfl
    exact blown_refl _
  refine blown_ite ?_ ?_
  · refine blown_then ?_ (requestCheckpoint_blown _) rfl
    exact hv65
  · exact hv65

theorem blockAnswers_blown (s0 : State) : keepsFuses s0 (blockAnswers s0) := by
  unfold blockAnswers
  extract_lets v67
  have hv67 : keepsFuses s0 v67 := by
    refine blown_ite ?_ ?_
    · refine blown_then ?_ (blown_of (linkRests_only ..) rfl) rfl
      exact blown_refl _
    · exact blown_refl _
  refine blown_ite ?_ ?_
  · exact hv67
  · refine blown_ite ?_ ?_
    · refine blown_then ?_ (blown_of (refuseEntry_only ..) rfl) rfl
      exact hv67
    · refine blown_ite ?_ ?_
      · exact hv67
      · split
        · refine blown_then ?_ (askBlock_blown _ _ _) rfl
          refine blown_then ?_ (blown_of (modPwr_only ..) rfl) rfl
          refine blown_then ?_ (blown_of (blockAgrees_only ..) rfl) rfl
          exact hv67
        · refine blown_then ?_ (blown_of (allAgreed_only ..) rfl) rfl
          refine blown_then ?_ (blown_of (modPwr_only ..) rfl) rfl
          refine blown_then ?_ (blown_of (blockAgrees_only ..) rfl) rfl
          exact hv67

theorem entryEnds_blown (s : State) : keepsFuses s (entryEnds s) := by
  unfold entryEnds
  refine blown_ite ?_ ?_
  · exact blown_refl _
  · extract_lets v12 v13 v14 v15 v16
    have hv13 : keepsFuses s v13 := by
      refine blown_then ?_ (blown_of (entryLosses_only ..) rfl) rfl
      exact blown_refl _
    have hv14 : keepsFuses s v14 := by
      refine blown_ite ?_ ?_
      · refine blown_then ?_ (hostDown_blown _) rfl
        refine blown_then ?_ (blown_of (modPwr_only ..) rfl) rfl
        exact hv13
      · exact hv13
    have hv15 : keepsFuses s v15 := by
      refine blown_then ?_ (blown_of (modPwr_only ..) rfl) rfl
      exact hv14
    have hv16 : keepsFuses s v16 := by
      refine blown_ite ?_ ?_
      · refine blown_then ?_ (blown_of (netLost_only ..) rfl) rfl
        exact hv15
      · exact hv15
    refine blown_ite ?_ ?_
    · refine blown_then ?_ (kpsTake_blown _) rfl
      exact hv16
    · refine blown_then ?_ (blown_of (beginExit_only ..) rfl) rfl
      exact hv16

theorem domainGood_blown (s : State) (d : Nat) : keepsFuses s (domainGood s d) := by
  unfold domainGood
  refine blown_ite ?_ ?_
  · extract_lets v17
    have hv17 : keepsFuses s v17 := by
      refine blown_then ?_ (blown_of (hostCheck_only ..) rfl) rfl
      refine blown_then ?_ (blown_of (modPwr_only ..) rfl) rfl
      exact blown_refl _
    refine blown_ite ?_ ?_
    · refine blown_then ?_ (blown_of (raiseOwed_only ..) rfl) rfl
      exact hv17
    · refine blown_ite ?_ ?_
      · refine blown_then ?_ (kpsTake_blown _) rfl
        exact hv17
      · exact hv17
  · exact blown_refl _

theorem saveLosses_blown (s : State) (off : Bool) : keepsFuses s (saveLosses s off) := by
  unfold saveLosses
  extract_lets v23 v24
  have hv23 : keepsFuses s v23 := by
    refine blown_then ?_ (blown_of (healthLost_only ..) rfl) rfl
    refine blown_then ?_ (doseLoad_blown _) rfl
    refine blown_then ?_ (calibLoad_blown _) rfl
    exact blown_refl _
  have hv24 : keepsFuses s v24 := by
    refine foldl_blown ?_ (fun t31 a31 => ?_)
    · exact hv23
    · refine foldl_blown ?_ (fun t32 a32 => ?_)
      · exact blown_refl _
      · refine blown_then ?_ (blown_of (extentLost_only ..) rfl) rfl
        exact blown_refl _
  refine foldl_blown ?_ (fun t33 a33 => ?_)
  · exact hv24
  · refine blown_then ?_ (blown_of (modShd_only ..) rfl) rfl
    refine blown_then ?_ (blown_of (modBld_only ..) rfl) rfl
    exact blown_refl _

theorem exitRuns_blown (s : State) : keepsFuses s (exitRuns s) := by
  unfold exitRuns
  extract_lets v28
  have hv28 : keepsFuses s v28 := by
    refine blown_then ?_ (blown_of (modPwr_only ..) rfl) rfl
    refine blown_then ?_ (blown_of (lanesBack_only ..) rfl) rfl
    exact blown_refl _
  refine blown_then ?_ (kpsTake_blown _) rfl
  refine blown_then ?_ (blown_of (edgesReplay_only ..) rfl) rfl
  refine blown_then ?_ (blown_of (rxFlush_only ..) rfl) rfl
  refine blown_then ?_ (blown_of (rxFlush_only ..) rfl) rfl
  refine blown_then ?_ (blown_of (hostCheck_only ..) rfl) rfl
  refine blown_then ?_ (deferredResets_blown _) rfl
  exact hv28

theorem exitEnds_blown (s : State) (crcOk : Bool) : keepsFuses s (exitEnds s crcOk) := by
  unfold exitEnds
  refine blown_ite ?_ ?_
  · exact blown_refl _
  · extract_lets v29 v30
    refine blown_ite ?_ ?_
    · refine blown_then ?_ (sourceAsserts_blown _ _) rfl
      refine blown_then ?_ (blown_of (raise_only ..) rfl) rfl
      refine blown_then ?_ (blown_of (modPwr_only ..) rfl) rfl
      exact blown_refl _
    · refine blown_then ?_ (exitRuns_blown _) rfl
      refine blown_ite ?_ ?_
      · refine blown_then ?_ (blown_of (offLosses_only ..) rfl) rfl
        refine blown_ite ?_ ?_
        · refine blown_then ?_ (saveLosses_blown _ _) rfl
          refine blown_then ?_ (blown_of (modPwr_only ..) rfl) rfl
          exact blown_refl _
        · exact blown_refl _
      · refine blown_ite ?_ ?_
        · refine blown_then ?_ (saveLosses_blown _ _) rfl
          refine blown_then ?_ (blown_of (modPwr_only ..) rfl) rfl
          exact blown_refl _
        · exact blown_refl _

theorem proposeFound_blown (s : State) (kind : Nat) (next : Option Nat) : keepsFuses s (proposeFound s kind next) := by
  unfold proposeFound
  split
  · refine blown_then ?_ (cblFind_blown _ _ _ _) rfl
    refine blown_then ?_ (blown_of (modCbl_only ..) rfl) rfl
    exact blown_refl _
  · exact blown_refl _

theorem proposeNext_blown (s : State) (kind : Nat) : keepsFuses s (proposeNext s kind) := by
  unfold proposeNext
  refine blown_ite ?_ ?_
  · exact blown_refl _
  · split
    · refine blown_then ?_ (proposeFound_blown _ _ _) rfl
      exact blown_refl _
    · refine blown_then ?_ (proposeFound_blown _ _ _) rfl
      exact blown_refl _
    · refine blown_then ?_ (pixelPropose_blown _ _) rfl
      refine blown_then ?_ (pixelPropose_blown _ _) rfl
      exact blown_refl _
    · exact blown_refl _

theorem proposalActs_blown (s : State) (kind : Nat) (p : Proposal) : keepsFuses s (proposalActs s kind p) := by
  unfold proposalActs
  split
  · refine blown_then ?_ (blown_of (modLmm_only ..) rfl) rfl
    exact blown_refl _
  · refine blown_then ?_ (kpsRequest_blown _ _) rfl
    exact blown_refl _
  · extract_lets v39
    refine blown_then ?_ (forwardRequest_blown _ _ _ _) rfl
    exact blown_refl _
  · refine blown_then ?_ (blown_of (modPxc_only ..) rfl) rfl
    exact blown_refl _

theorem approveProposal_blown (s : State) (kind : Nat) (p : Proposal) : keepsFuses s (approveProposal s kind p) := by
  unfold approveProposal
  split
  extract_lets v37 v38
  have hv37 : keepsFuses s v37 := by
    refine blown_then ?_ (cblRecord_blown _ _ _ _ _) rfl
    refine blown_then ?_ (blown_of (setProposal_only ..) rfl) rfl
    refine blown_snd (by assumption) ?_
    refine blown_then ?_ (blown_of (drawBelow_only ..) rfl) rfl
    exact blown_refl _
  have hv38 : keepsFuses s v38 := by
    refine blown_then ?_ (blown_of (modCbl_only ..) rfl) rfl
    exact hv37
  refine blown_then ?_ (proposeNext_blown _ _) rfl
  refine blown_then ?_ (proposalActs_blown _ _ _) rfl
  exact hv38

theorem declineProposal_blown (s : State) (kind : Nat) (p : Proposal) : keepsFuses s (declineProposal s kind p) := by
  unfold declineProposal
  extract_lets v40 v41
  have hv40 : keepsFuses s v40 := by
    refine blown_then ?_ (cblClose_blown _ _ _) rfl
    exact blown_refl _
  have hv41 : keepsFuses s v41 := by
    dsimp -zeta only [v41]
    split
    · refine blown_then ?_ (blown_of (modBank_only ..) rfl) rfl
      refine blown_then ?_ (cblClose_blown _ _ _) rfl
      exact blown_refl _
    · refine blown_then ?_ (modSector_blown _ _ _) rfl
      refine blown_then ?_ (cblClose_blown _ _ _) rfl
      exact blown_refl _
    · exact hv40
  refine blown_then ?_ (proposeNext_blown _ _) rfl
  exact hv41

theorem lastWriteSectors_blown (s : State) (ring : Nat) (slot : Nat) (d : Desc) (bs : List Byte) : keepsFuses s (lastWriteSectors s ring slot d bs) := by
  unfold lastWriteSectors
  extract_lets v42 v43
  refine foldl_blown ?_ (fun t44 a44 => ?_)
  · exact blown_refl _
  · refine blown_then ?_ (kpsRequest_blown _ _) rfl
    exact blown_refl _

theorem lastWriteFetch_blown (s : State) (ring : Nat) (slot : Nat) (d : Desc) (data : HostRead) : keepsFuses s (lastWriteFetch s ring slot d data) := by
  unfold lastWriteFetch
  split
  · refine blown_then ?_ (blown_of (completeAt_only ..) rfl) rfl
    exact blown_refl _
  · refine blown_ite ?_ ?_
    · refine blown_then ?_ (blown_of (completeAt_only ..) rfl) rfl
      exact blown_refl _
    · split
      · refine blown_then ?_ (blown_of (completeAt_only ..) rfl) rfl
        refine blown_then ?_ (blown_of (hostFails_only ..) rfl) rfl
        exact blown_refl _
      · refine blown_then ?_ (blown_of (completeAt_only ..) rfl) rfl
        exact blown_refl _
      · extract_lets v45
        refine blown_ite ?_ ?_
        · refine blown_then ?_ (blown_of (completeAt_only ..) rfl) rfl
          exact blown_refl _
        · refine blown_then ?_ (lastWriteSectors_blown _ _ _ _ _) rfl
          exact blown_refl _

theorem scriptStarts_blown (s : State) : keepsFuses s (scriptStarts s) := by
  unfold scriptStarts
  split
  · refine blown_then ?_ (blown_of (modBoot_only ..) rfl) rfl
    exact blown_refl _
  · refine blown_then ?_ (blown_of (releaseEnds_only ..) rfl) rfl
    refine blown_then ?_ (blown_of (modBoot_only ..) rfl) rfl
    exact blown_refl _

theorem releaseStepEnds_blown (s : State) : keepsFuses s (releaseStepEnds s) := by
  unfold releaseStepEnds
  refine blown_ite ?_ ?_
  · exact blown_refl _
  · refine blown_ite ?_ ?_
    · refine blown_then ?_ (scriptStarts_blown _) rfl
      refine blown_then ?_ (blown_of (modRst_only ..) rfl) rfl
      refine blown_then ?_ (stepEnds_blown _ _) rfl
      exact blown_refl _
    · refine blown_then ?_ (stepEnds_blown _ _) rfl
      exact blown_refl _

theorem autolight_blown (s : State) : keepsFuses s (autolight s) := by
  unfold autolight
  refine blown_ite ?_ ?_
  · refine blown_then ?_ (blown_of (modBoot_only ..) rfl) rfl
    refine blown_then ?_ (blown_of (lightHead_only ..) rfl) rfl
    refine blown_then ?_ (blown_of (lightHead_only ..) rfl) rfl
    exact blown_refl _
  · exact blown_refl _

theorem scriptDone_blown (s : State) : keepsFuses s (scriptDone s) := by
  unfold scriptDone
  refine blown_then ?_ (autolight_blown _) rfl
  refine blown_then ?_ (blown_of (scriptEnds_only ..) rfl) rfl
  exact blown_refl _

theorem scriptFails_blown (s : State) (reason : Nat) : keepsFuses s (scriptFails s reason) := by
  unfold scriptFails
  refine blown_ite ?_ ?_
  · refine blown_then ?_ (blown_of (scriptEnds_only ..) rfl) rfl
    exact blown_refl _
  · extract_lets v47
    have hv47 : keepsFuses s v47 := by
      refine blown_then ?_ (blown_of (scriptEnds_only ..) rfl) rfl
      exact blown_refl _
    refine blown_ite ?_ ?_
    · refine blown_then ?_ (autolight_blown _) rfl
      exact hv47
    · exact hv47

theorem recordDone_blown (s : State) : keepsFuses s (recordDone s) := by
  unfold recordDone
  refine blown_ite ?_ ?_
  · refine blown_then ?_ (blown_of (scriptEnds_only ..) rfl) rfl
    exact blown_refl _
  · extract_lets v48
    refine blown_then ?_ (blown_of (modBoot_only ..) rfl) rfl
    exact blown_refl _

theorem recordFails_blown (s : State) (reason : Nat) : keepsFuses s (recordFails s reason) := by
  unfold recordFails
  refine blown_ite ?_ ?_
  · refine blown_then ?_ (recordDone_blown _) rfl
    exact blown_refl _
  · refine blown_then ?_ (scriptFails_blown _ _) rfl
    exact blown_refl _

theorem recordTimesOut_blown (s : State) : keepsFuses s (recordTimesOut s) := by
  unfold recordTimesOut
  refine blown_ite ?_ ?_
  · split
    · refine blown_then ?_ (recordFails_blown _ _) rfl
      exact blown_refl _
    · exact blown_refl _
  · exact blown_refl _

theorem bootRunNow_blown (s : State) : keepsFuses s (bootRunNow s) := by
  unfold bootRunNow
  refine blown_ite ?_ ?_
  · refine blown_then ?_ (scriptStarts_blown _) rfl
    exact blown_refl _
  · refine blown_then ?_ (blown_of (modRst_only ..) rfl) rfl
    exact blown_refl _

theorem bootStopNow_blown (s : State) : keepsFuses s (bootStopNow s) := by
  unfold bootStopNow
  refine blown_ite ?_ ?_
  · exact blown_refl _
  · refine blown_ite ?_ ?_
    · refine blown_then ?_ (blown_of (modBoot_only ..) rfl) rfl
      exact blown_refl _
    · refine blown_then ?_ (blown_of (scriptEnds_only ..) rfl) rfl
      exact blown_refl _

theorem writeBootCmd_blown (s : State) (v : Word) : keepsFuses s (writeBootCmd s v) := by
  unfold writeBootCmd
  split
  · refine blown_then ?_ (bootRunNow_blown _) rfl
    exact blown_refl _
  · refine blown_then ?_ (bootStopNow_blown _) rfl
    exact blown_refl _
  · exact blown_refl _

theorem slipSearchGo_blown (s : State) : keepsFuses s (slipSearchGo s) := by
  unfold slipSearchGo
  refine blown_ite ?_ ?_
  · exact blown_refl _
  · extract_lets v49 v50
    have hv50 : keepsFuses s v50 := by
      refine foldl_blown ?_ (fun t51 a51 => ?_)
      · refine blown_then ?_ (blown_of (modBoot_only ..) rfl) rfl
        exact blown_refl _
      · refine blown_ite ?_ ?_
        · exact blown_refl _
        · refine blown_then ?_ (blown_of (startSearch_only ..) rfl) rfl
          exact blown_refl _
    refine blown_ite ?_ ?_
    · refine blown_then ?_ (recordDone_blown _) rfl
      exact hv50
    · exact hv50

theorem slipSearchFailed_blown (s : State) (l : Nat) : keepsFuses s (slipSearchFailed s l) := by
  unfold slipSearchFailed
  refine blown_ite ?_ ?_
  · refine blown_then ?_ (recordFails_blown _ _) rfl
    exact blown_refl _
  · exact blown_refl _

theorem loadTile_blown (s : State) (h : Head) (t : Nat) (off : Nat) (status : Bool) : keepsFuses s (loadTile s h t off status) := by
  unfold loadTile
  extract_lets v54
  split
  split
  · refine blown_ite ?_ ?_
    · refine blown_ite ?_ ?_
      · refine blown_then ?_ (blown_of (setRecTile_only ..) rfl) rfl
        refine blown_then ?_ (blown_of (sendPackets_only ..) rfl) rfl
        exact blown_refl _
      · refine blown_then ?_ (blown_of (setRecTile_only ..) rfl) rfl
        refine blown_then ?_ (blown_of (sendPackets_only ..) rfl) rfl
        exact blown_refl _
    · exact blown_refl _
  · refine blown_ite ?_ ?_
    · refine blown_ite ?_ ?_
      · refine blown_then ?_ (blown_of (setRecTile_only ..) rfl) rfl
        exact blown_refl _
      · refine blown_then ?_ (blown_of (setRecTile_only ..) rfl) rfl
        refine blown_then ?_ (blown_of (sendPackets_only ..) rfl) rfl
        exact blown_refl _
    · exact blown_refl _
  · refine blown_ite ?_ ?_
    · refine blown_then ?_ (blown_of (setRecTile_only ..) rfl) rfl
      exact blown_refl _
    · exact blown_refl _
  · exact blown_refl _

theorem loadTilesGo_blown (s : State) (status : Option (Head × Nat)) : keepsFuses s (loadTilesGo s status) := by
  unfold loadTilesGo
  refine blown_ite ?_ ?_
  · exact blown_refl _
  · extract_lets v52
    refine blown_ite ?_ ?_
    · refine blown_then ?_ (recordFails_blown _ _) rfl
      exact blown_refl _
    · refine blown_ite ?_ ?_
      · refine blown_then ?_ (recordDone_blown _) rfl
        refine foldl_blown ?_ (fun t55 a55 => ?_)
        · exact blown_refl _
        · refine blown_then ?_ (loadTile_blown _ _ _ _ _) rfl
          exact blown_refl _
      · refine foldl_blown ?_ (fun t57 a57 => ?_)
        · exact blown_refl _
        · refine blown_then ?_ (loadTile_blown _ _ _ _ _) rfl
          exact blown_refl _

theorem noteEntries_blown (s : State) (h : Head) : keepsFuses s (noteEntries s h) := by
  unfold noteEntries
  refine foldl_blown ?_ (fun t53 a53 => ?_)
  · exact blown_refl _
  · refine blown_then ?_ (blown_of (modTbl_only ..) rfl) rfl
    exact blown_refl _

theorem recordGoes_blown (s : State) (status : Option (Head × Nat)) : keepsFuses s (recordGoes s status) := by
  unfold recordGoes
  refine blown_then ?_ (loadTilesGo_blown _ _) rfl
  refine blown_then ?_ (slipSearchGo_blown _) rfl
  exact blown_refl _

theorem doseCheckpoint_blown (s : State) : keepsFuses s (doseCheckpoint s) := by
  unfold doseCheckpoint
  refine blown_ite ?_ ?_
  · refine blown_then ?_ (requestCheckpoint_blown _) rfl
    exact blown_refl _
  · exact blown_refl _

theorem readWord_blown (s : State) (idx : Nat) : keepsFuses s (readWord s idx).2 := by
  unfold readWord
  dsimp only
  split
  · refine blown_then ?_ (blown_of (readGpio_only ..) rfl) rfl
    exact blown_refl _
  · refine blown_then ?_ (blown_of (readPos_only ..) rfl) rfl
    exact blown_refl _
  · refine blown_then ?_ (blown_of (readPos_only ..) rfl) rfl
    exact blown_refl _
  · refine blown_then ?_ (blown_of (readSlewRem_only ..) rfl) rfl
    exact blown_refl _
  · dsimp -zeta only
    refine blown_then ?_ (blown_of (latchNow_only ..) rfl) rfl
    exact blown_refl _
  · split
    · dsimp -zeta only
      refine blown_then ?_ (blown_of (drawBelow_only ..) rfl) rfl
      exact blown_refl _
    · dsimp -zeta only
      exact blown_refl _
  · refine blown_then ?_ (blown_of (readTimer_only ..) rfl) rfl
    exact blown_refl _
  · refine blown_then ?_ (blown_of (readBoot_only ..) rfl) rfl
    exact blown_refl _
  · split
    · dsimp -zeta only
      refine blown_then ?_ (blown_of (drawBelow_only ..) rfl) rfl
      exact blown_refl _
    · dsimp -zeta only
      exact blown_refl _
  · refine blown_then ?_ (windowWord_blown _ _) rfl
    exact blown_refl _
  · refine blown_then ?_ (windowReadHiOp_blown _) rfl
    exact blown_refl _
  · split
    · dsimp -zeta only
      refine blown_then ?_ (blown_of (capturePops_only ..) rfl) rfl
      exact blown_refl _
    · split
      · refine blown_then ?_ (blown_of (readSlot_only ..) rfl) rfl
        exact blown_refl _
      · dsimp -zeta only
        exact blown_refl _

theorem writeRng_blown (s : State) (idx : Nat) (o : Nat) (v : Word) : keepsFuses s (writeRng s idx o v) := by
  unfold writeRng
  split
  · refine blown_then ?_ (blown_of (writeRngCtrl_only ..) rfl) rfl
    exact blown_refl _
  · refine blown_then ?_ (writeJournal_blown _ _) rfl
    exact blown_refl _
  · refine blown_ite ?_ ?_
    · extract_lets v6
      split
      · refine blown_then ?_ (blown_of (writeRingCfg_only ..) rfl) rfl
        exact blown_refl _
      · refine blown_then ?_ (blown_of (modRing_only ..) rfl) rfl
        exact blown_refl _
      · refine blown_then ?_ (blown_of (plainWrite_only ..) rfl) rfl
        exact blown_refl _
    · refine blown_then ?_ (blown_of (plainWrite_only ..) rfl) rfl
      exact blown_refl _

theorem writeTg_blown (s : State) (h : Head) (idx : Nat) (o : Nat) (v : Word) : keepsFuses s (writeTg s h idx o v) := by
  unfold writeTg
  split
  · refine blown_then ?_ (writeTgCtrl_blown _ _ _) rfl
    exact blown_refl _
  · refine blown_then ?_ (blown_of (modTg_only ..) rfl) rfl
    exact blown_refl _
  · refine blown_ite ?_ ?_
    · refine blown_then ?_ (blown_of (commitWrite_only ..) rfl) rfl
      exact blown_refl _
    · exact blown_refl _
  · refine blown_then ?_ (blown_of (stoppedWrite_only ..) rfl) rfl
    exact blown_refl _
  · refine blown_then ?_ (blown_of (stoppedWrite_only ..) rfl) rfl
    exact blown_refl _
  · refine blown_ite ?_ ?_
    · refine blown_ite ?_ ?_
      · refine blown_then ?_ (blown_of (reconfigure_only ..) rfl) rfl
        refine blown_then ?_ (blown_of (plainWrite_only ..) rfl) rfl
        exact blown_refl _
      · refine blown_then ?_ (blown_of (timingRefused_only ..) rfl) rfl
        exact blown_refl _
    · refine blown_then ?_ (blown_of (plainWrite_only ..) rfl) rfl
      exact blown_refl _

theorem writeTbl_blown (s : State) (h : Head) (idx : Nat) (o : Nat) (v : Word) : keepsFuses s (writeTbl s h idx o v) := by
  unfold writeTbl
  split
  · refine blown_then ?_ (blown_of (writeTblCtrl_only ..) rfl) rfl
    exact blown_refl _
  · refine blown_then ?_ (writeFwd_blown _ _ _) rfl
    exact blown_refl _
  · refine blown_then ?_ (blown_of (writeReq_only ..) rfl) rfl
    exact blown_refl _
  · refine blown_then ?_ (blown_of (plainWrite_only ..) rfl) rfl
    exact blown_refl _

theorem writeSaf_blown (s : State) (idx : Nat) (o : Nat) (v : Word) : keepsFuses s (writeSaf s idx o v) := by
  unfold writeSaf
  split
  · refine blown_then ?_ (blown_of (modSaf_only ..) rfl) rfl
    exact blown_refl _
  · refine blown_then ?_ (writeUnlock_blown _ _) rfl
    exact blown_refl _
  · refine blown_then ?_ (blown_of (modSaf_only ..) rfl) rfl
    exact blown_refl _
  · refine blown_then ?_ (blown_of (modSaf_only ..) rfl) rfl
    exact blown_refl _
  · refine blown_then ?_ (blown_of (writeHb_only ..) rfl) rfl
    exact blown_refl _
  · refine blown_then ?_ (blown_of (modSaf_only ..) rfl) rfl
    exact blown_refl _
  · refine blown_ite ?_ ?_
    · exact blown_refl _
    · refine blown_then ?_ (blown_of (plainWrite_only ..) rfl) rfl
      exact blown_refl _

theorem writeRst_blown (s : State) (o : Nat) (v : Word) : keepsFuses s (writeRst s o v) := by
  unfold writeRst
  split
  · refine blown_then ?_ (blown_of (modRst_only ..) rfl) rfl
    exact blown_refl _
  · refine blown_then ?_ (writeRstCmd_blown _ _) rfl
    exact blown_refl _
  · refine blown_then ?_ (writeRstBlock_blown _ _) rfl
    exact blown_refl _
  · refine blown_then ?_ (blown_of (modRst_only ..) rfl) rfl
    exact blown_refl _
  · refine blown_then ?_ (writeBootCmd_blown _ _) rfl
    exact blown_refl _
  · exact blown_refl _

theorem writePxcHead_blown (s : State) (h : Head) (idx : Nat) (o : Nat) (v : Word) : keepsFuses s (writePxcHead s h idx o v) := by
  unfold writePxcHead
  split
  · refine blown_ite ?_ ?_
    · refine blown_then ?_ (blown_of (reconfigure_only ..) rfl) rfl
      refine blown_then ?_ (blown_of (plainWrite_only ..) rfl) rfl
      exact blown_refl _
    · exact blown_refl _
  · refine blown_then ?_ (clearHealth_blown _ _ _) rfl
    exact blown_refl _
  · refine blown_then ?_ (blown_of (plainWrite_only ..) rfl) rfl
    exact blown_refl _

theorem writePxc_blown (s : State) (idx : Nat) (o : Nat) (v : Word) : keepsFuses s (writePxc s idx o v) := by
  unfold writePxc
  split
  · refine blown_trans ?_ (blown_of (raw_pxc (onlyChanges_refl [.pxc] _) rfl) rfl)
    exact blown_refl _
  · refine blown_ite ?_ ?_
    · refine blown_then ?_ (doseCheckpoint_blown _) rfl
      refine blown_then ?_ (blown_of (plainWrite_only ..) rfl) rfl
      exact blown_refl _
    · refine blown_then ?_ (blown_of (plainWrite_only ..) rfl) rfl
      exact blown_refl _
  · refine blown_ite ?_ ?_
    · refine blown_then ?_ (blown_of (writeAging_only ..) rfl) rfl
      exact blown_refl _
    · refine blown_ite ?_ ?_
      · refine blown_then ?_ (writePxcHead_blown _ _ _ _ _) rfl
        exact blown_refl _
      · refine blown_ite ?_ ?_
        · refine blown_then ?_ (writePxcHead_blown _ _ _ _ _) rfl
          exact blown_refl _
        · refine blown_then ?_ (blown_of (plainWrite_only ..) rfl) rfl
          exact blown_refl _

theorem writeKps_blown (s : State) (idx : Nat) (o : Nat) (v : Word) : keepsFuses s (writeKps s idx o v) := by
  unfold writeKps
  split
  · refine blown_then ?_ (blown_of (spareLevel_only ..) rfl) rfl
    refine blown_then ?_ (blown_of (plainWrite_only ..) rfl) rfl
    exact blown_refl _
  · refine blown_then ?_ (modKps_blown _ _ (by rfl)) rfl
    exact blown_refl _
  · refine blown_then ?_ (fuseProgramWrite_blown _ _) rfl
    exact blown_refl _
  · refine blown_then ?_ (modKps_blown _ _ (by rfl)) rfl
    exact blown_refl _
  · refine blown_then ?_ (blown_of (plainWrite_only ..) rfl) rfl
    exact blown_refl _

theorem routeWrite_blown (s : State) (idx : Nat) (v : Word) : keepsFuses s (routeWrite s idx v) := by
  unfold routeWrite
  extract_lets v13 v14
  split
  · refine blown_then ?_ (blown_of (writeGlb_only ..) rfl) rfl
    exact blown_refl _
  · refine blown_then ?_ (blown_of (writeHif_only ..) rfl) rfl
    exact blown_refl _
  · refine blown_then ?_ (writeRng_blown _ _ _ _) rfl
    exact blown_refl _
  · refine blown_then ?_ (blown_of (writeLmm_only ..) rfl) rfl
    exact blown_refl _
  · refine blown_then ?_ (blown_of (writeLy_only ..) rfl) rfl
    exact blown_refl _
  · refine blown_then ?_ (blown_of (writeLy_only ..) rfl) rfl
    exact blown_refl _
  · refine blown_then ?_ (writeTg_blown _ _ _ _ _) rfl
    exact blown_refl _
  · refine blown_then ?_ (writeTg_blown _ _ _ _ _) rfl
    exact blown_refl _
  · refine blown_then ?_ (blown_of (writeLn_only ..) rfl) rfl
    exact blown_refl _
  · refine blown_then ?_ (blown_of (writeLn_only ..) rfl) rfl
    exact blown_refl _
  · refine blown_then ?_ (blown_of (writeLn_only ..) rfl) rfl
    exact blown_refl _
  · refine blown_ite ?_ ?_
    · refine blown_then ?_ (writeTbl_blown _ _ _ _ _) rfl
      exact blown_refl _
    · refine blown_ite ?_ ?_
      · refine blown_then ?_ (writeTbl_blown _ _ _ _ _) rfl
        exact blown_refl _
      · exact blown_refl _
  · refine blown_then ?_ (blown_of (writeNet_only ..) rfl) rfl
    exact blown_refl _
  · refine blown_then ?_ (blown_of (writeTim_only ..) rfl) rfl
    exact blown_refl _
  · refine blown_then ?_ (blown_of (writeCle_only ..) rfl) rfl
    exact blown_refl _
  · refine blown_then ?_ (blown_of (writeLce_only ..) rfl) rfl
    exact blown_refl _
  · refine blown_then ?_ (blown_of (writeCrc_only ..) rfl) rfl
    exact blown_refl _
  · refine blown_then ?_ (blown_of (writeFlt_only ..) rfl) rfl
    exact blown_refl _
  · refine blown_then ?_ (writeSaf_blown _ _ _ _) rfl
    exact blown_refl _
  · refine blown_then ?_ (blown_of (writeHkp_only ..) rfl) rfl
    exact blown_refl _
  · refine blown_then ?_ (blown_of (writePwr_only ..) rfl) rfl
    exact blown_refl _
  · refine blown_then ?_ (writeRst_blown _ _ _) rfl
    exact blown_refl _
  · refine blown_then ?_ (blown_of (plainWrite_only ..) rfl) rfl
    exact blown_refl _
  · refine blown_ite ?_ ?_
    · refine blown_then ?_ (writePxc_blown _ _ _ _) rfl
      exact blown_refl _
    · refine blown_ite ?_ ?_
      · refine blown_then ?_ (writeKps_blown _ _ _ _) rfl
        exact blown_refl _
      · refine blown_ite ?_ ?_
        · refine blown_then ?_ (blown_of (writeShd_only ..) rfl) rfl
          exact blown_refl _
        · refine blown_ite ?_ ?_
          · refine blown_then ?_ (blown_of (writeBld_only ..) rfl) rfl
            exact blown_refl _
          · exact blown_refl _

theorem wordWrite_blown (s : State) (idx : Nat) (v : Word) : keepsFuses s (wordWrite s idx v) := by
  unfold wordWrite
  refine blown_ite ?_ ?_
  · refine blown_then ?_ (routeWrite_blown _ _ _) rfl
    exact blown_refl _
  · refine blown_then ?_ (routeWrite_blown _ _ _) rfl
    refine blown_then ?_ (blown_of (freshParity_only ..) rfl) rfl
    exact blown_refl _

theorem portWrite_blown (s0 : State) (b : Bus) (addr : Nat) (whole : Bool) (v : Word) : keepsFuses s0 (portWrite s0 b addr whole v).2 := by
  unfold portWrite
  extract_lets v17 v18
  have hv17 : keepsFuses s0 v17 := by
    refine blown_ite ?_ ?_
    · refine blown_then ?_ (blown_of (linkWakes_only ..) rfl) rfl
      exact blown_refl _
    · exact blown_refl _
  split
  · dsimp -zeta only
    exact hv17
  · split
    · dsimp -zeta only
      exact hv17
    · split
      · dsimp -zeta only
        refine blown_then ?_ (blown_of (modGlb_only ..) rfl) rfl
        refine blown_then ?_ (blown_of (noteAccess_only ..) rfl) rfl
        exact hv17
      · split
        · dsimp -zeta only
          refine blown_then ?_ (blown_of (modRst_only ..) rfl) rfl
          exact hv17
        · split
          · dsimp -zeta only
            refine blown_then ?_ (blown_of (noteOff_only ..) rfl) rfl
            exact hv17
          · split
            · dsimp -zeta only
              refine blown_then ?_ (blown_of (pageWrite_only ..) rfl) rfl
              refine blown_ite ?_ ?_
              · exact hv17
              · refine blown_then ?_ (blown_of (idleExits_only ..) rfl) rfl
                exact hv17
            · dsimp -zeta only
              refine blown_then ?_ (wordWrite_blown _ _ _) rfl
              refine blown_ite ?_ ?_
              · exact hv17
              · refine blown_then ?_ (blown_of (idleExits_only ..) rfl) rfl
                exact hv17

theorem portRead_blown (s0 : State) (b : Bus) (addr : Nat) (upset : Bool) : keepsFuses s0 (portRead s0 b addr upset).2.2 := by
  unfold portRead
  extract_lets v19 v20
  have hv19 : keepsFuses s0 v19 := by
    refine blown_ite ?_ ?_
    · refine blown_then ?_ (blown_of (linkWakes_only ..) rfl) rfl
      exact blown_refl _
    · exact blown_refl _
  split
  · dsimp -zeta only
    exact hv19
  · split
    · dsimp -zeta only
      exact hv19
    · split
      · dsimp -zeta only
        refine blown_then ?_ (blown_of (noteOff_only ..) rfl) rfl
        exact hv19
      · split
        · dsimp -zeta only
          exact hv19
        · split
          extract_lets v27
          have hv27 : keepsFuses s0 v27 := by
            refine blown_ite ?_ ?_
            · refine blown_then ?_ (blown_of (noteAccess_only ..) rfl) rfl
              refine blown_snd (by assumption) ?_
              refine blown_then ?_ (blown_of (checkParity_only ..) rfl) rfl
              exact hv19
            · refine blown_snd (by assumption) ?_
              refine blown_then ?_ (blown_of (checkParity_only ..) rfl) rfl
              exact hv19
          split
          dsimp -zeta only
          refine blown_snd (by assumption) ?_
          refine blown_then ?_ (readWord_blown _ _) rfl
          exact hv27

theorem svcWriteFrame_blown (s : State) (frame : List Byte) : keepsFuses s (svcWriteFrame s frame) := by
  unfold svcWriteFrame
  split
  extract_lets v24
  refine blown_ite ?_ ?_
  · refine blown_then ?_ (blown_of (svcCrcError_only ..) rfl) rfl
    refine blown_thd (by assumption) ?_
    refine blown_then ?_ (blown_of (svcCheck_only ..) rfl) rfl
    exact blown_refl _
  · refine blown_ite ?_ ?_
    · refine blown_then ?_ (blown_of (svcAnswer_only ..) rfl) rfl
      refine blown_thd (by assumption) ?_
      refine blown_then ?_ (blown_of (svcCheck_only ..) rfl) rfl
      exact blown_refl _
    · split
      refine blown_then ?_ (blown_of (svcAnswer_only ..) rfl) rfl
      refine blown_snd (by assumption) ?_
      refine blown_then ?_ (portWrite_blown _ _ _ _ _) rfl
      refine blown_thd (by assumption) ?_
      refine blown_then ?_ (blown_of (svcCheck_only ..) rfl) rfl
      exact blown_refl _

theorem svcReadFrame_blown (s : State) (frame : List Byte) (upset : Bool) : keepsFuses s (svcReadFrame s frame upset) := by
  unfold svcReadFrame
  split
  extract_lets v25
  refine blown_ite ?_ ?_
  · refine blown_then ?_ (blown_of (svcCrcError_only ..) rfl) rfl
    refine blown_thd (by assumption) ?_
    refine blown_then ?_ (blown_of (svcCheck_only ..) rfl) rfl
    exact blown_refl _
  · refine blown_ite ?_ ?_
    · refine blown_then ?_ (blown_of (svcAnswer_only ..) rfl) rfl
      refine blown_thd (by assumption) ?_
      refine blown_then ?_ (blown_of (svcCheck_only ..) rfl) rfl
      exact blown_refl _
    · split
      refine blown_then ?_ (blown_of (svcAnswer_only ..) rfl) rfl
      refine blown_thd (by assumption) ?_
      refine blown_then ?_ (portRead_blown _ _ _ _) rfl
      refine blown_thd (by assumption) ?_
      refine blown_then ?_ (blown_of (svcCheck_only ..) rfl) rfl
      exact blown_refl _

theorem writeThrough_blown (b : Bus) (addr : Nat) (whole : Bool) (v : Word) (s : State) : keepsFuses s (writeThrough b addr whole v s) := by
  unfold writeThrough
  split
  · refine blown_ite ?_ ?_
    · refine blown_then ?_ (portWrite_blown _ _ _ _ _) rfl
      exact blown_refl _
    · exact blown_refl _
  · refine blown_ite ?_ ?_
    · refine blown_then ?_ (svcWriteFrame_blown _ _) rfl
      exact blown_refl _
    · exact blown_refl _
  · exact blown_refl _

theorem busWrite_blown (s : State) (b : Bus) (addr : Nat) (whole : Bool) (v : Word) : keepsFuses s (busWrite s b addr whole v) := by
  unfold busWrite
  refine inOneCycle_blown (fun t26 => ?_) rfl
  refine blown_then ?_ (writeThrough_blown _ _ _ _ _) rfl
  exact blown_refl _

theorem pcieRead_blown (s : State) (addr : Nat) (enables : Nat) (upset : Bool) : keepsFuses s (pcieRead s addr enables upset) := by
  unfold pcieRead
  split
  refine blown_then ?_ (blown_of (emit_only ..) rfl) rfl
  refine blown_thd (by assumption) ?_
  refine blown_then ?_ (portRead_blown _ _ _ _) rfl
  exact blown_refl _

theorem readThrough_blown (b : Bus) (addr : Nat) (s : State) : keepsFuses s (readThrough b addr s) := by
  unfold readThrough
  split
  · refine blown_ite ?_ ?_
    · refine blown_then ?_ (pcieRead_blown _ _ _ _) rfl
      exact blown_refl _
    · exact blown_refl _
  · refine blown_ite ?_ ?_
    · refine blown_then ?_ (svcReadFrame_blown _ _ _) rfl
      exact blown_refl _
    · exact blown_refl _
  · exact blown_refl _

theorem busRead_blown (s : State) (b : Bus) (addr : Nat) : keepsFuses s (busRead s b addr) := by
  unfold busRead
  refine inOneCycle_blown (fun t28 => ?_) rfl
  refine blown_then ?_ (readThrough_blown _ _ _) rfl
  exact blown_refl _

theorem queryActs_blown (s : State) (ring : Nat) (slot : Nat) (d : Desc) : keepsFuses s (queryActs s ring slot d) := by
  unfold queryActs
  split
  · refine blown_then ?_ (blown_of (completeAt_only ..) rfl) rfl
    exact blown_refl _
  · refine blown_ite ?_ ?_
    · split
      refine blown_then ?_ (blown_of (completeWord_only ..) rfl) rfl
      refine blown_thd (by assumption) ?_
      refine blown_then ?_ (portRead_blown _ _ _ _) rfl
      exact blown_refl _
    · split
      · refine blown_then ?_ (blown_of (completeAt_only ..) rfl) rfl
        exact blown_refl _
      · split
        · refine blown_then ?_ (blown_of (completeAt_only ..) rfl) rfl
          exact blown_refl _
        · refine blown_then ?_ (blown_of (completeAt_only ..) rfl) rfl
          refine blown_ite ?_ ?_
          · refine blown_then ?_ (approveProposal_blown _ _ _) rfl
            exact blown_refl _
          · refine blown_then ?_ (declineProposal_blown _ _ _) rfl
            exact blown_refl _

theorem abortRunning_blown (s : State) (w : Work) : keepsFuses s (abortRunning s w).2 := by
  unfold abortRunning
  extract_lets v29 v30
  split
  · split
    · dsimp -zeta only
      refine blown_then ?_ (blown_of (completeAt_only ..) rfl) rfl
      refine blown_then ?_ (blown_of (dropList_only ..) rfl) rfl
      exact blown_refl _
    · dsimp -zeta only
      exact blown_refl _
  · split
    · split
      · dsimp -zeta only
        refine blown_then ?_ (blown_of (calDrop_only ..) rfl) rfl
        exact blown_refl _
      · dsimp -zeta only
        exact blown_refl _
    · dsimp -zeta only
      exact blown_refl _
  · split
    · dsimp -zeta only
      exact blown_refl _
    · dsimp -zeta only
      refine blown_then ?_ (blown_of (completeAt_only ..) rfl) rfl
      refine blown_then ?_ (dropLastWrite_blown _ _ _) rfl
      exact blown_refl _
  · split
    · dsimp -zeta only
      exact blown_refl _
    · split
      split
      · dsimp -zeta only
        refine blown_then ?_ (blown_of (stageWork_only ..) rfl) rfl
        refine blown_snd (by assumption) ?_
        refine blown_then ?_ (blown_of (drawBelow_only ..) rfl) rfl
        exact blown_refl _
      · dsimp -zeta only
        refine blown_then ?_ (blown_of (completeWord_only ..) rfl) rfl
        refine blown_snd (by assumption) ?_
        refine blown_then ?_ (blown_of (drawBelow_only ..) rfl) rfl
        exact blown_refl _
  · split
    · dsimp -zeta only
      exact blown_refl _
    · dsimp -zeta only
      refine blown_then ?_ (blown_of (completeAt_only ..) rfl) rfl
      refine blown_then ?_ (blown_of (modChain_only ..) rfl) rfl
      exact blown_refl _
  · split
    · dsimp -zeta only
      exact blown_refl _
    · dsimp -zeta only
      refine blown_then ?_ (blown_of (completeAt_only ..) rfl) rfl
      refine blown_then ?_ (blown_of (modPort_only ..) rfl) rfl
      exact blown_refl _
  · dsimp -zeta only
    refine blown_then ?_ (blown_of (completeWord_only ..) rfl) rfl
    exact blown_refl _
  · dsimp -zeta only
    refine blown_then ?_ (blown_of (completeAt_only ..) rfl) rfl
    exact blown_refl _
  · dsimp -zeta only
    exact blown_refl _

theorem abortTarget_blown (s : State) (ring : Nat) (tag : Half) (own : Nat × Nat) : keepsFuses s (abortTarget s ring tag own).2 := by
  unfold abortTarget
  split
  · split
    · exact blown_refl _
    · split
      · exact blown_then (blown_refl _) (blown_of (abortHeld_only ..) rfl) rfl
      · exact blown_then (blown_refl _) (abortRunning_blown _ _) rfl
  · split
    · rename_i t ht
      obtain ⟨h, hh, hm⟩ := List.exists_of_findSome?_eq_some ht
      exact blown_then (blown_refl _) (blown_of (abortMembers_only hm) rfl) rfl
    · exact blown_refl _

theorem abortActs_blown (s : State) (ring : Nat) (slot : Nat) (d : Desc) : keepsFuses s (abortActs s ring slot d) := by
  unfold abortActs
  split
  · refine blown_then ?_ (blown_of (completeAt_only ..) rfl) rfl
    exact blown_refl _
  · extract_lets v35
    have hv35 : keepsFuses s v35.2 := by
      refine blown_then ?_ (abortTarget_blown _ _ _ _) rfl
      exact blown_refl _
    refine blown_then ?_ (blown_of (completeAt_only ..) rfl) rfl
    exact hv35

theorem workActs_blown (s : State) (w : Work) : keepsFuses s (workActs s w) := by
  unfold workActs
  extract_lets v36 v37 v38
  refine blown_ite ?_ ?_
  · refine blown_then ?_ (blown_of (completeAt_only ..) rfl) rfl
    exact blown_refl _
  · refine blown_ite ?_ ?_
    · refine blown_then ?_ (blown_of (completeAt_only ..) rfl) rfl
      exact blown_refl _
    · split
      · split
        · refine blown_then ?_ (blown_of (completeAt_only ..) rfl) rfl
          exact blown_refl _
        · refine blown_then ?_ (blown_of (completeAt_only ..) rfl) rfl
          exact blown_refl _
      · refine blown_then ?_ (blown_of (objectsFetch_only ..) rfl) rfl
        exact blown_refl _
      · refine blown_then ?_ (blown_of (calFetch_only ..) rfl) rfl
        exact blown_refl _
      · refine blown_then ?_ (lastWriteFetch_blown _ _ _ _ _) rfl
        exact blown_refl _
      · refine blown_then ?_ (blown_of (crcFetch_only ..) rfl) rfl
        exact blown_refl _
      · refine blown_then ?_ (blown_of (laceFetch_only ..) rfl) rfl
        exact blown_refl _
      · refine blown_then ?_ (blown_of (txFetch_only ..) rfl) rfl
        exact blown_refl _
      · refine blown_then ?_ (blown_of (rxFetch_only ..) rfl) rfl
        exact blown_refl _
      · refine blown_then ?_ (queryActs_blown _ _ _ _) rfl
        exact blown_refl _
      · refine blown_then ?_ (blown_of (fenceActs_only ..) rfl) rfl
        exact blown_refl _
      · refine blown_then ?_ (abortActs_blown _ _ _ _) rfl
        exact blown_refl _
      · refine blown_then ?_ (blown_of (completeAt_only ..) rfl) rfl
        exact blown_refl _

theorem runWork_blown (s : State) (w : Work) : keepsFuses s (runWork s w) := by
  unfold runWork
  split
  · refine blown_ite ?_ ?_
    · refine blown_ite ?_ ?_
      · refine blown_then ?_ (blown_of (commitFetched_only ..) rfl) rfl
        refine blown_then ?_ (blown_of (dropWork_only ..) rfl) rfl
        exact blown_refl _
      · refine blown_then ?_ (blown_of (memberFetch_only ..) rfl) rfl
        refine blown_then ?_ (blown_of (dropWork_only ..) rfl) rfl
        exact blown_refl _
    · refine blown_then ?_ (workActs_blown _ _) rfl
      refine blown_then ?_ (blown_of (stageWork_only ..) rfl) rfl
      exact blown_refl _
  · refine blown_then ?_ (workActs_blown _ _) rfl
    refine blown_then ?_ (blown_of (stageWork_only ..) rfl) rfl
    exact blown_refl _

theorem settleRings_blown (x1 : Nat) (x2 : State) : keepsFuses x2 (settleRings x1 x2) := by
  induction x1 generalizing x2 with
  | zero => exact blown_refl _
  | succ n ih =>
    unfold settleRings
    repeat first
      | (with_reducible exact blown_refl _)
      | (with_reducible refine blown_trans ?_ (ih _))
      | (with_reducible refine blown_then ?_ (blown_of (fenceGoes_only ..) rfl) rfl)
      | (with_reducible refine blown_then ?_ (runWork_blown _ _) rfl)
      | (with_reducible refine blown_ite ?_ ?_)
      | split
      | dsimp only

theorem ringSettle_blown (s : State) : keepsFuses s (ringSettle s) := by
  unfold ringSettle
  refine blown_ite ?_ ?_
  · refine blown_then ?_ (settleRings_blown _ _) rfl
    exact blown_refl _
  · refine blown_then ?_ (blown_of (settleFences_only ..) rfl) rfl
    exact blown_refl _

theorem fetchDesc_blown (s : State) (ring : Nat) (d : Desc) (data : HostRead) : keepsFuses s (fetchDesc s ring d data) := by
  unfold fetchDesc
  refine inOneCycle_blown (fun t43 => ?_) rfl
  extract_lets v47
  refine blown_ite ?_ ?_
  · exact blown_refl _
  · split
    extract_lets v48 v49 v50
    have hv49 : keepsFuses t43 v49 := by
      refine blown_ite ?_ ?_
      · refine blown_then ?_ (blown_of (discardOther_only ..) rfl) rfl
        refine blown_snd (by assumption) ?_
        refine blown_then ?_ (blown_of (dcrcCheck_only ..) rfl) rfl
        refine blown_then ?_ (blown_of (takeSlot_only ..) rfl) rfl
        exact blown_refl _
      · refine blown_snd (by assumption) ?_
        refine blown_then ?_ (blown_of (dcrcCheck_only ..) rfl) rfl
        refine blown_then ?_ (blown_of (takeSlot_only ..) rfl) rfl
        exact blown_refl _
    split
    extract_lets v53 v54
    have hv54 : keepsFuses t43 v54 := by
      refine blown_then ?_ (blown_of (modRng_only ..) rfl) rfl
      refine blown_snd (by assumption) ?_
      split
      · dsimp -zeta only
        exact hv49
      · refine blown_then ?_ (blown_of (commitCloses_only ..) rfl) rfl
        exact hv49
    refine blown_ite ?_ ?_
    · refine blown_then ?_ (ringSettle_blown _) rfl
      refine blown_then ?_ (runWork_blown _ _) rfl
      exact hv54
    · refine blown_then ?_ (ringSettle_blown _) rfl
      exact hv54

theorem fetchRow_blown (s : State) (ring : Nat) (opcode : Nat) (d : Desc) : keepsFuses s (fetchRow s ring opcode d) := by
  unfold fetchRow
  refine blown_then ?_ (fetchDesc_blown _ _ _ _) rfl
  exact blown_refl _

theorem recActed_blown (s : State) : keepsFuses s (recActed s) := by
  unfold recActed
  refine blown_ite ?_ ?_
  · refine blown_then ?_ (recordDone_blown _) rfl
    exact blown_refl _
  · exact blown_refl _

theorem writeWords_blown (addr : Nat) (x1 : List Word) (x2 : State) : keepsFuses x2 (writeWords addr x1 x2) := by
  induction x1 generalizing addr x2 with
  | nil => exact blown_then (blown_refl _) (recActed_blown _) rfl
  | cons v vs ih =>
    unfold writeWords
    refine blown_ite ?_ ?_
    · exact blown_then (blown_refl _) (scriptFails_blown _ _) rfl
    · refine blown_trans ?_ (ih _ _)
      exact blown_then (blown_refl _) (portWrite_blown _ _ _ _ _) rfl

theorem recWrite_blown (s : State) : keepsFuses s (recWrite s) := by
  unfold recWrite
  extract_lets v51 v52
  refine blown_ite ?_ ?_
  · refine blown_ite ?_ ?_
    · refine blown_then ?_ (writeWords_blown _ _ _) rfl
      exact blown_refl _
    · refine blown_then ?_ (scriptFails_blown _ _) rfl
      refine blown_then ?_ (lastTouch_blown _ _ _) rfl
      exact blown_refl _
  · refine blown_then ?_ (writeWords_blown _ _ _) rfl
    exact blown_refl _

theorem recMaskWrite_blown (s : State) : keepsFuses s (recMaskWrite s) := by
  unfold recMaskWrite
  extract_lets v55
  refine blown_ite ?_ ?_
  · refine blown_then ?_ (scriptFails_blown _ _) rfl
    exact blown_refl _
  · split
    refine blown_then ?_ (recActed_blown _) rfl
    refine blown_then ?_ (portWrite_blown _ _ _ _ _) rfl
    refine blown_thd (by assumption) ?_
    refine blown_then ?_ (portRead_blown _ _ _ _) rfl
    exact blown_refl _

theorem recPollRead_blown (s : State) : keepsFuses s (recPollRead s) := by
  unfold recPollRead
  refine blown_ite ?_ ?_
  · split
    refine blown_ite ?_ ?_
    · refine blown_then ?_ (recordDone_blown _) rfl
      refine blown_thd (by assumption) ?_
      refine blown_then ?_ (portRead_blown _ _ _ _) rfl
      exact blown_refl _
    · refine blown_thd (by assumption) ?_
      refine blown_then ?_ (portRead_blown _ _ _ _) rfl
      exact blown_refl _
  · exact blown_refl _

theorem recSlipSearch_blown (s : State) : keepsFuses s (recSlipSearch s) := by
  unfold recSlipSearch
  refine blown_then ?_ (slipSearchGo_blown _) rfl
  refine blown_then ?_ (blown_of (modBoot_only ..) rfl) rfl
  refine blown_then ?_ (blown_of (recordWaits_only ..) rfl) rfl
  exact blown_refl _

theorem recLoadTiles_blown (s : State) : keepsFuses s (recLoadTiles s) := by
  unfold recLoadTiles
  refine blown_ite ?_ ?_
  · extract_lets v56
    have hv56 : keepsFuses s v56 := by
      refine blown_then ?_ (noteEntries_blown _ _) rfl
      refine blown_then ?_ (blown_of (recordWaits_only ..) rfl) rfl
      exact blown_refl _
    refine blown_then ?_ (loadTilesGo_blown _ _) rfl
    refine foldl_blown ?_ (fun t62 a62 => ?_)
    · exact hv56
    · refine blown_then ?_ (blown_of (setRecTile_only ..) rfl) rfl
      exact blown_refl _
  · refine blown_then ?_ (recordFails_blown _ _) rfl
    exact blown_refl _

theorem recWaitEnds_blown (s : State) : keepsFuses s (recWaitEnds s) := by
  unfold recWaitEnds
  refine blown_ite ?_ ?_
  · refine blown_then ?_ (recordDone_blown _) rfl
    exact blown_refl _
  · exact blown_refl _

theorem storeRead_blown (s : State) : keepsFuses s (storeRead s) := by
  unfold storeRead
  refine blown_ite ?_ ?_
  · exact blown_refl _
  · extract_lets v60
    refine blown_then ?_ (clientRead_blown _ _ _) rfl
    refine blown_ite ?_ ?_
    · refine blown_then ?_ (blown_of (uploadSpoilt_only ..) rfl) rfl
      exact blown_refl _
    · exact blown_refl _

end Sys2Proof.Machine
end

