-- ==== Sys2Proof/Laws/Memory.lean ====
section
/-! SUPPORT. What keeps the light memory in its canonical form (03 R105, R106): every memory operation, and with them every
operation of the machine that writes it; the others leave it alone. -/

set_option linter.unusedVariables false
namespace Sys2Proof.Machine

/-- From `s` to `t` the canonical form of the light memory is kept. -/
def keepsForm (s t : State) : Prop := memWf s = true → memWf t = true

theorem wf_refl (s : State) : keepsForm s s := id

theorem wf_trans {s t u : State} (h1 : keepsForm s t) (h2 : keepsForm t u) : keepsForm s u := fun h => h2 (h1 h)

/-- A part that an operation may not change is kept with all that it holds. -/
theorem wf_of {ps : List Part} {s t : State} (h : onlyChanges ps s t) (w : ps.contains .mem = false) : keepsForm s t := by
  have h1 : t.mem = s.mem := h.2 .mem (fun hp => by simp_all)
  simp_all [keepsForm, memWf]

theorem wf_then {s t u : State} (h : keepsForm s u) (k : keepsForm u t) (_ : true = true) : keepsForm s t := wf_trans h k

theorem wf_ite {s a b : State} {c : Prop} [Decidable c] (ha : keepsForm s a) (hb : keepsForm s b) :
    keepsForm s (if c then a else b) := by split <;> assumption

theorem wf_snd {α : Type} {s t : State} {x : α} {p : α × State} (e : p = (x, t)) (h : keepsForm s p.2) : keepsForm s t := by
  rw [e] at h; exact h

theorem wf_thd {α β : Type} {s t : State} {x : α} {y : β} {p : α × β × State} (e : p = (x, y, t))
    (h : keepsForm s p.2.2) : keepsForm s t := by rw [e] at h; exact h

theorem foldl_wf {α : Type} {s u : State} {f : State → α → State} {l : List α} (h : keepsForm s u)
    (hf : ∀ t a, keepsForm t (f t a)) : keepsForm s (l.foldl f u) :=
  foldl_inv (fun t => keepsForm s t) f l u h (fun t a ht => wf_trans ht (hf t a))

theorem oneCycle_wf {s : State} {f : State → State} (hf : ∀ u, keepsForm u (f u)) : keepsForm s (oneCycle f s) := by
  obtain ⟨c, g, -, he⟩ := oneCycle_cases f s
  rw [he]
  exact wf_trans (wf_of (modFlt_only ..) rfl) (wf_trans (hf _) (wf_of (modFlt_only ..) rfl))

theorem wf_some {s a t : State} (h : some a = some t) (k : keepsForm s a) : keepsForm s t := by
  injection h with h; subst h; exact k

theorem memPut_wf (s : State) (a : Nat) (v : Byte) : keepsForm s (memPut s a v) := fun hw => Store.put_wf _ _ _ _ hw

theorem memWrite_wf (s : State) (a : Nat) (bs : List Byte) : keepsForm s (memWrite s a bs) := fun hw => Store.putList_wf _ _ _ _ hw

theorem setHealth_wf (s : State) (h : Head) (p : Nat) (v : Nat) : keepsForm s (setHealth s h p v) := by
  unfold setHealth
  extract_lets v3 v4
  refine wf_then ?_ (memPut_wf _ _ _) rfl
  exact wf_refl _

theorem repairWord_wf (s : State) (w : Nat) : keepsForm s (repairWord s w) := by
  unfold repairWord
  extract_lets v8
  split
  · refine wf_then ?_ (wf_of (flatSpoilt_only ..) rfl) rfl
    exact wf_refl _
  · refine wf_then ?_ (wf_of (flatSpoilt_only ..) rfl) rfl
    exact wf_refl _
  · refine wf_then ?_ (wf_of (wordWritten_only ..) rfl) rfl
    refine wf_then ?_ (memWrite_wf _ _ _) rfl
    exact wf_refl _
  · refine wf_then ?_ (wf_of (wordWritten_only ..) rfl) rfl
    refine wf_then ?_ (memWrite_wf _ _ _) rfl
    exact wf_refl _
  · refine wf_ite ?_ ?_
    · refine wf_then ?_ (wf_of (wordWritten_only ..) rfl) rfl
      refine wf_then ?_ (memWrite_wf _ _ _) rfl
      exact wf_refl _
    · exact wf_refl _
  · refine wf_then ?_ (wf_of (wordWritten_only ..) rfl) rfl
    refine wf_then ?_ (wf_of (journalSpoilt_only ..) rfl) rfl
    exact wf_refl _
  · refine wf_then ?_ (wf_of (runSpoilt_only ..) rfl) rfl
    exact wf_refl _
  · exact wf_refl _

theorem uncorrectable_wf (s : State) (b : Nat) (w : Option Nat) (used : Bool) (injected : Bool) : keepsForm s (uncorrectable s b w used injected) := by
  unfold uncorrectable
  split
  · extract_lets v19 v20 v21
    have hv20 : keepsForm s v20 := by
      refine wf_then ?_ (wf_of (raiseInj_only ..) rfl) rfl
      exact wf_refl _
    have hv21 : keepsForm s v21 := by
      refine wf_then ?_ (wf_of (modLmm_only ..) rfl) rfl
      exact hv20
    refine wf_then ?_ (wf_of (bankCandidate_only ..) rfl) rfl
    refine wf_then ?_ (repairWord_wf _ _) rfl
    refine wf_then ?_ (wf_of (workSpoilt_only ..) rfl) rfl
    exact hv21
  · split
    split
    extract_lets v33
    have hv33 : keepsForm s v33 := by
      refine wf_then ?_ (wf_of (raiseInj_only ..) rfl) rfl
      refine wf_snd (by assumption) ?_
      refine wf_then ?_ (wf_of (drawBelow_only ..) rfl) rfl
      refine wf_snd (by assumption) ?_
      refine wf_then ?_ (wf_of (drawBelow_only ..) rfl) rfl
      exact wf_refl _
    refine wf_then ?_ (wf_of (bankCandidate_only ..) rfl) rfl
    refine wf_then ?_ (wf_of (modLmm_only ..) rfl) rfl
    exact hv33

theorem readChecks_wf (s : State) (reader : Option Head) (used : Bool) (w : Nat) : keepsForm s (readChecks s reader used w) := by
  unfold readChecks
  extract_lets v22
  split
  · refine wf_then ?_ (uncorrectable_wf _ _ _ _ _) rfl
    exact wf_refl _
  · refine wf_then ?_ (wf_of (corrected_only ..) rfl) rfl
    exact wf_refl _
  · refine wf_ite ?_ ?_
    · refine wf_then ?_ (uncorrectable_wf _ _ _ _ _) rfl
      exact wf_refl _
    · exact wf_refl _

theorem clientRead_wf (s : State) (reader : Option Head) (ranges : List (Nat × Nat)) : keepsForm s (clientRead s reader ranges) := by
  unfold clientRead
  refine foldl_wf ?_ (fun t24 a24 => ?_)
  · exact wf_refl _
  · refine wf_then ?_ (readChecks_wf _ _ _ _) rfl
    exact wf_refl _

theorem clientPut_wf (s0 : State) (a : Nat) (bs : List Byte) : keepsForm s0 (clientPut s0 a bs) := by
  unfold clientPut
  refine wf_ite ?_ ?_
  · exact wf_refl _
  · extract_lets v25 v26 v27 v28 v29
    have hv29 : keepsForm s0 v29 := by
      refine wf_then ?_ (wf_of (modLmm_only ..) rfl) rfl
      refine wf_then ?_ (memWrite_wf _ _ _) rfl
      exact wf_refl _
    split
    · refine wf_then ?_ (wf_of (injectWord_only ..) rfl) rfl
      exact hv29
    · exact hv29

theorem clientWrite_wf (s : State) (a : Nat) (bs : List Byte) : keepsForm s (clientWrite s a bs) := by
  unfold clientWrite
  refine wf_ite ?_ ?_
  · exact wf_refl _
  · refine wf_then ?_ (clientPut_wf _ _ _) rfl
    refine foldl_wf ?_ (fun t31 a31 => ?_)
    · exact wf_refl _
    · refine wf_then ?_ (readChecks_wf _ _ _ _) rfl
      exact wf_refl _

theorem scrubBad_wf (s : State) (p : Nat) (injected : Bool) : keepsForm s (scrubBad s p injected) := by
  unfold scrubBad
  refine wf_then ?_ (wf_of (modLmm_only ..) rfl) rfl
  refine wf_then ?_ (uncorrectable_wf _ _ _ _ _) rfl
  exact wf_refl _

theorem scrubRead_wf (s : State) (p : Nat) (errors : List (Nat × Bool)) : keepsForm s (scrubRead s p errors) := by
  unfold scrubRead
  extract_lets v34
  split
  · refine wf_then ?_ (scrubBad_wf _ _ _) rfl
    exact wf_refl _
  · refine wf_then ?_ (scrubBad_wf _ _ _) rfl
    exact wf_refl _
  · refine wf_then ?_ (wf_of (corrected_only ..) rfl) rfl
    exact wf_refl _
  · refine wf_then ?_ (wf_of (corrected_only ..) rfl) rfl
    exact wf_refl _
  · refine wf_ite ?_ ?_
    · refine wf_then ?_ (scrubBad_wf _ _ _) rfl
      exact wf_refl _
    · exact wf_refl _

theorem scrubOne_wf (s : State) (errors : List (Nat × Bool)) : keepsForm s (scrubOne s errors) := by
  unfold scrubOne
  extract_lets v35 v36 v37 v38 v39
  have hv36 : keepsForm s v36 := by
    refine wf_ite ?_ ?_
    · refine wf_then ?_ (wf_of (passEnd_only ..) rfl) rfl
      exact wf_refl _
    · exact wf_refl _
  have hv37 : keepsForm s v37 := by
    refine wf_then ?_ (scrubRead_wf _ _ _) rfl
    exact hv36
  have hv39 : keepsForm s v39 := by
    refine wf_then ?_ (wf_of (modLmm_only ..) rfl) rfl
    exact hv37
  refine wf_ite ?_ ?_
  · refine wf_then ?_ (wf_of (passEnd_only ..) rfl) rfl
    exact hv39
  · exact hv39

theorem scrubMany_wf (s : State) (errors : List (Nat × Bool)) (x1 : Nat) : keepsForm s (scrubMany s errors x1) := by
  induction x1 generalizing s with
  | zero => exact wf_refl _
  | succ n ih =>
    unfold scrubMany
    repeat first
      | (with_reducible exact wf_refl _)
      | (with_reducible refine wf_trans ?_ (ih _))
      | (with_reducible refine wf_then ?_ (scrubOne_wf _ _) rfl)
      | (with_reducible refine wf_ite ?_ ?_)
      | split
      | dsimp only

theorem periodStart_wf (s : State) (used : List (Nat × Nat)) (errors : List (Nat × Bool)) : keepsForm s (periodStart s used errors) := by
  unfold periodStart
  extract_lets v40
  have hv40 : keepsForm s v40 := by
    refine wf_then ?_ (wf_of (modLmm_only ..) rfl) rfl
    exact wf_refl _
  refine wf_ite ?_ ?_
  · refine wf_then ?_ (scrubMany_wf _ _ _) rfl
    exact hv40
  · exact hv40

theorem copierReads_wf (s : State) (b : Nat) : keepsForm s (copierReads s b) := by
  unfold copierReads
  refine foldl_wf ?_ (fun t44 a44 => ?_)
  · exact wf_refl _
  · refine wf_then ?_ (readChecks_wf _ _ _ _) rfl
    exact wf_refl _

theorem copyEnd_wf (s : State) : keepsForm s (copyEnd s) := by
  unfold copyEnd
  split
  · exact wf_refl _
  · refine wf_ite ?_ ?_
    · exact wf_refl _
    · extract_lets v46
      have hv46 : keepsForm s v46 := by
        refine wf_then ?_ (wf_of (copierWrites_only ..) rfl) rfl
        refine wf_then ?_ (copierReads_wf _ _) rfl
        exact wf_refl _
      refine wf_then ?_ (wf_of (retireFinish_only ..) rfl) rfl
      refine wf_then ?_ (wf_of (modLmm_only ..) rfl) rfl
      exact hv46

theorem buildMask_wf (s : State) (h : Head) (emission : Int) : keepsForm s (buildMask s h emission) := by
  unfold buildMask
  refine wf_ite ?_ ?_
  · exact wf_refl _
  · extract_lets v47 v48 v49 v50 v51 v52 v53 v54 v55 v56 v57 v58 v59
    have hv56 : keepsForm s v56 := by
      refine foldl_wf ?_ (fun t61 a61 => ?_)
      · exact wf_refl _
      · refine wf_then ?_ (clientWrite_wf _ _ _) rfl
        exact wf_refl _
    have hv59 : keepsForm s v59 := by
      refine wf_then ?_ (wf_of (modShd_only ..) rfl) rfl
      exact hv56
    refine wf_then ?_ (wf_of (setLevel_only ..) rfl) rfl
    refine wf_then ?_ (wf_of (setLevel_only ..) rfl) rfl
    exact hv59

theorem transferEnd_wf (s : State) (h : Head) (csn : Word) (i : Nat) (data : HostRead) : keepsForm s (transferEnd s h csn i data) := by
  unfold transferEnd
  split
  · exact wf_refl _
  · refine wf_ite ?_ ?_
    · exact wf_refl _
    · split
      · refine wf_ite ?_ ?_
        · exact wf_refl _
        · extract_lets v103 v104
          have hv104 : keepsForm s v104 := by
            refine wf_then ?_ (clientWrite_wf _ _ _) rfl
            exact wf_refl _
          refine wf_ite ?_ ?_
          · refine wf_then ?_ (wf_of (refuseSet_only ..) rfl) rfl
            refine wf_then ?_ (wf_of (raise_only ..) rfl) rfl
            exact hv104
          · refine wf_ite ?_ ?_
            · refine wf_then ?_ (wf_of (setMoved_only ..) rfl) rfl
              refine wf_then ?_ (wf_of (mapSet_only ..) rfl) rfl
              exact hv104
            · refine wf_then ?_ (wf_of (mapSet_only ..) rfl) rfl
              exact hv104
      · refine wf_ite ?_ ?_
        · exact wf_refl _
        · refine wf_then ?_ (wf_of (refuseSet_only ..) rfl) rfl
          refine wf_then ?_ (wf_of (hostFails_only ..) rfl) rfl
          exact wf_refl _
      · refine wf_ite ?_ ?_
        · exact wf_refl _
        · refine wf_then ?_ (wf_of (refuseSet_only ..) rfl) rfl
          exact wf_refl _
      · exact wf_refl _

theorem replayAll_wf (s : State) (h : Head) (t : Nat) : keepsForm s (replayAll s h t) := by
  unfold replayAll
  extract_lets v8
  refine wf_ite ?_ ?_
  · refine wf_then ?_ (wf_of (modTile_only ..) rfl) rfl
    refine foldl_wf ?_ (fun t9 a9 => ?_)
    · refine wf_then ?_ (clientRead_wf _ _ _) rfl
      exact wf_refl _
    · refine wf_then ?_ (wf_of (emitPacket_only ..) rfl) rfl
      exact wf_refl _
  · exact wf_refl _

theorem ackRecord_wf (s : State) (h : Head) (t : Nat) (r : TileRecord) : keepsForm s (ackRecord s h t r) := by
  unfold ackRecord
  split
  extract_lets v1
  have hv1 : keepsForm s v1 := by
    refine wf_then ?_ (wf_of (pauseDue_only ..) rfl) rfl
    refine wf_snd (by assumption) ?_
    refine wf_then ?_ (wf_of (recordIn_only ..) rfl) rfl
    exact wf_refl _
  refine wf_ite ?_ ?_
  · exact hv1
  · refine wf_ite ?_ ?_
    · refine wf_then ?_ (wf_of (pump_only ..) rfl) rfl
      refine wf_then ?_ (replayAll_wf _ _ _) rfl
      refine wf_then ?_ (wf_of (modTile_only ..) rfl) rfl
      refine wf_ite ?_ ?_
      · refine wf_then ?_ (wf_of (modTile_only ..) rfl) rfl
        exact hv1
      · exact hv1
    · refine wf_then ?_ (wf_of (pump_only ..) rfl) rfl
      refine wf_ite ?_ ?_
      · refine wf_then ?_ (wf_of (modTile_only ..) rfl) rfl
        exact hv1
      · exact hv1

theorem replayTimer_wf (s : State) (h : Head) (t : Nat) : keepsForm s (replayTimer s h t) := by
  unfold replayTimer
  refine wf_ite ?_ ?_
  · exact wf_refl _
  · refine wf_then ?_ (replayAll_wf _ _ _) rfl
    exact wf_refl _

theorem healthRead_wf (s : State) (h : Head) (ps : List Nat) : keepsForm s (healthRead s h ps) := by
  unfold healthRead
  refine wf_then ?_ (clientRead_wf _ _ _) rfl
  exact wf_refl _

theorem putHealth_wf (s : State) (h : Head) (p : Nat) (v : Nat) : keepsForm s (putHealth s h p v) := by
  unfold putHealth
  extract_lets v17 v18
  refine wf_then ?_ (clientPut_wf _ _ _) rfl
  exact wf_refl _

theorem writeHealth_wf (s : State) (h : Head) (p : Nat) (v : Nat) : keepsForm s (writeHealth s h p v) := by
  unfold writeHealth
  refine wf_then ?_ (putHealth_wf _ _ _ _) rfl
  refine wf_then ?_ (healthRead_wf _ _ _) rfl
  exact wf_refl _

theorem applyProbe_wf (s : State) (h : Head) (t : Nat) (x : Nat) (y : Nat) (res : Nat) : keepsForm s (applyProbe s h t x y res) := by
  unfold applyProbe
  extract_lets v20 v21 v22 v23
  have hv21 : keepsForm s v21 := by
    refine wf_then ?_ (healthRead_wf _ _ _) rfl
    exact wf_refl _
  refine wf_ite ?_ ?_
  · exact hv21
  · refine wf_ite ?_ ?_
    · refine wf_then ?_ (wf_of (pixelCandidate_only ..) rfl) rfl
      refine wf_ite ?_ ?_
      · refine wf_then ?_ (wf_of (raise_only ..) rfl) rfl
        refine wf_then ?_ (wf_of (raise_only ..) rfl) rfl
        refine wf_ite ?_ ?_
        · refine wf_then ?_ (healthRead_wf _ _ _) rfl
          refine wf_then ?_ (putHealth_wf _ _ _ _) rfl
          exact hv21
        · refine wf_then ?_ (putHealth_wf _ _ _ _) rfl
          exact hv21
      · refine wf_then ?_ (wf_of (raise_only ..) rfl) rfl
        refine wf_ite ?_ ?_
        · refine wf_then ?_ (healthRead_wf _ _ _) rfl
          refine wf_then ?_ (putHealth_wf _ _ _ _) rfl
          exact hv21
        · refine wf_then ?_ (putHealth_wf _ _ _ _) rfl
          exact hv21
    · refine wf_then ?_ (putHealth_wf _ _ _ _) rfl
      exact hv21

theorem healthRecord_wf (s : State) (h : Head) (t : Nat) (r : TileRecord) : keepsForm s (healthRecord s h t r) := by
  unfold healthRecord
  split
  refine wf_ite ?_ ?_
  · refine wf_then ?_ (wf_of (pauseDue_only ..) rfl) rfl
    refine wf_snd (by assumption) ?_
    refine wf_then ?_ (wf_of (recordIn_only ..) rfl) rfl
    exact wf_refl _
  · extract_lets v28 v29
    refine wf_then ?_ (wf_of (pauseDue_only ..) rfl) rfl
    refine foldl_wf ?_ (fun t30 a30 => ?_)
    · refine wf_snd (by assumption) ?_
      refine wf_then ?_ (wf_of (recordIn_only ..) rfl) rfl
      exact wf_refl _
    · extract_lets v31 v32 v33 v34
      refine wf_ite ?_ ?_
      · refine wf_ite ?_ ?_
        · refine wf_then ?_ (applyProbe_wf _ _ _ _ _ _) rfl
          refine wf_then ?_ (wf_of (modPxc_only ..) rfl) rfl
          exact wf_refl _
        · refine wf_then ?_ (wf_of (modPxc_only ..) rfl) rfl
          exact wf_refl _
      · exact wf_refl _

theorem applyMarks_wf (s : State) (h : Head) : keepsForm s (applyMarks s h) := by
  unfold applyMarks
  extract_lets v24 v25 v26
  have hv24 : keepsForm s v24 := by
    refine wf_then ?_ (healthRead_wf _ _ _) rfl
    exact wf_refl _
  have hv26 : keepsForm s v26 := by
    refine wf_then ?_ (wf_of (modPxc_only ..) rfl) rfl
    exact hv24
  refine foldl_wf ?_ (fun t36 a36 => ?_)
  · exact hv26
  · refine wf_then ?_ (wf_of (cblDone_only ..) rfl) rfl
    refine wf_then ?_ (putHealth_wf _ _ _ _) rfl
    exact wf_refl _

theorem clearHealth_wf (s : State) (h : Head) (v : Word) : keepsForm s (clearHealth s h v) := by
  unfold clearHealth
  refine wf_ite ?_ ?_
  · exact wf_refl _
  · refine wf_ite ?_ ?_
    · refine foldl_wf ?_ (fun t35 a35 => ?_)
      · exact wf_refl _
      · refine wf_then ?_ (writeHealth_wf _ _ _ _) rfl
        exact wf_refl _
    · refine wf_ite ?_ ?_
      · refine wf_then ?_ (writeHealth_wf _ _ _ _) rfl
        exact wf_refl _
      · exact wf_refl _

theorem calMergeEnds_wf (s : State) : keepsForm s (calMergeEnds s) := by
  unfold calMergeEnds
  split
  · exact wf_refl _
  · refine wf_ite ?_ ?_
    · exact wf_refl _
    · extract_lets v1 v2 v3
      have hv1 : keepsForm s v1 := by
        refine wf_then ?_ (clientWrite_wf _ _ _) rfl
        exact wf_refl _
      refine wf_ite ?_ ?_
      · refine wf_trans ?_ (wf_of (raw_pxc (onlyChanges_refl [.pxc] _) rfl) rfl)
        exact hv1
      · refine wf_then ?_ (wf_of (calFinish_only ..) rfl) rfl
        refine foldl_wf ?_ (fun t10 a10 => ?_)
        · refine wf_trans ?_ (wf_of (raw_pxc (onlyChanges_refl [.pxc] _) rfl) rfl)
          exact hv1
        · refine wf_then ?_ (wf_of (kpsRequest_only ..) rfl) rfl
          exact wf_refl _

theorem inOneCycle_wf {s : State} {f : State → State} (hf : ∀ u, keepsForm u (f u)) (_ : true = true) :
    keepsForm s (inOneCycle f s) := by
  unfold inOneCycle
  exact oneCycle_wf (fun u => wf_trans (hf u) (wf_of (framesGo_only ..) rfl))

theorem startCut_wf (s : State) (h : Head) : keepsForm s (startCut s h) := by
  unfold startCut
  extract_lets v68 v0
  have hv68 : keepsForm s v68 := by
    refine wf_then ?_ (wf_of (cutApplyAll_only ..) rfl) rfl
    exact wf_refl _
  have hv0 : keepsForm s v0 := by
    refine foldl_wf ?_ (fun t0 a0 => ?_)
    · exact hv68
    · refine wf_then ?_ (wf_of (checkCap_only ..) rfl) rfl
      refine wf_then ?_ (wf_of (modPxc_only ..) rfl) rfl
      refine wf_then ?_ (wf_of (modPwr_only ..) rfl) rfl
      exact wf_refl _
  refine wf_then ?_ (buildMask_wf _ _ _) rfl
  refine wf_then ?_ (wf_of (modTg_only ..) rfl) rfl
  exact hv0

theorem startHead_wf (s : State) (h : Head) : keepsForm s (startHead s h) := by
  unfold startHead
  refine wf_ite ?_ ?_
  · exact wf_refl _
  · extract_lets v69
    have hv69 : keepsForm s v69 := by
      refine wf_then ?_ (wf_of (setTgState_only ..) rfl) rfl
      exact wf_refl _
    split
    · refine wf_then ?_ (startCut_wf _ _) rfl
      exact hv69
    · extract_lets v72
      have hv72 : keepsForm s v72 := by
        refine wf_then ?_ (wf_of (modTg_only ..) rfl) rfl
        refine wf_then ?_ (wf_of (setTgState_only ..) rfl) rfl
        exact hv69
      refine wf_ite ?_ ?_
      · refine wf_then ?_ (wf_of (modLmm_only ..) rfl) rfl
        exact hv72
      · exact hv72

theorem writeTgCtrl_wf (s : State) (h : Head) (v : Word) : keepsForm s (writeTgCtrl s h v) := by
  unfold writeTgCtrl
  extract_lets v71
  have hv71 : keepsForm s v71 := by
    refine wf_ite ?_ ?_
    · refine wf_then ?_ (wf_of (writeJoined_only ..) rfl) rfl
      exact wf_refl _
    · exact wf_refl _
  refine wf_ite ?_ ?_
  · refine wf_then ?_ (wf_of (setRegAt_only ..) rfl) rfl
    exact hv71
  · refine wf_ite ?_ ?_
    · refine wf_ite ?_ ?_
      · refine wf_then ?_ (startHead_wf _ _) rfl
        refine wf_then ?_ (wf_of (setRegAt_only ..) rfl) rfl
        exact hv71
      · refine wf_then ?_ (wf_of (setRegAt_only ..) rfl) rfl
        exact hv71
    · refine wf_ite ?_ ?_
      · refine wf_then ?_ (wf_of (stopHead_only ..) rfl) rfl
        refine wf_then ?_ (wf_of (setRegAt_only ..) rfl) rfl
        exact hv71
      · refine wf_then ?_ (wf_of (setRegAt_only ..) rfl) rfl
        exact hv71

theorem composePath_wf (s0 : State) (f : Nat) (s : State) (p : Plan) : keepsForm s (composePath s0 f s p) := by
  unfold composePath
  extract_lets v85 v86 v87 v88 v89 v90
  have hv87 : keepsForm s v87 := by
    refine wf_then ?_ (clientWrite_wf _ _ _) rfl
    exact wf_refl _
  have hv89 : keepsForm s v89 := by
    refine wf_ite ?_ ?_
    · refine wf_then ?_ (clientWrite_wf _ _ _) rfl
      exact hv87
    · exact hv87
  have hv90 : keepsForm s v90 := by
    refine wf_then ?_ (wf_of (modBld_only ..) rfl) rfl
    exact hv89
  refine wf_then ?_ (wf_of (modPxc_only ..) rfl) rfl
  exact hv90

theorem sweepReads_wf (s : State) (plans : List Plan) (ranges : Plan → List (Nat × Nat)) : keepsForm s (sweepReads s plans ranges) := by
  unfold sweepReads
  refine foldl_wf ?_ (fun t4 a4 => ?_)
  · exact wf_refl _
  · refine wf_then ?_ (clientRead_wf _ _ _) rfl
    exact wf_refl _

theorem composeSweep_wf (s : State) (h : Head) (sources : List SlotFetch) (use : List Nat) : keepsForm s (composeSweep s h sources use) := by
  unfold composeSweep
  extract_lets v1 v2 v3 v4 v5 v6 v7 v8 v9
  have hv2 : keepsForm s v2 := by
    refine wf_then ?_ (wf_of (modTg_only ..) rfl) rfl
    exact wf_refl _
  have hv3 : keepsForm s v3 := by
    refine wf_then ?_ (sweepReads_wf _ _ _) rfl
    exact hv2
  have hv5 : keepsForm s v5 := by
    refine foldl_wf ?_ (fun t23 a23 => ?_)
    · exact hv3
    · refine wf_then ?_ (composePath_wf _ _ _ _) rfl
      exact wf_refl _
  have hv6 : keepsForm s v6 := by
    dsimp -zeta only [v6]
    split
    · refine wf_then ?_ (wf_of (abandonRow_only ..) rfl) rfl
      exact hv5
    · exact hv5
  have hv7 : keepsForm s v7 := by
    refine foldl_wf ?_ (fun t35 a35 => ?_)
    · exact hv6
    · refine wf_then ?_ (wf_of (spoilSweep_only ..) rfl) rfl
      refine wf_then ?_ (wf_of (raise_only ..) rfl) rfl
      exact wf_refl _
  have hv8 : keepsForm s v8 := by
    refine foldl_wf ?_ (fun t1 a1 => ?_)
    · exact hv7
    · refine wf_then ?_ (wf_of (toneParity_only ..) rfl) rfl
      exact wf_refl _
  have hv9 : keepsForm s v9 := by
    refine wf_then ?_ (sweepReads_wf _ _ _) rfl
    exact hv8
  refine foldl_wf ?_ (fun t0 a0 => ?_)
  · exact hv9
  · refine wf_then ?_ (wf_of (sendFrame_only ..) rfl) rfl
    exact wf_refl _

theorem beginSweep_wf (s : State) (h : Head) (sources : List SlotFetch) : keepsForm s (beginSweep s h sources) := by
  unfold beginSweep
  extract_lets v10 v11 v12 v13 v14 v15 v16 v17
  have hv13 : keepsForm s v13 := by
    refine wf_then ?_ (wf_of (modTg_only ..) rfl) rfl
    refine wf_then ?_ (wf_of (setTgState_only ..) rfl) rfl
    exact wf_refl _
  have hv14 : keepsForm s v14 := by
    refine foldl_wf ?_ (fun t0 a0 => ?_)
    · exact hv13
    · refine wf_then ?_ (wf_of (modPxc_only ..) rfl) rfl
      refine wf_then ?_ (wf_of (modBld_only ..) rfl) rfl
      refine wf_then ?_ (wf_of (modTg_only ..) rfl) rfl
      exact wf_refl _
  have hv15 : keepsForm s v15 := by
    refine wf_then ?_ (wf_of (modLy_only ..) rfl) rfl
    exact hv14
  have hv16 : keepsForm s v16 := by
    refine wf_ite ?_ ?_
    · refine foldl_wf ?_ (fun t16 a16 => ?_)
      · exact hv15
      · refine wf_then ?_ (wf_of (modBld_only ..) rfl) rfl
        exact wf_refl _
    · exact hv15
  have hv17 : keepsForm s v17 := by
    refine wf_then ?_ (wf_of (notReadyFault_only ..) rfl) rfl
    refine wf_then ?_ (wf_of (sweepFails_only ..) rfl) rfl
    exact hv16
  refine wf_ite ?_ ?_
  · exact hv17
  · refine wf_then ?_ (composeSweep_wf _ _ _ _) rfl
    exact hv17

theorem sweepStarts_wf (s : State) (h : Head) (sources : List SlotFetch) : keepsForm s (sweepStarts s h sources) := by
  unfold sweepStarts
  extract_lets v20
  refine wf_ite ?_ ?_
  · exact wf_refl _
  · refine wf_ite ?_ ?_
    · refine wf_then ?_ (wf_of (modTg_only ..) rfl) rfl
      exact wf_refl _
    · refine wf_ite ?_ ?_
      · refine wf_then ?_ (wf_of (enterStopped_only ..) rfl) rfl
        exact wf_refl _
      · refine wf_then ?_ (beginSweep_wf _ _ _) rfl
        refine wf_ite ?_ ?_
        · refine wf_then ?_ (wf_of (modTg_only ..) rfl) rfl
          exact wf_refl _
        · exact wf_refl _

theorem doseBlock_wf (s : State) (path : Head) (f : Nat) (bx : Nat) (by_ : Nat) : keepsForm s (doseBlock s path f bx by_) := by
  unfold doseBlock
  extract_lets v26 v27 v28 v29 v30 v31
  split
  extract_lets v32
  refine wf_ite ?_ ?_
  · refine wf_then ?_ (clientWrite_wf _ _ _) rfl
    refine wf_snd (by assumption) ?_
    refine wf_then ?_ (wf_of (drawBelow_only ..) rfl) rfl
    exact wf_refl _
  · refine wf_snd (by assumption) ?_
    refine wf_then ?_ (wf_of (drawBelow_only ..) rfl) rfl
    exact wf_refl _

theorem doseSweep_wf (s : State) (path : Head) (full : Bool) : keepsForm s (doseSweep s path full) := by
  unfold doseSweep
  refine wf_ite ?_ ?_
  · refine wf_then ?_ (wf_of (modPxc_only ..) rfl) rfl
    exact wf_refl _
  · refine wf_ite ?_ ?_
    · exact wf_refl _
    · extract_lets v33 v34
      have hv34 : keepsForm s v34 := by
        refine wf_then ?_ (clientRead_wf _ _ _) rfl
        exact wf_refl _
      refine foldl_wf ?_ (fun t2 a2 => ?_)
      · exact hv34
      · refine foldl_wf ?_ (fun t3 a3 => ?_)
        · exact wf_refl _
        · refine wf_then ?_ (doseBlock_wf _ _ _ _ _) rfl
          exact wf_refl _

theorem weakSweep_wf (s : State) (path : Head) : keepsForm s (weakSweep s path) := by
  unfold weakSweep
  refine foldl_wf ?_ (fun t4 a4 => ?_)
  · exact wf_refl _
  · extract_lets v5 v6 v7
    refine wf_ite ?_ ?_
    · refine wf_then ?_ (wf_of (pixelCandidate_only ..) rfl) rfl
      refine wf_then ?_ (wf_of (raise_only ..) rfl) rfl
      refine wf_then ?_ (writeHealth_wf _ _ _ _) rfl
      exact wf_refl _
    · exact wf_refl _

theorem pathEnds_wf (s : State) (h : Head) (path : Head) : keepsForm s (pathEnds s h path) := by
  unfold pathEnds
  extract_lets v11 v12
  have hv12 : keepsForm s v12 := by
    refine wf_then ?_ (wf_of (clampFaults_only ..) rfl) rfl
    exact wf_refl _
  refine wf_then ?_ (doseSweep_wf _ _ _) rfl
  refine wf_ite ?_ ?_
  · refine wf_then ?_ (weakSweep_wf _ _) rfl
    refine wf_then ?_ (wf_of (publishSweep_only ..) rfl) rfl
    exact hv12
  · exact hv12

theorem cutNow_wf (s : State) (h : Head) : keepsForm s (cutNow s h) := by
  unfold cutNow
  extract_lets v15
  refine wf_ite ?_ ?_
  · exact wf_refl _
  · split
    extract_lets v16 v17 v18 v19 v20 v21
    have hv16 : keepsForm s v16 := by
      refine wf_then ?_ (wf_of (flatEnds_only ..) rfl) rfl
      refine foldl_wf ?_ (fun t22 a22 => ?_)
      · refine wf_snd (by assumption) ?_
        refine wf_then ?_ (wf_of (stampCore_only ..) rfl) rfl
        exact wf_refl _
      · refine wf_then ?_ (pathEnds_wf _ _ _) rfl
        exact wf_refl _
    have hv17 : keepsForm s v17 := by
      refine foldl_wf ?_ (fun t31 a31 => ?_)
      · exact hv16
      · refine wf_then ?_ (wf_of (modTg_only ..) rfl) rfl
        exact wf_refl _
    have hv18 : keepsForm s v18 := by
      refine wf_then ?_ (wf_of (modTg_only ..) rfl) rfl
      exact hv17
    have hv19 : keepsForm s v19 := by
      refine foldl_wf ?_ (fun t32 a32 => ?_)
      · exact hv18
      · refine wf_then ?_ (wf_of (calCompose_only ..) rfl) rfl
        refine wf_then ?_ (wf_of (listsCompose_only ..) rfl) rfl
        refine wf_then ?_ (wf_of (setsCompose_only ..) rfl) rfl
        exact wf_refl _
    have hv20 : keepsForm s v20 := by
      refine wf_then ?_ (wf_of (cutApplyAll_only ..) rfl) rfl
      exact hv19
    have hv21 : keepsForm s v21 := by
      refine foldl_wf ?_ (fun t35 a35 => ?_)
      · exact hv20
      · refine wf_then ?_ (wf_of (checkCap_only ..) rfl) rfl
        exact wf_refl _
    refine wf_then ?_ (buildMask_wf _ _ _) rfl
    exact hv21

theorem stitchPoint_wf (s : State) (h : Head) (stitched : Bool) (time : Word) : keepsForm s (stitchPoint s h stitched time) := by
  unfold stitchPoint
  extract_lets v29 v30
  have hv29 : keepsForm s v29 := by
    refine wf_then ?_ (wf_of (snapshotNow_only ..) rfl) rfl
    exact wf_refl _
  have hv30 : keepsForm s v30 := by
    refine wf_then ?_ (wf_of (overdueLevel_only ..) rfl) rfl
    refine wf_then ?_ (applyMarks_wf _ _) rfl
    exact hv29
  refine wf_then ?_ (wf_of (retireSwitch_only ..) rfl) rfl
  refine wf_then ?_ (wf_of (fwdStitchPoint_only ..) rfl) rfl
  exact hv30

theorem echoesAwait_wf (s : State) (h : Head) (b : Nat) (f : Word) : keepsForm s (echoesAwait s h b f) := by
  unfold echoesAwait
  refine foldl_wf ?_ (fun t33 a33 => ?_)
  · exact wf_refl _
  · refine wf_ite ?_ ?_
    · extract_lets v34 v0 v1
      have hv34 : keepsForm t33 v34 := by
        refine wf_then ?_ (clientRead_wf _ _ _) rfl
        exact wf_refl _
      refine wf_then ?_ (wf_of (modTile_only ..) rfl) rfl
      refine wf_ite ?_ ?_
      · refine wf_then ?_ (wf_of (spendInj_only ..) rfl) rfl
        exact hv34
      · exact hv34
    · exact wf_refl _

theorem stitchPath_wf (s : State) (f : Word) (time : Word) (b : Nat) (h : Head) : keepsForm s (stitchPath s f time b h) := by
  unfold stitchPath
  extract_lets v36 v37 v38
  have hv36 : keepsForm s v36 := by
    refine wf_then ?_ (wf_of (modTg_only ..) rfl) rfl
    exact wf_refl _
  have hv37 : keepsForm s v37 := by
    refine wf_then ?_ (wf_of (modBld_only ..) rfl) rfl
    exact hv36
  have hv38 : keepsForm s v38 := by
    refine wf_then ?_ (wf_of (modPxc_only ..) rfl) rfl
    refine wf_then ?_ (wf_of (probesAdvance_only ..) rfl) rfl
    exact hv37
  refine wf_then ?_ (echoesAwait_wf _ _ _ _) rfl
  exact hv38

theorem stitchNow_wf (s : State) (h : Head) (late : Bool) : keepsForm s (stitchNow s h late) := by
  unfold stitchNow
  refine wf_ite ?_ ?_
  · exact wf_refl _
  · extract_lets v39 v40 v41 v42 v43 v44 v45 v46
    have hv42 : keepsForm s v42 := by
      refine foldl_wf ?_ (fun t47 a47 => ?_)
      · exact wf_refl _
      · refine wf_then ?_ (wf_of (sendLanes_only ..) rfl) rfl
        exact wf_refl _
    have hv43 : keepsForm s v43 := by
      refine wf_then ?_ (wf_of (modTg_only ..) rfl) rfl
      exact hv42
    have hv44 : keepsForm s v44 := by
      refine foldl_wf ?_ (fun t48 a48 => ?_)
      · exact hv43
      · refine wf_then ?_ (stitchPath_wf _ _ _ _ _) rfl
        exact wf_refl _
    have hv45 : keepsForm s v45 := by
      refine wf_then ?_ (wf_of (ltrAtStitch_only ..) rfl) rfl
      refine foldl_wf ?_ (fun t2 a2 => ?_)
      · exact hv44
      · refine wf_then ?_ (wf_of (stitchComplete_only ..) rfl) rfl
        exact wf_refl _
    have hv46 : keepsForm s v46 := by
      refine foldl_wf ?_ (fun t3 a3 => ?_)
      · exact hv45
      · refine wf_then ?_ (stitchPoint_wf _ _ _ _) rfl
        exact wf_refl _
    refine wf_then ?_ (wf_of (modTg_only ..) rfl) rfl
    exact hv46

theorem slackEnds_wf (s : State) (h : Head) : keepsForm s (slackEnds s h) := by
  unfold slackEnds
  extract_lets v5
  refine wf_ite ?_ ?_
  · exact wf_refl _
  · split
    extract_lets v6 v7 v8 v9
    have hv6 : keepsForm s v6 := by
      refine wf_then ?_ (wf_of (modTg_only ..) rfl) rfl
      refine wf_snd (by assumption) ?_
      refine wf_then ?_ (wf_of (stampCore_only ..) rfl) rfl
      exact wf_refl _
    have hv7 : keepsForm s v7 := by
      refine wf_ite ?_ ?_
      · exact hv6
      · refine wf_then ?_ (wf_of (repeatFault_only ..) rfl) rfl
        refine wf_then ?_ (wf_of (modTg_only ..) rfl) rfl
        exact hv6
    have hv8 : keepsForm s v8 := by
      refine foldl_wf ?_ (fun t1 a1 => ?_)
      · exact hv7
      · refine wf_then ?_ (wf_of (sendDrive_only ..) rfl) rfl
        exact wf_refl _
    have hv9 : keepsForm s v9 := by
      refine foldl_wf ?_ (fun t1 a1 => ?_)
      · exact hv8
      · refine wf_then ?_ (stitchPoint_wf _ _ _ _) rfl
        exact wf_refl _
    refine wf_then ?_ (wf_of (modTg_only ..) rfl) rfl
    exact hv9

theorem assertSource_wf (s : State) (source : Nat) (part : Nat) (heads : Nat) (detail : Nat) (addr : Nat) : keepsForm s (assertSource s source part heads detail addr) := by
  unfold assertSource
  extract_lets v50
  refine wf_ite ?_ ?_
  · refine wf_then ?_ (wf_of (corrected_only ..) rfl) rfl
    exact wf_refl _
  · refine wf_ite ?_ ?_
    · refine wf_then ?_ (uncorrectable_wf _ _ _ _ _) rfl
      exact wf_refl _
    · refine wf_ite ?_ ?_
      · exact wf_refl _
      · refine wf_ite ?_ ?_
        · refine wf_then ?_ (wf_of (setLevel_only ..) rfl) rfl
          exact wf_refl _
        · refine wf_then ?_ (wf_of (raise_only ..) rfl) rfl
          refine wf_ite ?_ ?_
          · refine wf_then ?_ (wf_of (spoilSweeps_only ..) rfl) rfl
            refine wf_ite ?_ ?_
            · refine wf_then ?_ (wf_of (badTableWord_only ..) rfl) rfl
              exact wf_refl _
            · exact wf_refl _
          · refine wf_ite ?_ ?_
            · refine wf_then ?_ (wf_of (badTableWord_only ..) rfl) rfl
              exact wf_refl _
            · exact wf_refl _

theorem calibLoad_wf (s : State) : keepsForm s (calibLoad s) := by
  unfold calibLoad
  extract_lets v43 v44 v45
  have hv45 : keepsForm s v45 := by
    refine wf_then ?_ (memWrite_wf _ _ _) rfl
    exact wf_refl _
  refine wf_ite ?_ ?_
  · exact hv45
  · refine wf_then ?_ (wf_of (modKps_only ..) rfl) rfl
    exact hv45

theorem doseLoad_wf (s : State) : keepsForm s (doseLoad s) := by
  unfold doseLoad
  dsimp only
  split
  · refine wf_then ?_ (memWrite_wf _ _ _) rfl
    refine wf_then ?_ (wf_of (modKps_only ..) rfl) rfl
    exact wf_refl _
  · refine wf_then ?_ (wf_of (modKps_only ..) rfl) rfl
    refine wf_trans ?_ (wf_of (raw_pxc (onlyChanges_refl [.pxc] _) rfl) rfl)
    refine wf_then ?_ (memWrite_wf _ _ _) rfl
    exact wf_refl _

theorem coldState_wf (s : State) : keepsForm s (coldState s) := fun _ => rfl

theorem warmState_wf (s : State) (copied : Bool) : keepsForm s (warmState s copied) := by
  intro hw
  show Store.wf memDefault (warmMemory s) = true
  unfold warmMemory
  extract_lets m
  have hm : Store.wf memDefault m = true := Store.filter_wf _ _ _ hw
  split
  · exact hm
  · exact Store.putList_wf _ _ _ _ hm

theorem wideAsserts_wf (s : State) (b : Nat) : keepsForm s (wideAsserts s b) := by
  unfold wideAsserts
  extract_lets v53 v54 v55 v56 v57 v58 v59
  have hv59 : keepsForm s v59 := by
    refine wf_then ?_ (coldState_wf _) rfl
    exact wf_refl _
  refine wf_trans ?_ (wf_of (raw_rst (onlyChanges_refl [.rst] _) rfl) rfl)
  refine wf_ite ?_ ?_
  · refine wf_then ?_ (coldState_wf _) rfl
    exact wf_refl _
  · refine wf_ite ?_ ?_
    · refine wf_trans ?_ (wf_of (raw_flt (onlyChanges_refl [.flt] _) rfl) rfl)
      exact hv59
    · refine wf_then ?_ (warmState_wf _ _) rfl
      exact wf_refl _

theorem sourceAsserts_wf (s : State) (b : Nat) : keepsForm s (sourceAsserts s b) := by
  unfold sourceAsserts
  refine wf_ite ?_ ?_
  · refine wf_then ?_ (wf_of (hostAsserts_only ..) rfl) rfl
    exact wf_refl _
  · refine wf_then ?_ (wideAsserts_wf _ _) rfl
    exact wf_refl _

theorem journalRead_wf (s : State) : keepsForm s (journalRead s) := by
  unfold journalRead
  refine wf_then ?_ (clientRead_wf _ _ _) rfl
  exact wf_refl _

theorem writeJournal_wf (s : State) (v : Word) : keepsForm s (writeJournal s v) := by
  unfold writeJournal
  refine wf_ite ?_ ?_
  · exact wf_refl _
  · refine wf_ite ?_ ?_
    · extract_lets v0
      have hv0 : keepsForm s v0 := by
        refine wf_then ?_ (journalRead_wf _) rfl
        exact wf_refl _
      refine wf_ite ?_ ?_
      · refine wf_then ?_ (wf_of (journalForgets_only ..) rfl) rfl
        exact hv0
      · refine wf_then ?_ (wf_of (journalResumes_only ..) rfl) rfl
        exact hv0
    · refine wf_ite ?_ ?_
      · refine wf_then ?_ (wf_of (journalForgets_only ..) rfl) rfl
        exact wf_refl _
      · exact wf_refl _

theorem stepEnds_wf (s : State) (n : Nat) : keepsForm s (stepEnds s n) := by
  unfold stepEnds
  extract_lets v83
  have hv83 : keepsForm s v83 := by
    refine wf_then ?_ (wf_of (modRst_only ..) rfl) rfl
    exact wf_refl _
  split
  · refine wf_then ?_ (wf_of (modRst_only ..) rfl) rfl
    exact wf_refl _
  · refine wf_then ?_ (wf_of (hostCheck_only ..) rfl) rfl
    refine wf_then ?_ (wf_of (modRst_only ..) rfl) rfl
    exact wf_refl _
  · refine wf_ite ?_ ?_
    · refine wf_then ?_ (wf_of (priorRecord_only ..) rfl) rfl
      refine wf_then ?_ (wf_of (kpsReady_only ..) rfl) rfl
      refine wf_then ?_ (wf_of (modRst_only ..) rfl) rfl
      exact wf_refl _
    · refine wf_then ?_ (wf_of (kpsReady_only ..) rfl) rfl
      refine wf_then ?_ (wf_of (modRst_only ..) rfl) rfl
      exact wf_refl _
  · refine wf_ite ?_ ?_
    · refine wf_then ?_ (wf_of (bankMapLoad_only ..) rfl) rfl
      refine wf_then ?_ (wf_of (modRst_only ..) rfl) rfl
      exact wf_refl _
    · refine wf_then ?_ (wf_of (modRst_only ..) rfl) rfl
      exact wf_refl _
  · refine wf_then ?_ (wf_of (settle_only ..) rfl) rfl
    refine wf_ite ?_ ?_
    · refine wf_then ?_ (wf_of (raise_only ..) rfl) rfl
      refine wf_then ?_ (wf_of (beginJudging_only ..) rfl) rfl
      refine wf_then ?_ (wf_of (modRst_only ..) rfl) rfl
      refine wf_then ?_ (wf_of (loadSafecfg_only ..) rfl) rfl
      exact wf_refl _
    · refine wf_then ?_ (wf_of (beginJudging_only ..) rfl) rfl
      refine wf_then ?_ (wf_of (modRst_only ..) rfl) rfl
      refine wf_then ?_ (wf_of (loadSafecfg_only ..) rfl) rfl
      exact wf_refl _
  · refine wf_ite ?_ ?_
    · refine wf_then ?_ (doseLoad_wf _) rfl
      refine wf_then ?_ (calibLoad_wf _) rfl
      refine wf_then ?_ (wf_of (modRst_only ..) rfl) rfl
      exact wf_refl _
    · refine wf_then ?_ (calibLoad_wf _) rfl
      refine wf_then ?_ (wf_of (modRst_only ..) rfl) rfl
      exact wf_refl _
  · exact hv83

theorem writeRstCmd_wf (s : State) (v : Word) : keepsForm s (writeRstCmd s v) := by
  unfold writeRstCmd
  refine wf_ite ?_ ?_
  · exact wf_refl _
  · split
    · refine wf_then ?_ (sourceAsserts_wf _ _) rfl
      exact wf_refl _
    · refine wf_then ?_ (sourceAsserts_wf _ _) rfl
      exact wf_refl _
    · refine wf_then ?_ (sourceAsserts_wf _ _) rfl
      exact wf_refl _
    · exact wf_refl _

theorem faultReset_wf (s : State) : keepsForm s (faultReset s) := by
  unfold faultReset
  refine wf_ite ?_ ?_
  · refine wf_then ?_ (sourceAsserts_wf _ _) rfl
    exact wf_refl _
  · exact wf_refl _

theorem memLost_wf (s : State) (keeps : Nat → Bool) : keepsForm s (memLost s keeps) := by
  unfold memLost
  extract_lets v
  refine wf_then ?_ (wf_of (modLmm_only ..) rfl) rfl
  exact fun hw => Store.filter_wf _ _ _ hw

theorem entryLosses_wf (s : State) (target : Nat) : keepsForm s (entryLosses s target) := by
  unfold entryLosses
  refine wf_ite ?_ ?_
  · exact wf_refl _
  · extract_lets v9 v10
    have hv9 : keepsForm s v9 := by
      refine wf_then ?_ (memLost_wf _ _) rfl
      refine wf_then ?_ (wf_of (linkLost_only ..) rfl) rfl
      exact wf_refl _
    have hv10 : keepsForm s v10 := by
      refine wf_ite ?_ ?_
      · refine wf_then ?_ (wf_of (pixLost_only ..) rfl) rfl
        exact hv9
      · exact hv9
    refine wf_ite ?_ ?_
    · refine wf_then ?_ (wf_of (ctrlLost_only ..) rfl) rfl
      exact hv10
    · exact hv10

theorem entryEnds_wf (s : State) : keepsForm s (entryEnds s) := by
  unfold entryEnds
  refine wf_ite ?_ ?_
  · exact wf_refl _
  · extract_lets v12 v13 v14 v15 v16
    have hv13 : keepsForm s v13 := by
      refine wf_then ?_ (entryLosses_wf _ _) rfl
      exact wf_refl _
    have hv14 : keepsForm s v14 := by
      refine wf_ite ?_ ?_
      · refine wf_then ?_ (wf_of (hostDown_only ..) rfl) rfl
        refine wf_then ?_ (wf_of (modPwr_only ..) rfl) rfl
        exact hv13
      · exact hv13
    have hv15 : keepsForm s v15 := by
      refine wf_then ?_ (wf_of (modPwr_only ..) rfl) rfl
      exact hv14
    have hv16 : keepsForm s v16 := by
      refine wf_ite ?_ ?_
      · refine wf_then ?_ (wf_of (netLost_only ..) rfl) rfl
        exact hv15
      · exact hv15
    refine wf_ite ?_ ?_
    · refine wf_then ?_ (wf_of (kpsTake_only ..) rfl) rfl
      exact hv16
    · refine wf_then ?_ (wf_of (beginExit_only ..) rfl) rfl
      exact hv16

theorem healthLost_wf (s : State) (all : Bool) : keepsForm s (healthLost s all) := by
  unfold healthLost
  refine foldl_wf ?_ (fun t19 a19 => ?_)
  · exact wf_refl _
  · extract_lets v20
    refine wf_ite ?_ ?_
    · exact wf_refl _
    · refine wf_then ?_ (memWrite_wf _ _ _) rfl
      exact wf_refl _

theorem saveLosses_wf (s : State) (off : Bool) : keepsForm s (saveLosses s off) := by
  unfold saveLosses
  extract_lets v23 v24
  have hv23 : keepsForm s v23 := by
    refine wf_then ?_ (healthLost_wf _ _) rfl
    refine wf_then ?_ (doseLoad_wf _) rfl
    refine wf_then ?_ (calibLoad_wf _) rfl
    exact wf_refl _
  have hv24 : keepsForm s v24 := by
    refine foldl_wf ?_ (fun t31 a31 => ?_)
    · exact hv23
    · refine foldl_wf ?_ (fun t32 a32 => ?_)
      · exact wf_refl _
      · refine wf_then ?_ (wf_of (extentLost_only ..) rfl) rfl
        exact wf_refl _
  refine foldl_wf ?_ (fun t33 a33 => ?_)
  · exact hv24
  · refine wf_then ?_ (wf_of (modShd_only ..) rfl) rfl
    refine wf_then ?_ (wf_of (modBld_only ..) rfl) rfl
    exact wf_refl _

theorem exitEnds_wf (s : State) (crcOk : Bool) : keepsForm s (exitEnds s crcOk) := by
  unfold exitEnds
  refine wf_ite ?_ ?_
  · exact wf_refl _
  · extract_lets v29 v30
    refine wf_ite ?_ ?_
    · refine wf_then ?_ (sourceAsserts_wf _ _) rfl
      refine wf_then ?_ (wf_of (raise_only ..) rfl) rfl
      refine wf_then ?_ (wf_of (modPwr_only ..) rfl) rfl
      exact wf_refl _
    · refine wf_then ?_ (wf_of (exitRuns_only ..) rfl) rfl
      refine wf_ite ?_ ?_
      · refine wf_then ?_ (wf_of (offLosses_only ..) rfl) rfl
        refine wf_ite ?_ ?_
        · refine wf_then ?_ (saveLosses_wf _ _) rfl
          refine wf_then ?_ (wf_of (modPwr_only ..) rfl) rfl
          exact wf_refl _
        · exact wf_refl _
      · refine wf_ite ?_ ?_
        · refine wf_then ?_ (saveLosses_wf _ _) rfl
          refine wf_then ?_ (wf_of (modPwr_only ..) rfl) rfl
          exact wf_refl _
        · exact wf_refl _

theorem releaseStepEnds_wf (s : State) : keepsForm s (releaseStepEnds s) := by
  unfold releaseStepEnds
  refine wf_ite ?_ ?_
  · exact wf_refl _
  · refine wf_ite ?_ ?_
    · refine wf_then ?_ (wf_of (scriptStarts_only ..) rfl) rfl
      refine wf_then ?_ (wf_of (modRst_only ..) rfl) rfl
      refine wf_then ?_ (stepEnds_wf _ _) rfl
      exact wf_refl _
    · refine wf_then ?_ (stepEnds_wf _ _) rfl
      exact wf_refl _

theorem writeRng_wf (s : State) (idx : Nat) (o : Nat) (v : Word) : keepsForm s (writeRng s idx o v) := by
  unfold writeRng
  split
  · refine wf_then ?_ (wf_of (writeRngCtrl_only ..) rfl) rfl
    exact wf_refl _
  · refine wf_then ?_ (writeJournal_wf _ _) rfl
    exact wf_refl _
  · refine wf_ite ?_ ?_
    · extract_lets v6
      split
      · refine wf_then ?_ (wf_of (writeRingCfg_only ..) rfl) rfl
        exact wf_refl _
      · refine wf_then ?_ (wf_of (modRing_only ..) rfl) rfl
        exact wf_refl _
      · refine wf_then ?_ (wf_of (plainWrite_only ..) rfl) rfl
        exact wf_refl _
    · refine wf_then ?_ (wf_of (plainWrite_only ..) rfl) rfl
      exact wf_refl _

theorem writeTg_wf (s : State) (h : Head) (idx : Nat) (o : Nat) (v : Word) : keepsForm s (writeTg s h idx o v) := by
  unfold writeTg
  split
  · refine wf_then ?_ (writeTgCtrl_wf _ _ _) rfl
    exact wf_refl _
  · refine wf_then ?_ (wf_of (modTg_only ..) rfl) rfl
    exact wf_refl _
  · refine wf_ite ?_ ?_
    · refine wf_then ?_ (wf_of (commitWrite_only ..) rfl) rfl
      exact wf_refl _
    · exact wf_refl _
  · refine wf_then ?_ (wf_of (stoppedWrite_only ..) rfl) rfl
    exact wf_refl _
  · refine wf_then ?_ (wf_of (stoppedWrite_only ..) rfl) rfl
    exact wf_refl _
  · refine wf_ite ?_ ?_
    · refine wf_ite ?_ ?_
      · refine wf_then ?_ (wf_of (reconfigure_only ..) rfl) rfl
        refine wf_then ?_ (wf_of (plainWrite_only ..) rfl) rfl
        exact wf_refl _
      · refine wf_then ?_ (wf_of (timingRefused_only ..) rfl) rfl
        exact wf_refl _
    · refine wf_then ?_ (wf_of (plainWrite_only ..) rfl) rfl
      exact wf_refl _

theorem writeRst_wf (s : State) (o : Nat) (v : Word) : keepsForm s (writeRst s o v) := by
  unfold writeRst
  split
  · refine wf_then ?_ (wf_of (modRst_only ..) rfl) rfl
    exact wf_refl _
  · refine wf_then ?_ (writeRstCmd_wf _ _) rfl
    exact wf_refl _
  · refine wf_then ?_ (wf_of (writeRstBlock_only ..) rfl) rfl
    exact wf_refl _
  · refine wf_then ?_ (wf_of (modRst_only ..) rfl) rfl
    exact wf_refl _
  · refine wf_then ?_ (wf_of (writeBootCmd_only ..) rfl) rfl
    exact wf_refl _
  · exact wf_refl _

theorem writePxcHead_wf (s : State) (h : Head) (idx : Nat) (o : Nat) (v : Word) : keepsForm s (writePxcHead s h idx o v) := by
  unfold writePxcHead
  split
  · refine wf_ite ?_ ?_
    · refine wf_then ?_ (wf_of (reconfigure_only ..) rfl) rfl
      refine wf_then ?_ (wf_of (plainWrite_only ..) rfl) rfl
      exact wf_refl _
    · exact wf_refl _
  · refine wf_then ?_ (clearHealth_wf _ _ _) rfl
    exact wf_refl _
  · refine wf_then ?_ (wf_of (plainWrite_only ..) rfl) rfl
    exact wf_refl _

theorem writePxc_wf (s : State) (idx : Nat) (o : Nat) (v : Word) : keepsForm s (writePxc s idx o v) := by
  unfold writePxc
  split
  · refine wf_trans ?_ (wf_of (raw_pxc (onlyChanges_refl [.pxc] _) rfl) rfl)
    exact wf_refl _
  · refine wf_ite ?_ ?_
    · refine wf_then ?_ (wf_of (doseCheckpoint_only ..) rfl) rfl
      refine wf_then ?_ (wf_of (plainWrite_only ..) rfl) rfl
      exact wf_refl _
    · refine wf_then ?_ (wf_of (plainWrite_only ..) rfl) rfl
      exact wf_refl _
  · refine wf_ite ?_ ?_
    · refine wf_then ?_ (wf_of (writeAging_only ..) rfl) rfl
      exact wf_refl _
    · refine wf_ite ?_ ?_
      · refine wf_then ?_ (writePxcHead_wf _ _ _ _ _) rfl
        exact wf_refl _
      · refine wf_ite ?_ ?_
        · refine wf_then ?_ (writePxcHead_wf _ _ _ _ _) rfl
          exact wf_refl _
        · refine wf_then ?_ (wf_of (plainWrite_only ..) rfl) rfl
          exact wf_refl _

theorem routeWrite_wf (s : State) (idx : Nat) (v : Word) : keepsForm s (routeWrite s idx v) := by
  unfold routeWrite
  extract_lets v13 v14
  split
  · refine wf_then ?_ (wf_of (writeGlb_only ..) rfl) rfl
    exact wf_refl _
  · refine wf_then ?_ (wf_of (writeHif_only ..) rfl) rfl
    exact wf_refl _
  · refine wf_then ?_ (writeRng_wf _ _ _ _) rfl
    exact wf_refl _
  · refine wf_then ?_ (wf_of (writeLmm_only ..) rfl) rfl
    exact wf_refl _
  · refine wf_then ?_ (wf_of (writeLy_only ..) rfl) rfl
    exact wf_refl _
  · refine wf_then ?_ (wf_of (writeLy_only ..) rfl) rfl
    exact wf_refl _
  · refine wf_then ?_ (writeTg_wf _ _ _ _ _) rfl
    exact wf_refl _
  · refine wf_then ?_ (writeTg_wf _ _ _ _ _) rfl
    exact wf_refl _
  · refine wf_then ?_ (wf_of (writeLn_only ..) rfl) rfl
    exact wf_refl _
  · refine wf_then ?_ (wf_of (writeLn_only ..) rfl) rfl
    exact wf_refl _
  · refine wf_then ?_ (wf_of (writeLn_only ..) rfl) rfl
    exact wf_refl _
  · refine wf_ite ?_ ?_
    · refine wf_then ?_ (wf_of (writeTbl_only ..) rfl) rfl
      exact wf_refl _
    · refine wf_ite ?_ ?_
      · refine wf_then ?_ (wf_of (writeTbl_only ..) rfl) rfl
        exact wf_refl _
      · exact wf_refl _
  · refine wf_then ?_ (wf_of (writeNet_only ..) rfl) rfl
    exact wf_refl _
  · refine wf_then ?_ (wf_of (writeTim_only ..) rfl) rfl
    exact wf_refl _
  · refine wf_then ?_ (wf_of (writeCle_only ..) rfl) rfl
    exact wf_refl _
  · refine wf_then ?_ (wf_of (writeLce_only ..) rfl) rfl
    exact wf_refl _
  · refine wf_then ?_ (wf_of (writeCrc_only ..) rfl) rfl
    exact wf_refl _
  · refine wf_then ?_ (wf_of (writeFlt_only ..) rfl) rfl
    exact wf_refl _
  · refine wf_then ?_ (wf_of (writeSaf_only ..) rfl) rfl
    exact wf_refl _
  · refine wf_then ?_ (wf_of (writeHkp_only ..) rfl) rfl
    exact wf_refl _
  · refine wf_then ?_ (wf_of (writePwr_only ..) rfl) rfl
    exact wf_refl _
  · refine wf_then ?_ (writeRst_wf _ _ _) rfl
    exact wf_refl _
  · refine wf_then ?_ (wf_of (plainWrite_only ..) rfl) rfl
    exact wf_refl _
  · refine wf_ite ?_ ?_
    · refine wf_then ?_ (writePxc_wf _ _ _ _) rfl
      exact wf_refl _
    · refine wf_ite ?_ ?_
      · refine wf_then ?_ (wf_of (writeKps_only ..) rfl) rfl
        exact wf_refl _
      · refine wf_ite ?_ ?_
        · refine wf_then ?_ (wf_of (writeShd_only ..) rfl) rfl
          exact wf_refl _
        · refine wf_ite ?_ ?_
          · refine wf_then ?_ (wf_of (writeBld_only ..) rfl) rfl
            exact wf_refl _
          · exact wf_refl _

theorem wordWrite_wf (s : State) (idx : Nat) (v : Word) : keepsForm s (wordWrite s idx v) := by
  unfold wordWrite
  refine wf_ite ?_ ?_
  · refine wf_then ?_ (routeWrite_wf _ _ _) rfl
    exact wf_refl _
  · refine wf_then ?_ (routeWrite_wf _ _ _) rfl
    refine wf_then ?_ (wf_of (freshParity_only ..) rfl) rfl
    exact wf_refl _

theorem portWrite_wf (s0 : State) (b : Bus) (addr : Nat) (whole : Bool) (v : Word) : keepsForm s0 (portWrite s0 b addr whole v).2 := by
  unfold portWrite
  extract_lets v17 v18
  have hv17 : keepsForm s0 v17 := by
    refine wf_ite ?_ ?_
    · refine wf_then ?_ (wf_of (linkWakes_only ..) rfl) rfl
      exact wf_refl _
    · exact wf_refl _
  split
  · dsimp -zeta only
    exact hv17
  · split
    · dsimp -zeta only
      exact hv17
    · split
      · dsimp -zeta only
        refine wf_then ?_ (wf_of (modGlb_only ..) rfl) rfl
        refine wf_then ?_ (wf_of (noteAccess_only ..) rfl) rfl
        exact hv17
      · split
        · dsimp -zeta only
          refine wf_then ?_ (wf_of (modRst_only ..) rfl) rfl
          exact hv17
        · split
          · dsimp -zeta only
            refine wf_then ?_ (wf_of (noteOff_only ..) rfl) rfl
            exact hv17
          · split
            · dsimp -zeta only
              refine wf_then ?_ (wf_of (pageWrite_only ..) rfl) rfl
              refine wf_ite ?_ ?_
              · exact hv17
              · refine wf_then ?_ (wf_of (idleExits_only ..) rfl) rfl
                exact hv17
            · dsimp -zeta only
              refine wf_then ?_ (wordWrite_wf _ _ _) rfl
              refine wf_ite ?_ ?_
              · exact hv17
              · refine wf_then ?_ (wf_of (idleExits_only ..) rfl) rfl
                exact hv17

theorem svcWriteFrame_wf (s : State) (frame : List Byte) : keepsForm s (svcWriteFrame s frame) := by
  unfold svcWriteFrame
  split
  extract_lets v24
  refine wf_ite ?_ ?_
  · refine wf_then ?_ (wf_of (svcCrcError_only ..) rfl) rfl
    refine wf_thd (by assumption) ?_
    refine wf_then ?_ (wf_of (svcCheck_only ..) rfl) rfl
    exact wf_refl _
  · refine wf_ite ?_ ?_
    · refine wf_then ?_ (wf_of (svcAnswer_only ..) rfl) rfl
      refine wf_thd (by assumption) ?_
      refine wf_then ?_ (wf_of (svcCheck_only ..) rfl) rfl
      exact wf_refl _
    · split
      refine wf_then ?_ (wf_of (svcAnswer_only ..) rfl) rfl
      refine wf_snd (by assumption) ?_
      refine wf_then ?_ (portWrite_wf _ _ _ _ _) rfl
      refine wf_thd (by assumption) ?_
      refine wf_then ?_ (wf_of (svcCheck_only ..) rfl) rfl
      exact wf_refl _

theorem writeThrough_wf (b : Bus) (addr : Nat) (whole : Bool) (v : Word) (s : State) : keepsForm s (writeThrough b addr whole v s) := by
  unfold writeThrough
  split
  · refine wf_ite ?_ ?_
    · refine wf_then ?_ (portWrite_wf _ _ _ _ _) rfl
      exact wf_refl _
    · exact wf_refl _
  · refine wf_ite ?_ ?_
    · refine wf_then ?_ (svcWriteFrame_wf _ _) rfl
      exact wf_refl _
    · exact wf_refl _
  · exact wf_refl _

theorem busWrite_wf (s : State) (b : Bus) (addr : Nat) (whole : Bool) (v : Word) : keepsForm s (busWrite s b addr whole v) := by
  unfold busWrite
  refine inOneCycle_wf (fun t26 => ?_) rfl
  refine wf_then ?_ (writeThrough_wf _ _ _ _ _) rfl
  exact wf_refl _

theorem writeWords_wf (addr : Nat) (x1 : List Word) (x2 : State) : keepsForm x2 (writeWords addr x1 x2) := by
  induction x1 generalizing addr x2 with
  | nil => exact wf_then (wf_refl _) (wf_of (recActed_only ..) rfl) rfl
  | cons v vs ih =>
    unfold writeWords
    refine wf_ite ?_ ?_
    · exact wf_then (wf_refl _) (wf_of (scriptFails_only ..) rfl) rfl
    · refine wf_trans ?_ (ih _ _)
      exact wf_then (wf_refl _) (portWrite_wf _ _ _ _ _) rfl

theorem recWrite_wf (s : State) : keepsForm s (recWrite s) := by
  unfold recWrite
  extract_lets v51 v52
  refine wf_ite ?_ ?_
  · refine wf_ite ?_ ?_
    · refine wf_then ?_ (writeWords_wf _ _ _) rfl
      exact wf_refl _
    · refine wf_then ?_ (wf_of (scriptFails_only ..) rfl) rfl
      refine wf_then ?_ (wf_of (lastTouch_only ..) rfl) rfl
      exact wf_refl _
  · refine wf_then ?_ (writeWords_wf _ _ _) rfl
    exact wf_refl _

theorem recMaskWrite_wf (s : State) : keepsForm s (recMaskWrite s) := by
  unfold recMaskWrite
  extract_lets v55
  refine wf_ite ?_ ?_
  · refine wf_then ?_ (wf_of (scriptFails_only ..) rfl) rfl
    exact wf_refl _
  · split
    refine wf_then ?_ (wf_of (recActed_only ..) rfl) rfl
    refine wf_then ?_ (portWrite_wf _ _ _ _ _) rfl
    refine wf_thd (by assumption) ?_
    refine wf_then ?_ (wf_of (portRead_only ..) rfl) rfl
    exact wf_refl _

theorem storeRead_wf (s : State) : keepsForm s (storeRead s) := by
  unfold storeRead
  refine wf_ite ?_ ?_
  · exact wf_refl _
  · extract_lets v60
    refine wf_then ?_ (clientRead_wf _ _ _) rfl
    refine wf_ite ?_ ?_
    · refine wf_then ?_ (wf_of (uploadSpoilt_only ..) rfl) rfl
      exact wf_refl _
    · exact wf_refl _

end Sys2Proof.Machine
end

