-- ==== Sys2Proof/Laws/PerInstr.lean ====
section
/-! SUPPORT. Per command: a well-formed command that acts on a register acts on an aligned word of the register space
(21 R685). One lemma per command; a command that acts on no register meets the statement by having no register word. -/

namespace Sys2Proof.Laws.ArgsInRange

/-- A well-formed command that acts on a register acts on an aligned word of the 256 KiB register space (21 R685). -/
def Statement (i : Sys2Proof.Instr) : Prop :=
  i.wf = true → ∀ a : Nat, i.regAddr = some a → a % 4 = 0 ∧ a < 0x40000

/-- A command without a register word meets the statement. -/
theorem of_none {i : Sys2Proof.Instr} (h : i.regAddr = none) : Statement i := by
  intro _ a ha; rw [h] at ha; exact absurd ha (by simp)

/-- A command with one register word meets the statement when that word fits whenever the command is well formed. -/
theorem of_some {i : Sys2Proof.Instr} {a : Nat} (h : i.regAddr = some a)
    (fits : i.wf = true → a % 4 = 0 ∧ a < 0x40000) : Statement i := by
  intro hw b hb
  rw [h] at hb
  injection hb with e
  exact e ▸ fits hw

theorem regWrite (bus : Bus) (addr enables : Nat) (value : Word) : Statement (.regWrite bus addr enables value) := by
  refine of_some rfl ?_
  simp only [Sys2Proof.Instr.wf, addrFits, Bool.and_eq_true, decide_eq_true_eq, beq_iff_eq]
  omega

theorem doorbell (bus : Bus) (ring : Nat) (whole : Bool) (value : Word) : Statement (.doorbell bus ring whole value) := by
  refine of_some rfl ?_
  simp only [Sys2Proof.Instr.wf, Bool.and_eq_true, decide_eq_true_eq]
  omega

theorem ringEnable (bus : Bus) (ring : Nat) (value : Word) : Statement (.ringEnable bus ring value) := by
  refine of_some rfl ?_
  simp only [Sys2Proof.Instr.wf, Bool.and_eq_true, decide_eq_true_eq]
  omega

theorem ringDisable (bus : Bus) (ring : Nat) (value : Word) : Statement (.ringDisable bus ring value) := by
  refine of_some rfl ?_
  simp only [Sys2Proof.Instr.wf, Bool.and_eq_true, decide_eq_true_eq]
  omega

theorem ringEngineEnable (bus : Bus) : Statement (.ringEngineEnable bus) := by
  refine of_some rfl ?_
  exact fun _ => by decide

theorem ringEngineDisable (bus : Bus) : Statement (.ringEngineDisable bus) := by
  refine of_some rfl ?_
  exact fun _ => by decide

theorem journalResume (bus : Bus) : Statement (.journalResume bus) := by
  refine of_some rfl ?_
  exact fun _ => by decide

theorem journalForget (bus : Bus) : Statement (.journalForget bus) := by
  refine of_some rfl ?_
  exact fun _ => by decide

theorem nop (ring : Nat) (d : Desc) : Statement (.nop ring d) := of_none rfl

theorem layerSet (ring : Nat) (d : Desc) : Statement (.layerSet ring d) := of_none rfl

theorem layerData (ring : Nat) (d : Desc) : Statement (.layerData ring d) := of_none rfl

theorem commit (ring : Nat) (d : Desc) : Statement (.commit ring d) := of_none rfl

theorem paramBlockReadDone (head : Head) (csn : Word) (index : Nat) (data : HostRead) : Statement (.paramBlockReadDone head csn index data) := of_none rfl

theorem layerDataTransferEnd (head : Head) (csn : Word) (index : Nat) (data : HostRead) : Statement (.layerDataTransferEnd head csn index data) := of_none rfl

theorem objects (ring : Nat) (d : Desc) : Statement (.objects ring d) := of_none rfl

theorem objectsListReadDone (head : Head) (slot : Nat) (data : HostRead) : Statement (.objectsListReadDone head slot data) := of_none rfl

theorem calUpload (ring : Nat) (d : Desc) : Statement (.calUpload ring d) := of_none rfl

theorem calUploadValidated (data : HostRead) : Statement (.calUploadValidated data) := of_none rfl

theorem calMergeEnd : Statement (.calMergeEnd) := of_none rfl

theorem lastWrite (ring : Nat) (d : Desc) (data : HostRead) : Statement (.lastWrite ring d data) := of_none rfl

theorem crcJob (ring : Nat) (d : Desc) : Statement (.crcJob ring d) := of_none rfl

theorem crcJobEnd (ctx : Nat) (data : HostRead) : Statement (.crcJobEnd ctx data) := of_none rfl

theorem laceFrame (ring : Nat) (d : Desc) : Statement (.laceFrame ring d) := of_none rfl

theorem netTx (ring : Nat) (d : Desc) : Statement (.netTx ring d) := of_none rfl

theorem netRxBuf (ring : Nat) (d : Desc) : Statement (.netRxBuf ring d) := of_none rfl

theorem queryReadRegister (ring : Nat) (d : Desc) : Statement (.queryReadRegister ring d) := of_none rfl

theorem queryApproveProposal (ring : Nat) (d : Desc) : Statement (.queryApproveProposal ring d) := of_none rfl

theorem queryDeclineProposal (ring : Nat) (d : Desc) : Statement (.queryDeclineProposal ring d) := of_none rfl

theorem fence (ring : Nat) (d : Desc) : Statement (.fence ring d) := of_none rfl

theorem abort (ring : Nat) (d : Desc) : Statement (.abort ring d) := of_none rfl

theorem ltrHoldoffExpiry : Statement (.ltrHoldoffExpiry) := of_none rfl

theorem irqCoalesceTimeout (ring : Nat) : Statement (.irqCoalesceTimeout ring) := of_none rfl

theorem pcieAerUncorr : Statement (.pcieAerUncorr) := of_none rfl

theorem budgetPeriodStart (used : List (Nat × Nat)) (errors : List (Nat × Bool)) : Statement (.budgetPeriodStart used errors) := of_none rfl

theorem eccWriteback : Statement (.eccWriteback) := of_none rfl

theorem budgetWrite (bus : Bus) (client : Nat) (value : Word) : Statement (.budgetWrite bus client value) := by
  refine of_some rfl ?_
  simp only [Sys2Proof.Instr.wf, Bool.and_eq_true, decide_eq_true_eq]
  omega

theorem regionWrite (bus : Bus) (k : Nat) (value : Word) : Statement (.regionWrite bus k value) := by
  refine of_some rfl ?_
  simp only [Sys2Proof.Instr.wf, Bool.and_eq_true, decide_eq_true_eq]
  omega

theorem scrubEnable (bus : Bus) (value : Word) : Statement (.scrubEnable bus value) := by
  refine of_some rfl ?_
  exact fun _ => by decide

theorem scrubDisable (bus : Bus) (value : Word) : Statement (.scrubDisable bus value) := by
  refine of_some rfl ?_
  exact fun _ => by decide

theorem bankRetireStart : Statement (.bankRetireStart) := of_none rfl

theorem bankCopyEnd : Statement (.bankCopyEnd) := of_none rfl

theorem headStart (bus : Bus) (head : Head) (value : Word) : Statement (.headStart bus head value) := by
  refine of_some rfl ?_
  exact fun _ => by cases head <;> decide

theorem headStop (bus : Bus) (head : Head) (value : Word) : Statement (.headStop bus head value) := by
  refine of_some rfl ?_
  exact fun _ => by cases head <;> decide

theorem tgCommit (bus : Bus) (head : Head) : Statement (.tgCommit bus head) := by
  refine of_some rfl ?_
  exact fun _ => by cases head <;> decide

theorem tgCommitCheckEnd (head : Head) : Statement (.tgCommitCheckEnd head) := of_none rfl

theorem sweepStart (head : Head) (sources : List SlotFetch) : Statement (.sweepStart head sources) := of_none rfl

theorem tgTriggerArrive (head : Head) : Statement (.tgTriggerArrive head) := of_none rfl

theorem triggerWaitTimeout (head : Head) : Statement (.triggerWaitTimeout head) := of_none rfl

theorem cut (head : Head) : Statement (.cut head) := of_none rfl

theorem lateRow (head : Head) (slot line : Nat) : Statement (.lateRow head slot line) := of_none rfl

theorem driveTotalSend (head : Head) : Statement (.driveTotalSend head) := of_none rfl

theorem stitch (head : Head) (late : Bool) : Statement (.stitch head late) := of_none rfl

theorem stitchSlackEnd (head : Head) : Statement (.stitchSlackEnd head) := of_none rfl

theorem mapCheck (bus : Bus) (head : Head) : Statement (.mapCheck bus head) := by
  refine of_some rfl ?_
  exact fun _ => by cases head <;> decide

theorem shadowDisable (bus : Bus) (value : Word) : Statement (.shadowDisable bus value) := by
  refine of_some rfl ?_
  exact fun _ => by decide

theorem toneSwap (bus : Bus) (head : Head) : Statement (.toneSwap bus head) := by
  refine of_some rfl ?_
  exact fun _ => by cases head <;> decide

theorem toneCheckEnd (head : Head) : Statement (.toneCheckEnd head) := of_none rfl

theorem headroomWrite (bus : Bus) (head : Head) (n : Nat) (value : Word) : Statement (.headroomWrite bus head n value) := by
  refine of_some rfl ?_
  intro h
  cases head <;> simp only [Head.number, Sys2Proof.Instr.wf, Bool.and_eq_true, decide_eq_true_eq] at h ⊢ <;> omega

theorem ageWrite (bus : Bus) (k : Nat) (value : Word) : Statement (.ageWrite bus k value) := by
  refine of_some rfl ?_
  simp only [Sys2Proof.Instr.wf, Bool.and_eq_true, decide_eq_true_eq]
  omega

theorem healthClear (bus : Bus) (head : Head) (value : Word) : Statement (.healthClear bus head value) := by
  refine of_some rfl ?_
  exact fun _ => by cases head <;> decide

theorem doseCheckpointTimer : Statement (.doseCheckpointTimer) := of_none rfl

theorem doseCkptNow (bus : Bus) (value : Word) : Statement (.doseCkptNow bus value) := by
  refine of_some rfl ?_
  exact fun _ => by decide

theorem slipStart (bus : Bus) (lane : Nat) (value : Word) : Statement (.slipStart bus lane value) := by
  refine of_some rfl ?_
  simp only [Sys2Proof.Instr.wf, Bool.and_eq_true, decide_eq_true_eq]
  unfold laneAddr
  omega

theorem cdrLock (lane : Nat) : Statement (.cdrLock lane) := of_none rfl

theorem slipSearchEnd (lane : Nat) (bits : List Bool) (groups : List Group) : Statement (.slipSearchEnd lane bits groups) := of_none rfl

theorem laneLost (lane : Nat) (groups : List Group) (drift : Int) (cdr : Bool) : Statement (.laneLost lane groups drift cdr) := of_none rfl

theorem eqUpdate (lane : Nat) (upset : Bool) : Statement (.eqUpdate lane upset) := of_none rfl

theorem eyeScanStart (lane : Nat) : Statement (.eyeScanStart lane) := of_none rfl

theorem eyeScanEnd (lane : Nat) (clean : DWord) (groups : List Group) (drift : Int) : Statement (.eyeScanEnd lane clean groups drift) := of_none rfl

theorem trimStep (lane : Nat) : Statement (.trimStep lane) := of_none rfl

theorem lanePstate (bus : Bus) (lane : Nat) (value : Word) : Statement (.lanePstate bus lane value) := by
  refine of_some rfl ?_
  simp only [Sys2Proof.Instr.wf, Bool.and_eq_true, decide_eq_true_eq]
  unfold laneAddr
  omega

theorem laneActive (e : LaneExit) : Statement (.laneActive e) := of_none rfl

theorem clearCounts (bus : Bus) (block : Nat) (value : Word) : Statement (.clearCounts bus block value) := by
  refine of_some rfl ?_
  simp only [Sys2Proof.Instr.wf, Bool.and_eq_true, decide_eq_true_eq]
  omega

theorem ackReceived (head : Head) (tile : Nat) (r : TileRecord) : Statement (.ackReceived head tile r) := of_none rfl

theorem replayTimeout (head : Head) (tile : Nat) : Statement (.replayTimeout head tile) := of_none rfl

theorem statusReceived (head : Head) (tile : Nat) (r : TileRecord) : Statement (.statusReceived head tile r) := of_none rfl

theorem configRepeat (head : Head) (tile : Nat) : Statement (.configRepeat head tile) := of_none rfl

theorem statusTimeout (head : Head) (tile : Nat) : Statement (.statusTimeout head tile) := of_none rfl

theorem tempReceived (head : Head) (tile : Nat) (r : TileRecord) : Statement (.tempReceived head tile r) := of_none rfl

theorem tempTimeout (head : Head) (tile : Nat) : Statement (.tempTimeout head tile) := of_none rfl

theorem healthReceived (head : Head) (tile : Nat) (r : TileRecord) : Statement (.healthReceived head tile r) := of_none rfl

theorem echoReceived (head : Head) (tile : Nat) (r : TileRecord) : Statement (.echoReceived head tile r) := of_none rfl

theorem echoDeadline (head : Head) (tile : Nat) : Statement (.echoDeadline head tile) := of_none rfl

theorem commandRepeat (head : Head) : Statement (.commandRepeat head) := of_none rfl

theorem requestStatus (bus : Bus) (head : Head) (value : Word) : Statement (.requestStatus bus head value) := by
  refine of_some rfl ?_
  exact fun _ => by cases head <;> decide

theorem requestTest (bus : Bus) (head : Head) (value : Word) : Statement (.requestTest bus head value) := by
  refine of_some rfl ?_
  exact fun _ => by cases head <;> decide

theorem requestUnconfig (bus : Bus) (head : Head) (value : Word) : Statement (.requestUnconfig bus head value) := by
  refine of_some rfl ?_
  exact fun _ => by cases head <;> decide

theorem forwardRequest (bus : Bus) (head : Head) (value : Word) : Statement (.forwardRequest bus head value) := by
  refine of_some rfl ?_
  exact fun _ => by cases head <;> decide

theorem forwardReturn (bus : Bus) (head : Head) (value : Word) : Statement (.forwardReturn bus head value) := by
  refine of_some rfl ?_
  exact fun _ => by cases head <;> decide

theorem netPortEnable (bus : Bus) (port : Nat) (value : Word) : Statement (.netPortEnable bus port value) := by
  refine of_some rfl ?_
  simp only [Sys2Proof.Instr.wf, Bool.and_eq_true, decide_eq_true_eq]
  omega

theorem netPortDisable (bus : Bus) (port : Nat) (value : Word) : Statement (.netPortDisable bus port value) := by
  refine of_some rfl ?_
  simp only [Sys2Proof.Instr.wf, Bool.and_eq_true, decide_eq_true_eq]
  omega

theorem netLinkChange (port : Nat) (sync : Option Nat) (anDone remoteFault phyUp speedOk : Bool) : Statement (.netLinkChange port sync anDone remoteFault phyUp speedOk) := of_none rfl

theorem netRxFrame (port : Nat) (frame : List Byte) (error : Nat) : Statement (.netRxFrame port frame error) := of_none rfl

theorem netTxDone (port : Nat) : Statement (.netTxDone port) := of_none rfl

theorem mdioWrite (bus : Bus) (value : Word) : Statement (.mdioWrite bus value) := by
  refine of_some rfl ?_
  exact fun _ => by decide

theorem mdioRead (bus : Bus) (value : Word) : Statement (.mdioRead bus value) := by
  refine of_some rfl ?_
  exact fun _ => by decide

theorem mdioDone (data : Half) : Statement (.mdioDone data) := of_none rfl

theorem telegramWindowEnd (source seq : Nat) : Statement (.telegramWindowEnd source seq) := of_none rfl

theorem keyMemoryExpiry (source seq : Nat) : Statement (.keyMemoryExpiry source seq) := of_none rfl

theorem telegramTimeout (source : Nat) : Statement (.telegramTimeout source) := of_none rfl

theorem timeSet (bus : Bus) : Statement (.timeSet bus) := by
  refine of_some rfl ?_
  exact fun _ => by decide

theorem timeStep (bus : Bus) : Statement (.timeStep bus) := by
  refine of_some rfl ?_
  exact fun _ => by decide

theorem timeSlew (bus : Bus) : Statement (.timeSlew bus) := by
  refine of_some rfl ?_
  exact fun _ => by decide

theorem timeCancel (bus : Bus) : Statement (.timeCancel bus) := by
  refine of_some rfl ?_
  exact fun _ => by decide

theorem timeDiscipline (bus : Bus) : Statement (.timeDiscipline bus) := by
  refine of_some rfl ?_
  exact fun _ => by decide

theorem slewComplete : Statement (.slewComplete) := of_none rfl

theorem incrementApply (bus : Bus) (value : Word) : Statement (.incrementApply bus value) := by
  refine of_some rfl ?_
  exact fun _ => by decide

theorem holdWrite (bus : Bus) (value : Word) : Statement (.holdWrite bus value) := by
  refine of_some rfl ?_
  exact fun _ => by decide

theorem holdoverTimeout : Statement (.holdoverTimeout) := of_none rfl

theorem nowLatch (bus : Bus) : Statement (.nowLatch bus) := by
  refine of_some rfl ?_
  exact fun _ => by decide

theorem triggerArm (bus : Bus) (n : Nat) (value : Word) : Statement (.triggerArm bus n value) := by
  refine of_some rfl ?_
  simp only [Sys2Proof.Instr.wf, Bool.and_eq_true, decide_eq_true_eq]
  omega

theorem triggerDisable (bus : Bus) (n : Nat) (value : Word) : Statement (.triggerDisable bus n value) := by
  refine of_some rfl ?_
  simp only [Sys2Proof.Instr.wf, Bool.and_eq_true, decide_eq_true_eq]
  omega

theorem triggerFire (n : Nat) : Statement (.triggerFire n) := of_none rfl

theorem ppsEnd : Statement (.ppsEnd) := of_none rfl

theorem capture (n : Nat) (rising : Bool) : Statement (.capture n rising) := of_none rfl

theorem capturePop (bus : Bus) (n : Nat) : Statement (.capturePop bus n) := by
  refine of_some rfl ?_
  simp only [Sys2Proof.Instr.wf, Bool.and_eq_true, decide_eq_true_eq]
  omega

theorem loopSample (n : Nat) : Statement (.loopSample n) := of_none rfl

theorem loopComputeStart : Statement (.loopComputeStart) := of_none rfl

theorem loopComputeEnd : Statement (.loopComputeEnd) := of_none rfl

theorem loopOutput (n : Nat) : Statement (.loopOutput n) := of_none rfl

theorem loopEnable (bus : Bus) (n : Nat) (value : Word) : Statement (.loopEnable bus n value) := by
  refine of_some rfl ?_
  simp only [Sys2Proof.Instr.wf, Bool.and_eq_true, decide_eq_true_eq]
  omega

theorem loopDisable (bus : Bus) (n : Nat) (value : Word) : Statement (.loopDisable bus n value) := by
  refine of_some rfl ?_
  simp only [Sys2Proof.Instr.wf, Bool.and_eq_true, decide_eq_true_eq]
  omega

theorem loopClear (bus : Bus) (n : Nat) (value : Word) : Statement (.loopClear bus n value) := by
  refine of_some rfl ?_
  simp only [Sys2Proof.Instr.wf, Bool.and_eq_true, decide_eq_true_eq]
  omega

theorem loopCommit (bus : Bus) (value : Word) : Statement (.loopCommit bus value) := by
  refine of_some rfl ?_
  exact fun _ => by decide

theorem driveTotalReceive (head : Head) : Statement (.driveTotalReceive head) := of_none rfl

theorem adcConversionStart (c : Nat) : Statement (.adcConversionStart c) := of_none rfl

theorem adcConversionEnd (c : Nat) (code : Half) : Statement (.adcConversionEnd c code) := of_none rfl

theorem imuTransactionStart : Statement (.imuTransactionStart) := of_none rfl

theorem imuTransactionEnd (data : List Byte) : Statement (.imuTransactionEnd data) := of_none rfl

theorem setpPeriodStart (n : Nat) : Statement (.setpPeriodStart n) := of_none rfl

theorem setpointWrite (bus : Bus) (n : Nat) (value : Word) : Statement (.setpointWrite bus n value) := by
  refine of_some rfl ?_
  simp only [Sys2Proof.Instr.wf, Bool.and_eq_true, decide_eq_true_eq]
  unfold setpointWord
  intro h
  split <;> (try split) <;> omega

theorem lenWrite (bus : Bus) (value : Word) : Statement (.lenWrite bus value) := by
  refine of_some rfl ?_
  exact fun _ => by decide

theorem laceFrameReady (chain : Nat) (data : HostRead) : Statement (.laceFrameReady chain data) := of_none rfl

theorem laceTrigger (chain : Nat) : Statement (.laceTrigger chain) := of_none rfl

theorem laceFrameStart (chain : Nat) : Statement (.laceFrameStart chain) := of_none rfl

theorem laceGapEnd (chain : Nat) : Statement (.laceGapEnd chain) := of_none rfl

theorem laceCommit (bus : Bus) (value : Word) : Statement (.laceCommit bus value) := by
  refine of_some rfl ?_
  exact fun _ => by decide

theorem laceDisable (bus : Bus) (chain : Nat) (value : Word) : Statement (.laceDisable bus chain value) := by
  refine of_some rfl ?_
  simp only [Sys2Proof.Instr.wf, Bool.and_eq_true, decide_eq_true_eq]
  omega

theorem presetLoad (bus : Bus) (ctx : Nat) (value : Word) : Statement (.presetLoad bus ctx value) := by
  refine of_some rfl ?_
  simp only [Sys2Proof.Instr.wf, Bool.and_eq_true, decide_eq_true_eq]
  omega

theorem faultAssert (source part heads detail addr : Nat) : Statement (.faultAssert source part heads detail addr) := of_none rfl

theorem faultConditionClear (source part : Nat) : Statement (.faultConditionClear source part) := of_none rfl

theorem eventOutput : Statement (.eventOutput) := of_none rfl

theorem stickyClear (bus : Bus) (high : Bool) (value : Word) : Statement (.stickyClear bus high value) := by
  refine of_some rfl ?_
  cases high <;> simp

theorem counterClear (bus : Bus) (high : Bool) (value : Word) : Statement (.counterClear bus high value) := by
  refine of_some rfl ?_
  cases high <;> simp

theorem firstFaultClear (bus : Bus) (value : Word) : Statement (.firstFaultClear bus value) := by
  refine of_some rfl ?_
  exact fun _ => by decide

theorem severityWrite (bus : Bus) (k : Nat) (value : Word) : Statement (.severityWrite bus k value) := by
  refine of_some rfl ?_
  simp only [Sys2Proof.Instr.wf, Bool.and_eq_true, decide_eq_true_eq]
  omega

theorem injectArm (bus : Bus) (value : Word) : Statement (.injectArm bus value) := by
  refine of_some rfl ?_
  exact fun _ => by decide

theorem collectorSelfFail : Statement (.collectorSelfFail) := of_none rfl

theorem faultResetRequest : Statement (.faultResetRequest) := of_none rfl

theorem clockMonitorGate (clock count : Nat) : Statement (.clockMonitorGate clock count) := of_none rfl

theorem safeNAssert : Statement (.safeNAssert) := of_none rfl

theorem safeNRelease : Statement (.safeNRelease) := of_none rfl

theorem autoClearExpiry (source : Nat) : Statement (.autoClearExpiry source) := of_none rfl

theorem heartbeatWrite (bus : Bus) (value : Word) : Statement (.heartbeatWrite bus value) := by
  refine of_some rfl ?_
  exact fun _ => by decide

theorem heartbeatGraceEnd : Statement (.heartbeatGraceEnd) := of_none rfl

theorem heartbeatTimeout : Statement (.heartbeatTimeout) := of_none rfl

theorem watchdogExpiry (index : Nat) : Statement (.watchdogExpiry index) := of_none rfl

theorem unlockOpen (bus : Bus) : Statement (.unlockOpen bus) := by
  refine of_some rfl ?_
  exact fun _ => by decide

theorem unlockCommit (bus : Bus) : Statement (.unlockCommit bus) := by
  refine of_some rfl ?_
  exact fun _ => by decide

theorem safecfgCommitEnd (written : Bool) : Statement (.safecfgCommitEnd written) := of_none rfl

theorem unlockAbandon (bus : Bus) : Statement (.unlockAbandon bus) := by
  refine of_some rfl ?_
  exact fun _ => by decide

theorem sessionTimeout : Statement (.sessionTimeout) := of_none rfl

theorem lockoutEnd : Statement (.lockoutEnd) := of_none rfl

theorem safecfgCheck (upset : Bool) : Statement (.safecfgCheck upset) := of_none rfl

theorem hkRoundStart : Statement (.hkRoundStart) := of_none rfl

theorem hkConversion (code : Nat) : Statement (.hkConversion code) := of_none rfl

theorem hkEvaluation : Statement (.hkEvaluation) := of_none rfl

theorem hkDisable (bus : Bus) (value : Word) : Statement (.hkDisable bus value) := by
  refine of_some rfl ?_
  exact fun _ => by decide

theorem idleEnter : Statement (.idleEnter) := of_none rfl

theorem idleExit : Statement (.idleExit) := of_none rfl

theorem pwrDoze (bus : Bus) : Statement (.pwrDoze bus) := by
  refine of_some rfl ?_
  exact fun _ => by decide

theorem pwrSleep (bus : Bus) : Statement (.pwrSleep bus) := by
  refine of_some rfl ?_
  exact fun _ => by decide

theorem pwrOff (bus : Bus) : Statement (.pwrOff bus) := by
  refine of_some rfl ?_
  exact fun _ => by decide

theorem pwrRun (bus : Bus) : Statement (.pwrRun bus) := by
  refine of_some rfl ?_
  exact fun _ => by decide

theorem dozeTimerExpiry : Statement (.dozeTimerExpiry) := of_none rfl

theorem sleepTimerExpiry : Statement (.sleepTimerExpiry) := of_none rfl

theorem blockAnswer : Statement (.blockAnswer) := of_none rfl

theorem askTimeout : Statement (.askTimeout) := of_none rfl

theorem saveDone : Statement (.saveDone) := of_none rfl

theorem entryComplete : Statement (.entryComplete) := of_none rfl

theorem wake (source : Nat) : Statement (.wake source) := of_none rfl

theorem wakeTimerExpiry : Statement (.wakeTimerExpiry) := of_none rfl

theorem powerGood (domain : Nat) : Statement (.powerGood domain) := of_none rfl

theorem powerGoodTimeout (domain : Nat) : Statement (.powerGoodTimeout domain) := of_none rfl

theorem exitComplete (crcOk : Bool) : Statement (.exitComplete crcOk) := of_none rfl

theorem powerOnDetect : Statement (.powerOnDetect) := of_none rfl

theorem resetNAssert : Statement (.resetNAssert) := of_none rfl

theorem resetNRelease : Statement (.resetNRelease) := of_none rfl

theorem aoBrownOut : Statement (.aoBrownOut) := of_none rfl

theorem coreBrownOut : Statement (.coreBrownOut) := of_none rfl

theorem softwareWarm (bus : Bus) (value : Word) : Statement (.softwareWarm bus value) := by
  refine of_some rfl ?_
  exact fun _ => by decide

theorem softwareCold (bus : Bus) (value : Word) : Statement (.softwareCold bus value) := by
  refine of_some rfl ?_
  exact fun _ => by decide

theorem softwareHost (bus : Bus) (value : Word) : Statement (.softwareHost bus value) := by
  refine of_some rfl ?_
  exact fun _ => by decide

theorem softwareResetRelease : Statement (.softwareResetRelease) := of_none rfl

theorem perstN : Statement (.perstN) := of_none rfl

theorem hotReset : Statement (.hotReset) := of_none rfl

theorem linkDown : Statement (.linkDown) := of_none rfl

theorem functionLevelReset : Statement (.functionLevelReset) := of_none rfl

theorem resetRelease : Statement (.resetRelease) := of_none rfl

theorem releaseStepComplete : Statement (.releaseStepComplete) := of_none rfl

theorem blockReset (bus : Bus) (value : Word) : Statement (.blockReset bus value) := by
  refine of_some rfl ?_
  exact fun _ => by decide

theorem blockResetRelease (block : Nat) : Statement (.blockResetRelease block) := of_none rfl

theorem bootWrite : Statement (.bootWrite) := of_none rfl

theorem bootMaskWrite : Statement (.bootMaskWrite) := of_none rfl

theorem bootPoll : Statement (.bootPoll) := of_none rfl

theorem bootSlipSearch : Statement (.bootSlipSearch) := of_none rfl

theorem bootLoadTiles : Statement (.bootLoadTiles) := of_none rfl

theorem bootWait : Statement (.bootWait) := of_none rfl

theorem bootWaitExpiry : Statement (.bootWaitExpiry) := of_none rfl

theorem bootRecordTimeout : Statement (.bootRecordTimeout) := of_none rfl

theorem bootEnd : Statement (.bootEnd) := of_none rfl

theorem bootRun (bus : Bus) : Statement (.bootRun bus) := by
  refine of_some rfl ?_
  exact fun _ => by decide

theorem bootStop (bus : Bus) : Statement (.bootStop bus) := by
  refine of_some rfl ?_
  exact fun _ => by decide

theorem kpsOperationEnd (ok : Bool) : Statement (.kpsOperationEnd ok) := of_none rfl

theorem kpsScrubSector (corrected : Bool) (bad : Option Nat) : Statement (.kpsScrubSector corrected bad) := of_none rfl

theorem fuseProgram (bus : Bus) (value : Word) : Statement (.fuseProgram bus value) := by
  refine of_some rfl ?_
  exact fun _ => by decide

theorem fuseProgramEnd (ok : Bool) : Statement (.fuseProgramEnd ok) := of_none rfl

theorem windowReadHi (bus : Bus) : Statement (.windowReadHi bus) := by
  refine of_some rfl ?_
  exact fun _ => by decide

theorem svcWrite (frame : List Byte) : Statement (.svcWrite frame) := of_none rfl

theorem svcRead (frame : List Byte) (upset : Bool) : Statement (.svcRead frame upset) := of_none rfl

theorem svcBadCommand (frame : List Byte) : Statement (.svcBadCommand frame) := of_none rfl

theorem svcFrameDiscard : Statement (.svcFrameDiscard) := of_none rfl

theorem parityBgCheck (upset : Bool) : Statement (.parityBgCheck upset) := of_none rfl

theorem perstNRelease : Statement (.perstNRelease) := of_none rfl

theorem pcieLinkUp (rate width : Nat) : Statement (.pcieLinkUp rate width) := of_none rfl

theorem regRead (addr enables : Nat) (upset : Bool) : Statement (.regRead addr enables upset) := by
  refine of_some rfl ?_
  simp only [Sys2Proof.Instr.wf, addrFits, Bool.and_eq_true, decide_eq_true_eq, beq_iff_eq]
  omega

theorem netTxReadDone (port : Nat) (data : HostRead) : Statement (.netTxReadDone port data) := of_none rfl

theorem powerDomainRetry (domain : Nat) : Statement (.powerDomainRetry domain) := of_none rfl

theorem refLoss : Statement (.refLoss) := of_none rfl

theorem refReturn : Statement (.refReturn) := of_none rfl

theorem bootPollRead : Statement (.bootPollRead) := of_none rfl

end Sys2Proof.Laws.ArgsInRange
end

