-- ==== Sys2Proof/Laws/Routes.lean ====
section
/-! SUPPORT. Where the write of each command's register goes: the handler of its window, and whether the lock of 00 R10
keeps the whole word. -/

namespace Sys2Proof.Machine

/-- A word that is not wholly RWL is open to a write whatever the lock. -/
theorem wordLocked_open (s : State) (idx : Nat) (h : (rwMask idx != 0#32 && rwlMask idx == rwMask idx) = false) :
    wordLocked s idx = false := by
  unfold wordLocked
  rw [Bool.and_assoc, h, Bool.and_false]

/-- A word that is wholly RWL is open to a write while a session is open. -/
theorem wordLocked_session (s : State) (idx : Nat) (h : (rwMask idx != 0#32 && rwlMask idx == rwMask idx) = true) :
    wordLocked s idx = !s.saf.unlocked := by
  unfold wordLocked
  rw [Bool.and_assoc, h, Bool.and_true]

theorem route_ringCfg (s : State) (n : Nat) (v : Word) (hn : n < 32) :
    routeWrite s ((0x03108 + 0x20 * n) / 4) v = writeRingCfg s n v := by
  interval_cases n <;> rfl

theorem open_ringCfg (s : State) (n : Nat) (hn : n < 32) : wordLocked s ((0x03108 + 0x20 * n) / 4) = false :=
  wordLocked_open s _ (by
    interval_cases n <;> decide)

theorem route_rngCtrl (s : State) (v : Word) :
    routeWrite s (0x03000 / 4) v = writeRngCtrl s v := rfl

theorem open_rngCtrl (s : State) : wordLocked s (0x03000 / 4) = false :=
  wordLocked_open s _ (by decide)

theorem route_journal (s : State) (v : Word) :
    routeWrite s (0x03008 / 4) v = writeJournal s v := rfl

theorem open_journal (s : State) : wordLocked s (0x03008 / 4) = false :=
  wordLocked_open s _ (by decide)

theorem route_budget (s : State) (n : Nat) (v : Word) (hn : n < 12) :
    routeWrite s ((0x04040 + 4 * n) / 4) v = writeBudget s n v := by
  rcases n with _ | _ | _ | _ | _ | _ | _ | _ | _ | _ | _ | _ | n
  all_goals first | rfl | omega

theorem open_budget (s : State) (n : Nat) (hn : n < 12) : wordLocked s ((0x04040 + 4 * n) / 4) = false :=
  wordLocked_open s _ (by
    rcases n with _ | _ | _ | _ | _ | _ | _ | _ | _ | _ | _ | _ | n
    all_goals first | decide | omega)

theorem route_region (s : State) (n : Nat) (v : Word) (hn : n < 11) :
    routeWrite s ((0x04100 + 4 * n) / 4) v = writeRegion s n v := by
  rcases n with _ | _ | _ | _ | _ | _ | _ | _ | _ | _ | _ | n
  all_goals first | rfl | omega

theorem open_region (s : State) (n : Nat) (hn : n < 11) : wordLocked s ((0x04100 + 4 * n) / 4) = false :=
  wordLocked_open s _ (by
    rcases n with _ | _ | _ | _ | _ | _ | _ | _ | _ | _ | _ | n
    all_goals first | decide | omega)

theorem route_scrub (s : State) (v : Word) :
    routeWrite s (0x04000 / 4) v = plainWrite s (0x04000 / 4) v := rfl

theorem open_scrub (s : State) : wordLocked s (0x04000 / 4) = false :=
  wordLocked_open s _ (by decide)

theorem route_tgCtrl (s : State) (h : Head) (v : Word) :
    routeWrite s (tgBase h / 4) v = writeTgCtrl s h v := by cases h <;> rfl

theorem open_tgCtrl (s : State) (h : Head) : wordLocked s (tgBase h / 4) = false :=
  wordLocked_open s _ (by cases h <;> decide)

theorem route_tgCommit (s : State) (h : Head) (v : Word) :
    routeWrite s ((tgBase h + 8) / 4) v = (if bit v 0 then commitWrite s h else s) := by cases h <;> rfl

theorem open_tgCommit (s : State) (h : Head) : wordLocked s ((tgBase h + 8) / 4) = false :=
  wordLocked_open s _ (by cases h <;> decide)

theorem route_mapCfg (s : State) (h : Head) (v : Word) :
    routeWrite s (shdBase h / 4) v = writeMapCfg s h v := by cases h <;> rfl

theorem open_mapCfg (s : State) (h : Head) : wordLocked s (shdBase h / 4) = false :=
  wordLocked_open s _ (by cases h <;> decide)

theorem route_shdCtrl (s : State) (v : Word) :
    routeWrite s (0x20000 / 4) v = writeShdCtrl s v := rfl

theorem open_shdCtrl (s : State) : wordLocked s (0x20000 / 4) = false :=
  wordLocked_open s _ (by decide)

theorem route_toneCtrl (s : State) (h : Head) (v : Word) :
    routeWrite s ((bldBase h + 4) / 4) v = writeToneCtrl s h v := by cases h <;> rfl

theorem open_toneCtrl (s : State) (h : Head) : wordLocked s ((bldBase h + 4) / 4) = false :=
  wordLocked_open s _ (by cases h <;> decide)

theorem route_health (s : State) (h : Head) (v : Word) :
    routeWrite s ((pxcBase h + 0x38) / 4) v = clearHealth s h v := by cases h <;> rfl

theorem open_health (s : State) (h : Head) : wordLocked s ((pxcBase h + 0x38) / 4) = false :=
  wordLocked_open s _ (by cases h <;> decide)

theorem route_doseCkpt (s : State) (v : Word) :
    routeWrite s (0x18008 / 4) v = (if bit v 8 then doseCheckpoint (plainWrite s (0x18008 / 4) v) else plainWrite s (0x18008 / 4) v) := rfl

theorem open_doseCkpt (s : State) : wordLocked s (0x18008 / 4) = false :=
  wordLocked_open s _ (by decide)

theorem route_age (s : State) (n : Nat) (v : Word) (hn : n < 65) :
    routeWrite s (ageAddr n / 4) v = writeAging s n v := by
  interval_cases n <;> rfl

theorem open_age (s : State) (n : Nat) (hn : n < 65) : wordLocked s (ageAddr n / 4) = false :=
  wordLocked_open s _ (by
    interval_cases n <;> decide)

theorem route_laneCtrl (s : State) (n : Nat) (v : Word) (hn : n < 18) :
    routeWrite s (laneBase n / 4) v = writeLaneCtrl s n v := by
  rcases n with _ | _ | _ | _ | _ | _ | _ | _ | _ | _ | _ | _ | _ | _ | _ | _ | _ | _ | n
  all_goals first | rfl | omega

theorem open_laneCtrl (s : State) (n : Nat) (hn : n < 18) : wordLocked s (laneBase n / 4) = false :=
  wordLocked_open s _ (by
    rcases n with _ | _ | _ | _ | _ | _ | _ | _ | _ | _ | _ | _ | _ | _ | _ | _ | _ | _ | n
    all_goals first | decide | omega)

theorem route_headroom (s : State) (h : Head) (n : Nat) (v : Word) (hn : 1 ≤ n) (h8 : n < 8) :
    routeWrite s (headroomAddr h n / 4) v = writeHeadroom s h n v := by
  rcases n with _ | _ | _ | _ | _ | _ | _ | _ | n <;> cases h
  all_goals first | rfl | omega

theorem open_headroom (s : State) (h : Head) (n : Nat) (hn : 1 ≤ n) (h8 : n < 8) : wordLocked s (headroomAddr h n / 4) = false :=
  wordLocked_open s _ (by
    rcases n with _ | _ | _ | _ | _ | _ | _ | _ | n <;> cases h
    all_goals first | decide | omega)

theorem route_lnCtrl (s : State) (n : Nat) (v : Word) (hn : n < 3) :
    routeWrite s (laneBlockBase n / 4) v = writeLnCtrl s n v := by
  rcases n with _ | _ | _ | n
  all_goals first | rfl | omega

theorem open_lnCtrl (s : State) (n : Nat) (hn : n < 3) : wordLocked s (laneBlockBase n / 4) = false :=
  wordLocked_open s _ (by
    rcases n with _ | _ | _ | n
    all_goals first | decide | omega)

theorem route_req (s : State) (h : Head) (v : Word) :
    routeWrite s (reqAddr h / 4) v = writeReq s h v := by cases h <;> rfl

theorem open_req (s : State) (h : Head) : wordLocked s (reqAddr h / 4) = false :=
  wordLocked_open s _ (by cases h <;> decide)

theorem route_fwd (s : State) (h : Head) (v : Word) :
    routeWrite s ((tblBase h + 8) / 4) v = writeFwd s h v := by cases h <;> rfl

theorem open_fwd (s : State) (h : Head) : wordLocked s ((tblBase h + 8) / 4) = false :=
  wordLocked_open s _ (by cases h <;> decide)

theorem route_netCtrl (s : State) (n : Nat) (v : Word) (hn : n < 2) :
    routeWrite s (netBase n / 4) v = writeNetCtrl s n v := by
  rcases n with _ | _ | n
  all_goals first | rfl | omega

theorem open_netCtrl (s : State) (n : Nat) (hn : n < 2) : wordLocked s (netBase n / 4) = false :=
  wordLocked_open s _ (by
    rcases n with _ | _ | n
    all_goals first | decide | omega)

theorem route_mdio (s : State) (v : Word) :
    routeWrite s (0x0D000 / 4) v = writeMdio s v := rfl

theorem open_mdio (s : State) : wordLocked s (0x0D000 / 4) = false :=
  wordLocked_open s _ (by decide)

theorem route_timCmd (s : State) (v : Word) :
    routeWrite s (0x0E004 / 4) v = writeTimCmd s v := rfl

theorem open_timCmd (s : State) : wordLocked s (0x0E004 / 4) = false :=
  wordLocked_open s _ (by decide)

theorem route_time (s : State) (idx : Nat) (v : Word) (h : idx / 1024 = 14) :
    routeWrite s idx v = writeTim s idx (4 * idx % 4096) v := by
  unfold routeWrite
  split
  all_goals first | omega | contradiction | rfl

theorem writeTim_incr (s : State) (idx : Nat) (v : Word) : writeTim s idx 0xC v = writeIncrFrac s v := by
  unfold writeTim
  split
  all_goals first | rfl | contradiction

theorem route_incr (s : State) (v : Word) :
    routeWrite s (0x0E00C / 4) v = writeIncrFrac s v := by
  rw [route_time s _ v (by decide), show 4 * (0x0E00C / 4) % 4096 = 0xC by decide, writeTim_incr]

theorem open_incr (s : State) : wordLocked s (0x0E00C / 4) = false :=
  wordLocked_open s _ (by decide)

theorem route_hold (s : State) (v : Word) :
    routeWrite s (0x0E018 / 4) v = writeHold s v := rfl

theorem open_hold (s : State) : wordLocked s (0x0E018 / 4) = false :=
  wordLocked_open s _ (by decide)

theorem route_trigCtrl (s : State) (n : Nat) (v : Word) (hn : n < 8) :
    routeWrite s ((0x0E100 + 0x20 * n) / 4) v = writeTrigCtrl s n v := by
  rcases n with _ | _ | _ | _ | _ | _ | _ | _ | n
  all_goals first | rfl | omega

theorem open_trigCtrl (s : State) (n : Nat) (hn : n < 8) : wordLocked s ((0x0E100 + 0x20 * n) / 4) = false :=
  wordLocked_open s _ (by
    rcases n with _ | _ | _ | _ | _ | _ | _ | _ | n
    all_goals first | decide | omega)

theorem route_loopCtrl (s : State) (n : Nat) (v : Word) (hn : n < 8) :
    routeWrite s (loopBase n / 4) v = writeLoopCtrl s n v := by
  rcases n with _ | _ | _ | _ | _ | _ | _ | _ | n
  all_goals first | rfl | omega

theorem open_loopCtrl (s : State) (n : Nat) (hn : n < 8) : wordLocked s (loopBase n / 4) = false :=
  wordLocked_open s _ (by
    rcases n with _ | _ | _ | _ | _ | _ | _ | _ | n
    all_goals first | decide | omega)

theorem route_cleCommit (s : State) (v : Word) :
    routeWrite s (0x0F004 / 4) v = writeCleCommit s v := rfl

theorem open_cleCommit (s : State) : wordLocked s (0x0F004 / 4) = false :=
  wordLocked_open s _ (by decide)

theorem route_setpoint (s : State) (n : Nat) (v : Word) (hn : n < 8) :
    routeWrite s (setpointAddr n / 4) v = writeSetpoint s n v := by
  rcases n with _ | _ | _ | _ | _ | _ | _ | _ | n
  all_goals first | rfl | omega

theorem open_setpoint (s : State) (n : Nat) (hn : n < 8) : wordLocked s (setpointAddr n / 4) = false :=
  wordLocked_open s _ (by
    rcases n with _ | _ | _ | _ | _ | _ | _ | _ | n
    all_goals first | decide | omega)

theorem route_len (s : State) (v : Word) :
    routeWrite s (0x0F008 / 4) v = writeLen s v := rfl

theorem open_len (s : State) : wordLocked s (0x0F008 / 4) = false :=
  wordLocked_open s _ (by decide)

theorem route_lceCommit (s : State) (v : Word) :
    routeWrite s (0x10000 / 4) v = writeLceCommit s v := rfl

theorem open_lceCommit (s : State) : wordLocked s (0x10000 / 4) = false :=
  wordLocked_open s _ (by decide)

theorem route_chainCtrl (s : State) (n : Nat) (v : Word) (hn : n < 2) :
    routeWrite s (lceBase n / 4) v = writeLceCtrl s n v := by
  rcases n with _ | _ | n
  all_goals first | rfl | omega

theorem open_chainCtrl (s : State) (n : Nat) (hn : n < 2) : wordLocked s (lceBase n / 4) = false :=
  wordLocked_open s _ (by
    rcases n with _ | _ | n
    all_goals first | decide | omega)

theorem route_crcPreset (s : State) (n : Nat) (v : Word) (hn : n < 4) :
    routeWrite s (crcBase n / 4) v = writeCrcCfg s n v := by
  rcases n with _ | _ | _ | _ | n
  all_goals first | rfl | omega

theorem open_crcPreset (s : State) (n : Nat) (hn : n < 4) : wordLocked s (crcBase n / 4) = false :=
  wordLocked_open s _ (by
    rcases n with _ | _ | _ | _ | n
    all_goals first | decide | omega)

theorem route_sticky (s : State) (high : Bool) (v : Word) :
    routeWrite s ((if high then 0x12014 else 0x12010) / 4) v = writeSticky s high v := by cases high <;> rfl

theorem open_sticky (s : State) (high : Bool) : wordLocked s ((if high then 0x12014 else 0x12010) / 4) = false :=
  wordLocked_open s _ (by cases high <;> decide)

theorem route_cntClr (s : State) (high : Bool) (v : Word) :
    routeWrite s ((if high then 0x120A4 else 0x120A0) / 4) v = writeCntClr s high v := by cases high <;> rfl

theorem open_cntClr (s : State) (high : Bool) : wordLocked s ((if high then 0x120A4 else 0x120A0) / 4) = false :=
  wordLocked_open s _ (by cases high <;> decide)

theorem route_first (s : State) (v : Word) :
    routeWrite s (0x12060 / 4) v = writeFirst s v := rfl

theorem open_first (s : State) : wordLocked s (0x12060 / 4) = false :=
  wordLocked_open s _ (by decide)

theorem route_sev (s : State) (n : Nat) (v : Word) (hn : n < 8) :
    routeWrite s ((0x12020 + 4 * n) / 4) v = writeSev s n v := by
  rcases n with _ | _ | _ | _ | _ | _ | _ | _ | n
  all_goals first | rfl | omega

theorem open_sev (s : State) (n : Nat) (hn : n < 8) : wordLocked s ((0x12020 + 4 * n) / 4) = false :=
  wordLocked_open s _ (by
    rcases n with _ | _ | _ | _ | _ | _ | _ | _ | n
    all_goals first | decide | omega)

theorem route_inj (s : State) (v : Word) :
    routeWrite s (0x12080 / 4) v = (if s.saf.unlocked then writeInj s v else s) := rfl

theorem lock_inj (s : State) : wordLocked s (0x12080 / 4) = !s.saf.unlocked :=
  wordLocked_session s _ (by decide)

theorem route_hb (s : State) (v : Word) :
    routeWrite s (0x13040 / 4) v = writeHb s v := rfl

theorem open_hb (s : State) : wordLocked s (0x13040 / 4) = false :=
  wordLocked_open s _ (by decide)

theorem route_unlock (s : State) (v : Word) :
    routeWrite s (0x1300C / 4) v = writeUnlock s v := rfl

theorem open_unlock (s : State) : wordLocked s (0x1300C / 4) = false :=
  wordLocked_open s _ (by decide)

theorem route_hkCtrl (s : State) (v : Word) :
    routeWrite s (0x14000 / 4) v = writeHkCtrl s (accepted s (0x14000 / 4) v) := rfl

theorem open_hkCtrl (s : State) : wordLocked s (0x14000 / 4) = false :=
  wordLocked_open s _ (by decide)

theorem route_pwrCmd (s : State) (v : Word) :
    routeWrite s (0x15008 / 4) v = writePwrCmd s v := rfl

theorem open_pwrCmd (s : State) : wordLocked s (0x15008 / 4) = false :=
  wordLocked_open s _ (by decide)

theorem route_rstCmd (s : State) (v : Word) :
    routeWrite s (0x16004 / 4) v = writeRstCmd s v := rfl

theorem open_rstCmd (s : State) : wordLocked s (0x16004 / 4) = false :=
  wordLocked_open s _ (by decide)

theorem route_rstBlock (s : State) (v : Word) :
    routeWrite s (0x16008 / 4) v = writeRstBlock s v := rfl

theorem open_rstBlock (s : State) : wordLocked s (0x16008 / 4) = false :=
  wordLocked_open s _ (by decide)

theorem route_bootCmd (s : State) (v : Word) :
    routeWrite s (0x16014 / 4) v = writeBootCmd s v := rfl

theorem open_bootCmd (s : State) : wordLocked s (0x16014 / 4) = false :=
  wordLocked_open s _ (by decide)

theorem route_fuseProg (s : State) (v : Word) :
    routeWrite s (0x1C080 / 4) v = fuseProgramWrite s v := rfl

theorem open_fuseProg (s : State) : wordLocked s (0x1C080 / 4) = false :=
  wordLocked_open s _ (by decide)

end Sys2Proof.Machine
end

