-- ==== Sys2Proof/Tests/Slice0.lean ====
section
/-! SUPPORT. Ill-formed commands that the check refuses, for each statement of the certificate a state and operands that meet
its hypotheses, and small tests of single steps whose expected results are worked by hand from spec/. -/

open Sys2Proof Sys2Proof.Machine

namespace Sys2Proof.Tests

set_option Elab.async false

/-- The block after its release sequence: no reach stands, every domain is on, the data link is up. -/
def live0 : State :=
  { State.reset with
    rst := { State.reset.rst with reach := 0, sources := [], step := 0, done := 8, hifReady := true }
    hif := { State.reset.hif with linkUp := true } }

/-- A register word given a value. -/
def withWord (s : State) (addr : Nat) (v : Word) : State := { s with regs := Store.put regReset s.regs (addr / 4) v }

/-- A slew of one increment's 2^-32 ns is in force. -/
def slewing : State := { live0 with tim := { live0.tim with slew := 1, valid := true } }

/-- A WARM release sequence runs, at its last step. -/
def releasing : State := { live0 with rst := { live0.rst with reach := 2, step := 7 } }

/-- The boot script runs. -/
def scripted : State := { live0 with rst := { live0.rst with boot := { live0.rst.boot with state := 2 } } }

/-- PD_CTRL is off. -/
def ctrlless : State := { live0 with pwr := { live0.pwr with domains := [(6, 0)] } }

/-- A service frame of a register word's number and four bytes of data whose last byte does not match its CRC. -/
def badWriteFrame : List Byte := [2#8, 3#8, 0#8, 0#8, 0#8, 1#8, 2#8, 3#8, 4#8, 0#8]

/-- A request to read whose last byte does not match its CRC. -/
def badReadFrame : List Byte := [3#8, 3#8, 0#8, 0#8, 0#8, 0#8]

/-- Configuration word of an enabled ring of 16 entries. -/
def ringWord (kind role cpl : Nat) : Word := BitVec.ofNat 32 (1 + 4 * kind + 64 + 256 * cpl + 65536 * role)

/-- The ring engine runs, ring 31 is a COMPLETE ring, and ring `n` a SUBMIT ring of a role with one descriptor to fetch. -/
def fetching (n role : Nat) : State :=
  modRing (withWord (withWord (withWord live0 0x03000 1#32) (0x03108 + 0x20 * 31) (ringWord 1 0 0)) (0x03108 + 0x20 * n)
    (ringWord 0 role 31)) n (fun r => { r with hostIdx := 1 })

/-- Ring 31 is a COMPLETE ring of 16 entries in service, with three entries that the host has not released. -/
def completing : State :=
  modRing (withWord live0 (0x03108 + 0x20 * 31) (ringWord 1 0 0)) 31 (fun r => { r with devIdx := 3, unreleased := 3 })

/-- A journal holds the rings. -/
def journalled : State := { live0 with rng := { live0.rng with journal := some { regs := [(3072, 1#32)], rings := [] } } }

/-- A descriptor whose bytes 8 on are given. -/
def desc (opcode flags : Nat) (first : List Byte) : Desc :=
  { opcode := opcode, flags := flags, tag := 0x1234#16, csn := 1#32, body := first ++ List.replicate (52 - first.length) 0#8,
    dcrc := 0#32 }

/-- A member of a change set that ring 2 gave up from slot 1. -/
def member (d : Desc) : Member :=
  { ring := 2, slot := 1, cpl := 31, desc := d, dcrcOk := true, block := none, moved := false, range := 0 }

/-- A LAYER_SET of slot `k` that names a parameter block of 16 bytes. -/
def blockSet (k : Byte) : Member := member (desc 1 0 ([k] ++ List.replicate 31 0#8 ++ [16#8]))

/-- A COMMIT of three members. -/
def closing : Member := member (desc 3 0 [0#8, 0#8, 0#8, 0#8, 3#8])

/-- Change set 7 of three members. -/
def changeSet (stage : CsStage) (m : Member) (n : Member) : ChangeSet :=
  { csn := 7#32, members := [m, n, closing], stage := stage, ltr := none }

/-- A head has a committed change set of two parameter blocks and a COMMIT, in check. -/
def checkingSet (h : Head) : State :=
  modRngHead live0 h (fun g => { g with sets := [changeSet .checking (blockSet 0#8) (blockSet 1#8)] })

/-- A LAYER_DATA of 16 bytes at the start of RESIDENT. -/
def data16 : Member := member (desc 2 0 [0#8, 0#8, 0#8, 0#8, 16#8])

/-- A head's change set transfers two runs of resident bytes. -/
def movingSet (h : Head) : State :=
  modRngHead live0 h (fun g => { g with sets := [changeSet .transferring data16 data16] })

/-- A descriptor that ring 0, in a role, gave up from slot 1, in execution. -/
def fetched (role : Nat) (d : Desc) : Work :=
  { ring := 0, slot := 1, role := role, cpl := 31, desc := d, dcrcOk := true, stage := 1, waits := [], stitches := 0, data := .data [],
    bad := none, closes := none }

/-- Ring 0 has fetched an OBJECTS list of one record, whose bytes are being read. -/
def listing (h : Head) : State :=
  let d : Desc := desc 4 0 [0#8, 1#8]
  modShd { live0 with rng := { live0.rng with work := [fetched (4 + Head.idx h) d] } } h (fun u => { u with
    lists := [{ ring := 0, slot := 1, tag := 0#16, count := 1, records := [], seconds := 0, nanos := 0, stage := 0 }] })

/-- An upload of 16 calibration codes of a head's first pixels stands at a stage. -/
def uploading (h : Head) (stage : Nat) : State :=
  let d : Desc := desc 5 0 [0#8, 0#8, 0#8, 0#8, 16#8]
  { live0 with pxc := { live0.pxc with cal := some {
      ring := 0, slot := 1, desc := d, head := h, offset := 0, data := List.replicate 16 5#8, stage := stage, shown := 0,
      latched := none, sectors := [], failed := false, badRead := false } } }

/-- A checksum job on the standard text of nine digits holds context 0. -/
def summing : State :=
  let d : Desc := desc 7 0 [0#8, 3#8, 0#8, 0#8, 9#8, 0#8, 0#8, 0#8]
  { live0 with rng := { live0.rng with work := [fetched 7 d] } }

/-- The nine digits. -/
def digits : List Byte := [0x31#8, 0x32#8, 0x33#8, 0x34#8, 0x35#8, 0x36#8, 0x37#8, 0x38#8, 0x39#8]

/-- COBBLER has a proposal of a kind open. -/
def proposing (s : State) (kind : Nat) : State :=
  { s with cbl := { s.cbl with number := 5, proposals := [(kind, some { number := 5, target := 63, pixels := [] })] } }

/-- A head runs. -/
def running (s : State) (h : Head) : State := modTg s h (fun t => { t with state := 2 })

/-- The two heads are joined. -/
def joinedHeads : State := withWord live0 0x07000 2#32

/-- A commit of the timing in force at reset is in check. -/
def checkingTiming (h : Head) : State := modTg live0 h (fun t => { t with checking := some [] })

/-- A commit whose line length is 0 is in check. -/
def checkingBad (h : Head) : State := modTg live0 h (fun t => { t with checking := some [((tgBase h + 0x30) / 4, 0#32)] })

/-- The spacing after a tolerance message runs. -/
def holdingOff (held : Option (Option Nat)) : State := { live0 with hif := { live0.hif with ltrHoldoff := true, ltrHeld := held } }

/-- Ring `n` coalesces interrupts and one entry waits for its interrupt, on a vector that is masked or not. -/
def coalescing (n : Nat) (masked : Bool) : State :=
  modRing (withWord (withWord live0 (0x0310C + 0x20 * n) 0x000A009F#32) (0x0180C + 16 * 31) (if masked then 1#32 else 0#32)) n
    (fun r => { r with unsignalled := 1 })

/-- A session is open. -/
def inSession (s : State) : State := { s with saf := { s.saf with unlocked := true } }

/-- The keeping store writes a record, so that other operations wait. -/
def writing (s : State) : State := { s with kps := { s.kps with current := some .ledger } }

/-- A head's open change set has one member. -/
def opened (s : State) (h : Head) : State := modRngHead s h (fun g => { g with opened := [blockSet 0#8] })

/-- A head's raster and its only tile are 4 by 2 pixels. -/
def small (s : State) (h : Head) : State :=
  (List.range 7).foldl (fun acc k => withWord acc (tgBase h + 0x88 + 8 * k) 0#32)
    (withWord (withWord (withWord s (tgBase h + 0x10) 4#32) (tgBase h + 0x14) 2#32) (tgBase h + 0x84) 0x00020004#32)

/-- A head in a state of its generator whose next sweep is due, with or without triggers. -/
def sweepDue (h : Head) (st : Nat) (trig : Bool) : State :=
  modTg (small live0 h) h (fun t =>
    { t with state := st, due := true, waiting := trig, force := if trig then [((tgBase h) / 4, 4#32)] else [] })

/-- A head's sweep is active and composed so far. -/
def sweeping (h : Head) : State :=
  modTg (small live0 h) h (fun t => { t with state := 2, active := true, composed := true, full := true })

/-- The cut has passed and the stitch test is open; some frames have been repeated. -/
def stitching (h : Head) (run : Nat) : State :=
  modTg (small live0 h) h (fun t =>
    { t with state := 2, stitchOpen := true, composed := true, full := true, driveAccepted := true, run := run })

/-- Slot 7 of a head takes its lines from host memory. -/
def hostSlot (s : State) (h : Head) : State := modSlot s h 7 (fun sl => { sl with enabled := true })

/-- A head is at HUSK. -/
def atHusk (s : State) (h : Head) : State := modSafHead s h (fun e => { e with state := 2, pattern := 3 })

/-- A dose checkpoint runs. -/
def checkpointing (s : State) : State := { s with pxc := { s.pxc with ckpt := true } }

/-- Bank 5 waits for a retirement, and every spare was clean in the last pass. -/
def queued : State := { live0 with lmm := { live0.lmm with queue := [5, 7] } }

/-- Bank 5 is being copied to bank 60. -/
def copying (s : State) : State :=
  { s with lmm := { s.lmm with retire := some { candidate := 5, spare := 60, ended := false, switched := Pair.both false } } }

/-- A head's tone banks are in check. -/
def checkingTone (s : State) (h : Head) : State := modBld s h (fun e => { e with swap := 1 })

/-- A lane is ACTIVE and aligned, its elastic buffer at its centre. -/
def laneUp (s : State) (l : Nat) : State :=
  modLane s l (fun e => { e with pstate := 3, cdrLock := true, aligned := true, elastic := 4, stream := .commas })

/-- Head `h`'s lane `t` is up and the tile on it is link-ready in configuration 7. -/
def tileUp (h : Head) (s : State) (t : Nat) : State :=
  modTile (laneUp s (laneIndex h t)) h t (fun e =>
    { e with epoch := 7, shownEpoch := 7, fresh := true, configWait := false, state := 2, info := 0xFFFFFFFF#32, maxW := 1023, maxH := 1023 })

/-- Every tile of a head is link-ready, with 12-bit packing. -/
def linked (s : State) (h : Head) : State := (List.range 8).foldl (tileUp h) (withWord s (tblBase h) 1#32)

/-- The shadow engine is on and slot 3 of head A takes the shadow mask. -/
def shadowed : State := modSlot (withWord live0 0x20000 3#32) .a 3 (fun sl => { sl with enabled := true, kind := 2 })

/-- Head A's map lists one node at each 40 columns and at each 40 rows from below, which covers its raster. -/
def mapped (s : State) : State :=
  let w := withWord (withWord s (shdBase .a + 8) 1#32) (shdBase .a + 0x10) 1#32
  { w with regs := Store.putList regReset w.regs 0x8400 ((List.range 1122).map (fun k =>
      BitVec.ofNat 32 ((if k % 2 = 0 then k / 2 % 33 else 16 - k / 66) * 40 * 65536))) }

/-- A record of a type from tile `t` of head A, under configuration 7, with its CRC. -/
def record (t ptype epoch fill : Nat) (body : List Byte) : TileRecord :=
  let r : TileRecord := { seq := 9, fsn := 0, crc := 0#32, symbols := true, fill := fill, body := body }
  { r with crc := BitVec.ofNat 32 (recordCrc .a t ptype epoch r) }

/-- Tile 2 of head A is link-ready; three packets of its stream, numbered from 254, wait to be acknowledged. -/
def unacked : State :=
  modTile (tileUp .a live0 2) .a 2 (fun e =>
    { e with txSeq := 1, unacked := [254, 255, 0].map (fun n => (n, { ptype := 8, fsn := 0, body := [1#8, 0#8, 0#8, 0#8] })) })

/-- Tile 2 of head A is link-ready, and its echo of frame 5 is awaited. -/
def echoing : State := modTile (tileUp .a live0 2) .a 2 (fun e => { e with echoWait := some (5#32, 6#32) })

/-- Both network ports are enabled, their links are up, and telegrams of EtherType 0x1234 from one source are compared. -/
def netUp : State :=
  let s := withWord (withWord (withWord (withWord (withWord live0 0x0D100 1#32) 0x0D200 1#32) 0x0D010 0x00011234#32) 0x0D024
    0x80000000#32) 0x0D018 500#32
  modPort (modPort s 0 (fun e => { e with link := true })) 1 (fun e => { e with link := true })

/-- A telegram frame of 64 bytes by its trailer's LAN nibble, its command and its heads, with the CRC of its body. -/
def telegram (lan cmd heads : Nat) : List Byte :=
  let b := [1#8, BitVec.ofNat 8 cmd, BitVec.ofNat 8 heads, 2#8, 9#8, 0#8, 0#8, 0#8]
  List.replicate 6 0xFF#8 ++ List.replicate 6 0#8 ++ [0x12#8, 0x34#8] ++ b ++ leBytes 4 (crc32c b) ++ List.replicate 32 0#8
    ++ [0#8, 7#8, BitVec.ofNat 8 (16 * lan), 50#8, 0x88#8, 0xFB#8]

/-- The first copy of a telegram has come on a port. -/
def keyed (p : Nat) (f : List Byte) : State :=
  modNet netUp (fun e => { e with keys := [{ source := 0, seq := 7, port := p, time := 0#32, frame := f }] })

/-- The stored safety image lets a single RELEASE act. -/
def releasable (s : State) : State := { s with saf := { s.saf with image := some (List.replicate 64 0xFF#8) } }

/-- Port 0 has a receive buffer of 100 bytes, and the host may be written. -/
def buffered : State :=
  let d : Desc := desc 10 0 ([0#8, 0#8, 0#8, 0#8, 100#8, 0#8, 0#8, 0#8, 0#8, 0#8, 1#8])
  { netUp with rng := { netUp.rng with work := [fetched 11 d] } }

/-- Bytes put into a list at a place. -/
def patch (b : List Byte) (i : Nat) (x : List Byte) : List Byte := b.take i ++ x ++ b.drop (i + x.length)

/-- The RWL words of a head block as at reset, in the order of 16 R570. -/
def rwlWords : List Nat := [50, 250, 0x2800, 0x6666, 0x8000, 0x8000, 0x8000, 0x8000, 0x8000, 0x8000, 4, 2000]

/-- A sound safety image of a generation: RWL values as at reset, hold times and heartbeat of 100 ms, both flags of 16 R558
set, a password that is not zero. -/
def goodImage (gen : Nat) : List Byte :=
  let zeros (n : Nat) : List Byte := List.replicate n 0#8
  let rwl : List Byte := rwlWords.flatMap (leBytes 4)
  let body := leBytes 2 1 ++ leBytes 2 1152 ++ leBytes 4 gen ++ leBytes 4 77 ++ zeros 36 ++ [100, 100, 100, 3].flatMap (leBytes 2)
    ++ zeros 404 ++ rwl ++ zeros 464 ++ rwl ++ zeros 72 ++ leBytes 4 2000 ++ zeros 36 ++ leBytes 4 1 ++ zeros 12
  body ++ leBytes 4 (crc32c body)

/-- An image is in force. -/
def imaged (s : State) : State := { s with saf := { s.saf with image := some (goodImage 4) } }

/-- Copy B of SAFECFG holds an image of a generation. -/
def offered (s : State) (gen : Nat) : State :=
  { s with kps := { s.kps with data := Store.putList (fun _ => 0#8) s.kps.data (4096 * 33) (goodImage gen),
                               sectors := [(33, { (sectorOf s 33) with logical := 33, state := 1 })] } }

/-- A session commits. -/
def committing (s : State) : State :=
  { s with saf := { s.saf with unlocked := true, committing := true }, kps := { s.kps with current := some .commit } }

/-- Script slot 0 holds records, as words, under header flags. -/
def scriptOf (s : State) (flags : Nat) (words : List Nat) : State :=
  let body := leBytes 2 1 ++ leBytes 2 flags ++ leBytes 4 (20 + 4 * words.length) ++ leBytes 4 1 ++ leBytes 4 0
    ++ (words.map (leBytes 4)).flatten
  { s with kps := { s.kps with data := Store.putList (fun _ => 0#8) s.kps.data 0 (body ++ leBytes 4 (crc32c body)) } }

/-- The first of these records is in hand; it has begun and waits, or not. -/
def inHand (s : State) (flags : Nat) (words : List Nat) (waiting : Bool) : State :=
  let u := scriptOf s flags words
  { u with rst := { u.rst with boot := { u.rst.boot with state := 2, pos := 16, waiting := waiting } } }
/-- A descriptor of an opcode whose other fields are zero. -/
def descWith (opcode : Nat) : Desc :=
  { opcode := opcode, flags := 0, tag := 0#16, csn := 0#32, body := List.replicate 52 0#8, dcrc := 0#32 }

/-- A record from a tile that passes its checks. -/
def goodRecord : TileRecord := { seq := 0, fsn := 0, crc := 0#32, symbols := true, fill := 0, body := [] }

/-! ## Ill-formed commands -/

/-- Each of these breaks one check of `Instr.wf` and is refused. -/
theorem test_wf_refuses_1 :
    ([.regWrite .script 0 15 0#32, .regWrite .pcie 2 15 0#32, .regWrite .pcie 0x40000 15 0#32, .regWrite .pcie 0 0 0#32,
    .regWrite .pcie 0 16 0#32, .doorbell .script 0 false 0#32, .doorbell .pcie 32 false 0#32, .ringEnable .script 0 0#32,
    .ringEnable .pcie 32 0#32, .ringDisable .script 0 0#32, .ringDisable .pcie 32 0#32, .ringEngineEnable .script,
    .ringEngineDisable .script, .journalResume .script, .journalForget .script, .nop 32 (descWith 0),
    .nop 0 { descWith 0 with flags := 256 }, .nop 0 { descWith 0 with body := [] }, .nop 0 (descWith 256),
    .nop 0 (descWith 13), .layerSet 32 (descWith 1), .layerSet 0 { descWith 1 with flags := 256 },
    .layerSet 0 { descWith 1 with body := [] }, .layerSet 0 (descWith 0), .layerData 32 (descWith 2),
    .layerData 0 (descWith 1), .commit 32 (descWith 3), .commit 0 (descWith 2)] : List Instr).all (fun i => !i.wf) = true := by
  decide

/-- Each of these breaks one check of `Instr.wf` and is refused. -/
theorem test_wf_refuses_2 :
    ([.paramBlockReadDone .a 0#32 0 (.failed 4), .layerDataTransferEnd .a 0#32 0 (.failed 4), .objects 32 (descWith 4),
    .objects 0 (descWith 3), .objectsListReadDone .a 0 (.failed 4), .calUpload 32 (descWith 5), .calUpload 0 (descWith 4),
    .calUploadValidated (.failed 4), .lastWrite 32 (descWith 6) .internalError, .lastWrite 0 (descWith 5) .internalError,
    .lastWrite 0 (descWith 6) (.failed 4), .crcJob 32 (descWith 7), .crcJob 0 (descWith 6), .crcJobEnd 4 .internalError,
    .crcJobEnd 0 (.failed 4), .laceFrame 32 (descWith 8), .laceFrame 0 (descWith 7), .netTx 32 (descWith 9),
    .netTx 0 (descWith 8), .netRxBuf 32 (descWith 10), .netRxBuf 0 (descWith 9), .queryReadRegister 32 (descWith 11),
    .queryReadRegister 0 (descWith 10), .queryApproveProposal 32 (descWith 11), .queryApproveProposal 0 (descWith 10),
    .queryDeclineProposal 32 (descWith 11), .queryDeclineProposal 0 (descWith 10), .fence 32 (descWith 12)] : List Instr).all (fun i => !i.wf) = true := by
  decide

/-- Each of these breaks one check of `Instr.wf` and is refused. -/
theorem test_wf_refuses_3 :
    ([.fence 0 (descWith 11), .abort 32 (descWith 13), .abort 0 (descWith 12), .irqCoalesceTimeout 32,
    .budgetPeriodStart (List.replicate 13 (0, 0)) [], .budgetWrite .script 0 0#32, .budgetWrite .pcie 12 0#32,
    .regionWrite .script 0 0#32, .regionWrite .pcie 11 0#32, .scrubEnable .script 0#32, .scrubDisable .script 0#32,
    .headStart .script .a 0#32, .headStop .script .a 0#32, .tgCommit .script .a, .lateRow .a 8 0, .mapCheck .script .a,
    .shadowDisable .script 0#32, .toneSwap .script .a, .headroomWrite .script .a 7 0#32, .headroomWrite .pcie .a 0 0#32,
    .headroomWrite .pcie .a 8 0#32, .ageWrite .script 0 0#32, .ageWrite .pcie 65 0#32, .healthClear .script .a 0#32,
    .doseCkptNow .script 0#32, .slipStart .script 0 0#32, .slipStart .pcie 18 0#32, .cdrLock 18] : List Instr).all (fun i => !i.wf) = true := by
  decide

/-- Each of these breaks one check of `Instr.wf` and is refused. -/
theorem test_wf_refuses_4 :
    ([.slipSearchEnd 18 [] [], .laneLost 18 [] 0 false, .eqUpdate 18 false, .eyeScanStart 18, .eyeScanEnd 18 0#64 [] 0,
    .trimStep 18, .lanePstate .script 0 0#32, .lanePstate .pcie 18 0#32, .laneActive ⟨18, false⟩,
    .clearCounts .script 0 0#32, .clearCounts .pcie 3 0#32, .ackReceived .a 8 goodRecord,
    .ackReceived .a 0 { goodRecord with seq := 256 }, .ackReceived .a 0 { goodRecord with fsn := 65536 },
    .ackReceived .a 0 { goodRecord with fill := 5 }, .replayTimeout .a 8, .statusReceived .a 8 goodRecord,
    .statusReceived .a 0 { goodRecord with seq := 256 }, .statusReceived .a 0 { goodRecord with fsn := 65536 },
    .configRepeat .a 8, .statusTimeout .a 8, .tempReceived .a 8 goodRecord,
    .tempReceived .a 0 { goodRecord with seq := 256 }, .tempReceived .a 0 { goodRecord with fsn := 65536 },
    .tempTimeout .a 8, .healthReceived .a 8 goodRecord, .healthReceived .a 0 { goodRecord with seq := 256 },
    .healthReceived .a 0 { goodRecord with fsn := 65536 }] : List Instr).all (fun i => !i.wf) = true := by
  decide

/-- Each of these breaks one check of `Instr.wf` and is refused. -/
theorem test_wf_refuses_5 :
    ([.echoReceived .a 8 goodRecord, .echoReceived .a 0 { goodRecord with seq := 256 },
    .echoReceived .a 0 { goodRecord with fsn := 65536 }, .echoDeadline .a 8, .requestStatus .script .a 0#32,
    .requestTest .script .a 0#32, .requestUnconfig .script .a 0#32, .forwardRequest .script .a 0#32,
    .forwardReturn .script .a 0#32, .netPortEnable .script 0 0#32, .netPortEnable .pcie 2 0#32,
    .netPortDisable .script 0 0#32, .netPortDisable .pcie 2 0#32, .netLinkChange 2 none false false false false,
    .netLinkChange 0 (some 10) false false false false, .netRxFrame 2 [0#8] 0, .netRxFrame 0 [] 0, .netRxFrame 0 [0#8] 3,
    .netTxDone 2, .mdioWrite .script 0#32, .mdioRead .script 0#32, .telegramWindowEnd 8 0, .keyMemoryExpiry 8 0,
    .telegramTimeout 8, .timeSet .script, .timeStep .script, .timeSlew .script, .timeCancel .script] : List Instr).all (fun i => !i.wf) = true := by
  decide

/-- Each of these breaks one check of `Instr.wf` and is refused. -/
theorem test_wf_refuses_6 :
    ([.timeDiscipline .script, .incrementApply .script 0#32, .holdWrite .script 0#32, .nowLatch .script,
    .triggerArm .script 0 0#32, .triggerArm .pcie 8 0#32, .triggerDisable .script 0 0#32, .triggerDisable .pcie 8 0#32,
    .triggerFire 8, .capture 8 false, .capturePop .script 0, .capturePop .pcie 8, .loopSample 8, .loopOutput 8,
    .loopEnable .script 0 0#32, .loopEnable .pcie 8 0#32, .loopDisable .script 0 0#32, .loopDisable .pcie 8 0#32,
    .loopClear .script 0 0#32, .loopClear .pcie 8 0#32, .loopCommit .script 0#32, .adcConversionStart 4,
    .adcConversionEnd 4 0#16, .imuTransactionEnd (List.replicate 17 0#8), .setpPeriodStart 8, .setpointWrite .script 0 0#32,
    .setpointWrite .pcie 8 0#32, .lenWrite .script 0#32] : List Instr).all (fun i => !i.wf) = true := by
  decide

/-- Each of these breaks one check of `Instr.wf` and is refused. -/
theorem test_wf_refuses_7 :
    ([.laceFrameReady 2 .internalError, .laceFrameReady 0 (.failed 4), .laceTrigger 2, .laceFrameStart 2, .laceGapEnd 2,
    .laceCommit .script 0#32, .laceDisable .script 0 0#32, .laceDisable .pcie 2 0#32, .presetLoad .script 0 0#32,
    .presetLoad .pcie 4 0#32, .faultAssert 63 0 0 0 0, .faultAssert 0 0 4 0 0, .faultAssert 0 0 0 65536 0,
    .faultConditionClear 63 0, .stickyClear .script false 0#32, .counterClear .script false 0#32,
    .firstFaultClear .script 0#32, .severityWrite .script 0 0#32, .severityWrite .pcie 8 0#32, .injectArm .script 0#32,
    .clockMonitorGate 7 0, .clockMonitorGate 0 65536, .autoClearExpiry 13, .heartbeatWrite .script 0#32, .watchdogExpiry 6,
    .unlockOpen .script, .unlockCommit .script, .unlockAbandon .script] : List Instr).all (fun i => !i.wf) = true := by
  decide

/-- Each of these breaks one check of `Instr.wf` and is refused. -/
theorem test_wf_refuses_8 :
    ([.hkConversion 4096, .hkDisable .script 0#32, .pwrDoze .script, .pwrSleep .script, .pwrOff .script, .pwrRun .script,
    .wake 256, .powerGood 8, .powerGoodTimeout 8, .softwareWarm .script 0#32, .softwareCold .script 0#32,
    .softwareHost .script 0#32, .blockReset .script 0#32, .blockResetRelease 9, .bootRun .script, .bootStop .script,
    .fuseProgram .script 0#32, .windowReadHi .script, .svcWrite (List.replicate 9 0#8),
    .svcRead (List.replicate 5 0#8) false, .svcBadCommand [], .pcieLinkUp 0 1, .pcieLinkUp 4 1, .pcieLinkUp 1 0,
    .pcieLinkUp 1 16, .regRead 2 15 false, .regRead 0x40000 15 false, .regRead 0 0 false] : List Instr).all (fun i => !i.wf) = true := by
  decide

/-- Each of these breaks one check of `Instr.wf` and is refused. -/
theorem test_wf_refuses_9 :
    ([.regRead 0 16 false, .netTxReadDone 2 .internalError, .netTxReadDone 0 (.failed 4), .powerDomainRetry 8] : List Instr).all (fun i => !i.wf) = true := by
  decide

/-- With every operand in its range the check lets the command through. -/
theorem test_wf_lets_through_1 :
    ([.regWrite .pcie 0 15 0#32, .doorbell .pcie 0 false 0#32, .ringEnable .pcie 0 0#32, .ringDisable .pcie 0 0#32,
    .ringEngineEnable .pcie, .ringEngineDisable .pcie, .journalResume .pcie, .journalForget .pcie, .nop 0 (descWith 0),
    .layerSet 0 (descWith 1), .layerData 0 (descWith 2), .commit 0 (descWith 3),
    .paramBlockReadDone .a 0#32 0 .internalError, .layerDataTransferEnd .a 0#32 0 .internalError, .objects 0 (descWith 4),
    .objectsListReadDone .a 0 .internalError, .calUpload 0 (descWith 5), .calUploadValidated .internalError, .calMergeEnd,
    .lastWrite 0 (descWith 6) .internalError, .crcJob 0 (descWith 7), .crcJobEnd 0 .internalError,
    .laceFrame 0 (descWith 8), .netTx 0 (descWith 9), .netRxBuf 0 (descWith 10), .queryReadRegister 0 (descWith 11),
    .queryApproveProposal 0 (descWith 11), .queryDeclineProposal 0 (descWith 11), .fence 0 (descWith 12),
    .abort 0 (descWith 13), .ltrHoldoffExpiry, .irqCoalesceTimeout 0, .pcieAerUncorr, .budgetPeriodStart [] [],
    .eccWriteback, .budgetWrite .pcie 0 0#32, .regionWrite .pcie 0 0#32, .scrubEnable .pcie 0#32, .scrubDisable .pcie 0#32,
    .bankRetireStart, .bankCopyEnd, .headStart .pcie .a 0#32, .headStop .pcie .a 0#32, .tgCommit .pcie .a,
    .tgCommitCheckEnd .a, .sweepStart .a [], .tgTriggerArrive .a, .triggerWaitTimeout .a, .cut .a, .lateRow .a 0 0,
    .driveTotalSend .a, .stitch .a false, .stitchSlackEnd .a, .mapCheck .pcie .a, .shadowDisable .pcie 0#32,
    .toneSwap .pcie .a, .toneCheckEnd .a, .headroomWrite .pcie .a 7 0#32, .ageWrite .pcie 0 0#32, .healthClear .pcie .a 0#32] : List Instr).all Instr.wf = true := by
  decide

/-- With every operand in its range the check lets the command through. -/
theorem test_wf_lets_through_2 :
    ([.doseCheckpointTimer, .doseCkptNow .pcie 0#32, .slipStart .pcie 0 0#32, .cdrLock 0, .slipSearchEnd 0 [] [],
    .laneLost 0 [] 0 false, .eqUpdate 0 false, .eyeScanStart 0, .eyeScanEnd 0 0#64 [] 0, .trimStep 0,
    .lanePstate .pcie 0 0#32, .laneActive ⟨0, false⟩, .clearCounts .pcie 0 0#32, .ackReceived .a 0 goodRecord,
    .replayTimeout .a 0, .statusReceived .a 0 goodRecord, .configRepeat .a 0, .statusTimeout .a 0,
    .tempReceived .a 0 goodRecord, .tempTimeout .a 0, .healthReceived .a 0 goodRecord, .echoReceived .a 0 goodRecord,
    .echoDeadline .a 0, .commandRepeat .a, .requestStatus .pcie .a 0#32, .requestTest .pcie .a 0#32,
    .requestUnconfig .pcie .a 0#32, .forwardRequest .pcie .a 0#32, .forwardReturn .pcie .a 0#32,
    .netPortEnable .pcie 0 0#32, .netPortDisable .pcie 0 0#32, .netLinkChange 0 none false false false false,
    .netRxFrame 0 [0#8] 0, .netTxDone 0, .mdioWrite .pcie 0#32, .mdioRead .pcie 0#32, .mdioDone 0#16,
    .telegramWindowEnd 0 0, .keyMemoryExpiry 0 0, .telegramTimeout 0, .timeSet .pcie, .timeStep .pcie, .timeSlew .pcie,
    .timeCancel .pcie, .timeDiscipline .pcie, .slewComplete, .incrementApply .pcie 0#32, .holdWrite .pcie 0#32,
    .holdoverTimeout, .nowLatch .pcie, .triggerArm .pcie 0 0#32, .triggerDisable .pcie 0 0#32, .triggerFire 0, .ppsEnd,
    .capture 0 false, .capturePop .pcie 0, .loopSample 0, .loopComputeStart, .loopComputeEnd, .loopOutput 0] : List Instr).all Instr.wf = true := by
  decide

/-- With every operand in its range the check lets the command through. -/
theorem test_wf_lets_through_3 :
    ([.loopEnable .pcie 0 0#32, .loopDisable .pcie 0 0#32, .loopClear .pcie 0 0#32, .loopCommit .pcie 0#32,
    .driveTotalReceive .a, .adcConversionStart 0, .adcConversionEnd 0 0#16, .imuTransactionStart, .imuTransactionEnd [],
    .setpPeriodStart 0, .setpointWrite .pcie 0 0#32, .lenWrite .pcie 0#32, .laceFrameReady 0 .internalError, .laceTrigger 0,
    .laceFrameStart 0, .laceGapEnd 0, .laceCommit .pcie 0#32, .laceDisable .pcie 0 0#32, .presetLoad .pcie 0 0#32,
    .faultAssert 0 0 0 0 0, .faultConditionClear 0 0, .eventOutput, .stickyClear .pcie false 0#32,
    .counterClear .pcie false 0#32, .firstFaultClear .pcie 0#32, .severityWrite .pcie 0 0#32, .injectArm .pcie 0#32,
    .collectorSelfFail, .faultResetRequest, .clockMonitorGate 0 0, .safeNAssert, .safeNRelease, .autoClearExpiry 12,
    .heartbeatWrite .pcie 0#32, .heartbeatGraceEnd, .heartbeatTimeout, .watchdogExpiry 0, .unlockOpen .pcie,
    .unlockCommit .pcie, .safecfgCommitEnd false, .unlockAbandon .pcie, .sessionTimeout, .lockoutEnd, .safecfgCheck false,
    .hkRoundStart, .hkConversion 0, .hkEvaluation, .hkDisable .pcie 0#32, .idleEnter, .idleExit, .pwrDoze .pcie,
    .pwrSleep .pcie, .pwrOff .pcie, .pwrRun .pcie, .dozeTimerExpiry, .sleepTimerExpiry, .blockAnswer, .askTimeout,
    .saveDone, .entryComplete] : List Instr).all Instr.wf = true := by
  decide

/-- With every operand in its range the check lets the command through. -/
theorem test_wf_lets_through_4 :
    ([.wake 0, .wakeTimerExpiry, .powerGood 0, .powerGoodTimeout 0, .exitComplete false, .powerOnDetect, .resetNAssert,
    .resetNRelease, .aoBrownOut, .coreBrownOut, .softwareWarm .pcie 0#32, .softwareCold .pcie 0#32,
    .softwareHost .pcie 0#32, .softwareResetRelease, .perstN, .hotReset, .linkDown, .functionLevelReset, .resetRelease,
    .releaseStepComplete, .blockReset .pcie 0#32, .blockResetRelease 0, .bootWrite, .bootMaskWrite, .bootPoll,
    .bootSlipSearch, .bootLoadTiles, .bootWait, .bootWaitExpiry, .bootRecordTimeout, .bootEnd, .bootRun .pcie,
    .bootStop .pcie, .kpsOperationEnd false, .kpsScrubSector false none, .fuseProgram .pcie 0#32, .fuseProgramEnd false,
    .windowReadHi .pcie, .svcWrite (List.replicate 10 0#8), .svcRead (List.replicate 6 0#8) false, .svcBadCommand [0#8],
    .svcFrameDiscard, .parityBgCheck false, .perstNRelease, .pcieLinkUp 1 1, .regRead 0 15 false,
    .netTxReadDone 0 .internalError, .powerDomainRetry 0, .refLoss, .refReturn, .bootPollRead] : List Instr).all Instr.wf = true := by
  decide

theorem witness_StepRunsTheFrontCommand :
    ∃ (s : State), s.pending = [] :=
  ⟨live0, by decide +kernel⟩

theorem witness_IdleStepsCountTime :
    (∃ (s : State), s.pending = [] ∧ ctrlLive s = true ∧ s.tim.slew = 0) ∧
    (∃ (s : State), s.pending = [] ∧ ctrlLive s = true ∧ 0 < s.tim.slew) ∧
    (∃ (s : State), s.pending = [] ∧ ctrlLive s = false) :=
  ⟨⟨live0, by decide +kernel⟩,
   ⟨slewing, by decide +kernel⟩,
   ⟨State.reset, by decide +kernel⟩⟩

theorem witness_ResetMemoryIsCanonical :
    (∃ (a : Nat), 0x1200000 ≤ a ∧ a < 0x1300000) ∧
    (∃ (a : Nat), a < 0x1200000) :=
  ⟨⟨0x1200000, by decide +kernel⟩,
   ⟨0x11FFFFF, by decide +kernel⟩⟩

theorem witness_BadDoorbellsAreIgnored :
    ∃ (n : Nat) (s : State) (v : Word) (whole : Bool), n < 32 ∧ hostLive s = true ∧ scriptRuns s = false ∧
      ringsIdle s = true ∧ (ringSize s n ≤ fld v 11 0 ∨ fld v 31 12 ≠ 0 ∨ ringEnabled s n = false ∨ whole = false) :=
  ⟨31, live0, 0#32, false, by decide +kernel⟩

theorem witness_BlockResetsWaitForSequences :
    ∃ (s : State) (b : Bus), ringsIdle s = true ∧ (s.rst.reach ≠ 0 ∨ scriptRuns s = true) ∧ reaches s b 0x16008 = true :=
  ⟨releasing, Bus.pcie, by decide +kernel⟩

theorem witness_ServiceErrorsAreCounted :
    (∃ (s : State) (frame : List Byte), aoLive s = true ∧ ringsIdle s = true ∧ frame.length = 10 ∧ byteAt frame 0 = 2 ∧
      (svcCheck s frame).fst = false) ∧
    (∃ (s : State) (frame : List Byte), aoLive s = true ∧ frame.length = 6 ∧ byteAt frame 0 = 3 ∧
      (svcCheck s frame).fst = false) ∧
    (∃ (s : State) (frame : List Byte), aoLive s = true ∧ frame ≠ [] ∧ byteAt frame 0 ≠ 2 ∧ byteAt frame 0 ≠ 3) :=
  ⟨⟨live0, badWriteFrame, by decide +kernel⟩,
   ⟨live0, badReadFrame, by decide +kernel⟩,
   ⟨live0, [0#8], by decide +kernel⟩⟩

theorem witness_PresetsLoadParameters :
    ∃ (c : Nat) (s : State) (b : Bus) (v : Word) (p : CrcParams), crcPreset (fld v 18 16) = some p ∧ c < 4 ∧
      crcHeld s c = false ∧ reaches s b (crcBase c) = true :=
  ⟨3, live0, Bus.pcie, 0x12345678#32, _, rfl, by decide +kernel⟩

theorem witness_RegisterAccess :
    (∃ (s : State) (b : Bus), ringsIdle s = true ∧ reaches s b 12 = true) ∧
    (∃ (s : State) (addr : Nat) (enables : Nat), hostLive s = true ∧ ringsIdle s = true ∧ addr % 4 = 0 ∧ addr < 0x40000 ∧
      inDoorbells (addr / 4) = false ∧ enables % 16 ≠ 15) ∧
    (∃ (s : State), hostLive s = true ∧ injHits s 54 3 = false ∧ s.glb.badParity.contains 3 = false) ∧
    (∃ (s : State) (addr : Nat), hostLive s = true ∧ addr % 4 = 0 ∧ addr < 0x40000 ∧ windowServes s (addr / 4) = false) ∧
    (∃ (s : State) (addr : Nat), hostLive s = true ∧ ringsIdle s = true ∧ addr % 4 = 0 ∧ addr < 0x40000 ∧
      scriptKeeps s Bus.pcie (addr / 4) = true) :=
  ⟨⟨live0, Bus.pcie, by decide +kernel⟩,
   ⟨live0, 0, 0, by decide +kernel⟩,
   ⟨live0, by decide +kernel⟩,
   ⟨ctrlless, 0x12000, by decide +kernel⟩,
   ⟨scripted, 0x4000, by decide +kernel⟩⟩

theorem witness_RingRegisterCommands :
    (∃ (n : Nat) (s : State) (v : Word), n < 32 ∧ hostLive s = true ∧ scriptRuns s = false ∧ ringsIdle s = true ∧
      ringEnabled s n = true ∧ fld v 31 12 = 0 ∧ fld v 11 0 < ringSize s n ∧ ringKind s n = 0) ∧
    (∃ (n : Nat) (s : State) (v : Word), n < 32 ∧ hostLive s = true ∧ scriptRuns s = false ∧ ringsIdle s = true ∧
      ringEnabled s n = true ∧ fld v 31 12 = 0 ∧ fld v 11 0 < ringSize s n ∧ ringKind s n ≠ 0 ∧
      (ringOf s n).hostIdx < ringSize s n ∧ 0 < (fld v 11 0 + ringSize s n - (ringOf s n).hostIdx) % ringSize s n ∧
      (fld v 11 0 + ringSize s n - (ringOf s n).hostIdx) % ringSize s n ≤ (ringOf s n).unreleased) ∧
    (∃ (n : Nat) (s : State) (b : Bus) (v : Word), n < 32 ∧ ringsIdle s = true ∧ reaches s b (ringCfgAddr n) = true ∧
      ringEnabled s n = false ∧
      keepBad ringCfgLims (ringCfg s n) (withBit v 0 &&& 0x1F1FFF#32) = withBit v 0 &&& 0x1F1FFF#32 ∧
      mayEnable s n (withBit v 0 &&& 0x1F1FFF#32) = true) ∧
    (∃ (n : Nat) (s : State) (b : Bus), n < 32 ∧ ringsIdle s = true ∧ reaches s b (ringCfgAddr n) = true ∧
      ringEnabled s n = true ∧ (¬(ringKind s n = 1 ∧ namedByEnabled s n = true))) ∧
    (∃ (s : State) (b : Bus), ringsIdle s = true ∧ reaches s b 0x3000 = true) :=
  ⟨⟨0, (fetching 0 2), 15#32, by decide +kernel⟩,
   ⟨31, completing, 3#32, by decide +kernel⟩,
   ⟨31, live0, Bus.pcie, 325#32, by decide +kernel⟩,
   ⟨31, completing, Bus.pcie, by decide +kernel⟩,
   ⟨(fetching 0 2), Bus.pcie, by decide +kernel⟩⟩

theorem witness_JournalCommands :
    ∃ (s : State) (b : Bus), reaches s b 0x3008 = true :=
  ⟨live0, Bus.pcie, by decide +kernel⟩

theorem witness_ChangeSetDescriptors :
    (∃ (s : State) (n : Nat) (h : Head) (d : Desc), roleHead (ringRole s n) = some h ∧ (s.rng.heads.get h).abortCsn = none ∧
      (s.rng.heads.get h).opened.length < 255 ∧
      ((s.rng.heads.get h).opened = [] ∨ openCsn (s.rng.heads.get h).opened = some d.csn) ∧
      fetchable s n (descOf 1 d) = true) ∧
    (∃ (s : State) (n : Nat) (h : Head) (d : Desc), roleHead (ringRole s n) = some h ∧ (s.rng.heads.get h).abortCsn = none ∧
      (s.rng.heads.get h).opened.length < 255 ∧
      ((s.rng.heads.get h).opened = [] ∨ openCsn (s.rng.heads.get h).opened = some d.csn) ∧
      fetchable s n (descOf 2 d) = true) ∧
    (∃ (s : State) (n : Nat) (h : Head) (d : Desc), roleHead (ringRole s n) = some h ∧ (s.rng.heads.get h).abortCsn = none ∧
      (s.rng.heads.get h).opened.length < 255 ∧
      ((s.rng.heads.get h).opened = [] ∨ openCsn (s.rng.heads.get h).opened = some d.csn) ∧
      fetchable s n (descOf 3 d) = true ∧ d.csn = (s.rng.heads.get h).csn + 1#32) :=
  ⟨⟨(fetching 30 2), 30, _, (desc 0 0 []), rfl, by decide +kernel⟩,
   ⟨(fetching 30 2), 30, _, (desc 0 0 []), rfl, by decide +kernel⟩,
   ⟨(fetching 30 2), 30, _, (desc 0 0 []), rfl, by decide +kernel⟩⟩

theorem witness_ChangeSetReads :
    (∃ (s : State) (h : Head) (csn : Word) (c : ChangeSet) (i : Nat) (m : Member) (bs : List Byte) (j : Nat), setOf s h csn
      = some c ∧ nextBlock c.members = some i ∧ c.members[i]? = some m ∧
      nextBlock (mapMember c i fun y => { y with block := some (fit (dNat m.desc 40 4) bs) }).members = some j ∧
      hostLive s = true ∧ ringsIdle s = true ∧ c.stage = CsStage.checking ∧
      (∀ (x : ChangeSet), x ∈ (s.rng.heads.get h).sets → x.stage = CsStage.checking → x = c) ∧
      (descFlag m.desc 3 = true → crc32c (fit (dNat m.desc 40 4) bs) = dNat m.desc 44 4) ∧
      structureFail s h (mapMember c i fun y => { y with block := some (fit (dNat m.desc 40 4) bs) }).members = none) ∧
    (∃ (s : State) (h : Head) (csn : Word) (c : ChangeSet) (i : Nat) (m : Member), setOf s h csn = some c ∧
      nextBlock c.members = some i ∧ c.members[i]? = some m ∧ hostLive s = true ∧ ringsIdle s = true ∧
      c.stage = CsStage.checking) ∧
    (∃ (s : State) (h : Head) (csn : Word) (c : ChangeSet) (i : Nat) (m : Member) (bs : List Byte), setOf s h csn = some c ∧
      c.members[i]? = some m ∧ hostLive s = true ∧ ringsIdle s = true ∧ c.stage = CsStage.transferring ∧ m.desc.opcode = 2 ∧
      m.moved = false ∧ (descFlag m.desc 3 = true → crc32c (fit (dNat m.desc 12 4) bs) = dNat m.desc 28 4)) ∧
    (∃ (s : State) (h : Head) (csn : Word) (c : ChangeSet) (i : Nat) (m : Member), setOf s h csn = some c ∧
      c.members[i]? = some m ∧ hostLive s = true ∧ ringsIdle s = true ∧ c.stage = CsStage.transferring ∧ m.desc.opcode = 2 ∧
      m.moved = false) :=
  ⟨⟨(checkingSet .a), Head.a, 7#32, _, _, _, (List.replicate 16 9#8), _, rfl, rfl, rfl, rfl, by decide +kernel⟩,
   ⟨(checkingSet .a), Head.a, 7#32, _, _, _, rfl, rfl, rfl, by decide +kernel⟩,
   ⟨(movingSet .a), Head.a, 7#32, _, 0, _, (List.replicate 16 9#8), rfl, rfl, by decide +kernel⟩,
   ⟨(movingSet .a), Head.a, 7#32, _, 0, _, rfl, rfl, by decide +kernel⟩⟩

theorem witness_UnitDescriptors :
    (∃ (s : State) (n : Nat) (d : Desc) (h : Head), fetchable s n (descOf 4 d) = true ∧ dByte (descOf 4 d) 9 ≠ 0 ∧
      (ringRole s n = if h = Head.a then 4 else 5) ∧ objectsBad (descOf 4 d) h = none ∧ (joined s && h == Head.b) = false) ∧
    (∃ (s : State) (n : Nat) (d : Desc), ringRole s n = 6 ∧ fetchable s n (descOf 5 d) = true ∧
      calBad s (descOf 5 d) = none ∧ (dByte (descOf 5 d) 8 = 1 → gateSet s 2 = true → s.saf.unlocked = true)) ∧
    (∃ (s : State) (n : Nat) (d : Desc) (bs : List Byte), ringRole s n = 6 ∧ fetchable s n (descOf 6 d) = true ∧
      lastWriteBad (descOf 6 d) = none ∧ lastWriteLocked s (descOf 6 d) = false ∧
      (descFlag (descOf 6 d) 3 = true → crc32c (fit (dNat (descOf 6 d) 12 4) bs) = dNat (descOf 6 d) 28 4)) ∧
    (∃ (s : State) (n : Nat) (d : Desc), ringRole s n = 7 ∧ fetchable s n (descOf 7 d) = true ∧
      crcJobBad s (descOf 7 d) = none) ∧
    (∃ (s : State) (n : Nat) (d : Desc), ringRole s n = 8 ∧ fetchable s n (descOf 8 d) = true ∧
      laceBad s (descOf 8 d) = none) ∧
    (∃ (s : State) (n : Nat) (d : Desc) (p : Nat), fetchable s n (descOf 9 d) = true ∧ p < 2 ∧ ringRole s n = 9 + p ∧
      txBad s p (descOf 9 d) = none) ∧
    (∃ (s : State) (n : Nat) (d : Desc) (p : Nat), fetchable s n (descOf 10 d) = true ∧ p < 2 ∧ ringRole s n = 11 + p ∧
      rxBad p (descOf 10 d) = none) :=
  ⟨⟨(fetching 30 4), 30, (desc 0 0 ([0#8, 64#8] ++ List.replicate 22 0#8 ++ [0#8, 12#8])), Head.a, by decide +kernel⟩,
   ⟨(fetching 30 6), 30, (desc 0 0 [0#8, 0#8, 0#8, 0#8, 16#8]), by decide +kernel⟩,
   ⟨(inSession (fetching 30 6)), 30, (desc 0 0 [0#8, 0#8, 0#8, 0#8, 0#8, 0x10#8]), (List.replicate 0x1000 9#8), by
     decide +kernel⟩,
   ⟨(fetching 30 7), 30, (desc 0 0 [0#8, 0#8, 0#8, 0#8, 16#8]), by decide +kernel⟩,
   ⟨(fetching 30 8), 30, (desc 0 0 [1#8, 0#8, 1#8, 0#8, 4#8]), by decide +kernel⟩,
   ⟨(fetching 30 9), 30, (desc 0 0 [0#8, 0#8, 0#8, 0#8, 16#8]), 0, by decide +kernel⟩,
   ⟨(fetching 30 11), 30, (desc 0 0 [0#8, 0#8, 0#8, 0#8, 0#8, 0x10#8]), 0, by decide +kernel⟩⟩

theorem witness_CommonDescriptors :
    (∃ (s : State) (n : Nat) (d : Desc), d.opcode % 256 < 14 ∧ fetchable s n (descOf 0 d) = true ∧
      nopBad (descOf 0 d) = none) ∧
    (∃ (s : State) (n : Nat) (d : Desc), dByte (queryOf (queryReadCode d) d) 8 = 1 ∧
      fetchable s n (queryOf (queryReadCode d) d) = true ∧ queryBad (queryOf (queryReadCode d) d) = none ∧
      descFlag (queryOf (queryReadCode d) d) 1 = false) ∧
    (∃ (s : State) (n : Nat) (d : Desc) (k : Nat) (p : Proposal), proposalKind s (dNat (queryOf 2 d) 12 4) = some k ∧
      proposalOf s k = some p ∧ fetchable s n (queryOf 2 d) = true ∧ queryBad (queryOf 2 d) = none ∧
      descFlag (queryOf 2 d) 1 = false) ∧
    (∃ (s : State) (n : Nat) (d : Desc) (k : Nat) (p : Proposal), proposalKind s (dNat (queryOf 3 d) 12 4) = some k ∧
      proposalOf s k = some p ∧ fetchable s n (queryOf 3 d) = true ∧ queryBad (queryOf 3 d) = none ∧
      descFlag (queryOf 3 d) 1 = false) ∧
    (∃ (s : State) (n : Nat) (d : Desc), fetchable s n (descOf 12 d) = true ∧ fenceBad (descOf 12 d) = none ∧
      (outstandingOn s (if dByte (descOf 12 d) 8 = 255 then n else dByte (descOf 12 d) 8) = [])) ∧
    (∃ (s : State) (n : Nat) (d : Desc), fetchable s n (descOf 13 d) = true ∧ abortBad (descOf 13 d) = none ∧
      roleHead (ringRole s (dByte (descOf 13 d) 8)) = none) ∧
    (∃ (s : State) (n : Nat) (d : Desc) (h : Head), roleHead (ringRole s (dByte (descOf 13 d) 8)) = some h ∧
      fetchable s n (descOf 13 d) = true ∧ abortBad (descOf 13 d) = none ∧ (s.rng.heads.get h).replays = [] ∧
      tagIn (dByte (descOf 13 d) 8) (BitVec.ofNat 16 (dNat (descOf 13 d) 10 2)) (s.rng.heads.get h).opened = true) :=
  ⟨⟨(fetching 30 2), 30, (desc 0 0 []), by decide +kernel⟩,
   ⟨(fetching 30 2), 30, (desc 0 0 [1#8, 0#8, 0#8, 0#8, 0#8]), by decide +kernel⟩,
   ⟨(proposing (fetching 30 2) 0), 30, (desc 0 0 [2#8, 0#8, 0#8, 0#8, 5#8]), _, _, rfl, rfl, by decide +kernel⟩,
   ⟨(proposing (fetching 30 2) 0), 30, (desc 0 0 [2#8, 0#8, 0#8, 0#8, 5#8]), _, _, rfl, rfl, by decide +kernel⟩,
   ⟨(fetching 30 2), 30, (desc 0 0 []), by decide +kernel⟩,
   ⟨(fetching 30 2), 30, (desc 0 0 []), by decide +kernel⟩,
   ⟨(opened (fetching 2 2) .a), 2, (desc 0 0 [2#8, 0#8, 0x34#8, 0x12#8]), _, rfl, by decide +kernel⟩⟩

theorem witness_FetchEndings :
    (∃ (s : State) (h : Head) (slot : Nat) (l : ObjList) (w : Work), List.find? (fun l => l.slot == slot && l.stage == 0)
      (s.shd.get h).lists = some l ∧ workAt s l.ring l.slot = some w ∧ hostLive s = true ∧ pixLive s = true ∧
      ringsQuiet s = true) ∧
    (∃ (s : State) (h : Head) (slot : Nat) (l : ObjList) (w : Work) (bs : List Byte), List.find? (fun l => l.slot == slot &&
      l.stage == 0) (s.shd.get h).lists = some l ∧ workAt s l.ring l.slot = some w ∧ hostLive s = true ∧ pixLive s = true ∧
      ringsQuiet s = true ∧ (s.shd.get h).inForce = none ∧ noCut s h = false ∧
      extendSeconds (nowSec s) (dNat w.desc 16 4) * 10 ^ 9 + dNat w.desc 20 4 ≤ nowSec s * 10 ^ 9 + nowSubNs s + 10 ^ 6 ∧
      (descFlag w.desc 3 = true → crc32c (fit (48 * l.count) bs) = dNat w.desc 36 4) ∧
      firstBadRecord (fit (48 * l.count) bs) l.count = none) ∧
    (∃ (s : State) (c : Cal), s.pxc.cal = some c ∧ hostLive s = true ∧ ringsQuiet s = true ∧ c.stage = 0) ∧
    (∃ (s : State) (c : Cal) (bs : List Byte), s.pxc.cal = some c ∧ hostLive s = true ∧ ringsQuiet s = true ∧ c.stage = 0 ∧
      (descFlag c.desc 3 = true → crc32c (fit (dNat c.desc 12 4) bs) = dNat c.desc 28 4)) ∧
    (∃ (s : State) (c : Cal), s.pxc.cal = some c ∧ memLive s = true ∧ ringsQuiet s = true ∧ c.stage = 2) ∧
    (∃ (s : State) (c : Nat) (w : Work), crcHolder s c = some w ∧ crcRuns s = true ∧ hostLive s = true ∧
      ringsQuiet s = true) :=
  ⟨⟨(listing .a), Head.a, 1, _, _, rfl, rfl, by decide +kernel⟩,
   ⟨(running (listing .b) .b), Head.b, 1, _, _, (List.replicate 48 0#8), rfl, rfl, by decide +kernel⟩,
   ⟨(running (uploading .a 0) .a), _, rfl, by decide +kernel⟩,
   ⟨(running (uploading .a 0) .a), _, digits, rfl, by decide +kernel⟩,
   ⟨(uploading .b 2), _, rfl, by decide +kernel⟩,
   ⟨summing, 0, _, rfl, by decide +kernel⟩⟩

theorem witness_HostTimers :
    (∃ (s : State), hostLive s = true ∧ ringsQuiet s = true ∧ s.hif.ltrHoldoff = true ∧ s.hif.ltrHeld = none) ∧
    (∃ (s : State), hostLive s = true ∧ ringsQuiet s = true ∧ s.hif.ltrHoldoff = true ∧ s.hif.ltrHeld.isSome = true) ∧
    (∃ (n : Nat) (s : State), n < 32 ∧ hostLive s = true ∧ regBit s (0x310C + 32 * n) 7 = true ∧
      regFld s (0x310C + 32 * n) 31 16 ≠ 0 ∧ (ringOf s n).unsignalled ≠ 0) ∧
    (∃ (s : State), hostLive s = true ∧ fltJudges s = true) :=
  ⟨⟨(holdingOff none), by decide +kernel⟩,
   ⟨(holdingOff (some (some 3))), by decide +kernel⟩,
   ⟨31, (coalescing 31 false), by decide +kernel⟩,
   ⟨(holdingOff none), by decide +kernel⟩⟩

theorem witness_LightMemoryRegisters :
    (∃ (c : Nat) (s : State) (b : Bus) (v : Word), c < 12 ∧ reaches s b (0x4040 + 4 * c) = true ∧ (decide (0x6000 <
      budgetSum s - budgetReg s c + fld v 15 0) || decide (fld v 15 0 < clientNeed s (appliedPlan s) c) || (slotStates
      s).any fun x => decide (fld v 15 0 < clientNeed s (planWith s x) c)) = false) ∧
    (∃ (c : Nat) (s : State) (b : Bus) (v : Word), c < 12 ∧ reaches s b (0x4040 + 4 * c) = true ∧ (decide (0x6000 <
      budgetSum s - budgetReg s c + fld v 15 0) || decide (fld v 15 0 < clientNeed s (appliedPlan s) c) || (slotStates
      s).any fun x => decide (fld v 15 0 < clientNeed s (planWith s x) c)) = true) ∧
    (∃ (k : Nat) (s : State) (b : Bus) (v : Word), k < 11 ∧ reaches s b (0x4100 + 4 * k) = true ∧ fld v 9 0 ≤ 479 ∧
      (bit v 31 = true → fld v 25 16 ≠ 0) ∧ ((stopped s Head.a && stopped s Head.b && !engineOn s && regionMinOk k (v &&&
      0x83FF03FF#32) && regionsOk fun j => if j = k then v &&& 0x83FF03FF#32 else regAt s (0x4100 + 4 * j)) = true)) ∧
    (∃ (k : Nat) (s : State) (b : Bus) (v : Word), k < 11 ∧ reaches s b (0x4100 + 4 * k) = true ∧ fld v 9 0 ≤ 479 ∧
      (bit v 31 = true → fld v 25 16 ≠ 0) ∧ ((stopped s Head.a && stopped s Head.b && !engineOn s && regionMinOk k (v &&&
      0x83FF03FF#32) && regionsOk fun j => if j = k then v &&& 0x83FF03FF#32 else regAt s (0x4100 + 4 * j)) = false)) ∧
    (∃ (s : State) (b : Bus), reaches s b 0x4000 = true) :=
  ⟨⟨11, live0, Bus.pcie, 0x100FF#32, by decide +kernel⟩,
   ⟨11, live0, Bus.pcie, 0#32, by decide +kernel⟩,
   ⟨10, live0, Bus.pcie, 0x100FF#32, by decide +kernel⟩,
   ⟨10, live0, Bus.pcie, 0x80010000#32, by decide +kernel⟩,
   ⟨live0, Bus.pcie, by decide +kernel⟩⟩

theorem witness_LightMemoryEvents :
    (∃ (s : State), memLive s = true) ∧
    (∃ (s : State) (rest : List Nat) (c : Nat) (sp : Nat), s.lmm.queue = c :: rest ∧
      (firstIdx 64 fun b => (bankOf s b).state == 0 && bankClean s b) = some sp ∧ memLive s = true ∧ s.lmm.retire = none) ∧
    (∃ (s : State) (r : Retire), s.lmm.retire = some r ∧ memLive s = true ∧ r.ended = false ∧ r.spare ≠ r.candidate ∧
      (headRuns s Head.a || headRuns s Head.b) = true) ∧
    (∃ (s : State) (r : Retire), s.lmm.retire = some r ∧ memLive s = true ∧ r.ended = false ∧ r.spare ≠ r.candidate ∧
      (headRuns s Head.a || headRuns s Head.b) = false) :=
  ⟨⟨live0, by decide +kernel⟩,
   ⟨queued, _, _, _, rfl, rfl, by decide +kernel⟩,
   ⟨(copying (running live0 .a)), _, rfl, by decide +kernel⟩,
   ⟨(copying live0), _, rfl, by decide +kernel⟩⟩

set_option maxRecDepth 100000 in
theorem witness_HeadStartStop :
    (∃ (s : State) (b : Bus) (h : Head) (v : Word) (r : Nat), startFail (setTgState (setRegAt s (tgBase h) (merge (regAt s
      (tgBase h)) (withBit v 0) 117#32)) h 1) h = some r ∧ ringsQuiet s = true ∧ reaches s b (tgBase h) = true ∧
      (h = Head.a → bit v 1 = joined s) ∧ (joined s && h == Head.b) = false ∧ stopped s h = true ∧ blockStopped s 1 = false) ∧
    (∃ (s : State) (b : Bus) (h : Head) (v : Word), ringsQuiet s = true ∧ reaches s b (tgBase h) = true ∧
      (h = Head.a → bit v 1 = joined s) ∧ (joined s && h == Head.b) = false ∧
      ((s.tg.get h).state = 1 ∨ (s.tg.get h).state = 2)) ∧
    (∃ (s : State) (b : Bus) (h : Head) (v : Word), ringsQuiet s = true ∧ reaches s b (tgBase h) = true ∧
      (h = Head.a → bit v 1 = joined s) ∧ (joined s && h == Head.b) = false ∧ (s.tg.get h).state ≠ 1 ∧
      (s.tg.get h).state ≠ 2) ∧
    (∃ (s : State) (b : Bus) (h : Head) (v : Word), ringsQuiet s = true ∧ reaches s b (tgBase h) = true ∧
      (h = Head.a → bit v 1 = joined s) ∧ (joined s && h == Head.b) = true) :=
  ⟨⟨(withWord live0 0x04104 0#32), Bus.pcie, Head.b, 0#32, 1, by decide +kernel⟩,
   ⟨(running (small live0 .b) .b), Bus.pcie, Head.b, 0#32, by decide +kernel⟩,
   ⟨(linked live0 .a), Bus.pcie, Head.a, 0#32, by decide +kernel⟩,
   ⟨joinedHeads, Bus.pcie, Head.b, 0#32, by decide +kernel⟩⟩

set_option maxRecDepth 100000 in
theorem witness_CommitOfTiming :
    (∃ (s : State) (b : Bus) (h : Head), reaches s b (tgBase h + 8) = true ∧ (joined s && h == Head.b) = false) ∧
    (∃ (s : State) (b : Bus) (h : Head), reaches s b (tgBase h + 8) = true ∧ (joined s && h == Head.b) = true) ∧
    (∃ (s : State) (h : Head) (m : Store Word) (r : Nat), (s.tg.get h).checking = some m ∧ commitFail s h m = some r ∧
      pixLive s = true ∧ ringsQuiet s = true ∧ timer s h = h ∧ (s.tg.get h).commitWait = false) :=
  ⟨⟨live0, Bus.pcie, Head.a, by decide +kernel⟩,
   ⟨joinedHeads, Bus.pcie, Head.b, by decide +kernel⟩,
   ⟨(checkingBad .a), Head.a, _, _, rfl, rfl, by decide +kernel⟩⟩

/-- Comparator 0 is enabled for the sweep. -/
def withTrigger (s : State) : State := withWord s 0x0E100 1#32

theorem witness_SweepEvents :
    (∃ (s : State) (h : Head), pixLive s = true ∧ ringsQuiet s = true ∧ timer s h = h ∧ (s.tg.get h).state ≠ 0 ∧
      (s.tg.get h).due = true ∧ (s.tg.get h).active = false ∧ (triggered s h && !(s.tg.get h).trigSeen) = true) ∧
    (∃ (s : State) (h : Head), pixLive s = true ∧ ringsQuiet s = true ∧ timer s h = h ∧ (s.tg.get h).state ≠ 0 ∧
      (s.tg.get h).due = true ∧ (s.tg.get h).active = false ∧ (triggered s h && !(s.tg.get h).trigSeen) = false ∧
      (s.tg.get h).state = 3) ∧
    (∃ (s : State) (h : Head), pixLive s = true ∧ ringsQuiet s = true ∧ timer s h = h ∧ (s.tg.get h).state ≠ 0 ∧
      (s.tg.get h).due = true ∧ (s.tg.get h).active = false ∧ (triggered s h && !(s.tg.get h).trigSeen) = false ∧
      (s.tg.get h).state ≠ 3) ∧
    (∃ (s : State) (h : Head), pixLive s = true ∧ timer s h = h ∧ (s.tg.get h).state ≠ 0 ∧ triggered s h = true ∧
      ((s.tg.get h).state = 1 → (s.tg.get h).waiting = true)) ∧
    (∃ (s : State) (h : Head), pixLive s = true ∧ (s.tg.get h).waiting = true ∧ (s.tg.get h).state ≠ 1 ∧
      (s.tg.get h).trigSeen = false) ∧
    (∃ (slot : Nat) (s : State) (h : Head), slot < 8 ∧ timer s h = h ∧ (s.tg.get h).active = true ∧
      (s.tg.get h).full = true ∧ (slotOf s h slot).enabled = true ∧
      ((s.bld.get h).flatValid && (flatRun s h (s.ly.get h).slots).contains slot) = false ∧
      nbit (s.ly.get h).dropped slot = false) ∧
    (∃ (s : State) (h : Head), pixLive s = true ∧ ringsQuiet s = true ∧ timer s h = h ∧ (s.tg.get h).active = true) ∧
    (∃ (s : State) (h : Head), pixLive s = true ∧ ctrlLive s = true ∧
      ((s.tg.get (timer s h)).active = true ∨ (s.tg.get (timer s h)).stitchOpen = true) ∧
      (s.tg.get (timer s h)).full = true ∧ (s.tg.get h).driveAccepted = false) :=
  ⟨⟨(withTrigger (sweepDue .b 2 true)), Head.b, by decide +kernel⟩,
   ⟨(sweepDue .a 3 false), Head.a, by decide +kernel⟩,
   ⟨(sweepDue .a 1 false), Head.a, by decide +kernel⟩,
   ⟨(withTrigger (sweepDue .b 2 true)), Head.b, by decide +kernel⟩,
   ⟨(withTrigger (sweepDue .b 2 true)), Head.b, by decide +kernel⟩,
   ⟨7, (hostSlot (sweeping .a) .a), Head.a, by decide +kernel⟩,
   ⟨(hostSlot (sweeping .a) .a), Head.a, by decide +kernel⟩,
   ⟨(hostSlot (sweeping .a) .a), Head.a, by decide +kernel⟩⟩

theorem witness_StitchEvents :
    (∃ (s : State) (h : Head), ringsQuiet s = true ∧ stitchMay s h = true) ∧
    (∃ (s : State) (h : Head), pixLive s = true ∧ ringsQuiet s = true ∧ timer s h = h ∧ (s.tg.get h).stitchOpen = true) :=
  ⟨⟨(laneUp (stitching .a 3) 0), Head.a, by decide +kernel⟩,
   ⟨(laneUp (stitching .a 3) 0), Head.a, by decide +kernel⟩⟩

set_option maxRecDepth 100000 in
theorem witness_MapToneHeadroom :
    (∃ (s : State) (b : Bus) (h : Head) (n : Nat), mapFail s h = some n ∧ reaches s b (shdBase h) = true) ∧
    (∃ (s : State) (b : Bus), reaches s b 0x20000 = true) ∧
    (∃ (s : State) (b : Bus) (h : Head), reaches s b (bldBase h + 4) = true ∧ (s.bld.get h).swap = 0) ∧
    (∃ (s : State) (h : Head) (k : Nat), toneFail s h (1 - (s.bld.get h).bank) = some k ∧ pixLive s = true ∧
      (s.bld.get h).swap = 1) ∧
    (∃ (s : State) (h : Head), pixLive s = true ∧ (s.bld.get h).swap = 1 ∧ toneFail s h (1 - (s.bld.get h).bank) = none) ∧
    (∃ (n : Nat) (s : State) (b : Bus) (h : Head) (v : Word), 1 ≤ n ∧ n < 8 ∧ reaches s b (headroomAddr h n) = true ∧
      ((decide (fld v 15 0 ≤ regFld s (headroomAddr h (n - 1)) 15 0) && decide ((if n = 7 then 0 else regFld s (headroomAddr
      h (n + 1)) 15 0) ≤ fld v 15 0)) = true)) ∧
    (∃ (n : Nat) (s : State) (b : Bus) (h : Head) (v : Word), 1 ≤ n ∧ n < 8 ∧ reaches s b (headroomAddr h n) = true ∧
      ((decide (fld v 15 0 ≤ regFld s (headroomAddr h (n - 1)) 15 0) && decide ((if n = 7 then 0 else regFld s (headroomAddr
      h (n + 1)) 15 0) ≤ fld v 15 0)) = false)) :=
  ⟨⟨live0, Bus.pcie, Head.a, _, rfl, by decide +kernel⟩,
   ⟨live0, Bus.pcie, by decide +kernel⟩,
   ⟨live0, Bus.pcie, Head.a, by decide +kernel⟩,
   ⟨(withWord (checkingTone live0 .a) 0x2A400 5#32), Head.a, _, rfl, by decide +kernel⟩,
   ⟨(checkingTone live0 .a), Head.a, by decide +kernel⟩,
   ⟨7, live0, Bus.pcie, Head.a, 0#32, by decide +kernel⟩,
   ⟨7, live0, Bus.pcie, Head.a, 0xFFFF#32, by decide +kernel⟩⟩

/-- Both rasters are small. -/
def smallBoth (s : State) : State := small (small s .a) .b

theorem witness_PixelConditioning :
    (∃ (k : Nat) (s : State) (b : Bus) (v : Word), 1 ≤ k ∧ k < 65 ∧ stopped s Head.a = true ∧ stopped s Head.b = true ∧
      reaches s b (ageAddr k) = true ∧ regFld s (ageAddr (k - 1)) 15 0 ≤ fld v 15 0 ∧ fld v 15 0 ≤ 0xA000) ∧
    (∃ (k : Nat) (s : State) (b : Bus) (v : Word), 1 ≤ k ∧ k < 65 ∧ stopped s Head.a = true ∧ stopped s Head.b = true ∧
      reaches s b (ageAddr k) = true ∧ (fld v 15 0 < regFld s (ageAddr (k - 1)) 15 0 ∨ 0xA000 < fld v 15 0)) ∧
    (∃ (k : Nat) (s : State) (b : Bus), k < 65 ∧ (k = 0 ∨ stopped s Head.a = false ∨ stopped s Head.b = false) ∧
      reaches s b (ageAddr k) = true) ∧
    (∃ (s : State) (b : Bus) (h : Head) (v : Word), memLive s = true ∧ pixLive s = true ∧
      reaches s b (pxcBase h + 56) = true ∧ bit v 31 = false ∧ fld v 20 0 < activeN s h) ∧
    (∃ (s : State) (b : Bus) (h : Head) (v : Word), memLive s = true ∧ pixLive s = true ∧
      reaches s b (pxcBase h + 56) = true ∧ bit v 31 = true) ∧
    (∃ (s : State) (b : Bus), pixLive s = true ∧ memLive s = true ∧ reaches s b 0x18008 = true) :=
  ⟨⟨64, (smallBoth live0), Bus.pcie, 0xA000#32, by decide +kernel⟩,
   ⟨64, (smallBoth live0), Bus.pcie, 2#32, by decide +kernel⟩,
   ⟨64, (smallBoth (running live0 .a)), Bus.pcie, by decide +kernel⟩,
   ⟨(smallBoth live0), Bus.pcie, Head.a, 2#32, by decide +kernel⟩,
   ⟨(smallBoth live0), Bus.pcie, Head.a, 0x80000000#32, by decide +kernel⟩,
   ⟨(smallBoth live0), Bus.pcie, by decide +kernel⟩⟩

/-- 104 groups of the idle stream. -/
def idleBits : List Bool := (List.range 104).flatMap (fun k => (List.range 10).map (fun i => Nat.testBit (if k % 2 = 0 then
  0x17C else 0x283) i))

/-- A lane is asked for ACTIVE. -/
def asksActive (s : State) (l : Nat) : State := withWord s (laneBase l) 0x3#32

/-- A lane searches from slip 9. -/
def searchingLane (l : Nat) : State := modLane live0 l (fun e =>
  { e with pstate := 3, cdrLock := true, searching := true, slip := 9 })

/-- A lane in a power state, locked or not and aligned or not. -/
def laneAt (l p : Nat) (cdr al : Bool) : State := modLane live0 l (fun e =>
  { e with pstate := p, cdrLock := cdr, aligned := al, elastic := 4 })

theorem witness_LaneAlignment :
    (∃ (l : Nat) (s : State) (b : Bus) (v : Word), l < 18 ∧ reaches s b (laneBase l) = true ∧ tileLane l = true ∧
      (laneOf s l).pstate = 3 ∧ fld v 1 0 = 3 ∧ ((laneOf s l).aligned && !laneHeadStopped s l) = false) ∧
    (∃ (l : Nat) (s : State) (b : Bus) (v : Word), l < 18 ∧ reaches s b (laneBase l) = true ∧ tileLane l = true ∧
      (laneOf s l).pstate = 3 ∧ fld v 1 0 = 3 ∧ ((laneOf s l).aligned && !laneHeadStopped s l) = true) ∧
    (∃ (l : Nat) (s : State) (b : Bus) (v : Word), l < 18 ∧ reaches s b (laneBase l) = true ∧ bit v 12 = false ∧
      fld v 1 0 < 3 ∧ (inService s l && !laneHeadStopped s l) = false) ∧
    (∃ (l : Nat) (s : State) (b : Bus) (v : Word), l < 18 ∧ reaches s b (laneBase l) = true ∧ bit v 12 = false ∧
      fld v 1 0 < 3 ∧ (inService s l && !laneHeadStopped s l) = true) ∧
    (∃ (s : State) (l : Nat), scriptRuns s = false ∧ laneLives s l = true ∧ 2 ≤ (laneOf s l).pstate ∧
      (laneOf s l).cdrLock = false) ∧
    (∃ (s : State) (l : Nat) (bits : List Bool), scriptRuns s = false ∧ laneLives s l = true ∧
      (laneOf s l).searching = true ∧ (laneOf s l).cdrLock = true ∧ laneLoop s l ≠ 1 ∧ laneLoop s l ≠ 2 ∧
      (1040 ≤ (if regBit s (laneBase l) 3 = true then List.map (fun x => !x) bits else bits).length) ∧ (offsetPasses
      (deserialise 32 (List.drop 80 (if regBit s (laneBase l) 3 = true then List.map (fun x => !x) bits else bits))) = true)
      ∧ (((deserialise 64 (List.drop 400 (if regBit s (laneBase l) 3 = true then List.map (fun x => !x) bits else
      bits))).all fun g => inTable (BitVec.toNat g)) = true)) ∧
    (∃ (s : State) (l : Nat) (bits : List Bool) (o : Nat), scriptRuns s = false ∧ laneLives s l = true ∧
      (laneOf s l).searching = true ∧ (laneOf s l).cdrLock = true ∧ laneLoop s l ≠ 1 ∧ laneLoop s l ≠ 2 ∧ (searchBits 40
      (laneOf s l).slip (if regBit s (laneBase l) 3 = true then List.map (fun x => !x) bits else bits) = SearchEnd.failed
      o)) ∧
    (∃ (s : State) (l : Nat) (bits : List Bool), scriptRuns s = false ∧ laneLives s l = true ∧
      (laneOf s l).searching = true ∧ (laneOf s l).cdrLock = true ∧ laneLoop s l ≠ 1 ∧ laneLoop s l ≠ 2 ∧
      ((if regBit s (laneBase l) 3 = true then List.map (fun x => !x) bits else bits).length < 400)) ∧
    (∃ (s : State) (l : Nat), scriptRuns s = false ∧ laneLives s l = true ∧ regFld s (laneBase l) 1 0 = 3 ∧
      (laneOf s l).pstate ≠ 3) ∧
    (∃ (s : State) (l : Nat) (drift : Int) (cdr : Bool), laneLives s l = true ∧ (laneOf s l).pstate = 3 ∧
      (laneOf s l).aligned = true ∧ tileLane l = true ∧
      (cdr = true ∨ ↑(laneOf s l).elastic + drift < 0 ∨ 8 < ↑(laneOf s l).elastic + drift)) ∧
    (∃ (s : State) (l : Nat), laneLives s l = true ∧ (laneOf s l).pstate = 3 ∧ (laneOf s l).aligned = true ∧
      laneChk s l = 0 ∧ laneLoop s l = 0 ∧ (laneOf s l).winErrors < 15 ∧ (laneOf s l).elastic ≤ 8) ∧
    (∃ (k : Nat) (s : State) (b : Bus), k < 3 ∧ reaches s b (laneBlockBase k) = true) :=
  ⟨⟨15, (searchingLane 15), Bus.pcie, 3#32, by decide +kernel⟩,
   ⟨12, (running (laneAt 12 3 true true) .b), Bus.pcie, 3#32, by decide +kernel⟩,
   ⟨17, (laneAt 3 3 true false), Bus.pcie, 0#32, by decide +kernel⟩,
   ⟨15, (running (laneAt 12 3 true true) .b), Bus.pcie, 0#32, by decide +kernel⟩,
   ⟨(laneAt 3 2 false false), 3, by decide +kernel⟩,
   ⟨(searchingLane 3), 3, idleBits, by decide +kernel⟩,
   ⟨(searchingLane 3), 3, (List.replicate 0x3EE4 true), 9, by decide +kernel⟩,
   ⟨(searchingLane 3), 3, (List.replicate 300 true), by decide +kernel⟩,
   ⟨(asksActive (laneAt 17 2 true false) 17), 17, by decide +kernel⟩,
   ⟨(laneAt 3 3 true true), 3, 0, true, by decide +kernel⟩,
   ⟨(laneAt 3 3 true true), 3, by decide +kernel⟩,
   ⟨2, (laneAt 3 3 true false), Bus.pcie, by decide +kernel⟩⟩

/-- An aligned lane with its eye figures. -/
def tunedLane (s : State) (l : Nat) (deg scn err : Bool) (low bad : Nat) : State := modLane s l (fun e =>
  { e with pstate := 3, cdrLock := true, aligned := true, elastic := 4, degraded := deg, scanning := scn,
           intervalErrors := err, lowScans := low, badIntervals := bad, eqPending := scn, trim := 3,
           target := if deg then 4 else 1 })

theorem witness_LaneTuning :
    (∃ (s : State) (l : Nat), laneLives s l = true ∧ 2 ≤ (laneOf s l).pstate ∧ (laneOf s l).eqPending = true ∧
      injHits s 60 (eqIndex l (bandInForce s)) = false) ∧
    (∃ (s : State) (l : Nat), laneLives s l = true ∧ (laneOf s l).pstate = 3 ∧ (laneOf s l).aligned = true ∧
      (laneOf s l).scanning = false) ∧
    (∃ (s : State) (l : Nat), laneLives s l = true ∧ (laneOf s l).pstate = 3 ∧ (laneOf s l).aligned = true ∧
      (laneOf s l).scanning = true ∧ (laneOf s l).elastic ≤ 8) ∧
    (∃ (s : State) (l : Nat), laneLives s l = true ∧ (laneOf s l).trim ≠ (laneOf s l).target ∧
      regBit s (laneBlockBase (laneBlockOf l)) 8 = false) ∧
    (∃ (s : State) (l : Nat), laneLives s l = true ∧ (laneOf s l).trim ≠ (laneOf s l).target ∧
      regBit s (laneBlockBase (laneBlockOf l)) 8 = true) :=
  ⟨⟨(tunedLane live0 3 false true false 2 0), 3, by decide +kernel⟩,
   ⟨(tunedLane live0 3 true false false 0 0), 3, by decide +kernel⟩,
   ⟨(tunedLane live0 3 false true false 2 0), 3, by decide +kernel⟩,
   ⟨(withWord (tunedLane live0 0 false true false 0 0) 0x9000 0#32), 0, by decide +kernel⟩,
   ⟨(tunedLane live0 3 false true false 2 0), 3, by decide +kernel⟩⟩

theorem witness_TileRecords :
    (∃ (i : Nat) (s : State) (h : Head) (r : TileRecord), i < 8 ∧ linkLive s h = true ∧ pathHears s h i = true ∧
      recordGood s h i 129 r = false) ∧
    (∃ (i : Nat) (s : State) (h : Head) (r : TileRecord), i < 8 ∧ linkLive s h = true ∧ pathHears s h i = true ∧
      recordGood s h i 129 r = true ∧ (tileOf s h i).queue = [] ∧ (tileOf s h i).unacked ≠ [] ∧
      (byteAt r.body 0 + 256 - (List.map Prod.fst (tileOf s h i).unacked).headD 0) % 256 ≤ (tileOf s h i).unacked.length) ∧
    (∃ (i : Nat) (s : State) (h : Head) (r : TileRecord), i < 8 ∧ linkLive s h = true ∧ pathHears s h i = true ∧
      recordGood s h i 130 r = true ∧ scriptRuns s = false) ∧
    (∃ (i : Nat) (s : State) (h : Head) (r : TileRecord), i < 8 ∧ linkLive s h = true ∧ pathHears s h i = true ∧
      recordGood s h i 132 r = true) ∧
    (∃ (i : Nat) (s : State) (h : Head) (r : TileRecord), i < 8 ∧ linkLive s h = true ∧ pathHears s h i = true ∧
      recordGood s h i 131 r = true ∧ leAt r.body 4 2 = 1 ∧ s.lmm.bad = [] ∧ s.lmm.latent = [] ∧
      nbit (byteAt r.body 8 % 16) 2 = true ∧
      tileHolds s h i (tileX s h i + leAt r.body 2 2) (tileY s h i + leAt r.body 0 2) = true) ∧
    (∃ (i : Nat) (s : State) (h : Head) (r : TileRecord) (f : Word) (crc : Word), (tileOf s h i).echoWait = some (f, crc) ∧
      i < 8 ∧ linkLive s h = true ∧ pathHears s h i = true ∧ recordGood s h i 133 r = true ∧
      BitVec.ofNat 32 (leAt r.body 0 4) = f ∧ BitVec.ofNat 32 (leAt r.body 4 4) = crc) ∧
    (∃ (i : Nat) (s : State) (h : Head) (r : TileRecord) (f : Word) (crc : Word), (tileOf s h i).echoWait = some (f, crc) ∧
      i < 8 ∧ linkLive s h = true ∧ pathHears s h i = true ∧ recordGood s h i 133 r = true ∧
      (BitVec.ofNat 32 (leAt r.body 0 4) ≠ f ∨ BitVec.ofNat 32 (leAt r.body 4 4) ≠ crc)) :=
  ⟨⟨2, unacked, Head.a, goodRecord, by decide +kernel⟩,
   ⟨2, unacked, Head.a, (record 2 0x81 7 0 [0#8, 0#8, 0#8, 0#8]), by decide +kernel⟩,
   ⟨2, unacked, Head.a, (record 2 0x82 7 0 (leBytes 4 0x12345678 ++ [0#8,0#8,2#8,5#8] ++
     [1#8,2#8,3#8,4#8,0xFF#8,3#8,7#8,0#8])), by decide +kernel⟩,
   ⟨2, unacked, Head.a, (record 2 0x84 7 0 [0#8, 1#8, 0#8,0#8]), by decide +kernel⟩,
   ⟨2, unacked, Head.a, (record 2 0x83 7 0 [0#8,0#8,1#8,0#8,1#8,0#8,0#8,0#8,7#8]), by decide +kernel⟩,
   ⟨2, echoing, Head.a, (record 2 0x85 7 0 [5#8,0#8,0#8,0#8,6#8,0#8,0#8,0#8]), _, _, rfl, by decide +kernel⟩,
   ⟨2, echoing, Head.a, (record 2 0x85 7 0 [5#8,0#8,0#8,0#8,7#8,0#8,0#8,0#8]), _, _, rfl, by decide +kernel⟩⟩

theorem witness_TileTimers :
    (∃ (i : Nat) (s : State) (h : Head), i < 8 ∧ linkLive s h = true ∧ (tileOf s h i).unacked ≠ [] ∧
      pathActive s h i = true ∧ laneCarries s (laneIndex h (carrierOf s h i)) = true) ∧
    (∃ (i : Nat) (s : State) (h : Head), i < 8 ∧ linkLive s h = true ∧ pathActive s h i = false) ∧
    (∃ (i : Nat) (s : State) (h : Head), i < 8 ∧ linkLive s h = true ∧ (tileOf s h i).configWait = true ∧
      pathActive s h i = true ∧ tileEnabled s h i = true ∧ laneCarries s (laneIndex h (carrierOf s h i)) = true) ∧
    (∃ (i : Nat) (s : State) (h : Head), i < 8 ∧ linkLive s h = true ∧ tileEnabled s h i = true ∧ pathActive s h i = true ∧
      (tileOf s h i).stale = false) ∧
    (∃ (s : State) (h : Head) (i : Nat), (tileOf s h i).echoWait.isSome = true) ∧
    (∃ (s : State) (h : Head), linkLive s h = true ∧ someLaneActive s h = true ∧ (s.saf.heads.get h).state = 2) ∧
    (∃ (s : State) (h : Head), linkLive s h = true ∧ someLaneActive s h = true ∧ (s.saf.heads.get h).state = 3) :=
  ⟨⟨2, unacked, Head.a, by decide +kernel⟩,
   ⟨7, unacked, Head.a, by decide +kernel⟩,
   ⟨2, (modTile unacked .a 2 (fun e => {e with configWait := true, config := [1#8], stale := true})), Head.a, by
     decide +kernel⟩,
   ⟨3, (modSafHead (tileUp .b live0 3) .b (fun e => {e with state := 3})), Head.b, by decide +kernel⟩,
   ⟨echoing, Head.a, 2, by decide +kernel⟩,
   ⟨(atHusk (tileUp .a live0 2) .a), Head.a, by decide +kernel⟩,
   ⟨(modSafHead (tileUp .b live0 3) .b (fun e => {e with state := 3})), Head.b, by decide +kernel⟩⟩

theorem witness_TileRequests :
    (∃ (s : State) (b : Bus) (h : Head) (v : Word), reaches s b (reqAddr h) = true ∧ mayPump s h (fld v 2 0) = true ∧
      (tileOf s h (fld v 2 0)).queue = [] ∧ laneCarries s (laneIndex h (carrierOf s h (fld v 2 0))) = true ∧
      stopped s (timer s h) = true) ∧
    (∃ (s : State) (b : Bus) (h : Head), reaches s b (reqAddr h) = true ∧ stopped s (timer s h) = false) ∧
    (∃ (i : Nat) (s : State) (b : Bus) (h : Head) (v : Word) (c : Nat), i < 4 ∧ reaches s b (tblBase h + 8) = true ∧
      fld v 19 16 = 0 ∧ (c = 1 ∨ c = 2) ∧
      (∀ (k : Nat), k < 4 → pairCode (fld v 7 0) k = if k = i then c else fwdRequest s h k) ∧ fwdRequest s h i ≠ c ∧
      partnerPorts s h (2 * i + c - 1) = true ∧ 0 ≤ laneMargin s h (timingOf s h) (List.filter (fun t => t == 2 * i + c - 1
      || t == partnerOf (2 * i + c - 1)) (enabledTiles s h))) ∧
    (∃ (i : Nat) (s : State) (b : Bus) (h : Head) (v : Word) (c : Nat), i < 4 ∧ reaches s b (tblBase h + 8) = true ∧
      fld v 19 16 = 0 ∧ (c = 1 ∨ c = 2) ∧
      (∀ (k : Nat), k < 4 → pairCode (fld v 7 0) k = if k = i then c else fwdRequest s h k) ∧ fwdRequest s h i ≠ c ∧
      partnerPorts s h (2 * i + c - 1) = false) ∧
    (∃ (i : Nat) (s : State) (b : Bus) (h : Head) (v : Word) (c : Nat), i < 4 ∧ reaches s b (tblBase h + 8) = true ∧
      fld v 19 16 = 0 ∧ (c = 1 ∨ c = 2) ∧
      (∀ (k : Nat), k < 4 → pairCode (fld v 7 0) k = if k = i then c else fwdRequest s h k) ∧ fwdRequest s h i ≠ c ∧
      partnerPorts s h (2 * i + c - 1) = true ∧ laneMargin s h (timingOf s h) (List.filter (fun t => t == 2 * i + c - 1 || t
      == partnerOf (2 * i + c - 1)) (enabledTiles s h)) < 0) ∧
    (∃ (i : Nat) (s : State) (b : Bus) (h : Head) (v : Word), i < 4 ∧ reaches s b (tblBase h + 8) = true ∧
      fwdRequest s h i ≠ 0 ∧ fld v 19 16 = 0 ∧
      (∀ (k : Nat), k < 4 → pairCode (fld v 7 0) k = if k = i then 0 else fwdRequest s h k) ∧ (((laneOf s (laneIndex h ((2 *
      i + if routeCode s h i = 0 then fwdRequest s h i else routeCode s h i) - 1))).aligned && !(laneOf s (laneIndex h ((2 *
      i + if routeCode s h i = 0 then fwdRequest s h i else routeCode s h i) - 1))).degraded) = true)) ∧
    (∃ (i : Nat) (s : State) (b : Bus) (h : Head) (v : Word), i < 4 ∧ reaches s b (tblBase h + 8) = true ∧
      fwdRequest s h i ≠ 0 ∧ fld v 19 16 = 0 ∧
      (∀ (k : Nat), k < 4 → pairCode (fld v 7 0) k = if k = i then 0 else fwdRequest s h k) ∧ (((laneOf s (laneIndex h ((2 *
      i + if routeCode s h i = 0 then fwdRequest s h i else routeCode s h i) - 1))).aligned && !(laneOf s (laneIndex h ((2 *
      i + if routeCode s h i = 0 then fwdRequest s h i else routeCode s h i) - 1))).degraded) = false)) :=
  ⟨⟨(tileUp .a live0 2), Bus.pcie, Head.a, 2#32, by decide +kernel⟩,
   ⟨(running (tileUp .a live0 2) .a), Bus.pcie, Head.a, by decide +kernel⟩,
   ⟨3, (small (linked live0 .a) .a), Bus.pcie, Head.a, 64#32, 1, by decide +kernel⟩,
   ⟨0, (modTile (small (linked live0 .a) .a) .a 1 (fun e => {e with info := 0x00770000#32})), Bus.pcie, Head.a, 1#32, 1, by
     decide +kernel⟩,
   ⟨3, (tileUp .a live0 2), Bus.pcie, Head.a, 64#32, 1, by decide +kernel⟩,
   ⟨1, (withWord (small (linked live0 .a) .a) 0x0C008 0x6#32), Bus.pcie, Head.a, 2#32, by decide +kernel⟩,
   ⟨0, (modLane (withWord (small (linked live0 .a) .a) 0x0C008 0x1#32) 0 (fun e => {e with aligned := false})), Bus.pcie,
     Head.a, 0#32, by decide +kernel⟩⟩

/-- A management frame is under way. -/
def managing (b : Bool) : State := { live0 with net := { live0.net with mdio := some (b, 1, 2, 3) } }

/-- A network descriptor is at work. -/
def netWork (op : Nat) (fl : Byte) : Work :=
  { ring := 6, slot := 1, cpl := 31, desc := desc op 0 ([0#8,fl,0#8,0#8,64#8,0#8,0#8,0#8]), dcrcOk := true, stage := 1,
    waits := [], stitches := 0, data := .data [], role := (if op == 10 then 11 else 9), bad := none, closes := none }

/-- A NET_TX waits for its frame. -/
def sendAsked (s : State) (fl : Byte) : State := { s with rng := { s.rng with work := [netWork 9 fl] } }

/-- A frame of port 0 leaves. -/
def sendingFrame (s : State) (fl : Byte) : State := modPort (sendAsked s fl) 0 (fun e =>
  { e with txFrames := [(6, 1, List.replicate 64 2#8)], txSeen := some ⟨5, false, true⟩ })

theorem witness_NetworkPorts :
    (∃ (p : Nat) (s : State) (b : Bus), p < 2 ∧ reaches s b (netBase p) = true ∧ portEnabled s p = false) ∧
    (∃ (p : Nat) (s : State) (b : Bus), p < 2 ∧ reaches s b (netBase p) = true ∧ portEnabled s p = true) ∧
    (∃ (p : Nat) (s : State), p < 2 ∧ netLive s = true ∧ portEnabled s p = true) ∧
    (∃ (p : Nat) (s : State) (w : Work), List.find? (fun w => w.desc.opcode == 9 && w.dcrcOk && w.stage == 1 && dByte w.desc
      8 == p && !(portOf s p).txFrames.any fun q => q.fst == w.ring && q.snd.fst == w.slot) s.rng.work = some w ∧ p < 2 ∧
      netLive s = true ∧ hostReads s = true ∧ ringsQuiet s = true ∧ txRoom s p (dNat w.desc 12 2) = true) ∧
    (∃ (p : Nat) (s : State) (w : Work), List.find? (fun w => w.desc.opcode == 9 && w.dcrcOk && w.stage == 1 && dByte w.desc
      8 == p && !(portOf s p).txFrames.any fun q => q.fst == w.ring && q.snd.fst == w.slot) s.rng.work = some w ∧ p < 2 ∧
      netLive s = true ∧ hostReads s = true ∧ ringsQuiet s = true ∧ txRoom s p (dNat w.desc 12 2) = true) ∧
    (∃ (s : State) (p : Nat) (rest : List (Nat × Nat × List Byte)) (r : Nat) (sl : Nat) (f : List Byte) (seen : Stamp) (w :
      Work), (portOf s p).txFrames = (r, sl, f) :: rest ∧ (portOf s p).txSeen = some seen ∧ workAt s r sl = some w ∧
      netLive s = true ∧ ringsQuiet s = true) ∧
    (∃ (s : State) (b : Bus), reaches s b 0xD000 = true ∧ s.net.mdio = none) ∧
    (∃ (s : State) (b : Bus), reaches s b 0xD000 = true ∧ s.net.mdio.isSome = true) ∧
    (∃ (s : State) (w : Bool) (a : Nat) (b : Nat) (c : Nat), s.net.mdio = some (w, a, b, c) ∧ netLive s = true) :=
  ⟨⟨1, live0, Bus.pcie, by decide +kernel⟩,
   ⟨1, (laneUp netUp 16), Bus.pcie, by decide +kernel⟩,
   ⟨1, (laneUp netUp 16), by decide +kernel⟩,
   ⟨0, (sendAsked netUp 0#8), _, rfl, by decide +kernel⟩,
   ⟨0, (sendAsked netUp 0#8), _, rfl, by decide +kernel⟩,
   ⟨(sendingFrame netUp 0#8), 0, _, _, _, _, _, _, rfl, rfl, rfl, by decide +kernel⟩,
   ⟨live0, Bus.pcie, by decide +kernel⟩,
   ⟨(managing true), Bus.pcie, by decide +kernel⟩,
   ⟨(managing true), _, _, _, _, rfl, by decide +kernel⟩⟩

theorem witness_NetworkFrames :
    (∃ (p : Nat) (s : State) (f : List Byte) (src : Nat), telCandidate s f = some src ∧ p < 2 ∧ netLive s = true ∧
      portEnabled s p = true ∧ (portOf s p).link = true ∧ ringsQuiet s = true ∧ 60 ≤ f.length ∧ trailerOk p f = false) ∧
    (∃ (p : Nat) (s : State) (f : List Byte) (src : Nat), telCandidate s f = some src ∧ p < 2 ∧ netLive s = true ∧
      portEnabled s p = true ∧ (portOf s p).link = true ∧ ringsQuiet s = true ∧ 60 ≤ f.length ∧ trailerOk p f = true ∧
      List.find? (fun k => k.source == src && k.seq == trailerSeq f) s.net.keys = none ∧
      List.find? (fun r => r.fst == src && r.snd.fst == trailerSeq f) s.net.remembered = none ∧ s.net.keys.length < 32) ∧
    (∃ (p : Nat) (s : State) (f : List Byte) (src : Nat) (k : TelKey), telCandidate s f = some src ∧
      List.find? (fun k => k.source == src && k.seq == trailerSeq f) s.net.keys = some k ∧ p < 2 ∧ netLive s = true ∧
      portEnabled s p = true ∧ (portOf s p).link = true ∧ ringsQuiet s = true ∧ 60 ≤ f.length ∧ trailerOk p f = true ∧
      k.port ≠ p ∧ withoutLan f ≠ withoutLan k.frame) ∧
    (∃ (p : Nat) (s : State) (f : List Byte) (src : Nat) (k : TelKey), telCandidate s f = some src ∧
      List.find? (fun k => k.source == src && k.seq == trailerSeq f) s.net.keys = some k ∧ p < 2 ∧ netLive s = true ∧
      portEnabled s p = true ∧ (portOf s p).link = true ∧ ringsQuiet s = true ∧ 60 ≤ f.length ∧ trailerOk p f = true ∧
      k.port ≠ p ∧ withoutLan f = withoutLan k.frame ∧ ctrlLive s = true ∧ telValid (telBody k.frame) = true ∧
      telNewer s k.source (telBody k.frame) = true ∧ imageFlag s 2 = true) ∧
    (∃ (p : Nat) (s : State) (f : List Byte) (w : Work), rxBuffer s p = some w ∧ p < 2 ∧ netLive s = true ∧
      portEnabled s p = true ∧ (portOf s p).link = true ∧ ringsQuiet s = true ∧ 60 ≤ f.length ∧ telCandidate s f = none ∧
      f.length ≤ regFld s (netBase p + 16) 11 0 ∧ addrPasses s p f = true ∧ vlanPasses s p f = true ∧ s.pwr.state ≠ 2 ∧
      s.pwr.state ≠ 3 ∧ hostLive s = true ∧ regBit s (netBase p) 5 = false ∧ f.length ≤ dNat w.desc 12 2) ∧
    (∃ (s : State) (src : Nat) (seq : Nat) (k : TelKey), List.find? (fun k => k.source == src && k.seq == seq) s.net.keys =
      some k ∧ netLive s = true) ∧
    (∃ (s : State), netLive s = true) ∧
    (∃ (src : Nat) (s : State), src < 4 ∧ netLive s = true ∧ fltJudges s = true ∧ regFld s 0xD018 15 0 ≠ 0 ∧
      regBit s (0xD024 + 8 * src) 31 = true) :=
  ⟨⟨1, netUp, (telegram 10 1 3), _, rfl, by decide +kernel⟩,
   ⟨1, netUp, (telegram 11 1 3), _, rfl, by decide +kernel⟩,
   ⟨1, (keyed 0 (telegram 10 1 3)), (telegram 11 2 1), _, _, rfl, rfl, by decide +kernel⟩,
   ⟨1, (releasable (keyed 0 (telegram 10 1 3))), (telegram 11 1 3), _, _, rfl, rfl, by decide +kernel⟩,
   ⟨0, (withWord buffered 0x0D100 9#32), (List.replicate 64 1#8), _, rfl, by decide +kernel⟩,
   ⟨(keyed 0 (telegram 10 1 3)), 0, 7, _, rfl, by decide +kernel⟩,
   ⟨netUp, by decide +kernel⟩,
   ⟨0, netUp, by decide +kernel⟩⟩

theorem witness_TimeCounterCommands :
    (∃ (s : State) (b : Bus), reaches s b 0xE004 = true ∧ s.tim.valid = true) ∧
    (∃ (s : State) (b : Bus), reaches s b 0xE004 = true ∧ s.tim.valid = false) :=
  ⟨⟨slewing, Bus.pcie, by decide +kernel⟩,
   ⟨live0, Bus.pcie, by decide +kernel⟩⟩

theorem witness_TimeUpkeepCommands :
    (∃ (s : State), ctrlLive s = true ∧ s.tim.slew ≠ 0 ∧ BitVec.toNat (regAt s 0xE014) ≠ 0) ∧
    (∃ (s : State) (b : Bus) (v : Word), reaches s b 0xE00C = true ∧
      2 * 2 ^ 32 ≤ regFld s 0xE008 3 0 * 2 ^ 32 + BitVec.toNat v ∧
      regFld s 0xE008 3 0 * 2 ^ 32 + BitVec.toNat v ≤ 8 * 2 ^ 32) ∧
    (∃ (s : State) (b : Bus) (v : Word), reaches s b 0xE00C = true ∧ (regFld s 0xE008 3 0 * 2 ^ 32 + BitVec.toNat v < 2 * 2
      ^ 32 ∨ 8 * 2 ^ 32 < regFld s 0xE008 3 0 * 2 ^ 32 + BitVec.toNat v)) ∧
    (∃ (s : State) (b : Bus) (v : Word), reaches s b 0xE018 = true ∧ (fld v 15 0 = 0 ∨ 100 ≤ fld v 15 0 ∧
      fld v 15 0 ≤ 0xEA60)) ∧
    (∃ (s : State), ctrlLive s = true ∧ s.tim.valid = true ∧ regFld s 0xE018 15 0 ≠ 0 ∧ s.tim.holdover = false) ∧
    (∃ (s : State) (b : Bus), readReaches s b 0xE020 = true) :=
  ⟨⟨slewing, by decide +kernel⟩,
   ⟨slewing, Bus.pcie, 0#32, by decide +kernel⟩,
   ⟨(withWord live0 0x0E008 1#32), Bus.pcie, 0#32, by decide +kernel⟩,
   ⟨slewing, Bus.pcie, 0#32, by decide +kernel⟩,
   ⟨(withWord (withWord slewing 0x0E008 4#32) 0x0E018 100#32), by decide +kernel⟩,
   ⟨slewing, Bus.pcie, by decide +kernel⟩⟩

/-- A capture unit under its mode and edge. -/
def captureOn (s : State) (n m e : Nat) : State := withWord s (0x0E200 + 0x20 * n) (BitVec.ofNat 32 (128 + m + 32 * e))

/-- A capture unit holds records. -/
def captured (n k : Nat) : State :=
  { captureOn live0 n 1 1 with tim := { live0.tim with caps := [(n, { Cap.reset with fifo := List.replicate k ⟨5, true⟩ })] } }

/-- The PPS input stands high. -/
def ppsHigh : State := { live0 with tim := {live0.tim with pps := true}}

/-- A comparator waits for its time. -/
def comparing (s : State) (n : Nat) : State := modTrig (withWord s (0x0E100 + 0x20 * n) 1#32) n (fun e =>
  { e with next := some 1000, period := 500 })

theorem witness_TriggerAndCaptureCommands :
    (∃ (n : Nat) (s : State) (b : Bus), n < 8 ∧ reaches s b (0xE100 + 32 * n) = true) ∧
    (∃ (n : Nat) (s : State) (due : Nat), (trigOf s n).next = some due ∧ n < 8 ∧ ctrlLive s = true ∧ trigEnabled s n = true) ∧
    (∃ (s : State), ctrlLive s = true ∧ s.tim.pps = true) ∧
    (∃ (n : Nat) (s : State) (rising : Bool), n < 8 ∧ ctrlLive s = true ∧ blockStopped s 8 = false ∧
      regBit s (0xE200 + 32 * n) 7 = true ∧ regFld s (0xE200 + 32 * n) 4 0 ≠ 0 ∧
      captureEdge (regFld s (0xE200 + 32 * n) 4 0) (regFld s (0xE200 + 32 * n) 6 5) rising = true) ∧
    (∃ (n : Nat) (s : State) (rest : List CapRec) (r : CapRec) (b : Bus), (capOf s n).fifo = r :: rest ∧ n < 8 ∧
      readReaches s b (0xE208 + 32 * n) = true) :=
  ⟨⟨7, live0, Bus.pcie, by decide +kernel⟩,
   ⟨7, (comparing live0 7), _, rfl, by decide +kernel⟩,
   ⟨ppsHigh, by decide +kernel⟩,
   ⟨3, (captured 3 4), true, by decide +kernel⟩,
   ⟨7, (captured 7 1), _, _, Bus.pcie, rfl, by decide +kernel⟩⟩

/-- A loop under a CTRL word. -/
def loopWith (s : State) (n : Nat) (w : Word) : State := withWord s (0x0F100 + 0x80 * n) w

/-- The result of a sample. -/
def loopResult : LoopResult := { state := { LoopState.zero with q := 4 }, u := 0x11170, y := 3, e := 1, accSat := false, narSat := false, intHold := false, outSat := true }

/-- A loop is computing. -/
def computing (s : State) (n : Nat) : State := modCle s (fun e => { e with running := some n })

/-- A loop holds a sample. -/
def sampled (s : State) (n : Nat) (m : LoopSample) : State := modLoop s n (fun e => { e with sample := some m })

/-- A sample at a stage. -/
def sampleAt (st : Nat) (r : Option LoopResult) : LoopSample :=
  { x := 5, ff := 0, target := 9, atEnd := false, stale := false, stage := st, result := r, code := 0 }

/-- Comparator 0 is enabled. -/
def comparatorOn (s : State) : State := withWord s 0x0E100 1#32

/-- A loop samples on the events of a comparator. -/
def usesEvents (s : State) (n k : Nat) : State := modLoop s n (fun e => { e with inUse := some k })

theorem witness_LoopSampleCommands :
    (∃ (n : Nat) (s : State), n < 8 ∧ cleRuns s = true ∧ blockStopped s 8 = false ∧ loopEnabled s n = true ∧
      trigTaken s (Consumer.loop n) (loopChoice s n) = true ∧ (loopOf s n).sample = none) ∧
    (∃ (n : Nat) (s : State) (m : LoopSample), (loopOf s n).sample = some m ∧ n < 8 ∧ cleRuns s = true ∧
      blockStopped s 8 = false ∧ loopEnabled s n = true ∧ trigTaken s (Consumer.loop n) (loopChoice s n) = true) ∧
    (∃ (s : State) (n : Nat) (k : Nat), loopChoice s n = some k ∧ trigEnabled s k = true ∧
      ¬(Consumer.loop n, k) ∈ s.tim.pulses) ∧
    (∃ (s : State) (rest : List Nat) (n : Nat), s.cle.waiting = n :: rest ∧ cleRuns s = true ∧ s.cle.running = none) ∧
    (∃ (s : State) (n : Nat) (m : LoopSample) (q : Int) (v : Int), s.cle.running = some n ∧ (loopOf s n).sample = some m ∧
      rampLaw (loopInt s n 16) (loopInt s n 20) m.target (loopOf s n).state.q (loopOf s n).state.v = (q, v) ∧
      cleRuns s = true ∧ m.stage = 1 ∧ -2 ^ 31 ≤ q ∧ q < 2 ^ 31) ∧
    (∃ (s : State) (n : Nat) (m : LoopSample) (r : LoopResult), (loopOf s n).sample = some m ∧ m.result = some r ∧
      cleRuns s = true) ∧
    (∃ (s : State) (n : Nat) (m : LoopSample), (loopOf s n).sample = some m ∧ cleRuns s = true ∧ m.result = none) :=
  ⟨⟨5, (modLoop (loopWith live0 5 1#32) 5 (fun e => { e with clearDue := true, pending := some [(3, 4#32)] })), by
    decide +kernel⟩,
   ⟨2, (sampled (loopWith live0 2 1#32) 2 (sampleAt 0 none)), _, rfl, by decide +kernel⟩,
   ⟨(usesEvents (comparatorOn (loopWith live0 2 0x00001103#32)) 2 0), 2, _, rfl, by decide +kernel⟩,
   ⟨(modCle live0 (fun e => { e with waiting := [2, 3] })), _, _, rfl, by decide +kernel⟩,
   ⟨(computing (sampled (loopWith live0 2 1#32) 2 (sampleAt 1 none)) 2), _, _, _, _, rfl, rfl, rfl, by decide +kernel⟩,
   ⟨(sampled (loopWith live0 2 0x00030001#32) 2 (sampleAt 2 (some loopResult))), 2, _, _, rfl, rfl, by decide +kernel⟩,
   ⟨(sampled (loopWith live0 2 1#32) 2 (sampleAt 0 none)), 2, _, rfl, by decide +kernel⟩⟩

theorem witness_LoopRegisterCommands :
    (∃ (n : Nat) (s : State) (b : Bus) (v : Word), n < 8 ∧ reaches s b (0xF100 + 128 * n) = true ∧ loopEnabled s n = false ∧
      loopEnableFail s n (v &&& loopFields) = none) ∧
    (∃ (n : Nat) (s : State) (b : Bus) (v : Word) (r : Nat), loopEnableFail s n (v &&& loopFields) = some r ∧ n < 8 ∧
      reaches s b (0xF100 + 128 * n) = true ∧ loopEnabled s n = false) ∧
    (∃ (n : Nat) (s : State) (b : Bus), n < 8 ∧ reaches s b (0xF100 + 128 * n) = true ∧ loopEnabled s n = true) ∧
    (∃ (s : State) (b : Bus), reaches s b 0xF004 = true) ∧
    (∃ (n : Nat) (s : State) (b : Bus), n < 8 ∧ reaches s b (setpointWord n) = true ∧
      (destOwned s (if n < 6 then n + 1 else n + 2) = false)) ∧
    (∃ (n : Nat) (s : State) (b : Bus), n < 8 ∧ reaches s b (setpointWord n) = true ∧
      (destOwned s (if n < 6 then n + 1 else n + 2) = true)) ∧
    (∃ (s : State) (b : Bus), reaches s b 0xF008 = true) :=
  ⟨⟨7, live0, Bus.pcie, 0#32, by decide +kernel⟩,
   ⟨7, live0, Bus.pcie, 257#32, _, rfl, by decide +kernel⟩,
   ⟨3, (withWord live0 0x0F280 0x00080001#32), Bus.pcie, by decide +kernel⟩,
   ⟨live0, Bus.pcie, by decide +kernel⟩,
   ⟨7, live0, Bus.pcie, by decide +kernel⟩,
   ⟨6, (withWord live0 0x0F280 0x00080001#32), Bus.pcie, by decide +kernel⟩,
   ⟨live0, Bus.pcie, by decide +kernel⟩⟩

theorem witness_LoopInputCommands :
    (∃ (s : State) (h : Head) (rest : List (Nat × Bool)) (v : Nat) (r : Bool), s.cle.fifo.get h = (v, r) :: rest ∧
      ctrlLive s = true) ∧
    (∃ (c : Nat) (s : State), c < 4 ∧ cleRuns s = true ∧ adcMode s c ≠ 0 ∧ (adcOf s c).converting = false ∧
      trigTaken s (Consumer.adc c) (adcChoice s c) = true) ∧
    (∃ (s : State) (c : Nat), cleRuns s = true ∧ (adcOf s c).converting = true) ∧
    (∃ (s : State), cleRuns s = true ∧ regBit s 0xF080 0 = true ∧ trigTaken s Consumer.imu (imuChoice s) = true ∧
      s.cle.imuBusy = false) ∧
    (∃ (s : State), cleRuns s = true ∧ regBit s 0xF080 0 = true ∧ trigTaken s Consumer.imu (imuChoice s) = true ∧
      s.cle.imuBusy = true) ∧
    (∃ (s : State), cleRuns s = true ∧ s.cle.imuBusy = true) ∧
    (∃ (n : Nat) (s : State), n < 6 ∧ ctrlLive s = true ∧ regBit s 0xF030 n = true) :=
  ⟨⟨(modCle live0 (fun e => { e with fifo := { a := [(5, true), (6, false)], b := [(7, false)] } })), Head.a, _, _, _, rfl,
    by decide +kernel⟩,
   ⟨2, (withWord live0 0x0F010 0x00010101#32), by decide +kernel⟩,
   ⟨(modAdc live0 3 (fun a => { a with converting := true })), 3, by decide +kernel⟩,
   ⟨(withWord live0 0x0F080 0x00110001#32), by decide +kernel⟩,
   ⟨(modCle (withWord live0 0x0F080 0x00110001#32) (fun e => { e with imuBusy := true })), by decide +kernel⟩,
   ⟨(modCle (withWord live0 0x0F080 0x00110001#32) (fun e => { e with imuBusy := true })), by decide +kernel⟩,
   ⟨5, (withWord (withWord live0 0x0F030 63#32) 0x0F044 0x1234#32), by decide +kernel⟩⟩

/-- A chain changed. -/
def chainWith (s : State) (c : Nat) (f : Chain → Chain) : State := modChain s c f

/-- A chain under its CTRL word. -/
def chainOn (s : State) (c : Nat) (w : Word) : State := withWord (withWord s 0x0E100 1#32) (lceBase c) w

/-- A LACE_FRAME descriptor at work. -/
def laceWork (op : Nat) : Work :=
  { ring := 4, slot := 1, cpl := 31, desc := desc op 0 ([0#8,0#8,0#8,0#8,5#8,0#8,0#8,0#8]), dcrcOk := true, stage := 1,
    waits := [], stitches := 0, data := .data [], role := 8, bad := none, closes := none }

/-- A LACE_FRAME waits for its data. -/
def laceAsked (s : State) : State := { s with rng := { s.rng with work := [laceWork 8] } }

theorem witness_OneWireChains :
    (∃ (s : State) (c : Nat) (r : Nat) (sl : Nat) (old : List Byte) (w : Work), (chainOf s c).staged = some (r, sl, old) ∧
      workAt s r sl = some w ∧ lceRuns s = true ∧ hostLive s = true ∧ ringsQuiet s = true ∧ (chainOf s c).ready = false) ∧
    (∃ (s : State) (c : Nat) (r : Nat) (sl : Nat) (old : List Byte), (chainOf s c).staged = some (r, sl, old) ∧
      lceRuns s = true ∧ hostLive s = true ∧ ringsQuiet s = true ∧ (chainOf s c).ready = false) ∧
    (∃ (c : Nat) (s : State), c < 2 ∧ lceRuns s = true ∧ bit (lceCtrl s c) 0 = true ∧ laceTriggered s c = true) ∧
    (∃ (c : Nat) (s : State) (desc : Option (Nat × Nat)) (data : List Byte), laceSource s c = some (desc, data) ∧ c < 2 ∧
      lceRuns s = true ∧ ringsQuiet s = true) ∧
    (∃ (s : State) (c : Nat), lceRuns s = true ∧ ringsQuiet s = true ∧ (chainOf s c).busy = true) ∧
    (∃ (s : State) (b : Bus), reaches s b 65536 = true) ∧
    (∃ (c : Nat) (s : State) (b : Bus), c < 2 ∧ bit (lceCtrl s c) 0 = true ∧ reaches s b (lceBase c) = true) ∧
    (∃ (c : Nat) (s : State) (b : Bus), c < 4 ∧ crcHeld s c = true ∧ reaches s b (crcBase c) = true) :=
  ⟨⟨(chainWith (laceAsked live0) 0 (fun e => { e with staged := some (4, 1, []) })), 0, _, _, _, _, rfl, rfl, by
    decide +kernel⟩,
   ⟨(chainWith (laceAsked live0) 0 (fun e => { e with staged := some (4, 1, []) })), 0, _, _, _, rfl, by decide +kernel⟩,
   ⟨0, (chainWith (chainOn live0 0 0x003#32) 0 (fun e => { e with busy := true, sending := some (4,1) })), by
     decide +kernel⟩,
   ⟨0, (chainWith (laceAsked (chainOn live0 0 1#32)) 0 (fun e =>
     { e with ready := true, startDue := true, pending := some [(lceBase 0 / 4 + 8, 7#32)], staged := some (4, 1, [1#8, 2#8, 3#8]) })),
     _, _, rfl, by decide +kernel⟩,
   ⟨(chainWith (chainOn live0 0 0x003#32) 0 (fun e => { e with busy := true, sending := some (4,1) })), 0, by
     decide +kernel⟩,
   ⟨live0, Bus.pcie, by decide +kernel⟩,
   ⟨1, (chainOn live0 1 0x403#32), Bus.pcie, by decide +kernel⟩,
   ⟨0, summing, Bus.pcie, by decide +kernel⟩⟩

/-- The condition of a source stands. -/
def condOn (src part : Nat) : State := modFlt live0 (fun f =>
  { f with live := [(src, part, 3, part)], sticky := 1#64 <<< src })

/-- Ring 30 is the EVENT ring. -/
def eventRing (s : State) : State := withWord (withWord s 0x03000 1#32) (0x03108 + 0x20 * 30) (ringWord 2 18 31)

/-- An entry of source 31. -/
def entryOf31 : Entry := { source := 31, clear := false, injected := false, clearSeen := false, severity := 3, heads := 1,
                           repeats := 2, detail := 7, setTime := 5#32, clearTime := 0#32, fsnA := 1#32, fsnB := 2#32 }

/-- Two entries wait in the collector. -/
def queuedEntries (s : State) : State := modFlt s (fun f =>
  { f with entries := [entryOf31, { entryOf31 with source := 32, clear := true }] })

theorem witness_FaultAssertions :
    (∃ (src : Nat) (s : State) (part : Nat), 0 < src ∧ src < 63 ∧ fltJudges s = true ∧
      (isLevel src = true → (s.flt.live.any fun e => e.fst == src && e.snd.fst == part) = false)) ∧
    (∃ (s : State) (src : Nat) (part : Nat), (s.flt.live.any fun e => e.fst == src && e.snd.fst == part) = true) ∧
    (∃ (s : State) (rest : List Entry) (e : Entry) (n : Nat), s.flt.entries = e :: rest ∧ ringWithRole s 18 = some n ∧
      fltJudges s = true ∧ hostLive s = true ∧ (ringOf s n).unreleased < ringSize s n) ∧
    (∃ (s : State) (rest : List Entry) (e : Entry), s.flt.entries = e :: rest ∧ fltJudges s = true ∧
      ringWithRole s 18 = none) ∧
    (∃ (clock : Nat) (s : State), clock < 7 ∧ clockWatched s clock = true) ∧
    (∃ (s : State), fltJudges s = true ∧ s.flt.self = false) :=
  ⟨⟨62, live0, 24, by decide +kernel⟩,
   ⟨(condOn 24 3), 24, 3, by decide +kernel⟩,
   ⟨(queuedEntries (eventRing live0)), _, _, _, rfl, rfl, by decide +kernel⟩,
   ⟨(queuedEntries live0), _, _, rfl, by decide +kernel⟩,
   ⟨6, live0, by decide +kernel⟩,
   ⟨live0, by decide +kernel⟩⟩

theorem witness_FaultRegisters :
    (∃ (s : State) (b : Bus) (high : Bool), (reaches s b (if high = true then 0x12014 else 0x12010) = true)) ∧
    (∃ (s : State) (b : Bus) (high : Bool), (reaches s b (if high = true then 0x120A4 else 0x120A0) = true)) ∧
    (∃ (s : State) (b : Bus), reaches s b 0x12060 = true) ∧
    (∃ (k : Nat) (s : State) (b : Bus), k < 8 ∧ reaches s b (0x12020 + 4 * k) = true) ∧
    (∃ (s : State) (b : Bus), reaches s b 0x12080 = true ∧ s.saf.unlocked = false) ∧
    (∃ (s : State) (b : Bus) (v : Word), reaches s b 0x12080 = true ∧ s.saf.unlocked = true ∧
      injectable (fld v 5 0) = true ∧ (fld v 9 8 = 1 ∨ fld v 9 8 = 2) ∧ fld v 5 0 ≠ 0) ∧
    (∃ (s : State) (b : Bus) (v : Word), reaches s b 0x12080 = true ∧ s.saf.unlocked = true ∧
      (injectable (fld v 5 0) = false ∨ fld v 9 8 = 0 ∨ fld v 9 8 = 3)) ∧
    (∃ (s : State) (b : Bus) (v : Word), reaches s b 0x12080 = true ∧ s.saf.unlocked = true ∧ fld v 5 0 = 0 ∧
      (fld v 9 8 = 1 ∨ fld v 9 8 = 2)) :=
  ⟨⟨live0, Bus.pcie, false, by decide +kernel⟩,
   ⟨live0, Bus.pcie, false, by decide +kernel⟩,
   ⟨live0, Bus.pcie, by decide +kernel⟩,
   ⟨7, live0, Bus.pcie, by decide +kernel⟩,
   ⟨live0, Bus.pcie, by decide +kernel⟩,
   ⟨(inSession live0), Bus.pcie, 0x55555555#32, by decide +kernel⟩,
   ⟨(inSession live0), Bus.pcie, 0#32, by decide +kernel⟩,
   ⟨(inSession live0), Bus.pcie, 0x80000100#32, by decide +kernel⟩⟩

/-- A heartbeat has come, of a value. -/
def beating (s : State) (v : Nat) : State := withWord { s with saf := { s.saf with hbAny := true } } 0x13040 (BitVec.ofNat
  32 v)

/-- The SAFE_N input is active. -/
def safeInput (s : State) : State := { s with saf := { s.saf with safeN := true } }

/-- Every sticky bit is set. -/
def allSticky (s : State) : State := modFlt s (fun f => { f with sticky := 0xFFFFFFFFFFFFFFFF#64 })

/-- The heartbeat is supervised. -/
def supervised (s : State) : State := { s with saf := { s.saf with hbSup := true } }

theorem witness_SafetyInputs :
    (∃ (s : State), s.saf.safeN = false) ∧
    (∃ (s : State), s.saf.safeN = true) ∧
    (∃ (s : State) (src : Nat), ctrlLive s = true ∧ conditionOf s src = false ∧ (src = 52 ∧
      imageFlag s 0 = true ∨ src = 12 ∧ imageFlag s 1 = true)) ∧
    (∃ (s : State) (b : Bus) (v : Word), reaches s b 0x13040 = true ∧ s.saf.hbAny = true ∧
      fld v 15 0 ≠ (regFld s 0x13040 15 0 + 1) % 65536) ∧
    (∃ (s : State) (b : Bus) (v : Word), reaches s b 0x13040 = true ∧
      (s.saf.hbAny = false ∨ fld v 15 0 = (regFld s 0x13040 15 0 + 1) % 65536)) ∧
    (∃ (s : State), ctrlLive s = true ∧ s.saf.image.isSome = true) ∧
    (∃ (s : State), ctrlLive s = true ∧ s.saf.hbSup = true ∧ hbTimeout s ≠ 0 ∧
      (s.flt.live.any fun e => e.fst == 12 && e.snd.fst == 0) = false) ∧
    (∃ (s : State) (i : Nat), ctrlLive s = true ∧ watched s i = true) :=
  ⟨⟨live0, by decide +kernel⟩,
   ⟨(safeInput live0), by decide +kernel⟩,
   ⟨(allSticky (imaged live0)), 12, by decide +kernel⟩,
   ⟨(beating live0 0), Bus.pcie, 0#32, by decide +kernel⟩,
   ⟨live0, Bus.pcie, 0#32, by decide +kernel⟩,
   ⟨(allSticky (imaged live0)), by decide +kernel⟩,
   ⟨(supervised (imaged live0)), by decide +kernel⟩,
   ⟨live0, 2, by decide +kernel⟩⟩

/-- The session is locked out after three failures. -/
def lockedOut : State := { imaged live0 with saf := { (imaged live0).saf with lockout := true, failures := 3 } }

set_option maxRecDepth 100000 in
theorem witness_ConfigSessions :
    (∃ (s : State) (b : Bus), reaches s b 0x1300C = true ∧ s.saf.lockout = true) ∧
    (∃ (s : State) (b : Bus), reaches s b 0x1300C = true ∧ s.saf.lockout = false ∧ s.saf.unlocked = false ∧
      s.saf.image = none) ∧
    (∃ (s : State) (b : Bus) (img : List Byte), s.saf.image = some img ∧ reaches s b 0x1300C = true ∧ s.saf.unlocked = true) ∧
    (∃ (s : State) (img : List Byte), s.saf.image = some img ∧ ctrlLive s = true ∧ s.saf.unlocked = true) ∧
    (∃ (s : State) (r : Nat), copyFault s (copyToCommit s) = some r ∧ ctrlLive s = true ∧ s.saf.committing = true ∧
      s.saf.unlocked = true ∧ s.kps.current = some KpsOp.commit) ∧
    (∃ (s : State), ctrlLive s = true) :=
  ⟨⟨lockedOut, Bus.pcie, by decide +kernel⟩,
   ⟨live0, Bus.pcie, by decide +kernel⟩,
   ⟨(inSession (imaged live0)), Bus.pcie, _, rfl, by decide +kernel⟩,
   ⟨(inSession (imaged live0)), _, rfl, by decide +kernel⟩,
   ⟨(committing (imaged live0)), _, rfl, by decide +kernel⟩,
   ⟨live0, by decide +kernel⟩⟩

/-- Sixteen conversion codes of a round. -/
def codesOf (f : Nat → Nat) : Store Nat := (List.range 16).map (fun k => (k, f k))

/-- A round has all its codes. -/
def roundDone (s : State) (f : Nat → Nat) : State :=
  { s with hkp := { s.hkp with busy := true, slot := 16, codes := codesOf f } }

/-- A round stands at its slot 9. -/
def halfRound (s : State) : State := { s with hkp := { s.hkp with busy := true, slot := 9, codes := codesOf (fun k => k) } }

theorem witness_HousekeepingRounds :
    (∃ (s : State), hkpRuns s = true ∧ trigTaken s Consumer.round (roundChoice s) = true ∧ blockStopped s 8 = false) ∧
    (∃ (s : State), hkpRuns s = true ∧ s.hkp.busy = true ∧ s.hkp.slot < 16) ∧
    (∃ (s : State), hkpRuns s = true ∧ s.hkp.busy = true ∧ s.hkp.slot = 16) ∧
    (∃ (s : State) (b : Bus), reaches s b 0x14000 = true) :=
  ⟨⟨live0, by decide +kernel⟩,
   ⟨(halfRound live0), by decide +kernel⟩,
   ⟨(roundDone live0 (fun _ => 2048)), by decide +kernel⟩,
   ⟨live0, Bus.pcie, by decide +kernel⟩⟩

/-- Sixteen conversion codes. -/
def codesBy (f : Nat → Nat) : Store Nat := (List.range 16).map (fun k => (k, f k))

/-- A housekeeping round has all its codes. -/
def converted (s : State) (f : Nat → Nat) : State :=
  { s with hkp := { s.hkp with busy := true, slot := 16, codes := codesBy f } }

theorem witness_ThrottleLevelsFollowTheirInputs :
    ∃ (s : State), hkpRuns s = true ∧ s.hkp.busy = true ∧ s.hkp.slot = 16 :=
  ⟨(converted live0 (fun _ => 2048)), by decide +kernel⟩

/-- A low-power state at a phase of its entry or exit. -/
def atPhase (s : State) (st ph tg : Nat) : State :=
  { s with pwr := { s.pwr with state := st, phase := ph, target := tg, asking := if ph = 1 then 3 else 0, lanesWere := if ph = 1 then [(3, 2)] else [] } }

/-- Every wake source is enabled, with no other word changed. -/
def wakeAll (s : State) : State := withWord (withWord (withWord s 0x15020 0x3FF#32) 0x15024 0x00020301#32) 0x15030 50#32

theorem witness_PowerRequests :
    (∃ (s : State), regBit s 0x15000 0 = true ∧ s.pwr.state = 0 ∧ s.pwr.phase = 0 ∧ aoLive s = true ∧ idleHolds s = true) ∧
    (∃ (s : State), s.pwr.state = 1) ∧
    (∃ (s : State) (b : Bus) (c : Instr) (target : Nat), reaches s b 0x15008 = true ∧
      (c, target) ∈ [(Instr.pwrDoze b, 2), (Instr.pwrSleep b, 3), (Instr.pwrOff b, 4)]) ∧
    (∃ (c : Instr) (target : Nat) (s : State), (c, target) ∈ [(Instr.dozeTimerExpiry, 2), (Instr.sleepTimerExpiry, 3)] ∧
      aoLive s = true ∧ regBit s 0x15000 (target - 1) = true ∧ idleHolds s = true ∧ s.pwr.state < 3) ∧
    (∃ (s : State) (b : Bus), regBit s 0x15020 0 = true ∧ reaches s b 0x15008 = true ∧ s.pwr.phase = 0 ∧ 2 ≤ s.pwr.state ∧
      s.pwr.state ≤ 4) ∧
    (∃ (s : State) (b : Bus), regBit s 0x15020 0 = true ∧ reaches s b 0x15008 = true ∧ s.pwr.phase = 0 ∧ s.pwr.state < 2) ∧
    (∃ (s : State) (b : Bus), regBit s 0x15020 0 = true ∧ reaches s b 0x15008 = true ∧ s.pwr.phase = 1 ∧
      domainsDown s = [] ∧ 2 ≤ s.pwr.target ∧ s.pwr.target ≤ 4) ∧
    (∃ (s : State) (w : Nat), aoLive s = true ∧ regBit s 0x15020 (w % 16) = true ∧
      (w % 16 = 6 → regBit s 0x15024 (w / 16 % 8) = true) ∧ (w % 16 = 7 → regBit s 0x15024 (8 + w / 16 % 8) = true ∧
      regBit s 0x15024 (16 + w / 16 % 8) = nbit w 7) ∧ s.pwr.phase = 0 ∧ wakeActs s s.pwr.state (w % 16) = true) ∧
    (∃ (s : State) (w : Nat), aoLive s = true ∧ regBit s 0x15020 (w % 16) = true ∧
      (w % 16 = 6 → regBit s 0x15024 (w / 16 % 8) = true) ∧ (w % 16 = 7 → regBit s 0x15024 (8 + w / 16 % 8) = true ∧
      regBit s 0x15024 (16 + w / 16 % 8) = nbit w 7) ∧ s.pwr.phase = 3 ∧ wakeActs s s.pwr.target (w % 16) = true) ∧
    (∃ (s : State) (w : Nat), aoLive s = true ∧ regBit s 0x15020 (w % 16) = true ∧
      (w % 16 = 6 → regBit s 0x15024 (w / 16 % 8) = true) ∧ (w % 16 = 7 → regBit s 0x15024 (8 + w / 16 % 8) = true ∧
      regBit s 0x15024 (16 + w / 16 % 8) = nbit w 7) ∧ (s.pwr.phase = 1 ∨ s.pwr.phase = 2) ∧ domainsDown s = [] ∧
      wakeActs s s.pwr.target (w % 16) = true) ∧
    (∃ (s : State), aoLive s = true ∧ regAt s 0x15030 ≠ 0#32) :=
  ⟨⟨(withWord live0 0x15000 7#32), by decide +kernel⟩,
   ⟨(wakeAll (atPhase live0 1 0 0)), by decide +kernel⟩,
   ⟨(withWord live0 0x15000 7#32), Bus.pcie, (Instr.pwrDoze .pcie), 2, by decide +kernel⟩,
   ⟨Instr.dozeTimerExpiry, 2, (withWord live0 0x15000 7#32), by decide +kernel⟩,
   ⟨(wakeAll (atPhase live0 2 0 0)), Bus.pcie, by decide +kernel⟩,
   ⟨(withWord live0 0x15000 7#32), Bus.pcie, by decide +kernel⟩,
   ⟨(wakeAll (atPhase live0 0 1 2)), Bus.pcie, by decide +kernel⟩,
   ⟨(wakeAll (atPhase live0 2 0 0)), 0, by decide +kernel⟩,
   ⟨(wakeAll (atPhase live0 0 3 4)), 0, by decide +kernel⟩,
   ⟨(wakeAll (atPhase live0 0 1 2)), 0, by decide +kernel⟩,
   ⟨(wakeAll (atPhase live0 1 0 0)), by decide +kernel⟩⟩

/-- The wake latch holds a cause while PD_CTRL is off. -/
def latched (s : State) : State := { s with pwr := { s.pwr with latch := 8#32, domains := [(3, 0)] } }

/-- Entry of a low-power state stands at a phase. -/
def entering (s : State) (st ph tg ask : Nat) (sv : Bool) : State :=
  { s with pwr := { s.pwr with state := st, phase := ph, target := tg, asking := ask, saveNext := sv, byTimer := sv } }

theorem witness_LowPowerEntry :
    (∃ (s : State), s.pwr.phase = 1 ∧ domainsDown s = [] ∧ blockRefuses s s.pwr.asking s.pwr.target = true) ∧
    (∃ (s : State), s.pwr.phase = 1 ∧ domainsDown s = [] ∧ blockRefuses s s.pwr.asking s.pwr.target = false ∧
      blockWaits s s.pwr.asking = true) ∧
    (∃ (s : State), s.pwr.phase = 1 ∧ domainsDown s = [] ∧ blockRefuses s s.pwr.asking s.pwr.target = false ∧
      blockWaits s s.pwr.asking = false) ∧
    (∃ (s : State), s.pwr.phase = 2) ∧
    (∃ (s : State), s.pwr.phase = 3 ∧ s.pwr.target ≠ 4 ∧ s.pwr.latch = 0#32) ∧
    (∃ (s : State), s.pwr.phase = 3 ∧ s.pwr.target ≠ 4 ∧ s.pwr.latch ≠ 0#32) ∧
    (∃ (s : State), s.pwr.phase = 3 ∧ s.pwr.target = 4 ∧ s.pwr.latch = 0#32) :=
  ⟨⟨(entering (running live0 .a) 0 1 3 1 true), by decide +kernel⟩,
   ⟨(entering (writing live0) 0 1 4 6 true), by decide +kernel⟩,
   ⟨(entering live0 0 1 2 1 false), by decide +kernel⟩,
   ⟨(entering live0 0 2 4 0 true), by decide +kernel⟩,
   ⟨(entering live0 0 3 3 0 false), by decide +kernel⟩,
   ⟨(latched (entering live0 0 3 3 0 false)), by decide +kernel⟩,
   ⟨(entering live0 0 3 4 0 true), by decide +kernel⟩⟩

/-- Exit from a low-power state stands at a phase. -/
def leaving (s : State) (st ph tg : Nat) (aw ms : List Nat) (off : List (Nat × Nat)) (sv : Bool) : State :=
  { s with pwr := { s.pwr with state := st, phase := ph, target := tg, awaiting := aw, missed := ms, domains := off, saveMode := sv, lanesWere := [(3, 3), (17, 2)] } }

theorem witness_PowerExit :
    (∃ (s : State) (d : Nat), s.pwr.phase = 4 ∧ d ∈ s.pwr.awaiting ∧ ¬d ∈ s.pwr.missed) ∧
    (∃ (s : State) (d : Nat), s.pwr.phase = 4 ∧ d ∈ s.pwr.awaiting ∧ d ∈ s.pwr.missed) ∧
    (∃ (s : State) (d : Nat), s.pwr.phase = 4 ∧ d ∈ s.pwr.missed ∧ ¬d ∈ s.pwr.awaiting ∧ domainState s d ≠ 2) ∧
    (∃ (s : State) (ok : Bool), s.pwr.phase = 4 ∧ s.pwr.awaiting = [] ∧ domainsDown s = [] ∧
      ((s.pwr.saveMode && decide (3 ≤ s.pwr.state)) = true → ok = true) ∧ s.rng.work = [] ∧ s.rst.deferred = [] ∧
      (∀ (p : Nat), (portOf s p).waiting = [])) ∧
    (∃ (s : State) (ok : Bool), s.pwr.phase = 4 ∧ s.pwr.awaiting = [] ∧ domainsDown s = [] ∧
      (s.pwr.saveMode && decide (3 ≤ s.pwr.state)) = true ∧ ok = false) :=
  ⟨⟨(leaving live0 3 4 0 [2, 3] [3] [(2, 0), (3, 0)] true), 2, by decide +kernel⟩,
   ⟨(leaving live0 3 4 0 [2, 3] [3] [(2, 0), (3, 0)] true), 3, by decide +kernel⟩,
   ⟨(leaving live0 3 4 0 [] [2] [(2, 0)] true), 2, by decide +kernel⟩,
   ⟨(leaving live0 3 4 0 [] [] [] true), true, by decide +kernel, by decide +kernel, by decide +kernel, by decide +kernel,
     by decide +kernel, by decide +kernel, fun _ => rfl⟩,
   ⟨(leaving live0 3 4 0 [] [] [] true), false, by decide +kernel⟩⟩

/-- Three bytes of the light memory hold something. -/
def threeBytes (s : State) : State := { s with mem := [(5, 3#8), (0x01200005, 7#8), (0x012FFFFF, 1#8)] }

/-- The collector asks for a reset. -/
def resetAsked (s : State) : State := modFlt s (fun f => { f with resetReq := true, sticky := 0x5#64 })

theorem witness_ResetSources :
    (∃ (c : Instr) (b : Nat), (c, b) ∈ [(Instr.powerOnDetect, 0), (Instr.resetNAssert, 1), (Instr.aoBrownOut, 2)]) ∧
    (∃ (s : State), s.rst.reach ≤ 2) ∧
    (∃ (s : State), s.flt.resetReq = true) ∧
    (∃ (s : State) (b : Bus), reaches s b 0x16004 = true) ∧
    (∃ (s : State) (c : Instr) (b : Nat), wideSources s = [] ∧ 2 ≤ s.rst.done ∧ s.hif.linkUp = true ∧ s.rst.sources = [] ∧
      domainState s 0 = 2 ∧ (c, b) ∈ [(Instr.hotReset, 9), (Instr.functionLevelReset, 11)]) :=
  ⟨⟨Instr.powerOnDetect, 0, by decide +kernel⟩,
   ⟨(threeBytes live0), by decide +kernel⟩,
   ⟨(resetAsked live0), by decide +kernel⟩,
   ⟨(threeBytes live0), Bus.pcie, by decide +kernel⟩,
   ⟨(threeBytes live0), Instr.hotReset, 9, by decide +kernel⟩⟩

/-- The data link is down. -/
def linkDown (s : State) : State := { s with hif := { s.hif with linkUp := false } }

/-- A reset release at a step. -/
def resetAt (s : State) (src : List Nat) (r st d : Nat) : State :=
  { s with rst := { s.rst with sources := src, reach := r, step := st, done := d, hifReady := false } }

set_option maxRecDepth 100000 in
theorem witness_ResetReleases :
    (∃ (c : Instr) (bs : List Nat), (c, bs) ∈ [(Instr.resetNRelease, [1]), (Instr.softwareResetRelease, [3, 6, 12]),
      (Instr.resetRelease, [0, 2, 4, 5, 7]), (Instr.perstNRelease, [8])]) ∧
    (∃ (s : State), 1 ≤ s.rst.step ∧ s.rst.step ≤ 6) ∧
    (∃ (s : State) (k : Nat), slotSelect s = some k ∧ s.rst.step = 7) ∧
    (∃ (s : State), s.rst.step = 7 ∧ slotSelect s = none) ∧
    (∃ (s : State), s.hif.linkUp = false ∧ 2 ≤ s.rst.done ∧ domainState s 0 = 2 ∧
      (∀ (b : Nat), b ∈ s.rst.sources → b = 10) ∧ toleranceNow s = none ∧ s.rng.work = []) :=
  ⟨⟨Instr.resetNRelease, [1], by decide +kernel⟩,
   ⟨(resetAt live0 [8] 2 1 0), by decide +kernel⟩,
   ⟨(resetAt (scriptOf live0 0 [0x00010007]) [] 3 7 6), _, rfl, by decide +kernel⟩,
   ⟨(resetAt live0 [] 3 7 6), by decide +kernel⟩,
   ⟨(linkDown live0), by decide +kernel⟩⟩

/-- The reset of a block waits for a sequence. -/
def heldReset (s : State) (k : Nat) : State := { s with rst := { s.rst with blocks := [k] } }

theorem witness_BlockResets :
    (∃ (k : Nat) (s : State) (b : Bus), k < 9 ∧ ringsIdle s = true ∧ sequencing s = false ∧ reaches s b 0x16008 = true ∧
      domainState s (blockDomain k) ≠ 2) ∧
    (∃ (k : Nat) (s : State) (b : Bus), k < 9 ∧ ringsIdle s = true ∧ sequencing s = false ∧ reaches s b 0x16008 = true ∧
      domainState s (blockDomain k) = 2) ∧
    (∃ (s : State) (k : Nat), ringsIdle s = true ∧ blockHeld s k = true) :=
  ⟨⟨8, ({ live0 with pwr := { live0.pwr with state := 2, domains := [(4, 1), (5, 1), (7, 0)] } }), Bus.pcie, by
    decide +kernel⟩,
   ⟨8, live0, Bus.pcie, by decide +kernel⟩,
   ⟨(heldReset live0 3), 3, by decide +kernel⟩⟩

/-- An END record. -/
def recEnd : List Nat := [0x00010007]

/-- A LOAD_TILES record of two tiles of head A. -/
def recLoad : List Nat := [0x00040005, 0x00010300, 0, 5]

/-- A MASK_WRITE record. -/
def recMasked : List Nat := [0x00040002, 0x0000C, 0xFF00, 0x1234]

/-- A POLL of a value, under its flags. -/
def recPoll (v f : Nat) : List Nat := [0x00050003 + 256 * f, 0x0000C, 0xFF00, v, 1000]

/-- A SLIP_SEARCH record that names lanes LA3 and LA5. -/
def recSearch : List Nat := [0x00030004, 0x0028, 5]

/-- A WRITE record of one word. -/
def recWrite : List Nat := [0x00040001, 0x0000C, 1, 0x1234]

/-- A WRITE record that names the doorbell page. -/
def recDoorbell : List Nat := [0x00040001, 0x02000, 1, 0x1234]

/-- A WAIT record of 7 microseconds. -/
def recWait : List Nat := [0x00020006, 7]

set_option maxRecDepth 100000 in
theorem witness_BootRecords :
    (∃ (s : State), s.rst.boot.state = 2 ∧ s.rst.boot.waiting = false ∧ recReadable s = true ∧ recBad s = false ∧
      s.rst.boot.stopping = false ∧ ringsQuiet s = true ∧ recOpcode s = 1 ∧ recFlags s = 0 ∧
      BitVec.toNat (recWord s 1) = 12 ∧ fld (recWord s 2) 12 0 = 1) ∧
    (∃ (s : State), s.rst.boot.state = 2 ∧ s.rst.boot.waiting = false ∧ recReadable s = true ∧ recBad s = false ∧
      s.rst.boot.stopping = false ∧ ringsQuiet s = true ∧ recOpcode s = 1 ∧ recFlags s = 0 ∧
      recForbidden (BitVec.toNat (recWord s 1)) = true ∧ 1 ≤ fld (recWord s 2) 12 0) ∧
    (∃ (s : State), s.rst.boot.state = 2 ∧ s.rst.boot.waiting = false ∧ recReadable s = true ∧ recBad s = false ∧
      s.rst.boot.stopping = false ∧ ringsQuiet s = true ∧ recOpcode s = 2 ∧ BitVec.toNat (recWord s 1) = 12 ∧
      injHits s 54 3 = false ∧ s.glb.badParity.contains 3 = false) ∧
    (∃ (s : State) (c : Instr), s.rst.boot.state = 2 ∧ s.rst.boot.waiting = false ∧ recReadable s = true ∧
      recBad s = false ∧ s.rst.boot.stopping = false ∧ ringsQuiet s = true ∧ (c = Instr.bootPoll ∧
      recOpcode s = 3 ∨ c = Instr.bootWait ∧ recOpcode s = 6)) ∧
    (∃ (s : State), s.rst.boot.state = 2 ∧ s.rst.boot.waiting = false ∧ recReadable s = true ∧ recBad s = false ∧
      s.rst.boot.stopping = false ∧ ringsQuiet s = true ∧ recOpcode s = 4 ∧
      List.filter (fun l => laneLives s l && (laneOf s l).pstate == 3 && (laneOf s l).cdrLock) (recLanes s) ≠ recLanes s) ∧
    (∃ (s : State), s.rst.boot.state = 2 ∧ s.rst.boot.waiting = false ∧ recReadable s = true ∧ recBad s = false ∧
      s.rst.boot.stopping = false ∧ ringsQuiet s = true ∧ recOpcode s = 5 ∧ recTiles s ≠ [] ∧
      (∀ (e : Nat × Nat), e ∈ recEntries s → entryReadable s e.snd = true) ∧
      (∀ (i : Nat), i ∈ recTiles s → linkReady s (recHead s) i = false)) ∧
    (∃ (s : State), s.rst.boot.state = 2 ∧ s.rst.boot.waiting = false ∧ recReadable s = true ∧ recBad s = false ∧
      s.rst.boot.stopping = false ∧ ringsQuiet s = true ∧ recOpcode s = 7) ∧
    (∃ (s : State), recWaits s 6 = true ∧ s.rst.boot.stopping = false) ∧
    (∃ (s : State), recWaits s 3 = true ∧ s.rst.boot.stopping = false ∧ BitVec.toNat (recWord s 1) = 12 ∧
      injHits s 54 3 = false ∧ s.glb.badParity.contains 3 = false) ∧
    (∃ (s : State) (r : Nat), timeoutReason (recOpcode s) = some r ∧ s.rst.boot.state = 2 ∧ s.rst.boot.waiting = true ∧
      s.rst.boot.stopping = false) :=
  ⟨⟨(inHand live0 0 recWrite false), by decide +kernel⟩,
   ⟨(inHand live0 0 recDoorbell false), by decide +kernel⟩,
   ⟨(inHand live0 0 recMasked false), by decide +kernel⟩,
   ⟨(inHand live0 0 (recPoll 0 0) false), .bootPoll, by decide +kernel⟩,
   ⟨(inHand live0 0 recSearch false), by decide +kernel⟩,
   ⟨(inHand live0 0 recLoad false), by decide +kernel⟩,
   ⟨(inHand live0 0 recEnd false), by decide +kernel⟩,
   ⟨(inHand live0 0 recWait true), by decide +kernel⟩,
   ⟨(inHand live0 0 (recPoll 0 0) true), by decide +kernel⟩,
   ⟨(inHand live0 0 (recPoll 0x1200 1) true), _, rfl, by decide +kernel⟩⟩

set_option maxRecDepth 100000 in
theorem witness_BootControl :
    (∃ (s : State) (b : Bus) (k : Nat), slotSelect s = some k ∧ reaches s b 0x16014 = true ∧ scriptRuns s = false ∧
      s.rst.reach = 0 ∧ lastLive s = true ∧ stopped s Head.a = true ∧ stopped s Head.b = true) ∧
    (∃ (s : State) (b : Bus), reaches s b 0x16014 = true ∧ scriptRuns s = false ∧ s.rst.reach = 0 ∧ lastLive s = true ∧
      stopped s Head.a = true ∧ stopped s Head.b = true ∧ slotSelect s = none) ∧
    (∃ (s : State) (b : Bus), reaches s b 0x16014 = true ∧
      (scriptRuns s = true ∨ s.rst.reach ≠ 0 ∨ stopped s Head.a = false ∨ stopped s Head.b = false)) ∧
    (∃ (s : State) (b : Bus), reaches s b 0x16014 = true ∧ scriptRuns s = true ∧ s.rst.boot.waiting = true ∧
      recOpcode s ≠ 3 ∧ recOpcode s ≠ 6) ∧
    (∃ (s : State) (b : Bus), reaches s b 0x16014 = true ∧ scriptRuns s = true ∧
      (s.rst.boot.waiting = false ∨ recOpcode s = 3 ∨ recOpcode s = 6)) :=
  ⟨⟨(scriptOf live0 0 [0x00010007]), Bus.pcie, _, rfl, by decide +kernel⟩,
   ⟨live0, Bus.pcie, by decide +kernel⟩,
   ⟨(running live0 .b), Bus.pcie, by decide +kernel⟩,
   ⟨(inHand live0 0 [0x00030004, 0x0028, 5] true), Bus.pcie, by decide +kernel⟩,
   ⟨scripted, Bus.pcie, by decide +kernel⟩⟩

/-- A page of EVENTLOG is being written. -/
def eventlogging (sd : Bool) : State :=
  { live0 with kps := { live0.kps with current := some (.eventlog sd ((List.range 40).map (BitVec.ofNat 8))), evtSlot := 4095 } }

/-- A fuse bit is being blown. -/
def blowing (w k : Nat) : State := { live0 with kps := { live0.kps with fuseBusy := some (w, k) } }

theorem witness_KeepingStore :
    (∃ (s : State) (sd : Bool) (r : List Byte), ringsQuiet s = true ∧ s.kps.current = some (KpsOp.eventlog sd r) ∧
      fltJudges s = true) ∧
    (∃ (s : State), lastLive s = true ∧ regBit s 0x1C000 0 = true) ∧
    (∃ (s : State) (b : Bus), reaches s b 0x1C080 = true) ∧
    (∃ (k : Nat) (s : State) (w : Nat), k < 32 ∧ lastLive s = true ∧ s.kps.fuseBusy = some (w, k) ∧ w < 128) ∧
    (∃ (s : State) (b : Bus), readReaches s b 0x1C078 = true) :=
  ⟨⟨(eventlogging true), true, (List.range 40).map (BitVec.ofNat 8), by decide +kernel⟩,
   ⟨(eventlogging true), by decide +kernel⟩,
   ⟨(eventlogging true), Bus.pcie, by decide +kernel⟩,
   ⟨31, (blowing 127 31), 127, by decide +kernel⟩,
   ⟨(eventlogging true), Bus.pcie, by decide +kernel⟩⟩

theorem witness_ServicePort :
    (∃ (s : State) (addr : Nat), aoLive s = true ∧ injArmed s 58 = false ∧ ringsIdle s = true ∧ addr % 4 = 0 ∧
      addr < 0x40000 ∧ notServed (addr / 4) = true) ∧
    (∃ (s : State) (addr : Nat), aoLive s = true ∧ injArmed s 58 = false ∧ ringsIdle s = true ∧ addr % 4 = 0 ∧
      addr < 0x40000 ∧ addr = 12 ∧ scriptRuns s = false) ∧
    (∃ (s : State), aoLive s = true ∧ injArmed s 58 = false ∧ injHits s 54 3 = false ∧ s.glb.badParity.contains 3 = false) ∧
    (∃ (s : State) (frame : List Byte), aoLive s = true ∧ frame ≠ [] ∧ byteAt frame 0 ≠ 2 ∧ byteAt frame 0 ≠ 3) ∧
    (∃ (s : State) (p : Nat), nextChecked s (65536 - s.glb.checkPos) s.glb.checkPos = some p ∧ regBit s 24 0 = true ∧
      aoLive s = true) :=
  ⟨⟨live0, 0x2000, by decide +kernel⟩,
   ⟨live0, 12, by decide +kernel⟩,
   ⟨live0, by decide +kernel⟩,
   ⟨live0, [1#8], by decide +kernel⟩,
   ⟨live0, _, rfl, by decide +kernel⟩⟩

theorem witness_StepsKeepMemoryCanonical :
    ∃ (s : State) (t : State), step s = Host.Outcome.next t ∧ memWf s = true :=
  ⟨live0, _, rfl, by decide +kernel⟩

/-! Witnesses that hold of an open value, or that need more than evaluation -/

/-- A run of values that has been written reads back whole. -/
theorem getList_putList {α : Type} [DecidableEq α] (d : Nat → α) (m : Store α) (k : Nat) (vs : List α) :
    Store.getList d (Store.putList d m k vs) k vs.length = vs := by
  refine List.ext_getElem (by simp [Store.getList]) fun i h1 h2 => ?_
  simp only [Store.getList, List.getElem_map, List.getElem_range, Store.slice]
  rw [Store.get_filter d _ (fun x => decide (k ≤ x) && decide (x < k + vs.length)) (k + i) (by simp; omega),
    Store.get_putList_in d m k vs i h2]

theorem revBits_lt (w v : Nat) : revBits w v < 2 ^ w := by
  induction w generalizing v with
  | zero => simp [revBits]
  | succ w ih =>
    have := ih (v / 2)
    have h2 : v % 2 = 0 ∨ v % 2 = 1 := by omega
    rcases h2 with h | h <;> simp only [revBits, h, Nat.pow_succ] <;> omega

theorem crc32cFold_lt (n v : Nat) (bs : List Byte) : crc32cFold n v bs < 256 ^ 4 :=
  Nat.xor_lt_two_pow (n := 32) (revBits_lt 32 _) (by decide)

/-- Twelve bytes of an image, whose last four are its password. -/
def passImage (n : Nat) : List Byte := List.replicate 8 0#8 ++ leBytes 4 n

theorem passImage_num (n : Nat) (h : n < 256 ^ 4) : imgNat (passImage n) 8 4 = n := by
  rw [show imgNat (passImage n) 8 4 = leNat (leBytes 4 n) from rfl, leNat_leBytes, Nat.mod_eq_of_lt h]

/-- An image of a password is in force. -/
def passworded (n : Nat) : State := { live0 with saf := { live0.saf with image := some (passImage n) } }

/-- The number that the part's identity and a key of zeros give, whatever the identity is. -/
def keyNumber : Nat := crc32cFold 4 (fuseOf live0 0).toNat (leBytes 4 0 ++ leBytes 4 0)

/-- A key that opens the session, and one that does not, whatever the part's identity is. -/
theorem witness_ConfigSessions_password :
    (∃ (s : State) (b : Bus) (img : List Byte), reaches s b 0x1300C = true ∧ s.saf.lockout = false ∧ s.saf.unlocked = false ∧
      s.saf.image = some img ∧ passwordOk s img = true) ∧
    (∃ (s : State) (b : Bus) (img : List Byte), reaches s b 0x1300C = true ∧ s.saf.lockout = false ∧ s.saf.unlocked = false ∧
      s.saf.image = some img ∧ passwordOk s img = false ∧ s.saf.failures < 3) := by
  refine ⟨⟨passworded keyNumber, .pcie, _, by decide +kernel, rfl, rfl, rfl,
      beq_iff_eq.2 (passImage_num keyNumber (crc32cFold_lt _ _ _))⟩,
    ⟨passworded (if keyNumber = 0 then 1 else 0), .pcie, _, by decide +kernel, rfl, rfl, rfl, ?_, by decide +kernel⟩⟩
  refine beq_false_of_ne ?_
  rw [passImage_num _ (by split <;> decide)]
  show (if keyNumber = 0 then 1 else 0) ≠ keyNumber
  split <;> omega

theorem offered_copy (s : State) (n : Nat) (hl : (goodImage n).length = 1152)
    (hs : servingSector (lastView (committing (offered s n))) 33 = some 33) :
    safecfgCopy (committing (offered s n)) 1 = goodImage n := by
  have hp : lastPieces (regionStart 2 + 4096 * 1) 1152 = [(33, 0, 1152)] := by decide +kernel
  have hd : (lastView (committing (offered s n))).kps.data = Store.putList (fun _ => 0#8) s.kps.data (4096 * 33) (goodImage n) := rfl
  have := getList_putList (fun _ => 0#8) s.kps.data (4096 * 33) (goodImage n)
  rw [hl] at this
  simp only [safecfgCopy, lastBytes, storedBytes, hp, List.flatMap_cons, List.flatMap_nil, List.append_nil, hs, hd, Nat.add_zero]
  exact this

set_option maxRecDepth 100000 in
/-- A commit whose copy passes every check. -/
theorem witness_ConfigSessions_commit :
    ∃ (s : State), ctrlLive s = true ∧ s.saf.committing = true ∧ s.saf.unlocked = true ∧ s.kps.current = some .commit ∧
      copyFault s (copyToCommit s) = none := by
  refine ⟨committing (offered (imaged live0) 5), by decide +kernel, rfl, rfl, rfl, ?_⟩
  have hc : safecfgCopy (committing (offered (imaged live0) 5)) 1 = goodImage 5 :=
    offered_copy (imaged live0) 5 (by decide +kernel) (by decide +kernel)
  have h1 : (!lastReadable (committing (offered (imaged live0) 5)) (regionStart 2 + 4096 * 1) 1152) = false := by
    decide +kernel
  have h2 : imageSound (goodImage 5) = true := by decide +kernel
  have h3 : imgNat (goodImage 5) 4 4 = (genInForce (committing (offered (imaged live0) 5)) + 1) % 2 ^ 32 := by decide +kernel
  have h4 : imageValues (goodImage 5) = true := by decide +kernel
  show copyFault _ 1 = none
  simp only [copyFault, hc, h1, h2, h3, h4]; decide

theorem spread_lt (d : Nat) (h : d = Config.coreSpread % 5) : d ∈ List.range 5 := by
  have : Config.coreSpread % 5 < 5 := Nat.mod_lt _ (by decide)
  rw [List.mem_range]; omega

/-- Head A with every tile up is asked to run. -/
def starting : State :=
  setTgState (setRegAt (linked live0 .a) (tgBase .a) (merge (regAt (linked live0 .a) (tgBase .a)) (withBit 0#32 0) 117#32)) .a 1

set_option maxRecDepth 100000 in
/-- The start holds under every down-spread of the core clock. -/
theorem starting_ok : startFail starting .a = none := by
  suffices H : ∀ s, s = starting → startFail s .a = none from H _ rfl
  intro s e
  simp only [startFail, startMemFail, budgetFail, clientNeed, fetchNeed, pixelsPerPeriod, startPlan]
  have := spread_lt _ rfl
  generalize Config.coreSpread % 5 = d at *
  subst e
  revert d
  decide +kernel

theorem witness_HeadStartStop_start :
    ∃ (s : State) (b : Bus) (h : Head) (v : Word), ringsQuiet s = true ∧ blockStopped s 1 = false ∧ reaches s b (tgBase h) = true ∧
      (h = Head.a → bit v 1 = joined s) ∧ (joined s && h == Head.b) = false ∧ stopped s h = true ∧
      startFail (setTgState (setRegAt s (tgBase h) (merge (regAt s (tgBase h)) (withBit v 0) 117#32)) h 1) h = none :=
  ⟨linked live0 .a, .pcie, .a, 0#32, by decide +kernel, by decide +kernel, by decide +kernel, by decide +kernel,
    by decide +kernel, by decide +kernel, starting_ok⟩

set_option maxRecDepth 100000 in
/-- A commit of the timing at reset passes its check under every down-spread of the core clock. -/
theorem commit_ok : commitFail (running (checkingTiming .b) .b) .b [] = none := by
  suffices H : ∀ s, s = running (checkingTiming .b) .b → commitFail s .b [] = none from H _ rfl
  intro s e
  simp only [commitFail, budgetFail, clientNeed, fetchNeed, pixelsPerPeriod, planWith]
  have := spread_lt _ rfl
  generalize Config.coreSpread % 5 = d at *
  subst e
  revert d
  decide +kernel

theorem witness_CommitOfTiming_check :
    ∃ (s : State) (h : Head) (m : Store Word), (s.tg.get h).checking = some m ∧ pixLive s = true ∧ ringsQuiet s = true ∧
      timer s h = h ∧ (s.tg.get h).commitWait = false ∧ commitFail s h m = none ∧ noCut s h = false ∧
      ltrLower s.hif.ltrLast (toleranceNow (modTg s h fun t => { t with force := m })) = false :=
  ⟨running (checkingTiming .b) .b, .b, _, rfl, by decide +kernel, by decide +kernel, by decide +kernel, by decide +kernel,
    commit_ok, by decide +kernel, by decide +kernel⟩

theorem mapped_word (s : State) (k : Nat) (h : k < 1122) :
    getReg (mapped s) (0x8400 + k) = BitVec.ofNat 32 ((if k % 2 = 0 then k / 2 % 33 else 16 - k / 66) * 40 * 65536) := by
  have hl : k < ((List.range 1122).map (fun k =>
      BitVec.ofNat 32 ((if k % 2 = 0 then k / 2 % 33 else 16 - k / 66) * 40 * 65536))).length := by simpa using h
  show Store.get regReset (Store.putList _ _ 0x8400 _) (0x8400 + k) = _
  rw [Store.get_putList_in _ _ _ _ k hl, List.getElem_map, List.getElem_range]

/-- A node of the map, by its column and row. -/
theorem mapped_node (s : State) (i j c : Nat) (hi : i < 33) (hj : j < 17) (hc : c < 2) :
    node (mapped s) .a i j c = (if c = 0 then i else 16 - j) * 40 * 65536 := by
  have hk : (0x21000 + 0x2000 * Head.idx .a + (j * 33 + i) * 8 + 4 * c) / 4 = 0x8400 + ((j * 33 + i) * 2 + c) := by
    simp only [Head.idx]; omega
  simp only [node, regAt, hk]
  rw [mapped_word s _ (by omega)]
  rcases (show c = 0 ∨ c = 1 by omega) with rfl | rfl
  · have h1 : ((j * 33 + i) * 2 + 0) % 2 = 0 := by omega
    have h2 : ((j * 33 + i) * 2 + 0) / 2 % 33 = i := by omega
    simp only [h1, h2, if_true, BitVec.toNat_ofNat]; omega
  · have h1 : ((j * 33 + i) * 2 + 1) % 2 ≠ 0 := by omega
    have h2 : ((j * 33 + i) * 2 + 1) / 66 = j := by omega
    simp only [h1, h2, if_false, BitVec.toNat_ofNat, Nat.one_ne_zero]; omega

/-- The cells of the map are rectangles, which are convex. -/
theorem mapped_convex (s : State) (i j : Nat) (hi : i < 32) (hj : j < 16) : cellConvex (mapped s) .a i j = true := by
  simp only [cellConvex, cornerCrosses, cellCorners, List.map_cons, List.map_nil, cross, List.range, List.range.loop]
  rw [mapped_node s i j 0 (by omega) (by omega) (by omega), mapped_node s i j 1 (by omega) (by omega) (by omega),
    mapped_node s (i + 1) j 0 (by omega) (by omega) (by omega), mapped_node s (i + 1) j 1 (by omega) (by omega) (by omega),
    mapped_node s (i + 1) (j + 1) 0 (by omega) (by omega) (by omega),
    mapped_node s (i + 1) (j + 1) 1 (by omega) (by omega) (by omega),
    mapped_node s i (j + 1) 0 (by omega) (by omega) (by omega), mapped_node s i (j + 1) 1 (by omega) (by omega) (by omega)]
  obtain ⟨a, ha⟩ : ∃ a, 16 - j = a + 1 := ⟨15 - j, by omega⟩
  have hb : 16 - (j + 1) = a := by omega
  simp [ha, hb, List.getD]
  have h1 (x : Int) : (x + 1) * 40 * 65536 - x * 40 * 65536 = 2621440 := by omega
  have h2 (x : Int) : x * 40 * 65536 - (x + 1) * 40 * 65536 = -2621440 := by omega
  simp only [h1, h2]; decide

/-- The map passes its check on a raster of at most 1,280 by 640 pixels. -/
theorem mapped_ok (s : State) (hw : rasterW (mapped s) .a ≤ 1280) (hv : rasterH (mapped s) .a ≤ 640)
    (hd : ¬ (shdInt (mapped s) .a 8 ≤ 0 ∨ shdInt (mapped s) .a 0x10 ≤ 0)) : mapFail (mapped s) .a = none := by
  rw [mapFail, if_neg hd, firstIdx, idxWhere, List.head?_eq_none_iff, List.filter_eq_nil_iff]
  intro k hk
  rw [List.mem_range] at hk
  have hi : k % 33 < 33 := Nat.mod_lt _ (by decide)
  have hj : k / 33 < 17 := by omega
  generalize k % 33 = i at *
  generalize k / 33 = j at *
  have n1 := mapped_node s i j 0 hi hj (by omega)
  have n2 := mapped_node s i j 1 hi hj (by omega)
  have n3 := mapped_node s (i - 1) j 0 (by omega) hj (by omega)
  have n4 := mapped_node s i (j - 1) 1 hi (by omega) (by omega)
  simp only [if_true, if_neg Nat.one_ne_zero] at n1 n2 n3 n4
  simp only [nodeFails, n1, n2, n3, n4]
  by_cases hc : i < 32 ∧ j < 16
  · simp [mapped_convex s i j hc.1 hc.2]; omega
  · have : (decide (i < 32) && decide (j < 16)) = false := by simpa using hc
    simp [this]; omega

theorem witness_MapToneHeadroom_map :
    ∃ (s : State) (b : Bus) (h : Head), reaches s b (shdBase h) = true ∧ mapFail s h = none :=
  ⟨mapped (small live0 .a), .pcie, .a, by decide +kernel,
    mapped_ok _ (by decide +kernel) (by decide +kernel) (by decide +kernel)⟩

/-- A journal that a RESUME brings back. -/
theorem witness_JournalCommands_resume :
    ∃ (s : State) (b : Bus) (j : Journal), s.rng.journal = some j ∧ reaches s b 0x3008 = true ∧ s.rng.work = [] ∧
      s.rng.journalBad = false ∧ errorsIn s [(regionBase s 9, regionSize s 9)] = [] ∧ Store.wf regReset j.regs = true :=
  ⟨journalled, .pcie, _, rfl, by decide +kernel⟩

/-- Bit 3 of fuse word 5 has been blown. -/
def blownOnce : State := { live0 with kps := { live0.kps with blown := [(5, 8#32)] } }

theorem witness_BlownFusesStayBlown :
    ∃ (s t : State) (w b : Nat), step s = .next t ∧ fuseBlown s w b = true :=
  ⟨blownOnce, _, 5, 3, rfl, by
    show (Config.fuseWord 5 ||| 8#32).getLsbD 3 = true
    rw [BitVec.getLsbD_or]; exact Bool.or_true _⟩
theorem witness_DarkLatchesStand :
    ∃ (s t : State), step s = .next t ∧ s.saf.dark.a = true :=
  ⟨{ live0 with saf := { live0.saf with dark := { a := true, b := false } } }, _, rfl, by decide +kernel⟩

/-! The spec's worked examples, and single steps worked by hand -/

/-- The check values of the four presets (14 R508). -/
theorem test_check_values :
    crc32 digits = 0xCBF43926 ∧ crc32c digits = 0xE3069283 ∧
    (crcPreset 3).map (fun p => crcFinish p (crcRun p 0 0 digits)) = some 0x29B1 ∧ crc8 digits = 0xF4 := by decide +kernel

/-- The worked service-port write of 21: the check bytes of its request and its response. -/
theorem test_service_example :
    crc8 [2#8, 0#8, 1#8, 0x30#8, 0x40#8, 0#8, 0#8, 0#8, 1#8] = 0x47 ∧ crc8 [0x5A#8, 0#8] = 0x8E := by decide +kernel

/-- That frame as a step: the heartbeat's word takes the value and the response is 5A 00 8E. -/
theorem test_step_service_write :
    (match step { live0 with pending := [.svcWrite [2#8, 0#8, 1#8, 0x30#8, 0x40#8, 0#8, 0#8, 0#8, 1#8, 0x47#8]] } with
     | .next t => decide (regAt t 0x13040 = 1#32) && decide (t.out = [.service [0x5A#8, 0#8, 0x8E#8]])
     | _ => false) = true := by decide +kernel

/-- The completion of the worked change set of 02, bytes 0 to 15. -/
theorem test_completion_bytes :
    cplBytes { ring := 1, tag := 0x0A12#16, code := 0, detail := 0, replayed := false, word := 0x105#32, fsn := 0x1F42#32,
               time := 0x8C3A51E0#32, irq := true } true
      = [0x12#8, 0x0A#8, 0x00#8, 0x80#8, 0x05#8, 0x01#8, 0#8, 0#8, 0x42#8, 0x1F#8, 0#8, 0#8, 0xE0#8, 0x51#8, 0x3A#8, 0x8C#8] := by
  decide +kernel

/-- The worked pixel of 06 in both modes. -/
theorem test_worked_pixel :
    mul16 32896 49152 = 24672 ∧ mul16 50000 24672 = 18824 ∧ mul16 (30000 + 18824) 17733 = 13211 ∧ mul16 30000 17733 = 8118 := by
  decide +kernel

/-- The rounding of the worked prediction of 05: -12.8 and 25.6 in tenths. -/
theorem test_prediction_rounding : 2048 + rhuDiv (-128) 10 = 2035 ∧ 3584 + rhuDiv 256 10 = 3610 := by decide +kernel

/-- A PTP event frame whose origin is 1,700,000,000 s and 500,000,000 ns. -/
def ptpFrame : List Byte :=
  List.replicate 12 0#8 ++ [0x88#8, 0xF7#8, 0#8, 2#8, 0#8, 44#8] ++ List.replicate 30 0#8 ++ beBytes 6 1700000000
    ++ beBytes 4 500000000

/-- The worked insertion of 11: bytes 8 to 15 of the message become 00 00 00 00 30 39 80 00, and the detail is 0. -/
theorem test_one_step_example :
    (let r := oneStep ptpFrame ((1700000000 * 10 ^ 9 + 500012345) * 65536 + 0x8000)
     decide ((r.1.drop 22).take 8 = [0#8, 0#8, 0#8, 0#8, 0x30#8, 0x39#8, 0x80#8, 0#8]) && decide (r.2 = (0, true))) = true := by
  decide +kernel

/-- A doorbell of an enabled SUBMIT ring moves the host's place (02 R66). -/
theorem test_step_doorbell :
    (match step { fetching 0 2 with pending := [.doorbell .pcie 0 true 5#32] } with
     | .next t => decide ((ringOf t 0).hostIdx = 5)
     | _ => false) = true := by decide +kernel

/-- With no command waiting a step leaves the registers and the memory alone (log 2). -/
theorem test_step_idle :
    (match step live0 with
     | .next t => decide (t.regs = live0.regs) && decide (t.mem = live0.mem) && decide (t.out = [])
     | _ => false) = true := by decide +kernel

/-- A register read is answered and takes its command alone off the queue (21 R688). -/
theorem test_step_read_front :
    (match step { live0 with pending := [.regRead 0 15 false, .linkDown] } with
     | .next t => decide (t.pending = [.linkDown]) && decide (t.out.length = 1)
     | _ => false) = true := by decide +kernel
end Sys2Proof.Tests
end

section
/-! SUPPORT. Doorbell writes that are ignored (02 R67), with what holds while no descriptor waits or executes (02 R94) and what
one assertion leaves in the collector (15 R523, R525). -/

namespace Sys2Proof.Machine

/-! ## No descriptor waits or executes (02 R94) -/

theorem work_of_ringsIdle {s : State} (h : ringsIdle s = true) : s.rng.work = [] := by
  simp only [ringsIdle, Bool.and_eq_true, List.isEmpty_iff] at h
  exact h.1

/-- With no work nothing goes on after a command. -/
theorem ringSettle_of_noWork {s : State} (h : s.rng.work = []) : ringSettle s = s := by
  unfold ringSettle
  rw [h]
  split
  · rfl
  · rfl

/-- With no work no receive buffer is posted, so that a frame is dropped (11 R423). -/
theorem rxDeliver_of_noWork {s : State} (h : s.rng.work = []) (p : Nat) (f : List Byte) (t : Stamp) :
    rxDeliver s p f t = dropNoBuf s p := by
  have hb : rxBuffer s p = none := by simp [rxBuffer, h]
  simp [rxDeliver, hb]

theorem rxFlush_of_noWork {s : State} (h : s.rng.work = []) (p : Nat) : onlyChanges [.net] s (rxFlush s p) := by
  refine foldl_inv (onlyChanges [.net] s) _ _ _ (modPort_only ..) (fun t f ht => ?_)
  have hw : t.rng.work = [] := by
    have hr : t.rng = s.rng := ht.2 .rng (by decide)
    rw [hr, h]
  rw [rxDeliver_of_noWork hw]
  exact onlyChanges_trans ht (dropNoBuf_only ..)

/-- With no work the frames that have waited change the network block alone. -/
theorem framesGo_of_noWork {s : State} (h : s.rng.work = []) (before : State) :
    onlyChanges [.net] s (framesGo before s) := by
  have h0 := rxFlush_of_noWork h 0
  have hw : (rxFlush s 0).rng.work = [] := by
    have hr : (rxFlush s 0).rng = s.rng := h0.2 .rng (by decide)
    rw [hr, h]
  exact onlyChanges_ite (onlyChanges_trans h0 (rxFlush_of_noWork hw 1)) (onlyChanges_refl _ _)

/-- The state in which a cycle of the collector has begun (log 50). -/
def inCycle (c : Option (Nat × Bool)) (s : State) : State := modFlt s (fun x => { x with cycle := c })

/-- The mark of the cycle alone is set. -/
theorem inCycle_only (c : Option (Nat × Bool)) (s : State) : onlyChanges [] s (inCycle c s) := mark_only _ _ (fun _ => rfl)

/-- What one cycle of the collector adds to what runs in it, where that leaves no work: its mark, and the network block. -/
theorem inOneCycle_of_noWork (f : State → State) (s : State) (h : ∀ c, (f (inCycle c s)).rng.work = []) :
    ∃ c, onlyChanges [.net] (f (inCycle c s)) (inOneCycle f s) := by
  obtain ⟨c, g, hg, he⟩ := oneCycle_cases (fun x => framesGo x (f x)) s
  refine ⟨c, ?_⟩
  rw [inOneCycle, he]
  exact onlyChanges_trans (framesGo_of_noWork (h c) _) (onlyChanges_mono (mark_only _ g hg) (by simp))

/-- A ring is as it was where the ring engine is no part that changes. -/
theorem ringOf_of_onlyChanges {ps : List Part} {s t : State} (h : onlyChanges ps s t) (hp : Part.rng ∉ ps) (n : Nat) :
    ringOf t n = ringOf s n := by
  have hr : t.rng = s.rng := h.2 .rng hp
  rw [ringOf, hr, ringOf]

/-- The sticky bits and the counts are as they were where the collector is no part that changes. -/
theorem sticky_counts_of_onlyChanges {ps : List Part} {s t : State} (h : onlyChanges ps s t) (hp : Part.flt ∉ ps) :
    t.flt.sticky = s.flt.sticky ∧ t.flt.counts = s.flt.counts := by
  have hf : fltCore t.flt = fltCore s.flt := h.2 .flt hp
  unfold fltCore at hf
  injection hf with hsticky _ _ _ hcounts
  exact ⟨hsticky, hcounts⟩

/-! ## One assertion in the collector (15 R523, R525) -/

/-- An assertion that the collector judges sets the source's sticky bit and counts once. -/
theorem raise_judged (s : State) (src heads detail : Nat) (h : fltJudges s = true) :
    (raise s src heads detail).flt.sticky = s.flt.sticky ||| (1#64 <<< src)
      ∧ (raise s src heads detail).flt.counts
        = Store.put (fun _ => 0) s.flt.counts src (satAdd 0xFFFF (Store.get (fun _ => 0) s.flt.counts src) 1) := by
  simp only [raise, raiseInj, h, Bool.not_true, Bool.false_eq_true, if_false, settle_fields, apply_ite State.flt, wake_fields,
    signalMsix_fields, ite_self, modFlt_fields, apply_ite Flt.sticky, apply_ite Flt.counts, assertBits, stampCore_fields, and_self]

/-! ## RING_PROTOCOL (02 R64) -/

@[simp] theorem ringOf_protocolError_same (s : State) (n : Nat) :
    ringOf (protocolError s n) n = { ringOf s n with protoErr := true } :=
  (ringOf_of_onlyChanges (raise_only ..) (by decide) n).trans (ringOf_modRing_same ..)

@[simp] theorem ringOf_protocolError_other (s : State) (n m : Nat) (h : m ≠ n) : ringOf (protocolError s n) m = ringOf s m :=
  (ringOf_of_onlyChanges (raise_only ..) (by decide) m).trans (ringOf_modRing_other _ _ _ _ h)

@[simp] theorem protocolError_work (s : State) (n : Nat) : (protocolError s n).rng.work = s.rng.work := by
  simp [protocolError]

/-- FS11 is asserted once. -/
theorem protocolError_judged (s : State) (n : Nat) (h : fltJudges s = true) :
    (protocolError s n).flt.sticky.getLsbD 11 = true
      ∧ Store.get (fun _ => 0) (protocolError s n).flt.counts 11
        = satAdd 0xFFFF (Store.get (fun _ => 0) s.flt.counts 11) 1 := by
  obtain ⟨hs, hc⟩ := raise_judged (modRing s n (fun r => { r with protoErr := true })) 11 3 0 h
  rw [protocolError, hs, hc, Store.get_put_same]
  simp

/-! ## What a port access leaves before the write (18 R610, R612) -/

@[simp] theorem portWakes_fields (b : Bus) (idx : Nat) (s : State) :
    (portWakes b idx s).regs = s.regs ∧ (portWakes b idx s).rst = s.rst
      ∧ (portWakes b idx s).pwr.domains = s.pwr.domains := by
  unfold portWakes idleExits
  dsimp only
  repeat' split
  all_goals simp

@[simp] theorem fltJudges_portWakes (b : Bus) (idx : Nat) (s : State) : fltJudges (portWakes b idx s) = fltJudges s := by
  simp [fltJudges, ctrlLive, live, domainState, blockHeld]

@[simp] theorem ringCfg_portWakes (b : Bus) (idx : Nat) (s : State) (n : Nat) :
    ringCfg (portWakes b idx s) n = ringCfg s n := by
  simp [ringCfg, regAt, getReg]

/-! ## Doorbells (02 R66, R67) -/

/-- A doorbell write that the ring does not take: it is partial, has a bit of [31:12] set, names no slot, or the ring is disabled
(02 R67). -/
def doorbellBad (s : State) (n : Nat) (v : Word) (whole : Bool) : Prop :=
  ringSize s n ≤ fld v 11 0 ∨ fld v 31 12 ≠ 0 ∨ ringEnabled s n = false ∨ whole = false

theorem doorbellWrite_of_bad {s : State} {n : Nat} {v : Word} {whole : Bool} (h : doorbellBad s n v whole) :
    doorbellWrite s n whole v = protocolError s n := by
  refine if_pos ?_
  rcases h with h | h | h | h <;> simp [h]

theorem doorbellBad_portWakes (b : Bus) (idx : Nat) (s : State) (n : Nat) (v : Word) (whole : Bool) :
    doorbellBad (portWakes b idx s) n v whole ↔ doorbellBad s n v whole := by
  simp [doorbellBad, ringSize, ringEnabled]

/-- Where the host interface serves and no boot script runs, a PCI Express write of a doorbell word reaches its ring (21 R685). -/
theorem writeThrough_doorbell (s : State) (n : Nat) (whole : Bool) (v : Word) (hl : hostLive s = true)
    (hb : scriptRuns s = false) (hn : n < 32) :
    writeThrough .pcie (0x02000 + 8 * n) whole v s = doorbellWrite (portWakes .pcie ((0x02000 + 8 * n) / 4) s) n whole v := by
  have hw : (0x02000 + 8 * n) / 4 / 1024 = 2 := by omega
  have ho : 4 * ((0x02000 + 8 * n) / 4) % 4096 = 8 * n := by omega
  have hd : inDoorbells ((0x02000 + 8 * n) / 4) = true := by simp [inDoorbells, hw]
  have hs : windowServes s ((0x02000 + 8 * n) / 4) = true := by simp [windowServes, hw, hl]
  have hk : scriptKeeps s .pcie ((0x02000 + 8 * n) / 4) = false := by simp [scriptKeeps, hb]
  simp [writeThrough, hl, portWrite, hd, hs, hk, show ¬ 0x40000 ≤ 0x02000 + 8 * n by omega, pageWrite, ho, hn, portWakes]

/-- The state as a doorbell of ring `n` comes to the ring engine, in a cycle of the collector. -/
def atDoorbell (n : Nat) (c : Option (Nat × Bool)) (s : State) : State :=
  portWakes .pcie ((0x02000 + 8 * n) / 4) (inCycle c s)

theorem atDoorbell_only (n : Nat) (c : Option (Nat × Bool)) (s : State) : onlyChanges [.pwr, .hif] s (atDoorbell n c s) :=
  onlyChanges_trans (onlyChanges_mono (inCycle_only c s) (by simp)) (portWakes_only ..)

theorem fltJudges_atDoorbell (n : Nat) (c : Option (Nat × Bool)) (s : State) : fltJudges (atDoorbell n c s) = fltJudges s :=
  fltJudges_portWakes ..

/-- In one cycle of the collector a bad doorbell does nothing but raise RING_PROTOCOL. -/
theorem writeThrough_badDoorbell {s : State} {n : Nat} {v : Word} {whole : Bool} (hl : hostLive s = true)
    (hb : scriptRuns s = false) (hn : n < 32) (h : doorbellBad s n v whole) (c : Option (Nat × Bool)) :
    writeThrough .pcie (0x02000 + 8 * n) whole v (inCycle c s) = protocolError (atDoorbell n c s) n :=
  (writeThrough_doorbell (inCycle c s) n whole v hl hb hn).trans
    (doorbellWrite_of_bad ((doorbellBad_portWakes .pcie _ (inCycle c s) n v whole).2 h))

/-- A bad doorbell while no work waits raises RING_PROTOCOL; besides, the network block alone may change, where the fault ends a
low-power state (18 R620). -/
theorem execDoorbell_bad {s : State} {n : Nat} {v : Word} {whole : Bool} (hl : hostLive s = true) (hb : scriptRuns s = false)
    (hw : s.rng.work = []) (hn : n < 32) (h : doorbellBad s n v whole) :
    ∃ c t, execDoorbell .pcie n whole v s = .next t ∧ onlyChanges [.net] (protocolError (atDoorbell n c s) n) t := by
  have hf := writeThrough_badDoorbell hl hb hn h
  have hp : ∀ c, (protocolError (atDoorbell n c s) n).rng.work = [] := fun c => by
    have hr : (atDoorbell n c s).rng = s.rng := (atDoorbell_only n c s).2 .rng (by decide)
    rw [protocolError_work, hr, hw]
  obtain ⟨c, hc⟩ := inOneCycle_of_noWork (writeThrough .pcie (0x02000 + 8 * n) whole v) s (fun c => by rw [hf, hp])
  rw [hf] at hc
  have ht : (inOneCycle (writeThrough .pcie (0x02000 + 8 * n) whole v) s).rng.work = [] :=
    (congrArg Rng.work (hc.2 .rng (by decide))).trans (hp c)
  refine ⟨c, _, ?_, hc⟩
  rw [execDoorbell, Nat.mod_eq_of_lt hn, busWrite, ringSettle_of_noWork ht]

/-- Settles O5: the write ends in `protocolError`, whose assertion leaves the rings alone, and the frames that a wake may let go
find no receive buffer posted. -/
theorem badDoorbellsAreIgnored : Obligations.BadDoorbellsAreIgnored := by
  intro s n v whole hl hb hi hn h
  obtain ⟨c, t, he, ht⟩ := execDoorbell_bad hl hb (work_of_ringsIdle hi) hn h
  have hring := ringOf_of_onlyChanges ht (by decide)
  have hbefore := ringOf_of_onlyChanges (atDoorbell_only n c s) (by decide)
  have hsame : ringOf t n = { ringOf s n with protoErr := true } := by
    rw [hring, ringOf_protocolError_same, hbefore]
  refine ⟨t, he, by rw [hsame], hsame, fun m hm => ?_, fun hj => ?_⟩
  · rw [hring, ringOf_protocolError_other _ _ _ hm, hbefore]
  · obtain ⟨hsticky, hcounts⟩ := sticky_counts_of_onlyChanges ht (by decide)
    obtain ⟨-, hbase⟩ := sticky_counts_of_onlyChanges (atDoorbell_only n c s) (by decide)
    rw [hsticky, hcounts, ← hbase]
    exact protocolError_judged _ n ((fltJudges_atDoorbell ..).trans hj)

end Sys2Proof.Machine
end

section
/-! SUPPORT. The fields of a word that has bits replaced (00 R9, R12), and what a preset code written to a context's
configuration leaves in the context's registers (14 R512, R521). -/

namespace Sys2Proof.Machine

/-! ## Bits and fields of a word (00 R9) -/

theorem testBit_fld (w : Word) (hi lo i : Nat) : (fld w hi lo).testBit i = (decide (i < hi + 1 - lo) && bit w (lo + i)) := by
  simp [fld, bit, Nat.testBit_mod_two_pow, Nat.testBit_div_two_pow, BitVec.testBit_toNat, Nat.add_comm]

/-- A field is given by its bits. -/
theorem fld_congr {v w : Word} {hi lo : Nat} (h : ∀ i, lo ≤ i → i ≤ hi → bit v i = bit w i) : fld v hi lo = fld w hi lo := by
  refine Nat.eq_of_testBit_eq fun i => ?_
  rw [testBit_fld, testBit_fld]
  by_cases hi' : i < hi + 1 - lo
  · rw [h (lo + i) (by omega) (by omega)]
  · simp [hi']

theorem bit_or (v w : Word) (i : Nat) : bit (v ||| w) i = (bit v i || bit w i) := BitVec.getLsbD_or

theorem bit_and (v w : Word) (i : Nat) : bit (v &&& w) i = (bit v i && bit w i) := BitVec.getLsbD_and

theorem bit_not (v : Word) (i : Nat) : bit (~~~v) i = (decide (i < 32) && !bit v i) := BitVec.getLsbD_not

theorem bit_of_le (v : Word) {i : Nat} (h : 32 ≤ i) : bit v i = false := BitVec.getLsbD_of_ge v i h

theorem bit_merge (old new m : Word) (i : Nat) : bit (merge old new m) i = if bit m i then bit new i else bit old i := by
  by_cases hi : i < 32
  · cases h : bit m i <;> simp [merge, bit_or, bit_and, bit_not, h, hi]
  · simp [bit_of_le _ (not_lt.1 hi)]

/-- A field outside the mask stays. -/
theorem fld_merge_of_clear {old new m : Word} {hi lo : Nat} (h : ∀ i, lo ≤ i → i ≤ hi → bit m i = false) :
    fld (merge old new m) hi lo = fld old hi lo :=
  fld_congr fun i hl hh => by simp [bit_merge, h i hl hh]

/-- A field within the mask is replaced. -/
theorem fld_merge_of_set {old new m : Word} {hi lo : Nat} (h : ∀ i, lo ≤ i → i ≤ hi → bit m i = true) :
    fld (merge old new m) hi lo = fld new hi lo :=
  fld_congr fun i hl hh => by simp [bit_merge, h i hl hh]

/-- A field within a mask is kept by it. -/
theorem fld_and_of_set {v m : Word} {hi lo : Nat} (h : ∀ i, lo ≤ i → i ≤ hi → bit m i = true) : fld (v &&& m) hi lo = fld v hi lo :=
  fld_congr fun i hl hh => by simp [bit_and, h i hl hh]

/-- A field outside a mask is cleared by it. -/
theorem fld_and_of_clear {v m : Word} {hi lo : Nat} (h : ∀ i, lo ≤ i → i ≤ hi → bit m i = false) : fld (v &&& m) hi lo = 0 := by
  have h0 : fld (v &&& m) hi lo = fld 0#32 hi lo := fld_congr fun i hl hh => by
    have h0 : bit 0#32 i = false := BitVec.getLsbD_zero
    rw [bit_and, h i hl hh, Bool.and_false, h0]
  exact h0.trans (by simp [fld])

theorem bit_at (lo v i : Nat) : bit (at_ lo v) i = (decide (i < 32) && (decide (lo ≤ i) && v.testBit (i - lo))) := by
  simp [bit, at_, BitVec.getLsbD_ofNat, Nat.testBit_mul_two_pow]

theorem bit_bitAt {j i : Nat} (b : Bool) (hi : i < 32) : bit (bitAt j b) i = (decide (i = j) && b) := by
  have hb : (b2n b).testBit (i - j) = (decide (0 = i - j) && b) := by
    cases b with
    | false => simp [b2n]
    | true => simpa [b2n] using Nat.testBit_two_pow (n := 0) (m := i - j)
  have hij : (decide (j ≤ i) && decide (0 = i - j)) = decide (i = j) := by grind
  rw [bitAt, bit_at, hb, ← Bool.and_assoc (decide (j ≤ i)), hij, decide_eq_true hi, Bool.true_and]

/-! ## Registers -/

theorem regAt_setRegAt_same (s : State) (v : Word) {a a' : Nat} (h : a' / 4 = a / 4) : regAt (setRegAt s a v) a' = v := by
  rw [regAt, setRegAt, h, getReg_setReg_same]

theorem regAt_setRegAt_other (s : State) (v : Word) {a a' : Nat} (h : a' / 4 ≠ a / 4) : regAt (setRegAt s a v) a' = regAt s a' :=
  getReg_setReg_other s (a / 4) (a' / 4) v h

theorem regAt_of_onlyChanges {ps : List Part} {s t : State} (h : onlyChanges ps s t) (hp : Part.regs ∉ ps) (a : Nat) :
    regAt t a = regAt s a := by
  obtain ⟨hr, -⟩ := h.2 .regs hp
  rw [regAt, getReg, hr, regAt, getReg]

/-- A served write: the port's own part before what the word's window does, and the port's own part after it. -/
theorem ran_split {b : Bus} {idx : Nat} {f : State → State} {s t : State} (h : ran b idx f s t) :
    ∃ u, onlyChanges [.pwr, .hif, .glb] s u ∧ onlyChanges [.out, .free, .pwr, .rng, .hif, .net, .glb] (f u) t := by
  obtain ⟨c, g, hg, rfl⟩ := h
  refine ⟨freshParity (portWakes b idx (inCycle c s)) idx, ?_, ?_⟩
  · refine onlyChanges_trans (onlyChanges_mono (inCycle_only c s) (by simp)) ?_
    refine onlyChanges_trans (onlyChanges_mono (portWakes_only b idx _) (by simp)) ?_
    exact onlyChanges_mono (freshParity_only ..) (by simp)
  · refine onlyChanges_trans (onlyChanges_mono (answered_only b _) (by simp)) ?_
    refine onlyChanges_trans ?_ (onlyChanges_mono (mark_only _ g hg) (by simp))
    exact onlyChanges_mono (framesGo_only ..) (by simp +contextual)

/-! ## A context's configuration (14 R521) -/

/-- What the fields of a written word other than the preset make of a configuration that held `old`: the reserved fields and the
preset read as zero, and a fold_len above 4 is not taken (00 R12). -/
def cfgTaken (old v : Word) : Word := keepBad [⟨14, 12, [(0, 4)]⟩] old (v &&& 0x733F#32)

theorem cfgTaken_eq (old v : Word) :
    cfgTaken old v = if fld v 14 12 ≤ 4 then v &&& 0x733F#32 else merge (v &&& 0x733F#32) old (mask 14 12) := by
  have hv : fld (v &&& 0x733F#32) 14 12 = fld v 14 12 := fld_and_of_set (by decide)
  simp [cfgTaken, keepBad, Lim.holds, hv]

theorem foldLen_cfgTaken (old v : Word) : fld (cfgTaken old v) 14 12 = if fld v 14 12 ≤ 4 then fld v 14 12 else fld old 14 12 := by
  rw [cfgTaken_eq]
  split
  · exact fld_and_of_set (by decide)
  · exact fld_merge_of_set (by decide)

theorem preset_cfgTaken (old v : Word) : fld (cfgTaken old v) 18 16 = 0 := by
  have hv : fld (v &&& 0x733F#32) 18 16 = 0 := fld_and_of_clear (by decide)
  rw [cfgTaken_eq]
  split
  · exact hv
  · rw [fld_merge_of_clear (by decide), hv]

/-- The width and the reflections of a preset as the configuration holds them. -/
def presetCfg (p : CrcParams) : Word := at_ 0 p.w ||| bitAt 8 p.refin ||| bitAt 9 p.refout

theorem bit_presetCfg (p : CrcParams) {i : Nat} (hi : i < 32) :
    bit (presetCfg p) i = (p.w.testBit i || (decide (i = 8) && p.refin) || (decide (i = 9) && p.refout)) := by
  simp [presetCfg, bit_or, bit_at, bit_bitAt, hi]

/-- The parameters fit the fields that hold them (14 R520, R521). -/
def CrcParams.fits (p : CrcParams) : Prop := p.w < 2 ^ 6 ∧ p.poly < 2 ^ 32 ∧ p.init < 2 ^ 32 ∧ p.xorout < 2 ^ 32

theorem fits_of_crcPreset {n : Nat} {p : CrcParams} (h : crcPreset n = some p) : p.fits := by
  unfold crcPreset at h
  split at h
  case h_5 => contradiction
  all_goals
    cases h
    simp [CrcParams.fits]

theorem width_presetCfg {p : CrcParams} (h : p.w < 2 ^ 6) : fld (presetCfg p) 5 0 = p.w := by
  refine Nat.eq_of_testBit_eq fun i => ?_
  rw [testBit_fld]
  by_cases hi : i < 6
  · have h8 : i ≠ 8 := by omega
    have h9 : i ≠ 9 := by omega
    simp [bit_presetCfg p (show i < 32 by omega), hi, h8, h9]
  · have hw : p.w.testBit i = false := Nat.testBit_lt_two_pow (h.trans_le (Nat.pow_le_pow_right (by decide) (by omega)))
    simp [hi, hw]

theorem refin_presetCfg {p : CrcParams} (h : p.w < 2 ^ 6) : bit (presetCfg p) 8 = p.refin := by
  have hw : p.w.testBit 8 = false := Nat.testBit_lt_two_pow (h.trans (by decide))
  simp [bit_presetCfg, hw]

theorem refout_presetCfg {p : CrcParams} (h : p.w < 2 ^ 6) : bit (presetCfg p) 9 = p.refout := by
  have hw : p.w.testBit 9 = false := Nat.testBit_lt_two_pow (h.trans (by decide))
  simp [bit_presetCfg, hw]

/-! ## The load (14 R512) -/

theorem regAt_crcLoad_cfg (s : State) (c : Nat) (p : CrcParams) :
    regAt (crcLoad s c p) (crcBase c) = merge (regAt s (crcBase c)) (presetCfg p) 0x33F#32 := by
  simp (disch := omega) only [crcLoad, crcBase, regAt_setRegAt_same, regAt_setRegAt_other, presetCfg]

theorem regAt_crcLoad_poly (s : State) (c : Nat) (p : CrcParams) :
    regAt (crcLoad s c p) (crcBase c + 4) = BitVec.ofNat 32 p.poly := by
  simp (disch := omega) only [crcLoad, crcBase, regAt_setRegAt_same, regAt_setRegAt_other]

theorem regAt_crcLoad_init (s : State) (c : Nat) (p : CrcParams) :
    regAt (crcLoad s c p) (crcBase c + 8) = BitVec.ofNat 32 p.init := by
  simp (disch := omega) only [crcLoad, crcBase, regAt_setRegAt_same, regAt_setRegAt_other]

theorem regAt_crcLoad_xorout (s : State) (c : Nat) (p : CrcParams) :
    regAt (crcLoad s c p) (crcBase c + 0xC) = BitVec.ofNat 32 p.xorout := by
  simp (disch := omega) only [crcLoad, crcBase, regAt_setRegAt_same]

/-- The load writes the four words of the context's parameters and no other. -/
theorem regAt_crcLoad_other (s : State) (c : Nat) (p : CrcParams) {a : Nat} (h : a < crcBase c ∨ crcBase c + 0x10 ≤ a) :
    regAt (crcLoad s c p) a = regAt s a := by
  simp only [crcBase] at h
  simp (disch := omega) only [crcLoad, crcBase, regAt_setRegAt_other]

theorem crcParamsOf_crcLoad_same (s : State) (c : Nat) {p : CrcParams} (h : p.fits) : crcParamsOf (crcLoad s c p) c = p := by
  obtain ⟨hw, hpoly, hinit, hxorout⟩ := h
  have hwidth : regFld (crcLoad s c p) (crcBase c) 5 0 = p.w := by
    rw [regFld, regAt_crcLoad_cfg, fld_merge_of_set (by decide), width_presetCfg hw]
  have hrefin : regBit (crcLoad s c p) (crcBase c) 8 = p.refin := by
    rw [regBit, regAt_crcLoad_cfg, bit_merge, if_pos (by decide), refin_presetCfg hw]
  have hrefout : regBit (crcLoad s c p) (crcBase c) 9 = p.refout := by
    rw [regBit, regAt_crcLoad_cfg, bit_merge, if_pos (by decide), refout_presetCfg hw]
  simp only [crcParamsOf, hwidth, hrefin, hrefout, regAt_crcLoad_poly, regAt_crcLoad_init, regAt_crcLoad_xorout,
    BitVec.toNat_ofNat, Nat.mod_eq_of_lt hpoly, Nat.mod_eq_of_lt hinit, Nat.mod_eq_of_lt hxorout]

/-- A context's parameters are read of its own words alone. -/
theorem crcParamsOf_congr {s t : State} {k : Nat} (h : ∀ a, crcBase k ≤ a → a < crcBase k + 0x10 → regAt t a = regAt s a) :
    crcParamsOf t k = crcParamsOf s k := by
  simp (disch := omega) only [crcParamsOf, regFld, regBit, h]

/-- A write of a preset code to a context that no job holds: its other fields are taken first, and the preset second. -/
theorem writeCrcCfg_preset {s : State} {c : Nat} {v : Word} {p : CrcParams} (hh : crcHeld s c = false)
    (hp : crcPreset (fld v 18 16) = some p) :
    writeCrcCfg s c v = crcLoad (setRegAt s (crcBase c) (cfgTaken (regAt s (crcBase c)) v)) c p := by
  simp [writeCrcCfg, hh, hp, cfgTaken]

section
variable {s : State} {c : Nat} {v : Word} {p : CrcParams} (hh : crcHeld s c = false) (hp : crcPreset (fld v 18 16) = some p)
include hh hp

theorem writeCrcCfg_preset_only : onlyChanges [.regs] s (writeCrcCfg s c v) := by
  rw [writeCrcCfg_preset hh hp]
  exact onlyChanges_trans (setRegAt_only ..) (crcLoad_only ..)

theorem crcParamsOf_writeCrcCfg_preset : crcParamsOf (writeCrcCfg s c v) c = p := by
  rw [writeCrcCfg_preset hh hp, crcParamsOf_crcLoad_same _ _ (fits_of_crcPreset hp)]

theorem regAt_writeCrcCfg_preset :
    regAt (writeCrcCfg s c v) (crcBase c) = merge (cfgTaken (regAt s (crcBase c)) v) (presetCfg p) 0x33F#32 := by
  rw [writeCrcCfg_preset hh hp, regAt_crcLoad_cfg, regAt_setRegAt_same _ _ rfl]

theorem foldLen_writeCrcCfg_preset :
    regFld (writeCrcCfg s c v) (crcBase c) 14 12 = if fld v 14 12 ≤ 4 then fld v 14 12 else regFld s (crcBase c) 14 12 := by
  rw [regFld, regAt_writeCrcCfg_preset hh hp, fld_merge_of_clear (by decide), foldLen_cfgTaken, regFld]

theorem preset_writeCrcCfg_preset : regFld (writeCrcCfg s c v) (crcBase c) 18 16 = 0 := by
  rw [regFld, regAt_writeCrcCfg_preset hh hp, fld_merge_of_clear (by decide), preset_cfgTaken]

/-- No word outside the context's parameters changes. -/
theorem regAt_writeCrcCfg_preset_other {a : Nat} (h : a < crcBase c ∨ crcBase c + 0x10 ≤ a) :
    regAt (writeCrcCfg s c v) a = regAt s a := by
  rw [writeCrcCfg_preset hh hp, regAt_crcLoad_other _ _ _ h]
  refine regAt_setRegAt_other _ _ ?_
  simp only [crcBase] at h ⊢
  omega

theorem crcParamsOf_writeCrcCfg_preset_other {k : Nat} (hk : k ≠ c) :
    crcParamsOf (writeCrcCfg s c v) k = crcParamsOf s k := by
  refine crcParamsOf_congr fun a hl hu => regAt_writeCrcCfg_preset_other hh hp ?_
  simp only [crcBase] at hl hu ⊢
  omega

end

theorem crcHeld_of_onlyChanges {ps : List Part} {s t : State} (h : onlyChanges ps s t) (hp : Part.rng ∉ ps) (c : Nat) :
    crcHeld t c = crcHeld s c := by
  have hr : t.rng = s.rng := h.2 .rng hp
  rw [crcHeld, hr, crcHeld]

/-- Settles O8: the word's own write loads the preset over the other fields taken, and what the port does before and after it
leaves the registers and the check units alone. -/
theorem presetsLoadParameters : Obligations.PresetsLoadParameters := by
  intro s b c v p hc hr hh hp
  obtain ⟨t, he, hran⟩ := writeAlone_ran s b (crcBase c) v (fun u => writeCrcCfg u c v) hr (by rw [crcBase]; omega)
    (open_crcPreset s c hc) (fun u => route_crcPreset u c v hc)
  obtain ⟨u, hbefore, hafter⟩ := ran_split hran
  have hregs0 := regAt_of_onlyChanges hbefore (by decide)
  have hregs1 := regAt_of_onlyChanges hafter (by decide)
  have hparams0 : ∀ k, crcParamsOf u k = crcParamsOf s k := fun k => crcParamsOf_congr fun a _ _ => hregs0 a
  have hparams1 : ∀ k, crcParamsOf t k = crcParamsOf (writeCrcCfg u c v) k := fun k => crcParamsOf_congr fun a _ _ => hregs1 a
  have hheld : crcHeld u c = false := (crcHeld_of_onlyChanges hbefore (by decide) c).trans hh
  have hfold := foldLen_writeCrcCfg_preset hheld hp
  have hpreset := preset_writeCrcCfg_preset hheld hp
  simp only [regFld, hregs0] at hfold hpreset
  refine ⟨t, ?_, ?_, ?_, ?_, ?_, ?_, fun k hk => ?_⟩
  · rw [← he, exec, execPresetLoad, Nat.mod_eq_of_lt hc]
  · rw [hparams1, crcParamsOf_writeCrcCfg_preset hheld hp]
  · rw [regFld, hregs1, hfold, regFld]
  · rw [hregs1, regAt_writeCrcCfg_preset_other hheld hp (Or.inr le_rfl), hregs0]
  · rw [regFld, hregs1, hpreset]
  · have hcrc0 : u.crc = s.crc := hbefore.2 .crc (by decide)
    have hcrc : (writeCrcCfg u c v).crc = u.crc := (writeCrcCfg_preset_only hheld hp).2 .crc (by decide)
    have hcrc1 : t.crc = (writeCrcCfg u c v).crc := hafter.2 .crc (by decide)
    rw [hcrc1, hcrc, hcrc0]
  · rw [hparams1, crcParamsOf_writeCrcCfg_preset_other hheld hp hk, hparams0]

end Sys2Proof.Machine
end

section
/-! SUPPORT. A register write whose word leaves the low-power state alone lets no frame go (18 R620), and a write of RST_BLOCK
while a release sequence or the boot script runs (19 R645). -/

namespace Sys2Proof.Machine

/-! ## Frames that wait stay where no low-power state ends (18 R620) -/

theorem framesGo_of_not_ended {before s : State} (h : s.pwr.state < 2 → before.pwr.state < 2) : framesGo before s = s :=
  if_neg fun ⟨hb, hs⟩ => absurd (h hs) (by omega)

/-- What breaks the idle conditions ends IDLE alone: DOZE, SLEEP and OFF stay (18 R612, R614). -/
theorem idleExits_state_lt_two (s : State) : (idleExits s).pwr.state < 2 ↔ s.pwr.state < 2 := by
  unfold idleExits
  split
  · next h => simp [h]
  · rfl

theorem portWakes_state_lt_two (b : Bus) (idx : Nat) (s : State) :
    (portWakes b idx s).pwr.state < 2 ↔ s.pwr.state < 2 := by
  have hlink : (if b == .pcie then linkWakes s else s).pwr = s.pwr := by split <;> rfl
  unfold portWakes
  dsimp only
  split
  · rw [hlink]
  · rw [idleExits_state_lt_two, hlink]

/-- The state as a served write of word `idx` comes to its window, in a cycle of the collector. -/
def atWindow (b : Bus) (idx : Nat) (c : Option (Nat × Bool)) (s : State) : State :=
  freshParity (portWakes b idx (inCycle c s)) idx

theorem atWindow_only (b : Bus) (idx : Nat) (c : Option (Nat × Bool)) (s : State) :
    onlyChanges [.pwr, .hif, .glb] s (atWindow b idx c s) := by
  refine onlyChanges_trans (onlyChanges_mono (inCycle_only c s) (by simp)) ?_
  refine onlyChanges_trans (onlyChanges_mono (portWakes_only b idx _) (by simp)) ?_
  exact onlyChanges_mono (freshParity_only ..) (by simp)

theorem atWindow_state_lt_two (b : Bus) (idx : Nat) (c : Option (Nat × Bool)) (s : State) :
    (atWindow b idx c s).pwr.state < 2 ↔ s.pwr.state < 2 :=
  portWakes_state_lt_two b idx (inCycle c s)

/-- A served write whose window leaves the device's power state alone: after it the port answers, and no frame goes. -/
theorem ran_split_of_pwr {b : Bus} {idx : Nat} {f : State → State} {s t : State} (h : ran b idx f s t)
    (hf : ∀ u, onlyChanges [.pwr, .hif, .glb] s u → (f u).pwr = u.pwr) :
    ∃ u, onlyChanges [.pwr, .hif, .glb] s u ∧ onlyChanges [.out] (f u) t := by
  obtain ⟨c, g, hg, rfl⟩ := h
  have hu := atWindow_only b idx c s
  have hpwr : (answered b (f (atWindow b idx c s))).pwr = (atWindow b idx c s).pwr := by simp [hf _ hu]
  have hstay : framesGo (inCycle c s) (answered b (f (atWindow b idx c s))) = answered b (f (atWindow b idx c s)) :=
    framesGo_of_not_ended fun hs => (atWindow_state_lt_two b idx c s).1 (hpwr ▸ hs)
  refine ⟨atWindow b idx c s, hu, onlyChanges_trans (answered_only b _) ?_⟩
  exact hstay.symm ▸ onlyChanges_mono (mark_only _ g hg) (by simp)

/-! ## RST_BLOCK during a sequence (19 R645) -/

theorem sequencing_iff (s : State) : sequencing s = true ↔ s.rst.reach ≠ 0 ∨ scriptRuns s = true := by
  simp [sequencing, scriptRuns, or_assoc]

theorem sequencing_of_onlyChanges {ps : List Part} {s t : State} (h : onlyChanges ps s t) (hp : Part.rst ∉ ps) :
    sequencing t = sequencing s := by
  have hr : t.rst = s.rst := h.2 .rst hp
  rw [sequencing, hr, sequencing]

/-- The write is refused whatever blocks it names. -/
theorem writeRstBlock_of_sequencing {s : State} (h : sequencing s = true) (v : Word) :
    writeRstBlock s v = modRst s (fun r => { r with blockRefused := true }) := if_pos h

/-- Settles O6: the window sets `block_refused` alone, so that the device's power state stays and no frame that waits goes, and
with no work no descriptor goes on after the command. -/
theorem blockResetsWaitForSequences : Obligations.BlockResetsWaitForSequences := by
  intro s b v hr hi hs
  have href : ∀ u, onlyChanges [.pwr, .hif, .glb] s u →
      writeRstBlock u v = modRst u (fun r => { r with blockRefused := true }) := fun u hu =>
    writeRstBlock_of_sequencing ((sequencing_of_onlyChanges hu (by decide)).trans ((sequencing_iff s).2 hs)) v
  obtain ⟨t, he, hran⟩ := writeSettles_ran s b 0x16008 v (fun u => writeRstBlock u v) hr (by decide) (open_rstBlock s)
    (fun u => route_rstBlock u v)
  obtain ⟨u, hbefore, hafter⟩ := ran_split_of_pwr hran (fun u hu => by simp [href u hu])
  rw [href u hbefore] at hafter
  have honly : onlyChanges [.out, .hif, .glb, .rst, .pwr] s t :=
    onlyChanges_trans (onlyChanges_mono hbefore (by simp))
      (onlyChanges_trans (onlyChanges_mono (modRst_only ..) (by simp)) (onlyChanges_mono hafter (by simp)))
  have hwork : t.rng.work = [] := (congrArg Rng.work (honly.2 .rng (by decide))).trans (work_of_ringsIdle hi)
  refine ⟨t, ?_, ?_, honly⟩
  · rw [exec, execBlockReset, he, ringSettle_of_noWork hwork]
  · have hrst0 : u.rst = s.rst := hbefore.2 .rst (by decide)
    have hrst1 : t.rst = { u.rst with blockRefused := true } := hafter.2 .rst (by decide)
    rw [hrst1, hrst0]

end Sys2Proof.Machine
end

section
/-! SUPPORT. What every command keeps: the canonical form of the light memory (03 R105, R106) and the blown fuse bits (20
R680). -/

namespace Sys2Proof.Machine

/-- From `s` to `t` the canonical form of the light memory and every blown fuse bit are kept. -/
def keepsBoth (s t : State) : Prop := keepsForm s t ∧ keepsFuses s t

theorem keeps_refl (s : State) : keepsBoth s s := ⟨wf_refl s, blown_refl s⟩

theorem keeps_trans {s t u : State} (h1 : keepsBoth s t) (h2 : keepsBoth t u) : keepsBoth s u :=
  ⟨wf_trans h1.1 h2.1, blown_trans h1.2 h2.2⟩

theorem keeps_ite {s a b : State} {c : Prop} [Decidable c] (ha : keepsBoth s a) (hb : keepsBoth s b) :
    keepsBoth s (if c then a else b) := by split <;> assumption

theorem keeps_when {s a : State} {c : Prop} [Decidable c] (h : keepsBoth s a) : keepsBoth s (if c then a else s) :=
  keeps_ite h (keeps_refl s)

/-- A change that reaches neither the light memory nor the keeping store keeps both. -/
theorem keeps_of_only {ps : List Part} {s t : State} (h : onlyChanges ps s t) (hm : ps.contains .mem = false)
    (hk : ps.contains .kps = false) : keepsBoth s t := ⟨wf_of h hm, blown_of h hk⟩

theorem keeps_foldl {α : Type} {f : State → α → State} (h : ∀ u a, keepsBoth u (f u a)) {s : State} {l : List α} :
    keepsBoth s (l.foldl f s) := by
  induction l generalizing s with
  | nil => exact keeps_refl s
  | cons a l ih => exact keeps_trans (h s a) ih

theorem keeps_cycle {f : State → State} (h : ∀ u, keepsBoth u (f u)) {s : State} : keepsBoth s (inOneCycle f s) :=
  ⟨inOneCycle_wf (fun u => (h u).1) rfl, inOneCycle_blown (fun u => (h u).2) rfl⟩

/-- What the rings' work does after a command keeps both. -/
theorem keeps_settle {s t : State} (h : keepsBoth s t) : keepsBoth s (ringSettle t) :=
  keeps_trans h ⟨wf_of (ringSettle_only t) rfl, ringSettle_blown t⟩

/-- A record of the boot script keeps both where its action does; a record that cannot be read or is bad ends the script. -/
theorem keeps_record {act : State → State} (h : ∀ u, keepsBoth u (act u)) {s : State} {opcode : Nat} :
    keepsBoth s (recBegins s opcode act) := by
  have hf : ∀ u r, keepsBoth u (scriptFails u r) := fun u r => ⟨wf_of (scriptFails_only u r) rfl, scriptFails_blown u r⟩
  have ht : ∀ u a n, keepsBoth u (lastTouch u a n) := fun u a n => ⟨wf_of (lastTouch_only u a n) rfl, lastTouch_blown u a n⟩
  unfold recBegins
  exact keeps_ite (keeps_refl s) (keeps_ite (keeps_trans (ht ..) (hf ..)) (keeps_ite (hf ..) (keeps_when (h s))))

theorem keeps_next {s t : State} (h : keepsBoth s t) : ∃ u, (.next t : Answer) = .next u ∧ keepsBoth s u := ⟨t, rfl, h⟩

theorem keeps_write {b : Bus} {a : Nat} {v : Word} {s : State} : ∃ t, writeAlone b a v s = .next t ∧ keepsBoth s t :=
  keeps_next ⟨busWrite_wf _ _ _ _ _, busWrite_blown _ _ _ _ _⟩

theorem keeps_settledWrite {b : Bus} {a : Nat} {v : Word} {s : State} :
    ∃ t, writeSettles b a v s = .next t ∧ keepsBoth s t :=
  keeps_next (keeps_settle ⟨busWrite_wf _ _ _ _ _, busWrite_blown _ _ _ _ _⟩)

theorem keeps_fetch {s : State} {n : Nat} {d : Desc} {data : HostRead} :
    ∃ t, (Host.Outcome.next (fetchDesc s n d data) : Answer) = .next t ∧ keepsBoth s t :=
  keeps_next ⟨wf_of (fetchDesc_only ..) rfl, fetchDesc_blown _ _ _ _⟩

/-- One cycle of the TIME domain counts powered and lit seconds, and blows and unblows no fuse (11 R430, 20 R672). -/
theorem keeps_tick (s : State) : keepsBoth s (tick s) := ⟨wf_of (tick_only s) rfl, tick_blown s⟩

/-- Every command goes on and keeps both. -/
theorem exec_keeps (c : Instr) (s : State) : ∃ t, exec c s = .next t ∧ keepsBoth s t := by
  cases c with
  | budgetWrite | regionWrite | scrubEnable | scrubDisable | tgCommit | mapCheck | shadowDisable | toneSwap | headroomWrite
    | ageWrite | healthClear | doseCkptNow | slipStart | lanePstate | clearCounts | requestStatus | requestTest |
    requestUnconfig | forwardRequest | forwardReturn | netPortEnable | netPortDisable | mdioWrite | mdioRead | timeSet |
    timeStep | timeSlew | timeCancel | timeDiscipline | incrementApply | holdWrite | triggerArm | triggerDisable | loopEnable
    | loopDisable | loopClear | loopCommit | setpointWrite | lenWrite | laceCommit | laceDisable | presetLoad | stickyClear |
    counterClear | firstFaultClear | severityWrite | injectArm | heartbeatWrite | unlockOpen | unlockCommit | unlockAbandon |
    hkDisable | pwrDoze | pwrSleep | pwrOff | pwrRun | softwareWarm | softwareCold | softwareHost | bootRun | bootStop |
    fuseProgram =>
    exact keeps_write ..
  | ringEnable | ringDisable | ringEngineEnable | ringEngineDisable | journalResume | journalForget | headStart | headStop |
    blockReset =>
    exact keeps_settledWrite ..
  | nop | layerSet | layerData | commit | objects | calUpload | lastWrite | crcJob | laceFrame | netTx | netRxBuf |
    queryReadRegister | queryApproveProposal | queryDeclineProposal | fence | abort =>
    exact keeps_fetch ..
  | regWrite | doorbell => exact keeps_next <| keeps_settle ⟨busWrite_wf _ _ _ _ _, busWrite_blown _ _ _ _ _⟩
  | paramBlockReadDone => exact keeps_next <| keeps_cycle fun _ => keeps_settle (keeps_of_only (blockRead_only ..) rfl rfl)
  | layerDataTransferEnd =>
    exact keeps_next <| keeps_cycle fun _ => keeps_settle ⟨transferEnd_wf _ _ _ _ _, transferEnd_blown _ _ _ _ _⟩
  | objectsListReadDone =>
    exact keeps_next <| keeps_cycle fun _ => keeps_when (keeps_settle (keeps_of_only (listReadDone_only ..) rfl rfl))
  | calUploadValidated => exact keeps_next <| keeps_cycle fun _ => keeps_settle (keeps_of_only (calRead_only ..) rfl rfl)
  | calMergeEnd => exact keeps_next <| keeps_cycle fun _ => keeps_settle ⟨calMergeEnds_wf _, calMergeEnds_blown _⟩
  | crcJobEnd => exact keeps_next <| keeps_cycle fun _ => keeps_settle (keeps_of_only (crcJobEnds_only ..) rfl rfl)
  | ltrHoldoffExpiry =>
    exact keeps_next <| keeps_when (keeps_settle (keeps_trans (keeps_of_only (ltrExpiry_only ..) rfl rfl) (keeps_of_only
      (commitsAfterLtr_only ..) rfl rfl)))
  | irqCoalesceTimeout => exact keeps_next (keeps_ite (keeps_of_only (ringSignal_only ..) rfl rfl) (keeps_refl _))
  | pcieAerUncorr => exact keeps_next <| keeps_cycle fun _ => keeps_when (keeps_of_only (raise_only ..) rfl rfl)
  | budgetPeriodStart => exact keeps_next <| keeps_cycle fun _ => keeps_when ⟨periodStart_wf _ _ _, periodStart_blown _ _ _⟩
  | eccWriteback => exact keeps_next <| keeps_cycle fun _ => keeps_when (keeps_of_only (writeBackOne_only ..) rfl rfl)
  | bankRetireStart => exact keeps_next <| keeps_when (keeps_of_only (retireStart_only ..) rfl rfl)
  | bankCopyEnd => exact keeps_next <| keeps_when ⟨copyEnd_wf _, copyEnd_blown _⟩
  | tgCommitCheckEnd => exact keeps_next <| keeps_cycle fun _ => keeps_settle (keeps_of_only (commitCheckEnd_only ..) rfl rfl)
  | sweepStart => exact keeps_next <| keeps_cycle fun _ => keeps_settle ⟨sweepStarts_wf _ _ _, sweepStarts_blown _ _ _⟩
  | tgTriggerArrive => exact keeps_next <| keeps_cycle fun _ => keeps_of_only (triggerArrives_only ..) rfl rfl
  | triggerWaitTimeout => exact keeps_next <| keeps_of_only (triggerWaitEnds_only ..) rfl rfl
  | cut => exact keeps_next <| keeps_cycle fun _ => keeps_settle ⟨cutNow_wf _ _, cutNow_blown _ _⟩
  | lateRow => exact keeps_next <| keeps_cycle fun _ => keeps_of_only (rowLate_only ..) rfl rfl
  | driveTotalSend => exact keeps_next <| keeps_of_only (driveTotal_only ..) rfl rfl
  | stitch =>
    exact keeps_next <| keeps_cycle fun _ => keeps_when (keeps_settle (keeps_trans ⟨stitchNow_wf _ _ _, stitchNow_blown _
      _ _⟩ (keeps_foldl fun _ _ => keeps_of_only (fencesStitch_only ..) rfl rfl)))
  | stitchSlackEnd => exact keeps_next <| keeps_cycle fun _ => keeps_settle ⟨slackEnds_wf _ _, slackEnds_blown _ _⟩
  | toneCheckEnd => exact keeps_next <| keeps_cycle fun _ => keeps_of_only (toneCheckEnds_only ..) rfl rfl
  | doseCheckpointTimer =>
    exact keeps_next <| keeps_cycle fun _ => ⟨wf_of (doseCheckpoint_only ..) rfl, doseCheckpoint_blown _⟩
  | cdrLock =>
    exact keeps_next <| keeps_trans (keeps_of_only (cdrLocks_only ..) rfl rfl) ⟨wf_of (recordGoes_only ..) rfl,
      recordGoes_blown _ _⟩
  | slipSearchEnd =>
    exact keeps_next <| keeps_cycle fun _ => keeps_trans ⟨wf_of (searchEnds_only ..) rfl, searchEnds_blown _ _ _ _⟩
      (keeps_ite (keeps_trans (keeps_ite ⟨wf_of (slipSearchFailed_only ..) rfl, slipSearchFailed_blown _ _⟩ (keeps_refl _))
      ⟨wf_of (recordGoes_only ..) rfl, recordGoes_blown _ _⟩) (keeps_refl _))
  | laneLost => exact keeps_next <| keeps_cycle fun _ => ⟨wf_of (laneMeets_only ..) rfl, laneMeets_blown _ _ _ _ _⟩
  | eqUpdate => exact keeps_next <| keeps_cycle fun _ => keeps_of_only (eqPoint_only ..) rfl rfl
  | eyeScanStart => exact keeps_next <| keeps_of_only (scanStarts_only ..) rfl rfl
  | eyeScanEnd => exact keeps_next <| keeps_cycle fun _ => ⟨wf_of (scanEnds_only ..) rfl, scanEnds_blown _ _ _ _ _⟩
  | trimStep => exact keeps_next <| keeps_of_only (trimMoves_only ..) rfl rfl
  | laneActive =>
    exact keeps_next <| keeps_cycle fun _ => keeps_trans (keeps_of_only (laneReaches_only ..) rfl rfl) ⟨wf_of
      (recordGoes_only ..) rfl, recordGoes_blown _ _⟩
  | ackReceived => exact keeps_next <| keeps_cycle fun _ => ⟨ackRecord_wf _ _ _ _, ackRecord_blown _ _ _ _⟩
  | replayTimeout => exact keeps_next ⟨replayTimer_wf _ _ _, replayTimer_blown _ _ _⟩
  | statusReceived =>
    exact keeps_next <| keeps_cycle fun _ => keeps_trans ⟨wf_of (statusRecord_only ..) rfl, statusRecord_blown _ _ _ _⟩
      ⟨wf_of (recordGoes_only ..) rfl, recordGoes_blown _ _⟩
  | configRepeat => exact keeps_next <| keeps_of_only (repeatConfig_only ..) rfl rfl
  | statusTimeout => exact keeps_next <| keeps_cycle fun _ => keeps_of_only (statusGone_only ..) rfl rfl
  | tempReceived => exact keeps_next <| keeps_cycle fun _ => keeps_of_only (tempRecord_only ..) rfl rfl
  | tempTimeout => exact keeps_next <| keeps_cycle fun _ => keeps_of_only (tempGone_only ..) rfl rfl
  | healthReceived => exact keeps_next <| keeps_cycle fun _ => ⟨healthRecord_wf _ _ _ _, healthRecord_blown _ _ _ _⟩
  | echoReceived => exact keeps_next <| keeps_cycle fun _ => keeps_of_only (echoRecord_only ..) rfl rfl
  | echoDeadline => exact keeps_next <| keeps_cycle fun _ => keeps_of_only (echoLate_only ..) rfl rfl
  | commandRepeat => exact keeps_next <| keeps_of_only (repeatCommand_only ..) rfl rfl
  | netLinkChange => exact keeps_next <| keeps_of_only (linkChanges_only ..) rfl rfl
  | netRxFrame => exact keeps_next <| keeps_cycle fun _ => keeps_settle (keeps_of_only (rxFrame_only ..) rfl rfl)
  | netTxDone => exact keeps_next <| keeps_settle (keeps_of_only (txDone_only ..) rfl rfl)
  | mdioDone => exact keeps_next <| keeps_of_only (mdioEnds_only ..) rfl rfl
  | telegramWindowEnd => exact keeps_next <| keeps_cycle fun _ => keeps_of_only (telWindowEnds_only ..) rfl rfl
  | keyMemoryExpiry => exact keeps_next <| keeps_when (keeps_of_only (telForget_only ..) rfl rfl)
  | telegramTimeout => exact keeps_next <| keeps_cycle fun _ => keeps_of_only (telTimesOut_only ..) rfl rfl
  | slewComplete => exact keeps_next <| keeps_of_only (slewEnds_only ..) rfl rfl
  | holdoverTimeout => exact keeps_next <| keeps_cycle fun _ => keeps_of_only (holdoverNow_only ..) rfl rfl
  | nowLatch | capturePop | windowReadHi => exact keeps_next ⟨wf_of (busRead_only ..) rfl, busRead_blown _ _ _⟩
  | triggerFire => exact keeps_next <| keeps_cycle fun _ => keeps_of_only (trigFire_only ..) rfl rfl
  | ppsEnd => exact keeps_next <| keeps_when (keeps_of_only (ppsEnds_only ..) rfl rfl)
  | capture => exact keeps_next <| keeps_of_only (captureNow_only ..) rfl rfl
  | loopSample => exact keeps_next <| keeps_of_only (loopSampleNow_only ..) rfl rfl
  | loopComputeStart => exact keeps_next <| keeps_of_only (loopComputeBegin_only ..) rfl rfl
  | loopComputeEnd => exact keeps_next <| keeps_cycle fun _ => keeps_when (keeps_of_only (loopComputeFinish_only ..) rfl rfl)
  | loopOutput => exact keeps_next <| keeps_of_only (loopOutputNow_only ..) rfl rfl
  | driveTotalReceive => exact keeps_next <| keeps_of_only (totalArrives_only ..) rfl rfl
  | adcConversionStart => exact keeps_next <| keeps_of_only (adcStart_only ..) rfl rfl
  | adcConversionEnd => exact keeps_next <| keeps_of_only (adcEnd_only ..) rfl rfl
  | imuTransactionStart => exact keeps_next <| keeps_of_only (imuStart_only ..) rfl rfl
  | imuTransactionEnd => exact keeps_next <| keeps_of_only (imuEnd_only ..) rfl rfl
  | setpPeriodStart => exact keeps_next <| keeps_of_only (setpStart_only ..) rfl rfl
  | laceFrameReady => exact keeps_next <| keeps_cycle fun _ => keeps_settle (keeps_of_only (laceReady_only ..) rfl rfl)
  | laceTrigger => exact keeps_next <| keeps_cycle fun _ => keeps_of_only (laceTriggerNow_only ..) rfl rfl
  | laceFrameStart => exact keeps_next <| keeps_cycle fun _ => keeps_settle (keeps_of_only (laceStarts_only ..) rfl rfl)
  | laceGapEnd => exact keeps_next <| keeps_cycle fun _ => keeps_settle (keeps_of_only (laceGapEnds_only ..) rfl rfl)
  | faultAssert => exact keeps_next <| keeps_cycle fun _ => ⟨assertSource_wf _ _ _ _ _ _, assertSource_blown _ _ _ _ _ _⟩
  | faultConditionClear => exact keeps_next <| keeps_of_only (clearCondition_only ..) rfl rfl
  | eventOutput => exact keeps_next <| keeps_of_only (eventOut_only ..) rfl rfl
  | collectorSelfFail => exact keeps_next <| keeps_cycle fun _ => keeps_of_only (selfFail_only ..) rfl rfl
  | faultResetRequest => exact keeps_next ⟨faultReset_wf _, faultReset_blown _⟩
  | clockMonitorGate => exact keeps_next <| keeps_cycle fun _ => keeps_of_only (clockGate_only ..) rfl rfl
  | safeNAssert => exact keeps_next <| keeps_cycle fun _ => keeps_of_only (safeNOn_only ..) rfl rfl
  | safeNRelease => exact keeps_next <| keeps_of_only (safeNOff_only ..) rfl rfl
  | autoClearExpiry => exact keeps_next <| keeps_of_only (autoClear_only ..) rfl rfl
  | heartbeatGraceEnd => exact keeps_next <| keeps_of_only (hbGraceEnds_only ..) rfl rfl
  | heartbeatTimeout => exact keeps_next <| keeps_cycle fun _ => keeps_of_only (hbTimesOut_only ..) rfl rfl
  | watchdogExpiry => exact keeps_next <| keeps_cycle fun _ => keeps_of_only (watchdogExpires_only ..) rfl rfl
  | safecfgCommitEnd =>
    exact keeps_next <| keeps_cycle fun _ => ⟨wf_of (sessionCommitEnd_only ..) rfl, sessionCommitEnd_blown _ _⟩
  | sessionTimeout => exact keeps_next <| keeps_when ⟨wf_of (endSession_only ..) rfl, endSession_blown _ _⟩
  | lockoutEnd => exact keeps_next <| keeps_when (keeps_of_only (modSaf_only ..) rfl rfl)
  | safecfgCheck => exact keeps_next <| keeps_cycle fun _ => keeps_of_only (integrityCheck_only ..) rfl rfl
  | hkRoundStart => exact keeps_next <| keeps_cycle fun _ => keeps_of_only (roundStart_only ..) rfl rfl
  | hkConversion => exact keeps_next <| keeps_cycle fun _ => keeps_of_only (slotEnds_only ..) rfl rfl
  | hkEvaluation => exact keeps_next <| keeps_cycle fun _ => ⟨wf_of (evaluateRound_only ..) rfl, evaluateRound_blown _⟩
  | idleEnter => exact keeps_next <| keeps_of_only (idleEnters_only ..) rfl rfl
  | idleExit => exact keeps_next <| keeps_of_only (idleExits_only ..) rfl rfl
  | dozeTimerExpiry | sleepTimerExpiry => exact keeps_next <| keeps_when (keeps_of_only (timerRequest_only ..) rfl rfl)
  | blockAnswer => exact keeps_next <| keeps_cycle fun _ => ⟨wf_of (blockAnswers_only ..) rfl, blockAnswers_blown _⟩
  | askTimeout => exact keeps_next <| keeps_cycle fun _ => keeps_of_only (askExpires_only ..) rfl rfl
  | saveDone => exact keeps_next <| keeps_of_only (saveEnds_only ..) rfl rfl
  | entryComplete => exact keeps_next <| keeps_cycle fun _ => ⟨entryEnds_wf _, entryEnds_blown _⟩
  | wake => exact keeps_next <| keeps_cycle fun _ => keeps_when (keeps_of_only (wakeArrives_only ..) rfl rfl)
  | wakeTimerExpiry => exact keeps_next <| keeps_cycle fun _ => keeps_when (keeps_of_only (wakeTimer_only ..) rfl rfl)
  | powerGood => exact keeps_next <| keeps_cycle fun _ => ⟨wf_of (domainGood_only ..) rfl, domainGood_blown _ _⟩
  | powerGoodTimeout => exact keeps_next <| keeps_cycle fun _ => keeps_of_only (domainMissed_only ..) rfl rfl
  | exitComplete => exact keeps_next <| keeps_cycle fun _ => keeps_settle ⟨exitEnds_wf _ _, exitEnds_blown _ _⟩
  | powerOnDetect | resetNAssert | aoBrownOut | coreBrownOut =>
    exact keeps_next ⟨sourceAsserts_wf _ _, sourceAsserts_blown _ _⟩
  | resetNRelease | softwareResetRelease | resetRelease | perstNRelease =>
    exact keeps_next <| keeps_of_only (sourcesRelease_only ..) rfl rfl
  | perstN => exact keeps_next <| keeps_cycle fun _ => ⟨sourceAsserts_wf _ _, sourceAsserts_blown _ _⟩
  | hotReset | functionLevelReset =>
    exact keeps_next <| keeps_cycle fun _ => keeps_when ⟨wf_of (hostPulse_only ..) rfl, hostPulse_blown _ _⟩
  | linkDown =>
    exact keeps_next <| keeps_cycle fun _ => keeps_ite (keeps_trans (keeps_of_only (setLevel_only ..) rfl rfl)
      ⟨sourceAsserts_wf _ _, sourceAsserts_blown _ _⟩) (keeps_refl _)
  | releaseStepComplete => exact keeps_next <| keeps_cycle fun _ => ⟨releaseStepEnds_wf _, releaseStepEnds_blown _⟩
  | blockResetRelease =>
    exact keeps_next <| keeps_cycle fun _ => keeps_settle ⟨wf_of (blockReleases_only ..) rfl, blockReleases_blown _ _⟩
  | bootWrite => exact keeps_next <| keeps_settle (keeps_record (fun _ => ⟨recWrite_wf _, recWrite_blown _⟩))
  | bootMaskWrite => exact keeps_next <| keeps_settle (keeps_record (fun _ => ⟨recMaskWrite_wf _, recMaskWrite_blown _⟩))
  | bootPoll | bootWait => exact keeps_next <| keeps_record (fun _ => keeps_of_only (recordWaits_only ..) rfl rfl)
  | bootSlipSearch => exact keeps_next <| keeps_record (fun _ => ⟨wf_of (recSlipSearch_only ..) rfl, recSlipSearch_blown _⟩)
  | bootLoadTiles => exact keeps_next <| keeps_record (fun _ => ⟨wf_of (recLoadTiles_only ..) rfl, recLoadTiles_blown _⟩)
  | bootWaitExpiry => exact keeps_next ⟨wf_of (recWaitEnds_only ..) rfl, recWaitEnds_blown _⟩
  | bootRecordTimeout => exact keeps_next ⟨wf_of (recordTimesOut_only ..) rfl, recordTimesOut_blown _⟩
  | bootEnd => exact keeps_next <| keeps_record (fun _ => ⟨wf_of (scriptDone_only ..) rfl, scriptDone_blown _⟩)
  | kpsOperationEnd =>
    exact keeps_next <| keeps_cycle fun _ => keeps_settle (keeps_trans ⟨storeRead_wf _, storeRead_blown _⟩ ⟨wf_of
      (kpsEnd_only ..) rfl, kpsEnd_blown _ _⟩)
  | kpsScrubSector => exact keeps_next <| keeps_cycle fun _ => ⟨wf_of (kpsScrub_only ..) rfl, kpsScrub_blown _ _ _⟩
  | fuseProgramEnd => exact keeps_next <| keeps_cycle fun _ => keeps_when ⟨wf_of (fuseEnd_only ..) rfl, fuseEnd_blown _ _⟩
  | svcWrite =>
    exact keeps_next <| keeps_cycle fun _ => keeps_when (keeps_settle ⟨svcWriteFrame_wf _ _, svcWriteFrame_blown _ _⟩)
  | svcRead =>
    exact keeps_next <| keeps_cycle fun _ => keeps_when ⟨wf_of (svcReadFrame_only ..) rfl, svcReadFrame_blown _ _ _⟩
  | svcBadCommand => exact keeps_next <| keeps_when (keeps_of_only (svcBadFrame_only ..) rfl rfl)
  | svcFrameDiscard => exact keeps_next <| keeps_when (keeps_of_only (modGlb_only ..) rfl rfl)
  | parityBgCheck => exact keeps_next <| keeps_cycle fun _ => keeps_of_only (backgroundCheck_only ..) rfl rfl
  | pcieLinkUp => exact keeps_next <| keeps_settle (keeps_of_only (linkTrains_only ..) rfl rfl)
  | regRead => exact keeps_next <| keeps_cycle fun _ => keeps_when ⟨wf_of (pcieRead_only ..) rfl, pcieRead_blown _ _ _ _⟩
  | netTxReadDone => exact keeps_next <| keeps_cycle fun _ => keeps_settle (keeps_of_only (txReadDone_only ..) rfl rfl)
  | powerDomainRetry => exact keeps_next <| keeps_of_only (domainRetried_only ..) rfl rfl
  | refLoss | refReturn => exact keeps_next <| keeps_of_only (refChanges_only ..) rfl rfl
  | bootPollRead => exact keeps_next ⟨wf_of (recPollRead_only ..) rfl, recPollRead_blown _⟩

/-- Every step goes on and keeps both, the queue aside. -/
theorem step_keeps (s : State) : ∃ t, step s = .next t ∧ keepsBoth s t := by
  unfold step
  split
  · exact ⟨tick s, rfl, keeps_tick s⟩
  · next c rest _ =>
    obtain ⟨t, ht, hform, hfuses⟩ := exec_keeps c { s with pending := rest }
    exact ⟨t, ht, hform, ⟨hfuses.kept⟩⟩

/-- Settles O57: every command keeps the form by its own lemma, and the cycle of an empty queue touches no byte. -/
theorem stepsKeepMemoryCanonical : Obligations.StepsKeepMemoryCanonical := by
  unfold Obligations.StepsKeepMemoryCanonical
  intro s t hw hs
  obtain ⟨u, hu, hk⟩ := step_keeps s
  cases hs.symm.trans hu
  exact hk.1 hw

/-- Settles O58: every command keeps the blown bits by its own lemma. -/
theorem blownFusesStayBlown : Obligations.BlownFusesStayBlown := by
  unfold Obligations.BlownFusesStayBlown
  intro s t w b hs hb
  obtain ⟨u, hu, hk⟩ := step_keeps s
  cases hs.symm.trans hu
  exact hk.2.kept w b hb

end Sys2Proof.Machine
end

section
/-! SUPPORT. States in which a command reaches further than its parts, and in which a DARK latch falls at a reach that is no
COLD reach. -/

namespace Sys2Proof.Machine

/-- DOZE with an entry to SLEEP asked for, an injection armed for FS58 and a frame that waits at port A. -/
def injectedInDoze : State :=
  { State.reset with
      rst := { Rst.reset with sources := [], reach := 0, done := 8 }
      pwr := { Pwr.reset with state := 2, phase := 1, target := 3 }
      regs := [(0x12080 / 4, bitAt 31 true ||| 58#32)]
      net := { Net.reset with ports := [(0, { NetPort.reset with waiting := [([], ⟨0, false, false⟩)] })] } }

/-- The injected CRC error wakes the part, so that the frame that waited is given up. -/
theorem scrubEnable_injectedInDoze_noFrame :
    (portOf (busWrite injectedInDoze .service 0x04000 true (withBit 0#32 0)) 0).waiting = [] := by decide +kernel

theorem injectedInDoze_frame : (portOf injectedInDoze 0).waiting ≠ [] := by decide

/-- Refutes O56: a service frame that switches the scrubber on, hit by an injection for FS58, wakes the part from DOZE and gives
up a frame that waits at a port, but its parts leave the network block out. -/
theorem not_everyCommandKeepsToItsParts : ¬ Obligations.EveryCommandKeepsToItsParts := by
  unfold Obligations.EveryCommandKeepsToItsParts
  intro h
  obtain ⟨t, ht, hc⟩ := h (.scrubEnable .service 0#32) injectedInDoze
  injection ht with ht
  have hport : portOf t 0 = portOf injectedInDoze 0 := by rw [portOf, portOf, (hc.2 .net (by decide) : t.net = _)]
  refine injectedInDoze_frame ?_
  rw [← hport, ← ht]
  exact scrubEnable_injectedInDoze_noFrame

/-- Both DARK latches stand, and the power-on detector's source comes while a reach above COLD is recorded. -/
def darkAboveCold : State :=
  { State.reset with
      pending := [.powerOnDetect]
      rst := { Rst.reset with reach := 4 }
      saf := { Saf.reset with dark := Pair.both true } }

theorem powerOnDetect_darkAboveCold :
    (sourceAsserts { darkAboveCold with pending := [] } 0).saf.dark.a = false
      ∧ (sourceAsserts { darkAboveCold with pending := [] } 0).rst.reach = 4 := by decide +kernel

/-- The step of `darkAboveCold` is none of the three ways in which O59 and O60 let a DARK latch go. -/
theorem not_dark_darkAboveCold {t : State} (ht : step darkAboveCold = .next t) :
    ¬ (darkHeld darkAboveCold t ∨ t.rst.reach = 3 ∨ ∃ p f e, darkAboveCold.pending.head? = some (.netRxFrame p f e)) := by
  obtain ⟨hdark, hreach⟩ := powerOnDetect_darkAboveCold
  injection ht with ht
  subst ht
  rintro (hheld | hcold | ⟨p, f, e, hframe⟩)
  · exact absurd (hheld .a rfl) (ne_true_of_eq_false hdark)
  · exact absurd (hreach.symm.trans hcold) (by decide)
  · injection hframe with hframe
    cases hframe

/-- Refutes O59: the power-on detector clears both DARK latches while the reach recorded is no COLD reach. -/
theorem not_darkLatchesStand : ¬ Obligations.DarkLatchesStand := by
  unfold Obligations.DarkLatchesStand
  exact fun h => not_dark_darkAboveCold rfl (h darkAboveCold _ rfl)

/-- Refutes O60: the same step drops both DARK latches. -/
theorem not_everyStepIsSafe : ¬ Obligations.EveryStepIsSafe := by
  unfold Obligations.EveryStepIsSafe
  intro h
  obtain ⟨t, ht, _, _, _, hdark⟩ := h darkAboveCold
  exact not_dark_darkAboveCold ht hdark

end Sys2Proof.Machine
end

section
/-! SUPPORT. The step itself and the state that power-on leaves. -/

namespace Sys2Proof.Machine

/-- Settles O1: both parts are the step's own two cases. -/
theorem stepRunsTheFrontCommand : Obligations.StepRunsTheFrontCommand := by
  unfold Obligations.StepRunsTheFrontCommand
  refine ⟨fun s c => rfl, fun s hs => ⟨tick s, ?_, rfl⟩⟩
  rw [step, hs]

/-! ## One cycle of the TIME domain (11 R430, R431, R434) -/

/-- A second that passes counts in the keeping store alone (20 R672). -/
@[simp] theorem secondPasses_fields (s : State) :
    (secondPasses s).tim = s.tim ∧ (secondPasses s).regs = s.regs ∧ (secondPasses s).mem = s.mem
      ∧ (secondPasses s).out = s.out := ⟨rfl, rfl, rfl, rfl⟩

theorem step_idle {s : State} (h : s.pending = []) : step s = .next (tick s) := by rw [step, h]

/-- What a cycle of a live TIME domain leaves in the time counter, and that registers, memory and outputs stay. -/
theorem tick_live {s : State} (h : ctrlLive s = true) :
    (tick s).tim = { s.tim with counter := ((s.tim.counter : Int) + s.tim.increment + (slewStep s).1).toNat,
                                slew := (slewStep s).2, cycles := s.tim.cycles + 1 }
      ∧ (tick s).regs = s.regs ∧ (tick s).mem = s.mem ∧ (tick s).out = s.out := by
  rw [tick, if_pos h]
  split
  next d left hd =>
    simp only [hd]
    split <;> simp

theorem tick_dead {s : State} (h : ctrlLive s = false) : tick s = s := by rw [tick, h]; rfl

theorem slewStep_zero {s : State} (h : s.tim.slew = 0) : slewStep s = (0, s.tim.slew) := by simp [slewStep, h]

/-- A slew forwards adds the rate, or what is left where that is less. -/
theorem slewStep_forward {s : State} (h : 0 < s.tim.slew) :
    slewStep s = (if s.tim.slew < (regAt s 0x0E014).toNat then (s.tim.slew, 0)
      else (((regAt s 0x0E014).toNat : Int), s.tim.slew - (regAt s 0x0E014).toNat)) := by
  have h0 : s.tim.slew ≠ 0 := by omega
  simp only [slewStep, if_neg h0, if_pos h]
  split <;> simp

/-- Settles O2: the three cases of the slew and of the domain. -/
theorem idleStepsCountTime : Obligations.IdleStepsCountTime := by
  unfold Obligations.IdleStepsCountTime
  refine ⟨fun s hs hl hz => ?_, fun s r hs hl hr hp => ?_, fun s hs hl => ⟨_, step_idle hs, tick_dead hl⟩⟩
  · obtain ⟨htim, hregs, hmem, hout⟩ := tick_live hl
    refine ⟨_, step_idle hs, ?_, hregs, hmem, hout⟩
    have hc : ((s.tim.counter : Int) + s.tim.increment + 0).toNat = s.tim.counter + s.tim.increment := by omega
    simp only [htim, slewStep_zero hz, hc]
  · obtain ⟨htim, -⟩ := tick_live hl
    refine ⟨_, step_idle hs, ?_, ?_⟩
    · rw [htim, slewStep_forward hp, ← hr]
      split <;> rfl
    · rw [htim, slewStep_forward hp, ← hr]
      split
      · dsimp only
        omega
      · dsimp only
        omega

/-! ## Power-on -/

theorem getReg_reset (i : Nat) : getReg State.reset i = regReset i := rfl

/-- Settles O3: the reset state, field by field. -/
theorem resetLeavesAColdReach : Obligations.ResetLeavesAColdReach := by
  unfold Obligations.ResetLeavesAColdReach
  refine ⟨rfl, rfl, rfl, rfl, rfl, rfl, ?_, ?_, rfl, rfl, rfl, rfl, ?_, rfl, rfl, getReg_reset⟩
  · exact fun h => by cases h <;> rfl
  · exact fun h => by cases h <;> rfl
  · exact fun h => by cases h <;> decide

/-- Light memory of which no byte is listed reads as its default. -/
theorem memGet_reset (a : Nat) : memGet State.reset a = memDefault a := rfl

/-- Settles O4: no byte is listed at reset, so every byte reads as its default. -/
theorem resetMemoryIsCanonical : Obligations.ResetMemoryIsCanonical := by
  unfold Obligations.ResetMemoryIsCanonical
  refine ⟨rfl, fun a hlo hhi => ?_, fun a hlo => ?_⟩
  · rw [memGet_reset, memDefault, if_pos ⟨hlo, hhi⟩]
  · rw [memGet_reset, memDefault, if_neg (by omega)]

end Sys2Proof.Machine
end

section
/-! SUPPORT. A served register write and a command's cycle, with what is as it was around them: the forms in which the later
parts use `ran` and `inOneCycle`. -/

namespace Sys2Proof.Machine

/-! ## What comes to a window (18 R610, R612, 21 R702) -/

/-- The collector but for the mark of its cycle is as it was where it is no part that changes. -/
theorem fltCore_of_onlyChanges {ps : List Part} {s t : State} (h : onlyChanges ps s t) (hp : Part.flt ∉ ps) :
    fltCore t.flt = fltCore s.flt := h.2 .flt hp

theorem sticky_of_onlyChanges {ps : List Part} {s t : State} (h : onlyChanges ps s t) (hp : Part.flt ∉ ps) :
    t.flt.sticky = s.flt.sticky := (sticky_counts_of_onlyChanges h hp).1

theorem live_of_onlyChanges {ps : List Part} {s t : State} (h : onlyChanges ps s t) (hp : Part.flt ∉ ps) :
    t.flt.live = s.flt.live := by
  have hf := fltCore_of_onlyChanges h hp
  unfold fltCore at hf
  injection hf

theorem regs_of_onlyChanges {ps : List Part} {s t : State} (h : onlyChanges ps s t) (hp : Part.regs ∉ ps) : t.regs = s.regs :=
  (h.2 .regs hp : t.regs = s.regs ∧ t.tableBad = s.tableBad).1

/-- Every word is as it was where the registers are. -/
theorem getReg_of_regs {s t : State} (h : t.regs = s.regs) (i : Nat) : getReg t i = getReg s i := by rw [getReg, h, getReg]

theorem otherWords_of_regs {s t : State} (h : t.regs = s.regs) (idx : Nat) : otherWords idx s t := fun i _ => getReg_of_regs h i

@[simp] theorem atWindow_fields (b : Bus) (idx : Nat) (c : Option (Nat × Bool)) (s : State) :
    (atWindow b idx c s).pending = s.pending ∧ (atWindow b idx c s).out = s.out ∧ (atWindow b idx c s).free = s.free
      ∧ (atWindow b idx c s).regs = s.regs ∧ (atWindow b idx c s).mem = s.mem ∧ (atWindow b idx c s).saf = s.saf
      ∧ (atWindow b idx c s).rst = s.rst ∧ (atWindow b idx c s).rng = s.rng ∧ (atWindow b idx c s).crc = s.crc
      ∧ (atWindow b idx c s).lmm = s.lmm ∧ (atWindow b idx c s).ly = s.ly ∧ (atWindow b idx c s).shd = s.shd
      ∧ (atWindow b idx c s).shdRefused = s.shdRefused ∧ (atWindow b idx c s).shdNode = s.shdNode
      ∧ (atWindow b idx c s).bldEntry = s.bldEntry ∧ (atWindow b idx c s).bld = s.bld ∧ (atWindow b idx c s).pxc = s.pxc
      ∧ (atWindow b idx c s).tg = s.tg ∧ (atWindow b idx c s).lanes = s.lanes
      ∧ (atWindow b idx c s).laneBlocks = s.laneBlocks ∧ (atWindow b idx c s).tbl = s.tbl ∧ (atWindow b idx c s).net = s.net
      ∧ (atWindow b idx c s).tim = s.tim ∧ (atWindow b idx c s).cle = s.cle ∧ (atWindow b idx c s).lce = s.lce
      ∧ (atWindow b idx c s).hkp = s.hkp ∧ (atWindow b idx c s).kps = s.kps ∧ (atWindow b idx c s).cbl = s.cbl
      ∧ (atWindow b idx c s).pwr.domains = s.pwr.domains ∧ fltCore (atWindow b idx c s).flt = fltCore s.flt := by
  have h := atWindow_only b idx c s
  have hregs := regs_of_onlyChanges h (by decide)
  have hdom : (atWindow b idx c s).pwr.domains = s.pwr.domains := (portWakes_fields b idx (inCycle c s)).2.2
  refine ⟨h.1, h.2 .out (by decide), h.2 .free (by decide), hregs, h.2 .mem (by decide), h.2 .saf (by decide),
    h.2 .rst (by decide), h.2 .rng (by decide), h.2 .crc (by decide), h.2 .lmm (by decide), h.2 .ly (by decide),
    (h.2 .shd (by decide)).1, (h.2 .shd (by decide)).2.1, (h.2 .shd (by decide)).2.2, (h.2 .bld (by decide)).2,
    (h.2 .bld (by decide)).1, h.2 .pxc (by decide), h.2 .tg (by decide), (h.2 .lanes (by decide)).1,
    (h.2 .lanes (by decide)).2.1, h.2 .tbl (by decide), h.2 .net (by decide), h.2 .tim (by decide), h.2 .cle (by decide),
    h.2 .lce (by decide), h.2 .hkp (by decide), h.2 .kps (by decide), h.2 .cbl (by decide), hdom, h.2 .flt (by decide)⟩

section Window

variable (b : Bus) (idx : Nat) (c : Option (Nat × Bool)) (s : State)

@[simp] theorem getReg_atWindow (i : Nat) : getReg (atWindow b idx c s) i = getReg s i := getReg_of_regs (by simp) i

@[simp] theorem regAt_atWindow (a : Nat) : regAt (atWindow b idx c s) a = regAt s a := getReg_atWindow ..

@[simp] theorem regBit_atWindow (a i : Nat) : regBit (atWindow b idx c s) a i = regBit s a i := by simp [regBit]

@[simp] theorem regFld_atWindow (a hi lo : Nat) : regFld (atWindow b idx c s) a hi lo = regFld s a hi lo := by simp [regFld]

@[simp] theorem domainState_atWindow (d : Nat) : domainState (atWindow b idx c s) d = domainState s d := by simp [domainState]

@[simp] theorem live_atWindow (d : Nat) : live (atWindow b idx c s) d = live s d := by simp [live]

@[simp] theorem blockHeld_atWindow (k : Nat) : blockHeld (atWindow b idx c s) k = blockHeld s k := by simp [blockHeld]

@[simp] theorem ctrlLive_atWindow : ctrlLive (atWindow b idx c s) = ctrlLive s := live_atWindow ..

@[simp] theorem fltJudges_atWindow : fltJudges (atWindow b idx c s) = fltJudges s := by simp [fltJudges]

end Window

/-- The state as a served write comes to its window, and what the port does after the window: it answers, and frames that have
waited go where a low-power state has ended. -/
theorem ran_window {b : Bus} {idx : Nat} {f : State → State} {s t : State} (h : ran b idx f s t) :
    ∃ c, onlyChanges [.out, .free, .pwr, .rng, .hif, .net, .glb] (f (atWindow b idx c s)) t := by
  obtain ⟨c, g, hg, rfl⟩ := h
  refine ⟨c, onlyChanges_trans (onlyChanges_mono (answered_only b _) (by simp)) ?_⟩
  exact onlyChanges_trans (onlyChanges_mono (framesGo_only ..) (by simp +contextual)) (onlyChanges_mono (mark_only _ g hg) (by simp))

/-- The same where the window leaves the device's power state alone: no frame goes. -/
theorem ran_window_of_pwr {b : Bus} {idx : Nat} {f : State → State} {s t : State} (h : ran b idx f s t)
    (hf : ∀ u, (f u).pwr = u.pwr) : ∃ c, onlyChanges [.out] (f (atWindow b idx c s)) t := by
  obtain ⟨c, g, hg, rfl⟩ := h
  have hpwr : (answered b (f (atWindow b idx c s))).pwr = (atWindow b idx c s).pwr := by simp [hf]
  have hstay : framesGo (inCycle c s) (answered b (f (atWindow b idx c s))) = answered b (f (atWindow b idx c s)) :=
    framesGo_of_not_ended fun hs => (atWindow_state_lt_two b idx c s).1 (hpwr ▸ hs)
  refine ⟨c, onlyChanges_trans (answered_only b _) ?_⟩
  exact hstay.symm ▸ onlyChanges_mono (mark_only _ g hg) (by simp)

section Served

variable {s : State} {b : Bus} {addr : Nat} {v : Word} {f : State → State} (h : reaches s b addr = true) (h4 : addr % 4 = 0)
  (ho : wordLocked s (addr / 4) = false) (hr : ∀ u, routeWrite u (addr / 4) v = f u)

include h h4 ho hr

/-- A command's register write that reaches an open word. -/
theorem writeAlone_window : ∃ c t, writeAlone b addr v s = .next t
    ∧ onlyChanges [.out, .free, .pwr, .rng, .hif, .net, .glb] (f (atWindow b (addr / 4) c s)) t := by
  obtain ⟨t, ht, hran⟩ := writeAlone_ran s b addr v f h h4 ho hr
  obtain ⟨c, hc⟩ := ran_window hran
  exact ⟨c, t, ht, hc⟩

theorem writeAlone_window_of_pwr (hf : ∀ u, (f u).pwr = u.pwr) : ∃ c t, writeAlone b addr v s = .next t
    ∧ onlyChanges [.out] (f (atWindow b (addr / 4) c s)) t := by
  obtain ⟨t, ht, hran⟩ := writeAlone_ran s b addr v f h h4 ho hr
  obtain ⟨c, hc⟩ := ran_window_of_pwr hran hf
  exact ⟨c, t, ht, hc⟩

end Served

/-! ## A command's cycle (log 50) -/

/-- What runs in a cycle, its mark apart, and frames that go where a low-power state has ended. -/
theorem inOneCycle_window (f : State → State) (s : State) :
    ∃ c, onlyChanges [.out, .free, .pwr, .rng, .hif, .net] (f (inCycle c s)) (inOneCycle f s) := by
  obtain ⟨c, g, hg, he⟩ := oneCycle_cases (fun x => framesGo x (f x)) s
  refine ⟨c, ?_⟩
  rw [inOneCycle, he]
  exact onlyChanges_trans (onlyChanges_mono (framesGo_only ..) (by simp +contextual)) (onlyChanges_mono (mark_only _ g hg) (by simp))

@[simp] theorem inCycle_fields (c : Option (Nat × Bool)) (s : State) :
    (inCycle c s).pending = s.pending ∧ (inCycle c s).out = s.out ∧ (inCycle c s).free = s.free
      ∧ (inCycle c s).regs = s.regs ∧ (inCycle c s).tableBad = s.tableBad ∧ (inCycle c s).mem = s.mem
      ∧ (inCycle c s).saf = s.saf ∧ (inCycle c s).rst = s.rst ∧ (inCycle c s).pwr = s.pwr ∧ (inCycle c s).rng = s.rng
      ∧ (inCycle c s).hif = s.hif ∧ (inCycle c s).crc = s.crc ∧ (inCycle c s).glb = s.glb ∧ (inCycle c s).lmm = s.lmm
      ∧ (inCycle c s).ly = s.ly ∧ (inCycle c s).shd = s.shd ∧ (inCycle c s).shdRefused = s.shdRefused
      ∧ (inCycle c s).shdNode = s.shdNode ∧ (inCycle c s).bldEntry = s.bldEntry ∧ (inCycle c s).bld = s.bld
      ∧ (inCycle c s).pxc = s.pxc ∧ (inCycle c s).tg = s.tg ∧ (inCycle c s).lanes = s.lanes
      ∧ (inCycle c s).laneBlocks = s.laneBlocks ∧ (inCycle c s).txRd = s.txRd ∧ (inCycle c s).tbl = s.tbl
      ∧ (inCycle c s).net = s.net ∧ (inCycle c s).tim = s.tim ∧ (inCycle c s).cle = s.cle ∧ (inCycle c s).lce = s.lce
      ∧ (inCycle c s).hkp = s.hkp ∧ (inCycle c s).kps = s.kps ∧ (inCycle c s).cbl = s.cbl
      ∧ fltCore (inCycle c s).flt = fltCore s.flt :=
  ⟨rfl, rfl, rfl, rfl, rfl, rfl, rfl, rfl, rfl, rfl, rfl, rfl, rfl, rfl, rfl, rfl, rfl, rfl, rfl, rfl, rfl, rfl, rfl, rfl, rfl,
    rfl, rfl, rfl, rfl, rfl, rfl, rfl, rfl, rfl⟩

/-! ## Sticky bits that a level leaves (15 R523, R538) -/

@[simp] theorem clearEntry_sticky (s : State) (src : Nat) : (clearEntry s src).flt.sticky = s.flt.sticky := by
  have h0 : (stampCore s).2.flt = s.flt := by simp
  unfold clearEntry
  dsimp only
  split
  · rfl
  split
  · simp
  split
  · simp
  · simp

theorem raise_sticky_mono (s : State) (src heads detail i : Nat) (h : s.flt.sticky.getLsbD i = true) :
    (raise s src heads detail).flt.sticky.getLsbD i = true := by
  cases hj : fltJudges s with
  | true => rw [(raise_judged s src heads detail hj).1, BitVec.getLsbD_or, h, Bool.true_or]
  | false =>
    have he : (raise s src heads detail).flt.sticky = s.flt.sticky := by
      simp only [raise, raiseInj, hj, Bool.not_false, if_true]
      split <;> rfl
    rw [he, h]

theorem raise_sticky_self (s : State) (src heads detail : Nat) (hj : fltJudges s = true) (hs : src < 64) :
    (raise s src heads detail).flt.sticky.getLsbD src = true := by
  rw [(raise_judged s src heads detail hj).1]
  simp [hs]

theorem setLevel_sticky_mono (s : State) (src inst heads detail : Nat) (on : Bool) (i : Nat)
    (h : s.flt.sticky.getLsbD i = true) : (setLevel s src inst heads detail on).flt.sticky.getLsbD i = true := by
  unfold setLevel
  extract_lets has s1
  have h1 : s1.flt.sticky.getLsbD i = true := h
  split
  · split
    · exact h
    · exact raise_sticky_mono _ _ _ _ _ h
  · split
    · split
      · exact h1
      · rw [clearEntry_sticky]
        exact h1
    · exact h

/-- A level that becomes true asserts its source. -/
theorem setLevel_sticky_self (s : State) (src inst heads detail : Nat) (hj : fltJudges s = true) (hs : src < 64)
    (hn : s.flt.live.any (fun e => e.1 == src && e.2.1 == inst) = false) :
    (setLevel s src inst heads detail true).flt.sticky.getLsbD src = true := by
  have he : setLevel s src inst heads detail true
      = raise (modFlt s (fun f => { f with live := f.live ++ [(src, inst, heads, detail)] })) src heads detail := by
    simp [setLevel, hn]
  rw [he]
  exact raise_sticky_self _ _ _ _ hj hs

end Sys2Proof.Machine
end

section
/-! SUPPORT. The inputs of the control engine: drive totals, loop ADC channels, the inertial sensor and set-point pins (12 R464
to R469, R481). -/

namespace Sys2Proof.Machine

theorem adcOf_takePulse (s : State) (c : Consumer) (k : Nat) : adcOf (takePulse s c) k = adcOf s k := rfl

/-- One drive total leaves a FIFO that holds one (12 R464). -/
theorem totalArrives_cons {s : State} {h : Head} {v : Nat} {r : Bool} {rest : List (Nat × Bool)} (hl : ctrlLive s = true)
    (hf : s.cle.fifo.get h = (v, r) :: rest) :
    (totalArrives s h).cle = { s.cle with totals := s.cle.totals.set h v, repeated := s.cle.repeated.set h r,
                                          fifo := s.cle.fifo.set h rest } := by
  simp [totalArrives, hl, hf]

/-- A conversion that may begin does (12 R465). -/
theorem adcStart_taken {s : State} {c : Nat} (hr : cleRuns s = true) (hc : c < 4) (hm : adcMode s c ≠ 0)
    (hb : (adcOf s c).converting = false) (ht : trigTaken s (.adc c) (adcChoice s c) = true) :
    adcStart s c = modAdc (takePulse s (.adc c)) c (fun a => { a with converting := true }) := by
  simp [adcStart, hr, hm, hb, ht, show ¬ 4 ≤ c by omega]

theorem adcEnd_converting {s : State} {c : Nat} (code : Half) (hr : cleRuns s = true) (hb : (adcOf s c).converting = true) :
    adcEnd s c code =
      modAdc s c (fun a => { code := signed 12 code.toNat, count := (a.count + 1) % 65536, converting := false }) := by
  simp [adcEnd, hr, hb]

/-- A transaction with the inertial sensor begins, or is ignored while one is under way (12 R468). -/
theorem imuStart_taken {s : State} (hr : cleRuns s = true) (he : regBit s 0x0F080 0 = true)
    (ht : trigTaken s .imu (imuChoice s) = true) :
    imuStart s = if s.cle.imuBusy then modCle (takePulse s .imu) (fun e => { e with imuIgnored := satAdd 255 e.imuIgnored 1 })
      else emit (modCle (takePulse s .imu) (fun e => { e with imuBusy := true, imuSource := imuChoice s }))
        (.imu ((leBytes 4 (regAt s 0x0F088).toNat).take (regFld s 0x0F080 18 16))) := by
  simp only [imuStart, hr, he, ht, Bool.not_true, Bool.or_self, Bool.false_eq_true, if_false]
  rfl

/-! ## The end of a transaction with the inertial sensor (12 R469) -/

@[simp] theorem drawBytes_cle (s : State) (n : Nat) : (drawBytes s n).2.cle = s.cle := by
  induction n generalizing s with
  | zero => rfl
  | succ n ih => exact ih (drawBelow s 256).2

/-- Every loop of a list has fresh words of the inertial sensor (12 R469). -/
def freshen (s : State) (ns : List Nat) : State :=
  ns.foldl (fun acc n => modLoop acc n (fun l => { l with imuFresh := true })) s

/-- What `freshen` leaves: the loops of the list are fresh, those that were stay so, and the engine's other fields stay. -/
theorem freshen_fresh (s : State) (ns : List Nat) (n : Nat) (h : n ∈ ns ∨ (loopOf s n).imuFresh = true) :
    (loopOf (freshen s ns) n).imuFresh = true := by
  induction ns generalizing s with
  | nil => simpa [freshen] using h
  | cons k ns ih =>
    refine ih (modLoop s k _) ?_
    by_cases hk : n = k
    · subst hk
      simp
    · rcases h with h | h
      · exact .inl ((List.mem_cons.1 h).resolve_left hk)
      · simp [hk, h]

theorem freshen_cle (s : State) (ns : List Nat) :
    (freshen s ns).cle = { s.cle with loops := (freshen s ns).cle.loops } := by
  induction ns generalizing s with
  | nil => rfl
  | cons k ns ih =>
    have h := ih (modLoop s k (fun l => { l with imuFresh := true }))
    exact h

/-- The bytes that a transaction returns, and those with what the model draws behind them (12 R469, log 3). -/
def imuRead (s : State) (data : List Byte) : List Byte := fit (regFld s 0x0F080 23 20 + 1) data

def imuAll (s : State) (data : List Byte) : List Byte := imuRead s data ++ (drawBytes s (17 - (imuRead s data).length)).1

/-- How often the bytes have come before, as a new read of them counts. -/
def imuRepeats (s : State) (data : List Byte) : Nat := if imuRead s data = s.cle.imuLast then s.cle.imuSame else 0

/-- The sensor as a good transaction leaves it, before its words reach the loops. -/
def imuTaken (s : State) (data : List Byte) : State :=
  modCle (drawBytes s (17 - (imuRead s data).length)).2 (fun e =>
    { e with imuBusy := false, imuWords := (List.range 6).map (imuWord s (imuAll s data)), imuValid := true,
             imuLast := imuRead s data, imuSame := imuRepeats s data + 1, imuFailing := false })

/-- The sensor as a failed transaction leaves it. -/
def imuLost (s : State) (data : List Byte) : State :=
  modCle (drawBytes s (17 - (imuRead s data).length)).2 (fun e =>
    { e with imuBusy := false, imuFailing := true, imuFailed := satAdd 0xFFFF e.imuFailed 1 })

theorem imuEnd_busy {s : State} (data : List Byte) (hr : cleRuns s = true) (hb : s.cle.imuBusy = true) :
    imuEnd s data =
      if imuStatusOk s (imuAll s data) && (regFld s 0x0F094 7 0 == 0 || decide (imuRepeats s data < regFld s 0x0F094 7 0)) then
        setLevel (freshen (imuTaken s data) (List.range 8)) 43 0 3 0 false
      else setLevel (imuLost s data) 43 0 3 0 true := by
  rw [imuEnd, hr, hb]
  rfl

/-- With no status byte to compare and no limit on repeats a transaction is good. -/
theorem imuEnd_good {s : State} (data : List Byte) (hr : cleRuns s = true) (hb : s.cle.imuBusy = true)
    (hst : regBit s 0x0F090 31 = false) (hc : regFld s 0x0F094 7 0 = 0) :
    imuEnd s data = setLevel (freshen (imuTaken s data) (List.range 8)) 43 0 3 0 false := by
  have hok : imuStatusOk s (imuAll s data) = true := by
    have hbit : bit (regAt s 0x0F090) 31 = false := hst
    simp [imuStatusOk, hbit]
  rw [imuEnd_busy data hr hb, hok, hc]
  rfl

/-- A transaction that ends leaves the sensor idle. -/
theorem imuEnd_idle {s : State} (data : List Byte) (hr : cleRuns s = true) (hb : s.cle.imuBusy = true) :
    (imuEnd s data).cle.imuBusy = false := by
  rw [imuEnd_busy data hr hb]
  split
  · have h : (freshen (imuTaken s data) (List.range 8)).cle.imuBusy = false := by rw [freshen_cle]; rfl
    simpa using h
  · simp [imuLost]

/-- Settles O38: each command by what its own operation leaves. -/
theorem loopInputCommands : Obligations.LoopInputCommands := by
  unfold Obligations.LoopInputCommands
  refine ⟨fun s h v r rest hl hf => ⟨_, rfl, totalArrives_cons hl hf⟩, fun s c hr hc hm hb ht => ?_, fun s c code hr hb => ?_,
    fun s hr he ht => ⟨fun hb => ?_, fun hb => ?_⟩, fun s data hr hb => ?_, fun s n hl hn hb => ?_⟩
  · refine ⟨_, rfl, ?_, fun k hk => ?_⟩
    · rw [adcStart_taken hr hc hm hb ht, adcOf_modAdc_same, adcOf_takePulse]
    · rw [adcStart_taken hr hc hm hb ht, adcOf_modAdc_other _ _ _ _ hk, adcOf_takePulse]
  · refine ⟨_, rfl, ?_, fun k hk => ?_⟩
    · rw [adcEnd_converting code hr hb, adcOf_modAdc_same]
    · rw [adcEnd_converting code hr hb, adcOf_modAdc_other _ _ _ _ hk]
  · exact ⟨_, rfl, by rw [imuStart_taken hr he ht, hb]; rfl, by rw [imuStart_taken hr he ht, hb]; rfl⟩
  · exact ⟨_, rfl, by rw [imuStart_taken hr he ht, hb]; rfl, by rw [imuStart_taken hr he ht, hb]; rfl⟩
  · refine ⟨_, rfl, imuEnd_idle data hr hb, fun hst hc => ?_⟩
    have hcle : (imuEnd s data).cle = (freshen (imuTaken s data) (List.range 8)).cle := by
      rw [imuEnd_good data hr hb hst hc]
      simp
    have hrest := hcle.trans (freshen_cle ..)
    refine ⟨by rw [hrest]; rfl, by rw [hrest]; rfl, by rw [hrest]; rfl, by rw [hrest]; simp [imuTaken], fun n hn => ?_⟩
    have hl : loopOf (imuEnd s data) n = loopOf (freshen (imuTaken s data) (List.range 8)) n := by rw [loopOf, hcle, loopOf]
    rw [hl]
    exact freshen_fresh _ _ n (.inl (List.mem_range.2 hn))
  · refine ⟨_, rfl, ?_, ?_⟩ <;> simp [setpStart, hl, hb, show ¬ 6 ≤ n by omega]

end Sys2Proof.Machine
end

section
/-! SUPPORT. A read through a port of a word that parity does not cover (21 R688, R694, R700). -/

namespace Sys2Proof.Machine

/-- What a port does before it serves a read: one through PCI Express takes the link out of L1 (18 R610). -/
def portOpens (b : Bus) (s : State) : State := if b == .pcie then linkWakes s else s

/-- What a port adds to a read that it serves: the word itself, through PCI Express or in an answer of status 0. -/
def readAnswered (b : Bus) (v : Word) (s : State) : State :=
  match b with
  | .pcie => emit s (.readData (readBytes 15 v))
  | .service => svcAnswer s (beBytes 4 v.toNat) 0
  | .script => s

theorem portOpens_only (b : Bus) (s : State) : onlyChanges [.hif] s (portOpens b s) :=
  onlyChanges_ite (linkWakes_only s) (onlyChanges_refl _ _)

theorem readAnswered_only (b : Bus) (v : Word) (s : State) : onlyChanges [.out] s (readAnswered b v s) := by
  cases b with
  | pcie => exact emit_only ..
  | service => exact svcAnswer_only ..
  | script => exact onlyChanges_refl _ _

theorem checkParity_uncovered {s : State} {idx : Nat} (upset : Bool) (h : covered idx = false) :
    checkParity s idx upset = (false, s) := by simp [checkParity, h]

theorem readThrough_reaches {s : State} {b : Bus} {addr : Nat} (h : readReaches s b addr = true) (h4 : addr % 4 = 0)
    (hc : covered (addr / 4) = false) :
    readThrough b addr s
      = readAnswered b (readWord (portOpens b s) (addr / 4)).1 (readWord (portOpens b s) (addr / 4)).2 := by
  have hw : ∀ u, windowServes (linkWakes u) (addr / 4) = windowServes u (addr / 4) := fun u => rfl
  cases b with
  | script => simp [readReaches] at h
  | pcie =>
    simp only [readReaches, Bool.and_eq_true, decide_eq_true_eq, Bool.not_eq_true'] at h
    obtain ⟨⟨⟨hlt, hdoor⟩, hserve⟩, hlive⟩ := h
    simp [readThrough, hlive, pcieRead, portRead, hdoor, hw, hserve, show ¬ 0x40000 ≤ addr by omega,
      checkParity_uncovered _ hc, readAnswered, portOpens]
  | service =>
    simp only [readReaches, Bool.and_eq_true, decide_eq_true_eq, Bool.not_eq_true'] at h
    obtain ⟨⟨⟨hlt, hdoor⟩, hserve⟩, ⟨hao, hns⟩, hinj⟩ := h
    have hbad : svcAddressBad addr = false := by simp [svcAddressBad, h4]; omega
    simp only [readThrough, hao, if_true, svcReadFrame, svcCheck_request s _ _ _ hinj, svcRequest_addr _ _ _ hlt, hbad]
    simp [portRead, hdoor, hns, hserve, show ¬ 0x40000 ≤ addr by omega, checkParity_uncovered _ hc, readAnswered, portOpens]

theorem readReaches_inCycle (c : Option (Nat × Bool)) (s : State) (b : Bus) (addr : Nat) :
    readReaches (inCycle c s) b addr = readReaches s b addr := rfl

/-- The state as a read comes to its word, in a cycle of the collector. -/
def atRead (b : Bus) (c : Option (Nat × Bool)) (s : State) : State := portOpens b (inCycle c s)

theorem atRead_only (b : Bus) (c : Option (Nat × Bool)) (s : State) : onlyChanges [.hif] s (atRead b c s) :=
  onlyChanges_trans (onlyChanges_mono (inCycle_only c s) (by simp)) (portOpens_only ..)

/-- A served read of an uncovered word: the word's own read, the answer, and frames that go where a low-power state has ended. -/
theorem busRead_window {s : State} {b : Bus} {addr : Nat} (h : readReaches s b addr = true) (h4 : addr % 4 = 0)
    (hc : covered (addr / 4) = false) :
    ∃ c, onlyChanges [.out, .free, .pwr, .rng, .hif, .net] (readWord (atRead b c s) (addr / 4)).2 (busRead s b addr) := by
  obtain ⟨c, ho⟩ := inOneCycle_window (readThrough b addr) s
  refine ⟨c, ?_⟩
  rw [readThrough_reaches ((readReaches_inCycle c s b addr).trans h) h4 hc] at ho
  exact onlyChanges_trans (onlyChanges_mono (readAnswered_only ..) (by simp)) ho

/-- The same of a read that leaves the device's power state alone: no frame goes. -/
theorem busRead_window_of_pwr {s : State} {b : Bus} {addr : Nat} (h : readReaches s b addr = true) (h4 : addr % 4 = 0)
    (hc : covered (addr / 4) = false) (hp : ∀ u, (readWord u (addr / 4)).2.pwr = u.pwr) :
    ∃ c, onlyChanges [] (readAnswered b (readWord (atRead b c s) (addr / 4)).1 (readWord (atRead b c s) (addr / 4)).2)
      (busRead s b addr) := by
  have hpo : ∀ u, (portOpens b u).pwr = u.pwr := fun u => (portOpens_only b u).2 .pwr (by decide)
  have hread : ∀ u, readReaches u b addr = true → (readThrough b addr u).pwr = u.pwr := fun u hu => by
    rw [readThrough_reaches hu h4 hc, show ∀ v x, (readAnswered b v x).pwr = x.pwr from fun v x =>
      (readAnswered_only b v x).2 .pwr (by decide), hp, hpo]
  obtain ⟨c, g, hg, he⟩ := oneCycle_cases (fun x => framesGo x (readThrough b addr x)) s
  have hr := (readReaches_inCycle c s b addr).trans h
  refine ⟨c, ?_⟩
  have hstay : framesGo (inCycle c s) (readThrough b addr (inCycle c s)) = readThrough b addr (inCycle c s) :=
    framesGo_of_not_ended fun hs => by rwa [hread _ hr] at hs
  rw [busRead, inOneCycle, he, atRead, ← readThrough_reaches hr h4 hc]
  exact hstay.symm ▸ mark_only _ g hg

end Sys2Proof.Machine
end

section
/-! SUPPORT. The commands of the time counter, its upkeep and the read that latches it (11 R431 to R436). -/

namespace Sys2Proof.Machine

/-! ## What a step of the counter leaves (11 R434, R435, R440) -/

/-- From `s` to `t` the time block changes in its comparators, in the events on their way and in the PPS pulse alone. -/
def counterHeld (s t : State) : Prop :=
  t.tim = { s.tim with trigs := t.tim.trigs, pulses := t.tim.pulses, pps := t.tim.pps }

theorem counterHeld_refl (s : State) : counterHeld s s := rfl

theorem counterHeld_trans {s t u : State} (h1 : counterHeld s t) (h2 : counterHeld t u) : counterHeld s u := by
  rw [counterHeld, h2, h1]

theorem counterHeld_ite {s a b : State} {p : Prop} [Decidable p] (ha : counterHeld s a) (hb : counterHeld s b) :
    counterHeld s (if p then a else b) := by split <;> assumption

theorem counterHeld_of_tim {s t : State} (h : t.tim = s.tim) : counterHeld s t := by rw [counterHeld, h]

theorem counterHeld_modTrig (s : State) (n : Nat) (f : Trig → Trig) : counterHeld s (modTrig s n f) := rfl

theorem counterHeld_sendPulse (n : Nat) (s : State) (c : Consumer) : counterHeld s (sendPulse n s c) := by
  unfold sendPulse
  split <;> rfl

theorem counterHeld_foldl {α : Type} {f : State → α → State} (h : ∀ u a, counterHeld u (f u a)) (l : List α) (s : State) :
    counterHeld s (l.foldl f s) :=
  foldl_inv (counterHeld s) f l s (counterHeld_refl s) (fun u a hu => counterHeld_trans hu (h u a))

theorem counterHeld_trigDeliver (s : State) (n : Nat) : counterHeld s (trigDeliver s n) := by
  unfold trigDeliver
  extract_lets u u1 u2
  have h0 : counterHeld s u := counterHeld_foldl (counterHeld_sendPulse n) _ s
  have h1 : counterHeld s u1 := counterHeld_trans h0 rfl
  have h2 : counterHeld s u2 := counterHeld_trans h1 (counterHeld_ite rfl rfl)
  exact counterHeld_ite (counterHeld_trans h2 (counterHeld_of_tim (by simp))) h2

theorem counterHeld_trigsJump (s : State) (old : Nat) : counterHeld s (trigsJump s old) := by
  refine counterHeld_foldl (fun u n => ?_) _ s
  have hset : counterHeld u (trigSet u n) := counterHeld_modTrig ..
  exact counterHeld_ite (counterHeld_trans hset (counterHeld_trigDeliver ..)) hset

/-- A discipline ends holdover, and holdover alone in the time block (11 R436). -/
@[simp] theorem discipline_tim (s : State) : (discipline s).tim = { s.tim with holdover := false } := by
  unfold discipline endHoldover
  cases h : s.tim.holdover with
  | true => simp
  | false =>
    simp only [Bool.false_eq_true, if_false]
    rw [← h]

theorem discipline_sticky_mono (s : State) (i : Nat) (h : s.flt.sticky.getLsbD i = true) :
    (discipline s).flt.sticky.getLsbD i = true := by
  unfold discipline endHoldover
  split
  · exact setLevel_sticky_mono _ _ _ _ _ _ _ h
  · exact h

/-- A step: the counter stands where it was put, slew and holdover are over, and the step counts. -/
theorem stepTo_tim (s : State) (n : Nat) :
    (stepTo s n).tim.counter = n % counterTop ∧ (stepTo s n).tim.valid = s.tim.valid ∧ (stepTo s n).tim.slew = 0
      ∧ (stepTo s n).tim.holdover = false ∧ (stepTo s n).tim.steps = satAdd 0xFFFF s.tim.steps 1
      ∧ (stepTo s n).tim.increment = s.tim.increment := by
  unfold stepTo
  extract_lets s1
  have h := counterHeld_trigsJump (discipline (raise s1 37 3 0)) s.tim.counter
  rw [counterHeld, discipline_tim, (raise_only s1 37 3 0).2 .tim (by decide)] at h
  exact ⟨by rw [h]; rfl, by rw [h]; rfl, by rw [h]; rfl, by rw [h], by rw [h]; rfl, by rw [h]; rfl⟩

/-- A step asserts TIME_STEPPED. -/
theorem stepTo_sticky (s : State) (n : Nat) (hj : fltJudges s = true) : (stepTo s n).flt.sticky.getLsbD 37 = true := by
  unfold stepTo
  extract_lets s1
  rw [sticky_of_onlyChanges (trigsJump_only ..) (by decide)]
  exact discipline_sticky_mono _ _ (raise_sticky_self s1 _ _ _ hj (by decide))

/-! ## The commands of the counter (11 R434) -/

theorem writeTimCmd_code (s : State) :
    writeTimCmd s (BitVec.ofNat 32 1) = timSet s ∧ writeTimCmd s (BitVec.ofNat 32 2) = timStep s
      ∧ writeTimCmd s (BitVec.ofNat 32 3) = timSlew s ∧ writeTimCmd s (BitVec.ofNat 32 4) = timCancel s
      ∧ writeTimCmd s (BitVec.ofNat 32 5) = discipline s := ⟨rfl, rfl, rfl, rfl, rfl⟩

/-- What a served write of `TIM_CMD` leaves: the time block and the sticky bits are the command's. -/
theorem timCmd_window {s : State} {b : Bus} (code : Nat) (f : State → State)
    (hf : ∀ u, writeTimCmd u (BitVec.ofNat 32 code) = f u) (h : reaches s b 0x0E004 = true) :
    ∃ c t, timCmd b code s = .next t ∧ t.tim = (f (atWindow b (0x0E004 / 4) c s)).tim
      ∧ t.flt.sticky = (f (atWindow b (0x0E004 / 4) c s)).flt.sticky := by
  obtain ⟨c, t, ht, ho⟩ := writeAlone_window h (by decide) (open_timCmd s)
    (fun u => (route_timCmd u (BitVec.ofNat 32 code)).trans (hf u))
  exact ⟨c, t, ht, ho.2 .tim (by decide), sticky_of_onlyChanges ho (by decide)⟩

/-- The counter that SET asks for. -/
def setTime (s : State) : Nat :=
  (((regAt s 0x0E040).toNat + 2 ^ 32 * regFld s 0x0E044 15 0) * 10 ^ 9 + regFld s 0x0E048 29 0) * 2 ^ 32

theorem timSet_eq (s : State) : timSet s = stepTo (modTim s (fun t => { t with valid := true })) (setTime s) := rfl

theorem setTime_atWindow (b : Bus) (idx : Nat) (c : Option (Nat × Bool)) (s : State) :
    setTime (atWindow b idx c s) = setTime s := by simp [setTime]

/-- The counter that STEP asks for. -/
def stepTime (s : State) : Nat := (((s.tim.counter : Int) + timAdj s) % (counterTop : Int)).toNat

theorem timStep_eq (s : State) : timStep s = if s.tim.valid then stepTo s (stepTime s) else timRefuse s := rfl

theorem stepTime_atWindow (b : Bus) (idx : Nat) (c : Option (Nat × Bool)) (s : State) :
    stepTime (atWindow b idx c s) = stepTime s := by simp [stepTime, timAdj]

theorem timAdj_atWindow (b : Bus) (idx : Nat) (c : Option (Nat × Bool)) (s : State) :
    timAdj (atWindow b idx c s) = timAdj s := by simp [timAdj]

theorem timSlew_tim (s : State) : (timSlew s).tim = { s.tim with slew := timAdj s, holdover := false } := by
  rw [timSlew, discipline_tim]
  rfl

/-- Settles O33: the write reaches `TIM_CMD`, and each code leaves what its own operation does. -/
theorem timeCounterCommands : Obligations.TimeCounterCommands := by
  unfold Obligations.TimeCounterCommands
  intro s b h
  refine ⟨?_, fun hv => ?_, fun hv => ?_, ?_, ?_, ?_⟩
  · obtain ⟨c, t, ht, htim, hst⟩ := timCmd_window 1 timSet (fun u => (writeTimCmd_code u).1) h
    obtain ⟨hcounter, hvalid, hslew, hhold, hsteps, hinc⟩ := stepTo_tim
      (modTim (atWindow b (0x0E004 / 4) c s) (fun t => { t with valid := true })) (setTime s)
    rw [timSet_eq, setTime_atWindow] at htim hst
    refine ⟨t, ht, by rw [htim, hcounter]; rfl, by rw [htim, hvalid]; rfl, by rw [htim, hslew], by rw [htim, hhold],
      by rw [htim, hsteps]; simp, by rw [htim, hinc]; simp, fun hj => ?_⟩
    rw [hst]
    refine stepTo_sticky _ _ ?_
    rw [show ∀ u f, fltJudges (modTim u f) = fltJudges u from fun u f => rfl, fltJudges_atWindow, hj]
  · obtain ⟨c, t, ht, htim, hst⟩ := timCmd_window 2 timStep (fun u => (writeTimCmd_code u).2.1) h
    obtain ⟨hcounter, hvalid, hslew, hhold, hsteps, hinc⟩ := stepTo_tim (atWindow b (0x0E004 / 4) c s) (stepTime s)
    have hv' : (atWindow b (0x0E004 / 4) c s).tim.valid = true := by simpa using hv
    rw [timStep_eq, if_pos hv', stepTime_atWindow] at htim hst
    refine ⟨t, ht, by rw [htim, hcounter]; rfl, by rw [htim, hvalid, hv'], by rw [htim, hslew], by rw [htim, hhold],
      by rw [htim, hsteps]; simp, by rw [htim, hinc]; simp, fun hj => ?_⟩
    rw [hst]
    exact stepTo_sticky _ _ (by rw [fltJudges_atWindow, hj])
  · obtain ⟨c, t, ht, htim, -⟩ := timCmd_window 2 timStep (fun u => (writeTimCmd_code u).2.1) h
    refine ⟨t, ht, ?_⟩
    rw [htim, timStep_eq]
    simp [hv, timRefuse]
  · obtain ⟨c, t, ht, htim, -⟩ := timCmd_window 3 timSlew (fun u => (writeTimCmd_code u).2.2.1) h
    exact ⟨t, ht, by rw [htim, timSlew_tim, timAdj_atWindow]; simp⟩
  · obtain ⟨c, t, ht, htim, -⟩ := timCmd_window 4 timCancel (fun u => (writeTimCmd_code u).2.2.2.1) h
    exact ⟨t, ht, by rw [htim]; simp [timCancel]⟩
  · obtain ⟨c, t, ht, htim, -⟩ := timCmd_window 5 discipline (fun u => (writeTimCmd_code u).2.2.2.2) h
    exact ⟨t, ht, by rw [htim]; simp⟩

/-! ## The upkeep of the counter (11 R431, R433, R436) -/

/-- An increment within 2 to 8 ns is applied, and a discipline with it. -/
theorem writeIncrFrac_taken {s : State} {v : Word} {inc : Nat} (hi : inc = regFld s 0x0E008 3 0 * 2 ^ 32 + v.toNat)
    (hlo : 2 * 2 ^ 32 ≤ inc) (hhi : inc ≤ 8 * 2 ^ 32) :
    writeIncrFrac s v = discipline (modTim (setRegAt s 0x0E00C v) (fun t => { t with increment := inc })) := by
  subst hi
  rw [writeIncrFrac, if_pos ⟨hlo, hhi⟩]

theorem writeIncrFrac_refused {s : State} {v : Word} {inc : Nat} (hi : inc = regFld s 0x0E008 3 0 * 2 ^ 32 + v.toNat)
    (h : inc < 2 * 2 ^ 32 ∨ 8 * 2 ^ 32 < inc) : writeIncrFrac s v = timRefuse s := by
  subst hi
  rw [writeIncrFrac, if_neg (by omega)]

@[simp] theorem discipline_regs (s : State) : (discipline s).regs = s.regs := regs_of_onlyChanges (discipline_only s) (by decide)

/-- One word written: it holds the value, and every other word stays. -/
theorem written_of_regs {s t : State} {a : Nat} {v : Word} (h : t.regs = (setRegAt s a v).regs) :
    regAt t a = v ∧ otherWords (a / 4) s t := by
  refine ⟨(getReg_of_regs h (a / 4)).trans (regAt_setRegAt_same _ _ rfl), fun i hi => (getReg_of_regs h i).trans ?_⟩
  exact getReg_setReg_other _ _ _ _ hi

/-- A served write of `TIM_HOLD` with a timeout of zero or within its limits (11 R436). -/
theorem writeHold_taken {s : State} {v : Word} (h : fld v 15 0 = 0 ∨ (100 ≤ fld v 15 0 ∧ fld v 15 0 ≤ 60000)) :
    (writeHold s v).regs = (setRegAt s 0x0E018 (v &&& 0xFFFF#32)).regs
      ∧ (writeHold s v).tim = { s.tim with holdover := if fld v 15 0 = 0 then false else s.tim.holdover } := by
  have hv : regFld (setRegAt s 0x0E018 (v &&& 0xFFFF#32)) 0x0E018 15 0 = fld v 15 0 := by
    rw [regFld, regAt_setRegAt_same _ _ rfl, fld_and_of_set (by decide)]
  unfold writeHold
  simp only [if_pos h, hv]
  by_cases h0 : fld v 15 0 = 0
  · rw [if_pos h0, if_pos h0]
    exact ⟨by rw [← discipline, discipline_regs], by rw [← discipline, discipline_tim]; simp⟩
  · simp [h0]

/-- Holdover begins where the timeout ends with no discipline (11 R436). -/
theorem holdoverNow_due {s : State} (hl : ctrlLive s = true) (hv : s.tim.valid = true) (ht : regFld s 0x0E018 15 0 ≠ 0)
    (hh : s.tim.holdover = false) :
    holdoverNow s = setLevel (modTim s (fun t => { t with holdover := true })) 36 0 3 0 true := by
  simp [holdoverNow, hl, hv, ht, hh]

/-- The read that latches the counter leaves the device's power state alone. -/
theorem readNow_pwr (u : State) : (readWord u (0x0E020 / 4)).2.pwr = u.pwr := rfl

/-- A read of a whole word answers all of it (21 R687). -/
theorem readBytes_all (v : Word) : readBytes 15 v = v := by
  exact BitVec.and_allOnes (x := v)

/-- The word read holds the seconds of the counter just latched (11 R433). -/
theorem nowWord_latchNow (s : State) : nowWord (latchNow s) 0x020 = BitVec.ofNat 32 (nowNs s / 10 ^ 9 % 2 ^ 32) := by
  show at_ 0 (s.tim.counter / 2 ^ 32 / 10 ^ 9 % 2 ^ 32) = _
  simp [at_, nowNs]

/-- Settles O34: each command by what its own operation leaves. -/
theorem timeUpkeepCommands : Obligations.TimeUpkeepCommands := by
  unfold Obligations.TimeUpkeepCommands
  refine ⟨fun s hl hs hr => ?_, fun s b v h => ⟨fun hlo hhi => ?_, fun hout => ?_⟩, fun s b v h ht => ?_,
    fun s hl hv ht hh => ?_, fun s b h => ?_⟩
  · refine ⟨_, rfl, ?_⟩
    simp [slewEnds, hl, hs, hr]
  · obtain ⟨c, t, ht, ho⟩ := writeAlone_window h (by decide) (open_incr s) (fun u => route_incr u v)
    rw [writeIncrFrac_taken (by simp) hlo hhi] at ho
    have hregs := regs_of_onlyChanges ho (by decide)
    refine ⟨t, ht, (ho.2 .tim (by decide)).trans (by simp), written_of_regs (hregs.trans ?_)⟩
    simp
  · obtain ⟨c, t, ht, ho⟩ := writeAlone_window h (by decide) (open_incr s) (fun u => route_incr u v)
    rw [writeIncrFrac_refused (by simp) hout] at ho
    exact ⟨t, ht, (ho.2 .tim (by decide)).trans (by simp [timRefuse]), (regs_of_onlyChanges ho (by decide)).trans (by simp [timRefuse])⟩
  · obtain ⟨c, t, ht', ho⟩ := writeAlone_window h (by decide) (open_hold s) (fun u => route_hold u v)
    obtain ⟨hregs, htim⟩ := writeHold_taken (s := atWindow b (0x0E018 / 4) c s) ht
    have hw := written_of_regs (s := s) (a := 0x0E018) (v := v &&& 0xFFFF#32) (((regs_of_onlyChanges ho (by decide)).trans hregs).trans (by simp))
    exact ⟨t, ht', hw.1, hw.2, ((ho.2 .tim (by decide)).trans htim).trans (by simp)⟩
  · obtain ⟨c, ho⟩ := inOneCycle_window (fun s => holdoverNow s) s
    refine ⟨_, rfl, (ho.2 .tim (by decide)).trans ?_, fun hj hn => ?_⟩
    · rw [holdoverNow_due (s := inCycle c s) hl hv ht hh]
      simp
    · rw [sticky_of_onlyChanges ho (by decide), holdoverNow_due (s := inCycle c s) hl hv ht hh]
      exact setLevel_sticky_self _ _ _ _ _ hj (by decide) hn
  · obtain ⟨c, ho⟩ := busRead_window_of_pwr h (by decide) (by decide) readNow_pwr
    have hread : readWord (atRead b c s) (0x0E020 / 4) = (nowWord (latchNow (atRead b c s)) 0x020, latchNow (atRead b c s)) := rfl
    have htim : (atRead b c s).tim = s.tim := (atRead_only b c s).2 .tim (by decide)
    have hout : (atRead b c s).out = s.out := (atRead_only b c s).2 .out (by decide)
    rw [hread] at ho
    refine ⟨_, rfl, ?_, fun hb => ?_⟩
    · refine (ho.2 .tim (by decide)).trans (((readAnswered_only ..).2 .tim (by decide)).trans ?_)
      simp [latchNow, htim]
    · refine (ho.2 .out (by decide)).trans ?_
      subst hb
      show (atRead .pcie c s).out ++ [Output.readData (readBytes 15 _)] = _
      rw [hout, readBytes_all, nowWord_latchNow, nowNs, htim, nowNs]

end Sys2Proof.Machine
end

section
/-! SUPPORT. What has left the device stays what has left it: the outputs of what delivers frames only grow (02 R46, R81). -/

namespace Sys2Proof.Machine

/-- Every output of `s` is one of `t`, at its place. -/
def outGrows (s t : State) : Prop := s.out <+: t.out

theorem outGrows_of_eq {s t : State} (h : t.out = s.out) : outGrows s t := by rw [outGrows, h]

theorem outGrows_of_only {ps : List Part} {s t : State} (h : onlyChanges ps s t) (hp : Part.out ∉ ps) : outGrows s t :=
  outGrows_of_eq (h.2 .out hp)

theorem outGrows_trans {s t u : State} (h : outGrows s t) (h' : outGrows t u) : outGrows s u := List.IsPrefix.trans h h'

theorem outGrows_ite {p : Prop} [Decidable p] {s t u : State} (h : outGrows s t) (h' : outGrows s u) :
    outGrows s (if p then t else u) := by
  split
  · exact h
  · exact h'

theorem outGrows_emit (s : State) (o : Output) : outGrows s (emit s o) := List.prefix_append _ _

theorem outGrows_foldl {α : Type} (f : State → α → State) (l : List α) (s : State) (h : ∀ t a, outGrows t (f t a)) :
    outGrows s (l.foldl f s) :=
  foldl_inv (fun t => outGrows s t) f l s (outGrows_of_eq rfl) (fun t a ht => outGrows_trans ht (h t a))

theorem outGrows_postWrite (s : State) (addr : Nat) (bytes : List Byte) : outGrows s (postWrite s addr bytes) := by
  unfold postWrite
  split
  · exact outGrows_emit (linkWakes s) _
  · exact outGrows_of_eq rfl

theorem outGrows_signalMsix (s : State) (v : Nat) : outGrows s (signalMsix s v) := by
  unfold signalMsix
  split
  · exact outGrows_of_eq rfl
  split
  · exact outGrows_of_eq rfl
  · exact outGrows_emit (linkWakes s) _

theorem outGrows_ringIrq (s : State) (n : Nat) (force : Bool) : outGrows s (ringIrq s n force) := by
  unfold ringIrq
  extract_lets a s1 count
  split
  · exact outGrows_signalMsix (modRing s1 n (fun r => { r with unsignalled := 0 })) _
  · exact outGrows_of_eq rfl

theorem outGrows_writeCpl (s : State) (c : Cpl) : outGrows s (writeCpl s c) := by
  unfold writeCpl
  split
  · extract_lets r s1 s2
    have h1 : outGrows (releaseSlot s c.ring) s1 := outGrows_postWrite ..
    exact outGrows_trans h1 (outGrows_ringIrq (advance s2 c.ring) _ _)
  · exact outGrows_of_eq rfl

theorem outGrows_completeWord (s : State) (ring slot code detail : Nat) (word fsn : Word) :
    outGrows s (completeWord s ring slot code detail word fsn) := by
  unfold completeWord leaveWork
  split
  · exact outGrows_of_eq rfl
  next w _ =>
    split
    · exact outGrows_of_eq rfl
    dsimp only
    unfold completeDesc
    split
    · exact outGrows_of_eq rfl
    · exact outGrows_writeCpl (stampHost (dropWork s ring slot)).2 _

theorem outGrows_rxDeliver (s : State) (p : Nat) (f : List Byte) (t : Stamp) : outGrows s (rxDeliver s p f t) := by
  unfold rxDeliver
  split
  · exact outGrows_of_eq rfl
  next w _ =>
    extract_lets ts len up addr s1 s2 s3
    refine outGrows_ite (outGrows_of_eq rfl) ?_
    have h1 : outGrows s s1 := outGrows_postWrite ..
    have h2 : outGrows s1 s2 := outGrows_ite (outGrows_postWrite ..) (outGrows_of_eq rfl)
    have h3 : outGrows s3 (idleExits s3) := outGrows_of_only (idleExits_only s3) (by decide)
    exact outGrows_trans h1 (outGrows_trans h2 (outGrows_trans h3 (outGrows_completeWord ..)))

theorem outGrows_rxFlush (s : State) (p : Nat) : outGrows s (rxFlush s p) :=
  outGrows_foldl (fun acc (f : List Byte × Stamp) => rxDeliver acc p f.1 f.2) (portOf s p).waiting (modPort s p (fun e => { e with waiting := [] }))
    fun t f => outGrows_rxDeliver t p f.1 f.2

theorem outGrows_framesGo (before s : State) : outGrows s (framesGo before s) := by
  unfold framesGo
  split
  · exact outGrows_trans (outGrows_rxFlush s 0) (outGrows_rxFlush _ 1)
  · exact outGrows_of_eq rfl

/-- What runs in a cycle, and the frames that go after it: no output is taken back. -/
theorem inOneCycle_grows (f : State → State) (s : State) :
    ∃ c, onlyChanges [.out, .free, .pwr, .rng, .hif, .net] (f (inCycle c s)) (inOneCycle f s)
      ∧ outGrows (f (inCycle c s)) (inOneCycle f s) := by
  obtain ⟨c, g, hg, he⟩ := oneCycle_cases (fun x => framesGo x (f x)) s
  refine ⟨c, ?_⟩
  rw [inOneCycle, he]
  exact ⟨onlyChanges_trans (onlyChanges_mono (framesGo_only ..) (by simp +contextual)) (onlyChanges_mono (mark_only _ g hg) (by simp)),
    outGrows_framesGo (inCycle c s) (f (inCycle c s))⟩

end Sys2Proof.Machine
end

section
/-! SUPPORT. Trigger comparators, the PPS pulse and capture units (11 R438 to R444). -/

namespace Sys2Proof.Machine

theorem trigAddr_of_lt {n : Nat} (hn : n < 8) : trigAddr n = 0x0E100 + 0x20 * n := by rw [trigAddr, Nat.mod_eq_of_lt hn]

theorem trigOf_of_tim {s t : State} (h : t.tim = s.tim) (m : Nat) : trigOf t m = trigOf s m := by rw [trigOf, h, trigOf]

theorem capOf_of_tim {s t : State} (h : t.tim = s.tim) (m : Nat) : capOf t m = capOf s m := by rw [capOf, h, capOf]

/-! ## Arming and stopping (11 R439) -/

theorem bit_withBit_self (v : Word) : bit (withBit v 1) 1 = true := by simp [withBit, bit_or, bit_bitAt]

theorem writeTrigCtrl_arm (s : State) (n : Nat) (v : Word) : writeTrigCtrl s n (withBit v 1) = trigArm s n := by
  rw [writeTrigCtrl, if_pos (bit_withBit_self v)]

theorem writeTrigCtrl_stop (s : State) (n : Nat) (v : Word) :
    writeTrigCtrl s n (withoutBit (withoutBit v 0) 1) = trigStop s n := by
  have h1 : bit (withoutBit (withoutBit v 0) 1) 1 = false := by simp [withoutBit, bit_and, bit_not, bit_bitAt]
  have h0 : bit (withoutBit (withoutBit v 0) 1) 0 = false := by simp [withoutBit, bit_and, bit_not, bit_bitAt]
  rw [writeTrigCtrl, h1, h0]
  rfl

theorem trigOf_trigSet (s : State) (n : Nat) :
    (trigOf (trigSet s n) n).next = (trigNext (trigOf s n).start (trigOf s n).period s.tim.counter).1 := by
  rw [trigSet, trigOf_modTrig_same]

/-- An armed comparator holds its registers' start and period, and its next time by them (11 R439). -/
theorem trigArm_tim (s : State) (n : Nat) :
    (trigArm s n).regs = (setRegAt s (0x0E100 + 0x20 * n) 1#32).regs
      ∧ (trigOf (trigArm s n) n).start = trigStartReg s n ∧ (trigOf (trigArm s n) n).period = trigPeriodReg s n
      ∧ (trigOf (trigArm s n) n).next = (trigNext (trigStartReg s n) (trigPeriodReg s n) s.tim.counter).1
      ∧ ∀ m, m ≠ n → trigOf (trigArm s n) m = trigOf s m := by
  refine ⟨by simp [trigArm, trigSet], ?_, ?_, ?_, fun m hm => ?_⟩
  · simp [trigArm, trigSet]
  · simp [trigArm, trigSet]
  · rw [trigArm, trigOf_trigSet, trigOf_modTrig_same]
    have hc : (modTrig (setRegAt s (0x0E100 + 0x20 * n) 1#32) n
        (fun e => { e with start := trigStartReg s n, period := trigPeriodReg s n })).tim.counter = s.tim.counter := by simp
    generalize trigStartReg s n = start at *
    generalize trigPeriodReg s n = period at *
    generalize setRegAt s (0x0E100 + 0x20 * n) 1#32 = u at *
    exact congrArg (fun x => (trigNext start period x).1) hc
  · rw [trigArm, trigSet, trigOf_modTrig_other _ _ _ _ hm, trigOf_modTrig_other _ _ _ _ hm]
    exact trigOf_of_tim (by simp) m

/-- A stopped comparator has no event due. -/
theorem trigStop_tim (s : State) (n : Nat) :
    (trigStop s n).regs = (setRegAt s (0x0E100 + 0x20 * n) 0#32).regs
      ∧ trigOf (trigStop s n) n = { trigOf s n with next := none } ∧ ∀ m, m ≠ n → trigOf (trigStop s n) m = trigOf s m := by
  have hleave := loopsLeave_only s n
  have hwait : onlyChanges [.tg] _ (trigStop s n) := foldl_only (onlyChanges_refl _ _) (fun u h => trigWaitOff_only n u h)
  have htim : (trigStop s n).tim
      = (modTrig (setRegAt (loopsLeave s n) (0x0E100 + 0x20 * n) 0#32) n (fun e => { e with next := none })).tim :=
    hwait.2 .tim (by decide)
  have hbefore : (setRegAt (loopsLeave s n) (0x0E100 + 0x20 * n) 0#32).tim = s.tim := by
    simp [show (loopsLeave s n).tim = s.tim from hleave.2 .tim (by decide)]
  refine ⟨?_, ?_, fun m hm => ?_⟩
  · rw [regs_of_onlyChanges hwait (by decide)]
    simp [regs_of_onlyChanges hleave (by decide)]
  · rw [trigOf_of_tim htim, trigOf_modTrig_same, trigOf_of_tim hbefore]
  · rw [trigOf_of_tim htim, trigOf_modTrig_other _ _ _ _ hm, trigOf_of_tim hbefore]

theorem trigStartReg_atWindow (b : Bus) (idx : Nat) (c : Option (Nat × Bool)) (s : State) (n : Nat) :
    trigStartReg (atWindow b idx c s) n = trigStartReg s n := by simp [trigStartReg]

theorem trigPeriodReg_atWindow (b : Bus) (idx : Nat) (c : Option (Nat × Bool)) (s : State) (n : Nat) :
    trigPeriodReg (atWindow b idx c s) n = trigPeriodReg s n := by simp [trigPeriodReg]

/-! ## A comparator's event (11 R438, R441, R442) -/

theorem mem_sendPulse {p : Consumer × Nat} {s : State} (n : Nat) (x : Consumer) (h : p ∈ s.tim.pulses) :
    p ∈ (sendPulse n s x).tim.pulses := by
  unfold sendPulse
  split
  · exact h
  · exact List.mem_append_left _ h

theorem mem_sendPulse_self (n : Nat) (s : State) (x : Consumer) : (x, n) ∈ (sendPulse n s x).tim.pulses := by
  unfold sendPulse
  split
  next h => exact List.contains_iff_mem.1 h
  next => exact List.mem_append_right _ (List.mem_singleton.2 rfl)

/-- An event goes to every consumer of a list. -/
theorem mem_sendPulses (n : Nat) {x : Consumer} {xs : List Consumer} (s : State) (h : x ∈ xs ∨ (x, n) ∈ s.tim.pulses) :
    (x, n) ∈ (xs.foldl (sendPulse n) s).tim.pulses := by
  induction xs generalizing s with
  | nil => simpa using h
  | cons y ys ih =>
    refine ih _ ?_
    rcases h with h | h
    · rcases List.mem_cons.1 h with rfl | h
      · exact .inr (mem_sendPulse_self n s x)
      · exact .inl h
    · exact .inr (mem_sendPulse n y h)

theorem sendPulses_rest (n : Nat) (xs : List Consumer) (s : State) :
    (xs.foldl (sendPulse n) s).tim = { s.tim with pulses := (xs.foldl (sendPulse n) s).tim.pulses }
      ∧ (xs.foldl (sendPulse n) s).out = s.out := by
  refine foldl_inv (fun t => t.tim = { s.tim with pulses := t.tim.pulses } ∧ t.out = s.out) _ xs s ⟨rfl, rfl⟩ (fun t x ht => ?_)
  unfold sendPulse
  split
  · exact ht
  · exact ⟨by rw [ht.1], ht.2⟩

/-- What an event of comparator `n` leaves: its count, its sign that leaves the block, and the pulses of its consumers. -/
theorem trigDeliver_leaves (s : State) (n : Nat) :
    trigOf (trigDeliver s n) n = { trigOf s n with count := (trigOf s n).count + 1#32 }
      ∧ (∀ m, m ≠ n → trigOf (trigDeliver s n) m = trigOf s m) ∧ s.out ++ [.trigger n] <+: (trigDeliver s n).out
      ∧ (∀ x, x ∈ trigConsumers s n → (x, n) ∈ (trigDeliver s n).tim.pulses) := by
  unfold trigDeliver
  extract_lets u u1 u2
  obtain ⟨hrest, hout⟩ := sendPulses_rest n (trigConsumers s n) s
  have hu : ∀ m, trigOf u m = trigOf s m := fun m => by rw [trigOf, hrest, trigOf]
  have hu1 : ∀ m, trigOf u1 m = trigOf (modTrig u n (fun e => { e with count := e.count + 1#32 })) m := fun m => rfl
  have h2 : u2.tim.trigs = u1.tim.trigs ∧ u2.tim.pulses = u1.tim.pulses ∧ u1.out <+: u2.out := by
    show (if _ then _ else u1 : State).tim.trigs = _ ∧ (if _ then _ else u1 : State).tim.pulses = _ ∧ _ <+: (if _ then _ else u1 : State).out
    split
    · exact ⟨rfl, rfl, List.prefix_append _ _⟩
    · exact ⟨rfl, rfl, List.prefix_rfl⟩
  obtain ⟨htrigs, hpulses, hprefix⟩ := h2
  have hlast : ∀ v : State, v.tim = u2.tim → v.out = u2.out →
      trigOf v n = { trigOf s n with count := (trigOf s n).count + 1#32 } ∧ (∀ m, m ≠ n → trigOf v m = trigOf s m)
        ∧ s.out ++ [.trigger n] <+: v.out ∧ (∀ x, x ∈ trigConsumers s n → (x, n) ∈ v.tim.pulses) := fun v hv ho => by
    have ht : ∀ m, trigOf v m = trigOf u1 m := fun m => by rw [trigOf, hv, htrigs, trigOf]
    refine ⟨?_, fun m hm => ?_, ?_, fun x hx => ?_⟩
    · rw [ht, hu1, trigOf_modTrig_same, hu]
    · rw [ht, hu1, trigOf_modTrig_other _ _ _ _ hm, hu]
    · rw [ho]
      have h1 : u1.out = s.out ++ [.trigger n] := congrArg (· ++ [Output.trigger n]) hout
      exact h1 ▸ hprefix
    · rw [hv, hpulses]
      exact mem_sendPulses n s (.inl hx)
  split
  · exact hlast _ (by simp) (by simp)
  · exact hlast _ rfl rfl

/-- The state in which a comparator's event leaves: the counter stands at its time or beyond it, and its next time is set. -/
def trigReached (s : State) (n due : Nat) : State :=
  modTrig (modTim s (fun e => { e with counter := Nat.max e.counter (due * 2 ^ 16) })) n
    (fun e => { e with next := if (trigOf s n).period = 0 then none else some (due + (trigOf s n).period) })

theorem trigFire_due {s : State} {n due : Nat} (hl : ctrlLive s = true) (hn : n < 8) (he : trigEnabled s n = true)
    (hd : (trigOf s n).next = some due) : trigFire s n = trigDeliver (trigReached s n due) n := by
  simp only [trigFire, hl, he, hd, show ¬ 8 ≤ n by omega]
  rfl

theorem mem_trigConsumers_loop {s : State} {n k : Nat} (hk : k < 8) (he : loopEnabled s k = true)
    (hc : loopChoice s k = some n) : Consumer.loop k ∈ trigConsumers s n := by
  have h : k ∈ idxWhere 8 (fun m => loopEnabled s m && loopChoice s m == some n) := by simp [idxWhere, hk, he, hc]
  simp only [trigConsumers, List.mem_append, List.mem_map]
  exact .inl (.inl (.inl ⟨k, h, rfl⟩))

theorem mem_trigConsumers_round {s : State} {n : Nat} (hc : roundChoice s = some n) : Consumer.round ∈ trigConsumers s n := by
  simp [trigConsumers, hc]

/-! ## Capture units (11 R443, R444) -/

/-- The time that a unit records draws a free value at most. -/
theorem captureNs_tim (s : State) (src : Nat) : (captureNs s src).2.tim = s.tim ∧ (captureNs s src).2.regs = s.regs := by
  unfold captureNs
  split
  · exact ⟨rfl, rfl⟩
  · dsimp only
    split <;> simp

theorem captureNs_late {s : State} {src : Nat} (h : 14 ≤ src) : (captureNs s src).1 = nowNs s := by simp [captureNs, h]

/-- A unit that records an edge takes it into its FIFO, or shows that it was full. -/
theorem captureNow_records {s : State} {n : Nat} {rising : Bool} (hl : ctrlLive s = true) (hb : blockStopped s 8 = false)
    (hn : n < 8) (he : regBit s (0x0E200 + 0x20 * n) 7 = true) (hs : regFld s (0x0E200 + 0x20 * n) 4 0 ≠ 0)
    (hedge : captureEdge (regFld s (0x0E200 + 0x20 * n) 4 0) (regFld s (0x0E200 + 0x20 * n) 6 5) rising = true) :
    capOf (captureNow s n rising) n =
      if 4 ≤ (capOf s n).fifo.length then { capOf s n with overflow := true }
      else { capOf s n with fifo := (capOf s n).fifo
        ++ [{ ns := (captureNs s (regFld s (0x0E200 + 0x20 * n) 4 0)).1, holdover := s.tim.holdover }] } := by
  have he' : bit (regAt s (0x0E200 + 0x20 * n)) 7 = true := he
  have hs' : fld (regAt s (0x0E200 + 0x20 * n)) 4 0 ≠ 0 := hs
  have hedge' : captureEdge (fld (regAt s (0x0E200 + 0x20 * n)) 4 0) (fld (regAt s (0x0E200 + 0x20 * n)) 6 5) rising = true := hedge
  have hcap := capOf_of_tim (captureNs_tim s (fld (regAt s (0x0E200 + 0x20 * n)) 4 0)).1 n
  have hsig : ∀ u v, (signalMsix u v).tim = u.tim := fun u v => by simp
  have hskip : (!ctrlLive s || blockStopped s 8 || decide (8 ≤ n) || !bit (regAt s (0x0E200 + 0x20 * n)) 7
      || fld (regAt s (0x0E200 + 0x20 * n)) 4 0 == 0
      || !captureEdge (fld (regAt s (0x0E200 + 0x20 * n)) 4 0) (fld (regAt s (0x0E200 + 0x20 * n)) 6 5) rising) = false := by
    simp [hl, hb, he', hedge', hs', show ¬ 8 ≤ n by omega]
  simp only [captureNow, hskip, Bool.false_eq_true, if_false, hcap]
  split
  · rw [capOf_modCap_same, hcap]
  · split
    · rw [capOf_of_tim (hsig _ _), capOf_modCap_same, hcap]
      rfl
    · rw [capOf_modCap_same, hcap]
      rfl

theorem capturePops_cons {s : State} {n : Nat} {r : CapRec} {rest : List CapRec} (h : (capOf s n).fifo = r :: rest) :
    capturePops s n = modCap s n (fun e => { e with fifo := rest, current := r }) := by rw [capturePops, h]

/-- The read of a unit's oldest record gives it up. -/
theorem readWord_capture (u : State) {n : Nat} (hn : n < 8) :
    (readWord u ((0x0E208 + 0x20 * n) / 4)).2 = capturePops u n := by
  interval_cases n <;> rfl

theorem covered_capture {n : Nat} (hn : n < 8) : covered ((0x0E208 + 0x20 * n) / 4) = false := by
  interval_cases n <;> decide

/-- Settles O35: each command by what its own operation leaves. -/
theorem triggerAndCaptureCommands : Obligations.TriggerAndCaptureCommands := by
  unfold Obligations.TriggerAndCaptureCommands
  refine ⟨fun s b n v hn h => ⟨?_, ?_⟩, fun s n due hl hn he hd => ?_, fun s hl hp => ?_, fun s n rising hl hb hn he hs hedge => ?_,
    fun s b n r rest hn h hf => ?_⟩
  · obtain ⟨c, t, ht, ho⟩ := writeAlone_window h (by omega) (open_trigCtrl s n hn)
      (fun u => (route_trigCtrl u n (withBit v 1) hn).trans (writeTrigCtrl_arm u n v))
    obtain ⟨hregs, hstart, hperiod, hnext, hother⟩ := trigArm_tim (atWindow b ((0x0E100 + 0x20 * n) / 4) c s) n
    have htim := fun m => trigOf_of_tim (ho.2 .tim (by decide)) m
    obtain ⟨hv, hw⟩ := written_of_regs (s := s) (a := 0x0E100 + 0x20 * n) (v := 1#32)
      (((regs_of_onlyChanges ho (by decide)).trans hregs).trans (by simp))
    refine ⟨t, by rw [exec, execTriggerArm, trigAddr_of_lt hn, ht], by rw [trigEnabled, regBit, hv]; rfl,
      by rw [htim, hstart, trigStartReg_atWindow], by rw [htim, hperiod, trigPeriodReg_atWindow],
      by rw [htim, hnext, trigStartReg_atWindow, trigPeriodReg_atWindow]; simp, fun m hm => ?_, hw⟩
    rw [htim, hother m hm]
    exact trigOf_of_tim (by simp) m
  · obtain ⟨c, t, ht, ho⟩ := writeAlone_window h (by omega) (open_trigCtrl s n hn)
      (fun u => (route_trigCtrl u n (withoutBit (withoutBit v 0) 1) hn).trans (writeTrigCtrl_stop u n v))
    obtain ⟨hregs, hself, hother⟩ := trigStop_tim (atWindow b ((0x0E100 + 0x20 * n) / 4) c s) n
    have htim := fun m => trigOf_of_tim (ho.2 .tim (by decide)) m
    have hbefore := fun m => trigOf_of_tim (s := s) (t := atWindow b ((0x0E100 + 0x20 * n) / 4) c s) (by simp) m
    obtain ⟨hv, hw⟩ := written_of_regs (s := s) (a := 0x0E100 + 0x20 * n) (v := 0#32)
      (((regs_of_onlyChanges ho (by decide)).trans hregs).trans (by simp))
    exact ⟨t, by rw [exec, execTriggerDisable, trigAddr_of_lt hn, ht], by rw [trigEnabled, regBit, hv]; rfl,
      by rw [htim, hself, hbefore], fun m hm => by rw [htim, hother m hm, hbefore], hw⟩
  · obtain ⟨c, ho, hprefix⟩ := inOneCycle_grows (fun s => trigFire s n) s
    rw [trigFire_due (s := inCycle c s) hl hn he hd] at ho hprefix
    obtain ⟨hself, hother, hout, hpulses⟩ := trigDeliver_leaves (trigReached (inCycle c s) n due) n
    have htim : (inOneCycle (fun s => trigFire s n) s).tim = _ := ho.2 .tim (by decide)
    have hheld := counterHeld_trigDeliver (trigReached (inCycle c s) n due) n
    refine ⟨_, rfl, ?_, ?_, ?_, fun k hk he hc => ?_, fun hc => ?_, fun m hm => ?_⟩
    · rw [trigOf_of_tim htim, hself, trigReached, trigOf_modTrig_same]
      rfl
    · rw [htim, hheld]
      rfl
    · exact hout.trans (show _ <+: _ from hprefix)
    · rw [htim]
      exact hpulses _ (mem_trigConsumers_loop hk he hc)
    · rw [htim]
      exact hpulses _ (mem_trigConsumers_round hc)
    · rw [trigOf_of_tim htim, hother m hm, trigReached, trigOf_modTrig_other _ _ _ _ hm]
      rfl
  · exact ⟨_, rfl, by rw [if_pos hl, ppsEnds, if_pos hp]; rfl, by rw [if_pos hl, ppsEnds, if_pos hp]; rfl⟩
  · refine ⟨_, rfl, ?_⟩
    rw [captureNow_records hl hb hn he hs hedge]
    split
    · rfl
    · exact ⟨_, rfl, fun h => captureNs_late h⟩
  · obtain ⟨c, ho⟩ := busRead_window h (by omega) (covered_capture hn)
    rw [readWord_capture _ hn] at ho
    have hcap := fun m => capOf_of_tim (s := s) (t := atRead b c s) ((atRead_only b c s).2 .tim (by decide)) m
    rw [capturePops_cons ((congrArg Cap.fifo (hcap n)).trans hf)] at ho
    have htim := fun m => capOf_of_tim (ho.2 .tim (by decide)) m
    refine ⟨_, by rw [exec, execCapturePop, Nat.mod_eq_of_lt hn], ?_, fun m hm => ?_⟩
    · rw [htim, capOf_modCap_same, hcap]
    · rw [htim, capOf_modCap_other _ _ _ _ hm, hcap]

end Sys2Proof.Machine
end

section
/-! SUPPORT. States in which a statement about the rings fails: a completion that is held keeps its place before the next one,
work whose reads are over outlives FORGET, and a message of the link ends L1 (02 R45, R69, R102). -/

namespace Sys2Proof.Machine

/-- The block after its release sequence: no reach stands, every domain is on, the data link is up. -/
def released : State :=
  { State.reset with
    rst := { State.reset.rst with reach := 0, sources := [], step := 0, done := 8, hifReady := true }
    hif := { State.reset.hif with linkUp := true } }

/-- A register word given a value. -/
def putWord (s : State) (addr : Nat) (v : Word) : State := { s with regs := Store.put regReset s.regs (addr / 4) v }

/-- Ring 31 is a COMPLETE ring of 16 entries in service. -/
def completeRing : State := putWord released (0x03108 + 0x20 * 31) 0x45#32

/-- An OK completion for ring 31, which waits its turn. -/
def waitingCpl : Cpl :=
  { ring := 31, tag := 0#16, code := 0, detail := 0, replayed := false, word := 0#32, fsn := 0#32, time := 0#32, irq := false }

/-- Every entry of ring 31 is written and none is released; a completion waits for it. -/
def fullRing : State :=
  modRing { completeRing with rng := { completeRing.rng with held := [waitingCpl] } } 31 (fun r => { r with unreleased := 16 })

/-- Refutes O10: a doorbell that releases an entry of a full COMPLETE ring lets the completion that is held for it be written,
so that as many entries stand unreleased as before. -/
theorem not_ringRegisterCommands : ¬ Obligations.RingRegisterCommands := by
  unfold Obligations.RingRegisterCommands
  intro h
  obtain ⟨hbell, _, _⟩ := h
  obtain ⟨_, hrelease⟩ := hbell fullRing 31 1#32 (by decide +kernel) (by decide +kernel) (by decide +kernel) (by decide)
    (by decide +kernel) (by decide) (by decide +kernel)
  obtain ⟨t, ht, hring, _⟩ := hrelease 1 (by decide +kernel) (by decide +kernel) (by decide +kernel) (by decide) (by decide +kernel)
  injection ht with ht
  have hclaim : (ringOf t 31).unreleased = 15 := by rw [hring]; rfl
  rw [← ht] at hclaim
  exact absurd hclaim (by decide +kernel)

/-- A journal holds the rings, and a LAST_WRITE of ring 0 executes. -/
def journalledWrite : State :=
  { released with rng := { released.rng with
      journal := some { regs := [], rings := [] }
      work := [{ ring := 0, slot := 0, role := 6, cpl := 31, desc := { opcode := 6, flags := 0, tag := 0#16, csn := 0#32, body := [], dcrc := 0#32 },
                 dcrcOk := true, stage := 1, waits := [], stitches := 0, data := .data [], bad := none, closes := none }] } }

/-- Refutes O11: FORGET keeps a LAST_WRITE whose host reads are over, under a number that is no ring's. -/
theorem not_journalCommands : ¬ Obligations.JournalCommands := by
  unfold Obligations.JournalCommands
  intro h
  obtain ⟨t, ht, _, hforget⟩ := h.2 journalledWrite .pcie (by decide +kernel)
  obtain ⟨_, _, hwork, _⟩ := hforget rfl
  injection ht with ht
  rw [← ht] at hwork
  exact absurd (congrArg List.length hwork) (by decide +kernel)

/-- A NOP of no fields. -/
def plainNop : Desc := { opcode := 0, flags := 0, tag := 0#16, csn := 0#32, body := [], dcrc := 0#32 }

/-- The ring engine runs, ring 30 has a NOP to fetch, and a completion waits for ring 31. -/
def heldBefore : State :=
  let s := modRing (putWord (putWord completeRing 0x03000 1#32) (0x03108 + 0x20 * 30) 0x21F41#32) 30 (fun r => { r with hostIdx := 1 })
  { s with rng := { s.rng with held := [waitingCpl] } }

/-- Refutes O15: behind a completion that is held for its ring, the completion of a NOP is held too. -/
theorem not_commonDescriptors : ¬ Obligations.CommonDescriptors := by
  unfold Obligations.CommonDescriptors
  intro h
  obtain ⟨hnop, _⟩ := h heldBefore 30 plainNop
  obtain ⟨t, ht, hdone, _⟩ := hnop (descOf 0 plainNop) rfl (by decide) (by decide +kernel) (by decide +kernel)
  obtain ⟨_, _, _, _, _, _, _, hout⟩ := hdone (by decide +kernel)
  injection ht with ht
  rw [← ht] at hout
  have hnone : ∀ u : State, u.out.length = 0 → u.out = [] := fun u hu => List.length_eq_zero_iff.1 hu
  rw [hnone _ (by decide +kernel)] at hout
  exact List.not_mem_nil hout

/-- The link is in L1; an interrupt of ring 31 waits for its time, on a vector that is not masked. -/
def restingLink : State :=
  let s := modRing (putWord (putWord released (0x0310C + 0x20 * 31) 0x000A009F#32) (0x0180C + 16 * 31) 0#32) 31
    (fun r => { r with unsignalled := 1 })
  { s with hif := { s.hif with l1 := true } }

/-- Refutes O17: the interrupt that falls due takes the link out of L1. -/
theorem not_hostTimers : ¬ Obligations.HostTimers := by
  unfold Obligations.HostTimers
  intro h
  obtain ⟨_, hirq, _⟩ := h
  obtain ⟨t, ht, _, hv⟩ := hirq restingLink 31 (by decide +kernel) (by decide) (by decide +kernel) (by decide +kernel) (by decide +kernel)
  have hsent := hv _ rfl
  rw [if_neg (by decide +kernel)] at hsent
  injection ht with ht
  have hrests : t.hif.l1 = true := by rw [hsent.1]; rfl
  rw [← ht] at hrests
  exact absurd hrests (by decide +kernel)

end Sys2Proof.Machine
end

section
/-! SUPPORT. States in which a statement about host reads fails: an earlier change set is in check, and the journal of a HOST
reach holds every read of the host while the rings wait (02 R88, R100, R102). -/

namespace Sys2Proof.Machine

/-- A descriptor of an opcode with the body's leading bytes. -/
def bodied (opcode : Nat) (first : List Byte) : Desc :=
  { opcode := opcode, flags := 0, tag := 0#16, csn := 0#32, body := first ++ List.replicate (52 - first.length) 0#8, dcrc := 0#32 }

/-- A LAYER_SET of slot 0 that names a parameter block of 16 bytes. -/
def namingBlock : Member :=
  { ring := 2, slot := 1, cpl := 31, desc := bodied 1 (List.replicate 32 0#8 ++ [16#8]), dcrcOk := true, block := none,
    moved := false, range := 0 }

/-- A change set in check whose first parameter block has still to be read. -/
def awaitingBlock (csn : Word) : ChangeSet := { csn := csn, members := [namingBlock], stage := .checking, ltr := none }

/-- Change sets 5 and 7 of Head A are in check. -/
def twoInCheck : State := modRngHead released .a (fun e => { e with sets := [awaitingBlock 5#32, awaitingBlock 7#32] })

/-- Refutes O13: of two change sets in check the later one's block is not being read, so that no read of it fails. -/
theorem not_changeSetReads : ¬ Obligations.ChangeSetReads := by
  unfold Obligations.ChangeSetReads
  intro h
  obtain ⟨_, hfail⟩ := h.1 twoInCheck .a 7#32 0 (awaitingBlock 7#32) namingBlock (by decide +kernel) (by decide +kernel)
    (by decide +kernel) rfl (by decide +kernel) rfl
  obtain ⟨t, ht, herr, _⟩ := hfail 0
  injection ht with ht
  rw [← ht] at herr
  exact absurd herr (by decide +kernel)

/-- The journal of a HOST reach stands. -/
def journalOn (s : State) : State := { s with rng := { s.rng with journal := some { regs := [], rings := [] } } }

/-- An upload of calibration codes waits for its bytes while the journal stands. -/
def uploadInJournal : State :=
  { journalOn released with pxc := { released.pxc with cal := some {
      ring := 0, slot := 1, desc := bodied 5 [], head := .a, offset := 0, data := [], stage := 0, shown := 0, latched := none,
      sectors := [], failed := false, badRead := false } } }

/-- Refutes O16: while the journal stands, no read of an upload ends. -/
theorem not_fetchEndings : ¬ Obligations.FetchEndings := by
  unfold Obligations.FetchEndings
  intro h
  obtain ⟨_, hcal, _⟩ := h
  obtain ⟨hfail, _⟩ := hcal uploadInJournal _ (by decide +kernel) (by decide +kernel) rfl rfl
  obtain ⟨t, ht, herr, _⟩ := hfail 0
  injection ht with ht
  rw [← ht] at herr
  exact absurd herr (by decide +kernel)

/-- The one-wire unit has fetched a frame for chain 0, whose bytes are still to be read, while the journal stands. -/
def frameInJournal : State :=
  modChain (journalOn released) 0 (fun e => { e with staged := some (0, 1, []), ready := false })

/-- Refutes O39: while the journal stands, no read of a one-wire frame ends. -/
theorem not_oneWireChains : ¬ Obligations.OneWireChains := by
  unfold Obligations.OneWireChains
  intro h
  obtain ⟨_, hfail⟩ := h.1 frameInJournal 0 0 1 [] (by decide +kernel) (by decide +kernel) (by decide +kernel) (by decide +kernel)
    (by decide +kernel)
  obtain ⟨t, ht, _, herr, _⟩ := hfail 0
  injection ht with ht
  rw [← ht] at herr
  exact absurd herr (by decide +kernel)

/-- A receive buffer of 100 bytes for port 0. -/
def rxWork : Work :=
  { ring := 0, slot := 1, role := 11, cpl := 31, desc := bodied 10 [0#8, 0#8, 0#8, 0#8, 100#8], dcrcOk := true, stage := 1,
    waits := [], stitches := 0, data := .data [], bad := none, closes := none }

/-- Port 0 takes every frame and has a receive buffer, while the journal stands. -/
def portInJournal : State :=
  let s := modPort (putWord (journalOn released) 0x0D100 9#32) 0 (fun e => { e with link := true })
  { s with rng := { s.rng with work := [rxWork] } }

/-- Refutes O32: while the journal stands, a frame from the network finds no buffer. -/
theorem not_networkFrames : ¬ Obligations.NetworkFrames := by
  unfold Obligations.NetworkFrames
  intro h
  obtain ⟨_, hframe⟩ := h.1 portInJournal 0 (List.replicate 60 0#8) (by decide +kernel) (by decide) (by decide +kernel) (by decide +kernel)
    (by decide +kernel)
  obtain ⟨_, hrx⟩ := hframe (by decide)
  obtain ⟨t, ht, hout, _⟩ := hrx rxWork (by decide +kernel) (by decide +kernel) (by decide +kernel) (by decide +kernel) (by decide +kernel)
    (by decide +kernel) (by decide +kernel) (by decide +kernel) (by decide +kernel) (by decide +kernel)
  injection ht with ht
  have hnone : ∀ u : State, u.out.length = 0 → u.out = [] := fun u hu => List.length_eq_zero_iff.1 hu
  rw [← ht, hnone _ (by decide +kernel)] at hout
  exact List.not_mem_nil hout

end Sys2Proof.Machine
end

section
/-! SUPPORT. States in which a statement about a head or a reset fails: the timing in force still needs a message, a sweep has
taken its run from a cache that is no longer valid, and a reach above COLD is recorded (02 R51, 04 R178, 08 R302, 19 R642). -/

namespace Sys2Proof.Machine

/-- Head A runs with a host-memory layer and short lines; a commit of longer lines is in check, the last message was for a
tolerance between the two, and its spacing runs. -/
def slowerCommit : State :=
  let s := modSlot released .a 7 (fun e => { e with enabled := true, width := 16, height := 16 })
  let u := modTg s .a (fun t => { t with state := 2, checking := some [], force := [((tgBase .a + 0x30) / 4, 10000#32)] })
  { u with hif := { u.hif with ltrLast := some 20000, ltrHoldoff := true } }

set_option maxRecDepth 100000 in
/-- The commit passes its check under every down-spread of the core clock. -/
theorem commitFail_slowerCommit : commitFail slowerCommit .a [] = none := by
  suffices H : ∀ s, s = slowerCommit → commitFail s .a [] = none from H _ rfl
  intro s e
  simp only [commitFail, budgetFail, clientNeed, fetchNeed, pixelsPerPeriod, planWith]
  have hd : Config.coreSpread % 5 ∈ List.range 5 := List.mem_range.2 (Nat.mod_lt _ (by decide))
  generalize Config.coreSpread % 5 = d at *
  subst e
  revert d
  decide +kernel

/-- `slowerCommit` in the cycle of its command. -/
def slowerInCycle : State := inCycle (some (slowerCommit.flt.entries.length, slowerCommit.flt.firstValid)) slowerCommit

/-- A lower tolerance has to be sent before the commit, and the spacing holds it back. -/
theorem lower_slowerCommit :
    (commitRates slowerInCycle .a [] && ltrLower slowerInCycle.hif.ltrLast (toleranceNow (modTg slowerInCycle .a (fun t => { t with commitWait := true })))
      && ltrDiffers slowerInCycle.hif.ltrLast (toleranceNow (modTg slowerInCycle .a (fun t => { t with commitWait := true })))) = true := by
  decide +kernel

theorem commitFail_inCycle (c : Option (Nat × Bool)) (s : State) (h : Head) (m : Store Word) :
    commitFail (inCycle c s) h m = commitFail s h m := rfl

/-- A command's effect outside the collector is that of its work in its cycle. -/
theorem tg_oneCycle {s : State} (h : s.flt.cycle = none) (f : State → State) :
    (oneCycle f s).tg = (f (inCycle (some (s.flt.entries.length, s.flt.firstValid)) s)).tg := by
  rw [oneCycle, h]
  rfl

/-- A commit that passes its check waits while the message before it is held back. -/
theorem commitCheckEnd_held {s : State} {h : Head} {m : Store Word} (hm : (s.tg.get h).checking = some m)
    (hw : (s.tg.get h).commitWait = false) (hl : pixLive s = true) (hf : commitFail s h m = none)
    (hlow : (commitRates s h m && ltrLower s.hif.ltrLast (toleranceNow (modTg s h (fun t => { t with commitWait := true })))
      && ltrDiffers s.hif.ltrLast (toleranceNow (modTg s h (fun t => { t with commitWait := true })))) = true)
    (hh : s.hif.ltrHoldoff = true) :
    (commitCheckEnd s h).tg = (modTg s h (fun t => { t with commitWait := true })).tg ∧ (commitCheckEnd s h).rng = s.rng := by
  unfold commitCheckEnd
  rw [hm]
  simp only [hw, hl, hf]
  rw [if_neg (by simp), if_pos hlow, if_pos hh]
  exact ⟨rfl, rfl⟩

theorem commitCheckEnd_slowerInCycle :
    ((commitCheckEnd slowerInCycle .a).tg.get .a).pending = none ∧ (commitCheckEnd slowerInCycle .a).rng.work = [] := by
  have hfail : commitFail slowerInCycle .a [] = none := by rw [slowerInCycle, commitFail_inCycle, commitFail_slowerCommit]
  obtain ⟨htg, hrng⟩ := commitCheckEnd_held (s := slowerInCycle) (h := .a) (m := []) rfl rfl (by decide +kernel) hfail lower_slowerCommit rfl
  rw [htg, hrng]
  exact ⟨rfl, rfl⟩

theorem exec_tgCommitCheckEnd (s : State) (h : Head) :
    exec (.tgCommitCheckEnd h) s = .next (inOneCycle (fun s => ringSettle (commitCheckEnd s h)) s) := rfl

/-- Where no descriptor waits, the check of a commit leaves the generators as its work in its cycle does. -/
theorem tg_tgCommitCheckEnd {s t : State} {h : Head} (hc : s.flt.cycle = none) (ht : exec (.tgCommitCheckEnd h) s = .next t)
    (hw : (commitCheckEnd (inCycle (some (s.flt.entries.length, s.flt.firstValid)) s) h).rng.work = []) :
    t.tg = (commitCheckEnd (inCycle (some (s.flt.entries.length, s.flt.firstValid)) s) h).tg := by
  rw [exec_tgCommitCheckEnd] at ht
  rw [← Host.Outcome.next.inj ht, inOneCycle, tg_oneCycle hc]
  refine Eq.trans ((framesGo_only _ _).2 .tg (by decide)) ?_
  rw [ringSettle_of_noWork hw]

/-- Refutes O21: the tolerance that is judged takes in the timing in force, whose lines are shorter than the commit's, so that
the commit waits for a message. -/
theorem not_commitOfTiming : ¬ Obligations.CommitOfTiming := by
  unfold Obligations.CommitOfTiming
  intro h
  obtain ⟨_, hpend⟩ := h.2 slowerCommit .a [] (by decide +kernel) (by decide +kernel) (by decide +kernel) rfl (by decide +kernel)
  obtain ⟨t, ht, htg⟩ := hpend commitFail_slowerCommit (by decide +kernel) (by decide +kernel)
  obtain ⟨hpending, hwork⟩ := commitCheckEnd_slowerInCycle
  rw [slowerInCycle] at hpending hwork
  rw [← tg_tgCommitCheckEnd rfl ht hwork, htg] at hpending
  exact absurd hpending (by simp)

/-- A sweep of Head A took slot 0 from the flatten cache, whose entry has become invalid since. -/
def spentCache : State :=
  let s := modTg released .a (fun t => { t with active := true, full := true, force := [(bldBase .a / 4, 1#32)] })
  modBld (modSlot s .a 0 (fun e => { e with enabled := true, kind := 1, block := [0#8, 0#8, 32#8] })) .a
    (fun e => { e with fromCache := true })

/-- Refutes O22: a slot that the sweep reads from the flatten cache is not late, though the cache's entry is no longer valid. -/
theorem not_sweepEvents : ¬ Obligations.SweepEvents := by
  unfold Obligations.SweepEvents
  intro h
  obtain ⟨_, _, _, hlate, _⟩ := h
  obtain ⟨t, ht, htg, _⟩ := hlate spentCache .a 0 0 (by decide) (by decide +kernel) (by decide +kernel) (by decide +kernel)
    (by decide +kernel) (by decide +kernel) (by decide +kernel)
  injection ht with ht
  have hfull : (t.tg.get .a).full = false := by rw [htg]
  rw [← ht] at hfull
  exact absurd hfull (by decide +kernel)

/-- Refutes O49: the power-on detector's source leaves a recorded reach above COLD as it is. -/
theorem not_resetSources : ¬ Obligations.ResetSources := by
  unfold Obligations.ResetSources
  intro h
  obtain ⟨t, ht, _, hreach, _⟩ := h.1 { darkAboveCold with pending := [] } .powerOnDetect 0 (by simp)
  injection ht with ht
  rw [← ht, powerOnDetect_darkAboveCold.2] at hreach
  exact absurd hreach (by decide)

end Sys2Proof.Machine
end

section
/-! SUPPORT. States in which a statement about lanes fails: the end of a port's link asserts a fault, on which a standing DARK
request is sent on the lanes of its head, and a word of the equalisation table keeps its parity error (09 R336, 16 R551). -/

namespace Sys2Proof.Machine

/-- Port 0 has its link over lane 16; on Head A, whose tile 0 is on an ACTIVE lane, a DARK request waits to be placed. -/
def darkWaiting : State :=
  let s := putWord (putWord released 0x0D100 1#32) (tgBase .a + 0x80) 0x80000000#32
  let u := modLane (modLane s 16 (fun e => { e with pstate := 3 })) 0 (fun e => { e with pstate := 3, stream := .commas, setPlace := 5 })
  { modPort u 0 (fun e => { e with link := true }) with saf := { u.saf with dark := Pair.both true } }

/-- Refutes O26: as lane 16 leaves ACTIVE its port loses its link, and the assertion places a DARK sequence on lane 0. -/
theorem not_laneAlignment : ¬ Obligations.LaneAlignment := by
  unfold Obligations.LaneAlignment
  intro h
  obtain ⟨_, _, hpstate⟩ := h.1 darkWaiting .pcie 16 0#32 (by decide) (by decide +kernel)
  obtain ⟨hlower, _⟩ := hpstate (by decide) (by decide)
  obtain ⟨t, ht, _, _, _, hothers, _⟩ := hlower (by decide +kernel)
  injection ht with ht
  have hplace : (laneOf t 0).setPlace = 5 := by rw [hothers 0 (by decide)]; rfl
  rw [← ht] at hplace
  exact absurd hplace (by decide +kernel)

/-- Lane 0 has an update point before it, and its word of the equalisation table has failed its parity before. -/
def spoiltTable : State :=
  let s := modLane released 0 (fun e => { e with pstate := 3, eqPending := true, eqColumn := 7 })
  { s with tableBad := [(eqIndex 0 (bandInForce s), false)] }

/-- Refutes O27: a word that has failed its parity before is not taken until it is rewritten. -/
theorem not_laneTuning : ¬ Obligations.LaneTuning := by
  unfold Obligations.LaneTuning
  intro h
  obtain ⟨hgood, _⟩ := h.1 spoiltTable 0 _ _ (by decide +kernel) (by decide +kernel) (by decide +kernel) rfl rfl
  obtain ⟨t, ht, hlane⟩ := hgood (by decide +kernel)
  injection ht with ht
  have hcolumn : (laneOf t 0).eqColumn = bandInForce spoiltTable := by rw [hlane]
  rw [← ht] at hcolumn
  exact absurd hcolumn (by decide +kernel)

end Sys2Proof.Machine
end

section
/-! SUPPORT. States in which a statement about tiles, power or blocks fails: a write of the forwarding requests names every pair
of its head, and a pair that is not asked for gives up its switch as well (10 R406). -/

namespace Sys2Proof.Machine

/-- On Head A pair 0 is asked to forward and its lane is not aligned; pair 1 travels by code 1 with its lane aligned. -/
def twoPairs : State :=
  let s := modLane (putWord released (tblBase .a + 8) 1#32) 2 (fun e => { e with aligned := true })
  modTbl s .a (fun b => { b with route := 4 })

/-- Refutes O30: a write that withdraws both requests leaves pair 0 as it is and begins the switch back of pair 1. -/
theorem not_tileRequests : ¬ Obligations.TileRequests := by
  unfold Obligations.TileRequests
  intro h
  obtain ⟨_, _, hreturn⟩ := h
  obtain ⟨_, hstays⟩ := hreturn twoPairs .pcie .a 0#32 0 (by decide +kernel) (by decide) (by decide +kernel) (by decide +kernel)
    (by decide +kernel) _ rfl
  obtain ⟨t, ht, _, htbl⟩ := hstays (by decide +kernel)
  injection ht with ht
  have hswitching : (t.tbl.get .a).switching = 0 := by rw [htbl]; rfl
  rw [← ht] at hswitching
  exact absurd hswitching (by decide +kernel)

/-- Lane `k` of Head A is ACTIVE and aligned, and tile `k` is READY in configuration 7. -/
def readyTile (s : State) (k : Nat) : State :=
  modTile (modLane s k (fun e => { e with pstate := 3, aligned := true, elastic := 4, stream := .commas })) .a k (fun e =>
    { e with epoch := 7, shownEpoch := 7, fresh := true, state := 2, info := 0xFFFFFFFF#32, maxW := 1023, maxH := 1023 })

/-- A HEALTH record of tile 2 of one pixel, SHORT, in row 0 and column 1, under configuration 7. -/
def shortRecord : TileRecord :=
  let r : TileRecord :=
    { seq := 9, fsn := 0, crc := 0#32, symbols := true, fill := 0, body := [0#8, 0#8, 1#8, 0#8, 1#8, 0#8, 0#8, 0#8, 7#8] }
  { r with crc := BitVec.ofNat 32 (recordCrc .a 2 0x83 7 r) }

/-- Tile 2 of Head A reports a pixel that is SUSPECT of a SHORT, and an injection of FS02 is armed for the bank of its word. -/
def suspectArmed : State :=
  let s := putWord (putWord (readyTile released 2) (tblBase .a) 9#32) 0x12080 0x80024202#32
  { s with mem := Store.put memDefault s.mem 0x01200200 0xAF#8 }

/-- Refutes O28: the injected error stands in the word that the confirmed state is written to; the search for a cluster reads
the word, and its repair leaves NO_REPORT there. -/
theorem not_tileRecords : ¬ Obligations.TileRecords := by
  unfold Obligations.TileRecords
  intro h
  obtain ⟨_, _, _, _, hhealth, _⟩ := h suspectArmed .a 2 shortRecord (by decide +kernel) (by decide) (by decide +kernel)
  obtain ⟨t, ht, _, hprobed, _⟩ := hhealth (by decide +kernel) (by decide +kernel) rfl rfl _ _ _ rfl rfl rfl (by decide +kernel)
    (by decide +kernel)
  obtain ⟨hstate, _⟩ := hprobed (by decide +kernel)
  injection ht with ht
  rw [← ht] at hstate
  exact absurd hstate (by decide +kernel)

/-- Tile 0 of Head A has not acknowledged a row that lies past its frame buffer, in a word of its FLAT region with a stored
error; a sweep is active, and the end of a frame waits in the tile's stream. -/
def staleRow : State :=
  let s := modTg (readyTile released 0) .a (fun g => { g with active := true, full := true })
  let u := modTile s .a 0 (fun e =>
    { e with unacked := [(254, { ptype := 3, fsn := 0, body := [0#8, 8#8] })], queue := [{ ptype := 5, fsn := 0, body := [] }] })
  { u with lmm := { u.lmm with bad := [524288] } }

/-- Refutes O29: the replay reads the word, and the sweep that is abandoned for it withdraws packets of the tile. -/
theorem not_tileTimers : ¬ Obligations.TileTimers := by
  unfold Obligations.TileTimers
  intro h
  obtain ⟨hreplay, _⟩ := h.1 staleRow .a 0 (by decide +kernel) (by decide)
  obtain ⟨t, ht, htile, _⟩ := hreplay (by decide +kernel) (by decide +kernel) (by decide +kernel)
  injection ht with ht
  have hqueue : (tileOf t .a 0).queue.length = 1 := by rw [htile]; rfl
  rw [← ht] at hqueue
  exact absurd hqueue (by decide +kernel)

/-- An exit from DOZE has every domain on, and lane 0 returns to ACTIVE; a fault is a wake event, and the lane's word of the
equalisation table has failed its parity. -/
def exitWithBadWord : State :=
  let s := putWord (putWord released (laneBase 0) 3#32) 0x15020 0x10#32
  { s with pwr := { s.pwr with state := 2, phase := 4, lanesWere := [(0, 3)] }, tableBad := [(eqIndex 0 (bandInForce s), false)] }

/-- Refutes O48: the parity error is asserted again as the lane takes its column, and the exit records it as a wake event. -/
theorem not_powerExit : ¬ Obligations.PowerExit := by
  unfold Obligations.PowerExit
  intro h
  obtain ⟨hend, _⟩ := h.2 exitWithBadWord true (by decide +kernel) (by decide +kernel) (by decide +kernel)
  obtain ⟨t, ht, _, _, _, _, _, hcause, _⟩ := hend (fun _ => rfl) rfl rfl (fun _ => rfl)
  injection ht with ht
  have hnone : t.pwr.cause = 0#32 := by rw [hcause]; rfl
  rw [← ht] at hnone
  exact absurd hnone (by decide +kernel)

/-- The word of the first pixels of the health map has a stored error; its second byte shows two pixels as good. -/
def spoiltHealth : State :=
  { released with
    mem := Store.put memDefault released.mem 0x01200001 0#8
    lmm := { released.lmm with bad := [0x120000] } }

/-- Refutes O25: the word is read before one pixel of it is cleared, and its repair leaves NO_REPORT in all of it. -/
theorem not_pixelConditioning : ¬ Obligations.PixelConditioning := by
  unfold Obligations.PixelConditioning
  intro h
  obtain ⟨_, _, hclear, _⟩ := h
  obtain ⟨hone, _⟩ := hclear spoiltHealth .pcie .a 0#32 (by decide +kernel) (by decide +kernel) (by decide +kernel)
  obtain ⟨t, ht, _, hother, _⟩ := hone _ (by decide) (by decide +kernel) rfl
  injection ht with ht
  have hbyte : memGet t 0x01200001 = 0#8 := by
    rw [hother 0x01200001 (by decide +kernel)]
    decide +kernel
  rw [← ht] at hbyte
  exact absurd hbyte (by decide +kernel)

end Sys2Proof.Machine
end

section
/-! SUPPORT. The power state around a command's cycle, and the requests and wake events that change it (18 R612 to R624). -/

namespace Sys2Proof.Machine

/-! ## Frames that go leave the power state alone, but for IDLE (18 R612, R620) -/

/-- From `s` to `t` the power controller changes only where `s` is in IDLE. -/
def pwrRests (s t : State) : Prop := s.pwr.state ≠ 1 → t.pwr = s.pwr

theorem pwrRests_of_pwr {s t : State} (h : t.pwr = s.pwr) : pwrRests s t := fun _ => h

theorem pwrRests_of_only {ps : List Part} {s t : State} (h : onlyChanges ps s t) (hp : Part.pwr ∉ ps) : pwrRests s t :=
  pwrRests_of_pwr (h.2 .pwr hp)

theorem pwrRests_trans {s t u : State} (h1 : pwrRests s t) (h2 : pwrRests t u) : pwrRests s u := fun hs => by
  rw [h2 (by rw [h1 hs]; exact hs), h1 hs]

theorem pwrRests_ite {s a b : State} {p : Prop} [Decidable p] (ha : pwrRests s a) (hb : pwrRests s b) :
    pwrRests s (if p then a else b) := by split <;> assumption

theorem pwrRests_idleExits (s : State) : pwrRests s (idleExits s) := fun hs => by rw [idleExits, if_neg hs]

theorem pwrRests_postWrite (s : State) (a : Nat) (bs : List Byte) : pwrRests s (postWrite s a bs) :=
  pwrRests_of_only (postWrite_only ..) (by decide)

theorem pwrRests_rxDeliver (s : State) (p : Nat) (f : List Byte) (t : Stamp) : pwrRests s (rxDeliver s p f t) := by
  unfold rxDeliver
  split
  · exact pwrRests_of_only (dropNoBuf_only ..) (by decide)
  · extract_lets ts len up addr s1 s2 s3
    have h1 : pwrRests s s1 := pwrRests_postWrite _ _ _
    have h2 : pwrRests s s2 := pwrRests_ite (pwrRests_trans h1 (pwrRests_postWrite _ _ _)) h1
    have h3 : pwrRests s s3 := pwrRests_trans h2 (pwrRests_of_only (modPort_only ..) (by decide))
    exact pwrRests_ite (pwrRests_of_only (dropTooLong_only ..) (by decide))
      (pwrRests_trans h3 (pwrRests_trans (pwrRests_idleExits _) (pwrRests_of_only (completeWord_only ..) (by decide))))

theorem pwrRests_rxFlush (s : State) (p : Nat) : pwrRests s (rxFlush s p) :=
  foldl_inv (pwrRests s) _ _ _ (pwrRests_of_only (modPort_only ..) (by decide))
    (fun _ _ h => pwrRests_trans h (pwrRests_rxDeliver _ _ _ _))

theorem pwrRests_framesGo (before s : State) : pwrRests s (framesGo before s) :=
  pwrRests_ite (pwrRests_trans (pwrRests_rxFlush _ _) (pwrRests_rxFlush _ _)) (pwrRests_of_pwr rfl)

/-- What runs in a cycle leaves the power state that it leaves by itself, but for IDLE. -/
theorem inOneCycle_pwr (f : State → State) (s : State) :
    ∃ c, onlyChanges [.out, .free, .pwr, .rng, .hif, .net] (f (inCycle c s)) (inOneCycle f s)
      ∧ ((f (inCycle c s)).pwr.state ≠ 1 → (inOneCycle f s).pwr = (f (inCycle c s)).pwr)
      ∧ ((s.pwr.state < 2 ∨ 2 ≤ (f (inCycle c s)).pwr.state) → onlyChanges [] (f (inCycle c s)) (inOneCycle f s)) := by
  obtain ⟨c, g, hg, he⟩ := oneCycle_cases (fun x => framesGo x (f x)) s
  refine ⟨c, ?_⟩
  rw [inOneCycle, he]
  refine ⟨onlyChanges_trans (onlyChanges_mono (framesGo_only ..) (by simp +contextual)) (onlyChanges_mono (mark_only _ g hg) (by simp)),
    fun h1 => pwrRests_framesGo _ _ h1, fun h2 => ?_⟩
  have hstay : framesGo (inCycle c s) (f (inCycle c s)) = f (inCycle c s) := by
    refine framesGo_of_not_ended fun hs => ?_
    rcases h2 with h2 | h2
    · exact h2
    · omega
  exact hstay.symm ▸ mark_only _ g hg

/-- A write of a word of PWR comes to it with the power state as it was (18 R614). -/
theorem atWindow_pwr (b : Bus) {idx : Nat} (c : Option (Nat × Bool)) (s : State) (h : idx / 1024 = 21) :
    (atWindow b idx c s).pwr = s.pwr := by
  simp [atWindow, portWakes, h]
  split <;> simp

/-- A served write of a word of PWR leaves the power state that its window leaves, but for IDLE. -/
theorem ran_pwr {b : Bus} {idx : Nat} {f : State → State} {s t : State} (h : ran b idx f s t) :
    ∃ c, (f (atWindow b idx c s)).pwr.state ≠ 1 → t.pwr = (f (atWindow b idx c s)).pwr := by
  obtain ⟨c, g, -, rfl⟩ := h
  refine ⟨c, fun h1 => ?_⟩
  have ha : ∀ u, (answered b u).pwr = u.pwr := fun u => (answered_only b u).2 .pwr (by decide)
  have hf := pwrRests_framesGo (inCycle c s) (answered b (f (atWindow b idx c s))) (by rw [ha]; exact h1)
  rw [ha] at hf
  exact hf

/-- The same where no low-power state ends, whatever the state is. -/
theorem ran_pwr_of_stays {b : Bus} {idx : Nat} {f : State → State} {s t : State} (h : ran b idx f s t)
    (hf : ∀ c, (f (atWindow b idx c s)).pwr.state < 2 → s.pwr.state < 2) :
    ∃ c, t.pwr = (f (atWindow b idx c s)).pwr := by
  obtain ⟨c, g, -, rfl⟩ := h
  refine ⟨c, ?_⟩
  have ha : ∀ u, (answered b u).pwr = u.pwr := fun u => (answered_only b u).2 .pwr (by decide)
  have hstay : framesGo (inCycle c s) (answered b (f (atWindow b idx c s))) = answered b (f (atWindow b idx c s)) :=
    framesGo_of_not_ended fun hs => hf c (by rwa [ha] at hs)
  change (framesGo (inCycle c s) (answered b (f (atWindow b idx c s)))).pwr = _
  rw [hstay, ha]

/-! ## Wake events (18 R620, R623, R624) -/

@[simp] theorem domainsDown_atWindow (b : Bus) (idx : Nat) (c : Option (Nat × Bool)) (s : State) :
    domainsDown (atWindow b idx c s) = domainsDown s := by simp [domainsDown]

theorem beginExit_pwr (s : State) (bits : Word) :
    (beginExit s bits).pwr = { s.pwr with phase := 4, cause := s.pwr.cause ||| bits, awaiting := domainsDown s, missed := [] } := rfl

theorem lanesReturn_pwr (s : State) : (lanesReturn s).pwr = { s.pwr with lanesWere := [] } := by
  simp [lanesReturn, modPwr, foldl_keep (fun s => s.pwr)]

theorem abortEntry_pwr (s : State) :
    (abortEntry s).pwr = { s.pwr with phase := 0, state := 0, target := 0, agreed := [], asking := 0, byTimer := false, lanesWere := [] } := by
  simp [abortEntry, modPwr, lanesReturn_pwr]

section Wake

variable {s : State} {b : Nat}

/-- An event that does not act in the state in force changes nothing. -/
theorem wake_of_not_acts (hp : s.pwr.phase = 0) (ha : regBit s 0x15020 b = false ∨ wakeActs s s.pwr.state b = false) :
    wake s b = s := by
  unfold wake
  rcases ha with ha | ha <;> simp [hp, ha]

variable (hb : regBit s 0x15020 b = true)

include hb

/-- In a low-power state an enabled event begins the exit. -/
theorem wake_resting (hp : s.pwr.phase = 0) (ha : wakeActs s s.pwr.state b = true) : wake s b = beginExit s (bitAt b true) := by
  simp [wake, hb, hp, ha]

/-- Past the point of no return it is latched. -/
theorem wake_leaving (hp : s.pwr.phase = 3) (ha : wakeActs s s.pwr.target b = true) :
    wake s b = modPwr s (fun p => { p with latch := p.latch ||| bitAt b true }) := by
  simp [wake, hb, hp, ha]

/-- Before it, with every domain up, it ends the entry. -/
theorem wake_entering (hp : s.pwr.phase = 1 ∨ s.pwr.phase = 2) (hd : domainsDown s = [])
    (ha : wakeActs s s.pwr.target b = true) : wake s b = abortEntry s := by
  rcases hp with hp | hp <;> simp [wake, hb, hp, ha, entryWakes, hd]

end Wake

/-! ## Requests (18 R613) -/

theorem powerRequest_pwr (s : State) (target : Nat) (byTimer : Bool) :
    (powerRequest s target byTimer).pwr =
      if s.pwr.phase ≠ 0 ∨ s.pwr.state = target ∨ 3 ≤ s.pwr.state then { s.pwr with refused := true }
      else { s.pwr with awaiting := domainsDown s, missed := [], phase := 1, target := target, asking := 1, agreed := [],
                        byTimer := byTimer, saveNext := target == 4 } := by
  unfold powerRequest
  split <;> rfl

theorem powerRequest_state (s : State) (target : Nat) (byTimer : Bool) : (powerRequest s target byTimer).pwr.state = s.pwr.state := by
  rw [powerRequest_pwr]
  split <;> rfl

/-- A code written to `PWR_CMD`. -/
theorem pwrCmd_ran {s : State} {b : Bus} (code : Nat) (f : State → State)
    (hf : ∀ u, writePwrCmd u (BitVec.ofNat 32 code) = f u) (h : reaches s b 0x15008 = true) :
    ∃ t, pwrCmd b code s = .next t ∧ ran b (0x15008 / 4) f s t :=
  writeAlone_ran s b _ _ f h (by decide) (open_pwrCmd s) (fun u => (route_pwrCmd u _).trans (hf u))

/-- A request by command. -/
theorem pwrCmd_request {s : State} {b : Bus} (code target : Nat)
    (hf : ∀ u, writePwrCmd u (BitVec.ofNat 32 code) = powerRequest u target false) (h : reaches s b 0x15008 = true) :
    ∃ t, pwrCmd b code s = .next t ∧ t.pwr = (powerRequest s target false).pwr := by
  obtain ⟨t, ht, hran⟩ := pwrCmd_ran code _ hf h
  have hpwr : ∀ c, (atWindow b (0x15008 / 4) c s).pwr = s.pwr := fun c => atWindow_pwr b c s (by decide)
  obtain ⟨c, hc⟩ := ran_pwr_of_stays hran fun c hs => by rwa [powerRequest_state, hpwr] at hs
  refine ⟨t, ht, ?_⟩
  rw [hc, powerRequest_pwr, powerRequest_pwr, hpwr, domainsDown_atWindow]

/-- A write of RUN is a wake event of bit 0. -/
theorem pwrRun_wakes {s : State} {b : Bus} (h : reaches s b 0x15008 = true) :
    ∃ t, pwrCmd b 4 s = .next t ∧ ran b (0x15008 / 4) (wake · 0) s t := pwrCmd_ran 4 _ (fun _ => rfl) h

theorem timerRequest_pwr {s : State} {target : Nat} (he : regBit s 0x15000 (target - 1) = true) (hi : idleHolds s = true)
    (hs : s.pwr.state < 3) : timerRequest s target = powerRequest s target true := by
  simp [timerRequest, he, hi, hs]

/-- Every state that a write of RUN ends takes bit 0 (18 R623). -/
theorem wakeActs_run (s : State) {st : Nat} (h2 : 2 ≤ st) (h4 : st ≤ 4) : wakeActs s st 0 = true := by
  obtain rfl | rfl | rfl : st = 2 ∨ st = 3 ∨ st = 4 := by omega
  all_goals rfl

theorem wakeActs_awake (s : State) {st : Nat} (b : Nat) (h : st < 2) : wakeActs s st b = false := by
  obtain rfl | rfl : st = 0 ∨ st = 1 := by omega
  all_goals rfl

/-- What a write of RUN leaves of the power state: an exit that begins, no change, or an entry that is given up. -/
theorem pwrRun_pwr {s : State} {b : Bus} (h : reaches s b 0x15008 = true) (hb : regBit s 0x15020 0 = true) :
    ∃ t, pwrCmd b 4 s = .next t
      ∧ (s.pwr.phase = 0 → 2 ≤ s.pwr.state → s.pwr.state ≤ 4 → t.pwr = (beginExit s (bitAt 0 true)).pwr)
      ∧ (s.pwr.phase = 0 → s.pwr.state < 2 → t.pwr = s.pwr)
      ∧ (s.pwr.phase = 1 → domainsDown s = [] → 2 ≤ s.pwr.target → s.pwr.target ≤ 4 → t.pwr = (abortEntry s).pwr) := by
  obtain ⟨t, ht, hran⟩ := pwrRun_wakes h
  have hpwr : ∀ c, (atWindow b (0x15008 / 4) c s).pwr = s.pwr := fun c => atWindow_pwr b c s (by decide)
  have hbit : ∀ c, regBit (atWindow b (0x15008 / 4) c s) 0x15020 0 = true := fun c => by rw [regBit_atWindow, hb]
  refine ⟨t, ht, fun hp h2 h4 => ?_, fun hp h2 => ?_, fun hp hd h2 h4 => ?_⟩
  · have hw : ∀ c, wake (atWindow b (0x15008 / 4) c s) 0 = beginExit (atWindow b (0x15008 / 4) c s) (bitAt 0 true) := fun c =>
      wake_resting (hbit c) (by rw [hpwr, hp]) (wakeActs_run _ (by rwa [hpwr]) (by rwa [hpwr]))
    obtain ⟨c, hc⟩ := ran_pwr_of_stays hran fun c hs => by
      rw [hw, beginExit_pwr] at hs
      rwa [hpwr] at hs
    rw [hc, hw, beginExit_pwr, beginExit_pwr, hpwr, domainsDown_atWindow]
  · have hw : ∀ c, wake (atWindow b (0x15008 / 4) c s) 0 = atWindow b (0x15008 / 4) c s := fun c =>
      wake_of_not_acts (by rw [hpwr, hp]) (.inr (wakeActs_awake _ _ (by rwa [hpwr])))
    obtain ⟨c, hc⟩ := ran_pwr_of_stays hran fun _ _ => h2
    rw [hc, hw, hpwr]
  · have hw : ∀ c, wake (atWindow b (0x15008 / 4) c s) 0 = abortEntry (atWindow b (0x15008 / 4) c s) := fun c =>
      wake_entering (hbit c) (.inl (by rw [hpwr, hp])) (by rw [domainsDown_atWindow, hd])
        (wakeActs_run _ (by rwa [hpwr]) (by rwa [hpwr]))
    obtain ⟨c, hc⟩ := ran_pwr hran
    rw [hw, abortEntry_pwr, hpwr] at hc
    rw [hc Nat.zero_ne_one, abortEntry_pwr]

/-! ## Wake events from outside (18 R623, R624) -/

theorem wakeActs_le {s : State} {st b : Nat} (h : wakeActs s st b = true) : b < 10 := by
  unfold wakeActs at h
  split at h
  · simp at h; omega
  · simp at h; omega
  · simp at h; omega
  · cases h

theorem latchEdge_pwr (s : State) (pin : Nat) (rising : Bool) :
    (latchEdge s pin rising).pwr = { s.pwr with edges := (latchEdge s pin rising).pwr.edges } := by
  unfold latchEdge
  split <;> rfl

/-- A wake event that its trigger, its pin and its edge enable is the event of its bit, but for edges that are latched. -/
theorem wakeArrives_pwr {s : State} {w : Nat} (hb : w % 16 < 10) (h6 : w % 16 = 6 → regBit s 0x15024 (w / 16 % 8) = true)
    (h7 : w % 16 = 7 → regBit s 0x15024 (8 + w / 16 % 8) = true ∧ regBit s 0x15024 (16 + w / 16 % 8) = nbit w 7) :
    (wakeArrives s w).pwr = { (wake s (w % 16)).pwr with edges := (wakeArrives s w).pwr.edges } := by
  have hn : ¬ 10 ≤ w % 16 := by omega
  unfold wakeArrives
  dsimp only
  rw [if_neg (by rintro ⟨h, hf⟩; simp [h6 h] at hf), if_neg (by rintro ⟨h, hf⟩; simp [(h7 h).1, (h7 h).2] at hf), if_neg hn]
  split
  · next h =>
    rw [h]
    exact latchEdge_pwr ..
  · rfl

/-- The wake timer's event, and its counter at zero. -/
theorem wakeTimer_running {s : State} (h : regAt s 0x15030 ≠ 0#32) : wakeTimer s = wake (setRegAt s 0x15030 0#32) 8 := if_neg h

/-- A wake event from outside in its cycle. -/
def wakeCycle (w : Nat) (s : State) : State := inOneCycle (fun s => if aoLive s then wakeArrives s w else s) s

/-- The wake timer's expiry in its cycle. -/
def wakeTimerCycle (s : State) : State := inOneCycle (fun s => if aoLive s then wakeTimer s else s) s

/-- What a wake event from outside leaves of the power state: an exit that begins, its bit latched, or an entry that is given
up, and edges. -/
theorem wake_cycle_pwr {s : State} {w : Nat} (ha : aoLive s = true) (hb : regBit s 0x15020 (w % 16) = true)
    (h6 : w % 16 = 6 → regBit s 0x15024 (w / 16 % 8) = true)
    (h7 : w % 16 = 7 → regBit s 0x15024 (8 + w / 16 % 8) = true ∧ regBit s 0x15024 (16 + w / 16 % 8) = nbit w 7) :
    ∃ edges, (s.pwr.phase = 0 → wakeActs s s.pwr.state (w % 16) = true →
        (wakeCycle w s).pwr = { (beginExit s (bitAt (w % 16) true)).pwr with edges := edges })
      ∧ (s.pwr.phase = 3 → wakeActs s s.pwr.target (w % 16) = true →
        (wakeCycle w s).pwr = { s.pwr with latch := s.pwr.latch ||| bitAt (w % 16) true, edges := edges })
      ∧ (s.pwr.phase = 1 ∨ s.pwr.phase = 2 → domainsDown s = [] → wakeActs s s.pwr.target (w % 16) = true →
        (wakeCycle w s).pwr = { (abortEntry s).pwr with edges := edges }) := by
  unfold wakeCycle
  obtain ⟨c, -, hpwr, hstay⟩ := inOneCycle_pwr (fun s => if aoLive s then wakeArrives s w else s) s
  have hin : (if aoLive (inCycle c s) then wakeArrives (inCycle c s) w else inCycle c s) = wakeArrives (inCycle c s) w := if_pos ha
  rw [hin] at hpwr hstay
  have hacts : ∀ st, wakeActs (inCycle c s) st (w % 16) = wakeActs s st (w % 16) := fun st => rfl
  have hwake : ∀ st, wakeActs s st (w % 16) = true → (wakeArrives (inCycle c s) w).pwr
      = { (wake (inCycle c s) (w % 16)).pwr with edges := (wakeArrives (inCycle c s) w).pwr.edges } := fun st hst =>
    wakeArrives_pwr (wakeActs_le hst) h6 h7
  refine ⟨(wakeArrives (inCycle c s) w).pwr.edges, fun hp hst => ?_, fun hp hst => ?_, fun hp hd hst => ?_⟩
  · have hw : wake (inCycle c s) (w % 16) = beginExit (inCycle c s) (bitAt (w % 16) true) :=
      wake_resting hb hp ((hacts _).trans hst)
    have hpw := hwake _ hst
    rw [hw, beginExit_pwr] at hpw
    have hstate : 2 ≤ s.pwr.state := by
      by_contra hlt
      rw [wakeActs_awake _ _ (by omega)] at hst
      cases hst
    have hno1 : (wakeArrives (inCycle c s) w).pwr.state = s.pwr.state := by rw [hpw]; rfl
    rw [hpwr (by omega), hpw]
    rfl
  · have hw : wake (inCycle c s) (w % 16) = modPwr (inCycle c s) (fun p => { p with latch := p.latch ||| bitAt (w % 16) true }) :=
      wake_leaving hb hp ((hacts _).trans hst)
    have hpw := hwake _ hst
    rw [hw] at hpw
    have hno1 : (wakeArrives (inCycle c s) w).pwr.state = s.pwr.state := by rw [hpw]; rfl
    have hkept : (inOneCycle (fun s => if aoLive s then wakeArrives s w else s) s).pwr = (wakeArrives (inCycle c s) w).pwr :=
      (hstay (by omega)).2 .pwr (by decide)
    rw [hkept, hpw]
    rfl
  · have hw : wake (inCycle c s) (w % 16) = abortEntry (inCycle c s) := wake_entering hb hp hd ((hacts _).trans hst)
    have hpw := hwake _ hst
    rw [hw, abortEntry_pwr] at hpw
    rw [hpwr (by rw [hpw]; exact Nat.zero_ne_one), abortEntry_pwr]
    exact hpw

/-- What the wake timer's expiry leaves: its counter at zero, and an exit that begins or no change. -/
theorem wakeTimer_cycle {s : State} (ha : aoLive s = true) (hr : regAt s 0x15030 ≠ 0#32) :
    regAt (wakeTimerCycle s) 0x15030 = 0#32 ∧ otherWords (0x15030 / 4) s (wakeTimerCycle s)
      ∧ (s.pwr.phase = 0 → regBit s 0x15020 8 = true → wakeActs s s.pwr.state 8 = true →
        (wakeTimerCycle s).pwr.phase = 4 ∧ (wakeTimerCycle s).pwr.cause = s.pwr.cause ||| bitAt 8 true)
      ∧ (s.pwr.phase = 0 → regBit s 0x15020 8 = false ∨ s.pwr.state < 2 → (wakeTimerCycle s).pwr = s.pwr) := by
  obtain ⟨c, honly, hpwr, hstay⟩ := inOneCycle_pwr (fun s => if aoLive s then wakeTimer s else s) s
  have hin : (if aoLive (inCycle c s) then wakeTimer (inCycle c s) else inCycle c s)
      = wake (setRegAt (inCycle c s) 0x15030 0#32) 8 := (if_pos ha).trans (wakeTimer_running hr)
  rw [hin, ← wakeTimerCycle] at honly hpwr hstay
  have hreg : ∀ i, getReg (wakeTimerCycle s) i
      = getReg (setRegAt s 0x15030 0#32) i := fun i => by
    rw [getReg_of_regs (regs_of_onlyChanges honly (by decide)),
      getReg_of_regs (s := setRegAt (inCycle c s) 0x15030 0#32) (by simp)]
    rfl
  have hmask : regBit (setRegAt (inCycle c s) 0x15030 0#32) 0x15020 8 = regBit s 0x15020 8 := by
    simp [regBit, regAt, setRegAt, getReg_of_regs (inCycle_fields c s).2.2.2.1]
  refine ⟨?_, fun i hi => ?_, fun hp hb hst => ?_, fun hp hno => ?_⟩
  · rw [regAt, hreg]
    simp [setRegAt]
  · rw [hreg]
    simp [setRegAt, hi]
  · have hb' : regBit (setRegAt (inCycle c s) 0x15030 0#32) 0x15020 8 = true := by
      rw [← hb, hmask]
    have hw : wake (setRegAt (inCycle c s) 0x15030 0#32) 8 = beginExit (setRegAt (inCycle c s) 0x15030 0#32) (bitAt 8 true) :=
      wake_resting hb' hp hst
    rw [hw, beginExit_pwr] at hpwr
    have hstate : s.pwr.state ≠ 1 := by
      intro h1
      rw [wakeActs_awake _ _ (by omega)] at hst
      cases hst
    rw [hpwr hstate]
    exact ⟨rfl, rfl⟩
  · have hw : wake (setRegAt (inCycle c s) 0x15030 0#32) 8 = setRegAt (inCycle c s) 0x15030 0#32 := by
      refine wake_of_not_acts hp (hno.imp (fun hb => ?_) fun h2 => wakeActs_awake _ _ h2)
      rw [← hb, hmask]
    rw [hw] at hstay
    have hkept : (wakeTimerCycle s).pwr = s.pwr :=
      (hstay (by change s.pwr.state < 2 ∨ 2 ≤ s.pwr.state; omega)).2 .pwr (by decide)
    exact hkept

/-- Settles O46: each request and each event by what it leaves of the power state. -/
theorem powerRequests : Obligations.PowerRequests := by
  unfold Obligations.PowerRequests
  refine ⟨fun s => ⟨fun he hs hp ha hi => ?_, fun hs => ?_⟩, fun s b c target hc h => ?_, fun s c target hc ha he hi hs => ?_,
    fun s b h hb => ?_, fun s w ha hb h6 h7 => ?_, fun s ha hr => ?_, fun s => ?_⟩
  · refine ⟨_, rfl, ?_⟩
    rw [idleEnters, if_pos (by simp [he, hs, hp, ha, hi]), (linkRests_only _).2 .pwr (by decide)]
    rfl
  · refine ⟨_, rfl, ?_⟩
    rw [idleExits, if_pos hs]
    rfl
  · simp only [List.mem_cons, Prod.mk.injEq, List.not_mem_nil, or_false] at hc
    obtain ⟨rfl, rfl⟩ | ⟨rfl, rfl⟩ | ⟨rfl, rfl⟩ := hc
    · obtain ⟨t, ht, hpwr⟩ := pwrCmd_request 1 2 (fun _ => rfl) h
      exact ⟨t, ht, by rw [hpwr, powerRequest_pwr]⟩
    · obtain ⟨t, ht, hpwr⟩ := pwrCmd_request 2 3 (fun _ => rfl) h
      exact ⟨t, ht, by rw [hpwr, powerRequest_pwr]⟩
    · obtain ⟨t, ht, hpwr⟩ := pwrCmd_request 3 4 (fun _ => rfl) h
      exact ⟨t, ht, by rw [hpwr, powerRequest_pwr]⟩
  · have hno : ¬ 3 ≤ s.pwr.state := by omega
    simp only [List.mem_cons, Prod.mk.injEq, List.not_mem_nil, or_false] at hc
    obtain ⟨rfl, rfl⟩ | ⟨rfl, rfl⟩ := hc
    · refine ⟨_, rfl, ?_⟩
      rw [if_pos ha, dozeState, timerRequest_pwr he hi hs, powerRequest_pwr]
      simp [hno]
    · refine ⟨_, rfl, ?_⟩
      rw [if_pos ha, sleepState, timerRequest_pwr he hi hs, powerRequest_pwr]
      simp [hno]
  · obtain ⟨t, ht, hexit, hrun, habort⟩ := pwrRun_pwr h hb
    refine ⟨fun hp h2 h4 => ⟨t, ht, hexit hp h2 h4⟩, fun hp h2 => ⟨t, ht, hrun hp h2⟩, fun hp hd h2 h4 => ⟨t, ht, ?_⟩⟩
    rw [habort hp hd h2 h4, abortEntry_pwr]
    exact ⟨rfl, rfl, rfl, rfl⟩
  · obtain ⟨edges, hexit, hlatch, habort⟩ := wake_cycle_pwr ha hb h6 h7
    refine ⟨fun hp hst => ⟨_, rfl, ?_⟩, fun hp hst => ⟨_, rfl, ?_⟩, fun hp hd hst => ⟨_, rfl, ?_⟩⟩
    · rw [← wakeCycle, hexit hp hst, beginExit_pwr]
    · rw [← wakeCycle, hlatch hp hst]
    · have hpw := habort hp hd hst
      rw [abortEntry_pwr] at hpw
      rw [← wakeCycle, hpw]
      exact ⟨rfl, rfl, rfl, rfl, rfl, rfl⟩
  · exact ⟨_, rfl, wakeTimer_cycle ha hr⟩
  · exact ⟨⟨_, rfl, modPwr_only .., rfl, by simp [refRuns, refChanges, modPwr]⟩, ⟨_, rfl, modPwr_only .., rfl⟩⟩

end Sys2Proof.Machine
end

section
/-! SUPPORT. The samples of a control loop and its registers (12 R457 to R489). -/

namespace Sys2Proof.Machine

/-! ## The sample instant and the computation (12 R458, R470 to R475) -/

theorem loopOf_of_cle {s t : State} (h : t.cle = s.cle) (n : Nat) : loopOf t n = loopOf s n := by rw [loopOf, h, loopOf]

theorem pulse_notMem_takePulse (s : State) (c : Consumer) (k : Nat) : (c, k) ∉ (takePulse s c).tim.pulses := by
  simp [takePulse]

/-- The sample that an instant takes of loop `n`. -/
def sampleTaken (s : State) (n : Nat) : LoopSample :=
  let w := loopCtrl s n
  let x := loopMeasure s (loopInput w)
  { x := x, ff := loopFeed s (fld w 14 12), target := signed 32 (regAt s (loopBase n + 0x0C)).toNat,
    atEnd := measureAtEnd (loopInput w) x,
    stale := decide (8 ≤ loopInput w) && decide (loopInput w ≤ 13) && !(loopOf s n).imuFresh, stage := 0, result := none,
    code := fld w 14 12 }

section Sample

variable {s : State} {n : Nat} (hr : cleRuns s = true) (hn : n < 8) (hb : blockStopped s 8 = false) (he : loopEnabled s n = true)
  (ht : trigTaken s (.loop n) (loopChoice s n) = true)

include hr hn hb he ht

/-- An instant with no sample in hand takes one, which waits for the engine. -/
theorem loopSampleNow_idle (hs : (loopOf s n).sample = none) :
    loopSampleNow s n = modCle (modLoop (takePulse s (.loop n)) n (fun e =>
      { e with sample := some (sampleTaken s n), state := if e.clearDue then LoopState.zero else e.state, clearDue := false,
               force := e.pending.getD e.force, pending := none, imuFresh := false, inUse := loopSource s n }))
      (fun e => { e with waiting := e.waiting ++ [n] }) := by
  have hs' : (loopOf (takePulse s (.loop n)) n).sample = none := hs
  simp only [loopSampleNow, hr, hb, he, ht, show ¬ 8 ≤ n by omega, hs', decide_false, Bool.not_true, Bool.or_self,
    Bool.false_eq_true, if_false]
  rfl

/-- An instant with a sample in hand is ignored and counted. -/
theorem loopSampleNow_busy {m : LoopSample} (hs : (loopOf s n).sample = some m) :
    loopSampleNow s n = modLoop (takePulse s (.loop n)) n (fun e =>
      { e with flags := setNBit e.flags 8 true, ignored := satAdd 0xFFFF e.ignored 1, inUse := loopSource s n }) := by
  have hs' : (loopOf (takePulse s (.loop n)) n).sample = some m := hs
  simp only [loopSampleNow, hr, hb, he, ht, show ¬ 8 ≤ n by omega, hs', decide_false, Bool.not_true, Bool.or_self,
    Bool.false_eq_true, if_false]
  rfl

end Sample

/-- An instant of another source than the comparator in use takes no sample. -/
theorem loopSampleNow_untaken {s : State} {n : Nat} (ht : trigTaken s (.loop n) (loopChoice s n) = false) :
    loopSampleNow s n = takePulse s (.loop n) := by simp [loopSampleNow, ht]

theorem loopComputeBegin_free {s : State} {n : Nat} {rest : List Nat} (hr : cleRuns s = true) (hf : s.cle.running = none)
    (hw : s.cle.waiting = n :: rest) :
    loopComputeBegin s = modLoop (modCle s (fun e => { e with running := some n, waiting := rest })) n
      (fun e => { e with sample := e.sample.map (fun m => { m with stage := 1 }) }) := by
  simp [loopComputeBegin, hr, hf, hw]

/-- The law reads the words in force alone. -/
theorem lawAfter_congr {s t : State} (h : t.cle.loops = s.cle.loops) (n : Nat) (m : LoopSample) (st : LoopState) (q v : Int) :
    lawAfter t n m st q v = lawAfter s n m st q v := by
  have hw : loopWord t n = loopWord s n := funext fun off => by simp only [loopWord, loopOf, h]
  have hi : loopInt t n = loopInt s n := funext fun off => by simp only [loopInt, hw]
  have hs : loopShift t n = loopShift s n := funext fun off => funext fun k => by simp only [loopShift, hw]
  have hb : biquadCoeffs t n = biquadCoeffs s n := funext fun k => by simp only [biquadCoeffs, hi, hs]
  have hc : lawChain t n = lawChain s n := by
    unfold lawChain
    rw [hb, hi]
  unfold lawAfter
  rw [hi, hs, hc]

/-- The computation of a sample under way, with its reference within 32 bits, ends in the law's result. -/
theorem loopComputeFinish_law {s : State} {n : Nat} {m : LoopSample} {q v : Int} (hn : s.cle.running = some n)
    (hm : (loopOf s n).sample = some m) (hst : m.stage = 1)
    (hl : rampLaw (loopInt s n 0x10) (loopInt s n 0x14) m.target (loopOf s n).state.q (loopOf s n).state.v = (q, v))
    (hlo : -(2 ^ 31) ≤ q) (hhi : q < 2 ^ 31) :
    loopComputeFinish s = modLoop (modCle s (fun e => { e with running := none })) n (fun e =>
      { e with sample := some { m with stage := 2, result := some (lawAfter s n m (loopOf s n).state q v) } }) := by
  have hm' : (loopOf (modCle s (fun e => { e with running := none })) n).sample = some m := hm
  have hl' : rampLaw (loopInt (modCle s (fun e => { e with running := none })) n 0x10)
      (loopInt (modCle s (fun e => { e with running := none })) n 0x14) m.target
      (loopOf (modCle s (fun e => { e with running := none })) n).state.q
      (loopOf (modCle s (fun e => { e with running := none })) n).state.v = (q, v) := hl
  simp only [loopComputeFinish, hn, hm', hst, ne_eq, not_true_eq_false, if_false, lawRun, hl', show ¬ q < -(2 ^ 31) by omega,
    show ¬ 2 ^ 31 ≤ q by omega]
  rw [lawAfter_congr (s := s) rfl]
  rfl

theorem clampTop_le (lo hi x : Int) : clampTop lo hi x ≤ hi := min_le_left _ _

theorem lawAfter_le (s : State) (n : Nat) (m : LoopSample) (st : LoopState) (q v : Int) :
    (lawAfter s n m st q v).u ≤ loopInt s n 0x64 := clampTop_le ..

/-! ## The output phase (12 R476 to R486) -/

theorem loopDrive_cle (s : State) (dest : Nat) (u : Int) : (loopDrive s dest u).cle = s.cle := by
  unfold loopDrive
  split
  · rfl
  split <;> rfl

/-- A conditional assertion leaves the control engine and the registers as they are. -/
theorem raiseIf_cle_regs (s : State) (p : Prop) [Decidable p] (src heads detail : Nat) :
    (if p then raise s src heads detail else s).cle = s.cle ∧ (if p then raise s src heads detail else s).regs = s.regs := by
  split
  · exact ⟨(raise_only s src heads detail).2 .cle (by decide), regs_of_onlyChanges (raise_only s src heads detail) (by decide)⟩
  · exact ⟨rfl, rfl⟩

/-- The loop as a committed sample leaves it. -/
def loopCommitted (s : State) (n : Nat) (m : LoopSample) (r : LoopResult) (e : Loop) : Loop :=
  let lim := loopWord s n 0x78
  let supply := fld (loopCtrl s n) 21 20
  let err := if loopInt s n 0x7C < absInt r.e then (loopOf s n).errRun + 1 else 0
  let sat := if r.outSat then (loopOf s n).satRun + 1 else 0
  let errDue := (supply == 1 || supply == 2) && runDue err (fld lim 23 16)
  { e with state := r.state, sample := none, flags := commitFlags m r errDue e.flags, satLive := r.outSat, ovrRun := 0,
           satRun := sat, errRun := err, out := r.u, meas := r.y }

/-- A committed sample drives its destination and leaves the loop committed; what it asserts changes neither. -/
theorem loopCommitSample_cle_regs (s : State) (n : Nat) (m : LoopSample) (r : LoopResult) :
    (loopCommitSample s n m r).cle = (modLoop (loopDrive s (loopDest (loopCtrl s n)) r.u) n (loopCommitted s n m r)).cle
      ∧ (loopCommitSample s n m r).regs = (loopDrive s (loopDest (loopCtrl s n)) r.u).regs := by
  unfold loopCommitSample
  extract_lets w l lim supply err sat errDue s1 s2 s3 s4
  obtain ⟨h5c, h5r⟩ := raiseIf_cle_regs s4 (errDue = true) (40 + supply) supply 0
  obtain ⟨h4c, h4r⟩ := raiseIf_cle_regs s3 (m.atEnd = true) 40 0 n
  obtain ⟨h3c, h3r⟩ := raiseIf_cle_regs s2 (runDue sat (fld lim 15 8) = true) 39 0 n
  exact ⟨h5c.trans (h4c.trans h3c), h5r.trans (h4r.trans h3r)⟩

/-- A discarded sample counts, and leaves the queue of the engine; what it asserts changes no more. -/
theorem loopOverrun_cle_regs (s : State) (n : Nat) :
    (loopOverrun s n).cle = (modCle (modLoop s n (fun e =>
      { e with sample := none, flags := setNBit e.flags 0 true, ovrRun := (loopOf s n).ovrRun + 1,
               overruns := satAdd 0xFFFF e.overruns 1 })) (fun e => { e with waiting := e.waiting.filter (fun k => !(k == n)) })).cle
      ∧ (loopOverrun s n).regs = s.regs := by
  unfold loopOverrun
  extract_lets run s1 s2
  exact raiseIf_cle_regs s2 _ 38 0 n

theorem loopOutputNow_result {s : State} {n : Nat} {m : LoopSample} {r : LoopResult} (hr : cleRuns s = true)
    (hm : (loopOf s n).sample = some m) (hres : m.result = some r) : loopOutputNow s n = loopCommitSample s n m r := by
  simp [loopOutputNow, hr, hm, hres]

theorem loopOutputNow_late {s : State} {n : Nat} {m : LoopSample} (hr : cleRuns s = true) (hm : (loopOf s n).sample = some m)
    (hres : m.result = none) : loopOutputNow s n = loopOverrun s n := by
  simp [loopOutputNow, hr, hm, hres]

/-- Settles O36: a sample, its computation and its output by what each leaves of its loop. -/
theorem loopSampleCommands : Obligations.LoopSampleCommands := by
  unfold Obligations.LoopSampleCommands
  refine ⟨fun s n hr hn hb he ht => ⟨fun hs => ?_, fun m hm => ?_⟩, fun s n k hc he hp => ?_, fun s n rest hr hf hw => ?_,
    fun s n m q v hr hn hm hst hl hlo hhi => ?_, fun s n m hr hm => ⟨fun r hres => ?_, fun hres => ?_⟩⟩
  · refine ⟨_, rfl, ?_⟩
    have hl : ∀ (u : State) k, loopOf (modCle u (fun e => { e with waiting := e.waiting ++ [n] })) k = loopOf u k := fun _ _ => rfl
    rw [loopSampleNow_idle hr hn hb he ht hs, hl, loopOf_modLoop_same]
    exact ⟨⟨sampleTaken s n, rfl, rfl, rfl, rfl, rfl, rfl, rfl⟩, rfl, rfl, rfl, rfl, rfl,
      fun k hk => by rw [hl, loopOf_modLoop_other _ _ _ _ hk]; rfl, pulse_notMem_takePulse s _⟩
  · refine ⟨_, rfl, ?_⟩
    rw [loopSampleNow_busy hr hn hb he ht hm, loopOf_modLoop_same]
    exact ⟨rfl, rfl, fun k hk => loopOf_modLoop_other _ _ _ _ hk⟩
  · refine ⟨_, rfl, ?_⟩
    rw [loopSampleNow_untaken (by simp [trigTaken, trigSource, Option.filter, hc, he, hp])]
    rfl
  · refine ⟨_, rfl, ?_⟩
    rw [loopComputeBegin_free hr hf hw, loopOf_modLoop_same]
    exact ⟨rfl, rfl, rfl, fun k hk => loopOf_modLoop_other _ _ _ _ hk⟩
  · obtain ⟨c, hc⟩ := inOneCycle_window (fun s => if cleRuns s then loopComputeFinish s else s) s
    have hin : (if cleRuns (inCycle c s) then loopComputeFinish (inCycle c s) else inCycle c s) = loopComputeFinish (inCycle c s) :=
      if_pos hr
    rw [hin, loopComputeFinish_law (s := inCycle c s) hn hm hst hl hlo hhi] at hc
    have hcle := hc.2 .cle (by decide)
    refine ⟨_, rfl, by rw [hcle]; rfl, ?_, lawAfter_le ..⟩
    rw [loopOf_of_cle hcle, loopOf_modLoop_same]
    rfl
  · obtain ⟨hcle, hregs⟩ := loopCommitSample_cle_regs s n m r
    have hloop : ∀ k, k ≠ n → loopOf (loopCommitSample s n m r) k = loopOf s k := fun k hk => by
      rw [loopOf_of_cle hcle, loopOf_modLoop_other _ _ _ _ hk, loopOf_of_cle (loopDrive_cle ..)]
    have hsame : loopOf (loopCommitSample s n m r) n = loopCommitted s n m r (loopOf s n) := by
      rw [loopOf_of_cle hcle, loopOf_modLoop_same, loopOf_of_cle (loopDrive_cle ..)]
    refine ⟨_, rfl, ?_⟩
    rw [loopOutputNow_result hr hm hres, hsame]
    refine ⟨rfl, rfl, rfl, rfl, fun d hd h1 h6 => ?_, hloop⟩
    rw [regAt, getReg_of_regs hregs, hd, loopDrive, if_pos ⟨h1, h6⟩]
    simp [setRegAt]
  · obtain ⟨hcle, hregs⟩ := loopOverrun_cle_regs s n
    have hl : ∀ (u : State) k, loopOf (modCle u (fun e => { e with waiting := e.waiting.filter (fun k => !(k == n)) })) k = loopOf u k :=
      fun _ _ => rfl
    refine ⟨_, rfl, ?_⟩
    rw [loopOutputNow_late hr hm hres, loopOf_of_cle hcle, hl, loopOf_modLoop_same]
    exact ⟨rfl, rfl, rfl, rfl, hregs, fun k hk => by rw [loopOf_of_cle hcle, hl, loopOf_modLoop_other _ _ _ _ hk]⟩

end Sys2Proof.Machine
end

section
/-! SUPPORT. The registers of the control loops: enabling, disabling, clearing, committing, set points and levels (12 R480 to
R489). -/

namespace Sys2Proof.Machine

/-! ## Words and bits -/

theorem bit_withBit_same (v : Word) {i : Nat} (hi : i < 32) : bit (withBit v i) i = true := by simp [withBit, bit_or, bit_bitAt, hi]

theorem bit_withoutBit_same (v : Word) {i : Nat} (hi : i < 32) : bit (withoutBit v i) i = false := by
  simp [withoutBit, bit_and, bit_not, bit_bitAt, hi]

theorem withBit_and_loopFields (v : Word) : withBit v 0 &&& loopFields = v &&& loopFields := by
  rw [withBit, BitVec.and_or_distrib_right, show bitAt 0 true &&& loopFields = 0#32 by decide, BitVec.or_zero]

theorem bit_and_loopFields (v : Word) : bit (v &&& loopFields) 0 = false := by
  rw [bit_and, show bit loopFields 0 = false by decide, Bool.and_false]

/-! ## What a loop's control word leaves (12 R487, R489) -/

theorem loopBase_div (n k : Nat) (h : loopBase n / 4 = loopBase k / 4) : n = k := by
  unfold loopBase at h
  omega

/-- Enabling a loop that is not enabled reads no word that the write itself changes. -/
theorem loopEnableFail_of_otherWords {s t : State} {n : Nat} (h : otherWords (loopBase n / 4) s t)
    (hs : loopEnabled s n = false) (ht : loopEnabled t n = false) (w : Word) : loopEnableFail t n w = loopEnableFail s n w := by
  have hother : ∀ a, a / 4 ≠ loopBase n / 4 → regAt t a = regAt s a := fun a ha => h _ ha
  have hctrl : ∀ m, m ≠ n → loopCtrl t m = loopCtrl s m := fun m hm => hother _ fun e => hm (loopBase_div _ _ e)
  have hown : ∀ d, destOwned t d = destOwned s d := fun d => by
    have hm : (fun m => loopEnabled t m && loopDest (loopCtrl t m) == d) = fun m => loopEnabled s m && loopDest (loopCtrl s m) == d := by
      funext m
      by_cases hm : m = n
      · subst hm
        simp [hs, ht]
      · simp [loopEnabled, hctrl m hm]
    rw [destOwned, hm, destOwned]
  have hadc : ∀ c, adcMode t c = adcMode s c := fun c => by
    rw [adcMode, adcMode, regFld, hother 0x0F010 (by unfold loopBase; omega), regFld]
  have hfld : ∀ off hi lo, 4 ≤ off → regFld t (loopBase n + off) hi lo = regFld s (loopBase n + off) hi lo := fun off hi lo ho => by
    rw [regFld, hother (loopBase n + off) (by omega), regFld]
  unfold loopEnableFail
  rw [hfld 4 _ _ (by decide), hfld 8 _ _ (by decide), hown, hadc]

theorem loopEnableFail_of_regs {s t : State} (h : t.regs = s.regs) (n : Nat) (w : Word) :
    loopEnableFail t n w = loopEnableFail s n w := by
  have hr : regAt t = regAt s := funext fun a => getReg_of_regs h (a / 4)
  unfold loopEnableFail destOwned loopEnabled loopCtrl adcMode
  unfold regFld
  rw [hr]

/-- A write with the clear bit marks its loop, and one without it changes nothing yet. -/
def loopMarked (s : State) (n : Nat) (v : Word) : State :=
  if bit v 5 then modLoop s n (fun e => { e with clearDue := true }) else s

theorem loopMarked_regs (s : State) (n : Nat) (v : Word) : (loopMarked s n v).regs = s.regs := by
  unfold loopMarked
  split <;> rfl

theorem loopMarked_other (s : State) (n : Nat) (v : Word) {k : Nat} (hk : k ≠ n) : loopOf (loopMarked s n v) k = loopOf s k := by
  unfold loopMarked
  split
  · exact loopOf_modLoop_other _ _ _ _ hk
  · rfl

theorem loopMarked_clear (s : State) (n : Nat) {v : Word} (hv : bit v 5 = true) : (loopOf (loopMarked s n v) n).clearDue = true := by
  rw [loopMarked, if_pos hv, loopOf_modLoop_same]

/-- Whatever a write of a loop's control word does, it leaves other loops and other words as they are, and a loop that the
clear bit marks stays marked. -/
theorem writeLoopCtrl_leaves (s : State) (n : Nat) (v : Word) :
    (∀ k, k ≠ n → loopOf (writeLoopCtrl s n v) k = loopOf s k) ∧ otherWords (loopBase n / 4) s (writeLoopCtrl s n v)
      ∧ (bit v 5 = true → (loopOf (writeLoopCtrl s n v) n).clearDue = true) := by
  have hset : ∀ (u : State) w, otherWords (loopBase n / 4) u (setRegAt u (loopBase n) w) := fun u w i hi =>
    getReg_setReg_other u _ i w hi
  have hmark : otherWords (loopBase n / 4) s (loopMarked s n v) := otherWords_of_regs (loopMarked_regs s n v) _
  have hloop : ∀ (u : State) w k, loopOf (setRegAt u (loopBase n) w) k = loopOf u k := fun _ _ _ => rfl
  have hrefuse : ∀ (u : State) r k, loopOf (cleRefuse u n r) k = loopOf u k := fun _ _ _ => rfl
  have hregs : ∀ (u : State) r i, getReg (cleRefuse u n r) i = getReg u i := fun _ _ _ => rfl
  unfold writeLoopCtrl
  dsimp only
  rw [← loopMarked]
  split
  · have hs2 : ∀ p : Prop, ∀ [Decidable p], (∀ k, loopOf (if p then loopMarked s n v else cleRefuse (loopMarked s n v) n 0) k
        = loopOf (loopMarked s n v) k) ∧ ∀ i, getReg (if p then loopMarked s n v else cleRefuse (loopMarked s n v) n 0) i
        = getReg (loopMarked s n v) i := fun p _ => by split <;> exact ⟨fun _ => rfl, fun _ => rfl⟩
    obtain ⟨hl, hg⟩ := hs2 ((v ^^^ loopCtrl s n) &&& loopFields = 0#32)
    split
    · exact ⟨fun k hk => (hl k).trans (loopMarked_other s n v hk), fun i hi => (hg i).trans (hmark i hi),
        fun hv => by rw [hl]; exact loopMarked_clear s n hv⟩
    · exact ⟨fun k hk => (hl k).trans (loopMarked_other s n v hk), fun i hi => (hset _ _ i hi).trans ((hg i).trans (hmark i hi)),
        fun hv => by rw [hloop, hl]; exact loopMarked_clear s n hv⟩
  · have h2 : otherWords (loopBase n / 4) s (setRegAt (loopMarked s n v) (loopBase n) (v &&& loopFields)) := fun i hi =>
      (hset _ _ i hi).trans (hmark i hi)
    split
    · split
      · exact ⟨fun k hk => loopMarked_other s n v hk, h2, fun hv => loopMarked_clear s n hv⟩
      · exact ⟨fun k hk => (loopOf_modLoop_other _ _ _ _ hk).trans (loopMarked_other s n v hk),
          fun i hi => (hset _ _ i hi).trans (h2 i hi), fun _ => by rw [loopOf_modLoop_same]⟩
    · exact ⟨fun k hk => loopMarked_other s n v hk, h2, fun hv => loopMarked_clear s n hv⟩

/-- The check of an enable comes with the loop's fields written. -/
theorem loopEnableFail_written {s : State} {n : Nat} (he : loopEnabled s n = false) (v u : Word) :
    loopEnableFail (setRegAt (loopMarked s n u) (loopBase n) (v &&& loopFields)) n (v &&& loopFields)
      = loopEnableFail s n (v &&& loopFields) := by
  refine loopEnableFail_of_otherWords (fun i hi => ?_) he ?_ _
  · rw [setRegAt, getReg_setReg_other _ _ _ _ hi, getReg_of_regs (loopMarked_regs s n u)]
  · rw [loopEnabled, loopCtrl, regAt_setRegAt_same _ _ rfl, bit_and_loopFields]

theorem writeLoopCtrl_enable {s : State} {n : Nat} {v : Word} (he : loopEnabled s n = false)
    (hf : loopEnableFail s n (v &&& loopFields) = none) :
    loopCtrl (writeLoopCtrl s n (withBit v 0)) n = (v &&& loopFields) ||| 1#32
      ∧ (loopOf (writeLoopCtrl s n (withBit v 0)) n).clearDue = true := by
  have hold : bit (loopCtrl s n) 0 = false := he
  have hfail := (loopEnableFail_written he v (withBit v 0)).trans hf
  simp only [writeLoopCtrl, hold, Bool.false_eq_true, if_false, bit_withBit_same v (show 0 < 32 by decide), if_true,
    withBit_and_loopFields]
  rw [← loopMarked, hfail]
  exact ⟨regAt_setRegAt_same _ _ rfl, by rw [loopOf_modLoop_same]⟩

theorem writeLoopCtrl_refused {s : State} {n r : Nat} {v : Word} (he : loopEnabled s n = false)
    (hf : loopEnableFail s n (v &&& loopFields) = some r) :
    loopEnabled (writeLoopCtrl s n (withBit v 0)) n = false ∧ (writeLoopCtrl s n (withBit v 0)).cle.refused = true
      ∧ (writeLoopCtrl s n (withBit v 0)).cle.refusedLoop = n ∧ (writeLoopCtrl s n (withBit v 0)).cle.reason = r := by
  have hold : bit (loopCtrl s n) 0 = false := he
  have hfail := (loopEnableFail_written he v (withBit v 0)).trans hf
  simp only [writeLoopCtrl, hold, Bool.false_eq_true, if_false, bit_withBit_same v (show 0 < 32 by decide), if_true,
    withBit_and_loopFields]
  rw [← loopMarked, hfail]
  refine ⟨?_, rfl, rfl, rfl⟩
  change bit (regAt (setRegAt (loopMarked s n (withBit v 0)) (loopBase n) (v &&& loopFields)) (loopBase n)) 0 = false
  rw [regAt_setRegAt_same _ _ rfl, bit_and_loopFields]

theorem writeLoopCtrl_disable {s : State} {n : Nat} {v : Word} (he : loopEnabled s n = true) :
    loopCtrl (writeLoopCtrl s n (withoutBit v 0)) n = loopCtrl s n &&& ~~~1#32 := by
  have hold : bit (loopCtrl s n) 0 = true := he
  simp only [writeLoopCtrl, hold, if_true, bit_withoutBit_same v (show 0 < 32 by decide), Bool.false_eq_true, if_false]
  exact regAt_setRegAt_same _ _ rfl

/-! ## Commit, set points, LEN (12 R482, R484, R488) -/

theorem loopShadow_of_regs {s t : State} (h : t.regs = s.regs) (n : Nat) : loopShadow t n = loopShadow s n := by
  have hg : getReg t = getReg s := funext fun i => getReg_of_regs h i
  rw [loopShadow, hg, loopShadow]

/-- A commit of some of the loops below `k`. -/
def cleCommitTo (s : State) (v : Word) (k : Nat) : State :=
  (List.range k).foldl (fun acc n =>
    if bit v n then modLoop acc n (fun e => { e with pending := some (loopShadow acc n) }) else acc) s

theorem cleCommitTo_leaves (s : State) (v : Word) (k : Nat) :
    (cleCommitTo s v k).regs = s.regs ∧ ∀ n, loopOf (cleCommitTo s v k) n
      = if n < k ∧ bit v n = true then { loopOf s n with pending := some (loopShadow s n) } else loopOf s n := by
  induction k with
  | zero => exact ⟨rfl, fun n => by simp [cleCommitTo]⟩
  | succ k ih =>
    obtain ⟨hregs, hloops⟩ := ih
    have hstep : cleCommitTo s v (k + 1) = if bit v k then modLoop (cleCommitTo s v k) k (fun e =>
        { e with pending := some (loopShadow (cleCommitTo s v k) k) }) else cleCommitTo s v k := by
      rw [cleCommitTo, List.range_succ, List.foldl_append, ← cleCommitTo]
      rfl
    rw [hstep]
    by_cases hv : bit v k = true
    · rw [if_pos hv]
      refine ⟨hregs, fun n => ?_⟩
      by_cases hn : n = k
      · subst hn
        rw [loopOf_modLoop_same, hloops, loopShadow_of_regs hregs]
        simp [hv]
      · have hlt : n < k + 1 ↔ n < k := by omega
        rw [loopOf_modLoop_other _ _ _ _ hn, hloops]
        simp only [hlt]
    · rw [if_neg hv]
      refine ⟨hregs, fun n => ?_⟩
      rw [hloops]
      by_cases hn : n = k
      · subst hn
        simp [hv]
      · have hlt : n < k + 1 ↔ n < k := by omega
        simp only [hlt]

theorem setRegAt_regs_of_regs {s t : State} (h : t.regs = s.regs) (a : Nat) (v : Word) :
    (setRegAt t a v).regs = (setRegAt s a v).regs := by rw [setRegAt, setReg, h, setRegAt, setReg]

theorem destOwned_of_regs {s t : State} (h : t.regs = s.regs) (d : Nat) : destOwned t d = destOwned s d := by
  have hr : regAt t = regAt s := funext fun a => getReg_of_regs h (a / 4)
  unfold destOwned loopEnabled loopCtrl
  rw [hr]

/-- A set point or level without an owner takes the value. -/
theorem writeSetpoint_free {s : State} {n : Nat} (v : Word) (hn : n < 8)
    (hd : destOwned s (if n < 6 then n + 1 else n + 2) = false) :
    writeSetpoint s n v = setRegAt s (setpointAddr n) (if n < 6 then v &&& 0xFFFF#32 else v) := by
  unfold writeSetpoint setpointAddr
  split at hd
  · next h6 => simp [h6, hd]
  · next h6 =>
    obtain rfl | rfl : n = 6 ∨ n = 7 := by omega
    · simp [show destOwned s 8 = false from hd]
    · simp [show destOwned s 9 = false from hd]

/-- One that a loop owns refuses the write. -/
theorem writeSetpoint_owned {s : State} {n : Nat} (v : Word) (hd : destOwned s (if n < 6 then n + 1 else n + 2) = true) :
    (writeSetpoint s n v).regs = s.regs
      ∧ (if n < 6 then (writeSetpoint s n v).cle.setpRefused = true else (writeSetpoint s n v).cle.levelRefused = true) := by
  unfold writeSetpoint
  split at hd
  · next h6 => simp [h6, hd, modCle]
  · next h6 => simp [h6, hd, modCle]

/-- Settles O37: each write by what its window leaves. -/
theorem loopRegisterCommands : Obligations.LoopRegisterCommands := by
  unfold Obligations.LoopRegisterCommands
  refine ⟨fun s b n v hn h => ?_, fun s b v h => ?_, fun s b n v hn h => ?_, fun s b v h => ?_⟩
  · have hmod : n % 8 = n := Nat.mod_eq_of_lt hn
    have hw := fun (x : Word) => writeAlone_window (v := x) h (by omega) (open_loopCtrl s n hn)
      (fun u => route_loopCtrl u n x hn)
    have hat : ∀ c, (atWindow b ((0x0F100 + 0x80 * n) / 4) c s).regs = s.regs := fun c => by simp
    have hloop : ∀ c k, loopOf (atWindow b ((0x0F100 + 0x80 * n) / 4) c s) k = loopOf s k := fun c k =>
      loopOf_of_cle (by simp) k
    have hctrl : ∀ c, loopCtrl (atWindow b ((0x0F100 + 0x80 * n) / 4) c s) n = loopCtrl s n := fun c => by simp [loopCtrl]
    refine ⟨fun he hf => ?_, fun r he hf => ?_, fun he => ?_, ?_⟩
    · obtain ⟨c, t, ht, ho⟩ := hw (withBit v 0)
      obtain ⟨hothers, hwords, -⟩ := writeLoopCtrl_leaves (atWindow b ((0x0F100 + 0x80 * n) / 4) c s) n (withBit v 0)
      obtain ⟨hc, hclear⟩ := writeLoopCtrl_enable (s := atWindow b ((0x0F100 + 0x80 * n) / 4) c s) (n := n) (v := v)
        (by rw [loopEnabled, hctrl]; exact he) (by rw [loopEnableFail_of_regs (hat c)]; exact hf)
      have hcle := ho.2 .cle (by decide)
      have hregs := getReg_of_regs (regs_of_onlyChanges ho (by decide))
      refine ⟨t, by rw [exec, execLoopEnable, hmod, ← ht]; rfl, by rw [← hc]; exact hregs _, by rw [loopOf_of_cle hcle, hclear],
        fun k hk => by rw [loopOf_of_cle hcle, hothers k hk, hloop], fun i hi => ?_⟩
      rw [hregs, hwords i hi, getReg_of_regs (hat c)]
    · obtain ⟨c, t, ht, ho⟩ := hw (withBit v 0)
      obtain ⟨hen, href, hloop, hreason⟩ := writeLoopCtrl_refused (s := atWindow b ((0x0F100 + 0x80 * n) / 4) c s) (n := n)
        (r := r) (v := v) (by rw [loopEnabled, hctrl]; exact he) (by rw [loopEnableFail_of_regs (hat c)]; exact hf)
      have hcle := ho.2 .cle (by decide)
      have hregs := getReg_of_regs (regs_of_onlyChanges ho (by decide))
      refine ⟨t, by rw [exec, execLoopEnable, hmod, ← ht]; rfl, ?_, by rw [hcle]; exact href, by rw [hcle]; exact hloop,
        by rw [hcle]; exact hreason⟩
      rw [← hen, loopEnabled, loopCtrl, regAt, hregs]
      rfl
    · obtain ⟨c, t, ht, ho⟩ := hw (withoutBit v 0)
      obtain ⟨-, hwords, -⟩ := writeLoopCtrl_leaves (atWindow b ((0x0F100 + 0x80 * n) / 4) c s) n (withoutBit v 0)
      have hc := writeLoopCtrl_disable (s := atWindow b ((0x0F100 + 0x80 * n) / 4) c s) (n := n) (v := v)
        (by rw [loopEnabled, hctrl]; exact he)
      have hregs := getReg_of_regs (regs_of_onlyChanges ho (by decide))
      refine ⟨t, by rw [exec, execLoopDisable, hmod, ← ht]; rfl, ?_, fun i hi => ?_⟩
      · rw [← hctrl c, ← hc]
        exact hregs _
      · rw [hregs, hwords i hi, getReg_of_regs (hat c)]
    · obtain ⟨c, t, ht, ho⟩ := hw (withBit v 5)
      obtain ⟨hothers, -, hclear⟩ := writeLoopCtrl_leaves (atWindow b ((0x0F100 + 0x80 * n) / 4) c s) n (withBit v 5)
      have hcle := ho.2 .cle (by decide)
      exact ⟨t, by rw [exec, execLoopClear, hmod, ← ht]; rfl, by rw [loopOf_of_cle hcle, hclear (bit_withBit_same v (by decide))],
        fun k hk => by rw [loopOf_of_cle hcle, hothers k hk, hloop]⟩
  · obtain ⟨c, t, ht, ho⟩ := writeAlone_window h (by decide) (open_cleCommit s) (fun u => route_cleCommit u v)
    obtain ⟨hregs, hloops⟩ := cleCommitTo_leaves (atWindow b (0x0F004 / 4) c s) v 8
    have hat : (atWindow b (0x0F004 / 4) c s).regs = s.regs := by simp
    refine ⟨t, ht, ((regs_of_onlyChanges ho (by decide)).trans hregs).trans hat, fun n hn => ?_⟩
    have hl : loopOf (atWindow b (0x0F004 / 4) c s) n = loopOf s n := loopOf_of_cle (by simp) n
    rw [loopOf_of_cle (ho.2 .cle (by decide)), ← hl, ← loopShadow_of_regs hat]
    refine (hloops n).trans ?_
    simp [hn]
  · have hw := writeAlone_window (v := v) h (by interval_cases n <;> rfl) (open_setpoint s n hn)
      (fun u => route_setpoint u n v hn)
    obtain ⟨c, t, ht, ho⟩ := hw
    have hat : (atWindow b (setpointWord n / 4) c s).regs = s.regs := by simp
    have hcle : t.cle = (writeSetpoint (atWindow b (setpointWord n / 4) c s) n v).cle := ho.2 .cle (by decide)
    have hregs : t.regs = (writeSetpoint (atWindow b (setpointWord n / 4) c s) n v).regs := regs_of_onlyChanges ho (by decide)
    refine ⟨fun hd => ⟨t, ht, ?_⟩, fun hd => ⟨t, ht, ?_⟩⟩
    · rw [writeSetpoint_free v hn (by rw [destOwned_of_regs hat]; exact hd)] at hcle hregs
      obtain ⟨hv, hothers⟩ := written_of_regs (s := s) (a := setpointWord n) (hregs.trans (setRegAt_regs_of_regs hat _ _))
      exact ⟨hv, hothers, hcle.trans (by simp [setRegAt, setReg])⟩
    · obtain ⟨hkeep, hflag⟩ := writeSetpoint_owned (s := atWindow b (setpointWord n / 4) c s) v (by rw [destOwned_of_regs hat]; exact hd)
      rw [hcle]
      exact ⟨hregs.trans (hkeep.trans hat), hflag⟩
  · obtain ⟨c, t, ht, ho⟩ := writeAlone_window h (by decide) (open_len s) (fun u => route_len u v)
    obtain ⟨hv, hothers⟩ := written_of_regs (s := s) (a := 0x0F008) (v := v &&& 3#32)
      ((regs_of_onlyChanges ho (by decide)).trans (by simp [writeLen, setRegAt, setReg]))
    exact ⟨t, ht, hv, hothers⟩

end Sys2Proof.Machine
end

section
/-! SUPPORT. What a window of the registers decides by is as it was as a write comes to it; and the registers of the light
memory, the shadow engine and the blend stage (03 R109, R119, 05 R193, R209, 06 R229, R232). -/

namespace Sys2Proof.Machine

/-! ## What a window sees (18 R610, 21 R702) -/

/-- A write comes to its window with the collector's cycle marked, the power state, the link and the parity record changed, and
nothing else. -/
theorem atWindow_eq (b : Bus) (idx : Nat) (c : Option (Nat × Bool)) (s : State) :
    ∃ f p h g, atWindow b idx c s = { s with flt := f, pwr := p, hif := h, glb := g } := by
  unfold atWindow portWakes idleExits
  dsimp only
  split
  · split
    · exact ⟨_, _, _, _, rfl⟩
    · exact ⟨_, _, _, _, rfl⟩
  · split
    · split
      · exact ⟨_, _, _, _, rfl⟩
      · exact ⟨_, _, _, _, rfl⟩
    · split
      · exact ⟨_, _, _, _, rfl⟩
      · exact ⟨_, _, _, _, rfl⟩

section Window

variable (b : Bus) (idx : Nat) (c : Option (Nat × Bool)) (s : State)

/-- What reads neither the collector, the power state, the link nor the parity record is as it was. -/
theorem congr_atWindow {α : Sort*} (F : State → α)
    (hF : ∀ f p h g, F { s with flt := f, pwr := p, hif := h, glb := g } = F s) : F (atWindow b idx c s) = F s := by
  obtain ⟨f, p, h, g, he⟩ := atWindow_eq b idx c s
  rw [he, hF]

@[simp] theorem stopped_atWindow (h : Head) : stopped (atWindow b idx c s) h = stopped s h :=
  congr_atWindow b idx c s (fun u => stopped u h) (fun _ _ _ _ => rfl)

@[simp] theorem timer_atWindow (h : Head) : timer (atWindow b idx c s) h = timer s h :=
  congr_atWindow b idx c s (fun u => timer u h) (fun _ _ _ _ => rfl)

end Window

/-! ## Bits of a plain write (00 R10, R12) -/

/-- A field outside every limited one is taken as it is written. -/
theorem bit_keepBad (lims : List Lim) (old v : Word) (i : Nat) (h : ∀ l ∈ lims, bit (mask l.hi l.lo) i = false) :
    bit (keepBad lims old v) i = bit v i := by
  have hfold : ∀ acc : Word, bit acc i = bit v i →
      bit (lims.foldl (fun acc l => if l.holds v then acc else merge acc old (mask l.hi l.lo)) acc) i = bit v i := by
    induction lims with
    | nil => exact fun _ ha => ha
    | cons l lims ih =>
      refine fun acc ha => ih (fun l' hl' => h l' (List.mem_cons_of_mem _ hl')) _ ?_
      dsimp only
      split
      · exact ha
      · rw [bit_merge, h l List.mem_cons_self, if_neg Bool.false_ne_true, ha]
  exact hfold v rfl

/-- A writable bit that no lock and no limit covers is taken as it is written. -/
theorem bit_accepted (s : State) (idx : Nat) (v : Word) (i : Nat) (hm : bit (rwMask idx) i = true)
    (hr : bit (rwlMask idx) i = false) (hl : ∀ l ∈ limsOf idx, bit (mask l.hi l.lo) i = false) :
    bit (accepted s idx v) i = bit v i := by
  have hi : i < 32 := by
    by_contra hlt
    rw [bit_of_le _ (by omega)] at hm
    cases hm
  unfold accepted
  extract_lets old m
  have hmask : bit m i = true := by
    have hboth : bit (if s.saf.unlocked then rwMask idx else rwMask idx &&& ~~~(rwlMask idx)) i = true := by
      split
      · exact hm
      · rw [bit_and, bit_not, hm, hr]
        simp [hi]
    exact hboth
  rw [bit_merge, if_pos hmask, bit_keepBad _ _ _ _ hl]

theorem regBit_plainWrite (s : State) {a idx : Nat} (v : Word) (i : Nat) (ha : idx = a / 4) :
    regBit (plainWrite s idx v) a i = bit (accepted s idx v) i := by
  rw [regBit, regAt, plainWrite, ha, getReg_setReg_same]

/-! ## Budgets and regions (03 R109, R122) -/

theorem plainWrite_otherWords (s : State) (idx : Nat) (v : Word) : otherWords idx s (plainWrite s idx v) := fun i hi =>
  getReg_setReg_other s idx i _ hi

theorem setRegAt_otherWords (s : State) (a : Nat) (v : Word) : otherWords (a / 4) s (setRegAt s a v) := fun i hi =>
  getReg_setReg_other s (a / 4) i _ hi

/-- A budget that a write asks for is refused (03 R122). -/
def budgetBad (s : State) (c n : Nat) : Bool :=
  decide (24576 < budgetSum s - budgetReg s c + n) || decide (n < clientNeed s (appliedPlan s) c)
    || (slotStates s).any (fun x => decide (n < clientNeed s (planWith s x) c))

theorem writeBudget_eq (s : State) (c : Nat) (v : Word) :
    writeBudget s c v = if budgetBad s c (fld v 15 0) then modLmm s (fun m => { m with budgetRefused := true, detail := c })
      else setRegAt s (0x04040 + 4 * c) (v &&& 0x1FFFF#32) := rfl

theorem budgetBad_atWindow (b : Bus) (idx : Nat) (c : Option (Nat × Bool)) (s : State) (k n : Nat) :
    budgetBad (atWindow b idx c s) k n = budgetBad s k n :=
  congr_atWindow b idx c s (fun u => budgetBad u k n) (fun _ _ _ _ => rfl)

/-- A region word is taken (03 R109). -/
def regionOk (s : State) (k : Nat) (w : Word) : Bool :=
  stopped s .a && stopped s .b && !engineOn s && regionMinOk k w
    && regionsOk (fun j => if j = k then w else regAt s (0x04100 + 4 * j))

/-- A region word whose base and size are no reserved values is taken or refused as it is. -/
theorem writeRegion_eq (s : State) (k : Nat) {v w : Word} (hw : w = v &&& 0x83FF03FF#32) (hb : fld v 9 0 ≤ 479)
    (hs : bit v 31 = true → fld v 25 16 ≠ 0) :
    writeRegion s k v = if regionOk s k w then setRegAt s (0x04100 + 4 * k) w
      else modLmm s (fun m => { m with regionRefused := true }) := by
  have hfld : ∀ hi lo, (∀ i, lo ≤ i → i ≤ hi → bit 0x83FF03FF#32 i = true) → fld w hi lo = fld v hi lo := by
    intro hi lo hm
    have hbits : ∀ i, (fld w hi lo).testBit i = (fld v hi lo).testBit i := fun i => by
      have hfb : ∀ u : Word, (fld u hi lo).testBit i = (decide (i < hi + 1 - lo) && bit u (i + lo)) := fun u => by
        rw [fld, Nat.testBit_mod_two_pow, Nat.testBit_div_two_pow, bit, ← BitVec.testBit_toNat]
      rw [hfb, hfb, hw, bit_and]
      by_cases hi' : i < hi + 1 - lo
      · rw [hm (i + lo) (by omega) (by omega), Bool.and_true]
      · simp [hi']
    exact Nat.eq_of_testBit_eq hbits
  have hbase : fld w 9 0 = fld v 9 0 := hfld 9 0 (by decide)
  have hsize : fld w 25 16 = fld v 25 16 := hfld 25 16 (by decide)
  have hon : bit w 31 = bit v 31 := by rw [hw, bit_and, show bit 0x83FF03FF#32 31 = true by decide, Bool.and_true]
  have h0 : ¬ fld w 9 0 > 479 := by omega
  have h1 : (bit w 31 && fld w 25 16 == 0) = false := by
    cases hv : bit v 31 with
    | false => rw [hon, hv, Bool.false_and]
    | true => simp [hon, hv, hsize, hs hv]
  unfold writeRegion
  dsimp only
  rw [← hw, if_neg h0, h1, if_neg Bool.false_ne_true]
  rfl

theorem regionOk_atWindow (b : Bus) (idx : Nat) (c : Option (Nat × Bool)) (s : State) (k : Nat) (w : Word) :
    regionOk (atWindow b idx c s) k w = regionOk s k w :=
  congr_atWindow b idx c s (fun u => regionOk u k w) (fun _ _ _ _ => rfl)

/-- Settles O18: a budget and a region by the checks of their writes, the scrubber by its bit. -/
theorem lightMemoryRegisters : Obligations.LightMemoryRegisters := by
  unfold Obligations.LightMemoryRegisters
  refine ⟨fun s b k v bad hk h hbad => ?_, fun s b k v w ok hk h hw hb hs hok => ?_, fun s b v h => ⟨?_, ?_⟩⟩
  · have hbad' : bad = budgetBad s k (fld v 15 0) := hbad
    have hmod : k % 12 = k := Nat.mod_eq_of_lt hk
    obtain ⟨c, t, ht, ho⟩ := writeAlone_window h (by omega) (open_budget s k hk) (fun u => route_budget u k v hk)
    rw [writeBudget_eq, budgetBad_atWindow, ← hbad'] at ho
    refine ⟨fun hb => ?_, fun hb => ?_⟩
    · rw [hb, if_neg Bool.false_ne_true] at ho
      obtain ⟨hv, hothers⟩ := written_of_regs (s := s) (a := 0x04040 + 4 * k)
        ((regs_of_onlyChanges ho (by decide)).trans (setRegAt_regs_of_regs (by simp) _ _))
      exact ⟨t, by rw [exec, execBudgetWrite, hmod, ht], hv, hothers, (ho.2 .lmm (by decide)).trans (by simp [setRegAt, setReg])⟩
    · rw [hb, if_pos rfl] at ho
      refine ⟨t, by rw [exec, execBudgetWrite, hmod, ht], getReg_of_regs ((regs_of_onlyChanges ho (by decide)).trans (by simp)), ?_⟩
      rw [show t.lmm = _ from ho.2 .lmm (by decide)]
      simp [modLmm]
  · have hok' : ok = regionOk s k w := hok
    have hmod : k % 11 = k := Nat.mod_eq_of_lt hk
    obtain ⟨c, t, ht, ho⟩ := writeAlone_window h (by omega) (open_region s k hk) (fun u => route_region u k v hk)
    rw [writeRegion_eq _ _ hw hb hs, regionOk_atWindow, ← hok'] at ho
    refine ⟨fun hb => ?_, fun hb => ?_⟩
    · rw [hb, if_pos rfl] at ho
      obtain ⟨hv, hothers⟩ := written_of_regs (s := s) (a := 0x04100 + 4 * k)
        ((regs_of_onlyChanges ho (by decide)).trans (setRegAt_regs_of_regs (by simp) _ _))
      exact ⟨t, by rw [exec, execRegionWrite, hmod, ht], hv, hothers, (ho.2 .lmm (by decide)).trans (by simp [setRegAt, setReg])⟩
    · rw [hb, if_neg Bool.false_ne_true] at ho
      refine ⟨t, by rw [exec, execRegionWrite, hmod, ht], getReg_of_regs ((regs_of_onlyChanges ho (by decide)).trans (by simp)), ?_⟩
      rw [show t.lmm = _ from ho.2 .lmm (by decide)]
      simp [modLmm]
  · obtain ⟨c, t, ht, ho⟩ := writeAlone_window h (by decide) (open_scrub s) (fun u => route_scrub u (withBit v 0))
    have hg := getReg_of_regs (regs_of_onlyChanges ho (by decide))
    refine ⟨t, ht, ?_, fun i hi => ?_⟩
    · rw [regBit, regAt, hg, ← regAt, ← regBit, regBit_plainWrite _ _ _ rfl,
        bit_accepted _ _ _ _ (by decide) (by decide) (by decide), bit_withBit_same v (by decide)]
    · rw [hg, plainWrite_otherWords _ _ _ i hi, getReg_atWindow]
  · obtain ⟨c, t, ht, ho⟩ := writeAlone_window h (by decide) (open_scrub s) (fun u => route_scrub u (withoutBit v 0))
    have hg := getReg_of_regs (regs_of_onlyChanges ho (by decide))
    refine ⟨t, ht, ?_, fun i hi => ?_⟩
    · rw [regBit, regAt, hg, ← regAt, ← regBit, regBit_plainWrite _ _ _ rfl,
        bit_accepted _ _ _ _ (by decide) (by decide) (by decide), bit_withoutBit_same v (by decide)]
    · rw [hg, plainWrite_otherWords _ _ _ i hi, getReg_atWindow]

end Sys2Proof.Machine
end

section
/-! SUPPORT. The check of a shadow map, the shadow engine's enables, the tone banks and the headrooms (05 R193, R209, 06 R229,
R232). -/

namespace Sys2Proof.Machine

/-! ## The shadow engine's enables (05 R209) -/

/-- One head's enable of a write of `SHD_CTRL`, where `old` is the word before. -/
def shdStep (old v : Word) (s : State) (h : Head) : State :=
  if bit old (Head.idx h) && !bit v (Head.idx h) && maskWanted s h then { s with shdRefused := true }
  else setRegAt s 0x20000 (merge (regAt s 0x20000) v (bitAt (Head.idx h) true))

theorem writeShdCtrl_eq (s : State) (v : Word) :
    writeShdCtrl s v = shdStep (regAt s 0x20000) v (shdStep (regAt s 0x20000) v s .a) .b := rfl

theorem maskWanted_shdStep (old v : Word) (s : State) (h k : Head) : maskWanted (shdStep old v s h) k = maskWanted s k := by
  have htimer : ∀ w, timer (setRegAt s 0x20000 w) k = timer s k := fun w => by
    rw [timer, joined, regBit, regAt_setRegAt_other _ _ (by decide)]
    rfl
  unfold shdStep
  split
  · rfl
  · rw [maskWanted, htimer]
    rfl

theorem shdStep_otherWords (old v : Word) (s : State) (h : Head) : otherWords (0x20000 / 4) s (shdStep old v s h) := by
  unfold shdStep
  split
  · exact fun i _ => rfl
  · exact setRegAt_otherWords _ _ _

theorem shdStep_other (old v : Word) (s : State) {h k : Head} (hk : k ≠ h) :
    regBit (shdStep old v s h) 0x20000 (Head.idx k) = regBit s 0x20000 (Head.idx k) := by
  unfold shdStep
  split
  · rfl
  · rw [regBit, regAt_setRegAt_same _ _ rfl, bit_merge, bit_bitAt _ (by cases k <;> decide),
      if_neg (by cases h <;> cases k <;> first | exact absurd rfl hk | decide)]
    rfl

theorem shdStep_refused_mono (old v : Word) (s : State) (h : Head) (hs : s.shdRefused = true) :
    (shdStep old v s h).shdRefused = true := by
  unfold shdStep
  split
  · rfl
  · exact hs

/-- A head's own step keeps its enable and says so, or takes it. -/
theorem shdStep_self (old v : Word) (s : State) (h : Head) (hold : bit old (Head.idx h) = regBit s 0x20000 (Head.idx h)) :
    if regBit s 0x20000 (Head.idx h) = true ∧ bit v (Head.idx h) = false ∧ maskWanted s h = true then
      regBit (shdStep old v s h) 0x20000 (Head.idx h) = true ∧ (shdStep old v s h).shdRefused = true
    else regBit (shdStep old v s h) 0x20000 (Head.idx h) = bit v (Head.idx h) := by
  split
  · next hc =>
    obtain ⟨hon, hoff, hw⟩ := hc
    rw [shdStep, if_pos (by rw [hold, hon, hoff, hw]; rfl)]
    exact ⟨hon, rfl⟩
  · next hc =>
    rw [shdStep, if_neg (by simpa [hold, and_assoc] using hc), regBit, regAt_setRegAt_same _ _ rfl, bit_merge,
      bit_bitAt _ (by cases h <;> decide)]
    simp

theorem writeShdCtrl_leaves (s : State) (v : Word) :
    otherWords (0x20000 / 4) s (writeShdCtrl s v)
      ∧ ∀ h, if regBit s 0x20000 (Head.idx h) = true ∧ bit v (Head.idx h) = false ∧ maskWanted s h = true then
          regBit (writeShdCtrl s v) 0x20000 (Head.idx h) = true ∧ (writeShdCtrl s v).shdRefused = true
        else regBit (writeShdCtrl s v) 0x20000 (Head.idx h) = bit v (Head.idx h) := by
  rw [writeShdCtrl_eq]
  have ha := shdStep_self (regAt s 0x20000) v s .a rfl
  have hkeep : regBit (shdStep (regAt s 0x20000) v s .a) 0x20000 (Head.idx .b) = regBit s 0x20000 (Head.idx .b) :=
    shdStep_other _ _ _ (by decide)
  have hb := shdStep_self (regAt s 0x20000) v (shdStep (regAt s 0x20000) v s .a) .b hkeep.symm
  rw [hkeep, maskWanted_shdStep] at hb
  refine ⟨fun i hi => (shdStep_otherWords _ _ _ _ i hi).trans (shdStep_otherWords _ _ _ _ i hi), fun h => ?_⟩
  cases h with
  | b => exact hb
  | a =>
    rw [shdStep_other _ _ _ (show Head.a ≠ Head.b by decide)]
    split at ha
    · next hc =>
      rw [if_pos hc]
      exact ⟨ha.1, shdStep_refused_mono _ _ _ _ ha.2⟩
    · next hc =>
      rw [if_neg hc]
      exact ha

/-! ## The map check (05 R193) -/

theorem writeMapCfg_valid {s : State} {h : Head} (hm : mapFail s h = none) :
    writeMapCfg s h 1#32 = setRegAt s (shdBase h) 1#32 := by
  rw [writeMapCfg, if_pos (by decide), hm]

theorem writeMapCfg_bad {s : State} {h : Head} {n : Nat} (hm : mapFail s h = some n) :
    writeMapCfg s h 1#32 = modShd { setRegAt s (shdBase h) 0#32 with shdNode := n } h (fun d => { d with mapError := true }) := by
  rw [writeMapCfg, if_pos (by decide), hm]

theorem shdBase_mod (h : Head) : shdBase h % 4 = 0 := by cases h <;> rfl

/-! ## Tone banks and headrooms (06 R229, R232) -/

theorem toneCheckEnds_bad {s : State} {h : Head} {k : Nat} (hl : pixLive s = true) (hs : (s.bld.get h).swap = 1)
    (hf : toneFail s h (1 - (s.bld.get h).bank) = some k) :
    toneCheckEnds s h = modBld { s with bldEntry := k } h (fun e => { e with swap := 0, toneError := true }) := by
  simp [toneCheckEnds, hl, hs, hf]

/-- A bank that passes is taken at once where the head has no cut, and waits for one otherwise. -/
theorem toneCheckEnds_good {s : State} {h : Head} (hl : pixLive s = true) (hs : (s.bld.get h).swap = 1)
    (hf : toneFail s h (1 - (s.bld.get h).bank) = none) :
    (toneCheckEnds s h).bld.get h = if noCut s h = true then { s.bld.get h with swap := 0, bank := 1 - (s.bld.get h).bank }
      else { s.bld.get h with swap := 2 } := by
  have hcut : noCut (modBld s h (fun e => { e with swap := 2 })) h = noCut s h := rfl
  simp only [toneCheckEnds, hl, hs, hf, hcut]
  by_cases hn : noCut s h = true
  · rw [if_pos hn]
    simp [hn, toneApply]
  · rw [if_neg hn]
    simp [hn]

theorem writeHeadroom_eq {s : State} {h : Head} {n : Nat} (v : Word) (h1 : 1 ≤ n) (h8 : n < 8) :
    writeHeadroom s h n v =
      if decide (fld v 15 0 ≤ regFld s (headroomAddr h (n - 1)) 15 0)
        && decide ((if n = 7 then 0 else regFld s (headroomAddr h (n + 1)) 15 0) ≤ fld v 15 0) then
        headroomStopped (setRegAt s (headroomAddr h n) (v &&& 0xFFFF#32))
      else modBld s h (fun b => { b with headroomRefused := true }) := by
  unfold writeHeadroom
  extract_lets x hi lo
  rw [if_neg (by omega)]
  by_cases hc : lo ≤ x ∧ x ≤ hi
  · rw [if_pos hc, if_pos (by simpa using ⟨hc.2, hc.1⟩)]
  · rw [if_neg hc, if_neg (by simpa [and_comm] using hc)]

theorem headroomAddr_mod (h : Head) (n : Nat) : headroomAddr h n % 4 = 0 := by
  unfold headroomAddr
  cases h
  · rw [show bldBase .a = 0x28100 from rfl]; omega
  · rw [show bldBase .b = 0x28200 from rfl]; omega

/-- Settles O24: each write by its window, and the end of a tone check by what it finds. -/
theorem mapToneHeadroom : Obligations.MapToneHeadroom := by
  unfold Obligations.MapToneHeadroom
  refine ⟨fun s b h hr => ⟨fun hm => ?_, fun n hm => ?_⟩, fun s b v hr => ?_, fun s b h hr hs => ?_,
    fun s h hl hs => ⟨fun k hf => ?_, fun hf => ?_⟩, fun s b h n v ok h1 h8 hr hok => ?_⟩
  · obtain ⟨c, t, ht, ho⟩ := writeAlone_window hr (shdBase_mod h) (open_mapCfg s h) (fun u => route_mapCfg u h 1#32)
    rw [writeMapCfg_valid ((congr_atWindow b _ c s (fun u => mapFail u h) (fun _ _ _ _ => rfl)).trans hm)] at ho
    obtain ⟨hv, hothers⟩ := written_of_regs (s := s) (a := shdBase h)
      ((regs_of_onlyChanges ho (by decide)).trans (setRegAt_regs_of_regs (by simp) _ _))
    exact ⟨t, ht, hv, hothers, (ho.2 .shd (by decide)).1.trans (by simp [setRegAt, setReg])⟩
  · obtain ⟨c, t, ht, ho⟩ := writeAlone_window hr (shdBase_mod h) (open_mapCfg s h) (fun u => route_mapCfg u h 1#32)
    rw [writeMapCfg_bad ((congr_atWindow b _ c s (fun u => mapFail u h) (fun _ _ _ _ => rfl)).trans hm)] at ho
    obtain ⟨hv, hothers⟩ := written_of_regs (s := s) (a := shdBase h)
      ((regs_of_onlyChanges ho (by decide)).trans (setRegAt_regs_of_regs (t := atWindow b (shdBase h / 4) c s) (by simp) _ _))
    obtain ⟨hshd, -, hnode⟩ := ho.2 .shd (by decide)
    exact ⟨t, ht, hv, hothers, hnode, by rw [hshd]; simp [modShd, setRegAt, setReg]⟩
  · obtain ⟨c, t, ht, ho⟩ := writeAlone_window hr (by decide) (open_shdCtrl s) (fun u => route_shdCtrl u v)
    obtain ⟨hothers, hheads⟩ := writeShdCtrl_leaves (atWindow b (0x20000 / 4) c s) v
    have hg := getReg_of_regs (regs_of_onlyChanges ho (by decide))
    have hbit : ∀ i, regBit t 0x20000 i = regBit (writeShdCtrl (atWindow b (0x20000 / 4) c s) v) 0x20000 i := fun i =>
      congrArg (bit · i) (hg _)
    have hwant : ∀ h, maskWanted (atWindow b (0x20000 / 4) c s) h = maskWanted s h := fun h =>
      congr_atWindow b _ c s (fun u => maskWanted u h) (fun _ _ _ _ => rfl)
    refine ⟨t, ht, fun i hi => by rw [hg, hothers i hi, getReg_atWindow], fun h => ?_⟩
    have hh := hheads h
    rw [regBit_atWindow, hwant, ← hbit, ← (ho.2 .shd (by decide)).2.1] at hh
    exact hh
  · obtain ⟨c, t, ht, ho⟩ := writeAlone_window hr (by cases h <;> rfl) (open_toneCtrl s h) (fun u => route_toneCtrl u h 0x100#32)
    refine ⟨t, ht, ?_⟩
    rw [(ho.2 .bld (by decide)).1, writeToneCtrl, if_pos ⟨by decide, by simpa using hs⟩]
    simp
  · obtain ⟨c, ho⟩ := inOneCycle_window (fun s => toneCheckEnds s h) s
    rw [toneCheckEnds_bad (s := inCycle c s) hl hs hf] at ho
    obtain ⟨hbld, hentry⟩ := ho.2 .bld (by decide)
    exact ⟨_, rfl, hentry, by rw [hbld]; simp [modBld]⟩
  · obtain ⟨c, ho⟩ := inOneCycle_window (fun s => toneCheckEnds s h) s
    refine ⟨_, rfl, ?_⟩
    rw [(ho.2 .bld (by decide)).1]
    exact toneCheckEnds_good (s := inCycle c s) hl hs hf
  · have hmod : n % 8 = n := Nat.mod_eq_of_lt h8
    obtain ⟨c, t, ht, ho⟩ := writeAlone_window hr (headroomAddr_mod h n) (open_headroom s h n h1 h8)
      (fun u => route_headroom u h n v h1 h8)
    rw [writeHeadroom_eq v h1 h8] at ho
    simp only [regFld_atWindow] at ho
    rw [← hok] at ho
    refine ⟨fun hb => ?_, fun hb => ?_⟩
    · rw [hb, if_pos rfl] at ho
      obtain ⟨hv, hothers⟩ := written_of_regs (s := s) (a := headroomAddr h n)
        ((regs_of_onlyChanges ho (by decide)).trans ((regs_of_onlyChanges (headroomStopped_only _) (by decide)).trans
          (setRegAt_regs_of_regs (by simp) _ _)))
      exact ⟨t, by rw [exec, execHeadroomWrite, hmod, ht], hv, hothers⟩
    · rw [hb, if_neg Bool.false_ne_true] at ho
      refine ⟨t, by rw [exec, execHeadroomWrite, hmod, ht],
        getReg_of_regs ((regs_of_onlyChanges ho (by decide)).trans (by simp)), ?_⟩
      rw [(ho.2 .bld (by decide)).1]
      simp

end Sys2Proof.Machine
end

section
/-! SUPPORT. An evaluation of housekeeping step by step: the values published, the throttle levels and the band (17 R587 to
R600). -/

namespace Sys2Proof.Machine

/-! ## Publishing (17 R587, R589 to R592) -/

/-- Published values alone may differ in housekeeping, and no register differs. -/
def publishes (s t : State) : Prop := t.regs = s.regs ∧ t.hkp = { s.hkp with vals := t.hkp.vals }

/-- No channel but `c` is published. -/
def publishesAt (c : Nat) (s t : State) : Prop := publishes s t ∧ ∀ d, d ≠ c → hkValOf t d = hkValOf s d

theorem publishes_refl (s : State) : publishes s s := ⟨rfl, rfl⟩

theorem publishes_trans {s t u : State} (h : publishes s t) (k : publishes t u) : publishes s u :=
  ⟨k.1.trans h.1, k.2.trans (by rw [h.2])⟩

theorem hkValOf_of_vals {s t : State} (h : t.hkp.vals = s.hkp.vals) (c : Nat) : hkValOf t c = hkValOf s c := by
  rw [hkValOf, h, hkValOf]

theorem hkValOf_putVal_same (s : State) (c : Nat) (v : HkVal) : hkValOf (putVal s c v) c = v := Store.get_put_same ..

theorem putVal_publishesAt (s : State) (c : Nat) (v : HkVal) : publishesAt c s (putVal s c v) :=
  ⟨⟨rfl, rfl⟩, fun _ hd => Store.get_put_other _ _ _ _ _ hd⟩

/-- What a temperature channel shows, where a value taken 10 °C higher stays in its format (17 R600). -/
def tempShown (old : HkVal) (ok : Bool) (t : Int) : HkVal :=
  if ok then { value := t, valid := true, substituted := false, lastValid := some t }
  else { old with value := match old.lastValid with | none => 2160 | some v => v + 160, valid := false, substituted := true }

theorem hkValOf_putTemp_same (s : State) (c : Nat) (ok : Bool) (t : Int) (h : ∀ v, v ∈ (hkValOf s c).lastValid → v + 160 ≤ 32767) :
    hkValOf (putTemp s c ok t) c = tempShown (hkValOf s c) ok t := by
  unfold putTemp tempShown
  split
  · exact hkValOf_putVal_same ..
  · dsimp only
    split
    · next he => rw [hkValOf_putVal_same, he]
    · next v he => rw [if_pos (h v he), hkValOf_putVal_same, he]

theorem hkValOf_putTemp_valid (s : State) (c : Nat) (t : Int) :
    hkValOf (putTemp s c true t) c = { value := t, valid := true, substituted := false, lastValid := some t } :=
  hkValOf_putVal_same ..

theorem putTemp_publishesAt (s : State) (c : Nat) (ok : Bool) (t : Int) : publishesAt c s (putTemp s c ok t) := by
  unfold putTemp
  split
  · exact putVal_publishesAt ..
  dsimp only
  split
  · exact putVal_publishesAt ..
  split
  · exact putVal_publishesAt ..
  · exact putVal_publishesAt (drawBelow s 65536).2 _ _

theorem putNtc_publishesAt (s : State) (good : Bool) (n : Nat) : publishesAt (7 + n) s (putNtc s good n) := by
  unfold putNtc
  split
  · exact putTemp_publishesAt ..
  · exact putVal_publishesAt ..

theorem putTile_publishesAt (s : State) (h : Head) : publishesAt (16 + Head.idx h) s (putTile s h) := by
  unfold putTile
  dsimp only
  split
  · exact putVal_publishesAt ..
  · exact putTemp_publishesAt ..

section Fold

variable {α : Type} {f : State → α → State} {key : α → Nat} (hf : ∀ u a, publishesAt (key a) u (f u a))
include hf

theorem foldl_publishes (l : List α) (s : State) :
    publishes s (l.foldl f s) ∧ ∀ d, (∀ a, a ∈ l → key a ≠ d) → hkValOf (l.foldl f s) d = hkValOf s d := by
  induction l generalizing s with
  | nil => exact ⟨publishes_refl s, fun _ _ => rfl⟩
  | cons a l ih =>
    obtain ⟨h1, h2⟩ := hf s a
    obtain ⟨h3, h4⟩ := ih (f s a)
    exact ⟨publishes_trans h1 h3, fun d hd => (h4 d fun b hb => hd b (List.mem_cons_of_mem _ hb)).trans
      (h2 d (hd a List.mem_cons_self).symm)⟩

/-- A channel that a fold publishes with one value, whatever was published before it, shows that value. -/
theorem hkValOf_foldl {l : List α} {a : α} {v : HkVal} (s : State) (ha : a ∈ l) (hkey : ∀ b, b ∈ l → key b = key a → b = a)
    (hv : ∀ u, publishes s u → hkValOf (f u a) (key a) = v) : hkValOf (l.foldl f s) (key a) = v := by
  induction l generalizing s with
  | nil => exact absurd ha List.not_mem_nil
  | cons b l ih =>
    have hrest : ∀ x, x ∈ l → key x = key a → x = a := fun x hx => hkey x (List.mem_cons_of_mem _ hx)
    by_cases hl : a ∈ l
    · exact ih (f s b) hl hrest fun u hu => hv u (publishes_trans (hf s b).1 hu)
    · obtain rfl : a = b := (List.mem_cons.mp ha).resolve_right hl
      exact ((foldl_publishes hf l _).2 _ fun x hx hk => hl (hrest x hx hk ▸ hx)).trans (hv s (publishes_refl s))

end Fold

/-- A rail or AUX channel with good references shows its code scaled (17 R589). -/
theorem hkValOf_putMilli_good (s u : State) (c : Nat) (h : publishes s u) : hkValOf (putMilli u true c) c
    = { value := rhuDiv ((hkCode s c : Int) * (fullScale c : Nat)) 4096, valid := true, substituted := false, lastValid := none } := by
  unfold putMilli hkCode
  rw [hkValOf_putVal_same, h.2]
  rfl

/-- An enabled NTC with good references and a code in range shows its table's temperature (17 R589, R591). -/
theorem hkValOf_putNtc_good (s u : State) {n : Nat} (h : publishes s u) (hn : ntcOn s n = true) (hlo : 15 < hkCode s (7 + n))
    (hhi : hkCode s (7 + n) < 4080) : hkValOf (putNtc u true n) (7 + n)
      = { value := ntcTemp s n (hkCode s (7 + n)), valid := true, substituted := false,
          lastValid := some (ntcTemp s n (hkCode s (7 + n))) } := by
  have hcode : hkCode u (7 + n) = hkCode s (7 + n) := by rw [hkCode, h.2, hkCode]
  have hreg : regAt u = regAt s := funext fun a => getReg_of_regs h.1 (a / 4)
  have hon : ntcOn u n = true := by rw [ntcOn, regBit, hreg]; exact hn
  have htemp : ntcTemp u n = ntcTemp s n := funext fun x => by simp only [ntcTemp, ntcEntry, regFld, hreg]
  simp only [putNtc, hon, hcode, htemp, hlo, hhi, if_true, decide_true, Bool.and_true]
  exact hkValOf_putTemp_valid ..

/-- The die's value is trusted in a round (17 R590, R592). -/
def dieGood (s : State) : Bool := refsGood s && fuseCrcOk s && decide (-960 ≤ dieTemp s) && decide (dieTemp s ≤ 3200)

/-- What a round publishes. -/
theorem publishRound_leaves (s : State) : (publishRound s).regs = s.regs
    ∧ (publishRound s).hkp = { s.hkp with vals := (publishRound s).hkp.vals, refFail := !refsGood s,
                                          tileInvalid := (publishRound s).hkp.tileInvalid }
    ∧ ((∀ v, v ∈ (hkValOf s 0).lastValid → v + 160 ≤ 32767) →
      hkValOf (publishRound s) 0 = tempShown (hkValOf s 0) (dieGood s) (dieTemp s))
    ∧ (∀ c, c ∈ [1, 2, 3, 4, 5, 6, 11, 12] → refsGood s = true → hkValOf (publishRound s) c
      = { value := rhuDiv ((hkCode s c : Int) * (fullScale c : Nat)) 4096, valid := true, substituted := false, lastValid := none })
    ∧ ∀ n, n < 4 → ntcOn s n = true → refsGood s = true → 15 < hkCode s (7 + n) → hkCode s (7 + n) < 4080 →
      hkValOf (publishRound s) (7 + n) = { value := ntcTemp s n (hkCode s (7 + n)), valid := true, substituted := false,
                                           lastValid := some (ntcTemp s n (hkCode s (7 + n))) } := by
  unfold publishRound
  extract_lets good s1 s2 s3 s4 s5 s6 s7
  have h1 : publishesAt 0 s s1 := putTemp_publishesAt ..
  have hmilli : ∀ u c, publishesAt c u (putMilli u good c) := fun u c => putVal_publishesAt ..
  have hntc : ∀ u n, publishesAt (7 + n) u (putNtc u good n) := fun u n => putNtc_publishesAt ..
  obtain ⟨h2, k2⟩ : publishes s1 s2 ∧ _ := foldl_publishes hmilli _ s1
  obtain ⟨h3, k3⟩ : publishes s2 s3 ∧ _ := foldl_publishes hntc _ s2
  obtain ⟨h4, k4⟩ : publishesAt 13 s3 s4 := putVal_publishesAt ..
  obtain ⟨h5, k5⟩ : publishesAt 14 s4 s5 := putVal_publishesAt ..
  obtain ⟨h6, k6⟩ : publishesAt 15 s5 s6 := putVal_publishesAt ..
  obtain ⟨h7, k7⟩ : publishes s6 s7 ∧ _ := foldl_publishes putTile_publishesAt bothHeads s6
  have h23 := publishes_trans h2 h3
  have h13 := publishes_trans h1.1 h23
  have h37 := publishes_trans h4 (publishes_trans h5 (publishes_trans h6 h7))
  have hall := publishes_trans h13 h37
  have hlast : ∀ c, c < 13 → hkValOf s7 c = hkValOf s3 c := fun c hc => by
    have htile : ∀ h, h ∈ bothHeads → 16 + Head.idx h ≠ c := fun h _ => by omega
    rw [k7 c htile, k6 c (by omega), k5 c (by omega), k4 c (by omega)]
  have hfinal : ∀ {u : State}, u.hkp.vals = s7.hkp.vals → ∀ c, hkValOf u c = hkValOf s7 c := hkValOf_of_vals
  refine ⟨hall.1, by rw [modHkp, hall.2], fun hroom => ?_, fun c hc hgood => ?_, fun n hn hon hgood hlo hhi => ?_⟩
  · refine (hfinal rfl _).trans ?_
    rw [hlast 0 (by decide), k3 0 (by simp), k2 0 (by decide)]
    exact hkValOf_putTemp_same s 0 _ _ hroom
  · have hntcOther : ∀ m, m ∈ List.range 4 → 7 + m ≠ c := fun m hm => by
      have hm4 := List.mem_range.mp hm
      simp only [List.mem_cons, List.not_mem_nil, or_false] at hc
      omega
    have hc13 : c < 13 := by
      simp only [List.mem_cons, List.not_mem_nil, or_false] at hc
      omega
    refine (hfinal rfl _).trans ?_
    rw [hlast c hc13, k3 c hntcOther]
    refine hkValOf_foldl hmilli s1 hc (fun _ _ h => h) fun u hu => ?_
    rw [show good = true from hgood]
    exact hkValOf_putMilli_good s u c (publishes_trans h1.1 hu)
  · refine (hfinal rfl _).trans ?_
    rw [hlast (7 + n) (by omega)]
    refine hkValOf_foldl hntc s2 (List.mem_range.mpr hn) (fun m _ h => by omega) fun u hu => ?_
    rw [show good = true from hgood]
    exact hkValOf_putNtc_good s u (publishes_trans h1.1 (publishes_trans h2 hu)) hon hlo hhi

/-! ## Throttling (17 R597, R598) -/

/-- The demand reads registers and published values alone. -/
theorem demand_congr {s t : State} (hr : t.regs = s.regs) (hv : t.hkp.vals = s.hkp.vals) (h : Head) (add : Int) :
    demand t h add = demand s h add ∧ inputsValid t h = inputsValid s h := by
  have hreg : regAt t = regAt s := funext fun a => getReg_of_regs hr (a / 4)
  have hval : hkValOf t = hkValOf s := funext fun c => hkValOf_of_vals hv c
  have hin : throttleInputs t h = throttleInputs s h := by
    unfold throttleInputs regBit
    rw [hreg]
  simp only [demand, inputsValid, hin, hval, regFld, hreg, and_self]

/-- A head's level as an evaluation's values demand it. -/
def throttleLevel (s : State) (h : Head) : Nat :=
  levelNext (s.hkp.level.get h) (s.hkp.prevU.get h) (demand s h 0) (s.hkp.prevD.get h) (demand s h 64) (inputsValid s h)

theorem throttleBoth_leaves (s : State) : (bothHeads.foldl throttleHead s).regs = s.regs
    ∧ (bothHeads.foldl throttleHead s).hkp = { s.hkp with level := { a := throttleLevel s .a, b := throttleLevel s .b },
                                                          prevU := { a := demand s .a 0, b := demand s .b 0 },
                                                          prevD := { a := demand s .a 64, b := demand s .b 64 } } := by
  have hd := fun add => (demand_congr (s := s) (t := throttleHead s .a) rfl rfl .b add).1
  have hi := (demand_congr (s := s) (t := throttleHead s .a) rfl rfl .b 0).2
  refine ⟨rfl, ?_⟩
  change (throttleHead (throttleHead s .a) .b).hkp = _
  rw [throttleHead]
  simp only [hd, hi]
  rfl

/-! ## The band (17 R593 to R595) -/

/-- The band that an evaluation with the values of `s` puts in force. -/
def bandPut (s : State) : Nat :=
  match s.hkp.band with
  | none => bandDirect (hkValOf s 0).value
  | some c => bandNext c s.hkp.prevTarget (bandTarget (hkValOf s 0).value c) (hkValOf s 0).valid

theorem bandFollows_hkp (s : State) : (bandLevels (bandEvent s)).hkp = s.hkp :=
  ((bandLevels_only _).2 .hkp (by decide)).trans ((bandEvent_only s).2 .hkp (by decide))

theorem decideBand_hkp (s : State) : ∃ tp n, (decideBand s).hkp
    = { s.hkp with band := some (bandPut s), prevTarget := tp, bandChanges := n } := by
  have hk : ∀ u o, (kpsRequest u o).hkp = u.hkp := fun u o => (kpsRequest_only u o).2 .hkp (by decide)
  unfold decideBand
  split
  · next hc =>
    have hput : bandPut s = bandDirect (hkValOf s 0).value := by rw [bandPut, hc]
    dsimp only
    split <;> exact ⟨_, _, by simp only [hk, bandFollows_hkp, modHkp, hput]; rfl⟩
  · next c hc =>
    have hput : bandPut s = bandNext c s.hkp.prevTarget (bandTarget (hkValOf s 0).value c) (hkValOf s 0).valid := by
      rw [bandPut, hc]
    dsimp only
    split
    · next hb => exact ⟨_, _, by rw [hput, hb, ← hc]; rfl⟩
    · split <;> exact ⟨_, _, by simp only [hk, bandFollows_hkp, modHkp, hput]; rfl⟩

/-! ## The evaluation (17 R587) -/

theorem judgeSupply_hkp (s : State) : ∃ out n, (judgeSupply s).hkp = { s.hkp with supplyOut := out, supplyIn := n } := by
  have hl : ∀ u a b c d on, (setLevel u a b c d on).hkp = u.hkp := fun u a b c d on => (setLevel_only u a b c d on).2 .hkp (by decide)
  unfold judgeSupply
  extract_lets outs s1
  have h1 : ∃ out n, s1.hkp = { s.hkp with supplyOut := out, supplyIn := n } := ⟨_, _, rfl⟩
  split
  · rw [hl]
    exact h1
  split
  · rw [hl]
    exact h1
  · exact h1

/-- What an evaluation does with the round that is published. -/
def judged (p : State) : State :=
  let t := sensorLevels (headroomStopped (decideBand (bothHeads.foldl throttleHead p)))
  if t.hkp.refFail then t else judgeSupply t

/-- The levels and the band follow from what the round published. -/
theorem judged_hkp (p : State) : ∃ tp n out k, (judged p).hkp = { p.hkp with
    level := { a := throttleLevel p .a, b := throttleLevel p .b }, prevU := { a := demand p .a 0, b := demand p .b 0 },
    prevD := { a := demand p .a 64, b := demand p .b 64 }, band := some (bandPut p), prevTarget := tp, bandChanges := n,
    supplyOut := out, supplyIn := k } := by
  have hlev := (throttleBoth_leaves p).2
  have hput : bandPut (bothHeads.foldl throttleHead p) = bandPut p := by simp only [bandPut, hkValOf, hlev]
  obtain ⟨tp, n, hband⟩ := decideBand_hkp (bothHeads.foldl throttleHead p)
  rw [hput, hlev] at hband
  have hsensor : ∀ u, (sensorLevels (headroomStopped u)).hkp = u.hkp := fun u =>
    ((sensorLevels_only _).2 .hkp (by decide)).trans ((headroomStopped_only _).2 .hkp (by decide))
  unfold judged
  dsimp only
  split
  · exact ⟨tp, n, _, _, by rw [hsensor, hband]⟩
  · obtain ⟨out, k, hj⟩ := judgeSupply_hkp (sensorLevels (headroomStopped (decideBand (bothHeads.foldl throttleHead p))))
    exact ⟨tp, n, out, k, by rw [hj, hsensor, hband]⟩

/-- The round's values as an evaluation publishes them. -/
def published (s : State) : State := publishRound (modHkp s fun k => { k with prevDie := (hkValOf s 0).value })

theorem evaluateRound_eq {s : State} (h0 : hkpRuns s = true) (h1 : s.hkp.busy = true) (h2 : s.hkp.slot = 16) :
    evaluateRound s = modHkp (judged (published s)) fun k =>
      { k with busy := false, slot := 0, codes := [], rounds := (k.rounds + 1) % 256 } := by
  rw [evaluateRound, if_neg (by simp [h0, h1, h2])]
  dsimp only [judged, published]

/-- Housekeeping after an evaluation. -/
theorem evaluateRound_hkp {s : State} (h0 : hkpRuns s = true) (h1 : s.hkp.busy = true) (h2 : s.hkp.slot = 16) :
    ∃ tp n out k, (evaluateRound s).hkp = { (published s).hkp with
      level := { a := throttleLevel (published s) .a, b := throttleLevel (published s) .b },
      prevU := { a := demand (published s) .a 0, b := demand (published s) .b 0 },
      prevD := { a := demand (published s) .a 64, b := demand (published s) .b 64 }, band := some (bandPut (published s)),
      busy := false, slot := 0, codes := [], rounds := ((published s).hkp.rounds + 1) % 256, prevTarget := tp,
      bandChanges := n, supplyOut := out, supplyIn := k } := by
  obtain ⟨tp, n, out, k, hj⟩ := judged_hkp (published s)
  exact ⟨tp, n, out, k, by rw [evaluateRound_eq h0 h1 h2, modHkp, hj]⟩

/-- What the values published leave of housekeeping. -/
theorem published_keeps (s : State) : (published s).regs = s.regs ∧ (published s).hkp.band = s.hkp.band
    ∧ (published s).hkp.prevTarget = s.hkp.prevTarget ∧ (published s).hkp.level = s.hkp.level
    ∧ (published s).hkp.prevU = s.hkp.prevU ∧ (published s).hkp.prevD = s.hkp.prevD
    ∧ (published s).hkp.rounds = s.hkp.rounds ∧ (published s).hkp.prevDie = (hkValOf s 0).value
    ∧ (published s).hkp.refFail = !refsGood s := by
  obtain ⟨hregs, hkp, -⟩ := publishRound_leaves (modHkp s fun k => { k with prevDie := (hkValOf s 0).value })
  refine ⟨hregs, ?_⟩
  rw [published, hkp]
  exact ⟨rfl, rfl, rfl, rfl, rfl, rfl, rfl, rfl⟩

/-! ## A command's evaluation -/

/-- An evaluation's command, by what it published. -/
theorem hkEvaluation_leaves {s : State} (h0 : hkpRuns s = true) (h1 : s.hkp.busy = true) (h2 : s.hkp.slot = 16) :
    ∃ t c, exec .hkEvaluation s = .next t ∧ t.regs = s.regs ∧ (published (inCycle c s)).regs = s.regs
      ∧ ∃ tp n out k, t.hkp = { (published (inCycle c s)).hkp with
        level := { a := throttleLevel (published (inCycle c s)) .a, b := throttleLevel (published (inCycle c s)) .b },
        prevU := { a := demand (published (inCycle c s)) .a 0, b := demand (published (inCycle c s)) .b 0 },
        prevD := { a := demand (published (inCycle c s)) .a 64, b := demand (published (inCycle c s)) .b 64 },
        band := some (bandPut (published (inCycle c s))), busy := false, slot := 0, codes := [],
        rounds := ((published (inCycle c s)).hkp.rounds + 1) % 256, prevTarget := tp, bandChanges := n, supplyOut := out,
        supplyIn := k } := by
  obtain ⟨c, ho⟩ := inOneCycle_window (fun s => evaluateRound s) s
  obtain ⟨tp, n, out, k, he⟩ := evaluateRound_hkp (s := inCycle c s) h0 h1 h2
  refine ⟨_, c, rfl, ?_, (published_keeps _).1, tp, n, out, k, (ho.2 .hkp (by decide)).trans he⟩
  exact (regs_of_onlyChanges ho (by decide)).trans (regs_of_onlyChanges (evaluateRound_only (inCycle c s)) (by decide))

/-- After an evaluation every head's level, and what the next one compares with, follow from the values published. -/
theorem hkEvaluation_levels {s : State} (h0 : hkpRuns s = true) (h1 : s.hkp.busy = true) (h2 : s.hkp.slot = 16) :
    ∃ t, exec .hkEvaluation s = .next t ∧ ∀ h, t.hkp.prevU.get h = demand t h 0 ∧ t.hkp.prevD.get h = demand t h 64
      ∧ t.hkp.level.get h = levelNext (s.hkp.level.get h) (s.hkp.prevU.get h) (demand t h 0) (s.hkp.prevD.get h)
          (demand t h 64) (inputsValid t h) := by
  obtain ⟨t, c, ht, hregs, hp, tp, n, out, k, hk⟩ := hkEvaluation_leaves h0 h1 h2
  obtain ⟨-, -, -, hlevel, hpu, hpd, -⟩ := published_keeps (inCycle c s)
  have hd := fun h add => demand_congr (s := published (inCycle c s)) (t := t) (hregs.trans hp.symm) (by rw [hk]) h add
  refine ⟨t, ht, fun h => ?_⟩
  rw [(hd h 0).1, (hd h 64).1, (hd h 0).2, hk]
  change _ ∧ _ ∧ _ = levelNext ((inCycle c s).hkp.level.get h) ((inCycle c s).hkp.prevU.get h) _
    ((inCycle c s).hkp.prevD.get h) _ _
  rw [← hlevel, ← hpu, ← hpd]
  cases h <;> exact ⟨rfl, rfl, rfl⟩

/-! ## `HKP_CTRL` (17 R588, 16 R569) -/

/-- A locked bit takes a write only in a session. -/
theorem bit_accepted_locked (s : State) (idx : Nat) (v : Word) (i : Nat) (hi : i < 32) (hm : bit (rwMask idx) i = true)
    (hr : bit (rwlMask idx) i = true) (hl : ∀ l ∈ limsOf idx, bit (mask l.hi l.lo) i = false) :
    bit (accepted s idx v) i = if s.saf.unlocked then bit v i else bit (getReg s idx) i := by
  unfold accepted
  dsimp only
  rw [bit_merge, bit_keepBad _ _ _ _ hl]
  cases s.saf.unlocked <;> simp [bit_and, bit_not, hm, hr, hi]

theorem bit_clearChannels (ns : List Nat) (v : Word) : bit (ns.foldl (fun acc n => acc &&& ~~~(bitAt (8 + n) true)) v) 0 = bit v 0 := by
  induction ns generalizing v with
  | nil => rfl
  | cons n ns ih =>
    rw [List.foldl_cons, ih, bit_and, bit_not, bit_bitAt _ (by decide)]
    simp [show (0 = 8 + n) = False from eq_false (by omega)]

theorem writeHkCtrl_leaves (s : State) (v : Word) :
    regBit (writeHkCtrl s v) 0x14000 0 = bit v 0 ∧ otherWords (0x14000 / 4) s (writeHkCtrl s v) := by
  have hb : ∀ u, (bandLevels u).regs = u.regs := fun u => regs_of_onlyChanges (bandLevels_only u) (by decide)
  unfold writeHkCtrl
  extract_lets old bad v1 s1
  have hregs : (bandLevels (if bad.isEmpty then s1 else modHkp s1 (fun k => { k with refused := true }))).regs = s1.regs := by
    rw [hb]
    split <;> rfl
  have hg := getReg_of_regs hregs
  refine ⟨?_, fun i hi => (hg i).trans (setRegAt_otherWords s _ _ i hi)⟩
  rw [regBit, regAt, hg]
  exact (congrArg (bit · 0) (regAt_setRegAt_same s v1 rfl)).trans (bit_clearChannels bad v)

/-- Settles O44: a round's start and slots by their commands, the evaluation by what it publishes. -/
theorem housekeepingRounds : Obligations.HousekeepingRounds := by
  unfold Obligations.HousekeepingRounds
  refine ⟨fun s hr => ⟨fun ht hb => ?_, fun code hb hs => ?_⟩, fun s h0 h1 h2 => ?_, fun s b v h => ?_⟩
  · obtain ⟨c, ho⟩ := inOneCycle_window roundStart s
    refine ⟨_, rfl, (ho.2 .hkp (by decide)).trans ?_⟩
    have hr' : hkpRuns (inCycle c s) = true := hr
    have hb' : blockStopped (inCycle c s) 8 = false := hb
    have ht' : trigTaken (inCycle c s) .round (roundChoice (inCycle c s)) = true := ht
    simp only [roundStart, hr', hb', ht', Bool.not_true, Bool.or_false, Bool.false_eq_true, if_false]
    by_cases hbusy : s.hkp.busy = true
    · have htp : (takePulse (inCycle c s) .round).hkp.busy = true := hbusy
      rw [if_pos htp, if_pos hbusy]
      rfl
    · have htp : ¬ (takePulse (inCycle c s) .round).hkp.busy = true := hbusy
      rw [if_neg htp, if_neg hbusy]
      cases hen : regBit s 0x14000 0 with
      | false =>
        have hen' : regBit (takePulse (inCycle c s) .round) 0x14000 0 = false := hen
        rw [hen']
        rfl
      | true =>
        have hen' : regBit (takePulse (inCycle c s) .round) 0x14000 0 = true := hen
        rw [hen']
        rfl
  · obtain ⟨c, ho⟩ := inOneCycle_window (fun s => slotEnds s code) s
    refine ⟨_, rfl, (ho.2 .hkp (by decide)).trans ?_⟩
    have hr' : hkpRuns (inCycle c s) = true := hr
    have hb' : (inCycle c s).hkp.busy = true := hb
    have hs' : (decide (16 ≤ (inCycle c s).hkp.slot)) = false := by simpa using hs
    simp only [slotEnds, hr', hb', hs', Bool.not_true, Bool.or_false, Bool.false_eq_true, if_false]
    rfl
  · obtain ⟨t, c, ht, hregs, hp, tp, n, out, k, hk⟩ := hkEvaluation_leaves h0 h1 h2
    obtain ⟨t', ht', hlev⟩ := hkEvaluation_levels h0 h1 h2
    obtain rfl : t = t' := by
      rw [ht] at ht'
      injection ht'
    obtain ⟨-, -, hdie, hmilli, hntc⟩ :=
      publishRound_leaves (modHkp (inCycle c s) fun k => { k with prevDie := (hkValOf (inCycle c s) 0).value })
    have hval : ∀ d, hkValOf t d = hkValOf (published (inCycle c s)) d := hkValOf_of_vals (by rw [hk])
    obtain ⟨-, hband, htarget, -, -, -, hrounds, hprev, hfail⟩ := published_keeps (inCycle c s)
    refine ⟨t, ht, by rw [hk], by rw [hk], by rw [hk], ?_, ?_, ?_, fun d hd hgood => ?_, fun hroom => ?_,
      fun m hm hon hgood hlo hhi => ?_, fun h => (hlev h).2.2, ?_⟩
    · rw [hk]
      exact congrArg (fun n => (n + 1) % 256) hrounds
    · rw [hk]
      exact hprev
    · rw [hk]
      exact hfail
    · rw [hval]
      exact ⟨congrArg HkVal.valid (hmilli d hd hgood), congrArg HkVal.value (hmilli d hd hgood)⟩
    · rw [hval]
      exact hdie hroom
    · rw [hval]
      exact hntc m hm hon hgood hlo hhi
    · rw [hk, hval, bandPut, hband, htarget]
      rfl
  · obtain ⟨c, t, ht, ho⟩ := writeAlone_window h (by decide) (open_hkCtrl s) (fun u => route_hkCtrl u (withoutBit v 0))
    have hg := getReg_of_regs (regs_of_onlyChanges ho (by decide))
    obtain ⟨hbit, hothers⟩ := writeHkCtrl_leaves (atWindow b (0x14000 / 4) c s)
      (accepted (atWindow b (0x14000 / 4) c s) (0x14000 / 4) (withoutBit v 0))
    refine ⟨t, ht, ?_, fun i hi => by rw [hg, hothers i hi, getReg_atWindow]⟩
    rw [regBit, regAt, hg, ← regAt, ← regBit, hbit, bit_accepted_locked _ _ _ _ (by decide) (by decide) (by decide) (by decide),
      bit_withoutBit_same v (by decide), getReg_atWindow]
    simp only [atWindow_fields]
    cases s.saf.unlocked <;> simp [regBit, regAt]

/-! ## Levels (17 R598) -/

theorem levelNext_cases (l up u dp d : Nat) (valid : Bool) :
    (l < up → l < u → levelNext l up u dp d valid = Nat.min up u)
      ∧ (¬(l < up ∧ l < u) → dp < l → d < l → valid = true → levelNext l up u dp d valid = Nat.max dp d)
      ∧ (¬(l < up ∧ l < u) → ¬(dp < l ∧ d < l ∧ valid = true) → levelNext l up u dp d valid = l) := by
  unfold levelNext
  exact ⟨fun h1 h2 => if_pos ⟨h1, h2⟩, fun hn h1 h2 h3 => by rw [if_neg hn, if_pos ⟨h1, h2, h3⟩],
    fun hn hm => by rw [if_neg hn, if_neg hm]⟩

/-- Settles O45: the level that the evaluation sets, by its three cases. -/
theorem throttleLevelsFollowTheirInputs : Obligations.ThrottleLevelsFollowTheirInputs := by
  unfold Obligations.ThrottleLevelsFollowTheirInputs
  intro s h0 h1 h2
  obtain ⟨t, ht, hlev⟩ := hkEvaluation_levels h0 h1 h2
  refine ⟨t, ht, ?_⟩
  rintro h l up u dp d rfl rfl rfl hu hd
  obtain ⟨hpu, hpd, hl⟩ := hlev h
  have hzero : demand t h 0 = u := by rw [hu, demand]; simp only [Int.add_zero]
  have hmargin : demand t h 64 = d := hd.symm
  rw [hl, hpu, hpd, hzero, hmargin]
  exact ⟨rfl, rfl, levelNext_cases ..⟩

end Sys2Proof.Machine
end

section
/-! SUPPORT. Register accesses that reach no effect but a word's value, or not even that (19 R654, 21 R686 to R691). -/

namespace Sys2Proof.Machine

/-- A write of a word whose window leaves the power state and the ring engine's work alone, where no descriptor waits. -/
theorem writeSettles_window_of_quiet {s : State} {b : Bus} {addr : Nat} {v : Word} {f : State → State} (hi : s.rng.work = [])
    (h : reaches s b addr = true) (h4 : addr % 4 = 0) (ho : wordLocked s (addr / 4) = false)
    (hr : ∀ u, routeWrite u (addr / 4) v = f u) (hf : ∀ u, (f u).pwr = u.pwr) (hw : ∀ u, (f u).rng.work = u.rng.work) :
    ∃ c t, writeSettles b addr v s = .next t ∧ onlyChanges [.out] (f (atWindow b (addr / 4) c s)) t := by
  obtain ⟨c, t, ht, hc⟩ := writeAlone_window_of_pwr h h4 ho hr hf
  refine ⟨c, t, ?_, hc⟩
  rw [writeAlone] at ht
  injection ht with ht
  have hwork : t.rng.work = [] := by
    rw [show t.rng = _ from hc.2 .rng (by decide), hw]
    simp [hi]
  rw [writeSettles, ht, ringSettle_of_noWork hwork]

/-- A command's cycle that is known to end in `u` and to end no low-power state adds its mark alone. -/
theorem inOneCycle_of_eq (f : State → State) (s : State) (u : Option (Nat × Bool) → State) (h : ∀ c, f (inCycle c s) = u c)
    (hp : ∀ c, (u c).pwr.state < 2 → s.pwr.state < 2) : ∃ c, onlyChanges [] (u c) (inOneCycle f s) := by
  obtain ⟨c, g, hg, he⟩ := oneCycle_cases (fun x => framesGo x (f x)) s
  have hstay : framesGo (inCycle c s) (f (inCycle c s)) = u c := by
    rw [h]
    exact framesGo_of_not_ended (hp c)
  refine ⟨c, ?_⟩
  rw [inOneCycle, he]
  exact hstay.symm ▸ mark_only _ g hg

/-! ## Accesses through PCI Express -/

/-- A host write that ends without an effect on the power state or on the ring engine's work. -/
theorem execRegWrite_quiet {s : State} {addr enables : Nat} {v : Word} {f : State → State} (hl : hostLive s = true)
    (hi : s.rng.work = []) (hf : ∀ c, (portWrite (inCycle c s) .pcie addr (enables % 16 == 15) v).2 = f (inCycle c s))
    (hp : ∀ u, (f u).pwr = u.pwr ∧ (f u).rng = u.rng) :
    ∃ c t, exec (.regWrite .pcie addr enables v) s = .next t ∧ onlyChanges [] (f (inCycle c s)) t := by
  have hthrough : ∀ c, writeThrough .pcie addr (enables % 16 == 15) v (inCycle c s) = f (inCycle c s) := fun c => by
    rw [writeThrough, show hostLive (inCycle c s) = true from hl, if_pos rfl, hf]
  obtain ⟨c, ho⟩ := inOneCycle_of_eq _ s (fun c => f (inCycle c s)) hthrough fun c hs => by rwa [(hp _).1] at hs
  have hwork : (busWrite s .pcie addr (enables % 16 == 15) v).rng.work = [] := by
    rw [busWrite, show (inOneCycle _ s).rng = _ from ho.2 .rng (by decide), (hp _).2]
    exact hi
  exact ⟨c, _, by rw [exec, execRegWrite, ringSettle_of_noWork hwork, busWrite], ho⟩

/-- A host read that leaves the power state alone. -/
theorem execRegRead_quiet {s : State} {addr enables : Nat} {upset : Bool} {w : Word} {f : State → State} (hl : hostLive s = true)
    (hf : ∀ c, ∃ st, portRead (inCycle c s) .pcie addr upset = (st, w, f (inCycle c s))) (hp : ∀ u, (f u).pwr = u.pwr) :
    ∃ c t, exec (.regRead addr enables upset) s = .next t
      ∧ onlyChanges [] (emit (f (inCycle c s)) (.readData (readBytes enables w))) t := by
  have hread : ∀ c, (fun s => if hostLive s then pcieRead s addr enables upset else s) (inCycle c s)
      = emit (f (inCycle c s)) (.readData (readBytes enables w)) := fun c => by
    obtain ⟨st, hst⟩ := hf c
    dsimp only
    rw [show hostLive (inCycle c s) = true from hl, if_pos rfl, pcieRead, hst]
  obtain ⟨c, ho⟩ := inOneCycle_of_eq (fun s => if hostLive s then pcieRead s addr enables upset else s) s
    (fun c => emit (f (inCycle c s)) (.readData (readBytes enables w))) hread
    fun c hs => lt_of_eq_of_lt (congrArg Pwr.state (hp (inCycle c s))).symm hs
  exact ⟨c, _, rfl, ho⟩

/-! ## GLB_SCRATCH (21 R692) -/

theorem accepted_scratch (s : State) (v : Word) : accepted s 3 v = v := by
  have hl : limsOf 3 = [] := by decide
  have hm : (if s.saf.unlocked then rwMask 3 else rwMask 3 &&& ~~~(rwlMask 3)) = 0xFFFFFFFF#32 := by
    split <;> decide
  simp only [accepted, hl, keepBad, List.foldl_nil, hm]
  rw [merge, show (0xFFFFFFFF#32) = BitVec.allOnes 32 from rfl, BitVec.and_allOnes]
  simp

theorem open_scratch (s : State) : wordLocked s (0x0000C / 4) = false := wordLocked_open s _ (by decide)

theorem route_scratch (s : State) (v : Word) : routeWrite s (0x0000C / 4) v = setRegAt s 0x0000C v := by
  have h : routeWrite s (0x0000C / 4) v = plainWrite s 3 v := rfl
  rw [h, plainWrite, accepted_scratch]
  rfl

theorem readWord_scratch (s : State) : readWord s 3 = (regAt s 0x0000C, s) := by
  have hw : wordAt s 3 = regAt s 0x0000C := by
    have hm : rwMask 3 = BitVec.allOnes 32 := by decide
    have hg : liveBits s 3 = 0#32 := rfl
    rw [wordAt, heldBits, hm, BitVec.and_allOnes, hg, BitVec.or_zero]
    rfl
  rw [← hw]
  simp [readWord]

theorem portRead_scratch {s : State} (h1 : injHits s 54 3 = false) (h2 : s.glb.badParity.contains 3 = false) :
    portRead s .pcie 0x0000C false = (0, regAt s 0x0000C, linkWakes s) := by
  have hc : checkParity (linkWakes s) 3 false = (false, linkWakes s) := by
    have h1' : injHits (linkWakes s) 54 3 = false := h1
    have h2' : (linkWakes s).glb.badParity.contains 3 = false := h2
    simp only [checkParity, h1', h2', Bool.false_eq_true, if_false, ite_self]
  have hr : readWord (linkWakes s) 3 = (regAt s 0x0000C, linkWakes s) := readWord_scratch (linkWakes s)
  have hs : windowServes (linkWakes s) 3 = true := rfl
  simp [portRead, hs, hc, hr, inDoorbells]

/-- Settles O9: each access by what its port does with the word. -/
theorem registerAccess : Obligations.RegisterAccess := by
  unfold Obligations.RegisterAccess
  refine ⟨fun s b v h hi => ?_, fun s addr enables v hl hi h4 hlt hd he => ?_, fun s enables hl h1 h2 => ?_,
    fun s addr enables upset hl h4 hlt hw => ?_, fun s addr v hl hi h4 hlt hk => ?_⟩
  · obtain ⟨c, t, ht, ho⟩ := writeSettles_window_of_quiet (work_of_ringsIdle hi) h (by decide) (open_scratch s)
      (fun u => route_scratch u v) (fun _ => rfl) (fun _ => rfl)
    obtain ⟨hv, hothers⟩ := written_of_regs (s := s) (a := 0x0000C)
      ((regs_of_onlyChanges ho (by decide)).trans (setRegAt_regs_of_regs (by simp) _ _))
    exact ⟨t, ht, hv, hothers⟩
  · have hpart : (enables % 16 == 15) = false := by simpa using he
    obtain ⟨c, t, ht, ho⟩ := execRegWrite_quiet (addr := addr) (enables := enables) (v := v) hl (work_of_ringsIdle hi)
      (f := fun u => modGlb (noteAccess (linkWakes u) .pcie (addr / 4)) (fun g => { g with partialAccess := true }))
      (fun c => by simp [portWrite, hpart, hd, show ¬ 0x40000 ≤ addr by omega]) (fun _ => ⟨rfl, rfl⟩)
    have hglb : t.glb = _ := ho.2 .glb (by decide)
    exact ⟨t, ht, by rw [hglb]; rfl, by rw [hglb]; rfl, getReg_of_regs ((regs_of_onlyChanges ho (by decide)).trans rfl)⟩
  · obtain ⟨c, t, ht, ho⟩ := execRegRead_quiet (enables := enables) (w := regAt s 0x0000C) (f := linkWakes) hl
      (fun c => ⟨0, portRead_scratch (s := inCycle c s) h1 h2⟩) (fun _ => rfl)
    exact ⟨t, ht, ho.2 .out (by decide), getReg_of_regs ((regs_of_onlyChanges ho (by decide)).trans rfl)⟩
  · obtain ⟨c, t, ht, ho⟩ := execRegRead_quiet (addr := addr) (enables := enables) (upset := upset) (w := 0#32)
      (f := fun u => noteOff (linkWakes u) .pcie (addr / 4)) hl
      (fun c => ⟨5, by
        have hw' : windowServes (linkWakes (inCycle c s)) (addr / 4) = false := hw
        simp [portRead, hw', show ¬ 0x40000 ≤ addr by omega]⟩) (fun _ => rfl)
    have hglb : t.glb = _ := ho.2 .glb (by decide)
    have hzero : readBytes enables 0#32 = 0#32 := BitVec.zero_and
    refine ⟨t, ht, ?_, by rw [hglb]; rfl, by rw [hglb]; rfl, getReg_of_regs ((regs_of_onlyChanges ho (by decide)).trans rfl)⟩
    rw [show t.out = _ from ho.2 .out (by decide), hzero]
    rfl
  · obtain ⟨c, t, ht, ho⟩ := execRegWrite_quiet (addr := addr) (enables := 15) (v := v) hl (work_of_ringsIdle hi)
      (f := fun u => modRst (linkWakes u) (fun r => { r with hostRefused := true }))
      (fun c => by
        have hk' : scriptKeeps (linkWakes (inCycle c s)) .pcie (addr / 4) = true := hk
        simp [portWrite, hk', show ¬ 0x40000 ≤ addr by omega]) (fun _ => ⟨rfl, rfl⟩)
    exact ⟨t, ht, ho.2 .rst (by decide), getReg_of_regs ((regs_of_onlyChanges ho (by decide)).trans rfl), ho.2 .rng (by decide)⟩

end Sys2Proof.Machine
end

section
/-! SUPPORT. Frames of the service port and the background check of parity (21 R694 to R704). -/

namespace Sys2Proof.Machine

/-! ## Frames (21 R695) -/

theorem frameIs_svcRequest (cmd addr : Nat) (data : List Byte) :
    frameIs (svcRequest cmd addr data) (cmd % 256) (6 + data.length) = true := by
  have hlen : (svcRequest cmd addr data).length = 6 + data.length := by
    simp [svcRequest, length_beBytes, length_leBytes]
    omega
  have hbyte : byteAt (svcRequest cmd addr data) 0 = cmd % 256 := by simp [svcRequest, byteAt]
  rw [frameIs, hlen, hbyte]
  simp

/-- A good WRITE frame that leaves the low-power states and the ring engine's work alone. -/
theorem execSvcWrite_quiet {s : State} {addr st : Nat} {v : Word} {f : State → State} (ha : aoLive s = true) (h4 : addr % 4 = 0)
    (hlt : addr < 0x40000) (hinj : injArmed s 58 = false) (hi : s.rng.work = [])
    (hf : ∀ c, portWrite (inCycle c s) .service addr true v = (st, f (inCycle c s)))
    (hp : ∀ u, (f u).pwr.state < 2 → u.pwr.state < 2) (hr : ∀ u, (f u).rng.work = u.rng.work) :
    ∃ c t, exec (.svcWrite (svcRequest 2 addr (beBytes 4 v.toNat))) s = .next t
      ∧ onlyChanges [] (svcAnswer (f (inCycle c s)) [] st) t := by
  have hframe : frameIs (svcRequest 2 addr (beBytes 4 v.toNat)) 2 10 = true := by
    have h := frameIs_svcRequest 2 addr (beBytes 4 v.toNat)
    rwa [length_beBytes] at h
  have hbad : svcAddressBad addr = false := by simp [svcAddressBad, h4]; omega
  have hrun : ∀ c, svcWriteFrame (inCycle c s) (svcRequest 2 addr (beBytes 4 v.toNat)) = svcAnswer (f (inCycle c s)) [] st := fun c => by
    have hinj' : injArmed (inCycle c s) 58 = false := hinj
    simp only [svcWriteFrame, svcCheck_request _ _ _ _ hinj', svcRequest_addr _ _ _ hlt, svcRequest_data, hbad, hf,
      Bool.not_true, Bool.false_eq_true, if_false]
  have hwork : ∀ c, (svcAnswer (f (inCycle c s)) [] st).rng.work = [] := fun c => (hr (inCycle c s)).trans hi
  have hall : ∀ c, (fun s => if aoLive s && frameIs (svcRequest 2 addr (beBytes 4 v.toNat)) 2 10 then
      ringSettle (svcWriteFrame s (svcRequest 2 addr (beBytes 4 v.toNat))) else s) (inCycle c s)
      = svcAnswer (f (inCycle c s)) [] st := fun c => by
    dsimp only
    rw [show aoLive (inCycle c s) = true from ha, hframe, Bool.and_self, if_pos rfl, hrun, ringSettle_of_noWork (hwork c)]
  obtain ⟨c, ho⟩ := inOneCycle_of_eq (fun s => if aoLive s && frameIs (svcRequest 2 addr (beBytes 4 v.toNat)) 2 10 then
      ringSettle (svcWriteFrame s (svcRequest 2 addr (beBytes 4 v.toNat))) else s) s
    (fun c => svcAnswer (f (inCycle c s)) [] st) hall fun c hs => hp (inCycle c s) hs
  exact ⟨c, _, rfl, ho⟩

theorem portRead_service_scratch {s : State} (h1 : injHits s 54 3 = false) (h2 : s.glb.badParity.contains 3 = false) :
    portRead s .service 0x0000C false = (0, regAt s 0x0000C, s) := by
  have hc : checkParity s 3 false = (false, s) := by
    simp only [checkParity, h1, h2, Bool.false_eq_true, if_false, ite_self]
  simp [portRead, show windowServes s 3 = true from rfl, hc, readWord_scratch, inDoorbells, notServed, inMsix]

/-! ## The background check (21 R701 to R704, 15 R543) -/

/-- An assertion that the collector judges sets the source's sticky bit. -/
theorem raiseInj_judged (s : State) (src heads detail : Nat) (inj : Bool) (hj : fltJudges s = true) :
    (raiseInj s src heads detail inj).flt.sticky = s.flt.sticky ||| (1#64 <<< src) := by
  simp only [raiseInj, hj, Bool.not_true, Bool.false_eq_true, if_false, settle_fields, apply_ite State.flt, wake_fields,
    signalMsix_fields, ite_self, modFlt_fields, apply_ite Flt.sticky, assertBits, stampCore_fields]

theorem raiseInj_sticky_self (s : State) (src heads detail : Nat) (inj : Bool) (hj : fltJudges s = true) (hs : src < 64) :
    (raiseInj s src heads detail inj).flt.sticky.getLsbD src = true := by
  rw [raiseInj_judged s src heads detail inj hj]
  simp [hs]

/-- A spent injection changes its register and the collector alone. -/
theorem spendInj_leaves (s : State) : onlyChanges [.regs, .free, .flt] s (spendInj s) := by
  unfold spendInj setLevel
  extract_lets has s1
  have h0 : onlyChanges [.regs, .free, .flt] s (setRegAt s 0x12080 (regAt s 0x12080 &&& ~~~(bitAt 31 true))) :=
    onlyChanges_mono (setRegAt_only ..) (by simp)
  have h1 : onlyChanges [.regs, .free, .flt] s s1 := onlyChanges_trans h0 (onlyChanges_mono (modFlt_only ..) (by simp))
  rw [if_neg Bool.false_ne_true]
  split
  · split
    · exact h1
    · exact onlyChanges_trans h1 (onlyChanges_mono (clearEntry_only ..) (by simp))
  · exact h0

theorem fltJudges_spendInj (s : State) : fltJudges (spendInj s) = fltJudges s := by
  have hpwr : (spendInj s).pwr = s.pwr := (spendInj_leaves s).2 .pwr (by decide)
  simp only [fltJudges, ctrlLive, live, domainState, blockHeld, hpwr, spendInj_fields]

theorem covered_of_nextChecked {s : State} {n q p : Nat} (h : nextChecked s n q = some p) : covered p = true := by
  induction n generalizing q with
  | zero => cases h
  | succ n ih =>
    unfold nextChecked at h
    split at h
    · next hc =>
      obtain rfl := Option.some.inj h
      exact ((Bool.and_eq_true ..).mp hc).1
    · exact ih h

theorem mem_spoilParity (s : State) (p : Nat) : p ∈ (spoilParity s p).glb.badParity := by
  unfold spoilParity modGlb
  dsimp only
  split
  · next h => exact List.contains_iff_mem.mp h
  · exact List.mem_append_right _ (List.mem_singleton_self p)

/-- A word whose parity fails is reported. -/
theorem checkParity_bad {s : State} {p : Nat} {upset : Bool} (hc : covered p = true)
    (hb : upset = true ∨ p ∈ s.glb.badParity) : ∃ u, checkParity s p upset = (true, u) ∧ u.glb.parity = true
      ∧ p ∈ u.glb.badParity ∧ (fltJudges s = true → u.flt.sticky.getLsbD 54 = true) := by
  unfold checkParity
  extract_lets hit s1
  have hmem : p ∈ s1.glb.badParity := by
    unfold s1
    split
    · exact mem_spoilParity ..
    split
    · exact mem_spoilParity ..
    · next hu => exact hb.resolve_left hu
  have hjudges : fltJudges s1 = fltJudges s := by
    unfold s1
    split
    · exact fltJudges_spendInj s
    split <;> rfl
  rw [if_neg (by simp [hc]), if_pos (List.contains_iff_mem.mpr hmem)]
  refine ⟨_, rfl, by simp [modGlb], by simpa [modGlb] using hmem, fun hj => ?_⟩
  exact raiseInj_sticky_self _ 54 3 p _ (hjudges.trans hj) (by decide)

theorem checkParity_good {s : State} {p : Nat} (hh : injHits s 54 p = false) (hb : p ∉ s.glb.badParity) :
    checkParity s p false = (false, s) := by
  have hcon : s.glb.badParity.contains p = false := by simpa using hb
  simp only [checkParity, hh, hcon, Bool.false_eq_true, if_false, ite_self]

theorem checkNext_glb (s : State) (p : Nat) : (checkNext s p).flt = s.flt ∧ (checkNext s p).glb.parity = s.glb.parity
    ∧ (checkNext s p).glb.badParity = s.glb.badParity ∧ (checkNext s p).glb.index = s.glb.index := by
  unfold checkNext
  split <;> exact ⟨rfl, rfl, rfl, rfl⟩

theorem backgroundCheck_eq {s : State} {p : Nat} {bad : Bool} {u : State} {upset : Bool} (h1 : regBit s 0x00018 0 = true)
    (h2 : aoLive s = true) (hp : nextChecked s (65536 - s.glb.checkPos) s.glb.checkPos = some p)
    (hc : checkParity s p upset = (bad, u)) :
    backgroundCheck s upset = checkNext (if bad then noteAccess u .pcie p else u) (p + 1) := by
  simp [backgroundCheck, h1, h2, hp, hc]

theorem nextChecked_inCycle (c : Option (Nat × Bool)) (s : State) (n q : Nat) :
    nextChecked (inCycle c s) n q = nextChecked s n q := by
  induction n generalizing q with
  | zero => rfl
  | succ n ih =>
    unfold nextChecked
    rw [ih]
    rfl

/-- Settles O55: the frames by what the port does with their word, the check by the word's parity. -/
theorem servicePort : Obligations.ServicePort := by
  unfold Obligations.ServicePort
  refine ⟨fun s addr v ha h4 hlt hinj hi => ⟨fun hn => ?_, fun he hs => ?_⟩, fun s ha hinj h1 h2 => ?_,
    fun s frame ha hne h2 h3 => ?_, fun s ha => ?_, fun s upset p h1 h2 hp => ?_⟩
  · obtain ⟨c, t, ht, ho⟩ := execSvcWrite_quiet (v := v) (st := 4) (f := id) ha h4 hlt hinj (work_of_ringsIdle hi)
      (fun c => by simp [portWrite, hn, show ¬ 0x40000 ≤ addr by omega]) (fun _ h => h) (fun _ => rfl)
    exact ⟨t, ht, getReg_of_regs ((regs_of_onlyChanges ho (by decide)).trans rfl), ho.2 .out (by decide)⟩
  · subst he
    have hroute : ∀ u, wordWrite u 3 v = setRegAt (freshParity u 3) 0x0000C v := fun u => by
      rw [wordWrite_open _ _ _ (open_scratch u)]
      exact route_scratch (freshParity u 3) v
    have hport : ∀ c, portWrite (inCycle c s) .service 0x0000C true v
        = (0, setRegAt (freshParity (idleExits (inCycle c s)) 3) 0x0000C v) := fun c => by
      have hk : scriptKeeps (inCycle c s) .service 3 = false := by simp [scriptKeeps]
      have hw : windowServes (inCycle c s) 3 = true := rfl
      simp [portWrite, hk, hw, hroute, inDoorbells, notServed, inMsix]
    obtain ⟨c, t, ht, ho⟩ := execSvcWrite_quiet (v := v) (st := 0)
      (f := fun u => setRegAt (freshParity (idleExits u) 3) 0x0000C v) ha h4 hlt hinj (work_of_ringsIdle hi) hport
      (fun u h => (idleExits_state_lt_two u).mp h) (fun u => congrArg Rng.work ((idleExits_only u).2 .rng (by decide)))
    have hregs : (freshParity (idleExits (inCycle c s)) 3).regs = s.regs :=
      (regs_of_onlyChanges (idleExits_only (inCycle c s)) (by decide)).trans rfl
    obtain ⟨hv, hothers⟩ := written_of_regs (s := s) (a := 0x0000C)
      ((regs_of_onlyChanges ho (by decide)).trans (setRegAt_regs_of_regs hregs _ _))
    have hout : (idleExits (inCycle c s)).out = s.out := (idleExits_only (inCycle c s)).2 .out (by decide)
    refine ⟨t, ht, hv, hothers, ?_⟩
    rw [show t.out = _ from ho.2 .out (by decide), ← hout]
    rfl
  · have hframe : frameIs (svcRequest 3 0x0000C []) 3 6 = true := frameIs_svcRequest 3 0x0000C []
    have hrun : ∀ c, svcReadFrame (inCycle c s) (svcRequest 3 0x0000C []) false
        = svcAnswer (inCycle c s) (beBytes 4 (regAt s 0x0000C).toNat) 0 := fun c => by
      have hinj' : injArmed (inCycle c s) 58 = false := hinj
      have hread : portRead (inCycle c s) .service 0x0000C false = (0, regAt s 0x0000C, inCycle c s) :=
        portRead_service_scratch h1 h2
      simp only [svcReadFrame, svcCheck_request _ _ _ _ hinj', svcRequest_addr _ _ _ (show 0x0000C < 0x40000 by decide),
        show svcAddressBad 0x0000C = false by decide, hread, Bool.not_true, Bool.false_eq_true, if_false]
    have hall : ∀ c, (fun s => if aoLive s && frameIs (svcRequest 3 0x0000C []) 3 6 then
        svcReadFrame s (svcRequest 3 0x0000C []) false else s) (inCycle c s)
        = svcAnswer (inCycle c s) (beBytes 4 (regAt s 0x0000C).toNat) 0 := fun c => by
      dsimp only
      rw [show aoLive (inCycle c s) = true from ha, hframe, Bool.and_self, if_pos rfl, hrun]
    obtain ⟨c, ho⟩ := inOneCycle_of_eq (fun s => if aoLive s && frameIs (svcRequest 3 0x0000C []) 3 6 then
        svcReadFrame s (svcRequest 3 0x0000C []) false else s) s
      (fun c => svcAnswer (inCycle c s) (beBytes 4 (regAt s 0x0000C).toNat) 0) hall fun _ hs => hs
    exact ⟨_, rfl, ho.2 .out (by decide), getReg_of_regs ((regs_of_onlyChanges ho (by decide)).trans rfl)⟩
  · have hgo : (aoLive s && !frame.isEmpty && byteAt frame 0 != 2 && byteAt frame 0 != 3) = true := by
      simp [ha, h2, h3, hne]
    refine ⟨svcBadFrame s, by rw [exec, execSvcBadCommand, hgo, if_pos rfl], ?_, ?_⟩
    · unfold svcBadFrame
      split
      · exact congrArg (fun g => satAdd 255 g.svcBad 1) (spendInj_fields s).2.2.2.2.2.2.1
      · rfl
    · unfold svcBadFrame
      split
      · exact congrArg (· ++ _) ((spendInj_leaves s).2 .out (by decide))
      · rfl
  · exact ⟨_, by rw [exec, execSvcFrameDiscard, ha, if_pos rfl], rfl⟩
  · obtain ⟨c, ho⟩ := inOneCycle_window (fun s => backgroundCheck s upset) s
    have hglb : (inOneCycle (fun s => backgroundCheck s upset) s).glb = _ := ho.2 .glb (by decide)
    have hsticky := sticky_of_onlyChanges ho (by decide)
    have hnext : nextChecked (inCycle c s) (65536 - (inCycle c s).glb.checkPos) (inCycle c s).glb.checkPos = some p :=
      (nextChecked_inCycle c s _ _).trans hp
    refine ⟨_, rfl, fun hb => ?_, fun hu hh hb => ?_⟩
    · obtain ⟨u, hc, hpar, hmem, hst⟩ := checkParity_bad (s := inCycle c s) (upset := upset) (covered_of_nextChecked hp) hb
      have he := backgroundCheck_eq (s := inCycle c s) h1 h2 hnext hc
      obtain ⟨hf, hpar', hmem', hidx⟩ := checkNext_glb (noteAccess u .pcie p) (p + 1)
      rw [hglb, hsticky]
      rw [he, if_pos rfl, hpar', hmem', hidx, hf]
      exact ⟨hpar, hmem, rfl, hst⟩
    · subst hu
      have hc := checkParity_good (s := inCycle c s) hh hb
      have he := backgroundCheck_eq (s := inCycle c s) h1 h2 hnext hc
      obtain ⟨hf, hpar, -⟩ := checkNext_glb (inCycle c s) (p + 1)
      rw [hglb, hsticky]
      rw [he, if_neg Bool.false_ne_true, hpar, hf]
      exact ⟨rfl, rfl⟩

end Sys2Proof.Machine
end

section
/-! SUPPORT. Rings on which every fetched descriptor executes and no FENCE waits: a completion lets no other descriptor go on
(02 R73, R80, R81). -/

namespace Sys2Proof.Machine

theorem ringsQuiet_iff (s : State) : ringsQuiet s = true ↔ ∀ w ∈ s.rng.work, w.stage ≠ 0 ∧ w.desc.opcode ≠ 12 := by
  simp [ringsQuiet]

/-- Where every descriptor executes and none is a FENCE, none goes on. -/
theorem ringSettle_of_quiet {s : State} (h : ringsQuiet s = true) : ringSettle s = s := by
  have hq := (ringsQuiet_iff s).mp h
  have hfence : ∀ w ∈ s.rng.work, fenceDue s w = false := fun w hw => by simp [fenceDue, (hq w hw).2]
  have hheld : ∀ w ∈ s.rng.work, (heldDue s w || fenceDue s w) = false := fun w hw => by
    have h0 : w.held = false := by simp [Work.held, (hq w hw).1]
    simp [heldDue, h0, hfence w hw]
  have hr : ∀ n, settleRings n s = s := fun n => by
    cases n with
    | zero => rfl
    | succ n => rw [settleRings, List.find?_eq_none.mpr fun w hw => by simp [hheld w hw]]
  have hf : ∀ n, settleFences n s = s := fun n => by
    cases n with
    | zero => rfl
    | succ n => rw [settleFences, List.find?_eq_none.mpr fun w hw => by simp [hfence w hw]]
  unfold ringSettle
  split
  · exact hr _
  · exact hf _

/-- Work that a state shares with a quiet one, or less of it, is quiet. -/
theorem ringsQuiet_of_subset {s t : State} (h : ringsQuiet s = true) (hw : ∀ w ∈ t.rng.work, w ∈ s.rng.work) :
    ringsQuiet t = true :=
  (ringsQuiet_iff t).mpr fun w hx => (ringsQuiet_iff s).mp h w (hw w hx)

theorem ringsQuiet_of_rng {s t : State} (h : ringsQuiet s = true) (hr : t.rng = s.rng) : ringsQuiet t = true := by
  rwa [ringsQuiet, hr]

theorem ringsQuiet_of_only {ps : List Part} {s t : State} (h : ringsQuiet s = true) (ho : onlyChanges ps s t) (hp : Part.rng ∉ ps) :
    ringsQuiet t = true := ringsQuiet_of_rng h (ho.2 .rng hp)

/-- An executing descriptor that moves to another stage but 0 stays out of the way. -/
theorem ringsQuiet_stageWork {s : State} (ring slot : Nat) {stage : Nat} (h : ringsQuiet s = true) (hs : stage ≠ 0) :
    ringsQuiet (stageWork s ring slot stage) = true := by
  refine (ringsQuiet_iff _).mpr fun w hw => ?_
  obtain ⟨x, hx, rfl⟩ := List.mem_map.mp hw
  obtain ⟨h1, h2⟩ := (ringsQuiet_iff s).mp h x hx
  split
  · exact ⟨hs, h2⟩
  · exact ⟨h1, h2⟩

/-! ## Completions -/

/-- A completion adds nothing to what executes. -/
def workRests (s t : State) : Prop := ∀ w ∈ t.rng.work, w ∈ s.rng.work

theorem workRests_of_eq {s t : State} (h : t.rng.work = s.rng.work) : workRests s t := fun _ hw => h ▸ hw

theorem workRests_of_only {ps : List Part} {s t : State} (h : onlyChanges ps s t) (hp : Part.rng ∉ ps) : workRests s t :=
  workRests_of_eq (congrArg Rng.work (h.2 .rng hp))

theorem workRests_trans {s t u : State} (h : workRests s t) (k : workRests t u) : workRests s u := fun w hw => h w (k w hw)

theorem writeCpl_work (s : State) (c : Cpl) : (writeCpl s c).rng.work = s.rng.work := by
  have hp : ∀ u a bs, (postWrite u a bs).rng = u.rng := fun u a bs => (postWrite_only u a bs).2 .rng (by decide)
  have hi : ∀ u n force, (ringIrq u n force).rng.work = u.rng.work := fun u n force => by
    unfold ringIrq
    extract_lets a s1 count
    split
    · exact (congrArg Rng.work ((signalMsix_only (modRing s1 n fun r => { r with unsignalled := 0 }) _).2 .rng (by decide))).trans rfl
    · rfl
  unfold writeCpl
  split
  · dsimp only
    rw [hi]
    change (postWrite _ _ _).rng.work = _
    rw [hp]
    rfl
  · rfl

theorem stampHost_rng (s : State) : (stampHost s).2.rng = s.rng := by
  unfold stampHost stampAged
  rfl

theorem completeDesc_work (s : State) (c : Nat) (d : Desc) (code detail : Nat) (word fsn : Word) :
    (completeDesc s c d code detail word fsn).rng.work = s.rng.work := by
  unfold completeDesc
  split
  · rfl
  · exact (writeCpl_work ..).trans (congrArg Rng.work (stampHost_rng s))

theorem dropWork_rests (s : State) (ring slot : Nat) : workRests s (dropWork s ring slot) := fun _ hw => List.mem_of_mem_filter hw

theorem completeWord_rests (s : State) (ring slot code detail : Nat) (word fsn : Word) :
    workRests s (completeWord s ring slot code detail word fsn) := by
  unfold completeWord leaveWork
  split
  · exact workRests_of_eq rfl
  split
  · exact dropWork_rests _ _ _
  · exact workRests_trans (dropWork_rests _ _ _) (workRests_of_eq (completeDesc_work ..))

theorem completeAt_rests (s : State) (ring slot code detail : Nat) (fsn : Word) :
    workRests s (completeAt s ring slot code detail fsn) := by
  unfold completeAt leaveWork
  split
  · exact workRests_of_eq rfl
  split
  · exact dropWork_rests _ _ _
  · exact workRests_trans (dropWork_rests _ _ _) (workRests_of_eq (completeDesc_work ..))

theorem outGrows_completeAt (s : State) (ring slot code detail : Nat) (fsn : Word) :
    outGrows s (completeAt s ring slot code detail fsn) := by
  unfold completeAt leaveWork
  split
  · exact outGrows_of_eq rfl
  split
  · exact outGrows_of_eq rfl
  · dsimp only
    unfold completeDesc
    split
    · exact outGrows_of_eq rfl
    · exact outGrows_writeCpl (stampHost (dropWork s ring slot)).2 _

/-- A completion leaves HIF_ERR as it is (02 R49). -/
theorem completeAt_err (s : State) (ring slot code detail : Nat) (fsn : Word) :
    (completeAt s ring slot code detail fsn).hif.err = s.hif.err := by
  have hsig : ∀ u v, (signalMsix u v).hif.err = u.hif.err := fun u v => by
    unfold signalMsix
    split
    · rfl
    split <;> rfl
  have hirq : ∀ u n force, (ringIrq u n force).hif.err = u.hif.err := fun u n force => by
    unfold ringIrq
    extract_lets a s1 count
    split
    · exact hsig (modRing s1 n fun r => { r with unsignalled := 0 }) _
    · rfl
  have hpost : ∀ u a bs, (postWrite u a bs).hif.err = u.hif.err := fun u a bs => by
    unfold postWrite
    split <;> rfl
  have hcpl : ∀ u c, (writeCpl u c).hif.err = u.hif.err := fun u c => by
    unfold writeCpl
    split
    · dsimp only
      rw [hirq]
      exact hpost ..
    · rfl
  unfold completeAt leaveWork completeDesc
  split
  · rfl
  split
  · rfl
  dsimp only
  split
  · rfl
  · exact (hcpl ..).trans rfl

end Sys2Proof.Machine
end

section
/-! SUPPORT. The network ports: their link, their control word and their frames (11 R413 to R419). -/

namespace Sys2Proof.Machine

/-! ## A received frame changes a port's counts and what waits in it (11 R423, 18 R623) -/

/-- Every port is as it was but for what it has received. -/
structure PortsReceive (s t : State) : Prop where
  port : ∀ p, portOf t p = { portOf s p with
    waiting := (portOf t p).waiting, noBuf := (portOf t p).noBuf, tooLong := (portOf t p).tooLong, cntRx := (portOf t p).cntRx }

theorem portsReceive_of_net {s t : State} (h : t.net = s.net) : PortsReceive s t :=
  ⟨fun p => by simp only [portOf, h]⟩

theorem portsReceive_trans {s t u : State} (h : PortsReceive s t) (k : PortsReceive t u) : PortsReceive s u :=
  ⟨fun p => by rw [k.port p, h.port p]⟩

theorem portsReceive_ite {p : Prop} [Decidable p] {s t u : State} (h : PortsReceive s t) (k : PortsReceive s u) :
    PortsReceive s (if p then t else u) := by split <;> assumption

theorem portsReceive_modPort (s : State) (p : Nat) (f : NetPort → NetPort)
    (hf : ∀ e, f e = { e with waiting := (f e).waiting, noBuf := (f e).noBuf, tooLong := (f e).tooLong, cntRx := (f e).cntRx }) :
    PortsReceive s (modPort s p f) := by
  refine ⟨fun q => ?_⟩
  by_cases hq : q = p
  · subst hq
    rw [portOf_modPort_same]
    exact hf _
  · rw [portOf_modPort_other _ _ _ _ hq]

theorem portsReceive_rxDeliver (s : State) (p : Nat) (f : List Byte) (t : Stamp) : PortsReceive s (rxDeliver s p f t) := by
  have hnet : ∀ {ps u v}, onlyChanges ps u v → Part.net ∉ ps → PortsReceive u v := fun ho hp => portsReceive_of_net (ho.2 .net hp)
  unfold rxDeliver
  split
  · exact portsReceive_modPort s p (fun e => { e with noBuf := satAdd 0xFFFF e.noBuf 1 }) fun _ => rfl
  next w _ =>
    extract_lets ts len up addr s1 s2 s3
    refine portsReceive_ite (portsReceive_modPort s p (fun e => { e with tooLong := satAdd 0xFFFF e.tooLong 1 }) fun _ => rfl) ?_
    have h1 : PortsReceive s s1 := hnet (postWrite_only ..) (by decide)
    have h2 : PortsReceive s1 s2 := portsReceive_ite (hnet (postWrite_only ..) (by decide)) (portsReceive_of_net rfl)
    have h3 : PortsReceive s2 s3 := portsReceive_modPort _ _ _ fun _ => rfl
    exact portsReceive_trans h1 (portsReceive_trans h2 (portsReceive_trans h3 (portsReceive_trans
      (hnet (idleExits_only s3) (by decide)) (hnet (completeWord_only ..) (by decide)))))

theorem portsReceive_rxFlush (s : State) (p : Nat) : PortsReceive s (rxFlush s p) := by
  refine foldl_inv (PortsReceive s) _ _ _ (portsReceive_modPort _ _ _ fun _ => rfl) fun t f ht => ?_
  exact portsReceive_trans ht (portsReceive_rxDeliver ..)

theorem portsReceive_framesGo (before s : State) : PortsReceive s (framesGo before s) := by
  unfold framesGo
  split
  · exact portsReceive_trans (portsReceive_rxFlush s 0) (portsReceive_rxFlush _ 1)
  · exact portsReceive_of_net rfl

/-- What a served write leaves of the ports after its window. -/
theorem ran_ports {b : Bus} {idx : Nat} {f : State → State} {s t : State} (h : ran b idx f s t) :
    ∃ c, onlyChanges [.out, .free, .pwr, .rng, .hif, .net, .glb] (f (atWindow b idx c s)) t
      ∧ PortsReceive (f (atWindow b idx c s)) t := by
  obtain ⟨c, g, hg, rfl⟩ := h
  have ha : onlyChanges [.out] (f (atWindow b idx c s)) (answered b (f (atWindow b idx c s))) := answered_only ..
  refine ⟨c, ?_, ?_⟩
  · refine onlyChanges_trans (onlyChanges_mono ha (by simp)) ?_
    exact onlyChanges_trans (onlyChanges_mono (framesGo_only ..) (by simp +contextual)) (onlyChanges_mono (mark_only _ g hg) (by simp))
  · have hm : ∀ u, PortsReceive u (modFlt u g) := fun u => portsReceive_of_net rfl
    exact portsReceive_trans (portsReceive_of_net (ha.2 .net (by decide))) (portsReceive_trans (portsReceive_framesGo ..) (hm _))

/-! ## The lanes of the ports while a fault is raised (18 R617, R620) -/

/-- Of the lanes of the network ports none comes to ACTIVE, and comma alignment stays. -/
structure NetLanesRest (s t : State) : Prop where
  lane : ∀ l, 16 ≤ l → (laneOf t l).aligned = (laneOf s l).aligned ∧ ((laneOf t l).pstate = 3 → (laneOf s l).pstate = 3)

theorem netLanesRest_of_lanes {s t : State} (h : t.lanes = s.lanes) : NetLanesRest s t :=
  ⟨fun l _ => by simp only [laneOf, h, imp_self, and_self]⟩

theorem netLanesRest_of_only {ps : List Part} {s t : State} (h : onlyChanges ps s t) (hp : Part.lanes ∉ ps) : NetLanesRest s t :=
  netLanesRest_of_lanes (h.2 .lanes hp).1

theorem netLanesRest_trans {s t u : State} (h : NetLanesRest s t) (k : NetLanesRest t u) : NetLanesRest s u :=
  ⟨fun l hl => ⟨(k.lane l hl).1.trans (h.lane l hl).1, fun h3 => (h.lane l hl).2 ((k.lane l hl).2 h3)⟩⟩

theorem netLanesRest_ite {p : Prop} [Decidable p] {s t u : State} (h : NetLanesRest s t) (k : NetLanesRest s u) :
    NetLanesRest s (if p then t else u) := by split <;> assumption

theorem netLanesRest_foldl {α : Type} (f : State → α → State) (l : List α) (s : State) (h : ∀ t a, a ∈ l → NetLanesRest t (f t a)) :
    NetLanesRest s (l.foldl f s) := by
  induction l generalizing s with
  | nil => exact netLanesRest_of_lanes rfl
  | cons a l ih => exact netLanesRest_trans (h s a List.mem_cons_self) (ih _ fun t b hb => h t b (List.mem_cons_of_mem _ hb))

theorem netLanesRest_modLane (s : State) (l : Nat) (f : Lane → Lane)
    (hf : l < 16 ∨ ∀ e, (f e).aligned = e.aligned ∧ ((f e).pstate = 3 → e.pstate = 3)) : NetLanesRest s (modLane s l f) := by
  refine ⟨fun k hk => ?_⟩
  by_cases hkl : k = l
  · subst hkl
    rw [laneOf_modLane_same]
    exact hf.resolve_left (by omega) _
  · rw [laneOf_modLane_other _ _ _ _ hkl]
    exact ⟨rfl, id⟩

theorem netLanesRest_lanesReturn (s : State) : NetLanesRest s (lanesReturn s) := by
  have hfold : NetLanesRest s (s.pwr.lanesWere.foldl (fun acc e =>
      modLane acc e.1 (fun l => { l with pstate := if e.2 = 3 then 0 else e.2, eqPending := true, exitDue := e.2 == 2 })) s) := by
    refine netLanesRest_foldl _ _ _ fun t e _ => netLanesRest_modLane _ _ _ (Or.inr fun x => ⟨rfl, fun h => ?_⟩)
    dsimp only at h
    split at h <;> omega
  exact netLanesRest_trans hfold (netLanesRest_of_lanes rfl)

theorem netLanesRest_wake (s : State) (b : Nat) : NetLanesRest s (wake s b) := by
  have hentry : ∀ bits, NetLanesRest s (entryWakes s bits) := fun bits => by
    unfold entryWakes
    split
    · exact netLanesRest_trans (netLanesRest_lanesReturn s) (netLanesRest_of_lanes rfl)
    · exact netLanesRest_of_lanes rfl
  have hsame : NetLanesRest s s := netLanesRest_of_lanes rfl
  unfold wake
  split
  · exact hsame
  split
  · exact netLanesRest_ite (hentry _) hsame
  · exact netLanesRest_ite (hentry _) hsame
  · exact netLanesRest_ite (netLanesRest_of_lanes rfl) hsame
  · exact netLanesRest_ite (netLanesRest_of_lanes rfl) hsame
  · exact netLanesRest_ite (netLanesRest_of_lanes rfl) hsame
  · exact hsame

/-- Symbols that leave a lane of a head change no other lane. -/
theorem netLanesRest_sendSymbols (s : State) {l : Nat} (ys : List Symbol) (hl : l < 16) : NetLanesRest s (sendSymbols s l ys) := by
  unfold sendSymbols
  split
  · have hstart : NetLanesRest s (startRd s l).2 := by
      unfold startRd
      split <;> exact netLanesRest_of_lanes rfl
    split
    next pos s1 hx =>
      have h1 : NetLanesRest s s1 := by rwa [hx] at hstart
      extract_lets r s2 s3
      have h2 : NetLanesRest s1 s2 := netLanesRest_of_lanes rfl
      have h3 : NetLanesRest s2 s3 := netLanesRest_modLane _ _ _ (Or.inl hl)
      have h13 : NetLanesRest s s3 := netLanesRest_trans h1 (netLanesRest_trans h2 h3)
      refine netLanesRest_ite (netLanesRest_trans h13 (netLanesRest_of_lanes ?_)) h13
      unfold sendGroups
      split <;> rfl
  · exact netLanesRest_of_lanes rfl

theorem netLanesRest_sendFour (s : State) (h : Head) (c : LaneCmd) : NetLanesRest s (sendFour s h c) := by
  refine netLanesRest_foldl _ _ _ fun t _ _ => ?_
  unfold sendLanes
  split
  · refine netLanesRest_trans (netLanesRest_of_lanes (t := emit t (.lanes h c)) rfl) (netLanesRest_foldl _ _ _ fun u l hl => ?_)
    have hl8 : l < 8 := List.mem_range.mp (List.mem_of_mem_filter hl)
    exact netLanesRest_sendSymbols _ _ (by cases h <;> simp [laneIndex, Head.idx] <;> omega)
  · exact netLanesRest_of_lanes rfl

theorem netLanesRest_settleHead (s : State) (h : Head) : NetLanesRest s (settleHead s h) := by
  unfold settleHead
  extract_lets old st p s0 s1 s2
  have h0 : NetLanesRest s s0 := netLanesRest_of_lanes rfl
  have h1 : NetLanesRest s0 s1 := netLanesRest_ite (netLanesRest_of_lanes rfl) (netLanesRest_of_lanes rfl)
  have h2 : NetLanesRest s1 s2 :=
    netLanesRest_ite (netLanesRest_sendFour ..) (netLanesRest_ite (netLanesRest_sendFour ..) (netLanesRest_of_lanes rfl))
  have h02 := netLanesRest_trans h0 (netLanesRest_trans h1 h2)
  exact netLanesRest_ite (netLanesRest_trans h02 (netLanesRest_wake ..)) h02

theorem netLanesRest_raise (s : State) (src heads detail : Nat) : NetLanesRest s (raise s src heads detail) := by
  have hsame : NetLanesRest s s := netLanesRest_of_lanes rfl
  unfold raise raiseInj
  split
  · exact netLanesRest_ite hsame (netLanesRest_of_lanes rfl)
  · have h0 : NetLanesRest s (stampCore s).2 := netLanesRest_of_only (stampCore_only s) (by decide)
    split
    next t s0 hx =>
      rw [hx] at h0
      extract_lets hs sev was e f f1 f2 s1 s2 s3
      have h1 : NetLanesRest s0 s1 := netLanesRest_of_lanes rfl
      have h2 : NetLanesRest s1 s2 := netLanesRest_ite (netLanesRest_of_only (signalMsix_only ..) (by decide)) (netLanesRest_of_lanes rfl)
      have h3 : NetLanesRest s2 s3 := netLanesRest_ite (netLanesRest_wake ..) (netLanesRest_of_lanes rfl)
      have h4 : NetLanesRest s3 (settle s3) := netLanesRest_trans (netLanesRest_settleHead ..) (netLanesRest_settleHead ..)
      exact netLanesRest_trans h0 (netLanesRest_trans h1 (netLanesRest_trans h2 (netLanesRest_trans h3 h4)))

theorem setLevel_off_only (s : State) (src inst heads detail : Nat) :
    onlyChanges [.free, .flt] s (setLevel s src inst heads detail false) := by
  unfold setLevel
  extract_lets has s1
  have h1 : onlyChanges [.free, .flt] s s1 := onlyChanges_mono (modFlt_only ..) (by simp)
  rw [if_neg Bool.false_ne_true]
  split
  · split
    · exact h1
    · exact onlyChanges_trans h1 (clearEntry_only ..)
  · exact onlyChanges_refl _ _

theorem netLanesRest_setLevel (s : State) (src inst heads detail : Nat) (on : Bool) :
    NetLanesRest s (setLevel s src inst heads detail on) := by
  cases on with
  | false => exact netLanesRest_of_only (setLevel_off_only ..) (by decide)
  | true =>
    unfold setLevel
    extract_lets has s1
    rw [if_pos rfl]
    have h0 : NetLanesRest s (modFlt s fun f => { f with live := f.live ++ [(src, inst, heads, detail)] }) :=
      netLanesRest_of_lanes rfl
    exact netLanesRest_ite (netLanesRest_of_lanes rfl) (netLanesRest_trans h0 (netLanesRest_raise ..))

/-! ## The link of a port (11 R413, R414) -/

theorem portOf_of_only {ps : List Part} {s t : State} (h : onlyChanges ps s t) (hp : Part.net ∉ ps) (p : Nat) :
    portOf t p = portOf s p := by rw [portOf, show t.net = s.net from h.2 .net hp, portOf]

/-- The port's own part of judging its link. -/
def linkSet (s : State) (p : Nat) (up : Bool) : State := modPort s p (fun e => { e with link := up })

theorem setLink_eq (s : State) (p : Nat) (up : Bool) : setLink s p up =
    if up || !portEnabled s p then setLevel (linkSet s p up) (31 + p) 0 3 0 false
    else if (portOf s p).link then setLevel (linkSet s p up) (31 + p) 0 3 0 true else linkSet s p up := rfl

/-- What judging a link leaves. -/
theorem setLink_leaves (s : State) (p : Nat) (up : Bool) :
    portOf (setLink s p up) p = { portOf s p with link := up } ∧ (setLink s p up).regs = s.regs
      ∧ NetLanesRest s (setLink s p up) ∧ (up = true → (setLink s p up).lanes = s.lanes) := by
  have hmod : portOf (linkSet s p up) p = { portOf s p with link := up } := portOf_modPort_same ..
  have hlanes : (linkSet s p up).lanes = s.lanes := rfl
  have hregs : (linkSet s p up).regs = s.regs := rfl
  have hlev : ∀ on, portOf (setLevel (linkSet s p up) (31 + p) 0 3 0 on) p = { portOf s p with link := up }
      ∧ (setLevel (linkSet s p up) (31 + p) 0 3 0 on).regs = s.regs
      ∧ NetLanesRest s (setLevel (linkSet s p up) (31 + p) 0 3 0 on) := fun on =>
    ⟨(portOf_of_only (setLevel_only ..) (by decide) p).trans hmod, (regs_of_onlyChanges (setLevel_only ..) (by decide)).trans hregs,
      netLanesRest_trans (netLanesRest_of_lanes hlanes) (netLanesRest_setLevel ..)⟩
  rw [setLink_eq]
  split
  · obtain ⟨h1, h2, h3⟩ := hlev false
    exact ⟨h1, h2, h3, fun _ => ((setLevel_off_only (linkSet s p up) (31 + p) 0 3 0).2 .lanes (by decide)).1.trans hlanes⟩
  · next hu =>
    have hup : up ≠ true := fun h => hu (by simp [h])
    split
    · obtain ⟨h1, h2, h3⟩ := hlev true
      exact ⟨h1, h2, h3, fun h => absurd h hup⟩
    · exact ⟨hmod, hregs, netLanesRest_of_lanes hlanes, fun h => absurd h hup⟩

/-- What decides a port's link besides its lane's state (11 R414). -/
def portAgrees (s t : State) (p : Nat) : Prop :=
  t.regs = s.regs ∧ (portOf t p).sync = (portOf s p).sync ∧ (portOf t p).anDone = (portOf s p).anDone
    ∧ (portOf t p).phyUp = (portOf s p).phyUp

theorem portUp_eq {s t : State} {p : Nat} (h : portAgrees s t p)
    (h3 : ((laneOf t (16 + p)).pstate = 3 ↔ (laneOf s (16 + p)).pstate = 3)) : portUp t p = portUp s p := by
  obtain ⟨hregs, hsync, han, hphy⟩ := h
  have hreg : regAt t = regAt s := funext fun a => getReg_of_regs hregs (a / 4)
  have hlane : ((laneOf t (16 + p)).pstate == 3) = ((laneOf s (16 + p)).pstate == 3) := by
    rw [Bool.eq_iff_iff]
    simpa using h3
  unfold portUp portEnabled controlWords regBit
  simp only [hreg, hsync, han, hphy, hlane]

theorem pstate_of_portUp {s : State} {p : Nat} (h : portUp s p = true) : (laneOf s (16 + p)).pstate = 3 := by
  unfold portUp at h
  simp only [Bool.and_eq_true, beq_iff_eq] at h
  exact h.1.1.2

/-- A link judged down stays judged so while no lane comes to ACTIVE, and one judged up while its lane stays so. -/
theorem portUp_rests {s t : State} {p : Nat} (h : portAgrees s t p) (hl : NetLanesRest s t)
    (hup : portUp s p = true → (laneOf t (16 + p)).pstate = 3) : portUp t p = portUp s p := by
  by_cases h3 : (laneOf t (16 + p)).pstate = 3
  · exact portUp_eq h ⟨fun _ => (hl.lane _ (by omega)).2 h3, fun _ => h3⟩
  · have hs : portUp s p = false := Bool.eq_false_iff.mpr fun hs => h3 (hup hs)
    have ht : portUp t p = false := Bool.eq_false_iff.mpr fun ht => h3 (pstate_of_portUp ht)
    rw [hs, ht]

theorem streamSettle_lanes (s : State) (k l : Nat) : (laneOf (streamSettle s k) l).pstate = (laneOf s l).pstate
    ∧ (laneOf (streamSettle s k) l).aligned = (laneOf s l).aligned := by
  have hmod : ∀ u : State, u.lanes = s.lanes → ∀ f : Lane → Lane, (∀ e, (f e).pstate = e.pstate ∧ (f e).aligned = e.aligned) →
      (laneOf (modLane u k f) l).pstate = (laneOf s l).pstate ∧ (laneOf (modLane u k f) l).aligned = (laneOf s l).aligned :=
    fun u hu f hf => by
      have hlane : laneOf u l = laneOf s l := by rw [laneOf, hu, laneOf]
      by_cases hkl : l = k
      · subst hkl
        rw [laneOf_modLane_same, hlane]
        exact hf _
      · rw [laneOf_modLane_other _ _ _ _ hkl, hlane]
        exact ⟨rfl, rfl⟩
  unfold streamSettle
  extract_lets old new s1
  split
  · exact ⟨rfl, rfl⟩
  · have hs1 : s1.lanes = s.lanes := by
      unfold s1
      split <;> rfl
    exact hmod s1 hs1 (fun e => { e with stream := new }) fun _ => ⟨rfl, rfl⟩

theorem txStart_port (s : State) (p : Nat) : portOf (txStart s p) p = { portOf s p with txSeen := (portOf (txStart s p) p).txSeen } := by
  have hstage : ∀ u a b c, (stageWork u a b c).net = u.net := fun _ _ _ _ => rfl
  unfold txStart
  dsimp only
  split
  · rfl
  split
  · have hstamp : (txStamp s p).2.net = s.net := rfl
    have hp : portOf (txStamp s p).2 p = portOf s p := by rw [portOf, hstamp, portOf]
    rw [portOf, hstage, ← portOf, portOf_modPort_same, hp]
  · rfl

/-- What following its conditions leaves a port in. -/
theorem portLink_leaves (s : State) (p : Nat) :
    portOf (portLink s p) p = { portOf s p with link := portUp s p, txSeen := (portOf (portLink s p) p).txSeen }
      ∧ (portLink s p).regs = s.regs ∧ NetLanesRest s (portLink s p) ∧ portUp (portLink s p) p = portUp s p := by
  have hstream := streamSettle_only s (16 + p)
  obtain ⟨hport, hregs, hlanes, hkeep⟩ := setLink_leaves (streamSettle s (16 + p)) p (portUp s p)
  have htx := txStart_only (setLink (streamSettle s (16 + p)) p (portUp s p)) p
  have hregs' : (portLink s p).regs = s.regs :=
    (regs_of_onlyChanges htx (by decide)).trans (hregs.trans (regs_of_onlyChanges hstream (by decide)))
  have hport' : portOf (portLink s p) p = { portOf s p with link := portUp s p, txSeen := (portOf (portLink s p) p).txSeen } := by
    conv_lhs => rw [portLink, txStart_port, hport, portOf_of_only hstream (by decide)]
    rfl
  have hl0 : NetLanesRest s (streamSettle s (16 + p)) :=
    ⟨fun l _ => ⟨(streamSettle_lanes s _ l).2, fun h => (streamSettle_lanes s _ l).1 ▸ h⟩⟩
  have hl1 : NetLanesRest s (portLink s p) := netLanesRest_trans hl0 (netLanesRest_trans hlanes (netLanesRest_of_only htx (by decide)))
  refine ⟨hport', hregs', hl1, portUp_rests ⟨hregs', by rw [hport'], by rw [hport'], by rw [hport']⟩ hl1 fun hu => ?_⟩
  have hsame : (portLink s p).lanes = (streamSettle s (16 + p)).lanes := (htx.2 .lanes (by decide)).1.trans (hkeep hu)
  rw [laneOf, hsame, ← laneOf, (streamSettle_lanes s _ _).1]
  exact pstate_of_portUp hu

/-! ## `NET_p_CTRL` (11 R415, R416, R454) -/

theorem netBase_mod (p : Nat) : netBase p % 4 = 0 := by
  unfold netBase
  omega

theorem writeNetCtrl_enable {s : State} {p : Nat} (v : Word) (he : portEnabled s p = false) :
    (writeNetCtrl s p (withBit v 0)).regs = (setRegAt s (netBase p) (withBit v 0 &&& 0x7F#32)).regs
      ∧ (portOf (writeNetCtrl s p (withBit v 0)) p).link = portUp (writeNetCtrl s p (withBit v 0)) p := by
  have hold : bit (regAt s (netBase p)) 0 = false := he
  unfold writeNetCtrl
  extract_lets a old new bad s1 s2 s1'
  rw [if_neg (by simp [old, a, hold])]
  have hs1 : s1'.regs = s.regs := by
    unfold s1'
    split <;> rfl
  obtain ⟨hport, hregs, -, hup⟩ := portLink_leaves (setRegAt s1' a new) p
  exact ⟨hregs.trans (setRegAt_regs_of_regs hs1 _ _), by rw [hup, hport]⟩

theorem portEnds_leaves (s : State) (p : Nat) : (portEnds s p).regs = s.regs ∧ (portOf (portEnds s p) p).link = false
    ∧ (portOf (portEnds s p) p).txFrames = (portOf s p).txFrames := by
  have he : portEnds s p
      = setLink (modPort (drawBelow s 2).2 p fun e => { e with inReception := e.link && (drawBelow s 2).1 == 1 }) p false := rfl
  obtain ⟨hport, hregs, -⟩ := setLink_leaves
    (modPort (drawBelow s 2).2 p fun e => { e with inReception := e.link && (drawBelow s 2).1 == 1 }) p false
  rw [he, hport, portOf_modPort_same]
  exact ⟨hregs, rfl, rfl⟩

theorem writeNetCtrl_disable {s : State} {p : Nat} (v : Word) (he : portEnabled s p = true) :
    portEnabled (writeNetCtrl s p (withoutBit v 0)) p = false ∧ otherWords (netBase p / 4) s (writeNetCtrl s p (withoutBit v 0))
      ∧ (portOf (writeNetCtrl s p (withoutBit v 0)) p).link = false
      ∧ (portOf (writeNetCtrl s p (withoutBit v 0)) p).txFrames = (portOf s p).txFrames := by
  have hold : bit (regAt s (netBase p)) 0 = true := he
  unfold writeNetCtrl
  extract_lets a old new bad s1 s2 s1'
  rw [if_pos (by simp [old, a, hold]), bit_withoutBit_same v (by decide), if_neg Bool.false_ne_true]
  have hs1 : s1.regs = s.regs ∧ (portOf s1 p).txFrames = (portOf s p).txFrames := by
    unfold s1
    split
    · exact ⟨rfl, by rw [portOf_modPort_same]⟩
    · exact ⟨rfl, rfl⟩
  obtain ⟨hregs, hlink, htx⟩ := portEnds_leaves s2 p
  have hg := getReg_of_regs hregs
  refine ⟨?_, fun i hi => ?_, hlink, htx.trans hs1.2⟩
  · rw [portEnabled, regBit, regAt, hg]
    change bit (regAt (setRegAt s1 a (merge new old 6#32)) a) 0 = false
    rw [regAt_setRegAt_same _ _ rfl, bit_merge, if_neg (by decide), bit_and, bit_withoutBit_same v (by decide)]
    rfl
  · rw [hg, setRegAt_otherWords s1 a _ i hi, getReg_of_regs hs1.1]

/-! ## Levels of a source and what they leave (15 R522, R524) -/

theorem raise_live (s : State) (src heads detail : Nat) : (raise s src heads detail).flt.live = s.flt.live := by
  cases hj : fltJudges s with
  | false =>
    simp only [raise, raiseInj, hj, Bool.not_false, if_true]
    split <;> rfl
  | true =>
    simp only [raise, raiseInj, hj, Bool.not_true, Bool.false_eq_true, if_false, settle_fields, apply_ite State.flt, wake_fields,
      signalMsix_fields, ite_self, modFlt_fields, apply_ite Flt.live, assertBits, stampCore_fields]

theorem clearEntry_live (s : State) (src : Nat) : (clearEntry s src).flt.live = s.flt.live := by
  unfold clearEntry
  dsimp only
  split
  · rfl
  split
  · simp
  split
  · simp
  · simp

/-- One place of a source leaves the condition of another as it is. -/
theorem setLevel_other_live (s : State) (src inst heads detail : Nat) (on : Bool) {inst' : Nat} (hi : inst' ≠ inst)
    (h : s.flt.live.any (fun e => e.1 == src && e.2.1 == inst') = false) :
    (setLevel s src inst heads detail on).flt.live.any (fun e => e.1 == src && e.2.1 == inst') = false := by
  unfold setLevel
  extract_lets has s1
  have hfilter : s1.flt.live.any (fun e => e.1 == src && e.2.1 == inst') = false := by
    rw [List.any_eq_false] at h ⊢
    exact fun e he => h e (List.mem_of_mem_filter he)
  split
  · split
    · exact h
    · rw [raise_live]
      change (s.flt.live ++ [(src, inst, heads, detail)]).any _ = false
      rw [List.any_append, h]
      simp [Ne.symm hi]
  · split
    · split
      · exact hfilter
      · rw [clearEntry_live]
        exact hfilter
    · exact h

/-! ## What a port reports (09 R350, R351, 11 R414, R455) -/

/-- The port's receiver as it synchronises or loses synchronisation. -/
def receiverSet (s : State) (p : Nat) (sync : Option Nat) (on : Bool) : State :=
  modLane s (16 + p) (fun l =>
    let l1 := if on && !(laneOf s (16 + p)).aligned then { l.align (sync.getD 0) with pcs := 6, pcsGood := 0 } else l
    { l1 with cdrLock := l.cdrLock || on, aligned := on, pcs := if on then l1.pcs else 0, scanning := l.scanning && on })

/-- The port's fault follows the synchronisation. -/
def syncJudged (s : State) (p : Nat) (sync : Option Nat) (on : Bool) : State :=
  if on != (laneOf s (16 + p)).aligned then setLevel (receiverSet s p sync on) (31 + p) 2 3 0 (!on && portEnabled s p)
  else receiverSet s p sync on

/-- The port with what it reports. -/
def reported (s : State) (p : Nat) (sync : Option Nat) (on cw an rf phy speed : Bool) : State :=
  modPort (syncJudged s p sync on) p (fun e => { e with
    sync := on, anDone := cw && an, remoteFault := cw && rf, phyUp := cw && phy && speed,
    speedUnsupported := cw && regBit s (netBase p) 1 && !speed })

theorem linkChanges_eq {s : State} {p : Nat} {sync : Option Nat} {an rf phy speed on cw : Bool} (hl : netLive s = true) (hp : p < 2)
    (hon : on = (sync.isSome && (laneOf s (16 + p)).pstate == 3)) (hcw : cw = (on && controlWords s p)) :
    linkChanges s p sync an rf phy speed = portLink (reported s p sync on cw an rf phy speed) p := by
  subst hcw hon
  rw [linkChanges, if_neg (by simp [hl]; omega)]
  rfl

theorem receiverSet_lane (s : State) (p : Nat) (sync : Option Nat) (on : Bool) :
    (laneOf (receiverSet s p sync on) (16 + p)).aligned = on
      ∧ (laneOf (receiverSet s p sync on) (16 + p)).pstate = (laneOf s (16 + p)).pstate := by
  rw [receiverSet, laneOf_modLane_same]
  dsimp only
  refine ⟨rfl, ?_⟩
  split <;> rfl

/-- What judging the synchronisation leaves: the receiver as it is set, and either the collector judging still or the port's
fault asserted. -/
theorem syncJudged_leaves (s : State) (p : Nat) (sync : Option Nat) (on : Bool) (hp : p < 2) :
    (syncJudged s p sync on).regs = s.regs ∧ (syncJudged s p sync on).net = s.net
      ∧ (laneOf (syncJudged s p sync on) (16 + p)).aligned = on
      ∧ (on = true → (laneOf (syncJudged s p sync on) (16 + p)).pstate = (laneOf s (16 + p)).pstate)
      ∧ (fltJudges s = true → fltJudges (syncJudged s p sync on) = true
          ∨ (syncJudged s p sync on).flt.sticky.getLsbD (31 + p) = true)
      ∧ (s.flt.live.any (fun e => e.1 == 31 + p && e.2.1 == 0) = false →
          (syncJudged s p sync on).flt.live.any (fun e => e.1 == 31 + p && e.2.1 == 0) = false) := by
  obtain ⟨hal, hps⟩ := receiverSet_lane s p sync on
  unfold syncJudged
  split
  · have hlev := setLevel_only (receiverSet s p sync on) (31 + p) 2 3 0 (!on && portEnabled s p)
    have hrest := netLanesRest_setLevel (receiverSet s p sync on) (31 + p) 2 3 0 (!on && portEnabled s p)
    refine ⟨(regs_of_onlyChanges hlev (by decide)).trans rfl, hlev.2 .net (by decide), ((hrest.lane _ (by omega)).1).trans hal, fun ho => ?_,
      fun hj => ?_, fun h => setLevel_other_live (receiverSet s p sync on) (31 + p) 2 3 0 _ (by decide) h⟩
    · subst ho
      have hoff := ((setLevel_off_only (receiverSet s p sync true) (31 + p) 2 3 0).2 .lanes (by decide)).1
      rw [Bool.not_true, Bool.false_and, laneOf, hoff, ← laneOf, hps]
    · have hj' : fltJudges (receiverSet s p sync on) = true := hj
      cases hlv : (!on && portEnabled s p) with
      | false =>
        have hpwr : (setLevel (receiverSet s p sync on) (31 + p) 2 3 0 false).pwr = (receiverSet s p sync on).pwr :=
          (setLevel_off_only ..).2 .pwr (by decide)
        have hrst : (setLevel (receiverSet s p sync on) (31 + p) 2 3 0 false).rst = (receiverSet s p sync on).rst :=
          (setLevel_off_only ..).2 .rst (by decide)
        refine Or.inl ?_
        rw [← hj']
        simp only [fltJudges, ctrlLive, live, domainState, blockHeld, hpwr, hrst]
      | true =>
        cases hn : (receiverSet s p sync on).flt.live.any (fun e => e.1 == 31 + p && e.2.1 == 2) with
        | false => exact Or.inr (setLevel_sticky_self _ _ _ _ _ hj' (by omega) hn)
        | true =>
          refine Or.inl ?_
          rw [setLevel, if_pos rfl, if_pos hn]
          exact hj'
  · exact ⟨rfl, rfl, hal, fun _ => hps, fun hj => Or.inl hj, fun h => h⟩

theorem reported_port (s : State) (p : Nat) (sync : Option Nat) (on cw an rf phy speed : Bool) (hp : p < 2) :
    portOf (reported s p sync on cw an rf phy speed) p = { portOf s p with
      sync := on, anDone := cw && an, remoteFault := cw && rf, phyUp := cw && phy && speed,
      speedUnsupported := cw && regBit s (netBase p) 1 && !speed } := by
  have hnet : portOf (syncJudged s p sync on) p = portOf s p := by
    rw [portOf, (syncJudged_leaves s p sync on hp).2.1, portOf]
  rw [reported, portOf_modPort_same, hnet]

theorem setLink_sticky_mono (s : State) (p : Nat) (up : Bool) (i : Nat) (h : s.flt.sticky.getLsbD i = true) :
    (setLink s p up).flt.sticky.getLsbD i = true := by
  rw [setLink_eq]
  split
  · exact setLevel_sticky_mono _ _ _ _ _ _ _ h
  split
  · exact setLevel_sticky_mono _ _ _ _ _ _ _ h
  · exact h

/-- An enabled port whose link is lost asserts its source. -/
theorem setLink_lost_sticky {s : State} {p : Nat} (hp : p < 2) (he : portEnabled s p = true) (hw : (portOf s p).link = true)
    (hj : fltJudges s = true) (hn : s.flt.live.any (fun e => e.1 == 31 + p && e.2.1 == 0) = false) :
    (setLink s p false).flt.sticky.getLsbD (31 + p) = true := by
  rw [setLink_eq, if_neg (by simp [he]), if_pos hw]
  exact setLevel_sticky_self (linkSet s p false) _ _ _ _ hj (by omega) hn

theorem portLink_flt (s : State) (p : Nat) : (portLink s p).flt.sticky = (setLink (streamSettle s (16 + p)) p (portUp s p)).flt.sticky :=
  sticky_of_onlyChanges (txStart_only ..) (by decide)

/-! ## Frames that leave (11 R418, R419) -/

theorem txStart_quiet {s : State} (p : Nat) (h : ringsQuiet s = true) : ringsQuiet (txStart s p) = true := by
  unfold txStart
  dsimp only
  split
  · exact h
  split
  · exact ringsQuiet_stageWork _ _ (ringsQuiet_of_rng h rfl) (by decide)
  · exact h

theorem completeAt_quiet {s : State} (ring slot code detail : Nat) (fsn : Word) (h : ringsQuiet s = true) :
    ringsQuiet (completeAt s ring slot code detail fsn) = true := ringsQuiet_of_subset h (completeAt_rests _ _ _ _ _ _)

theorem outGrows_sendSymbols (s : State) (l : Nat) (ys : List Symbol) : outGrows s (sendSymbols s l ys) := by
  have hg : ∀ u gs, outGrows u (sendGroups u l gs) := fun u gs => by
    unfold sendGroups
    exact outGrows_ite (outGrows_of_eq rfl) (outGrows_emit ..)
  have hstart : (startRd s l).2.out = s.out := by
    unfold startRd
    split <;> rfl
  unfold sendSymbols
  split
  · split
    next pos s1 hx =>
      have h1 : s1.out = s.out := by rwa [hx] at hstart
      extract_lets r s2 s3
      have h3 : outGrows s s3 := outGrows_of_eq h1
      exact outGrows_ite (outGrows_trans h3 (hg ..)) h3
  · exact outGrows_of_eq rfl

/-- The frame of a NET_TX as it leaves, with what the completion shows of the insertion (11 R428). -/
def sentFrame (w : Work) (f : List Byte) (seen : Stamp) : List Byte × Nat × Bool :=
  if nbit (dByte w.desc 9) 0 then oneStep f seen.time else (f, 0, false)

/-- The port with its first frame on the wire. -/
def frameSent (s : State) (p : Nat) (rest : List (Nat × Nat × List Byte)) (bytes : List Byte) : State :=
  emit (modPort s p (fun x => { x with txFrames := rest, txSeen := none, cntTx := satAdd 0xFFFFFFFF x.cntTx 1 }))
    (.frame p (wireBytes bytes))

/-- The frame's symbols have passed the lane, and its timestamp record is written where it is asked for. -/
def frameRecorded (s : State) (p : Nat) (rest : List (Nat × Nat × List Byte)) (w : Work) (f : List Byte) (seen : Stamp) : State :=
  let x := sentFrame w f seen
  let s2 := sendSymbols (frameSent s p rest x.1) (16 + p) (frameSymbols (wireBytes x.1))
  if nbit (dByte w.desc 9) 1 then postWrite s2 (dNat w.desc 24 8) (stampRecord seen x.2.2) else s2

section Sent

variable {s : State} {p r sl : Nat} {seen : Stamp} {f : List Byte} {rest : List (Nat × Nat × List Byte)} {w : Work}

theorem txDone_eq (hl : netLive s = true) (hf : (portOf s p).txFrames = (r, sl, f) :: rest) (hs : (portOf s p).txSeen = some seen)
    (hw : workAt s r sl = some w) :
    txDone s p = txStart (completeAt (frameRecorded s p rest w f seen) r sl 0 (sentFrame w f seen).2.1 0#32) p := by
  unfold txDone frameRecorded frameSent sentFrame
  simp only [hf, hs, hw, hl, Bool.not_true, Bool.false_eq_true, if_false, Option.map_some]

theorem frameRecorded_leaves (s : State) (p : Nat) (rest : List (Nat × Nat × List Byte)) (w : Work) (f : List Byte) (seen : Stamp) :
    onlyChanges [.out, .free, .hif, .lanes] (frameSent s p rest (sentFrame w f seen).1) (frameRecorded s p rest w f seen)
      ∧ outGrows (frameSent s p rest (sentFrame w f seen).1) (frameRecorded s p rest w f seen) := by
  have ho := sendSymbols_only (frameSent s p rest (sentFrame w f seen).1) (16 + p) (frameSymbols (wireBytes (sentFrame w f seen).1))
  have hg := outGrows_sendSymbols (frameSent s p rest (sentFrame w f seen).1) (16 + p) (frameSymbols (wireBytes (sentFrame w f seen).1))
  unfold frameRecorded
  dsimp only
  split
  · exact ⟨onlyChanges_trans (onlyChanges_mono ho (by simp +contextual)) (onlyChanges_mono (postWrite_only ..) (by simp)),
      outGrows_trans hg (outGrows_postWrite ..)⟩
  · exact ⟨onlyChanges_mono ho (by simp +contextual), hg⟩

/-- The frame in transmission leaves: it is gone from the port, counted and among what has left. -/
theorem txDone_leaves (hl : netLive s = true) (hq : ringsQuiet s = true) (hf : (portOf s p).txFrames = (r, sl, f) :: rest)
    (hs : (portOf s p).txSeen = some seen) (hw : workAt s r sl = some w) :
    (portOf (txDone s p) p).txFrames = rest ∧ (portOf (txDone s p) p).cntTx = satAdd 0xFFFFFFFF (portOf s p).cntTx 1
      ∧ .frame p (wireBytes (if nbit (dByte w.desc 9) 0 then (oneStep f seen.time).1 else f)) ∈ (txDone s p).out
      ∧ ringsQuiet (txDone s p) = true := by
  have hone : (sentFrame w f seen).1 = if nbit (dByte w.desc 9) 0 then (oneStep f seen.time).1 else f := by
    unfold sentFrame
    split <;> rfl
  have hsent : portOf (frameSent s p rest (sentFrame w f seen).1) p
      = { portOf s p with txFrames := rest, txSeen := none, cntTx := satAdd 0xFFFFFFFF (portOf s p).cntTx 1 } :=
    portOf_modPort_same s p fun x => { x with txFrames := rest, txSeen := none, cntTx := satAdd 0xFFFFFFFF x.cntTx 1 }
  obtain ⟨hrec, hgrow⟩ := frameRecorded_leaves s p rest w f seen
  have hcpl := completeAt_only (frameRecorded s p rest w f seen) r sl 0 (sentFrame w f seen).2.1 0#32
  have hport := (portOf_of_only hcpl (by decide) p).trans ((portOf_of_only hrec (by decide) p).trans hsent)
  have hquiet : ringsQuiet (frameRecorded s p rest w f seen) = true :=
    ringsQuiet_of_only (ringsQuiet_of_rng hq (t := frameSent s p rest (sentFrame w f seen).1) rfl) hrec (by decide)
  have hall : outGrows (frameSent s p rest (sentFrame w f seen).1) (txDone s p) := by
    rw [txDone_eq hl hf hs hw]
    exact outGrows_trans hgrow (outGrows_trans (outGrows_completeAt ..) (outGrows_of_only (txStart_only ..) (by decide)))
  have hmem : .frame p (wireBytes (sentFrame w f seen).1) ∈ (txDone s p).out :=
    hall.subset (List.mem_append_right _ (List.mem_singleton_self _))
  rw [hone] at hmem
  refine ⟨?_, ?_, hmem, ?_⟩
  · rw [txDone_eq hl hf hs hw, txStart_port, hport]
  · rw [txDone_eq hl hf hs hw, txStart_port, hport]
  · rw [txDone_eq hl hf hs hw]
    exact txStart_quiet p (completeAt_quiet _ _ _ _ _ hquiet)

end Sent

/-! ## MDIO (11 R417) -/

theorem fld_mdioWord (v : Word) {op : Nat} (ho : op = 1 ∨ op = 2) :
    fld (mdioWord v op) 25 21 = fld v 25 21 ∧ fld (mdioWord v op) 20 16 = fld v 20 16 ∧ fld (mdioWord v op) 15 0 = fld v 15 0
      ∧ fld (mdioWord v op) 27 26 = op ∧ bit (mdioWord v op) 31 = true := by
  have hc : ∀ i, i < 26 → bit 0x0C000000#32 i = false ∧ bit (BitVec.ofNat 32 (1 * 2 ^ 26)) i = false
      ∧ bit (BitVec.ofNat 32 (2 * 2 ^ 26)) i = false := by decide
  have hlow : ∀ i, i < 26 → bit (mdioWord v op) i = bit v i := fun i hi => by
    obtain ⟨h1, h2, h3⟩ := hc i hi
    have hop : bit (BitVec.ofNat 32 (op * 2 ^ 26)) i = false := by rcases ho with rfl | rfl <;> assumption
    rw [mdioWord, bit_or, bit_or, bit_and, bit_not, h1, hop, bit_bitAt _ (by omega)]
    simp [show i < 32 by omega, show i ≠ 31 by omega]
  have hop : fld (mdioWord v op) 27 26 = fld (BitVec.ofNat 32 (op * 2 ^ 26)) 27 26 := fld_congr fun i hl hh => by
    have hmask : bit 0x0C000000#32 i = true := by
      obtain rfl | rfl : i = 26 ∨ i = 27 := by omega
      all_goals decide
    rw [mdioWord, bit_or, bit_or, bit_and, bit_not, hmask, bit_bitAt _ (by omega)]
    simp [show i ≠ 31 by omega]
  refine ⟨fld_congr fun i _ h => hlow i (by omega), fld_congr fun i _ h => hlow i (by omega), fld_congr fun i _ h => hlow i (by omega),
    ?_, ?_⟩
  · rw [hop]
    rcases ho with rfl | rfl <;> decide
  · rw [mdioWord, bit_or, bit_bitAt _ (by decide)]
    simp

theorem writeMdio_free {s : State} {v : Word} {op : Nat} (ho : op = 1 ∨ op = 2) (hn : s.net.mdio = none) :
    writeMdio s (mdioWord v op) = emit (modNet s fun e => { e with mdio := some (op == 1, fld v 25 21, fld v 20 16, fld v 15 0) })
      (.mdio (op == 1) (fld v 25 21) (fld v 20 16) (if op = 1 then fld v 15 0 else 0)) := by
  obtain ⟨h1, h2, h3, h4, h5⟩ := fld_mdioWord v ho
  unfold writeMdio
  simp [h1, h2, h3, h4, h5, hn, ho]

theorem writeMdio_busy {s : State} {v : Word} {op : Nat} (ho : op = 1 ∨ op = 2) (hn : s.net.mdio.isSome = true) :
    writeMdio s (mdioWord v op) = modNet s fun e => { e with mdioRefused := true } := by
  obtain ⟨-, -, -, -, h5⟩ := fld_mdioWord v ho
  unfold writeMdio
  simp [h5, hn]

/-- A served write whose window leaves the power state alone, with no output taken back. -/
theorem writeAlone_window_grows {s : State} {b : Bus} {addr : Nat} {v : Word} {f : State → State} (h : reaches s b addr = true)
    (h4 : addr % 4 = 0) (ho : wordLocked s (addr / 4) = false) (hr : ∀ u, routeWrite u (addr / 4) v = f u)
    (hf : ∀ u, (f u).pwr = u.pwr) : ∃ c t, writeAlone b addr v s = .next t
      ∧ onlyChanges [.out] (f (atWindow b (addr / 4) c s)) t ∧ outGrows (f (atWindow b (addr / 4) c s)) t := by
  obtain ⟨t, ht, c, g, hg, rfl⟩ := writeAlone_ran s b addr v f h h4 ho hr
  have hpwr : (answered b (f (atWindow b (addr / 4) c s))).pwr = (atWindow b (addr / 4) c s).pwr := by simp [hf]
  have hstay : framesGo (inCycle c s) (answered b (f (atWindow b (addr / 4) c s))) = answered b (f (atWindow b (addr / 4) c s)) :=
    framesGo_of_not_ended fun hs => (atWindow_state_lt_two b (addr / 4) c s).1 (hpwr ▸ hs)
  have hans : outGrows (f (atWindow b (addr / 4) c s)) (answered b (f (atWindow b (addr / 4) c s))) := by
    cases b with
    | service => exact outGrows_emit ..
    | pcie => exact outGrows_of_eq rfl
    | script => exact outGrows_of_eq rfl
  refine ⟨c, _, ht, onlyChanges_trans (answered_only b _) ?_, outGrows_trans hans ?_⟩
  · exact hstay.symm ▸ onlyChanges_mono (mark_only _ g hg) (by simp)
  · exact hstay.symm ▸ outGrows_of_eq rfl

theorem writeMdio_pwr (s : State) (v : Word) : (writeMdio s v).pwr = s.pwr := by
  unfold writeMdio
  dsimp only
  split
  · rfl
  split
  · rfl
  split <;> rfl

/-- An operation that MDIO can take begins, and leaves the port. -/
theorem mdioCmd_free {s : State} {b : Bus} (v : Word) {op : Nat} (ho : op = 1 ∨ op = 2) (h : reaches s b 0x0D000 = true)
    (hn : s.net.mdio = none) : ∃ t, writeAlone b 0x0D000 (mdioWord v op) s = .next t
      ∧ t.net = { s.net with mdio := some (op == 1, fld v 25 21, fld v 20 16, fld v 15 0) }
      ∧ .mdio (op == 1) (fld v 25 21) (fld v 20 16) (if op = 1 then fld v 15 0 else 0) ∈ t.out := by
  obtain ⟨c, t, ht, hc, hg⟩ := writeAlone_window_grows h (by decide) (open_mdio s) (fun u => route_mdio u (mdioWord v op))
    (fun u => writeMdio_pwr u _)
  have hnet : (atWindow b (0x0D000 / 4) c s).net = s.net := by simp
  have hf := writeMdio_free (v := v) ho ((congrArg Net.mdio hnet).trans hn)
  rw [hf] at hc hg
  refine ⟨t, ht, (hc.2 .net (by decide)).trans ?_, hg.subset (List.mem_append_right _ (List.mem_singleton_self _))⟩
  rw [← hnet]
  rfl

theorem mdioCmd_busy {s : State} {b : Bus} (v : Word) {op : Nat} (ho : op = 1 ∨ op = 2) (h : reaches s b 0x0D000 = true)
    (hn : s.net.mdio.isSome = true) : ∃ t, writeAlone b 0x0D000 (mdioWord v op) s = .next t
      ∧ t.net = { s.net with mdioRefused := true } := by
  obtain ⟨c, t, ht, hc⟩ := writeAlone_window_of_pwr h (by decide) (open_mdio s) (fun u => route_mdio u (mdioWord v op))
    (fun u => writeMdio_pwr u _)
  have hnet : (atWindow b (0x0D000 / 4) c s).net = s.net := by simp
  rw [writeMdio_busy (v := v) ho (by rwa [hnet])] at hc
  refine ⟨t, ht, (hc.2 .net (by decide)).trans ?_⟩
  rw [← hnet]
  rfl

/-- A port's report, by what decides its link. -/
theorem netLinkChange_leaves {s : State} {p : Nat} {sync : Option Nat} {an rf phy speed on cw up : Bool} (hl : netLive s = true)
    (hp : p < 2) (he : portEnabled s p = true) (hon : on = (sync.isSome && (laneOf s (16 + p)).pstate == 3))
    (hcw : cw = (on && controlWords s p))
    (hup : up = (on && (!controlWords s p || (an && (!regBit s (netBase p) 1 || (phy && speed)))))) :
    ∃ t, linkChanges s p sync an rf phy speed = t ∧ (portOf t p).link = up ∧ (portOf t p).sync = on
      ∧ (portOf t p).anDone = (cw && an) ∧ (portOf t p).remoteFault = (cw && rf) ∧ (laneOf t (16 + p)).aligned = on
      ∧ (portOf t p).speedUnsupported = (cw && regBit s (netBase p) 1 && !speed)
      ∧ (fltJudges s = true → (portOf s p).link = true → up = false →
        s.flt.live.any (fun e => e.1 == 31 + p && e.2.1 == 0) = false → t.flt.sticky.getLsbD (31 + p) = true) := by
  obtain ⟨hregs, hnet, hal, hps, hj, hlive⟩ := syncJudged_leaves s p sync on hp
  have hport := reported_port s p sync on cw an rf phy speed hp
  obtain ⟨hlink, -, hlanes, -⟩ := portLink_leaves (reported s p sync on cw an rf phy speed) p
  have hreg : regAt (reported s p sync on cw an rf phy speed) = regAt s := funext fun a => getReg_of_regs hregs (a / 4)
  have hen : portEnabled (reported s p sync on cw an rf phy speed) p = true := by
    rw [portEnabled, regBit, hreg]
    exact he
  have hjudge : portUp (reported s p sync on cw an rf phy speed) p = up := by
    have hcontrol : controlWords (reported s p sync on cw an rf phy speed) p = controlWords s p := by
      rw [controlWords, regBit, hreg, ← regBit, ← controlWords]
    have hauto : regBit (reported s p sync on cw an rf phy speed) (netBase p) 1 = regBit s (netBase p) 1 := by
      rw [regBit, hreg, ← regBit]
    unfold portUp
    rw [hen, hcontrol, hauto, hport, hup]
    cases hb : on with
    | false => simp
    | true =>
      subst hb
      have h3 : (laneOf (reported s p sync true cw an rf phy speed) (16 + p)).pstate = 3 := by
        refine (hps rfl).trans ?_
        have hs := hon.symm
        rw [Bool.and_eq_true] at hs
        simpa using hs.2
      have hcw' : cw = controlWords s p := by rw [hcw, Bool.true_and]
      rw [h3, ← hcw']
      cases cw <;> simp
  refine ⟨_, linkChanges_eq hl hp hon hcw, by rw [hlink, hjudge], by rw [hlink, hport], by rw [hlink, hport], by rw [hlink, hport],
    ((hlanes.lane _ (by omega)).1).trans hal, by rw [hlink, hport], fun hjs hw hu hn => ?_⟩
  rw [portLink_flt, hjudge, hu]
  have hstream := streamSettle_only (reported s p sync on cw an rf phy speed) (16 + p)
  rcases hj hjs with hjx | hst
  · refine setLink_lost_sticky hp ?_ ?_ ?_ ?_
    · rw [portEnabled, regBit, regAt, getReg_of_regs (regs_of_onlyChanges hstream (by decide)), ← regAt, ← regBit]
      exact hen
    · rw [portOf_of_only hstream (by decide), hport]
      exact hw
    · have hpwr : (streamSettle (reported s p sync on cw an rf phy speed) (16 + p)).pwr = (syncJudged s p sync on).pwr :=
        hstream.2 .pwr (by decide)
      have hrst : (streamSettle (reported s p sync on cw an rf phy speed) (16 + p)).rst = (syncJudged s p sync on).rst :=
        hstream.2 .rst (by decide)
      rw [← hjx]
      simp only [fltJudges, ctrlLive, live, domainState, blockHeld, hpwr, hrst]
    · rw [live_of_onlyChanges hstream (by decide)]
      exact hlive hn
  · refine setLink_sticky_mono _ _ _ _ ?_
    rw [sticky_of_onlyChanges hstream (by decide)]
    exact hst

/-- The read of a frame has ended (11 R419). -/
theorem txReadDone_eq {s : State} {p : Nat} {w : Work} (hl : netLive s = true) (hh : hostReads s = true) (hp : p < 2)
    (hroom : txRoom s p (dNat w.desc 12 2) = true)
    (hfind : s.rng.work.find? (fun w => w.desc.opcode == 9 && w.dcrcOk && w.stage == 1 && dByte w.desc 8 == p
      && !(portOf s p).txFrames.any (fun q => q.1 == w.ring && q.2.1 == w.slot)) = some w) :
    (∀ bs, txReadDone s p (.data bs)
      = txStart (modPort s p fun e => { e with txFrames := e.txFrames ++ [(w.ring, w.slot, fit (dNat w.desc 12 2) bs)] }) p)
    ∧ ∀ k, txReadDone s p (.failed k) = completeAt (hostFails s k) w.ring w.slot 0x40 0 0#32 := by
  have hgo : (!netLive s || !hostReads s || decide (2 ≤ p)) = false := by simp [hl, hh]; omega
  refine ⟨fun bs => ?_, fun k => ?_⟩
  · simp only [txReadDone, hgo, Bool.false_eq_true, if_false, hfind, hroom, Bool.not_true]
  · simp only [txReadDone, hgo, Bool.false_eq_true, if_false, hfind, hroom, Bool.not_true]

/-- Settles O31: the ports by what their writes and reports leave, the frames by what is read and sent, MDIO by its window. -/
theorem networkPorts : Obligations.NetworkPorts := by
  unfold Obligations.NetworkPorts
  refine ⟨fun s b p v hp h => ⟨fun he => ?_, fun he => ?_⟩, fun s p sync an rf phy speed on cw up hl hp he hon hcw hup => ?_,
    fun s p w hl hh hp hq hroom hfind => ⟨fun bs => ?_, fun k => ?_⟩, fun s p r sl seen f rest w hl hq hf hs hw => ?_,
    fun s b v h => ⟨fun hn => ⟨?_, ?_⟩, fun hn => ⟨?_, ?_⟩⟩, fun s data w a b c hl hm => ?_⟩
  · obtain ⟨t, ht, hran⟩ := writeAlone_ran s b (netBase p) (withBit v 0) (fun u => writeNetCtrl u p (withBit v 0)) h (netBase_mod p)
      (open_netCtrl s p hp) (fun u => route_netCtrl u p _ hp)
    obtain ⟨c, ho, hports⟩ := ran_ports hran
    obtain ⟨hregs, hlink⟩ := writeNetCtrl_enable (s := atWindow b (netBase p / 4) c s) (p := p) v (by rw [portEnabled, regBit_atWindow]; exact he)
    obtain ⟨hv, hothers⟩ := written_of_regs (s := s) (a := netBase p)
      ((regs_of_onlyChanges ho (by decide)).trans (hregs.trans (setRegAt_regs_of_regs (by simp) _ _)))
    have hlane : laneOf t (16 + p) = laneOf (writeNetCtrl (atWindow b (netBase p / 4) c s) p (withBit v 0)) (16 + p) := by
      rw [laneOf, (ho.2 .lanes (by decide)).1, laneOf]
    have hup := portUp_eq (t := t) (p := p) ⟨regs_of_onlyChanges ho (by decide), by rw [hports.port], by rw [hports.port],
      by rw [hports.port]⟩ (by rw [hlane])
    exact ⟨t, by rw [exec, execNetPortEnable, Nat.mod_eq_of_lt hp, ht], hv, hothers, by rw [hports.port, hup]; exact hlink⟩
  · obtain ⟨t, ht, hran⟩ := writeAlone_ran s b (netBase p) (withoutBit v 0) (fun u => writeNetCtrl u p (withoutBit v 0)) h (netBase_mod p)
      (open_netCtrl s p hp) (fun u => route_netCtrl u p _ hp)
    obtain ⟨c, ho, hports⟩ := ran_ports hran
    obtain ⟨hoff, hothers, hlink, htx⟩ := writeNetCtrl_disable (s := atWindow b (netBase p / 4) c s) (p := p) v
      (by rw [portEnabled, regBit_atWindow]; exact he)
    have hg := getReg_of_regs (regs_of_onlyChanges ho (by decide))
    have hport : portOf (atWindow b (netBase p / 4) c s) p = portOf s p := by simp [portOf]
    refine ⟨t, by rw [exec, execNetPortDisable, Nat.mod_eq_of_lt hp, ht], ?_, fun i hi => by rw [hg, hothers i hi, getReg_atWindow],
      by rw [hports.port]; exact hlink, by rw [hports.port, ← hport]; exact htx⟩
    rw [portEnabled, regBit, regAt, hg, ← regAt, ← regBit, ← portEnabled]
    exact hoff
  · obtain ⟨t, ht, h1, h2, h3, h4, h5, h6, h7⟩ := netLinkChange_leaves (rf := rf) hl hp he hon hcw hup
    exact ⟨t, congrArg Host.Outcome.next ht, h1, h2, h3, h4, h5, h6, h7⟩
  · have hquiet : ∀ c, ringsQuiet (modPort (inCycle c s) p fun e =>
        { e with txFrames := e.txFrames ++ [(w.ring, w.slot, fit (dNat w.desc 12 2) bs)] }) = true := fun _ => ringsQuiet_of_rng hq rfl
    obtain ⟨c, ho⟩ := inOneCycle_of_eq (fun s => ringSettle (txReadDone s p (.data bs))) s (fun c => txStart (modPort (inCycle c s) p
        fun e => { e with txFrames := e.txFrames ++ [(w.ring, w.slot, fit (dNat w.desc 12 2) bs)] }) p)
      (fun c => by
        rw [(txReadDone_eq (s := inCycle c s) hl hh hp hroom hfind).1 bs, ringSettle_of_quiet (txStart_quiet p (hquiet c))])
      (fun c hs => by
        rw [show (txStart _ p).pwr = _ from (txStart_only _ p).2 .pwr (by decide)] at hs
        exact hs)
    refine ⟨_, rfl, ?_⟩
    rw [portOf_of_only ho (by decide), txStart_port, portOf_modPort_same]
    rfl
  · have hquiet : ∀ c, ringsQuiet (hostFails (inCycle c s) k) = true := fun _ => ringsQuiet_of_rng hq rfl
    obtain ⟨c, ho⟩ := inOneCycle_of_eq (fun s => ringSettle (txReadDone s p (.failed k))) s
      (fun c => completeAt (hostFails (inCycle c s) k) w.ring w.slot 0x40 0 0#32)
      (fun c => by
        rw [(txReadDone_eq (s := inCycle c s) hl hh hp hroom hfind).2 k,
          ringSettle_of_quiet (completeAt_quiet _ _ _ _ _ (hquiet c))])
      (fun c hs => by
        rw [show (completeAt _ _ _ _ _ _).pwr = _ from (completeAt_only ..).2 .pwr (by decide)] at hs
        exact hs)
    have hcpl := completeAt_only (hostFails (inCycle c s) k) w.ring w.slot 0x40 0 0#32
    refine ⟨_, rfl, ?_, ?_⟩
    · rw [show (inOneCycle _ s).hif = _ from ho.2 .hif (by decide), completeAt_err]
      rfl
    · rw [portOf_of_only ho (by decide), portOf_of_only hcpl (by decide)]
      rfl
  · obtain ⟨h1, h2, h3, h4⟩ := txDone_leaves hl hq hf hs hw
    refine ⟨txDone s p, ?_, h1, h2, h3⟩
    rw [exec, execNetTxDone, ringSettle_of_quiet h4]
  · exact mdioCmd_free v (Or.inl rfl) h hn
  · exact mdioCmd_free v (Or.inr rfl) h hn
  · exact mdioCmd_busy v (Or.inl rfl) h hn
  · exact mdioCmd_busy v (Or.inr rfl) h hn
  · refine ⟨mdioEnds s data, rfl, ?_⟩
    simp [mdioEnds, hl, hm, modNet]

end Sys2Proof.Machine
end

section
/-! SUPPORT. What an assertion leaves in the safety functions: the heads' states follow the requests that stand, and of the rest
nothing changes (15 R528, 16 R548 to R553). -/

namespace Sys2Proof.Machine

/-! ## The requests that a head's state follows -/

/-- Of the safety functions the heads alone may differ, and of a head its block in force and its forced LEN do not. -/
structure SafRests (s t : State) : Prop where
  saf : t.saf = { s.saf with heads := t.saf.heads }
  head : ∀ h, (t.saf.heads.get h).block = (s.saf.heads.get h).block ∧ (t.saf.heads.get h).wdLow = (s.saf.heads.get h).wdLow

theorem safRests_of_saf {s t : State} (h : t.saf = s.saf) : SafRests s t := ⟨by rw [h], fun _ => by rw [h]; exact ⟨rfl, rfl⟩⟩

theorem safRests_trans {s t u : State} (h : SafRests s t) (k : SafRests t u) : SafRests s u :=
  ⟨k.saf.trans (by rw [h.saf]), fun x => ⟨(k.head x).1.trans (h.head x).1, (k.head x).2.trans (h.head x).2⟩⟩

theorem safRests_of_only {ps : List Part} {s t : State} (h : onlyChanges ps s t) (hp : Part.saf ∉ ps) : SafRests s t :=
  safRests_of_saf (h.2 .saf hp)

theorem get_modSafHead (s : State) (h k : Head) (f : SafHead → SafHead) :
    (modSafHead s h f).saf.heads.get k = if k = h then f (s.saf.heads.get h) else s.saf.heads.get k := by
  cases h <;> cases k <;> rfl

theorem safRests_modSafHead (s : State) (h : Head) (f : SafHead → SafHead)
    (hf : ∀ e, (f e).block = e.block ∧ (f e).wdLow = e.wdLow) : SafRests s (modSafHead s h f) := by
  refine ⟨rfl, fun k => ?_⟩
  rw [get_modSafHead]
  split
  · next hk =>
    subst hk
    exact hf _
  · exact ⟨rfl, rfl⟩

/-- What a head's state is called to follows from the registers, the collector's requests and the safety functions apart from the
heads. -/
theorem stateCall_congr {s t : State} (hr : t.regs = s.regs) (hs : SafRests s t)
    (hf : t.flt.sticky = s.flt.sticky ∧ t.flt.reqA = s.flt.reqA ∧ t.flt.reqB = s.flt.reqB ∧ t.flt.resetReq = s.flt.resetReq
      ∧ t.flt.self = s.flt.self ∧ t.flt.aoClock = s.flt.aoClock) (h : Head) : stateCall t h = stateCall s h := by
  obtain ⟨hst, ha, hb, hrq, hself, hao⟩ := hf
  have hreg : regAt t = regAt s := funext fun a => getReg_of_regs hr (a / 4)
  have himg : t.saf.image = s.saf.image := by rw [hs.saf]
  have hsn : t.saf.safeN = s.saf.safeN := by rw [hs.saf]
  have hstop : t.saf.stop = s.saf.stop := by rw [hs.saf]
  have hdark : t.saf.dark = s.saf.dark := by rw [hs.saf]
  have hsev : sevOf t = sevOf s := funext fun i => by simp only [sevOf, floorOf, imageNat, himg, hreg]
  have hreq : ∀ k, requestsOn t k = requestsOn s k := fun k => by
    unfold requestsOn
    rw [hst, ha, hb]
  have hown : ∀ k, ownCall t k = ownCall s k := fun k => by
    unfold ownCall collectorCall directCall
    rw [hreq, hsev, hrq, hself, hao, hsn, hstop, hdark]
  unfold stateCall joined regBit
  rw [hreg, hown, hown, hown]

theorem stateCall_of_flt {s t : State} (hr : t.regs = s.regs) (hs : SafRests s t) (hf : t.flt = s.flt) (h : Head) :
    stateCall t h = stateCall s h := stateCall_congr hr hs (by rw [hf]; exact ⟨rfl, rfl, rfl, rfl, rfl, rfl⟩) h

/-- Every head's state is the one that the standing requests call for. -/
def Settled (s : State) : Prop := ∀ h, (s.saf.heads.get h).state = stateCall s h

theorem settled_of_same {s t : State} (h : Settled s) (hr : t.regs = s.regs) (hs : t.saf = s.saf)
    (hf : t.flt.sticky = s.flt.sticky ∧ t.flt.reqA = s.flt.reqA ∧ t.flt.reqB = s.flt.reqB ∧ t.flt.resetReq = s.flt.resetReq
      ∧ t.flt.self = s.flt.self ∧ t.flt.aoClock = s.flt.aoClock) : Settled t := fun k => by
  rw [hs, h k, stateCall_congr hr (safRests_of_saf hs) hf]

theorem settled_of_only {ps : List Part} {s t : State} (h : Settled s) (ho : onlyChanges ps s t) (hr : Part.regs ∉ ps)
    (hs : Part.saf ∉ ps) (hf : Part.flt ∉ ps) : Settled t := by
  have hc := fltCore_of_onlyChanges ho hf
  unfold fltCore at hc
  injection hc
  exact settled_of_same h (regs_of_onlyChanges ho hr) (ho.2 .saf hs) ⟨by assumption, by assumption, by assumption, by assumption, by assumption, by assumption⟩

/-! ## Settling (16 R548 to R553) -/

theorem settleHead_leaves (s : State) (h : Head) : SafRests s (settleHead s h) ∧ (settleHead s h).regs = s.regs
    ∧ (settleHead s h).flt = s.flt
    ∧ ∀ k, ((settleHead s h).saf.heads.get k).state = if k = h then stateCall s h else (s.saf.heads.get k).state := by
  unfold settleHead
  extract_lets old st p s0 s1 s2
  have h0 : SafRests s s0 := safRests_modSafHead _ _ _ fun _ => ⟨rfl, rfl⟩
  have hst0 : ∀ k, (s0.saf.heads.get k).state = if k = h then stateCall s h else (s.saf.heads.get k).state := fun k => by
    rw [show s0.saf.heads.get k = _ from get_modSafHead ..]
    split <;> rfl
  have h1 : SafRests s0 s1 ∧ s1.regs = s0.regs ∧ s1.flt = s0.flt ∧ ∀ k, (s1.saf.heads.get k).state = (s0.saf.heads.get k).state := by
    unfold s1
    split
    · have hd : SafRests s0 (degradeApply s0 h) := safRests_modSafHead _ _ _ fun _ => ⟨rfl, rfl⟩
      refine ⟨safRests_trans hd (safRests_of_saf rfl), rfl, rfl, fun k => ?_⟩
      change ((degradeApply s0 h).saf.heads.get k).state = _
      rw [degradeApply, get_modSafHead]
      split
      · next hk => rw [hk]
      · rfl
    · exact ⟨safRests_of_saf rfl, rfl, rfl, fun _ => rfl⟩
  have h2 : onlyChanges [.out, .free, .lanes] s1 s2 :=
    onlyChanges_ite (sendFour_only ..) (onlyChanges_ite (sendFour_only ..) (onlyChanges_refl _ _))
  have hflt2 : s2.flt = s1.flt := by
    unfold s2
    split
    · exact (sendFour_fields ..).2.2.2.2.1
    split
    · exact (sendFour_fields ..).2.2.2.2.1
    · rfl
  have h3 : ∀ b, (wake s2 b).saf = s2.saf ∧ (wake s2 b).regs = s2.regs ∧ (wake s2 b).flt = s2.flt := fun b => by simp
  have hsaf2 : s2.saf = s1.saf := h2.2 .saf (by decide)
  have hregs2 : s2.regs = s1.regs := regs_of_onlyChanges h2 (by decide)
  obtain ⟨hr1, hg1, hf1, hk1⟩ := h1
  have hend : SafRests s s2 ∧ s2.regs = s.regs ∧ s2.flt = s.flt
      ∧ ∀ k, (s2.saf.heads.get k).state = if k = h then stateCall s h else (s.saf.heads.get k).state :=
    ⟨safRests_trans h0 (safRests_trans hr1 (safRests_of_saf hsaf2)), hregs2.trans (hg1.trans rfl), hflt2.trans (hf1.trans rfl),
      fun k => by rw [hsaf2, hk1, hst0]⟩
  obtain ⟨e1, e2, e3, e4⟩ := hend
  split
  · obtain ⟨w1, w2, w3⟩ := h3 2
    exact ⟨safRests_trans e1 (safRests_of_saf w1), w2.trans e2, w3.trans e3, fun k => by rw [w1, e4]⟩
  · exact ⟨e1, e2, e3, e4⟩

theorem settle_leaves (s : State) : SafRests s (settle s) ∧ (settle s).regs = s.regs ∧ (settle s).flt = s.flt ∧ Settled (settle s) := by
  obtain ⟨a1, a2, a3, a4⟩ := settleHead_leaves s .a
  obtain ⟨b1, b2, b3, b4⟩ := settleHead_leaves (settleHead s .a) .b
  have hcall : ∀ h, stateCall (settle s) h = stateCall s h :=
    stateCall_of_flt (b2.trans a2) (safRests_trans a1 b1) (b3.trans a3)
  refine ⟨safRests_trans a1 b1, b2.trans a2, b3.trans a3, fun h => ?_⟩
  rw [hcall, settle, b4]
  cases h with
  | a => rw [if_neg (by decide), a4, if_pos rfl]
  | b => rw [if_pos rfl, stateCall_of_flt a2 a1 a3]

theorem wake_domains (s : State) (b : Nat) : (wake s b).pwr.domains = s.pwr.domains := by
  have hret : (lanesReturn s).pwr.domains = s.pwr.domains := by rw [lanesReturn_pwr]
  have hentry : ∀ bits, (entryWakes s bits).pwr.domains = s.pwr.domains := fun bits => by
    unfold entryWakes
    split
    · exact hret
    · rfl
  have hite : ∀ (p : Prop) [Decidable p] (u : State), u.pwr.domains = s.pwr.domains →
      (if p then u else s).pwr.domains = s.pwr.domains := fun p _ u hu => by split <;> first | exact hu | rfl
  unfold wake
  split
  · rfl
  split
  · exact hite _ _ (hentry _)
  · exact hite _ _ (hentry _)
  · exact hite _ _ rfl
  · exact hite _ _ rfl
  · exact hite _ _ rfl
  · rfl

theorem fltJudges_congr {s t : State} (hd : t.pwr.domains = s.pwr.domains) (hr : t.rst = s.rst) : fltJudges t = fltJudges s := by
  simp only [fltJudges, ctrlLive, live, domainState, blockHeld, hd, hr]

theorem settleHead_domains (s : State) (h : Head) : (settleHead s h).pwr.domains = s.pwr.domains := by
  unfold settleHead
  extract_lets old st p s0 s1 s2
  have h1 : s1.pwr = s0.pwr := by
    unfold s1
    split <;> rfl
  have h2 : s2.pwr = s1.pwr := (onlyChanges_ite (sendFour_only ..) (onlyChanges_ite (sendFour_only ..) (onlyChanges_refl _ _))).2 .pwr (by decide)
  have h02 : s2.pwr = s.pwr := h2.trans (h1.trans rfl)
  split
  · rw [wake_domains, h02]
  · rw [h02]

theorem settle_domains (s : State) : (settle s).pwr.domains = s.pwr.domains := (settleHead_domains _ _).trans (settleHead_domains _ _)

theorem fltJudges_settle (s : State) : fltJudges (settle s) = fltJudges s := fltJudges_congr (settle_domains s) (by simp)

/-! ## Assertions and levels (15 R522 to R528) -/

/-- An assertion leaves the registers, and of the safety functions all but the heads' states; a settled state stays so. -/
theorem raise_leaves (s : State) (src heads detail : Nat) : SafRests s (raise s src heads detail)
    ∧ (raise s src heads detail).regs = s.regs ∧ (Settled s → Settled (raise s src heads detail)) := by
  unfold raise raiseInj
  split
  · split
    · exact ⟨safRests_of_saf rfl, rfl, id⟩
    · exact ⟨safRests_of_saf rfl, rfl, fun h => settled_of_same h rfl rfl ⟨rfl, rfl, rfl, rfl, rfl, rfl⟩⟩
  · split
    next t s0 hx =>
      have h0 : onlyChanges [.free] s s0 := by
        have h := stampCore_only s
        rwa [hx] at h
      extract_lets hs sev was e f f1 f2 s1 s2 s3
      have h2 : onlyChanges [.out, .hif] s1 s2 := onlyChanges_ite (signalMsix_only ..) (onlyChanges_refl _ _)
      have h3 : onlyChanges [.pwr, .lanes] s2 s3 := onlyChanges_ite (wake_only ..) (onlyChanges_refl _ _)
      obtain ⟨e1, e2, -, e4⟩ := settle_leaves s3
      have hsaf : s3.saf = s.saf := (h3.2 .saf (by decide)).trans ((h2.2 .saf (by decide)).trans (h0.2 .saf (by decide)))
      have hregs0 : s0.regs = s.regs := regs_of_onlyChanges h0 (by decide)
      have hregs : s3.regs = s.regs := (regs_of_onlyChanges h3 (by decide)).trans
        ((regs_of_onlyChanges h2 (by decide)).trans hregs0)
      exact ⟨safRests_trans (safRests_of_saf hsaf) e1, e2.trans hregs, fun _ => e4⟩

theorem setLevel_off_flt (s : State) (src inst heads detail : Nat) : (setLevel s src inst heads detail false).flt.sticky = s.flt.sticky
    ∧ (setLevel s src inst heads detail false).flt.live = s.flt.live.filter (fun e => !(e.1 == src && e.2.1 == inst)) := by
  unfold setLevel
  extract_lets has s1
  rw [if_neg Bool.false_ne_true]
  split
  · split
    · exact ⟨rfl, rfl⟩
    · exact ⟨clearEntry_sticky s1 src, clearEntry_live s1 src⟩
  · next hn =>
    refine ⟨rfl, (List.filter_eq_self.mpr fun e he => ?_).symm⟩
    have hall := List.any_eq_false.mp (Bool.eq_false_iff.mpr hn) e he
    simpa [imp_iff_not_or] using hall

/-- What opens or closes an entry of the log leaves the requests. -/
theorem clearEntry_requests (s : State) (src : Nat) : (clearEntry s src).flt.sticky = s.flt.sticky
    ∧ (clearEntry s src).flt.reqA = s.flt.reqA ∧ (clearEntry s src).flt.reqB = s.flt.reqB
    ∧ (clearEntry s src).flt.resetReq = s.flt.resetReq ∧ (clearEntry s src).flt.self = s.flt.self
    ∧ (clearEntry s src).flt.aoClock = s.flt.aoClock := by
  unfold clearEntry
  dsimp only
  split
  · exact ⟨rfl, rfl, rfl, rfl, rfl, rfl⟩
  split
  · simp
  split
  · simp
  · simp

theorem setLevel_leaves (s : State) (src inst heads detail : Nat) (on : Bool) : SafRests s (setLevel s src inst heads detail on)
    ∧ (setLevel s src inst heads detail on).regs = s.regs ∧ (Settled s → Settled (setLevel s src inst heads detail on)) := by
  unfold setLevel
  extract_lets has s1
  have hlive : ∀ l, Settled s → Settled (modFlt s fun f => { f with live := l }) := fun l h =>
    settled_of_same h rfl rfl ⟨rfl, rfl, rfl, rfl, rfl, rfl⟩
  split
  · split
    · exact ⟨safRests_of_saf rfl, rfl, id⟩
    · obtain ⟨h1, h2, h3⟩ := raise_leaves (modFlt s fun f => { f with live := f.live ++ [(src, inst, heads, detail)] }) src heads detail
      have h0 : SafRests s (modFlt s fun f => { f with live := f.live ++ [(src, inst, heads, detail)] }) := safRests_of_saf rfl
      exact ⟨safRests_trans h0 h1, h2, fun h => h3 (hlive _ h)⟩
  · split
    · split
      · exact ⟨safRests_of_saf rfl, rfl, hlive _⟩
      · have ho := clearEntry_only s1 src
        have hregs : (clearEntry s1 src).regs = s1.regs := regs_of_onlyChanges ho (by decide)
        exact ⟨safRests_of_saf (ho.2 .saf (by decide)), hregs, fun h =>
          settled_of_same (hlive _ h) hregs (ho.2 .saf (by decide)) (clearEntry_requests s1 src)⟩
    · exact ⟨safRests_of_saf rfl, rfl, id⟩

theorem setLevel_on_live (s : State) (src inst heads detail : Nat)
    (hn : s.flt.live.any (fun e => e.1 == src && e.2.1 == inst) = false) :
    (setLevel s src inst heads detail true).flt.live = s.flt.live ++ [(src, inst, heads, detail)] := by
  have he : setLevel s src inst heads detail true
      = raise (modFlt s (fun f => { f with live := f.live ++ [(src, inst, heads, detail)] })) src heads detail := by
    simp [setLevel, hn]
  rw [he, raise_live]
  rfl

/-! ## SAFE_N (16 R556 to R558) -/

/-- SAFE_N holds every head at HUSK at least. -/
theorem stateCall_of_safeN {s : State} (h : s.saf.safeN = true) (k : Head) : 2 ≤ stateCall s k := by
  have hown : ∀ x, 2 ≤ ownCall s x := fun x => by
    unfold ownCall
    rw [h, Bool.or_true, Bool.true_or, if_pos rfl]
    exact le_trans (Nat.le_max_left 2 _) (Nat.le_max_right _ _)
  unfold stateCall
  split
  · exact le_trans (hown .a) (Nat.le_max_left _ _)
  · exact hown k

theorem safeNOn_leaves {s : State} (h : s.saf.safeN = false) : (safeNOn s).saf.safeN = true ∧ Settled (safeNOn s)
    ∧ (fltJudges s = true → s.flt.live.any (fun e => e.1 == 52 && e.2.1 == 0) = false → (safeNOn s).flt.sticky.getLsbD 52 = true) := by
  have hset := settle_leaves (modSaf s fun e => { e with safeN := true })
  obtain ⟨e1, e2, e3, e4⟩ := hset
  obtain ⟨l1, l2, l3⟩ := setLevel_leaves (settle (modSaf s fun e => { e with safeN := true })) 52 0 3 0 true
  have hw := wake_only (setLevel (settle (modSaf s fun e => { e with safeN := true })) 52 0 3 0 true) 3
  have he : safeNOn s = wake (setLevel (settle (modSaf s fun e => { e with safeN := true })) 52 0 3 0 true) 3 := by
    rw [safeNOn, h, if_neg Bool.false_ne_true]
  have hrest := safRests_trans e1 (safRests_trans l1 (safRests_of_only hw (by decide)))
  rw [he]
  refine ⟨by rw [hrest.saf]; rfl, settled_of_only (l3 e4) hw (by decide) (by decide) (by decide), fun hj hn => ?_⟩
  rw [sticky_of_onlyChanges hw (by decide)]
  refine setLevel_sticky_self _ _ _ _ _ ((fltJudges_settle _).trans hj) (by decide) ?_
  rw [e3]
  exact hn

theorem safeNOff_leaves {s : State} (h : s.saf.safeN = true) : (safeNOff s).saf.safeN = false ∧ Settled (safeNOff s)
    ∧ (safeNOff s).flt.sticky = s.flt.sticky ∧ (safeNOff s).flt.live = s.flt.live.filter (fun e => !(e.1 == 52 && e.2.1 == 0)) := by
  obtain ⟨e1, e2, e3, e4⟩ := settle_leaves (modSaf s fun e => { e with safeN := false })
  obtain ⟨l1, l2, l3⟩ := setLevel_leaves (settle (modSaf s fun e => { e with safeN := false })) 52 0 3 0 false
  obtain ⟨f1, f2⟩ := setLevel_off_flt (settle (modSaf s fun e => { e with safeN := false })) 52 0 3 0
  have he : safeNOff s = setLevel (settle (modSaf s fun e => { e with safeN := false })) 52 0 3 0 false := by
    rw [safeNOff, h, if_pos rfl]
  rw [he]
  refine ⟨by rw [(safRests_trans e1 l1).saf]; rfl, l3 e4, f1.trans (by rw [e3]; rfl), f2.trans (by rw [e3]; rfl)⟩

/-! ## Clearing by itself (16 R558) -/

/-- The sticky bits that stand on a condition. -/
def heldBy (s : State) : DWord :=
  (List.range 64).foldl (fun acc i => if conditionOf s i then acc ||| (1#64 <<< i) else acc) 0#64

theorem getLsbD_heldBy (s : State) {i : Nat} (hi : i < 64) : (heldBy s).getLsbD i = conditionOf s i := by
  have hfold : ∀ (n : Nat), n ≤ 64 → ∀ k, ((List.range n).foldl (fun acc i => if conditionOf s i then acc ||| (1#64 <<< i) else acc)
      0#64).getLsbD k = (decide (k < n) && conditionOf s k) := fun n => by
    induction n with
    | zero => simp
    | succ n ih =>
      intro hn k
      rw [List.range_succ, List.foldl_append, List.foldl_cons, List.foldl_nil]
      have hk := ih (by omega) k
      split
      · next hc =>
        rw [BitVec.getLsbD_or, hk]
        by_cases hkn : k = n
        · subst hkn
          simp [hc, show k < 64 by omega]
        · by_cases hlt : k < n
          · simp [hlt, show k < n + 1 by omega]
          · have h1 : (1#64 <<< n).getLsbD k = false := by
              simp [BitVec.getLsbD_shiftLeft]
              omega
            simp [hlt, show ¬ k < n + 1 by omega, h1]
      · next hc =>
        rw [hk]
        by_cases hkn : k = n
        · subst hkn
          simp [hc]
        · simp [show (k < n + 1) = (k < n) from propext (by omega)]
  rw [heldBy, hfold 64 (le_refl _) i]
  simp [hi]

/-- Clearing the bit of a source whose condition is false clears it alone. -/
theorem clearSticky_leaves {s : State} {src : Nat} (hs : src < 64) (hc : conditionOf s src = false) :
    (clearSticky s (1#64 <<< src)).flt.sticky.getLsbD src = false
      ∧ (∀ i, i ≠ src → (clearSticky s (1#64 <<< src)).flt.sticky.getLsbD i = s.flt.sticky.getLsbD i)
      ∧ Settled (clearSticky s (1#64 <<< src)) := by
  have hst : (clearSticky s (1#64 <<< src)).flt.sticky = s.flt.sticky &&& ~~~((1#64 <<< src) &&& ~~~(heldBy s)) := by
    unfold clearSticky
    rw [(settle_leaves _).2.2.1]
    rfl
  refine ⟨?_, fun i hi => ?_, (settle_leaves _).2.2.2⟩
  · rw [hst]
    have hb : (1#64 <<< src).getLsbD src = true := by simp [hs]
    rw [BitVec.getLsbD_and, BitVec.getLsbD_not, BitVec.getLsbD_and, BitVec.getLsbD_not, getLsbD_heldBy s hs, hc, hb]
    simp [hs]
  · rw [hst]
    by_cases h64 : i < 64
    · have h1 : (1#64 <<< src).getLsbD i = false := by
        simp [BitVec.getLsbD_shiftLeft]
        omega
      rw [BitVec.getLsbD_and, BitVec.getLsbD_not, BitVec.getLsbD_and, h1]
      simp [h64]
    · simp [BitVec.getLsbD_of_ge _ _ (Nat.le_of_not_lt h64)]

/-! ## Heartbeat and watchdogs (16 R560 to R563) -/

theorem writeHb_bad {s : State} {v : Word} (ha : s.saf.hbAny = true) (hv : fld v 15 0 ≠ (regFld s 0x13040 15 0 + 1) % 65536) :
    writeHb s v = modSaf s fun e => { e with hbBad := satAdd 255 e.hbBad 1 } := by
  simp [writeHb, ha, hv]

theorem writeHb_taken {s : State} {v : Word} (h : s.saf.hbAny = false ∨ fld v 15 0 = (regFld s 0x13040 15 0 + 1) % 65536) :
    writeHb s v = setLevel (modSaf (setRegAt s 0x13040 (at_ 0 (fld v 15 0))) fun e => { e with hbAny := true, hbSup := true })
      12 0 3 0 false := by
  unfold writeHb
  dsimp only
  rw [if_neg (by rcases h with h | h <;> simp [h])]

theorem fld_at (v : Word) : fld (at_ 0 (fld v 15 0)) 15 0 = fld v 15 0 := by
  have hlt : fld v 15 0 < 65536 := Nat.mod_lt _ (by decide)
  rw [at_, pow_zero, mul_one]
  generalize fld v 15 0 = n at hlt ⊢
  rw [fld, BitVec.toNat_ofNat]
  change n % 2 ^ 32 / 2 ^ 0 % 2 ^ 16 = n
  omega

theorem writeHb_leaves {s : State} {v : Word} (h : s.saf.hbAny = false ∨ fld v 15 0 = (regFld s 0x13040 15 0 + 1) % 65536) :
    (writeHb s v).regs = (setRegAt s 0x13040 (at_ 0 (fld v 15 0))).regs
      ∧ (writeHb s v).saf = { s.saf with hbAny := true, hbSup := true }
      ∧ (writeHb s v).flt.live = s.flt.live.filter (fun e => !(e.1 == 12 && e.2.1 == 0))
      ∧ (writeHb s v).flt.sticky = s.flt.sticky := by
  have hoff := setLevel_off_only (modSaf (setRegAt s 0x13040 (at_ 0 (fld v 15 0))) fun e => { e with hbAny := true, hbSup := true })
    12 0 3 0
  obtain ⟨f1, f2⟩ := setLevel_off_flt (modSaf (setRegAt s 0x13040 (at_ 0 (fld v 15 0))) fun e => { e with hbAny := true, hbSup := true })
    12 0 3 0
  rw [writeHb_taken h]
  exact ⟨(regs_of_onlyChanges hoff (by decide)).trans rfl, hoff.2 .saf (by decide), f2, f1⟩

/-- The mark that a watchdog leaves on the heads, before its source is asserted. -/
def watchdogMarked (s : State) (i : Nat) : State :=
  let s1 := modSaf s (fun e => { e with wdg := setNBit e.wdg i true })
  if i = 4 then modSafHead s1 .a (fun e => { e with wdLow := true })
  else if i = 5 then modSafHead s1 .b (fun e => { e with wdLow := true }) else s1

theorem watchdogExpires_eq {s : State} {i : Nat} (hl : ctrlLive s = true) (hw : watched s i = true) :
    watchdogExpires s i = raise (watchdogMarked s i) 51 3 i := by
  simp [watchdogExpires, hl, hw, watchdogMarked]

theorem watchdogMarked_leaves (s : State) (i : Nat) : (watchdogMarked s i).saf.wdg = setNBit s.saf.wdg i true
    ∧ fltJudges (watchdogMarked s i) = fltJudges s ∧ (i = 4 → ((watchdogMarked s i).saf.heads.get .a).wdLow = true)
    ∧ (i = 5 → ((watchdogMarked s i).saf.heads.get .b).wdLow = true) := by
  unfold watchdogMarked
  dsimp only
  split
  · next h4 => exact ⟨rfl, rfl, fun _ => by rw [get_modSafHead, if_pos rfl], fun h5 => by omega⟩
  · next h4 =>
    split
    · exact ⟨rfl, rfl, fun h => absurd h h4, fun _ => by rw [get_modSafHead, if_pos rfl]⟩
    · next h5 => exact ⟨rfl, rfl, fun h => absurd h h4, fun h => absurd h h5⟩

theorem lenForced_of_wdLow {s : State} {h : Head} (hw : (s.saf.heads.get h).wdLow = true) : lenForced s h = true := by
  rw [lenForced, hw, Bool.or_true, Bool.true_or]

/-- Settles O42: each input by what it changes in the safety functions, and the assertion that follows. -/
theorem safetyInputs : Obligations.SafetyInputs := by
  unfold Obligations.SafetyInputs
  refine ⟨fun s h => ?_, fun s h => ?_, fun s src hl hc hsrc => ?_, fun s b v h => ⟨fun ha hv => ?_, fun hok => ?_⟩,
    fun s hl => ⟨fun hi => ?_, fun hs ht hn => ?_⟩, fun s i hl hw => ?_⟩
  · obtain ⟨c, ho⟩ := inOneCycle_window (fun s => safeNOn s) s
    obtain ⟨h1, h2, h3⟩ := safeNOn_leaves (s := inCycle c s) h
    have hsaf : (inOneCycle (fun s => safeNOn s) s).saf = (safeNOn (inCycle c s)).saf := ho.2 .saf (by decide)
    have hset : Settled (inOneCycle (fun s => safeNOn s) s) := settled_of_only h2 ho (by decide) (by decide) (by decide)
    have hn : (inOneCycle (fun s => safeNOn s) s).saf.safeN = true := by rw [hsaf, h1]
    refine ⟨_, rfl, hn, fun k => ⟨hset k, ?_⟩, fun hj hlive => ?_⟩
    · rw [hset k]
      exact stateCall_of_safeN hn k
    · rw [sticky_of_onlyChanges ho (by decide)]
      exact h3 hj hlive
  · obtain ⟨h1, h2, h3, h4⟩ := safeNOff_leaves h
    exact ⟨_, rfl, h1, h2, h3, h4⟩
  · have h64 : src < 64 := by rcases hsrc with ⟨rfl, -⟩ | ⟨rfl, -⟩ <;> decide
    have hgo : autoClear s src = clearSticky s (1#64 <<< src) := by
      rcases hsrc with ⟨rfl, hf⟩ | ⟨rfl, hf⟩ <;> simp [autoClear, hl, hc, hf]
    obtain ⟨h1, h2, h3⟩ := clearSticky_leaves h64 hc
    refine ⟨_, rfl, ?_⟩
    rw [hgo]
    exact ⟨h1, h2, h3⟩
  · obtain ⟨c, t, ht, ho⟩ := writeAlone_window h (by decide) (open_hb s) (fun u => route_hb u v)
    have hat := atWindow_only b (0x13040 / 4) c s
    rw [writeHb_bad (by simpa using ha) (by rw [regFld_atWindow]; exact hv)] at ho
    refine ⟨t, ht, (ho.2 .saf (by decide)).trans ?_, getReg_of_regs ((regs_of_onlyChanges ho (by decide)).trans ?_), ?_⟩
    · simp [modSaf]
    · simp [modSaf]
    · exact (live_of_onlyChanges ho (by decide)).trans (live_of_onlyChanges hat (by decide) :)
  · obtain ⟨c, t, ht, ho⟩ := writeAlone_window h (by decide) (open_hb s) (fun u => route_hb u v)
    have hat := atWindow_only b (0x13040 / 4) c s
    obtain ⟨h1, h2, h3, h4⟩ := writeHb_leaves (s := atWindow b (0x13040 / 4) c s) (v := v) (by rw [regFld_atWindow]; simpa using hok)
    obtain ⟨hv, hothers⟩ := written_of_regs (s := s) (a := 0x13040)
      ((regs_of_onlyChanges ho (by decide)).trans (h1.trans (setRegAt_regs_of_regs (by simp) _ _)))
    refine ⟨t, ht, by rw [regFld, hv, fld_at], hothers, (ho.2 .saf (by decide)).trans (h2.trans (by simp)), ?_, ?_⟩
    · rw [live_of_onlyChanges ho (by decide), h3, live_of_onlyChanges hat (by decide)]
    · rw [sticky_of_onlyChanges ho (by decide), h4, sticky_of_onlyChanges hat (by decide)]
  · refine ⟨_, rfl, ?_⟩
    cases hs : s.saf.hbSup with
    | false => simp [hbGraceEnds, hl, hi, hs, modSaf]
    | true =>
      rw [hbGraceEnds, hs, Bool.not_true, Bool.and_false, if_neg Bool.false_ne_true, ← hs]
  · obtain ⟨c, ho⟩ := inOneCycle_window (fun s => hbTimesOut s) s
    have he : hbTimesOut (inCycle c s) = setLevel (inCycle c s) 12 0 3 0 true := by
      have hl' : ctrlLive (inCycle c s) = true := hl
      have hs' : supervising (inCycle c s) = true := by
        rw [supervising, show (inCycle c s).saf.hbSup = true from hs, show hbTimeout (inCycle c s) = hbTimeout s from rfl]
        simpa using ht
      rw [hbTimesOut, hl', hs', Bool.and_self, if_pos rfl]
    rw [he] at ho
    refine ⟨_, rfl, ?_, fun hj => ?_⟩
    · rw [live_of_onlyChanges ho (by decide)]
      exact setLevel_on_live (inCycle c s) 12 0 3 0 hn
    · rw [sticky_of_onlyChanges ho (by decide)]
      exact setLevel_sticky_self _ _ _ _ _ hj (by decide) hn
  · obtain ⟨c, ho⟩ := inOneCycle_window (fun s => watchdogExpires s i) s
    rw [watchdogExpires_eq (s := inCycle c s) hl hw] at ho
    obtain ⟨h1, h2, h3, h4⟩ := watchdogMarked_leaves (inCycle c s) i
    obtain ⟨r1, -, -⟩ := raise_leaves (watchdogMarked (inCycle c s) i) 51 3 i
    have hrest := safRests_trans r1 (safRests_of_only ho (by decide))
    refine ⟨_, rfl, by rw [hrest.saf]; exact h1, fun hj => ?_, fun hi => ?_, fun hi => ?_⟩
    · rw [sticky_of_onlyChanges ho (by decide)]
      exact raise_sticky_self _ _ _ _ (h2.trans hj) (by decide)
    · exact lenForced_of_wdLow ((hrest.head .a).2.trans (h3 hi))
    · exact lenForced_of_wdLow ((hrest.head .b).2.trans (h4 hi))

end Sys2Proof.Machine
end

section
/-! SUPPORT. The safety configuration: what an image leaves in the registers that it governs, and how a session is opened,
committed and ended (16 R568 to R577). -/

namespace Sys2Proof.Machine

/-! ## The registers that an image governs (16 R571, R573) -/

/-- One governed register takes its image value. -/
def rwlPut (img : List Byte) (s : State) (e : Nat × Option Nat) : State :=
  setRegAt s e.1 (merge (regAt s e.1) (rwlValue img e) (rwlMask (e.1 / 4)))

theorem rwlWords_eq (s : State) (img : List Byte) : rwlWords s img = rwlPlaces.foldl (rwlPut img) (writeInj s 0#32) := rfl

theorem merge_and (old new m : Word) : merge old new m &&& m = new &&& m := by
  ext i
  simp only [merge, BitVec.getElem_and, BitVec.getElem_or, BitVec.getElem_not]
  cases old[i] <;> cases new[i] <;> cases m[i] <;> rfl

theorem foldl_rwlPut_other (img : List Byte) (a : Nat) (es : List (Nat × Option Nat)) (h : ∀ e ∈ es, e.1 / 4 ≠ a / 4) (s : State) :
    regAt (es.foldl (rwlPut img) s) a = regAt s a := by
  induction es generalizing s with
  | nil => rfl
  | cons e es ih =>
    rw [List.foldl_cons, ih fun x hx => h x (List.mem_cons_of_mem _ hx)]
    exact regAt_setRegAt_other _ _ (h e List.mem_cons_self).symm

theorem foldl_rwlPut_masked (img : List Byte) (es : List (Nat × Option Nat)) (hd : (es.map fun e => e.1 / 4).Nodup) (s : State) :
    ∀ e ∈ es, regAt (es.foldl (rwlPut img) s) e.1 &&& rwlMask (e.1 / 4) = rwlValue img e := by
  induction es generalizing s with
  | nil => exact fun e he => absurd he List.not_mem_nil
  | cons x xs ih =>
    obtain ⟨hx, hxs⟩ := List.nodup_cons.mp hd
    intro e he
    rcases List.mem_cons.mp he with rfl | he
    · have hne : ∀ y ∈ xs, y.1 / 4 ≠ e.1 / 4 := fun y hy hq => hx (List.mem_map.mpr ⟨y, hy, hq⟩)
      rw [List.foldl_cons, foldl_rwlPut_other img e.1 xs hne, rwlPut, regAt_setRegAt_same _ _ rfl, merge_and, rwlValue,
        BitVec.and_assoc, BitVec.and_self]
    · exact ih hxs _ e he

theorem rwlPlaces_distinct : (rwlPlaces.map fun e => e.1 / 4).Nodup := by decide

/-- Right after the image's values are written no governed register differs from its own. -/
theorem rwlDiffers_of_written {s t : State} {img : List Byte} (h : t.regs = (rwlWords s img).regs) : rwlDiffers t img = false := by
  unfold rwlDiffers
  refine List.any_eq_false.mpr fun e he => ?_
  have hreg : regAt t e.1 = regAt (rwlWords s img) e.1 := getReg_of_regs h _
  rw [hreg, rwlWords_eq, foldl_rwlPut_masked img rwlPlaces rwlPlaces_distinct _ e he, bne_self_eq_false]
  exact Bool.false_ne_true

theorem rwlDiffers_of_regs {s t : State} (h : t.regs = s.regs) (img : List Byte) : rwlDiffers t img = rwlDiffers s img := by
  unfold rwlDiffers regAt getReg
  rw [h]

/-- Disarming FLT_INJ leaves of the safety functions all but the heads' states. -/
theorem writeInj_disarm_saf (s : State) : SafRests s (writeInj s 0#32) := by
  have hset : ∀ w, SafRests s (setRegAt s 0x12080 w) := fun _ => safRests_of_saf rfl
  unfold writeInj
  extract_lets w
  rw [if_pos (by decide)]
  exact safRests_trans (hset w) (setLevel_leaves ..).1

theorem rwlWords_saf (s : State) (img : List Byte) : SafRests s (rwlWords s img) := by
  have ho : onlyChanges [.regs] (writeInj s 0#32) (rwlWords s img) :=
    foldl_only (onlyChanges_refl _ _) fun _ _ => setRegAt_only ..
  exact safRests_trans (writeInj_disarm_saf s) (safRests_of_only ho (by decide))

theorem writeRwl_leaves (s : State) (img : List Byte) : SafRests s (writeRwl s img) ∧ rwlDiffers (writeRwl s img) img = false := by
  have ho := echoSettle_only s (rwlWords s img)
  exact ⟨safRests_trans (rwlWords_saf s img) (safRests_of_only ho (by decide)),
    rwlDiffers_of_written (regs_of_onlyChanges ho (by decide))⟩

/-! ## Sessions (16 R572, R575, R576) -/

/-- An open session that ends puts the image's values back, and nothing of the image changes. -/
theorem endSession_leaves {s : State} {img : List Byte} (hu : s.saf.unlocked = true) (hi : s.saf.image = some img) :
    (endSession s true).saf.unlocked = false ∧ (endSession s true).saf.committing = false ∧ (endSession s true).saf.image = some img
      ∧ rwlDiffers (endSession s true) img = false := by
  let s0 := if s.saf.committing then commitLeaves s else s
  let s1 := modSaf s0 (fun e => { e with unlocked := false, committing := false })
  have h0 : s0.saf = s.saf := by
    unfold s0
    split
    · exact (commitLeaves_only s).2 .saf (by decide)
    · rfl
  have himg : s1.saf.image = some img := (congrArg Saf.image h0).trans hi
  have he : endSession s true = logNote (writeRwl s1 img) 2 := by
    unfold endSession
    rw [hu]
    change logNote (match s1.saf.image with
      | some img => writeRwl s1 img
      | none => writeInj s1 0#32) 2 = _
    rw [himg]
  obtain ⟨hsaf, hdiff⟩ := writeRwl_leaves s1 img
  have hnote := logNote_only (writeRwl s1 img) 2
  have hend := (safRests_trans hsaf (safRests_of_only hnote (by decide))).saf
  rw [he]
  refine ⟨(congrArg Saf.unlocked hend).trans rfl, (congrArg Saf.committing hend).trans rfl, (congrArg Saf.image hend).trans himg, ?_⟩
  rw [rwlDiffers_of_regs (regs_of_onlyChanges hnote (by decide)), hdiff]

theorem endSession_of_closed {s : State} (h : s.saf.unlocked = false) (note : Bool) : endSession s note = s := if_pos (by rw [h]; rfl)

theorem sessionOpen_lockedOut {s : State} (h : s.saf.lockout = true) :
    (sessionOpen s).saf = { s.saf with unlockRefused := true } := by
  rw [sessionOpen, if_pos h]
  rfl

section Open

variable {s : State} (hl : s.saf.lockout = false) (hu : s.saf.unlocked = false)

include hl hu

theorem sessionOpen_noImage (hi : s.saf.image = none) : (sessionOpen s).saf = { s.saf with unlocked := true, failures := 0 } := by
  unfold sessionOpen
  rw [hl, hu, if_neg Bool.false_ne_true, if_neg Bool.false_ne_true, hi]
  rfl

theorem sessionOpen_password {img : List Byte} (hi : s.saf.image = some img) (hp : passwordOk s img = true) :
    (sessionOpen s).saf = { s.saf with unlocked := true, failures := 0 } := by
  unfold sessionOpen
  rw [hl, hu, if_neg Bool.false_ne_true, if_neg Bool.false_ne_true, hi]
  dsimp only
  rw [if_pos hp]
  rfl

theorem sessionOpen_wrongPassword {img : List Byte} (hi : s.saf.image = some img) (hp : passwordOk s img = false)
    (hf : s.saf.failures < 3) : (sessionOpen s).saf
      = { s.saf with unlockRefused := true, failures := s.saf.failures + 1, lockout := decide (s.saf.failures = 2) } := by
  have hlock : decide (3 ≤ s.saf.failures + 1) = decide (s.saf.failures = 2) := by
    rw [decide_eq_decide]
    omega
  have hsaf : ∀ u : State, (if 3 ≤ s.saf.failures + 1 then logNote u 3 else u).saf = u.saf := fun u => by
    split
    · exact (logNote_only u 3).2 .saf (by decide)
    · rfl
  unfold sessionOpen
  rw [hl, hu, if_neg Bool.false_ne_true, if_neg Bool.false_ne_true, hi]
  dsimp only
  rw [if_neg (fun h : passwordOk s img = true => Bool.false_ne_true (hp.symm.trans h)), if_neg (by omega : ¬3 ≤ s.saf.failures)]
  refine (hsaf _).trans ?_
  rw [← hlock]
  rfl

end Open

theorem sessionCommit_closed {s : State} (h : s.saf.unlocked = false) :
    (sessionCommit s).saf = { s.saf with committing := false, commitError := true, commitReason := 1 } := by
  rw [sessionCommit, if_pos (by rw [h]; rfl)]
  rfl

theorem sessionCommit_open {s : State} (h : s.saf.unlocked = true) : (sessionCommit s).saf = { s.saf with committing := true } := by
  rw [sessionCommit, if_neg (by rw [h]; exact Bool.false_ne_true)]
  split
  · next hc =>
    conv_rhs => rw [← hc]
  · exact (kpsRequest_only _ _).2 .saf (by decide)

/-! ## The commit's check (16 R577) -/

/-- A programming operation that is the commit itself leaves the store as reads find it. -/
theorem lastView_commit {s : State} (h : s.kps.current = some .commit) : lastView s = modKps s (fun k => { k with current := none }) := by
  rw [lastView, h]
  rfl

theorem safecfgCopy_inCycle {s : State} (h : s.kps.current = some .commit) (c : Option (Nat × Bool)) (n : Nat) :
    safecfgCopy (inCycle c s) n = safecfgCopy s n := by
  rw [safecfgCopy, lastBytes, lastView_commit (s := inCycle c s) h, safecfgCopy, lastBytes, lastView_commit h]
  rfl

theorem copyFault_inCycle {s : State} (h : s.kps.current = some .commit) (c : Option (Nat × Bool)) (n : Nat) :
    copyFault (inCycle c s) n = copyFault s n := by
  have hread : ∀ a k, lastReadable (inCycle c s) a k = lastReadable s a k := fun a k => by
    rw [lastReadable, lastView_commit (s := inCycle c s) h, lastReadable, lastView_commit h]
    rfl
  unfold copyFault
  rw [safecfgCopy_inCycle h, hread]
  rfl

theorem copyToCommit_inCycle {s : State} (h : s.kps.current = some .commit) (c : Option (Nat × Bool)) :
    copyToCommit (inCycle c s) = copyToCommit s := by
  unfold copyToCommit
  rw [copyFault_inCycle h, copyFault_inCycle h]
  rfl

theorem sessionCommitEnd_runs {s : State} (hl : ctrlLive s = true) (hc : s.saf.committing = true) (hu : s.saf.unlocked = true)
    (hk : s.kps.current = some .commit) (ok : Bool) : (sessionCommitEnd s ok).saf = (commitCheckEnds s ok).saf := by
  rw [sessionCommitEnd, if_neg (by rw [hc, hu, hl, hk]; decide)]
  exact (commitLeaves_only _).2 .saf (by decide)

theorem commitCheckEnds_fault {s : State} {r : Nat} (h : copyFault s (copyToCommit s) = some r) (ok : Bool) :
    (commitCheckEnds s ok).saf = { s.saf with committing := false, commitError := true, commitReason := r } := by
  unfold commitCheckEnds
  dsimp only
  rw [h]
  rfl

theorem commitCheckEnds_unwritten {s : State} (h : copyFault s (copyToCommit s) = none) :
    (commitCheckEnds s false).saf = { s.saf with committing := false, commitError := true, commitReason := 5 } := by
  unfold commitCheckEnds
  dsimp only
  rw [h]
  rfl

/-- Of the safety functions the heads alone may differ. -/
structure HeadsOnly (s t : State) : Prop where
  saf : t.saf = { s.saf with heads := t.saf.heads }

theorem headsOnly_trans {s t u : State} (h : HeadsOnly s t) (k : HeadsOnly t u) : HeadsOnly s u := ⟨k.saf.trans (by rw [h.saf])⟩

theorem headsOnly_of_saf {s t : State} (h : t.saf = s.saf) : HeadsOnly s t := ⟨by rw [h]⟩

theorem headsOnly_of_rests {s t : State} (h : SafRests s t) : HeadsOnly s t := ⟨h.saf⟩

theorem headsOnly_of_only {ps : List Part} {s t : State} (h : onlyChanges ps s t) (hp : Part.saf ∉ ps) : HeadsOnly s t :=
  headsOnly_of_saf (h.2 .saf hp)

theorem headsOnly_blocksNow (s : State) : HeadsOnly s (blocksNow s) := by
  refine foldl_inv (fun t => HeadsOnly s t) _ _ s ⟨rfl⟩ fun t h ht => ?_
  split
  · have hb : HeadsOnly t (blockApply t h) := ⟨rfl⟩
    have hh : HeadsOnly (blockApply t h) (headroomApply (blockApply t h) h) := ⟨rfl⟩
    exact headsOnly_trans ht (headsOnly_trans hb hh)
  · exact ht

/-- An image that comes into force is in force, whole. -/
theorem headsOnly_imageNow (s : State) (img : List Byte) (copy : Nat) :
    HeadsOnly (modSaf s fun e => { e with image := some img, copy := copy, imageBad := false }) (imageNow s img copy) := by
  unfold imageNow
  extract_lets s1
  refine headsOnly_trans (headsOnly_of_only (raiseToFloors_only s1) (by decide)) ?_
  refine headsOnly_trans (headsOnly_of_rests (rwlWords_saf _ img)) ?_
  refine headsOnly_trans (headsOnly_blocksNow _) ?_
  refine headsOnly_trans (headsOnly_of_rests (settle_leaves _).1) ?_
  exact headsOnly_of_only (echoSettle_only s1 _) (by decide)

theorem judgeIntegrity_leaves (s : State) : SafRests s (judgeIntegrity s) ∧ (judgeIntegrity s).regs = s.regs := by
  obtain ⟨h1, h2, -⟩ := setLevel_leaves s 53 0 3 0 (integrityBad s)
  exact ⟨h1, h2⟩

/-- A commit that passes its check and is written puts the copy into force and ends the session. -/
theorem commitCheckEnds_passes {s : State} (h : copyFault s (copyToCommit s) = none) :
    (commitCheckEnds s true).saf.image = some (safecfgCopy s (copyToCommit s))
      ∧ (commitCheckEnds s true).saf.copy = copyToCommit s ∧ (commitCheckEnds s true).saf.unlocked = false
      ∧ (commitCheckEnds s true).saf.committing = false ∧ (commitCheckEnds s true).saf.imageBad = false := by
  obtain ⟨u, hu1, hu2, hu⟩ : ∃ u : State, u.saf.unlocked = false ∧ u.saf.committing = false
      ∧ commitCheckEnds s true = judgeIntegrity (imageNow u (safecfgCopy s (copyToCommit s)) (copyToCommit s)) := by
    unfold commitCheckEnds
    dsimp only
    rw [h]
    exact ⟨_, rfl, rfl, rfl⟩
  have hend := (headsOnly_trans (headsOnly_imageNow u (safecfgCopy s (copyToCommit s)) (copyToCommit s))
    (headsOnly_of_rests (judgeIntegrity_leaves _).1)).saf
  rw [hu]
  exact ⟨(congrArg Saf.image hend).trans rfl, (congrArg Saf.copy hend).trans rfl, (congrArg Saf.unlocked hend).trans hu1,
    (congrArg Saf.committing hend).trans hu2, (congrArg Saf.imageBad hend).trans rfl⟩

/-! ## The stored image's check (16 R571) -/

theorem integrityBad_congr {s t : State} (hs : HeadsOnly s t) (hr : t.regs = s.regs) : integrityBad t = integrityBad s := by
  have hdiff : rwlDiffers t = rwlDiffers s := funext fun img => rwlDiffers_of_regs hr img
  have himg := congrArg Saf.image hs.saf
  have hbad := congrArg Saf.imageBad hs.saf
  have hopen := congrArg Saf.unlocked hs.saf
  dsimp only at himg hbad hopen
  unfold integrityBad
  rw [himg, hbad, hopen, hdiff]

theorem integrityCheck_leaves {s : State} (hl : ctrlLive s = true) (upset : Bool) :
    (integrityCheck s upset).saf.imageBad = (upset && s.saf.image.isSome) ∧ (integrityCheck s upset).saf.image = s.saf.image
      ∧ (integrityBad (integrityCheck s upset) = true → fltJudges s = true → s.flt.live.any (fun e => e.1 == 53 && e.2.1 == 0) = false →
        (integrityCheck s upset).flt.sticky.getLsbD 53 = true) := by
  let s1 := modSaf s (fun e => { e with imageBad := upset && e.image.isSome })
  have he : integrityCheck s upset = judgeIntegrity s1 := if_pos hl
  obtain ⟨hsaf, hregs⟩ := judgeIntegrity_leaves s1
  rw [he]
  refine ⟨(congrArg Saf.imageBad hsaf.saf).trans rfl, (congrArg Saf.image hsaf.saf).trans rfl, fun hb hj hn => ?_⟩
  rw [integrityBad_congr (headsOnly_of_rests hsaf) hregs] at hb
  rw [judgeIntegrity, hb]
  exact setLevel_sticky_self _ _ _ _ _ hj (by decide) hn

/-! ## The statement -/

/-- A write of SAF_UNLOCK that reaches it runs in its window, and only its answer follows it in the safety functions and the
registers. -/
theorem unlockWrite_leaves {s : State} {b : Bus} (h : reaches s b 0x1300C = true) (v : Word) :
    ∃ c t, writeAlone b 0x1300C v s = .next t ∧ t.saf = (writeUnlock (atWindow b (0x1300C / 4) c s) v).saf
      ∧ t.regs = (writeUnlock (atWindow b (0x1300C / 4) c s) v).regs := by
  obtain ⟨c, t, ht, ho⟩ := writeAlone_window (v := v) h (by decide) (open_unlock s) (fun u => route_unlock u v)
  exact ⟨c, t, ht, ho.2 .saf (by decide), regs_of_onlyChanges ho (by decide)⟩

theorem passwordOk_atWindow (b : Bus) (idx : Nat) (c : Option (Nat × Bool)) (s : State) (img : List Byte) :
    passwordOk (atWindow b idx c s) img = passwordOk s img := by simp [passwordOk, fuseOf]

/-- Settles O43: each command by what it leaves of the safety functions, an ended session by the image's values put back. -/
theorem configSessions : Obligations.ConfigSessions := by
  unfold Obligations.ConfigSessions
  refine ⟨fun s b h => ⟨fun hl => ?_, fun hl hu => ⟨fun img hi => ⟨fun hp => ?_, fun hp hf => ?_⟩, fun hi => ?_⟩, fun hu => ?_,
    fun hu => ⟨?_, ?_⟩, fun img hu hi => ?_⟩, fun s img hl hu hi => ?_, fun s hl hc hu hk => ?_, fun s hl => ⟨⟨_, rfl, ?_⟩, fun upset => ?_⟩⟩
  · obtain ⟨c, t, ht, hsaf, -⟩ := unlockWrite_leaves h 1#32
    refine ⟨t, ht, hsaf.trans ((sessionOpen_lockedOut ?_).trans ?_)⟩ <;> simp [hl]
  · obtain ⟨c, t, ht, hsaf, -⟩ := unlockWrite_leaves h 1#32
    refine ⟨t, ht, hsaf.trans ((sessionOpen_password (img := img) ?_ ?_ ?_ ?_).trans ?_)⟩ <;> simp [hl, hu, hi, hp, passwordOk_atWindow]
  · obtain ⟨c, t, ht, hsaf, -⟩ := unlockWrite_leaves h 1#32
    refine ⟨t, ht, hsaf.trans ((sessionOpen_wrongPassword (img := img) ?_ ?_ ?_ ?_ ?_).trans ?_)⟩ <;>
      simp [hl, hu, hi, hp, hf, passwordOk_atWindow]
  · obtain ⟨c, t, ht, hsaf, -⟩ := unlockWrite_leaves h 1#32
    refine ⟨t, ht, hsaf.trans ((sessionOpen_noImage ?_ ?_ ?_).trans ?_)⟩ <;> simp [hl, hu, hi]
  · obtain ⟨c, t, ht, hsaf, -⟩ := unlockWrite_leaves h 2#32
    refine ⟨t, ht, hsaf.trans ((sessionCommit_open ?_).trans ?_)⟩ <;> simp [hu]
  · obtain ⟨c, t, ht, hsaf, -⟩ := unlockWrite_leaves h 2#32
    refine ⟨t, ht, hsaf.trans ((sessionCommit_closed ?_).trans ?_)⟩ <;> simp [hu]
  · obtain ⟨c, t, ht, hsaf, hregs⟩ := unlockWrite_leaves h 3#32
    have hstay : writeUnlock (atWindow b (0x1300C / 4) c s) 3#32 = atWindow b (0x1300C / 4) c s := endSession_of_closed (by simp [hu]) true
    rw [hstay] at hsaf hregs
    exact ⟨t, ht, hsaf.trans (by simp), getReg_of_regs (hregs.trans (by simp))⟩
  · obtain ⟨c, t, ht, hsaf, hregs⟩ := unlockWrite_leaves h 3#32
    obtain ⟨e1, e2, e3, e4⟩ := endSession_leaves (s := atWindow b (0x1300C / 4) c s) (img := img) (by simp [hu]) (by simp [hi])
    exact ⟨t, ht, hsaf ▸ e1, hsaf ▸ e2, hsaf ▸ e3, (rwlDiffers_of_regs hregs img).trans e4⟩
  · obtain ⟨e1, e2, e3, e4⟩ := endSession_leaves hu hi
    exact ⟨endSession s true, congrArg _ (if_pos hl), e1, e2, e3, e4⟩
  · have hrun : ∀ ok, ∃ c, (inOneCycle (fun s => sessionCommitEnd s ok) s).saf = (commitCheckEnds (inCycle c s) ok).saf := fun ok => by
      obtain ⟨c, ho⟩ := inOneCycle_window (fun s => sessionCommitEnd s ok) s
      exact ⟨c, (ho.2 .saf (by decide)).trans (sessionCommitEnd_runs (s := inCycle c s) hl hc hu hk ok)⟩
    have hfault : ∀ c, copyFault (inCycle c s) (copyToCommit (inCycle c s)) = copyFault s (copyToCommit s) := fun c => by
      rw [copyToCommit_inCycle hk, copyFault_inCycle hk]
    refine ⟨fun r ok hf => ?_, fun hf => ⟨?_, ?_⟩⟩
    · obtain ⟨c, hsaf⟩ := hrun ok
      exact ⟨_, rfl, hsaf.trans (commitCheckEnds_fault ((hfault c).trans hf) ok)⟩
    · obtain ⟨c, hsaf⟩ := hrun false
      exact ⟨_, rfl, hsaf.trans (commitCheckEnds_unwritten ((hfault c).trans hf))⟩
    · obtain ⟨c, hsaf⟩ := hrun true
      have hend := commitCheckEnds_passes ((hfault c).trans hf)
      rw [safecfgCopy_inCycle hk, copyToCommit_inCycle hk, ← hsaf] at hend
      exact ⟨_, rfl, hend⟩
  · rw [if_pos hl]
    rfl
  · obtain ⟨c, ho⟩ := inOneCycle_window (fun s => integrityCheck s upset) s
    obtain ⟨e1, e2, e3⟩ := integrityCheck_leaves (s := inCycle c s) hl upset
    have hsaf := ho.2 .saf (by decide)
    refine ⟨_, rfl, (congrArg Saf.imageBad hsaf).trans e1, (congrArg Saf.image hsaf).trans e2, fun hb hj hn => ?_⟩
    rw [sticky_of_onlyChanges ho (by decide)]
    refine e3 ?_ hj hn
    rw [← hb]
    exact (integrityBad_congr (headsOnly_of_only ho (by decide)) (regs_of_onlyChanges ho (by decide))).symm

end Sys2Proof.Machine
end

section
/-! SUPPORT. What a read of the keeping store turns on: the bytes, the tags and the unreadable words of its sectors, with the
operation that its writer has in hand (20 R661, R664, R673). -/

namespace Sys2Proof.Machine

/-! ## The sectors' contents -/

/-- The sectors' bytes, tags and unreadable words are the same. -/
structure StoreAlike (s t : State) : Prop where
  data : t.kps.data = s.kps.data
  sectors : t.kps.sectors = s.kps.sectors
  badWords : t.kps.badWords = s.kps.badWords

theorem storeAlike_of_kps {s t : State} (h : t.kps = s.kps) : StoreAlike s t := by constructor <;> rw [h]

theorem storeAlike_of_only {ps : List Part} {s t : State} (h : onlyChanges ps s t) (hp : Part.kps ∉ ps) : StoreAlike s t :=
  storeAlike_of_kps (h.2 .kps hp)

theorem storeAlike_trans {s t u : State} (h : StoreAlike s t) (k : StoreAlike t u) : StoreAlike s u :=
  ⟨k.data.trans h.data, k.sectors.trans h.sectors, k.badWords.trans h.badWords⟩

theorem storeAlike_symm {s t : State} (h : StoreAlike s t) : StoreAlike t s := ⟨h.data.symm, h.sectors.symm, h.badWords.symm⟩

theorem storeAlike_ite {p : Prop} [Decidable p] {s t u : State} (h : StoreAlike s t) (k : StoreAlike s u) :
    StoreAlike s (if p then t else u) := by split <;> assumption

theorem sectorOf_alike {s t : State} (h : StoreAlike s t) : sectorOf t = sectorOf s := by
  funext p
  rw [sectorOf, h.sectors, sectorOf]

theorem servingSector_alike {s t : State} (h : StoreAlike s t) : servingSector t = servingSector s := by
  funext l
  unfold servingSector
  rw [h.sectors]

theorem storedBytes_alike {s t : State} (h : StoreAlike s t) (a n : Nat) : storedBytes t a n = storedBytes s a n := by
  unfold storedBytes
  rw [servingSector_alike h, h.data]

theorem storedReadable_alike {s t : State} (h : StoreAlike s t) (a n : Nat) : storedReadable t a n = storedReadable s a n := by
  unfold storedReadable wordsMet
  rw [servingSector_alike h, h.badWords]

/-! ## What leaves the sectors' contents alone -/

theorem storeAlike_kpsTake (s : State) : StoreAlike s (kpsTake s) := by
  have hwork : ∀ u ring slot n, StoreAlike u (stageWork u ring slot n) := fun u ring slot n =>
    storeAlike_of_only (stageWork_only u ring slot n) (by decide)
  unfold kpsTake
  extract_lets _ _ s0
  split
  · refine storeAlike_ite ?_ ⟨rfl, rfl, rfl⟩
    extract_lets s1
    have h0 : StoreAlike s s0 := by
      unfold s0
      split <;> exact ⟨rfl, rfl, rfl⟩
    have h1 : StoreAlike s0 s1 := ⟨rfl, rfl, rfl⟩
    split
    · exact storeAlike_trans (storeAlike_trans h0 h1) (hwork ..)
    · exact storeAlike_trans h0 h1
  · exact ⟨rfl, rfl, rfl⟩

theorem storeAlike_kpsRequest (s : State) (o : KpsOp) : StoreAlike s (kpsRequest s o) :=
  storeAlike_trans (t := modKps s fun k => { k with waiting := k.waiting ++ [o] }) ⟨rfl, rfl, rfl⟩ (storeAlike_kpsTake _)

theorem storeAlike_cblRecord (s : State) (kind number target outcome : Nat) :
    StoreAlike s (cblRecord s kind number target outcome) := storeAlike_kpsRequest ..

theorem storeAlike_cblFind (s : State) (kind target : Nat) (pixels : List (Nat × Nat)) : StoreAlike s (cblFind s kind target pixels) := by
  unfold cblFind
  extract_lets s1
  have h1 : StoreAlike s s1 := storeAlike_of_only (raise_only ..) (by decide)
  refine storeAlike_ite ?_ (storeAlike_ite ?_ h1)
  · refine storeAlike_trans (storeAlike_trans h1 ?_) (storeAlike_cblRecord ..)
    exact ⟨rfl, rfl, rfl⟩
  · exact storeAlike_trans h1 ⟨rfl, rfl, rfl⟩

theorem storeAlike_cblDone (s : State) (kind number target outcome : Nat) : StoreAlike s (cblDone s kind number target outcome) := by
  unfold cblDone
  extract_lets _ s1
  exact storeAlike_trans (t := s1) ⟨rfl, rfl, rfl⟩ (storeAlike_cblRecord ..)

theorem storeAlike_spareLevel (s : State) : StoreAlike s (spareLevel s) := storeAlike_of_only (spareLevel_only s) (by decide)

/-- A sector that meets a criterion is marked as a candidate, once. -/
def candidateMarked (s : State) (p : Nat) : State :=
  if (sectorOf s p).state ≠ 1 ∨ (sectorOf s p).candidate then s else modSector s p (fun x => { x with candidate := true })

theorem storeAlike_sectorCandidate (s : State) (p : Nat) : StoreAlike (candidateMarked s p) (sectorCandidate s p) := by
  unfold candidateMarked sectorCandidate
  extract_lets e s1
  split
  · exact ⟨rfl, rfl, rfl⟩
  · have h1 := storeAlike_cblFind (modSector s p (fun x => { x with candidate := true })) 1 p []
    exact storeAlike_ite (storeAlike_trans h1 (storeAlike_kpsRequest ..)) h1

/-! ## Programming from alike states -/

theorem modSector_alike {s t : State} (h : StoreAlike s t) (p : Nat) (f : Sector → Sector) :
    StoreAlike (modSector s p f) (modSector t p f) := by
  refine ⟨h.data, ?_, h.badWords⟩
  change Store.put Sector.reset t.kps.sectors p (f (sectorOf t p)) = Store.put Sector.reset s.kps.sectors p (f (sectorOf s p))
  rw [h.sectors, sectorOf_alike h]

theorem sectorCandidate_alike {s t : State} (h : StoreAlike s t) (p : Nat) :
    StoreAlike (sectorCandidate s p) (sectorCandidate t p) := by
  refine storeAlike_trans (storeAlike_symm (storeAlike_sectorCandidate s p)) (storeAlike_trans ?_ (storeAlike_sectorCandidate t p))
  unfold candidateMarked
  rw [sectorOf_alike h]
  split
  · exact h
  · exact modSector_alike h _ _

/-- All but GLB_SCRATCH, which no operation of the writer reads, is the same in the registers. -/
abbrev WordsAlike (s t : State) : Prop := otherWords (0x0000C / 4) s t

theorem regAt_wordsAlike {s t : State} (h : WordsAlike s t) {a : Nat} (ha : a / 4 ≠ 3) : regAt t a = regAt s a := h _ ha

theorem spendInj_store (s : State) : StoreAlike s (spendInj s) := storeAlike_of_only (spendInj_only s) (by decide)

section Programming

variable {s t : State} (h : StoreAlike s t) (hw : WordsAlike s t)

include h hw

theorem programmePhysical_alike (p o : Nat) (bs : List Byte) :
    StoreAlike (programmePhysical s p o bs) (programmePhysical t p o bs) := by
  have harm : ∀ src, injArmed t src = injArmed s src := fun src => by
    rw [injArmed, regBit, regFld, regAt_wordsAlike hw (by decide), injArmed, regBit, regFld]
  have htwo : regFld t 0x12080 9 8 = regFld s 0x12080 9 8 := by rw [regFld, regAt_wordsAlike hw (by decide), regFld]
  have hwear : ∀ u : State, ∀ p f, regAt (modSector u p f) 0x1C008 = regAt u 0x1C008 := fun _ _ _ => rfl
  have hspent : ∀ u : State, regAt (spendInj u) 0x1C008 = regAt u 0x1C008 := fun u => by
    rw [spendInj, regAt_of_onlyChanges (setLevel_only ..) (by decide), regAt_setRegAt_other _ _ (by decide)]
  unfold programmePhysical
  extract_lets lo hi inside injS twoS s1 s2 s3 injT twoT t1 t2 t3
  have hinj : injT = injS := by simp only [injT, injS, harm]
  have htwo' : twoT = twoS := by simp only [twoT, twoS, htwo]
  have h1 : StoreAlike s1 t1 := by
    refine ⟨?_, h.sectors, ?_⟩
    · exact congrArg (Store.putList (fun _ => 0#8) · (4096 * p + o) bs) h.data
    · simp only [t1, s1, modKps, h.badWords, hinj, htwo']
  have h2 : StoreAlike s2 t2 ∧ regAt t2 0x1C008 = regAt s2 0x1C008 := by
    unfold s2 t2
    rw [hinj]
    have hr : regAt t1 0x1C008 = regAt s1 0x1C008 := regAt_wordsAlike hw (by decide)
    split
    · exact ⟨storeAlike_trans (storeAlike_symm (spendInj_store s1)) (storeAlike_trans h1 (spendInj_store t1)),
        (hspent t1).trans (hr.trans (hspent s1).symm)⟩
    · exact ⟨h1, hr⟩
  have h3 : StoreAlike s3 t3 := modSector_alike h2.1 _ _
  have hreg : regAt t3 0x1C008 = regAt s3 0x1C008 := (hwear ..).trans (h2.2.trans (hwear ..).symm)
  rw [hreg, sectorOf_alike h3]
  split
  · exact sectorCandidate_alike h3 _
  · exact h3

theorem programme_alike (a : Nat) (bs : List Byte) : StoreAlike (programme s a bs) (programme t a bs) := by
  unfold programme
  rw [servingSector_alike h]
  split
  · exact programmePhysical_alike h hw _ _ _
  · exact h

theorem swapSector_alike (p : Nat) : StoreAlike (swapSector s p) (swapSector t p) := by
  have hspare : cleanSpare t = cleanSpare s := by
    unfold cleanSpare
    rw [sectorOf_alike h]
  unfold swapSector
  rw [hspare]
  split
  · exact h
  · next q _ =>
    extract_lets old data bads s1 s2 s3 old' data' bads' t1 t2 t3
    have hold : old' = old := congrFun (sectorOf_alike h) p
    have hdata : data' = data := congrArg (Store.getList (fun _ => 0#8) · (4096 * p) 4096) h.data
    have hbads : bads' = bads := by simp only [bads', bads, h.badWords]
    have h1 : StoreAlike s1 t1 := by
      unfold s1 t1
      rw [hdata]
      exact programmePhysical_alike h hw _ _ _
    have h2 : StoreAlike s2 t2 := ⟨h1.data, h1.sectors, by simp only [s2, t2, modKps, h1.badWords, hbads]⟩
    have h3 : StoreAlike s3 t3 := by
      unfold s3 t3
      rw [hold]
      exact modSector_alike h2 _ _
    have hend : ∀ u : State, StoreAlike u (spareLevel (cblDone u 1 0 p 1)) := fun u =>
      storeAlike_trans (storeAlike_cblDone ..) (storeAlike_spareLevel _)
    exact storeAlike_trans (storeAlike_symm (hend _)) (storeAlike_trans (modSector_alike h3 _ _) (hend _))

end Programming

/-! ## Reads (20 R661, R664) -/

/-- What a read of the keeping store turns on is the same: the store with its writer's operation, the light memory and its
banks, a merged calibration, and the registers but GLB_SCRATCH. -/
structure LastInputs (s t : State) : Prop where
  kps : t.kps = s.kps
  words : WordsAlike s t
  mem : t.mem = s.mem
  lmm : t.lmm = s.lmm
  pxc : t.pxc = s.pxc

theorem lastInputs_of_only {ps : List Part} {s t : State} (h : onlyChanges ps s t)
    (hp : Part.kps ∉ ps ∧ Part.regs ∉ ps ∧ Part.mem ∉ ps ∧ Part.lmm ∉ ps ∧ Part.pxc ∉ ps) : LastInputs s t := by
  obtain ⟨h1, h2, h3, h4, h5⟩ := hp
  exact ⟨h.2 .kps h1, fun i _ => getReg_of_regs (regs_of_onlyChanges h h2) i, h.2 .mem h3, h.2 .lmm h4, h.2 .pxc h5⟩

theorem ledgerBytes_alike {s t : State} (h : LastInputs s t) : ledgerBytes t = ledgerBytes s := by
  have hreg : ∀ a, a / 4 ≠ 3 → regAt t a = regAt s a := fun a ha => regAt_wordsAlike h.words ha
  have hactive : ∀ k, activeN t k = activeN s k := fun k => by
    unfold activeN activeW activeH regFld
    rw [hreg _ (by cases k <;> decide), hreg _ (by cases k <;> decide)]
  have hbase : ∀ k, k = 6 ∨ k = 7 → regionBase t k = regionBase s k := fun k hk => by
    unfold regionBase regFld
    rw [hreg _ (by rcases hk with rfl | rfl <;> decide)]
  have hbank : bankOf t = bankOf s := by
    funext b
    rw [bankOf, h.lmm, bankOf]
  have hget : ∀ a, memGet t a = memGet s a := fun a => by rw [memGet, h.mem, memGet]
  have hhealth : ∀ k, healthOf t k = healthOf s k := fun k => funext fun p => by
    unfold healthOf
    rw [hbase 6 (.inl rfl), hget]
  have hcount : ∀ k p, healthCount t k p = healthCount s k p := fun k p => by rw [healthCount, hactive, hhealth, healthCount]
  have hdose : ∀ k, doseMax t k = doseMax s k := fun k => by
    unfold doseMax mem16
    simp only [hactive, hbase 7 (.inr rfl), hget]
  have hspare : spareSectors t = spareSectors s := by
    unfold spareSectors sectorOf
    rw [h.kps]
  unfold ledgerBytes
  simp only [h.kps, hbank, hcount, hdose, hspare]

theorem opProgramme_alike {s t : State} (h : LastInputs s t) (o : KpsOp) : StoreAlike (opProgramme s o) (opProgramme t o) := by
  have hs : StoreAlike s t := storeAlike_of_kps h.kps
  have hcopy : olderCopy t = olderCopy s := by rw [olderCopy, h.kps, olderCopy]
  cases o with
  | eventlog sd r =>
    unfold opProgramme
    rw [h.kps]
    exact programme_alike hs h.words _ _
  | changelog e =>
    unfold opProgramme
    rw [h.kps]
    exact programme_alike hs h.words _ _
  | ledger =>
    unfold opProgramme
    extract_lets s1 t1
    have h1 : LastInputs s1 t1 := ⟨congrArg (fun k : Kps =>
      { k with ledgerSeq := (k.ledgerSeq + 1) % 2 ^ 32, ledgerSector := 1 - k.ledgerSector }) h.kps, h.words, h.mem, h.lmm, h.pxc⟩
    rw [ledgerBytes_alike h1, h1.kps]
    exact programme_alike (storeAlike_of_kps h1.kps) h1.words _ _
  | dose k =>
    have hbase : regionBase t 7 = regionBase s 7 := by
      unfold regionBase regFld
      rw [regAt_wordsAlike h.words (by decide)]
    unfold opProgramme memRead
    rw [hcopy, hbase, h.mem]
    exact programme_alike hs h.words _ _
  | lastWrite ring slot logical data final => exact programme_alike hs h.words _ _
  | calib ring slot logical =>
    have hbyte : storedByte t = storedByte s := funext fun a => by rw [storedByte, storedBytes_alike hs, storedByte]
    unfold opProgramme
    dsimp only
    rw [h.pxc, hbyte]
    split
    · exact hs
    · exact programme_alike hs h.words _ _
  | refresh p =>
    unfold opProgramme
    rw [h.kps]
    exact programmePhysical_alike hs h.words _ _ _
  | swap p =>
    unfold opProgramme
    exact swapSector_alike hs h.words _
  | commit => exact hs

theorem lastView_alike {s t : State} (h : LastInputs s t) : StoreAlike (lastView s) (lastView t) := by
  unfold lastView
  rw [h.kps]
  split
  · exact storeAlike_of_kps h.kps
  · have hi : LastInputs (modKps s fun k => { k with current := none }) (modKps t fun k => { k with current := none }) :=
      ⟨congrArg (fun k : Kps => { k with current := none }) h.kps, h.words, h.mem, h.lmm, h.pxc⟩
    exact opProgramme_alike hi _

theorem lastBytes_alike {s t : State} (h : LastInputs s t) : lastBytes t = lastBytes s :=
  funext fun a => funext fun n => storedBytes_alike (lastView_alike h) a n

theorem lastReadable_alike {s t : State} (h : LastInputs s t) : lastReadable t = lastReadable s :=
  funext fun a => funext fun n => storedReadable_alike (lastView_alike h) a n

theorem lastInputs_atWindow (b : Bus) (idx : Nat) (c : Option (Nat × Bool)) (s : State) : LastInputs s (atWindow b idx c s) :=
  lastInputs_of_only (atWindow_only b idx c s) (by decide)

/-! ## The boot script as it reads (19 R648 to R650) -/

theorem slotSelect_alike {s t : State} (h : LastInputs s t) : slotSelect t = slotSelect s := by
  have hvalid : slotValid t = slotValid s := funext fun k => by
    unfold slotValid slotLength
    rw [lastBytes_alike h, lastReadable_alike h]
  have hgen : slotGeneration t = slotGeneration s := funext fun k => by rw [slotGeneration, lastBytes_alike h, slotGeneration]
  unfold slotSelect
  rw [hvalid, hgen]

theorem slotFlags_alike {s t : State} (h : LastInputs s t) : slotFlags t = slotFlags s :=
  funext fun k => by rw [slotFlags, lastBytes_alike h, slotFlags]

/-- The record in hand reads the same where the script stands at the same place. -/
theorem recWord_alike {s t : State} (h : LastInputs s t) (hslot : t.rst.boot.slot = s.rst.boot.slot)
    (hpos : t.rst.boot.pos = s.rst.boot.pos) : recWord t = recWord s := by
  funext i
  rw [recWord, lastBytes_alike h, hslot, hpos, recWord]

end Sys2Proof.Machine
end

section
/-! SUPPORT. RUN and STOP of the boot script: what each leaves of the reset state (19 R649, R655). -/

namespace Sys2Proof.Machine

/-- The end of the release sequence leaves the script as it stands. -/
theorem releaseEnds_boot (s : State) : (releaseEnds s).rst.boot = s.rst.boot := by
  unfold releaseEnds
  split <;> rfl

theorem bootTime_fields (s : State) : (bootTime s).2.rst = s.rst :=
  (bootTime_only s).2 .rst (by decide)

/-- A script that ends shows its state and its reason, and waits for nothing. -/
theorem scriptEnds_boot (s : State) (st reason : Nat) : (scriptEnds s st reason).rst.boot
    = { s.rst.boot with state := st, reason := reason, record := if st = 3 then 0 else s.rst.boot.record, waiting := false,
                        stopping := false, lanes := [], tiles := [], time := (bootTime s).1 } := by
  have h := bootTime_fields s
  unfold scriptEnds
  split
  next t s1 he =>
    rw [he] at h
    rw [releaseEnds_boot, he]
    exact congrArg (fun r : Rst => { r.boot with
      state := st, reason := reason, record := if st = 3 then 0 else r.boot.record, waiting := false,
      stopping := false, lanes := [], tiles := [], time := t }) h

theorem scriptStarts_selected {s : State} {k : Nat} (h : slotSelect s = some k) : (scriptStarts s).rst.boot
    = { Boot.reset with state := 2, slot := k, pos := 16, time := s.rst.boot.time } := by
  rw [scriptStarts, h]
  rfl

theorem scriptStarts_none {s : State} (h : slotSelect s = none) : (scriptStarts s).rst.boot
    = { Boot.reset with state := 5, time := s.rst.boot.time } := by
  rw [scriptStarts, h]
  exact releaseEnds_boot _

theorem bootRunNow_runs {s : State} (h : scriptRuns s = false) (hr : s.rst.reach = 0) (hl : lastLive s = true)
    (ha : stopped s .a = true) (hb : stopped s .b = true) : bootRunNow s = scriptStarts s := by
  rw [bootRunNow, if_pos (by rw [h, hr, hl, ha, hb]; rfl)]

theorem bootRunNow_refused {s : State} (h : scriptRuns s = true ∨ s.rst.reach ≠ 0 ∨ stopped s .a = false ∨ stopped s .b = false) :
    (bootRunNow s).rst = { s.rst with hostRefused := true } := by
  rw [bootRunNow, if_neg]
  · rfl
  · simp only [Bool.and_eq_true, Bool.not_eq_true', beq_iff_eq]
    rintro ⟨⟨⟨⟨h1, h2⟩, -⟩, h3⟩, h4⟩
    rcases h with h | h | h | h
    · exact Bool.false_ne_true (h1.symm.trans h)
    · exact h h2
    · exact Bool.false_ne_true (h.symm.trans h3)
    · exact Bool.false_ne_true (h.symm.trans h4)

theorem bootStopNow_idle {s : State} (h : scriptRuns s = false) : bootStopNow s = s := if_pos (by rw [h]; rfl)

theorem bootStopNow_finishes {s : State} (h : scriptRuns s = true) (hw : s.rst.boot.waiting = true) (h3 : recOpcode s ≠ 3)
    (h6 : recOpcode s ≠ 6) : (bootStopNow s).rst = { s.rst with boot := { s.rst.boot with stopping := true } } := by
  rw [bootStopNow, if_neg (by rw [h]; exact Bool.false_ne_true), if_pos (by simp [hw, h3, h6])]
  rfl

theorem bootStopNow_ends {s : State} (h : scriptRuns s = true) (hw : s.rst.boot.waiting = false ∨ recOpcode s = 3 ∨ recOpcode s = 6) :
    bootStopNow s = scriptEnds s 4 8 := by
  rw [bootStopNow, if_neg (by rw [h]; exact Bool.false_ne_true), if_neg]
  rcases hw with hw | hw | hw <;> simp [hw]

/-- A write of RST_BOOT_CMD that reaches it runs in its window, and only its answer follows it. -/
theorem bootCmd_leaves {s : State} {b : Bus} (h : reaches s b 0x16014 = true) (v : Word) :
    ∃ c t, writeAlone b 0x16014 v s = .next t ∧ t.rst = (writeBootCmd (atWindow b (0x16014 / 4) c s) v).rst := by
  obtain ⟨c, t, ht, ho⟩ := writeAlone_window (v := v) h (by decide) (open_bootCmd s) (fun u => route_bootCmd u v)
  exact ⟨c, t, ht, ho.2 .rst (by decide)⟩

section Window

variable (b : Bus) (idx : Nat) (c : Option (Nat × Bool)) (s : State)

theorem scriptRuns_atWindow : scriptRuns (atWindow b idx c s) = scriptRuns s := by simp [scriptRuns]

theorem lastLive_atWindow : lastLive (atWindow b idx c s) = lastLive s := by simp [lastLive]

theorem recOpcode_atWindow : recOpcode (atWindow b idx c s) = recOpcode s := by
  rw [recOpcode, recWord_alike (lastInputs_atWindow ..) (by simp) (by simp), recOpcode]

end Window

/-- Settles O53: RUN and STOP by what each leaves, the script's slots and record read the same at the write's window. -/
theorem bootControl : Obligations.BootControl := by
  unfold Obligations.BootControl
  refine fun s b h => ⟨fun hr h0 hl ha hb => ⟨fun k hk => ?_, fun hk => ?_⟩, fun hbad => ?_, fun hr hw h3 h6 => ?_, fun hr hw => ?_,
    fun hr => ?_⟩
  · obtain ⟨c, t, ht, hrst⟩ := bootCmd_leaves h 1#32
    have hk' : slotSelect (atWindow b (0x16014 / 4) c s) = some k := (slotSelect_alike (lastInputs_atWindow ..)).trans hk
    have hrun := bootRunNow_runs (s := atWindow b (0x16014 / 4) c s) ((scriptRuns_atWindow ..).trans hr) (by simp [h0])
      ((lastLive_atWindow ..).trans hl) ((stopped_atWindow ..).trans ha) ((stopped_atWindow ..).trans hb)
    refine ⟨t, ht, (congrArg Rst.boot (hrst.trans (congrArg State.rst hrun))).trans ((scriptStarts_selected hk').trans ?_)⟩
    rw [(atWindow_fields ..).2.2.2.2.2.2.1]
  · obtain ⟨c, t, ht, hrst⟩ := bootCmd_leaves h 1#32
    have hk' : slotSelect (atWindow b (0x16014 / 4) c s) = none := (slotSelect_alike (lastInputs_atWindow ..)).trans hk
    have hrun := bootRunNow_runs (s := atWindow b (0x16014 / 4) c s) ((scriptRuns_atWindow ..).trans hr) (by simp [h0])
      ((lastLive_atWindow ..).trans hl) ((stopped_atWindow ..).trans ha) ((stopped_atWindow ..).trans hb)
    refine ⟨t, ht, (congrArg Rst.boot (hrst.trans (congrArg State.rst hrun))).trans ((scriptStarts_none hk').trans ?_)⟩
    rw [(atWindow_fields ..).2.2.2.2.2.2.1]
  · obtain ⟨c, t, ht, hrst⟩ := bootCmd_leaves h 1#32
    refine ⟨t, ht, hrst.trans ((bootRunNow_refused ?_).trans (by simp))⟩
    simpa [scriptRuns_atWindow, stopped_atWindow] using hbad
  · obtain ⟨c, t, ht, hrst⟩ := bootCmd_leaves h 2#32
    refine ⟨t, ht, hrst.trans ((bootStopNow_finishes ?_ ?_ ?_ ?_).trans (by simp))⟩ <;>
      simp [scriptRuns_atWindow, recOpcode_atWindow, hr, hw, h3, h6]
  · obtain ⟨c, t, ht, hrst⟩ := bootCmd_leaves h 2#32
    have hend : writeBootCmd (atWindow b (0x16014 / 4) c s) 2#32 = scriptEnds (atWindow b (0x16014 / 4) c s) 4 8 :=
      bootStopNow_ends ((scriptRuns_atWindow ..).trans hr) (by simpa [recOpcode_atWindow] using hw)
    have hboot := (congrArg Rst.boot (hrst.trans (congrArg State.rst hend))).trans (scriptEnds_boot ..)
    exact ⟨t, ht, by rw [hboot], by rw [hboot], by rw [hboot]⟩
  · obtain ⟨c, t, ht, hrst⟩ := bootCmd_leaves h 2#32
    have hstay : writeBootCmd (atWindow b (0x16014 / 4) c s) 2#32 = atWindow b (0x16014 / 4) c s :=
      bootStopNow_idle ((scriptRuns_atWindow ..).trans hr)
    exact ⟨t, ht, hrst.trans ((congrArg State.rst hstay).trans (by simp))⟩

end Sys2Proof.Machine
end

section
/-! SUPPORT. The records of the boot script: how one begins, what it leaves, and how the record in hand ends (19 R650 to R656). -/

namespace Sys2Proof.Machine

/-! ## A record begins and ends (19 R650, R653) -/

/-- The record in hand is readable and sound, and the script is about to begin it. -/
structure RecordDue (s : State) (opcode : Nat) : Prop where
  state : s.rst.boot.state = 2
  waiting : s.rst.boot.waiting = false
  readable : recReadable s = true
  sound : recBad s = false
  opcode : recOpcode s = opcode

theorem recBegins_due {s : State} {opcode : Nat} (h : RecordDue s opcode) (act : State → State) : recBegins s opcode act = act s := by
  obtain ⟨h1, h2, h3, h4, h5⟩ := h
  rw [recBegins, if_neg (by simp [h1, h2]), if_neg (by simp [h3]), if_neg (by simp [h4]), if_pos h5]

theorem recordDone_goes {s : State} (h : s.rst.boot.stopping = false) : recordDone s = modBoot s (fun b =>
    { b with record := b.record + 1, pos := b.pos + 4 * recLength s, waiting := false, lanes := [], tiles := [] }) := by
  rw [recordDone, h, if_neg Bool.false_ne_true]

theorem recActed_goes {s : State} (hs : s.rst.boot.state = 2) (h : s.rst.boot.stopping = false) : recActed s = modBoot s (fun b =>
    { b with record := b.record + 1, pos := b.pos + 4 * recLength s, waiting := false, lanes := [], tiles := [] }) := by
  rw [recActed, if_pos hs, recordDone_goes h]

/-- An access of the record that leaves the script and the store alone is followed by the next record in hand. -/
theorem recActed_leaves {s t : State} (hs : s.rst.boot.state = 2) (h : s.rst.boot.stopping = false) (hr : t.rst = s.rst)
    (hi : LastInputs s t) : (recActed t).rst.boot.record = s.rst.boot.record + 1
      ∧ (recActed t).rst.boot.pos = s.rst.boot.pos + 4 * recLength s ∧ (recActed t).regs = t.regs ∧ (recActed t).rng = t.rng := by
  have hlen : recLength t = recLength s := by rw [recLength, recWord_alike hi (by rw [hr]) (by rw [hr]), recLength]
  rw [recActed_goes (by rw [hr, hs]) (by rw [hr, h])]
  refine ⟨congrArg (fun r : Rst => r.boot.record + 1) hr, ?_, rfl, rfl⟩
  change t.rst.boot.pos + 4 * recLength t = _
  rw [hlen, hr]

theorem scriptEnds_state (s : State) (st reason : Nat) : (scriptEnds s st reason).rst.boot.state = st
    ∧ (scriptEnds s st reason).rst.boot.reason = reason ∧ (scriptEnds s st reason).rst.boot.waiting = false
    ∧ (scriptEnds s st reason).rst.boot.slot = s.rst.boot.slot := by
  rw [scriptEnds_boot]
  exact ⟨rfl, rfl, rfl, rfl⟩

theorem releaseEnds_final {s : State} (h : s.rst.step = 8) :
    (releaseEnds s).rst.step = 0 ∧ (releaseEnds s).rst.done = 8 ∧ (releaseEnds s).rst.reach = 0 := by
  rw [releaseEnds, if_pos h]
  exact ⟨rfl, rfl, rfl⟩

/-- Where the script ends in release step 8, the release sequence ends with it (19 R639). -/
theorem scriptEnds_step {s : State} (h : s.rst.step = 8) (st reason : Nat) : (scriptEnds s st reason).rst.step = 0
    ∧ (scriptEnds s st reason).rst.done = 8 ∧ (scriptEnds s st reason).rst.reach = 0 := by
  have hb := bootTime_fields s
  unfold scriptEnds
  split
  next t s1 he =>
    rw [he] at hb
    exact releaseEnds_final ((congrArg Rst.step hb).trans h)

/-- AUTOLIGHT notes itself in the reset state alone. -/
theorem autolight_rst (s : State) : (autolight s).rst = s.rst
    ∨ (autolight s).rst = { s.rst with boot := { s.rst.boot with autolight := true } } := by
  unfold autolight
  split
  · have h : onlyChanges [.out, .free, .lanes] s (lightHead (lightHead s .a) .b) :=
      onlyChanges_trans (lightHead_only s .a) (lightHead_only _ .b)
    exact .inr (congrArg (fun r : Rst => { r with boot := { r.boot with autolight := true } }) (h.2 .rst (by decide)))
  · exact .inl rfl

theorem autolight_asked {s : State} (h : nbit (slotFlags s s.rst.boot.slot) 0 = true) : (autolight s).rst.boot.autolight = true := by
  rw [autolight, if_pos h]
  rfl

theorem autolight_leaves (s : State) : onlyChanges [.out, .free, .lanes, .rst] s (autolight s) := by
  unfold autolight
  refine onlyChanges_ite ?_ (onlyChanges_refl _ _)
  exact onlyChanges_then (onlyChanges_then (onlyChanges_then (onlyChanges_refl _ _) (lightHead_only s .a) rfl) (lightHead_only _ .b) rfl)
    (modBoot_only ..) rfl

/-- A record that fails ends the script with its reason. -/
theorem scriptFails_leaves {s : State} (h : s.rst.boot.stopping = false) (reason : Nat) : (scriptFails s reason).rst.boot.state = 4
    ∧ (scriptFails s reason).rst.boot.reason = reason ∧ (scriptFails s reason).rst.boot.waiting = false
    ∧ onlyChanges [.out, .free, .lanes, .rst] s (scriptFails s reason) := by
  obtain ⟨h1, h2, h3, -⟩ := scriptEnds_state s 4 reason
  have hend : onlyChanges [.out, .free, .lanes, .rst] s (scriptEnds s 4 reason) := onlyChanges_mono (scriptEnds_only ..) (by decide)
  unfold scriptFails
  rw [h, if_neg Bool.false_ne_true]
  dsimp only
  split
  · have hlit := onlyChanges_trans hend (autolight_leaves (scriptEnds s 4 reason))
    rcases autolight_rst (scriptEnds s 4 reason) with ha | ha <;> exact ⟨by rw [ha, h1], by rw [ha, h2], by rw [ha, h3], hlit⟩
  · exact ⟨h1, h2, h3, hend⟩

/-! ## WRITE and MASK_WRITE of GLB_SCRATCH (19 R650, 21 R692) -/

/-- What a write of the script leaves besides the word: the device has left IDLE for it, and the word's parity is good. -/
def scratchReached (s : State) : State := freshParity (idleExits s) 3

theorem scratchReached_only (s : State) : onlyChanges [.pwr, .hif, .glb] s (scratchReached s) :=
  onlyChanges_then (onlyChanges_then (onlyChanges_refl _ _) (idleExits_only s) rfl) (freshParity_only _ _) rfl

theorem portWrite_script_scratch (s : State) (v : Word) :
    (portWrite s .script 0x0000C true v).2 = setRegAt (scratchReached s) 0x0000C v := by
  have hkeep : scriptKeeps s .script (0x0000C / 4) = false := by simp [scriptKeeps]
  have hserve : windowServes s (0x0000C / 4) = true := rfl
  have hword : wordWrite (idleExits s) (0x0000C / 4) v = setRegAt (scratchReached s) 0x0000C v := by
    rw [wordWrite_open _ _ _ (open_scratch _)]
    exact route_scratch _ v
  unfold portWrite
  dsimp only
  rw [if_neg (by decide : ¬(Bus.script == Bus.pcie) = true), if_neg (by decide), if_neg (by decide), if_neg (by decide),
    if_neg (by rw [hkeep]; exact Bool.false_ne_true), if_neg (by rw [hserve]; decide), if_neg (by decide), if_neg (by decide)]
  exact hword

theorem portRead_script_scratch {s : State} (h1 : injHits s 54 3 = false) (h2 : s.glb.badParity.contains 3 = false) :
    portRead s .script 0x0000C false = (0, regAt s 0x0000C, s) := by
  have hc : checkParity s 3 false = (false, s) := by
    simp only [checkParity, h1, h2, Bool.false_eq_true, if_false, ite_self]
  simp [portRead, show windowServes s 3 = true from rfl, hc, readWord_scratch, inDoorbells]

/-- A write of GLB_SCRATCH by the record in hand, and the next record in hand. -/
theorem scratchWritten {s : State} {v : Word} (hs : s.rst.boot.state = 2) (h : s.rst.boot.stopping = false)
    (hq : ringsQuiet s = true) {t : State} (ht : t = ringSettle (recActed (portWrite s .script 0x0000C true v).2)) :
    regAt t 0x0000C = v ∧ otherWords (0x0000C / 4) s t ∧ t.rst.boot.record = s.rst.boot.record + 1
      ∧ t.rst.boot.pos = s.rst.boot.pos + 4 * recLength s := by
  have ho := scratchReached_only s
  have hregs : (scratchReached s).regs = s.regs := regs_of_onlyChanges ho (by decide)
  have hothers : otherWords (0x0000C / 4) s (setRegAt (scratchReached s) 0x0000C v) := fun i hi => by
    rw [setRegAt, getReg_setReg_other _ _ _ _ hi, getReg_of_regs hregs]
  have hi : LastInputs s (setRegAt (scratchReached s) 0x0000C v) :=
    ⟨ho.2 .kps (by decide), hothers, ho.2 .mem (by decide), ho.2 .lmm (by decide), ho.2 .pxc (by decide)⟩
  have hrst : (setRegAt (scratchReached s) 0x0000C v).rst = s.rst := ho.2 .rst (by decide)
  have hrng : (setRegAt (scratchReached s) 0x0000C v).rng = s.rng := ho.2 .rng (by decide)
  obtain ⟨e1, e2, e3, e4⟩ := recActed_leaves hs h hrst hi
  rw [portWrite_script_scratch, ringSettle_of_quiet (ringsQuiet_of_rng hq (e4.trans hrng))] at ht
  subst ht
  refine ⟨?_, fun i hi => ?_, e1, e2⟩
  · rw [regAt, getReg_of_regs e3]
    exact regAt_setRegAt_same _ _ rfl
  · rw [getReg_of_regs e3]
    exact hothers i hi

theorem recWrite_scratch {s : State} (hf : recFlags s = 0) (ha : (recWord s 1).toNat = 0x0000C) (hn : fld (recWord s 2) 12 0 = 1) :
    recWrite s = recActed (portWrite s .script 0x0000C true (recWord s 3)).2 := by
  unfold recWrite
  dsimp only
  rw [hf, ha, hn, if_neg (by decide)]
  change (if recForbidden 0x0000C = true then _ else writeWords _ [] _) = _
  rw [if_neg (by decide)]
  rfl

theorem recWrite_forbidden {s : State} (hf : recFlags s = 0) (ha : recForbidden (recWord s 1).toNat = true)
    (hn : 1 ≤ fld (recWord s 2) 12 0) : recWrite s = scriptFails s 6 := by
  unfold recWrite
  dsimp only
  rw [hf, if_neg (by decide)]
  obtain ⟨n, hn'⟩ : ∃ n, fld (recWord s 2) 12 0 = n + 1 := ⟨_, (Nat.sub_add_cancel hn).symm⟩
  rw [hn', List.range_succ_eq_map, List.map_cons, writeWords, if_pos ha]

theorem recMaskWrite_scratch {s : State} (ha : (recWord s 1).toNat = 0x0000C) (h1 : injHits s 54 3 = false)
    (h2 : s.glb.badParity.contains 3 = false) : recMaskWrite s
      = recActed (portWrite s .script 0x0000C true (merge (regAt s 0x0000C) (recWord s 3) (recWord s 2))).2 := by
  unfold recMaskWrite
  dsimp only
  rw [ha, if_neg (by decide), portRead_script_scratch h1 h2]

/-! ## POLL, WAIT and their ends (19 R650, R653) -/

theorem recPollRead_scratch {s : State} (hw : recWaits s 3 = true) (ha : (recWord s 1).toNat = 0x0000C) (h1 : injHits s 54 3 = false)
    (h2 : s.glb.badParity.contains 3 = false) :
    recPollRead s = if regAt s 0x0000C &&& recWord s 2 = recWord s 3 then recordDone s else s := by
  rw [recPollRead, if_pos hw, ha, portRead_script_scratch h1 h2]

theorem recordTimesOut_waits {s : State} {r : Nat} (hs : s.rst.boot.state = 2) (hw : s.rst.boot.waiting = true)
    (ht : timeoutReason (recOpcode s) = some r) : recordTimesOut s = recordFails s r := by
  rw [recordTimesOut, if_pos ⟨hs, hw⟩, ht]

/-! ## SLIP_SEARCH (19 R650, 09 R326) -/

/-- A search begins on a lane unless one runs. -/
def searchDue (s : State) (l : Nat) : State := if (laneOf s l).searching then s else startSearch s l

theorem searchDue_other (s : State) {l m : Nat} (h : m ≠ l) : laneOf (searchDue s l) m = laneOf s m := by
  unfold searchDue
  split
  · rfl
  · exact laneOf_modLane_other _ _ _ _ h

theorem searchDue_keeps (s : State) {l m : Nat} (h : (laneOf s m).searching = true) : (laneOf (searchDue s l) m).searching = true := by
  by_cases hm : m = l
  · subst hm
    rw [searchDue, if_pos h, h]
  · rw [searchDue_other s hm, h]

theorem searchDue_same (s : State) (l : Nat) : (laneOf (searchDue s l) l).searching = true := by
  unfold searchDue
  split
  · assumption
  · rw [startSearch, laneOf_modLane_same]

theorem foldl_searchDue (due : List Nat) (s : State) : (∀ l, l ∈ due → (laneOf (due.foldl searchDue s) l).searching = true)
    ∧ (∀ l, l ∉ due → laneOf (due.foldl searchDue s) l = laneOf s l) ∧ (due.foldl searchDue s).rst = s.rst := by
  have hkeep : ∀ (ls : List Nat) (u : State) m, (laneOf u m).searching = true → (laneOf (ls.foldl searchDue u) m).searching = true :=
    fun ls u m hu => foldl_inv (fun x => (laneOf x m).searching = true) _ _ _ hu fun x a hx => searchDue_keeps x hx
  induction due generalizing s with
  | nil => exact ⟨fun l h => absurd h List.not_mem_nil, fun _ _ => rfl, rfl⟩
  | cons d ds ih =>
    obtain ⟨h1, h2, h3⟩ := ih (searchDue s d)
    have hrst : (searchDue s d).rst = s.rst := by
      unfold searchDue
      split <;> rfl
    refine ⟨fun l hl => ?_, fun l hl => ?_, h3.trans hrst⟩
    · rcases List.mem_cons.mp hl with rfl | hl
      · exact hkeep ds _ _ (searchDue_same s l)
      · exact h1 l hl
    · obtain ⟨hne, hds⟩ := not_or.mp (mt List.mem_cons.mpr hl)
      exact (h2 l hds).trans (searchDue_other s hne)

/-- A SLIP_SEARCH that cannot start every search yet starts those it can, and waits. -/
theorem recSlipSearch_leaves {s : State} {due : List Nat} (hs : s.rst.boot.state = 2) (ho : recOpcode s = 4)
    (hd : due = (recLanes s).filter (fun l => laneLives s l && (laneOf s l).pstate == 3 && (laneOf s l).cdrLock))
    (hne : due ≠ recLanes s) : (recSlipSearch s).rst.boot.waiting = true ∧ (recSlipSearch s).rst.boot.state = 2
      ∧ (∀ l, l ∈ due → (laneOf (recSlipSearch s) l).searching = true) ∧ (∀ l, l ∉ due → laneOf (recSlipSearch s) l = laneOf s l) := by
  let w := modBoot (recordWaits s) (fun b => { b with lanes := recLanes s })
  let v := modBoot w (fun b => { b with lanes := b.lanes.filter (fun l => !due.contains l) })
  have hword : recWord w = recWord s := recWord_alike (s := s) (t := w) ⟨rfl, fun _ _ => rfl, rfl, rfl, rfl⟩ rfl rfl
  have hwait : recWaits w 4 = true := by
    have hop : recOpcode w = 4 := by rw [recOpcode, hword, ← recOpcode, ho]
    have h2 : w.rst.boot.state = 2 := hs
    rw [recWaits, hop, h2]
    rfl
  obtain ⟨f1, f2, f3⟩ := foldl_searchDue due v
  have hleft : (due.foldl searchDue v).rst.boot.lanes.isEmpty = false := by
    rw [f3]
    change ((recLanes s).filter fun l => !due.contains l).isEmpty = false
    by_contra hem
    rw [Bool.not_eq_false, List.isEmpty_iff, List.filter_eq_nil_iff] at hem
    refine hne ?_
    rw [hd, List.filter_eq_self]
    intro l hl
    have hin := hem l hl
    simp only [Bool.not_eq_true, Bool.not_eq_false', List.contains_iff_mem] at hin
    rw [hd] at hin
    exact (List.mem_filter.mp hin).2
  have he : recSlipSearch s = due.foldl searchDue v := by
    change slipSearchGo w = _
    unfold slipSearchGo
    rw [hwait, if_neg (by decide)]
    have hdue : w.rst.boot.lanes.filter (fun l => laneLives w l && (laneOf w l).pstate == 3 && (laneOf w l).cdrLock) = due := hd.symm
    dsimp only
    rw [hdue]
    change (if (due.foldl searchDue v).rst.boot.lanes.isEmpty && _ then _ else _) = _
    rw [hleft, Bool.false_and, if_neg Bool.false_ne_true]
    rfl
  rw [he]
  refine ⟨by rw [f3]; rfl, by rw [f3]; exact hs, f1, fun l hl => (f2 l hl).trans rfl⟩

/-! ## LOAD_TILES (19 R652) -/

theorem foldl_stays {α β : Type} {f : β → α → β} {s : β} {l : List α} (h : ∀ a ∈ l, f s a = s) : l.foldl f s = s := by
  induction l with
  | nil => rfl
  | cons a l ih => rw [List.foldl_cons, h a List.mem_cons_self, ih fun x hx => h x (List.mem_cons_of_mem _ hx)]

theorem length_entryOffsets (s : State) (off n : Nat) : (entryOffsets s off n).length = n := by
  induction n generalizing off with
  | zero => rfl
  | succ n ih => rw [entryOffsets, List.length_cons, ih]

/-- The record has one entry for each tile that it names. -/
theorem recEntries_tiles (s : State) : (recEntries s).map Prod.fst = recTiles s := by
  unfold recEntries
  dsimp only
  split
  · rw [List.map_map]
    exact List.map_id _
  · exact List.map_fst_zip (by rw [length_entryOffsets])

theorem recTiles_nodup (s : State) : (recTiles s).Nodup := List.nodup_range.filter _

/-- The entry of a tile is noted for the pattern that the record names. -/
def noteEntry (h : Head) (p : Nat) (s : State) (e : Nat × Nat) : State :=
  modTbl s h (fun b => { b with huskAt := Store.put (fun _ => 0) b.huskAt (p * 8 + e.1) (e.2 + 1) })

/-- The offset noted for a tile and a pattern, plus one. -/
def noted (s : State) (h : Head) (p t : Nat) : Nat := Store.get (fun _ => 0) (s.tbl.get h).huskAt (p * 8 + t)

theorem noted_noteEntry (h : Head) (p : Nat) (s : State) (e : Nat × Nat) (t : Nat) :
    noted (noteEntry h p s e) h p t = if t = e.1 then e.2 + 1 else noted s h p t := by
  have he : ((noteEntry h p s e).tbl.get h).huskAt = Store.put (fun _ => 0) (s.tbl.get h).huskAt (p * 8 + e.1) (e.2 + 1) := by
    cases h <;> rfl
  rw [noted, he]
  split
  · next ht => rw [ht, Store.get_put_same]
  · next ht => rw [Store.get_put_other _ _ _ _ _ (by omega : p * 8 + t ≠ p * 8 + e.1), noted]

theorem foldl_noteEntry (h : Head) (p : Nat) (es : List (Nat × Nat)) (hd : (es.map Prod.fst).Nodup) (s : State) :
    (∀ e ∈ es, noted (es.foldl (noteEntry h p) s) h p e.1 = e.2 + 1)
      ∧ ∀ t, t ∉ es.map Prod.fst → noted (es.foldl (noteEntry h p) s) h p t = noted s h p t := by
  induction es generalizing s with
  | nil => exact ⟨fun e he => absurd he List.not_mem_nil, fun _ _ => rfl⟩
  | cons x xs ih =>
    obtain ⟨hx, hxs⟩ := List.nodup_cons.mp hd
    obtain ⟨h1, h2⟩ := ih hxs (noteEntry h p s x)
    refine ⟨fun e he => ?_, fun t ht => ?_⟩
    · rcases List.mem_cons.mp he with rfl | he
      · rw [List.foldl_cons, h2 _ hx, noted_noteEntry, if_pos rfl]
      · exact h1 e he
    · rw [List.map_cons, List.mem_cons, not_or] at ht
      rw [List.foldl_cons, h2 t ht.2, noted_noteEntry, if_neg ht.1]

theorem linkReady_noteEntry (h k : Head) (p : Nat) (s : State) (e : Nat × Nat) (t : Nat) :
    linkReady (noteEntry h p s e) k t = linkReady s k t := by
  cases h <;> cases k <;> rfl

/-- Every named tile's progress stands at the start. -/
def tilesBegun (ts : List Nat) (s : State) : State := ts.foldl (fun acc t => setRecTile acc t 1) s

theorem recTile_setRecTile (s : State) (t k i : Nat) : recTile (setRecTile s t k) i = if i = t then k else recTile s i := by
  unfold recTile
  change Store.get _ (Store.put (fun _ => 0) s.rst.boot.tiles t k) i = _
  split
  · next h => rw [h, Store.get_put_same]
  · next h => exact Store.get_put_other _ _ _ _ _ h

theorem recTile_tilesBegun (ts : List Nat) (s : State) {i : Nat} (h : i ∈ ts ∨ recTile s i = 1) : recTile (tilesBegun ts s) i = 1 := by
  induction ts generalizing s with
  | nil => exact h.resolve_left List.not_mem_nil
  | cons t ts ih =>
    refine ih (setRecTile s t 1) ?_
    rw [recTile_setRecTile]
    by_cases hi : i = t
    · exact .inr (if_pos hi)
    · rw [if_neg hi]
      exact h.imp_left fun hm => (List.mem_cons.mp hm).resolve_left hi

/-- What starting the tiles leaves: their progress alone changes. -/
theorem tilesBegun_leaves (ts : List Nat) (s : State) : (tilesBegun ts s).tbl = s.tbl
    ∧ (∀ h t, linkReady (tilesBegun ts s) h t = linkReady s h t) ∧ LastInputs s (tilesBegun ts s)
    ∧ (tilesBegun ts s).rst.boot.slot = s.rst.boot.slot ∧ (tilesBegun ts s).rst.boot.pos = s.rst.boot.pos
    ∧ (tilesBegun ts s).rst.boot.state = s.rst.boot.state ∧ (tilesBegun ts s).rst.boot.waiting = s.rst.boot.waiting :=
  foldl_inv (fun u => u.tbl = s.tbl ∧ (∀ h t, linkReady u h t = linkReady s h t) ∧ LastInputs s u
      ∧ u.rst.boot.slot = s.rst.boot.slot ∧ u.rst.boot.pos = s.rst.boot.pos ∧ u.rst.boot.state = s.rst.boot.state
      ∧ u.rst.boot.waiting = s.rst.boot.waiting) _ _ s
    ⟨rfl, fun _ _ => rfl, ⟨rfl, fun _ _ => rfl, rfl, rfl, rfl⟩, rfl, rfl, rfl, rfl⟩
    fun _ _ ⟨h1, h2, h3, h4, h5, h6, h7⟩ => ⟨h1, h2, ⟨h3.kps, h3.words, h3.mem, h3.lmm, h3.pxc⟩, h4, h5, h6, h7⟩

theorem linkReady_noteEntries (s : State) (h k : Head) (t : Nat) : linkReady (noteEntries s h) k t = linkReady s k t :=
  foldl_inv (fun u => linkReady u k t = linkReady s k t) _ _ s rfl fun u e hu => (linkReady_noteEntry h k _ u e t).trans hu

theorem noteEntries_leaves (s : State) (h : Head) : onlyChanges [.tbl] s (noteEntries s h) :=
  foldl_only (onlyChanges_refl _ _) fun t _ => modTbl_only t h _

/-- While no tile of the record is link-ready, each waits at the start. -/
theorem loadTilesGo_waits {s : State} (hw : recWaits s 5 = true) (hne : recTiles s ≠ []) (h1 : ∀ i ∈ recTiles s, recTile s i = 1)
    (hl : ∀ i ∈ recTiles s, linkReady s (recHead s) i = false) : loadTilesGo s none = s := by
  have hmem : ∀ e ∈ recEntries s, e.1 ∈ recTiles s := fun e he => recEntries_tiles s ▸ List.mem_map_of_mem he
  have hfit : loadMisfit s (recHead s) = false := by
    unfold loadMisfit
    refine List.any_eq_false.mpr fun e he => ?_
    rw [hl _ (hmem e he), Bool.and_false, Bool.false_and]
    exact Bool.false_ne_true
  have hstay : (recEntries s).foldl (fun acc e => loadTile acc (recHead s) e.1 e.2 (none == some (recHead s, e.1))) s = s :=
    foldl_stays fun e he => by
      unfold loadTile
      split
      next _ _ _ _ =>
        dsimp only
        rw [h1 _ (hmem e he)]
        exact if_neg (by rw [hl _ (hmem e he)]; exact Bool.false_ne_true)
  obtain ⟨i, hi⟩ := List.exists_mem_of_ne_nil _ hne
  have hall : (recTiles s).all (fun t => recTile s t == 4) = false := List.all_eq_false.mpr ⟨i, hi, by rw [h1 i hi]; decide⟩
  rw [loadTilesGo, if_neg (by rw [hw]; decide)]
  dsimp only
  rw [if_neg (by rw [hfit]; exact Bool.false_ne_true), hstay, hall, if_neg Bool.false_ne_true]

theorem recLoadTiles_leaves {s : State} (hs : s.rst.boot.state = 2) (ho : recOpcode s = 5) (hne : recTiles s ≠ [])
    (hr : ∀ e ∈ recEntries s, entryReadable s e.2 = true) (hl : ∀ i ∈ recTiles s, linkReady s (recHead s) i = false) :
    (recLoadTiles s).rst.boot.waiting = true ∧ (recLoadTiles s).rst.boot.state = 2
      ∧ (∀ i ∈ recTiles s, recTile (recLoadTiles s) i = 1)
      ∧ ∀ e ∈ recEntries s, noted (recLoadTiles s) (recHead s) (recPattern s) e.1 = e.2 + 1 := by
  let w := recordWaits s
  let n := noteEntries w (recHead s)
  let t := tilesBegun (recTiles s) n
  have hn : onlyChanges [.tbl] w n := noteEntries_leaves w (recHead s)
  obtain ⟨b1, b2, b3, b4, b5, b6, b7⟩ := tilesBegun_leaves (recTiles s) n
  have hni := lastInputs_of_only hn (by decide)
  have hi : LastInputs s t := ⟨b3.kps.trans hni.kps, fun i hx => (b3.words i hx).trans (hni.words i hx), b3.mem.trans hni.mem,
    b3.lmm.trans hni.lmm, b3.pxc.trans hni.pxc⟩
  have hnr : n.rst = w.rst := hn.2 .rst (by decide)
  have hword : recWord t = recWord s := recWord_alike hi (b4.trans (by rw [hnr]; rfl)) (b5.trans (by rw [hnr]; rfl))
  have hstate : t.rst.boot.state = 2 := b6.trans (by rw [hnr]; exact hs)
  have hwait : t.rst.boot.waiting = true := b7.trans (by rw [hnr]; rfl)
  have htiles : recTiles t = recTiles s := by rw [recTiles, hword, recTiles]
  have hhead : recHead t = recHead s := by rw [recHead, hword, recHead]
  have hprog : ∀ i ∈ recTiles s, recTile t i = 1 := fun i hx => recTile_tilesBegun _ _ (.inl hx)
  have hready : ∀ i, linkReady t (recHead s) i = linkReady s (recHead s) i := fun i =>
    (b2 ..).trans ((linkReady_noteEntries ..).trans rfl)
  have hgo : loadTilesGo t none = t := by
    refine loadTilesGo_waits ?_ (htiles ▸ hne) (htiles ▸ hprog) ?_
    · rw [recWaits, recOpcode, hword, ← recOpcode, ho, hstate, hwait]
      rfl
    · rw [htiles, hhead]
      exact fun i hx => (hready i).trans (hl i hx)
  have hall : (recEntries s).all (fun e => entryReadable s e.2) = true := List.all_eq_true.mpr hr
  have he : recLoadTiles s = t := by
    rw [recLoadTiles, if_pos hall]
    exact hgo
  have hentries : recEntries w = recEntries s := by
    have hword' : recWord w = recWord s := recWord_alike (s := s) (t := w) ⟨rfl, fun _ _ => rfl, rfl, rfl, rfl⟩ rfl rfl
    have hbytes : lastBytes w = lastBytes s := lastBytes_alike ⟨rfl, fun _ _ => rfl, rfl, rfl, rfl⟩
    have hoff : ∀ k o, entryOffsets w o k = entryOffsets s o k := fun k => by
      induction k with
      | zero => exact fun _ => rfl
      | succ k ih => intro o; rw [entryOffsets, entryOffsets, entryBytes, hbytes, ih, entryBytes]
    unfold recEntries recTiles recFlags
    simp only [hword', hoff]
  have hpat : recPattern w = recPattern s := by
    rw [recPattern, recWord_alike (s := s) (t := w) ⟨rfl, fun _ _ => rfl, rfl, rfl, rfl⟩ rfl rfl, recPattern]
  have hnoted : ∀ e ∈ recEntries s, noted n (recHead s) (recPattern s) e.1 = e.2 + 1 := by
    have hfold : n = (recEntries s).foldl (noteEntry (recHead s) (recPattern s)) w := by
      change (recEntries w).foldl (noteEntry (recHead s) (recPattern w)) w = _
      rw [hentries, hpat]
    rw [hfold]
    exact (foldl_noteEntry _ _ _ (recEntries_tiles s ▸ recTiles_nodup s) w).1
  rw [he]
  exact ⟨hwait, hstate, hprog, fun e hx => by rw [noted, b1]; exact hnoted e hx⟩

/-! ## The statement -/

/-- Settles O52: each record by what it does as it begins, and what ends the record in hand. -/
theorem bootRecords : Obligations.BootRecords := by
  unfold Obligations.BootRecords
  refine ⟨fun s hs hw hr hb hst hq => ?_, fun s hw hst => ?_, fun s hw hst ha h1 h2 => ?_, fun s r hs hw ht hst => ?_⟩
  · have hdue : ∀ {n}, recOpcode s = n → RecordDue s n := fun h => ⟨hs, hw, hr, hb, h⟩
    refine ⟨fun ho hf ha hn => ?_, fun ho hf ha hn => ?_, fun ho ha h1 h2 => ?_, fun c hc => ?_, fun due ho hd hne => ?_,
      fun ho hne hre hl => ?_, fun ho => ?_⟩
    · refine ⟨_, rfl, scratchWritten hs hst hq ?_⟩
      rw [recBegins_due (hdue ho), recWrite_scratch hf ha hn]
    · obtain ⟨e1, e2, -, e4⟩ := scriptFails_leaves hst 6
      have he : ringSettle (recBegins s 1 recWrite) = scriptFails s 6 := by
        rw [recBegins_due (hdue ho), recWrite_forbidden hf ha hn]
        exact ringSettle_of_quiet (ringsQuiet_of_only hq e4 (by decide))
      exact ⟨_, rfl, by rw [he, e1], by rw [he, e2], by rw [he]; exact getReg_of_regs (regs_of_onlyChanges e4 (by decide))⟩
    · refine ⟨_, rfl, scratchWritten hs hst hq ?_⟩
      rw [recBegins_due (hdue ho), recMaskWrite_scratch ha h1 h2]
    · rcases hc with ⟨rfl, ho⟩ | ⟨rfl, ho⟩
      · exact ⟨_, rfl, by rw [recBegins_due (hdue ho)]; rfl⟩
      · exact ⟨_, rfl, by rw [recBegins_due (hdue ho)]; rfl⟩
    · refine ⟨_, rfl, ?_⟩
      rw [recBegins_due (hdue ho)]
      exact recSlipSearch_leaves hs ho hd hne
    · refine ⟨_, rfl, ?_⟩
      rw [recBegins_due (hdue ho)]
      exact recLoadTiles_leaves hs ho hne hre hl
    · obtain ⟨e1, e2, e3, e4⟩ := scriptEnds_state s 3 0
      have hflags : slotFlags (scriptEnds s 3 0) = slotFlags s := slotFlags_alike (lastInputs_of_only (scriptEnds_only s 3 0) (by decide))
      refine ⟨_, rfl, ?_⟩
      rw [recBegins_due (hdue ho), scriptDone]
      refine ⟨?_, ?_, ?_, fun hlit => autolight_asked (by rw [e4, hflags, hlit]), fun h8 => ?_⟩
      · rcases autolight_rst (scriptEnds s 3 0) with ha | ha <;> rw [ha, e1]
      · rcases autolight_rst (scriptEnds s 3 0) with ha | ha <;> rw [ha, e2]
      · rcases autolight_rst (scriptEnds s 3 0) with ha | ha <;> rw [ha, e3]
      · obtain ⟨f1, f2, f3⟩ := scriptEnds_step h8 3 0
        rcases autolight_rst (scriptEnds s 3 0) with ha | ha <;> exact ⟨by rw [ha, f1], by rw [ha, f2], by rw [ha, f3]⟩
  · refine ⟨_, rfl, ?_⟩
    rw [recWaitEnds, if_pos hw, recordDone_goes hst]
    rfl
  · refine ⟨_, rfl, ?_⟩
    rw [recPollRead_scratch hw ha h1 h2]
    split
    · rw [recordDone_goes hst]
      exact ⟨rfl, rfl, rfl⟩
    · rfl
  · refine ⟨_, rfl, ?_⟩
    rw [recordTimesOut_waits hs hw ht, recordFails]
    split
    · rw [recordDone_goes hst]
      exact ⟨hs, rfl, rfl⟩
    · obtain ⟨e1, e2, e3, -⟩ := scriptFails_leaves hst r
      exact ⟨e1, e2, e3⟩

end Sys2Proof.Machine
end

section
/-! SUPPORT. The keeping store's operations: what they leave in the sectors, in the collector and in the rings (20 R664 to R674),
the blow of a fuse and the register window (20 R680, R683). -/

namespace Sys2Proof.Machine

/-! ## What every operation of the store keeps -/

/-- No sticky bit falls, the collector judges as before, no ring wakes, and where no descriptor executes none does after. -/
structure Harmless (s t : State) : Prop where
  sticky : ∀ i, s.flt.sticky.getLsbD i = true → t.flt.sticky.getLsbD i = true
  judges : fltJudges t = fltJudges s
  quiet : ringsQuiet s = true → ringsQuiet t = true
  idle : s.rng.work = [] → t.rng.work = []

theorem harmless_refl (s : State) : Harmless s s := ⟨fun _ h => h, rfl, id, id⟩

theorem harmless_trans {s t u : State} (h : Harmless s t) (k : Harmless t u) : Harmless s u :=
  ⟨fun i hi => k.sticky i (h.sticky i hi), k.judges.trans h.judges, fun hq => k.quiet (h.quiet hq), fun hw => k.idle (h.idle hw)⟩

theorem harmless_of_kps (s : State) (f : Kps → Kps) : Harmless s (modKps s f) := ⟨fun _ h => h, rfl, id, id⟩

theorem harmless_of_only {ps : List Part} {s t : State} (h : onlyChanges ps s t)
    (hp : Part.flt ∉ ps ∧ Part.pwr ∉ ps ∧ Part.rst ∉ ps ∧ Part.rng ∉ ps) : Harmless s t := by
  obtain ⟨h1, h2, h3, h4⟩ := hp
  exact ⟨fun i hi => sticky_of_onlyChanges h h1 ▸ hi, fltJudges_congr (congrArg Pwr.domains (h.2 .pwr h2)) (h.2 .rst h3),
    fun hq => ringsQuiet_of_only hq h h4, fun hw => (congrArg Rng.work (h.2 .rng h4)).trans hw⟩

/-- The places at which the store's records and its scrub stand, and the blown fuses. -/
structure PlacesKept (s t : State) : Prop where
  slot : t.kps.evtSlot = s.kps.evtSlot
  seq : t.kps.evtSeq = s.kps.evtSeq
  scrub : t.kps.scrubPos = s.kps.scrubPos
  passes : t.kps.passes = s.kps.passes
  blown : t.kps.blown = s.kps.blown

theorem placesKept_refl (s : State) : PlacesKept s s := ⟨rfl, rfl, rfl, rfl, rfl⟩

theorem placesKept_trans {s t u : State} (h : PlacesKept s t) (k : PlacesKept t u) : PlacesKept s u :=
  ⟨k.slot.trans h.slot, k.seq.trans h.seq, k.scrub.trans h.scrub, k.passes.trans h.passes, k.blown.trans h.blown⟩

theorem placesKept_of_kps {s t : State} (h : t.kps = s.kps) : PlacesKept s t := by constructor <;> rw [h]

theorem placesKept_of_only {ps : List Part} {s t : State} (h : onlyChanges ps s t) (hp : Part.kps ∉ ps) : PlacesKept s t :=
  placesKept_of_kps (h.2 .kps hp)

/-- What an operation of the store may do besides its own work. -/
structure StoreStep (s t : State) : Prop where
  harmless : Harmless s t
  places : PlacesKept s t

theorem storeStep_refl (s : State) : StoreStep s s := ⟨harmless_refl s, placesKept_refl s⟩

theorem storeStep_trans {s t u : State} (h : StoreStep s t) (k : StoreStep t u) : StoreStep s u :=
  ⟨harmless_trans h.harmless k.harmless, placesKept_trans h.places k.places⟩

theorem storeStep_ite {p : Prop} [Decidable p] {s t u : State} (h : StoreStep s t) (k : StoreStep s u) :
    StoreStep s (if p then t else u) := by split <;> assumption

theorem storeStep_of_only {ps : List Part} {s t : State} (h : onlyChanges ps s t)
    (hp : (Part.flt ∉ ps ∧ Part.pwr ∉ ps ∧ Part.rst ∉ ps ∧ Part.rng ∉ ps) ∧ Part.kps ∉ ps) : StoreStep s t :=
  ⟨harmless_of_only h hp.1, placesKept_of_only h hp.2⟩

/-! ## Each shared operation -/

theorem fltJudges_of_last (s : State) (v : Nat) :
    fltJudges { s with pwr := { s.pwr with domains := Store.put (fun _ => 2) s.pwr.domains 7 v } } = fltJudges s := by
  have hd : domainState { s with pwr := { s.pwr with domains := Store.put (fun _ => 2) s.pwr.domains 7 v } } 6 = domainState s 6 :=
    Store.get_put_other _ _ _ _ _ (by decide)
  unfold fltJudges ctrlLive live
  rw [hd]
  rfl

theorem storeStep_lastRests (s : State) : StoreStep s (lastRests s) := by
  unfold lastRests
  refine storeStep_ite ⟨⟨fun _ h => h, fltJudges_of_last s 0, id, id⟩, ⟨rfl, rfl, rfl, rfl, rfl⟩⟩ (storeStep_refl s)

theorem storeStep_stageWork (s : State) (ring slot : Nat) : StoreStep s (stageWork s ring slot 2) :=
  ⟨⟨fun _ h => h, rfl, fun hq => ringsQuiet_stageWork ring slot hq (by decide), fun hw => by rw [stageWork, modRng, hw]; rfl⟩, ⟨rfl, rfl, rfl, rfl, rfl⟩⟩

theorem storeStep_kpsTake (s : State) : StoreStep s (kpsTake s) := by
  unfold kpsTake
  extract_lets _ _ s0
  have h0 : StoreStep s s0 := by
    unfold s0
    exact storeStep_ite ⟨⟨fun _ h => h, fltJudges_of_last s 2, id, id⟩, ⟨rfl, rfl, rfl, rfl, rfl⟩⟩ (storeStep_refl s)
  split
  · refine storeStep_ite ?_ (storeStep_refl s)
    extract_lets s1
    have h1 : StoreStep s0 s1 := ⟨harmless_of_kps _ _, ⟨rfl, rfl, rfl, rfl, rfl⟩⟩
    split
    · exact storeStep_trans (storeStep_trans h0 h1) (storeStep_stageWork ..)
    · exact storeStep_trans h0 h1
  · exact storeStep_refl s

theorem storeStep_kpsRequest (s : State) (o : KpsOp) : StoreStep s (kpsRequest s o) := by
  have hwait : StoreStep s (modKps s fun k => { k with waiting := k.waiting ++ [o] }) := ⟨harmless_of_kps _ _, ⟨rfl, rfl, rfl, rfl, rfl⟩⟩
  exact storeStep_trans hwait (storeStep_kpsTake _)

theorem raiseInj_sticky_mono (s : State) (src heads detail : Nat) (inj : Bool) (i : Nat) (h : s.flt.sticky.getLsbD i = true) :
    (raiseInj s src heads detail inj).flt.sticky.getLsbD i = true := by
  by_cases hj : fltJudges s = true
  · rw [raiseInj_judged s src heads detail inj hj, BitVec.getLsbD_or, h, Bool.true_or]
  · have he : (raiseInj s src heads detail inj).flt.sticky = s.flt.sticky := by
      rw [raiseInj, if_pos (by simpa using hj)]
      split <;> rfl
    rw [he, h]

theorem raiseInj_judges (s : State) (src heads detail : Nat) (inj : Bool) : fltJudges (raiseInj s src heads detail inj) = fltJudges s := by
  have hrst : (raiseInj s src heads detail inj).rst = s.rst := (raiseInj_only ..).2 .rst (by decide)
  refine fltJudges_congr ?_ hrst
  by_cases hj : fltJudges s = true
  · simp only [raiseInj, hj, Bool.not_true, Bool.false_eq_true, if_false, apply_ite State.pwr, apply_ite Pwr.domains, wake_domains,
      settle_domains, signalMsix_fields, modFlt_fields, stampCore_fields, ite_self]
  · rw [raiseInj, if_pos (by simpa using hj)]
    split <;> rfl

theorem storeStep_raiseInj (s : State) (src heads detail : Nat) (inj : Bool) : StoreStep s (raiseInj s src heads detail inj) := by
  have ho := raiseInj_only s src heads detail inj
  exact ⟨⟨raiseInj_sticky_mono s src heads detail inj, raiseInj_judges s src heads detail inj, fun hq => ringsQuiet_of_only hq ho (by decide),
    fun hw => (congrArg Rng.work (ho.2 .rng (by decide))).trans hw⟩,
    placesKept_of_only ho (by decide)⟩

theorem clearEntry_judges (s : State) (src : Nat) : fltJudges (clearEntry s src) = fltJudges s := by
  have ho := clearEntry_only s src
  exact fltJudges_congr (congrArg Pwr.domains (ho.2 .pwr (by decide))) (ho.2 .rst (by decide))

theorem storeStep_setLevel (s : State) (src inst heads detail : Nat) (on : Bool) : StoreStep s (setLevel s src inst heads detail on) := by
  have ho := setLevel_only s src inst heads detail on
  refine ⟨⟨fun i => setLevel_sticky_mono s src inst heads detail on i, ?_, fun hq => ringsQuiet_of_only hq ho (by decide),
    fun hw => (congrArg Rng.work (ho.2 .rng (by decide))).trans hw⟩,
    placesKept_of_only ho (by decide)⟩
  unfold setLevel
  extract_lets has s1
  split
  · split
    · rfl
    · exact raiseInj_judges _ _ _ _ false
  · split
    · split
      · rfl
      · exact clearEntry_judges ..
    · rfl

theorem storeStep_spendInj (s : State) : StoreStep s (spendInj s) := by
  have hset : ∀ w, StoreStep s (setRegAt s 0x12080 w) := fun w => storeStep_of_only (setRegAt_only ..) (by decide)
  exact storeStep_trans (hset _) (storeStep_setLevel ..)

theorem storeStep_modSector (s : State) (p : Nat) (f : Sector → Sector) : StoreStep s (modSector s p f) :=
  ⟨harmless_of_kps _ _, ⟨rfl, rfl, rfl, rfl, rfl⟩⟩

theorem storeStep_cblRecord (s : State) (kind number target outcome : Nat) :
    StoreStep s (cblRecord s kind number target outcome) := storeStep_kpsRequest ..

theorem storeStep_cblFind (s : State) (kind target : Nat) (pixels : List (Nat × Nat)) : StoreStep s (cblFind s kind target pixels) := by
  unfold cblFind
  extract_lets s1
  have h1 : StoreStep s s1 := storeStep_raiseInj s 56 0 (kind * 4096 + target) false
  have hcbl : ∀ f, StoreStep s1 (modCbl s1 f) := fun f => storeStep_of_only (modCbl_only s1 f) (by decide)
  have hopen : ∀ u p, StoreStep u (setProposal u kind p) := fun u p => storeStep_of_only (setProposal_only u kind p) (by decide)
  refine storeStep_ite ?_ (storeStep_ite ?_ h1)
  · exact storeStep_trans (storeStep_trans h1 (storeStep_trans (hcbl _) (hopen _ _))) (storeStep_cblRecord ..)
  · exact storeStep_trans h1 (hcbl _)

theorem storeStep_cblDone (s : State) (kind number target outcome : Nat) : StoreStep s (cblDone s kind number target outcome) := by
  have hcbl : ∀ f, StoreStep s (modCbl s f) := fun f => storeStep_of_only (modCbl_only s f) (by decide)
  exact storeStep_trans (hcbl _) (storeStep_cblRecord ..)

theorem storeStep_sectorCandidate (s : State) (p : Nat) : StoreStep s (sectorCandidate s p) := by
  unfold sectorCandidate
  extract_lets e s1
  have h1 : StoreStep s s1 := storeStep_trans (storeStep_modSector ..) (storeStep_cblFind ..)
  exact storeStep_ite (storeStep_refl s) (storeStep_ite (storeStep_trans h1 (storeStep_kpsRequest ..)) h1)

theorem storeStep_programmePhysical (s : State) (p o : Nat) (bs : List Byte) : StoreStep s (programmePhysical s p o bs) := by
  unfold programmePhysical
  extract_lets lo hi inside inj two s1 s2 s3
  have h1 : StoreStep s s1 := ⟨harmless_of_kps _ _, ⟨rfl, rfl, rfl, rfl, rfl⟩⟩
  have h2 : StoreStep s s2 := storeStep_ite (storeStep_trans h1 (storeStep_spendInj s1)) h1
  have h3 : StoreStep s s3 := storeStep_trans h2 (storeStep_modSector ..)
  exact storeStep_ite (storeStep_trans h3 (storeStep_sectorCandidate ..)) h3

theorem storeStep_programme (s : State) (a : Nat) (bs : List Byte) : StoreStep s (programme s a bs) := by
  unfold programme
  split
  · exact storeStep_programmePhysical ..
  · exact storeStep_refl s

theorem storeStep_swapSector (s : State) (p : Nat) : StoreStep s (swapSector s p) := by
  unfold swapSector
  split
  · exact storeStep_refl s
  · next q _ =>
    extract_lets old data bads s1 s2 s3
    have h1 : StoreStep s s1 := storeStep_programmePhysical ..
    have h2 : StoreStep s s2 := storeStep_trans h1 ⟨harmless_of_kps _ _, ⟨rfl, rfl, rfl, rfl, rfl⟩⟩
    have h3 : StoreStep s s3 := storeStep_trans h2 (storeStep_modSector ..)
    exact storeStep_trans (storeStep_trans (storeStep_trans h3 (storeStep_modSector ..)) (storeStep_cblDone ..)) (storeStep_setLevel ..)

theorem storeStep_lastCorrected (s : State) (p : Nat) (inj : Bool) : StoreStep (raiseInj s 4 0 0 inj) (lastCorrected s p inj) := by
  unfold lastCorrected
  extract_lets s1 s2 s3
  have h3 : StoreStep s1 s3 := storeStep_trans (storeStep_modSector s1 p _) ⟨harmless_of_kps _ _, ⟨rfl, rfl, rfl, rfl, rfl⟩⟩
  exact storeStep_ite h3 (storeStep_trans h3 (storeStep_kpsRequest ..))

theorem storeStep_lastUncorrectable (s : State) (p : Nat) : StoreStep (raise s 5 0 0) (lastUncorrectable s p) :=
  storeStep_sectorCandidate ..

/-! ## The end of an EVENTLOG record's operation (20 R664, R666, R668) -/

theorem length_fit (n : Nat) (bs : List Byte) : (fit n bs).length = n := by simp [fit]

theorem length_eventSlot (r : List Byte) (n : Nat) : (eventSlot r n).length = 64 := by simp [eventSlot, length_fit, length_leBytes]

theorem candidateMarked_data (s : State) (p : Nat) : (candidateMarked s p).kps.data = s.kps.data := by
  unfold candidateMarked
  split <;> rfl

/-- What a programme writes is what its sector then holds. -/
theorem programmePhysical_data (s : State) (p o : Nat) (bs : List Byte) : (programmePhysical s p o bs).kps.data
    = Store.putList (fun _ => 0#8) s.kps.data (4096 * p + o) bs := by
  unfold programmePhysical
  extract_lets lo hi inside inj two s1 s2 s3
  have h2 : s2.kps.data = s1.kps.data := by
    unfold s2
    split
    · exact (spendInj_store s1).data
    · rfl
  have h3 : s3.kps.data = s1.kps.data := h2
  split
  · exact (storeAlike_sectorCandidate s3 p).data.trans ((candidateMarked_data s3 p).trans h3)
  · exact h3

/-- A programme of EVENTLOG's slot that was written: the next slot and the next number. -/
theorem opWritten_event (s : State) (sd : Bool) (r : List Byte) : (opWritten s (.eventlog sd r)).kps.evtSlot = (s.kps.evtSlot + 1) % 4096
    ∧ (opWritten s (.eventlog sd r)).kps.evtSeq = (s.kps.evtSeq + 1) % 2 ^ 32
    ∧ Harmless s (opWritten s (.eventlog sd r))
    ∧ ∀ p, servingSector s ((regionStart 4 + 64 * s.kps.evtSlot) / 4096) = some p → (opWritten s (.eventlog sd r)).kps.data
      = Store.putList (fun _ => 0#8) s.kps.data (4096 * p + (regionStart 4 + 64 * s.kps.evtSlot) % 4096) (eventSlot r s.kps.evtSeq) := by
  obtain ⟨h1, h2⟩ := storeStep_programme s (regionStart 4 + 64 * s.kps.evtSlot) (eventSlot r s.kps.evtSeq)
  refine ⟨congrArg (fun n => (n + 1) % 4096) h2.slot, congrArg (fun n => (n + 1) % 2 ^ 32) h2.seq, harmless_trans h1 ⟨fun _ h => h, rfl, id, id⟩,
    fun p hp => ?_⟩
  change (programme s _ _).kps.data = _
  rw [programme, hp]
  exact programmePhysical_data ..

/-- A programme of EVENTLOG's slot that failed is reported (20 R666). -/
theorem opFailed_event (s : State) (sd : Bool) (r : List Byte) : Harmless (raise s 7 0 0) (opFailed s (.eventlog sd r)) := by
  have hlost : ∀ u, Harmless u (opLost u (.eventlog sd r)) := fun u =>
    harmless_trans (harmless_of_kps u fun k => { k with evtSlot := (k.evtSlot + 1) % 4096 }) (storeStep_kpsRequest ..).harmless
  unfold opFailed
  extract_lets s1
  split
  · exact hlost s1
  · next p _ =>
    extract_lets s2
    have h2 : Harmless s1 s2 := (storeStep_trans (storeStep_cblFind s1 1 p []) (storeStep_modSector ..)).harmless
    split
    · exact harmless_trans (harmless_trans h2 (storeStep_swapSector s2 p).harmless) (opWritten_event (swapSector s2 p) sd r).2.2.1
    · exact harmless_trans h2 (hlost s2)

/-- Only a record that the light memory holds is read from there. -/
theorem storeRead_event {s : State} {sd : Bool} {r : List Byte} (h : s.kps.current = some (.eventlog sd r)) : storeRead s = s := by
  have hr : storeRanges s = [] := by rw [storeRanges, h]
  have he : errorsIn s [] = [] := List.filter_eq_nil_iff.mpr fun _ _ => Bool.false_ne_true
  have hbad : anyBad s [] = false := by
    unfold anyBad
    rw [he]
    rfl
  have hread : clientRead s none [] = s := by
    unfold clientRead
    rw [he]
    rfl
  unfold storeRead
  dsimp only
  rw [hr, hbad, if_neg Bool.false_ne_true, hread, ite_self]

theorem kpsEnd_event {s : State} {sd : Bool} {r : List Byte} (h : s.kps.current = some (.eventlog sd r)) (ok : Bool) :
    kpsEnd s ok = kpsTake (lastRests (if ok then opWritten (modKps s fun k => { k with current := none }) (.eventlog sd r)
      else opFailed (modKps s fun k => { k with current := none }) (.eventlog sd r))) := by
  rw [kpsEnd, h]

theorem storeAlike_lastRests (s : State) : StoreAlike s (lastRests s) := by
  unfold lastRests
  exact storeAlike_ite ⟨rfl, rfl, rfl⟩ ⟨rfl, rfl, rfl⟩

/-- The end of an EVENTLOG record's operation: its sector has been dealt with as `u` shows, and what follows leaves the sectors,
the records' places and the sticky bits alone. -/
theorem operationEnd_event {s : State} {sd : Bool} {r : List Byte} (hq : ringsQuiet s = true)
    (h : s.kps.current = some (.eventlog sd r)) (ok : Bool) {t : State}
    (ht : t = inOneCycle (fun s => ringSettle (kpsEnd (storeRead s) ok)) s) :
    ∃ c u, (u = if ok then opWritten (modKps (inCycle c s) fun k => { k with current := none }) (.eventlog sd r)
        else opFailed (modKps (inCycle c s) fun k => { k with current := none }) (.eventlog sd r))
      ∧ StoreAlike u t ∧ PlacesKept u t ∧ ∀ i, u.flt.sticky.getLsbD i = true → t.flt.sticky.getLsbD i = true := by
  obtain ⟨c, ho⟩ := inOneCycle_window (fun s => ringSettle (kpsEnd (storeRead s) ok)) s
  let s1 := modKps (inCycle c s) fun k => { k with current := none }
  let u := if ok then opWritten s1 (.eventlog sd r) else opFailed s1 (.eventlog sd r)
  have hu : Harmless s1 u := by
    unfold u
    split
    · exact (opWritten_event s1 sd r).2.2.1
    · exact harmless_trans (storeStep_raiseInj s1 7 0 0 false).harmless (opFailed_event s1 sd r)
  have hend : StoreStep u (kpsTake (lastRests u)) := storeStep_trans (storeStep_lastRests u) (storeStep_kpsTake _)
  have hquiet : ringsQuiet (kpsTake (lastRests u)) = true := hend.harmless.quiet (hu.quiet hq)
  have he : ringSettle (kpsEnd (storeRead (inCycle c s)) ok) = kpsTake (lastRests u) := by
    rw [storeRead_event (s := inCycle c s) h, kpsEnd_event (s := inCycle c s) h]
    exact ringSettle_of_quiet hquiet
  have ho' : onlyChanges [.out, .free, .pwr, .rng, .hif, .net] (kpsTake (lastRests u)) t := by
    rw [ht, ← he]
    exact ho
  refine ⟨c, u, rfl, ?_, placesKept_trans hend.places (placesKept_of_only ho' (by decide)), fun i hi => ?_⟩
  · exact storeAlike_trans (storeAlike_trans (storeAlike_lastRests u) (storeAlike_kpsTake _)) (storeAlike_of_only ho' (by decide))
  · rw [sticky_of_onlyChanges ho' (by decide)]
    exact hend.harmless.sticky i hi

/-! ## The scrubber (20 R673, R674) -/

/-- The scrubber's own place after one sector, with the unreadable word that it has met. -/
def scrubMoved (s : State) (bad : Option Nat) : State :=
  modKps (match bad with
    | some w => modKps s (fun k => { k with badWords := k.badWords ++ [512 * s.kps.scrubPos + w % 512] })
    | none => s) (fun k =>
      { k with scrubPos := (s.kps.scrubPos + 1) % 2048,
               passes := if (s.kps.scrubPos + 1) % 2048 = 0 then (k.passes + 1) % 65536 else k.passes })

theorem scrubMoved_leaves (s : State) (bad : Option Nat) : (scrubMoved s bad).kps.scrubPos = (s.kps.scrubPos + 1) % 2048
    ∧ (scrubMoved s bad).kps.passes = (if (s.kps.scrubPos + 1) % 2048 = 0 then (s.kps.passes + 1) % 65536 else s.kps.passes)
    ∧ Harmless s (scrubMoved s bad) := by
  cases bad with
  | none => exact ⟨rfl, rfl, harmless_of_kps _ _⟩
  | some w => exact ⟨rfl, rfl, ⟨fun _ h => h, rfl, id, id⟩⟩

/-- The scrubber reads its sector and moves on; what it finds is reported unless the sector is out of service. -/
theorem kpsScrub_leaves {s : State} (hl : lastLive s = true) (hb : regBit s 0x1C000 0 = true) (found : Bool) (bad : Option Nat) :
    PlacesKept (scrubMoved s bad) (kpsScrub s found bad) ∧ (fltJudges s = true → (sectorOf s s.kps.scrubPos).state ≠ 2 →
      (found = true → (kpsScrub s found bad).flt.sticky.getLsbD 4 = true)
      ∧ (bad.isSome = true → (kpsScrub s found bad).flt.sticky.getLsbD 5 = true)) := by
  unfold kpsScrub
  rw [if_neg (by rw [hl, hb]; decide)]
  extract_lets p e weak s0 uncorr q s1 s2 s3 s4
  have h1 : s1 = scrubMoved s bad := by
    cases bad <;> rfl
  have h2 : StoreStep s1 s2 := storeStep_ite
    (storeStep_trans (storeStep_raiseInj s1 4 0 0 weak) (storeStep_lastCorrected s1 p weak)) (storeStep_refl s1)
  have h3 : StoreStep s2 s3 := storeStep_ite (storeStep_sectorCandidate s2 p) (storeStep_refl s2)
  have h4 : StoreStep s3 s4 := storeStep_ite
    (storeStep_trans (storeStep_raiseInj s3 5 0 0 false) (storeStep_lastUncorrectable s3 p)) (storeStep_refl s3)
  have hjudge : fltJudges s1 = fltJudges s := by
    rw [h1]
    exact (scrubMoved_leaves s bad).2.2.judges
  rw [← h1]
  split
  · next hout => exact ⟨placesKept_refl s1, fun _ hne => absurd hout hne⟩
  · refine ⟨?_, fun hj _ => ⟨fun hf => ?_, fun hbad => ?_⟩⟩
    · exact (storeStep_trans (storeStep_trans h2 (storeStep_trans h3 h4)) (storeStep_modSector ..)).places
    · change s4.flt.sticky.getLsbD 4 = true
      refine (storeStep_trans h3 h4).harmless.sticky 4 ?_
      have he : s2 = lastCorrected s1 p weak := if_pos (by rw [hf]; rfl)
      rw [he]
      exact (storeStep_lastCorrected s1 p weak).harmless.sticky 4 (raiseInj_sticky_self s1 4 0 0 weak (hjudge.trans hj) (by decide))
    · change s4.flt.sticky.getLsbD 5 = true
      have hu : uncorr = true := by
        obtain ⟨w, rfl⟩ := Option.isSome_iff_exists.mp hbad
        refine List.any_eq_true.mpr ⟨512 * p + w % 512, List.mem_append_right _ (List.mem_singleton_self _), ?_⟩
        rw [beq_iff_eq]
        omega
      have he : s4 = lastUncorrectable s3 p := if_pos hu
      have hj3 : fltJudges s3 = true := (storeStep_trans h2 h3).harmless.judges.trans (hjudge.trans hj)
      rw [he]
      exact (storeStep_lastUncorrectable s3 p).harmless.sticky 5 (raise_sticky_self s3 5 0 0 hj3 (by decide))

/-! ## Fuses (20 R679, R680) -/

theorem fuseProgramWrite_eq (s : State) (v : Word) : (fuseProgramWrite s v).kps
    = if (decide (fld v 31 16 = 0x2148) && (decide (fld v 6 0 = 64 ∧ fld v 11 7 = 0) || decide (65 ≤ fld v 6 0 ∧ fld v 6 0 ≤ 126))
        && s.saf.unlocked && s.kps.fuseBusy.isNone) then { s.kps with fuseBusy := some (fld v 6 0, fld v 11 7) }
      else { s.kps with fuseRefused := true } := by
  unfold fuseProgramWrite
  dsimp only
  rw [apply_ite State.kps]
  refine if_congr ?_ rfl rfl
  simp only [Bool.and_eq_true, Bool.or_eq_true, decide_eq_true_eq, and_assoc]

theorem fuseBlown_of_blown {s t : State} (h : t.kps.blown = s.kps.blown) (x y : Nat) : fuseBlown t x y = fuseBlown s x y := by
  rw [fuseBlown, fuseOf, h, ← fuseOf, ← fuseBlown]

theorem fuseEnd_failed {s : State} {w k : Nat} (h : s.kps.fuseBusy = some (w, k)) : (fuseEnd s false).kps.fuseBusy = none
    ∧ (fuseEnd s false).kps.fuseVerify = true ∧ (fuseEnd s false).kps.blown = s.kps.blown := by
  unfold fuseEnd
  rw [h]
  exact ⟨rfl, rfl, rfl⟩

theorem fuseEnd_verified {s : State} {w k : Nat} (h : s.kps.fuseBusy = some (w, k)) : (fuseEnd s true).kps.fuseBusy = none
    ∧ (fuseEnd s true).kps.blown = Store.put (fun _ => 0#32) s.kps.blown w (Store.get (fun _ => 0#32) s.kps.blown w ||| bitAt k true) := by
  unfold fuseEnd
  rw [h]
  exact ⟨rfl, rfl⟩

theorem bit_own {k : Nat} (hk : k < 32) (y : Nat) : bit (bitAt k true) y = decide (y = k) := by
  by_cases hy : y < 32
  · rw [bit_bitAt true hy, Bool.and_true]
  · rw [bit_of_le _ (Nat.le_of_not_lt hy), decide_eq_false (by omega)]

/-- A verified blow sets its own bit of its own word. -/
theorem fuseBlown_verified {s t : State} {w k : Nat} (hw : w < 128) (hk : k < 32)
    (h : t.kps.blown = Store.put (fun _ => 0#32) s.kps.blown w (Store.get (fun _ => 0#32) s.kps.blown w ||| bitAt k true)) (x y : Nat) :
    fuseBlown t x y = (fuseBlown s x y || decide (x = w ∧ y = k)) := by
  unfold fuseBlown fuseOf
  rw [h]
  by_cases hx : x = w
  · subst hx
    rw [Store.get_put_same, if_pos hw, if_pos hw]
    simp only [bit_or, bit_own hk, true_and, Bool.or_assoc]
  · rw [Store.get_put_other _ _ _ _ _ hx]
    simp [hx]

/-! ## The register window (20 R683) -/

/-- A read of the keeping store through the window changes no register. -/
theorem windowWord_regs (s : State) (hi : Bool) : (windowWord s hi).2.regs = s.regs := by
  have htouch : ∀ a n, (lastTouch s a n).regs = s.regs := fun a n => by
    unfold lastTouch
    extract_lets v weak bad holes s1
    have h0 : onlyChanges [.out, .free, .flt, .saf, .pwr, .rng, .hif, .bld, .lanes, .kps, .cbl] s (weak.foldl (fun t p => lastCorrected t p true) s) :=
      foldl_only (onlyChanges_refl _ _) fun t p => onlyChanges_mono (lastCorrected_only t p true) (by simp +contextual)
    have h1 : onlyChanges [.out, .free, .flt, .saf, .pwr, .rng, .hif, .bld, .lanes, .kps, .cbl] s s1 :=
      foldl_only h0 fun t p => lastUncorrectable_only t p
    exact (regs_of_onlyChanges (raiseTimes_only ..) (by decide)).trans (regs_of_onlyChanges h1 (by decide))
  unfold windowWord
  extract_lets a
  split
  · split
    next r s1 he =>
      have hs : s1.regs = s.regs := by
        rw [← htouch a 8]
        exact congrArg (fun p : Option (List Byte) × State => p.2.regs) he.symm
      split
      · exact hs
      · exact hs
  · rfl

theorem windowReadHiOp_leaves (s : State) : regAt (windowReadHiOp s).2 0x1C070 = (regAt s 0x1C070 + 8#32) &&& 0x7FFFF8#32
    ∧ otherWords (0x1C070 / 4) s (windowReadHiOp s).2 := by
  have h := windowWord_regs s true
  have hr : regAt (windowWord s true).2 0x1C070 = regAt s 0x1C070 := getReg_of_regs h _
  have he : (windowReadHiOp s).2
      = setRegAt (windowWord s true).2 0x1C070 ((regAt (windowWord s true).2 0x1C070 + 8#32) &&& 0x7FFFF8#32) := rfl
  rw [he, regAt_setRegAt_same _ _ rfl, hr]
  exact ⟨rfl, fun i hi => (getReg_setReg_other _ _ _ _ hi).trans (getReg_of_regs h i)⟩

/-! ## The statement -/

/-- Settles O54: the writer by what its operation leaves, the scrubber, the fuses and the window by theirs. -/
theorem keepingStore : Obligations.KeepingStore := by
  unfold Obligations.KeepingStore
  refine ⟨fun s sd r hq h => ⟨?_, fun hj => ?_⟩, fun s found bad hl hb => ?_, fun s b v ok h hok => ?_,
    fun s w k hl hf hw hk => ⟨?_, ?_⟩, fun s b h => ?_⟩
  · obtain ⟨c, u, hu, halike, hplaces, -⟩ := operationEnd_event hq h true rfl
    obtain ⟨e1, e2, -, e4⟩ := opWritten_event (modKps (inCycle c s) fun k => { k with current := none }) sd r
    rw [if_pos rfl] at hu
    rw [← hu] at e1 e2 e4
    refine ⟨_, rfl, hplaces.slot.trans e1, hplaces.seq.trans e2, fun p i hi hp => ?_⟩
    have hlen : i < (eventSlot r s.kps.evtSeq).length := by rw [length_eventSlot]; exact hi
    rw [halike.data, e4 p hp]
    refine (Store.get_putList_in _ _ _ _ i hlen).trans ?_
    rw [List.getD_eq_getElem _ _ hlen]
  · obtain ⟨c, u, hu, -, -, hsticky⟩ := operationEnd_event hq h false rfl
    rw [if_neg Bool.false_ne_true] at hu
    refine ⟨_, rfl, hsticky 7 ?_⟩
    rw [hu]
    exact (opFailed_event _ sd r).sticky 7 (raise_sticky_self _ 7 0 0 hj (by decide))
  · obtain ⟨c, ho⟩ := inOneCycle_window (fun s => kpsScrub s found bad) s
    obtain ⟨e1, e2⟩ := kpsScrub_leaves (s := inCycle c s) hl hb found bad
    obtain ⟨m1, m2, -⟩ := scrubMoved_leaves (inCycle c s) bad
    have hp := placesKept_trans e1 (placesKept_of_only ho (by decide))
    refine ⟨_, rfl, hp.scrub.trans m1, hp.passes.trans m2, fun hj hs => ?_⟩
    rw [sticky_of_onlyChanges ho (by decide)]
    exact e2 hj hs
  · obtain ⟨c, t, ht, ho⟩ := writeAlone_window (v := v) h (by decide) (open_fuseProg s) (fun u => route_fuseProg u v)
    have hkps : t.kps = (fuseProgramWrite (atWindow b (0x1C080 / 4) c s) v).kps := ho.2 .kps (by decide)
    refine ⟨t, ht, hkps.trans ((fuseProgramWrite_eq ..).trans ?_)⟩
    rw [hok]
    simp only [atWindow_fields]
  · obtain ⟨c, ho⟩ := inOneCycle_window (fun s => if lastLive s then fuseEnd s true else s) s
    rw [if_pos (show lastLive (inCycle c s) = true from hl)] at ho
    obtain ⟨e1, e2⟩ := fuseEnd_verified (s := inCycle c s) hf
    have hkps := ho.2 .kps (by decide)
    have hblown := fuseBlown_verified hw hk ((congrArg Kps.blown hkps).trans e2)
    refine ⟨_, rfl, ?_, fun x y hxy => ?_, (congrArg Kps.fuseBusy hkps).trans e1⟩
    · rw [hblown]
      simp
    · rw [hblown, decide_eq_false fun he => hxy (Prod.ext he.1 he.2), Bool.or_false]
      rfl
  · obtain ⟨c, ho⟩ := inOneCycle_window (fun s => if lastLive s then fuseEnd s false else s) s
    rw [if_pos (show lastLive (inCycle c s) = true from hl)] at ho
    obtain ⟨e1, e2, e3⟩ := fuseEnd_failed (s := inCycle c s) hf
    have hkps := ho.2 .kps (by decide)
    exact ⟨_, rfl, fuseBlown_of_blown ((congrArg Kps.blown hkps).trans e3), (congrArg Kps.fuseBusy hkps).trans e1,
      (congrArg Kps.fuseVerify hkps).trans e2⟩
  · obtain ⟨c, ho⟩ := busRead_window h (by decide) (by decide)
    have hregs := regs_of_onlyChanges ho (by decide)
    obtain ⟨e1, e2⟩ := windowReadHiOp_leaves (atRead b c s)
    have hat : (atRead b c s).regs = s.regs := regs_of_onlyChanges (atRead_only b c s) (by decide)
    have hreg : ∀ i, getReg (busRead s b 0x1C078) i = getReg (windowReadHiOp (atRead b c s)).2 i := getReg_of_regs hregs
    refine ⟨_, rfl, ?_, fun i hi => ?_⟩
    · rw [regAt, hreg, ← regAt, e1, regAt, getReg_of_regs hat, regAt]
    · rw [hreg, e2 i hi, getReg_of_regs hat]

end Sys2Proof.Machine
end

section
/-! SUPPORT. The BLOCK reaches: what each block returns to reset and what it keeps (12 R492, 13 R505, 14 R518, 15 R545, 16 R584,
19 R642 to R644, 20 R682). -/

namespace Sys2Proof.Machine

/-! ## Cleared windows (19 R643) -/

theorem store_get_dropped {α : Type} (d : Nat → α) (m : Store α) (p : Nat → Bool) (k : Nat) (h : p k = false) :
    Store.get d (m.filter (fun e => p e.1)) k = d k := by
  induction m with
  | nil => rfl
  | cons x m ih =>
    obtain ⟨j, w⟩ := x
    by_cases hj : j = k
    · subst hj
      rw [List.filter_cons_of_neg (by simp [h]), ih]
    · by_cases hp : p j = true
      · rw [List.filter_cons_of_pos (by exact hp), Store.get, if_neg hj, ih]
      · rw [List.filter_cons_of_neg (by simpa using hp), ih]

/-- Every word of a window holds its reset value. -/
structure WindowReset (window : Nat) (s : State) : Prop where
  words : ∀ i, i / 1024 = window → getReg s i = regReset i

theorem windowReset_of_regs {window : Nat} {s t : State} (h : WindowReset window s) (hr : t.regs = s.regs) : WindowReset window t :=
  ⟨fun i hi => (getReg_of_regs hr i).trans (h.words i hi)⟩

theorem windowReset_clearWindow (s : State) (base : Nat) : WindowReset (base / 4096) (clearWindow s base []) :=
  ⟨fun i hi => store_get_dropped regReset s.regs (fun j => !(j / 1024 == base / 4096) || ([] : List Nat).contains (4 * j)) i (by simp [hi])⟩

theorem getReg_clearWindow_other (s : State) (base : Nat) (keep : List Nat) {i : Nat}
    (h : i / 1024 ≠ base / 4096 ∨ keep.contains (4 * i) = true) : getReg (clearWindow s base keep) i = getReg s i := by
  refine Store.get_filter regReset s.regs (fun j => !(j / 1024 == base / 4096) || keep.contains (4 * j)) i ?_
  rcases h with h | h
  · simp [h]
  · rw [h, Bool.or_true]

theorem dropLevels_leaves (s : State) (srcs : List Nat) : onlyChanges [.free, .flt] s (dropLevels s srcs) :=
  foldl_only (onlyChanges_refl _ _) fun _ _ => setLevel_off_only ..

theorem abortWork_idle {s : State} (h : s.rng.work = []) (opcodes : List Nat) : abortWork s opcodes = s := by
  rw [abortWork, h]
  rfl

/-! ## Each block's reset -/

/-- What is left of the work where none executes before. -/
abbrev idleKept (s t : State) : Prop := s.rng.work = [] → t.rng.work = []

theorem idle_of_only {ps : List Part} {s t : State} (hw : s.rng.work = []) (h : onlyChanges ps s t) (hp : Part.rng ∉ ps) :
    t.rng.work = [] := (congrArg Rng.work (h.2 .rng hp)).trans hw

theorem resetNet_leaves {s : State} (hw : s.rng.work = []) : (resetNet s).rng.work = [] ∧ (resetNet s).net = Net.reset
    ∧ WindowReset 13 (resetNet s) ∧ WindowReset 11 (resetNet s) ∧ laneOf (resetNet s) 16 = Lane.reset
    ∧ laneOf (resetNet s) 17 = Lane.reset := by
  unfold resetNet
  rw [abortWork_idle hw]
  extract_lets s1 s2 s3
  have h13 : WindowReset 13 s2 := ⟨fun i hi => (getReg_clearWindow_other _ 0x0B000 [] (.inl (by rw [hi]; decide))).trans
    ((windowReset_clearWindow s1 0x0D000).words i hi)⟩
  have h11 : WindowReset 11 s2 := windowReset_clearWindow _ 0x0B000
  let m := modLane (modLane s3 16 (fun _ => Lane.reset)) 17 (fun _ => Lane.reset)
  have ho : onlyChanges [.free, .flt] m (dropLevels m [31, 32]) := dropLevels_leaves _ _
  have hregs : (dropLevels m [31, 32]).regs = s2.regs := (regs_of_onlyChanges ho (by decide)).trans rfl
  have hlane : ∀ l, laneOf (dropLevels m [31, 32]) l = laneOf m l := fun l => by
    rw [laneOf, (ho.2 .lanes (by decide)).1, ← laneOf]
  refine ⟨idle_of_only (s := m) hw ho (by decide), ho.2 .net (by decide), windowReset_of_regs h13 hregs, windowReset_of_regs h11 hregs,
    ?_, ?_⟩
  · rw [hlane, laneOf_modLane_other _ _ _ _ (by decide), laneOf_modLane_same]
  · rw [hlane, laneOf_modLane_same]

theorem resetCle_leaves (s : State) : idleKept s (resetCle s) ∧ (resetCle s).cle.running = none ∧ (resetCle s).cle.waiting = []
    ∧ getReg (resetCle s) (0x0F008 / 4) = getReg s (0x0F008 / 4) := by
  unfold resetCle
  extract_lets s1
  have ho := fun u => dropLevels_leaves u [43]
  refine ⟨fun hw => (congrArg Rng.work ((ho _).2 .rng (by decide))).trans hw, ?_, ?_, ?_⟩
  · rw [(ho _).2 .cle (by decide)]
    rfl
  · rw [(ho _).2 .cle (by decide)]
    rfl
  · exact (getReg_of_regs (regs_of_onlyChanges (ho _) (by decide)) _).trans
      (getReg_clearWindow_other s _ _ (.inr (by decide)))

theorem resetLce_leaves {s : State} (hw : s.rng.work = []) : (resetLce s).rng.work = []
    ∧ ∀ c, c < 2 → chainOf (resetLce s) c = { Chain.reset with last := (chainOf s c).last } := by
  unfold resetLce
  rw [abortWork_idle hw]
  refine ⟨hw, fun c hc => ?_⟩
  have h2 : c = 0 ∨ c = 1 := by omega
  simp only [List.foldl_cons, List.foldl_nil]
  rcases h2 with rfl | rfl
  · rw [chainOf_modChain_other _ _ _ _ (by decide), chainOf_modChain_same]
    rfl
  · rw [chainOf_modChain_same, chainOf_modChain_other _ _ _ _ (by decide)]
    rfl

theorem resetCrc_leaves {s : State} (hw : s.rng.work = []) : (resetCrc s).rng.work = [] ∧ (resetCrc s).crc = Crc.reset
    ∧ WindowReset 17 (resetCrc s) := by
  unfold resetCrc
  rw [abortWork_idle hw]
  exact ⟨hw, rfl, windowReset_of_regs (windowReset_clearWindow s 0x11000) rfl⟩

theorem resetHkp_leaves (s : State) : idleKept s (resetHkp s) ∧ (resetHkp s).hkp.band = s.hkp.band ∧ (resetHkp s).hkp.level = s.hkp.level
    ∧ (resetHkp s).hkp.vals = s.hkp.vals ∧ (resetHkp s).hkp.busy = false := by
  have ho : onlyChanges [.out, .free, .flt, .saf, .pwr, .hif, .bld, .lanes] (hkpBlockReset s) (resetHkp s) :=
    onlyChanges_then (onlyChanges_then (bandLevels_only _) (sensorLevels_only _) rfl) (dropLevels_only _ _) rfl
  have hb : (hkpBlockReset s).rng = s.rng := rfl
  have hk : (resetHkp s).hkp = (hkpBlockReset s).hkp := ho.2 .hkp (by decide)
  refine ⟨fun hw => idle_of_only (hb ▸ hw) ho (by decide), ?_, ?_, ?_, ?_⟩ <;> rw [hk] <;> rfl

theorem resetFlt_leaves (s : State) : idleKept s (resetFlt s) ∧ (resetFlt s).flt.sticky = 0#64 ∧ (resetFlt s).flt.counts = []
    ∧ (resetFlt s).flt.priorSticky = s.flt.priorSticky ∧ WindowReset 18 (resetFlt s) := by
  have hset : ∀ u, (settle u).flt = u.flt := fun u => (settle_leaves u).2.2.1
  have hregs : ∀ u, (settle u).regs = u.regs := fun u => (settle_leaves u).2.1
  have hrng : ∀ u, (settle u).rng = u.rng := fun u => (settle_only u).2 .rng (by decide)
  unfold resetFlt
  refine ⟨fun hw => (congrArg Rng.work (hrng _)).trans hw, ?_, ?_, ?_, ?_⟩
  · rw [hset]
    rfl
  · rw [hset]
    rfl
  · rw [hset]
    rfl
  · exact windowReset_of_regs (windowReset_clearWindow s 0x12000) ((hregs _).trans rfl)

/-- A session that ends leaves of the safety functions all but the heads, its own marks apart. -/
theorem headsOnly_endSession {s : State} (hu : s.saf.unlocked = true) (note : Bool) :
    HeadsOnly (modSaf s fun e => { e with unlocked := false, committing := false }) (endSession s note) := by
  unfold endSession
  rw [if_neg (by rw [hu]; decide)]
  extract_lets s0 s1 s2
  have h0 : s0.saf = s.saf := by
    unfold s0
    split
    · exact (commitLeaves_only s).2 .saf (by decide)
    · rfl
  have h1 : HeadsOnly (modSaf s fun e => { e with unlocked := false, committing := false }) s1 :=
    headsOnly_of_saf (congrArg (fun e : Saf => { e with unlocked := false, committing := false }) h0)
  have h2 : HeadsOnly s1 s2 := by
    unfold s2
    split
    · exact headsOnly_of_rests (writeRwl_leaves s1 _).1
    · exact headsOnly_of_rests (writeInj_disarm_saf s1)
  split
  · exact headsOnly_trans (headsOnly_trans h1 h2) (headsOnly_of_only (logNote_only s2 2) (by decide))
  · exact headsOnly_trans h1 h2

theorem idle_endSession (s : State) (note : Bool) : idleKept s (endSession s note) := by
  intro hw
  have hnote : ∀ u k, idleKept u (logNote u k) := fun u k hu => by
    unfold logNote
    split
    next p u1 h1 =>
      split
      next c u2 h2 =>
        have r1 : u1.rng = u.rng := by
          have h := (drawBelow_only u (2 ^ 32)).2 .rng (by decide)
          rw [h1] at h
          exact h
        have r2 : u2.rng = u1.rng := by
          have h := (drawBelow_only u1 (2 ^ 32)).2 .rng (by decide)
          rw [h2] at h
          exact h
        exact (storeStep_kpsRequest u2 _).harmless.idle (by rw [r2, r1, hu])
  unfold endSession
  split
  · exact hw
  · extract_lets s0 s1 s2
    have h0 : s0.rng.work = [] := by
      unfold s0
      split
      · exact (storeStep_kpsTake _).harmless.idle hw
      · exact hw
    have h2 : s2.rng.work = [] := by
      unfold s2
      split
      · exact idle_of_only (s := s1) h0 (writeRwl_only s1 _) (by decide)
      · exact idle_of_only (s := s1) h0 (writeInj_only s1 _) (by decide)
    split
    · exact hnote _ _ h2
    · exact h2

theorem resetSaf_leaves (s : State) : idleKept s (resetSaf s) ∧ (resetSaf s).saf.unlocked = false ∧ (resetSaf s).saf.image = s.saf.image
    ∧ (resetSaf s).saf.dark = s.saf.dark ∧ (resetSaf s).saf.stop = s.saf.stop := by
  refine ⟨fun hw => idle_endSession s true hw, ?_⟩
  change (endSession s true).saf.unlocked = false ∧ (endSession s true).saf.image = s.saf.image
    ∧ (endSession s true).saf.dark = s.saf.dark ∧ (endSession s true).saf.stop = s.saf.stop
  by_cases hu : s.saf.unlocked = true
  · rw [(headsOnly_endSession hu true).saf]
    exact ⟨rfl, rfl, rfl, rfl⟩
  · rw [endSession_of_closed (by simpa using hu)]
    exact ⟨by simpa using hu, rfl, rfl, rfl⟩

/-! ## The keeping store's reset (20 R662, R667, R682) -/

theorem storeStep_drawBelow (s : State) (n : Nat) : StoreStep s (drawBelow s n).2 := storeStep_of_only (drawBelow_only s n) (by decide)

theorem storeStep_mixWords (s : State) (p : Nat) (new : Kps) (n : Nat) : StoreStep s (mixWords s p new n) := by
  induction n generalizing s with
  | zero => exact storeStep_refl s
  | succ n ih =>
    unfold mixWords
    split
    next k s1 h1 =>
      have hd : StoreStep s s1 := by
        have h := storeStep_drawBelow s 2
        rw [h1] at h
        exact h
      extract_lets w marks s2
      have h2 : StoreStep s1 s2 := storeStep_ite ⟨harmless_of_kps _ _, ⟨rfl, rfl, rfl, rfl, rfl⟩⟩ (storeStep_refl s1)
      exact storeStep_trans (storeStep_trans hd h2) (ih s2)

theorem storeStep_kpsInterrupt (s : State) : StoreStep s (kpsInterrupt s) := by
  unfold kpsInterrupt
  split
  · exact storeStep_refl s
  · next o _ =>
    extract_lets s1 spent
    have h1 : StoreStep s s1 := ⟨harmless_of_kps _ _, ⟨rfl, rfl, rfl, rfl, rfl⟩⟩
    have hspent : ∀ u, StoreStep u (spent u) := fun u => storeStep_ite (storeStep_spendInj u) (storeStep_refl u)
    split
    · next p _ _ _ =>
      split
      next k s2 h2 =>
        have hd : StoreStep s1 s2 := by
          have h := storeStep_drawBelow s1 2
          rw [h2] at h
          exact h
        split
        · exact storeStep_trans (storeStep_trans h1 hd) (storeStep_swapSector s2 p)
        · exact storeStep_trans (storeStep_trans h1 hd) (storeStep_trans (hspent s2) (storeStep_mixWords ..))
    · exact storeStep_trans h1 (storeStep_trans (hspent s1) (storeStep_mixWords ..))
    · exact h1

theorem resetKps_leaves {s : State} (hw : s.rng.work = []) : (resetKps s).rng.work = [] ∧ (resetKps s).kps.current = none
    ∧ (resetKps s).kps.waiting = [] ∧ (resetKps s).kps.blown = s.kps.blown := by
  unfold resetKps
  extract_lets s0 s1 s2
  have h0 : s0.rng = s.rng ∧ s0.kps = s.kps := by
    unfold s0
    split <;> exact ⟨rfl, rfl⟩
  have hw0 : s0.rng.work = [] := (congrArg Rng.work h0.1).trans hw
  have hcals : (abortCals s0).rng.work = [] ∧ (abortCals s0).kps = s0.kps := by
    have ho := abortCals_only s0
    refine ⟨?_, ho.2 .kps (by decide)⟩
    unfold abortCals
    extract_lets due
    refine foldl_inv (fun u => u.rng.work = []) _ _ _ hw0 fun u c hu => ?_
    exact List.eq_nil_iff_forall_not_mem.mpr fun w hm => by
      have hin := completeAt_rests u c.ring c.slot 3 0 0#32 w hm
      rw [hu] at hin
      exact List.not_mem_nil hin
  have h1 : s1 = kpsInterrupt (abortCals s0) := by
    unfold s1
    rw [abortWork_idle hw0]
  obtain ⟨i1, i2⟩ := storeStep_kpsInterrupt (abortCals s0)
  refine ⟨?_, rfl, rfl, ?_⟩
  · change s1.rng.work = []
    rw [h1]
    exact i1.idle hcals.1
  · change s1.kps.blown = _
    rw [h1, i2.blown, hcals.2, h0.2]

theorem resetCbl_leaves (s : State) : idleKept s (resetCbl s) ∧ (resetCbl s).cbl = Cbl.reset ∧ WindowReset 23 (resetCbl s) := by
  have ho := retireAbandon_only s
  refine ⟨fun hw => (congrArg Rng.work (ho.2 .rng (by decide))).trans hw, rfl, windowReset_of_regs (windowReset_clearWindow (retireAbandon s) 0x17000) rfl⟩

/-! ## A BLOCK reach of one block (19 R642, R643) -/

/-- What a reset of block `k` leaves of the state `s` before it, `t` after it. -/
def blockLeft (k : Nat) (s t : State) : Prop :=
  (k = 0 → t.net = Net.reset ∧ (∀ i, i / 1024 = 13 ∨ i / 1024 = 11 → getReg t i = regReset i)
    ∧ laneOf t 16 = Lane.reset ∧ laneOf t 17 = Lane.reset)
  ∧ (k = 1 → t.cle.running = none ∧ t.cle.waiting = [] ∧ getReg t (0x0F008 / 4) = getReg s (0x0F008 / 4))
  ∧ (k = 2 → ∀ c, c < 2 → chainOf t c = { Chain.reset with last := (chainOf s c).last })
  ∧ (k = 3 → t.crc = Crc.reset ∧ (∀ i, i / 1024 = 17 → getReg t i = regReset i))
  ∧ (k = 4 → t.hkp.band = s.hkp.band ∧ t.hkp.level = s.hkp.level ∧ t.hkp.vals = s.hkp.vals ∧ t.hkp.busy = false)
  ∧ (k = 5 → t.flt.sticky = 0#64 ∧ t.flt.counts = [] ∧ t.flt.priorSticky = s.flt.priorSticky
    ∧ (∀ i, i / 1024 = 18 → getReg t i = regReset i))
  ∧ (k = 6 → t.saf.unlocked = false ∧ t.saf.image = s.saf.image ∧ t.saf.dark = s.saf.dark ∧ t.saf.stop = s.saf.stop)
  ∧ (k = 7 → t.kps.current = none ∧ t.kps.waiting = [] ∧ t.kps.blown = s.kps.blown)
  ∧ (k = 8 → t.cbl = Cbl.reset ∧ (∀ i, i / 1024 = 23 → getReg t i = regReset i))

/-- What the answer of the port and the network's frames leave is left. -/
theorem blockLeft_of_only {k : Nat} {s t u : State} (h : blockLeft k s t) (ho : onlyChanges [.out, .net] t u)
    (hn : t.net = Net.reset → u.net = Net.reset) : blockLeft k s u := by
  obtain ⟨h0, h1, h2, h3, h4, h5, h6, h7, h8⟩ := h
  have hreg : ∀ i, getReg u i = getReg t i := getReg_of_regs (regs_of_onlyChanges ho (by decide))
  have hlane : ∀ l, laneOf u l = laneOf t l := fun l => by rw [laneOf, (ho.2 .lanes (by decide)).1, ← laneOf]
  have hchain : ∀ c, chainOf u c = chainOf t c := fun c => by rw [chainOf, ho.2 .lce (by decide), ← chainOf]
  have hflt := fltCore_of_onlyChanges ho (by decide)
  unfold fltCore at hflt
  injection hflt with e1 _ _ _ e2 _ _ _ _ _ _ e3
  refine ⟨fun hk => ?_, fun hk => ?_, fun hk c hc => (hchain c).trans (h2 hk c hc), fun hk => ?_, fun hk => ?_, fun hk => ?_, fun hk => ?_,
    fun hk => ?_, fun hk => ?_⟩
  · obtain ⟨a, b, c, d⟩ := h0 hk
    exact ⟨hn a, fun i hi => (hreg i).trans (b i hi), (hlane 16).trans c, (hlane 17).trans d⟩
  · rw [ho.2 .cle (by decide), hreg]
    exact h1 hk
  · obtain ⟨a, b⟩ := h3 hk
    exact ⟨(ho.2 .crc (by decide)).trans a, fun i hi => (hreg i).trans (b i hi)⟩
  · rw [ho.2 .hkp (by decide)]
    exact h4 hk
  · obtain ⟨a, b, c, d⟩ := h5 hk
    exact ⟨e1.trans a, e2.trans b, e3.trans c, fun i hi => (hreg i).trans (d i hi)⟩
  · rw [ho.2 .saf (by decide)]
    exact h6 hk
  · rw [ho.2 .kps (by decide)]
    exact h7 hk
  · obtain ⟨a, b⟩ := h8 hk
    exact ⟨(ho.2 .cbl (by decide)).trans a, fun i hi => (hreg i).trans (b i hi)⟩

/-- A block that is in work when it is reset is reported first (19 R644). -/
def resetNoted (s : State) (k : Nat) : State := if blockBusy s k then raise s 57 0 k else s

theorem resetNoted_leaves (s : State) (k : Nat) : onlyChanges [.out, .free, .flt, .saf, .pwr, .hif, .bld, .lanes] s (resetNoted s k)
    ∧ HeadsOnly s (resetNoted s k) ∧ resetNoted s 5 = s := by
  refine ⟨?_, ?_, rfl⟩ <;> unfold resetNoted <;> split
  · exact raise_only ..
  · exact onlyChanges_refl _ _
  · exact headsOnly_of_rests (raise_leaves ..).1
  · exact ⟨rfl⟩

/-- The block that a number names returns to reset. -/
def resetCore (s : State) : Nat → State
  | 0 => resetNet s
  | 1 => resetCle s
  | 2 => resetLce s
  | 3 => resetCrc s
  | 4 => resetHkp s
  | 5 => resetFlt s
  | 6 => resetSaf s
  | 7 => resetKps s
  | _ => resetCbl s

theorem resetBlock_eq (s : State) (k : Nat) : resetBlock s k = modRst (resetCore (resetNoted s k) k)
    (fun r => { r with blocks := if r.blocks.contains k then r.blocks else r.blocks ++ [k] }) := by
  unfold resetBlock resetCore resetNoted
  rcases k with _ | _ | _ | _ | _ | _ | _ | _ | _ <;> rfl

theorem resetCore_left {s : State} (hw : s.rng.work = []) {k : Nat} (hk : k < 9) :
    (resetCore s k).rng.work = [] ∧ blockLeft k s (resetCore s k) := by
  match k, hk with
  | 0, _ =>
    obtain ⟨a, b, c, d, e, f⟩ := resetNet_leaves hw
    rw [show resetCore s 0 = resetNet s from rfl]
    exact ⟨a, fun _ => ⟨b, fun i hi => hi.elim (c.words i) (d.words i), e, f⟩, nofun, nofun, nofun, nofun, nofun, nofun, nofun, nofun⟩
  | 1, _ =>
    obtain ⟨a, b⟩ := resetCle_leaves s
    rw [show resetCore s 1 = resetCle s from rfl]
    exact ⟨a hw, nofun, fun _ => b, nofun, nofun, nofun, nofun, nofun, nofun, nofun⟩
  | 2, _ =>
    obtain ⟨a, b⟩ := resetLce_leaves hw
    rw [show resetCore s 2 = resetLce s from rfl]
    exact ⟨a, nofun, nofun, fun _ => b, nofun, nofun, nofun, nofun, nofun, nofun⟩
  | 3, _ =>
    obtain ⟨a, b, c⟩ := resetCrc_leaves hw
    rw [show resetCore s 3 = resetCrc s from rfl]
    exact ⟨a, nofun, nofun, nofun, fun _ => ⟨b, c.words⟩, nofun, nofun, nofun, nofun, nofun⟩
  | 4, _ =>
    obtain ⟨a, b⟩ := resetHkp_leaves s
    rw [show resetCore s 4 = resetHkp s from rfl]
    exact ⟨a hw, nofun, nofun, nofun, nofun, fun _ => b, nofun, nofun, nofun, nofun⟩
  | 5, _ =>
    obtain ⟨a, b, c, d, e⟩ := resetFlt_leaves s
    rw [show resetCore s 5 = resetFlt s from rfl]
    exact ⟨a hw, nofun, nofun, nofun, nofun, nofun, fun _ => ⟨b, c, d, e.words⟩, nofun, nofun, nofun⟩
  | 6, _ =>
    obtain ⟨a, b⟩ := resetSaf_leaves s
    rw [show resetCore s 6 = resetSaf s from rfl]
    exact ⟨a hw, nofun, nofun, nofun, nofun, nofun, nofun, fun _ => b, nofun, nofun⟩
  | 7, _ =>
    obtain ⟨a, b⟩ := resetKps_leaves hw
    rw [show resetCore s 7 = resetKps s from rfl]
    exact ⟨a, nofun, nofun, nofun, nofun, nofun, nofun, nofun, fun _ => b, nofun⟩
  | 8, _ =>
    obtain ⟨a, b, c⟩ := resetCbl_leaves s
    rw [show resetCore s 8 = resetCbl s from rfl]
    exact ⟨a hw, nofun, nofun, nofun, nofun, nofun, nofun, nofun, nofun, fun _ => ⟨b, c.words⟩⟩

theorem resetCore_rst (s : State) {k : Nat} (hk : k < 9) : (resetCore s k).rst = s.rst := by
  match k, hk with
  | 0, _ =>
    rw [show resetCore s 0 = resetNet s from rfl]
    exact (resetNet_only s).2 .rst (by decide)
  | 1, _ =>
    rw [show resetCore s 1 = resetCle s from rfl]
    exact (resetCle_only s).2 .rst (by decide)
  | 2, _ =>
    rw [show resetCore s 2 = resetLce s from rfl]
    exact (resetLce_only s).2 .rst (by decide)
  | 3, _ =>
    rw [show resetCore s 3 = resetCrc s from rfl]
    exact (resetCrc_only s).2 .rst (by decide)
  | 4, _ =>
    rw [show resetCore s 4 = resetHkp s from rfl]
    exact (resetHkp_only s).2 .rst (by decide)
  | 5, _ =>
    rw [show resetCore s 5 = resetFlt s from rfl]
    exact (resetFlt_only s).2 .rst (by decide)
  | 6, _ =>
    rw [show resetCore s 6 = resetSaf s from rfl]
    exact (resetSaf_only s).2 .rst (by decide)
  | 7, _ =>
    rw [show resetCore s 7 = resetKps s from rfl]
    exact (resetKps_only s).2 .rst (by decide)
  | 8, _ =>
    rw [show resetCore s 8 = resetCbl s from rfl]
    exact (resetCbl_only s).2 .rst (by decide)

/-- What a block keeps is the same from a state that agrees in what is kept. -/
theorem blockLeft_from {s u t : State} {k : Nat} (h : blockLeft k u t) (hr : u.regs = s.regs) (hl : u.lce = s.lce) (hh : u.hkp = s.hkp)
    (hp : u.kps = s.kps) (hs : HeadsOnly s u) (hf : k = 5 → u.flt.priorSticky = s.flt.priorSticky) : blockLeft k s t := by
  obtain ⟨h0, h1, h2, h3, h4, h5, h6, h7, h8⟩ := h
  have hchain : ∀ c, chainOf u c = chainOf s c := fun c => by rw [chainOf, hl, ← chainOf]
  refine ⟨h0, fun hk => ?_, fun hk c hc => ?_, h3, fun hk => ?_, fun hk => ?_, fun hk => ?_, fun hk => ?_, h8⟩
  · rw [← getReg_of_regs hr]
    exact h1 hk
  · rw [← hchain]
    exact h2 hk c hc
  · rw [← hh]
    exact h4 hk
  · rw [← hf hk]
    exact h5 hk
  · obtain ⟨a, b, c, d⟩ := h6 hk
    exact ⟨a, b.trans ((congrArg Saf.image hs.saf).trans rfl), c.trans ((congrArg Saf.dark hs.saf).trans rfl),
      d.trans ((congrArg Saf.stop hs.saf).trans rfl)⟩
  · rw [← hp]
    exact h7 hk

theorem blockLeft_noted {s t : State} {k : Nat} (h : blockLeft k (resetNoted s k) t) : blockLeft k s t := by
  obtain ⟨ho, hsaf, h5⟩ := resetNoted_leaves s k
  refine blockLeft_from h (regs_of_onlyChanges ho (by decide)) (ho.2 .lce (by decide)) (ho.2 .hkp (by decide)) (ho.2 .kps (by decide)) hsaf
    fun hk => ?_
  subst hk
  rw [h5]

/-- A reset block is held, no other is, and what it was is left as its own rule says. -/
theorem resetBlock_leaves {s : State} (hw : s.rng.work = []) {k : Nat} (hk : k < 9) : (resetBlock s k).rng.work = []
    ∧ (resetBlock s k).rst = { s.rst with blocks := if s.rst.blocks.contains k then s.rst.blocks else s.rst.blocks ++ [k] }
    ∧ blockLeft k s (resetBlock s k) := by
  obtain ⟨ho, -, -⟩ := resetNoted_leaves s k
  have hw1 : (resetNoted s k).rng.work = [] := idle_of_only hw ho (by decide)
  obtain ⟨c1, c2⟩ := resetCore_left hw1 hk
  have hrst : (resetCore (resetNoted s k) k).rst = s.rst := (resetCore_rst _ hk).trans (ho.2 .rst (by decide))
  rw [resetBlock_eq]
  exact ⟨c1, congrArg (fun r : Rst => { r with blocks := if r.blocks.contains k then r.blocks else r.blocks ++ [k] }) hrst,
    blockLeft_noted c2⟩

/-! ## The write of RST_BLOCK (19 R642, R643) -/

/-- No frame waits in a network block at reset. -/
theorem framesGo_net_reset {s : State} (h : s.net = Net.reset) (before : State) : (framesGo before s).net = Net.reset := by
  have hflush : ∀ u p, u.net = Net.reset → (rxFlush u p).net = Net.reset := fun u p hu => by
    have hport : portOf u p = NetPort.reset := by
      rw [portOf, hu]
      rfl
    have hwait : (portOf u p).waiting = [] := by
      rw [hport]
      rfl
    rw [rxFlush, hwait, List.foldl_nil, modPort, hport, hu]
    have hput : Store.put (fun _ => NetPort.reset) Net.reset.ports p { NetPort.reset with waiting := [] } = [] := if_pos rfl
    rw [hput]
    rfl
  unfold framesGo
  split
  · exact hflush _ _ (hflush _ _ h)
  · exact h

/-- A served write that leaves no work: its answer and, where a low-power state has ended, the dropped frames follow it. -/
theorem ran_window_of_noWork {b : Bus} {idx : Nat} {f : State → State} {s t : State} (h : ran b idx f s t)
    (hw : ∀ c, (f (atWindow b idx c s)).rng.work = []) :
    ∃ c, onlyChanges [.out, .net] (f (atWindow b idx c s)) t ∧ ((f (atWindow b idx c s)).net = Net.reset → t.net = Net.reset) := by
  obtain ⟨c, g, hg, rfl⟩ := h
  have ha := answered_only b (f (atWindow b idx c s))
  have hwork : (answered b (f (atWindow b idx c s))).rng.work = [] := idle_of_only (hw c) ha (by decide)
  refine ⟨c, onlyChanges_trans (onlyChanges_mono ha (by simp)) (onlyChanges_trans
    (onlyChanges_mono (framesGo_of_noWork hwork _) (by simp)) (onlyChanges_mono (mark_only _ g hg) (by simp))), fun hn => ?_⟩
  exact framesGo_net_reset ((ha.2 .net (by decide)).trans hn) _

theorem blocks_of_bitAt {k : Nat} (hk : k < 9) : (List.range 9).filter (fun b => bit (bitAt k true) b) = [k] := by
  interval_cases k <;> decide

/-- The state in which a write of RST_BLOCK has marked its cause. -/
def causeMarked (s : State) : State := modRst s (fun r => { r with cause := r.cause ||| bitAt 16 true })

theorem writeRstBlock_one {s : State} (hs : sequencing s = false) {k : Nat} (hk : k < 9) :
    writeRstBlock s (bitAt k true) = resetOrDefer (causeMarked s) k := by
  unfold writeRstBlock
  dsimp only
  rw [hs, if_neg Bool.false_ne_true, blocks_of_bitAt hk]
  rfl

theorem cause_marked (s : State) : bit (causeMarked s).rst.cause 16 = true := by
  change bit (s.rst.cause ||| bitAt 16 true) 16 = true
  rw [bit_or, bit_bitAt true (by decide), decide_eq_true rfl, Bool.true_and, Bool.or_true]

theorem ringsIdle_work {s : State} (h : ringsIdle s = true) : s.rng.work = [] :=
  List.isEmpty_iff.mp ((Bool.and_eq_true _ _).mp h).1

/-- What the write leaves before its answer: the block waits, or is reset. -/
theorem writeRstBlock_leaves {s : State} (hw : s.rng.work = []) (hs : sequencing s = false) {k : Nat} (hk : k < 9) :
    (writeRstBlock s (bitAt k true)).rng.work = [] ∧ bit (writeRstBlock s (bitAt k true)).rst.cause 16 = true
    ∧ (domainState s (blockDomain k) ≠ 2 → k ∈ (writeRstBlock s (bitAt k true)).rst.deferred
      ∧ (writeRstBlock s (bitAt k true)).rst.blocks = s.rst.blocks)
    ∧ (domainState s (blockDomain k) = 2 → (writeRstBlock s (bitAt k true)).rst.blocks
        = (if s.rst.blocks.contains k then s.rst.blocks else s.rst.blocks ++ [k])
      ∧ blockLeft k s (writeRstBlock s (bitAt k true))) := by
  have hdom : domainState (causeMarked s) (blockDomain k) = domainState s (blockDomain k) := rfl
  rw [writeRstBlock_one hs hk, resetOrDefer, hdom]
  split
  · next hd =>
    obtain ⟨e1, e2, e3⟩ := resetBlock_leaves (s := causeMarked s) hw hk
    exact ⟨e1, by rw [e2]; exact cause_marked s, fun hn => absurd hd hn, fun _ => ⟨by rw [e2]; rfl, e3⟩⟩
  · next hd =>
    refine ⟨hw, cause_marked s, fun _ => ⟨?_, rfl⟩, fun h => absurd h hd⟩
    change k ∈ if s.rst.deferred.contains k then s.rst.deferred else s.rst.deferred ++ [k]
    split
    · next h => exact List.contains_iff_mem.mp h
    · exact List.mem_append_right _ (List.mem_singleton_self k)

/-- The end of a BLOCK reach releases the block (19 R643). -/
theorem blockReleases_rst {s : State} {k : Nat} (h : blockHeld s k = true) :
    (blockReleases s k).rst = { s.rst with blocks := s.rst.blocks.filter (fun x => x != k) } := by
  unfold blockReleases
  rw [h, if_neg (by decide)]
  extract_lets s1
  have hset : ∀ u, (settle u).rst = u.rst := fun u => (settle_only u).2 .rst (by decide)
  split
  · exact (hset _).trans ((beginJudging_only s1).2 .rst (by decide))
  · exact (kpsReady_only s1).2 .rst (by decide)
  · rfl

/-- Settles O51: a write of RST_BLOCK by what it leaves of its one block, a release by the blocks that stay held. -/
theorem blockResets : Obligations.BlockResets := by
  unfold Obligations.BlockResets
  refine ⟨fun s b v k h hi hs hk hv => ?_, fun s k hi hh => ?_⟩
  · subst hv
    have hw := ringsIdle_work hi
    obtain ⟨t, ht, hran⟩ := writeSettles_ran s b 0x16008 (bitAt k true) (fun u => writeRstBlock u (bitAt k true)) h (by decide)
      (open_rstBlock s) (fun u => route_rstBlock u _)
    have hat : ∀ c, (atWindow b (0x16008 / 4) c s).rng.work = [] ∧ sequencing (atWindow b (0x16008 / 4) c s) = false := fun c =>
      ⟨by simp [hw], by simpa [sequencing] using hs⟩
    obtain ⟨c, ho, hn⟩ := ran_window_of_noWork hran fun c => (writeRstBlock_leaves (hat c).1 (hat c).2 hk).1
    obtain ⟨e1, e2, e3, e4⟩ := writeRstBlock_leaves (hat c).1 (hat c).2 hk
    have hrst := ho.2 .rst (by decide)
    have hrest : ringSettle t = t := ringSettle_of_noWork (idle_of_only e1 ho (by decide))
    rw [hrest] at ht
    have hblocks : (atWindow b (0x16008 / 4) c s).rst = s.rst := by simp
    refine ⟨fun hd => ?_, fun hd => ?_⟩
    · obtain ⟨f1, f2⟩ := e3 (by rwa [domainState_atWindow])
      exact ⟨t, ht, by rw [hrst]; exact f1, by rw [hrst, f2, hblocks], by rw [hrst]; exact e2⟩
    · obtain ⟨f1, f2⟩ := e4 (by rwa [domainState_atWindow])
      rw [hblocks] at f1
      have hprior : (atWindow b (0x16008 / 4) c s).flt.priorSticky = s.flt.priorSticky := by
        have hflt := fltCore_of_onlyChanges (atWindow_only b (0x16008 / 4) c s) (by decide)
        unfold fltCore at hflt
        injection hflt
      have hleft : blockLeft k s t := blockLeft_from (blockLeft_of_only f2 ho hn) (by simp) (by simp) (by simp) (by simp)
        (headsOnly_of_saf (by simp)) fun _ => hprior
      have hheld : ∀ j, blockHeld t j = (s.rst.blocks.contains j || j == k) := fun j => by
        rw [blockHeld, hrst, f1]
        split
        · next hc =>
          by_cases hj : j = k
          · rw [hj, hc]
            rfl
          · rw [beq_false_of_ne hj, Bool.or_false]
        · simp [List.contains_eq_mem, Bool.decide_or, beq_eq_decide]
      exact ⟨t, ht, by rw [hheld, beq_self_eq_true, Bool.or_true], fun j hj => by rw [hheld, beq_false_of_ne hj, Bool.or_false, blockHeld],
        by rw [hrst]; exact e2, hleft⟩
  · obtain ⟨c, ho⟩ := inOneCycle_window (fun s => ringSettle (blockReleases s k)) s
    refine ⟨_, rfl, ?_⟩
    rw [ho.2 .rst (by decide), (ringSettle_only _).2 .rst (by decide), blockReleases_rst (s := inCycle c s) hh]
    rfl

end Sys2Proof.Machine
end

section
/-! SUPPORT. No output is taken back by what a fault, a tile's packets or a completion sends (01 R26, 10 R374, 16 R549, 02 R81). -/

namespace Sys2Proof.Machine

/-! ## Lanes and packets -/

theorem outGrows_sendLanes (s : State) (h : Head) (c : LaneCmd) : outGrows s (sendLanes s h c) := by
  unfold sendLanes
  refine outGrows_ite (outGrows_trans (outGrows_emit s (.lanes h c)) ?_) (outGrows_of_eq rfl)
  exact outGrows_foldl _ _ _ fun u l => outGrows_sendSymbols u (laneIndex h l) (commandSymbols c)

/-- A command that a head's live lanes carry leaves on them. -/
theorem sendLanes_sends {s : State} {h : Head} (hl : linkLive s h = true) (ha : someLaneActive s h = true) (c : LaneCmd) :
    Output.lanes h c ∈ (sendLanes s h c).out := by
  have hemit : Output.lanes h c ∈ (emit s (.lanes h c)).out := List.mem_append_right _ List.mem_cons_self
  rw [sendLanes, if_pos (by simp [hl, ha])]
  exact (outGrows_foldl _ _ _ fun u l => outGrows_sendSymbols u (laneIndex h l) (commandSymbols c)).subset hemit

theorem outGrows_emitPacket (s : State) (h : Head) (t seq : Nat) (p : Packet) : outGrows s (emitPacket s h t seq p) :=
  outGrows_trans (outGrows_ite (outGrows_emit ..) (outGrows_of_eq rfl)) (outGrows_sendSymbols ..)

theorem outGrows_pump (n : Nat) (s : State) (h : Head) (t : Nat) : outGrows s (pump n s h t) := by
  induction n generalizing s with
  | zero => exact outGrows_of_eq rfl
  | succ n ih =>
    rw [pump]
    split
    · exact outGrows_of_eq rfl
    next p rest _ =>
      refine outGrows_ite ?_ (outGrows_of_eq rfl)
      extract_lets seq s1
      have h1 : outGrows s s1 := outGrows_emitPacket ..
      have h2 : outGrows s (modTile s1 h t fun e =>
          { e with queue := rest, unacked := e.unacked ++ [(seq, p)], txSeq := (seq + 1) % 256 }) := outGrows_trans h1 (outGrows_of_eq rfl)
      exact outGrows_trans h2 (ih _)

theorem outGrows_sendConfig (s : State) (h : Head) (t : Nat) : outGrows s (sendConfig s h t) := by
  unfold sendConfig
  split
  next e s1 he =>
    have h1 : outGrows s s1 := by
      have hs := outGrows_of_only (newEpoch_only s h t) (by decide)
      rw [he] at hs
      exact hs
    extract_lets body p s2
    have h2 : outGrows s1 s2 := outGrows_emitPacket ..
    exact outGrows_trans h1 (outGrows_trans h2 (outGrows_of_eq rfl))

theorem outGrows_updateConfig (s : State) (h : Head) (t : Nat) : outGrows s (updateConfig s h t) := by
  unfold updateConfig sendPackets
  extract_lets body
  have h0 : outGrows s (modTile (modTile s h t fun x => { x with config := body }) h t
      fun e => { e with queue := e.queue ++ [{ ptype := 1, fsn := 0, body := body }] }) := outGrows_of_eq rfl
  exact outGrows_trans h0 (outGrows_pump ..)

theorem outGrows_reconfigure (s : State) (h : Head) : outGrows s (reconfigure s h) := by
  unfold reconfigure
  refine outGrows_foldl _ _ _ fun u t => ?_
  unfold reconfigTile
  exact outGrows_ite (outGrows_of_eq rfl) (outGrows_ite (outGrows_sendConfig ..) (outGrows_ite (outGrows_updateConfig ..) (outGrows_of_eq rfl)))

/-! ## Faults (15 R523 to R530, 16 R549) -/

theorem outGrows_settleHead (s : State) (h : Head) : outGrows s (settleHead s h) := by
  have hfour : ∀ u c, outGrows u (sendFour u h c) := fun u c => outGrows_foldl _ _ _ fun v _ => outGrows_sendLanes v h c
  unfold settleHead
  extract_lets old st p s0 s1 s2
  have h1 : outGrows s s1 := by
    have h01 : onlyChanges [.saf, .bld] s0 s1 := onlyChanges_ite
      (onlyChanges_trans (onlyChanges_mono (degradeApply_only s0 h) (by simp)) (onlyChanges_mono (headroomApply_only _ h) (by simp)))
      (onlyChanges_refl _ _)
    exact outGrows_trans (t := s0) (outGrows_of_eq rfl) (outGrows_of_only h01 (by decide))
  have h2 : outGrows s1 s2 := outGrows_ite (hfour ..) (outGrows_ite (hfour ..) (outGrows_of_eq rfl))
  exact outGrows_trans h1 (outGrows_trans h2 (outGrows_ite (outGrows_of_only (wake_only s2 2) (by decide)) (outGrows_of_eq rfl)))

theorem outGrows_settle (s : State) : outGrows s (settle s) := outGrows_trans (outGrows_settleHead s .a) (outGrows_settleHead _ .b)

theorem outGrows_raiseInj (s : State) (src named detail : Nat) (inj : Bool) : outGrows s (raiseInj s src named detail inj) := by
  unfold raiseInj
  refine outGrows_ite (outGrows_ite (outGrows_of_eq rfl) (outGrows_of_eq rfl)) ?_
  extract_lets heads
  split
  next t s0 he =>
    have h0 : outGrows s s0 := by
      have hs := outGrows_of_only (stampCore_only s) (by decide)
      rw [he] at hs
      exact hs
    extract_lets sev was e f f1 f2 s1 s2 s3
    have h1 : outGrows s0 s1 := outGrows_of_eq rfl
    have h2 : outGrows s1 s2 := outGrows_ite (outGrows_signalMsix ..) (outGrows_of_eq rfl)
    have h3 : outGrows s2 s3 := outGrows_ite (outGrows_of_only (wake_only s2 4) (by decide)) (outGrows_of_eq rfl)
    exact outGrows_trans h0 (outGrows_trans h1 (outGrows_trans h2 (outGrows_trans h3 (outGrows_settle s3))))

theorem outGrows_setLevel (s : State) (src inst heads detail : Nat) (on : Bool) : outGrows s (setLevel s src inst heads detail on) := by
  unfold setLevel
  extract_lets has
  refine outGrows_ite (outGrows_ite (outGrows_of_eq rfl) ?_) (outGrows_ite ?_ (outGrows_of_eq rfl))
  · have h0 : outGrows s (modFlt s fun f => { f with live := f.live ++ [(src, inst, heads, detail)] }) := outGrows_of_eq rfl
    exact outGrows_trans h0 (outGrows_raiseInj ..)
  · have h1 : outGrows s (modFlt s fun f => { f with live := f.live.filter fun e => !(e.1 == src && e.2.1 == inst) }) := outGrows_of_eq rfl
    exact outGrows_ite h1 (outGrows_trans h1 (outGrows_of_only (clearEntry_only _ src) (by decide)))

theorem outGrows_spendInj (s : State) : outGrows s (spendInj s) :=
  outGrows_trans (outGrows_of_only (setRegAt_only ..) (by decide)) (outGrows_setLevel ..)

theorem outGrows_cblFind (s : State) (kind target : Nat) (pixels : List (Nat × Nat)) : outGrows s (cblFind s kind target pixels) := by
  have hrec : ∀ u k n t o, outGrows u (cblRecord u k n t o) := fun u k n t o => outGrows_of_only (cblRecord_only u k n t o) (by decide)
  unfold cblFind
  extract_lets s1
  have h1 : outGrows s s1 := outGrows_raiseInj ..
  have hopen : ∀ n, outGrows s1 (setProposal (modCbl s1 fun c => { c with number := n }) kind
      (some { number := n, target := target, pixels := pixels })) := fun _ => outGrows_of_eq rfl
  exact outGrows_ite (outGrows_trans h1 (outGrows_trans (hopen _) (hrec ..))) (outGrows_ite (outGrows_trans h1 (outGrows_of_eq rfl)) h1)

/-! ## Completions at a stitch and records (02 R71, R81, R92) -/

theorem outGrows_completeStitch (s : State) (ring slot code detail : Nat) (fsn time : Word) :
    outGrows s (completeStitch s ring slot code detail fsn time) := by
  unfold completeStitch leaveWork
  split
  · exact outGrows_of_eq rfl
  next w _ =>
    have h0 : outGrows s (dropWork s ring slot) := outGrows_of_eq rfl
    refine outGrows_ite h0 ?_
    unfold completeDescAt
    exact outGrows_ite (outGrows_of_eq rfl) (outGrows_trans h0 (outGrows_writeCpl ..))

theorem outGrows_completeSet (s : State) (ms : List Member) (code detail : Nat) (replayed : Bool) (fsn time : Word) :
    outGrows s (completeSet s ms code detail replayed fsn time) := by
  have hfree : ∀ l : List Member, outGrows s (l.foldl (fun acc m => releaseSlot acc m.cpl) s) := fun l =>
    outGrows_foldl _ _ _ fun u m => outGrows_of_only (modRing_only u m.cpl _) (by decide)
  unfold completeSet completeMember
  split
  · exact outGrows_of_eq rfl
  · exact outGrows_trans (hfree _) (outGrows_writeCpl ..)

theorem outGrows_recordOutcome (s : State) (h : Head) (o : Outcome86) : outGrows s (recordOutcome s h o) := by
  unfold recordOutcome replayComplete
  extract_lets rh due s1
  have h1 : outGrows s s1 := outGrows_of_eq rfl
  exact outGrows_trans h1 (outGrows_foldl _ _ _ fun v ms => outGrows_ite (outGrows_completeSet ..) (outGrows_completeSet ..))

theorem outGrows_closeSet (s : State) (h : Head) (c : ChangeSet) (code detail : Nat) (fsn time : Word) :
    outGrows s (closeSet s h c code detail fsn time) := by
  unfold closeSet
  extract_lets s1
  have h1 : outGrows s s1 := outGrows_of_eq rfl
  exact outGrows_trans h1 (outGrows_trans (outGrows_completeSet ..) (outGrows_recordOutcome ..))

theorem outGrows_setsComplete (s : State) (h : Head) (fsn time : Word) : outGrows s (setsComplete s h fsn time) := by
  have hclose : ∀ u (c : ChangeSet), outGrows u (closeSet (modRngHead u h fun e => { e with csnApplied := c.csn }) h c 0 0 fsn time) :=
    fun u c => outGrows_trans (t := modRngHead u h fun e => { e with csnApplied := c.csn }) (outGrows_of_eq rfl) (outGrows_closeSet ..)
  unfold setsComplete
  exact outGrows_foldl _ _ _ hclose

theorem outGrows_listsComplete (s : State) (h : Head) (fsn time : Word) : outGrows s (listsComplete s h fsn time) := by
  have hfold : ∀ ls : List ObjList, outGrows s (ls.foldl (fun acc l => completeStitch acc l.ring l.slot 0 0 fsn time) s) := fun ls =>
    outGrows_foldl _ ls s fun u l => outGrows_completeStitch u l.ring l.slot 0 0 fsn time
  unfold listsComplete
  exact outGrows_trans (hfold _) (outGrows_of_eq rfl)

theorem outGrows_calLatch (s : State) (h : Head) (fsn : Word) : outGrows s (calLatch s h fsn) := by
  have hfinish : ∀ u, outGrows u (calFinish u) := fun u => by
    unfold calFinish
    extract_lets ready _ s1
    have h1 : outGrows u s1 := outGrows_of_eq rfl
    exact outGrows_trans h1 (outGrows_foldl _ _ _ fun v c => outGrows_completeAt ..)
  unfold calLatch
  extract_lets s1 s2
  have h1 : outGrows s s1 := outGrows_of_eq rfl
  have h2 : outGrows s s2 := by
    unfold s2
    split
    · exact outGrows_ite (outGrows_trans h1 (outGrows_completeAt ..)) h1
    · exact h1
  exact outGrows_trans h2 (hfinish s2)

theorem outGrows_sendLtr (s : State) (v : Option Nat) : outGrows s (sendLtr s v) := by
  unfold sendLtr
  exact outGrows_ite (outGrows_trans (outGrows_of_eq rfl) (outGrows_emit ..)) (outGrows_of_eq rfl)

theorem outGrows_ltrHigher (s : State) (changed : Bool) : outGrows s (ltrHigher s changed) := by
  unfold ltrHigher
  extract_lets tol s1
  have h1 : outGrows s s1 := outGrows_of_eq rfl
  exact outGrows_ite (outGrows_ite (outGrows_of_eq rfl) (outGrows_trans h1 (outGrows_sendLtr ..))) h1

theorem outGrows_writeRecord (s : State) (role : Nat) (body : List Byte) : outGrows s (writeRecord s role body).2 := by
  unfold writeRecord
  split
  · exact outGrows_of_eq rfl
  next n _ =>
    split
    · exact outGrows_of_eq rfl
    dsimp only
    split
    · exact outGrows_of_eq rfl
    · exact outGrows_trans (outGrows_postWrite ..) (outGrows_ringIrq (advance _ n) _ _)

end Sys2Proof.Machine
end

section
/-! SUPPORT. What a client's access to the light memory may do besides its own work, where it meets a word in error: the sweeps of
a head can lose their composition, no timing generator changes in anything else, no ring wakes and no output is taken back
(03 R115 to R118). -/

namespace Sys2Proof.Machine

/-- Of the timing generators at most the composition of a sweep is lost. -/
structure SweepKept (s t : State) : Prop where
  tg : ∀ h, t.tg.get h = { s.tg.get h with composed := (t.tg.get h).composed, full := (t.tg.get h).full }
  lost : ∀ h, (t.tg.get h).composed = true → (s.tg.get h).composed = true

/-- What an access to the light memory may do besides its own work. -/
structure MemStep (s t : State) : Prop where
  harmless : Harmless s t
  sweep : SweepKept s t
  out : outGrows s t

theorem sweepKept_refl (s : State) : SweepKept s s := ⟨fun _ => rfl, fun _ hc => hc⟩

theorem sweepKept_trans {s t u : State} (h : SweepKept s t) (k : SweepKept t u) : SweepKept s u :=
  ⟨fun x => (k.tg x).trans (by rw [h.tg x]), fun x hc => h.lost x (k.lost x hc)⟩

theorem sweepKept_of_tg {s t : State} (h : t.tg = s.tg) : SweepKept s t := ⟨fun _ => by rw [h], fun _ hc => h ▸ hc⟩

theorem sweepKept_of_only {ps : List Part} {s t : State} (h : onlyChanges ps s t) (hp : Part.tg ∉ ps) : SweepKept s t :=
  sweepKept_of_tg (h.2 .tg hp)

theorem get_modTg (s : State) (h k : Head) (f : Tg → Tg) :
    (modTg s h f).tg.get k = if k = h then f (s.tg.get h) else s.tg.get k := by
  cases h <;> cases k <;> rfl

theorem sweepKept_modTg (s : State) (h : Head) (f : Tg → Tg)
    (hf : ∀ e, f e = { e with composed := (f e).composed, full := (f e).full }) (hc : ∀ e, (f e).composed = true → e.composed = true) :
    SweepKept s (modTg s h f) := by
  refine ⟨fun k => ?_, fun k => ?_⟩ <;> rw [get_modTg] <;> split
  · next hk =>
    subst hk
    exact hf _
  · rfl
  · next hk =>
    subst hk
    exact hc _
  · exact id

theorem memStep_refl (s : State) : MemStep s s := ⟨harmless_refl s, sweepKept_refl s, outGrows_of_eq rfl⟩

theorem memStep_trans {s t u : State} (h : MemStep s t) (k : MemStep t u) : MemStep s u :=
  ⟨harmless_trans h.harmless k.harmless, sweepKept_trans h.sweep k.sweep, outGrows_trans h.out k.out⟩

theorem memStep_ite {p : Prop} [Decidable p] {s t u : State} (h : MemStep s t) (k : MemStep s u) :
    MemStep s (if p then t else u) := by split <;> assumption

theorem memStep_foldl {α : Type} {f : State → α → State} (hf : ∀ u a, MemStep u (f u a)) (l : List α) (s : State) :
    MemStep s (l.foldl f s) :=
  foldl_inv (fun t => MemStep s t) f l s (memStep_refl s) fun t a ht => memStep_trans ht (hf t a)

theorem memStep_of_only {ps : List Part} {s t : State} (h : onlyChanges ps s t)
    (hp : (Part.flt ∉ ps ∧ Part.pwr ∉ ps ∧ Part.rst ∉ ps ∧ Part.rng ∉ ps) ∧ Part.tg ∉ ps ∧ Part.out ∉ ps) : MemStep s t :=
  ⟨harmless_of_only h hp.1, sweepKept_of_only h hp.2.1, outGrows_of_only h hp.2.2⟩

theorem memStep_raiseInj (s : State) (src heads detail : Nat) (inj : Bool) : MemStep s (raiseInj s src heads detail inj) :=
  ⟨(storeStep_raiseInj s src heads detail inj).harmless, sweepKept_of_only (raiseInj_only ..) (by decide), outGrows_raiseInj ..⟩

theorem memStep_raise (s : State) (src heads detail : Nat) : MemStep s (raise s src heads detail) := memStep_raiseInj ..

theorem memStep_setLevel (s : State) (src inst heads detail : Nat) (on : Bool) : MemStep s (setLevel s src inst heads detail on) :=
  ⟨(storeStep_setLevel s src inst heads detail on).harmless, sweepKept_of_only (setLevel_only ..) (by decide), outGrows_setLevel ..⟩

theorem memStep_spendInj (s : State) : MemStep s (spendInj s) :=
  ⟨(storeStep_spendInj s).harmless, sweepKept_of_only (spendInj_only s) (by decide), outGrows_spendInj s⟩

theorem memStep_kpsRequest (s : State) (o : KpsOp) : MemStep s (kpsRequest s o) :=
  ⟨(storeStep_kpsRequest s o).harmless, sweepKept_of_only (kpsRequest_only s o) (by decide), outGrows_of_only (kpsRequest_only s o) (by decide)⟩

theorem memStep_cblFind (s : State) (kind target : Nat) (pixels : List (Nat × Nat)) : MemStep s (cblFind s kind target pixels) :=
  ⟨(storeStep_cblFind s kind target pixels).harmless, sweepKept_of_only (cblFind_only ..) (by decide), outGrows_cblFind ..⟩

theorem memStep_modLmm (s : State) (f : Lmm → Lmm) : MemStep s (modLmm s f) := memStep_of_only (modLmm_only s f) (by decide)

theorem memStep_modBank (s : State) (b : Nat) (f : Bank → Bank) : MemStep s (modBank s b f) := memStep_of_only (modBank_only s b f) (by decide)

theorem memStep_memWrite (s : State) (a : Nat) (bs : List Byte) : MemStep s (memWrite s a bs) := memStep_of_only (memWrite_only s a bs) (by decide)

/-! ## A word in error (03 R116 to R118, R127) -/

theorem memStep_bankCandidate (s : State) (b : Nat) : MemStep s (bankCandidate s b) := by
  unfold bankCandidate
  extract_lets k s1
  have h1 : MemStep s s1 := memStep_trans (memStep_modBank ..) (memStep_cblFind ..)
  refine memStep_ite (memStep_trans (memStep_modBank ..) (memStep_kpsRequest ..)) (memStep_ite (memStep_refl s) ?_)
  exact memStep_ite (memStep_trans h1 (memStep_raise ..)) (memStep_ite (memStep_trans h1 (memStep_modLmm ..)) h1)

theorem memStep_corrected (s : State) (p : Nat) (scrub : Bool) : MemStep s (corrected s p scrub) := by
  have haddr : ∀ u, MemStep u (addressOf u p).2 := fun u => memStep_of_only (addressOf_only u p) (by decide)
  unfold corrected
  extract_lets b stored
  split
  next a s0 he =>
    have h0 : MemStep s s0 := by
      have h := memStep_trans (memStep_raiseInj s 1 0 b ((stored.map Prod.snd).getD false)) (haddr _)
      rw [he] at h
      exact h
    extract_lets s2 s3 s4 thr
    have h3 : MemStep s s3 := memStep_trans (memStep_trans h0 (memStep_modLmm ..)) (memStep_modBank ..)
    have h4 : MemStep s s4 := memStep_ite (memStep_trans h3 (memStep_modLmm ..)) h3
    exact memStep_ite (memStep_trans h4 (memStep_bankCandidate ..)) h4

theorem memStep_injectWord (s : State) (p : Option Nat) : MemStep s (injectWord s p) := by
  unfold injectWord
  split
  · exact memStep_trans (memStep_modLmm ..) (memStep_spendInj _)
  · exact memStep_refl s

theorem memStep_wordWritten (s : State) (w : Nat) : MemStep s (wordWritten s w) := by
  unfold wordWritten
  extract_lets ps s1
  have h1 : MemStep s s1 := memStep_modLmm ..
  split
  · exact memStep_trans h1 (memStep_injectWord ..)
  · exact h1

theorem memStep_repairWord (s : State) (w : Nat) : MemStep s (repairWord s w) := by
  have hflat : ∀ k, MemStep s (flatSpoilt s k) := fun k => memStep_of_only (flatSpoilt_only s k) (by decide)
  have hword : ∀ bs, MemStep s (wordWritten (memWrite s (16 * w) bs) w) := fun bs =>
    memStep_trans (memStep_memWrite ..) (memStep_wordWritten ..)
  have hjrnl : MemStep s (journalSpoilt s) := ⟨⟨fun _ h => h, rfl, id, id⟩, sweepKept_of_tg rfl, outGrows_of_eq rfl⟩
  unfold repairWord
  extract_lets a
  split
  · exact hflat _
  · exact hflat _
  · exact hword _
  · exact hword _
  · exact memStep_ite (hword _) (memStep_refl s)
  · exact memStep_trans hjrnl (memStep_wordWritten ..)
  · exact memStep_of_only (runSpoilt_only s w) (by decide)
  · exact memStep_refl s

theorem memStep_modTg (s : State) (h : Head) (f : Tg → Tg) (hf : ∀ e, f e = { e with composed := (f e).composed, full := (f e).full })
    (hc : ∀ e, (f e).composed = true → e.composed = true) : MemStep s (modTg s h f) :=
  ⟨harmless_of_only (modTg_only s h f) (by decide), sweepKept_modTg s h f hf hc, outGrows_of_only (modTg_only s h f) (by decide)⟩

theorem memStep_spoilSweeps (s : State) (m : Nat) : MemStep s (spoilSweeps s m) :=
  memStep_foldl (fun u h => memStep_modTg u (timer u h) _ (fun _ => rfl) fun _ hc => absurd hc Bool.false_ne_true) _ s

theorem memStep_abandonRow (s : State) (h : Head) (slot line : Nat) : MemStep s (abandonRow s h slot line) := by
  unfold abandonRow
  extract_lets t s1 first s2
  have h1 : MemStep s s1 := memStep_trans (memStep_of_only (withdrawRows_only s h line) (by decide)) (memStep_modTg _ _ _ (fun _ => rfl) fun _ hc => absurd hc Bool.false_ne_true)
  have h2 : MemStep s s2 := memStep_trans h1 (memStep_of_only (modLy_only ..) (by decide))
  exact memStep_ite (memStep_refl s) (memStep_ite (memStep_trans h2 (memStep_raise ..)) h2)

theorem memStep_rowSpoilt (s : State) (path : Head) (w k : Nat) : MemStep s (rowSpoilt s path w k) := by
  unfold rowSpoilt
  exact memStep_ite (memStep_abandonRow ..) (memStep_abandonRow ..)

theorem memStep_workSpoilt (s : State) (w : Nat) (used : Bool) : MemStep s (workSpoilt s w used) := by
  unfold workSpoilt
  extract_lets k owners
  refine memStep_ite ?_ (memStep_ite ?_ (memStep_ite (memStep_spoilSweeps ..) (memStep_ite (memStep_spoilSweeps ..) (memStep_refl s))))
  · exact memStep_foldl (fun u h => memStep_ite (memStep_rowSpoilt ..) (memStep_refl u)) _ s
  · refine memStep_trans (memStep_foldl (fun u h => ?_) _ s) (memStep_spoilSweeps ..)
    exact memStep_of_only (modPxc_only ..) (by decide)

theorem memStep_uncorrectable (s : State) (b w : Nat) (used inj : Bool) : MemStep s (uncorrectable s b (some w) used inj) := by
  unfold uncorrectable
  dsimp -zeta only
  extract_lets a s1 s2
  have h2 : MemStep s s2 := memStep_trans (memStep_raiseInj ..) (memStep_modLmm ..)
  exact memStep_trans (memStep_trans (memStep_trans h2 (memStep_workSpoilt ..)) (memStep_repairWord ..)) (memStep_bankCandidate ..)

theorem memStep_readChecks (s : State) (reader : Option Head) (used : Bool) (w : Nat) : MemStep s (readChecks s reader used w) := by
  unfold readChecks
  extract_lets b
  split
  · exact memStep_uncorrectable ..
  · exact memStep_corrected ..
  · exact memStep_ite (memStep_uncorrectable ..) (memStep_refl s)

theorem memStep_clientRead (s : State) (reader : Option Head) (ranges : List (Nat × Nat)) : MemStep s (clientRead s reader ranges) :=
  memStep_foldl (fun _ _ => memStep_readChecks ..) _ s

theorem memStep_clientPut (s : State) (a : Nat) (bs : List Byte) : MemStep s (clientPut s a bs) := by
  unfold clientPut
  refine memStep_ite (memStep_refl s) ?_
  extract_lets lo hi touched touchedP s1
  have h1 : MemStep s s1 := memStep_trans (memStep_memWrite ..) (memStep_modLmm ..)
  split
  · exact memStep_trans h1 (memStep_injectWord ..)
  · exact h1

theorem memStep_clientWrite (s : State) (a : Nat) (bs : List Byte) : MemStep s (clientWrite s a bs) := by
  unfold clientWrite
  exact memStep_ite (memStep_refl s) (memStep_trans (memStep_foldl (fun _ _ => memStep_readChecks ..) _ s) (memStep_clientPut ..))

/-- A mask that is built leaves the timing generators but for a sweep that it spoils (05 R202 to R207). -/
theorem memStep_buildMask (s : State) (h : Head) (emission : Int) : MemStep s (buildMask s h emission) := by
  unfold buildMask
  refine memStep_ite (memStep_refl s) ?_
  extract_lets age tStale stale dropped dipped dt g boxes outs s1 merged us s2
  have h1 : MemStep s s1 := memStep_foldl (fun _ _ => memStep_clientWrite ..) _ s
  have h2 : MemStep s s2 := memStep_trans h1 (memStep_of_only (modShd_only ..) (by decide))
  exact memStep_trans (memStep_trans h2 (memStep_setLevel ..)) (memStep_setLevel ..)

end Sys2Proof.Machine
end

section
/-! SUPPORT. What a start cut leaves of its head, and what decides a start as its write comes to the window (08 R295 to R299). -/

namespace Sys2Proof.Machine

/-! ## The rings around a write that starts or stops something (18 R620, log 50) -/

theorem workRests_ite {p : Prop} [Decidable p] {s t u : State} (h : workRests s t) (k : workRests s u) :
    workRests s (if p then t else u) := by split <;> assumption

theorem workRests_rxDeliver (s : State) (p : Nat) (f : List Byte) (t : Stamp) : workRests s (rxDeliver s p f t) := by
  unfold rxDeliver
  split
  · exact workRests_of_only (modPort_only ..) (by decide)
  next w _ =>
    extract_lets ts len up addr s1 s2 s3
    refine workRests_ite (workRests_of_only (modPort_only ..) (by decide) : workRests s (dropTooLong s p)) ?_
    have h1 : workRests s s1 := workRests_of_only (postWrite_only ..) (by decide)
    have h2 : workRests s1 s2 := workRests_of_only
      (onlyChanges_ite (postWrite_only ..) (onlyChanges_refl _ _) : onlyChanges [.out, .hif] s1 s2) (by decide)
    have h3 : workRests s2 s3 := workRests_of_only (modPort_only ..) (by decide)
    have h4 : workRests s3 (idleExits s3) := workRests_of_only (idleExits_only s3) (by decide)
    exact workRests_trans h1 (workRests_trans h2 (workRests_trans h3 (workRests_trans h4 (completeWord_rests _ _ _ _ _ _ _))))

theorem workRests_emptied (s : State) (p : Nat) : workRests s (modPort s p fun e => { e with waiting := [] }) :=
  workRests_of_only (modPort_only ..) (by decide)

theorem workRests_rxFlush (s : State) (p : Nat) : workRests s (rxFlush s p) := by
  rw [rxFlush]
  have h := foldl_inv (workRests s) (fun acc (f : List Byte × Stamp) => rxDeliver acc p f.1 f.2) (portOf s p).waiting _
    (workRests_emptied s p) fun u f hu => workRests_trans hu (workRests_rxDeliver u p f.1 f.2)
  exact h

theorem workRests_framesGo (before s : State) : workRests s (framesGo before s) := by
  unfold framesGo
  split
  · exact workRests_trans (workRests_rxFlush s 0) (workRests_rxFlush _ 1)
  · exact fun _ hw => hw

/-- A served write whose window leaves the rings quiet lets no descriptor go on. -/
theorem writeSettles_window_quiet {s : State} {b : Bus} {addr : Nat} {v : Word} {f : State → State}
    (h : reaches s b addr = true) (h4 : addr % 4 = 0) (ho : wordLocked s (addr / 4) = false)
    (hr : ∀ u, routeWrite u (addr / 4) v = f u) (hq : ∀ c, ringsQuiet (f (atWindow b (addr / 4) c s)) = true) :
    ∃ c t, writeSettles b addr v s = .next t
      ∧ onlyChanges [.out, .free, .pwr, .rng, .hif, .net, .glb] (f (atWindow b (addr / 4) c s)) t := by
  obtain ⟨t, ht, c, g, hg, he⟩ := writeAlone_ran s b addr v f h h4 ho hr
  have ha : onlyChanges [.out] (f (atWindow b (addr / 4) c s)) (answered b (f (atWindow b (addr / 4) c s))) := answered_only ..
  have hgo : workRests (f (atWindow b (addr / 4) c s)) (framesGo (inCycle c s) (answered b (f (atWindow b (addr / 4) c s)))) :=
    workRests_trans (workRests_of_only ha (by decide)) (workRests_framesGo _ _)
  have hwork : t.rng = (framesGo (inCycle c s) (answered b (f (atWindow b (addr / 4) c s)))).rng :=
    (congrArg State.rng he).trans ((mark_only _ g hg).2 .rng (by decide))
  refine ⟨c, t, ?_, ?_⟩
  · rw [writeAlone] at ht
    injection ht with ht
    rw [writeSettles, ht, ringSettle_of_quiet (ringsQuiet_of_rng (ringsQuiet_of_subset (hq c) hgo) hwork)]
  · rw [he]
    exact onlyChanges_trans (onlyChanges_mono ha (by simp)) (onlyChanges_trans
      (onlyChanges_mono (framesGo_only ..) (by simp +contextual)) (onlyChanges_mono (mark_only _ g hg) (by simp)))

/-! ## What a cut leaves of the generators' states (01 R25, 08 R305, R734) -/

/-- No ring wakes, and every timing generator is in the state in which it was. -/
structure CutStep (s t : State) : Prop where
  quiet : ringsQuiet s = true → ringsQuiet t = true
  state : ∀ h, (t.tg.get h).state = (s.tg.get h).state

theorem cutStep_refl (s : State) : CutStep s s := ⟨id, fun _ => rfl⟩

theorem cutStep_trans {s t u : State} (h : CutStep s t) (k : CutStep t u) : CutStep s u :=
  ⟨fun hq => k.quiet (h.quiet hq), fun x => (k.state x).trans (h.state x)⟩

theorem cutStep_ite {p : Prop} [Decidable p] {s t u : State} (h : CutStep s t) (k : CutStep s u) :
    CutStep s (if p then t else u) := by split <;> assumption

theorem cutStep_of_only {ps : List Part} {s t : State} (h : onlyChanges ps s t) (hp : Part.rng ∉ ps ∧ Part.tg ∉ ps) : CutStep s t :=
  ⟨fun hq => ringsQuiet_of_only hq h hp.1, fun x => by rw [h.2 .tg hp.2]⟩

theorem cutStep_foldl {α : Type} {f : State → α → State} (hf : ∀ u a, CutStep u (f u a)) (l : List α) (s : State) :
    CutStep s (l.foldl f s) :=
  foldl_inv (fun t => CutStep s t) f l s (cutStep_refl s) fun t a ht => cutStep_trans ht (hf t a)

theorem cutStep_modTg (s : State) (h : Head) (f : Tg → Tg) (hf : (f (s.tg.get h)).state = (s.tg.get h).state) :
    CutStep s (modTg s h f) := by
  refine ⟨fun hq => hq, fun k => ?_⟩
  rw [get_modTg]
  split
  · next hk => rw [hf, hk]
  · rfl

theorem cutStep_forceApply (s : State) (h : Head) : CutStep s (forceApply s h) := by
  unfold forceApply
  split
  · exact cutStep_refl s
  next p _ =>
    extract_lets was s1
    have h1 : CutStep s s1 := cutStep_modTg s h (fun t => { t with force := p, pending := none }) rfl
    refine cutStep_ite h1 (cutStep_trans h1 (cutStep_foldl (fun u x => ?_) _ s1))
    exact cutStep_of_only (modBld_only u x fun e => { e with flatValid := false }) (by decide)

theorem cutStep_setsApply (s : State) (h : Head) : CutStep s (setsApply s h) := by
  unfold setsApply
  extract_lets rh due old s1 s2
  have h2 : CutStep s s2 := ⟨fun hq => hq, fun _ => rfl⟩
  exact cutStep_trans h2 (cutStep_foldl (fun u x => cutStep_of_only (flatSettle_only u x old) (by decide)) _ s2)

theorem cutStep_cutApply (s : State) (h : Head) : CutStep s (cutApply s h) := by
  unfold cutApply
  extract_lets old s1 s2
  have h1 : CutStep s s1 := cutStep_trans (cutStep_forceApply s h) (cutStep_trans (cutStep_setsApply _ h)
    (cutStep_trans (cutStep_of_only (listsApply_only _ h) (by decide)) (cutStep_of_only (calApply_only _ h) (by decide))))
  have h2 : CutStep s1 s2 := cutStep_trans (cutStep_of_only (toneApply_only s1 h) (by decide))
    (cutStep_trans (cutStep_of_only (blockApply_only _ h) (by decide)) (cutStep_of_only (degradeApply_only _ h) (by decide)))
  have h3 : CutStep s2 (bandApply (headroomApply s2 h) h) := cutStep_trans (cutStep_of_only (headroomApply_only s2 h) (by decide))
    (cutStep_of_only (bandApply_only _ h) (by decide))
  have h4 : ∀ u, CutStep u (pitchApply u h) := fun u => cutStep_modTg u h
    (fun t => { t with pitch := signed 32 (regAt u (0x0F060 + 4 * Head.idx h)).toNat }) rfl
  exact cutStep_trans h1 (cutStep_trans h2 (cutStep_trans h3 (cutStep_trans (h4 _)
    (cutStep_trans (cutStep_of_only (splitsCut_only _ h) (by decide)) (cutStep_of_only (flatSettle_only _ h old) (by decide))))))

theorem cutStep_cutApplyAll (s : State) (h : Head) : CutStep s (cutApplyAll s h) := by
  unfold cutApplyAll
  exact cutStep_trans (cutStep_foldl (fun u x => cutStep_cutApply u x) _ s) (cutStep_of_only (settle_only _) (by decide))

/-- What a start cut leaves of its head (08 R297). -/
theorem startCut_leaves (s : State) (h : Head) : (ringsQuiet s = true → ringsQuiet (startCut s h) = true)
    ∧ ((startCut s h).tg.get h).state = (s.tg.get h).state ∧ ((startCut s h).tg.get h).due = true
    ∧ ((startCut s h).tg.get h).active = false := by
  have hstart : ∀ u x, CutStep u (checkCap (modPxc (modPwr u fun p => { p with started := p.started.set x true }) x
      fun e => { e with startCycle := u.tim.cycles }) x ((u.tg.get h).pending.map fun _ => timingShadow u h)) := fun u x =>
    cutStep_trans (cutStep_of_only (modPwr_only u _) (by decide))
      (cutStep_trans (cutStep_of_only (modPxc_only _ x _) (by decide)) (cutStep_of_only (checkCap_only ..) (by decide)))
  unfold startCut
  extract_lets s1 s2
  have h2 : CutStep s s2 := cutStep_trans (cutStep_cutApplyAll s h) (cutStep_foldl hstart _ s1)
  have hm := memStep_buildMask (modTg s2 h fun t =>
    { t with due := true, active := false, stitchOpen := false, waiting := false, trigSeen := false }) h (emissionAtStart s2 h)
  refine ⟨fun hq => hm.harmless.quiet (h2.quiet hq), ?_⟩
  rw [hm.sweep.tg h, get_modTg, if_pos rfl]
  exact ⟨h2.state h, rfl, rfl⟩

/-! ## The state shown on the heads that a generator times (08 R295, R311) -/

theorem get_setTgState (s : State) (h : Head) (v : Nat) : (setTgState s h v).tg.get h = { s.tg.get h with state := v } := by
  unfold setTgState served
  cases joined s <;> cases h <;> rfl

theorem setTgState_rng (s : State) (h : Head) (v : Nat) : (setTgState s h v).rng = s.rng := (setTgState_only s h v).2 .rng (by decide)

/-! ## A write of `TGx_CTRL` (08 R295, R300, R311) -/

/-- The word of `TGx_CTRL` as a write leaves it, `run` and the mode apart. -/
def ctrlWritten (s : State) (h : Head) (v : Word) : State := setRegAt s (tgBase h) (merge (regAt s (tgBase h)) v 0x75#32)

/-- A write that leaves the mode as it is (08 R300). -/
theorem writeTgCtrl_mode {s : State} {h : Head} {v : Word} (hj : h = .a → bit v 1 = joined s) :
    writeTgCtrl s h v = if joined s && h == .b then setRegAt s (tgBase .b) (merge (regAt s (tgBase .b)) v 0x74#32)
      else if bit v 0 then (if (s.tg.get h).state = 0 then startHead (ctrlWritten s h v) h else ctrlWritten s h v)
      else if (s.tg.get h).state = 1 ∨ (s.tg.get h).state = 2 then stopHead (ctrlWritten s h v) h
      else ctrlWritten s h v := by
  have hs : (if h = .a then writeJoined s v else s) = s := by
    split
    · next ha =>
      unfold writeJoined
      rw [if_pos (by rw [hj ha]; simp)]
    · rfl
  unfold writeTgCtrl
  rw [hs]
  rfl

theorem writeTgCtrl_other {s : State} {v : Word} (hj : joined s = true) :
    writeTgCtrl s .b v = setRegAt s (tgBase .b) (merge (regAt s (tgBase .b)) v 0x74#32) := by
  rw [writeTgCtrl_mode (h := .b) (fun ha => by cases ha), if_pos (by simp [hj])]

theorem writeTgCtrl_start {s : State} {h : Head} {v : Word} (hj : h = .a → bit v 1 = joined s) (hb : (joined s && h == .b) = false)
    (hv : bit v 0 = true) (hs : (s.tg.get h).state = 0) : writeTgCtrl s h v = startHead (ctrlWritten s h v) h := by
  rw [writeTgCtrl_mode hj, if_neg (by simp [hb]), if_pos hv, if_pos hs]

theorem writeTgCtrl_stop {s : State} {h : Head} {v : Word} (hj : h = .a → bit v 1 = joined s) (hb : (joined s && h == .b) = false)
    (hv : bit v 0 = false) : writeTgCtrl s h v
      = if (s.tg.get h).state = 1 ∨ (s.tg.get h).state = 2 then stopHead (ctrlWritten s h v) h else ctrlWritten s h v := by
  rw [writeTgCtrl_mode hj, if_neg (by simp [hb]), if_neg (by simp [hv])]

/-- A start that nothing refuses (08 R297). -/
theorem startHead_starts {s : State} {h : Head} (hb : blockStopped s 1 = false) (hf : startFail (setTgState s h 1) h = none) :
    startHead s h = startCut (setTgState s h 1) h := by
  unfold startHead
  rw [if_neg (by simp [hb])]
  dsimp only
  rw [hf]

/-- What a refused start leaves (08 R296). -/
theorem startHead_refused {s : State} {h : Head} {r : Nat} (hb : blockStopped s 1 = false)
    (hf : startFail (setTgState s h 1) h = some r) : (startHead s h).rng = s.rng
    ∧ ((startHead s h).tg.get h).state = 0 ∧ ((startHead s h).tg.get h).startRefused = true
    ∧ ((startHead s h).tg.get h).startReason = r := by
  unfold startHead
  rw [if_neg (by simp [hb])]
  dsimp only
  rw [hf]
  dsimp only
  set s1 := modTg (setTgState (setTgState s h 1) h 0) h fun t => { t with startRefused := true, startReason := r } with h1
  have hrng : s1.rng = s.rng := (setTgState_rng ..).trans (setTgState_rng s h 1)
  have htg : s1.tg.get h = { s.tg.get h with state := 0, startRefused := true, startReason := r } := by
    rw [h1, get_modTg, if_pos rfl, get_setTgState, get_setTgState]
  split
  · exact ⟨hrng, by rw [show (modLmm s1 _).tg = s1.tg from rfl, htg]; exact ⟨rfl, rfl, rfl⟩⟩
  · exact ⟨hrng, by rw [htg]; exact ⟨rfl, rfl, rfl⟩⟩

/-! ## What decides a start, as the write comes to its window (18 R610) -/

/-- Of the power state a write to its window changes the device's state alone. -/
theorem atWindow_power (b : Bus) (idx : Nat) (c : Option (Nat × Bool)) (s : State) :
    ∃ f n h g, atWindow b idx c s = { s with flt := f, pwr := { s.pwr with state := n }, hif := h, glb := g } := by
  unfold atWindow portWakes idleExits
  dsimp only
  split
  · split
    · exact ⟨_, s.pwr.state, _, _, rfl⟩
    · exact ⟨_, s.pwr.state, _, _, rfl⟩
  · split
    · split
      · exact ⟨_, _, _, _, rfl⟩
      · exact ⟨_, s.pwr.state, _, _, rfl⟩
    · split
      · exact ⟨_, _, _, _, rfl⟩
      · exact ⟨_, s.pwr.state, _, _, rfl⟩

section PowerWindow

variable (f : Flt) (n : Nat) (hi : Hif) (g : Glb) (s : State)

/-- A state as a write to its window may leave it. -/
def atPower : State := { s with flt := f, pwr := { s.pwr with state := n }, hif := hi, glb := g }

theorem lineBufWalk_atPower (h path : Head) (slots : Store Slot) (is : List Nat) (sum : Nat) :
    lineBufWalk (atPower f n hi g s) h path slots is sum = lineBufWalk s h path slots is sum := by
  induction is generalizing sum with
  | nil => rfl
  | cons i is ih =>
    rw [lineBufWalk, lineBufWalk, ih]
    rfl

theorem lineBufFail_atPower (h : Head) (slots : Store Slot) : lineBufFail (atPower f n hi g s) h slots = lineBufFail s h slots := by
  have hw : ∀ path, lineBufWalk (atPower f n hi g s) h path slots (enabledSlots slots) 0 = lineBufWalk s h path slots (enabledSlots slots) 0 :=
    fun path => lineBufWalk_atPower f n hi g s h path slots _ 0
  unfold lineBufFail
  simp only [hw]
  rfl

theorem startSlotFail_atPower (h : Head) : startSlotFail (atPower f n hi g s) h = startSlotFail s h := by
  have hl : ∀ slots, lineBufFail (atPower f n hi g s) h slots = lineBufFail s h slots := lineBufFail_atPower f n hi g s h
  unfold startSlotFail
  extract_lets slots
  rw [hl]
  rfl

/-- What refuses a start reads neither the collector, the device's power state, the link nor the parity record. -/
theorem startFail_atPower (h : Head) : startFail (atPower f n hi g s) h = startFail s h := by
  have hslot := startSlotFail_atPower f n hi g s h
  unfold startFail
  rw [hslot]
  rfl

end PowerWindow

/-- A start finds at its window what it would find before. -/
theorem startFail_atWindow (b : Bus) (idx : Nat) (c : Option (Nat × Bool)) (s : State) (h : Head) (v : Word) :
    startFail (setTgState (ctrlWritten (atWindow b idx c s) h v) h 1) h = startFail (setTgState (ctrlWritten s h v) h 1) h := by
  obtain ⟨f, n, hi, g, he⟩ := atWindow_power b idx c s
  have hc : setTgState (ctrlWritten (atWindow b idx c s) h v) h 1 = atPower f n hi g (setTgState (ctrlWritten s h v) h 1) := by
    have hserved : served (ctrlWritten (atWindow b idx c s) h v) h = served (ctrlWritten s h v) h := by rw [he]; rfl
    rw [setTgState, setTgState, hserved, served, he]
    cases joined (ctrlWritten s h v) <;> rfl
  rw [hc, startFail_atPower]

theorem blockStopped_ctrlWritten (b : Bus) (idx : Nat) (c : Option (Nat × Bool)) (s : State) (h : Head) (v : Word) (k : Nat) :
    blockStopped (ctrlWritten (atWindow b idx c s) h v) k = blockStopped s k := by
  obtain ⟨f, n, hi, g, he⟩ := atWindow_power b idx c s
  rw [he]
  rfl

end Sys2Proof.Machine
end

section
/-! PROOF. Starting and stopping a head (08 R295 to R299, R311). -/

namespace Sys2Proof.Machine

theorem bit_withBit_other (v : Word) {i k : Nat} (hk : k < 32) (h : k ≠ i) : bit (withBit v i) k = bit v k := by
  simp [withBit, bit_or, bit_bitAt, h, hk]

theorem bit_withoutBit_other (v : Word) {i k : Nat} (hk : k < 32) (h : k ≠ i) : bit (withoutBit v i) k = bit v k := by
  simp [withoutBit, bit_and, bit_not, bit_bitAt, h, hk]

section Write

variable {s : State} {b : Bus} {h : Head} {v : Word} (hr : reaches s b (tgBase h) = true)

include hr

/-- A write of `TGx_CTRL` that leaves the rings quiet leaves the generators as its work at the window does. -/
theorem writeTgCtrl_runs (hf : ∀ c, ringsQuiet (writeTgCtrl (atWindow b (tgBase h / 4) c s) h v) = true) :
    ∃ c t, writeSettles b (tgBase h) v s = .next t ∧ t.tg = (writeTgCtrl (atWindow b (tgBase h / 4) c s) h v).tg := by
  obtain ⟨c, t, ht, ho⟩ := writeSettles_window_quiet (f := fun u => writeTgCtrl u h v) hr (by cases h <;> decide)
    (open_tgCtrl s h) (fun u => route_tgCtrl u h v) hf
  exact ⟨c, t, ht, ho.2 .tg (by decide)⟩

variable (hq : ringsQuiet s = true)

include hq

/-- The other head's word in joined mode neither starts nor stops anything (08 R311). -/
theorem ctrl_other (hj : (joined s && h == .b) = true) : ∃ t, writeSettles b (tgBase h) v s = .next t ∧ t.tg = s.tg := by
  obtain ⟨hjoin, hh⟩ : joined s = true ∧ h = .b := by simpa using hj
  subst hh
  have he : ∀ c, writeTgCtrl (atWindow b (tgBase .b / 4) c s) .b v = setRegAt (atWindow b (tgBase .b / 4) c s) (tgBase .b)
      (merge (regAt (atWindow b (tgBase .b / 4) c s) (tgBase .b)) v 0x74#32) := fun c =>
    writeTgCtrl_other (by simpa [joined] using hjoin)
  obtain ⟨c, t, ht, htg⟩ := writeTgCtrl_runs hr (v := v) fun c => by
    rw [he]
    exact ringsQuiet_of_rng hq (by simp)
  rw [he] at htg
  exact ⟨t, ht, htg.trans (by simp)⟩

variable (hj : h = .a → bit v 1 = joined s) (hb : (joined s && h == .b) = false)

include hj hb

omit hq in
theorem ctrl_start (hv : bit v 0 = true) (hs : stopped s h = true) (hf : ∀ c, ringsQuiet (startHead
      (ctrlWritten (atWindow b (tgBase h / 4) c s) h v) h) = true) :
    ∃ c t, writeSettles b (tgBase h) v s = .next t
      ∧ t.tg = (startHead (ctrlWritten (atWindow b (tgBase h / 4) c s) h v) h).tg := by
  have he : ∀ c, writeTgCtrl (atWindow b (tgBase h / 4) c s) h v = startHead (ctrlWritten (atWindow b (tgBase h / 4) c s) h v) h :=
    fun c => writeTgCtrl_start (by simpa [joined] using hj) (by simpa [joined] using hb) hv (by simpa [stopped] using hs)
  obtain ⟨c, t, ht, htg⟩ := writeTgCtrl_runs hr (v := v) fun c => by rw [he]; exact hf c
  exact ⟨c, t, ht, htg.trans (by rw [he])⟩

theorem ctrl_stop (hv : bit v 0 = false) : ∃ c t, writeSettles b (tgBase h) v s = .next t
    ∧ t.tg = (if (s.tg.get h).state = 1 ∨ (s.tg.get h).state = 2
        then stopHead (ctrlWritten (atWindow b (tgBase h / 4) c s) h v) h else ctrlWritten (atWindow b (tgBase h / 4) c s) h v).tg := by
  have he : ∀ c, writeTgCtrl (atWindow b (tgBase h / 4) c s) h v = if (s.tg.get h).state = 1 ∨ (s.tg.get h).state = 2
      then stopHead (ctrlWritten (atWindow b (tgBase h / 4) c s) h v) h else ctrlWritten (atWindow b (tgBase h / 4) c s) h v := fun c => by
    rw [writeTgCtrl_stop (by simpa [joined] using hj) (by simpa [joined] using hb) hv]
    simp
  obtain ⟨c, t, ht, htg⟩ := writeTgCtrl_runs hr (v := v) fun c => by
    rw [he]
    refine ringsQuiet_of_rng hq ?_
    split
    · exact ((stopHead_only _ h).2 .rng (by decide)).trans (by simp [ctrlWritten])
    · simp [ctrlWritten]
  exact ⟨c, t, ht, htg.trans (by rw [he])⟩

end Write

/-- Settles O20: a start that nothing refuses is a start cut, which keeps the head's state and leaves its sweep due; a refused one
shows its reason; a stop sets the state alone. -/
theorem headStartStop : Obligations.HeadStartStop := by
  unfold Obligations.HeadStartStop
  intro s b h v hr hq hj
  have hj0 : h = .a → bit (withBit v 0) 1 = joined s := fun ha => (bit_withBit_other v (by decide) (by decide)).trans (hj ha)
  have hj1 : h = .a → bit (withoutBit v 0) 1 = joined s := fun ha => (bit_withoutBit_other v (by decide) (by decide)).trans (hj ha)
  have hv0 : bit (withBit v 0) 0 = true := bit_withBit_same v (by decide)
  have hv1 : bit (withoutBit v 0) 0 = false := bit_withoutBit_same v (by decide)
  have hquiet : ∀ c, ringsQuiet (setTgState (ctrlWritten (atWindow b (tgBase h / 4) c s) h (withBit v 0)) h 1) = true := fun c =>
    ringsQuiet_of_rng hq ((setTgState_rng ..).trans (by simp [ctrlWritten]))
  refine ⟨fun hb => ⟨fun u hu hs hst => ⟨fun hf => ?_, fun r hf => ?_⟩, fun hst => ?_, fun h1 h2 => ?_⟩,
    fun hb => ⟨ctrl_other hr hq hb, ctrl_other hr hq hb⟩⟩
  · have hfw : ∀ c, startHead (ctrlWritten (atWindow b (tgBase h / 4) c s) h (withBit v 0)) h
        = startCut (setTgState (ctrlWritten (atWindow b (tgBase h / 4) c s) h (withBit v 0)) h 1) h := fun c =>
      startHead_starts (by rw [blockStopped_ctrlWritten, hst]) (by rw [startFail_atWindow]; exact hu ▸ hf)
    obtain ⟨c, t, ht, htg⟩ := ctrl_start hr hj0 hb hv0 hs fun c => by
      rw [hfw]
      exact (startCut_leaves _ h).1 (hquiet c)
    obtain ⟨-, hstate, hdue, hact⟩ := startCut_leaves (setTgState (ctrlWritten (atWindow b (tgBase h / 4) c s) h (withBit v 0)) h 1) h
    rw [hfw] at htg
    rw [get_setTgState] at hstate
    exact ⟨t, ht, by rw [htg, hstate], by rw [htg, hdue], by rw [htg, hact]⟩
  · have hfw : ∀ c, startFail (setTgState (ctrlWritten (atWindow b (tgBase h / 4) c s) h (withBit v 0)) h 1) h = some r := fun c => by
      rw [startFail_atWindow]
      exact hu ▸ hf
    have hst' : ∀ c, blockStopped (ctrlWritten (atWindow b (tgBase h / 4) c s) h (withBit v 0)) 1 = false := fun c => by
      rw [blockStopped_ctrlWritten, hst]
    obtain ⟨c, t, ht, htg⟩ := ctrl_start hr hj0 hb hv0 hs fun c =>
      ringsQuiet_of_rng hq ((startHead_refused (hst' c) (hfw c)).1.trans (by simp [ctrlWritten]))
    obtain ⟨-, hstate, href, hreason⟩ := startHead_refused (hst' c) (hfw c)
    exact ⟨t, ht, by rw [htg, hstate], by rw [htg, href], by rw [htg, hreason]⟩
  · obtain ⟨c, t, ht, htg⟩ := ctrl_stop hr hq hj1 hb hv1
    rw [if_pos hst] at htg
    refine ⟨t, ht, ?_⟩
    rw [htg, stopHead, get_setTgState]
    simp [ctrlWritten]
  · obtain ⟨c, t, ht, htg⟩ := ctrl_stop hr hq hj1 hb hv1
    rw [if_neg (not_or.mpr ⟨h1, h2⟩)] at htg
    exact ⟨t, ht, htg.trans (by simp [ctrlWritten])⟩

end Sys2Proof.Machine
end

section
/-! SUPPORT. A descriptor that its ring can give up is fetched: it executes, or it joins its change set, alone (02 R68, R69,
R73, R76, R84). -/

namespace Sys2Proof.Machine

/-- The state in which a fetched descriptor is the only one, before it executes. -/
def entered (s : State) (n : Nat) (d : Desc) (data : HostRead) (stage : Nat) : State :=
  modRng (takeSlot s n) (fun g => { g with work := [fetchedWork s n d data stage] })

theorem fetchedWork_inCycle (c : Option (Nat × Bool)) (s : State) (n : Nat) (d : Desc) (data : HostRead) (stage : Nat) :
    fetchedWork (inCycle c s) n d data stage = fetchedWork s n d data stage := rfl

/-- What `fetchable` says, part by part. -/
theorem fetchable_parts {s : State} {n : Nat} {d : Desc} (h : fetchable s n d = true) :
    ringFetches s n = true ∧ unitBusy s (ringRole s n) d = false ∧ s.rng.work = [] ∧ s.rng.journal = none ∧ descFlag d 2 = false
      ∧ (bit (ringCfg s n) 1 = true → d.dcrc = dcrcOf n (ringOf s n).devIdx d ∧ injHits s 10 n = false) := by
  simp only [fetchable, ringsIdle, Bool.and_eq_true, Bool.or_eq_true, Bool.not_eq_true', List.isEmpty_iff, Option.isNone_iff_eq_none,
    beq_iff_eq] at h
  obtain ⟨⟨⟨⟨⟨h1, h2⟩, h3, h4⟩, h5⟩, -⟩, h6⟩ := h
  exact ⟨h1, h2, h3, h4, h5, fun hb => h6.resolve_left (by simp [hb])⟩

theorem dcrcCheck_passes {s : State} {n slot : Nat} {d : Desc}
    (h : bit (ringCfg s n) 1 = true → d.dcrc = dcrcOf n slot d ∧ injHits s 10 n = false) : dcrcCheck s n slot d = (true, s) := by
  unfold dcrcCheck
  by_cases hb : bit (ringCfg s n) 1 = true
  · obtain ⟨hd, hi⟩ := h hb
    simp [hb, hd, hi]
  · simp [hb]

theorem takeSlot_work {s : State} (n : Nat) (h : s.rng.work = []) : (takeSlot s n).rng.work = [] := by
  simp [takeSlot, slotAgain, modRing, modRng, h]

/-- A fetch that its ring and its unit allow lets the descriptor run alone (02 R68, R69, R73, R76). -/
theorem fetchDesc_runs {s : State} {n : Nat} {d : Desc} {data : HostRead} (h : fetchable s n d = true)
    {u : Option (Nat × Bool) → State}
    (hu : ∀ c, ringSettle (runWork (entered (inCycle c s) n d data 0) (fetchedWork s n d data 0)) = u c)
    (hp : ∀ c, (u c).pwr.state = s.pwr.state) : ∃ c, onlyChanges [] (u c) (fetchDesc s n d data) := by
  obtain ⟨hf, hbusy, hw, -, hb, hd⟩ := fetchable_parts h
  unfold fetchDesc
  refine inOneCycle_of_eq _ s u (fun c => ?_) fun c hs => hp c ▸ hs
  have hf' : ringFetches (inCycle c s) n = true := hf
  have hbusy' : unitBusy (inCycle c s) (ringRole (inCycle c s) n) d = false := hbusy
  have hwork : (takeSlot (inCycle c s) n).rng.work = [] := takeSlot_work n hw
  have hdcrc : dcrcCheck (takeSlot (inCycle c s) n) n (ringOf (inCycle c s) n).devIdx d = (true, takeSlot (inCycle c s) n) :=
    dcrcCheck_passes hd
  rw [← hu c, ← fetchedWork_inCycle c]
  dsimp only
  rw [hf', hbusy', hdcrc]
  simp [hb, entered, modRng, hwork, fetchedWork]

theorem entered_work (s : State) (n : Nat) (d : Desc) (data : HostRead) (stage : Nat) :
    (entered s n d data stage).rng.work = [fetchedWork s n d data stage] := rfl

/-- The ring's place has moved past the descriptor (02 R69). -/
theorem entered_devIdx (s : State) (n : Nat) (d : Desc) (data : HostRead) (stage : Nat) :
    (ringOf (entered s n d data stage) n).devIdx = ((ringOf s n).devIdx + 1) % ringSize s n := by
  have hring : ringOf (entered s n d data stage) n = ringOf (takeSlot s n) n := rfl
  rw [hring]
  unfold takeSlot
  dsimp only
  by_cases hc : ringCpl s n = n
  · rw [hc, ringOf_modRing_same, ringOf_modRing_same]
    rfl
  · rw [ringOf_modRing_other _ _ _ _ (Ne.symm hc), ringOf_modRing_same]
    rfl

theorem ringSettle_of_idle {s : State} (h : s.rng.work = []) : ringSettle s = s :=
  ringSettle_of_quiet ((ringsQuiet_iff s).mpr (by simp [h]))

/-! ## A member of a change set (02 R84, R85) -/

/-- What the check of change sets keeps: the fetched descriptors, and the number and the open members of either head. -/
structure SetStep (s t : State) : Prop where
  work : t.rng.work = s.rng.work
  csn : ∀ k, (t.rng.heads.get k).csn = (s.rng.heads.get k).csn
  opened : ∀ k, (t.rng.heads.get k).opened = (s.rng.heads.get k).opened

theorem setStep_of_rng {s t : State} (h : t.rng = s.rng) : SetStep s t := ⟨by rw [h], fun _ => by rw [h], fun _ => by rw [h]⟩

theorem setStep_refl (s : State) : SetStep s s := setStep_of_rng rfl

theorem setStep_trans {s t u : State} (h : SetStep s t) (k : SetStep t u) : SetStep s u :=
  ⟨k.work.trans h.work, fun x => (k.csn x).trans (h.csn x), fun x => (k.opened x).trans (h.opened x)⟩

theorem setStep_ite {p : Prop} [Decidable p] {s t u : State} (h : SetStep s t) (k : SetStep s u) :
    SetStep s (if p then t else u) := by split <;> assumption

theorem setStep_of_only {ps : List Part} {s t : State} (h : onlyChanges ps s t) (hp : Part.rng ∉ ps) : SetStep s t :=
  setStep_of_rng (h.2 .rng hp)

theorem setStep_foldl {α : Type} {f : State → α → State} (hf : ∀ u a, SetStep u (f u a)) (l : List α) (s : State) :
    SetStep s (l.foldl f s) :=
  foldl_inv (fun t => SetStep s t) f l s (setStep_refl s) fun t a ht => setStep_trans ht (hf t a)

theorem setStep_modRing (s : State) (n : Nat) (f : Ring → Ring) : SetStep s (modRing s n f) := ⟨rfl, fun _ => rfl, fun _ => rfl⟩

theorem get_modRngHead (s : State) (h k : Head) (f : RngHead → RngHead) :
    (modRngHead s h f).rng.heads.get k = if k = h then f (s.rng.heads.get h) else s.rng.heads.get k := by
  cases h <;> cases k <;> rfl

theorem setStep_modRngHead (s : State) (h : Head) (f : RngHead → RngHead) (hf : ∀ e, (f e).csn = e.csn ∧ (f e).opened = e.opened) :
    SetStep s (modRngHead s h f) := by
  refine ⟨rfl, fun k => ?_, fun k => ?_⟩ <;> rw [get_modRngHead]
  · split
    · next hk => rw [(hf _).1, hk]
    · rfl
  · split
    · next hk => rw [(hf _).2, hk]
    · rfl

theorem setStep_ringIrq (s : State) (n : Nat) (force : Bool) : SetStep s (ringIrq s n force) := by
  unfold ringIrq
  extract_lets a s1 count
  have h1 : SetStep s s1 := setStep_modRing ..
  refine setStep_ite (setStep_trans h1 ?_) h1
  unfold ringSignal
  exact setStep_trans (setStep_modRing s1 n fun r => { r with unsignalled := 0 }) (setStep_of_only (signalMsix_only ..) (by decide))

theorem setStep_writeCpl (s : State) (c : Cpl) : SetStep s (writeCpl s c) := by
  unfold writeCpl
  refine setStep_ite ?_ ⟨rfl, fun _ => rfl, fun _ => rfl⟩
  extract_lets r s1 s2
  have h1 : SetStep s s1 := setStep_trans (setStep_modRing ..) (setStep_of_only (postWrite_only ..) (by decide))
  have h2 : SetStep s1 s2 := ⟨rfl, fun _ => rfl, fun _ => rfl⟩
  exact setStep_trans h1 (setStep_trans h2 (setStep_trans (setStep_modRing ..) (setStep_ringIrq ..)))

theorem setStep_releaseSlot (s : State) (c : Nat) : SetStep s (releaseSlot s c) := setStep_modRing ..

theorem setStep_completeMember (s : State) (m : Member) (code detail : Nat) (replayed : Bool) (fsn time : Word) :
    SetStep s (completeMember s m code detail replayed fsn time) := setStep_writeCpl s _

theorem setStep_completeSet (s : State) (ms : List Member) (code detail : Nat) (replayed : Bool) (fsn time : Word) :
    SetStep s (completeSet s ms code detail replayed fsn time) := by
  unfold completeSet
  split
  · exact setStep_refl s
  · exact setStep_trans (setStep_foldl (f := fun acc (m : Member) => releaseSlot acc m.cpl) (fun u m => setStep_releaseSlot u m.cpl) _ s)
      (setStep_completeMember _ _ _ _ _ _ _)

theorem setStep_recordOutcome (s : State) (h : Head) (o : Outcome86) : SetStep s (recordOutcome s h o) := by
  unfold recordOutcome
  extract_lets rh due s1
  have h1 : SetStep s s1 := setStep_modRngHead s h _ fun _ => ⟨rfl, rfl⟩
  refine setStep_trans h1 (setStep_foldl (fun u ms => ?_) _ s1)
  unfold replayComplete
  exact setStep_ite (setStep_completeSet ..) (setStep_completeSet ..)

theorem setStep_refuseSet (s : State) (h : Head) (c : ChangeSet) (code detail : Nat) : SetStep s (refuseSet s h c code detail) := by
  unfold refuseSet closeSet
  split
  next t s0 he =>
    have h0 : SetStep s s0 := by
      have hs := setStep_of_only (stampHost_only s) (by decide)
      rw [he] at hs
      exact hs
    refine setStep_trans h0 ?_
    extract_lets s1
    have h1 : SetStep s0 s1 := setStep_modRngHead s0 h _ fun _ => ⟨rfl, rfl⟩
    exact setStep_trans h1 (setStep_trans (setStep_completeSet ..)
      (setStep_trans (setStep_recordOutcome ..) (setStep_of_only (ltrHigher_only ..) (by decide))))

theorem setStep_mapSet (s : State) (h : Head) (csn : Word) (f : ChangeSet → ChangeSet) : SetStep s (mapSet s h csn f) :=
  setStep_modRngHead s h _ fun _ => ⟨rfl, rfl⟩

theorem setStep_setsApply (s : State) (h : Head) : SetStep s (setsApply s h) := by
  unfold setsApply
  extract_lets rh due old s1 s2
  have h1 : SetStep s s1 := setStep_of_only (modLy_only ..) (by decide)
  have h2 : SetStep s1 s2 := setStep_modRngHead s1 h _ fun _ => ⟨rfl, rfl⟩
  exact setStep_trans h1 (setStep_trans h2 (setStep_foldl (fun u x => setStep_of_only (flatSettle_only u x old) (by decide)) _ s2))

theorem setStep_setMoved (s : State) (h : Head) (c : ChangeSet) : SetStep s (setMoved s h c) := by
  unfold setMoved setValidated
  refine setStep_ite (setStep_mapSet ..) (setStep_ite (setStep_refuseSet ..) ?_)
  exact setStep_ite (setStep_trans (setStep_mapSet ..) (setStep_setsApply ..)) (setStep_mapSet ..)

theorem setStep_setChecked (s : State) (h : Head) (c : ChangeSet) : SetStep s (setChecked s h c) := by
  unfold setChecked
  extract_lets s1 tol changes need hold held s2 c2 s3
  have h1 : SetStep s s1 := setStep_mapSet ..
  have hheld : SetStep s1 { s1 with hif := { s1.hif with ltrHeld := some tol } } := setStep_of_rng rfl
  have h2 : SetStep s1 s2 := setStep_ite (setStep_of_only (sendLtr_only ..) (by decide))
    (setStep_ite (setStep_trans hheld (setStep_mapSet ..)) (setStep_refl s1))
  have h3 : SetStep s s3 := setStep_trans h1 (setStep_trans h2 (setStep_of_rng rfl))
  exact setStep_ite (setStep_trans h3 (setStep_setMoved ..)) h3

/-- The check of a head's change sets starts no descriptor and leaves the numbers and the open sets (02 R88). -/
theorem setStep_setsCheck (n : Nat) (s : State) (h : Head) : SetStep s (setsCheck n s h) := by
  induction n generalizing s with
  | zero => exact setStep_refl s
  | succ n ih =>
    rw [setsCheck]
    split
    · exact setStep_refl s
    next c0 _ =>
      dsimp only
      split
      · exact setStep_trans (setStep_refuseSet ..) (ih _)
      · refine setStep_ite (setStep_refl s) ?_
        split
        · exact setStep_trans (setStep_refuseSet ..) (ih _)
        · exact setStep_trans (setStep_trans (setStep_mapSet ..) (setStep_setChecked ..)) (ih _)

end Sys2Proof.Machine
end

section
/-! PROOF. Members of a change set and the COMMIT that closes it (02 R84 to R87). -/

namespace Sys2Proof.Machine

section Member

variable {s : State} {h : Head} {m : Member} (ha : (s.rng.heads.get h).abortCsn = none)
  (ho : (s.rng.heads.get h).opened = [] ∨ openCsn (s.rng.heads.get h).opened = some m.desc.csn)

include ha ho

/-- A member of the set that is open, or of none, discards nothing (02 R85). -/
theorem memberFetch_same : memberFetch s h m = if m.desc.opcode == 3
    then commitFetched (modRngHead s h fun e => { e with opened := [] }) h ((s.rng.heads.get h).opened ++ [m]) m
    else if 256 ≤ ((s.rng.heads.get h).opened ++ [m]).length
      then discardSet (modRngHead s h fun e => { e with opened := (s.rng.heads.get h).opened ++ [m] }) h m.ring
      else modRngHead s h fun e => { e with opened := (s.rng.heads.get h).opened ++ [m] } := by
  unfold memberFetch
  dsimp only
  rw [ha]
  dsimp only
  obtain he | hc := ho
  · have hn : openCsn (s.rng.heads.get h).opened = none := by rw [he]; rfl
    rw [hn]
    rfl
  · rw [hc]
    simp

/-- A member joins the open change set (02 R84, R85). -/
theorem memberFetch_joins (hl : (s.rng.heads.get h).opened.length < 255) (hc : m.desc.opcode ≠ 3) :
    memberFetch s h m = modRngHead s h (fun e => { e with opened := (s.rng.heads.get h).opened ++ [m] }) := by
  rw [memberFetch_same ha ho, if_neg (by simpa using hc), if_neg (by simp; omega)]

/-- A COMMIT of the next number closes the open change set, whose check changes neither the number nor what is open (02 R86,
R88). -/
theorem memberFetch_commits (hc : m.desc.opcode = 3) (hd : m.dcrcOk = true) (hn : m.desc.csn = (s.rng.heads.get h).csn + 1#32) :
    (memberFetch s h m).rng.work = s.rng.work ∧ ((memberFetch s h m).rng.heads.get h).csn = m.desc.csn
      ∧ ((memberFetch s h m).rng.heads.get h).opened = [] ∧ (memberFetch s h m).pwr = s.pwr := by
  have hn' : m.desc.csn = ((modRngHead s h fun e => { e with opened := [] }).rng.heads.get h).csn + 1#32 := by
    rw [get_modRngHead, if_pos rfl, hn]
  rw [memberFetch_same ha ho, if_pos (by simpa using hc)]
  unfold commitFetched
  dsimp only
  rw [if_neg (by simp [hd]), if_pos hn']
  have hstep := setStep_setsCheck 17 (modRngHead (modRngHead s h fun e => { e with opened := [] }) h fun e =>
    { e with csn := m.desc.csn, sets := e.sets ++
        [{ csn := m.desc.csn, members := (s.rng.heads.get h).opened ++ [m], stage := .checking, ltr := none }] }) h
  refine ⟨hstep.work, (hstep.csn h).trans ?_, (hstep.opened h).trans ?_, (setsCheck_only ..).2 .pwr (by decide)⟩
  · rw [get_modRngHead, if_pos rfl]
  · rw [get_modRngHead, if_pos rfl, get_modRngHead, if_pos rfl]

end Member

section Fetched

variable {s : State} {n : Nat} {h : Head} {d : Desc} (hr : roleHead (ringRole s n) = some h)

include hr

/-- A fetched member goes to its change set (02 R84). -/
theorem runWork_member (c : Option (Nat × Bool)) (data : HostRead) (hm : isMember (ringRole s n) d true = true) :
    runWork (entered (inCycle c s) n d data 0) (fetchedWork s n d data 0)
      = memberFetch (dropWork (entered (inCycle c s) n d data 0) n (ringOf s n).devIdx) h (fetchedMember s n d) := by
  have hr' : roleHead (fetchedWork s n d data 0).role = some h := hr
  have hm' : isMember (fetchedWork s n d data 0).role (fetchedWork s n d data 0).desc (fetchedWork s n d data 0).dcrcOk = true := hm
  unfold runWork
  rw [hr']
  dsimp only
  rw [if_pos hm', if_neg (by rw [show (fetchedWork s n d data 0).closes = none from rfl]; decide)]
  rfl

end Fetched

/-- A fetch leaves of its member nothing among the executing descriptors. -/
def memberLeft (s : State) (n : Nat) (d : Desc) (data : HostRead) : State :=
  dropWork (entered s n d data 0) n (ringOf s n).devIdx

theorem memberLeft_work (s : State) (n : Nat) (d : Desc) (data : HostRead) : (memberLeft s n d data).rng.work = [] := by
  have hk : (fetchedWork s n d data 0).slot = (ringOf s n).devIdx := rfl
  have hn : (fetchedWork s n d data 0).ring = n := rfl
  simp [memberLeft, dropWork, modRng, entered_work, hk, hn]

theorem memberLeft_devIdx (s : State) (n : Nat) (d : Desc) (data : HostRead) :
    (ringOf (memberLeft s n d data) n).devIdx = ((ringOf s n).devIdx + 1) % ringSize s n := entered_devIdx s n d data 0

section Open

variable {s : State} {n : Nat} {h : Head} {d : Desc} (hf : fetchable s n d = true) (hr : roleHead (ringRole s n) = some h)
  (ha : (s.rng.heads.get h).abortCsn = none)
  (ho : (s.rng.heads.get h).opened = [] ∨ openCsn (s.rng.heads.get h).opened = some d.csn)
  (hm : isMember (ringRole s n) d true = true)

include hf hr ha ho hm

/-- A member of the open set, fetched: it joins (02 R84, R85). -/
theorem fetchDesc_joins (hl : (s.rng.heads.get h).opened.length < 255) (hc : d.opcode ≠ 3) (data : HostRead) :
    ((fetchDesc s n d data).rng.heads.get h) = { s.rng.heads.get h with opened := (s.rng.heads.get h).opened ++ [fetchedMember s n d] }
      ∧ (ringOf (fetchDesc s n d data) n).devIdx = ((ringOf s n).devIdx + 1) % ringSize s n := by
  obtain ⟨c, ht⟩ := fetchDesc_runs (data := data) hf
    (u := fun c => modRngHead (memberLeft (inCycle c s) n d data) h
      (fun e => { e with opened := (s.rng.heads.get h).opened ++ [fetchedMember s n d] }))
    (fun c => by
      rw [runWork_member hr c data hm]
      have hjoin := memberFetch_joins (s := memberLeft (inCycle c s) n d data) (m := fetchedMember s n d) ha ho hl hc
      have hwork : (modRngHead (memberLeft (inCycle c s) n d data) h
          (fun e => { e with opened := (s.rng.heads.get h).opened ++ [fetchedMember s n d] })).rng.work = [] :=
        memberLeft_work (inCycle c s) n d data
      exact (congrArg ringSettle hjoin).trans (ringSettle_of_idle hwork))
    (fun _ => rfl)
  have hrng := ht.2 .rng (by decide)
  constructor
  · exact (congrArg (fun g => g.heads.get h) hrng).trans ((get_modRngHead (memberLeft (inCycle c s) n d data) h h _).trans (if_pos rfl))
  · exact (congrArg (fun (g : Rng) => (Store.get (fun _ => Ring.reset) g.rings n).devIdx) hrng).trans
      (memberLeft_devIdx (inCycle c s) n d data)

omit hf hr hm in
/-- What the change sets do with a fetched COMMIT of the next number (02 R86). -/
theorem memberLeft_commits (c : Option (Nat × Bool)) (hc : d.opcode = 3) (hn : d.csn = (s.rng.heads.get h).csn + 1#32) (data : HostRead) :
    (memberFetch (memberLeft (inCycle c s) n d data) h (fetchedMember s n d)).rng.work = []
      ∧ ((memberFetch (memberLeft (inCycle c s) n d data) h (fetchedMember s n d)).rng.heads.get h).csn = d.csn
      ∧ ((memberFetch (memberLeft (inCycle c s) n d data) h (fetchedMember s n d)).rng.heads.get h).opened = []
      ∧ (memberFetch (memberLeft (inCycle c s) n d data) h (fetchedMember s n d)).pwr.state = s.pwr.state := by
  have hheads : (memberLeft (inCycle c s) n d data).rng.heads = s.rng.heads := rfl
  have hpwr : (memberLeft (inCycle c s) n d data).pwr = s.pwr := rfl
  rw [← hheads] at ha ho hn
  obtain ⟨h1, h2, h3, h4⟩ := memberFetch_commits (m := fetchedMember s n d) ha ho hc rfl hn
  exact ⟨h1.trans (memberLeft_work (inCycle c s) n d data), h2, h3, by rw [h4, hpwr]⟩

/-- A COMMIT of the next number, fetched: the open set closes and takes it (02 R86). -/
theorem fetchDesc_commits (hc : d.opcode = 3) (hn : d.csn = (s.rng.heads.get h).csn + 1#32) (data : HostRead) :
    ((fetchDesc s n d data).rng.heads.get h).csn = d.csn ∧ ((fetchDesc s n d data).rng.heads.get h).opened = [] := by
  have hrun : ∀ c, ringSettle (runWork (entered (inCycle c s) n d data 0) (fetchedWork s n d data 0))
      = memberFetch (memberLeft (inCycle c s) n d data) h (fetchedMember s n d) := fun c => by
    rw [runWork_member hr c data hm]
    exact ringSettle_of_idle (memberLeft_commits ha ho c hc hn data).1
  have hstate : ∀ c, (memberFetch (memberLeft (inCycle c s) n d data) h (fetchedMember s n d)).pwr.state = s.pwr.state := fun c => by
    obtain ⟨-, -, -, h4⟩ := memberLeft_commits ha ho c hc hn data
    exact h4
  obtain ⟨c, ht⟩ := fetchDesc_runs hf hrun hstate
  obtain ⟨-, hcsn, hopened, -⟩ := memberLeft_commits ha ho c hc hn data
  rw [ht.2 .rng (by decide)]
  exact ⟨hcsn, hopened⟩

end Open

/-- Settles O12: a fetched member joins the open set of its head, and the COMMIT of the next number closes it, whose check changes
neither the number nor the open set. -/
theorem changeSetDescriptors : Obligations.ChangeSetDescriptors := by
  unfold Obligations.ChangeSetDescriptors
  intro s n h d hr ha ho hl
  have hmember : ∀ k, 1 ≤ k → k ≤ 3 → isMember (ringRole s n) (descOf k d) true = true := fun k h1 h3 => by
    have hk : k = 1 ∨ k = 2 ∨ k = 3 := by omega
    obtain rfl | rfl | rfl := hk <;> simp [isMember, hr, descOf]
  refine ⟨fun hf => ⟨_, rfl, ?_⟩, fun hf => ⟨_, rfl, ?_⟩, fun hf hn => ⟨_, rfl, ?_⟩⟩
  · exact fetchDesc_joins hf hr ha ho (hmember 1 (by decide) (by decide)) hl (show 1 ≠ 3 by decide) _
  · exact fetchDesc_joins hf hr ha ho (hmember 2 (by decide) (by decide)) hl (show 2 ≠ 3 by decide) _
  · exact fetchDesc_commits hf hr ha ho (hmember 3 (by decide) (by decide)) rfl hn _

end Sys2Proof.Machine
end

section
/-! SUPPORT. A fetched descriptor outside change sets executes in its unit (02 R57, R76, R77). -/

namespace Sys2Proof.Machine

/-- The only fetched descriptor moves to another stage. -/
theorem stageWork_one {s : State} {w : Work} (h : s.rng.work = [w]) (stage : Nat) :
    stageWork s w.ring w.slot stage = modRng s (fun g => { g with work := [{ w with stage := stage }] }) := by
  simp [stageWork, modRng, h]

/-- A descriptor of a role that takes no change sets executes as it is fetched. -/
theorem runWork_executes {s : State} {n : Nat} {d : Desc} (hr : roleHead (ringRole s n) = none) (c : Option (Nat × Bool))
    (data : HostRead) : runWork (entered (inCycle c s) n d data 0) (fetchedWork s n d data 0)
      = workActs (entered (inCycle c s) n d data 1) (fetchedWork s n d data 0) := by
  have hr' : roleHead (fetchedWork s n d data 0).role = none := hr
  unfold runWork
  rw [hr']
  exact congrArg (fun u => workActs u (fetchedWork s n d data 0)) (stageWork_one (entered_work (inCycle c s) n d data 0) 1)

/-- A fetched descriptor that its ring's role takes and that goes on executing: its unit's own work alone changes the state. -/
theorem fetchDesc_executes {s : State} {n : Nat} {d : Desc} {data : HostRead} (hf : fetchable s n d = true)
    (hr : roleHead (ringRole s n) = none) {u : Option (Nat × Bool) → State}
    (hu : ∀ c, workActs (entered (inCycle c s) n d data 1) (fetchedWork s n d data 0) = u c)
    (hq : ∀ c, ringsQuiet (u c) = true) (hp : ∀ c, (u c).pwr.state = s.pwr.state) :
    ∃ c, onlyChanges [] (u c) (fetchDesc s n d data) :=
  fetchDesc_runs hf (fun c => by rw [runWork_executes hr c data, hu, ringSettle_of_quiet (hq c)]) hp

/-- Work at a stage past the fetch, of no FENCE, stays out of the way. -/
theorem ringsQuiet_of_one {s : State} {w : Work} (h : s.rng.work = [w]) (hs : w.stage ≠ 0) (ho : w.desc.opcode ≠ 12) :
    ringsQuiet s = true := (ringsQuiet_iff s).mpr fun x hx => by
  rw [h, List.mem_singleton] at hx
  exact hx ▸ ⟨hs, ho⟩

section Acts

variable {s : State} {w : Work} (hd : w.dcrcOk = true)

include hd

theorem workActs_objects (hr : roleTakes w.role 4 = true) (ho : w.desc.opcode = 4) :
    workActs s w = objectsFetch s w.ring w.slot w.desc (if w.role = 4 then .a else .b) := by
  simp [workActs, hd, hr, ho]

theorem workActs_cal (hr : roleTakes w.role 5 = true) (ho : w.desc.opcode = 5) :
    workActs s w = calFetch s w.ring w.slot w.desc := by
  simp [workActs, hd, hr, ho]

theorem workActs_lastWrite (hr : roleTakes w.role 6 = true) (ho : w.desc.opcode = 6) :
    workActs s w = lastWriteFetch s w.ring w.slot w.desc w.data := by
  simp [workActs, hd, hr, ho]

theorem workActs_crc (hr : roleTakes w.role 7 = true) (ho : w.desc.opcode = 7) :
    workActs s w = crcFetch s w.ring w.slot w.desc w.bad := by
  simp [workActs, hd, hr, ho]

theorem workActs_lace (hr : roleTakes w.role 8 = true) (ho : w.desc.opcode = 8) :
    workActs s w = laceFetch s w.ring w.slot w.desc w.bad := by
  simp [workActs, hd, hr, ho]

theorem workActs_tx (hr : roleTakes w.role 9 = true) (ho : w.desc.opcode = 9) :
    workActs s w = txFetch s (w.role - 9) w.ring w.slot w.desc := by
  simp [workActs, hd, hr, ho]

theorem workActs_rx (hr : roleTakes w.role 10 = true) (ho : w.desc.opcode = 10) :
    workActs s w = rxFetch s (w.role - 11) w.ring w.slot w.desc := by
  simp [workActs, hd, hr, ho]

end Acts

/-! ## The units (05 R183, 07 R251, 11 R419, R424, 13 R496, 14 R513) -/

/-- The list that an OBJECTS begins (05 R183). -/
def listBegun (ring slot : Nat) (d : Desc) : ObjList :=
  { ring := ring, slot := slot, tag := d.tag, count := dByte d 9, records := [], seconds := 0, nanos := 0, stage := 0 }

theorem objectsFetch_taken {s : State} {ring slot : Nat} {d : Desc} {h : Head} (hb : objectsBad d h = none)
    (hj : (joined s && h == .b) = false) (hn : dByte d 9 ≠ 0) : objectsFetch s ring slot d h
      = modShd s h (fun e => { e with lists := e.lists ++ [listBegun ring slot d] }) := by
  simp [objectsFetch, hb, hj, hn, listBegun]

/-- The upload that a CAL_UPLOAD begins (07 R251). -/
def calBegun (ring slot : Nat) (d : Desc) : Cal :=
  { ring := ring, slot := slot, desc := d, head := calHead (dNat d 24 4),
    offset := dNat d 24 4 - calPart (calHead (dNat d 24 4)), data := [], stage := 0, shown := 0, latched := none, sectors := [],
    failed := false, badRead := false }

theorem calFetch_taken {s : State} {ring slot : Nat} {d : Desc} (hb : calBad s d = none)
    (hg : dByte d 8 = 1 → gateSet s 2 = true → s.saf.unlocked = true) :
    calFetch s ring slot d = { s with pxc := { s.pxc with cal := some (calBegun ring slot d) } } := by
  have hgate : ¬(dByte d 8 = 1 ∧ gateSet s 2 = true ∧ (!s.saf.unlocked) = true) := fun ⟨h1, h2, h3⟩ => by simp [hg h1 h2] at h3
  unfold calFetch
  rw [hb]
  dsimp only
  rw [if_neg hgate]
  rfl

theorem get_modShd (s : State) (h k : Head) (f : Shd → Shd) :
    (modShd s h f).shd.get k = if k = h then f (s.shd.get h) else s.shd.get k := by
  cases h <;> cases k <;> rfl

theorem chainOf_modChain (s : State) (k c : Nat) (f : Chain → Chain) :
    chainOf (modChain s k f) c = if c = k then f (chainOf s k) else chainOf s c := by
  split
  · next h =>
    subst h
    exact chainOf_modChain_same ..
  · next h => exact chainOf_modChain_other _ _ _ _ h

/-! ## LAST_WRITE (02 R93, 20 R665) -/

/-- One descriptor alone executes, at some stage past its fetch. -/
def loneWork (w : Work) (s : State) : Prop := ∃ st, st ≠ 0 ∧ s.rng.work = [{ w with stage := st }]

theorem loneWork_stageWork {w : Work} {s : State} (h : loneWork w s) (ring slot : Nat) : loneWork w (stageWork s ring slot 2) := by
  obtain ⟨st, h0, hw⟩ := h
  by_cases hk : (w.ring == ring && w.slot == slot) = true
  · exact ⟨2, by decide, by simp only [stageWork, modRng, hw, List.map_singleton, if_pos hk]⟩
  · exact ⟨st, h0, by simp only [stageWork, modRng, hw, List.map_singleton, if_neg hk]⟩

/-- The keeping store takes its next operation: of the rings at most a stage changes, and the device's power state stays. -/
theorem kpsTake_leaves {w : Work} {s : State} (h : loneWork w s) : loneWork w (kpsTake s) ∧ (kpsTake s).pwr.state = s.pwr.state := by
  unfold kpsTake
  extract_lets low src s0
  split
  next o _ _ =>
    split
    · extract_lets s1
      have hrng : s1.rng = s.rng := by unfold s1 s0; split <;> rfl
      have hpwr : s1.pwr.state = s.pwr.state := by unfold s1 s0; split <;> rfl
      have hlone : loneWork w s1 := by
        unfold loneWork
        rw [hrng]
        exact h
      split
      · exact ⟨loneWork_stageWork hlone _ _, hpwr⟩
      · exact ⟨hlone, hpwr⟩
    · exact ⟨h, rfl⟩
  · exact ⟨h, rfl⟩

theorem kpsTake_busy {s : State} (h : s.kps.current.isSome = true) : kpsTake s = s := by
  obtain ⟨o, ho⟩ := Option.isSome_iff_exists.mp h
  unfold kpsTake
  extract_lets low
  rw [ho]

/-- Operations asked of the store one after the other. -/
def kpsRequests (s : State) (os : List KpsOp) : State := os.foldl kpsRequest s

theorem kpsRequests_leaves {w : Work} (os : List KpsOp) {s : State} (h : loneWork w s) :
    loneWork w (kpsRequests s os) ∧ (kpsRequests s os).pwr.state = s.pwr.state := by
  induction os generalizing s with
  | nil => exact ⟨h, rfl⟩
  | cons o os ih =>
    obtain ⟨h1, h2⟩ := kpsTake_leaves (s := modKps s fun k => { k with waiting := k.waiting ++ [o] }) h
    obtain ⟨h3, h4⟩ := ih (s := kpsRequest s o) h1
    exact ⟨h3, h4.trans h2⟩

/-- A busy store queues what it is asked for. -/
theorem kpsRequests_busy (os : List KpsOp) {s : State} (h : s.kps.current.isSome = true) :
    kpsRequests s os = modKps s (fun k => { k with waiting := k.waiting ++ os }) := by
  induction os generalizing s with
  | nil => simp [kpsRequests, modKps]
  | cons o os ih =>
    have hone : kpsRequest s o = modKps s (fun k => { k with waiting := k.waiting ++ [o] }) := kpsTake_busy (by exact h)
    have hrest := ih (s := kpsRequest s o) (by rw [hone]; exact h)
    change kpsRequests (kpsRequest s o) os = _
    rw [hrest, hone]
    simp [modKps]

/-- The sector writes of a LAST_WRITE, in order (20 R665). -/
def sectorWrites (ring slot : Nat) (d : Desc) (bs : List Byte) : List KpsOp :=
  (List.range (dNat d 12 4 / 4096)).map (fun k => .lastWrite ring slot ((lastRegion (dByte d 8)).1 + dNat d 24 4 / 4096 + k)
    ((bs.drop (4096 * k)).take 4096) (decide (k + 1 = dNat d 12 4 / 4096)))

theorem lastWriteFetch_taken {s : State} {ring slot : Nat} {d : Desc} {bs : List Byte} (hb : lastWriteBad d = none)
    (hl : lastWriteLocked s d = false) (hc : descFlag d 3 = true → crc32c (fit (dNat d 12 4) bs) = dNat d 28 4) :
    lastWriteFetch s ring slot d (.data bs) = kpsRequests s (sectorWrites ring slot d (fit (dNat d 12 4) bs)) := by
  have hcrc : ¬(descFlag d 3 = true ∧ crc32c (fit (dNat d 12 4) bs) ≠ dNat d 28 4) := fun ⟨h1, h2⟩ => h2 (hc h1)
  unfold lastWriteFetch
  rw [hb]
  dsimp only
  rw [if_neg (by simp [hl]), if_neg hcrc, kpsRequests, sectorWrites, List.foldl_map]
  rfl

end Sys2Proof.Machine
end

section
/-! PROOF. What a well-formed descriptor begins in its unit. -/

namespace Sys2Proof.Machine

section Fetch

variable {s : State} {n : Nat} {d : Desc} {data : HostRead} (hf : fetchable s n d = true) (hr : roleHead (ringRole s n) = none)
  (ho : d.opcode ≠ 12)

include hf hr ho

/-- A unit that takes the descriptor and leaves the rings and the power state alone. -/
theorem fetchDesc_unit (f : State → State) (hk : ∀ u, (f u).rng = u.rng) (hp : ∀ u, (f u).pwr = u.pwr)
    (hu : ∀ c, workActs (entered (inCycle c s) n d data 1) (fetchedWork s n d data 0) = f (entered (inCycle c s) n d data 1)) :
    ∃ c, onlyChanges [] (f (entered (inCycle c s) n d data 1)) (fetchDesc s n d data)
      ∧ (fetchDesc s n d data).rng.work = [fetchedWork s n d data 1] := by
  have hw : ∀ c, (f (entered (inCycle c s) n d data 1)).rng.work = [fetchedWork s n d data 1] := fun c => by
    rw [hk]
    exact entered_work (inCycle c s) n d data 1
  obtain ⟨c, ht⟩ := fetchDesc_executes hf hr hu (fun c => ringsQuiet_of_one (hw c) (show 1 ≠ 0 by decide) ho)
    (fun c => by rw [hp]; rfl)
  exact ⟨c, ht, by rw [ht.2 .rng (by decide), hw]⟩

end Fetch

/-- An OBJECTS of the head's own ring joins its lists (05 R183). -/
theorem objects_fetched {s : State} {n : Nat} {d : Desc} {h : Head} (hrole : ringRole s n = if h = .a then 4 else 5)
    (hf : fetchable s n d = true) (ho : d.opcode = 4) (hb : objectsBad d h = none) (hj : (joined s && h == .b) = false)
    (hn : dByte d 9 ≠ 0) : (fetchDesc s n d (.data [])).shd.get h
        = { s.shd.get h with lists := (s.shd.get h).lists ++ [listBegun n (ringOf s n).devIdx d] }
      ∧ (fetchDesc s n d (.data [])).rng.work = [fetchedWork s n d (.data []) 1] := by
  have hnone : roleHead (ringRole s n) = none := by
    rw [hrole]
    cases h <;> rfl
  have htakes : roleTakes (fetchedWork s n d (.data []) 0).role 4 = true := by
    rw [show (fetchedWork s n d (.data []) 0).role = _ from hrole]
    cases h <;> rfl
  have hhead : (if (fetchedWork s n d (.data []) 0).role = 4 then Head.a else Head.b) = h := by
    rw [show (fetchedWork s n d (.data []) 0).role = _ from hrole]
    cases h <;> rfl
  obtain ⟨c, ht, hw⟩ := fetchDesc_unit hf hnone (by rw [ho]; decide)
    (fun u => modShd u h (fun e => { e with lists := e.lists ++ [listBegun n (ringOf s n).devIdx d] })) (fun _ => rfl) (fun _ => rfl)
    (fun c => by
      rw [workActs_objects rfl htakes ho, hhead]
      exact objectsFetch_taken (s := entered (inCycle c s) n d (.data []) 1) hb hj hn)
  refine ⟨?_, hw⟩
  rw [(ht.2 .shd (by decide)).1, get_modShd, if_pos rfl]
  rfl

/-- A CAL_UPLOAD takes the staging buffer (07 R251). -/
theorem cal_fetched {s : State} {n : Nat} {d : Desc} (hrole : ringRole s n = 6) (hf : fetchable s n d = true) (ho : d.opcode = 5)
    (hb : calBad s d = none) (hg : dByte d 8 = 1 → gateSet s 2 = true → s.saf.unlocked = true) :
    (fetchDesc s n d (.data [])).pxc = { s.pxc with cal := some (calBegun n (ringOf s n).devIdx d) }
      ∧ (fetchDesc s n d (.data [])).rng.work = [fetchedWork s n d (.data []) 1] := by
  have htakes : roleTakes (fetchedWork s n d (.data []) 0).role 5 = true := by
    rw [show (fetchedWork s n d (.data []) 0).role = _ from hrole]
    rfl
  obtain ⟨c, ht, hw⟩ := fetchDesc_unit hf (by rw [hrole]; rfl) (by rw [ho]; decide)
    (fun u => { u with pxc := { u.pxc with cal := some (calBegun n (ringOf s n).devIdx d) } }) (fun _ => rfl) (fun _ => rfl)
    (fun c => (workActs_cal rfl htakes ho).trans (calFetch_taken (s := entered (inCycle c s) n d (.data []) 1) hb hg))
  exact ⟨ht.2 .pxc (by decide), hw⟩

/-- A LAST_WRITE asks the keeping store for its sectors (20 R665). -/
theorem lastWrite_fetched {s : State} {n : Nat} {d : Desc} {bs : List Byte} (hrole : ringRole s n = 6) (hf : fetchable s n d = true)
    (ho : d.opcode = 6) (hb : lastWriteBad d = none) (hl : lastWriteLocked s d = false)
    (hc : descFlag d 3 = true → crc32c (fit (dNat d 12 4) bs) = dNat d 28 4) :
    ∃ c, onlyChanges [] (kpsRequests (entered (inCycle c s) n d (.data bs) 1)
        (sectorWrites n (ringOf s n).devIdx d (fit (dNat d 12 4) bs))) (fetchDesc s n d (.data bs))
      ∧ ∃ st, (fetchDesc s n d (.data bs)).rng.work = [fetchedWork s n d (.data bs) st] := by
  have htakes : roleTakes (fetchedWork s n d (.data bs) 0).role 6 = true := by
    rw [show (fetchedWork s n d (.data bs) 0).role = _ from hrole]
    rfl
  have hact : ∀ c, workActs (entered (inCycle c s) n d (.data bs) 1) (fetchedWork s n d (.data bs) 0)
      = lastWriteFetch (entered (inCycle c s) n d (.data bs) 1) n (ringOf s n).devIdx d (.data bs) := fun c =>
    workActs_lastWrite rfl htakes ho
  have hlone : ∀ c, _ := fun c => kpsRequests_leaves (sectorWrites n (ringOf s n).devIdx d (fit (dNat d 12 4) bs))
    (s := entered (inCycle c s) n d (.data bs) 1) (w := fetchedWork s n d (.data bs) 1) ⟨1, by decide, rfl⟩
  obtain ⟨c, ht⟩ := fetchDesc_executes hf (by rw [hrole]; rfl) (fun c => (hact c).trans (lastWriteFetch_taken hb hl hc))
    (fun c => by
      obtain ⟨⟨st, h0, hw⟩, -⟩ := hlone c
      exact ringsQuiet_of_one hw h0 (show d.opcode ≠ 12 by rw [ho]; decide))
    (fun c => (hlone c).2)
  obtain ⟨⟨st, -, hw⟩, -⟩ := hlone c
  exact ⟨c, ht, st, by rw [ht.2 .rng (by decide), hw]; rfl⟩

/-- A CRC_JOB begins, and one of no data is done but for its completion (14 R513, R516). -/
theorem crc_fetched {s : State} {n : Nat} {d : Desc} (hrole : ringRole s n = 7) (hf : fetchable s n d = true) (ho : d.opcode = 7)
    (hb : crcJobBad s d = none) :
    (fetchDesc s n d (.data [])).rng.work = [fetchedWork s n d (.data []) (if dNat d 12 4 = 0 then 2 else 1)] := by
  have htakes : roleTakes (fetchedWork s n d (.data []) 0).role 7 = true := by
    rw [show (fetchedWork s n d (.data []) 0).role = _ from hrole]
    rfl
  have hbad : (fetchedWork s n d (.data []) 0).bad = none := by
    rw [show (fetchedWork s n d (.data []) 0).bad = fetchBad s (ringRole s n) d from rfl, fetchBad, if_pos ⟨hrole, ho⟩, hb]
  have hact : ∀ c, workActs (entered (inCycle c s) n d (.data []) 1) (fetchedWork s n d (.data []) 0)
      = if dNat d 12 4 = 0 then entered (inCycle c s) n d (.data []) 2 else entered (inCycle c s) n d (.data []) 1 := fun c => by
    rw [workActs_crc rfl htakes ho, hbad]
    exact if_congr Iff.rfl (stageWork_one (entered_work (inCycle c s) n d (.data []) 1) 2) rfl
  have hwork : ∀ c, (if dNat d 12 4 = 0 then entered (inCycle c s) n d (.data []) 2 else entered (inCycle c s) n d (.data []) 1).rng.work
      = [fetchedWork s n d (.data []) (if dNat d 12 4 = 0 then 2 else 1)] := fun c => by split <;> rfl
  obtain ⟨c, ht⟩ := fetchDesc_executes hf (by rw [hrole]; rfl) hact
    (fun c => ringsQuiet_of_one (hwork c) (show (if dNat d 12 4 = 0 then 2 else 1) ≠ 0 by split <;> decide)
      (show d.opcode ≠ 12 by rw [ho]; decide))
    (fun c => by split <;> rfl)
  rw [ht.2 .rng (by decide)]
  exact hwork c

/-- A LACE_FRAME is staged for its chain (13 R496). -/
theorem lace_fetched {s : State} {n : Nat} {d : Desc} (hrole : ringRole s n = 8) (hf : fetchable s n d = true) (ho : d.opcode = 8)
    (hb : laceBad s d = none) :
    (∀ k, chainOf (fetchDesc s n d (.data [])) k = if k = dByte d 8
        then { chainOf s (dByte d 8) with staged := some (n, (ringOf s n).devIdx, []), ready := false } else chainOf s k)
      ∧ (fetchDesc s n d (.data [])).rng.work = [fetchedWork s n d (.data []) 1] := by
  have htakes : roleTakes (fetchedWork s n d (.data []) 0).role 8 = true := by
    rw [show (fetchedWork s n d (.data []) 0).role = _ from hrole]
    rfl
  have hbad : (fetchedWork s n d (.data []) 0).bad = none := by
    rw [show (fetchedWork s n d (.data []) 0).bad = fetchBad s (ringRole s n) d from rfl, fetchBad, if_neg (by rw [hrole]; exact fun h => absurd h.1 (by decide)),
      if_pos ⟨hrole, ho⟩, hb]
  obtain ⟨c, ht, hw⟩ := fetchDesc_unit hf (by rw [hrole]; rfl) (by rw [ho]; decide)
    (fun u => modChain u (dByte d 8) (fun e => { e with staged := some (n, (ringOf s n).devIdx, []), ready := false }))
    (fun _ => rfl) (fun _ => rfl)
    (fun c => by
      rw [workActs_lace rfl htakes ho, hbad]
      rfl)
  refine ⟨fun k => ?_, hw⟩
  rw [chainOf, ht.2 .lce (by decide)]
  exact chainOf_modChain (entered (inCycle c s) n d (.data []) 1) (dByte d 8) k _

/-- A descriptor of the network's rings that passes its checks waits for its data or for a frame (11 R419, R424). -/
theorem net_fetched {s : State} {n : Nat} {d : Desc} (hf : fetchable s n d = true) (hr : roleHead (ringRole s n) = none)
    (ho : d.opcode ≠ 12) (hact : ∀ c, workActs (entered (inCycle c s) n d (.data []) 1) (fetchedWork s n d (.data []) 0)
      = entered (inCycle c s) n d (.data []) 1) :
    (fetchDesc s n d (.data [])).rng.work = [fetchedWork s n d (.data []) 1] ∧ (fetchDesc s n d (.data [])).net = s.net := by
  obtain ⟨c, ht, hw⟩ := fetchDesc_unit hf hr ho (fun u => u) (fun _ => rfl) (fun _ => rfl) hact
  exact ⟨hw, ht.2 .net (by decide)⟩

theorem tx_fetched {s : State} {n p : Nat} {d : Desc} (hp : p < 2) (hrole : ringRole s n = 9 + p) (hf : fetchable s n d = true)
    (ho : d.opcode = 9) (hb : txBad s p d = none) :
    (fetchDesc s n d (.data [])).rng.work = [fetchedWork s n d (.data []) 1] ∧ (fetchDesc s n d (.data [])).net = s.net := by
  have hp2 : p = 0 ∨ p = 1 := by omega
  have htakes : roleTakes (fetchedWork s n d (.data []) 0).role 9 = true := by
    rw [show (fetchedWork s n d (.data []) 0).role = _ from hrole]
    obtain rfl | rfl := hp2 <;> rfl
  have hport : (fetchedWork s n d (.data []) 0).role - 9 = p := by
    rw [show (fetchedWork s n d (.data []) 0).role = _ from hrole]
    omega
  refine net_fetched hf (by rw [hrole]; obtain rfl | rfl := hp2 <;> rfl) (by rw [ho]; decide) fun c => ?_
  rw [workActs_tx rfl htakes ho, hport, txFetch, show txBad (entered (inCycle c s) n d (.data []) 1) p
    (fetchedWork s n d (.data []) 0).desc = none from hb]

theorem rx_fetched {s : State} {n p : Nat} {d : Desc} (hp : p < 2) (hrole : ringRole s n = 11 + p) (hf : fetchable s n d = true)
    (ho : d.opcode = 10) (hb : rxBad p d = none) :
    (fetchDesc s n d (.data [])).rng.work = [fetchedWork s n d (.data []) 1] ∧ (fetchDesc s n d (.data [])).net = s.net := by
  have hp2 : p = 0 ∨ p = 1 := by omega
  have htakes : roleTakes (fetchedWork s n d (.data []) 0).role 10 = true := by
    rw [show (fetchedWork s n d (.data []) 0).role = _ from hrole]
    obtain rfl | rfl := hp2 <;> rfl
  have hport : (fetchedWork s n d (.data []) 0).role - 11 = p := by
    rw [show (fetchedWork s n d (.data []) 0).role = _ from hrole]
    omega
  refine net_fetched hf (by rw [hrole]; obtain rfl | rfl := hp2 <;> rfl) (by rw [ho]; decide) fun c => ?_
  rw [workActs_rx rfl htakes ho, hport, rxFetch, show rxBad p (fetchedWork s n d (.data []) 0).desc = none from hb]

/-- Settles O14: a descriptor that passes its checks goes on executing at its next stage, and its unit's own work is the rest. -/
theorem unitDescriptors : Obligations.UnitDescriptors := by
  unfold Obligations.UnitDescriptors
  intro s n d
  refine ⟨fun h e he hrole hf hb hj hn => ⟨fetchDesc s n e (.data []), by rw [he]; rfl, ?_⟩,
    fun e he hrole hf hb hg => ⟨fetchDesc s n e (.data []), by rw [he]; rfl, ?_⟩,
    fun e bs he hrole hf hb hl hc => ?_,
    fun e he hrole hf hb => ⟨fetchDesc s n e (.data []), by rw [he]; rfl, ?_⟩,
    fun e he hrole hf hb => ⟨fetchDesc s n e (.data []), by rw [he]; rfl, ?_⟩,
    fun e p he hp hrole hf hb => ⟨fetchDesc s n e (.data []), by rw [he]; rfl, ?_⟩,
    fun e p he hp hrole hf hb => ⟨fetchDesc s n e (.data []), by rw [he]; rfl, ?_⟩⟩
  · obtain ⟨hshd, hw⟩ := objects_fetched hrole hf (by rw [he]; rfl) hb hj hn
    refine ⟨?_, hw⟩
    rw [hshd, listBegun, show e.tag = d.tag by rw [he]; rfl]
  · obtain ⟨hpxc, hw⟩ := cal_fetched hrole hf (by rw [he]; rfl) hb hg
    exact ⟨by rw [hpxc], by rw [hpxc]; rfl, hw⟩
  · obtain ⟨c, ht, st, hw⟩ := lastWrite_fetched hrole hf (by rw [he]; rfl) hb hl hc
    refine ⟨fetchDesc s n e (.data bs), st, by rw [he]; rfl, hw, fun hcur => ?_⟩
    rw [kpsRequests_busy _ (by exact hcur)] at ht
    refine ⟨?_, ht.2 .kps (by decide)⟩
    have hone : (fetchDesc s n e (.data bs)).rng.work = [fetchedWork s n e (.data bs) 1] := ht.2 .rng (by decide) ▸ rfl
    exact congrArg Work.stage (List.head_eq_of_cons_eq (hw.symm.trans hone))
  · exact crc_fetched hrole hf (by rw [he]; rfl) hb
  · obtain ⟨hchain, hw⟩ := lace_fetched hrole hf (by rw [he]; rfl) hb
    exact ⟨(hchain _).trans (if_pos rfl), fun k hk => (hchain k).trans (if_neg hk), hw⟩
  · exact tx_fetched hp hrole hf (by rw [he]; rfl) hb
  · exact rx_fetched hp hrole hf (by rw [he]; rfl) hb

end Sys2Proof.Machine
end

section
/-! SUPPORT. What a stitch point, the echoes of a stitch and the completions of a stitch leave: no generator changes but for a sweep
that is spoilt, no ring wakes and no output is taken back (01 R26, R30, R32, 10 R397, R404). -/

namespace Sys2Proof.Machine

/-- What leaves the collector, the power, the resets and the generators alone, and of the executing descriptors adds none. -/
theorem memStep_of_rests {ps : List Part} {s t : State} (h : onlyChanges ps s t)
    (hp : Part.flt ∉ ps ∧ Part.pwr ∉ ps ∧ Part.rst ∉ ps ∧ Part.tg ∉ ps) (hw : workRests s t) (ho : outGrows s t) : MemStep s t := by
  obtain ⟨h1, h2, h3, h4⟩ := hp
  exact ⟨⟨fun i hi => sticky_of_onlyChanges h h1 ▸ hi, fltJudges_congr (congrArg Pwr.domains (h.2 .pwr h2)) (h.2 .rst h3),
    fun hq => ringsQuiet_of_subset hq hw, fun he => List.eq_nil_iff_forall_not_mem.mpr fun w hx => by
      have hs := hw w hx
      rw [he] at hs
      exact List.not_mem_nil hs⟩, sweepKept_of_only h h4, ho⟩

/-! ## The stitch point (01 R32, 07 R282, 10 R404, 03 R130) -/

theorem setStep_writeRecord (s : State) (role : Nat) (body : List Byte) : SetStep s (writeRecord s role body).2 := by
  unfold writeRecord
  split
  · exact setStep_refl s
  next n _ =>
    split
    · exact setStep_refl s
    dsimp only
    split
    · exact setStep_modRing s n fun e => { e with lost := satAdd 0xFFFF e.lost 1 }
    · have h1 : ∀ a bs, SetStep s (advance (postWrite s a bs) n) := fun a bs =>
        setStep_trans (setStep_of_only (postWrite_only s a bs) (by decide)) ⟨rfl, fun _ => rfl, fun _ => rfl⟩
      exact setStep_trans (h1 _ _) (setStep_ringIrq ..)

theorem memStep_snapshotNow (s : State) (h : Head) (noStitch : Bool) (time : Word) : MemStep s (snapshotNow s h noStitch time) := by
  unfold snapshotNow
  extract_lets s1
  have h1 : MemStep s s1 := memStep_of_rests (writeRecord_only ..) (by decide) (workRests_of_eq (setStep_writeRecord ..).work)
    (outGrows_writeRecord ..)
  exact memStep_trans h1 (memStep_foldl (fun u t => memStep_of_only (modTile_only u h t _) (by decide)) _ s1)

theorem memStep_cblDone (s : State) (kind number target outcome : Nat) : MemStep s (cblDone s kind number target outcome) :=
  ⟨(storeStep_cblDone s kind number target outcome).harmless, sweepKept_of_only (cblDone_only ..) (by decide),
    outGrows_of_only (cblDone_only ..) (by decide)⟩

theorem memStep_applyMarks (s : State) (h : Head) : MemStep s (applyMarks s h) := by
  unfold applyMarks
  extract_lets s0 ms s1
  have h0 : MemStep s s0 := memStep_clientRead ..
  have h1 : MemStep s0 s1 := memStep_of_only (modPxc_only ..) (by decide)
  have hmark : ∀ u (m : Nat × Nat × Nat), MemStep u (cblDone (putHealth u h m.1 (m.2.1 + 1)) 3 m.2.2 (pixelTarget u h m.1) 1) := fun u m =>
    memStep_trans (memStep_clientPut u _ _ : MemStep u (putHealth u h m.1 (m.2.1 + 1))) (memStep_cblDone ..)
  exact memStep_trans h0 (memStep_trans h1 (memStep_foldl hmark _ s1))

theorem memStep_fwdLatch (s : State) (h : Head) (i : Nat) : MemStep s (fwdLatch s h i) := by
  unfold fwdLatch
  extract_lets code carriers s1
  have h1 : MemStep s s1 := memStep_of_only (modTbl_only ..) (by decide)
  exact memStep_ite (memStep_refl s) (memStep_ite h1 (memStep_trans h1 (memStep_trans (memStep_raise ..) (memStep_cblDone ..))))

theorem memStep_fwdStitchPoint (s : State) (h : Head) (stitched : Bool) : MemStep s (fwdStitchPoint s h stitched) := by
  unfold fwdStitchPoint
  extract_lets s1
  have h1 : MemStep s s1 := memStep_ite (memStep_foldl (fun u i => memStep_fwdLatch u h i) _ s) (memStep_refl s)
  have hbegin : MemStep s1 ((List.range 4).foldl (fun acc i => fwdBegin acc h i) s1) :=
    memStep_foldl (fun u i => memStep_of_only (fwdBegin_only u h i) (by decide)) _ s1
  have hconfig : ∀ u, MemStep u (reconfigure u h) := fun u =>
    memStep_of_rests (reconfigure_only u h) (by decide) (workRests_of_only (reconfigure_only u h) (by decide)) (outGrows_reconfigure u h)
  exact memStep_trans h1 (memStep_trans hbegin (hconfig _))

theorem memStep_retireFinish (s : State) : MemStep s (retireFinish s) := by
  unfold retireFinish
  split
  · exact memStep_refl s
  · refine memStep_ite ?_ (memStep_refl s)
    extract_lets s1 s2
    have h2 : MemStep s s2 := memStep_trans (memStep_modBank ..) (memStep_modBank ..)
    exact memStep_trans h2 (memStep_trans (memStep_modLmm ..) (memStep_trans (memStep_cblDone ..) (memStep_kpsRequest ..)))

theorem memStep_retireSwitch (s : State) (h : Head) : MemStep s (retireSwitch s h) := by
  unfold retireSwitch
  split
  · exact memStep_refl s
  · exact memStep_ite (memStep_trans (memStep_modLmm ..) (memStep_retireFinish _)) (memStep_refl s)

theorem memStep_stitchPoint (s : State) (h : Head) (stitched : Bool) (time : Word) : MemStep s (stitchPoint s h stitched time) := by
  have hoverdue : ∀ u, MemStep u (overdueLevel u h) := fun u => memStep_setLevel ..
  unfold stitchPoint
  extract_lets s1 s2
  have h1 : MemStep s s1 := memStep_snapshotNow ..
  have h2 : MemStep s1 s2 := memStep_trans (memStep_applyMarks s1 h) (hoverdue _)
  exact memStep_trans h1 (memStep_trans h2 (memStep_trans (memStep_fwdStitchPoint ..) (memStep_retireSwitch ..)))

/-! ## The paths' side of a stitch and what it completes (01 R26, R30, 02 R80, R92, 10 R397) -/

theorem memStep_sendLanes (s : State) (h : Head) (c : LaneCmd) : MemStep s (sendLanes s h c) :=
  memStep_of_rests (sendLanes_only s h c) (by decide) (workRests_of_only (sendLanes_only s h c) (by decide)) (outGrows_sendLanes s h c)

theorem memStep_echoesAwait (s : State) (h : Head) (b : Nat) (f : Word) : MemStep s (echoesAwait s h b f) := by
  unfold echoesAwait
  refine memStep_foldl (fun u t => memStep_ite ?_ (memStep_refl u)) _ s
  extract_lets acc inj crc
  have h1 : MemStep u acc := memStep_clientRead ..
  have h2 : MemStep acc (if inj then spendInj acc else acc) := memStep_ite (memStep_spendInj acc) (memStep_refl acc)
  exact memStep_trans h1 (memStep_trans h2 (memStep_of_only (modTile_only ..) (by decide)))

/-- A path's side of a stitch: the frame's number and time, and the echoes that are awaited. -/
theorem memStep_stitchPath (s : State) (f time : Word) (b : Nat) (h : Head) :
    MemStep (modTg s h fun t => { t with fsn := f, stitchTime := time }) (stitchPath s f time b h) := by
  unfold stitchPath
  extract_lets s1 s2 s3
  have h2 : MemStep s1 s2 := memStep_of_only (modBld_only ..) (by decide)
  have h3 : MemStep s2 s3 := memStep_trans (memStep_of_only (probesAdvance_only s2 h) (by decide)) (memStep_of_only (modPxc_only ..) (by decide))
  exact memStep_trans h2 (memStep_trans h3 (memStep_echoesAwait ..))

theorem setStep_setsComplete (s : State) (h : Head) (fsn time : Word) : SetStep s (setsComplete s h fsn time) := by
  unfold setsComplete closeSet
  refine setStep_foldl (fun u c => ?_) _ s
  have h1 : SetStep u (modRngHead (modRngHead u h fun e => { e with csnApplied := c.csn }) h
      fun e => { e with sets := e.sets.filter fun x => !(x.csn == c.csn) }) :=
    setStep_trans (setStep_modRngHead u h (fun e => { e with csnApplied := c.csn }) fun _ => ⟨rfl, rfl⟩)
      (setStep_modRngHead _ h (fun e => { e with sets := e.sets.filter fun x => !(x.csn == c.csn) }) fun _ => ⟨rfl, rfl⟩)
  exact setStep_trans h1 (setStep_trans (setStep_completeSet ..) (setStep_recordOutcome ..))

theorem completeStitch_rests (s : State) (ring slot code detail : Nat) (fsn time : Word) :
    workRests s (completeStitch s ring slot code detail fsn time) := by
  have hdrop : workRests s (dropWork s ring slot) := fun _ hw => List.mem_of_mem_filter hw
  have hdesc : ∀ c d, workRests (dropWork s ring slot) (completeDescAt (dropWork s ring slot) c d code detail d.csn fsn time) := fun c d => by
    unfold completeDescAt
    exact workRests_ite (workRests_of_eq rfl) (workRests_of_eq (writeCpl_work ..))
  unfold completeStitch leaveWork
  split
  · exact workRests_of_eq rfl
  · exact workRests_ite hdrop (workRests_trans hdrop (hdesc _ _))

theorem listsComplete_rests (s : State) (h : Head) (fsn time : Word) : workRests s (listsComplete s h fsn time) := by
  have hfold : ∀ ls : List ObjList, workRests s (ls.foldl (fun acc l => completeStitch acc l.ring l.slot 0 0 fsn time) s) := fun ls =>
    foldl_inv (workRests s) _ ls s (workRests_of_eq rfl) fun u l hu => workRests_trans hu (completeStitch_rests u l.ring l.slot 0 0 fsn time)
  exact workRests_trans (hfold _) (workRests_of_eq rfl)

theorem calLatch_rests (s : State) (h : Head) (fsn : Word) : workRests s (calLatch s h fsn) := by
  have hfinish : ∀ u, workRests u (calFinish u) := fun u => by
    unfold calFinish
    extract_lets ready _ s1
    have h1 : workRests u s1 := workRests_of_eq rfl
    exact foldl_inv (workRests u) _ _ s1 h1 fun v c hv => workRests_trans hv (completeAt_rests _ _ _ _ _ _)
  unfold calLatch
  extract_lets s1 s2
  have h1 : workRests s s1 := workRests_of_eq rfl
  have h2 : workRests s s2 := by
    unfold s2
    split
    · exact workRests_ite (workRests_trans h1 (completeAt_rests _ _ _ _ _ _)) h1
    · exact h1
  exact workRests_trans h2 (hfinish s2)

theorem memStep_stitchComplete (s : State) (f time : Word) (h : Head) : MemStep s (stitchComplete s f time h) := by
  refine memStep_of_rests (stitchComplete_only s f time h) (by decide) ?_ ?_
  · exact workRests_trans (workRests_of_eq (setStep_setsComplete s h f time).work)
      (workRests_trans (listsComplete_rests _ h f time) (calLatch_rests _ h f))
  · exact outGrows_trans (outGrows_setsComplete s h f time) (outGrows_trans (outGrows_listsComplete _ h f time) (outGrows_calLatch _ h f))

theorem ltrHigher_tg (s : State) (changed : Bool) : (ltrHigher s changed).tg = s.tg := by
  have hsend : ∀ u v, (sendLtr u v).tg = u.tg := fun u v => (sendLtr_only u v).2 .tg (by decide)
  unfold ltrHigher
  extract_lets tol s1
  split
  · split
    · rfl
    · exact hsend s1 tol
  · rfl

theorem memStep_ltrAtStitch (s : State) (h : Head) : MemStep s (ltrAtStitch s h) := by
  refine ⟨harmless_of_only (ltrAtStitch_only s h) (by decide), sweepKept_of_tg ?_, ?_⟩
  · exact ltrHigher_tg (modLy s h fun e => { e with shown := e.swept }) _
  · exact outGrows_trans (t := modLy s h fun e => { e with shown := e.swept }) (outGrows_of_eq rfl) (outGrows_ltrHigher ..)

end Sys2Proof.Machine
end

section
/-! PROOF. The stitch, and the slack that ends without one (01 R26, R27, R29, 08 R306 to R309). -/

namespace Sys2Proof.Machine

/-! ## What the paths do to a generator after it has stitched or repeated -/

/-- A generator that is as it was, but for a sweep that is spoilt and for the FIFO of drive totals. -/
structure TgAlike (x y : Tg) : Prop where
  rest : y = { x with composed := y.composed, full := y.full, driveAccepted := y.driveAccepted }
  lost : y.composed = true → x.composed = true

theorem tgAlike_refl (x : Tg) : TgAlike x x := ⟨rfl, id⟩

theorem tgAlike_trans {x y z : Tg} (h : TgAlike x y) (k : TgAlike y z) : TgAlike x z :=
  ⟨k.rest.trans (by rw [h.rest]), fun hc => h.lost (k.lost hc)⟩

/-- No sticky bit falls, no ring wakes, no output is taken back, and of the generators a sweep is spoilt at most. -/
structure PathStep (s t : State) : Prop where
  harmless : Harmless s t
  out : outGrows s t
  tg : ∀ h, TgAlike (s.tg.get h) (t.tg.get h)

theorem pathStep_of_mem {s t : State} (h : MemStep s t) : PathStep s t :=
  ⟨h.harmless, h.out, fun k => ⟨by rw [h.sweep.tg k], h.sweep.lost k⟩⟩

theorem pathStep_trans {s t u : State} (h : PathStep s t) (k : PathStep t u) : PathStep s u :=
  ⟨harmless_trans h.harmless k.harmless, outGrows_trans h.out k.out, fun x => tgAlike_trans (h.tg x) (k.tg x)⟩

theorem pathStep_foldl {α : Type} {f : State → α → State} (hf : ∀ u a, PathStep u (f u a)) (l : List α) (s : State) :
    PathStep s (l.foldl f s) :=
  foldl_inv (fun t => PathStep s t) f l s (pathStep_of_mem (memStep_refl s)) fun t a ht => pathStep_trans ht (hf t a)

theorem pathStep_sendDrive (s : State) (h : Head) (v : Nat) (repeated : Bool) : PathStep s (sendDrive s h v repeated) := by
  refine ⟨harmless_of_only (sendDrive_only s h v repeated) (by decide), outGrows_of_only (sendDrive_only s h v repeated) (by decide),
    fun k => ?_⟩
  unfold sendDrive
  extract_lets s1
  split
  · rw [get_modTg]
    split
    · next hk =>
      rw [hk]
      exact ⟨rfl, id⟩
    · exact tgAlike_refl _
  · exact tgAlike_refl _

/-! ## The stitch (08 R306, R307) -/

/-- The paths' side of a stitch for the generator that stitched: its frame number and time stand (01 R33). -/
theorem stitchPaths_leaves {s : State} {h : Head} (ht : timer s h = h) (u : State) (f time : Word) (b : Nat) :
    Harmless u ((served s h).foldl (fun acc x => stitchPath acc f time b x) u)
      ∧ outGrows u ((served s h).foldl (fun acc x => stitchPath acc f time b x) u)
      ∧ TgAlike { u.tg.get h with fsn := f, stitchTime := time }
          (((served s h).foldl (fun acc x => stitchPath acc f time b x) u).tg.get h) := by
  have hone : ∀ v x, Harmless v (stitchPath v f time b x) ∧ outGrows v (stitchPath v f time b x)
      ∧ ∀ k, TgAlike (if k = x then { v.tg.get x with fsn := f, stitchTime := time } else v.tg.get k)
          ((stitchPath v f time b x).tg.get k) := fun v x => by
    have hp := pathStep_of_mem (memStep_stitchPath v f time b x)
    have hm := modTg_only v x fun t => { t with fsn := f, stitchTime := time }
    refine ⟨harmless_trans (harmless_of_only hm (by decide)) hp.harmless, outGrows_trans (outGrows_of_only hm (by decide)) hp.out,
      fun k => ?_⟩
    have hk := hp.tg k
    rw [get_modTg] at hk
    exact hk
  by_cases hj : joined s = true
  · have hh : h = .a := by rw [← ht, timer, if_pos hj]
    subst hh
    rw [served, if_pos hj]
    obtain ⟨a1, a2, a3⟩ := hone u .a
    obtain ⟨b1, b2, b3⟩ := hone (stitchPath u f time b .a) .b
    have ha := a3 .a
    have hb := b3 .a
    rw [if_pos rfl] at ha
    rw [if_neg (by decide)] at hb
    exact ⟨harmless_trans a1 b1, outGrows_trans a2 b2, tgAlike_trans ha hb⟩
  · rw [served, if_neg hj]
    obtain ⟨a1, a2, a3⟩ := hone u h
    have ha := a3 h
    rw [if_pos rfl] at ha
    exact ⟨a1, a2, ha⟩

/-- What `stitchMay` says, part by part, of the generator. -/
theorem timer_of_stitchMay {s : State} {h : Head} (hm : stitchMay s h = true) : timer s h = h := by
  simp only [stitchMay, Bool.and_eq_true, beq_iff_eq] at hm
  obtain ⟨⟨⟨-, ht⟩, -⟩, -⟩ := hm
  exact ht

/-- The generator as a stitch leaves it (08 R307). -/
def stitched (s : State) (h : Head) (late : Bool) : Tg :=
  { s.tg.get h with front := backBuffer s h, stitchOpen := false, due := true, lastRepeated := false, run := 0,
                    slipped := if late then satAdd 0xFFFF (s.tg.get h).slipped 1 else (s.tg.get h).slipped,
                    fsn := (s.tg.get h).fsn + 1#32, stitchTime := time32 s, sinceSnap := 0 }

/-- The STITCH that a stitch sends to its heads is among the outputs, where the head's lanes carry it. -/
theorem stitchSent {s : State} {h : Head} (hl : linkLive s h = true) (ha : someLaneActive s h = true) (ht : timer s h = h) (c : LaneCmd) :
    Output.lanes h c ∈ ((served s h).foldl (fun acc x => sendLanes acc x c) s).out := by
  by_cases hj : joined s = true
  · have hh : h = .a := by rw [← ht, timer, if_pos hj]
    subst hh
    rw [served, if_pos hj]
    exact (outGrows_sendLanes (sendLanes s .a c) .b c).subset (sendLanes_sends hl ha c)
  · rw [served, if_neg hj]
    exact sendLanes_sends hl ha c

theorem stitchNow_leaves {s : State} {h : Head} (late : Bool) (hm : stitchMay s h = true) :
    (ringsQuiet s = true → ringsQuiet (stitchNow s h late) = true)
      ∧ TgAlike (stitched s h late) ((stitchNow s h late).tg.get h)
      ∧ (linkLive s h = true → someLaneActive s h = true →
        Output.lanes h (.stitch (((s.tg.get h).fsn + 1#32).toNat % 256)) ∈ (stitchNow s h late).out) := by
  have ht := timer_of_stitchMay hm
  unfold stitchNow
  rw [if_neg (by simp [hm])]
  extract_lets time f b s1 s2 s3 s4 s5
  have h1 : PathStep s s1 := pathStep_foldl (fun u x => pathStep_of_mem (memStep_sendLanes u x _)) _ s
  have htg1 : s1.tg = s.tg := (foldl_only (onlyChanges_refl [.out, .free, .lanes] s) fun u x => sendLanes_only u x _).2 .tg (by decide)
  have hserved : served s2 h = served s h := by
    have hregs : s1.regs = s.regs := regs_of_onlyChanges
      (foldl_only (onlyChanges_refl [.out, .free, .lanes] s) fun u x => sendLanes_only u x _) (by decide)
    have hj : joined s2 = joined s := congrArg (fun w => bit w 1) (getReg_of_regs hregs _)
    rw [served, served, hj]
  have htg2 : s2.tg.get h = { s.tg.get h with front := b, stitchOpen := false, due := true, lastRepeated := false, run := 0, slipped := if late then satAdd 0xFFFF (s.tg.get h).slipped 1 else (s.tg.get h).slipped } := by
    unfold s2
    rw [get_modTg, if_pos rfl, htg1]
  obtain ⟨h3, o3, t3⟩ := stitchPaths_leaves ht s2 f time b
  rw [← hserved, htg2] at t3
  rw [← hserved] at h3 o3
  have h4 : PathStep s3 s4 := pathStep_trans (pathStep_foldl (fun u x => pathStep_of_mem (memStep_stitchComplete u f time x)) _ s3)
    (pathStep_of_mem (memStep_ltrAtStitch _ h))
  have h5 : PathStep s4 s5 := pathStep_foldl (fun u x => pathStep_of_mem (memStep_stitchPoint u x true time)) _ s4
  have h35 : PathStep s3 s5 := pathStep_trans h4 h5
  refine ⟨fun hq => h35.harmless.quiet (h3.quiet (h1.harmless.quiet hq)), ?_, fun hl ha => ?_⟩
  · have h6 := tgAlike_trans t3 (h35.tg h)
    rw [get_modTg, if_pos rfl]
    exact ⟨by rw [h6.rest]; rfl, h6.lost⟩
  · exact h35.out.subset (o3.subset (stitchSent hl ha ht _))

/-! ## A slack that ends (01 R29, 08 R308, R309) -/

/-- HUSK or DARK holds a head that a slack's end would repeat (08 R308). -/
def slackHeld (s : State) (h : Head) : Bool := (served s h).any (fun x => decide (2 ≤ (s.saf.heads.get x).state))

/-- The generator as a slack with no stitch leaves it (08 R308, R309). -/
def slackTg (s : State) (h : Head) : Tg :=
  let e := { s.tg.get h with stitchOpen := false, due := true, composed := false, lastRepeated := true }
  if slackHeld s h then e
  else { e with run := satAdd 0xFF e.run 1, repeats := satAdd 0xFFFF e.repeats 1, sinceSnap := satAdd 0xFFFF e.sinceSnap 1 }

theorem repeatFault_tg (s : State) (h : Head) (was : Nat) : (repeatFault s h was).tg = s.tg := (repeatFault_only s h was).2 .tg (by decide)

theorem pathStep_repeatFault (s : State) (h : Head) (was : Nat) : PathStep s (repeatFault s h was) := by
  unfold repeatFault
  exact pathStep_of_mem (memStep_ite (memStep_raise ..) (memStep_refl s))

/-- FRAME_REPEAT is raised where the run reaches a multiple of its limit (08 R309). -/
theorem repeatFault_sticky {s : State} {h : Head} {was : Nat} (hj : fltJudges s = true) (hl : regFld s (tgBase h + 0x3C) 7 0 ≠ 0)
    (hr : (s.tg.get h).run ≠ was) (hm : (s.tg.get h).run % regFld s (tgBase h + 0x3C) 7 0 = 0) :
    (repeatFault s h was).flt.sticky.getLsbD (19 + Head.idx h) = true := by
  unfold repeatFault
  dsimp only
  rw [if_pos ⟨hl, hr, hm⟩]
  exact raise_sticky_self s _ _ _ hj (by cases h <;> decide)

theorem slackTg_fields (s : State) (h : Head) : (slackTg s h).stitchOpen = false ∧ (slackTg s h).due = true
    ∧ (slackTg s h).composed = false ∧ (slackTg s h).lastRepeated = true ∧ (slackTg s h).fsn = (s.tg.get h).fsn
    ∧ (slackTg s h).front = (s.tg.get h).front
    ∧ (slackHeld s h = true → (slackTg s h).run = (s.tg.get h).run ∧ (slackTg s h).repeats = (s.tg.get h).repeats)
    ∧ (slackHeld s h = false → (slackTg s h).run = satAdd 0xFF (s.tg.get h).run 1
      ∧ (slackTg s h).repeats = satAdd 0xFFFF (s.tg.get h).repeats 1) := by
  unfold slackTg
  cases slackHeld s h <;> simp

/-- The state in which the end of a slack is noted and a run of repeats judged (08 R308, R309). -/
def slackMarked (s : State) (h : Head) : State :=
  let s1 := modTg (stampCore s).2 h (fun e => { e with stitchOpen := false, due := true, composed := false, lastRepeated := true })
  if slackHeld s h then s1
  else repeatFault (modTg s1 h (fun e =>
    { e with run := satAdd 0xFF e.run 1, repeats := satAdd 0xFFFF e.repeats 1, sinceSnap := satAdd 0xFFFF e.sinceSnap 1 })) h (s.tg.get h).run

theorem slackMarked_leaves (s : State) (h : Head) : Harmless s (slackMarked s h) ∧ (slackMarked s h).tg.get h = slackTg s h := by
  have htg : (stampCore s).2.tg = s.tg := (stampCore_only s).2 .tg (by decide)
  unfold slackMarked slackTg
  extract_lets s1 _ e
  have h1 : Harmless s s1 := harmless_trans (harmless_of_only (stampCore_only s) (by decide)) (harmless_of_only (modTg_only ..) (by decide))
  have he : s1.tg.get h = e := by
    unfold s1 e
    rw [get_modTg, if_pos rfl, htg]
  split
  · exact ⟨h1, he⟩
  · refine ⟨harmless_trans h1 (harmless_trans (harmless_of_only (modTg_only ..) (by decide)) (pathStep_repeatFault ..).harmless), ?_⟩
    rw [repeatFault_tg, get_modTg, if_pos rfl, he]

theorem slackMarked_sticky {s : State} {h : Head} (hh : slackHeld s h = false) (hj : fltJudges s = true)
    (hl : regFld s (tgBase h + 0x3C) 7 0 ≠ 0) (hr : (s.tg.get h).run < 255)
    (hm : ((s.tg.get h).run + 1) % regFld s (tgBase h + 0x3C) 7 0 = 0) :
    (slackMarked s h).flt.sticky.getLsbD (19 + Head.idx h) = true := by
  have htg : (stampCore s).2.tg = s.tg := (stampCore_only s).2 .tg (by decide)
  have hsat : satAdd 0xFF (s.tg.get h).run 1 = (s.tg.get h).run + 1 := by
    unfold satAdd
    split <;> omega
  unfold slackMarked
  extract_lets s1
  rw [if_neg (by simp [hh])]
  set u := modTg s1 h fun e =>
    { e with run := satAdd 0xFF e.run 1, repeats := satAdd 0xFFFF e.repeats 1, sinceSnap := satAdd 0xFFFF e.sinceSnap 1 } with hu
  have hrun : (u.tg.get h).run = (s.tg.get h).run + 1 := by
    rw [hu, get_modTg, if_pos rfl, get_modTg, if_pos rfl, htg, ← hsat]
  have hfld : regFld u (tgBase h + 0x3C) 7 0 = regFld s (tgBase h + 0x3C) 7 0 :=
    congrArg (fun w => fld w 7 0) (getReg_of_regs (regs_of_onlyChanges (stampCore_only s) (by decide)) _)
  have hjudge : fltJudges u = true :=
    (harmless_of_only (stampCore_only s) (by decide) : Harmless s (stampCore s).2).judges.trans hj
  exact repeatFault_sticky hjudge (by rw [hfld]; exact hl) (by rw [hrun]; omega) (by rw [hrun, hfld]; exact hm)

/-- After the mark the drive totals leave and the heads' stitch points follow (08 R308, 06 R242, 01 R32). -/
theorem slackEnds_after {s : State} {h : Head} (hp : pixLive s = true) (ht : timer s h = h) (ho : (s.tg.get h).stitchOpen = true) :
    ∃ u, PathStep (slackMarked s h) u ∧ slackEnds s h = modTg u h (fun e => { e with sinceSnap := 0 }) := by
  have hdrive : ∀ (u : State) (x : Head), PathStep u (sendDrive u x (u.bld.get x).shownTotal true) := fun u x => pathStep_sendDrive ..
  refine ⟨_, pathStep_trans (pathStep_foldl hdrive (served (slackMarked s h) h) _)
    (pathStep_foldl (fun u x => pathStep_of_mem (memStep_stitchPoint u x false (stampCore s).1))
      (served ((served (slackMarked s h) h).foldl (fun acc x => sendDrive acc x (acc.bld.get x).shownTotal true) (slackMarked s h)) h) _), ?_⟩
  unfold slackEnds
  extract_lets t
  rw [if_neg (by simp [t, hp, ht, ho])]
  rfl

theorem slackEnds_leaves {s : State} {h : Head} (hp : pixLive s = true) (ht : timer s h = h) (ho : (s.tg.get h).stitchOpen = true) :
    Harmless s (slackEnds s h) ∧ TgAlike { slackTg s h with sinceSnap := 0 } ((slackEnds s h).tg.get h)
      ∧ ∀ i, (slackMarked s h).flt.sticky.getLsbD i = true → (slackEnds s h).flt.sticky.getLsbD i = true := by
  obtain ⟨u, hu, he⟩ := slackEnds_after hp ht ho
  obtain ⟨hm, htg⟩ := slackMarked_leaves s h
  have hend : Harmless u (modTg u h fun e => { e with sinceSnap := 0 }) := harmless_of_only (modTg_only ..) (by decide)
  rw [he]
  refine ⟨harmless_trans hm (harmless_trans hu.harmless hend), ?_, fun i hi => hend.sticky i (hu.harmless.sticky i hi)⟩
  have hk := hu.tg h
  rw [htg] at hk
  rw [get_modTg, if_pos rfl]
  exact ⟨by rw [hk.rest], hk.lost⟩

/-! ## The commands -/

/-- With no FENCE fetched, no FENCE asks for a stitch (02 R80). -/
theorem fencesStitch_quiet {s : State} (hq : ringsQuiet s = true) (u : State) (h : Head) : fencesStitch s u h = u := by
  have hnone : s.rng.work.filter (fun w => w.stage == 2 && w.desc.opcode == 12 && nbit w.stitches (Head.idx h)) = [] := by
    refine List.filter_eq_nil_iff.mpr fun w hw => ?_
    simp [((ringsQuiet_iff s).mp hq w hw).2]
  unfold fencesStitch
  rw [hnone]
  rfl

theorem exec_stitch (s : State) (h : Head) (late : Bool) : exec (.stitch h late) s = .next (inOneCycle (fun s => if stitchMay s h then
    ringSettle ((served s h).foldl (fun acc h => fencesStitch s acc h) (stitchNow s h late)) else s) s) := rfl

/-- Settles O23: what follows a stitch or a slack's end leaves the generator but for a spoilt sweep, and takes back neither an output
nor a sticky bit. -/
theorem stitchEvents : Obligations.StitchEvents := by
  unfold Obligations.StitchEvents
  refine ⟨fun s h late hm hq => ?_, fun s h hp hq ht ho => ?_⟩
  · obtain ⟨c, hc, ho⟩ := inOneCycle_grows (fun s => if stitchMay s h then
      ringSettle ((served s h).foldl (fun acc h => fencesStitch s acc h) (stitchNow s h late)) else s) s
    have hm' : stitchMay (inCycle c s) h = true := hm
    obtain ⟨hquiet, htg, hout⟩ := stitchNow_leaves late hm'
    have hfences : (served (inCycle c s) h).foldl (fun acc h => fencesStitch (inCycle c s) acc h) (stitchNow (inCycle c s) h late)
        = stitchNow (inCycle c s) h late :=
      foldl_inv (fun u => u = stitchNow (inCycle c s) h late) _ _ _ rfl fun u x hu => (fencesStitch_quiet hq u x).trans hu
    rw [if_pos hm', hfences, ringSettle_of_quiet (hquiet hq)] at hc ho
    refine ⟨_, exec_stitch s h late, ?_⟩
    rw [hc.2 .tg (by decide), htg.rest]
    exact ⟨rfl, rfl, rfl, rfl, rfl, rfl, rfl, rfl, fun hl ha => ho.subset (hout hl ha)⟩
  · obtain ⟨c, hc⟩ := inOneCycle_window (fun s => ringSettle (slackEnds s h)) s
    obtain ⟨hharm, htg, hsticky⟩ := slackEnds_leaves (s := inCycle c s) (h := h) hp ht ho
    rw [ringSettle_of_quiet (hharm.quiet hq)] at hc
    obtain ⟨hopen, hdue, hcomposed, hrepeated, hfsn, hfront, hheld, hrun⟩ := slackTg_fields (inCycle c s) h
    refine ⟨inOneCycle (fun s => ringSettle (slackEnds s h)) s, rfl, ?_⟩
    rw [hc.2 .tg (by decide), sticky_of_onlyChanges hc (by decide), htg.rest]
    refine ⟨hopen, hdue, Bool.eq_false_iff.mpr fun hx => ?_, hrepeated, hfsn, hfront, hheld, fun hh => ?_⟩
    · exact absurd ((htg.lost hx).symm.trans hcomposed) (by decide)
    · obtain ⟨hr1, hr2⟩ := hrun hh
      exact ⟨hr1, hr2, fun hj hl h255 hm => hsticky _ (slackMarked_sticky (s := inCycle c s) hh hj hl h255 hm)⟩

end Sys2Proof.Machine
end
